-- ==== Sys2Proof/Word.lean ====
section
/-! DEFINITION. The word types of the MDN-4832: the 48-bit word (R8), the 96-bit quantity value CYC:FRC (R16), the 120-bit accumulator and the 24-bit pointer of the user cores (R411). -/
namespace Sys2Proof

/-- A 48-bit word, bit 0 the least significant (R8). -/
abbrev Word := BitVec 48
/-- A quantity value CYC:FRC in units of 2^-48 cycle, wrapping modulo 2^96 (R16, R29). -/
abbrev Qval := BitVec 96
/-- A user-core accumulator: 96 product bits and 24 guard bits (R411). -/
abbrev Acc := BitVec 120
/-- A 24-bit address, pointer or index (R10, R411). -/
abbrev Addr := BitVec 24

/-- A table indexed by instance number, sparse: strictly rising keys, an unlisted instance holds the default the reader names. -/
abbrev Tab (α : Type) := List (Nat × α)

end Sys2Proof
end

