-- ==== Sys2Proof/Syntax.lean ====
section
/-! DEFINITION. The commands of the MDN-4832, one constructor of `Instr` per row of spec/opcode_table.json, in the table's order, and the operands they carry. Partner commands carry the envelope of their packet (R279) and its parameter words as received; register rows carry the path and the value; event rows carry what the world outside the model measured (edges, sums, frames). -/
namespace Sys2Proof

/-- What passed since the command before: counter clocks of 654.72 MHz (R32) and edges of the 32.768 kHz crystal (R454). -/
structure Lapse where
  clk  : Nat
  tick : Nat
  deriving DecidableEq, Repr

/-- The endpoint a packet comes from (R344, R349). -/
inductive Endpoint where
  | udp4 (ip : BitVec 32) (port : BitVec 16)
  | udp6 (ip : BitVec 128) (port : BitVec 16)
  | raw (mac : Word)
  | spi
  deriving DecidableEq, Repr

/-- The envelope of one whole Skonus command packet (R279): host port, endpoint, source MAC, PARTNER, SEQ, and the tag words when AUTH is set. -/
structure Env where
  port    : Nat
  ep      : Endpoint
  mac     : Word
  partner : Nat
  seq     : Word
  tag     : Option (List Word)
  deriving DecidableEq, Repr

/-- A register access reaches the module in a partner's packet or through S0 (R510). -/
inductive Via where
  | packet (env : Env)
  | s0
  deriving DecidableEq, Repr

/-- One received Ethernet frame that carries a Skonus segment (R345, R347). `bytes` is how many payload bytes stand after the transport word. -/
structure Frame where
  port    : Nat
  ep      : Endpoint
  mac     : Word
  vlan    : Nat
  dport   : Nat
  fragment : Bool
  sumBad  : Bool
  bytes   : Nat
  xport   : Word
  words   : List Word
  deriving DecidableEq, Repr

/-- An engine's slot boundary (R83, R105): the engine, whether the slot that begins is its forward slot of the millisecond, and the energies that the check of the slot that ends found at the input and output of its transform. -/
structure GaleWork where
  engine   : Nat
  forward  : Bool
  inE      : Nat
  outE     : Nat
  deriving DecidableEq, Repr

/-- The stream samples (R62) under the integrations of a channel that have ended since it was last told of one (R116): one list per integration, in their order. -/
structure KDump where
  chan : Nat
  ints : List (List (BitVec 8))
  deriving DecidableEq, Repr

/-- What Ndovos predicts for one channel with ephemeris or almanac of its satellite (R145): the transmit time in ps of GPS time, and σ_tau of R102 in ps. -/
structure ObsIn where
  chan    : Nat
  tx      : Nat
  sigTau  : Nat
  deriving DecidableEq, Repr

/-- What a solution epoch finds of X3 (R179): whether the 10 MHz is there, the noise of the pulse comparison in ps, and the time counter's frequency error against the 10 MHz with its 1σ (10^-15). -/
structure SolveIn where
  ref10    : Bool
  refNoise : Nat
  refFofs  : Int
  refTqf   : Nat
  deriving DecidableEq, Repr

/-- What Ndovos itself asks of Kite (R108, R160): a channel, as the words of KITE_ASSIGN, the release of a channel, a train formed or broken. -/
inductive Own where
  | chan (ws : List Word)
  | free (n : Nat)
  | train (t : Nat) (combine : Bool) (slots : List Nat)
  | brk (t : Nat)
  deriving DecidableEq, Repr

/-- What reaches a stream in the block that ends at a boundary (R61-R73): the voltage at the antenna connector, one number per converter sample, and the lines that the spectrum of R71 shows (offset in 5 kHz, depth that a notch there achieves in dB, level in dB above the noise floor). -/
structure StreamIn where
  stream  : Nat
  volts   : List Int
  lines   : List (Int × Nat × Nat)
  deriving DecidableEq, Repr

/-- One request waiting at a bank in a memory cycle (R437): master, word address, data of a write, urgency, and what its ECC check finds (0 none, 1 single-bit, 2 double-bit). -/
structure MemReq where
  master : Nat
  addr   : Nat
  data   : Option Word
  urgent : Bool
  ecc    : Nat
  deriving DecidableEq, Repr

/-- Sources of MOV (R421, R422 Table 4). -/
inductive MovSrc where
  | d (i : Nat) | ap (i : Nat) | ix (i : Nat) | off (i : Nat) | ln (i : Nat) | mode | qcyc (n : Nat) | qfrc (n : Nat) | cycnt
  deriving DecidableEq, Repr

/-- Destinations of MOV (R422 Table 4). -/
inductive MovDst where
  | d (i : Nat) | ap (i : Nat) | ix (i : Nat) | off (i : Nat) | ln (i : Nat) | mode
  deriving DecidableEq, Repr

/-- One half of a DMAC (R413): mode, subtract, accumulator, operands. -/
structure MacHalf where
  mode : Nat
  sub  : Bool
  acc  : Nat
  x    : Nat
  y    : Nat
  deriving DecidableEq, Repr

/-- A local load of a DMAC: pointer and destination (R422). -/
structure MacLoad where
  ap : Nat
  dd : Nat
  deriving DecidableEq, Repr

/-- The ALU operations an ALUI can name (R422). -/
inductive AluOp where
  | add | sub | and | or | xor | shl | shr | sar | cmp | abs | neg | min | max
  deriving DecidableEq, Repr

/-- One record a store lacks, or holds differently, when replay compares the stores with the
seals (R334): the record's JSN, the store (0 or 1), and whether another store holds it whole. -/
structure Find where
  jsn : Nat
  store : Nat
  other : Bool
  deriving DecidableEq, Repr

/-- The commands: one constructor per row of the table. -/
inductive Instr where
  | ping (t : Lapse) (env : Env) (ps : List Word)
  | hello (t : Lapse) (env : Env) (ps : List Word)
  | goodbye (t : Lapse) (env : Env) (ps : List Word)
  | regRead (t : Lapse) (env : Env) (ps : List Word)
  | regWrite (t : Lapse) (env : Env) (ps : List Word)
  | regModify (t : Lapse) (env : Env) (ps : List Word)
  | tbLeapCommit (t : Lapse) (via : Via) (v : Word)
  | qcfg0 (t : Lapse) (via : Via) (n : Nat) (v : Word)
  | qsetCommit (t : Lapse) (via : Via) (n : Nat) (v : Word)
  | outCommit (t : Lapse) (via : Via) (n : Nat) (v : Word)
  | rtcSetCommit (t : Lapse) (via : Via) (v : Word)
  | ethCommit (t : Lapse) (via : Via) (h : Nat) (v : Word)
  | partKeyCommit (t : Lapse) (via : Via) (p : Nat) (v : Word)
  | partKeyErase (t : Lapse) (via : Via) (p : Nat)
  | partSeqreset (t : Lapse) (via : Via) (p : Nat) (v : Word)
  | bkClear (t : Lapse) (via : Via) (v : Word)
  | galeRsel (t : Lapse) (via : Via) (v : Word)
  | pllFreq (t : Lapse) (via : Via) (v : Word)
  | qstatGroupOpen (t : Lapse) (via : Via) (n off : Nat)
  | qend (t : Lapse) (via : Via) (n : Nat)
  | shadowExpiry (t : Lapse) (path : Nat) (q : Option Nat)
  | rtcSec (t : Lapse) (via : Via)
  | rtcFrac (t : Lapse) (via : Via)
  | modeSet (t : Lapse) (env : Env) (ps : List Word)
  | modeGet (t : Lapse) (env : Env) (ps : List Word)
  | aidTime (t : Lapse) (env : Env) (ps : List Word)
  | aidPosition (t : Lapse) (env : Env) (ps : List Word)
  | aidOrbit (t : Lapse) (env : Env) (ps : List Word)
  | galeJob (t : Lapse) (env : Env) (ps : List Word)
  | galeCancel (t : Lapse) (env : Env) (ps : List Word)
  | kiteAssign (t : Lapse) (env : Env) (ps : List Word)
  | kiteRelease (t : Lapse) (env : Env) (ps : List Word)
  | trainForm (t : Lapse) (env : Env) (ps : List Word)
  | trainBreak (t : Lapse) (env : Env) (ps : List Word)
  | measConfig (t : Lapse) (env : Env) (ps : List Word)
  | navbitsConfig (t : Lapse) (env : Env) (ps : List Word)
  | solConfig (t : Lapse) (env : Env) (ps : List Word)
  | pulseConfig (t : Lapse) (env : Env) (ps : List Word)
  | timeStepPermit (t : Lapse) (env : Env) (ps : List Word)
  | qtyConfig (t : Lapse) (env : Env) (ps : List Word)
  | qtyRead (t : Lapse) (env : Env) (ps : List Word)
  | schedAdd (t : Lapse) (env : Env) (ps : List Word)
  | schedCancel (t : Lapse) (env : Env) (ps : List Word)
  | schedQuery (t : Lapse) (env : Env) (ps : List Word)
  | smpConfig (t : Lapse) (env : Env) (ps : List Word)
  | smpStart (t : Lapse) (env : Env) (ps : List Word)
  | smpStop (t : Lapse) (env : Env) (ps : List Word)
  | smpSlotmask (t : Lapse) (env : Env) (ps : List Word)
  | lendiConfig (t : Lapse) (env : Env) (ps : List Word)
  | lendiSend (t : Lapse) (env : Env) (ps : List Word)
  | lendiPair (t : Lapse) (env : Env) (ps : List Word)
  | lendiUnpair (t : Lapse) (env : Env) (ps : List Word)
  | pwrBudget (t : Lapse) (env : Env) (ps : List Word)
  | pwrDomainForce (t : Lapse) (env : Env) (ps : List Word)
  | pwrDomainRelease (t : Lapse) (env : Env) (ps : List Word)
  | pwrDomainDormant (t : Lapse) (env : Env) (ps : List Word)
  | padRelease (t : Lapse) (env : Env) (ps : List Word)
  | rtcSet (t : Lapse) (env : Env) (ps : List Word)
  | rtcAlarm (t : Lapse) (env : Env) (ps : List Word)
  | rtcTrimManual (t : Lapse) (env : Env) (ps : List Word)
  | rtcTrimMains (t : Lapse) (env : Env) (ps : List Word)
  | rtcTrimTether (t : Lapse) (env : Env) (ps : List Word)
  | rtcTrimPartnerOpen (t : Lapse) (env : Env) (ps : List Word)
  | rtcTrimPartnerClose (t : Lapse) (env : Env) (ps : List Word)
  | rtcTrimStop (t : Lapse) (env : Env) (ps : List Word)
  | backupConfig (t : Lapse) (env : Env) (ps : List Word)
  | journalState (t : Lapse) (env : Env) (ps : List Word)
  | journalQuery (t : Lapse) (env : Env) (ps : List Word)
  | eventAck (t : Lapse) (env : Env) (ps : List Word)
  | eventResync (t : Lapse) (env : Env) (ps : List Word)
  | dspLoadData (t : Lapse) (env : Env) (ps : List Word)
  | dspLoadCommit (t : Lapse) (env : Env) (ps : List Word)
  | dspLoadUnload (t : Lapse) (env : Env) (ps : List Word)
  | dspTaskStart (t : Lapse) (env : Env) (ps : List Word)
  | dspTaskAbort (t : Lapse) (env : Env) (ps : List Word)
  | selftest (t : Lapse) (env : Env) (ps : List Word)
  | selftestDone (t : Lapse) (failed : Nat)
  | resetModule (t : Lapse) (env : Env) (ps : List Word)
  | resetCmd (t : Lapse) (env : Env) (ps : List Word)
  | resetBegin (t : Lapse)
  | fwUpdateBegin (t : Lapse) (env : Env) (ps : List Word)
  | fwUpdateData (t : Lapse) (env : Env) (ps : List Word)
  | fwUpdateCommit (t : Lapse) (env : Env) (ps : List Word)
  | fwUpdateAbort (t : Lapse) (env : Env) (ps : List Word)
  | fwUpdateActivate (t : Lapse) (env : Env) (ps : List Word)
  | ethSegment (t : Lapse) (f : Frame)
  | reassemblyTimeout (t : Lapse) (port : Nat) (ep : Endpoint)
  | arpRequest (t : Lapse) (port vlan : Nat) (target : BitVec 32) (mac : Word)
  | neighbourSolicitation (t : Lapse) (port vlan : Nat) (target : BitVec 128) (mac : Word)
  | icmpEcho (t : Lapse) (port vlan : Nat) (v6 : Bool) (mac : Word) (payload : List (BitVec 8))
  | spiStatus (t : Lapse) (port : Nat) (idleHigh : Bool) (cw : Word)
  | spiWrite (t : Lapse) (port : Nat) (idleHigh : Bool) (cw : Word) (ws : List Word) (cut : Bool)
  | spiRead (t : Lapse) (port : Nat) (idleHigh : Bool) (cw : Word)
  | s0Write (t : Lapse) (addr : Nat) (ws : List Word) (cut : Bool)
  | s0Read (t : Lapse) (addr : Option Nat) (count : Nat)
  | s0AddressMatch (t : Lapse) (addr : Nat)
  | hostPortFailed (t : Lapse) (port : Nat)
  | hostSelfCheck (t : Lapse) (port : Nat) (passed : Bool)
  | lendiWindowStart (t : Lapse) (l : Nat) (dep4 : Int)
  | gatewayWindowMarker (t : Lapse) (l : Nat) (wseq : Nat) (arr4 : Int)
  | link (t : Lapse) (l : Nat) (ws : List Word)
  | ack (t : Lapse) (l : Nat) (ws : List Word)
  | credit (t : Lapse) (l : Nat) (ws : List Word)
  | tstamp (t : Lapse) (l : Nat) (ws : List Word)
  | qrep (t : Lapse) (l : Nat) (ws : List Word)
  | rel (t : Lapse) (l : Nat) (ws : List Word)
  | resp (t : Lapse) (l : Nat) (ws : List Word)
  | ackTimeout (t : Lapse) (l : Nat)
  | tlockLost (t : Lapse) (l : Nat)
  | linkDown (t : Lapse) (l : Nat) (cause : Nat)
  | linkFailed (t : Lapse) (l : Nat)
  | linkRestored (t : Lapse) (l : Nat)
  | undeliveredLink (t : Lapse) (jsn : Word)
  | relq (t : Lapse) (jsn : Word)
  | relqTimeout (t : Lapse) (jsn : Word)
  | sendResent (t : Lapse) (jsn : Word)
  | noResponse (t : Lapse) (jsn : Word)
  | sendUndelivered (t : Lapse) (jsn : Word)
  | occurrenceArm (t : Lapse) (jsn : Word)
  | occurrenceRelease (t : Lapse) (jsn : Word)
  | class1Outcome (t : Lapse) (jsn : Word)
  | wheelSweep (t : Lapse)
  | directPathCopy (t : Lapse)
  | eventReevaluation (t : Lapse)
  | markFold (t : Lapse) (n : Nat)
  | groupComplete (t : Lapse)
  | ringCarry (t : Lapse) (n : Nat)
  | storeFailed (t : Lapse) (store : Nat)
  | remirrorEnd (t : Lapse) (store : Nat)
  | replay (t : Lapse) (testA testB : Bool) (finds : List Find)
  | leapChange (t : Lapse)
  | stepAnnounce (t : Lapse)
  | stepApply (t : Lapse)
  | slewDecision (t : Lapse)
  | slewEnd (t : Lapse)
  | quadCount (t : Lapse) (n : Nat) (isB level : Bool)
  | quadIndex (t : Lapse) (n : Nat)
  | quadIllegal (t : Lapse) (n : Nat)
  | ssiFrame (t : Lapse) (n : Nat) (data : Nat) (err low : Bool)
  | tachPulse (t : Lapse) (n : Nat)
  | mainsZeroCrossing (t : Lapse) (positive : Bool) (phase : Word)
  | ref1ppsPulse (t : Lapse)
  | qtyTimeout (t : Lapse) (n : Nat)
  | tpgEdge (t : Lapse) (n : Nat)
  | outConfigEffect (t : Lapse) (n : Nat)
  | outSquelch (t : Lapse) (n : Nat)
  | outResume (t : Lapse) (n : Nat)
  | outputCut (t : Lapse) (n : Nat)
  | pllUnlock (t : Lapse) (p : Nat)
  | pllHold (t : Lapse) (p : Nat)
  | pllLocked (t : Lapse) (p : Nat) (band : Nat) (search : Nat)
  | pllNoLock (t : Lapse) (p : Nat)
  | ocxoLost (t : Lapse)
  | ocxoFailed (t : Lapse)
  | ocxoBack (t : Lapse) (warm : Bool)
  | ocxoWarm (t : Lapse) (temp : Int)
  | freqPointChange (t : Lapse) (i pt : Nat)
  | voltPointChange (t : Lapse) (i pt : Nat)
  | voltageSettled (t : Lapse) (i : Nat)
  | rfBlockBoundary (t : Lapse) (streams : List StreamIn) (bias : List (Nat × Nat))
  | antShort (t : Lapse) (a : Nat)
  | biasRetry (t : Lapse) (a : Nat)
  | retriesClear (t : Lapse) (a : Nat)
  | antOpen (t : Lapse) (a ma : Nat)
  | antOk (t : Lapse) (a ma : Nat)
  | loUnlock (t : Lapse) (st : Nat)
  | loRelocked (t : Lapse) (st : Nat)
  | frontEndFailed (t : Lapse) (a : Nat)
  | blankHeavy (t : Lapse) (st frac : Nat)
  | blankHeavyClear (t : Lapse) (st frac : Nat)
  | galeSlot (t : Lapse) (w : GaleWork)
  | galeInputTimeout (t : Lapse) (slot : Nat)
  | kiteApplicationTick (t : Lapse)
  | kiteSnapshot (t : Lapse) (ofsPs : Nat) (dumps : List KDump)
  | kiteLoopUpdate (t : Lapse) (n : Nat) (ints : List (List (BitVec 8)))
  | kiteEvaluation (t : Lapse)
  | noPullIn (t : Lapse) (n : Nat)
  | cn0Loss (t : Lapse) (n : Nat)
  | memberDrop (t : Lapse) (n : Nat)
  | trainCoastTimeout (t : Lapse) (tr : Nat)
  | lostToIdle (t : Lapse) (n : Nat)
  | d5RetentionTimeout (t : Lapse)
  | measEpoch (t : Lapse) (obs : List ObsIn)
  | navMessageDecoded (t : Lapse) (n : Nat)
  | dedupTimeout (t : Lapse) (partner chan : Nat)
  | solutionEpoch (t : Lapse) (x : SolveIn) (own : List Own)
  | signalLoss (t : Lapse)
  | signalReturn (t : Lapse)
  | headingEpoch (t : Lapse)
  | holdMismatch (t : Lapse) (a : Nat)
  | modeTick (t : Lapse) (own : List Own)
  | snapshotWake (t : Lapse) (own : List Own)
  | fixEnd (t : Lapse)
  | snapshotMiss (t : Lapse)
  | smpFrameStart (t : Lapse) (p : Nat) (rising : Bool) (bclk clocks : Nat) (line : List (Bool × Bool))
  | smpMissingFrame (t : Lapse) (p bclk : Nat)
  | smpSampleWrite (t : Lapse) (p : Nat)
  | smpPortStart (t : Lapse) (p : Nat)
  | smpPortStop (t : Lapse) (p : Nat)
  | smpAudio (t : Lapse) (p pair : Nat)
  | taskStart (t : Lapse) (k : Nat)
  | budget (t : Lapse) (k : Nat)
  | nop (t : Lapse) (k : Nat)
  | endTask (t : Lapse) (k : Nat)
  | post (t : Lapse) (k : Nat) (ap : Nat) (shared : Bool) (dn : Nat)
  | dmac (t : Lapse) (k : Nat) (m0 m1 : MacHalf) (la lb : Option MacLoad)
  | add (t : Lapse) (k dd da db : Nat)
  | sub (t : Lapse) (k dd da db : Nat)
  | and (t : Lapse) (k dd da db : Nat)
  | or (t : Lapse) (k dd da db : Nat)
  | xor (t : Lapse) (k dd da db : Nat)
  | shl (t : Lapse) (k dd da db : Nat)
  | shr (t : Lapse) (k dd da db : Nat)
  | sar (t : Lapse) (k dd da db : Nat)
  | cmp (t : Lapse) (k dd da db : Nat)
  | abs (t : Lapse) (k dd da db : Nat)
  | neg (t : Lapse) (k dd da db : Nat)
  | min (t : Lapse) (k dd da db : Nat)
  | max (t : Lapse) (k dd da db : Nat)
  | alui (t : Lapse) (k : Nat) (op : AluOp) (dd da : Nat) (imm : Addr)
  | clr (t : Lapse) (k ak : Nat)
  | ext (t : Lapse) (k dd ak sh rnd : Nat) (sat : Bool)
  | mova (t : Lapse) (k ak dd : Nat)
  | sbc (t : Lapse) (k dd ak : Nat)
  | norm (t : Lapse) (k ak sh : Nat)
  | load (t : Lapse) (k : Nat) (isLocal : Bool) (ap dd : Nat) (modf : Bool)
  | store (t : Lapse) (k : Nat) (isLocal : Bool) (ap dd : Nat) (modf : Bool)
  | vmin (t : Lapse) (k : Nat) (uns : Bool) (ap : Nat) (isLocal : Bool) (dn dd : Nat)
  | vmax (t : Lapse) (k : Nat) (uns : Bool) (ap : Nat) (isLocal : Bool) (dn dd : Nat)
  | vbexp (t : Lapse) (k : Nat) (ap : Nat) (isLocal : Bool) (dn dd : Nat)
  | rot (t : Lapse) (k n dd da : Nat)
  | fun2 (t : Lapse) (k n dd da db : Nat)
  | br (t : Lapse) (k cond : Nat) (target : Addr)
  | loop (t : Lapse) (k : Nat) (endAddr : Addr) (dn : Nat)
  | mov (t : Lapse) (k : Nat) (dst : MovDst) (src : MovSrc)
  | illegal (t : Lapse) (k : Nat)
  | userCoreFailed (t : Lapse) (k : Nat)
  | coreHeartbeatLoss (t : Lapse) (c : Nat)
  | memoryAccess (t : Lapse) (reqs : List MemReq)
  | patrolLease (t : Lapse) (engine : Nat) (ecc : List (Nat × Nat)) (patternOk : Bool)
  | bankFailed (t : Lapse) (b : Nat)
  | spareCopyComplete (t : Lapse)
  | memRetentionIdle (t : Lapse)
  | rtcCommitTick (t : Lapse)
  | alarmFire (t : Lapse) (x : Nat)
  | rtcLeapChange (t : Lapse)
  | autoSync (t : Lapse)
  | trimWindowEnd (t : Lapse)
  | trimWindowTimeout (t : Lapse)
  | cellMeasurement (t : Lapse) (mv : Nat)
  | switchover (t : Lapse)
  | switchReturn (t : Lapse) (mv : Nat)
  | aonCold (t : Lapse)
  | governorEvaluation (t : Lapse) (demand : List (Nat × Nat)) (idle : List (Nat × Nat))
  | mainsLoss (t : Lapse)
  | mainsGoodReturn (t : Lapse)
  | bringUp (t : Lapse) (volts hz : Nat) (dc : Bool) (bad : List (Nat × Nat))
  | dormantEntry (t : Lapse)
  | wake (t : Lapse) (cause : Nat) (bad : List (Nat × Nat))
  | watchdog (t : Lapse) (src : Nat)
  | lockstepFault (t : Lapse)
  | converterStageFailed (t : Lapse) (stage : Nat)
  | ethLinkStayedUp (t : Lapse) (port : Nat)
  | lendiFrameDropped (t : Lapse) (l : Nat) (ws : List Word)
  deriving DecidableEq, Repr

end Sys2Proof
end

