-- ==== Sys2Proof/WellFormed.lean ====
section
/-! DEFINITION. Which operands the spec gives a command: instance numbers inside the 4832's counts (R4, R504, R509), fields inside their widths. A command whose operands lie outside them names nothing that exists. -/
namespace Sys2Proof

/-- A packet's envelope: a host port, a 4-bit PARTNER, four tag words (R279). -/
def envOk (e : Env) : Bool := decide (e.port < 4) && decide (e.partner < 16) && e.tag.all fun t => t.length == 4
/-- A register access by packet or through S0. -/
def viaOk (v : Via) : Bool := match v with | .packet e => envOk e | .s0 => true
/-- A frame on H0 or H1 whose packet words lie in its payload (R347). -/
def frameOk (f : Frame) : Bool := decide (f.port < 2) && f.ep != .spi && decide (f.vlan < 4096) && decide (6 * f.words.length ≤ f.bytes)
/-- A source of MOV (R411). -/
def movSrcOk (m : MovSrc) : Bool :=
  match m with
  | .d i => decide (i < 16) | .ap i => decide (i < 8) | .ix i => decide (i < 8) | .off i => decide (i < 8) | .ln i => decide (i < 8)
  | .mode => true | .qcyc n => decide (n < 16) | .qfrc n => decide (n < 16) | .cycnt => true
/-- A destination of MOV (R411). -/
def movDstOk (m : MovDst) : Bool :=
  match m with
  | .d i => decide (i < 16) | .ap i => decide (i < 8) | .ix i => decide (i < 8) | .off i => decide (i < 8) | .ln i => decide (i < 8) | .mode => true
/-- One half of a DMAC (R413). -/
def macOk (m : MacHalf) : Bool := decide (m.mode < 4) && decide (m.acc < 8) && decide (m.x < 16) && decide (m.y < 16)
/-- A load of a DMAC. -/
def loadOk (l : Option MacLoad) : Bool := l.all fun x => decide (x.ap < 8) && decide (x.dd < 16)
/-- A copy of a section of the backup store (R474): one of the eight sections, one of its two copies. -/
def copyOk (e : Nat × Nat) : Bool := decide (e.1 < 8) && decide (e.2 < 2)
/-- A request at a bank (R435). -/
def reqOk (r : MemReq) : Bool := decide (r.master < 16) && decide (r.addr < 2 ^ 24) && decide (r.ecc < 3)

/-- The operands lie where the spec has them. -/
def wellFormed (i : Instr) : Bool :=
  match i with
  | .ping _ env _ => envOk env
  | .hello _ env _ => envOk env
  | .goodbye _ env _ => envOk env
  | .regRead _ env _ => envOk env
  | .regWrite _ env _ => envOk env
  | .regModify _ env _ => envOk env
  | .tbLeapCommit _ via _ => viaOk via
  | .qcfg0 _ via n _ => viaOk via && decide (n < 16)
  | .qsetCommit _ via n _ => viaOk via && decide (n < 16)
  | .outCommit _ via n _ => viaOk via && decide (n < 8)
  | .rtcSetCommit _ via _ => viaOk via
  | .ethCommit _ via h _ => viaOk via && decide (h < 2)
  | .partKeyCommit _ via p _ => viaOk via && decide (p < 5)
  | .partKeyErase _ via p => viaOk via && decide (p < 5)
  | .partSeqreset _ via p _ => viaOk via && decide (p < 5)
  | .bkClear _ via _ => viaOk via
  | .galeRsel _ via _ => viaOk via
  | .pllFreq _ via _ => viaOk via
  | .qstatGroupOpen _ via n off => viaOk via && decide (n < 16) && decide (off < 7)
  | .qend _ via n => viaOk via && decide (n < 16)
  | .shadowExpiry _ path q => decide (path < 6) && (q.all fun n => decide (n < 16))
  | .rtcSec _ via => viaOk via
  | .rtcFrac _ via => viaOk via
  | .modeSet _ env _ => envOk env
  | .modeGet _ env _ => envOk env
  | .aidTime _ env _ => envOk env
  | .aidPosition _ env _ => envOk env
  | .aidOrbit _ env _ => envOk env
  | .galeJob _ env _ => envOk env
  | .galeCancel _ env _ => envOk env
  | .kiteAssign _ env _ => envOk env
  | .kiteRelease _ env _ => envOk env
  | .trainForm _ env _ => envOk env
  | .trainBreak _ env _ => envOk env
  | .measConfig _ env _ => envOk env
  | .navbitsConfig _ env _ => envOk env
  | .solConfig _ env _ => envOk env
  | .pulseConfig _ env _ => envOk env
  | .timeStepPermit _ env _ => envOk env
  | .qtyConfig _ env _ => envOk env
  | .qtyRead _ env _ => envOk env
  | .schedAdd _ env _ => envOk env
  | .schedCancel _ env _ => envOk env
  | .schedQuery _ env _ => envOk env
  | .smpConfig _ env _ => envOk env
  | .smpStart _ env _ => envOk env
  | .smpStop _ env _ => envOk env
  | .smpSlotmask _ env _ => envOk env
  | .lendiConfig _ env _ => envOk env
  | .lendiSend _ env _ => envOk env
  | .lendiPair _ env _ => envOk env
  | .lendiUnpair _ env _ => envOk env
  | .pwrBudget _ env _ => envOk env
  | .pwrDomainForce _ env _ => envOk env
  | .pwrDomainRelease _ env _ => envOk env
  | .pwrDomainDormant _ env _ => envOk env
  | .padRelease _ env _ => envOk env
  | .rtcSet _ env _ => envOk env
  | .rtcAlarm _ env _ => envOk env
  | .rtcTrimManual _ env _ => envOk env
  | .rtcTrimMains _ env _ => envOk env
  | .rtcTrimTether _ env _ => envOk env
  | .rtcTrimPartnerOpen _ env _ => envOk env
  | .rtcTrimPartnerClose _ env _ => envOk env
  | .rtcTrimStop _ env _ => envOk env
  | .backupConfig _ env _ => envOk env
  | .journalState _ env _ => envOk env
  | .journalQuery _ env _ => envOk env
  | .eventAck _ env _ => envOk env
  | .eventResync _ env _ => envOk env
  | .dspLoadData _ env _ => envOk env
  | .dspLoadCommit _ env _ => envOk env
  | .dspLoadUnload _ env _ => envOk env
  | .dspTaskStart _ env _ => envOk env
  | .dspTaskAbort _ env _ => envOk env
  | .selftest _ env _ => envOk env
  | .selftestDone _ failed => decide (failed < 64)
  | .resetModule _ env _ => envOk env
  | .resetCmd _ env _ => envOk env
  | .resetBegin _ => true
  | .fwUpdateBegin _ env _ => envOk env
  | .fwUpdateData _ env _ => envOk env
  | .fwUpdateCommit _ env _ => envOk env
  | .fwUpdateAbort _ env _ => envOk env
  | .fwUpdateActivate _ env _ => envOk env
  | .ethSegment _ f => frameOk f
  | .reassemblyTimeout _ port _ => decide (port < 2)
  | .arpRequest _ port vlan _ _ => decide (port < 2 ∧ vlan < 4096)
  | .neighbourSolicitation _ port vlan _ _ => decide (port < 2 ∧ vlan < 4096)
  | .icmpEcho _ port vlan _ _ _ => decide (port < 2 ∧ vlan < 4096)
  | .spiStatus _ port _ _ => decide (2 ≤ port ∧ port < 4)
  | .spiWrite _ port _ _ _ _ => decide (2 ≤ port ∧ port < 4)
  | .spiRead _ port _ _ => decide (2 ≤ port ∧ port < 4)
  | .s0Write _ addr _ _ => decide (addr < 2 ^ 24)
  | .s0Read _ addr _ => (addr.all fun a => decide (a < 2 ^ 24))
  | .s0AddressMatch _ addr => decide (addr < 128)
  | .hostPortFailed _ port => decide (port < 2)
  | .hostSelfCheck _ port _ => decide (port < 4)
  | .lendiWindowStart _ l _ => decide (l < 8)
  | .gatewayWindowMarker _ l _ _ => decide (l < 8)
  | .link _ l _ => decide (l < 8)
  | .ack _ l _ => decide (l < 8)
  | .credit _ l _ => decide (l < 8)
  | .tstamp _ l _ => decide (l < 8)
  | .qrep _ l _ => decide (l < 8)
  | .rel _ l _ => decide (l < 8)
  | .resp _ l _ => decide (l < 8)
  | .ackTimeout _ l => decide (l < 8)
  | .tlockLost _ l => decide (l < 8)
  | .linkDown _ l cause => decide (l < 8) && decide (cause < 16)
  | .linkFailed _ l => decide (l < 8)
  | .linkRestored _ l => decide (l < 8)
  | .undeliveredLink _ _ => true
  | .relq _ _ => true
  | .relqTimeout _ _ => true
  | .sendResent _ _ => true
  | .noResponse _ _ => true
  | .sendUndelivered _ _ => true
  | .occurrenceArm _ _ => true
  | .occurrenceRelease _ _ => true
  | .class1Outcome _ _ => true
  | .wheelSweep _ => true
  | .directPathCopy _ => true
  | .eventReevaluation _ => true
  | .markFold _ _ => true
  | .groupComplete _ => true
  | .ringCarry _ _ => true
  | .storeFailed _ store => decide (store < 2)
  | .remirrorEnd _ store => decide (store < 2)
  | .replay _ _ _ _ => true
  | .leapChange _ => true
  | .stepAnnounce _ => true
  | .stepApply _ => true
  | .slewDecision _ => true
  | .slewEnd _ => true
  | .quadCount _ n _ _ => decide (1 ≤ n ∧ n < 5)
  | .quadIndex _ n => decide (n < 16)
  | .quadIllegal _ n => decide (1 ≤ n ∧ n < 5)
  | .ssiFrame _ n _ _ _ => decide (n < 16)
  | .tachPulse _ n => decide (n < 16)
  | .mainsZeroCrossing _ _ _ => true
  | .ref1ppsPulse _ => true
  | .qtyTimeout _ n => decide (n < 16)
  | .tpgEdge _ n => decide (n < 8)
  | .outConfigEffect _ n => decide (n < 8)
  | .outSquelch _ n => decide (n < 8)
  | .outResume _ n => decide (n < 8)
  | .outputCut _ n => decide (n < 8)
  | .pllUnlock _ p => decide (p < 5)
  | .pllHold _ p => decide (p < 5)
  | .pllLocked _ p band _ => decide (p < 5) && decide (band < 64)
  | .pllNoLock _ p => decide (p < 5)
  | .ocxoLost _ => true
  | .ocxoFailed _ => true
  | .ocxoBack _ _ => true
  | .ocxoWarm _ _ => true
  | .freqPointChange _ i pt => decide (i < 4) && decide (pt < 3)
  | .voltPointChange _ i pt => decide (i < 4) && decide (pt < 3)
  | .voltageSettled _ i => decide (i < 4)
  | .rfBlockBoundary _ streams _ => (streams.all fun x => decide (x.stream < 12))
  | .antShort _ a => decide (a < 4)
  | .biasRetry _ a => decide (a < 4)
  | .retriesClear _ a => decide (a < 4)
  | .antOpen _ a _ => decide (a < 4)
  | .antOk _ a _ => decide (a < 4)
  | .loUnlock _ st => decide (st < 12)
  | .loRelocked _ st => decide (st < 12)
  | .frontEndFailed _ a => decide (a < 4)
  | .blankHeavy _ st _ => decide (st < 12)
  | .blankHeavyClear _ st _ => decide (st < 12)
  | .galeSlot _ w => decide (w.engine < 64)
  | .galeInputTimeout _ slot => decide (slot < 4096)
  | .kiteApplicationTick _ => true
  | .kiteSnapshot _ _ dumps => (dumps.all fun x => decide (x.chan < 512))
  | .kiteLoopUpdate _ n _ => decide (n < 512)
  | .kiteEvaluation _ => true
  | .noPullIn _ n => decide (n < 512)
  | .cn0Loss _ n => decide (n < 512)
  | .memberDrop _ n => decide (n < 512)
  | .trainCoastTimeout _ tr => decide (tr < 64)
  | .lostToIdle _ n => decide (n < 512)
  | .d5RetentionTimeout _ => true
  | .measEpoch _ obs => (obs.all fun x => decide (x.chan < 512))
  | .navMessageDecoded _ n => decide (n < 512)
  | .dedupTimeout _ partner chan => decide (partner < 5) && decide (chan < 512)
  | .solutionEpoch _ _ _ => true
  | .signalLoss _ => true
  | .signalReturn _ => true
  | .headingEpoch _ => true
  | .holdMismatch _ a => decide (a < 4)
  | .modeTick _ _ => true
  | .snapshotWake _ _ => true
  | .fixEnd _ => true
  | .snapshotMiss _ => true
  | .smpFrameStart _ p _ _ _ _ => decide (p < 8)
  | .smpMissingFrame _ p _ => decide (p < 8)
  | .smpSampleWrite _ p => decide (p < 8)
  | .smpPortStart _ p => decide (p < 8)
  | .smpPortStop _ p => decide (p < 8)
  | .smpAudio _ p pair => decide (p < 8) && decide (pair < 8)
  | .taskStart _ k => decide (k < 2)
  | .budget _ k => decide (k < 2)
  | .nop _ k => decide (k < 2)
  | .endTask _ k => decide (k < 2)
  | .post _ k ap _ dn => decide (k < 2) && decide (ap < 8) && decide (dn < 16)
  | .dmac _ k m0 m1 la lb => decide (k < 2) && macOk m0 && macOk m1 && loadOk la && loadOk lb
  | .add _ k dd da db => decide (k < 2) && decide (dd < 16) && decide (da < 16) && decide (db < 16)
  | .sub _ k dd da db => decide (k < 2) && decide (dd < 16) && decide (da < 16) && decide (db < 16)
  | .and _ k dd da db => decide (k < 2) && decide (dd < 16) && decide (da < 16) && decide (db < 16)
  | .or _ k dd da db => decide (k < 2) && decide (dd < 16) && decide (da < 16) && decide (db < 16)
  | .xor _ k dd da db => decide (k < 2) && decide (dd < 16) && decide (da < 16) && decide (db < 16)
  | .shl _ k dd da db => decide (k < 2) && decide (dd < 16) && decide (da < 16) && decide (db < 16)
  | .shr _ k dd da db => decide (k < 2) && decide (dd < 16) && decide (da < 16) && decide (db < 16)
  | .sar _ k dd da db => decide (k < 2) && decide (dd < 16) && decide (da < 16) && decide (db < 16)
  | .cmp _ k dd da db => decide (k < 2) && decide (dd < 16) && decide (da < 16) && decide (db < 16)
  | .abs _ k dd da db => decide (k < 2) && decide (dd < 16) && decide (da < 16) && decide (db < 16)
  | .neg _ k dd da db => decide (k < 2) && decide (dd < 16) && decide (da < 16) && decide (db < 16)
  | .min _ k dd da db => decide (k < 2) && decide (dd < 16) && decide (da < 16) && decide (db < 16)
  | .max _ k dd da db => decide (k < 2) && decide (dd < 16) && decide (da < 16) && decide (db < 16)
  | .alui _ k _ dd da _ => decide (k < 2) && decide (dd < 16) && decide (da < 16)
  | .clr _ k ak => decide (k < 2) && decide (ak < 8)
  | .ext _ k dd ak sh rnd _ => decide (k < 2) && decide (dd < 16) && decide (ak < 8) && decide (sh < 128) && decide (rnd < 4)
  | .mova _ k ak dd => decide (k < 2) && decide (ak < 8) && decide (dd < 16)
  | .sbc _ k dd ak => decide (k < 2) && decide (dd < 16) && decide (ak < 8)
  | .norm _ k ak sh => decide (k < 2) && decide (ak < 8) && decide (sh < 128)
  | .load _ k _ ap dd _ => decide (k < 2) && decide (ap < 8) && decide (dd < 16)
  | .store _ k _ ap dd _ => decide (k < 2) && decide (ap < 8) && decide (dd < 16)
  | .vmin _ k _ ap _ dn dd => decide (k < 2) && decide (ap < 8) && decide (dn < 16) && decide (dd < 15)
  | .vmax _ k _ ap _ dn dd => decide (k < 2) && decide (ap < 8) && decide (dn < 16) && decide (dd < 15)
  | .vbexp _ k ap _ dn dd => decide (k < 2) && decide (ap < 8) && decide (dn < 16) && decide (dd < 16)
  | .rot _ k n dd da => decide (k < 2) && decide (n < 8) && decide (dd < 16) && decide (da < 16)
  | .fun2 _ k n dd da db => decide (k < 2) && decide (n < 8) && decide (dd < 16) && decide (da < 16) && decide (db < 16)
  | .br _ k cond _ => decide (k < 2) && decide (cond < 14)
  | .loop _ k _ dn => decide (k < 2) && decide (dn < 16)
  | .mov _ k dst src => decide (k < 2) && movDstOk dst && movSrcOk src
  | .illegal _ k => decide (k < 2)
  | .userCoreFailed _ k => decide (k < 2)
  | .coreHeartbeatLoss _ c => decide (c < 2)
  | .memoryAccess _ reqs => reqs.all reqOk
  | .patrolLease _ engine _ _ => decide (engine < 4)
  | .bankFailed _ b => decide (b < 33)
  | .spareCopyComplete _ => true
  | .memRetentionIdle _ => true
  | .rtcCommitTick _ => true
  | .alarmFire _ x => decide (x < 2)
  | .rtcLeapChange _ => true
  | .autoSync _ => true
  | .trimWindowEnd _ => true
  | .trimWindowTimeout _ => true
  | .cellMeasurement _ _ => true
  | .switchover _ => true
  | .switchReturn _ _ => true
  | .aonCold _ => true
  | .governorEvaluation _ _ _ => true
  | .mainsLoss _ => true
  | .mainsGoodReturn _ => true
  | .bringUp _ _ _ _ bad => bad.all copyOk
  | .dormantEntry _ => true
  | .wake _ cause bad => decide (4 ≤ cause ∧ cause < 7) && bad.all copyOk
  | .watchdog _ src => decide (1 ≤ src ∧ src < 3)
  | .lockstepFault _ => true
  | .converterStageFailed _ stage => decide (stage < 2)
  | .ethLinkStayedUp _ port => decide (port < 2)
  | .lendiFrameDropped _ l _ => decide (l < 8)

end Sys2Proof
end

