-- ==== Sys2Proof/Decode.lean ====
section
/-! DEFINITION. The command table gives its rows no bits: a command comes as a packet, a transfer, an event or a register access, never as a word. -/
namespace Sys2Proof

/-- The command that a word spells by the table's bits: none, since no row has bits. -/
def decodeTableWord (nbits w : Nat) : Option Instr :=
  match nbits, w with
  | _, _ => none

end Sys2Proof
end

