-- ==== Sys2Proof/Config.lean ====
section
/-! DEFINITION. What the spec leaves to the module's factory or firmware, or does not state: constants without a body, so that no proof can depend on a value of them. Each is named in the assumption log. -/
namespace Sys2Proof.Config
open Sys2Proof

/-- Factory delay of output n, ps (OUT_CAL, R190). -/
opaque outCal : Nat → BitVec 32
/-- Universally administered MAC address of Ethernet port h (ETH_MAC, R364). -/
opaque ethMac : Nat → Word
/-- Module serial number (ID_UID, R505). -/
opaque uid : Word
/-- MINOR, PATCH and BUILD of the running Ndovos release (ID_FW, R505), by the number of images started in the other's place. -/
opaque fwRelease : Nat → BitVec 40
/-- MAJOR and MINOR of a committed image (ID_IMG, R508), by its hash. -/
opaque altRelease : BitVec 256 → BitVec 16
/-- Whether a committed image carries Heorarix's signature (R311), by its hash. -/
opaque imageSigned : BitVec 256 → Bool
/-- What the check of an AID_ORBIT message finds (R308): 0 PASS, 1 CORRECTED, otherwise failed; the message formats of the satellite systems are not in the spec. -/
opaque orbitCheck : List Word → Nat
/-- 1 on the MDN-4832-AC, 0 on the -DC (CAP2 INPUT_AC, R506). -/
opaque inputAc : Bool
/-- Path delay of the stream of antenna a, band b, ps (PATH_DLY, R64). -/
opaque pathDly : Nat → Nat → BitVec 32
/-- What an antenna's common low-noise amplifier and splitter make of the voltages at its connector (R61, stage 1). -/
opaque frontAmp : Nat → List Int → List Rat
/-- What band b's filter lets pass (R58, R61, stage 2). -/
opaque bandFilter : Nat → List Rat → List Rat
/-- The factor of the analogue gain at a gain in 0.5 dB (R61, stage 3): how the AGC divides the gain is not stated. -/
opaque analogGain : Nat → Rat
/-- How the 10-bit converter rounds (R61, stage 4). -/
opaque adcRound : Rat → Int
/-- Digital down-conversion to complex baseband at the centre of band b, in output quantiser steps at digital gain 1 (R61, stage 5). -/
opaque downConvert : Nat → List Int → List (Rat × Rat)
/-- What a notch at an offset (5 kHz) of a WIDTH lets pass (R61, stage 7). -/
opaque notchFilter : Int → Nat → List (Rat × Rat) → List (Rat × Rat)
/-- The factor of the digital gain at a gain in 0.5 dB (R61, stage 8). -/
opaque digitalGain : Nat → Rat
/-- How the requantisation to 4 bits rounds (R61, stage 9). -/
opaque quantRound : Rat → Int
/-- The gain that the AGC loop reaches after a block (R69), in 0.5 dB: time constant code, TARGET, sum of squares and number of the samples not blanked, gain before. -/
opaque agcGain : Nat → Nat → Nat → Nat → Nat → Nat
/-- What the search filter of a carrier (100 Hz) makes of a stream block at a search rate (samples per 2 ms) (R87): band, carrier, rate, the block before, the block; a blanked sample enters as zero. -/
opaque searchFilter : Nat → Nat → Nat → List (Int × Int) → List (Int × Int) → List (Int × Int)
/-- The component of a signal that Gale searches (Table 1): the pilot where it has one. -/
inductive Component where
  | ca | l1cp | cm | cl | q5 | e1c | e1b | e5aq | e5bq | e6c | b1i | b1cPilot | b2aPilot | b2i | standard | sbasL1 | sbasL5
  deriving DecidableEq, Repr
/-- The value ±1 of a component's code at a position in chips, subcarrier included (public interface specifications): component, PRN, position. -/
opaque codeAt : Component → Nat → Rat → Int
/-- The value ±1 of a chip of its secondary or NH code. -/
opaque secChip : Component → Nat → Nat → Int
/-- A replica's carrier at a phase in cycles: cosine and sine, as Gale quantises them. -/
opaque carrierAt : Rat → Rat × Rat
/-- The points of an engine's block before a radix-2 stage, under an exponent (R85): stage, exponent, what the transform yields. -/
opaque stagePoints : Nat → Nat → List (Rat × Rat) → List (Int × Int)
/-- How an engine rounds a component to its mantissa (R85). -/
opaque pointRound : Rat → Int
/-- Shared-memory address of the report of Ndovos's job slot (R99), by bring-up and slot. -/
opaque galeReport : Nat → Nat → Addr
/-- Shared-memory address of the quantity mirror (SCH_QMIR, R257), by bring-up. -/
opaque qMirror : Nat → Addr
/-- Shared-memory address of the Kite dump ring (KITE_DUMP BASE, R136), by bring-up. -/
opaque kiteBase : Nat → Addr
/-- Estimated ms until ready (NOT_READY REMAIN_MS, R290). -/
opaque remainMs : Nat → BitVec 16
/-- The rate the estimator of R50 gives at an update: free value number, bandwidth, time since the last update (counter clocks), previous rate, measured change. -/
opaque estRate : Nat → Nat → Nat → Int → Int → Int
/-- The acceleration the estimator of R50 gives at an update, with the same arguments. -/
opaque estAcc : Nat → Nat → Nat → Int → Int → Int
/-- A value the spec leaves open, by the number of the free value. -/
opaque freeWord : Nat → Word
/-- A bit the spec leaves open. -/
opaque freeBit : Nat → Bool
/-- A natural number the spec leaves open. -/
opaque freeNat : Nat → Nat
/-- An integer the spec leaves open. -/
opaque freeInt : Nat → Int
/-- Whether a word of the scheduler region belongs to an event, by address and JSN: the layout of Tether's tables is not stated (R337, R445). -/
opaque tableWord : Nat → Nat → Bool
/-- COPY_PCT while the spare bank copies (MEM_STAT, R447), by the counter clock. -/
opaque copyPct : Nat → Nat
/-- REMIRROR_PCT while a store is rebuilt (JRN_STAT, R337), by the counter clock. -/
opaque mirrorPct : Nat → Nat
/-- A sample port's tracker (R391), whose gains are not stated: the correction of the predicted edge and the new frame rate (2^-16 Hz), by bandwidth code, rate before, frames since the latest edge, and stamp minus prediction (before the first rate, minus the edge before) in units. -/
opaque trackEdge : Nat → Nat → Nat → Int → Int
opaque trackRate : Nat → Nat → Nat → Int → Nat
/-- Windvane's filter (R392), whose coefficients are not stated: the band-limited value at an instant from the input samples of its span (instants relative to it, in units, and values), the input rate and the output rate. -/
opaque resample : List (Int × Int) → Nat → Nat → Int
/-- Whether a result whose rounding is not stated is rounded up, by the operand (R118, R121, R373, R465). -/
opaque roundUp : Nat → Bool
/-- How the module rounds the square roots of R57, R179, R183 and R184: 0 down, 1 up, otherwise to the nearest. -/
opaque sqrtRounding : Nat

/-- The number that JOURNAL_QUERY shows as SLOT for the n-th event slot (R321): how slots are numbered is not stated. -/
opaque eventSlot : Nat → Nat

/-- Whether a branch with condition code 0-13 is taken, from Z, N, C, V and OVF: the codes are not stated (R422). -/
opaque brCond : Nat → Bool → Bool → Bool → Bool → Bool → Bool
/-- Whether C after a subtraction is the borrow, or its complement (R411). -/
opaque carryIsBorrow : Bool
/-- Whether a loop's END names the instruction after the last one of its body (R422). -/
opaque loopEndAfter : Bool
/-- How far into its inactive phase an unaligned clock output begins, in 1/2^32 of that phase (R194). -/
opaque clockPhase : Nat → Nat
/-- The effect instant of a configuration for which no instant of R195 exists. -/
opaque effectInstant : Nat → BitVec 96

/-- Kite's carrier replica at one of its 64 phase levels (R116): cosine and sine. -/
opaque carrier64 : Nat → Rat × Rat
/-- The value ±1 of the companion data component's code at a position in chips (R117, Table 4). -/
opaque companionAt : Component → Nat → Rat → Int
/-- The value ±1 of a code of the component's family that no satellite has (R117). -/
opaque noiseAt : Component → Rat → Int
/-- atan2(y, x)/2π (R121), as Kite computes it. -/
opaque atan2Turns : Int → Int → Rat
/-- atan(y/x)/2π (R121). -/
opaque atanTurns : Int → Int → Rat
/-- The magnitude √(I² + Q²) of a sum (R121). -/
opaque envelope : Int → Int → Rat
/-- The slope, in chips, of a component's ideal correlation function at a spacing in 1/64 chip (R121). -/
opaque codeSlope : Component → Nat → Rat
/-- 10·log10 of a ratio (R123). -/
opaque tenLog : Rat → Rat
/-- 10^(x/10) (R128): a C/N0 in dB-Hz as a linear weight. -/
opaque linear : Rat → Rat
/-- What decoding a record unit of symbols yields (R152, R154, R155): the bits in the interface specification's polarity, whether the check passed, errors corrected, each part's result, the transmit time of its first symbol in the system's own time in ms, and its leap-second data. -/
structure Decoded where
  bits : List Word
  ok : Bool
  ncorr : Nat
  parts : List Bool
  txMs : Nat
  leap : Option (Int × Int × Nat)
  deriving DecidableEq, Repr, Inhabited
/-- The 4-bit soft value of a symbol's sum (R154). -/
opaque soft : Int → Int
/-- The value ±1 of the secondary or NH code on a message type's data component, by millisecond of the symbol (R154). -/
opaque dataChip : Nat → Nat → Int
/-- Whether symbols of a message type begin with its preamble, pattern or time mark, and then whether it is inverted (R147, R154). -/
opaque preamble : Nat → List Int → Option Bool
/-- Symbol handling, error correction and check of a message type, as its public interface specification defines them (R152). -/
opaque decode : Nat → List Int → Decoded
/-- Which of a satellite's messages of a type the bits hold (public interface specifications). -/
opaque pageOf : Nat → List Word → Nat
/-- What a satellite's kept messages say of it at a time (ms of its transmission, GPS time), seen from a point (2^-16 m, ECEF): whether they are an almanac alone, whether the ephemeris is within its validity and marks the satellite healthy, its range (m) with first and second derivative, its elevation (degrees). -/
structure Look where
  almanac : Bool
  valid   : Bool
  healthy : Bool
  range   : Rat
  rate    : Rat
  accel   : Rat
  elev    : Rat
  deriving DecidableEq, Repr, Inhabited
/-- Orbits (public interface specifications): messages by type and page, time, point. -/
opaque look : List (Nat × Nat × List Word) → Rat → Int × Int × Int → Option Look
/-- Satellite clock and orbit corrections of a range, m (R170). -/
opaque satClock : List (Nat × Nat × List Word) → Rat → Rat
/-- The broadcast ionosphere model of a system at a frequency, m (R170). -/
opaque ionoDelay : Nat → List (Nat × Nat × Nat × List Word) → Rat → Look → Int × Int × Int → Rat
/-- The standard-atmosphere troposphere model, m (R170). -/
opaque tropoDelay : Look → Int × Int × Int → Rat
/-- A satellite's range at an antenna with its corrections (R170): whether it is the dual-frequency combination, whether an observable carried CLKQ, m, Doppler in Hz, CN0. -/
structure SatRange where
  sat   : Nat
  sys   : Nat
  ant   : Nat
  dual  : Bool
  clkq  : Bool
  range : Rat
  dop   : Option Rat
  cn0   : Nat
  msgs  : List (Nat × Nat × List Word)
  deriving DecidableEq, Repr, Inhabited
/-- What the residual test finds (R170). -/
inductive Integrity where
  | passed
  | without (sat : Nat)
  | failed
  deriving DecidableEq, Repr, Inhabited
/-- The residual test. -/
opaque residualTest : List SatRange → Integrity
/-- A point near which ranges put an antenna of which nothing else is known. -/
opaque roughPoint : List SatRange → Int × Int × Int
/-- A solution: position (2^-16 m) and velocity (2^-12 m/s) of an antenna, 1σ north, east, up (mm), in 3D (mm), of the speed (mm/s), PDOP (1/64), Tether minus GPS time and its 1σ (ps), frequency error of the time counter and its 1σ (10^-15). -/
structure Fix where
  pos    : Int × Int × Int
  vel    : Int × Int × Int
  sigNeu : Nat × Nat × Nat
  sigma  : Nat
  sigV   : Nat
  pdop   : Nat
  offset : Int
  sigT   : Nat
  fofs   : Int
  sigF   : Nat
  deriving DecidableEq, Repr, Inhabited
/-- The solver (R170, R172): for an antenna, from ranges and, in POSITION_HOLD, held positions with their 1σ in mm by antenna. -/
opaque solve : Nat → List SatRange → List (Nat × (Int × Int × Int) × Nat) → Fix
/-- Residuals of an antenna above 5 times its expected ranging error (R176): its ranges, its held position and 1σ. -/
opaque misfit : List SatRange → Int × Int × Int → Nat → Bool
/-- The 1σ of a survey's mean in mm (R175), by the number of solutions and the 1σ of the latest. -/
opaque meanSigma : Nat → Nat → Nat
/-- The phases of a satellite's signal at the two antennas of a baseline (R177), 2^-12 cycle. -/
structure BaseObs where
  sat  : Nat
  sig  : Nat
  ph1  : Int
  ph2  : Int
  msgs : List (Nat × Nat × List Word)
  deriving DecidableEq, Repr, Inhabited
/-- The search for the integer ambiguities of a baseline (R177): the ratio of its test, the satellites resolved, and the vector: heading (2^-48 turn), pitch (2^-24 turn), length (mm), with their 1σ. -/
structure BaseFix where
  ratio    : Rat
  resolved : List Nat
  heading  : Word
  pitch    : Int
  length   : Nat
  sigHdg   : Nat
  sigPitch : Nat
  sigLen   : Nat
  deriving DecidableEq, Repr, Inhabited
/-- That search, with the length that constrains it and the satellites resolved before. -/
opaque ambiguities : List BaseObs → Option Nat → List Nat → BaseFix
/-- The float estimate of a baseline, 0 where none exists (R178). -/
opaque floatBase : List BaseObs → BaseFix
/-- The signal of a system that Ndovos searches on a band; COH and NONCOH before the limits of Table 1, NPEAK and THRESH of its jobs; the lead of a plan's common start, µs (R102, R174): the spec leaves them to Ndovos. -/
opaque searchSignal : Nat → Nat → Option Nat
/-- COH of a job of a signal, ms. -/
opaque searchCoh : Nat → Nat
/-- NONCOH of a job of a signal. -/
opaque searchNoncoh : Nat → Nat
/-- NPEAK of a job of a signal. -/
opaque searchPeaks : Nat → Nat
/-- THRESH of a job of a signal. -/
opaque searchThresh : Nat → Nat
/-- From the beginning of a plan to its start, µs. -/
opaque planLead : Nat
/-- PR_SIGMA in 1/64 m (R148): component, CN0, DLL_BN, ELS, effective LT. -/
opaque prSigma : Component → Nat → Nat → Nat → Nat → Nat
/-- PH_SIGMA in 1/4,096 cycle (R148), of the same. -/
opaque phSigma : Component → Nat → Nat → Nat → Nat → Nat
/-- The noise power of a 1 ms correlator that the AGC TARGET and the blanked fraction give (R123): how is not stated. -/
opaque agcNoise : Nat → Nat → Rat
/-- The steering value of C1's second-order loop after an epoch (R212), in units of 2^-60: time constant (s), value before, offset (ps), frequency error (10^-15); its coefficients are not stated. -/
opaque loopAdj : Nat → Int → Int → Int → Int
/-- The ageing and temperature terms of FADJ in HOLDOVER (R212), by the number of the free value. -/
opaque holdAdj : Nat → Int
/-- The drift uncertainty a that Ndovos learns (R182), by the number of the free value. -/
opaque learnedDrift : Nat → Nat
/-- Degrees by which the internal temperature lies further than 1 °C from its mean over the last 48 h of steering (R182), by the number of the free value. -/
opaque driftDegrees : Nat → Nat

end Sys2Proof.Config
end

