-- ==== Sys2Proof/Machine/Bits.lean ====
section
/-! DEFINITION. Bit fields, saturation, quantity arithmetic, sparse tables, CRC-32C and HMAC-SHA-256. -/
namespace Sys2Proof.Machine
open Sys2Proof

/-- Field [hi:lo] of a word (R8). -/
def fld (w : Word) (hi lo : Nat) : Nat := w.toNat / 2 ^ lo % 2 ^ (hi + 1 - lo)
/-- Bit i of a word. -/
def bit (w : Word) (i : Nat) : Bool := w.toNat.testBit i
/-- Field [hi:lo] read as a two's-complement number. -/
def sfld (w : Word) (hi lo : Nat) : Int :=
  if fld w hi lo < 2 ^ (hi - lo) then (fld w hi lo : Int) else (fld w hi lo : Int) - 2 ^ (hi + 1 - lo)
/-- A value placed in field [hi:lo]. -/
def put (hi lo v : Nat) : Nat := v % 2 ^ (hi + 1 - lo) * 2 ^ lo
/-- A signed value placed in field [hi:lo]. -/
def putS (hi lo : Nat) (v : Int) : Nat := put hi lo (v % 2 ^ (hi + 1 - lo)).toNat
/-- A flag placed in bit i. -/
def putB (i : Nat) (b : Bool) : Nat := if b then 2 ^ i else 0
/-- The word whose fields are given. -/
def pack (xs : List Nat) : Word := BitVec.ofNat 48 xs.sum
/-- The low 48 bits of a number. -/
def word (n : Nat) : Word := BitVec.ofNat 48 n
/-- A signed number as a word. -/
def sword (v : Int) : Word := BitVec.ofInt 48 v
/-- Symmetric saturation of a signed field of n bits (R541). -/
def sat (n : Nat) (v : Int) : Int := max (-(2 ^ (n - 1) - 1)) (min (2 ^ (n - 1) - 1) v)
/-- Saturation of a count of n bits. -/
def satN (n v : Nat) : Nat := min v (2 ^ n - 1)
/-- Set bit i of a latch. -/
def setBit (x i : Nat) : Nat := x ||| 2 ^ i
/-- Clear the bits of `m` in a latch of n bits. -/
def clearBits (x m : Nat) : Nat := x - (x &&& m)
/-- Write a flag into bit i of a latch. -/
def writeBit (x i : Nat) (b : Bool) : Nat := clearBits x (2 ^ i) + putB i b

/-- CYC of a quantity value (R16). -/
def cyc (q : Qval) : Word := BitVec.ofNat 48 (q.toNat / 2 ^ 48)
/-- FRC of a quantity value (R16). -/
def frc (q : Qval) : Word := BitVec.ofNat 48 q.toNat
/-- The value CYC:FRC. -/
def mkQ (c f : Word) : Qval := BitVec.ofNat 96 (c.toNat * 2 ^ 48 + f.toNat)
/-- a − b by R29: positive where a is ahead, negative where it is behind, −2^95 for the value half way round. -/
def qdist (a b : Qval) : Int :=
  if (a - b).toNat < 2 ^ 95 then ((a - b).toNat : Int) else ((a - b).toNat : Int) - 2 ^ 96
/-- a is ahead of b (R29). -/
def ahead (a b : Qval) : Bool := decide (0 < qdist a b)
/-- a is behind b (R29). -/
def behind (a b : Qval) : Bool := decide (qdist a b < 0)
/-- A quantity value moved by a signed number of units. -/
def qadd (q : Qval) (d : Int) : Qval := q + BitVec.ofInt 96 d
/-- Picoseconds in units of 2^-48 s, to the nearest unit. -/
def unitsOfPs (ps : Int) : Int := (2 * ps * 2 ^ 48 + 10 ^ 12) / (2 * 10 ^ 12)
/-- Units of 2^-48 s in picoseconds, rounded toward −∞. -/
def psOfUnits (u : Int) : Int := u * 10 ^ 12 / 2 ^ 48
/-- The instant of n nanoseconds after the Tether epoch, to the nearest unit (R192). -/
def qOfNs (n : Nat) : Qval := BitVec.ofNat 96 ((2 * n * 2 ^ 48 + 10 ^ 9) / (2 * 10 ^ 9))
/-- The whole millisecond m of Tether time (R140). -/
def qOfMs (m : Nat) : Qval :=
  BitVec.ofNat 96 (m / 1000 * 2 ^ 48 + (2 * (m % 1000) * 2 ^ 48 + 1000) / 2000)
/-- The latest whole millisecond at or before an instant. -/
def msOf (q : Qval) : Nat :=
  let m := (q.toNat + 1) * 1000 / 2 ^ 48
  if (qOfMs m).toNat ≤ q.toNat then m else m - 1

/-- The value of an indexed instance, `d` where it is not listed. -/
def tget {α : Type} (d : α) (k : Nat) : Tab α → α
  | [] => d
  | (j, x) :: t => if k = j then x else tget d k t
/-- An entry put in its place among rising keys. -/
def tins {α : Type} (k : Nat) (v : α) : Tab α → Tab α
  | [] => [(k, v)]
  | (j, x) :: t => if k < j then (k, v) :: (j, x) :: t else if k = j then (k, v) :: t else (j, x) :: tins k v t
/-- Write an indexed instance; writing the default removes the entry, so that equal tables are equal data. -/
def tput {α : Type} [DecidableEq α] (d : α) (k : Nat) (v : α) (t : Tab α) : Tab α :=
  if v = d then t.filter (fun e => e.1 != k) else tins k v t
/-- The canonical form of a table: keys strictly rising, no entry equal to the default. -/
def tcanon {α : Type} [DecidableEq α] (d : α) : Tab α → Bool
  | [] => true
  | [(_, x)] => decide (x ≠ d)
  | (j, x) :: (k, y) :: t => decide (x ≠ d) && decide (j < k) && tcanon d ((k, y) :: t)

/-- The i-th word of a list of parameter words, 0 beyond its end. -/
def arg (ws : List Word) (i : Nat) : Word := ws.getD i 0

/-- The six bytes of a word in wire order (R9). -/
def bytesOf (w : Word) : List Nat := [40, 32, 24, 16, 8, 0].map fun k => w.toNat / 2 ^ k % 256
/-- The bytes of words in wire order. -/
def wireBytes (ws : List Word) : List Nat := ws.flatMap bytesOf

/-- One bit of CRC-32C, reflected (R281). -/
def crcBit (c : Nat) : Nat := if c % 2 = 1 then (c / 2) ^^^ 0x82F63B78 else c / 2
/-- One byte of CRC-32C. -/
def crcByte (c b : Nat) : Nat := crcBit (crcBit (crcBit (crcBit (crcBit (crcBit (crcBit (crcBit (c ^^^ b))))))))
/-- CRC-32C of bytes (R281). -/
def crc32c (bs : List Nat) : Nat := (bs.foldl crcByte 0xFFFFFFFF) ^^^ 0xFFFFFFFF

/-- The round constants of SHA-256 (FIPS 180-4). -/
def shaK : List (BitVec 32) :=
  [0x428a2f98, 0x71374491, 0xb5c0fbcf, 0xe9b5dba5, 0x3956c25b, 0x59f111f1, 0x923f82a4, 0xab1c5ed5,
   0xd807aa98, 0x12835b01, 0x243185be, 0x550c7dc3, 0x72be5d74, 0x80deb1fe, 0x9bdc06a7, 0xc19bf174] ++
  [0xe49b69c1, 0xefbe4786, 0x0fc19dc6, 0x240ca1cc, 0x2de92c6f, 0x4a7484aa, 0x5cb0a9dc, 0x76f988da,
   0x983e5152, 0xa831c66d, 0xb00327c8, 0xbf597fc7, 0xc6e00bf3, 0xd5a79147, 0x06ca6351, 0x14292967] ++
  [0x27b70a85, 0x2e1b2138, 0x4d2c6dfc, 0x53380d13, 0x650a7354, 0x766a0abb, 0x81c2c92e, 0x92722c85,
   0xa2bfe8a1, 0xa81a664b, 0xc24b8b70, 0xc76c51a3, 0xd192e819, 0xd6990624, 0xf40e3585, 0x106aa070] ++
  [0x19a4c116, 0x1e376c08, 0x2748774c, 0x34b0bcb5, 0x391c0cb3, 0x4ed8aa4a, 0x5b9cca4f, 0x682e6ff3,
   0x748f82ee, 0x78a5636f, 0x84c87814, 0x8cc70208, 0x90befffa, 0xa4506ceb, 0xbef9a3f7, 0xc67178f2]
/-- The initial hash value of SHA-256. -/
def shaInit : List (BitVec 32) :=
  [0x6a09e667, 0xbb67ae85, 0x3c6ef372, 0xa54ff53a, 0x510e527f, 0x9b05688c, 0x1f83d9ab, 0x5be0cd19]
/-- The message schedule, most recent word first, grown by n words. -/
def shaSched : Nat → List (BitVec 32) → List (BitVec 32)
  | 0, ws => ws
  | n + 1, ws =>
    let w2 := ws.getD 1 0; let w7 := ws.getD 6 0; let w15 := ws.getD 14 0; let w16 := ws.getD 15 0
    let s0 := w15.rotateRight 7 ^^^ w15.rotateRight 18 ^^^ (w15 >>> 3)
    let s1 := w2.rotateRight 17 ^^^ w2.rotateRight 19 ^^^ (w2 >>> 10)
    shaSched n ((w16 + s0 + w7 + s1) :: ws)
/-- One round of SHA-256 on the eight working words. -/
def shaRound (h : List (BitVec 32)) (kw : BitVec 32 × BitVec 32) : List (BitVec 32) :=
  match h with
  | [a, b, c, d, e, f, g, i] =>
    let s1 := e.rotateRight 6 ^^^ e.rotateRight 11 ^^^ e.rotateRight 25
    let ch := (e &&& f) ^^^ (~~~e &&& g)
    let t1 := i + s1 + ch + kw.1 + kw.2
    let s0 := a.rotateRight 2 ^^^ a.rotateRight 13 ^^^ a.rotateRight 22
    let mj := (a &&& b) ^^^ (a &&& c) ^^^ (b &&& c)
    [t1 + s0 + mj, a, b, c, d + t1, e, f, g]
  | h => h
/-- Big-endian 32-bit words of bytes. -/
def words32 : List Nat → List (BitVec 32)
  | a :: b :: c :: d :: t => BitVec.ofNat 32 (a * 2 ^ 24 + b * 2 ^ 16 + c * 2 ^ 8 + d) :: words32 t
  | _ => []
/-- One block of sixteen words. -/
def shaBlock (h : List (BitVec 32)) (blk : List (BitVec 32)) : List (BitVec 32) :=
  let ws := (shaSched 48 blk.reverse).reverse
  List.zipWith (· + ·) h ((shaK.zip ws).foldl shaRound h)
/-- Blocks of sixteen words, at most n of them. -/
def shaBlocks : Nat → List (BitVec 32) → List (BitVec 32) → List (BitVec 32)
  | 0, _, h => h
  | n + 1, ws, h => if ws = [] then h else shaBlocks n (ws.drop 16) (shaBlock h (ws.take 16))
/-- The big-endian bytes of a number. -/
def beBytes (n v : Nat) : List Nat := (List.range n).reverse.map fun k => v / 256 ^ k % 256
/-- SHA-256 of bytes, as eight words. -/
def sha256 (bs : List Nat) : List (BitVec 32) :=
  let z := (119 - bs.length % 64) % 64
  let ws := words32 (bs ++ [0x80] ++ List.replicate z 0 ++ beBytes 8 (8 * bs.length))
  shaBlocks (ws.length / 16 + 1) ws shaInit
/-- The bytes of a SHA-256 value. -/
def shaBytes (h : List (BitVec 32)) : List Nat := h.flatMap fun x => beBytes 4 x.toNat
/-- SHA-256 as one number. -/
def shaValue (bs : List Nat) : BitVec 256 :=
  BitVec.ofNat 256 ((shaBytes (sha256 bs)).foldl (fun n b => n * 256 + b) 0)
/-- HMAC-SHA-256 under a 32-byte key (R293). -/
def hmac (key : BitVec 256) (msg : List Nat) : List Nat :=
  let k := beBytes 32 key.toNat ++ List.replicate 32 0
  shaBytes (sha256 (k.map (· ^^^ 0x5C) ++ shaBytes (sha256 (k.map (· ^^^ 0x36) ++ msg))))
/-- The word of six bytes. -/
def wordOfBytes (bs : List Nat) : Word := word (bs.foldl (fun n b => n * 256 + b) 0)
/-- The four tag words of a packet (R293). -/
def tagOf (key : BitVec 256) (ws : List Word) : List Word :=
  let m := hmac key (wireBytes ws)
  [wordOfBytes (m.take 6), wordOfBytes ((m.drop 6).take 6), wordOfBytes ((m.drop 12).take 6), wordOfBytes ((m.drop 18).take 6)]

end Sys2Proof.Machine
end

