-- ==== Sys2Proof/Machine/Calendar.lean ====
section
/-! DEFINITION. The calendar view of a second of GPS time (R37), and alarm matches against it (R461). -/
namespace Sys2Proof.Machine
open Sys2Proof

/-- Year, month, day of a day counted from 1980-01-06; the Gregorian rule (R37). -/
def civil (days : Nat) : Nat × Nat × Nat :=
  let z := days + 723125
  let era := z / 146097
  let doe := z % 146097
  let yoe := (doe - doe / 1460 + doe / 36524 - doe / 146096) / 365
  let doy := doe - (365 * yoe + yoe / 4 - yoe / 100)
  let mp := (5 * doy + 2) / 153
  let d := doy - (153 * mp + 2) / 5 + 1
  let m := if mp < 10 then mp + 3 else mp - 9
  (yoe + era * 400 + (if m ≤ 2 then 1 else 0), m, d)
/-- The CAL0 word of a second of GPS time under an offset; `ins` marks the inserted second of a leap (Table 3). -/
def calWord (sec : Nat) (leap : Int) (ins : Bool) : Word :=
  let u : Int := (sec : Int) - leap - (if ins then 1 else 0)
  let v := (u + 7 * 86400).toNat
  let day := v / 86400
  let c := if 7 ≤ day then civil (day - 7) else (1980, 1, day - 1)
  let tod := v % 86400
  if 2399 < c.1 then pack [putB 5 true]
  else pack [put 47 36 c.1, put 35 32 c.2.1, put 31 27 c.2.2, put 26 22 (tod / 3600), put 21 16 (tod / 60 % 60),
    put 15 10 (tod % 60 + (if ins then 1 else 0)), put 9 7 (day % 7), putB 6 ins]
/-- The second before LEAP_AT of an insertion that is still ahead (R36). -/
def insertedSecond (sec : Nat) (now next : Int) (at_ : Nat) (pend : Bool) : Bool :=
  pend && decide (next = now + 1) && decide (sec + 1 = at_)

/-- The fields of ALM_VAL and CAL0 with the MASK bit that ignores each (R461, Table 8). -/
def almFields : List (Nat × Nat × Nat) := [(47, 36, 46), (35, 32, 45), (31, 27, 44), (26, 22, 43), (21, 16, 42), (15, 10, 41), (9, 7, 40)]
/-- An alarm's unmasked fields equal those of a calendar word; none matches while CAL_RANGE reads 1. -/
def almMatch (val ctl cal : Word) : Bool :=
  !bit cal 5 && almFields.all fun f => bit ctl f.2.2 || fld val f.1 f.2.1 == fld cal f.1 f.2.1
/-- The same for the date fields alone. -/
def dateMatch (val ctl cal : Word) : Bool :=
  !bit cal 5 && [(47, 36, 46), (35, 32, 45), (31, 27, 44), (9, 7, 40)].all fun (f : Nat × Nat × Nat) => bit ctl f.2.2 || fld val f.1 f.2.1 == fld cal f.1 f.2.1
/-- Some second after `a` up to `b` matches. `cal` gives the calendar word of a second; where the span is long its first and last days are searched second by second and the whole days between them by date, of which every time of day but second 60 is part. -/
def matchBetween (val ctl : Word) (cal : Nat → Word) (a b : Nat) : Bool :=
  let hit := fun (lo n : Nat) => (List.range n).any fun i => almMatch val ctl (cal (lo + 1 + i))
  if b ≤ a then false
  else if b - a ≤ 172800 then hit a (b - a)
  else
    let days := (b - a) / 86400 - 2
    hit a 86400 || hit (b - 86400) 86400 ||
      ((bit ctl 41 || decide (fld val 15 10 < 60)) && (List.range days).any fun i => dateMatch val ctl (cal (a + 86400 * (i + 1))))

end Sys2Proof.Machine
end

