-- ==== Sys2Proof/Machine/BlocksA.lean ====
section
/-! DEFINITION. State of the command side: partners, their event streams, the journal, the host and service ports, and the ballast page. Reset values stand beside each field. -/
namespace Sys2Proof.Machine
open Sys2Proof

/-- Where a partner is bound: port, endpoint, source MAC of its last packet (R295, R349). -/
structure Binding where
  port : Nat
  ep   : Endpoint
  mac  : Word
  deriving DecidableEq, Repr

/-- One replay record (R329): the original reply of a SEQ, with every reply word from word 2 on. -/
structure Replay where
  seq    : Nat
  jsn    : Nat
  code   : Nat
  status : Nat
  words  : List Word
  again  : Bool
  deriving DecidableEq, Repr

/-- An unacknowledged event record (R312, R314): its subtype word and body, or the subtype word alone once the body is gone (R330). -/
structure Rec where
  esn    : Nat
  jsn    : Nat
  urgent : Bool
  vol    : Bool
  body   : List Word
  deriving DecidableEq, Repr

/-- A partner's event stream (R275, R314-R318, R331). -/
structure Stream where
  nextEsn : Nat := 1
  ackFirst : Nat := 1
  cursor  : Nat := 1
  recs    : List Rec := []
  kept    : Option (Nat × Nat) := none
  retired : Nat := 0
  retRun  : Bool := false
  deriving DecidableEq, Repr

/-- A partner: its page (R292), sequence state (R285), binding, replay window, credit (R265) and stream. -/
structure Partner where
  rights   : Nat := 0
  authReq  : Bool := false
  key      : Option (BitVec 256) := none
  lseq     : Nat := 0
  hnonce   : Nat := 0
  bind     : Option Binding := none
  cntAuth  : Nat := 0
  cntCheck : Nat := 0
  cntGap   : Nat := 0
  replays  : Tab (Option Replay) := []
  credMax  : Nat := 256
  lastReply : Option (Nat × Nat) := none
  permit   : Option Nat := none
  busy     : Nat := 0
  ev       : Stream := {}
  deriving DecidableEq, Repr

/-- Why an entry group is pinned (R327, R331). A configuration item is named by its opcode and an index. -/
inductive Pin where
  | event
  | work
  | config (op idx : Nat)
  | long
  | record
  deriving DecidableEq, Repr

/-- An entry group (R321): the fields of its head and its data words. kind 0 COMMAND, 1 COMPACT, 3 RECORD, 4 SYSTEM (Table 4). -/
structure Group where
  jsn     : Nat
  kind    : Nat
  partner : Nat
  port    : Nat
  carried : Bool := false
  exec    : Bool := false
  vol     : Bool := false
  opcode  : Nat
  status  : Nat
  key     : Word
  tq      : Qval
  params  : List Word
  reply   : List Word
  slot    : Option Nat := none
  pins    : List Pin := []
  deriving DecidableEq, Repr

/-- A journal store: 0 OK, 1 REMIRROR, 2 FAILED (Table 15), and the JSN of the latest group complete in it, as its superblock shows (R334). -/
structure Store where
  stat : Nat := 0
  sealed : Nat := 0
  deriving DecidableEq, Repr

/-- The journal (R319-R343). `landing` holds sealed groups not yet complete in the stores, `ring` the groups held there, oldest first; `marks` is the mark table by event slot and `markRing` the marks not yet folded. -/
structure Journal where
  next     : Nat := 1
  landing  : List Group := []
  ring     : List Group := []
  storeA   : Store := {}
  storeB   : Store := {}
  marks    : Tab Nat := []
  markRing : List (Nat × Nat) := []
  cntGroups : Nat := 0
  cntCarried : Nat := 0
  fault    : Nat := 0
  jsnLow   : Bool := false
  msMark   : Nat := 0
  msCount  : Nat := 0
  rstCause : Word := 0
  rstOut   : Qval := 0
  rstRdy   : Qval := 0
  rstCount : Nat := 0
  deriving DecidableEq, Repr

/-- Parts failed (Table 17); the store bit follows the stores, the bank bit the memory's spare. -/
structure Parts where
  core  : Nat := 0
  host  : Nat := 0
  link  : Nat := 0
  front : Nat := 0
  conv  : Nat := 0
  deriving DecidableEq, Repr

/-- The staged words +0..+4 of an Ethernet page in force (Table 8). -/
structure EthPage where
  cfg  : Word := 0xB8000C530000#48
  ip4  : Word := 0x0018C0A83020#48
  ip6a : Word := 0
  ip6b : Word := 0
  ip6c : Word := 0
  deriving DecidableEq, Repr

/-- One packet being reassembled for a source endpoint (R348): `got` segments of NSEG, the counter clock of the first. -/
structure Reasm where
  port : Nat
  ep   : Endpoint
  xid  : Nat
  nseg : Nat
  got  : Nat
  first : Nat
  words : List Word
  deriving DecidableEq, Repr

/-- An Ethernet host port (R345-R350, Table 8). `wasUp` says that its link has been up since D9 powered up, `selfOk` that its last self-check passed; `echoes4` and `echoes6` are the counter clocks of the latest echo replies. -/
structure EthPort where
  page    : EthPage := {}
  link    : Bool := false
  mdix    : Bool := false
  master  : Bool := false
  failed  : Bool := false
  wasUp   : Bool := false
  selfOk  : Bool := true
  cntRx   : Nat := 0
  cntDrop : Nat := 0
  cntSegErr : Nat := 0
  cntUnbound : Nat := 0
  xid     : Nat := 0
  echoes4 : List Nat := []
  echoes6 : List Nat := []
  deriving DecidableEq, Repr

/-- An outbound packet queued on an SPI port, with the ingress room its command holds until the reply has left (R259). -/
structure OutPkt where
  words   : List Word
  read    : Nat := 0
  partner : Nat
  isReply : Bool
  held    : Option (Bool × Nat) := none
  deriving DecidableEq, Repr

/-- An SPI host port (R351-R355). -/
structure SpiPort where
  en      : Bool := true
  failed  : Bool := false
  mode    : Bool := false
  cwErr   : Bool := false
  ovr     : Bool := false
  rx      : List Word := []
  tx      : List OutPkt := []
  cntCw   : Nat := 0
  cntOvr  : Nat := 0
  cntPart : Nat := 0
  deriving DecidableEq, Repr

/-- The service port S0 (R356-R360). -/
structure S0Port where
  addr    : Nat := 0x2C
  addrNew : Option Nat := none
  wakeEn  : Bool := true
  lock    : Bool := false
  ptr     : Nat := 0
  last    : Word := 0
  refused : Nat := 0
  wakes   : Nat := 0
  aborted : Nat := 0
  deriving DecidableEq, Repr

/-- A pin that the pad ring holds (R491, Table 9): outputs, SSI clocks, SPI and Ethernet pins of a port, a link's transmit pair, the inputs of X0–X3 and A0–A7. -/
inductive PadPin where
  | out (n : Nat) | ssiClk (x : Nat) | miso (h : Nat) | ready (h : Nat) | attn (h : Nat) | mdi (h : Nat) | lendiTx (l : Nat) | lendiRx (l : Nat)
  | quantityIn (x : Nat) | sampleIn (p : Nat)
  deriving DecidableEq, Repr
/-- The level at which a pin is held (Table 9). -/
inductive PinLevel where
  | low | high | highZ | diffLow | notDriven | ignored
  deriving DecidableEq, Repr
/-- Something that left the module during the latest command: an Ethernet frame with its VLAN tag (0 none) and destination, words an SPI host or S0 controller read, a link-level answer, a Lendi frame, an edge of an output or a start line. `mem` is what shared memory answers a master: a read's data, ERR (`resp` 1) or WLOST (2); `pins` the levels at which pins are latched. -/
inductive Emit where
  | frame (port tag : Nat) (ep : Endpoint) (mac : Word) (words : List Word)
  | arp (port tag : Nat) (mac : Word)
  | neighbour (port tag : Nat) (mac : Word)
  | echo (port tag : Nat) (mac : Word) (payload : List (BitVec 8))
  | spi (port : Nat) (status : Word) (words : List Word)
  | s0 (words : List Word)
  | s0Ack (acks : List Bool)
  | lendi (l : Nat) (words : List Word)
  | marker (l : Nat) (wseq : Nat) (dep4 : Int)
  | edge (out : Nat) (lead : Qval) (trail : Option Qval)
  | startLine (p : Nat) (t : Qval)
  | coreStart (k task : Nat)
  | audio (p : Nat) (words : List Word)
  | mem (master addr resp : Nat) (data : Word)
  | pins (levels : List (PadPin × PinLevel))
  deriving DecidableEq, Repr

/-- A whole packet at the command unit: its envelope (R279), opcode, parameter words and arrival instant (R350). -/
structure Pkt where
  port    : Nat
  ep      : Endpoint
  mac     : Word
  partner : Nat
  seq     : Nat
  code    : Nat
  ps      : List Word
  tag     : Option (List Word)
  arrival : Qval
  deriving DecidableEq, Repr
/-- A packet in the parse queue (R259, R267); `extra` says that it stands in an extra slot of ingress (R266). -/
structure Waiting where
  k     : Pkt
  extra : Bool
  deriving DecidableEq, Repr

/-- The host block: ports H0-H3 and S0, the packets in reassembly, the parse queue, and the partner whose turn comes next (R267). -/
structure HostBlk where
  eth0 : EthPort := {}
  eth1 : EthPort := { page := { ip4 := 0x0018C0A83120#48 } }
  spi2 : SpiPort := {}
  spi3 : SpiPort := {}
  s0   : S0Port := {}
  reasm : List Reasm := []
  parse : List Waiting := []
  turn  : Nat := 0
  deriving DecidableEq, Repr

/-- A staging copy of one path and group (R513): absent from the table means EMPTY. -/
inductive Stage where
  | staged (ws : Tab (Option Word))
  | lost
  deriving DecidableEq, Repr

/-- The staged groups (R512). -/
inductive StageKey where
  | leap
  | qcfg (n : Nat)
  | qset (n : Nat)
  | out (n : Nat)
  | rtc
  | eth (h : Nat)
  | key (p : Nat)
  deriving DecidableEq, Repr

/-- One copy: writing path (0-4 partners, 5 S0), group, state. -/
structure StageCopy where
  path : Nat
  key  : StageKey
  st   : Stage
  deriving DecidableEq, Repr

/-- Ballast of one Lendi link (Tables 8, 9): the counters and the floating share; reservations are views of the pending events. -/
structure LinkBal where
  floatWords : Nat := 22
  cntWindow  : Nat := 0
  cntUndel   : Nat := 0
  deriving DecidableEq, Repr

end Sys2Proof.Machine
end

