-- ==== Sys2Proof/Machine/BlocksB.lean ====
section
/-! DEFINITION. State of the time side: the time counter and its leap words, the sixteen quantities and the readers' shadows, the timing outputs. -/
namespace Sys2Proof.Machine
open Sys2Proof

/-- A step chosen and not yet announced (R200, R202): cause (Table 9), the offset Tether minus truth in ps, TSRC and TQE once it is applied. -/
structure StepPlan where
  cause : Nat
  e     : Int
  after : Nat
  tqe   : Option Nat
  deriving DecidableEq, Repr

/-- A step announced (R202): the second N of its application, DELTA in units of 2^-48 s, its plan. -/
structure Announced where
  n     : Nat
  delta : Int
  plan  : StepPlan
  deriving DecidableEq, Repr

/-- Tether time and its source (R32-R37, R57, R200-R202). `sub` is the part of a unit that the increment has not yet added, `clk` counts counter clocks since power; `slew` is the offset decided on, its counter clock and the rate in ppb; `tqe` is TQE as last set, in RECOVERY the σ that R183 adds to the offset, `tqeFloor` what TQE had reached in HOLDOVER when the drift was last replaced (R57), `tsrcAt` the instant of the latest change of TSRC (R198), `driftBase` the drift without its temperature term (R182); `dpClk` is the counter clock of the latest rewrite of the direct-path copies (R55). -/
structure TimeBase where
  q0      : Qval := 0
  sub     : Nat := 0
  clk     : Nat := 0
  tsrc    : Nat := 0
  tqe     : Nat := 0xFFFFFFFF
  tqeFloor : Nat := 0
  dpClk   : Option Nat := none
  tqf     : Nat := 0xFFFFFFFF
  leapNow  : Int := 18
  leapNext : Int := 18
  leapSrc  : Nat := 0
  leapLock : Bool := false
  leapPend : Bool := false
  leapAt   : Nat := 0
  loopAdj : Int := 0
  holdAdj : Int := 0
  permit  : Nat := 0
  stepThr : Nat := 1000
  slewPpb : Nat := 100
  permitJsn : Nat := 0
  permitNext : Option (Nat × Nat × Nat × Nat × Nat) := none
  plan    : Option StepPlan := none
  step    : Option Announced := none
  slew    : Option (Int × Nat × Nat) := none
  after   : Nat := 1
  stepSpan : Option (Qval × Qval) := none
  resid   : Int := 0
  hoStart : Option Qval := none
  tsrcAt  : Option Qval := none
  e0      : Nat := 0
  f0      : Nat := 0
  drift   : Nat := 2000
  driftBase : Nat := 2000
  discH   : Nat := 0
  deriving DecidableEq, Repr

/-- A quantity (R40-R52); of Q0's page the configuration words alone are kept here, its value is the time base's. `exact` holds a DERIVED value with its 32 further fraction bits and `srcVal` the source's value taken in last (R47); `held` is how far past `vu` the value stands since a timeout (Table 10); `pinA`, `pinB` are the levels of A and B, `refA`, `refB` the decoder's reference state and `edgeClk` its latest accepted transition (R42); `preset` waits for the next counter clock and `absorb` is the clock in which no step is added (R56); `crossings` are the latest mains crossings, `cycles` the cycles counted since the commit from the clock `cycleClk`, `nominal` the nominal frequency chosen (R45); `fell` is when VALID last fell, `backAt` the stamp of the latest update where it brought VALID back (R235). -/
structure Qty where
  cfg0 : Word := 0xF20000000000#48
  cfg1 : Word := 0
  cfg2 : Word := 0
  cfg3 : Word := 0
  cfg4 : Word := 0
  vu   : Qval := 0
  tu   : Qval := 0
  tuClk : Nat := 0
  lastIv : Nat := 0
  rate : Int := 0
  acc  : Int := 0
  valid : Bool := false
  stopped : Bool := false
  overrate : Bool := false
  accSat : Bool := false
  fed  : Bool := false
  exact : BitVec 128 := 0
  srcVal : Qval := 0
  held : Option Int := none
  pinA : Bool := false
  pinB : Bool := false
  refA : Bool := false
  refB : Bool := false
  edgeClk : Option Nat := none
  preset : Option Qval := none
  absorb : Option Nat := none
  crossings : List Nat := []
  cycles : Nat := 0
  cycleClk : Nat := 0
  nominal : Nat := 0
  aligned : Bool := false
  lastCorr : Option Int := none
  ssiOfs : Int := 0
  ssiRaw : Option Nat := none
  count : Int := 0
  base : Qval := 0
  direct : Qval := 0
  fell : Qval := 0
  backAt : Option Qval := none
  deriving DecidableEq, Repr

/-- A shadow of one path and quantity (R53): open or closed, its FRZ_SEQ and words, and whether a timeout closed a freeze. -/
structure Shadow where
  isOpen : Bool := false
  seq  : Nat := 0
  ws   : List Word := []
  expired : Bool := false
  since : Nat := 0
  deriving DecidableEq, Repr

/-- The four words of an output's configuration (Tables 3-5). -/
structure OutCfg where
  cfg  : Word := 0x000005F5E100#48
  div  : Word := 0x00003B9ACA00#48
  dly  : Word := 0
  hold : Word := 0
  deriving DecidableEq, Repr

/-- A configuration accepted and waiting for its effect instant (R195). -/
structure OutWait where
  conf : OutCfg
  at_  : Qval
  jsn  : Nat
  deriving DecidableEq, Repr

/-- A timing output (R190-R206). `next` is a periodic output's next leading edge, `lead` a clock output's, on the axis of its source; `from_` is the latest leading edge of the configuration in force, on the present timeline, and `until_` the trailing edge of the pulse in progress. -/
structure Output where
  conf  : OutCfg := {}
  wait  : Option OutWait := none
  state : Nat := 0
  ho    : Bool := false
  tsrc  : Nat := 0
  last  : Qval := 0
  cnt   : Nat := 0
  from_ : Option Qval := none
  next  : Option Qval := none
  lead  : Option Rat := none
  until_ : Option Qval := none
  flags : Nat := 0
  deriving DecidableEq, Repr

end Sys2Proof.Machine
end

