-- ==== Sys2Proof/Machine/BlocksC.lean ====
section
/-! DEFINITION. State of the clock system (oscillator, PLLs, operating points) and of Tether's scheduler. -/
namespace Sys2Proof.Machine
open Sys2Proof

/-- A PLL (R214-R220, Tables 9, 10): state 0 OFF, 1 SEARCH, 2 LOCKED, 3 COAST, 4 HOLD. `since` is the counter clock of the detection, `coastEnd` that at which the latest coast ended. -/
structure Pll where
  freq    : Word := 0
  state   : Nat := 0
  refLost : Bool := false
  forced  : Bool := false
  band    : Nat := 0
  unlocks : Nat := 0
  holds   : Nat := 0
  forceds : Nat := 0
  coastUs : Nat := 0
  relock  : Nat := 0
  fails   : Nat := 0
  since   : Option Nat := none
  coastEnd : Option Nat := none
  deriving DecidableEq, Repr

/-- The operating point of D1, D3, D4 or D6 (Table 11). -/
structure Opp where
  freq : Nat := 2
  volt : Nat := 2
  req  : Nat := 2
  refusals : Nat := 0
  settling : Option Nat := none
  wish : Option Nat := none
  deriving DecidableEq, Repr

/-- The clock block (R207-R226). `stopped` says that the OCXO has no supply: before the first bring-up, and while the cell alone carries the module (R209). `raised` keeps, per cause and PLL, the counter clock of the last FAULT record. -/
structure Clock where
  ocxo    : Nat := 0
  refOk   : Bool := true
  temp    : Int := 0
  powerClk : Nat := 0
  warmed  : Bool := false
  lostClk : Option Nat := none
  stopped : Bool := true
  fault   : Nat := 0
  pllF : Pll := { freq := 0x27063C000000#48 }
  pllG : Pll := { freq := 0x2160EC000000#48 }
  pllS : Pll := { freq := 0x23C346000000#48 }
  pllT : Pll := { freq := 0x009896800000#48 }
  pllW : Pll := {}
  oppD1 : Opp := { freq := 0, req := 0 }
  oppD3 : Opp := {}
  oppD4 : Opp := {}
  oppD6 : Opp := {}
  direct : Bool := false
  deriving DecidableEq, Repr

/-- A class-1 occurrence released and not yet judged (R236-R239, R255): its frame's link, window and counter clock, whether the frame is on the wire, and what the gateway answered. `outage` is the record's flag, `prior` an occurrence that an outage found unreported, `asked` its RELQ (R380). `before` and `after_` are stamp and value of the last update before the target and of the first two after it (R238), `cross` the crossing of one that had passed when its frame left (R237). -/
structure Sent where
  occ    : Nat
  tr     : Qval
  tu     : Qval
  allow  : Nat
  link   : Nat
  win    : Nat
  clkSent : Option Nat := none
  acked  : Bool := false
  resent : Bool := false
  late   : Bool := false
  stepped : Bool := false
  clkq   : Bool := false
  outage : Bool := false
  prior  : Bool := false
  asked  : Bool := false
  before : Option (Qval × Qval) := none
  after_ : List (Qval × Qval) := []
  cross  : Option Qval := none
  deriving DecidableEq, Repr

/-- A crossing that sets a release (R233, R235): its instant, whether an update set it, whether the outcome is then LATE, whether that update brought VALID back. -/
structure Hit where
  tx       : Qval
  byUpdate : Bool := false
  late     : Bool := false
  invalid  : Bool := false
  deriving DecidableEq, Repr

/-- Where a pending event stands: sought; to be evaluated after an outage (R253); waiting for time (R254); its quantity restarted (R254). -/
inductive EvState where
  | pending
  | outage
  | waitTime
  | restarted
  deriving DecidableEq, Repr

/-- A pending event (R229-R241): the words of its SCHED_ADD, the occurrence being sought and what has become of those before it. -/
structure Event where
  jsn     : Nat
  partner : Nat
  slot    : Nat
  tag     : Nat
  action  : Nat
  qty     : Nat
  xdir    : Nat
  lateOk  : Bool
  report  : Nat
  target  : Qval
  step    : Qval
  count   : Nat
  bound   : Nat
  sink    : Word
  payload : List Word
  side    : Bool
  occ     : Nat := 1
  armed   : Bool := false
  last    : Nat := 0
  lastRel : Option Qval := none
  st      : EvState := .pending
  sent    : List Sent := []
  sought  : Bool := true
  skipped : Nat := 0
  nDel    : Nat := 0
  nLate   : Nat := 0
  nEarly  : Nat := 0
  nOther  : Nat := 0
  cancelled : Bool := false
  lateOut : Bool := false
  jump    : Option Nat := none
  hit     : Option Hit := none
  deriving DecidableEq, Repr

/-- What SCHED_QUERY shows of an ended event (R249). -/
structure Ended where
  jsn     : Nat
  partner : Nat
  outcome : Nat
  action  : Nat
  qty     : Nat
  last    : Nat
  nDel    : Nat
  nLate   : Nat
  nEarly  : Nat
  nOther  : Nat
  deriving DecidableEq, Repr

/-- The scheduler (R243-R258). -/
structure Sched where
  pendMax : Nat := 0x40000
  events  : List Event := []
  ended   : List Ended := []
  recent  : List (Nat × Nat) := []
  cntRel  : Nat := 0
  cntLate : Nat := 0
  cntEarly : Nat := 0
  cntMiss : Nat := 0
  mseq    : Nat := 0
  swept   : Nat := 0
  deriving DecidableEq, Repr

end Sys2Proof.Machine
end

