-- ==== Sys2Proof/Machine/BlocksD.lean ====
section
/-! DEFINITION. State of D0 (real-time clock, alarms, backup switch, backup store), of the power controller and the pads, and of the lifecycle: ready, resets, firmware sessions, self-tests. -/
namespace Sys2Proof.Machine
open Sys2Proof

/-- A shadow of the RTC read group (R455). -/
structure RtcShadow where
  isOpen : Bool := false
  ws  : List Word := []
  expired : Bool := false
  since : Nat := 0
  deriving DecidableEq, Repr

/-- A commit of the RTC waiting for its tick (R456, R457): a value with the parts staged, or Tether time. -/
inductive RtcSet where
  | value (sec frac : Option Nat)
  | tether
  deriving DecidableEq, Repr

/-- A running rate measurement (R464-R466). kind 1 MAINS, 2 TETHER, 3 PARTNER; no owner means Ndovos; `waiting` is R466's wait for TSRC; `rtc0` is what the RTC had counted at the start, `true0` the mains cycles counted, or the Tether or given time at the start. -/
structure TrimRun where
  kind   : Nat
  owner  : Option Nat
  hours  : Nat
  auto   : Bool
  waiting : Bool
  rtc0   : Nat
  true0  : Nat
  sigma  : Nat := 0
  deriving DecidableEq, Repr

/-- The leap words kept in the TIME section (R35). -/
structure LeapKeep where
  now  : Int
  next : Int
  src  : Nat
  lock : Bool
  pend : Bool
  at_  : Nat
  deriving DecidableEq, Repr

/-- What Ndovos knows of an antenna (R102, R185): its position in 2^-16 m and its velocity in 2^-12 m/s, ECEF, the 1σ of the position (3D, mm) and of the speed (mm/s). -/
structure AntFix where
  pos   : Int × Int × Int
  vel   : Int × Int × Int
  sigma : Nat
  sigV  : Nat
  deriving DecidableEq, Repr

/-- The selected mode as kept (R168): its MODE_SET words, whose they were, and the JSN. -/
structure ModeKeep where
  ws  : List Word
  who : Nat
  jsn : Nat
  deriving DecidableEq, Repr

/-- The CLOCK section (R474): TRIM, the OCXO's offset as the disciplining loop left it, the drift uncertainty. -/
structure ClockKeep where
  trim   : Int
  offset : Int
  drift  : Nat
  deriving DecidableEq, Repr

/-- The backup store (R474, R475), one copy of each section, absent where it is not valid. `nav` are messages by type, satellite and page. -/
structure Backup where
  hdr    : Option Nat := none
  svc    : Option (Nat × Bool × Bool) := none
  mode   : Option ModeKeep := none
  survey : Tab (List Word) := []
  clock  : Option ClockKeep := none
  time   : Option LeapKeep := none
  posvel : Option (Tab (Option AntFix)) := none
  nav    : Option (List (Nat × Nat × Nat × List Word)) := none
  deriving DecidableEq, Repr
/-- A section of the store is copied from another (Table 4). -/
def Backup.copy (i : Nat) (src dst : Backup) : Backup :=
  match i with
  | 0 => { dst with hdr := src.hdr } | 1 => { dst with svc := src.svc } | 2 => { dst with mode := src.mode } | 3 => { dst with survey := src.survey }
  | 4 => { dst with clock := src.clock } | 5 => { dst with time := src.time } | 6 => { dst with posvel := src.posvel } | _ => { dst with nav := src.nav }

/-- The RTC block and the backup switch (R454-R477). `low` is FRAC:extension (42 bits), `ticks` counts crystal edges, `counted` is what they added in units of 2^-42 s, `bySet` says that the second in progress was entered by a set, `firedA` and `firedB` are the seconds of the latest firings, `lastLow` and `lastAbsent` the ticks of the latest cell records, `chgFull` that the charger has reached CHG_V and waits. `alarmRecs` and `cellRecs` are records that wait for ready, `coldPend` says that D0 has been cold-reset since the last ready, `swPend` holds the cell's mV at a return from the cell not yet told. `keep` holds the newest valid copies of the backup store's sections, `keepOld` the copies before them, `gens` their generations. -/
structure Rtc where
  sec   : Nat := 0
  low   : Nat := 0
  ticks : Nat := 0
  counted : Nat := 0
  bySet : Bool := false
  firedA : Option Nat := none
  firedB : Option Nat := none
  trim  : Int := 0
  trimNext : Option Int := none
  setNext : Option RtcSet := none
  cfg   : Word := 0x81F400000000#48
  leapNow : Int := 18
  leapNext : Int := 18
  leapAt : Nat := 0
  valA  : Word := 0x7BC108000000#48
  ctlA  : Word := 0
  valB  : Word := 0x7BC108000000#48
  ctlB  : Word := 0
  nextA : Option (Option Word × Option Word × Bool) := none
  nextB : Option (Option Word × Option Word × Bool) := none
  stat  : Nat := 0
  bk    : Word := 0x16F936000000#48
  bkNext : Option Word := none
  clrNext : Bool := false
  source : Nat := 0
  cellMv : Nat := 0
  low_  : Bool := false
  absent : Bool := false
  chgFull : Bool := false
  lastLow : Option Nat := none
  lastAbsent : Option Nat := none
  swCount : Nat := 0
  swFirst : Option (Nat × Nat) := none
  swRet : Option (Nat × Nat) := none
  bksValid : Nat := 0
  bksFall : Nat := 0
  keepOld : Backup := {}
  gens : Tab Nat := []
  trimSrc : Nat := 0
  trimState : Nat := 0
  applied : Bool := false
  trimSat : Bool := false
  eps   : Int := 0
  run   : Option TrimRun := none
  shadows : Tab RtcShadow := []
  alarmRecs : List (Nat × Nat × Nat × Qval) := []
  cellRecs : List (Nat × Nat) := []
  coldPend : Bool := true
  swPend : Option Nat := none
  keep  : Backup := {}
  deriving DecidableEq, Repr

/-- A partner's budget for one class (R482). -/
structure Budget where
  lat  : Nat := 0xFFFFFF
  full : Bool := false
  deriving DecidableEq, Repr

/-- Where the module is in its life (R326, R333, R489, R494, R497). -/
inductive Phase where
  | bringup
  | running
  | mainsLoss
  | shed
  | dormant
  deriving DecidableEq, Repr

/-- A RESET accepted and waiting for its start 1 ms after its reply (R309). -/
structure ResetWait where
  scope : Nat
  jsn   : Nat
  clk   : Nat
  deriving DecidableEq, Repr

/-- A firmware session and the image slots (R311, R508): `session` 0 none, 1 open, 2 committed; `runs` counts image changes, `tries` the bring-ups of an activated image that has not yet reached ready, `told` a fallback that waits to be reported. -/
structure Firmware where
  active : Nat := 0
  altValid : Bool := false
  activated : Bool := false
  fallback : Bool := false
  session : Nat := 0
  size  : Nat := 0
  hash  : BitVec 256 := 0
  words : Tab (Option Word) := []
  altMajor : Nat := 0
  altMinor : Nat := 0
  tries : Nat := 0
  runs  : Nat := 0
  told  : Bool := false
  deriving DecidableEq, Repr

/-- The power controller, the pads and the lifecycle (R478-R501). Domain states: 0 OFF, 1 RETENTION, 2 ON, 3 CHANGING. `downClk` is the counter clock at which D11's power-down began, `lossClk` that of the latest mains loss, `dormLoss` a mains loss in the dormant state, `wakeReq` the cause of a wake that has come and is not yet carried out, `retAt` the Q0 and counter clock at which a domain entered retention, `sc6`, `sc7`, `sc11` and `wd` what RST_CAUSE will show at the next ready, `retest` the parts that a bring-up tests again. -/
structure Power where
  dom   : Tab Nat := [(0, 2)]
  req   : Tab Nat := [(0, 2)]
  force : Tab Nat := []
  fpt   : Tab Nat := []
  good  : Bool := false
  dc    : Bool := false
  stages : Nat := 0
  holdup : Nat := 0
  volts : Nat := 0
  hz    : Nat := 0
  losses : Nat := 0
  dormants : Nat := 0
  wakes : Nat := 0
  buds  : Tab Budget := []
  unmet : Tab Bool := []
  effLat : Tab Nat := []
  effFull : Tab Bool := []
  met   : Tab Bool := []
  padCfg : Nat := 6
  latched : Nat := 0
  relPend : Nat := 0
  cut   : Nat := 0
  cutRec : Nat := 0
  latches : Nat := 0
  cuts  : Nat := 0
  phase : Phase := .bringup
  ready : Bool := false
  readyClk : Nat := 0
  timeDown : Bool := false
  downClk : Nat := 0
  lossClk : Nat := 0
  dormantReq : Bool := false
  dormLoss : Bool := false
  wakeReq : Option Nat := none
  retAt : Tab (Option (Qval × Nat)) := []
  sc6   : Bool := false
  sc7   : Bool := false
  sc11  : Bool := false
  wd    : Nat := 0
  retest : List (Nat × Nat) := []
  reset : Option ResetWait := none
  cause : Nat := 0
  selftest : Nat := 0
  fw    : Firmware := {}
  deriving DecidableEq, Repr

end Sys2Proof.Machine
end

