-- ==== Sys2Proof/Machine/BlocksE.lean ====
section
/-! DEFINITION. State of the shared memory, the Lendi links, the sample ports and the user cores. -/
namespace Sys2Proof.Machine
open Sys2Proof

/-- A bank of shared memory (Table 11): state 0 OK, 1 FAILED and mapped to BS, 2 FAILED_UNREPAIRED; the instants of its latest corrections, and whether one of the cases of R446 has come true. -/
structure Bank where
  state : Nat := 0
  ce    : Nat := 0
  ue    : Nat := 0
  times : List Nat := []
  due   : Bool := false
  deriving DecidableEq, Repr

/-- What a master has met (Table 10). -/
structure MasterConf where
  waits : Nat := 0
  wlost : Nat := 0
  deriving DecidableEq, Repr

/-- A patrol engine (R448-R450): its next stripe, passes completed, the instant of its latest lease, and the lease running (bank, first row, start in memory cycles). -/
structure Patrol where
  pos   : Nat := 0
  passes : Nat := 0
  since : Option Nat := none
  lease : Option (Nat × Nat × Nat) := none
  deriving DecidableEq, Repr

/-- A request that stands at its bank or waits at its master (R437): the memory cycle it was issued in, and whether it has counted as waiting. -/
structure BankReq where
  req   : MemReq
  since : Nat
  counted : Bool := false
  deriving DecidableEq, Repr

/-- Shared memory (R435-R453): bytes at 6·word + k, most significant first, listed where they differ from what an unlisted byte reads as (0); the words whose check bits are bad (R444) and those an uncorrectable error has met; the registers of the MEM block; the latest grants by bank and master (memory cycles), and grants by millisecond and bank; the requests not yet granted, in the order of issue, and the first memory cycle that has not run. -/
structure Memory where
  cells : List Host.Cell := []
  bad   : List Nat := []
  met   : List Nat := []
  spare : Nat := 0
  spareFor : Nat := 0
  failedCnt : Nat := 0
  ce    : Nat := 0
  ue    : Nat := 0
  ueAddr : Word := 0
  fault : Nat := 0
  grpcfg : Tab Word := []
  patrolCfg : Word := 0x81F400000000#48
  preempt : Nat := 0
  fails : Nat := 0
  scrubbed : Nat := 0
  confs : Tab MasterConf := []
  banks : Tab Bank := []
  patrols : Tab Patrol := []
  grants : Tab (List Nat) := []
  load  : List (Nat × Nat × Nat) := []
  lastClk : Nat := 0
  queue : List BankReq := []
  cycle : Nat := 0
  deriving DecidableEq, Repr

/-- A frame of an accepted LENDI_SEND (R381, R382). -/
structure SendItem where
  jsn     : Nat
  partner : Nat
  tag     : Nat
  pair    : Bool
  dest    : Nat
  payload : List Word
  accClk  : Nat
  sentClk : Option Nat := none
  resent  : Bool := false
  again   : Bool := false
  deriving DecidableEq, Repr

/-- A Lendi link (R365-R385, Tables 3, 5-7). `dep4`, `arr4` belong to the latest window with WSEQ a multiple of 100; `win` is the latest window and `used` the words it has given to frames; `control` the control frames that wait. -/
structure Link where
  en      : Bool := false
  asym    : Int := 0
  pair    : Option Nat := none
  pairGw  : Word := 0
  state   : Nat := 0
  tlock   : Bool := false
  credits : Nat := 0
  rxb     : Nat := 0
  lastDown : Nat := 0
  gw      : Word := 0
  txd     : Nat := 0
  rxd     : Nat := 0
  theta   : Int := 0
  delay   : Int := 0
  downs   : Nat := 0
  dropped : Nat := 0
  resent  : Nat := 0
  dep4    : Option (Nat × Int) := none
  arr4    : Option (Nat × Int) := none
  good    : Nat := 0
  lastTs  : Nat := 0
  win     : Option Nat := none
  used    : Nat := 0
  usedCtl : Nat := 0
  frames  : Nat := 0
  control : List (List Word) := []
  sends   : List SendItem := []
  upClk   : Option Nat := none
  wasUp   : Bool := false
  outClk  : Option Nat := none
  failed  : Bool := false
  drops   : List Nat := []
  deriving DecidableEq, Repr

/-- The mute state of a slot pair (R404). -/
structure Mute where
  muted : Bool := false
  since : Nat := 0
  count : Nat := 0
  deriving DecidableEq, Repr

/-- A staged slot mask (R403): the mask, the command and its partner. -/
structure MaskWait where
  mask : Nat
  jsn  : Nat
  partner : Nat
  deriving DecidableEq, Repr

/-- An input frame that a port keeps (R387): its index, its instant, its words widened to 32 bits, the pairs muted at it (R404), whether its edge was stamped on the direct path (R405). -/
structure InFrame where
  idx    : Nat
  at_    : Qval
  vals   : List Int
  muted  : List Nat
  direct : Bool
  deriving DecidableEq, Repr

/-- A source update that an angle port keeps (R395): stamp, value, rate and acceleration, and whether VALID returned with it. -/
structure AngleUpd where
  at_  : Qval
  val  : Qval
  rate : Int
  acc  : Int
  gap  : Bool
  deriving DecidableEq, Repr

/-- A sample port (R386-R408). `frame` counts input frames and `clocks` the bit clocks of the latest; `good` the frames in a row that keep lock's condition, `resids` their residuals in ps; `inputs` the frames kept, `ups` the updates of an angle port's quantity, both oldest first; `top` the highest value since the start; `moved` how far steps have moved the instants of a time port. -/
structure SmpPort where
  cfg0  : Word := 0
  cfg1  : Word := 0
  cfg2  : Word := 0
  cfg3  : Word := 0
  cfg4  : Word := 0
  state : Nat := 0
  lock  : Bool := false
  hadLock : Bool := false
  under : Bool := false
  fmtErr : Bool := false
  pairs : Tab Mute := []
  mask  : Nat := 0xFFFF
  maskOld : Nat := 0xFFFF
  next  : Option MaskWait := none
  rate  : Word := 0
  wr    : Word := 0xFFFFFFFFFFFF#48
  maskFrame : Word := 0
  maskJ : Word := 0
  hseq  : Nat := 0
  startSeq : Nat := 0
  ts    : Qval := 0
  v0    : Qval := 0
  stepIdx : Word := 0
  stepDelta : Qval := 0
  moved : Int := 0
  frame : Nat := 0
  clocks : Nat := 0
  edge  : Qval := 0
  wrFrame : Nat := 0
  good  : Nat := 0
  resids : List Nat := []
  inputs : List InFrame := []
  ups   : List AngleUpd := []
  top   : Qval := 0
  lastVal : Tab Int := []
  filledRun : Nat := 0
  inFill : Bool := false
  filled : Nat := 0
  discarded : Nat := 0
  underruns : Nat := 0
  fmtErrs : Nat := 0
  overrate : Nat := 0
  startAt : Option Qval := none
  stopAt  : Option Qval := none
  deriving DecidableEq, Repr

/-- A start record (R425, R426): task, JSN, occurrence, start instant, arguments, LATE, CLKQ. -/
structure Start where
  task : Nat
  jsn  : Nat
  occ  : Nat
  at_  : Qval
  argw : List Word
  late : Bool
  clkq : Bool
  deriving DecidableEq, Repr

/-- A task slot (R423, Table 11). -/
structure TaskSlot where
  loaded : Bool := false
  owner  : Nat := 6
  entry  : Nat := 0
  base   : Nat := 0
  size   : Nat := 0
  crc    : Nat := 0
  maxcyc : Nat := 0
  lastCyc : Nat := 0
  drops  : Nat := 0
  skipped : Nat := 0
  deriving DecidableEq, Repr

/-- One level of the loop stack: first and last instruction address, iterations still to come (R422). -/
structure LoopLevel where
  first : Nat
  last  : Nat
  left  : Nat
  deriving DecidableEq, Repr

/-- A user core (R411, Tables 2, 10): registers by index (unlisted: 0), local memory, the running start, the start ring, and the counter clocks between which tasks ran lately (BUSY_PCT). -/
structure UCore where
  d     : Tab Word := []
  a     : Tab Acc := []
  ap    : Tab Addr := []
  ix    : Tab Addr := []
  off   : Tab Addr := []
  ln    : Tab Addr := []
  mode  : Word := 0
  pc    : Nat := 0
  cycnt : Nat := 0
  loops : List LoopLevel := []
  lmem  : Tab Word := []
  run   : Option Start := none
  npost : Nat := 0
  ring  : List Start := []
  failed : Bool := false
  starts : Nat := 0
  dropped : Nat := 0
  aborts : Nat := 0
  faults : Nat := 0
  postsIgn : Nat := 0
  last  : Word := 0
  runClk : Nat := 0
  spans : List (Nat × Nat) := []
  slots : Tab TaskSlot := []
  deriving DecidableEq, Repr

/-- The cluster (R409, R431): the two user cores, who runs measurements and solutions (0 C0, 1 C1). -/
structure Dsp where
  c2 : UCore := {}
  c3 : UCore := {}
  navMeas : Nat := 0
  navSol  : Nat := 1
  failed  : Nat := 0
  deriving DecidableEq, Repr

end Sys2Proof.Machine
end

