-- ==== Sys2Proof/Machine/BlocksF.lean ====
section
/-! DEFINITION. State of the satellite side: RF front-ends, Gale, Kite, measurements and operating modes. -/
namespace Sys2Proof.Machine
open Sys2Proof

/-- A stream page (R61-R75, Tables 6-10): configuration, the notches in the path by number (offset, depth, level) and whether they adapt, the samples of the latest block (R62; one that is not listed is absent, 0x88), blanked samples of the latest ten blocks, how many samples of the next block a pulse still blanks, since when BLANK_FRAC has stayed at or below HEAVY, whether the AGC starts anew (R69), whether the stream has broken off since the latest boundary, its local oscillator and when that lost lock. -/
structure Strm where
  agc     : Word := 0x200028000000#48
  blank   : Word := 0x942042000000#48
  notch   : Word := 0x4CC000000000#48
  notchN  : Tab Word := []
  gain    : Nat := 0
  frac    : Nat := 0
  lines   : Tab (Option (Int × Nat × Nat)) := []
  adapts  : Bool := false
  blk     : List (BitVec 8) := []
  counts  : List Nat := []
  holdLeft : Nat := 0
  lowClk  : Option Nat := none
  agcFast : Bool := true
  gap     : Bool := false
  inLobe  : Bool := false
  heavy   : Bool := false
  linesOver : Bool := false
  blanked : Nat := 0
  locked  : Bool := false
  lostClk : Option Nat := none
  deriving DecidableEq, Repr

/-- An antenna (R64, R66-R68, Tables 4, 5): bias state 1 OK, 2 OPEN, 3 SHORT, 4 SHORT_LATCHED, 0 OFF; the counter clocks of its latest trip and of the latest application of the bias, and those at which its current was last found at least OPEN_MA and below it (R68). -/
structure Ant where
  cfg     : Word := 0x7F0060000000#48
  dly     : Word := 0
  dlyNow  : Word := 0
  state   : Nat := 0
  ma      : Nat := 0
  retries : Nat := 0
  tripClk : Nat := 0
  biasClk : Nat := 0
  aboveClk : Option Nat := none
  belowClk : Option Nat := none
  deriving DecidableEq, Repr

/-- The RF block (R58-R80): antennas, streams (3·a + b), writes that wait for the next block boundary by address, latched faults, and the stamp and counter clock of the latest block. -/
structure Rf where
  ants  : Tab Ant := []
  strs  : Tab Strm := []
  waits : List (Nat × Word) := []
  fault : Nat := 0
  stamp : Qval := 0
  blkClk : Option Nat := none
  clkq  : Bool := false
  deriving DecidableEq, Repr

/-- A Gale job (R90-R95): the fields of Table 2, granules charged, granules that no engine has taken yet and those not yet evaluated, the engine that may not run its next tile (R105), and its captures. `who` is the partner, 15 Ndovos; `since` the counter clock from which it has waited for input. -/
structure Job where
  slot   : Nat
  jsn    : Nat
  seq    : Nat
  who    : Nat
  tag    : Nat
  prio   : Nat
  npeak  : Nat
  mask   : Nat
  sig    : Nat
  prn    : Nat
  cps    : Nat
  sec    : Bool
  coh    : Nat
  noncoh : Nat
  bins   : Nat
  dopCentre : Int
  dopStep : Nat
  dopRate : Int
  cpStart : Nat
  cpWidth : Nat
  thresh : Nat
  secPhase : Nat
  hot    : Bool := false
  start  : Option Qval
  gran   : Nat
  left   : Nat
  todo   : Nat
  not_   : Option Nat := none
  caps   : List Nat := []
  stamp  : Qval := 0
  slip   : Bool := false
  clkq   : Bool := false
  heavy  : Bool := false
  lobe   : Bool := false
  since  : Option Nat := none
  deriving DecidableEq, Repr

/-- A capture (R84, R87): antenna, band, carrier (100 Hz), search samples per 2 ms, its first sample's stamp, when it opened, its length in ms and how many of them it holds, its search samples (I, Q), the stream bytes of the latest block (which the search filter still reaches), the sum of the squares and the number of its unblanked samples, the forward transforms not yet begun and not yet finished, and the engine that may not run its next one. -/
structure Capture where
  id   : Nat
  ant  : Nat
  band : Nat
  carrier : Nat
  rate : Nat
  stamp : Qval
  clk  : Nat
  len  : Nat
  got  : Nat := 0
  data : List (BitVec 8 × BitVec 8) := []
  prev : List (BitVec 8) := []
  power : Nat × Nat := (0, 0)
  fwd  : Nat
  fwdTodo : Nat
  not_ : Option Nat := none
  deriving DecidableEq, Repr

/-- The last report of a slot (R99): whose job, its TAG, the words of Table 3. -/
structure GaleRep where
  who : Nat
  tag : Nat
  ws  : List Word
  deriving DecidableEq, Repr

/-- What an engine slot runs (R82, R83): a tile of granules of jobs (by acceptance number), or a forward transform of a capture. -/
inductive EngWork where
  | tile (share : List (Nat × Nat))
  | fwd (cap : Nat)
  deriving DecidableEq, Repr

/-- An engine (R83, R105): mismatches, the counter clocks of the latest ones, failure, the slot in progress with its beginning and end, and what it has run in the millisecond `ms`: search slots and forward slot. -/
structure Eng where
  mis    : Nat := 0
  times  : List Nat := []
  failed : Bool := false
  work   : Option EngWork := none
  began  : Nat := 0
  busy   : Nat := 0
  ms     : Nat := 0
  search : Nat := 0
  fwds   : Nat := 0
  deriving DecidableEq, Repr

/-- The Gale block (R81-R106). `aborted` are the jobs whose ABORTED reports wait for ready, `tiles` and `fwds` the counter clocks of the latest slots; windows and selections are per path (R106). -/
structure Gale where
  ctrl    : Word := 0x200000000000#48
  jobs    : List Job := []
  caps    : List Capture := []
  reps    : Tab (Option GaleRep) := []
  rsel    : Tab Nat := []
  windows : Tab (List Word) := []
  cntJob  : Nat := 0
  cntGran : Nat := 0
  fault   : Nat := 0
  engs    : Tab Eng := []
  tiles   : List Nat := []
  fwds    : List Nat := []
  seq     : Nat := 0
  capId   : Nat := 0
  aborted : List Job := []
  deriving DecidableEq, Repr

/-- NCO state at a counter clock (R115): code phase in 2^-48 chip, secondary index, code periods, code rate, carrier phase in 2^-48 cycle, carrier rate, and in COAST what the carrier rate gains per sample (R130). -/
structure Nco where
  code   : Nat := 0
  sec    : Nat := 0
  epoch  : Nat := 0
  crate  : Nat := 0
  carr   : Int := 0
  carate : Int := 0
  gain   : Rat := 0
  clk    : Nat := 0
  deriving DecidableEq, Repr

/-- One integration's sums (R116): early, prompt, late, roving, the first half of the prompt, samples, the stream sample it ended with, the roving position, its millisecond within the code period, and the secondary index. -/
structure Integ where
  eI : Int
  eQ : Int
  pI : Int
  pQ : Int
  lI : Int
  lQ : Int
  rI : Int
  rQ : Int
  hI : Int
  hQ : Int
  n    : Nat
  last : Nat
  rove : Int
  ms   : Nat
  sec  : Nat
  deriving DecidableEq, Repr

/-- A loop profile (Table 12). -/
structure Profile where
  w0 : Word := 0x73C0080A0000#48
  w1 : Word := 0x48003207D000#48
  w2 : Word := 0x2C0666140000#48
  w3 : Word := 0x0400CD000000#48
  deriving DecidableEq, Repr

/-- Filter state of a channel's loops (R121, R128), exact. -/
structure Loops where
  acc : Rat := 0
  vel : Rat := 0
  dop : Rat := 0
  ci  : Rat := 0
  e   : Rat := 0
  ec  : Rat := 0
  ofsVel : Rat := 0
  ofsRate : Rat := 0
  ofsCarr : Rat := 0
  ofsCode : Rat := 0
  deriving DecidableEq, Repr

/-- What C0 and the decoders keep of a channel (R143-R149, R154): lock start, AMB_MS, the millisecond and transmit time (ms of GPS time) of the latest epoch, its pseudorange in 2^-16 m, n0, half cycle (ambiguous, added), frame sync. -/
structure Obs where
  lockFrom : Qval := 0
  ambMs  : Nat := 0
  tx     : Option (Nat × Rat) := none
  pr     : Nat := 0
  n0     : Option Int := none
  amb    : Bool := true
  add    : Bool := false
  framed : Bool := false
  fails  : Nat := 0
  deriving DecidableEq, Repr

/-- What the latest dump shows of a channel (R136, R149): its state at the snapshot edge. -/
structure Shot where
  state  : Nat := 0
  role   : Nat := 0
  train  : Nat := 0
  plock  : Bool := false
  clock  : Bool := false
  mlock  : Bool := false
  coast  : Bool := false
  fllOn  : Bool := false
  fll    : Bool := false
  absent : Bool := false
  sync   : Bool := false
  cn0    : Nat := 0
  slips  : Nat := 0
  clkq   : Bool := false
  msAt   : Rat := 0
  nco    : Nco := {}
  deriving DecidableEq, Repr

/-- A Kite channel (R109-R125, Tables 8-11). owner 0-4 partner, 6 none, 7 Ndovos. `prof` is the profile in force (R119); `rateClk` is from when `nco` holds, `hist` the states before it; `intAt` is the stream sample at which the next integration begins, `cnt` counts those completed, `recent` the latest twenty, `loopCnt` the count at the latest loop update, `fresh` how many have ended since the latest snapshot, `signs` the latest prompt signs and `symAt` where a symbol or secondary chip begins (R120); `sweep` is the roving position of SWEEP; `pp`, `pn`, `pl` sum prompt power, noise power and the lock indicator, with their numbers, since the latest evaluation (R123); `symAcc` and `symFrom` are the sum and the first stream sample of the data symbol in progress, `softs` the latest symbols with theirs (R154); `shot` is the latest dump, `snap` the snapshot group; `slip` goes into the next dump. -/
structure Chan where
  state  : Nat := 0
  sig    : Nat := 0
  prn    : Nat := 0
  ant    : Nat := 0
  owner  : Nat := 6
  role   : Nat := 0
  train  : Nat := 0
  ctrl   : Word := 0x020000000000#48
  ctrlNext : Option Word := none
  prof   : Profile := {}
  plock  : Bool := false
  clock  : Bool := false
  sync   : Bool := false
  fllOn  : Bool := false
  mlock  : Bool := false
  coast  : Bool := false
  slip   : Bool := false
  cause  : Nat := 0
  slips  : Nat := 0
  cn0    : Nat := 0
  pli    : Int := 0
  ints   : Nat := 0
  since  : Nat := 0
  low    : Option Nat := none
  drop   : Option Nat := none
  nco    : Nco := {}
  rateClk : Nat := 0
  hist   : List (Nat × Nco) := []
  intAt  : Nat := 0
  cnt    : Nat := 0
  recent : List Integ := []
  loopCnt : Nat := 0
  fresh  : Nat := 0
  signs  : List Bool := []
  symAt  : Nat := 0
  sweep  : Option Int := none
  pp     : Nat × Nat := (0, 0)
  pn     : Nat × Nat := (0, 0)
  pl     : Rat × Nat := (0, 0)
  lp     : Loops := {}
  obs    : Obs := {}
  shot   : Shot := {}
  symAcc : Int := 0
  symFrom : Nat := 0
  softs  : List (Int × Nat) := []
  snap   : List Word := []
  sums   : List Word := []
  deriving DecidableEq, Repr

/-- A kite train (R126-R132, Table 13): state 0 FREE, 1 RUN, 2 COAST; its channels, the master first. -/
structure Train where
  state   : Nat := 0
  combine : Bool := false
  owner   : Nat := 6
  slots   : List Nat := []
  promos  : Nat := 0
  coastClk : Nat := 0
  deriving DecidableEq, Repr

/-- What an accepted Kite command does at its tick (R112); `all` stands for SEL 1, with the channels or trains that it named at acceptance. -/
inductive KiteOp where
  | assign (chan : Nat) (ps : List Word)
  | release (chans : List Nat) (all : Bool)
  | form (train : Nat) (combine : Bool) (slots : List Nat)
  | brk (trains : List Nat) (all : Bool)
  deriving DecidableEq, Repr

/-- An accepted Kite command that waits for its tick, counted in ms. -/
structure KiteCmd where
  jsn  : Nat
  who  : Nat
  tick : Nat
  op   : KiteOp
  deriving DecidableEq, Repr

/-- The Kite block (R107-R139). `blk` counts ticks since D5 powered up, `lastMs` the latest application tick, `snapClk` and `snapQ` the latest snapshot edge, `retClk` when D5 entered retention, `reset` the channels and trains that ended by owner and wait to be told (R134). -/
structure Kite where
  chans  : Tab Chan := []
  trains : Tab Train := []
  cmds   : List KiteCmd := []
  profs  : Tab Profile := []
  ctrl   : Word := 0x700320000000#48
  blk    : Nat := 0
  dseq   : Nat := 0
  lastMs : Nat := 0
  evalClk : Nat := 0
  snapClk : Nat := 0
  snapQ  : Qval := 0
  retClk : Option Nat := none
  reset  : Tab (Nat × Nat) := []
  deriving DecidableEq, Repr

/-- A partner's measurement configuration (R142, R156, R171): the words in force, and those from a millisecond or instant on. -/
structure MeasCfg where
  obs    : List Word := []
  obsNext : List (Nat × List Word) := []
  nav    : List Word := []
  navNext : List (Qval × List Word) := []
  sol    : List Word := []
  solNext : List (Nat × List Word) := []
  obsGap : Option Nat := none
  navSkip : Nat := 0
  flags  : Tab Nat := []
  slips  : Tab Nat := []
  deriving DecidableEq, Repr

/-- A decoded navigation message (R154, R157). -/
structure NavMsg where
  chan     : Nat
  sig      : Nat
  prn      : Nat
  ant      : Nat
  mt       : Nat
  check    : Nat
  nbits    : Nat
  bits     : List Word
  parts    : List Bool
  ncorr    : Nat
  rx       : Qval
  txMs     : Nat
  clkq     : Bool
  deriving DecidableEq, Repr

/-- A message whose copies are being collected for a partner (R158). -/
structure Dedup where
  partner : Nat
  sat    : Nat
  mt     : Nat
  txTime : Nat
  clk    : Nat
  copies : Nat
  best   : NavMsg
  passed : Bool
  done   : List Nat
  deriving DecidableEq, Repr

/-- Measurements (R140-R159): the partners' configurations, messages in collection, copies already delivered, the latest epoch; by satellite the arrival and the transmit time (ms of GPS time) of its latest checked message (R145), and the checked messages Ndovos keeps (type, satellite, page, bits; R155). -/
structure Meas where
  cfgs   : Tab MeasCfg := []
  dedups : List Dedup := []
  sent   : List (Nat × Nat × Nat × Nat) := []
  times  : Tab (Option (Qval × Nat)) := []
  kept   : List (Nat × Nat × Nat × List Word) := []
  lastMs : Nat := 0
  deriving DecidableEq, Repr

/-- A MODE_SET accepted and not yet applied (R164). -/
structure ModeWait where
  jsn  : Nat
  who  : Nat
  tick : Nat
  ws   : List Word
  deriving DecidableEq, Repr

/-- One baseline (R177): state 0 NONE, 1 FLOAT, 2 FIXED; the satellites whose ambiguities are resolved; the slip counts of its channels at the latest heading epoch. -/
structure Baseline where
  state : Nat := 0
  sats  : List Nat := []
  slips : Tab Nat := []
  deriving DecidableEq, Repr

/-- The mode machine and Ndovos's solutions (R160-R189). `cur` are the MODE_SET words in force (of the origin in an automatic HOLDOVER), `who` and `jsn` whose MODE_SET they came from, `records` the MODE_CHANGE records that wait for ready, `lack` and `present` the epochs from which a sufficient set or the reference has been missing or there, `offset` and `sigma` what the latest solution, or the reference, found Tether time to be off by and its 1σ (ps), `secOk` whether every solution of the second in progress counts for the survey, `sums` the survey's position sums, `misfit` since when an antenna's residuals have been too large, `ref10` whether the 10 MHz on X3 is present, `cable` whether an ANT_CABLE_DLY has changed since the latest solution, `fixes` D7's copy of the antennas' positions. -/
structure ModeBlk where
  mode   : Nat := 0
  origin : Nat := 0
  cur    : List Word := []
  who    : Nat := 15
  jsn    : Nat := 0
  waits  : List ModeWait := []
  phase  : Nat := 0
  nsv    : Nat := 0
  refAnt : Nat := 0
  enter  : Qval := 0
  enterClk : Nat := 0
  held   : Tab (List Word) := []
  lastMs : Nat := 0
  lastSol : Nat := 0
  lastHdg : Nat := 0
  keptMs : Nat := 0
  clockMs : Nat := 0
  steered : Bool := false
  done   : Bool := false
  lack   : Option Qval := none
  present : Option Qval := none
  offset : Int := 0
  sigma  : Nat := 0
  secOk  : Bool := true
  surveyS : Nat := 0
  sums   : Tab (Nat × Int × Int × Int) := []
  sigMean : Nat := 0
  records : List (List Word) := []
  bases  : Tab Baseline := []
  misses : Nat := 0
  wakeAt : Qval := 0
  fixAt  : Qval := 0
  misfit : Tab (Option Qval) := []
  excluded : Nat := 0
  fofs   : Int := 0
  ref10  : Bool := false
  cable  : Bool := false
  aidSigma : Option Nat := none
  aidPos : Tab (Option (Int × Int × Int × Nat)) := []
  fixes  : Tab (Option AntFix) := []
  deriving DecidableEq, Repr

end Sys2Proof.Machine
end

