-- ==== Sys2Proof/Machine/State.lean ====
section
/-! DEFINITION. The state of the module, its value right after reset, and the reasons a step can stop. -/
namespace Sys2Proof.Machine
open Sys2Proof

/-- The whole module. Every field is plain data; its reset value is the default of its type's fields. `pending` is the queue of waiting commands, `wire` what left the module during the latest command, `fresh` the number of the next free value. -/
structure State where
  tb      : TimeBase := {}
  qs      : Tab Qty := []
  shadows : Tab Shadow := []
  calFrz  : Tab (Option (Word × Word × Word)) := []
  outs    : Tab Output := []
  clk     : Clock := {}
  sch     : Sched := {}
  parts   : Tab Partner := []
  jrn     : Journal := {}
  fc      : Parts := {}
  raised  : Tab (Option Nat) := []
  host    : HostBlk := {}
  stage   : List StageCopy := []
  lbal    : Tab LinkBal := []
  rtc     : Rtc := {}
  pwr     : Power := {}
  rf      : Rf := {}
  gale    : Gale := {}
  kite    : Kite := {}
  meas    : Meas := {}
  modes   : ModeBlk := {}
  mem     : Memory := {}
  links   : Tab Link := []
  ports   : Tab SmpPort := []
  dsp     : Dsp := {}
  wire    : List Emit := []
  fresh   : Nat := 0
  pending : List Instr := []
  deriving DecidableEq, Repr

/-- The machine right after reset: every register at the value the spec states, and where it states none at the value the assumption log names; no command waits. -/
def State.reset : State := {}

/-- Why a step stops. -/
inductive Fault where
  /-- Raised by MEMORY_ACCESS and PATROL_LEASE for a word address above 0xFF_FFFF, which no master can form (R10, R435). Safe: the machine stops. -/
  | outsideMemory
  deriving DecidableEq, Repr

/-- Why a command has no meaning. -/
inductive Refusal where
  /-- Raised by `exec` alone, for a command that has no meaning yet. Safe: the machine stops. -/
  | notModelled (mnemonic : String)
  deriving DecidableEq, Repr

end Sys2Proof.Machine
end

