-- ==== Sys2Proof/Machine/Divider.lean ====
section
/-! DEFINITION. The clock outputs as time passes (R194, R198, R204-R206): each divides PLL-T, PLL-F or the OCXO and counts its leading edges. -/
namespace Sys2Proof.Machine
open Sys2Proof

/-- SRC of a configuration. -/
def OutCfg.src (c : OutCfg) : Nat := fld c.cfg 47 46
/-- EN of a configuration. -/
def OutCfg.en (c : OutCfg) : Bool := bit c.cfg 45
/-- DIV of a configuration. -/
def OutCfg.divn (c : OutCfg) : Nat := c.div.toNat
/-- An enabled clock output. -/
def OutCfg.clock (c : OutCfg) : Bool := c.src != 0 && c.en
/-- An enabled aligned clock output (R194). -/
def OutCfg.aligned (c : OutCfg) : Bool := c.src == 1 && c.en && bit c.cfg 41
/-- An instant as a quantity value. -/
def qOf (u : Int) : Qval := BitVec.ofInt 96 u
/-- A quantity value as an instant. -/
def uOf (q : Qval) : Int := q.toNat
/-- The increment of the time counter at one counter clock, 2^-48 s (R211). -/
def TimeBase.inc (adj : Int) : Rat := (2 ^ 48 * (2 ^ 60 + adj) : Int) / (654720000 * 2 ^ 60 : Int)
/-- The axis on which a clock output's source is regular: Tether time for PLL-T, which is steered with it, counter clocks for PLL-F and the OCXO (Table 1, R211). -/
def OutCfg.axis (c : OutCfg) (tb : TimeBase) : Rat := if c.src = 1 then (uOf tb.q0 : Rat) else (tb.clk : Rat)
/-- The period on that axis: DIV cycles of PLL-T at a frequency in 2^-16 Hz, of 654.72 MHz, or of 10 MHz. -/
def OutCfg.cycle (c : OutCfg) (freqT : Nat) : Rat :=
  match c.src with
  | 1 => (c.divn * 2 ^ 64 : Nat) / (max 1 freqT : Nat)
  | 2 => c.divn
  | _ => (c.divn * 8184 : Nat) / (125 : Nat)
/-- The active part of a period: ⌈DIV/2⌉ source cycles, and half of one where the output carries the source itself (R194). -/
def OutCfg.active (c : OutCfg) (freqT : Nat) : Rat :=
  if c.divn ≤ 1 then c.cycle freqT / 2 else c.cycle freqT * ((c.divn + 1) / 2 : Nat) / (c.divn : Nat)
/-- The Tether instant of a point of the axis, near the present one. -/
def OutCfg.tether (c : OutCfg) (adj : Int) (tb : TimeBase) (x : Rat) : Int :=
  if c.src = 1 then x.floor else uOf tb.q0 - ((tb.clk - x) * TimeBase.inc adj).floor
/-- The point of the axis at a Tether instant. -/
def OutCfg.point (c : OutCfg) (adj : Int) (tb : TimeBase) (u : Int) : Rat :=
  if c.src = 1 then u else tb.clk + (u - uOf tb.q0) / TimeBase.inc adj
/-- The instant from which a clock output produces no edge of this configuration: the effect instant of one that waits (R195), the end of its seconds of holdover (R198). -/
def Output.ends (tb : TimeBase) (o : Output) : Option Int :=
  let w := o.wait.map fun w => uOf w.at_
  let lim := fld o.conf.hold 47 24
  match tb.hoStart with
  | some h =>
    if o.conf.src = 1 ∧ tb.tsrc = 2 ∧ lim ≠ 0 then
      let l := uOf h + lim * 2 ^ 48
      some (match w with | some u => min u l | none => l)
    else w
  | none => w
/-- A clock output up to the present: the leading edges due since its last one update its status group together (R206), and set CLKQ while its source coasts (R204). Behind latched pads and in D11's power-down its generator runs on, and no edge leaves (R205). -/
def Output.run (adj : Int) (tb : TimeBase) (freqT : Nat) (coasts shut : Bool) (o : Output) : Output :=
  match o.lead with
  | none => o
  | some x =>
    let c := o.conf
    let p := c.cycle freqT
    let y := match o.ends tb with | some u => min (c.axis tb) (c.point adj tb (u - 1)) | none => c.axis tb
    if !c.clock ∨ o.state ≠ 2 ∨ y < x ∨ p ≤ 0 then o
    else
      let n := ((y - x) / p).floor + 1
      let o := { o with lead := some (x + n * p) }
      if shut then o
      else
        let last := x + (n - 1) * p
        let e := qOf (c.tether adj tb last)
        { o with
          last := e, from_ := some e, cnt := (o.cnt + n.toNat) % 2 ^ 48, ho := decide (tb.tsrc = 2), tsrc := tb.tsrc
          until_ := some (qOf (c.tether adj tb (last + c.active freqT))), flags := if coasts then setBit o.flags 3 else o.flags }
/-- The PLL that feeds a clock output coasts. -/
def Clock.coasts (k : Clock) (c : OutCfg) : Bool := (c.src == 1 && k.pllT.state == 3) || (c.src == 2 && k.pllF.state == 3)

end Sys2Proof.Machine
end

