-- ==== Sys2Proof/Machine/Ops.lean ====
section
/-! DEFINITION. The named operations over the state: indexed instances, shared memory, the passing of time, quantity values, free values. -/
namespace Sys2Proof.Machine
open Sys2Proof

/-! One update per field of State. -/

/-- Replace the time base. -/
def State.putTb (s : State) (v : TimeBase) : State := { s with tb := v }
/-- Replace the quantities. -/
def State.putQs (s : State) (v : Tab Qty) : State := { s with qs := v }
/-- Replace the shadows. -/
def State.putShadows (s : State) (v : Tab Shadow) : State := { s with shadows := v }
/-- Replace the frozen calendars. -/
def State.putCalFrz (s : State) (v : Tab (Option (Word × Word × Word))) : State := { s with calFrz := v }
/-- Replace the outputs. -/
def State.putOuts (s : State) (v : Tab Output) : State := { s with outs := v }
/-- Replace the clock block. -/
def State.putClk (s : State) (v : Clock) : State := { s with clk := v }
/-- Replace the scheduler. -/
def State.putSch (s : State) (v : Sched) : State := { s with sch := v }
/-- Replace the partners. -/
def State.putParts (s : State) (v : Tab Partner) : State := { s with parts := v }
/-- Replace the journal. -/
def State.putJrn (s : State) (v : Journal) : State := { s with jrn := v }
/-- Replace the failed parts. -/
def State.putFc (s : State) (v : Parts) : State := { s with fc := v }
/-- Replace the limits of repeated records. -/
def State.putRaised (s : State) (v : Tab (Option Nat)) : State := { s with raised := v }
/-- Replace the host block. -/
def State.putHost (s : State) (v : HostBlk) : State := { s with host := v }
/-- Replace the staging copies. -/
def State.putStage (s : State) (v : List StageCopy) : State := { s with stage := v }
/-- Replace the ballast pages. -/
def State.putLbal (s : State) (v : Tab LinkBal) : State := { s with lbal := v }
/-- Replace the RTC domain. -/
def State.putRtc (s : State) (v : Rtc) : State := { s with rtc := v }
/-- Replace the power side. -/
def State.putPwr (s : State) (v : Power) : State := { s with pwr := v }
/-- Replace the RF front end. -/
def State.putRf (s : State) (v : Rf) : State := { s with rf := v }
/-- Replace the search block. -/
def State.putGale (s : State) (v : Gale) : State := { s with gale := v }
/-- Replace the channel block. -/
def State.putKite (s : State) (v : Kite) : State := { s with kite := v }
/-- Replace the measurements. -/
def State.putMeas (s : State) (v : Meas) : State := { s with meas := v }
/-- Replace the operating mode block. -/
def State.putModes (s : State) (v : ModeBlk) : State := { s with modes := v }
/-- Replace the shared memory. -/
def State.putMem (s : State) (v : Memory) : State := { s with mem := v }
/-- Replace the Lendi links. -/
def State.putLinks (s : State) (v : Tab Link) : State := { s with links := v }
/-- Replace the sample ports. -/
def State.putPorts (s : State) (v : Tab SmpPort) : State := { s with ports := v }
/-- Replace the DSP cluster. -/
def State.putDsp (s : State) (v : Dsp) : State := { s with dsp := v }
/-- Replace the list of what left. -/
def State.putWire (s : State) (v : List Emit) : State := { s with wire := v }
/-- Replace the number of the next free value. -/
def State.putFresh (s : State) (v : Nat) : State := { s with fresh := v }

/-- A partner as commissioned: partner 0 is supervisor, the others have no rights (R292 Table 3). -/
def partnerInit (p : Nat) : Partner := { rights := if p = 0 then 3 else 0 }
/-- Partner p. -/
def State.part (s : State) (p : Nat) : Partner := tget (partnerInit p) p s.parts
/-- Replace partner p. -/
def State.setPart (s : State) (p : Nat) (v : Partner) : State := s.putParts (tput (partnerInit p) p v s.parts)
/-- A quantity after a reset of D11: Q0 is TIME, every other source OFF (R39, R40). -/
def qtyInit (n : Nat) : Qty := if n = 0 then { cfg0 := 0x020000000000#48 } else {}
/-- Quantity n. -/
def State.qty (s : State) (n : Nat) : Qty := tget (qtyInit n) n s.qs
/-- Replace quantity n. -/
def State.setQty (s : State) (n : Nat) (v : Qty) : State := s.putQs (tput (qtyInit n) n v s.qs)
/-- Output n. -/
def State.out (s : State) (n : Nat) : Output := tget {} n s.outs
/-- Replace output n. -/
def State.setOut (s : State) (n : Nat) (v : Output) : State := s.putOuts (tput {} n v s.outs)
/-- Ballast of link l. -/
def State.lb (s : State) (l : Nat) : LinkBal := tget {} l s.lbal
/-- Replace the ballast of link l. -/
def State.setLb (s : State) (l : Nat) (v : LinkBal) : State := s.putLbal (tput {} l v s.lbal)
/-- Domain d's state: 0 OFF, 1 RETENTION, 2 ON, 3 CHANGING (R478). -/
def State.dom (s : State) (d : Nat) : Nat := tget 0 d s.pwr.dom
/-- Domain d is on. -/
def State.isOn (s : State) (d : Nat) : Bool := s.dom d == 2
/-- The bit of a domain in PAD_CFG, LATCHED and RELEASE_PEND: D9 2, D10 1, D11 0. -/
def padBit (d : Nat) : Option Nat := match d with | 9 => some 2 | 10 => some 1 | 11 => some 0 | _ => none
/-- The pins of a domain are latched: its outputs are held, its inputs disconnected (R491, Table 9). -/
def State.pinsLatched (s : State) (d : Nat) : Bool := match padBit d with | some b => s.pwr.latched.testBit b | none => false
/-- Set domain d's state. -/
def State.setDom (s : State) (d v : Nat) : State := s.putPwr { s.pwr with dom := tput 0 d v s.pwr.dom }
/-- PLL p: 0 F, 1 G, 2 S, 3 T, 4 W (R225). -/
def Clock.pll (c : Clock) (p : Nat) : Pll :=
  match p with | 0 => c.pllF | 1 => c.pllG | 2 => c.pllS | 3 => c.pllT | _ => c.pllW
/-- A PLL coasts, or has coasted since a counter clock (R218). -/
def Pll.coastedSince (l : Pll) (c : Nat) : Bool := l.state == 3 || l.coastEnd.any fun e => decide (c ≤ e)
/-- A PLL gives its consumers a clock: LOCKED, or coasting (R214, R216). -/
def Pll.gives (l : Pll) : Bool := l.state == 2 || l.state == 3
/-- D6 is on with its clock, and a Ndovos core runs (R216, R219, R337). -/
def State.ndovos (s : State) : Bool := s.isOn 6 && s.clk.pllS.gives && !(s.dsp.failed.testBit 0 && s.dsp.failed.testBit 1)
/-- Replace PLL p. -/
def Clock.setPll (c : Clock) (p : Nat) (v : Pll) : Clock :=
  match p with
  | 0 => { c with pllF := v } | 1 => { c with pllG := v } | 2 => { c with pllS := v }
  | 3 => { c with pllT := v } | _ => { c with pllW := v }
/-- The operating point of D1 (0), D3 (1), D4 (2), D6 (3) (R225). -/
def Clock.opp (c : Clock) (i : Nat) : Opp :=
  match i with | 0 => c.oppD1 | 1 => c.oppD3 | 2 => c.oppD4 | _ => c.oppD6
/-- Replace an operating point. -/
def Clock.setOpp (c : Clock) (i : Nat) (v : Opp) : Clock :=
  match i with
  | 0 => { c with oppD1 := v } | 1 => { c with oppD3 := v } | 2 => { c with oppD4 := v } | _ => { c with oppD6 := v }

/-- Link l. -/
def State.lnk (s : State) (l : Nat) : Link := tget {} l s.links
/-- Replace link l. -/
def State.setLnk (s : State) (l : Nat) (v : Link) : State := s.putLinks (tput {} l v s.links)
/-- Sample port p. -/
def State.smp (s : State) (p : Nat) : SmpPort := tget {} p s.ports
/-- Replace sample port p. -/
def State.setSmp (s : State) (p : Nat) (v : SmpPort) : State := s.putPorts (tput {} p v s.ports)
/-- User core k: 0 C2, 1 C3 (R433). -/
def State.core (s : State) (k : Nat) : UCore := if k = 0 then s.dsp.c2 else s.dsp.c3
/-- Replace a user core. -/
def State.setCore (s : State) (k : Nat) (v : UCore) : State :=
  if k = 0 then (s.putDsp { s.dsp with c2 := v }) else s.putDsp { s.dsp with c3 := v }
/-- Task slot t of a core. -/
def UCore.slot (c : UCore) (t : Nat) : TaskSlot := tget {} t c.slots
/-- Replace a task slot. -/
def UCore.setSlot (c : UCore) (t : Nat) (v : TaskSlot) : UCore := { c with slots := tput {} t v c.slots }

/-! Shared memory: bytes at 6·word + k, most significant first; an unlisted byte reads 0. -/

/-- The byte at an address. -/
def cellRead (a : Nat) : List Host.Cell → BitVec 8
  | [] => 0
  | (b, v) :: t => if a = b then v else cellRead a t
/-- An entry put in its place among rising addresses. -/
def cellIns (a : Nat) (v : BitVec 8) : List Host.Cell → List Host.Cell
  | [] => [(a, v)]
  | (b, x) :: t => if a < b then (a, v) :: (b, x) :: t else if a = b then (a, v) :: t else (b, x) :: cellIns a v t
/-- Write one byte; 0 removes the entry. -/
def cellWrite (a : Nat) (v : BitVec 8) (c : List Host.Cell) : List Host.Cell :=
  if v = 0 then c.filter (fun e => e.1 != a) else cellIns a v c
/-- The canonical form: addresses strictly rising, no listed 0. -/
def cellsWf : List Host.Cell → Bool
  | [] => true
  | [(_, x)] => decide (x ≠ 0)
  | (a, x) :: (b, y) :: t => decide (x ≠ 0) && decide (a < b) && cellsWf ((b, y) :: t)
/-- The memory holds its canonical form. -/
def Memory.wf (m : Memory) : Bool := cellsWf m.cells
/-- Byte k of a word, 0 the most significant. -/
def byteOf (w : Word) (k : Nat) : BitVec 8 := BitVec.ofNat 8 (w.toNat / 2 ^ (8 * (5 - k)))
/-- The word at a word address. -/
def Memory.read (m : Memory) (a : Nat) : Word :=
  let b := fun k => (cellRead (6 * a + k) m.cells).toNat
  word (b 0 * 2 ^ 40 + b 1 * 2 ^ 32 + b 2 * 2 ^ 24 + b 3 * 2 ^ 16 + b 4 * 2 ^ 8 + b 5)
/-- Store a word at a word address. -/
def Memory.write (m : Memory) (a : Nat) (w : Word) : Memory :=
  { m with
    cells := (List.range 6).foldl (fun c k => cellWrite (6 * a + k) (byteOf w k) c) m.cells
    bad := m.bad.filter (· ≠ a) }
/-- Store words at ascending addresses modulo 2^24 (R10). -/
def Memory.writes (m : Memory) (a : Nat) : List Word → Memory
  | [] => m
  | w :: ws => Memory.writes (m.write (a % 2 ^ 24) w) (a + 1) ws
/-- Read n words at ascending addresses. -/
def Memory.reads (m : Memory) (a n : Nat) : List Word := (List.range n).map fun k => m.read ((a + k) % 2 ^ 24)
/-- The leases of the patrol end (R449, R450). -/
def Memory.endLeases (m : Memory) : Memory := { m with patrols := m.patrols.map fun e => (e.1, { e.2 with lease := none }) }
/-- Store words in the state's shared memory. -/
def State.memWrites (s : State) (a : Nat) (ws : List Word) : State := s.putMem (s.mem.writes a ws)

/-! Quantities (R39-R52). -/

/-- KIND of a configuration word (Table 6). -/
def kindOf (w : Word) : Nat := fld w 47 44
/-- The kind in force of Qn: TIME for Q0. -/
def State.kind (s : State) (n : Nat) : Nat := if n = 0 then 0 else kindOf (s.qty n).cfg0
/-- SRCQ of a DERIVED quantity. -/
def srcOf (q : Qty) : Nat := fld q.cfg0 38 35
/-- RATIO of a DERIVED quantity, 2^-32, negated by DIR, which negates the source's sense of motion (R47, Table 6). -/
def ratioOf (q : Qty) : Int := if bit q.cfg0 42 then -sfld q.cfg1 47 0 else sfld q.cfg1 47 0
/-- The resolution of a kind in FRC units: a QUAD count, a single-turn step, a TACH cycle; none for the others (R51). -/
def stepUnits (q : Qty) : Option Nat :=
  match kindOf q.cfg0 with
  | 1 => some (2 ^ 48 / max 1 (fld q.cfg1 31 0))
  | 2 => some (2 ^ (48 - min 48 (fld q.cfg1 29 24)))
  | 3 => some (2 ^ 48)
  | _ => none
/-- The distance from the value at the last update to the next step, in the direction of motion (R51): for QUAD to the next count, for SSI and TACH one step. -/
def clampUnits (q : Qty) (up : Bool) : Option Nat :=
  match kindOf q.cfg0 with
  | 1 =>
    let c : Int := max 1 (fld q.cfg1 31 0)
    let here := q.count * 2 ^ 48 / c
    let there := (if up then q.count + 1 else q.count - 1) * 2 ^ 48 / c
    some (there - here).natAbs
  | _ => stepUnits q
/-- RATIO times a rate or acceleration, rounded toward −∞: R47 rounds the value alone and states no rounding here (DESIGN CHOICE, log 190). -/
def scaled (q : Qty) (x : Int) : Int := ratioOf q * x / 2 ^ 32
/-- The rate now, limited after a QUAD or TACH source has gone quiet (R52); a DERIVED quantity's is RATIO times its source's (R47). `fuel` bounds the chain of sources, whose numbers fall. -/
def State.rateIn (fuel : Nat) (s : State) (n : Nat) : Int :=
  let q := s.qty n
  match fuel with
  | 0 => q.rate
  | fuel + 1 =>
    if n = 0 then 2 ^ 24
    else match kindOf q.cfg0, stepUnits q with
      | 6, _ => if q.fed ∧ srcOf q < n then sat 48 (scaled q (s.rateIn fuel (srcOf q))) else q.rate
      | k, some u =>
        let quiet := s.tb.clk - q.tuClk
        if (k = 1 ∨ k = 3) ∧ q.fed ∧ q.lastIv < quiet then
          let lim : Int := u * 654720000 / (max 1 quiet * 2 ^ 24)
          max (-lim) (min lim q.rate)
        else q.rate
      | _, none => q.rate
/-- The rate that interpolation uses and QRATE shows. -/
def State.rateNow (s : State) (n : Nat) : Int := s.rateIn 16 n
/-- The motion r·τ + a·τ²/2 over τ units of 2^-48 s, in FRC units (R50), rounded toward −∞. -/
def motion (r a τ : Int) : Int := (r * τ * 2 ^ 57 + a * τ * τ) / 2 ^ 81
/-- The motion has turned back within τ: rate and acceleration oppose each other and the rate has passed 0. -/
def turned (r a τ : Int) : Bool := decide (r * a < 0 ∧ 0 < τ ∧ r.natAbs * 2 ^ 56 < a.natAbs * τ.natAbs)
/-- The farthest point that the motion reaches within τ on the side to which it starts. -/
def farthest (r a τ : Int) : Int := if turned r a τ then -(r * r * 2 ^ 31) / a else motion r a τ
/-- The motion of a source with steps of its own (R51): from the moment at which it comes within one unit of the next step it waits there. -/
def clamped (q : Qty) (r a τ : Int) : Int :=
  let up := decide (0 < r ∨ (r = 0 ∧ 0 ≤ a))
  let d := motion r a τ
  let far := farthest r a τ
  match clampUnits q up, clampUnits q (!up) with
  | some u, some w =>
    let top : Int := (u : Int) - 1
    let low : Int := (w : Int) - 1
    if up then (if top ≤ far then top else max (-low) d) else (if far ≤ -top then -top else min low d)
  | _, _ => d
/-- The motion of a TACH source: never against the sense that DIR sets, and short of the next pulse value (R44, R51). -/
def oneWay (q : Qty) (r a τ : Int) : Int :=
  let sense : Int := if bit q.cfg0 42 then -1 else 1
  let far := max (sense * motion r a τ) (if 0 < sense * r then sense * farthest r a τ else 0)
  sense * min (2 ^ 48 - 1) (max 0 far)
/-- v(t) of Qn at an instant (R50, R51): the value at the last update moved by rate and acceleration, held short of the next step; where a timeout of Table 10 has stopped it, it stands (R44, R46, R51). The limit of R52 on the rate never moves the value: what it cuts off lies beyond the clamp. -/
def State.valueAt (s : State) (n : Nat) (t : Qval) : Qval :=
  let q := s.qty n
  if n = 0 then t
  else if kindOf q.cfg0 = 15 then 0
  else if !q.fed ∧ kindOf q.cfg0 ≠ 6 then q.vu
  else match q.held with
    | some d => qadd q.vu d
    | none =>
      let dt := qdist t q.tu
      match kindOf q.cfg0 with
      | 3 => qadd q.vu (oneWay q q.rate q.acc dt)
      | 6 => qadd q.vu (motion (s.rateNow n) q.acc dt)
      | _ => qadd q.vu (clamped q q.rate q.acc dt)
/-- v(t) of Qn at the present instant. -/
def State.value (s : State) (n : Nat) : Qval := s.valueAt n s.tb.q0
/-- The 96-bit value of a DERIVED quantity's exact sum, its 32 extra bits dropped (R47). -/
def exactValue (x : BitVec 128) : Qval := BitVec.ofNat 96 (x.toNat / 2 ^ 32)
/-- The two's-complement number of a 96-bit value. -/
def qInt (q : Qval) : Int := if q.toNat < 2 ^ 95 then (q.toNat : Int) else (q.toNat : Int) - 2 ^ 96
/-- Rate, acceleration, VALID and STOPPED of a DERIVED quantity follow its source (R47), saturating (R30, R31). -/
def Qty.following (r a : Int) (valid stopped : Bool) (q : Qty) : Qty :=
  let r := scaled q r
  let a := scaled q a
  { q with
    rate := sat 48 r, overrate := decide (sat 48 r ≠ r), acc := sat 48 a, accSat := decide (sat 48 a ≠ a)
    valid := valid, stopped := stopped }
/-- The quantities that are derived from `src`. -/
def State.derivedFrom (src : Nat) (s : State) : List Nat :=
  [8, 9, 10, 11, 12, 13, 14, 15].filter fun n => kindOf (s.qty n).cfg0 == 6 && srcOf (s.qty n) == src && decide (src < n)
/-- A source update reaches the quantities derived from it, in rising number, and through them those derived from them: each adds RATIO times the source's change since the value it took in last (R47). `fuel` bounds the chain, whose numbers rise. -/
def State.feed (fuel : Nat) (src : Nat) (s : State) : State :=
  match fuel with
  | 0 => s
  | fuel + 1 =>
    (s.derivedFrom src).foldl (fun s n =>
      let q := s.qty n
      let sq := s.qty src
      let sv := if src = 0 then s.tb.q0 else sq.vu
      let e := q.exact + BitVec.ofInt 128 (ratioOf q * qdist sv q.srcVal)
      let q := { q with exact := e, vu := exactValue e, srcVal := sv, tu := if src = 0 then s.tb.q0 else sq.tu, tuClk := if src = 0 then s.tb.clk else sq.tuClk, fed := true, held := none }
      let q := if src = 0 then q.following (2 ^ 24) 0 true false else q.following sq.rate sq.acc sq.valid sq.stopped
      State.feed fuel n (s.setQty n q)) s
/-- A source's rate, VALID or STOPPED changes without an update: the quantities derived from it follow (R47), and where the source stands they stand. -/
def State.follow (fuel : Nat) (src : Nat) (s : State) : State :=
  match fuel with
  | 0 => s
  | fuel + 1 =>
    (s.derivedFrom src).foldl (fun s n =>
      let q := s.qty n
      let sq := s.qty src
      let q := { q with held := if sq.held.isSome then some (qdist (s.value n) q.vu) else q.held }
      State.follow fuel n (s.setQty n (q.following sq.rate sq.acc sq.valid sq.stopped))) s

/-! The passing of time. -/

/-- The slew term of FADJ, 2^-60: SLEW_PPB against the offset's sign (R200, R211). -/
def TimeBase.slewAdj (tb : TimeBase) : Int :=
  match tb.slew with
  | none => 0
  | some (e, _, ppb) => if 0 < e then -((ppb : Int) * 2 ^ 60 / 10 ^ 9) else (ppb : Int) * 2 ^ 60 / 10 ^ 9
/-- FADJ in force: loop value, the ageing and temperature terms while TSRC reads HOLDOVER, and the slew (R211). -/
def TimeBase.fadj (tb : TimeBase) : Int := tb.loopAdj + (if tb.tsrc = 2 then tb.holdAdj else 0) + tb.slewAdj
/-- The time counter over n counter clocks: the nominal increment 2^48 / 654,720,000 scaled by 1 + FADJ, the fraction of a unit carried (R32, R211). -/
def TimeBase.advance (n : Nat) (run : Bool) (tb : TimeBase) : TimeBase :=
  if run then
    let total := ((tb.sub : Int) + n * 2 ^ 48 * (2 ^ 60 + tb.fadj)).toNat
    let d := 654720000 * 2 ^ 60
    { tb with q0 := tb.q0 + BitVec.ofNat 96 (total / d), sub := total % d, clk := tb.clk + n }
  else { tb with clk := tb.clk + n }
/-- A number as one whose fraction has b bits, rounded down. -/
def fracBits (q : Qval) (b : Nat) : Nat := q.toNat % 2 ^ 48 / 2 ^ (48 - b)
/-- The calendar word of an RTC second under D0's copies (R460): from LEAP_AT on the change has taken effect. -/
def Rtc.cal (r : Rtc) (sec : Nat) : Word :=
  let pend := decide (r.leapNext ≠ r.leapNow)
  let done := pend && decide (r.leapAt ≤ sec)
  calWord sec (if done then r.leapNext else r.leapNow) (!done && insertedSecond sec r.leapNow r.leapNext r.leapAt pend)
/-- MISSED_x: a set carries the RTC forward over the start of a matching second of an enabled alarm (R461). -/
def Rtc.missedBy (r : Rtc) (sec : Nat) : Nat :=
  (if bit r.ctlA 47 && matchBetween r.valA r.ctlA r.cal r.sec sec then 4 else 0) +
  (if bit r.ctlB 47 && matchBetween r.valB r.ctlB r.cal r.sec sec then 8 else 0)
/-- The RTC takes a set value at a tick (R456, R461). -/
def Rtc.take (r : Rtc) (sec low : Nat) : Rtc :=
  { r with sec := sec, low := low, setNext := none, stat := r.stat ||| r.missedBy sec, bySet := if sec = r.sec then r.bySet else true }
/-- One tick adds 2^26 + TRIM to FRAC:extension (R454). -/
def Rtc.count (r : Rtc) (n : Nat) : Rtc :=
  let d := ((n : Int) * (2 ^ 26 + r.trim)).toNat
  let x := r.low + d
  { r with sec := (r.sec + x / 2 ^ 42) % 2 ^ 48, low := x % 2 ^ 42, counted := r.counted + d, bySet := r.bySet && decide (x < 2 ^ 42) }
/-- Writes that wait for the RTC tick take effect (R456, R463, R465, R468, R472). `teth` is Tether time at the tick. -/
def Rtc.tickWrites (teth : Qval) (r : Rtc) : Rtc :=
  let r := match r.trimNext with | some v => { r with trim := v, trimNext := none } | none => r
  let r := match r.bkNext with | some v => { r with bk := v, bkNext := none } | none => r
  let r := if r.clrNext then { r with swCount := 0, swFirst := none, swRet := none, clrNext := false } else r
  let r := match r.nextA with
    | some (v, c, clr) => { r with
        valA := v.getD r.valA, ctlA := c.getD r.ctlA, nextA := none
        stat := if clr then clearBits r.stat 5 else r.stat }
    | none => r
  let r := match r.nextB with
    | some (v, c, clr) => { r with
        valB := v.getD r.valB, ctlB := c.getD r.ctlB, nextB := none
        stat := if clr then clearBits r.stat 10 else r.stat }
    | none => r
  match r.setNext with
  | none => r.count 1
  | some .tether => { r.take (teth.toNat / 2 ^ 48) (fracBits teth 16 * 2 ^ 26) with counted := (r.count 1).counted }
  | some (.value sv fv) =>
    let c := r.count 1
    { r.take (sv.getD c.sec) (fv.getD (c.low / 2 ^ 26) * 2 ^ 26) with counted := c.counted }
/-- The RTC over n ticks (R454): waiting writes at the first, then counting. Tether time at the first tick lies n − 1 ticks before `teth`. -/
def Rtc.advance (n : Nat) (teth : Qval) (r : Rtc) : Rtc :=
  match n with
  | 0 => r
  | k + 1 => Rtc.count (Rtc.tickWrites (qadd teth (-(k : Int) * 2 ^ 32)) { r with ticks := r.ticks + (k + 1) }) k
/-- A preset becomes the value at the counter clock after its commit, and no source step is added in that clock; rate and acceleration go on (R56). -/
def Qty.takePreset (q0 : Qval) (clk : Nat) (q : Qty) : Qty :=
  match q.preset with
  | none => q
  | some v => { q with vu := v, base := v, count := 0, tu := q0, held := none, preset := none, absorb := some clk }
/-- The clock outputs up to the present (R194, R204-R206). -/
def State.runOuts (s : State) : State :=
  let shut := s.dom 11 != 2 || s.pwr.timeDown || s.pinsLatched 11
  s.putOuts (s.outs.map fun (e : Nat × Output) => (e.1, e.2.run s.tb.fadj s.tb (s.clk.pllT.freq.toNat % 2 ^ 46) (s.clk.coasts e.2.conf) shut))
/-- The lapse before a command: Tether time counts while D11 is on or in retention (R478), the RTC ticks, presets take effect at its first counter clock, quantities derived from Q0 follow it, clock outputs produce their edges, and what left during the command before is gone. -/
def State.elapse (t : Lapse) (s : State) : State :=
  let run := decide (s.dom 11 = 1 ∨ s.dom 11 = 2)
  let tb := s.tb.advance t.clk run
  let next := s.tb.advance 1 run
  let s := ((s.putTb tb).putRtc (s.rtc.advance t.tick tb.q0)).putWire []
  if t.clk = 0 then s else State.runOuts (State.feed 16 0 (s.putQs (s.qs.map fun e => (e.1, e.2.takePreset next.q0 next.clk))))
/-- One more thing left the module during this command. -/
def State.emit (s : State) (e : Emit) : State := s.putWire (s.wire ++ [e])
/-- The present instant. -/
def State.now (s : State) : Qval := s.tb.q0
/-- Counter clocks in n microseconds. -/
def usClk (n : Nat) : Nat := n * 654720000 / 1000000

end Sys2Proof.Machine
end

