-- ==== Sys2Proof/Machine/Operands.lean ====
section
/-! DEFINITION. The operand forms: Skonus packets and their words (R279-R282), Ethernet segments (R347), journal entries (R321), status codes (R290). -/
namespace Sys2Proof.Machine
open Sys2Proof

/-- Status codes (Table 4). -/
inductive Status where
  | accepted | done | dup | notReady | busyCredit | gap | stale | badFrame | badCheck | badOpcode
  | badParam | badAuth | stateRefused | tooLate | noCapacity | notPermitted | fault
  deriving DecidableEq, Repr
/-- The code of a status (Table 4). -/
def Status.code : Status → Nat
  | .accepted => 0 | .done => 1 | .dup => 2 | .notReady => 0x10 | .busyCredit => 0x11 | .gap => 0x12
  | .stale => 0x13 | .badFrame => 0x20 | .badCheck => 0x21 | .badOpcode => 0x22 | .badParam => 0x23
  | .badAuth => 0x24 | .stateRefused => 0x30 | .tooLate => 0x31 | .noCapacity => 0x32
  | .notPermitted => 0x33 | .fault => 0x40
/-- The command takes effect. -/
def Status.ok (st : Status) : Bool := st == .accepted || st == .done

/-- The words of a packet (R279-R281), with a tag where a key is given (R293). -/
def packet (reply event urgent : Bool) (op partner : Nat) (seq : Word) (key : Option (BitVec 256)) (ps : List Word) : List Word :=
  let w0 := pack [put 47 40 0xD5, put 39 36 1, putB 35 reply, putB 34 event, putB 33 key.isSome, putB 32 urgent,
    put 31 20 op, put 19 16 partner, put 15 0 ps.length]
  let body := w0 :: seq :: ps
  let body := match key with | some k => body ++ tagOf k body | none => body
  body ++ [pack [put 47 32 (0xFFFF - ps.length % 2 ^ 16), put 31 0 (crc32c (wireBytes body))]]

/-- The first parameter word of a reply (R282). -/
def replyWord (st : Status) (credit orig : Nat) : Word := pack [put 47 36 st.code, put 35 20 credit, put 19 8 orig]

/-- S of R347: the packet words of one segment. -/
def segWords (jumbo : Bool) (ep : Endpoint) : Nat :=
  let mtu := if jumbo then 9000 else 1500
  let h := match ep with | .udp4 _ _ => 28 | .udp6 _ _ => 48 | _ => 0
  (mtu - h) / 6 - 1
/-- A transport word (Table 1 of R347). -/
def transport (seg nseg xid n : Nat) : Word := pack [put 47 40 seg, put 39 32 nseg, put 31 16 xid, put 15 4 n]
/-- A packet cut into segments of S words, each behind its transport word. `n` bounds the segments left. -/
def segments (n seg nseg xid sz : Nat) (ws : List Word) : List (List Word) :=
  match n with
  | 0 => []
  | n + 1 =>
    if ws = [] then []
    else (transport seg nseg xid (ws.take sz).length :: ws.take sz) :: segments n (seg + 1) nseg xid sz (ws.drop sz)

/-- Entries of a group with n data words (R321). -/
def entriesFor (n : Nat) : Nat := 1 + (n - 9 + 12) / 13
/-- The data words a group stores. -/
def Group.data (g : Group) : List Word := g.params ++ g.reply
/-- Entries of a group. -/
def Group.entries (g : Group) : Nat := entriesFor g.data.length
/-- Closes fifteen words with JSN_LO and CRC (word 15). -/
def closeEntry (jsn : Nat) (ws : List Word) : List Word :=
  ws ++ [pack [put 47 32 jsn, put 31 0 (crc32c (wireBytes ws))]]
/-- Words padded with zeros to n. -/
def padTo (n : Nat) (ws : List Word) : List Word := ws.take n ++ List.replicate (n - ws.length) 0
/-- Continuation entries (Table 3), at most n of them. -/
def conts (n jsn idx : Nat) (ws : List Word) : List (List Word) :=
  match n with
  | 0 => []
  | n + 1 =>
    if ws = [] then []
    else closeEntry jsn (word jsn :: pack [put 47 44 2, put 43 28 idx] :: padTo 13 ws) :: conts n jsn (idx + 1) (ws.drop 13)
/-- The entries of a group verbatim (Tables 2, 3). -/
def Group.verbatim (g : Group) : List (List Word) :=
  let d := g.data
  closeEntry g.jsn ([word g.jsn,
    pack [put 47 44 g.kind, put 43 40 g.partner, put 39 37 g.port, putB 36 g.carried, putB 35 g.exec, putB 34 g.vol,
      put 31 20 g.opcode, put 19 8 g.status],
    g.key, cyc g.tq, frc g.tq,
    pack [put 47 36 g.params.length, put 35 24 g.reply.length, put 23 4 (match g.slot with | some n => Config.eventSlot n | none => 0), putB 3 g.slot.isSome]]
    ++ padTo 9 d) :: conts 400 g.jsn 1 (d.drop 9)

end Sys2Proof.Machine
end

