-- ==== Sys2Proof/Machine/Journal.lean ====
section
/-! DEFINITION. Shared operations of the command side: sealing groups and pins (R320-R331), forming, sending and acknowledging event records (R312-R318), alarms and faults (R313), packets out on a port. -/
namespace Sys2Proof.Machine
open Sys2Proof

/-- Ethernet port h. -/
def State.eth (s : State) (h : Nat) : EthPort := if h = 0 then s.host.eth0 else s.host.eth1
/-- Replace an Ethernet port. -/
def State.setEth (s : State) (h : Nat) (v : EthPort) : State :=
  if h = 0 then (s.putHost { s.host with eth0 := v }) else s.putHost { s.host with eth1 := v }
/-- SPI port h (2 or 3). -/
def State.spi (s : State) (h : Nat) : SpiPort := if h = 2 then s.host.spi2 else s.host.spi3
/-- Replace an SPI port. -/
def State.setSpi (s : State) (h : Nat) (v : SpiPort) : State :=
  if h = 2 then (s.putHost { s.host with spi2 := v }) else s.putHost { s.host with spi3 := v }
/-- Host port h serves traffic (R355, R363, R497): on Ethernet from the start of bring-up, on SPI once ready and until D9 goes off. After a mains loss D1 answers until 10 ms later, or until the hand-over of R496 where mains has returned by then. Latched pins carry nothing (R491). -/
def State.portUp (s : State) (h : Nat) : Bool :=
  if s.pinsLatched 9 then false
  else if s.pwr.phase == .mainsLoss && decide (s.pwr.lossClk + 72019200 < s.tb.clk) then false
  else if h < 2 then
    bit (s.eth h).page.cfg 47 && s.isOn 9 && (s.pwr.phase == .bringup || (s.eth h).link)
  else if h < 4 then
    (s.spi h).en && s.isOn 9 && (s.pwr.ready || s.pwr.phase == .mainsLoss)
  else false

/-- The VLAN tag of the frames that a port sends (R345, Table 9): priority and VLAN, 0 for none. -/
def EthPage.tag (p : EthPage) : Nat := if fld p.cfg 42 31 = 0 then 0 else fld p.cfg 30 28 * 2 ^ 13 + fld p.cfg 42 31
/-- A packet leaves on a port: cut into segments on Ethernet (R347), queued on SPI (R354). A packet for a port that is not up is lost. -/
def State.sendPacket (port : Nat) (ep : Endpoint) (mac : Word) (partner : Nat) (isReply : Bool)
    (held : Option (Bool × Nat)) (ws : List Word) (s : State) : State :=
  if s.portUp port then
    if port < 2 then
      let e := s.eth port
      let sz := segWords (bit e.page.cfg 46) ep
      let segs := segments 255 0 ((ws.length + sz - 1) / sz) e.xid sz ws
      let s := s.setEth port { e with xid := (e.xid + 1) % 2 ^ 16 }
      (s.putWire (s.wire ++ segs.map (Emit.frame port e.page.tag ep mac)))
    else
      let p := s.spi port
      s.setSpi port { p with tx := p.tx ++ [{ words := ws, partner := partner, isReply := isReply, held := held }] }
  else s

/-- The key that replies and records to a partner are tagged with (R282, R293). -/
def Partner.outKey (p : Partner) : Option (BitVec 256) := if p.authReq then p.key else none

/-- Pinned entries (LIVE, R328). -/
def Journal.live (j : Journal) : Nat :=
  ((j.landing ++ j.ring).filter fun g => g.pins ≠ []).foldl (fun n g => n + g.entries) 0
/-- Apply a change to every group held. -/
def Journal.mapGroups (f : Group → Group) (j : Journal) : Journal :=
  { j with landing := j.landing.map f, ring := j.ring.map f }
/-- The group of a JSN, while it is held. -/
def Journal.find (j : Journal) (jsn : Nat) : Option Group := (j.landing ++ j.ring).find? fun g => g.jsn == jsn
/-- Take a pin off the group of a JSN. -/
def Journal.unpin (pin : Pin) (jsn : Nat) (j : Journal) : Journal :=
  j.mapGroups fun g => if g.jsn = jsn then { g with pins := g.pins.filter (· ≠ pin) } else g
/-- Take a pin off every group. -/
def Journal.unpinAll (pin : Pin) (j : Journal) : Journal :=
  j.mapGroups fun g => { g with pins := g.pins.filter (· ≠ pin) }
/-- A journal store takes entries (R339). -/
def Journal.working (j : Journal) : Bool := j.storeA.stat != 2 || j.storeB.stat != 2

/-- Seal a group (R320, R323): it takes the next JSN and the present Tether time. A configuration pin leaves the item's earlier group (R327). At the last JSN nothing is sealed. -/
def State.seal (g : Group) (s : State) : State :=
  if 0xFFFFFFFFFFFF ≤ s.jrn.next then s
  else
    let j := g.pins.foldl (fun j pin => match pin with | .config _ _ => j.unpinAll pin | _ => j) s.jrn
    (s.putJrn { j with
        next := j.next + 1
        landing := j.landing ++ [{ g with jsn := j.next, tq := s.tb.q0 }]
        cntGroups := satN 24 (j.cntGroups + 1) })
/-- A partner's records that are still to be sent leave on its bound port, in ESN order (R314). -/
def State.sendRecs (p : Nat) (s : State) : State :=
  match (s.part p).bind with
  | none => s
  | some b =>
    if s.portUp b.port ∧ s.pwr.ready then
      let prt := s.part p
      let due := prt.ev.recs.filter fun r => prt.ev.cursor ≤ r.esn
      let s := s.setPart p { prt with ev := { prt.ev with cursor := prt.ev.nextEsn } }
      due.foldl (fun s r =>
        s.sendPacket b.port b.ep b.mac p false none
          (packet false true r.urgent 0x800 p (word r.esn) prt.outKey r.body)) s
    else s

/-- Entries pinned for a partner's unacknowledged records (R331). -/
def Journal.recPins (p : Nat) (j : Journal) : Nat :=
  ((j.landing ++ j.ring).filter fun g => g.partner = p ∧ Pin.record ∈ g.pins).foldl (fun n g => n + g.entries) 0
/-- The oldest record pin of a partner goes while its pins take more than 16,384 entries (R331). -/
def Journal.trimPins (fuel p : Nat) (j : Journal) : Journal :=
  match fuel with
  | 0 => j
  | fuel + 1 =>
    if j.recPins p ≤ 16384 then j
    else match (j.ring ++ j.landing).find? fun g => g.partner = p ∧ Pin.record ∈ g.pins with
      | some g => Journal.trimPins fuel p (j.unpin .record g.jsn)
      | none => j

/-- The subtype word of an ALARM or FAULT record and its body (R313). -/
def causeWords (fault : Bool) (cause : Nat) (t : Qval) (args : List Word) : List Word :=
  pack [put 47 40 (if fault then 6 else 5), put 39 28 cause, put 27 24 args.length] :: cyc t :: frc t :: args
/-- Form an event record for a partner (R312-R314, R330): it is sealed, takes the next ESN, joins the stream or the open kept range (R275), and leaves on the bound port. A partner without rights has none formed. -/
def State.form (p : Nat) (vol : Bool) (ws : List Word) (s : State) : State :=
  let prt := s.part p
  if prt.rights = 0 then s
  else
    let jsn := s.jrn.next
    let esn := prt.ev.nextEsn
    let sub := fld (arg ws 0) 47 40
    let data := if vol then ws.take 2 else ws
    let pins := if !vol ∧ s.jrn.live + entriesFor data.length ≤ 245760 then [Pin.record] else []
    let s := s.seal { jsn := 0, kind := 3, partner := p, port := 7, vol := vol, opcode := 0x800, status := 0, key := word esn, tq := 0, params := data, reply := [], pins := pins }
    let s := s.putJrn (s.jrn.trimPins 64 p)
    let r : Rec := { esn := esn, jsn := jsn, urgent := decide (5 ≤ sub), vol := vol, body := ws }
    let ev := { prt.ev with nextEsn := esn + 1 }
    let ev := match ev.kept with
      | some (a, _) => { ev with kept := some (a, esn) }
      | none => if 65536 ≤ ev.recs.length then { ev with kept := some (esn, esn) } else { ev with recs := ev.recs ++ [r] }
    (s.setPart p { prt with ev := ev }).sendRecs p

/-- JSN_LOW to every partner, once, when the next JSN reaches 0xFFFF_0000_0000 (R320). -/
def State.jsnCheck (s : State) : State :=
  if 0xFFFF00000000 ≤ s.jrn.next ∧ !s.jrn.jsnLow then
    [0, 1, 2, 3, 4].foldl (fun (s : State) p => s.form p false (causeWords false 0x903 s.tb.q0 [])) (s.putJrn { s.jrn with jsnLow := true })
  else s
/-- An event record, and JSN_LOW where its group brings the next JSN so far. -/
def State.record (p : Nat) (vol : Bool) (ws : List Word) (s : State) : State := (s.form p vol ws).jsnCheck
/-- Seal a SYSTEM group (Table 4). -/
def State.sealSystem (scode : Nat) (data : List Word) (s : State) : State :=
  State.jsnCheck (s.seal { jsn := 0, kind := 4, partner := 15, port := 7, opcode := 0, status := 0, key := word scode, tq := 0, params := data, reply := [] })
/-- An ALARM or FAULT record to one partner. -/
def State.raise (p : Nat) (fault : Bool) (cause : Nat) (args : List Word) (s : State) : State :=
  s.record p false (causeWords fault cause s.tb.q0 args)
/-- An ALARM or FAULT record on every partner's event stream. -/
def State.raiseAll (fault : Bool) (cause : Nat) (args : List Word) (s : State) : State :=
  [0, 1, 2, 3, 4].foldl (fun s p => s.raise p fault cause args) s
/-- The same, at most once per second for a cause and instance. -/
def State.raiseLimited (fault : Bool) (cause inst : Nat) (args : List Word) (s : State) : State :=
  let k := cause * 65536 + inst
  match tget none k s.raised with
  | some c => if s.tb.clk < c + 654720000 then s
    else State.raiseAll fault cause args (s.putRaised (tput none k (some s.tb.clk) s.raised))
  | none => State.raiseAll fault cause args (s.putRaised (tput none k (some s.tb.clk) s.raised))

/-- The same, to one partner, at most once per second for a cause and instance. -/
def State.raiseOwner (p : Nat) (cause inst : Nat) (args : List Word) (s : State) : State :=
  let k := cause * 65536 + inst
  match tget none k s.raised with
  | some c => if s.tb.clk < c + 654720000 then s
    else State.raise p false cause args (s.putRaised (tput none k (some s.tb.clk) s.raised))
  | none => State.raise p false cause args (s.putRaised (tput none k (some s.tb.clk) s.raised))

/-- Words that volatile bodies take in the event buffer (R330). -/
def State.bufferUsed (s : State) : Nat :=
  [0, 1, 2, 3, 4].foldl (fun n p => (s.part p).ev.recs.foldl (fun n r => if r.vol then n + r.body.length else n) n) 0
/-- A record that may be withheld is formed only while the partner holds fewer than 49,152 unacknowledged records, fewer than 200 such groups were sealed in the present whole millisecond, and the event buffer has room for a volatile body (R151, R158, R241, R330). -/
def State.mayForm (p : Nat) (vol : Bool) (n : Nat) (s : State) : Bool :=
  decide ((s.part p).ev.recs.length < 49152) &&
  decide (s.jrn.msMark ≠ msOf s.tb.q0 ∨ s.jrn.msCount < 200) &&
  (!vol || decide (s.bufferUsed + n ≤ 2097152))
/-- Form such a record and count it against the millisecond's 200. -/
def State.recordCounted (p : Nat) (vol : Bool) (ws : List Word) (s : State) : State :=
  let m := msOf s.tb.q0
  let n := if s.jrn.msMark = m then s.jrn.msCount + 1 else 1
  State.record p vol ws (s.putJrn { s.jrn with msMark := m, msCount := n })

/-- Acknowledge every record with ESN ≤ a (R316): pins go, a run of retirements may end (R331), and an open kept range closes with its OVERFLOW record when 49,152 records or fewer remain (R318). -/
def State.ackEsn (p a : Nat) (s : State) : State :=
  let prt := s.part p
  let ev := prt.ev
  if a < ev.ackFirst then s
  else
    let gone := fun (g : Group) => decide (g.kind = 3 ∧ g.partner = p ∧ g.key.toNat ≤ a)
    let s := s.putJrn (s.jrn.mapGroups fun g => if gone g then { g with pins := g.pins.filter (· ≠ Pin.record) } else g)
    let recs := ev.recs.filter fun r => a < r.esn
    let ev := { ev with
      ackFirst := a + 1, cursor := max ev.cursor (a + 1), recs := recs
      retRun := ev.retRun && decide (a < ev.retired) }
    match ev.kept with
    | some (f, l) =>
      if recs.length ≤ 49152 then
        (s.setPart p { prt with ev := { ev with kept := none } }).record p false
          [pack [put 47 40 0x0A], word f, word l, pack [put 47 24 (l + 1 - f)]]
      else s.setPart p { prt with ev := ev }
    | none => s.setPart p { prt with ev := ev }

/-- Sending restarts at a record (R315, R317). -/
def State.resendFrom (p esn : Nat) (s : State) : State :=
  let prt := s.part p
  (s.setPart p { prt with ev := { prt.ev with cursor := esn } }).sendRecs p

/-- A part's failure: its FC_STAT bit is the caller's; one FAULT record to every partner and a SYSTEM group (R338). -/
def State.partFailed (cls inst : Nat) (s : State) : State :=
  (s.raiseAll true 0x901 [word cls, word inst]).sealSystem 3 [word cls, word inst]
/-- A part's return (R338). -/
def State.partRestored (cls inst : Nat) (s : State) : State :=
  (s.raiseAll true 0x902 [word cls, word inst]).sealSystem 4 [word cls, word inst]

end Sys2Proof.Machine
end

