-- ==== Sys2Proof/Machine/Skonus.lean ====
section
/-! DEFINITION. The command unit: the order of checks of R284, sequence numbers and replay (R285-R289), credit (R265, R266), replies (R282, R283), and the commands PING, HELLO, GOODBYE, EVENT_ACK and EVENT_RESYNC. -/
namespace Sys2Proof.Machine
open Sys2Proof

/-- What an opcode's own checks decide (step 13 of R284): status, reply words from word 2, how the group is stored and pinned, the records it promises, and the effect at hand-off, given the JSN. -/
structure Verdict where
  status  : Status
  words   : List Word := []
  full    : Bool := false
  stored  : Option (List Word) := none
  slot    : Option Nat := none
  pins    : List Pin := []
  promise : Nat := 0
  act     : Nat → State → State := fun _ s => s

/-- The reply words of a verdict: a refusal without words answers a word of zeros (R290). -/
def Verdict.reply (v : Verdict) : List Word := if v.words = [] ∧ !v.status.ok then [0] else v.words

/-- A refusal with its reply words. -/
def refuse (st : Status) (ws : List Word) : Verdict := { status := st, words := ws }
/-- A refusal with a REASON. -/
def reason (st : Status) (r : Nat) : Verdict := refuse st [word r]
/-- BAD_PARAM with a REASON. -/
def badParam (r : Nat) : Verdict := reason .badParam r
/-- NOT_PERMITTED with a REASON. -/
def notPermitted (r : Nat) : Verdict := reason .notPermitted r
/-- DONE with reply words and an effect. -/
def doneWith (ws : List Word) (act : Nat → State → State) : Verdict := { status := .done, words := ws, act := act }
/-- ACCEPTED with reply words and an effect. -/
def acceptWith (ws : List Word) (act : Nat → State → State) : Verdict := { status := .accepted, words := ws, act := act }

/-- How the command unit treats an opcode (Table 5). `rights` is the least that may send it: 1 observer, 2 operator, 3 supervisor; `modes` has bit n for mode n; `why` is the REASON of a rights refusal, `named` what its word names besides. -/
structure OpSpec where
  code    : Nat
  rights  : Nat := 2
  why     : Nat := 0
  named   : Pkt → Nat := fun _ => 0
  modes   : Nat := 0xFFE
  compact : Bool := false
  reads   : Bool := false
  eval    : Pkt → State → Verdict

/-- Words of a packet on the wire. -/
def Pkt.words (p : Pkt) : Nat := 3 + p.ps.length + (if p.tag.isSome then 4 else 0)

/-- Credited or extra packets of a partner in ingress, and their words: those that wait in the parse queue, and those whose replies wait on an SPI port (R259). -/
def State.ingress (s : State) (p : Nat) : Nat × Nat × Nat :=
  let add := fun (a : Nat × Nat × Nat) (extra : Bool) (n : Nat) => (a.1 + (if extra then 0 else 1), a.2.1 + (if extra then 1 else 0), a.2.2 + n)
  s.host.parse.foldl (fun a w => if w.k.partner = p then add a w.extra w.k.words else a)
    ((s.host.spi2.tx ++ s.host.spi3.tx).foldl (fun a o =>
      match o.held with
      | some (extra, n) => if o.partner = p then add a extra n else a
      | none => a) (0, 0, 0))

/-- A reply: formed, counted as the partner's last reply unless BUSY_CREDIT (R265), and sent to the port and source of its packet. -/
def State.answer (k : Pkt) (held : Option (Bool × Nat)) (st : Status) (orig credit jsn : Nat) (ws : List Word) (s : State) : State :=
  let prt := s.part k.partner
  let s := if 4 < k.partner ∨ st = .busyCredit then s
    else s.setPart k.partner { prt with lastReply := some (k.seq, credit) }
  let ws := if st.ok ∨ st = .dup ∨ ws ≠ [] then ws else [0]
  s.sendPacket k.port k.ep k.mac k.partner true held
    (packet true false false k.code k.partner (word k.seq) (if 4 < k.partner then none else prt.outKey)
      (replyWord st credit orig :: word jsn :: ws))
/-- A reply without a journal entry; it carries CREDIT, 0 in BUSY_CREDIT (R265, R283). -/
def State.early (k : Pkt) (st : Status) (ws : List Word) (s : State) : State :=
  let c := if st = .busyCredit ∨ 4 < k.partner then 0 else (s.part k.partner).credMax
  s.answer k none st 0 c 0 ws

/-- The bits of the partner's three error counters (Table 3), saturating. -/
def State.countAuth (p : Nat) (s : State) : State :=
  let prt := s.part p
  s.setPart p { prt with cntAuth := satN 16 (prt.cntAuth + 1) }
/-- Count a BAD_CHECK. -/
def State.countCheck (p : Nat) (s : State) : State :=
  let prt := s.part p
  s.setPart p { prt with cntCheck := satN 16 (prt.cntCheck + 1) }
/-- Count a GAP. -/
def State.countGap (p : Nat) (s : State) : State :=
  let prt := s.part p
  s.setPart p { prt with cntGap := satN 16 (prt.cntGap + 1) }

/-- The partner is bound to the port and source of the packet (step 7). -/
def boundHere (b : Option Binding) (k : Pkt) : Bool :=
  match b with
  | none => false
  | some b => b.port == k.port && (decide (2 ≤ k.port) || b.ep == k.ep)
/-- Authentication (R293): the REASON of BAD_AUTH, if any. The tag covers word 0 through the last parameter word. -/
def authFails (p : Partner) (k : Pkt) : Option Nat :=
  let body := (packet false false false k.code k.partner (word k.seq) none k.ps)
  let w0 := pack [put 47 40 0xD5, put 39 36 1, putB 33 true, put 31 20 k.code, put 19 16 k.partner, put 15 0 k.ps.length]
  match k.tag, p.key with
  | none, _ => if p.authReq then some 0xF10 else none
  | some _, none => some 0xF12
  | some t, some key => if t = tagOf key (w0 :: (body.drop 1).take (1 + k.ps.length)) then none else some 0xF11

/-- The highest SEQ the partner may send (R265): one command until the first reply since ready. -/
def Partner.permitted (p : Partner) : Nat := p.permit.getD (p.lseq + 1)

/-- PING (R296): answered in any case, with the instant of arrival and its parameters. -/
def runPing (k : Pkt) (s : State) : State :=
  if 8 < k.ps.length then s.early k .badFrame [word 0xF22]
  else s.early k .done ([cyc k.arrival, frc k.arrival] ++ k.ps)

/-- PORT of an endpoint's host port in the binding, or 7 (R295). -/
def prevPort (p : Partner) : Nat := match p.bind with | some b => b.port | none => 7
/-- HELLO (R295): binds the partner where the packet came from, stores the nonce, and restarts sending at the oldest unacknowledged record (R315). -/
def runHello (k : Pkt) (s : State) : State :=
  let prt := s.part k.partner
  if k.ps ≠ [] then s.early k .badFrame [word 0xF22]
  else if 2 ≤ k.port ∧ [0, 1, 2, 3, 4].any (fun q => q != k.partner && prevPort (s.part q) == k.port) then
    s.early k .notPermitted [word 0xF03]
  else if k.seq ≤ prt.hnonce then s.early k .stale [word prt.hnonce]
  else
    let prev := prevPort prt
    let drop := fun (q : SpiPort) => { q with tx := q.tx.filter fun o => !(o.partner == k.partner && o.isReply && o.read == 0) }
    let s := if prev = 2 ∧ k.port ≠ 2 then s.setSpi 2 (drop s.host.spi2) else s
    let s := if prev = 3 ∧ k.port ≠ 3 then s.setSpi 3 (drop s.host.spi3) else s
    let out := (s.ingress k.partner).1
    let credit := prt.credMax - out
    let jsn := s.jrn.next
    let s := s.setPart k.partner { prt with hnonce := k.seq, bind := some ⟨k.port, k.ep, k.mac⟩, permit := some (prt.lseq + credit) }
    let s := State.jsnCheck (s.seal { jsn := 0, kind := 1, partner := k.partner, port := k.port, opcode := 2, status := 1, key := word k.seq, tq := 0, params := [], reply := [] })
    let w6 := pack [put 47 46 prt.rights, putB 45 prt.authReq, put 44 41 s.modes.mode, put 40 38 prev]
    let s := s.answer k none .done 0 credit jsn [word prt.lseq, word k.seq, word prt.ev.ackFirst, word prt.ev.nextEsn, w6]
    let prt := s.part k.partner
    (s.setPart k.partner { prt with lastReply := some (prt.lseq, credit) }).resendFrom k.partner prt.ev.ackFirst

/-- A duplicate (R286): the original reply again, or a read-only command executed again; a REG_READ that covers an RC register is not read-only (R288), and another opcode under an old SEQ receives the old reply. -/
def runDup (op : OpSpec) (k : Pkt) (held : Option (Bool × Nat)) (s : State) : State :=
  let prt := s.part k.partner
  match tget none (k.seq % 16384) prt.replays with
  | none => s.early k .stale [word prt.lseq]
  | some r =>
    if r.seq ≠ k.seq then s.early k .stale [word prt.lseq]
    else
      let v := op.eval k s
      let again := r.again && op.reads && r.code == k.code && !v.full
      let words := if again then v.reply else r.words
      let s := if again ∧ v.status.ok then v.act r.jsn s else s
      let prt := s.part k.partner
      let s := s.setPart k.partner { prt with permit := some (prt.lseq + prt.credMax) }
      s.answer k held .dup r.status prt.credMax r.jsn words

/-- Steps 10 to 13 of R284: opcode, rights, mode, own checks, and the journal's room (R328). -/
def judge (op : Option OpSpec) (k : Pkt) (s : State) : Verdict :=
  match op with
  | none => refuse .badOpcode [0]
  | some op =>
    if (s.part k.partner).rights < op.rights then notPermitted (op.why + op.named k)
    else if !op.modes.testBit s.modes.mode then
      refuse .stateRefused [pack [put 47 44 s.modes.mode, put 43 32 op.modes]]
    else
      let v := op.eval k s
      if v.status.ok ∧ 245760 < s.jrn.live + entriesFor ((v.stored.getD k.ps).length + v.words.length) + v.promise then
        { refuse .noCapacity [word 0xF30] with act := fun _ s => (s.putJrn { s.jrn with fault := setBit s.jrn.fault 0 }) }
      else v

/-- The group that a new command seals (R329): whole, or COMPACT with the words R321 keeps. -/
def newGroup (op : Option OpSpec) (k : Pkt) (v : Verdict) : Group :=
  let compact := (match op with | some op => op.compact | none => false) && !v.full
  let params := match compact, v.stored with
    | true, some ps => ps | true, none => [] | false, some ps => ps | false, none => k.ps
  { jsn := 0, kind := if compact then 1 else 0, partner := k.partner, port := k.port, opcode := k.code, status := v.status.code, key := word k.seq, tq := 0, params := params, reply := if compact then [] else v.reply, slot := v.slot, pins := (if v.status.ok then v.pins else []) ++ (if decide (v.reply.length > 2) && v.status.ok then [.long] else []) }

/-- The replay record of a new command (R329), sealed under a JSN. -/
def newReplay (op : Option OpSpec) (k : Pkt) (v : Verdict) (jsn : Nat) : Replay :=
  ⟨k.seq, jsn, k.code, v.status.code, v.reply, (match op with | some op => op.reads | none => false) && !v.full && v.status.ok⟩

/-- What comes before a new command's effect (R285, R329): its SEQ is consumed, its group sealed, the replay record kept in place of the one 16,384 commands before, whose long reply is no longer pinned. -/
def State.consume (op : Option OpSpec) (k : Pkt) (v : Verdict) (s : State) : State :=
  let jsn := s.jrn.next
  let prt := s.part k.partner
  let s := (s.setPart k.partner { prt with lseq := k.seq }).seal (newGroup op k v)
  let slot := k.seq % 16384
  let s := match tget none slot (s.part k.partner).replays with
    | some r => s.putJrn (s.jrn.unpin .long r.jsn)
    | none => s
  let prt := s.part k.partner
  s.setPart k.partner { prt with replays := tput none slot (some (newReplay op k v jsn)) prt.replays }

/-- A packet as its reply is addressed: on the port where its partner is bound by now (R283). -/
def Pkt.toBound (b : Option Binding) (k : Pkt) : Pkt :=
  match b with
  | some x => { k with port := x.port, ep := x.ep, mac := x.mac }
  | none => k
/-- What comes after it: the reply, and with it the credit granted anew (R265), and JSN_LOW where the JSN has come so far (R320). -/
def State.replyNew (k : Pkt) (held : Option (Bool × Nat)) (v : Verdict) (jsn : Nat) (s : State) : State :=
  let prt := s.part k.partner
  let s := s.setPart k.partner { prt with permit := some (prt.lseq + prt.credMax) }
  (s.answer (k.toBound prt.bind) held v.status 0 (s.part k.partner).credMax jsn v.reply).jsnCheck

/-- A new command (steps 10-13, R26, R27, R285): consumed; then answered and handed off where it is ACCEPTED, otherwise handed off and answered. -/
def runNew (op : Option OpSpec) (k : Pkt) (held : Option (Bool × Nat)) (s : State) : State :=
  let v := judge op k s
  let c := s.consume op k v
  if v.status = .accepted then v.act s.jrn.next (c.replyNew k held v s.jrn.next)
  else (v.act s.jrn.next c).replyNew k held v s.jrn.next

/-- The room that a packet's reply takes in ingress until it has left: on an SPI port (R259). -/
def Pkt.held (k : Pkt) (old : Bool) : Option (Bool × Nat) := if k.port < 2 then none else some (old, k.words)
/-- Entry slots of the landing buffer in use (R259). -/
def Journal.slots (j : Journal) : Nat := j.landing.foldl (fun n g => n + g.entries) 0
/-- Entries that a packet's group takes where the parse stage takes it now: none for one that is answered without a group. -/
def State.entriesOf (op : Option OpSpec) (k : Pkt) (s : State) : Nat :=
  if (s.part k.partner).lseq + 1 = k.seq ∧ s.jrn.working ∧ s.jrn.next < 0xFFFFFFFFFFFF then (newGroup op k (judge op k s)).entries else 0
/-- The landing buffer has slots for a packet's group beside the one that it keeps for each other packet in the parse queue (R259). -/
def State.hasSlots (op : Option OpSpec) (k : Pkt) (others : Nat) (s : State) : Bool :=
  let n := s.entriesOf op k
  n == 0 || decide (s.jrn.slots + n + others ≤ 2048)
/-- A binding ends on the port of a GOODBYE, once its reply has left (R297): on an Ethernet port at once. -/
def State.unbind (p port : Nat) (s : State) : State :=
  if (s.part p).bind.any fun b => b.port == port then s.setPart p { s.part p with bind := none } else s
/-- Step 9 of R284 on, where the parse stage takes a packet; `old` is what ingress took it for. -/
def runParse (op : Option OpSpec) (k : Pkt) (old : Bool) (s : State) : State :=
  let prt := s.part k.partner
  if prt.lseq + 1 < k.seq then (s.countGap k.partner).early k .gap [word prt.lseq]
  else if k.seq ≤ prt.lseq then
    if k.seq + 16383 < prt.lseq then s.early k .stale [word prt.lseq]
    else runDup (op.getD { code := k.code, eval := fun _ _ => refuse .badOpcode [0] }) k (k.held old) s
  else if !s.jrn.working then s.early k .fault [word 0x001]
  else if 0xFFFFFFFFFFFF ≤ s.jrn.next then s.early k .fault [word 0x002]
  else
    let s := runNew op k (k.held old) s
    if k.code = 3 ∧ k.port < 2 ∧ (tget none (k.seq % 16384) (s.part k.partner).replays).any (fun r => r.status == 1) then s.unbind k.partner k.port else s
/-- NOT_READY with REMAIN_MS (R290). -/
def State.notReady (ms : Nat) (k : Pkt) (s : State) : State := s.early k .notReady [pack [put 47 32 ms]]
/-- Acceptance has stopped: what waits in the parse queue is answered NOT_READY (R326). -/
def State.turnAway (s : State) : State :=
  s.host.parse.foldl (fun (s : State) w => s.notReady 0xFFFF w.k) (s.putHost { s.host with parse := [] })

/-- UNBOUND (step 7), counted on an Ethernet port (R364). -/
def State.unbound (k : Pkt) (s : State) : State :=
  let s := if k.port < 2 then
      let e := s.eth k.port
      s.setEth k.port { e with cntUnbound := satN 24 (e.cntUnbound + 1) }
    else s
  s.early k .notPermitted [word 0xF02]
/-- The checks of R284 from step 2 on, for a packet whose layout and CRC hold. A packet behind another of its partner, or without slots in the landing buffer, waits in the parse queue (R259, R267). `op` is the opcode's row of Table 5, none for an opcode that is not there. -/
def runPacket (op : Option OpSpec) (k : Pkt) (s : State) : State :=
  if !s.portUp k.port then s
  else if 4 < k.partner then s.early k .badFrame [word 0xF24]
  else if 2048 < k.ps.length then s.early k .badFrame [word 0xF25]
  else if k.seq = 0 ∧ k.code ≠ 1 ∧ k.code ≠ 2 then s.early k .badFrame [word 0xF26]
  else if !s.pwr.ready then
    let ms := if s.pwr.phase = .bringup ∨ s.pwr.phase = .running then (Config.remainMs s.fresh).toNat else 0xFFFF
    State.notReady ms k (s.putFresh (s.fresh + 1))
  else
    let prt := s.part k.partner
    if prt.rights = 0 then s.early k .notPermitted [word 0xF01]
    else match authFails prt k with
    | some r => (s.countAuth k.partner).early k .badAuth [word r]
    | none =>
      if k.code = 1 then runPing k s
      else if k.code = 2 then runHello k s
      else if !boundHere prt.bind k then
        s.unbound k
      else
        let s := s.setPart k.partner { prt with bind := some ⟨k.port, k.ep, k.mac⟩ }
        let used := s.ingress k.partner
        let room := decide (used.2.2 + k.words ≤ 131072)
        let isOld := decide (k.seq ≤ prt.lseq)
        let fits := room && (if isOld then decide (used.2.1 < 16) else decide (k.seq ≤ prt.permitted))
        let behind := s.host.parse.any fun w => w.k.partner == k.partner
        if !fits then
          let s := s.setPart k.partner { s.part k.partner with busy := satN 48 (prt.busy + 1) }
          let last := prt.lastReply.getD (0, 0)
          s.early k .busyCredit [word last.1, word last.2]
        else if behind || !s.hasSlots op k s.host.parse.length then s.putHost { s.host with parse := s.host.parse ++ [⟨k, isOld⟩] }
        else runParse op k isOld s

/-- The packet that a table row stands for. -/
def pktOf (code : Nat) (env : Env) (ps : List Word) (s : State) : Pkt :=
  { port := env.port, ep := if env.port < 2 then env.ep else .spi, mac := env.mac, partner := env.partner, seq := env.seq.toNat, code := code, ps := ps, tag := env.tag, arrival := s.tb.q0 }
/-- A partner command: the lapse, then the packet through the command unit. -/
def runOp (op : OpSpec) (t : Lapse) (env : Env) (ps : List Word) (s : State) : Host.Outcome State Fault Refusal :=
  let s := s.elapse t
  .next (runPacket (some op) (pktOf op.code env ps s) s)
/-- Parameter word 0 with field [hi:lo] fixed, for the rows that name one operation of an opcode. -/
def fixField (hi lo v : Nat) (ps : List Word) : List Word :=
  match ps with
  | [] => []
  | w :: ws => word (w.toNat - fld w hi lo * 2 ^ lo + put hi lo v) :: ws

/-- PING (0x001). -/
def opPing : OpSpec := { code := 0x001, rights := 1, eval := fun _ _ => { status := .done } }
/-- HELLO (0x002). -/
def opHello : OpSpec := { code := 0x002, rights := 1, eval := fun _ _ => { status := .done } }
/-- GOODBYE (0x003): the binding ends once its reply has left (R297). -/
def opGoodbye : OpSpec :=
  { code := 0x003, rights := 1, compact := true, eval := fun k _ => if k.ps ≠ [] then badParam 0 else { status := .done } }
/-- EVENT_ACK (0x0E2, R316). -/
def opEventAck : OpSpec :=
  { code := 0x0E2, rights := 1
    eval := fun k s =>
      let ev := (s.part k.partner).ev
      let a := (arg k.ps 0).toNat
      if k.ps.length ≠ 1 then badParam 0
      else if ev.nextEsn ≤ a then badParam 0
      else
        let s' := s.ackEsn k.partner a
        let ev' := (s'.part k.partner).ev
        doneWith [word ev'.ackFirst, word ev'.nextEsn] fun _ s => s.ackEsn k.partner a }
/-- EVENT_RESYNC (0x0E3, R317). -/
def opEventResync : OpSpec :=
  { code := 0x0E3, rights := 1
    eval := fun k s =>
      let ev := (s.part k.partner).ev
      let f := (arg k.ps 0).toNat
      if k.ps.length ≠ 1 then badParam 0
      else if ev.nextEsn < f then badParam 0
      else if f < ev.ackFirst then notPermitted 1
      else
        let s' := s.ackEsn k.partner (f - 1)
        let ev' := (s'.part k.partner).ev
        doneWith [word ev'.ackFirst, word ev'.nextEsn] fun _ s => (s.ackEsn k.partner (f - 1)).resendFrom k.partner f }

/-- PING. -/
def execPing (t : Lapse) (env : Env) (ps : List Word) (s : State) : Host.Outcome State Fault Refusal := runOp opPing t env ps s
/-- HELLO. -/
def execHello (t : Lapse) (env : Env) (ps : List Word) (s : State) : Host.Outcome State Fault Refusal := runOp opHello t env ps s
/-- GOODBYE. -/
def execGoodbye (t : Lapse) (env : Env) (ps : List Word) (s : State) : Host.Outcome State Fault Refusal := runOp opGoodbye t env ps s
/-- EVENT_ACK. -/
def execEventAck (t : Lapse) (env : Env) (ps : List Word) (s : State) : Host.Outcome State Fault Refusal := runOp opEventAck t env ps s
/-- EVENT_RESYNC. -/
def execEventResync (t : Lapse) (env : Env) (ps : List Word) (s : State) : Host.Outcome State Fault Refusal := runOp opEventResync t env ps s

end Sys2Proof.Machine
end

