-- ==== Sys2Proof/Machine/Edges.lean ====
section
/-! DEFINITION. Where the edges of an output fall (R192-R194). Instants are integers in units of 2^-48 s from the Tether epoch. -/
namespace Sys2Proof.Machine
open Sys2Proof

/-- WIDTH in units of 2^-48 s, to the nearest. -/
def OutCfg.width (c : OutCfg) : Int := unitsOfPs (fld c.cfg 31 0 * 1000)
/-- An enabled periodic TPG output. -/
def OutCfg.periodic (c : OutCfg) : Bool := c.src == 0 && c.en && c.divn != 0
/-- A scheduled-only output (R196). -/
def OutCfg.scheduled (c : OutCfg) : Bool := c.src == 0 && c.en && c.divn == 0
/-- OUT_DLY to the nearest 8 ps, in units of 2^-48 s (R192). -/
def OutCfg.delay (c : OutCfg) : Int := unitsOfPs ((fld c.dly 39 0 + 4) / 8 * 8)
/-- The source's frequency, 2^-16 Hz (R194). -/
def State.srcFreq (s : State) (src : Nat) : Nat :=
  match src with
  | 1 => s.clk.pllT.freq.toNat % 2 ^ 46
  | 2 => 654720000 * 2 ^ 16
  | _ => 10000000 * 2 ^ 16
/-- The leading edge of pulse k of a TPG output: t_k to the nearest unit, plus the delay. -/
def OutCfg.lead (c : OutCfg) (k : Int) : Int := (2 * k * c.divn * 2 ^ 48 + 10 ^ 9) / (2 * 10 ^ 9) + c.delay
/-- The first k of a list whose instant is at or after q. -/
def firstOf (f : Int → Int) (q : Int) : List Int → Int
  | [] => 0
  | k :: ks => if q ≤ f k then k else firstOf f q ks
/-- The number of the first leading edge at or after q of a periodic TPG output. -/
def OutCfg.firstK (c : OutCfg) (q : Int) : Int :=
  let k := (q - c.delay) * 10 ^ 9 / (max 1 c.divn * 2 ^ 48)
  firstOf c.lead q [k - 1, k, k + 1, k + 2]
/-- The first leading edge at or after q of a periodic TPG output. -/
def OutCfg.firstLead (c : OutCfg) (q : Int) : Int := c.lead (c.firstK q)
/-- Half the period in units, rounded up. -/
def OutCfg.half (c : OutCfg) : Int := (c.divn * 2 ^ 48 + 2 * 10 ^ 9 - 1) / (2 * 10 ^ 9)
/-- Aligned leading edge k of a clock output of h whole hertz: they fall on every whole second plus the delay (R194). -/
def alignedNth (c : OutCfg) (h : Nat) (k : Int) : Int := (2 * k * 2 ^ 48 + h) / (2 * max 1 h) + c.delay
/-- The number of the first aligned leading edge at or after q. -/
def alignedK (c : OutCfg) (h : Nat) (q : Int) : Int :=
  let k := (q - c.delay) * h / 2 ^ 48
  firstOf (alignedNth c h) q [k - 1, k, k + 1, k + 2]
/-- The first aligned leading edge at or after q. -/
def alignedLead (c : OutCfg) (h : Nat) (q : Int) : Int := alignedNth c h (alignedK c h q)

end Sys2Proof.Machine
end

