-- ==== Sys2Proof/Machine/Time.lean ====
section
/-! DEFINITION. Tether time: the calendar view (R37), leap seconds (R34-R38), time quality (R57), aiding with time (R306), and the removal of an offset by slew or step (R200-R203). -/
namespace Sys2Proof.Machine
open Sys2Proof

/-- CAL0 at a value of Q0 (R37). -/
def TimeBase.cal0 (tb : TimeBase) (q : Qval) : Word :=
  let sec := (cyc q).toNat
  calWord sec tb.leapNow (insertedSecond sec tb.leapNow tb.leapNext tb.leapAt (tb.leapPend && tb.tsrc != 0))
/-- CAL1 at a value of Q0 (Table 4). -/
def cal1 (q : Qval) : Word :=
  let sec := (cyc q).toNat
  pack [put 47 24 (sec / 604800), put 23 4 (sec % 604800)]
/-- The integer square root, rounded in the one way that the module has (not stated, log 11): in each of them a greater operand has no smaller root. -/
def sqrtOpen (x : Nat) : Nat :=
  let r := Nat.sqrt x
  match Config.sqrtRounding with
  | 0 => r
  | 1 => if r * r = x then r else r + 1
  | _ => if x ≤ r * r + r then r else r + 1
/-- What a running slew has left of its offset, ps (R200). -/
def TimeBase.slewLeft (tb : TimeBase) : Int :=
  match tb.slew with
  | none => tb.resid
  | some (e, c, ppb) =>
    let gone : Int := ppb * (tb.clk - c) * 1000 / 654720000
    if 0 < e then max 0 (e - gone) else min 0 (e + gone)
/-- RESID (Table 8): the remaining offset, ps, saturating. -/
def TimeBase.residNow (tb : TimeBase) : Int :=
  sat 48 (match tb.step, tb.plan with
    | some a, _ => a.plan.e
    | none, some p => p.e
    | none, none => tb.slewLeft)
/-- TQE now (R57): in HOLDOVER from e0, f0 and a, and never below what it had reached when a was last replaced; in RECOVERY from the offset that remains and σ, which `tqe` then holds (R183); otherwise as last set. -/
def TimeBase.tqeNow (tb : TimeBase) : Nat :=
  if tb.tqe = 0xFFFFFFFF then 0xFFFFFFFF
  else if tb.tsrc = 4 then
    let r := tb.residNow.natAbs
    satN 32 (sqrtOpen (r * r + tb.tqe * tb.tqe))
  else
    match tb.tsrc, tb.hoStart with
    | 2, some h =>
      let u := (qdist tb.q0 h).toNat
      let x := (tb.e0 * tb.e0) + (tb.f0 * u) * (tb.f0 * u) / (1000 * 2 ^ 48) ^ 2 + (tb.drift * u * u) * (tb.drift * u * u) / (2 * 10 ^ 6 * 2 ^ 96) ^ 2
      max tb.tqeFloor (satN 32 (sqrtOpen x))
    | _, _ => satN 32 tb.tqe
/-- TB_TQF (Table 11). -/
def TimeBase.tqfWord (tb : TimeBase) : Word := pack [put 47 44 tb.tsrc, put 31 0 (satN 32 tb.tqf)]
/-- TB_LEAP (Table 2). -/
def TimeBase.leapWord (tb : TimeBase) : Word :=
  pack [putS 47 40 tb.leapNow, putS 39 32 tb.leapNext, put 31 30 tb.leapSrc, putB 29 tb.leapLock, putB 28 tb.leapPend]

/-- The TRIM_DONE record of a partner's measurement that ends (R466): SRC, ε, the new TRIM, APPLIED. -/
def State.trimDone (r : TrimRun) (s : State) : State :=
  match r.owner with
  | some p => s.raise p false 0xE03 [word r.kind, sword s.rtc.eps, sword (s.rtc.trimNext.getD s.rtc.trim), word s.rtc.applied.toNat]
  | none => s
/-- Ndovos's own measurement: TETHER over 1 h with AUTO, waiting until TSRC allows it (R466). -/
def ownTrim : TrimRun := { kind := 2, owner := none, hours := 1, auto := true, waiting := true, rtc0 := 0, true0 := 0 }
/-- The running measurement ends ABORTED (R464, R465); Ndovos's own waits again. -/
def State.trimAbort (s : State) : State :=
  match s.rtc.run with
  | none => s
  | some r =>
    if r.waiting then s
    else
      let s := s.putRtc { s.rtc with run := if r.owner.isNone then some ownTrim else none, trimState := 3, applied := false }
      s.trimDone r
/-- A measurement starts now (R465): `start` is Tether time, the given time, or 0 cycles. -/
def State.trimStart (r : TrimRun) (start : Nat) (s : State) : State :=
  (s.putRtc { s.rtc with run := some { r with waiting := false, rtc0 := s.rtc.counted, true0 := start }, trimSrc := r.kind, trimState := 1, applied := false })
/-- What a change of TSRC does to a TETHER measurement (R465, R466). -/
def State.trimWatch (s : State) : State :=
  let good : Bool := s.tb.tsrc == 1 || s.tb.tsrc == 3
  match s.rtc.run with
  | some r =>
    if r.kind = 2 ∧ r.waiting ∧ good then s.trimStart r s.tb.q0.toNat
    else if r.kind = 2 ∧ !r.waiting ∧ !good then s.trimAbort
    else s
  | none => s
/-- TSRC changes; becoming HOLDOVER begins a holdover with the present TQE and TQF and the drift uncertainty as it stands (R180, R182). -/
def State.setTsrc (v : Nat) (s : State) : State :=
  let s := if v = s.tb.tsrc then s else s.putTb { s.tb with tsrcAt := some s.tb.q0 }
  State.trimWatch (
    if v = 2 ∧ s.tb.tsrc ≠ 2 then
      (s.putTb { s.tb with tsrc := 2, hoStart := some s.tb.q0, tqe := s.tb.tqeNow, tqeFloor := 0, e0 := s.tb.tqeNow, f0 := s.tb.tqf })
    else if v ≠ 2 ∧ s.tb.tsrc = 2 then
      (s.putTb { s.tb with tsrc := v, tqe := s.tb.tqeNow, hoStart := none })
    else (s.putTb { s.tb with tsrc := v }))
/-- Steering ends: a TSRC of GNSS, REFERENCE or RECOVERY becomes HOLDOVER, and a step not yet announced is dropped (R161, R180, R200). -/
def State.endSteering (s : State) : State :=
  if s.tb.tsrc = 1 ∨ s.tb.tsrc = 3 ∨ s.tb.tsrc = 4 then State.setTsrc 2 (s.putTb { s.tb with plan := none }) else s
/-- A mode that steers Tether time (Table 1); SNAPSHOT does so during a fix alone (R184). -/
def steersTime (mode : Nat) : Bool := [4, 5, 6, 7, 9].contains mode
/-- The mode in force steers Tether time now: a mode of Table 1, or SNAPSHOT out of SLEEP (R184). -/
def State.steering (s : State) : Bool := steersTime s.modes.mode || (s.modes.mode == 10 && s.modes.phase != 0)

/-- Sections of the backup store are written (R475): each goes into the older of its two copies, with a new generation. -/
def Rtc.write (secs : List Nat) (f : Backup → Backup) (r : Rtc) : Rtc :=
  { r with keep := f r.keep, keepOld := secs.foldl (fun o i => Backup.copy i r.keep o) r.keepOld
           gens := secs.foldl (fun (g : Tab Nat) i => tput 0 i (tget 0 i g + 1) g) r.gens }
/-- The leap words go to the TIME section of the backup store and to D0's copies (R35, R460). -/
def State.keepLeap (s : State) : State :=
  s.putRtc (Rtc.write [5] (fun k => { k with time := some ⟨s.tb.leapNow, s.tb.leapNext, s.tb.leapSrc, s.tb.leapLock, s.tb.leapPend, s.tb.leapAt⟩ })
    { s.rtc with leapNow := s.tb.leapNow, leapNext := s.tb.leapNext, leapAt := s.tb.leapAt })
/-- Q0 CYC is at or beyond a second by the comparison of R29: the second is not ahead of it. -/
def reached (q0 : Qval) (sec : Nat) : Bool := !ahead (mkQ (word sec) 0) (mkQ (cyc q0) 0)
/-- A commit of leap words that R36 refuses. -/
def leapBad (tb : TimeBase) (now next : Int) (at_ : Nat) : Bool :=
  decide (1 < (next - now).natAbs) ||
  (decide (next ≠ now) && (decide (((at_ : Int) - next) % 86400 ≠ 0) || reached tb.q0 at_))
/-- The leap fields of a TB_LEAP word. -/
def leapNowOf (w : Word) : Int := sfld w 47 40
/-- LEAP_NEXT of a TB_LEAP word. -/
def leapNextOf (w : Word) : Int := sfld w 39 32
/-- Commit leap words: SRC becomes PARTNER (R38). -/
def State.commitLeap (w : Word) (at_ : Nat) (s : State) : State :=
  let now := leapNowOf w
  let next := leapNextOf w
  State.keepLeap (s.putTb { s.tb with
    leapNow := now, leapNext := next, leapLock := bit w 29, leapAt := at_, leapSrc := 1, leapPend := decide (next ≠ now) })
/-- A leap change is due: Q0 CYC at or beyond LEAP_AT while TSRC does not read NONE (R36). -/
def State.leapDue (s : State) : Bool := s.tb.leapPend && s.tb.tsrc != 0 && reached s.tb.q0 s.tb.leapAt
/-- LEAP_NOW takes the value of LEAP_NEXT and PENDING clears (R36). -/
def State.takeLeap (s : State) : State := State.keepLeap (s.putTb { s.tb with leapNow := s.tb.leapNext, leapPend := false })
/-- UTC parameters decoded from navigation data (R34): they replace DEFAULT and PARTNER values unless LOCK is set, and then raise LEAP_CONFLICT where they disagree. A change whose LEAP_AT Q0 has reached takes effect at once, or waits for the step that ends NONE (R36). -/
def State.navLeap (now next : Int) (at_ : Nat) (s : State) : State :=
  if s.tb.leapLock then
    if now ≠ s.tb.leapNow ∨ next ≠ s.tb.leapNext ∨ (next ≠ now ∧ at_ ≠ s.tb.leapAt) then
      s.raiseAll false 0x101 [s.tb.leapWord, pack [putS 47 40 now, putS 39 32 next, put 31 30 2, putB 28 (decide (next ≠ now))]]
    else s
  else
    let s := State.keepLeap (s.putTb { s.tb with
      leapNow := now, leapNext := next, leapAt := at_, leapSrc := 2, leapPend := decide (next ≠ now) })
    if s.leapDue then s.takeLeap else s
/-- LEAP_CHANGE (R36): Q0 CYC at or beyond LEAP_AT while TSRC does not read NONE. -/
def execLeapChange (t : Lapse) (s : State) : Host.Outcome State Fault Refusal :=
  let s := s.elapse t
  .next (if s.leapDue then s.takeLeap else s)

/-- The permit, threshold and slew rate in force (R201): a new TIME_STEP_PERMIT governs from the next whole second. -/
def TimeBase.takePermit (tb : TimeBase) : TimeBase :=
  match tb.permitNext with
  | some (p, thr, ppb, jsn, sec) =>
    if sec ≤ (cyc tb.q0).toNat then
      { tb with permit := p, stepThr := thr, slewPpb := ppb, permitJsn := jsn, permitNext := none }
    else tb
  | none => tb
/-- An offset found is removed (R200): a slew within STEP_THR or without a permit, otherwise a step to be announced. While a step is announced no slew runs. -/
def State.removeOffset (e : Int) (cause after : Nat) (tqe : Option Nat) (s : State) : State :=
  let tb := s.tb.takePermit
  if tb.step.isSome then s.putTb tb
  else if (tb.stepThr : Int) * 1000 < e.natAbs ∧ tb.permit ≠ 0 then
    (s.putTb { tb with plan := some ⟨cause, e, after, tqe⟩, slew := none, resid := e })
  else
    (s.putTb { tb with plan := none, slew := if e.natAbs < 1000 then none else some (e, tb.clk, tb.slewPpb), resid := e, after := after, tqe := tqe.getD tb.tqe })
/-- The present counter clock is the first of a Tether second. -/
def atSecond (tb : TimeBase) : Bool := decide (tb.q0.toNat % 2 ^ 48 < 429960)
/-- The cause of the step that a decision in RECOVERY may choose: that of the plan it replaces. -/
def TimeBase.planCause (tb : TimeBase) : Nat := match tb.plan with | some p => p.cause | none => 1
/-- SLEW_DECISION: in RECOVERY, at a whole second, Ndovos decides again from the remaining offset (R200). -/
def execSlewDecision (t : Lapse) (s : State) : Host.Outcome State Fault Refusal :=
  let s := s.elapse t
  if s.tb.tsrc = 4 ∧ atSecond s.tb ∧ s.tb.step.isNone then
    .next (s.removeOffset s.tb.residNow s.tb.planCause s.tb.after none)
  else .next s
/-- The slew is over with an offset that remains; TSRC leaves RECOVERY (R183). -/
def State.slewDone (remaining : Int) (s : State) : State :=
  let s := s.putTb { s.tb with slew := none, resid := remaining }
  if s.tb.tsrc = 4 then s.setTsrc s.tb.after else s
/-- SLEW_END: a slew ends when less than 1 ns remains; TSRC leaves RECOVERY (R183, R200). -/
def execSlewEnd (t : Lapse) (s : State) : Host.Outcome State Fault Refusal :=
  let s := s.elapse t
  if s.tb.slew.isSome ∧ s.tb.residNow.natAbs < 1000 then
    .next (State.slewDone s.tb.residNow s)
  else .next s
/-- TIME_STEP_PERMIT (0x071, R201). -/
def opTimeStepPermit : OpSpec :=
  { code := 0x071, rights := 3
    eval := fun k _ =>
      let w := arg k.ps 0
      if k.ps.length ≠ 1 ∨ fld w 47 46 = 3 ∨ fld w 45 24 = 0 ∨ fld w 23 16 < 1 ∨ 100 < fld w 23 16 then badParam 0
      else
        { status := .done, pins := [.config 0x071 0]
          act := fun jsn s =>
            let tb := s.tb.takePermit
            (s.putTb { tb with permitNext := some (fld w 47 46, fld w 45 24, fld w 23 16, jsn, (cyc s.tb.q0).toNat + 1) }) } }
/-- TIME_STEP_PERMIT. -/
def execTimeStepPermit (t : Lapse) (env : Env) (ps : List Word) (s : State) : Host.Outcome State Fault Refusal :=
  runOp opTimeStepPermit t env ps s

/-- AID_TIME (0x030, R306). -/
def opAidTime : OpSpec :=
  { code := 0x030, modes := 0x7FE
    eval := fun k s =>
      let w := arg k.ps 0
      let form := fld w 47 46
      let sigma := fld w 45 14
      let given := mkQ (arg k.ps 1) (arg k.ps 2)
      let ref := mkQ (arg k.ps 3) (arg k.ps 4)
      if k.ps.length ≠ 5 ∨ 2 ≤ form ∨ sigma = 0 ∨ (form = 1 ∧ ahead ref s.tb.q0) then badParam 0
      else if form = 1 ∧ 2 * 2 ^ 48 < qdist s.tb.q0 ref then reason .tooLate 0
      else
        let here := if form = 1 then ref else k.arrival
        let e := psOfUnits (qdist here given)
        let tqe := satN 32 (sigma * 1000)
        let how := if s.tb.tsrc = 0 then 0 else if s.tb.tsrc = 5 ∧ sigma * 1000 < s.tb.tqeNow then 1 else 2
        doneWith [pack [put 47 46 how]] fun _ s =>
          let s := s.putModes { s.modes with aidSigma := some sigma }
          if how = 0 then
            if s.tb.step.isSome then s else s.putTb { s.tb with plan := some ⟨0, e, 5, some tqe⟩ }
          else if how = 1 then
            let s := s.removeOffset e 5 5 (some tqe)
            (s.putTb { s.tb with tqe := tqe })
          else s }
/-- AID_TIME. -/
def execAidTime (t : Lapse) (env : Env) (ps : List Word) (s : State) : Host.Outcome State Fault Refusal :=
  runOp opAidTime t env ps s

end Sys2Proof.Machine
end

