-- ==== Sys2Proof/Machine/Crossing.lean ====
section
/-! DEFINITION. Where a quantity crosses an event's target: targets (R230), predicted crossings (R50, R233), what an update shows of the occurrence being sought (R233, R235) and of the frames in flight (R238). -/
namespace Sys2Proof.Machine
open Sys2Proof

/-- The target of occurrence k (R230). -/
def Event.tk (e : Event) (k : Nat) : Qval :=
  if e.xdir = 1 then e.target - e.step * BitVec.ofNat 96 (k - 1) else e.target + e.step * BitVec.ofNat 96 (k - 1)
/-- The target being sought. -/
def Event.goal (e : Event) : Qval := e.tk e.occ
/-- A target is ahead of a value in the sense of XDIR (R253): EITHER by the side recorded at acceptance. -/
def Event.still (e : Event) (tgt v : Qval) : Bool :=
  match e.xdir with
  | 0 => ahead tgt v
  | 1 => behind tgt v
  | _ => if e.side then ahead tgt v else behind tgt v
/-- The sense in which the value has to move: +1 up, −1 down. -/
def Event.sense (e : Event) : Int :=
  match e.xdir with | 0 => 1 | 1 => -1 | _ => if e.side then 1 else -1
/-- The kind at the root of a source chain (R233); source numbers fall, so 16 links suffice. -/
def State.root (s : State) : Nat → Nat → Nat
  | 0, n => n
  | fuel + 1, n => if s.kind n = 6 then s.root fuel (srcOf (s.qty n)) else n
/-- The quantity at the root of Qn's chain. -/
def State.rootOf (s : State) (n : Nat) : Nat := s.root 16 n
/-- Qn reads VALID. -/
def State.isValid (s : State) (n : Nat) : Bool := n == 0 || (s.qty n).valid

/-! Crossings: the displacement r·τ + a·τ²/2 of R50, without the clamp of R51. -/

/-- The displacement after dt, in units, for a rate (2^-24 cycle per 2^-48 s unit) and an acceleration in the formats of R16 and R31. -/
def moved (r a dt : Int) : Int := (r * dt * 2 ^ 57 + a * dt * dt) / 2 ^ 81
/-- The least instant in (lo, hi] at which a monotone test holds, given that it holds at hi. -/
def bisect (fuel : Nat) (f : Int → Bool) (lo hi : Int) : Int :=
  match fuel with
  | 0 => hi
  | fuel + 1 =>
    if hi ≤ lo + 1 then hi
    else if f ((lo + hi) / 2) then bisect fuel f lo ((lo + hi) / 2) else bisect fuel f ((lo + hi) / 2) hi
/-- The least dt ≥ dt0 at which the displacement reaches d, moving upward; none when it never does. -/
def crossDt (r a d dt0 : Int) : Option Int :=
  let f := fun dt => decide (d ≤ moved r a dt)
  if f dt0 then some dt0
  else if a < 0 then
    let top := max dt0 (r * 2 ^ 57 / (-2 * a))
    if f top then some (bisect 100 f dt0 top)
    else if f (top + 1) then some (top + 1) else none
  else if f (2 ^ 95) then some (bisect 100 f (max dt0 (if a = 0 then dt0 else -r * 2 ^ 57 / (2 * a))) (2 ^ 95))
  else none
/-- The instant at which v(t) is predicted to reach an event's target, t_p or t_x (R233, R236): on Q0 the target itself; none while the quantity stands or never reaches it. -/
def State.predict (s : State) (e : Event) (tgt : Qval) : Option Qval :=
  if e.qty = 0 then some tgt
  else
    let q := s.qty e.qty
    if q.stopped ∨ !q.fed then none
    else
      let g := e.sense
      (crossDt (g * s.rateNow e.qty) (g * q.acc) (g * qdist tgt q.vu) (qdist s.tb.q0 q.tu)).map fun dt => qadd q.tu dt
/-- The quantity moves toward a target now. -/
def State.approaches (s : State) (e : Event) : Bool :=
  let q := s.qty e.qty
  decide (0 < e.sense * (s.rateNow e.qty * 2 ^ 57 + 2 * q.acc * qdist s.tb.q0 q.tu))

/-! What an update shows. -/

/-- The crossing instant of a target that the latest update shows reached, and whether the release is LATE (Table 5): the stamp for a counting source, the re-estimate t_u − (v_u − T) / r_u for a smooth one, and for one rooted at Q0 the instant itself. -/
def State.updateCrossing (s : State) (e : Event) (tgt : Qval) : Qval × Bool :=
  let q := s.qty e.qty
  let r := s.rateNow e.qty
  let back := qadd q.tu (-(if r = 0 then Config.freeInt s.fresh else qdist q.vu tgt * 2 ^ 24 / r))
  match s.kind (s.rootOf e.qty) with
  | 1 | 2 | 3 => (q.tu, false)
  | 0 => (back, false)
  | _ => (back, true)
/-- How the target being sought has been reached (R233): by a recorded crossing, at the latest update, or at a prediction since. -/
def State.crossing (s : State) (e : Event) : Hit :=
  match e.hit with
  | some h => h
  | none =>
    let q := s.qty e.qty
    if e.qty = 0 then { tx := e.goal }
    else if !e.still e.goal q.vu then
      let c := s.updateCrossing e e.goal
      { tx := c.1, byUpdate := decide (s.kind (s.rootOf e.qty) ≠ 0), late := c.2, invalid := q.backAt == some q.tu && decide (s.kind (s.rootOf e.qty) ≠ 0) }
    else
      let g := e.sense
      { tx := qadd q.tu ((crossDt (g * s.rateNow e.qty) (g * q.acc) (g * qdist e.goal q.vu) 0).getD 0) }
/-- The target being sought has been reached in the sense of XDIR, while the quantity reads VALID (R233, R235). -/
def State.reaches (s : State) (e : Event) : Bool :=
  e.sought && e.st == .pending && s.isValid e.qty && (e.hit.isSome || !e.still e.goal (s.value e.qty))
/-- Qm follows updates of Qn: it is Qn, or DERIVED from it. -/
def State.follows (s : State) (n : Nat) : Nat → Nat → Bool
  | 0, m => m == n
  | fuel + 1, m => m == n || (s.kind m == 6 && s.follows n fuel (srcOf (s.qty m)))
/-- A frame in flight takes in an update (R238): the last one before its target, then the first two after it that arrive by t_r + 1 ms. -/
def Sent.saw (e : Event) (now ts v : Qval) (x : Sent) : Sent :=
  if x.after_ = [] ∧ e.still (e.tk x.occ) v then { x with before := some (ts, v) }
  else if x.after_.length < 2 ∧ !ahead now (qadd x.tr (2 ^ 48 / 1000)) then { x with after_ := x.after_ ++ [(ts, v)] }
  else x
/-- An update of Qn reaches the events (R233, R238): a release that it or a prediction before it has set is decided by that alone; the frames in flight take it in. `s0` is the state before the update. -/
def State.witness (s0 : State) (n : Nat) (s : State) : State :=
  let f := fun (e : Event) =>
    if e.qty = 0 ∨ !s.follows n 16 e.qty ∨ s.kind (s.rootOf e.qty) = 0 then e
    else
      let h := if e.hit.isSome then e.hit else if s0.reaches e then some (s0.crossing e) else if s.reaches e then some (s.crossing e) else none
      let q := s.qty e.qty
      { e with hit := h, sent := e.sent.map (Sent.saw e s.tb.q0 q.tu q.vu) }
  s.putSch { s.sch with events := s.sch.events.map f }
/-- The quadratic through the last update before a target and the first two after it (R238): the instant at which it reaches the target, and its acceleration in the units of R31. -/
def fitted (g : Int) (tgt : Qval) (b : Qval × Qval) (p q : Qval × Qval) : Qval × Nat :=
  let x1 := qdist p.1 b.1
  let x2 := qdist q.1 b.1
  let s1 : Rat := (qdist p.2 b.2 : Rat) / x1
  let c : Rat := ((qdist q.2 b.2 : Rat) / x2 - s1) / (x2 - x1)
  let reach := fun t : Int => decide ((g * qdist tgt b.2 : Int) ≤ (g : Rat) * ((t : Rat) * s1 + (t : Rat) * (t - x1) * c))
  (qadd b.1 (bisect 100 reach 0 (max 1 x1)), (c * 2 ^ 81).floor.natAbs)

end Sys2Proof.Machine
end

