-- ==== Sys2Proof/Machine/Sinks.lean ====
section
/-! DEFINITION. What a release does at the cluster and at a sample port: a start record in a core's ring (R425, R426), a port's start and its header in shared memory (R398, R399). -/
namespace Sys2Proof.Machine
open Sys2Proof

/-- A start record is written into core k's ring (R426): a failed core discards it (R432); a full ring drops its oldest record, reported to that task's owner. -/
def State.pushStart (k : Nat) (r : Start) (s : State) : State :=
  let c := s.core k
  let drop := fun (c : UCore) (x : Start) =>
    let sl := c.slot x.task
    { c with dropped := satN 24 (c.dropped + 1) }.setSlot x.task { sl with drops := satN 22 (sl.drops + 1) }
  let tell := fun (x : Start) (s : State) =>
    let sl := (s.core k).slot x.task
    if sl.owner < 5 then s.raiseOwner sl.owner 0xC03 (k * 64 + x.task) [word k, word x.task, word sl.drops] else s
  if c.failed then tell r (s.setCore k (drop c r))
  else
    match c.ring with
    | [] => s.setCore k { c with ring := [r] }
    | x :: rest =>
      if 1024 ≤ c.ring.length then
        let c := drop c x
        tell x (s.setCore k { c with ring := rest ++ [r] })
      else s.setCore k { c with ring := c.ring ++ [r] }

/-! Sample ports: the fields of an accepted SMP_CONFIG (Table 2). -/

/-- EN: the port is configured. -/
def SmpPort.en (p : SmpPort) : Bool := bit p.cfg0 44
/-- NSLOTS. -/
def SmpPort.nslots (p : SmpPort) : Nat := fld p.cfg0 41 37
/-- DOMAIN: 1 ANGLE. -/
def SmpPort.angle (p : SmpPort) : Bool := bit p.cfg0 27
/-- QTY. -/
def SmpPort.qty (p : SmpPort) : Nat := fld p.cfg0 26 23
/-- N, samples per cycle. -/
def SmpPort.npc (p : SmpPort) : Nat := fld p.cfg1 47 32
/-- L, the ring length in words. -/
def SmpPort.len (p : SmpPort) : Nat := 2 ^ fld p.cfg4 23 19
/-- RING_BASE. -/
def SmpPort.base (p : SmpPort) : Nat := fld p.cfg4 47 24
/-- HDR, the address of the port header (R398). -/
def SmpPort.hdr (p : SmpPort) : Nat := p.base + p.nslots * p.len
/-- IN_DLY in units of 2^-48 s. -/
def SmpPort.inDly (p : SmpPort) : Int := unitsOfPs (sfld p.cfg3 47 16)
/-- The port header (Table 5). -/
def SmpPort.header (p : SmpPort) : List Word :=
  [pack [put 47 32 p.hseq, put 31 16 p.startSeq, put 15 14 p.state], p.wr, cyc p.ts, frc p.ts, cyc p.v0, frc p.v0,
    p.stepIdx, cyc p.stepDelta, frc p.stepDelta, p.maskFrame, pack [put 47 32 p.mask], p.maskJ, word p.wrFrame, 0, 0,
    pack [put 47 32 p.hseq]]
/-- Windvane writes a port's header through M4, after each index and at each event (R398). -/
def State.writeHeader (n : Nat) (s : State) : State :=
  let p := { s.smp n with hseq := ((s.smp n).hseq + 1) % 2 ^ 16 }
  (s.setSmp n p).memWrites p.hdr p.header
/-- V0: the first grid value PHASE + i/N at or ahead of a value, to the nearest unit (R394). -/
def SmpPort.firstGrid (p : SmpPort) (v : Qval) : Qval :=
  let n : Int := max 1 p.npc
  let i := -((((p.cfg2.toNat : Int) - (frc v).toNat) * n) / 2 ^ 48)
  mkQ (cyc v) 0 + BitVec.ofInt 96 ((p.cfg2.toNat : Int) + (2 * i * 2 ^ 48 + n) / (2 * n))
/-- The grid value of index j in the angle domain, V0 + j/N (R394). -/
def SmpPort.grid (p : SmpPort) (j : Nat) : Qval :=
  p.v0 + BitVec.ofNat 96 ((2 * j * 2 ^ 48 + p.npc) / (2 * max 1 p.npc))
/-- The index written next. -/
def SmpPort.nextIdx (p : SmpPort) : Nat := (p.wr + 1).toNat
/-- The elements of a list without those whose successor makes them useless. -/
def dropLead {α : Type} (f : α → Bool) : List α → List α
  | a :: b :: rest => if f b then dropLead f (b :: rest) else a :: b :: rest
  | l => l
/-- An angle port takes in an update of its quantity (R395): it keeps those from the last one below the next grid value on, and while it does not run those of the last 2 ms (R399). -/
def SmpPort.takes (now : Qval) (q : Qty) (p : SmpPort) : SmpPort :=
  let old := fun (u : AngleUpd) => if p.state = 2 then behind u.val (p.grid p.nextIdx) else behind u.at_ (qadd now (-(2 ^ 48 / 500)))
  { p with ups := dropLead old (p.ups ++ [⟨q.tu, q.vu, q.rate, q.acc, q.backAt == some q.tu⟩]), top := if ahead q.vu p.top then q.vu else p.top }
/-- An update of Qn reaches the angle ports that follow it. -/
def State.sampled (n : Nat) (s : State) : State :=
  [0, 1, 2, 3, 4, 5, 6, 7].foldl (fun (s : State) p =>
    let x := s.smp p
    if x.en && x.angle && s.follows n 16 x.qty then s.setSmp p (x.takes s.tb.q0 (s.qty x.qty)) else s) s
/-- The port starts at an instant (R399): index 0 is defined, START_SEQ advances, and the header is written. -/
def State.startPort (n : Nat) (ts : Qval) (s : State) : State :=
  let p := s.smp n
  if p.en then
    let v := s.valueAt p.qty ts
    let since := p.ups.filter fun u => ahead u.at_ ts
    State.writeHeader n (State.emit (s.setSmp n { p with
      state := 2, ts := ts, v0 := if p.angle then p.firstGrid v else 0
      ups := ((p.ups.filter fun u => !ahead u.at_ ts).getLast?).toList ++ since, top := since.foldl (fun m u => if ahead u.val m then u.val else m) v
      startSeq := (p.startSeq + 1) % 2 ^ 16, wr := 0xFFFFFFFFFFFF#48, stepIdx := 0, stepDelta := 0, moved := 0
      startAt := none, stopAt := none, inFill := false, filledRun := 0, lastVal := [] }) (.startLine n ts))
  else s
/-- Why a running port stops other than by STOP (Table 6 of R407). -/
def State.stopPort (n why : Nat) (s : State) : State :=
  let p := s.smp n
  if p.state = 2 then
    let s := State.writeHeader n (s.setSmp n { p with state := 1, stopAt := none })
    if why = 0 then s else s.raiseLimited false 0xB06 n [word n, word why, p.wr]
  else s

end Sys2Proof.Machine
end

