-- ==== Sys2Proof/Machine/Quantities.lean ====
section
/-! DEFINITION. The sixteen quantities: configuration (R39-R49), updates (R50-R52), reading (R53-R55), preset (R56), and the commands QTY_CONFIG and QTY_READ (R304, R305). -/
namespace Sys2Proof.Machine
open Sys2Proof

/-- The kinds a source accepts (Table 5a, R509). -/
def kindAllowed (n k : Nat) : Bool :=
  match n with
  | 0 => k == 0
  | 1 | 2 | 3 => [1, 2, 3, 15].contains k
  | 4 => [1, 2, 3, 8, 15].contains k
  | 5 => [4, 15].contains k
  | 6 | 7 => [5, 15].contains k
  | _ => [6, 7, 15].contains k
/-- The bits of QCFG1-QCFG4 that a kind uses (Table 7); the others are reserved. -/
def qcfgMask (k i : Nat) : Nat :=
  match k, i with
  | 1, 1 => 0x3FFFFFFFF | 1, 2 => 2 ^ 48 - 1 | 1, 3 => 0xF
  | 2, 1 => 0x3F * 2 ^ 32 + 0x3F * 2 ^ 24 + 0x3F * 2 ^ 16 + 2 ^ 15 + 2 ^ 14
  | 2, 2 => 0xFFF * 2 ^ 32 + 0xFFFFFF
  | 3, 1 => 1 | 3, 2 => 2 ^ 48 - 1
  | 4, 1 => 2 ^ 48 - 1 | 4, 2 => 3
  | 5, 1 => 2 ^ 48 - 1
  | 6, 1 => 2 ^ 48 - 1 | 6, 2 => 2 ^ 48 - 1 | 6, 3 => 2 ^ 48 - 1
  | 7, 1 => 0x7FF
  | _, _ => 0
/-- A word without its reserved bits (R13). -/
def maskW (m : Nat) (w : Word) : Word := word (w.toNat &&& m)
/-- The bits of QCFG0 (Table 6). -/
def qcfg0Mask : Nat := 0xF * 2 ^ 44 + 2 ^ 42 + 7 * 2 ^ 39 + 0xF * 2 ^ 35 + 0xFFFF * 2 ^ 16
/-- A configuration with a field out of range (R39, R41-R43, R47, Tables 6, 7). The frame duration of R43 is formed at CLK_KHZ: the achievable frequencies are not given (DESIGN CHOICE, log 190). -/
def State.qcfgBad (n : Nat) (c0 c1 c2 : Word) (s : State) : Bool :=
  let k := kindOf c0
  !kindAllowed n k ||
  (k == 1 && (decide (fld c1 31 0 = 0) || decide (fld c1 33 32 = 3))) ||
  (k == 2 &&
    (let fb := fld c1 37 32; let st := fld c1 29 24; let mt := fld c1 21 16
     let khz := fld c2 43 32; let mono := fld c2 23 16; let per := fld c2 15 0
     decide (fb < 10 ∨ 32 < fb ∨ st < 1 ∨ 32 < st ∨ 31 < mt ∨ khz < 100 ∨ 2000 < khz ∨ mono < 10 ∨
       fb < st + mt + (if bit c1 14 then 1 else 0) ∨ per * khz < fb * 1000 + mono * khz))) ||
  (k == 4 && decide (fld c2 1 0 = 3)) ||
  (k == 6 && (let src := fld c0 38 35; decide (n ≤ src ∨ (8 ≤ src ∧ s.kind src ≠ 6))))
/-- An event is pending against Qn. -/
def State.pendingOn (n : Nat) (s : State) : Bool := s.sch.events.any fun e => e.qty == n
/-- Qn is the source of an enabled DERIVED quantity. -/
def State.feedsDerived (n : Nat) (s : State) : Bool :=
  [8, 9, 10, 11, 12, 13, 14, 15].any fun m => kindOf (s.qty m).cfg0 == 6 && srcOf (s.qty m) == n
/-- A commit that R41 refuses with NOT_PERMITTED. -/
def State.qcfgHeld (n : Nat) (s : State) : Bool := s.pendingOn n || s.feedsDerived n
/-- Put a configuration in force (R41): value, rate and acceleration restart; a DERIVED quantity forms RATIO × source + OFS exactly (R47). Of Q0 the written fields alone change: it is TIME, and no register write sets it (R32). The direct-path copy changes at its own rewrites alone (R55). A sample port that runs on it stops (R394). -/
def State.applyQcfg (n : Nat) (c0 c1 c2 c3 c4 : Word) (s : State) : State :=
  if n = 0 then s.setQty 0 { s.qty 0 with cfg0 := maskW qcfg0Mask c0 }
  else
    let k := kindOf c0
    let m := fun i w => maskW (qcfgMask k i) w
    let old := s.qty n
    let q : Qty := {
      cfg0 := maskW qcfg0Mask c0, cfg1 := m 1 c1, cfg2 := m 2 c2, cfg3 := m 3 c3, cfg4 := m 4 c4
      tu := s.tb.q0, tuClk := s.tb.clk, fell := s.tb.q0, direct := old.direct
      pinA := old.pinA, pinB := old.pinB, refA := old.pinA, refB := old.pinB }
    let q := if k = 6 then
        let src := s.value (srcOf q)
        let ofs := (mkQ q.cfg2 q.cfg3).toNat
        let e := BitVec.ofInt 128 (ratioOf q * src.toNat) + BitVec.ofNat 128 (ofs * 2 ^ 32)
        { q with exact := e, vu := exactValue e, srcVal := src }
      else q
    let ports := [0, 1, 2, 3, 4, 5, 6, 7].filter fun p => (s.smp p).angle && (s.smp p).qty == n
    ports.foldl (fun (s : State) p => s.stopPort p 1) (s.setQty n q)

/-- A source update (R50): the value becomes the measured one; rate and acceleration are what the estimator gives (its gains are not stated) and saturate (R30, R31); VALID sets, STOPPED clears, and the update reaches the derived quantities. -/
def State.measured (n : Nat) (v : Qval) (f : Qty → Qty) (s : State) : State :=
  let q := s.qty n
  let dv := qdist v q.vu
  let iv := s.tb.clk - q.tuClk
  let filt := fld q.cfg0 41 39
  let r := Config.estRate s.fresh filt iv q.rate dv
  let a := Config.estAcc s.fresh filt iv q.acc dv
  let q := f { q with
    vu := v, tu := s.tb.q0, tuClk := s.tb.clk, lastIv := iv, fed := true, valid := true, stopped := false, held := none
    backAt := if q.valid then none else some s.tb.q0
    rate := sat 48 r, overrate := decide (sat 48 r ≠ r), acc := sat 48 a, accSat := decide (sat 48 a ≠ a) }
  State.sampled n (s.witness n (State.feed 16 n ((s.putFresh (s.fresh + 1)).setQty n q)))
/-- The present counter clock is the one in which a preset of Qn is taken: an update in it is absorbed (R56). -/
def State.absorbing (n : Nat) (s : State) : Bool := (s.qty n).absorb == some s.tb.clk
/-- A source update that a preset absorbs: the written value stands, the source has been heard (R52, R56). -/
def State.absorbed (n : Nat) (f : Qty → Qty) (s : State) : State :=
  let q := s.qty n
  s.setQty n (f { q with
    tuClk := s.tb.clk, lastIv := s.tb.clk - q.tuClk, fed := true, valid := true, stopped := false
    backAt := if q.valid then q.backAt else some s.tb.q0 })
/-- The value of a QUAD count: the base moved by count / COUNTS cycles. Where COUNTS does not divide 2^48 it is rounded toward −∞: R42 gives no rounding (DESIGN CHOICE, log 190). -/
def quadValue (q : Qty) (count : Int) : Qval := qadd q.base (count * 2 ^ 48 / max 1 (fld q.cfg1 31 0))
/-- Inputs are counted while D11 is on (R478). -/
def State.counting (s : State) (n k : Nat) : Bool := s.isOn 11 && s.kind n == k && (k == 4 || !s.pinsLatched 11)
/-- The pin level of a line of an incremental encoder. -/
def Qty.pin (isB level : Bool) (q : Qty) : Qty := if isB then { q with pinB := level } else { q with pinA := level }
/-- The decoder's reference level of a line. -/
def Qty.ref (isB : Bool) (q : Qty) : Bool := if isB then q.refB else q.refA
/-- The decoder takes an accepted transition of one line into its reference state. -/
def Qty.decode (isB level : Bool) (clk : Nat) (q : Qty) : Qty :=
  if isB then { q with refB := level, edgeClk := some clk } else { q with refA := level, edgeClk := some clk }
/-- The glitch filter accepts a transition now: GLITCH counter clocks after the last accepted one (Table 7). -/
def Qty.accepts (clk : Nat) (q : Qty) : Bool := q.edgeClk.all fun c => decide (c + fld q.cfg3 3 0 ≤ clk)
/-- The sense of a transition, from the levels after it: A leads B where A moves away from B or B moves to A (R42). -/
def Qty.leads (isB : Bool) (q : Qty) : Bool := if isB then q.refA == q.refB else q.refA != q.refB
/-- QUAD_COUNT: A or B goes to a level; a transition that passes the glitch filter counts, up where A leads B and DIR is 0 (R42). -/
def execQuadCount (t : Lapse) (n : Nat) (isB level : Bool) (s : State) : Host.Outcome State Fault Refusal :=
  let s := s.elapse t
  if n = 0 ∨ 4 < n ∨ !s.isOn 11 ∨ s.pinsLatched 11 then .next s
  else
    let q := (s.qty n).pin isB level
    if s.kind n = 1 ∧ q.ref isB ≠ level ∧ q.accepts s.tb.clk then
      let q := q.decode isB level s.tb.clk
      let c := if q.leads isB != bit q.cfg0 42 then q.count + 1 else q.count - 1
      let s := s.setQty n q
      if s.absorbing n then .next (s.absorbed n id)
      else .next (s.measured n (quadValue q c) fun q => { q with count := c })
    else .next (s.setQty n q)
/-- The correction of an index (R42): FRC to INDEX_FRC by less than half a cycle. At exactly half a cycle no CYC meets the rule; the model takes the negative correction (DESIGN CHOICE, log 190). -/
def indexCorr (q : Qty) (v : Qval) : Int :=
  let d : Int := ((q.cfg2.toNat : Int) - (frc v).toNat) % 2 ^ 48
  if d < 2 ^ 47 then d else d - 2 ^ 48
/-- A correction as the count difference of INDEX_ERR, to the nearest count: R42 does not say how a correction that is no whole number of counts is expressed (DESIGN CHOICE, log 190). -/
def corrCounts (q : Qty) (d : Int) : Int := (2 * d * (fld q.cfg1 31 0) + 2 ^ 48) / 2 ^ 49
/-- QUAD_INDEX: an index edge crossed in the counting-up direction (R42). -/
def execQuadIndex (t : Lapse) (n : Nat) (s : State) : Host.Outcome State Fault Refusal :=
  let s := s.elapse t
  if s.counting n 1 ∧ n ≠ 0 then
    let q := s.qty n
    let d := indexCorr q q.vu
    let report := fun (s : State) => s.raiseAll true 0x102 [sword (corrCounts q d)]
    match fld q.cfg1 33 32 with
    | 1 =>
      let v := qadd q.vu d
      let s' := State.sampled n (s.witness n (State.feed 16 n (s.setQty n { q with vu := v, base := qadd q.base d, aligned := true })))
      .next (if q.aligned ∧ d ≠ 0 then report s' else s')
    | 2 =>
      if q.lastCorr.getD 0 ≠ d then .next (report (s.setQty n { q with lastCorr := some d }))
      else .next s
    | _ => .next s
  else .next s
/-- QUAD_ILLEGAL: A and B change in one counter clock; nothing is counted, and the decoder takes the new levels as its reference state (R42). -/
def execQuadIllegal (t : Lapse) (n : Nat) (s : State) : Host.Outcome State Fault Refusal :=
  let s := s.elapse t
  if n = 0 ∨ 4 < n ∨ !s.isOn 11 ∨ s.pinsLatched 11 then .next s
  else
    let q := s.qty n
    let q := { q with pinA := !q.pinA, pinB := !q.pinB }
    if s.kind n = 1 ∧ q.refA ≠ q.pinA ∧ q.refB ≠ q.pinB ∧ q.accepts s.tb.clk then
      .next ((s.setQty n ((q.decode false q.pinA s.tb.clk).decode true q.pinB s.tb.clk)).raiseAll true 0x103 [])
    else .next (s.setQty n q)
/-- Gray code to binary: bit i is the exclusive or of bits i and above, of n bits. -/
def ungray : Nat → Nat → Nat
  | 0, _ => 0
  | n + 1, g => (g / 2 ^ n % 2 + ungrayTop g n) % 2 * 2 ^ n + ungray n g
where
  /-- The parity of the bits above bit n. -/
  ungrayTop (g n : Nat) : Nat := (List.range 64).foldl (fun p i => p + (g / 2 ^ (n + 1 + i) % 2)) 0
/-- SSI_FRAME: a frame latched at its first falling clock edge (R43): discarded with its error flag set or the line low in the pause; otherwise the single-turn value sets FRC and the turns unwrap. `data` holds the multi-turn and single-turn bits. -/
def execSsiFrame (t : Lapse) (n : Nat) (data : Nat) (err low : Bool) (s : State) : Host.Outcome State Fault Refusal :=
  let s := s.elapse t
  if s.counting n 2 ∧ n ≠ 0 then
    let q := s.qty n
    if (err ∧ bit q.cfg1 14) ∨ low then .next (s.raiseAll true 0x104 [])
    else
      let st := fld q.cfg1 29 24
      let w := st + fld q.cfg1 21 16
      let raw := if bit q.cfg1 15 then ungray w (data % 2 ^ w) else data % 2 ^ w
      let unit : Int := 2 ^ (48 - min 48 st)
      let sense : Int := if bit q.cfg0 42 then -1 else 1
      let v := match q.ssiRaw with
        | none => qadd 0 (sense * raw * unit + q.ssiOfs)
        | some r0 =>
          let d : Int := ((raw : Int) - r0) % 2 ^ w
          qadd q.vu (sense * (if 2 * d < 2 ^ w then d else d - 2 ^ w) * unit)
      if s.absorbing n then .next (s.absorbed n fun q => { q with ssiRaw := some raw })
      else .next (s.measured n v fun q => { q with ssiRaw := some raw })
  else .next s
/-- TACH_PULSE: CYC moves by one in the sense of DIR, FRC becomes PULSE_FRC (R44). -/
def execTachPulse (t : Lapse) (n : Nat) (s : State) : Host.Outcome State Fault Refusal :=
  let s := s.elapse t
  if s.counting n 3 ∧ n ≠ 0 then
    let q := s.qty n
    let c := if bit q.cfg0 42 then cyc q.vu - 1 else cyc q.vu + 1
    if s.absorbing n then .next (s.absorbed n id) else .next (s.measured n (mkQ c q.cfg2) fun q => q)
  else .next s
/-- The frequency over the latest cycle lies where a MAINS source follows it, 45 to 65 Hz (R45): the cycle runs from the crossing before the last one, where there is one. -/
def Qty.followed (clk : Nat) (q : Qty) : Bool :=
  match q.crossings with
  | [_, c] => decide (45 * (clk - c) ≤ 654720000 ∧ 654720000 ≤ 65 * (clk - c))
  | _ => true
/-- The nominal frequency: NOM, or with NOM 0 the nearer of 50 and 60 Hz over the first ten cycles (R45, Table 7). -/
def Qty.chooseNominal (clk : Nat) (q : Qty) : Qty :=
  match fld q.cfg2 1 0 with
  | 1 => { q with nominal := 50 }
  | 2 => { q with nominal := 60 }
  | _ =>
    if q.nominal ≠ 0 then q
    else if q.cycles = 0 then { q with cycles := 1, cycleClk := clk }
    else if q.cycles < 10 then { q with cycles := q.cycles + 1 }
    else { q with nominal := if 6547200000 < 55 * (clk - q.cycleClk) then 50 else 60 }
/-- MAINS_ZERO_CROSSING: at the positive-going crossing FRC is ZERO_FRC; at the other the sliding estimate gives the phase (R45). Nothing updates while the module runs from DC or after mains loss, or outside 45 to 65 Hz. -/
def execMainsZeroCrossing (t : Lapse) (positive : Bool) (phase : Word) (s : State) : Host.Outcome State Fault Refusal :=
  let s := s.elapse t
  let s := match s.rtc.run with
    | some r => if r.kind = 1 ∧ positive ∧ s.isOn 11 then (s.putRtc { s.rtc with run := some { r with true0 := r.true0 + 1 } }) else s
    | none => s
  if s.counting 5 4 ∧ Config.inputAc ∧ s.pwr.good ∧ !s.pwr.dc then
    let q := s.qty 5
    let near := q.followed s.tb.clk
    let q := { q with crossings := (s.tb.clk :: q.crossings).take 2 }
    let q := if near ∧ positive then q.chooseNominal s.tb.clk else q
    let s := s.setQty 5 q
    if near then
      let f := if positive then q.cfg1 else phase
      let v := if !q.fed then mkQ 0 f
        else
          let d : Int := ((f.toNat : Int) - (frc q.vu).toNat) % 2 ^ 48
          let d := if d = 0 then 2 ^ 48 else d
          if bit q.cfg0 42 then qadd q.vu (d - 2 ^ 48) else qadd q.vu d
      .next (s.measured 5 v fun q => q)
    else .next s
  else .next s
/-- REF1PPS_PULSE: Q4 counts the external pulses, FRC 0 at each (R49). -/
def execRef1ppsPulse (t : Lapse) (s : State) : Host.Outcome State Fault Refusal :=
  let s := s.elapse t
  if s.counting 4 8 then
    let q := s.qty 4
    let c := if bit q.cfg0 42 then cyc q.vu - 1 else cyc q.vu + 1
    .next (s.measured 4 (mkQ c 0) fun q => q)
  else .next s
/-- The timeout of a quantity in ms: TIMEOUT_MS, or the kind's default (Table 10). -/
def timeoutMs (q : Qty) : Option Nat :=
  let d := match kindOf q.cfg0 with
    | 1 => some 1000 | 2 => some 20 | 3 => some 10000 | 4 => some 100 | 5 => some 1000 | 7 => some 100 | 8 => some 1500 | _ => none
  d.map fun x => if fld q.cfg0 31 16 = 0 then x else fld q.cfg0 31 16
/-- VALID falls where it was set (R52). -/
def Qty.invalid (now : Qval) (q : Qty) : Qty := if q.valid then { q with valid := false, fell := now } else q
/-- The value stands where it is until the next update. -/
def State.stand (n : Nat) (s : State) : Qty := { s.qty n with held := some (qdist (s.value n) (s.qty n).vu) }
/-- A HEADING or GATEWAY quantity has no source: VALID reads 0, the value and the rate are held (R46, Table 10). -/
def State.holdInvalid (n : Nat) (s : State) : State := State.follow 16 n (s.setQty n ((s.stand n).invalid s.tb.q0))
/-- The timeout rule of a kind (Table 10). A QUAD or TACH value stands where it is, so that it neither leaves the clamp (R51) nor runs against DIR (R44). -/
def State.timedOut (n : Nat) (s : State) : State :=
  match kindOf (s.qty n).cfg0 with
  | 1 | 3 => State.follow 16 n (s.setQty n { s.stand n with rate := 0, acc := 0, overrate := false, accSat := false, stopped := true })
  | 5 | 7 => s.holdInvalid n
  | _ => State.follow 16 n (s.setQty n ((s.qty n).invalid s.tb.q0))
/-- QTY_TIMEOUT: no update for longer than the timeout, counted from the commit where none has come (R52). -/
def execQtyTimeout (t : Lapse) (n : Nat) (s : State) : Host.Outcome State Fault Refusal :=
  let s := s.elapse t
  match timeoutMs (s.qty n) with
  | some ms => if n ≠ 0 ∧ n < 16 ∧ s.isOn 11 ∧ ms * 654720 < s.tb.clk - (s.qty n).tuClk then .next (s.timedOut n) else .next s
  | none => .next s

/-! Reading (R53-R55). -/

/-- The seven words of Qn's read group (Table 5), with a FRZ_SEQ. -/
def State.qGroup (s : State) (n seq : Nat) : List Word :=
  let q := s.qty n
  let age := if n = 0 then s.tb.tqeNow else if q.fed then satN 32 ((s.tb.clk - q.tuClk) * 1000000 / 654720000) else 0xFFFFFFFF
  let v := s.value n
  [pack [put 47 40 seq, put 39 36 (s.kind n), putB 35 (n == 0 || q.valid), putB 34 (n != 0 && q.stopped),
      putB 33 (n != 0 && q.overrate && decide ((s.rateNow n).natAbs = 2 ^ 47 - 1)), putB 32 (n != 0 && q.accSat), put 31 0 age],
    cyc v, frc v, if n = 0 then 0x000001000000#48 else sword (s.rateNow n), if n = 0 then 0 else sword q.acc,
    cyc s.tb.q0, frc s.tb.q0]
/-- The shadow of a path and quantity. -/
def State.shadow (s : State) (path n : Nat) : Shadow := tget {} (path * 16 + n) s.shadows
/-- Replace a shadow. -/
def State.setShadow (s : State) (path n : Nat) (v : Shadow) : State :=
  (s.putShadows (tput {} (path * 16 + n) v s.shadows))
/-- A shadow open for 1 ms closes by itself (R53). -/
def Shadow.expire (clk : Nat) (h : Shadow) : Shadow :=
  if h.isOpen ∧ h.since + 654720 ≤ clk then { h with isOpen := false, expired := true } else h
/-- A read of a group word: opens the path's shadow if it is closed; a freeze of Q0 also captures CAL0, CAL1 and TB_TQF (R53). -/
def State.openShadow (path n : Nat) (s : State) : State :=
  let h := (s.shadow path n).expire s.tb.clk
  if h.isOpen then s.setShadow path n h
  else
    let seq := (h.seq + 1) % 256
    let s := s.setShadow path n { h with isOpen := true, seq := seq, ws := s.qGroup n seq, since := s.tb.clk }
    if n = 0 then (s.putCalFrz (tput none path (some (s.tb.cal0 s.tb.q0, cal1 s.tb.q0, s.tb.tqfWord)) s.calFrz)) else s
/-- Read offset +8 to +14 of a quantity page on a path. -/
def State.readGroup (path n off : Nat) (s : State) : Word × State :=
  let s := s.openShadow path n
  ((s.shadow path n).ws.getD (off - 8) 0, s)
/-- Read QEND: closes the freeze (Table 9). -/
def State.readQend (path n : Nat) (s : State) : Word × State :=
  let h := (s.shadow path n).expire s.tb.clk
  (pack [put 47 40 h.seq, putB 39 h.expired, putB 38 (!h.isOpen)],
    s.setShadow path n { h with isOpen := false, expired := false })
/-- CAL0, CAL1 or TB_TQF on a path: as of its latest Q0 freeze, live before the first (R37, R53). -/
def State.readCal (path i : Nat) (s : State) : Word :=
  let v := (tget none path s.calFrz).getD (s.tb.cal0 s.tb.q0, cal1 s.tb.q0, s.tb.tqfWord)
  match i with | 0 => v.1 | 1 => v.2.1 | _ => v.2.2
/-- DIRECT_PATH_COPY: 32 counter clocks after the last rewrite Tether rewrites every copy with v(t) (R55). -/
def execDirectPathCopy (t : Lapse) (s : State) : Host.Outcome State Fault Refusal :=
  let s := s.elapse t
  if s.isOn 11 ∧ s.tb.dpClk.all (fun c => decide (c + 32 ≤ s.tb.clk)) then
    let s := s.putTb { s.tb with dpClk := some s.tb.clk }
    .next ([0, 1, 2, 3, 4, 5, 6, 7, 8, 9, 10, 11, 12, 13, 14, 15].foldl (fun (s : State) n => s.setQty n { s.qty n with direct := s.value n }) s)
  else .next s

/-! Preset (R56). -/

/-- A preset that R56 refuses. -/
def State.qsetHeld (n : Nat) (s : State) : Bool :=
  n == 0 || !([1, 2, 3].contains (s.kind n)) || s.pendingOn n || s.feedsDerived n
/-- A preset arrives: it becomes the value at the next counter clock (R56); a part not staged keeps the present value's (R513). An SSI source that has had no frame keeps it as the offset to its first one. -/
def State.applyQset (n : Nat) (c f : Option Word) (s : State) : State :=
  let q := s.qty n
  let now := s.value n
  let v := mkQ (c.getD (cyc now)) (f.getD (frc now))
  let ofs : Int := match q.ssiRaw with | none => qdist v 0 | some _ => 0
  s.setQty n { q with preset := some v, ssiOfs := ofs }

/-- A configuring command makes every STAGED copy of its group LOST (R513). -/
def State.loseStages (key : StageKey) (s : State) : State :=
  (s.putStage (s.stage.map fun c => if c.key = key then { c with st := .lost } else c))
/-- QTY_CONFIG (0x080, R304). -/
def opQtyConfig : OpSpec :=
  { code := 0x080
    eval := fun k s =>
      let n := fld (arg k.ps 0) 47 44
      if k.ps.length ≠ 6 ∨ n = 0 then badParam 0
      else if s.qcfgBad n (arg k.ps 1) (arg k.ps 2) (arg k.ps 3) then badParam 0
      else if s.qcfgHeld n then notPermitted 0
      else acceptWith [] fun _ s =>
        let s := s.applyQcfg n (arg k.ps 1) (arg k.ps 2) (arg k.ps 3) (arg k.ps 4) (arg k.ps 5)
        s.loseStages (.qcfg n) }
/-- QTY_CONFIG. -/
def execQtyConfig (t : Lapse) (env : Env) (ps : List Word) (s : State) : Host.Outcome State Fault Refusal :=
  runOp opQtyConfig t env ps s
/-- QTY_READ (0x081, R305): the groups of the selected quantities, captured together, FRZ_SEQ 0. -/
def opQtyRead : OpSpec :=
  { code := 0x081, rights := 1, compact := true, reads := true
    eval := fun k s =>
      let m := fld (arg k.ps 0) 47 32
      if k.ps.length ≠ 1 ∨ m = 0 then badParam 0
      else
        let ns := [0, 1, 2, 3, 4, 5, 6, 7, 8, 9, 10, 11, 12, 13, 14, 15].filter fun n => m.testBit (15 - n)
        doneWith (ns.flatMap fun n => s.qGroup n 0) fun _ s => s }
/-- QTY_READ. -/
def execQtyRead (t : Lapse) (env : Env) (ps : List Word) (s : State) : Host.Outcome State Fault Refusal :=
  runOp opQtyRead t env ps s

end Sys2Proof.Machine
end

