-- ==== Sys2Proof/Machine/Outputs.lean ====
section
/-! DEFINITION. The timing outputs O0-O7: configuration and its effect instant (R190, R191, R195), edges (R192, R206), squelch and resume (R198). -/
namespace Sys2Proof.Machine
open Sys2Proof

/-- A configuration out of range (R191): a field of Tables 3 to 5, a clock above its limit, a pulse wider than half its period, an alignment that does not divide to whole hertz (R194). -/
def State.outBad (n : Nat) (c : OutCfg) (s : State) : Bool :=
  let w := fld c.cfg 31 0
  decide (7 < n) ||
  (if c.src = 0 then
    decide (w < 10) || (decide (c.divn ≠ 0) && (decide (c.divn < 1000) || decide (c.divn < 2 * w)))
  else
    let f := s.srcFreq c.src
    let lim := (if n < 6 then 100000000 else 700000000) * 2 ^ 16
    decide (c.divn = 0) || decide (lim * c.divn < f) ||
    (decide (c.src = 1) && bit c.cfg 41 && decide (f % (2 ^ 16 * c.divn) ≠ 0)))
/-- A scheduled pulse is pending against output n. -/
def State.pulsesOn (n : Nat) (s : State) : Bool := s.sch.events.any fun e => e.action == 0 && fld e.sink 47 45 == n
/-- NOT_PERMITTED of R191. -/
def State.outHeld (n : Nat) (c : OutCfg) (s : State) : Bool := s.pulsesOn n && !c.scheduled
/-- The reserved bits of the four words removed. -/
def OutCfg.masked (c : OutCfg) : OutCfg :=
  { c with cfg := maskW (0x7F * 2 ^ 41 + 0xFFFFFFFF) c.cfg, dly := maskW (2 ^ 40 - 1) c.dly }
/-- The latest leading edge that the configuration in force produces before an instant (R195): its last one, or one yet to come. -/
def State.leadBefore (o : Output) (s : State) (x : Int) : Option Int :=
  let c := o.conf
  let last := o.from_.map uOf
  let coming := fun (first : Int) (k : Int) => if o.state = 2 ∧ first < x then some k else last
  match o.next, o.lead with
  | some e, _ => if c.periodic then coming (uOf e) (c.lead (c.firstK x - 1)) else last
  | none, some l =>
    let f := s.clk.pllT.freq.toNat % 2 ^ 46
    let at_ := fun y => c.tether s.tb.fadj s.tb y
    let n := ((c.point s.tb.fadj s.tb (x - 1) - l) / c.cycle f).floor
    if c.clock then coming (at_ l) (at_ (l + n * c.cycle f)) else last
  | none, none => last
/-- Period and active part of the configuration in force, in units of Tether time. -/
def OutCfg.beats (c : OutCfg) (s : State) : Rat × Rat :=
  if c.clock then
    let f := s.clk.pllT.freq.toNat % 2 ^ 46
    let u : Rat := if c.src = 1 then 1 else TimeBase.inc s.tb.fadj
    (c.cycle f * u, c.active f * u)
  else ((c.divn * 2 ^ 48 : Nat) / (10 ^ 9 : Nat), c.width)
/-- The end of the pulse or active phase in progress at an instant. -/
def State.busyTill (o : Output) (s : State) (x : Int) : Option Int :=
  let own := match s.leadBefore o x with
    | some l => if o.conf.periodic || o.conf.clock then some (l + (o.conf.beats s).2.ceil) else none
    | none => none
  let u := match own, o.until_ with | some a, some b => some (max a (uOf b)) | some a, none => some a | none, b => b.map uOf
  match u with | some u => if x < u then some u else none | none => none
/-- An edge of a new configuration falls in no pulse or active phase of the old one and keeps a distance from the old edge before it (R195). -/
def State.clearOf (o : Output) (gap : Rat) (s : State) (x : Int) : Bool :=
  (s.busyTill o x).isNone && match s.leadBefore o x with | some l => decide ((l : Rat) + gap ≤ x) | none => true
/-- The number of an edge of a new configuration before which, from its edge k on, none is clear: not before the distance has passed, nor, while the old configuration goes on, before the two periods have moved apart. -/
def State.skip (o : Output) (gap : Rat) (num : Int → Int) (lead : Int → Int) (new : Rat) (s : State) (k : Int) : Int :=
  let x := lead k
  let l := (s.leadBefore o x).getD x
  let p := (o.conf.beats s).1
  let r : Rat := x - l
  let d := new - p * (new / p).floor
  let turns := if o.state ≠ 2 ∨ p ≤ 0 then 1 else if 2 * d ≤ p ∧ 0 < d then ((gap - r) / d).floor else if p < 2 * d then (r / (p - d)).floor else 1
  max (k + max 1 turns) (num (max ((l : Rat) + gap).ceil ((s.busyTill o x).getD x)))
/-- The first clear edge of a new configuration from its edge k on. -/
def State.effectSearch (fuel : Nat) (o : Output) (gap : Rat) (num lead : Int → Int) (new : Rat) (s : State) (k : Int) : Option Int :=
  match fuel with
  | 0 => none
  | fuel + 1 => if s.clearOf o gap (lead k) then some (lead k) else State.effectSearch fuel o gap num lead new s (s.skip o gap num lead new k)
/-- The effect instant E of a configuration accepted now (R195): a periodic output's first edge at half the old period or more from the old edge before it; an aligned one's first at an inactive phase, and half the shorter period away as R195 asks of every change; otherwise the earliest instant outside a pulse. Where every edge of the new configuration falls too near an old one, no instant meets the rule (log 196). -/
def State.effectAt (n : Nat) (c : OutCfg) (s : State) : Qval :=
  let o := s.out n
  let a := uOf s.tb.q0 + 2 ^ 48 / 1000 + 1
  let f := s.clk.pllT.freq.toNat % 2 ^ 46
  let h := s.srcFreq 1 / (2 ^ 16 * max 1 c.divn)
  let old := if o.conf.periodic || o.conf.clock then (o.conf.beats s).1 else 0
  let e : Option Int :=
    if c.periodic then s.effectSearch 256 o (old / 2) c.firstK c.lead (c.beats s).1 (c.firstK a)
    else if c.aligned then s.effectSearch 256 o (min old (c.cycle f) / 2) (alignedK c h) (alignedNth c h) (c.cycle f) (alignedK c h a)
    else some ((s.busyTill o a).getD a)
  match e with | some e => qOf e | none => Config.effectInstant s.fresh
/-- The generator of a clock output from a point of its axis on (R194, R204): an aligned one at its next aligned edge, another at a phase that is arbitrary, inside its inactive phase (log 196). -/
def State.phase0 (n : Nat) (c : OutCfg) (x : Rat) (s : State) : Rat :=
  let f := s.clk.pllT.freq.toNat % 2 ^ 46
  if c.aligned then (alignedLead c (s.srcFreq 1 / (2 ^ 16 * max 1 c.divn)) x.ceil : Int)
  else x + (c.cycle f - c.active f) * ((Config.clockPhase (8 * s.tb.clk + n) % 2 ^ 32 : Nat) / (2 ^ 32 : Nat))
/-- The source of a clock output gives a clock. -/
def State.fed (c : OutCfg) (s : State) : Bool :=
  match c.src with | 1 => s.clk.pllT.gives | 2 => s.clk.pllF.gives | _ => true
/-- The state of an output whose configuration takes effect at an instant (R199, R204, R205); a squelched one stays so until R198 lets it resume. -/
def State.outStart (n : Nat) (c : OutCfg) (e : Qval) (s : State) (o : Output) : Output :=
  let tsrcNone := s.tb.tsrc = 0
  let o := { o with conf := c, wait := none, from_ := none, next := none, lead := none }
  if !c.en then { o with state := 0 }
  else if o.state = 3 ∧ (c.periodic ∨ (c.clock ∧ c.src = 1)) ∧ s.tb.tsrc ≠ 0 then { o with state := 3 }
  else if c.periodic ∧ bit c.cfg 42 ∧ tsrcNone then { o with state := 1 }
  else if c.periodic then { o with state := 2, next := some (qOf (c.firstLead (uOf e))) }
  else if c.clock ∧ !s.fed c then { o with state := 5 }
  else if c.clock then { o with state := 2, lead := some (s.phase0 n c (c.point s.tb.fadj s.tb (uOf e))) }
  else { o with state := 2 }
/-- Commit a configuration: it waits for its effect instant and replaces one that waits; while D11 is not on it is in force at once (R195, R205, R517). -/
def State.commitOut (n : Nat) (c : OutCfg) (jsn : Nat) (s : State) : State :=
  let o := s.out n
  if s.isOn 11 then (s.setOut n { o with wait := some ⟨c, s.effectAt n c, jsn⟩ }).putFresh (s.fresh + 1)
  else s.setOut n { o with conf := c, wait := none }
/-- PULSE_CONFIG (0x070, R191). -/
def opPulseConfig : OpSpec :=
  { code := 0x070
    eval := fun k s =>
      let n := fld (arg k.ps 0) 47 45
      let c : OutCfg := OutCfg.masked ⟨arg k.ps 1, arg k.ps 2, arg k.ps 3, arg k.ps 4⟩
      if k.ps.length ≠ 5 ∨ s.outBad n c then badParam 0
      else if s.outHeld n c then notPermitted 0
      else
        let e := s.effectAt n c
        { status := .accepted, words := [cyc e, frc e], pins := [.config 0x070 n]
          act := fun jsn s => (s.commitOut n c jsn).loseStages (.out n) } }
/-- PULSE_CONFIG. -/
def execPulseConfig (t : Lapse) (env : Env) (ps : List Word) (s : State) : Host.Outcome State Fault Refusal :=
  runOp opPulseConfig t env ps s
/-- OUT_CONFIG_EFFECT: a waiting configuration reaches its effect instant (R195). -/
def execOutConfigEffect (t : Lapse) (n : Nat) (s : State) : Host.Outcome State Fault Refusal :=
  let s := s.elapse t
  let o := s.out n
  match o.wait with
  | some w => if s.isOn 11 ∧ !behind s.tb.q0 w.at_ then .next (State.runOuts (s.setOut n (s.outStart n w.conf w.at_ o))) else .next s
  | none => .next s
/-- A leading edge leaves output n at an instant: status group, CLKQ on the direct path, MERGED where a pulse is still active (R196, R204, R206). None leaves a pin that the pad ring holds (R205). -/
def State.leadEdge (n : Nat) (e : Qval) (s : State) : State :=
  if s.pinsLatched 11 then s else
  let o := s.out n
  let tr := qadd e o.conf.width
  let busy : Bool := match o.until_ with | some u => ahead u e | none => false
  let tr := match o.until_ with | some u => if busy ∧ ahead u tr then u else tr | none => tr
  let fl := if s.clk.direct then setBit o.flags 3 else o.flags
  let fl := if busy then setBit fl 1 else fl
  (s.setOut n { o with last := e, from_ := some e, cnt := (o.cnt + 1) % 2 ^ 48, ho := decide (s.tb.tsrc = 2), tsrc := s.tb.tsrc, until_ := some tr, flags := fl }).emit (.edge n e (some tr))
/-- Seconds from the beginning of holdover to an instant (R198). -/
def TimeBase.holdSeconds (tb : TimeBase) : Nat :=
  match tb.hoStart with | some h => (qdist tb.q0 h).toNat / 2 ^ 48 | none => 0
/-- A limit of R198 is reached in HOLDOVER at the present of a time base. -/
def OutCfg.squelches (c : OutCfg) (tb : TimeBase) : Bool :=
  let lim := fld c.hold 47 24
  let tq := fld c.hold 23 0
  tb.tsrc == 2 && (decide (lim ≠ 0 ∧ lim ≤ tb.holdSeconds) || decide (tq ≠ 0 ∧ tq * 1000 ≤ tb.tqeNow))
/-- TPG_EDGE: a periodic output's next leading edge is due (R192, R206); at or after the effect instant of a configuration that waits the old one produces none (R195), nor does an output that a limit of R198 has squelched by then. -/
def execTpgEdge (t : Lapse) (n : Nat) (s : State) : Host.Outcome State Fault Refusal :=
  let s := s.elapse t
  let o := s.out n
  match o.next with
  | some e =>
    let kept : Bool := match o.wait with | some w => ahead w.at_ e | none => true
    let loud : Bool := !o.conf.squelches { s.tb with q0 := e }
    if n < 8 ∧ s.isOn 11 ∧ o.conf.periodic ∧ o.state = 2 ∧ !s.pwr.timeDown ∧ !s.pinsLatched 11 ∧ !behind s.tb.q0 e ∧ kept ∧ loud then
      let s := s.leadEdge n e
      .next (s.setOut n { s.out n with next := some (qOf (o.conf.firstLead (uOf e + 1))) })
    else .next s
  | none => .next s
/-- OUT_SQUELCH: in holdover a periodic or SRC 1 output reaches one of its limits; the pulse in progress completes (R198). -/
def execOutSquelch (t : Lapse) (n : Nat) (s : State) : Host.Outcome State Fault Refusal :=
  let s := s.elapse t
  let o := s.out n
  if n < 8 ∧ s.isOn 11 ∧ o.state = 2 ∧ (o.conf.periodic ∨ (o.conf.clock ∧ o.conf.src = 1)) ∧ o.conf.squelches s.tb then
    .next ((s.setOut n { o with state := 3, next := none, lead := none, flags := setBit o.flags 0 }).raiseAll false 0x601 [word n])
  else .next s
/-- OUT_RESUME: a squelched output resumes when TSRC has become GNSS or REFERENCE (R198): a periodic one 1 ms after that instant, with its first leading edge from then on, an aligned one with its next aligned edge, another at an inactive phase. -/
def execOutResume (t : Lapse) (n : Nat) (s : State) : Host.Outcome State Fault Refusal :=
  let s := s.elapse t
  let o := s.out n
  let from_ := uOf (s.tb.tsrcAt.getD s.tb.q0)
  let a := from_ + 2 ^ 48 / 1000 + 1
  if n < 8 ∧ s.isOn 11 ∧ o.state = 3 ∧ (s.tb.tsrc = 1 ∨ s.tb.tsrc = 3) ∧ (o.conf.periodic → s.tb.tsrcAt.isNone ∨ a ≤ uOf s.tb.q0) then
    let o := if o.conf.periodic then { o with state := 2, next := some (qOf (o.conf.firstLead a)) }
      else if !s.fed o.conf then { o with state := 5 }
      else { o with state := 2, lead := some (s.phase0 n o.conf (o.conf.point s.tb.fadj s.tb from_)) }
    .next ((State.runOuts (s.setOut n o)).raiseAll false 0x602 [word n])
  else .next s

/-- OUT_STAT (Table 6); LATCHED while the pad ring holds the pin (R205). -/
def State.outStat (n : Nat) (s : State) : Word :=
  let o := s.out n
  pack [put 47 45 (if s.pinsLatched 11 then 4 else o.state), putB 44 o.ho, put 43 40 o.tsrc, put 39 32 o.cnt]

end Sys2Proof.Machine
end

