-- ==== Sys2Proof/Machine/Clocks.lean ====
section
/-! DEFINITION. Oscillators, PLLs and operating points: loss of lock, hold and relock (R214-R219), the reference (R210, R220), frequency and voltage points (R222-R224, R488), the write of PLL-T FREQ (Table 9). -/
namespace Sys2Proof.Machine
open Sys2Proof

/-- Replace the clock block. -/
def State.setClk (s : State) (c : Clock) : State := s.putClk c
/-- Replace PLL p. -/
def State.setPll (s : State) (p : Nat) (v : Pll) : State :=
  let s := s.putClk (s.clk.setPll p v)
  if p = 2 ∧ v.state ≠ 2 then s.putMem s.mem.endLeases else s
/-- Replace an operating point. -/
def State.setOpp (s : State) (i : Nat) (v : Opp) : State := s.putClk (s.clk.setOpp i v)
/-- The outputs fed by PLL p: SRC 1 by PLL-T, SRC 2 by PLL-F. -/
def fedBy (p : Nat) (c : OutCfg) : Bool := c.en && ((p == 3 && c.src == 1) || (p == 0 && c.src == 2))
/-- Change every output fed by PLL p. -/
def State.mapFed (p : Nat) (f : Nat → Output → Output) (s : State) : State :=
  [0, 1, 2, 3, 4, 5, 6, 7].foldl (fun (s : State) n =>
    if fedBy p (s.out n).conf then s.setOut n (f n (s.out n)) else s) s
/-- A running clock output is held while its PLL relocks: it completes its active phase and produces no further edge (R204). -/
def heldOut (_ : Nat) (o : Output) : Output := if o.state = 2 then { o with state := 5, lead := none } else o
/-- A held output restarts at an inactive phase, an aligned one at its next aligned edge (R204, R216). -/
def State.releasedOut (s : State) (n : Nat) (o : Output) : Output :=
  if o.state = 5 then { o with state := 2, lead := some (s.phase0 n o.conf (o.conf.axis s.tb)) } else o
/-- Output n is in its active phase. -/
def State.outActive (s : State) (n : Nat) : Bool := match (s.out n).until_ with | some u => ahead u s.tb.q0 | none => false
/-- Output n lies in an active phase, or one begins at this instant, for a consumer's safe point (Table 3). -/
def State.quiet (s : State) (p : Nat) : Bool := [0, 1, 2, 3, 4, 5, 6, 7].all fun n => !fedBy p (s.out n).conf || !s.outActive n
/-- Every consumer of PLL p has reached its safe point (Table 3): a stream block boundary for PLL-F, the end of the running slot of every engine for PLL-G, every SRC 1 output inactive for PLL-T; those of PLL-S and PLL-W lie within a microsecond or a sample of each other, and the event names the instant (log 196). -/
def State.safePoint (s : State) (p : Nat) : Bool :=
  match p with
  | 0 => (!s.isOn 5 && !s.isOn 8) || s.rf.blkClk.all fun c => decide (s.tb.clk = c ∨ (c < s.tb.clk ∧ (s.tb.clk - c) % 654720 = 0))
  | 1 => s.gale.engs.all fun e => decide (e.2.busy ≤ s.tb.clk)
  | 3 => s.quiet 3
  | _ => true

/-- PLL_UNLOCK: a loss of lock with the reference present (R215, R216, R217, R224). -/
def execPllUnlock (t : Lapse) (p : Nat) (s : State) : Host.Outcome State Fault Refusal :=
  let s := s.elapse t
  let l := s.clk.pll p
  if p < 5 ∧ l.state = 2 ∧ s.clk.refOk then
    let s := s.setPll p { l with state := 3, since := some s.tb.clk, unlocks := satN 16 (l.unlocks + 1) }
    let s := s.setClk { s.clk with fault := setBit s.clk.fault p, direct := s.clk.direct || decide (p = 0) }
    .next (if p = 2 then s.setOpp 0 { s.clk.oppD1 with freq := 0 } else s)
  else .next s
/-- PLL_HOLD: every consumer is held at its safe point and the search starts; forced 1 ms after detection (R216). -/
def execPllHold (t : Lapse) (p : Nat) (s : State) : Host.Outcome State Fault Refusal :=
  let s := s.elapse t
  let l := s.clk.pll p
  let d := s.tb.clk - l.since.getD s.tb.clk
  let f : Bool := decide (654720 ≤ d) && !s.safePoint p
  if p < 5 ∧ l.state = 3 ∧ s.clk.refOk ∧ (s.safePoint p ∨ f) then
    let s := s.setPll p { l with
      state := 4, forced := f, holds := satN 16 (l.holds + 1), refLost := false, coastEnd := some s.tb.clk
      forceds := satN 16 (l.forceds + (if f then 1 else 0)), coastUs := satN 16 (d * 1000000 / 654720000) }
    .next (s.mapFed p heldOut)
  else .next s
/-- The highest frequency point, at most `want`, that a voltage point permits (R222, R224). -/
def highestPoint (want volt : Nat) : Nat := min want volt
/-- A search ends in band: consumers are released, and a relock after a loss raises PLL_UNLOCK (R214, R216, R226). `search` is the search time in 10 ns units. -/
def State.pllLocked (p band search : Nat) (s : State) : State :=
  let l := s.clk.pll p
  if p < 5 ∧ (l.state = 1 ∨ l.state = 4) ∧ s.isOn 11 ∧ s.clk.refOk then
    let lost := l.since.isSome
    let s := s.setPll p { l with state := 2, band := band % 64, relock := satN 16 search, fails := 0, since := none }
    let s := s.setClk { s.clk with direct := s.clk.direct && decide (p ≠ 0) }
    let s := if p = 2 then s.setOpp 0 { s.clk.oppD1 with freq := highestPoint s.clk.oppD1.req s.clk.oppD1.volt } else s
    let waits := fun (i : Nat) (o : Opp) => (if i = 1 ∨ i = 2 then p = 1 else p = 2) ∧ o.wish.isSome
    let s : State := [0, 1, 2, 3].foldl (fun (s : State) i =>
      let o := s.clk.opp i
      if waits i o then s.setOpp i { o with freq := highestPoint (o.wish.getD 0) o.volt, wish := none } else s) s
    let s := s.mapFed p s.releasedOut
    let l := s.clk.pll p
    if lost then s.raiseLimited true 0x701 p [word p, word l.coastUs, word l.relock, word l.forced.toNat] else s
  else s
/-- PLL_NO_LOCK: ten searches in a row failed (R219). -/
def execPllNoLock (t : Lapse) (p : Nat) (s : State) : Host.Outcome State Fault Refusal :=
  let s := s.elapse t
  let l := s.clk.pll p
  if p < 5 ∧ (l.state = 1 ∨ l.state = 4) then
    let s := s.setPll p { l with fails := 10 }
    .next ((s.setClk { s.clk with fault := setBit s.clk.fault 6 }).raiseLimited true 0x702 p [word p])
  else .next s
/-- The outputs of SRC 3 have no source: they complete the active phase and produce no edge until the reference is back (log 196). -/
def State.haltOcxo (s : State) : State :=
  [0, 1, 2, 3, 4, 5, 6, 7].foldl (fun (s : State) n => if (s.out n).conf.src = 3 then s.setOut n { s.out n with lead := none } else s) s
/-- They restart at an inactive phase. -/
def State.startOcxo (s : State) : State :=
  [0, 1, 2, 3, 4, 5, 6, 7].foldl (fun (s : State) n =>
    let o := s.out n
    if o.conf.clock ∧ o.conf.src = 3 ∧ o.state = 2 then s.setOut n { o with lead := some (s.phase0 n o.conf (o.conf.axis s.tb)) } else s) s
/-- OCXO_LOST: three 100 ns periods are missing (R220): every PLL coasts, one that was searching too, Tether counts on the coasting PLL-F, and outputs that were held run on the coasting clocks. -/
def execOcxoLost (t : Lapse) (s : State) : Host.Outcome State Fault Refusal :=
  let s := s.elapse t
  if s.clk.refOk then
    let s := s.setClk { s.clk with refOk := false, lostClk := some s.tb.clk, fault := setBit s.clk.fault 5 }
    let s : State := [0, 1, 2, 3, 4].foldl (fun (s : State) p =>
      let l := s.clk.pll p
      if l.state = 0 then s.setPll p { l with refLost := true }
      else s.setPll p { l with state := 3, refLost := true, since := some (l.since.getD s.tb.clk) }) s
    let s := s.setClk { s.clk with direct := false }
    let s := ((s.mapFed 0 s.releasedOut).mapFed 3 s.releasedOut).haltOcxo
    let s := s.setTsrc 2
    let s := s.putTb { s.tb with tqe := 0xFFFFFFFF, tqf := 0xFFFFFFFF }
    .next (s.raiseLimited true 0x703 0 [])
  else .next s
/-- OCXO_FAILED: 10 ms without the reference (R220). -/
def execOcxoFailed (t : Lapse) (s : State) : Host.Outcome State Fault Refusal :=
  let s := s.elapse t
  match s.clk.lostClk with
  | some c => if !s.clk.refOk ∧ c + 6547200 ≤ s.tb.clk then .next (s.setClk { s.clk with ocxo := 2 }) else .next s
  | none => .next s
/-- OCXO_BACK: the reference returns; every PLL goes through hold and relock (R220). `warm`: the ovens held their temperatures. -/
def execOcxoBack (t : Lapse) (warm : Bool) (s : State) : Host.Outcome State Fault Refusal :=
  let s := s.elapse t
  if !s.clk.refOk then
    let ms := (s.tb.clk - s.clk.lostClk.getD s.tb.clk) / 654720
    let s := s.setClk { s.clk with refOk := true, lostClk := none, ocxo := if warm && s.clk.warmed then 1 else 0, direct := decide (s.clk.pllF.state ≠ 0) }
    let s := s.startOcxo
    let s : State := [0, 1, 2, 3, 4].foldl (fun (s : State) p =>
      let l := s.clk.pll p
      if l.state = 0 then s.setPll p { l with refLost := false }
      else (s.setPll p { l with state := 4, refLost := false, coastEnd := if l.state = 3 then some s.tb.clk else l.coastEnd, forced := false, holds := satN 16 (l.holds + 1), coastUs := satN 16 ((s.tb.clk - l.since.getD s.tb.clk) * 1000000 / 654720000) }).mapFed p heldOut) s
    .next (s.raiseLimited true 0x704 0 [word ms])
  else .next s
/-- Seconds since the OCXO last powered up (Table 7). -/
def State.warmS (s : State) : Nat := satN 16 ((s.tb.clk - s.clk.powerClk) / 654720000)
/-- OCXO_WARM: both ovens held their set temperatures for 10 s (R210). -/
def execOcxoWarm (t : Lapse) (temp : Int) (s : State) : Host.Outcome State Fault Refusal :=
  let s := s.elapse t
  if s.clk.ocxo = 0 ∧ s.clk.refOk ∧ !s.clk.stopped then
    let first := !s.clk.warmed
    let s := s.setClk { s.clk with ocxo := 1, temp := temp, warmed := true }
    let s := s.putTb { s.tb with discH := 0, drift := 2000, driftBase := 2000 }
    .next (if first then s.raiseLimited true 0x705 0 [word s.warmS] else s)
  else .next s
/-- The PLL that clocks a domain at a frequency point: D1's F0 runs from the RC oscillator (Table 5). -/
def oppPll (i pt : Nat) : Option Nat := if i = 0 ∧ pt = 0 then none else if i = 1 ∨ i = 2 then some 1 else some 2
/-- A refused change counts (R223). -/
def State.refuseOpp (i : Nat) (s : State) : State :=
  let o := s.clk.opp i
  (s.setOpp i { o with refusals := satN 16 (o.refusals + 1) }).setClk
    { (s.setOpp i { o with refusals := satN 16 (o.refusals + 1) }).clk with fault := setBit s.clk.fault 7 }
/-- A frequency change (R221-R223): refused above the voltage point, waiting while its PLL is not locked. -/
def State.freqRequest (i pt : Nat) (s : State) : State :=
  let o := s.clk.opp i
  let s := s.setOpp i { o with req := pt }
  let o := s.clk.opp i
  if o.volt < pt then s.refuseOpp i
  else match oppPll i pt with
    | some p => if (s.clk.pll p).state = 2 then s.setOpp i { o with freq := pt, wish := none } else s.setOpp i { o with wish := some pt }
    | none => s.setOpp i { o with freq := pt, wish := none }
/-- FREQ_POINT_CHANGE. -/
def execFreqPointChange (t : Lapse) (i pt : Nat) (s : State) : Host.Outcome State Fault Refusal :=
  let s := s.elapse t
  if i < 4 ∧ pt < 3 then .next (s.freqRequest i pt) else .next s
/-- VOLT_POINT_CHANGE (R223, R488): a decrease reads at once and is refused below the frequency point; an increase reads once settled. -/
def execVoltPointChange (t : Lapse) (i pt : Nat) (s : State) : Host.Outcome State Fault Refusal :=
  let s := s.elapse t
  let o := s.clk.opp i
  if 4 ≤ i ∨ 3 ≤ pt then .next s
  else if pt < o.volt then
    if pt < o.freq then .next (s.refuseOpp i) else .next (s.setOpp i { o with volt := pt, settling := none })
  else .next (s.setOpp i { o with settling := if pt = o.volt then none else some pt })
/-- VOLTAGE_SETTLED: the supply lies within 10 mV of its new point (R488). -/
def execVoltageSettled (t : Lapse) (i : Nat) (s : State) : Host.Outcome State Fault Refusal :=
  let s := s.elapse t
  let o := s.clk.opp i
  match o.settling with
  | some v => if i < 4 then .next (s.setOpp i { o with volt := v, settling := none }) else .next s
  | none => .next s

/-- The refusal of a write of PLL-T FREQ (Table 9): outside 1-700 MHz, or one that an enabled aligned or SRC 1 output forbids. -/
def State.pllFreqRefusal (w : Word) (s : State) : Option Status :=
  let f := w.toNat % 2 ^ 46
  let outs := [0, 1, 2, 3, 4, 5, 6, 7]
  let bad := outs.any fun n =>
    let c := (s.out n).conf
    c.en && c.src == 1 &&
      ((bit c.cfg 41 && decide (f % (2 ^ 16 * c.divn) ≠ 0)) ||
        decide ((if n < 6 then 100000000 else 700000000) * 2 ^ 16 * c.divn < f))
  if f < 1000000 * 2 ^ 16 ∨ 700000000 * 2 ^ 16 < f then some .badParam
  else if bad then some .notPermitted
  else none
/-- An accepted write of PLL-T FREQ: PLL-T relocks and the SRC 1 outputs pass through HELD. -/
def State.setPllFreq (w : Word) (s : State) : State :=
  let l := s.clk.pllT
  let l := { l with freq := maskW (2 ^ 46 - 1) w }
  if s.isOn 11 ∧ l.state ≠ 0 then (s.setPll 3 { l with state := 1 }).mapFed 3 heldOut
  else s.setPll 3 l
/-- CLK_OCXO (Table 7). -/
def State.ocxoWord (s : State) : Word :=
  pack [put 47 46 s.clk.ocxo, putB 45 s.clk.refOk, putS 44 33 s.clk.temp, put 32 17 s.warmS]
/-- PLL_STAT (Table 10). -/
def Pll.stat (l : Pll) : Word := pack [put 47 45 l.state, putB 44 l.refLost, putB 43 l.forced, put 42 37 l.band]
/-- CLK_OPP (Table 11). -/
def Opp.word (o : Opp) : Word := pack [put 47 46 o.freq, put 45 44 o.volt, put 43 42 o.req, put 15 0 o.refusals]
/-- The step state words (Table 8). -/
def TimeBase.stepWord (tb : TimeBase) : Word :=
  let tb := tb.takePermit
  pack [put 47 46 tb.permit, put 45 24 tb.stepThr, put 23 16 tb.slewPpb, putB 15 tb.step.isSome, putB 14 tb.slew.isSome]

end Sys2Proof.Machine
end

