-- ==== Sys2Proof/Machine/SchedCalc.lean ====
section
/-! DEFINITION. The arithmetic of Tether's scheduler: leads (R228), the density limit (R244), window reservations (R268-R271), capacity (R243). -/
namespace Sys2Proof.Machine
open Sys2Proof

/-- The delivery class of an action (Table 1). -/
def classOf (action : Nat) : Nat := match action with | 0 => 0 | 1 => 1 | 2 => 2 | 3 => 2 | _ => 3
/-- The minimum lead of a class, µs; class 3 has none (Table 2). -/
def minLead (cls : Nat) : Option Nat := match cls with | 0 => some 20 | 1 => some 200 | 2 => some 50 | _ => none
/-- n µs in units of 2^-48 s, to the nearest. -/
def usUnits (n : Int) : Int := (2 * n * 2 ^ 48 + 10 ^ 6) / (2 * 10 ^ 6)

/-- The lead is below the class minimum (R228); stopped, receding or passed has an unbounded lead. -/
def State.leadShort (s : State) (e : Event) : Bool :=
  match minLead (classOf e.action) with
  | none => false
  | some us =>
    let near := fun q : Qval => decide (qdist q s.tb.q0 * 10 ^ 6 < us * 2 ^ 48)
    if e.qty = 0 then !behind e.target s.tb.q0 && near e.target
    else if !e.still e.target (s.value e.qty) && e.target != s.value e.qty then false
    else if (s.qty e.qty).stopped ∨ !s.approaches e then false
    else match s.predict e e.target with
      | some p => near p
      | none => false

/-! Intervals and windows of 10 µs, counted from the epoch with the rounding of R140. -/

/-- The first instant of window w. -/
def winStart (w : Int) : Int := (2 * w * 2 ^ 48 + 100000) / 200000
/-- The window of an instant. -/
def winOf (u : Int) : Int :=
  let w := (u + 1) * 100000 / 2 ^ 48
  if winStart w ≤ u then w else w - 1
/-- Occurrences per interval of a repeating event, ⌈10 µs / P⌉; 1 for a single one. -/
def Event.perWindow (e : Event) : Nat :=
  if e.count = 1 ∨ e.step = 0 then 1 else (2 ^ 48 + 100000 * e.step.toNat - 1) / (100000 * e.step.toNat)
/-- The last target, none for an unlimited event. -/
def Event.lastTarget (e : Event) : Option Int :=
  if e.count = 1 then some e.target.toNat
  else if e.count = 0 then none
  else some (e.tk e.count).toNat
/-- The interval of the first instant of an event's range: that of its first target or, under BACKWARD, of its last. -/
def Event.firstWin (e : Event) : Int :=
  winOf (match e.lastTarget with | some u => min u e.target.toNat | none => e.target.toNat)
/-- A pending event is sought further. -/
def Event.live (e : Event) : Bool := e.sought
/-- The interval w of R244 lies in an event's range. -/
def Event.covers (e : Event) (w : Int) : Bool :=
  decide (e.firstWin ≤ w) && (match e.lastTarget with | some u => decide (w ≤ winOf (max u e.target.toNat)) | none => true)
/-- Occurrences with Q0 targets in interval w. -/
def densityAt (evs : List Event) (w : Int) : Nat :=
  evs.foldl (fun n e => if e.qty = 0 ∧ e.live ∧ e.covers w then n + e.perWindow else n) 0
/-- The limit of R244 holds with a new event: the load can only peak where a range begins. -/
def densityOk (evs : List Event) (e : Event) : Bool :=
  e.qty != 0 ||
  (e :: evs).all fun x => x.qty != 0 || !x.live || !e.covers (max x.firstWin e.firstWin) ||
    decide (densityAt (e :: evs) (max x.firstWin e.firstWin) ≤ 160)

/-- The links on which a class-1 event reserves (R272). -/
def State.linksOf (s : State) (e : Event) : List Nat :=
  let l := fld e.sink 47 45
  if bit e.sink 44 then (match (s.lnk l).pair with | some m => [l, m] | none => [l]) else [l]
/-- Words that a frame of an event costs (R268). -/
def Event.cost (e : Event) : Nat := e.payload.length + 6
/-- Frames that a Q0 event reserves in window w, the window ⌊(t_r − 150 µs) / 10 µs⌋ of R268. -/
def Event.framesIn (e : Event) (w : Int) : Nat :=
  let lo := winStart (w + 15)
  let hi := winStart (w + 16)
  let t1 : Int := e.target.toNat
  let p : Int := max 1 e.step.toNat
  let k : Int := if lo ≤ t1 then 0 else (lo - t1 + p - 1) / p
  let n : Int := if e.xdir = 1 then 1 else e.count
  if (n = 0 ∨ k < n) ∧ t1 + k * p < hi ∧ (k = 0 ∨ n ≠ 1) then (if e.xdir = 1 then 1 else e.perWindow) else 0
/-- The class-1 events on link l that hold a reservation: on Q0 (fixed) or on another quantity (floating). -/
def State.class1 (s : State) (evs : List Event) (l : Nat) (fixed : Bool) : List Event :=
  evs.filter fun e => e.action == 1 && e.live && (s.linksOf e).contains l && ((e.qty == 0) == fixed)
/-- Fixed words reserved in window w. -/
def fixedIn (es : List Event) (w : Int) : Nat := es.foldl (fun n e => n + e.cost * e.framesIn w) 0
/-- Frames reserved in the 16 windows from w on. -/
def framesFrom (es : List Event) (w : Int) : Nat :=
  (List.range 16).foldl (fun n i => es.foldl (fun n e => n + e.framesIn (w + i)) n) 0
/-- Words reserved in the floating part (R270). -/
def floatWords (es : List Event) : Nat := es.foldl (fun n e => n + e.cost) 0
/-- How many occurrences of an event have to be looked at so that every pattern of windows has been seen: all of them where the event or the others end, otherwise one common period. -/
def lookAt (es : List Event) (e : Event) : Nat :=
  if e.count = 1 ∨ e.xdir = 1 then 1
  else if e.count ≠ 0 then e.count
  else
    let p := max 1 e.step.toNat
    let period := es.foldl (fun n x => if x.count = 0 then Nat.lcm n (max 1 x.step.toNat) else n) (Nat.lcm p (2 ^ 48))
    let far := es.foldl (fun n x => max n (match x.lastTarget with | some u => u.toNat | none => x.target.toNat)) e.target.toNat
    (far - e.target.toNat + period) / p + 2
/-- A test for every i below n, from i on. -/
def allFrom (f : Nat → Bool) (i : Nat) : Nat → Bool
  | 0 => true
  | n + 1 => f i && allFrom f (i + 1) n
/-- The window of occurrence i + 1 of a Q0 event. -/
def Event.winK (e : Event) (i : Nat) : Int := winOf (e.target.toNat + i * e.step.toNat) - 15
/-- The reservations of a class-1 event fit on link l (R269-R271). -/
def State.linkRoom (s : State) (e : Event) (l : Nat) : Bool :=
  let fx := s.class1 s.sch.events l true
  let fl := s.class1 s.sch.events l false
  let share := (s.lb l).floatWords
  let all := if e.qty = 0 then e :: fx else fx
  let nFloat := fl.length + (if e.qty = 0 then 0 else 1)
  let seen := fun (x : Event) => allFrom (fun i =>
      decide (e.qty ≠ 0 ∨ fixedIn all (x.winK i) ≤ 44 - share) &&
      (List.range 16).all fun j => decide (framesFrom all (x.winK i - j) + nFloat ≤ 48)) 0 (lookAt all x)
  if e.qty = 0 then seen e
  else decide (floatWords fl + e.cost ≤ share) && decide (nFloat ≤ 48) && fx.all seen
/-- The largest value of a function below n. -/
def maxBelow (f : Nat → Nat) : Nat → Nat
  | 0 => 0
  | n + 1 => max (f n) (maxBelow f n)
/-- FIX_PEAK and GW_PEAK of a link (Table 9), over the windows still ahead. -/
def State.peaks (s : State) (l : Nat) : Nat × Nat :=
  let fx := s.class1 s.sch.events l true
  let fl := (s.class1 s.sch.events l false).length
  let w0 := winOf (uOf s.tb.q0)
  let peak := fun (g : Int → Nat) => fx.foldl (fun m x => max m (maxBelow (fun i => if w0 < x.winK i then g (x.winK i) else 0) (lookAt fx x))) 0
  (peak (fixedIn fx), peak (framesFrom fx) + fl)

/-- Events of a partner. -/
def State.pendingOf (s : State) (p : Nat) : Nat := (s.sch.events.filter fun e => e.partner == p).length
/-- Payload words in use (R243). -/
def State.poolUsed (s : State) : Nat := s.sch.events.foldl (fun n e => n + e.payload.length) 0
/-- The lowest slot no pending event holds. -/
def freeSlot (evs : List Event) (n : Nat) : Nat → Nat
  | 0 => n
  | fuel + 1 => if evs.any (fun e => e.slot == n) then freeSlot evs (n + 1) fuel else n

end Sys2Proof.Machine
end

