-- ==== Sys2Proof/Machine/Sched.lean ====
section
/-! DEFINITION. Tether's scheduler: acceptance (R229-R232, R243, R244), releases and their outcomes (R233-R235, R240-R242, R250), cancellation and query (R246-R249), outages (R253-R255), the quantity mirror (R258). -/
namespace Sys2Proof.Machine
open Sys2Proof

/-- What becomes of an occurrence: OUTCOME, occurrence number, the instant of words 3 and 4, ERR and ALLOW_PS in ps, flags (Table 6 of R242). -/
structure Result where
  outcome : Nat
  occ     : Nat
  rel     : Qval
  err     : Int := 0
  allow   : Nat := 0
  nMissed : Nat := 0
  clkq    : Bool := false
  step    : Bool := false
  outage  : Bool := false
  errKnown : Bool := false
  accEx   : Bool := false
  invalid : Bool := false
  restart : Bool := false
  deriving DecidableEq, Repr

/-- The record of a result (R241, Table 6): subtype word and ten body words. -/
def resultWords (e : Event) (r : Result) (final : Bool) : List Word :=
  [pack [put 47 40 (if r.outcome = 3 ∨ r.outcome = 5 then 4 else 3)],
    pack [put 47 32 e.tag, put 31 29 r.outcome, put 28 25 e.action, put 24 21 e.qty, putB 20 final, putB 19 r.clkq, putB 18 r.step,
      putB 17 r.outage, putB 16 r.errKnown, putB 15 r.accEx, putB 14 r.invalid, putB 13 r.restart],
    word e.jsn, word r.occ, cyc r.rel, frc r.rel, sword (sat 48 r.err), pack [put 47 16 (satN 32 r.allow)],
    pack [put 47 24 r.nMissed, put 23 0 e.skipped],
    pack [put 47 24 (if final then satN 24 e.nDel else 0), put 23 0 (if final then satN 24 e.nLate else 0)],
    pack [put 47 24 (if final then satN 24 e.nEarly else 0), put 23 0 (if final then satN 24 e.nOther else 0)]]
/-- A pending event by its JSN. -/
def State.event (s : State) (jsn : Nat) : Option Event := s.sch.events.find? fun e => e.jsn == jsn
/-- Replace a pending event. -/
def State.setEvent (e : Event) (s : State) : State :=
  (s.putSch { s.sch with events := s.sch.events.map fun x => if x.jsn = e.jsn then e else x })
/-- Nothing of the event is still to come. -/
def Event.over (e : Event) : Bool := !e.sought && e.sent.isEmpty
/-- Count an outcome, in the event and in the SCH counters (Table 9). -/
def Event.tally (e : Event) (r : Result) : Event :=
  match r.outcome with
  | 0 => { e with nDel := e.nDel + 1 }
  | 1 => { e with nLate := e.nLate + 1 }
  | 2 => { e with nEarly := e.nEarly + 1 }
  | 3 => { e with nOther := e.nOther + r.nMissed }
  | _ => { e with nOther := e.nOther + 1 }
/-- The SCH counters after an outcome. -/
def Sched.tally (c : Sched) (r : Result) : Sched :=
  match r.outcome with
  | 1 => { c with cntLate := satN 48 (c.cntLate + 1) }
  | 2 => { c with cntEarly := satN 48 (c.cntEarly + 1) }
  | 3 => { c with cntMiss := satN 48 (c.cntMiss + r.nMissed) }
  | 5 => { c with cntMiss := satN 48 (c.cntMiss + 1) }
  | _ => c
/-- The event ends with its final record: its slot, payload and pin return (R241, R243, R261). -/
def State.endEvent (e : Event) (r : Result) (s : State) : State :=
  let s := s.record e.partner false (resultWords e r true)
  ((s.putJrn { s.jrn.unpin .event e.jsn with marks := tput 0 e.slot 0 s.jrn.marks, markRing := s.jrn.markRing.filter fun m => m.1 ≠ e.slot }).putSch { s.sch with
      events := s.sch.events.filter fun x => x.jsn ≠ e.jsn
      ended := ⟨e.jsn, e.partner, r.outcome, e.action, e.qty, e.last, e.nDel, e.nLate, e.nEarly, e.nOther⟩ :: s.sch.ended.filter fun x => x.jsn ≠ e.jsn })
/-- The cancellation's own final record (R247). -/
def Event.cancelResult (e : Event) (now : Qval) : Result := { outcome := 4, occ := e.last, rel := now }
/-- An occurrence's result is reported as REPORT selects; the last one closes the event (R240, R241). `e` is the event as it now stands. -/
def State.report (e : Event) (r : Result) (s : State) : State :=
  let e := e.tally r
  let s := s.putSch (s.sch.tally r)
  if e.over ∧ !e.cancelled then s.endEvent e r
  else
    let wanted := e.report = 0 ∨ (e.report = 1 ∧ r.outcome ≠ 0)
    let s := if wanted then
        if s.mayForm e.partner false 11 then
          (s.recordCounted e.partner false (resultWords e r false)).setEvent { e with skipped := 0 }
        else s.setEvent { e with skipped := satN 24 (e.skipped + 1) }
      else s.setEvent e
    match s.event e.jsn with
    | some e => if e.over then s.endEvent e (e.cancelResult s.tb.q0) else s
    | none => s

/-! SCHED_ADD. -/

/-- PLEN's limit by action (Table 3). -/
def plenMax (action : Nat) : Nat := match action with | 1 => 16 | 2 => 4 | _ => 0
/-- Refusal FIELD (Table 4). -/
def schedField (ps : List Word) : Bool :=
  let w := arg ps 0
  let act := fld w 31 28
  let xd := fld w 23 22
  let plen := fld w 18 14
  let step := mkQ (arg ps 3) (arg ps 4)
  let count := fld (arg ps 5) 47 24
  decide (ps.length < 8) || decide (4 < act) || decide (xd = 3) || decide (fld w 20 19 = 3) || decide (plenMax act < plen) ||
  decide (ps.length ≠ 8 + plen) || bit (arg ps 6) 47 || (decide (step = 0) && decide (count ≠ 1)) ||
  (decide (xd = 2) && decide (count ≠ 1)) || (decide (fld w 27 24 = 0) && decide (step ≠ 0) && decide (step.toNat * 10 ^ 6 < 2 ^ 48)) ||
  (decide (act = 3) && decide (fld (arg ps 7) 47 40 = 0))
/-- The event that a SCHED_ADD describes. -/
def schedEvent (partner jsn slot : Nat) (ps : List Word) (v : Qval) : Event :=
  let w := arg ps 0
  let tgt := mkQ (arg ps 1) (arg ps 2)
  { jsn := jsn, partner := partner, slot := slot, tag := fld w 47 32, action := fld w 31 28, qty := fld w 27 24
    xdir := fld w 23 22, lateOk := bit w 21, report := fld w 20 19, target := tgt, step := mkQ (arg ps 3) (arg ps 4)
    count := fld (arg ps 5) 47 24, bound := (arg ps 6).toNat, sink := arg ps 7, payload := ps.drop 8, side := ahead tgt v }
/-- The sample ports that a SINK names. -/
def portsOf (sink : Word) : List Nat := [0, 1, 2, 3, 4, 5, 6, 7].filter fun p => bit sink (47 - p)
/-- Refusal SINK (Table 4). -/
def State.sinkHeld (s : State) (e : Event) : Bool :=
  match e.action with
  | 0 => let o := s.out (fld e.sink 47 45); !o.conf.scheduled || o.wait.isSome
  | 1 => let l := s.lnk (fld e.sink 47 45); !l.en || (bit e.sink 44 && l.pair.isNone)
  | 2 => !((s.core (fld e.sink 47 47)).slot (fld e.sink 46 41)).loaded
  | 3 => (portsOf e.sink).any fun p => !(s.smp p).en
  | _ => false
/-- A failed part named as the sink, with no other to take it (R338): its CLASS. -/
def State.sinkFailed (s : State) (e : Event) : Option Nat :=
  match e.action with
  | 1 => if (s.linksOf e).all fun l => (s.lnk l).failed then some 0x014 else none
  | 2 => if (s.core (fld e.sink 47 47)).failed then some 0x012 else none
  | _ => none
/-- PASSED (Table 4): the target is already behind in the sense of FORWARD or BACKWARD. -/
def State.passed (s : State) (e : Event) : Bool :=
  (e.xdir == 0 && behind e.target (s.value e.qty)) || (e.xdir == 1 && ahead e.target (s.value e.qty))
/-- FULL (Table 4, R243). -/
def State.schedFull (s : State) (e : Event) : Bool :=
  decide (983040 ≤ s.sch.events.length) || decide (s.sch.pendMax ≤ s.pendingOf e.partner) ||
  decide (1048576 < s.poolUsed + e.payload.length)
/-- The links whose windows cannot take the event (R269-R272). -/
def State.fullLinks (s : State) (e : Event) : List Nat :=
  if e.action = 1 then (s.linksOf e).filter fun l => !s.linkRoom e l else []
/-- SCHED_ADD (0x090, R229-R232). -/
def opSchedAdd : OpSpec :=
  { code := 0x090, why := 0x009
    eval := fun k s =>
      let slot := freeSlot s.sch.events 0 s.sch.events.length
      let e := schedEvent k.partner 0 slot k.ps (s.value (fld (arg k.ps 0) 27 24))
      if schedField k.ps then badParam 0x001
      else if s.kind e.qty = 15 then notPermitted 0x002
      else if s.sinkHeld e then notPermitted 0x003
      else match s.sinkFailed e with
      | some c => reason .fault c
      | none =>
        if s.leadShort e then reason .tooLate 0x004
        else if s.passed e then reason .tooLate 0x005
        else if s.schedFull e then reason .noCapacity 0x006
        else if !densityOk s.sch.events e then reason .noCapacity 0x007
        else match s.fullLinks e with
        | l :: _ =>
          { reason .noCapacity 0x008 with
            act := fun _ s => s.setLb l { s.lb l with cntWindow := satN 24 ((s.lb l).cntWindow + 1) } }
        | [] =>
          { status := .accepted, words := [pack [put 47 27 (s.pendingOf k.partner + 1), putB 26 e.side]]
            slot := some slot, pins := [.event], promise := 1
            act := fun jsn s => (s.putSch { s.sch with events := s.sch.events ++ [{ e with jsn := jsn }] }) } }
/-- SCHED_ADD. -/
def execSchedAdd (t : Lapse) (env : Env) (ps : List Word) (s : State) : Host.Outcome State Fault Refusal :=
  runOp opSchedAdd t env ps s

/-! Release. -/

/-- Occurrences processed, by whole millisecond, over the last 100 ms (Table 12). -/
def Sched.note (c : Sched) (ms n : Nat) : Sched :=
  let keep := c.recent.filter fun x => ms < x.1 + 100
  { c with recent := match keep with
      | (m, k) :: rest => if m = ms then (m, k + n) :: rest else (ms, n) :: keep
      | [] => [(ms, n)] }
/-- The event after its occurrence has been released: the next one is sought, or none (R230); after an outage `jump` names it and the caller settles whether it exists. -/
def Event.advance (e : Event) (rel : Qval) : Event :=
  let nxt := e.jump.getD (e.occ + 1)
  { e with last := e.occ, lastRel := some rel, armed := false, lateOut := false, jump := none, hit := none, occ := nxt
           sought := e.sought && (e.jump.isSome || e.count == 0 || decide (nxt ≤ e.count)) }
/-- Write the dispatch mark and count the release (R250). -/
def State.mark (e : Event) (s : State) : State :=
  ((s.putJrn { s.jrn with markRing := s.jrn.markRing ++ [(e.slot, e.occ)] }).putSch { (s.sch.note (msOf s.tb.q0) 1) with cntRel := satN 48 (s.sch.cntRel + 1) })
/-- The work of an occurrence reaches its sink (Table 1): `rel` the release, `tx` the crossing instant. -/
def State.deliver (e : Event) (rel tx : Qval) (late clkq : Bool) (s : State) : State :=
  match e.action with
  | 0 => s.leadEdge (fld e.sink 47 45) rel
  | 2 => s.pushStart (fld e.sink 47 47) ⟨fld e.sink 46 41, e.jsn, e.occ, tx, e.payload, late, clkq⟩
  | 3 => (portsOf e.sink).foldl (fun (s : State) p => s.startPort p tx) s
  | _ => s
/-- Tether may release: no outage, D11 on and not going down, room in the mark ring (R18, R250, R253, R326). -/
def State.mayRelease (s : State) : Bool :=
  s.pwr.ready && s.isOn 11 && !s.pwr.timeDown && decide (s.jrn.markRing.length < 65536)
/-- How long after the crossing a class may be released and still be on time, in units: a counter clock for an edge, 20 ns after an update, the class window otherwise (Tables 2, 5). -/
def slack (cls : Nat) (byUpdate : Bool) : Int :=
  match cls with
  | 0 => if byUpdate then unitsOfPs 20000 else 429917
  | 2 => usUnits 5
  | _ => usUnits 1000
/-- Release the occurrence being sought now, with its crossing instant: mark, work, outcome, record. `invalid` and `outage` set the flags of R235 and R253; `late` the outcome. -/
def State.releaseAt (e : Event) (tx : Qval) (byUpdate late step invalid outage : Bool) (s : State) : State :=
  let cls := classOf e.action
  let held := decide (slack cls byUpdate < qdist s.tb.q0 tx)
  let first : Qval := match e.lastRel with | some q => qadd q (usUnits 1) | none => tx
  let rel0 := if byUpdate ∨ held ∨ late ∨ invalid ∨ outage then s.tb.q0 else tx
  let tooSoon := e.lastRel.isSome && ahead first rel0
  let rel := if tooSoon then first else rel0
  let late := late || held || tooSoon || invalid || outage
  let clkq := s.clk.direct
  let s := (s.mark e).deliver e rel tx late clkq
  let err : Int := if invalid then psOfUnits (qdist rel (s.qty (s.rootOf e.qty)).fell) else psOfUnits (qdist rel (if e.qty = 0 then e.goal else tx))
  let r : Result := { outcome := if late then 1 else 0, occ := e.occ, rel := rel, err := err, errKnown := !invalid && (e.qty == 0 || !outage || Config.freeBit s.fresh), clkq := clkq, step := step, invalid := invalid, outage := outage }
  let e' := e.advance rel
  (s.setEvent e').report e' r
/-- The target lay in the part of the timeline that a forward step passed over (R252). -/
def State.steppedOver (s : State) (q : Qval) : Bool :=
  match s.tb.stepSpan with
  | some (old, new) => ahead new old && !behind q old && behind q new
  | none => false
/-- The occurrence being sought is due: its target is reached, and its predecessor lies 1 µs back (R234). -/
def State.due (s : State) (e : Event) : Bool :=
  s.reaches e && (match e.lastRel with | some q => !behind s.tb.q0 (qadd q (usUnits 1)) | none => true)
/-- Release a due occurrence of class 0, 2 or 3 (R233): on Q0 at the target, otherwise at the predicted crossing or on the update. -/
def State.releaseDue (e : Event) (s : State) : State :=
  let h := s.crossing e
  let st := !h.byUpdate && s.steppedOver h.tx
  State.releaseAt e h.tx h.byUpdate (h.late || st) st h.invalid false (s.putFresh (s.fresh + 1))
/-- The sinks of two events' dispatch queues are the same (R262). -/
def Event.sameQueue (a b : Event) : Bool :=
  a.action == b.action &&
  (match a.action with
   | 0 => fld a.sink 47 45 == fld b.sink 47 45
   | 2 => fld a.sink 47 47 == fld b.sink 47 47
   | _ => (portsOf a.sink).any (portsOf b.sink).contains)
/-- No other occurrence due on the same sink comes first, by crossing instant, then JSN (R234, R245). -/
def State.isFirst (s : State) (e : Event) : Bool :=
  s.sch.events.all fun x => x.jsn == e.jsn || !e.sameQueue x || !s.due x ||
    ahead (s.crossing x).tx (s.crossing e).tx || ((s.crossing x).tx == (s.crossing e).tx && decide (e.jsn < x.jsn))
/-- OCCURRENCE_RELEASE: the occurrence being sought has come due (R233-R235). -/
def execOccurrenceRelease (t : Lapse) (jsn : Word) (s : State) : Host.Outcome State Fault Refusal :=
  let s := s.elapse t
  match s.event jsn.toNat with
  | some e => if e.action ≠ 1 ∧ s.mayRelease ∧ s.due e ∧ s.isFirst e then .next (s.releaseDue e) else .next s
  | none => .next s
/-- OCCURRENCE_ARM: a class-0 or class-2 occurrence whose release lies at most 10 µs ahead enters its sink's queue of 320 (R262). -/
def execOccurrenceArm (t : Lapse) (jsn : Word) (s : State) : Host.Outcome State Fault Refusal :=
  let s := s.elapse t
  match s.event jsn.toNat with
  | some e =>
    let near : Bool := match s.predict e e.goal with | some p => decide (qdist p s.tb.q0 ≤ usUnits 10) | none => false
    let queue := (s.sch.events.filter fun x => x.armed && e.sameQueue x).length
    if (e.action = 0 ∨ e.action = 2 ∨ e.action = 3) ∧ e.sought ∧ e.st = .pending ∧ !e.armed ∧ near ∧ queue < 320 ∧ s.isOn 11 then
      .next (s.setEvent { e with armed := true })
    else .next s
  | none => .next s

/-! Cancelling and querying. -/

/-- The events that a SCHED_CANCEL selects (R246). -/
def State.selected (s : State) (p : Nat) (w : Word) (jsn : Nat) : List Event :=
  s.sch.events.filter fun e =>
    match fld w 47 46 with
    | 0 => e.jsn == jsn
    | 1 => e.partner == p && e.tag == fld w 45 30
    | 2 => e.partner == p
    | _ => e.partner == p && e.qty == fld w 29 26
/-- Cancel one event at C (R247): an occurrence due in this counter clock is released first; the one being sought is removed and counted; the final record follows once nothing is in flight. -/
def State.cancelEvent (jsn : Nat) (s : State) : State :=
  let s : State := match s.event jsn with
    | some e => if e.action ≠ 1 ∧ s.mayRelease ∧ s.due e then s.releaseDue e else s
    | none => s
  match s.event jsn with
  | some e =>
    if e.sought then
      let e := { e with sought := false, cancelled := true, armed := false, nOther := e.nOther + 1 }
      let s := s.setEvent e
      if e.over then s.endEvent e (e.cancelResult s.tb.q0) else s
    else s
  | none => s
/-- SCHED_CANCEL (0x091, R246-R248). -/
def opSchedCancel : OpSpec :=
  { code := 0x091
    eval := fun k s =>
      let w := arg k.ps 0
      let jsn := (arg k.ps 1).toNat
      let sel := s.selected k.partner w jsn
      let foreign := fld w 47 46 = 0 ∧ (s.part k.partner).rights < 3 ∧
        (sel.any (fun e => e.partner != k.partner) ∨ s.sch.ended.any (fun e => e.jsn == jsn && e.partner != k.partner))
      if k.ps.length ≠ 2 then badParam 0
      else if foreign then notPermitted 0
      else
        let live := sel.filter Event.live
        let flight := sel.foldl (fun n e => n + (e.sent.filter fun x => ahead x.tr s.tb.q0).length) 0
        let one := if fld w 47 46 = 0 then sel.head? else none
        let lastOf := fun (e : Event) =>
          let e' := if e.action ≠ 1 ∧ s.mayRelease ∧ s.due e then e.advance s.tb.q0 else e
          if e'.last = 0 then [0, 0, 0] else [word e'.last, cyc (e.tk e'.last), frc (e.tk e'.last)]
        let tail := match one with | some e => lastOf e | none => [0, 0, 0]
        doneWith (pack [put 47 27 live.length, put 26 6 flight] :: tail) fun _ s =>
          live.foldl (fun (s : State) e => s.cancelEvent e.jsn) s }
/-- SCHED_CANCEL. -/
def execSchedCancel (t : Lapse) (env : Env) (ps : List Word) (s : State) : Host.Outcome State Fault Refusal :=
  runOp opSchedCancel t env ps s
/-- STATE of a pending event (R249): WAIT_TIME, WAIT_VALID, SENT while a frame awaits its release, PENDING otherwise. -/
def State.eventState (s : State) (e : Event) : Nat :=
  if e.st = .waitTime then 3
  else if !s.isValid e.qty then 4
  else if e.sent.any fun x => ahead x.tr s.tb.q0 then 2
  else 1
/-- SCHED_QUERY (0x092, R249). -/
def opSchedQuery : OpSpec :=
  { code := 0x092, rights := 1, compact := true, reads := true
    eval := fun k s =>
      let jsn := (arg k.ps 0).toNat
      let sup := (s.part k.partner).rights = 3
      let held := (s.jrn.find jsn).isSome
      if k.ps.length ≠ 1 then badParam 0
      else match s.event jsn, s.sch.ended.find? (fun e => e.jsn == jsn) with
      | some e, _ =>
        if e.partner ≠ k.partner ∧ !sup then notPermitted 0
        else
          let g := e.goal
          doneWith [pack [put 47 45 (s.eventState e), put 41 38 e.action, put 37 34 e.qty], word e.last, cyc g, frc g,
            pack [put 47 24 (satN 24 e.nDel), put 23 0 (satN 24 e.nLate)], pack [put 47 24 (satN 24 e.nEarly), put 23 0 (satN 24 e.nOther)]] fun _ s => s
      | none, some e =>
        if e.partner ≠ k.partner ∧ !sup then notPermitted 0
        else if !held then doneWith [0, 0, 0, 0, 0, 0] fun _ s => s
        else doneWith [pack [put 47 45 5, put 44 42 e.outcome, put 41 38 e.action, put 37 34 e.qty], word e.last, 0, 0,
            pack [put 47 24 (satN 24 e.nDel), put 23 0 (satN 24 e.nLate)], pack [put 47 24 (satN 24 e.nEarly), put 23 0 (satN 24 e.nOther)]] fun _ s => s
      | none, none => doneWith [0, 0, 0, 0, 0, 0] fun _ s => s }
/-- SCHED_QUERY. -/
def execSchedQuery (t : Lapse) (env : Env) (ps : List Word) (s : State) : Host.Outcome State Fault Refusal :=
  runOp opSchedQuery t env ps s

/-! Outages. -/

/-- Occurrences from the one sought on whose targets have been passed (R253). -/
def State.passedCount (s : State) (e : Event) : Nat :=
  let gone := if e.xdir = 1 then qdist e.goal (s.value e.qty) else qdist (s.value e.qty) e.goal
  let n := if e.step = 0 ∨ e.xdir = 2 then 1 else gone.toNat / e.step.toNat + 1
  if e.count = 0 then n else min n (e.count + 1 - e.occ)
/-- A run of occurrences ends MISSED_OUTAGE in one record. -/
def State.missed (jsn occ n : Nat) (restart : Bool) (s : State) : State :=
  match s.event jsn with
  | some e => if n = 0 then s
    else s.report e { outcome := 3, occ := occ, rel := s.tb.q0, nMissed := n, outage := true, restart := restart }
  | none => s
/-- One event after an outage (R253, R254). An event whose quantity restarted ends once nothing of it is in flight, so that its MISSED record is the final one. A late class-1 occurrence leaves in the next window of its link. -/
def State.reevaluate (jsn : Nat) (s : State) : State :=
  match s.event jsn with
  | none => s
  | some e =>
    if e.st = .restarted then
      if !e.sent.isEmpty then s
      else if e.sought then
        let e := { e with sought := false, st := .pending }
        (s.setEvent e).missed jsn e.occ 1 true
      else s.setEvent { e with st := .pending }
    else if e.st = .outage ∨ (e.st = .waitTime ∧ s.tb.tsrc ≠ 0) then
      let e : Event := { e with st := .pending, hit := none }
      if !e.sought ∨ e.still e.goal (s.value e.qty) then s.setEvent e
      else
        let n := s.passedCount e
        let k := e.occ
        let nxt := k + n
        let more := e.count == 0 || decide (nxt ≤ e.count)
        if e.lateOk ∧ e.action ≠ 1 then
          let e := { e with jump := some nxt, sought := more || decide (1 < n) }
          let tx := if e.qty = 0 then e.goal else qadd s.tb.q0 (-(Config.freeNat s.fresh : Int))
          let s := State.releaseAt e tx false true false false true ((s.setEvent e).putFresh (s.fresh + 1))
          match s.event jsn with
          | some e => (s.setEvent { e with sought := more }).missed jsn (k + 1) (n - 1) false
          | none => s
        else if e.lateOk then
          State.missed jsn (k + 1) (n - 1) false (s.setEvent { e with lateOut := true, jump := some nxt })
        else
          (s.setEvent { e with occ := nxt, sought := more }).missed jsn k n false
    else s
/-- EVENT_REEVALUATION: after ready, every event that has not ended is judged against the present value of its quantity (R253, R254). -/
def execEventReevaluation (t : Lapse) (s : State) : Host.Outcome State Fault Refusal :=
  let s := s.elapse t
  if s.pwr.ready ∧ s.isOn 11 then
    .next ((s.sch.events.map fun e => e.jsn).foldl (fun (s : State) j => s.reevaluate j) s)
  else .next s

/-! Registers and the mirror. -/

/-- The mirror entry of Qn at a sweep (Table 13). -/
def State.mirror (s : State) (n : Nat) : List Word :=
  let q := s.qty n
  let v := s.value n
  let seq := s.sch.mseq
  [pack [put 47 32 seq, put 31 28 (s.kind n), putB 27 (n == 0 || q.valid), putB 26 (n != 0 && q.stopped), putB 25 (n != 0 && q.overrate),
      putB 24 (n != 0 && q.accSat)], cyc v, frc v, if n = 0 then 0x000001000000#48 else sword (s.rateNow n), if n = 0 then 0 else sword q.acc,
    cyc s.tb.q0, frc s.tb.q0, pack [put 47 32 seq]]
/-- WHEEL_SWEEP: every 2^-16 s of Tether time the mirror is written (R258), unless D7 is asked to be in retention (R480). -/
def execWheelSweep (t : Lapse) (s : State) : Host.Outcome State Fault Refusal :=
  let s := s.elapse t
  let idx := s.tb.q0.toNat / 2 ^ 32
  if s.isOn 11 ∧ idx ≠ s.sch.swept ∧ tget 0 7 s.pwr.req ≠ 1 then
    let s := s.putSch { s.sch with swept := idx, mseq := (s.sch.mseq + 1) % 2 ^ 16 }
    .next ((List.range 16).foldl (fun (s : State) n => s.memWrites ((Config.qMirror 0).toNat + 8 * n) (s.mirror n)) s)
  else .next s
/-- The rate of R245 in occurrences per second. -/
def State.dispRate (s : State) : Nat := if s.clk.direct then 4194304 else 16777216
/-- SCH_STAT (Table 11). -/
def State.schStat (s : State) : Word :=
  pack [put 47 27 s.sch.events.length, putB 26 s.clk.direct, putB 25 (s.sch.events.any fun e => e.st == .waitTime),
    put 24 4 (1048576 - s.poolUsed)]
/-- SCH_UTIL (Table 12): the percentages rounded down. -/
def State.schUtil (s : State) : Word :=
  let ms := msOf s.tb.q0
  let rs := s.sch.recent.filter fun x => ms < x.1 + 100
  pack [put 47 41 (satN 7 ((rs.foldl (fun n x => n + x.2) 0) * 1000 / s.dispRate)),
    put 40 34 (satN 7 ((rs.foldl (fun n x => max n x.2) 0) * 100000 / s.dispRate))]
/-- QPENDn (Table 9). -/
def State.qpend (s : State) (n : Nat) : Word := pack [put 47 27 (s.sch.events.filter fun e => e.qty == n).length]

end Sys2Proof.Machine
end

