-- ==== Sys2Proof/Machine/Lendi.lean ====
section
/-! DEFINITION. The Lendi links: frames (R369), windows (R367, R368, R370), credits (R371), time transfer (R373-R375), link states and failure (R376, R377), pairs (R378), class-1 delivery and its outcomes (R236-R239, R255, R272, R273, R380), unscheduled frames (R381, R382), configuration (R383). -/
namespace Sys2Proof.Machine
open Sys2Proof

/-- A frame towards the gateway: header, words, check word (R369). -/
def lendiFrame (type : Nat) (resent : Bool) (dest : Nat) (ws : List Word) : List Word :=
  let body := pack [put 47 44 type, put 43 38 (ws.length + 2), putB 37 resent, put 35 24 dest] :: ws
  body ++ [pack [put 31 0 (crc32c (wireBytes body))]]
/-- A received frame passes R369: FLEN and CRC match and the type is one a gateway sends (Table 2), of its length. -/
def frameGood (ws : List Word) : Bool :=
  let h := arg ws 0
  let ty := fld h 47 44
  let n := fld h 43 38
  let len : Bool := match ty with
    | 8 | 9 | 0xB => n == 4
    | 0xA => n == 2
    | 0xC => n == 7
    | 0xD => n == 6
    | 0xE => decide (3 ≤ n) && decide (n ≤ 19)
    | _ => false
  len && n == ws.length && fld (arg ws (n - 1)) 31 0 == crc32c (wireBytes (ws.take (n - 1)))
/-- TYPE of a frame. -/
def frameType (ws : List Word) : Nat := fld (arg ws 0) 47 44

/-- A link serves scheduled or unscheduled frames: TIMING or UP. -/
def Link.timing (k : Link) : Bool := k.state == 2 || k.state == 3
/-- Half of a number of picoseconds; which way an odd one rounds is not stated (R373). -/
def halfOpen (x : Int) : Int := x / 2 + (if x % 2 = 1 ∧ Config.roundUp x.natAbs then 1 else 0)

/-- A frame on link l without an acknowledgement before t_r moves to the pair link. -/
def Sent.toPair (l : Nat) (pair : Option Nat) (now : Qval) (x : Sent) : Sent :=
  match pair with
  | some m => if x.link == l && !x.acked && !x.prior && ahead x.tr now then { x with link := m, resent := x.clkSent.isSome || x.resent, clkSent := none } else x
  | none => x
/-- Class-1 frames of a link without an acknowledgement go to the pair link, where the event has one, in a later window (R239, R272). -/
def State.failOver (l : Nat) (s : State) : State :=
  let f := fun (e : Event) =>
    if e.action = 1 ∧ bit e.sink 44 then { e with sent := e.sent.map (Sent.toPair l (s.lnk l).pair s.tb.q0) } else e
  (s.putSch { s.sch with events := s.sch.events.map f })
/-- A link back in TRAINING, or in OFF: what it was doing is gone. -/
def Link.retrained (k : Link) (off : Bool) (clk : Nat) : Link :=
  { k with state := if off then 0 else 1, tlock := false, credits := 0, gw := 0, control := [], good := 0, drops := [], upClk := none
           outClk := if off then none else (if k.upClk.isSome then some clk else k.outClk) }
/-- The link drops on a cause of Table 4 (R377): to TRAINING, or to OFF on POWER and DISABLED. -/
def State.linkDrop (l cause : Nat) (s : State) : State :=
  let k := s.lnk l
  let off : Bool := cause == 6 || cause == 7
  if k.timing then
    let s := s.setLnk l { k.retrained off s.tb.clk with lastDown := cause, downs := satN 16 (k.downs + 1) }
    State.failOver l (s.raiseLimited true 0xA01 l [word l, word cause])
  else if off ∧ k.state = 1 then s.setLnk l { k with state := 0, outClk := none }
  else s
/-- Queue a control frame towards the gateway (R370). -/
def Link.ctl (k : Link) (ws : List Word) : Link := { k with control := k.control ++ [ws] }

/-! Windows. -/

/-- The time a class-1 occurrence's frame leaves in the window that begins now, and t_r with it (R236, R237, R273); `true` where the quantity has already passed the target. -/
def State.class1Now (s : State) (e : Event) (w : Int) : Option (Qval × Bool × Bool) :=
  let start := qOf (winStart w)
  let least := qadd start (usUnits 30)
  if e.action ≠ 1 ∨ !e.sought ∨ e.st ≠ .pending ∨ !s.isValid e.qty then none
  else if e.qty ≠ 0 ∧ s.reaches e then some (least, true, false)
  else match s.predict e e.goal with
    | none => none
    | some p =>
      let wp := winOf (uOf p) - 15
      if w < wp then none
      else if w = wp then some (p, false, true)
      else some (if ahead p least then p else least, decide (e.qty = 0), false)
/-- The allowance of R238 in ps, to the nearest. -/
def allowPs (bound : Nat) (h r : Int) : Nat :=
  let den : Nat := 2 * r.natAbs * 2 ^ 104
  if r = 0 then 0xFFFFFFFF
  else (2 * (bound * h.natAbs * h.natAbs * 10 ^ 12) + den) / (2 * den) + 10000
/-- Room in a link's present window for a frame of n words among `share` words of which `used` are taken (R367). -/
def Link.fits (k : Link) (used n share : Nat) : Bool := decide (used + n ≤ share) && decide (k.frames < 16)
/-- The SCHED frame of an occurrence (Table 2). -/
def schedFrame (e : Event) (x : Sent) : List Word :=
  lendiFrame 1 x.resent (fld e.sink 43 32) ([word e.jsn, word x.occ, cyc x.tr, frc x.tr] ++ e.payload)
/-- Send the frame of an occurrence released and not yet on the wire, if its link is UP with a credit and room in this window. -/
def State.trySched (e : Event) (x : Sent) (w : Nat) (s : State) : Sent × State :=
  let k := s.lnk x.link
  if k.state = 3 ∧ 0 < k.credits ∧ k.fits k.used e.cost 44 ∧ x.clkSent.isNone then
    ({ x with clkSent := some s.tb.clk, win := w },
      (s.setLnk x.link { k with credits := k.credits - 1, used := k.used + e.cost, frames := k.frames + 1
                                resent := if x.resent then satN 16 (k.resent + 1) else k.resent }).emit (.lendi x.link (schedFrame e x)))
  else (x, s)
/-- The link that carries an event's frame in this window: its own when UP, else the pair's (R272). -/
def State.carrier (s : State) (e : Event) : Nat :=
  let l := fld e.sink 47 45
  if (s.lnk l).state ≠ 3 ∧ bit e.sink 44 then
    match (s.lnk l).pair with | some m => if (s.lnk m).state = 3 then m else l | none => l
  else l
/-- Release the due class-1 occurrence of an event at the start of window w: t_r freezes, the mark is written, the frame leaves (R236-R238, R250). `exact` selects the occurrences whose own window this is. -/
def State.class1Send (jsn w : Nat) (exact : Bool) (s : State) : State :=
  match s.event jsn with
  | none => s
  | some e =>
    match s.class1Now e w with
    | none => s
    | some (tr, late, own) =>
      let l := s.carrier e
      if (own != exact) || !s.mayRelease || (!own && decide (e.qty = 0) && !(s.lnk l).fits (s.lnk l).used e.cost 44) then s
      else
        let q := s.qty e.qty
        let gone := decide (e.qty ≠ 0) && !e.still e.goal q.vu
        let x : Sent := { occ := e.occ, tr := tr, tu := q.tu, link := l, win := w, late := late || e.lateOut
                          before := if gone then none else some (q.tu, q.vu), cross := if s.reaches e && decide (e.qty ≠ 0) then some (s.crossing e).tx else none
                          allow := if e.qty = 0 then 0 else allowPs e.bound (qdist tr q.tu) (s.rateNow e.qty)
                          stepped := decide (e.qty = 0) && s.steppedOver e.goal, clkq := s.clk.direct, outage := e.lateOut }
        let s := s.mark e
        let p := State.trySched e x w s
        let nxt := e.jump.getD (e.occ + 1)
        let e' := e.advance tr
        p.2.setEvent { e' with sent := e.sent ++ [p.1], sought := e.count == 0 || decide (nxt ≤ e.count) }
/-- Frames that wait for a credit, or to be sent again on the pair link before t_r − 20 µs (R272, R371). -/
def State.class1Retry (jsn l w : Nat) (s : State) : State :=
  match s.event jsn with
  | none => s
  | some e =>
    let r := e.sent.foldl (fun (acc : List Sent × State) x =>
      let go := x.link = l ∧ x.clkSent.isNone ∧ !x.acked ∧ !x.prior ∧ winStart w < uOf x.tr - (if x.resent then usUnits 20 else 0)
      let p := if go then State.trySched e x w acc.2 else (x, acc.2)
      (acc.1 ++ [p.1], p.2)) ([], s)
    r.2.setEvent { e with sent := r.1 }
/-- Control frames, within the 8 words that are not the class-1 share; a TSET names the next boundary (R370, R373). -/
def State.sendControl (fuel l w : Nat) (s : State) : State :=
  match fuel with
  | 0 => s
  | fuel + 1 =>
    let k := s.lnk l
    match k.control with
    | [] => s
    | ws :: rest =>
      if k.timing ∧ k.fits k.usedCtl ws.length 8 then
        let nb := qOf (winStart (w + 1))
        let ws := if frameType ws = 4 then lendiFrame 4 false 0 [cyc nb, frc nb] else ws
        State.sendControl fuel l w ((s.setLnk l { k with control := rest, usedCtl := k.usedCtl + ws.length, frames := k.frames + 1 }).emit (.lendi l ws))
      else s
/-- The frame of a SEND (Table 2). -/
def sendFrame (i : SendItem) : List Word := lendiFrame 2 i.again i.dest (word i.jsn :: i.payload)
/-- A SEND leaves on link l if it waits, a credit is free and words remain (R370, R381, R382). -/
def State.trySend (l : Nat) (i : SendItem) (s : State) : SendItem × State :=
  let k := s.lnk l
  let n := i.payload.length + 3
  let held := floatWords (s.class1 s.sch.events l false)
  let room := (8 - k.usedCtl) + (44 - k.used - held)
  if (i.sentClk.isNone ∨ i.again) ∧ k.timing ∧ 0 < k.credits ∧ n ≤ room ∧ k.frames < 16 then
    let spare := 8 - k.usedCtl
    ({ i with sentClk := some (i.sentClk.getD s.tb.clk), resent := i.resent || i.again, again := false },
      (s.setLnk l { k with credits := k.credits - 1, frames := k.frames + 1, usedCtl := k.usedCtl + min n spare, used := k.used + (n - min n spare)
                           resent := if i.again then satN 16 (k.resent + 1) else k.resent }).emit (.lendi l (sendFrame i)))
  else (i, s)
/-- The SENDs of link o that may leave on link l. -/
def State.sendSends (o l : Nat) (s : State) : State :=
  let r := (s.lnk o).sends.foldl (fun (acc : List SendItem × State) i =>
    let p := if o = l ∨ i.pair then State.trySend l i acc.2 else (i, acc.2)
    (acc.1 ++ [p.1], p.2)) ([], s)
  r.2.setLnk o { r.2.lnk o with sends := r.1 }
/-- LENDI_WINDOW_START: a 10 µs window begins on link l (R367): the marker, then SCHED, control and SEND frames in order (R370). `dep4` is the marker's measured offset in ps (R368). -/
def execLendiWindowStart (t : Lapse) (l : Nat) (dep4 : Int) (s : State) : Host.Outcome State Fault Refusal :=
  let s := s.elapse t
  let w := (winOf (uOf s.tb.q0)).toNat
  let k := s.lnk l
  if l < 8 ∧ s.isOn 11 ∧ k.win ≠ some w then
    let wseq := w % 2 ^ 16
    let s := s.setLnk l { k with win := some w, used := 0, usedCtl := 0, frames := 0
                                 dep4 := if wseq % 100 = 0 then some (wseq, dep4) else k.dep4 }
    let s := if k.state = 0 then s else s.emit (.marker l wseq dep4)
    let js := (s.sch.events.filter fun e => e.action == 1 && (fld e.sink 47 45 == l || (s.linksOf e).contains l)).map fun e => e.jsn
    let own := (s.sch.events.filter fun e => e.action == 1 && fld e.sink 47 45 == l).map fun e => e.jsn
    let s : State := js.foldl (fun (s : State) j => s.class1Retry j l w) s
    let s : State := (List.range 16).foldl (fun (s : State) _ => own.foldl (fun (s : State) j => s.class1Send j w true) s) s
    let s : State := own.foldl (fun (s : State) j => s.class1Send j w false) s
    let s := s.sendControl 4 l w
    let s := s.sendSends l l
    .next (match (s.lnk l).pair with
      | some m => if (s.lnk m).timing then s else s.sendSends m l
      | none => s)
  else .next s
/-- GATEWAY_WINDOW_MARKER: the gateway's /W/ arrives, ARR4 measured (R368). -/
def execGatewayWindowMarker (t : Lapse) (l : Nat) (wseq : Nat) (arr4 : Int) (s : State) : Host.Outcome State Fault Refusal :=
  let s := s.elapse t
  let k := s.lnk l
  if l < 8 ∧ k.state ≠ 0 ∧ wseq % 100 = 0 then .next (s.setLnk l { k with arr4 := some (wseq % 2 ^ 16, arr4) })
  else .next s

/-! Frames from the gateway. -/

/-- Count a frame dropped under R369. -/
def State.dropFrame (l : Nat) (s : State) : State :=
  let k := s.lnk l
  s.setLnk l { k with dropped := satN 16 (k.dropped + 1), drops := (s.tb.clk :: k.drops).take 16 }
/-- A frame of one type on link l: dropped and counted when it fails R369, otherwise handled while the link is not OFF. -/
def onFrame (type : Nat) (t : Lapse) (l : Nat) (ws : List Word) (f : State → State) (s : State) : Host.Outcome State Fault Refusal :=
  let s := s.elapse t
  if 8 ≤ l ∨ (s.lnk l).state = 0 then .next s
  else if frameGood ws ∧ frameType ws = type then .next (f s)
  else .next (s.dropFrame l)
/-- LENDI_FRAME_DROPPED: a frame whose CRC, FLEN or TYPE is wrong (R369). -/
def execLendiFrameDropped (t : Lapse) (l : Nat) (ws : List Word) (s : State) : Host.Outcome State Fault Refusal :=
  let s := s.elapse t
  if l < 8 ∧ (s.lnk l).state ≠ 0 ∧ !frameGood ws then .next (s.dropFrame l) else .next s
/-- LINK (R371, R376, R378): ballast, gateway identity and delays; in TRAINING the link enters TIMING when every condition is met. A paired link whose gateway is another is held in TRAINING. -/
def execLink (t : Lapse) (l : Nat) (ws : List Word) (s : State) : Host.Outcome State Fault Refusal :=
  onFrame 8 t l ws (fun s =>
    let k := s.lnk l
    let rxb := fld (arg ws 0) 23 12
    let uid := arg ws 1
    let k := { k with rxb := rxb, gw := uid, txd := fld (arg ws 2) 47 24, rxd := fld (arg ws 2) 23 0 }
    let s := s.setLnk l k
    if k.pair.isSome ∧ uid ≠ k.pairGw then
      let s := s.raiseLimited true 0xA04 l [word l, uid]
      if k.timing then State.failOver l (s.setLnk l { k.retrained false s.tb.clk with gw := uid }) else s
    else if k.state ≠ 1 then s
    else if rxb < 64 then s.raiseLimited true 0xA03 l [word l, word rxb]
    else s.setLnk l { k with state := 2, credits := rxb, good := 0, lastTs := s.tb.clk }) s
/-- ACK (R239): the frame of a JSN and occurrence has arrived. -/
def execAck (t : Lapse) (l : Nat) (ws : List Word) (s : State) : Host.Outcome State Fault Refusal :=
  onFrame 9 t l ws (fun s =>
    match s.event (arg ws 1).toNat with
    | some e => s.setEvent { e with sent := e.sent.map fun x => if x.occ = (arg ws 2).toNat then { x with acked := true } else x }
    | none => s) s
/-- CREDIT (R371): CRED frames freed. -/
def execCredit (t : Lapse) (l : Nat) (ws : List Word) (s : State) : Host.Outcome State Fault Refusal :=
  onFrame 0xA t l ws (fun s =>
    let k := s.lnk l
    if k.timing then s.setLnk l { k with credits := satN 12 (k.credits + fld (arg ws 0) 11 0) } else s) s
/-- TSTAMP (R373, R374): θ and d of a marked window; TCORR, or TSET beyond 1 µs; UP after 16 measurements within 20 ns. A θ beyond 1 µs is shown, corrects nothing, and counts against UP (DEDUCED, log 198). -/
def execTstamp (t : Lapse) (l : Nat) (ws : List Word) (s : State) : Host.Outcome State Fault Refusal :=
  onFrame 0xB t l ws (fun s =>
    let k := s.lnk l
    let w := fld (arg ws 1) 47 32
    match k.dep4, k.arr4 with
    | some (w1, dep4), some (w2, arr4) =>
      if k.timing ∧ w1 = w ∧ w2 = w then
        let dn := sfld (arg ws 1) 31 0 - dep4
        let up := arr4 - sfld (arg ws 2) 47 24
        let theta := halfOpen (dn - up + k.asym)
        let k := { k with lastTs := s.tb.clk, theta := theta, delay := halfOpen (dn + up) }
        if 1000000 < theta.natAbs then s.setLnk l ({ k with good := 0 }.ctl (lendiFrame 4 false 0 [0, 0]))
        else
          let k := { k with good := if theta.natAbs ≤ 20000 then min 16 (k.good + 1) else 0 }
          let k := k.ctl (lendiFrame 3 false 0 [sword theta, sword s.tb.fadj])
          if k.state = 2 ∧ 16 ≤ k.good then
            (s.setLnk l { k with state := 3, tlock := true, upClk := some s.tb.clk, wasUp := true, outClk := none }).raiseLimited true 0xA02 l [word l, k.gw]
          else s.setLnk l k
      else s
    | _, _ => s) s
/-- QREP (R48, R379): a report of quantity GWQ, applied at its stamp from a link in UP; a stamp not ahead of the last applied is discarded. -/
def execQrep (t : Lapse) (l : Nat) (ws : List Word) (s : State) : Host.Outcome State Fault Refusal :=
  onFrame 0xC t l ws (fun s =>
    let g := fld (arg ws 0) 7 0
    let v := mkQ (arg ws 1) (arg ws 2)
    let ts := mkQ (arg ws 4) (arg ws 5)
    if (s.lnk l).state ≠ 3 ∨ !s.isOn 11 then s
    else [8, 9, 10, 11, 12, 13, 14, 15].foldl (fun (s : State) n =>
      let q := s.qty n
      let ql := fld q.cfg1 10 8
      if kindOf q.cfg0 = 7 ∧ fld q.cfg1 7 0 = g ∧ (ql = l ∨ (s.lnk ql).pair = some l) ∧ (!q.fed ∨ ahead ts q.tu) then
        let neg := bit q.cfg0 42
        let r := if neg then -sfld (arg ws 3) 47 0 else sfld (arg ws 3) 47 0
        s.measured n (if neg then -v else v) fun q => { q with tu := ts, rate := sat 48 r, overrate := decide (sat 48 r ≠ r) }
      else s) s) s
/-- The record GW_RESP that ends a LENDI_SEND, and the end of its pin (R381, R382). -/
def State.endSend (o : Nat) (i : SendItem) (rstat l : Nat) (ws : List Word) (s : State) : State :=
  let k := s.lnk o
  let s := s.setLnk o { k with sends := k.sends.filter fun x => x.jsn ≠ i.jsn }
  let s := s.record i.partner false
    ([pack [put 47 40 1], pack [put 47 40 0x50], pack [put 47 32 i.tag, put 31 30 rstat, put 29 27 l, put 26 22 ws.length], word i.jsn] ++ ws)
  (s.putJrn (s.jrn.unpin .work i.jsn))
/-- The SEND of a JSN with the link it was given to. -/
def State.sendOf (s : State) (jsn : Nat) : Option (Nat × SendItem) :=
  [0, 1, 2, 3, 4, 5, 6, 7].findSome? fun l => ((s.lnk l).sends.find? fun i => i.jsn == jsn).map fun i => (l, i)
/-- RESP (R382). -/
def execResp (t : Lapse) (l : Nat) (ws : List Word) (s : State) : Host.Outcome State Fault Refusal :=
  onFrame 0xE t l ws (fun s =>
    match s.sendOf (arg ws 1).toNat with
    | some (o, i) => if i.sentClk.isSome ∧ s.pwr.ready then s.endSend o i 0 l ((ws.drop 2).take (fld (arg ws 0) 43 38 - 3)) else s
    | none => s) s

/-! Outcomes of class-1 occurrences. -/

/-- An occurrence in flight gets its result; an event whose quantity restarted ends once none is left (R254). -/
def State.endSent (e : Event) (x : Sent) (r : Result) (s : State) : State :=
  let s := if r.outcome = 5 then s.setLb x.link { s.lb x.link with cntUndel := satN 24 ((s.lb x.link).cntUndel + 1) } else s
  let e := { e with sent := e.sent.filter fun y => y.occ ≠ x.occ }
  let s := (s.setEvent e).report e r
  if e.st = .restarted ∧ s.pwr.ready then s.reevaluate e.jsn else s
/-- The result of an occurrence that no gateway released. -/
def Sent.undelivered (x : Sent) (now : Qval) : Result :=
  { outcome := 5, occ := x.occ, rel := now, allow := x.allow, clkq := x.clkq, outage := x.outage }
/-- UNDELIVERED_LINK: no acknowledgement from either link by t_r (R239). -/
def execUndeliveredLink (t : Lapse) (jsn : Word) (s : State) : Host.Outcome State Fault Refusal :=
  let s := s.elapse t
  match s.event jsn.toNat with
  | some e =>
    match e.sent.find? fun x => !x.acked && !x.prior && !ahead x.tr s.tb.q0 with
    | some x => .next (s.endSent e x (x.undelivered s.tb.q0))
    | none => .next s
  | none => .next s
/-- The result of an occurrence judged by R238 from the prediction error e, ps. -/
def Sent.judged (x : Sent) (e : Int) (known accEx : Bool) : Result :=
  { outcome := if x.late then 1 else if e.natAbs ≤ x.allow then 0 else if 0 < e then 1 else 2
    occ := x.occ, rel := x.tr, err := e, allow := x.allow, errKnown := known, accEx := accEx, clkq := x.clkq, step := x.stepped, outage := x.outage }
/-- The true crossing of an occurrence sent (R238) with the acceleration measured, and whether two updates after it have fixed it: what an update had shown when the frame left; the fit; for a quantity rooted at Q0 the instant itself; otherwise what v(t) now says. None where the quantity has not reached the target. -/
def State.trueCrossing (s : State) (e : Event) (x : Sent) : Option (Qval × Nat × Bool) :=
  let q := s.qty e.qty
  let tgt := e.tk x.occ
  match x.cross, x.before, x.after_ with
  | some c, _, _ => some (c, q.acc.natAbs, true)
  | none, some b, [p, r] => let f := fitted e.sense tgt b p r; some (f.1, f.2, true)
  | none, _, _ =>
    if e.still tgt (s.value e.qty) then none
    else if !e.still tgt q.vu then some ((s.updateCrossing e tgt).1, q.acc.natAbs, decide (s.kind (s.rootOf e.qty) = 0))
    else
      let g := e.sense
      some (qadd q.tu ((crossDt (g * s.rateNow e.qty) (g * q.acc) (g * qdist tgt q.vu) 0).getD 0), q.acc.natAbs, false)
/-- CLASS1_OUTCOME (R238): at t_r + 1 ms the occurrence is judged by its true crossing; on Q0 the crossing is the target. -/
def execClass1Outcome (t : Lapse) (jsn : Word) (s : State) : Host.Outcome State Fault Refusal :=
  let s := s.elapse t
  match s.event jsn.toNat with
  | none => .next s
  | some e =>
    match e.sent.find? fun x => x.acked && !x.prior with
    | none => .next s
    | some x =>
      let past := qdist s.tb.q0 x.tr
      if e.qty = 0 then
        if 0 ≤ past then .next (s.endSent e x (x.judged (psOfUnits (qdist x.tr (e.tk x.occ))) true false)) else .next s
      else if past < usUnits 1000 then .next s
      else match s.trueCrossing e x with
        | some c => .next (State.endSent e x (x.judged (psOfUnits (qdist x.tr c.1)) c.2.2 (decide (e.bound < c.2.1))) (s.putFresh (s.fresh + 1)))
        | none => .next (s.endSent e x { x.judged 0 false (decide (e.bound < (s.qty e.qty).acc.natAbs)) with outcome := 2, err := -(1000000000 + psOfUnits past) })
/-- REL (R255, R380): DISCARDED ends an occurrence UNDELIVERED_LINK; the answer to a RELQ ends one marked before an outage. -/
def execRel (t : Lapse) (l : Nat) (ws : List Word) (s : State) : Host.Outcome State Fault Refusal :=
  onFrame 0xD t l ws (fun s =>
    let rstat := fld (arg ws 0) 23 22
    match s.event (arg ws 1).toNat with
    | none => s
    | some e =>
      match e.sent.find? fun x => x.occ == (arg ws 2).toNat with
      | none => s
      | some x =>
        if rstat = 2 ∨ (rstat = 1 ∧ x.asked) then s.endSent e x (x.undelivered s.tb.q0)
        else if rstat = 0 ∧ x.asked then
          let rel := mkQ (arg ws 3) (arg ws 4)
          let err := psOfUnits (qdist rel x.tr)
          s.endSent e x { Sent.judged { x with allow := x.allow + 100000 } err (decide (e.qty = 0)) false with allow := x.allow, rel := rel }
        else s) s

/-! Link states. -/

/-- ACK_TIMEOUT: a SCHED frame unacknowledged 60 µs after the start of its window (Table 4). -/
def execAckTimeout (t : Lapse) (l : Nat) (s : State) : Host.Outcome State Fault Refusal :=
  let s := s.elapse t
  let late := s.sch.events.any fun e => e.sent.any fun x =>
    x.link == l && x.clkSent.isSome && !x.acked && ahead x.tr s.tb.q0 && decide (winStart x.win + usUnits 60 ≤ uOf s.tb.q0)
  if l < 8 ∧ (s.lnk l).state = 3 ∧ late then .next (s.linkDrop l 3) else .next s
/-- TLOCK_LOST: |θ| above 50 ns, or no valid TSTAMP for 10 ms (R374). -/
def execTlockLost (t : Lapse) (l : Nat) (s : State) : Host.Outcome State Fault Refusal :=
  let s := s.elapse t
  let k := s.lnk l
  if l < 8 ∧ k.state = 3 ∧ (50000 < k.theta.natAbs ∨ k.lastTs + 6547200 ≤ s.tb.clk) then .next (s.linkDrop l 4) else .next s
/-- LINK_DOWN: code errors or no signal (1), missing windows (2), or 16 dropped frames within 1 ms (5) (Table 4). -/
def execLinkDown (t : Lapse) (l : Nat) (cause : Nat) (s : State) : Host.Outcome State Fault Refusal :=
  let s := s.elapse t
  let k := s.lnk l
  let crc := k.drops.length = 16 ∧ s.tb.clk ≤ k.drops.getLastD 0 + 654720
  if l < 8 ∧ (cause = 1 ∨ cause = 2 ∨ (cause = 5 ∧ crc)) then .next (s.linkDrop l cause) else .next s
/-- LINK_FAILED: out of UP for 100 ms after having been UP, while enabled with D9 on (R377). -/
def execLinkFailed (t : Lapse) (l : Nat) (s : State) : Host.Outcome State Fault Refusal :=
  let s := s.elapse t
  let k := s.lnk l
  match k.outClk with
  | some c =>
    if l < 8 ∧ k.en ∧ s.isOn 9 ∧ k.wasUp ∧ k.state ≠ 3 ∧ !k.failed ∧ c + 65472000 ≤ s.tb.clk then
      let s := s.setLnk l { k with failed := true }
      .next (State.partFailed 0x014 l (s.putFc { s.fc with link := setBit s.fc.link l }))
    else .next s
  | none => .next s
/-- LINK_RESTORED: UP for 1 s without interruption (Table 3, R338). -/
def execLinkRestored (t : Lapse) (l : Nat) (s : State) : Host.Outcome State Fault Refusal :=
  let s := s.elapse t
  let k := s.lnk l
  match k.upClk with
  | some c =>
    if l < 8 ∧ k.failed ∧ k.state = 3 ∧ c + 654720000 ≤ s.tb.clk then
      let s := s.setLnk l { k with failed := false }
      .next (State.partRestored 0x014 l (s.putFc { s.fc with link := clearBits s.fc.link (2 ^ l) }))
    else .next s
  | none => .next s
/-- STATE of a link (Table 3): FAILED is TRAINING of a failed part. -/
def Link.shown (k : Link) : Nat := if k.state = 1 ∧ k.failed then 4 else k.state

/-! After an outage. -/

/-- RELQ: after ready, once a link of the event is UP, the gateway is asked for each occurrence marked before the outage (R255, R380). -/
def execRelq (t : Lapse) (jsn : Word) (s : State) : Host.Outcome State Fault Refusal :=
  let s := s.elapse t
  match s.event jsn.toNat with
  | none => .next s
  | some e =>
    match (s.linksOf e).find? fun l => (s.lnk l).state == 3, e.sent.find? fun x => x.prior && !x.asked with
    | some l, some x =>
      if s.pwr.ready then
        let s := s.setLnk l ((s.lnk l).ctl (lendiFrame 6 false 0 [word e.jsn, word x.occ]))
        .next (s.setEvent { e with sent := e.sent.map fun y => if y.occ = x.occ then { y with asked := true } else y })
      else .next s
    | _, _ => .next s
/-- RELQ_TIMEOUT: no link of the event has been UP within 10 s of ready (R380). -/
def execRelqTimeout (t : Lapse) (jsn : Word) (s : State) : Host.Outcome State Fault Refusal :=
  let s := s.elapse t
  match s.event jsn.toNat with
  | none => .next s
  | some e =>
    match e.sent.find? fun x => x.prior && !x.asked with
    | some x =>
      if s.pwr.ready ∧ s.pwr.readyClk + 6547200000 ≤ s.tb.clk then .next (s.endSent e x (x.undelivered s.tb.q0)) else .next s
    | none => .next s

/-! Unscheduled frames. -/

/-- SEND_RESENT: 5 ms after the first copy without a RESP (R382). -/
def execSendResent (t : Lapse) (jsn : Word) (s : State) : Host.Outcome State Fault Refusal :=
  let s := s.elapse t
  match s.sendOf jsn.toNat with
  | some (o, i) =>
    match i.sentClk with
    | some c =>
      if !i.resent ∧ !i.again ∧ c + 3273600 ≤ s.tb.clk then
        .next (s.setLnk o { s.lnk o with sends := (s.lnk o).sends.map fun x => if x.jsn = i.jsn then { x with again := true } else x })
      else .next s
    | none => .next s
  | none => .next s
/-- NO_RESPONSE: 10 ms after the frame was sent (R382). -/
def execNoResponse (t : Lapse) (jsn : Word) (s : State) : Host.Outcome State Fault Refusal :=
  let s := s.elapse t
  match s.sendOf jsn.toNat with
  | some (o, i) =>
    match i.sentClk with
    | some c => if c + 6547200 ≤ s.tb.clk ∧ s.pwr.ready then .next (s.endSend o i 1 o []) else .next s
    | none => .next s
  | none => .next s
/-- SEND_UNDELIVERED: not sent within 100 ms of acceptance (R382). -/
def execSendUndelivered (t : Lapse) (jsn : Word) (s : State) : Host.Outcome State Fault Refusal :=
  let s := s.elapse t
  match s.sendOf jsn.toNat with
  | some (o, i) =>
    if i.sentClk.isNone ∧ i.accClk + 65472000 ≤ s.tb.clk ∧ s.pwr.ready then .next (s.endSend o i 2 o []) else .next s
  | none => .next s
/-- After a reset of D1: an unsent frame is sent, one without its RESP again with RESENT set (R382); both have their times anew (log 198). -/
def SendItem.afterReset (clk : Nat) (i : SendItem) : SendItem := { i with again := i.again || i.sentClk.isSome, sentClk := none, accClk := clk }
/-- Every SEND that waits. -/
def State.sendsReady (s : State) : State :=
  [0, 1, 2, 3, 4, 5, 6, 7].foldl (fun (s : State) l => s.setLnk l { s.lnk l with sends := (s.lnk l).sends.map (SendItem.afterReset s.tb.clk) }) s
/-- LENDI_SEND (0x0B1, R381). -/
def opLendiSend : OpSpec :=
  { code := 0x0B1
    eval := fun k s =>
      let w := arg k.ps 0
      let l := fld w 47 45
      let n := fld w 31 26
      let x := s.lnk l
      if k.ps.length ≠ 1 + n ∨ n < 1 ∨ 32 < n then badParam 0x001
      else if !x.en ∨ (bit w 44 ∧ x.pair.isNone) then notPermitted 0x002
      else if x.failed && (match x.pair with | some m => !bit w 44 || (s.lnk m).failed | none => true) then reason .fault 0x014
      else if 16 ≤ x.sends.length then reason .noCapacity 0x003
      else
        { status := .accepted, pins := [.work], promise := 2
          act := fun jsn s =>
            let x := s.lnk l
            s.setLnk l { x with sends := x.sends ++ [{ jsn := jsn, partner := k.partner, tag := fld w 15 0, pair := bit w 44, dest := fld w 43 32, payload := k.ps.drop 1, accClk := s.tb.clk }] } } }
/-- LENDI_SEND. -/
def execLendiSend (t : Lapse) (env : Env) (ps : List Word) (s : State) : Host.Outcome State Fault Refusal :=
  runOp opLendiSend t env ps s

/-! Configuration. -/

/-- A class-1 event is pending on link l. -/
def State.eventsOn (s : State) (l : Nat) (pairOnly : Bool) : Bool :=
  s.sch.events.any fun e => e.action == 1 && (bit e.sink 44 || !pairOnly) && (fld e.sink 47 45 == l || (s.linksOf e).contains l)
/-- Enable or disable a link (R376, R383). -/
def State.applyLendi (l : Nat) (en : Bool) (asym : Int) (s : State) : State :=
  let k := s.lnk l
  if en then
    s.setLnk l { k with en := true, asym := asym, wasUp := k.wasUp && k.en, state := if k.state = 0 ∧ s.isOn 9 ∧ !s.pinsLatched 9 then 1 else k.state }
  else
    let s := s.linkDrop l 7
    s.setLnk l { s.lnk l with en := false, asym := asym, wasUp := false, outClk := none }
/-- LENDI_CONFIG (0x0B0, R383). -/
def opLendiConfig : OpSpec :=
  { code := 0x0B0, rights := 3
    eval := fun k s =>
      let w := arg k.ps 0
      let l := fld w 47 45
      let used := (s.lnk l).pair.isSome || s.eventsOn l false ||
        [8, 9, 10, 11, 12, 13, 14, 15].any fun n => kindOf (s.qty n).cfg0 == 7 && fld (s.qty n).cfg1 10 8 == l
      if k.ps.length ≠ 2 then badParam 0
      else if !bit w 44 ∧ used then notPermitted 0x002
      else
        { status := .done, pins := [.config 0x0B0 l]
          act := fun _ s => s.applyLendi l (bit w 44) (sfld (arg k.ps 1) 47 16) } }
/-- LENDI_CONFIG. -/
def execLendiConfig (t : Lapse) (env : Env) (ps : List Word) (s : State) : Host.Outcome State Fault Refusal :=
  runOp opLendiConfig t env ps s
/-- LENDI_PAIR (0x0B2, R378): pair and unpair. -/
def opLendiPair : OpSpec :=
  { code := 0x0B2, rights := 3
    eval := fun k s =>
      let w := arg k.ps 0
      let a := fld w 46 44
      let b := fld w 43 41
      let x := s.lnk a
      let y := s.lnk b
      if k.ps.length ≠ 1 ∨ a = b then badParam 0x001
      else if bit w 47 then
        if x.state ≠ 3 ∨ y.state ≠ 3 ∨ x.gw ≠ y.gw ∨ x.pair.isSome ∨ y.pair.isSome then notPermitted 0x002
        else
          { status := .done, pins := [.config 0x0B2 (min a b)]
            act := fun _ s => (s.setLnk a { s.lnk a with pair := some b, pairGw := x.gw }).setLnk b { s.lnk b with pair := some a, pairGw := x.gw } }
      else if s.eventsOn a true ∨ s.eventsOn b true ∨ x.pair ≠ some b then notPermitted 0x003
      else
        { status := .done, pins := [.config 0x0B2 (min a b)]
          act := fun _ s => (s.setLnk a { s.lnk a with pair := none, pairGw := 0 }).setLnk b { s.lnk b with pair := none, pairGw := 0 } } }
/-- LENDI_PAIR with OP 1. -/
def execLendiPair (t : Lapse) (env : Env) (ps : List Word) (s : State) : Host.Outcome State Fault Refusal :=
  runOp opLendiPair t env (fixField 47 47 1 ps) s
/-- LENDI_PAIR with OP 0. -/
def execLendiUnpair (t : Lapse) (env : Env) (ps : List Word) (s : State) : Host.Outcome State Fault Refusal :=
  runOp opLendiPair t env (fixField 47 47 0 ps) s

/-! Registers (Tables 5-7). -/

/-- LND_CFG (Table 6). -/
def Link.cfgWord (k : Link) : Word := pack [putB 47 k.en, putB 46 k.pair.isSome, put 45 43 (k.pair.getD 0)]
/-- LND_STAT (Table 7). -/
def Link.statWord (k : Link) : Word :=
  pack [put 47 45 k.shown, putB 44 k.tlock, put 43 32 k.credits, put 31 20 k.rxb, put 19 16 k.lastDown]
/-- LND_TT (Table 5). -/
def Link.ttWord (k : Link) : Word := pack [putS 47 24 (sat 24 k.theta), put 23 0 (satN 24 k.delay.toNat)]
/-- LND_CNT (Table 5). -/
def Link.cntWord (k : Link) : Word := pack [put 47 32 k.downs, put 31 16 k.dropped, put 15 0 k.resent]
/-- BAL_LSTAT (Table 9 of R278). -/
def State.balLstat (s : State) (l : Nat) : Word :=
  let p := s.peaks l
  let queued := s.sch.events.foldl (fun n e => n + (e.sent.filter fun x => x.link == l && !x.acked && ahead x.tr s.tb.q0).length) 0
  pack [put 47 42 p.1, put 41 36 (floatWords (s.class1 s.sch.events l false)), put 35 30 p.2, put 29 22 queued]

end Sys2Proof.Machine
end

