-- ==== Sys2Proof/Machine/Smp.lean ====
section
/-! DEFINITION. Sample ports and Windvane: configuration (R389, R390), start and stop (R399, R400), input frames and lock (R387, R388, R391), samples and rings (R392-R398, R402), slot masks (R403), non-audio payload (R404), registers (R408). -/
namespace Sys2Proof.Machine
open Sys2Proof

/-- A rate (2^-24 cycle/s) at an instant after an update, with the acceleration of R31. -/
def AngleUpd.rateAt (u : AngleUpd) (q : Qval) : Int := u.rate + u.acc * qdist q u.at_ / 2 ^ 56
/-- The latest update at or before an instant. -/
def SmpPort.updAt (p : SmpPort) (q : Qval) : Option AngleUpd := (p.ups.filter fun u => !ahead u.at_ q).getLast?
/-- f_out at an output instant, 2^-16 Hz (R392). -/
def State.outRate (s : State) (p : SmpPort) (q : Qval) : Nat :=
  if p.angle then p.npc * (match p.updAt q with | some u => u.rateAt q | none => s.rateNow p.qty).natAbs / 2 ^ 8 else p.cfg1.toNat
/-- f_out exceeds 384 kHz in the angle domain (R394). -/
def State.tooFast (s : State) (p : SmpPort) (q : Qval) : Bool := p.angle && decide (384000 * 2 ^ 16 < s.outRate p q)
/-- 32·D·T_in in units of 2^-48 s, D = min(256, max(1, f_in / f_out)) (R392). -/
def spanOf (fin fout : Nat) : Int :=
  if fin ≤ fout then 32 * 2 ^ 64 / max 1 fin
  else if 256 * fout ≤ fin then 32 * 256 * 2 ^ 64 / max 1 fin
  else 32 * 2 ^ 64 / max 1 fout
/-- The span of an output instant. -/
def State.span (s : State) (p : SmpPort) (q : Qval) : Int := spanOf p.rate.toNat (s.outRate p q)
/-- W of an output instant (R396). -/
def State.deadline (s : State) (p : SmpPort) (q : Qval) : Int :=
  let w := s.span p q + max p.inDly 0 + usUnits 200
  if p.angle then max (usUnits (1000 * fld p.cfg4 15 8)) w else w
/-- The instant of index j in the time domain: t_s + j / RATE, later by what steps have moved it (R393): what has been taken in stands on the new timeline too. -/
def SmpPort.instant (p : SmpPort) (j : Nat) : Qval :=
  qadd (p.ts + BitVec.ofNat 96 ((2 * j * 2 ^ 64 + p.cfg1.toNat) / (2 * max 1 p.cfg1.toNat))) p.moved
/-- Whether an instant or value of index j lies at or after an instant. -/
def State.idxFrom (s : State) (p : SmpPort) (j : Nat) (q : Qval) : Bool :=
  if p.angle then !behind (p.grid j) (s.valueAt p.qty q) else !behind (p.instant j) q
/-- The first index at or after an instant. -/
def State.firstIdx (s : State) (p : SmpPort) (q : Qval) : Nat :=
  if p.angle then ((qdist (s.valueAt p.qty q) p.v0 * p.npc + 2 ^ 48 - 1) / 2 ^ 48).toNat
  else (((qdist q p.ts - p.moved) * p.cfg1.toNat + 2 ^ 64 - 1) / 2 ^ 64).toNat
/-- REVERSED (R394): a running angle port whose quantity runs backward, or forward again below its highest value since t_s. -/
def State.reversed (s : State) (p : SmpPort) : Bool :=
  decide (p.state = 2) && p.angle && (decide (s.rateNow p.qty < 0) || behind (s.value p.qty) p.top)
/-- How an output index stands in time: its instant, EST, and whether VALID was away when its grid value was passed. -/
structure Place where
  at_  : Qval
  est  : Bool := false
  lost : Bool := false
  deriving DecidableEq, Repr
/-- Where v(t) of an update reaches a value, no later than `limit` (R50). -/
def AngleUpd.reach (u : AngleUpd) (g limit : Qval) : Qval :=
  match crossDt u.rate u.acc (qdist g u.val) 0 with
  | some dt => if ahead (qadd u.at_ dt) limit then limit else qadd u.at_ dt
  | none => limit
/-- The instant of index j (R393, R395), once it is known: in the angle domain by the fit through the last update before its grid value and the first two after it, on a count at the count's stamp, and otherwise from v(t). -/
def State.place (s : State) (p : SmpPort) (j : Nat) : Option Place :=
  if !p.angle then some { at_ := p.instant j }
  else
    let g := p.grid j
    let late := fun (q : Qval) => decide (s.deadline p q ≤ qdist s.tb.q0 q)
    let k := s.kind (s.rootOf p.qty)
    match p.ups.span fun u => behind u.val g with
    | (bs, x :: rest) =>
      if x.gap then some { at_ := x.at_, lost := true }
      else if x.val = g ∧ (k = 1 ∨ k = 2 ∨ k = 3) then some { at_ := x.at_ }
      else match bs.getLast?, rest with
        | some b, y :: _ => some { at_ := (fitted 1 g (b.at_, b.val) (x.at_, x.val) (y.at_, y.val)).1 }
        | some b, [] => let q := b.reach g x.at_; if late q then some { at_ := q, est := true } else none
        | none, _ => if late x.at_ then some { at_ := x.at_, est := true } else none
    | (_, []) =>
      if !s.isValid p.qty ∨ behind (s.value p.qty) g then none
      else
        let q := s.qty p.qty
        let c := AngleUpd.reach ⟨q.tu, q.vu, s.rateNow p.qty, q.acc, false⟩ g s.tb.q0
        if k = 0 then some { at_ := c } else if late c then some { at_ := c, est := true } else none

/-! Configuration. -/

/-- The width of a SLOT_BITS code. -/
def slotWidth (c : Nat) : Nat := 16 + 8 * c
/-- The width of a WORD_BITS code. -/
def wordWidth (c : Nat) : Nat := match c with | 0 => 16 | 1 => 20 | 2 => 24 | _ => 32
/-- FIELD of SMP_CONFIG (Tables 2, 3). -/
def smpFieldBad (ps : List Word) : Bool :=
  let w0 := arg ps 0
  let w1 := arg ps 1
  let w4 := arg ps 4
  let fmt := fld w0 43 42
  let ns := fld w0 41 37
  let sb := fld w0 36 35
  let ang := bit w0 27
  let n := fld w1 47 32
  let lag := fld w4 15 8
  let lg := fld w4 23 19
  decide (ps.length ≠ 5) || decide (fmt = 3) || decide (ns < 1) || decide (16 < ns) || (decide (fmt < 2) && decide (ns ≠ 2)) ||
  decide (sb = 3) || decide (slotWidth sb < (if fld w0 34 33 = 3 then 32 else wordWidth (fld w0 34 33))) ||
  decide (lg < 10) || decide (20 < lg) || decide (4 < fld w4 18 16) ||
  (if ang then decide (n = 0) || decide (2 ^ 48 ≤ (arg ps 2).toNat * n) || decide (lag < 2) || decide (100 < lag)
   else decide (fld w0 26 23 ≠ 0) || decide (w1.toNat < 8000 * 2 ^ 16) || decide (384000 * 2 ^ 16 < w1.toNat) ||
     decide (arg ps 2 ≠ 0) || decide (lag ≠ 0))
/-- A port with the words of an SMP_CONFIG. -/
def smpOf (p : SmpPort) (ps : List Word) : SmpPort :=
  { p with
    cfg0 := maskW (2 ^ 48 - 2 ^ 23) (arg ps 0), cfg1 := if bit (arg ps 0) 27 then maskW (0xFFFF * 2 ^ 32) (arg ps 1) else arg ps 1
    cfg2 := arg ps 2, cfg3 := maskW (2 ^ 48 - 2 ^ 16) (arg ps 3), cfg4 := maskW (2 ^ 48 - 2 ^ 8) (arg ps 4) }
/-- Two regions of words overlap. -/
def overlaps (a n b m : Nat) : Bool := decide (a < b + m) && decide (b < a + n)
/-- Words that a port's rings and header take. -/
def SmpPort.extent (p : SmpPort) : Nat := p.nslots * p.len + 16
/-- The rings or header of a configured port other than `but` touch a region. -/
def State.ringsHit (s : State) (but a n : Nat) : Bool :=
  [0, 1, 2, 3, 4, 5, 6, 7].any fun m => m != but && (s.smp m).en && overlaps a n (s.smp m).base (s.smp m).extent
/-- A pending SMP_START event names a port. -/
def State.startPending (s : State) (n : Nat) : Bool := s.sch.events.any fun e => e.action == 3 && bit e.sink (47 - n)
/-- PLL-W runs at 245.76 MHz while a port is READY or RUNNING, and is off otherwise (R405). -/
def State.settlePllW (s : State) : State :=
  let l := s.clk.pllW
  if [0, 1, 2, 3, 4, 5, 6, 7].any fun m => (s.smp m).state != 0 then
    if l.state = 0 then s.setPll 4 { l with freq := word (245760000 * 2 ^ 16), state := if s.isOn 11 then 1 else 0 } else s
  else s.setPll 4 { l with freq := 0, state := 0 }
/-- Put an SMP_CONFIG in force (R390): the port is READY, or OFF when released; its tracker and counts start again. -/
def State.applySmp (n : Nat) (ps : List Word) (s : State) : State :=
  let p := smpOf (s.smp n) ps
  let p := { p with state := if p.en then 1 else 0, lock := false, hadLock := false, under := false, fmtErr := false, good := 0
                    frame := 0, clocks := 0, resids := [], inputs := [], ups := [], startSeq := 0, startAt := none, stopAt := none, pairs := [], rate := 0 }
  State.settlePllW (s.setSmp n p)
/-- SMP_CONFIG (0x0A0, R389, R390). -/
def opSmpConfig : OpSpec :=
  { code := 0x0A0, why := 0x006
    eval := fun k s =>
      let n := fld (arg k.ps 0) 47 45
      let p := smpOf (s.smp n) k.ps
      if smpFieldBad k.ps then badParam 0x001
      else if p.en ∧ (p.base < 0xC00000 ∨ 0x1000000 < p.base + p.extent ∨ s.ringsHit n p.base p.extent) then badParam 0x002
      else if (s.smp n).state = 2 ∨ s.startPending n then notPermitted 0x003
      else if p.angle ∧ (p.qty = 0 ∨ s.kind p.qty = 15) then notPermitted 0x004
      else
        { status := .done, pins := [.config 0x0A0 n], act := fun _ s => s.applySmp n k.ps } }
/-- SMP_CONFIG. -/
def execSmpConfig (t : Lapse) (env : Env) (ps : List Word) (s : State) : Host.Outcome State Fault Refusal :=
  runOp opSmpConfig t env ps s

/-! Start and stop. -/

/-- The first whole millisecond at least 1 ms after an instant (R140, R400). -/
def tickAfter (q : Qval) : Qval := qOfMs (msOf (qadd q (usUnits 1000 - 1)) + 1)
/-- The ports that word 0 of an SMP_START names. -/
def namedPorts (w : Word) : List Nat := [0, 1, 2, 3, 4, 5, 6, 7].filter fun p => bit w (45 - p)
/-- SMP_START (0x0A1, R400). -/
def opSmpStart : OpSpec :=
  { code := 0x0A1, why := 0x006
    eval := fun k s =>
      let w := arg k.ps 0
      let ns := namedPorts w
      let tick := tickAfter s.tb.q0
      if k.ps.length ≠ 1 ∨ 2 ≤ fld w 47 46 ∨ ns = [] then badParam 0x001
      else if ns.any fun n => !(s.smp n).en then notPermitted 0x005
      else acceptWith [cyc tick, frc tick] fun _ s =>
        ns.foldl (fun (s : State) n =>
          let p := s.smp n
          if fld w 47 46 = 0 then s.setSmp n { p with startAt := some tick }
          else if p.state = 2 then s.setSmp n { p with stopAt := some tick } else s) s }
/-- SMP_START with OP 0. -/
def execSmpStart (t : Lapse) (env : Env) (ps : List Word) (s : State) : Host.Outcome State Fault Refusal :=
  runOp opSmpStart t env (fixField 47 46 0 ps) s
/-- SMP_START with OP 1. -/
def execSmpStop (t : Lapse) (env : Env) (ps : List Word) (s : State) : Host.Outcome State Fault Refusal :=
  runOp opSmpStart t env (fixField 47 46 1 ps) s
/-- SMP_PORT_START: the tick of an SMP_START has come (R399, R400). -/
def execSmpPortStart (t : Lapse) (p : Nat) (s : State) : Host.Outcome State Fault Refusal :=
  let s := s.elapse t
  match (s.smp p).startAt with
  | some q => if p < 8 ∧ !behind s.tb.q0 q then .next (s.startPort p q) else .next s
  | none => .next s
/-- SMP_PORT_STOP: every index before the tick of a STOP is complete (R400). -/
def execSmpPortStop (t : Lapse) (p : Nat) (s : State) : Host.Outcome State Fault Refusal :=
  let s := s.elapse t
  let x := s.smp p
  match x.stopAt with
  | some q => if p < 8 ∧ x.state = 2 ∧ !behind s.tb.q0 q ∧ s.idxFrom x x.nextIdx q then .next (s.stopPort p 0) else .next s
  | none => .next s

/-! Slot masks. -/

/-- The mask of 16 bits, bit 15 slot 0, of a word whose bit 44 is slot 0. -/
def maskOf (w : Word) : Nat := fld w 44 29
/-- The slots of a mask that lie at or above NSLOTS. -/
def maskBad (mask ns : Nat) : Bool := decide (mask % 2 ^ (16 - ns) ≠ 0)
/-- The promised record SMP_MASK (R403, Table 6 of R407). -/
def State.maskRecord (n : Nat) (m : MaskWait) (old f j : Nat) (superseded : Bool) (s : State) : State :=
  s.raise m.partner false 0xB05 [word n, word old, word m.mask, word f, word j, word superseded.toNat, word m.jsn]
/-- A mask takes effect at frame F, from index MASK_J on (R403). -/
def State.applyMask (n : Nat) (m : MaskWait) (j : Nat) (s : State) : State :=
  let p := s.smp n
  let s := s.setSmp n { p with mask := m.mask, maskOld := p.mask, maskFrame := word p.frame, maskJ := word j, next := none }
  let s := if p.state = 2 then s.writeHeader n else s
  s.maskRecord n m p.mask p.frame j false
/-- SMP_SLOTMASK (0x0A2, R403). -/
def opSmpSlotmask : OpSpec :=
  { code := 0x0A2, why := 0x006
    eval := fun k s =>
      let w := arg k.ps 0
      let n := fld w 47 45
      if k.ps.length ≠ 1 ∨ ((s.smp n).en ∧ maskBad (maskOf w) (s.smp n).nslots) then badParam 0x001
      else if !(s.smp n).en then notPermitted 0x005
      else
        { status := .accepted, pins := [.config 0x0A2 n], promise := 2
          act := fun jsn s =>
            let m : MaskWait := ⟨maskOf w, jsn, k.partner⟩
            let p := s.smp n
            let s := match p.next with
              | some o => State.maskRecord n o p.mask 0 0 true s
              | none => s
            if p.state = 2 then s.setSmp n { s.smp n with next := some m } else s.applyMask n m 0 } }
/-- SMP_SLOTMASK. -/
def execSmpSlotmask (t : Lapse) (env : Env) (ps : List Word) (s : State) : Host.Outcome State Fault Refusal :=
  runOp opSmpSlotmask t env ps s

/-! Input. -/

/-- FMT of a port. -/
def SmpPort.fmt (p : SmpPort) : Nat := fld p.cfg0 43 42
/-- The slot width. -/
def SmpPort.width (p : SmpPort) : Nat := slotWidth (fld p.cfg0 36 35)
/-- Bit clocks from the frame start edge to the first data bit (Table 1). -/
def SmpPort.lead (p : SmpPort) : Nat := match p.fmt with | 0 => 1 | 1 => 0 | _ => fld p.cfg0 30 30
/-- An edge of the frame clock starts a frame (Table 1). -/
def SmpPort.starts (p : SmpPort) (rising : Bool) : Bool := rising == (decide (p.fmt ≠ 0) != bit p.cfg0 31)
/-- The word of slot k: the bits on the sampling edge of the bit clock, MSB first, widened to 32 bits (R386, R387). -/
def SmpPort.word_ (p : SmpPort) (line : List (Bool × Bool)) (k : Nat) : Int :=
  let n := wordWidth (fld p.cfg0 34 33)
  let bits := ((line.drop (p.lead + k * p.width)).take n).map fun x => if bit p.cfg0 32 then x.2 else x.1
  let v := (List.range n).foldl (fun a i => 2 * a + (bits.getD i false).toNat) 0
  (if v < 2 ^ (n - 1) then (v : Int) else v - 2 ^ n) * 2 ^ (32 - n)
/-- The bit clock is too fast, or the frame rate outside 8-384 kHz (R388). -/
def SmpPort.rateBad (p : SmpPort) (bclk : Nat) : Bool :=
  decide (24576000 < bclk) || (p.rate != 0 && (decide (p.rate.toNat < 8000 * 2 ^ 16) || decide (384000 * 2 ^ 16 < p.rate.toNat)))
/-- The count of bit clocks in a frame is wrong (R388). -/
def SmpPort.countBad (p : SmpPort) (clocks : Nat) : Bool :=
  if p.fmt < 2 then decide (clocks ≠ p.nslots * p.width) else decide (clocks < p.nslots * p.width) || (p.clocks != 0 && p.clocks != clocks)
/-- The instant of the edge n frames after the latest, as the tracker predicts it. -/
def SmpPort.predicted (p : SmpPort) (n : Nat) : Qval := qadd p.edge (n * 2 ^ 64 / max 1 p.rate.toNat)
/-- Frames from the latest edge to a stamp, missing ones included: they keep their places (R388). -/
def SmpPort.framesTo (p : SmpPort) (stamp : Qval) : Nat :=
  if p.rate = 0 then 1 else max 1 ((qdist stamp p.edge * p.rate.toNat + 2 ^ 63) / 2 ^ 64).toNat
/-- The tracker takes a stamp in (R391). -/
def SmpPort.tracked (p : SmpPort) (stamp : Qval) : SmpPort :=
  let n := p.framesTo stamp
  let bw := fld p.cfg4 18 16
  let err := if p.rate = 0 then qdist stamp p.edge else qdist stamp (p.predicted n)
  let edge := if p.rate = 0 then stamp else qadd (p.predicted n) (Config.trackEdge bw p.rate.toNat n err)
  { p with frame := (p.frame + n) % 2 ^ 48, edge := edge, rate := word (satN 48 (Config.trackRate bw p.rate.toNat n err)) }
/-- Pa and Pb of IEC 61937 stand in a slot pair (R404). -/
def preamble (vs : List Int) (pair : Nat) : Bool :=
  decide ((vs.getD (2 * pair) 0) / 2 ^ 16 % 2 ^ 16 = 0xF872) && decide ((vs.getD (2 * pair + 1) 0) / 2 ^ 16 % 2 ^ 16 = 0x4E1F)
/-- The mute state of a pair. -/
def SmpPort.pair (p : SmpPort) (i : Nat) : Mute := tget {} i p.pairs
/-- Look for preambles in one frame (R404); the alarm at most once per second per port (R407). -/
def State.scanPairs (n : Nat) (vs : List Int) (s : State) : State :=
  if !bit (s.smp n).cfg0 28 then s
  else (List.range ((s.smp n).nslots / 2)).foldl (fun (s : State) i =>
    let p := s.smp n
    let m := p.pair i
    if preamble vs i then
      let s := s.setSmp n { p with pairs := tput {} i { m with muted := true, since := p.frame, count := if m.muted then m.count else 0 } p.pairs }
      if m.muted then s else s.raiseLimited false 0xB03 n [word n, word i]
    else s) s
/-- A frame is missing (R388, R402): the port is in underrun and its lock is gone. -/
def State.frameMissing (n : Nat) (fmtErr : Bool) (s : State) : State :=
  let x := s.smp n
  let s := s.setSmp n { x with
    lock := false, good := 0, resids := [], under := true, fmtErr := fmtErr
    underruns := if x.under then x.underruns else satN 16 (x.underruns + 1)
    fmtErrs := if fmtErr && !x.fmtErr then satN 16 (x.fmtErrs + 1) else x.fmtErrs
    inFill := x.inFill || decide (x.state = 2), filledRun := if x.inFill then x.filledRun else 0 }
  if x.under then s else s.raiseLimited false 0xB01 n [word n, word fmtErr.toNat]
/-- IN_LOCK after one more frame with its residual in ps (R391): 64 frames in a row with an RMS residual below 20 ns, after an underrun 16 with residuals below 100 ns. -/
def SmpPort.locks (p : SmpPort) (resid : Nat) : SmpPort :=
  let rs := (resid :: p.resids).take 64
  let good := if !p.hadLock ∨ resid < 100000 then min 64 (p.good + 1) else 0
  let now := if p.hadLock then decide (16 ≤ good) else decide (rs.length = 64) && decide (rs.foldl (fun a r => a + r * r) 0 < 64 * 20000 ^ 2)
  let lock := p.lock || now
  { p with resids := rs, good := good, lock := lock, hadLock := p.hadLock || lock, under := false, fmtErr := false }
/-- A port keeps 2 ms of input, and what the indices still to be written reach back to (R392, R396, R399). -/
def State.keepFrom (s : State) (p : SmpPort) : Qval :=
  let now := s.tb.q0
  let a := qadd now (-(2 * s.span p now + s.deadline p now + usUnits 2000))
  match (if p.state = 2 then s.place p p.nextIdx else none) with
  | some c => let b := qadd c.at_ (-(s.span p c.at_)); if behind b a then b else a
  | none => a
/-- A frame's samples are taken in, or discarded where they lie before the span of the next index (R402); before IN_LOCK they count as missing. -/
def State.takeFrame (n : Nat) (vs : List Int) (direct : Bool) (s : State) : State :=
  let x := s.smp n
  let tau := qadd x.edge (-x.inDly)
  let old : Bool := match (if x.state = 2 then s.place x x.nextIdx else none) with
    | some c => !ahead tau (qadd c.at_ (-(s.span x c.at_)))
    | none => false
  if old then s.setSmp n { x with discarded := satN 24 (x.discarded + 1) }
  else if !x.lock then s
  else
    let muted := (List.range 8).filter fun i => (x.pair i).muted
    s.setSmp n { x with inputs := (x.inputs.filter fun f => !behind f.at_ (s.keepFrom x)) ++ [⟨x.frame, tau, vs, muted, direct⟩] }
/-- SMP_FRAME_START: an edge of the frame clock, stamped to the counter clock, on the direct path to 100 ns (R387, R405); with it come the frequency of the bit clock in Hz, the bit clocks of the frame and the data line at its rising and falling bit-clock edges from the frame's edge on. A wrong frame is missing (R388); a staged mask takes effect (R403). -/
def execSmpFrameStart (t : Lapse) (p : Nat) (rising : Bool) (bclk clocks : Nat) (line : List (Bool × Bool)) (s : State) : Host.Outcome State Fault Refusal :=
  let s := s.elapse t
  let x := s.smp p
  if p < 8 ∧ x.en ∧ s.isOn 10 ∧ !s.pinsLatched 10 ∧ x.starts rising then
    let direct := s.clk.direct
    let stamp := if direct then qadd s.tb.q0 (-((Config.freeNat s.fresh % 28147498 : Nat) : Int)) else s.tb.q0
    let s := if direct then s.putFresh (s.fresh + 1) else s
    let prev := x.edge
    let y := x.tracked stamp
    if x.countBad clocks ∨ y.rateBad bclk then .next (State.frameMissing p true (s.setSmp p { y with clocks := clocks }))
    else
      let y := SmpPort.locks { y with clocks := clocks } (psOfUnits (qdist stamp y.edge)).natAbs
      let vs := (List.range x.nslots).map (x.word_ line)
      let s := State.scanPairs p vs (s.setSmp p y)
      let s := s.takeFrame p vs direct
      .next (match x.next with
        | some m => s.applyMask p m (s.firstIdx y (qadd prev (s.span y s.tb.q0 - x.inDly)))
        | none => s)
  else .next s
/-- SMP_MISSING_FRAME: no frame start edge came within 2 tracked periods of the one expected, or the bit clock or frame rate has left its range (R388). -/
def execSmpMissingFrame (t : Lapse) (p bclk : Nat) (s : State) : Host.Outcome State Fault Refusal :=
  let s := s.elapse t
  let x := s.smp p
  let overdue := x.rate != 0 && !behind s.tb.q0 (x.predicted 3)
  if p < 8 ∧ x.en ∧ s.isOn 10 ∧ !s.pinsLatched 10 ∧ (overdue ∨ x.rateBad bclk) then .next (s.frameMissing p (x.rateBad bclk)) else .next s
/-- SMP_AUDIO: 8,192 frames in a row without a preamble end the mute of a pair (R404). -/
def execSmpAudio (t : Lapse) (p pair : Nat) (s : State) : Host.Outcome State Fault Refusal :=
  let s := s.elapse t
  let x := s.smp p
  let m := x.pair pair
  if p < 8 ∧ pair < 8 ∧ m.muted ∧ m.since + 8192 ≤ x.frame then
    .next ((s.setSmp p { x with pairs := tput {} pair { m with muted := false } x.pairs }).raiseLimited false 0xB04 p [word p, word pair, word m.count])
  else .next s

/-! Output. -/

/-- The word of one slot at index j (Table 4): filled (R394, R402), muted (R404), or the value, saturated (R541) with CLIP. -/
def slotWord (fill : Int) (isFill muted clkq est alias_ : Bool) (v : Int) (j : Nat) : Word :=
  let sv := if isFill then fill else if muted then 0 else sat 32 v
  pack [putS 47 16 sv, putB 15 isFill, putB 14 (muted && !isFill), putB 13 clkq,
    putB 12 (!isFill && !muted && decide (sv ≠ v)), putB 11 est, putB 10 alias_, put 9 0 j]
/-- Slot k is written at index j (R403): the mask in force, or the one before it below MASK_J. -/
def SmpPort.writes (p : SmpPort) (k j : Nat) : Bool :=
  if j < p.maskJ.toNat then p.maskOld.testBit (15 - k) else p.mask.testBit (15 - k)
/-- The input frame index at an output instant (Table 5): frames back from the latest edge at the tracked rate. -/
def SmpPort.frameAt (p : SmpPort) (tj : Qval) : Nat :=
  ((p.frame : Int) + qdist tj (qadd p.edge (-p.inDly)) * p.rate.toNat / 2 ^ 64).toNat
/-- The input frames of a span (t_j − w, t_j + w] (R392). -/
def SmpPort.within (p : SmpPort) (tj : Qval) (w : Int) : List InFrame :=
  p.inputs.filter fun f => ahead f.at_ (qadd tj (-w)) && !ahead f.at_ (qadd tj w)
/-- A span holds a missing input sample (R402): its frames do not follow one another, or one belongs before the first or after the last. -/
def SmpPort.lacks (p : SmpPort) (tj : Qval) (w : Int) (fs : List InFrame) : Bool :=
  let per : Int := 2 ^ 64 / max 1 p.rate.toNat
  match fs, fs.getLast? with
  | f :: rest, some l =>
    (fs.zip rest).any (fun x => x.2.idx != x.1.idx + 1) ||
    (ahead (qadd f.at_ (-per)) (qadd tj (-w)) && !p.inputs.any fun x => x.idx + 1 == f.idx) ||
    (!ahead (qadd l.at_ per) (qadd tj w) && !p.inputs.any fun x => x.idx == l.idx + 1)
  | _, _ => true
/-- Windvane computes one slot of an index and writes it (R392, R394, R402, R404, R405). -/
def State.writeSlot (n j : Nat) (c : Place) (all : Bool) (fs : List InFrame) (k : Nat) (s : State) : State :=
  let p := s.smp n
  if p.writes k j then
    let fin := p.rate.toNat
    let fout := s.outRate p c.at_
    let pr := k / 2
    let muted := fs.any fun f => f.muted.contains pr
    let fill := if bit p.cfg0 29 then tget 0 k p.lastVal else 0
    let v := Config.resample (fs.map fun f => (qdist f.at_ c.at_, f.vals.getD k 0)) fin fout
    let w := slotWord fill all muted (s.clk.pllW.state == 3 || fs.any fun f => f.direct) c.est (decide (256 * fout < fin)) v j
    let p := if all then p else { p with lastVal := tput 0 k (sfld w 47 16) p.lastVal }
    let m := p.pair pr
    let p := if muted && !all && k % 2 == 0 then { p with pairs := tput {} pr { m with count := m.count + 1 } p.pairs } else p
    (s.setSmp n p).memWrites (p.base + k * p.len + j % p.len) [w]
  else s
/-- SMP_SAMPLE_WRITE: once the inputs of its span are there, the next index is computed and written to the ring of every enabled slot, and the header (R392-R398, R402). -/
def execSmpSampleWrite (t : Lapse) (p : Nat) (s : State) : Host.Outcome State Fault Refusal :=
  let s := s.elapse t
  let x := s.smp p
  let j := x.nextIdx
  match s.place x j with
  | none => .next s
  | some c =>
    let w := s.span x c.at_
    let open_ : Bool := match x.stopAt with | some q => behind c.at_ q | none => true
    if p < 8 ∧ x.state = 2 ∧ s.isOn 10 ∧ s.clk.pllW.gives ∧ w + max x.inDly 0 ≤ qdist s.tb.q0 c.at_ ∧ open_ then
      let fs := x.within c.at_ w
      let fast := s.tooFast x c.at_
      let all := c.lost || fast || x.lacks c.at_ w fs
      let s : State := (List.range x.nslots).foldl (fun (s : State) k => s.writeSlot p j c all fs k) s
      let x := s.smp p
      let done := x.inFill && !all
      let s := s.setSmp p { x with
        wr := word j, wrFrame := x.frameAt c.at_
        filled := if all then satN 24 (x.filled + 1) else x.filled
        overrate := if fast then satN 16 (x.overrate + 1) else x.overrate
        inFill := x.inFill && !done, filledRun := if done then 0 else if all && x.inFill then x.filledRun + 1 else x.filledRun }
      let s := s.writeHeader p
      .next (if done then s.raiseLimited false 0xB02 p [word p, word x.filledRun] else s)
    else .next s
/-- A step of Tether time on a running time port (R393): from the first index at or after N on the old timeline every instant is DELTA later; the header records both. -/
def State.stepPort (n : Nat) (old : Qval) (delta : Int) (s : State) : State :=
  let p := s.smp n
  if p.state = 2 ∧ !p.angle then
    let j := s.firstIdx p old
    (s.setSmp n { p with stepIdx := word j, stepDelta := BitVec.ofInt 96 delta, moved := p.moved + delta }).writeHeader n
  else s

/-! Registers. -/

/-- SMP_STAT (Table 8). -/
def State.smpStat (s : State) (n : Nat) : Word :=
  let p := s.smp n
  let na := (List.range 8).foldl (fun m i => m * 2 + (p.pair i).muted.toNat) 0
  pack [put 47 46 p.state, putB 45 p.lock, putB 44 p.under, putB 43 p.fmtErr, putB 42 (s.reversed p), put 41 34 na, put 33 18 p.mask,
    putB 17 p.next.isSome]
/-- SMP_CNT. -/
def SmpPort.cntWord (p : SmpPort) : Word := pack [put 47 24 p.filled, put 23 0 p.discarded]
/-- SMP_CNT2. -/
def SmpPort.cnt2Word (p : SmpPort) : Word := pack [put 47 32 p.underruns, put 31 16 p.fmtErrs, put 15 0 p.overrate]

end Sys2Proof.Machine
end

