-- ==== Sys2Proof/Machine/Steps.lean ====
section
/-! DEFINITION. Steps of Tether time: their announcement (R201, R202) and application (R199, R203, R375, R393). -/
namespace Sys2Proof.Machine
open Sys2Proof

/-- The body of a TIME_STEP record (Table 9). -/
def timeStepWords (cause permit n : Nat) (delta : Int) (jsn : Nat) : List Word :=
  let d : Qval := BitVec.ofInt 96 delta
  [pack [put 47 40 0x09], pack [put 47 44 cause, put 43 42 permit], word n, cyc d, frc d, word jsn]
/-- STEP_ANNOUNCE: at the whole second N − 1 the chosen step is announced on every stream; under ONCE the permit is used up; every UP link is told (R201, R202, R375). -/
def execStepAnnounce (t : Lapse) (s : State) : Host.Outcome State Fault Refusal :=
  let s := s.elapse t
  match s.tb.plan with
  | some p =>
    if atSecond s.tb ∧ s.tb.step.isNone then
      let tb := s.tb.takePermit
      let n := (cyc tb.q0).toNat + 1
      let delta := unitsOfPs (-p.e)
      let ws := timeStepWords p.cause (if p.cause = 0 then 3 else tb.permit) n delta tb.permitJsn
      let s := s.putTb { tb with
        plan := none, step := some ⟨n, delta, p⟩
        permit := if p.cause ≠ 0 ∧ tb.permit = 1 then 0 else tb.permit }
      let d : Qval := BitVec.ofInt 96 delta
      let s : State := [0, 1, 2, 3, 4, 5, 6, 7].foldl (fun (s : State) l =>
        if (s.lnk l).state = 3 then s.setLnk l ((s.lnk l).ctl (lendiFrame 5 false 0 [word n, cyc d, frc d])) else s) s
      .next ([0, 1, 2, 3, 4].foldl (fun (s : State) i => s.record i false ws) s)
    else .next s
  | none => .next s
/-- An output across a step (R199, R203): a periodic one takes its next edge on the new timeline, at or after both the new present and half a period past its last edge; one that waited for time starts half a period after the step; an aligned clock output stretches one inactive phase by (−DELTA) mod P; STEPPED sets. The phase of another clock output stays where it physically is. -/
def Output.step (new : Qval) (delta : Int) (first : Bool) (freqT : Nat) (o : Output) : Output :=
  if o.conf.periodic ∧ o.state = 1 ∧ first then
    { o with state := 2, next := some (qOf (o.conf.firstLead (uOf new + o.conf.half))) }
  else if o.conf.periodic ∧ o.state = 2 then
    let lo := match o.from_ with | some l => max (uOf new) (uOf l + o.conf.half) | none => uOf new
    { o with flags := setBit o.flags 2, next := some (qOf (o.conf.firstLead lo)) }
  else if o.conf.clock ∧ o.conf.src = 1 then
    let p := o.conf.cycle freqT
    let by_ : Rat := if o.conf.aligned ∧ 0 < p then (-delta : Int) - p * ((-delta : Int) / p).floor else 0
    { o with lead := o.lead.map (· + delta + by_), flags := if o.conf.aligned ∧ o.state = 2 then setBit o.flags 2 else o.flags }
  else o
/-- A link in UP that could not be told of a step before N goes through TIMING again (R375). -/
def Link.stepped (clk : Nat) (k : Link) : Link :=
  if k.state = 3 ∧ k.control.any (fun ws => frameType ws == 5) then
    { k with state := 2, tlock := false, good := 0, upClk := none, outClk := some clk, control := k.control.filter fun ws => frameType ws != 5 }
  else k
/-- The instants that only durations are counted from go onto the new timeline, so that no duration changes at a step: when holdover began, stamps of quantities, ends of pulses, the delays of the mode machine, LOCK_MS. -/
def State.shiftStamps (d : Int) (s : State) : State :=
  let f := Option.map fun q => qadd q d
  let s := s.putTb { s.tb with hoStart := f s.tb.hoStart, tsrcAt := f s.tb.tsrcAt }
  let s := s.putQs (s.qs.map fun (e : Nat × Qty) => (e.1, { e.2 with tu := qadd e.2.tu d, fell := qadd e.2.fell d, backAt := f e.2.backAt }))
  let s := s.putOuts (s.outs.map fun (e : Nat × Output) => (e.1, { e.2 with until_ := f e.2.until_, from_ := f e.2.from_ }))
  let s := s.putModes { s.modes with misfit := s.modes.misfit.map (fun (e : Nat × Option Qval) => (e.1, f e.2)), lack := f s.modes.lack, present := f s.modes.present, wakeAt := qadd s.modes.wakeAt d, fixAt := qadd s.modes.fixAt d }
  let s := s.putPorts (s.ports.map fun (e : Nat × SmpPort) => (e.1, { e.2 with edge := qadd e.2.edge d, inputs := e.2.inputs.map (fun f => { f with at_ := qadd f.at_ d }), ups := e.2.ups.map (fun u => { u with at_ := qadd u.at_ d }) }))
  s.putKite { s.kite with chans := s.kite.chans.map fun (e : Nat × Chan) => (e.1, { e.2 with obs := { e.2.obs with lockFrom := qadd e.2.obs.lockFrom d } }) }
/-- STEP_APPLY: at N Tether time becomes N + DELTA; the quantities' stamps move with it, periodic and aligned outputs set STEPPED, TSRC and TQE become what the step brings, or holdover where the mode steers nothing (R161), and a leap change that the step reaches takes effect (R36, R202, R203). -/
def execStepApply (t : Lapse) (s : State) : Host.Outcome State Fault Refusal :=
  let s := s.elapse t
  match s.tb.step with
  | some a =>
    if a.n ≤ (cyc s.tb.q0).toNat then
      let old := s.tb.q0
      let new := qadd old a.delta
      let s := s.putTb { s.tb with q0 := new, step := none, resid := 0, stepSpan := some (old, new) }
      let s := State.feed 16 0 (s.shiftStamps a.delta)
      let first := s.tb.tsrc = 0
      let s : State := [0, 1, 2, 3, 4, 5, 6, 7].foldl (fun (s : State) n => s.setOut n ((s.out n).step new a.delta first (s.clk.pllT.freq.toNat % 2 ^ 46))) s
      let s : State := [0, 1, 2, 3, 4, 5, 6, 7].foldl (fun (s : State) p => s.stepPort p old a.delta) s
      let s : State := [0, 1, 2, 3, 4, 5, 6, 7].foldl (fun (s : State) l => s.setLnk l ((s.lnk l).stepped s.tb.clk)) s
      let s : State := if s.tb.tsrc = 4 ∨ s.tb.tsrc = 0 ∨ a.plan.cause = 0 then s.setTsrc a.plan.after else s
      let s := if s.tb.tsrc = 2 then s else s.putTb { s.tb with tqe := a.plan.tqe.getD s.tb.tqe }
      let s := if s.steering then s else s.endSteering
      .next (if s.leapDue then s.takeLeap else s)
    else .next s
  | none => .next s

end Sys2Proof.Machine
end

