-- ==== Sys2Proof/Machine/Flags.lean ====
section
/-! DEFINITION. Arithmetic of the user cores: ALU results and the flags Z, N, C, V of MODE (R411, R422), accumulation (R413, R414), extraction (R415), redundant sign bits (R420). -/
namespace Sys2Proof.Machine
open Sys2Proof

/-- A result with its carry and overflow; none where the spec states none. -/
structure AluOut where
  value : Word
  carry : Option Bool := none
  over_ : Option Bool := none
  deriving DecidableEq, Repr

/-- ADD: the sum modulo 2^48, its carry and its signed overflow. -/
def aluAdd (a b : Word) : AluOut :=
  { value := a + b, carry := some (decide (2 ^ 48 ≤ a.toNat + b.toNat)), over_ := some (decide (a.toInt + b.toInt ≠ (a + b).toInt)) }
/-- SUB and CMP: the difference modulo 2^48; which way C reads after a borrow is not stated. -/
def aluSub (a b : Word) : AluOut :=
  { value := a - b, carry := some (decide (a.toNat < b.toNat) == Config.carryIsBorrow), over_ := some (decide (a.toInt - b.toInt ≠ (a - b).toInt)) }
/-- A shift by a count below 48; the result of a greater one is not stated. -/
def aluShift (f : Word → Nat → Word) (free : Word) (a b : Word) : AluOut := { value := if b.toNat < 48 then f a b.toNat else free }
/-- The result of an ALU operation. `free` stands for a result the spec does not state: a shift by 48 or more, ABS and NEG of −2^47. -/
def aluOp (op : AluOp) (free : Word) (a b : Word) : AluOut :=
  match op with
  | .add => aluAdd a b
  | .sub => aluSub a b
  | .cmp => aluSub a b
  | .and => { value := a &&& b }
  | .or => { value := a ||| b }
  | .xor => { value := a ^^^ b }
  | .shl => aluShift (fun x n => x <<< n) free a b
  | .shr => aluShift (fun x n => x >>> n) free a b
  | .sar => aluShift (fun x n => x.sshiftRight n) free a b
  | .abs => { value := if a = 0x800000000000#48 then free else if a.toInt < 0 then -a else a }
  | .neg => { value := if a = 0x800000000000#48 then free else -a }
  | .min => { value := if a.toInt ≤ b.toInt then a else b }
  | .max => { value := if a.toInt ≤ b.toInt then b else a }
/-- MODE with the flags of an ALU operation: Z and N of its result, C and V as it gives them or free (R411). -/
def withFlags (mode : Word) (r : AluOut) (fresh : Nat) : Word :=
  pack [put 47 46 (fld mode 47 46), putB 45 (r.value == 0), putB 44 (bit r.value 47),
    putB 43 (r.carry.getD (Config.freeBit fresh)), putB 42 (r.over_.getD (Config.freeBit (fresh + 1))), put 41 0 (fld mode 41 0)]

/-- The product of one half of a DMAC (Table 3). -/
def macProduct (mode : Nat) (x y : Word) : Int :=
  match mode with
  | 0 => x.toInt * y.toInt
  | 1 => x.toNat * y.toNat
  | 2 => x.toInt * y.toNat
  | _ => 2 * (x.toInt * y.toInt)
/-- The accumulator that an exact value becomes, and whether it left the 120-bit range (R414). -/
def accFit (sata : Bool) (v : Int) : Acc × Bool :=
  let out := decide (v < -2 ^ 119 ∨ 2 ^ 119 ≤ v)
  (BitVec.ofInt 120 (if sata then max (-2 ^ 119) (min (2 ^ 119 - 1) v) else v), out)
/-- EXT (R415): shifted right arithmetically, rounded, limited or not. -/
def extValue (a : Acc) (sh rnd : Nat) (sat : Bool) : Word :=
  let x := a.toInt
  let q := x / 2 ^ sh
  let v :=
    if sh = 0 ∨ rnd = 0 then q
    else if rnd = 1 then (x + 2 ^ (sh - 1)) / 2 ^ sh
    else
      let r := x % 2 ^ sh
      if r < 2 ^ (sh - 1) then q else if 2 ^ (sh - 1) < r then q + 1 else q + q % 2
  BitVec.ofInt 48 (if sat then max (-2 ^ 47) (min (2 ^ 47 - 1) v) else v)
/-- Redundant sign bits of an n-bit number (R420): the bits below the sign bit that equal it, up to the first that differs. -/
def signBits (n : Nat) (x : Nat) : Nat :=
  let s := x.testBit (n - 1)
  ((List.range (n - 1)).takeWhile fun i => x.testBit (n - 2 - i) == s).length
/-- Rotation left by n lanes of 8 bits (R418). -/
def rotLanes (w : Word) (n : Nat) : Word := w.rotateLeft (8 * n)
/-- FUN (R418): bits [95 − 8n : 48 − 8n] of Da·2^48 + Db. -/
def funnel (a b : Word) (n : Nat) : Word := word ((a.toNat * 2 ^ 48 + b.toNat) / 2 ^ (48 - 8 * n))

end Sys2Proof.Machine
end

