-- ==== Sys2Proof/Machine/Dsp.lean ====
section
/-! DEFINITION. The signal-processing cluster: loading tasks (R423, R424), starting, running and aborting them (R425-R428), failed cores (R431, R432), registers (R433). -/
namespace Sys2Proof.Machine
open Sys2Proof

/-- Change user core k. -/
def State.onUC (k : Nat) (f : UCore → UCore) (s : State) : State := s.setCore k (f (s.core k))
/-- Dn. -/
def UCore.dr (c : UCore) (n : Nat) : Word := tget 0 n c.d
/-- Write Dn. -/
def UCore.setD (n : Nat) (v : Word) (c : UCore) : UCore := { c with d := tput 0 n v c.d }
/-- The run ends: the length of the run is kept, and the time it took (R433, Table 10). -/
def UCore.stop (clk : Nat) (c : UCore) : UCore :=
  match c.run with
  | some r =>
    let c := c.setSlot r.task { c.slot r.task with lastCyc := satN 24 (c.cycnt / 1024) }
    { c with run := none, spans := (c.runClk, clk) :: c.spans.filter fun x => clk < x.2 + 65472000 }
  | none => c
/-- A task is aborted with a code (R428, Table 6): ALARM DSP_FAULT to its owner, LAST, and a counter. -/
def State.abortTask (k code : Nat) (s : State) : State :=
  let c := s.core k
  match c.run with
  | none => s
  | some r =>
    let c' := c.stop s.tb.clk
    let c' := { c' with
      last := pack [put 47 44 code, put 43 38 r.task, put 37 14 c.pc]
      aborts := if code = 5 then satN 16 (c.aborts + 1) else c.aborts
      faults := if code = 5 then c.faults else satN 16 (c.faults + 1) }
    let s := s.setCore k c'
    let o := (c.slot r.task).owner
    if o < 5 then s.raise o false 0xC01 [word k, word r.task, word code, word c.pc] else s
/-- The words of a region, checked by CRC-32C. -/
def State.imageCrc (base size : Nat) (s : State) : Nat := crc32c (wireBytes (s.mem.reads base size))
/-- A region lies in the user region and outside every configured port's rings and header (R416, R424). -/
def State.userRegion (a n : Nat) (s : State) : Bool :=
  decide (0xC00000 ≤ a) && decide (a + n ≤ 0x1000000) && !s.ringsHit 8 a n
/-- A region lies over the image of a LOADED slot of either core. -/
def State.overImage (a n : Nat) (s : State) : Bool :=
  [0, 1].any fun k => (s.core k).slots.any fun e => e.2.loaded && overlaps a n e.2.base e.2.size
/-- A slot has pending events, a waiting start or a running instance. -/
def State.slotBusy (k task : Nat) (s : State) : Bool :=
  (s.sch.events.any fun e => e.action == 2 && fld e.sink 47 47 == k && fld e.sink 46 41 == task) ||
  ((s.core k).ring.any fun r => r.task == task) || (match (s.core k).run with | some r => r.task == task | none => false)
/-- DSP_LOAD (0x0F0, R423, R424). -/
def opDspLoad : OpSpec :=
  { code := 0x0F0, why := 0x006
    eval := fun k s =>
      let w := arg k.ps 0
      let c := fld w 47 47
      let task := fld w 44 39
      let addr := fld w 23 0
      let n := k.ps.length - 1
      let base := fld (arg k.ps 1) 47 24
      let size := fld (arg k.ps 1) 23 0
      let entry := fld (arg k.ps 2) 47 24
      let maxc := fld (arg k.ps 2) 23 0
      let sl := (s.core c).slot task
      let sup := (s.part k.partner).rights = 3
      match fld w 46 45 with
      | 0 =>
        if k.ps = [] then badParam 0x001
        else if !s.userRegion addr n then badParam 0x002
        else if s.overImage addr n then notPermitted 0x004
        else if (s.core c).failed then reason .fault 0x012
        else acceptWith [] fun _ s => s.memWrites addr (k.ps.drop 1)
      | 1 =>
        if k.ps.length ≠ 4 ∨ size < 1 ∨ 65536 < size ∨ entry < base ∨ base + size ≤ entry ∨ maxc < 1 then badParam 0x001
        else if !s.userRegion base size then badParam 0x002
        else if (sl.loaded ∧ sl.owner ≠ k.partner) ∨ s.slotBusy c task then notPermitted 0x004
        else if (s.core c).failed then reason .fault 0x012
        else
          { status := .accepted, promise := 1
            act := fun jsn s =>
              if s.imageCrc base size = fld (arg k.ps 3) 31 0 then
                s.onUC c fun x => x.setSlot task { loaded := true, owner := k.partner, entry := entry, base := base, size := size, crc := fld (arg k.ps 3) 31 0, maxcyc := maxc }
              else s.raise k.partner false 0xC02 [word jsn, 0x003] }
      | 2 =>
        if k.ps.length ≠ 1 then badParam 0x001
        else if (sl.loaded ∧ sl.owner ≠ k.partner ∧ !sup) ∨ s.slotBusy c task then notPermitted 0x004
        else if (s.core c).failed then reason .fault 0x012
        else acceptWith [] fun _ s => s.onUC c fun x => x.setSlot task {}
      | _ => badParam 0x001 }
/-- DSP_LOAD with OP 0. -/
def execDspLoadData (t : Lapse) (env : Env) (ps : List Word) (s : State) : Host.Outcome State Fault Refusal :=
  runOp opDspLoad t env (fixField 46 45 0 ps) s
/-- DSP_LOAD with OP 1. -/
def execDspLoadCommit (t : Lapse) (env : Env) (ps : List Word) (s : State) : Host.Outcome State Fault Refusal :=
  runOp opDspLoad t env (fixField 46 45 1 ps) s
/-- DSP_LOAD with OP 2. -/
def execDspLoadUnload (t : Lapse) (env : Env) (ps : List Word) (s : State) : Host.Outcome State Fault Refusal :=
  runOp opDspLoad t env (fixField 46 45 2 ps) s
/-- DSP_TASK (0x0F1, R424, R425). -/
def opDspTask : OpSpec :=
  { code := 0x0F1, why := 0x006
    eval := fun k s =>
      let w := arg k.ps 0
      let c := fld w 47 47
      let task := fld w 45 40
      let n := fld w 39 37
      let sl := (s.core c).slot task
      if k.ps.length ≠ 1 + n ∨ 4 < n then badParam 0x001
      else if bit w 46 then
        if sl.loaded ∧ sl.owner ≠ k.partner ∧ (s.part k.partner).rights < 3 then notPermitted 0x006
        else if (s.core c).failed then reason .fault 0x012
        else acceptWith [] fun _ s =>
          let waiting := ((s.core c).ring.filter fun r => r.task == task).length
          let s := s.onUC c fun x => { x with ring := x.ring.filter fun r => r.task ≠ task, aborts := satN 16 (x.aborts + waiting) }
          match (s.core c).run with
          | some r => if r.task = task then s.abortTask c 5 else s
          | none => s
      else if !sl.loaded then notPermitted 0x005
      else if sl.owner ≠ k.partner then notPermitted 0x004
      else if (s.core c).failed then reason .fault 0x012
      else acceptWith [] fun jsn s => s.pushStart c ⟨task, jsn, 0, s.tb.q0, k.ps.drop 1, false, s.clk.direct⟩ }
/-- DSP_TASK with OP 0. -/
def execDspTaskStart (t : Lapse) (env : Env) (ps : List Word) (s : State) : Host.Outcome State Fault Refusal :=
  runOp opDspTask t env (fixField 46 46 0 ps) s
/-- DSP_TASK with OP 1. -/
def execDspTaskAbort (t : Lapse) (env : Env) (ps : List Word) (s : State) : Host.Outcome State Fault Refusal :=
  runOp opDspTask t env (fixField 46 46 1 ps) s

/-- The core as a task finds it at entry (R427). -/
def UCore.enter (clk : Nat) (r : Start) (rest : List Start) (c : UCore) : UCore :=
  let sl := c.slot r.task
  let ds := (List.range 4).map (fun i => (i, arg r.argw i)) ++
    [(4, word r.jsn), (5, word r.occ), (6, cyc r.at_), (7, frc r.at_), (8, pack [putB 47 r.late, putB 46 r.clkq, put 45 24 sl.drops])]
  let c := c.setSlot r.task { sl with drops := 0 }
  { c with
    d := ds.filter fun e => e.2 ≠ 0, a := [], ap := [], ix := [], off := [], ln := [], mode := 0, pc := sl.entry, cycnt := 0, loops := []
    run := some r, npost := 0, ring := rest, starts := satN 24 (c.starts + 1), runClk := clk }
/-- TASK_START: an idle core takes the next record of its ring (R426, R427), unless a self-test has the cores (R310). -/
def execTaskStart (t : Lapse) (k : Nat) (s : State) : Host.Outcome State Fault Refusal :=
  let s := s.elapse t
  let c := s.core k
  match c.ring, c.run with
  | r :: rest, none =>
    if k < 2 ∧ s.isOn 6 ∧ s.clk.pllS.gives ∧ !c.failed ∧ !s.pwr.selftest.testBit 2 then .next ((s.setCore k (c.enter s.tb.clk r rest)).emit (.coreStart k r.task)) else .next s
  | _, _ => .next s
/-- A user core executes for its running task: it has one, and D6 is on. -/
def State.coreRuns (s : State) (k : Nat) : Bool := decide (k < 2) && s.isOn 6 && s.clk.pllS.gives && (s.core k).run.isSome && !(s.core k).failed
/-- BUDGET: CYCNT has reached MAXCYC × 1,024 (Table 6). -/
def execBudget (t : Lapse) (k : Nat) (s : State) : Host.Outcome State Fault Refusal :=
  let s := s.elapse t
  let c := s.core k
  match c.run with
  | some r => if s.coreRuns k ∧ (c.slot r.task).maxcyc * 1024 ≤ c.cycnt then .next (s.abortTask k 4) else .next s
  | none => .next s
/-- ILLEGAL: an illegal instruction (R422, Table 6). -/
def execIllegal (t : Lapse) (k : Nat) (s : State) : Host.Outcome State Fault Refusal :=
  let s := s.elapse t
  if s.coreRuns k then .next (s.abortTask k 1) else .next s
/-- A user core fails (R432): its task is lost, and the starts that wait are discarded and counted. -/
def State.coreFails (k : Nat) (s : State) : State :=
  let c := s.core k
  let ring := c.ring
  let c := { c.stop s.tb.clk with failed := true, ring := [] }
  let s := s.setCore k c
  let s : State := ring.foldl (fun (s : State) r => s.pushStart k r) s
  State.partFailed 0x012 (2 + k) ((s.putFc { s.fc with core := setBit s.fc.core (2 + k) }).putDsp { s.dsp with failed := setBit s.dsp.failed (2 + k) })
/-- USER_CORE_FAILED: the self-check fails, or no instruction retires for 100 ms with a task running (R432). -/
def execUserCoreFailed (t : Lapse) (k : Nat) (s : State) : Host.Outcome State Fault Refusal :=
  let s := s.elapse t
  if k < 2 ∧ s.isOn 6 ∧ !(s.core k).failed then .next (s.coreFails k) else .next s
/-- CORE_HEARTBEAT_LOSS: C0 or C1 without heartbeat for 100 ms; the other runs both roles (R337, R431). -/
def execCoreHeartbeatLoss (t : Lapse) (c : Nat) (s : State) : Host.Outcome State Fault Refusal :=
  let s := s.elapse t
  if c < 2 ∧ s.isOn 6 ∧ !s.dsp.failed.testBit c then
    let other := 1 - c
    let d := { s.dsp with failed := setBit s.dsp.failed c }
    let d := if s.dsp.failed.testBit other then d else { d with navMeas := other, navSol := other }
    .next (State.partFailed 0x012 c ((s.putDsp d).putFc { s.fc with core := setBit s.fc.core c }))
  else .next s

/-! Registers. -/

/-- DSP_STAT (Table 9). -/
def Dsp.stat (d : Dsp) : Word :=
  pack [put 47 47 d.navMeas, put 46 46 d.navSol, putB 45 (d.failed.testBit 0), putB 44 (d.failed.testBit 1), putB 43 (d.failed.testBit 2), putB 42 (d.failed.testBit 3)]
/-- Counter clocks of the last 100 ms in which a task ran. -/
def UCore.busyClk (c : UCore) (clk : Nat) : Nat :=
  let from_ := clk - 65472000
  let spans := if c.run.isSome then (c.runClk, clk) :: c.spans else c.spans
  spans.foldl (fun n x => n + (x.2 - max x.1 from_)) 0
/-- UC_STAT (Table 10); BUSY_PCT is rounded down. -/
def State.ucStat (s : State) (k : Nat) : Word :=
  let c := s.core k
  let st := if c.failed then 3 else if !s.isOn 6 then 0 else if c.run.isSome then 2 else 1
  pack [put 47 46 st, put 45 40 (match c.run with | some r => r.task | none => 0), put 39 29 c.ring.length,
    put 28 22 (c.busyClk s.tb.clk * 100 / 65472000)]
/-- The four words of a task slot (Tables 8, 11). -/
def TaskSlot.word_ (x : TaskSlot) (i : Nat) : Word :=
  match i with
  | 0 => pack [put 47 46 x.loaded.toNat, put 45 43 x.owner, put 23 0 x.entry]
  | 1 => pack [put 47 24 x.base, put 23 0 x.size]
  | 2 => pack [put 47 16 x.crc]
  | _ => pack [put 47 24 x.maxcyc, put 23 0 x.lastCyc]

end Sys2Proof.Machine
end

