-- ==== Sys2Proof/Machine/Banks.lean ====
section
/-! DEFINITION. The banks of shared memory: regions (R436), arbitration (R437), the order of a master's accesses (R438), collisions (R441, R442), error correction (R444, R445). Every access, of an engine or of a user core, is a request at its bank. -/
namespace Sys2Proof.Machine
open Sys2Proof

/-! What shared memory does on an error (R436, R444). -/

/-- Replace the memory block. -/
def State.setMem (s : State) (m : Memory) : State := s.putMem m
/-- A bank: 0–31, 32 for BS. -/
def Memory.bank (m : Memory) (b : Nat) : Bank := tget {} b m.banks
/-- Replace a bank. -/
def Memory.setBank (b : Nat) (v : Bank) (m : Memory) : Memory := { m with banks := tput {} b v m.banks }
/-- The bank of an address; BS answers under the number of the bank it has replaced (R447). -/
def bankOf (a : Nat) : Nat := a % 32
/-- An uncorrectable read (R444): the word keeps bad check bits; recurring after a rewrite, the bank counts as failed (R446). -/
def State.uncorrected (a b master : Nat) (s : State) : State :=
  let k := s.mem.bank b
  let again := s.mem.met.contains a && !s.mem.bad.contains a
  let m := { (s.mem.setBank b { k with ue := satN 16 (k.ue + 1), due := k.due || again }) with
    ue := satN 24 (s.mem.ue + 1), ueAddr := pack [put 47 24 a, put 23 20 master], fault := setBit s.mem.fault 2
    bad := if s.mem.bad.contains a then s.mem.bad else a :: s.mem.bad, met := if s.mem.met.contains a then s.mem.met else a :: s.mem.met }
  (s.setMem m).raiseLimited true 0xD01 b [word a, word master]
/-- A write outside the regions of its master: GUARD and MEM_GUARD (R436, R453). -/
def State.guarded (master a : Nat) (s : State) : State :=
  (s.setMem { s.mem with fault := setBit s.mem.fault 3 }).raiseLimited true 0xD03 master [word master, word a]

/-- MEM_GRPCFG of a group: WWN 1, RWN 0 at reset (Table 8). -/
def Memory.grp (m : Memory) (g : Nat) : Word := tget 0x800000000000#48 g m.grpcfg
/-- What a master has met. -/
def Memory.conf (m : Memory) (i : Nat) : MasterConf := tget {} i m.confs
/-- Count a wait of a master. -/
def Memory.waits (i : Nat) (m : Memory) : Memory :=
  { m with confs := tput {} i { m.conf i with waits := satN 24 ((m.conf i).waits + 1) } m.confs }
/-- Count a lost write of a master. -/
def Memory.loses (i : Nat) (m : Memory) : Memory :=
  { m with confs := tput {} i { m.conf i with wlost := satN 24 ((m.conf i).wlost + 1) } m.confs }
/-- A patrol engine. -/
def Memory.patrol (m : Memory) (g : Nat) : Patrol := tget {} g m.patrols
/-- Replace a patrol engine. -/
def Memory.setPatrol (g : Nat) (v : Patrol) (m : Memory) : Memory := { m with patrols := tput {} g v m.patrols }
/-- The memory cycle of a counter clock, at 600 MHz (R437). -/
def memCycle (clk : Nat) : Nat := clk * 600000000 / 654720000

/-- A region of Table 1: 0 scheduler, 1 event buffer, 2 Ndovos, 3 user. -/
def regionOf (a : Nat) : Nat := if a < 0x780000 then 0 else if a < 0x980000 then 1 else if a < 0xC00000 then 2 else 3
/-- The masters that may write in a region (Table 1). -/
def mayWrite (m region : Nat) : Bool :=
  match region with
  | 0 => [0, 1].contains m
  | 1 => [7, 8, 10, 12, 14].contains m
  | 2 => [1, 2, 3, 5, 6, 8, 10].contains m
  | _ => [0, 4, 12, 14].contains m
/-- The user core behind a master, if any (R410). -/
def coreOf (m : Nat) : Option Nat := if m = 12 ∨ m = 13 then some 0 else if m = 14 ∨ m = 15 then some 1 else none
/-- A request that does not wait for others of M8–M15 or a lease: M0, M1 or urgent. -/
def reqHard (r : MemReq) : Bool := decide (r.master < 2) || (r.urgent && decide (8 ≤ r.master ∧ r.master ≤ 11))

/-- Correct a single-bit error at a bank (R444); past 1,024 in 1 s the bank counts as failed (R446). -/
def State.corrected (b : Nat) (s : State) : State :=
  let k := s.mem.bank b
  let times := (s.tb.clk :: k.times).take 1025
  let high := decide (times.length = 1025) && decide (s.tb.clk ≤ times.getLastD 0 + 654720000)
  let m := { (s.mem.setBank b { k with ce := satN 24 (k.ce + 1), times := times, due := k.due || high }) with ce := satN 24 (s.mem.ce + 1) }
  if high then (s.setMem { m with fault := setBit m.fault 1 }).raiseLimited true 0xD02 b [word b, word times.length] else s.setMem m
/-- A write is one that its master may make (R416, R436). -/
def State.memAllowed (s : State) (r : MemReq) : Bool :=
  mayWrite r.master (regionOf r.addr) && ((coreOf r.master).isNone || regionOf r.addr != 3 || s.userRegion r.addr 1)
/-- Words of the command unit or of Tether's tables are lost: they are rebuilt from the journal, and the occurrences of the events they belong to are judged as after an outage (R337, R445). Which word holds which event is not stated. -/
def State.rebuild (as : List Nat) (s : State) : State :=
  let s := s.setMem { s.mem with bad := s.mem.bad.filter fun a => !as.contains a }
  s.putSch { s.sch with events := s.sch.events.map fun e =>
    if e.st = .pending ∧ as.any (fun a => Config.tableWord a e.jsn) then { e with st := .outage, armed := false } else e }
/-- A granted read: `fwd` is the data written to the word in the same cycle where RWN returns them (R442); otherwise the check, and what a master does on ERR (R444, R445). -/
def State.memRead (r : MemReq) (fwd : Option Word) (s : State) : State :=
  let a := r.addr
  let b := bankOf a
  match fwd with
  | some w => s.emit (.mem r.master a 0 w)
  | none =>
  if r.ecc = 2 ∨ s.mem.bad.contains a then
    let s := (s.uncorrected a b r.master).emit (.mem r.master a 1 0)
    match coreOf r.master with
    | some k => s.abortTask k 7
    | none => if r.master < 2 then s.rebuild [a] else s
  else
    let s := s.emit (.mem r.master a 0 (s.mem.read a))
    if r.ecc = 1 then s.corrected b else s
/-- A granted write: outside the master's regions it is not performed (R436); a user core's in a port's rings aborts its task (R416). -/
def State.memWrite (r : MemReq) (w : Word) (s : State) : State :=
  if s.memAllowed r then s.memWrites r.addr [w]
  else if mayWrite r.master (regionOf r.addr) then
    match coreOf r.master with
    | some k => s.abortTask k 3
    | none => s
  else
    let s := (s.emit (.mem r.master r.addr 1 0)).guarded r.master r.addr
    match coreOf r.master with
    | some k => s.abortTask k 3
    | none => s
/-- The request is kept back by the cap of 4 grants in 64 cycles for M0–M7 (R437). -/
def Memory.capped (m : Memory) (r : MemReq) (mc : Nat) : Bool :=
  decide (r.master < 8) &&
  decide (4 ≤ ((tget [] (bankOf r.addr * 16 + r.master) m.grants).filter fun c => mc < c + 64).length)
/-- The order in which a bank serves requests: M0–M7 by number, then those of M8–M15 that have waited 8 cycles, then the rest, by number (R437). -/
def BankReq.rank (x : BankReq) (mc : Nat) : Nat := if x.req.master < 8 then x.req.master else if x.since + 8 ≤ mc then x.req.master else 16 + x.req.master
/-- The lease that holds an address, if any. -/
def Memory.leaseOn (m : Memory) (a mc : Nat) : Option Nat :=
  (List.range 4).find? fun g => match (m.patrol g).lease with
    | some (b, row, start) => b == bankOf a && decide (row ≤ a / 32) && decide (a / 32 < row + 64) && decide (mc < start + 768)
    | none => false
/-- The requests that stand at their banks: of each master the one issued first, so that its accesses take effect in their order (R438), unless the cap keeps it at its master. -/
def Memory.standing (m : Memory) (mc : Nat) : List BankReq :=
  ((List.range 16).filterMap fun i => m.queue.find? fun x => x.req.master == i).filter fun x => !m.capped x.req mc
/-- The two requests that bank b grants in this cycle (R437); a lease holds back all but those that end it (R449). -/
def Memory.grantsAt (m : Memory) (b mc : Nat) : List BankReq :=
  let here := (m.standing mc).filter fun x => bankOf x.req.addr == b && (reqHard x.req || (m.leaseOn x.req.addr mc).isNone)
  (here.mergeSort fun x y => decide (x.rank mc ≤ y.rank mc)).take 2
/-- The data written to a word in the cycle of a read of it, where RWN returns them (R442). -/
def State.forwarded (s : State) (gs : List BankReq) (r : MemReq) : Option Word :=
  if bit (s.mem.grp (bankOf r.addr / 8)) 46 then
    (gs.find? fun x => x.req.data.isSome && x.req.addr == r.addr && s.memAllowed x.req).bind fun x => x.req.data
  else none
/-- What a read that is granted with `gs` returns: none where the check fails (R442, R444). -/
def State.readBack (s : State) (gs : List BankReq) (r : MemReq) : Option Word :=
  match s.forwarded gs r with
  | some w => some w
  | none => if r.ecc = 2 ∨ s.mem.bad.contains r.addr then none else some (s.mem.read r.addr)
/-- A granted access counts at its bank, and ends the lease that holds its word (R437, R449, Table 6). -/
def State.granted (mc : Nat) (s : State) (r : MemReq) : State :=
  let b := bankOf r.addr
  let key := b * 16 + r.master
  let m := { s.mem with grants := tput [] key (if r.master < 8 then (mc :: tget [] key s.mem.grants).take 4 else []) s.mem.grants
                        load := (msOf s.tb.q0, b, 1) :: s.mem.load.filter fun x => msOf s.tb.q0 < x.1 + 100 }
  match m.leaseOn r.addr mc with
  | some g => s.setMem { (m.setPatrol g { m.patrol g with lease := none }) with preempt := satN 16 (m.preempt + 1) }
  | none => s.setMem m
/-- The writes that a bank has granted together, the higher priority first (R441). -/
def State.serveWrites (ws : List MemReq) (s : State) : State :=
  match ws with
  | [x, y] =>
    let x' := x.data.getD 0
    let y' := y.data.getD 0
    if x.addr = y.addr ∧ s.memAllowed x ∧ s.memAllowed y ∧ bit (s.mem.grp (bankOf x.addr / 8)) 47 then
      let s := s.memWrite x x'
      (s.setMem (s.mem.loses y.master)).emit (.mem y.master y.addr 2 0)
    else (s.memWrite x x').memWrite y y'
  | [x] => s.memWrite x (x.data.getD 0)
  | _ => s
/-- Bank b serves what it grants: the reads see the words as they are before the cycle's writes, or the data being written (R441, R442). -/
def State.serve (mc b : Nat) (s : State) : State :=
  let gs := s.mem.grantsAt b mc
  let s : State := gs.foldl (fun (s : State) x => s.granted mc x.req) s
  let s0 := s
  let s : State := (gs.filter fun x => x.req.data.isNone).foldl (fun (s : State) x => s.memRead x.req (s0.forwarded gs x.req)) s
  s.serveWrites ((gs.map fun x => x.req).filter fun r => r.data.isSome)
/-- One memory cycle of every bank; a request at its bank that is not granted waits, and counts once (Table 10). -/
def State.bankCycle (mc : Nat) (s : State) : State :=
  let at_ := s.mem.standing mc
  let banks := (List.range 32).filter fun b => at_.any fun x => bankOf x.req.addr == b
  let won := banks.flatMap fun b => s.mem.grantsAt b mc
  let lose := at_.filter fun x => !won.contains x && !x.counted
  let rest := (s.mem.queue.filter fun x => !won.contains x).map fun x => if lose.contains x then { x with counted := true } else x
  let s : State := banks.foldl (fun (s : State) b => s.serve mc b) s
  let m := lose.foldl (fun (m : Memory) x => m.waits x.req.master) s.mem
  s.setMem { m with queue := rest, cycle := mc + 1, lastClk := s.tb.clk }
/-- The memory cycles up to `until_`, as long as a request waits. -/
def State.bankCycles (until_ : Nat) : Nat → State → State
  | 0, s => s
  | fuel + 1, s =>
    if s.mem.queue.isEmpty || decide (until_ ≤ s.mem.cycle) then s else State.bankCycles until_ fuel (s.bankCycle s.mem.cycle)
/-- The memory comes to the present: the requests that still waited have had the cycles since. -/
def State.toNow (s : State) : State := State.bankCycles (memCycle s.tb.clk) (memCycle s.tb.clk - s.mem.cycle) s
/-- The first memory cycle that can serve a request made now. -/
def State.cycleNow (s : State) : Nat := max (memCycle s.tb.clk) s.mem.cycle
/-- Issue requests in a memory cycle. -/
def State.issue (mc : Nat) (rs : List MemReq) (s : State) : State :=
  s.setMem { s.mem with queue := s.mem.queue ++ rs.map fun r => ⟨r, mc, false⟩ }
/-- A user core waits for its read: the cycles that run until it is granted, and what it returns (R439); at most 48 cycles and what a lease adds. -/
def State.awaitRead (x : BankReq) : Nat → State → State × Option Word
  | 0, s => (s, none)
  | fuel + 1, s =>
    let mc := s.mem.cycle
    let gs := s.mem.grantsAt (bankOf x.req.addr) mc
    if gs.any fun y => y.req == x.req && y.since == x.since then (s.bankCycle mc, s.readBack gs x.req) else State.awaitRead x fuel (s.bankCycle mc)
/-- A user core reads a word of shared memory through one of its ports (R410): the data, or none where the read meets ERR, which has aborted its task (R445). -/
def State.busRead (master a : Nat) (s : State) : State × Option Word :=
  let s := s.toNow
  let mc := s.cycleNow
  let r : MemReq := ⟨master, a, none, false, 0⟩
  State.awaitRead ⟨r, mc, false⟩ (1024 * (s.mem.queue.length + 1)) ((s.setMem { s.mem with cycle := mc }).issue mc [r])
/-- A user core writes a word: the store is posted, and the core does not wait for it (R439). -/
def State.busWrite (master a : Nat) (w : Word) (s : State) : State :=
  let s := s.toNow
  let mc := s.cycleNow
  (s.issue mc [⟨master, a, some w, false, 0⟩]).bankCycle mc

end Sys2Proof.Machine
end

