-- ==== Sys2Proof/Machine/UserCore.lean ====
section
/-! DEFINITION. The instructions of the user cores C2 and C3 (R412-R422). Each command is one instruction of the running task, its operands decoded. -/
namespace Sys2Proof.Machine
open Sys2Proof

/-- The address the core goes to after the instruction at `pc`: the loop levels that end there either go round or are left (R422). -/
def nextPc (fuel : Nat) (pc : Nat) (ls : List LoopLevel) : Nat × List LoopLevel :=
  match fuel, ls with
  | fuel + 1, l :: rest =>
    if l.last = pc then
      if l.left = 0 then nextPc fuel pc rest else (l.first, { l with left := l.left - 1 } :: rest)
    else (pc + 1, ls)
  | _, _ => (pc + 1, ls)
/-- An instruction completes: its cycles count, the next one follows. -/
def UCore.retire (cycles : Nat) (c : UCore) : UCore :=
  let n := nextPc 4 c.pc c.loops
  { c with cycnt := (c.cycnt + cycles) % 2 ^ 48, pc := n.1 % 2 ^ 24, loops := n.2 }
/-- The fetch of an instruction through the core's instruction port (R410): an uncorrectable word aborts the task (R445). -/
def State.fetched (k : Nat) (s : State) : State := (s.busRead (13 + 2 * k) (s.core k).pc).1
/-- One instruction of the task running on core k: the lapse, then the fetch, which aborts outside the task's image (R416) and where the word is bad, then the instruction. -/
def onCore (t : Lapse) (k : Nat) (f : UCore → State → State) (s : State) : Host.Outcome State Fault Refusal :=
  let s := s.elapse t
  let c := s.core k
  match c.run with
  | some r =>
    if s.coreRuns k then
      let sl := c.slot r.task
      if c.pc < sl.base ∨ sl.base + sl.size ≤ c.pc then .next (s.abortTask k 2)
      else
        let s := s.fetched k
        if s.coreRuns k then .next (f (s.core k) s) else .next s
    else .next s
  | none => .next s
/-- An instruction that changes only the core, in a given number of cycles. -/
def onRegs (t : Lapse) (k cycles : Nat) (f : UCore → UCore) (s : State) : Host.Outcome State Fault Refusal :=
  onCore t k (fun c s => s.setCore k ((f c).retire cycles)) s
/-- Consume free values. -/
def State.used (n : Nat) (s : State) : State := s.putFresh (s.fresh + n)

/-! Control. -/

/-- NOP. -/
def execNop (t : Lapse) (k : Nat) (s : State) : Host.Outcome State Fault Refusal := onRegs t k 1 (fun c => c) s
/-- END: the task ends (R428). -/
def execEndTask (t : Lapse) (k : Nat) (s : State) : Host.Outcome State Fault Refusal :=
  onCore t k (fun c s => s.setCore k ({ c with cycnt := (c.cycnt + 1) % 2 ^ 48 }.stop s.tb.clk)) s

/-! Addressing (R416, R417). -/

/-- The index of a pointer at its use: reduced modulo a non-zero LN first. -/
def UCore.index (c : UCore) (n : Nat) : Nat :=
  let ln := (tget 0 n c.ln).toNat
  let ix := (tget 0 n c.ix).toNat
  if ln = 0 then ix else ix % ln
/-- The address of a pointer. -/
def UCore.address (c : UCore) (n : Nat) : Nat := ((tget 0 n c.ap).toNat + c.index n) % 2 ^ 24
/-- Post-modify (R417). -/
def UCore.bump (n : Nat) (c : UCore) : UCore :=
  let ln := (tget 0 n c.ln).toNat
  let x : Int := c.index n + (tget 0 n c.off).toInt
  { c with ix := tput 0 n (BitVec.ofInt 24 (if ln = 0 then x else x % ln)) c.ix }
/-! Loads and stores. -/

/-- A word of local memory. -/
def UCore.local_ (c : UCore) (a : Nat) : Word := tget 0 (a % 16384) c.lmem
/-- The word a pointer addresses, read locally or through the core's data port (R410, R416); none where shared memory reports it uncorrectable, which aborts the task (Table 6). -/
def State.fetchWord (k : Nat) (isLocal : Bool) (ap : Nat) (c : UCore) (s : State) : State × Option Word :=
  if isLocal then (s, some (c.local_ (c.address ap))) else s.busRead (12 + 2 * k) (c.address ap)
/-- n words read through a pointer with post-modify. -/
def State.stream (k : Nat) (isLocal : Bool) (ap : Nat) : Nat → UCore → State → State × Option (List Word × UCore)
  | 0, c, s => (s, some ([], c))
  | n + 1, c, s =>
    match s.fetchWord k isLocal ap c with
    | (s, none) => (s, none)
    | (s, some w) => match State.stream k isLocal ap n (c.bump ap) s with
      | (s, none) => (s, none)
      | (s, some (ws, c)) => (s, some (w :: ws, c))
/-- Cycles that shared memory adds to an access: not stated exactly (R439). -/
def State.stall (s : State) (isLocal : Bool) : Nat := if isLocal then 0 else Config.freeNat s.fresh

/-- LOAD (R416, R417). -/
def execLoad (t : Lapse) (k : Nat) (isLocal : Bool) (ap dd : Nat) (modf : Bool) (s : State) : Host.Outcome State Fault Refusal :=
  onCore t k (fun c s =>
    match s.fetchWord k isLocal ap c with
    | (s, none) => s
    | (s, some w) =>
      let c := if modf then c.bump ap else c
      State.used 1 (s.setCore k ((c.setD dd w).retire (1 + s.stall isLocal)))) s
/-- STORE (R416, R417): a shared store outside the permitted words aborts the task; outside the user region it is the memory's guard as well (R436). A store is posted and retires at issue (R439). -/
def execStore (t : Lapse) (k : Nat) (isLocal : Bool) (ap dd : Nat) (modf : Bool) (s : State) : Host.Outcome State Fault Refusal :=
  onCore t k (fun c s =>
    let a := c.address ap
    let c' := if modf then c.bump ap else c
    if isLocal then s.setCore k ({ c' with lmem := tput 0 (a % 16384) (c.dr dd) c'.lmem }.retire 1)
    else if s.userRegion a 1 then (s.setCore k (c'.retire 1)).busWrite (12 + 2 * k) a (c.dr dd)
    else if a < 0xC00000 then (s.guarded (12 + 2 * k) a).abortTask k 3
    else s.abortTask k 3) s

/-! Multiply-accumulate (R413, R414). -/

/-- Ak. -/
def UCore.ar (c : UCore) (n : Nat) : Acc := tget 0 n c.a
/-- Write an exact value to Ak: wrapping or saturating, with OVF. -/
def UCore.setA (n : Nat) (v : Int) (c : UCore) : UCore :=
  let r := accFit (bit c.mode 47) v
  { c with a := tput 0 n r.1 c.a, mode := if r.2 then c.mode ||| 0x400000000000#48 else c.mode }
/-- The signed product of one half. -/
def UCore.macTerm (c : UCore) (h : MacHalf) : Int :=
  let p := macProduct h.mode (c.dr h.x) (c.dr h.y)
  if h.sub then -p else p
/-- A local load of a DMAC, with its post-modify. -/
def UCore.macLoad (l : Option MacLoad) (c : UCore) : UCore :=
  match l with
  | some l => (c.bump l.ap).setD l.dd (c.local_ (c.address l.ap))
  | none => c
/-- DMAC: both halves, then the loads a and b in that order; every operand is read before any result is written (R412). -/
def execDmac (t : Lapse) (k : Nat) (m0 m1 : MacHalf) (la lb : Option MacLoad) (s : State) : Host.Outcome State Fault Refusal :=
  onRegs t k 1 (fun c =>
    let p0 := c.macTerm m0
    let p1 := c.macTerm m1
    let c := if m0.acc = m1.acc then c.setA m0.acc ((c.ar m0.acc).toInt + p0 + p1)
      else (c.setA m0.acc ((c.ar m0.acc).toInt + p0)).setA m1.acc ((c.ar m1.acc).toInt + p1)
    (c.macLoad la).macLoad lb) s

/-! ALU. -/

/-- An ALU instruction on two operand values: result, flags, and the free values it may take. -/
def aluInstr (t : Lapse) (k : Nat) (op : AluOp) (dd : Nat) (f : UCore → Word × Word) (s : State) : Host.Outcome State Fault Refusal :=
  onCore t k (fun c s =>
    let x := f c
    let r := aluOp op (Config.freeWord s.fresh) x.1 x.2
    let c := { c with mode := withFlags c.mode r (s.fresh + 1) }
    let c := if op = .cmp then c else c.setD dd r.value
    State.used 3 (s.setCore k (c.retire 1))) s
/-- The two register operands. -/
def regsOf (da db : Nat) (c : UCore) : Word × Word := (c.dr da, c.dr db)
/-- ADD. -/
def execAdd (t : Lapse) (k dd da db : Nat) (s : State) : Host.Outcome State Fault Refusal := aluInstr t k .add dd (regsOf da db) s
/-- SUB. -/
def execSub (t : Lapse) (k dd da db : Nat) (s : State) : Host.Outcome State Fault Refusal := aluInstr t k .sub dd (regsOf da db) s
/-- AND. -/
def execAnd (t : Lapse) (k dd da db : Nat) (s : State) : Host.Outcome State Fault Refusal := aluInstr t k .and dd (regsOf da db) s
/-- OR. -/
def execOr (t : Lapse) (k dd da db : Nat) (s : State) : Host.Outcome State Fault Refusal := aluInstr t k .or dd (regsOf da db) s
/-- XOR. -/
def execXor (t : Lapse) (k dd da db : Nat) (s : State) : Host.Outcome State Fault Refusal := aluInstr t k .xor dd (regsOf da db) s
/-- SHL. -/
def execShl (t : Lapse) (k dd da db : Nat) (s : State) : Host.Outcome State Fault Refusal := aluInstr t k .shl dd (regsOf da db) s
/-- SHR. -/
def execShr (t : Lapse) (k dd da db : Nat) (s : State) : Host.Outcome State Fault Refusal := aluInstr t k .shr dd (regsOf da db) s
/-- SAR. -/
def execSar (t : Lapse) (k dd da db : Nat) (s : State) : Host.Outcome State Fault Refusal := aluInstr t k .sar dd (regsOf da db) s
/-- CMP: the flags of Da − Db alone. -/
def execCmp (t : Lapse) (k dd da db : Nat) (s : State) : Host.Outcome State Fault Refusal := aluInstr t k .cmp dd (regsOf da db) s
/-- ABS. -/
def execAbs (t : Lapse) (k dd da db : Nat) (s : State) : Host.Outcome State Fault Refusal := aluInstr t k .abs dd (regsOf da db) s
/-- NEG. -/
def execNeg (t : Lapse) (k dd da db : Nat) (s : State) : Host.Outcome State Fault Refusal := aluInstr t k .neg dd (regsOf da db) s
/-- MIN. -/
def execMin (t : Lapse) (k dd da db : Nat) (s : State) : Host.Outcome State Fault Refusal := aluInstr t k .min dd (regsOf da db) s
/-- MAX. -/
def execMax (t : Lapse) (k dd da db : Nat) (s : State) : Host.Outcome State Fault Refusal := aluInstr t k .max dd (regsOf da db) s
/-- ALUI: the second operand is IMM, sign-extended (R422). -/
def execAlui (t : Lapse) (k : Nat) (op : AluOp) (dd da : Nat) (imm : Addr) (s : State) : Host.Outcome State Fault Refusal :=
  aluInstr t k op dd (fun c => (c.dr da, imm.signExtend 48)) s

/-! Accumulators (R415, R420). -/

/-- CLR. -/
def execClr (t : Lapse) (k ak : Nat) (s : State) : Host.Outcome State Fault Refusal :=
  onRegs t k 1 (fun c => { c with a := tput 0 ak 0 c.a }) s
/-- EXT: SH above 72 and RND 3 are illegal (R415). -/
def execExt (t : Lapse) (k dd ak sh rnd : Nat) (sat : Bool) (s : State) : Host.Outcome State Fault Refusal :=
  onCore t k (fun c s =>
    if 72 < sh ∨ 2 < rnd then s.abortTask k 1
    else s.setCore k ((c.setD dd (extValue (c.ar ak) sh rnd sat)).retire 1)) s
/-- MOVA: Dd to Ak, sign-extended. -/
def execMova (t : Lapse) (k ak dd : Nat) (s : State) : Host.Outcome State Fault Refusal :=
  onRegs t k 1 (fun c => { c with a := tput 0 ak ((c.dr dd).signExtend 120) c.a }) s
/-- SBC: the redundant sign bits of Ak, 0–119. -/
def execSbc (t : Lapse) (k dd ak : Nat) (s : State) : Host.Outcome State Fault Refusal :=
  onRegs t k 1 (fun c => c.setD dd (word (signBits 120 (c.ar ak).toNat))) s
/-- NORM: Ak shifted left by SH; a result outside the 120-bit range as R414 states. -/
def execNorm (t : Lapse) (k ak sh : Nat) (s : State) : Host.Outcome State Fault Refusal :=
  onRegs t k 1 (fun c => c.setA ak ((c.ar ak).toInt * 2 ^ sh)) s

/-! Vectors (R419, R420). -/

/-- The extreme value of a list with its index, a tie to the lowest: `better a b` when a beats b. -/
def extreme (better : Word → Word → Bool) : Nat → Word × Nat → List Word → Word × Nat
  | _, best, [] => best
  | i, best, w :: ws => extreme better (i + 1) (if better w best.1 then (w, i) else best) ws
/-- VMIN or VMAX over Dn elements. -/
def vecInstr (t : Lapse) (k : Nat) (better : Word → Word → Bool) (none_ : Word) (ap : Nat) (isLocal : Bool) (dn dd : Nat) (s : State) : Host.Outcome State Fault Refusal :=
  onCore t k (fun c s =>
    let n := (c.dr dn).toNat
    if 14 < dd then s.abortTask k 1
    else match s.stream k isLocal ap n c with
    | (s, none) => s
    | (s, some (ws, c)) =>
      let r := match ws with
        | [] => (none_, 0xFFFFFFFFFFFF#48)
        | w :: ws => let b := extreme better 1 (w, 0) ws; (b.1, word b.2)
      State.used 1 (s.setCore k (((c.setD dd r.1).setD (dd + 1) r.2).retire (n + 4 + s.stall isLocal)))) s
/-- The most negative value, signed or unsigned. -/
def lowest (uns : Bool) : Word := if uns then 0 else 0x800000000000#48
/-- The most positive value. -/
def highest (uns : Bool) : Word := if uns then 0xFFFFFFFFFFFF#48 else 0x7FFFFFFFFFFF#48
/-- Less than, signed or unsigned. -/
def lessW (uns : Bool) (a b : Word) : Bool := if uns then decide (a.toNat < b.toNat) else decide (a.toInt < b.toInt)
/-- VMIN. -/
def execVmin (t : Lapse) (k : Nat) (uns : Bool) (ap : Nat) (isLocal : Bool) (dn dd : Nat) (s : State) : Host.Outcome State Fault Refusal :=
  vecInstr t k (lessW uns) (highest uns) ap isLocal dn dd s
/-- VMAX. -/
def execVmax (t : Lapse) (k : Nat) (uns : Bool) (ap : Nat) (isLocal : Bool) (dn dd : Nat) (s : State) : Host.Outcome State Fault Refusal :=
  vecInstr t k (fun a b => lessW uns b a) (lowest uns) ap isLocal dn dd s
/-- VBEXP: the least count of redundant sign bits, 47 for no element. -/
def execVbexp (t : Lapse) (k : Nat) (ap : Nat) (isLocal : Bool) (dn dd : Nat) (s : State) : Host.Outcome State Fault Refusal :=
  onCore t k (fun c s =>
    let n := (c.dr dn).toNat
    match s.stream k isLocal ap n c with
    | (s, none) => s
    | (s, some (ws, c)) =>
      let m := ws.foldl (fun m w => min m (signBits 48 w.toNat)) 47
      State.used 1 (s.setCore k ((c.setD dd (word m)).retire (n + 4 + s.stall isLocal)))) s

/-! Bytes (R418). -/

/-- ROT. -/
def execRot (t : Lapse) (k n dd da : Nat) (s : State) : Host.Outcome State Fault Refusal :=
  onCore t k (fun c s => if 5 < n then s.abortTask k 1 else s.setCore k ((c.setD dd (rotLanes (c.dr da) n)).retire 1)) s
/-- FUN. -/
def execFun2 (t : Lapse) (k n dd da db : Nat) (s : State) : Host.Outcome State Fault Refusal :=
  onCore t k (fun c s => if 5 < n then s.abortTask k 1 else s.setCore k ((c.setD dd (funnel (c.dr da) (c.dr db) n)).retire 1)) s

/-! Branches and loops (R422). -/

/-- BR: conditions 0–13 on Z, N, C, V and OVF; 14 is illegal. -/
def execBr (t : Lapse) (k cond : Nat) (target : Addr) (s : State) : Host.Outcome State Fault Refusal :=
  onCore t k (fun c s =>
    if cond = 14 then s.abortTask k 1
    else if Config.brCond cond (bit c.mode 45) (bit c.mode 44) (bit c.mode 43) (bit c.mode 42) (bit c.mode 46) then
      s.setCore k { c with cycnt := (c.cycnt + 1) % 2 ^ 48, pc := target.toNat }
    else s.setCore k (c.retire 1)) s
/-- LOOP: Dn rounds of the instructions that follow up to END; a fifth nested loop is illegal, and how often a loop of count 0 runs is not stated. -/
def execLoop (t : Lapse) (k : Nat) (endAddr : Addr) (dn : Nat) (s : State) : Host.Outcome State Fault Refusal :=
  onCore t k (fun c s =>
    if 4 ≤ c.loops.length then s.abortTask k 1
    else
      let n := (c.dr dn).toNat
      let n := if n = 0 then Config.freeNat s.fresh + 1 else n
      let last := if Config.loopEndAfter then endAddr.toNat - 1 else endAddr.toNat
      State.used 1 (s.setCore k { c with pc := (c.pc + 1) % 2 ^ 24, loops := ⟨c.pc + 1, last, n - 1⟩ :: c.loops })) s

/-! MOV (R421, R422). -/

/-- The value of a MOV source. QCYC and QFRC read the direct-path copy (R55). -/
def State.movSrc (s : State) (c : UCore) : MovSrc → Word
  | .d i => c.dr i
  | .ap i => (tget 0 i c.ap).setWidth 48
  | .ix i => (tget 0 i c.ix).setWidth 48
  | .off i => (tget 0 i c.off).signExtend 48
  | .ln i => (tget 0 i c.ln).setWidth 48
  | .mode => c.mode
  | .qcyc n => cyc (s.qty n).direct
  | .qfrc n => frc (s.qty n).direct
  | .cycnt => word c.cycnt
/-- Write a MOV destination. MODE keeps only its fields. -/
def UCore.movDst (c : UCore) (v : Word) : MovDst → UCore
  | .d i => c.setD i v
  | .ap i => { c with ap := tput 0 i (v.setWidth 24) c.ap }
  | .ix i => { c with ix := tput 0 i (v.setWidth 24) c.ix }
  | .off i => { c with off := tput 0 i (v.setWidth 24) c.off }
  | .ln i => { c with ln := tput 0 i (v.setWidth 24) c.ln }
  | .mode => { c with mode := v &&& 0xFC0000000000#48 }
/-- MOV takes counter clocks only from QCYC and QFRC. -/
def slowSrc : MovSrc → Bool
  | .qcyc _ => true
  | .qfrc _ => true
  | _ => false
/-- MOV. -/
def execMov (t : Lapse) (k : Nat) (dst : MovDst) (src : MovSrc) (s : State) : Host.Outcome State Fault Refusal :=
  onCore t k (fun c s =>
    let stall := if slowSrc src then Config.freeNat s.fresh else 0
    State.used 1 (s.setCore k ((c.movDst (s.movSrc c src) dst).retire (1 + stall)))) s

/-! POST (R429). -/

/-- The body of a RESULT record (Table 7). -/
def resultBody (k : Nat) (c : UCore) (r : Start) (skipped : Nat) (ws : List Word) : List Word :=
  [pack [put 47 40 1], pack [put 47 40 0x60],
    pack [put 47 47 k, put 46 41 r.task, put 40 37 c.npost, putB 36 r.late, putB 35 r.clkq, put 34 11 skipped],
    word r.jsn, word r.occ, cyc r.at_, frc r.at_] ++ ws
/-- POST: Dn words into a RESULT record for the task's owner; volatile, and withheld under event pressure as an OBS record is. Posts after the sixteenth are counted and ignored. How many words a count outside 1–256 posts is not stated. -/
def execPost (t : Lapse) (k : Nat) (ap : Nat) (isShared : Bool) (dn : Nat) (s : State) : Host.Outcome State Fault Refusal :=
  onCore t k (fun c s =>
    match c.run with
    | none => s
    | some r =>
      let n := (c.dr dn).toNat
      let n := if 1 ≤ n ∧ n ≤ 256 then n else Config.freeNat s.fresh % 256 + 1
      if 16 ≤ c.npost then s.setCore k ({ c with postsIgn := satN 16 (c.postsIgn + 1) }.retire 1)
      else match s.stream k (!isShared) ap n c with
      | (s, none) => s
      | (s, some (ws, c')) =>
        let sl := c.slot r.task
        let ok := s.mayForm sl.owner true (n + 7)
        let s := if ok then s.recordCounted sl.owner true (resultBody k c r sl.skipped ws) else s
        let c' := c'.setSlot r.task { sl with skipped := if ok then 0 else satN 24 (sl.skipped + 1) }
        State.used 1 (s.setCore k ({ c' with npost := c.npost + 1 }.retire (2 * n)))) s

end Sys2Proof.Machine
end

