-- ==== Sys2Proof/Machine/Mem.lean ====
section
/-! DEFINITION. The shared memory on its own: accesses of its masters (R437-R445), bank failure and the spare (R446, R447), the patrol (R448-R450), registers (R452). -/
namespace Sys2Proof.Machine
open Sys2Proof

/-- MEMORY_ACCESS: the requests that masters make in one memory cycle join those that wait, and the banks serve the cycle (R437-R445). What is not granted waits for the cycles that follow. An access of M0, M1, M5–M7 brings D7 out of retention (R480). -/
def execMemoryAccess (t : Lapse) (reqs : List MemReq) (s : State) : Host.Outcome State Fault Refusal :=
  let s := s.elapse t
  if reqs.any fun r => decide (0x1000000 ≤ r.addr) then .fault .outsideMemory
  else if s.dom 7 = 0 then .next s
  else
    let wakes := reqs.any fun r => [0, 1, 5, 6, 7].contains r.master
    let s := if s.dom 7 = 1 ∧ wakes then s.setDom 7 2 else s
    if s.dom 7 ≠ 2 ∨ !s.clk.pllS.gives then .next s
    else
      let s := s.toNow
      let mc := s.cycleNow
      .next ((s.issue mc reqs).bankCycle mc)
/-- MEM_RETENTION_IDLE: 1 ms without access, and the governor still asks for retention (R480). -/
def execMemRetentionIdle (t : Lapse) (s : State) : Host.Outcome State Fault Refusal :=
  let s := s.elapse t
  if s.dom 7 = 2 ∧ tget 0 7 s.pwr.req = 1 ∧ s.mem.lastClk + 654720 ≤ s.tb.clk then .next ((s.setMem s.mem.endLeases).setDom 7 1) else .next s

/-- Stripes that an engine walks: 8,192 a bank, engine 3 with BS. -/
def stripes (g : Nat) : Nat := if g = 3 then 73728 else 65536
/-- The bank of an engine's stripe. -/
def stripeBank (g pos : Nat) : Nat := if pos / 8192 = 8 then 32 else 8 * g + pos / 8192
/-- PATROL_LEASE: an engine tests its next stripe (R448), at its pace, or back to back in SELFTEST MEM (R450). `ecc` gives the words whose check finds an error (offset, 1 single or 2 double), `patternOk` whether every pattern reads back. -/
def execPatrolLease (t : Lapse) (engine : Nat) (ecc : List (Nat × Nat)) (patternOk : Bool) (s : State) : Host.Outcome State Fault Refusal :=
  let s := s.elapse t
  let p := s.mem.patrol engine
  let pace := usClk (fld s.mem.patrolCfg 46 31)
  let test := s.pwr.selftest.testBit 0
  let due : Bool := test || match p.since with | some c => decide (c + pace ≤ s.tb.clk) | none => true
  if ecc.any fun e => decide (64 ≤ e.1) then .fault .outsideMemory
  else if engine < 4 ∧ (bit s.mem.patrolCfg 47 ∨ test) ∧ s.isOn 7 ∧ s.clk.pllS.gives ∧ due then
    let b := stripeBank engine p.pos
    let row := p.pos % 8192 * 64
    let nxt := p.pos + 1
    let p' : Patrol := { pos := if nxt = stripes engine then 0 else nxt, passes := if nxt = stripes engine then p.passes + 1 else p.passes
                         since := some s.tb.clk, lease := some (b, row, memCycle s.tb.clk) }
    let s := s.setMem (s.mem.setPatrol engine p')
    let s : State := ecc.foldl (fun (s : State) e =>
      let a := (row + e.1) * 32 + b
      if e.2 = 1 then
        let s := s.corrected b
        s.setMem { s.mem with scrubbed := satN 16 (s.mem.scrubbed + 1) }
      else if e.2 = 2 ∧ b < 32 then (s.putFresh (s.fresh + 1)).uncorrected a b (Config.freeNat s.fresh % 16)
      else s) s
    if patternOk then .next s
    else
      let m := s.mem.setBank b { s.mem.bank b with due := true }
      .next ((s.setMem { m with fails := satN 16 (m.fails + 1), fault := setBit m.fault 0 }).raiseLimited true 0xD04 b [word b, word row])
  else .next s
/-- BANK_FAILED: a bank that has met a case of R446 fails; BS starts copying, or the bank stays in service unrepaired (R447). Words of Tether's tables that could not be copied are rebuilt (R337). -/
def execBankFailed (t : Lapse) (b : Nat) (s : State) : Host.Outcome State Fault Refusal :=
  let s := s.elapse t
  let k := s.mem.bank b
  if b < 32 ∧ k.due ∧ k.state = 0 then
    let first := s.mem.spare = 0
    let m := { (s.mem.setBank b { k with due := false, state := if first then 1 else 2 }) with failedCnt := min 32 (s.mem.failedCnt + 1) }
    let m := if first then { m with spare := 1, spareFor := b } else m
    let lost := if first then m.bad.filter fun a => bankOf a == b && decide (a < 0x780000) else []
    .next (((s.setMem m).rebuild lost).partFailed 0x011 b)
  else .next s
/-- SPARE_COPY_COMPLETE: the bank's addresses map to BS (R447). -/
def execSpareCopyComplete (t : Lapse) (s : State) : Host.Outcome State Fault Refusal :=
  let s := s.elapse t
  if s.mem.spare = 1 then .next (s.setMem { s.mem with spare := 2 }) else .next s

/-! Registers. -/

/-- MEM_STAT (Table 5); how far a running copy has come is not stated. -/
def State.memStat (s : State) : Word :=
  let pct := match s.mem.spare with | 0 => 0 | 1 => Config.copyPct s.tb.clk % 101 | _ => 100
  pack [put 47 46 s.mem.spare, put 45 41 (if s.mem.spare = 0 then 0 else s.mem.spareFor), put 40 34 pct, put 33 28 s.mem.failedCnt]
/-- Grants of a bank, or of a group, over the last 100 ms or in one millisecond. -/
def grantsIn (xs : List (Nat × Nat × Nat)) (f : Nat → Nat → Bool) : Nat := (xs.filter fun x => f x.1 x.2.1).length
/-- MEM_UTIL (Table 6), the percentages rounded down. -/
def State.memUtil (s : State) : Word :=
  let now := msOf s.tb.q0
  let xs := s.mem.load.filter fun x => now < x.1 + 100
  let g := fun i => grantsIn xs (fun _ b => b / 8 == i) * 100 / 960000000
  let best := (List.range 32).foldl (fun (a : Nat × Nat) b =>
    let n := (List.range 100).foldl (fun n i => max n (grantsIn xs fun ms b' => b' == b && ms == now - i)) 0
    if a.2 < n then (b, n) else a) (0, 0)
  pack [put 47 41 (g 0), put 40 34 (g 1), put 33 27 (g 2), put 26 20 (g 3), put 19 15 best.1, put 14 8 (best.2 * 100 / 1200000)]
/-- MEM_CNT. -/
def Memory.cntWord (m : Memory) : Word := pack [put 47 24 m.ce, put 23 0 m.ue]
/-- PATROL_STAT (R452): passes completed by every engine, and the leases running. -/
def State.patrolStat (s : State) : Word :=
  let p := s.mem.patrol
  let passes := min (min (p 0).passes (p 1).passes) (min (p 2).passes (p 3).passes)
  let mc := memCycle s.tb.clk
  let leased := fun g => match (p g).lease with | some (_, _, c) => decide (mc < c + 768) | none => false
  pack [put 47 32 passes, putB 31 (leased 0), putB 30 (leased 1), putB 29 (leased 2), putB 28 (leased 3)]
/-- PATROL_CNT. -/
def Memory.patrolCnt (m : Memory) : Word := pack [put 47 32 m.preempt, put 31 16 m.fails, put 15 0 m.scrubbed]
/-- MEM_CONF. -/
def MasterConf.word_ (c : MasterConf) : Word := pack [put 47 24 c.waits, put 23 0 c.wlost]
/-- MEM_BANK (Table 11). -/
def Memory.bankWord (m : Memory) (b : Nat) : Word :=
  let k := m.bank b
  pack [put 47 46 (if b = 32 then 0 else k.state), put 45 22 k.ce, put 21 6 k.ue]

end Sys2Proof.Machine
end

