-- ==== Sys2Proof/Machine/Signals.lean ====
section
/-! DEFINITION. The signals (R58, R59, R86, R114): bands, carriers, codes, components. -/
namespace Sys2Proof.Machine
open Sys2Proof

/-- A row of Table 1 of the chapter on Gale and of Table 4 of the chapter on Kite: system (0 GPS, 1 Galileo, 2 BeiDou, 3 GLONASS, 4 QZSS, 5 SBAS), band, carrier and GLONASS channel spacing in 100 Hz, twice the chips per ms, code period in ms, COH limits (0: refused), pilot, companion, LT limit in ms, BOC. -/
structure Sig where
  sys    : Nat
  band   : Nat
  carrier : Nat
  step   : Nat
  chips2 : Nat
  per    : Nat
  coh0   : Nat
  coh1   : Nat
  pilot  : Bool
  comp   : Bool
  lt     : Nat
  boc    : Bool
  deriving DecidableEq, Repr

/-- The signal of a SIG code. -/
def sigOf (n : Nat) : Option Sig :=
  match n with
  | 0x01 => some ⟨0, 0, 15754200, 0, 2046, 1, 20, 0, false, false, 20, false⟩
  | 0x02 => some ⟨0, 0, 15754200, 0, 2046, 10, 10, 100, true, true, 20, true⟩
  | 0x03 => some ⟨0, 1, 12276000, 0, 1023, 20, 20, 0, false, false, 20, false⟩
  | 0x04 => some ⟨0, 1, 12276000, 0, 1023, 1500, 100, 0, true, true, 20, false⟩
  | 0x05 => some ⟨0, 2, 11764500, 0, 20460, 1, 1, 20, true, true, 20, false⟩
  | 0x08 => some ⟨1, 0, 15754200, 0, 2046, 4, 4, 100, true, true, 20, true⟩
  | 0x09 => some ⟨1, 0, 15754200, 0, 2046, 4, 4, 0, false, false, 4, true⟩
  | 0x0A => some ⟨1, 2, 11764500, 0, 20460, 1, 1, 100, true, true, 20, false⟩
  | 0x0B => some ⟨1, 2, 12071400, 0, 20460, 1, 1, 100, true, true, 20, false⟩
  | 0x0C => some ⟨1, 1, 12787500, 0, 10230, 1, 1, 100, true, true, 20, false⟩
  | 0x10 => some ⟨2, 0, 15610980, 0, 4092, 1, 1, 20, false, false, 20, false⟩
  | 0x11 => some ⟨2, 0, 15754200, 0, 2046, 10, 10, 100, true, true, 20, true⟩
  | 0x12 => some ⟨2, 2, 11764500, 0, 20460, 1, 1, 100, true, true, 20, false⟩
  | 0x13 => some ⟨2, 2, 12071400, 0, 4092, 1, 1, 20, false, false, 20, false⟩
  | 0x18 => some ⟨3, 0, 16020000, 5625, 1022, 1, 10, 0, false, false, 10, false⟩
  | 0x19 => some ⟨3, 1, 12460000, 4375, 1022, 1, 10, 0, false, false, 10, false⟩
  | 0x1C => some ⟨4, 0, 15754200, 0, 2046, 1, 20, 0, false, false, 20, false⟩
  | 0x1D => some ⟨4, 0, 15754200, 0, 2046, 10, 10, 100, true, true, 20, true⟩
  | 0x1E => some ⟨4, 1, 12276000, 0, 1023, 20, 20, 0, false, false, 20, false⟩
  | 0x1F => some ⟨4, 2, 11764500, 0, 20460, 1, 1, 20, true, true, 20, false⟩
  | 0x20 => some ⟨5, 0, 15754200, 0, 2046, 1, 2, 0, false, false, 2, false⟩
  | 0x21 => some ⟨5, 2, 11764500, 0, 20460, 1, 1, 0, false, false, 1, false⟩
  | _ => none
/-- Secondary or NH chips of a component (public interface specifications; the spec gives GPS Q5's 20). -/
def secLen (n : Nat) : Nat :=
  match n with
  | 0x02 => 1800 | 0x05 => 20 | 0x08 => 25 | 0x0A => 100 | 0x0B => 100 | 0x0C => 100 | 0x10 => 20 | 0x11 => 1800 | 0x12 => 100 | 0x13 => 20
  | 0x1D => 1800 | 0x1F => 20 | _ => 1
/-- The component searched, by SIG. -/
def componentOf (n : Nat) : Option Config.Component :=
  match n with
  | 0x01 => some .ca | 0x02 => some .l1cp | 0x03 => some .cm | 0x04 => some .cl | 0x05 => some .q5
  | 0x08 => some .e1c | 0x09 => some .e1b | 0x0A => some .e5aq | 0x0B => some .e5bq | 0x0C => some .e6c
  | 0x10 => some .b1i | 0x11 => some .b1cPilot | 0x12 => some .b2aPilot | 0x13 => some .b2i
  | 0x18 => some .standard | 0x19 => some .standard | 0x1C => some .ca | 0x1D => some .l1cp | 0x1E => some .cm | 0x1F => some .q5
  | 0x20 => some .sbasL1 | 0x21 => some .sbasL5 | _ => none
/-- The CPS code that Ndovos searches with (Table 1): four samples a chip for the BOC components, two otherwise. -/
def Sig.ndovosCps (g : Sig) : Nat := if g.boc then 2 else 1
/-- Table 5: the SIGs that carry a message type, NBITS, and its record unit in ms. -/
def msgType (mt : Nat) : Option (List Nat × Nat × Nat) :=
  match mt with
  | 0x01 => some ([0x01, 0x1C], 300, 6000)
  | 0x02 => some ([0x03, 0x04, 0x1E], 300, 12000)
  | 0x03 => some ([0x05, 0x1F], 300, 6000)
  | 0x04 => some ([0x02, 0x1D], 883, 18000)
  | 0x08 => some ([0x08, 0x09, 0x0B], 228, 2000)
  | 0x09 => some ([0x0A], 238, 10000)
  | 0x0A => some ([0x0C], 486, 1000)
  | 0x10 => some ([0x10, 0x13], 300, 6000)
  | 0x11 => some ([0x10, 0x13], 300, 600)
  | 0x12 => some ([0x11], 878, 18000)
  | 0x13 => some ([0x12], 288, 3000)
  | 0x18 => some ([0x18, 0x19], 85, 2000)
  | 0x20 => some ([0x20], 250, 1000)
  | 0x21 => some ([0x21], 250, 1000)
  | _ => none
/-- The length of a symbol of a message type in ms (Table 5). -/
def symbolMs (mt : Nat) : Nat :=
  match mt with
  | 0x03 | 0x04 | 0x12 | 0x18 => 10
  | 0x08 => 4
  | 0x0A => 1
  | 0x11 | 0x20 | 0x21 => 2
  | 0x13 => 5
  | _ => 20
/-- What is added to a system's time, in ms, to express it in GPS time (R144). -/
def systemOffset (sys : Nat) (leapNow : Int) : Int := match sys with | 2 => 14000 | 3 => -10800000 + 1000 * leapNow | _ => 0
/-- The bits of SIG_MASK that are signal codes (R142). -/
def sigMaskAll : Nat := ((List.range 48).filter fun n => (sigOf n).isSome).foldl (fun m n => m + 2 ^ n) 0
/-- GLONASS k of a PRN byte. -/
def kOf (prn : Nat) : Int := if prn < 128 then prn else (prn : Int) - 256
/-- A PRN lies in its system's range (R86). -/
def prnOk (g : Sig) (prn : Nat) : Bool :=
  match g.sys with
  | 0 => decide (1 ≤ prn ∧ prn ≤ 32)
  | 1 => decide (1 ≤ prn ∧ prn ≤ 36)
  | 2 => decide (1 ≤ prn ∧ prn ≤ 63)
  | 3 => decide (-7 ≤ kOf prn ∧ kOf prn ≤ 6)
  | 4 => decide (193 ≤ prn ∧ prn ≤ 202)
  | _ => decide (120 ≤ prn ∧ prn ≤ 158)
/-- A BeiDou satellite that carries the D2 message: the geostationary ones, whose numbers the spec does not list. -/
def isD2 (g : Sig) (prn : Nat) : Bool := g.sys == 2 && !g.pilot && (decide (prn ≤ 5) || decide (59 ≤ prn))
/-- Nominal carrier, 100 Hz. -/
def carrierOf (g : Sig) (prn : Nat) : Nat := ((g.carrier : Int) + g.step * kOf prn).toNat
/-- Band centres, 100 Hz (R58). -/
def bandCentre (b : Nat) : Int := match b with | 0 => 15825000 | 1 => 12550000 | _ => 11917950
/-- Chips per period. -/
def Sig.chips (g : Sig) : Nat := g.chips2 * g.per / 2
/-- COH limit for a SEC (R86); 0 where SEC 1 is refused. -/
def cohLimit (g : Sig) (prn : Nat) (sec : Bool) : Nat :=
  if isD2 g prn then (if sec then 0 else 2) else if sec then g.coh1 else g.coh0
/-- LT limit (R114). -/
def ltLimit (g : Sig) (prn : Nat) : Nat := if isD2 g prn then 2 else g.lt
/-- The symbol or secondary-chip length that a loop interval divides, ms (R120). -/
def unitMs (g : Sig) (prn : Nat) : Nat := if g.pilot then g.coh0 else ltLimit g prn
/-- The carriers of a band (R59, R71): every signal of Table 2, each GLONASS channel among them. -/
def bandCarriers (b : Nat) : List Int :=
  (List.range 48).flatMap fun n =>
    match sigOf n with
    | some g => if g.band ≠ b then [] else if g.step = 0 then [(g.carrier : Int)] else (List.range 14).map fun k => (g.carrier : Int) + g.step * ((k : Int) - 7)
    | none => []
/-- A notch offset (5 kHz units from the band centre) lies within d × 100 Hz of a carrier of the band. -/
def nearCarrier (b : Nat) (ofs : Int) (d : Nat) : Bool :=
  (bandCarriers b).any fun c => decide ((bandCentre b + 50 * ofs - c).natAbs ≤ d)

end Sys2Proof.Machine
end

