-- ==== Sys2Proof/Machine/Rf.lean ====
section
/-! DEFINITION. The RF front-ends (R61-R80): antenna bias and its faults, oscillators, gain, notches, blanking, absent streams. -/
namespace Sys2Proof.Machine
open Sys2Proof

/-- Antenna a. -/
def State.ant (s : State) (a : Nat) : Ant := tget {} a s.rf.ants
/-- Replace antenna a. -/
def State.setAnt (s : State) (a : Nat) (v : Ant) : State := s.putRf { s.rf with ants := tput {} a v s.rf.ants }
/-- Stream st = 3·a + b (R77). -/
def State.strm (s : State) (st : Nat) : Strm := tget {} st s.rf.strs
/-- Replace stream st. -/
def State.setStrm (s : State) (st : Nat) (v : Strm) : State := s.putRf { s.rf with strs := tput {} st v s.rf.strs }
/-- Set a bit of RF_FAULT (Table 11). -/
def State.rfLatch (i : Nat) (s : State) : State := s.putRf { s.rf with fault := setBit s.rf.fault i }
/-- BIAS of an antenna. -/
def Ant.bias (x : Ant) : Nat := fld x.cfg 47 46
/-- OPEN_MA of an antenna. -/
def Ant.openMa (x : Ant) : Nat := fld x.cfg 36 29
/-- The bias is fed while D8 is on or in retention (R66). -/
def State.biasOn (s : State) (a : Nat) : Bool := (s.ant a).bias != 0 && decide (s.dom 8 = 1 ∨ s.dom 8 = 2)
/-- STATE as it reads: OFF with BIAS = 0 or D8 off (R68). -/
def State.antState (s : State) (a : Nat) : Nat := if s.biasOn a then (if (s.ant a).state = 0 then 1 else (s.ant a).state) else 0
/-- NO_INPUT of a stream (R75). -/
def State.noInput (s : State) (st : Nat) : Bool :=
  let a := s.ant (st / 3)
  !bit a.cfg 45 || !bit a.cfg (44 - st % 3) || s.antState (st / 3) == 3 || s.antState (st / 3) == 4 ||
    !(s.strm st).locked || !s.isOn 8 || s.pwr.selftest.testBit 3

/-- A front-end's oscillator has been unlocked for 10 ms (R80). -/
def State.loLost (s : State) (a : Nat) : Bool :=
  [0, 1, 2].any fun b => (s.strm (3 * a + b)).lostClk.any fun c => decide (c + 6547200 ≤ s.tb.clk)
/-- A failed front-end returns where neither case of R80 holds any longer. -/
def State.frontCheck (a : Nat) (s : State) : State :=
  if s.fc.front.testBit a && s.antState a != 4 && !s.loLost a then
    State.partRestored 0x015 a (s.putFc { s.fc with front := clearBits s.fc.front (2 ^ a) })
  else s
/-- D8 comes on from off (R76): oscillators lock, the bias is applied, the AGC starts anew, status restarts. -/
def State.rfUp (s : State) : State :=
  let s := [0, 1, 2, 3].foldl (fun (s : State) a =>
    let x := s.ant a
    s.setAnt a { x with state := 1, ma := 0, retries := 0, tripClk := 0, biasClk := s.tb.clk, aboveClk := none, belowClk := none }) s
  let s := (List.range 12).foldl (fun (s : State) st =>
    let x := s.strm st
    s.setStrm st { agc := x.agc, blank := x.blank, notch := x.notch, notchN := x.notchN, locked := true, gap := true }) s
  [0, 1, 2, 3].foldl (fun (s : State) a => s.frontCheck a) (s.putRf { s.rf with fault := 0 })
/-- D8 goes off (R76, R517): the configuration stays with the command unit, status restarts; no case of R80 holds any longer. -/
def State.rfDown (s : State) : State :=
  let ants := s.rf.ants.map fun e => (e.1, ({ cfg := e.2.cfg, dly := e.2.dly, dlyNow := e.2.dlyNow } : Ant))
  let strs := s.rf.strs.map fun e => (e.1, ({ agc := e.2.agc, blank := e.2.blank, notch := e.2.notch, notchN := e.2.notchN } : Strm))
  let s := s.putRf { s.rf with ants := ants.filter fun e => e.2 ≠ {}, strs := strs.filter fun e => e.2 ≠ {}, fault := 0 }
  [0, 1, 2, 3].foldl (fun (s : State) a => s.frontCheck a) s

/-- The streams of an antenna break off inside a block. -/
def State.breakInput (a : Nat) (s : State) : State :=
  [0, 1, 2].foldl (fun (s : State) b => s.setStrm (3 * a + b) { s.strm (3 * a + b) with gap := true }) s
/-- ANT_SHORT (R67): a current above 120 mA for 100 µs trips the bias. -/
def execAntShort (t : Lapse) (a : Nat) (s : State) : Host.Outcome State Fault Refusal :=
  let s := s.elapse t
  if a < 4 ∧ s.biasOn a ∧ (s.antState a = 1 ∨ s.antState a = 2) then
    let x := s.ant a
    let r := min 15 (x.retries + 1)
    let lim := fld x.cfg 40 37
    let x := { x with retries := r, state := if lim ≠ 0 ∧ lim ≤ r then 4 else 3, tripClk := s.tb.clk, ma := 0 }
    .next ((((s.setAnt a x).breakInput a).rfLatch (4 * a)).raiseLimited true 0x201 a [word a, word r])
  else .next s
/-- The bias is applied again (R67): a tripped antenna is OK again; an OPEN one stays OPEN until its current says otherwise (R68). -/
def State.rebias (a : Nat) (s : State) : State :=
  let x := s.ant a
  if x.state = 3 ∨ x.state = 4 then
    (s.setAnt a { x with state := 1, biasClk := s.tb.clk, aboveClk := none, belowClk := none }).raiseLimited true 0x203 a [word a]
  else if x.state = 2 then s.setAnt a { x with biasClk := s.tb.clk }
  else s.setAnt a { x with state := 1, biasClk := s.tb.clk, aboveClk := none, belowClk := none }
/-- A write of ANT_CFG with BIAS ≠ 0 clears RETRIES and applies the bias again at once, before the block boundary at which its fields take effect (R67, R78). -/
def State.antWritten (a : Nat) (w : Word) (s : State) : State :=
  if fld w 47 46 = 0 then s
  else ((s.setAnt a { s.ant a with retries := 0 }).rebias a).frontCheck a
/-- A current found: when it was last at least OPEN_MA, or below it (R68). -/
def Ant.measure (ma clk : Nat) (x : Ant) : Ant :=
  if ma < x.openMa then { x with ma := satN 8 ma, belowClk := some clk } else { x with ma := satN 8 ma, aboveClk := some clk }
/-- A latest finding lies at least n counter clocks back, or there was none. -/
def longAgo (c : Option Nat) (n clk : Nat) : Bool := c.all fun c => decide (c + n ≤ clk)
/-- BIAS_RETRY (R67): 1 s after a trip with RETRY set. -/
def execBiasRetry (t : Lapse) (a : Nat) (s : State) : Host.Outcome State Fault Refusal :=
  let s := s.elapse t
  let x := s.ant a
  if a < 4 ∧ s.antState a = 3 ∧ bit x.cfg 41 ∧ x.tripClk + 654720000 ≤ s.tb.clk then .next (s.rebias a) else .next s
/-- RETRIES_CLEAR (R67): a bias untripped for 10 s. -/
def execRetriesClear (t : Lapse) (a : Nat) (s : State) : Host.Outcome State Fault Refusal :=
  let s := s.elapse t
  let x := s.ant a
  if a < 4 ∧ s.biasOn a ∧ (s.antState a = 1 ∨ s.antState a = 2) ∧ x.biasClk + 6547200000 ≤ s.tb.clk then .next (s.setAnt a { x with retries := 0 }) else .next s
/-- ANT_OPEN (R68): a current below OPEN_MA for 1 s. -/
def execAntOpen (t : Lapse) (a ma : Nat) (s : State) : Host.Outcome State Fault Refusal :=
  let s := s.elapse t
  let x := s.ant a
  if a < 4 ∧ s.antState a = 1 ∧ ma < x.openMa ∧ x.biasClk + 654720000 ≤ s.tb.clk ∧ longAgo x.aboveClk 654720000 s.tb.clk then
    .next (((s.setAnt a { x.measure ma s.tb.clk with state := 2 }).rfLatch (4 * a + 1)).raiseLimited true 0x202 a [word a])
  else .next s
/-- ANT_OK (R68): a current of at least OPEN_MA for 100 ms. -/
def execAntOk (t : Lapse) (a ma : Nat) (s : State) : Host.Outcome State Fault Refusal :=
  let s := s.elapse t
  let x := s.ant a
  if a < 4 ∧ s.antState a = 2 ∧ x.openMa ≤ ma ∧ longAgo x.belowClk 65472000 s.tb.clk then
    .next ((s.setAnt a { x.measure ma s.tb.clk with state := 1 }).raiseLimited true 0x203 a [word a])
  else .next s
/-- The heading baselines of an antenna start their ambiguity resolution again (R65): A and B baseline 0, C and D baseline 1. -/
def State.restartBaseline (a : Nat) (s : State) : State :=
  (s.putModes { s.modes with bases := tput {} (a / 2) {} s.modes.bases })
/-- LO_UNLOCK (R65): a local oscillator loses lock; its stream shows NO_INPUT. -/
def execLoUnlock (t : Lapse) (st : Nat) (s : State) : Host.Outcome State Fault Refusal :=
  let s := s.elapse t
  let x := s.strm st
  if st < 12 ∧ s.isOn 8 ∧ x.locked then
    .next (((s.setStrm st { x with locked := false, lostClk := some s.tb.clk, gap := true }).rfLatch (4 * (st / 3) + 2)).raiseLimited true 0x204 st [word st])
  else .next s
/-- LO_RELOCKED (R65): it relocks, its phase against the other streams changed. -/
def execLoRelocked (t : Lapse) (st : Nat) (s : State) : Host.Outcome State Fault Refusal :=
  let s := s.elapse t
  let x := s.strm st
  if st < 12 ∧ s.isOn 8 ∧ !x.locked then
    let s := (s.setStrm st { x with locked := true, lostClk := none }).rfLatch (4 * (st / 3) + 3)
    let s := (s.restartBaseline (st / 3)).raiseLimited true 0x205 st [word st]
    .next (s.frontCheck (st / 3))
  else .next s
/-- The baseline quantity of a failed antenna stops (R46, R80): it keeps its value, without VALID. -/
def State.stopHeading (a : Nat) (s : State) : State :=
  let n := 6 + a / 2
  let q := s.qty n
  if kindOf q.cfg0 = 5 ∧ q.valid then
    let v := s.value n
    s.holdInvalid n
  else s
/-- FRONT_END_FAILED (R80): SHORT_LATCHED, or an oscillator unlocked for 10 ms. -/
def execFrontEndFailed (t : Lapse) (a : Nat) (s : State) : Host.Outcome State Fault Refusal :=
  let s := s.elapse t
  if a < 4 ∧ !s.fc.front.testBit a ∧ (s.antState a = 4 ∨ s.loLost a) then
    let s := s.putFc { s.fc with front := setBit s.fc.front a }
    .next ((s.partFailed 0x015 a).stopHeading a)
  else .next s
/-- BLANK_FRAC is found (R74): above HEAVY it sets BLANK_HEAVY, which is reported; at or below HEAVY the 100 ms run. -/
def State.fracFound (st frac : Nat) (s : State) : State :=
  let x := s.strm st
  let f := satN 9 frac
  if fld x.blank 26 18 < f then
    let s := s.setStrm st { x with frac := f, heavy := true, lowClk := none }
    if x.heavy then s else s.raiseLimited true 0x206 st [word st, word f]
  else s.setStrm st { x with frac := f, lowClk := some (x.lowClk.getD s.tb.clk) }
/-- BLANK_HEAVY (R74): the blanked fraction exceeds HEAVY. -/
def execBlankHeavy (t : Lapse) (st frac : Nat) (s : State) : Host.Outcome State Fault Refusal :=
  let s := s.elapse t
  let x := s.strm st
  if st < 12 ∧ s.isOn 8 ∧ fld x.blank 26 18 < satN 9 frac ∧ !x.heavy then .next (s.fracFound st frac) else .next s
/-- BLANK_HEAVY_CLEAR (R74): BLANK_FRAC has stayed at or below HEAVY for 100 ms. -/
def execBlankHeavyClear (t : Lapse) (st frac : Nat) (s : State) : Host.Outcome State Fault Refusal :=
  let s := s.elapse t
  let x := s.strm st
  if st < 12 ∧ s.isOn 8 ∧ satN 9 frac ≤ fld x.blank 26 18 ∧ x.heavy ∧ x.lowClk.any (fun c => decide (c + 65472000 ≤ s.tb.clk)) then
    .next (s.setStrm st { x with frac := satN 9 frac, heavy := false })
  else .next s

/-! Block boundaries. -/

/-- The registers of an antenna or stream page by offset (Table 3): the writable bits, and the range check of R78. -/
def rfBad (off : Nat) (w : Word) : Bool :=
  if off = 0 then fld w 47 46 == 3 || decide (50 < fld w 36 29)
  else if off < 0x40 then false
  else
    match (off - 0x40) % 0x20 with
    | 0 => fld w 47 46 == 3 || fld w 45 43 == 7 || decide (fld w 31 24 < 16 ∨ 80 < fld w 31 24)
    | 1 => decide (fld w 45 40 < 8)
    | 2 => fld w 47 46 == 3 || decide (fld w 45 40 < 6 ∨ 40 < fld w 45 40)
    | _ => false
/-- A write of the RF block takes effect (R78); entering AUTO starts the gain loop anew (R69). `addr` counts from 0x00_6000. -/
def State.rfApply (addr : Nat) (w : Word) (s : State) : State :=
  let a := addr / 0x100
  let off := addr % 0x100
  if off = 0 then
    let x := s.ant a
    let s := s.setAnt a { x with cfg := maskW (2 ^ 48 - 2 ^ 29) w }
    if fld w 47 46 = 0 then (s.setAnt a { s.ant a with state := 0 }).frontCheck a
    else if x.bias = 0 then s.rebias a
    else s
  else if off = 2 then s.setAnt a { s.ant a with dly := maskW (2 ^ 32 - 1) w }
  else if off < 0x40 then s
  else
    let st := 3 * a + (off - 0x40) / 0x20
    let x := s.strm st
    match (off - 0x40) % 0x20 with
    | 0 =>
      let v := maskW (2 ^ 48 - 2 ^ 43 + (2 ^ 39 - 2 ^ 17)) w
      s.setStrm st { x with agc := v, agcFast := x.agcFast || (fld v 47 46 == 0 && fld x.agc 47 46 != 0) }
    | 1 => s.setStrm st { x with blank := maskW (2 ^ 48 - 2 ^ 28 + (2 ^ 27 - 2 ^ 18)) w }
    | 2 => s.setStrm st { x with notch := maskW (2 ^ 48 - 2 ^ 37) w }
    | n =>
      if 8 ≤ n ∧ n < 16 then
        let keep := fld x.notch 47 46 = 1
        let f := if keep then fld (tget 0 (n - 8) x.notchN) 45 32 else fld w 45 32
        s.setStrm st { x with notchN := tput 0 (n - 8) (pack [putB 47 (bit w 47), put 45 32 f]) x.notchN }
      else s
/-- Half the passband of a band, in 5 kHz (Table 1). -/
def passband (b : Nat) : Nat := match b with | 0 => 4800 | 1 => 6000 | _ => 5200
/-- The sum of the squares and the number of the samples of a block that are not blanked (R70). -/
def loudness (blk : List (BitVec 8)) : Nat × Nat :=
  blk.foldl (fun a y => if y = 0x88 then a else
    let i := (y.toInt / 16)
    let q := (y.setWidth 4).toInt
    (a.1 + (i * i + q * q).toNat, a.2 + 1)) (0, 0)
/-- The gain after a block (R69): held, moved to GAIN_SET, or as the loop makes it from the samples that are not blanked, in the first millisecond of AUTO with 0.1 ms; in every mode by at most 0.5 dB in 10 µs. -/
def Strm.gainAfter (x : Strm) (blk : List (BitVec 8)) : Nat :=
  let p := loudness blk
  let aim := match fld x.agc 47 46 with
    | 1 => x.gain
    | 2 => fld x.agc 38 32
    | _ => min 127 (Config.agcGain (if x.agcFast then 0 else fld x.agc 45 43) (fld x.agc 31 24) p.1 p.2 x.gain)
  max (x.gain - 100) (min (x.gain + 100) aim)
/-- The eight strongest of the lines, in their order (R71). -/
def strongest (ls : List (Int × Nat × Nat)) : List (Int × Nat × Nat) :=
  (ls.filter fun l => decide (((ls.filter fun m => decide (l.2.2 < m.2.2)).length) < 8)).take 8
/-- Adaptive notches go on to the lines chosen (R71): a line within 50 kHz of where a notch stood keeps that notch; a faster one is released and, as a new line, takes the lowest free notch. -/
def retune (old : Tab (Option (Int × Nat × Nat))) (ls : List (Int × Nat × Nat)) : Tab (Option (Int × Nat × Nat)) :=
  let near := fun (l : Int × Nat × Nat) (n : Nat) => (tget none n old).any fun o => decide ((o.1 - l.1).natAbs ≤ 10)
  let slots := fun (t : Tab (Option (Int × Nat × Nat))) (p : Nat → Bool) => [0, 1, 2, 3, 4, 5, 6, 7].find? fun n => (tget none n t).isNone && p n
  let kept := ls.foldl (fun a l =>
    match slots a.1 (near l) with
    | some n => (tput none n (some l) a.1, a.2)
    | none => (a.1, a.2 ++ [l])) (([] : Tab (Option (Int × Nat × Nat))), [])
  kept.2.foldl (fun t l => match slots t (fun _ => true) with | some n => tput none n (some l) t | none => t) kept.1
/-- The notches in the path of a stream (R71), and whether more lines qualify than there are notches. A line outside the passband does not reach the stream (R58); one that PROTECT keeps free of a notch does not count as qualifying (DESIGN CHOICE, log 191). Without input the spectrum shows nothing new, and adaptive notches stay. -/
def Strm.notches (x : Strm) (b : Nat) (input : Bool) (ls : List (Int × Nat × Nat)) : Tab (Option (Int × Nat × Nat)) × Bool :=
  match fld x.notch 47 46 with
  | 1 =>
    if !input then (if x.adapts then (x.lines, x.linesOver) else ([], false))
    else
      let q := ls.filter fun l => decide (l.1.natAbs ≤ passband b) && decide (fld x.notch 45 40 < l.2.2) && !(bit x.notch 37 && nearCarrier b l.1 5000)
      (retune (if x.adapts then x.lines else []) (strongest q), decide (8 < q.length))
  | 2 =>
    let on := (List.range 8).filter fun n => bit (tget 0 n x.notchN) 47
    (on.foldl (fun t n =>
      let f := sfld (tget 0 n x.notchN) 45 32
      tput none n (some ((ls.find? fun l => input && l.1 == f).getD (f, 0, 0))) t) [], false)
  | _ => ([], false)

/-! The path of a band (R61). -/

/-- Stages 1 to 5: amplifier and splitter, band filter, analogue gain, 10-bit converter, down-conversion. -/
def State.baseband (s : State) (st : Nat) (volts : List Int) : List (Rat × Rat) :=
  let g := Config.analogGain (s.strm st).gain
  let v := Config.bandFilter (st % 3) (Config.frontAmp (st / 3) volts)
  Config.downConvert (st % 3) (v.map fun x => max (-512) (min 511 (Config.adcRound (g * x))))
/-- The pulses that a stream blanks (R73): the samples whose magnitude exceeds THRESH quarters of the target RMS, HOLD samples after each, PRE before it. `left` samples are still blanked from the block before; the count left at the end goes into the next block. -/
def pulseMask (pre hold : Nat) (big : List Bool) (left : Nat) : List Bool × Nat :=
  let fwd := big.foldl (fun (a : List Bool × Nat) o => if o then (true :: a.1, hold) else (decide (0 < a.2) :: a.1, a.2 - 1)) ([], left)
  let back := fwd.1.zip big.reverse
  (back.foldl (fun (a : List Bool × Nat) o => if o.2 then (true :: a.1, pre) else ((o.1 || decide (0 < a.2)) :: a.1, a.2 - 1)) ([], 0) |>.1, fwd.2)
/-- Stage 6 of one stream: which samples its own configuration blanks; none with EN = 0. -/
def Strm.ownMask (x : Strm) (bs : List (Rat × Rat)) : List Bool × Nat :=
  if !bit x.blank 47 then (bs.map fun _ => false, 0)
  else
    let g := Config.digitalGain x.gain
    let lim : Rat := (fld x.blank 45 40 * fld x.agc 31 24 : Nat) / 64
    pulseMask (fld x.blank 31 28) (fld x.blank 39 32) (bs.map fun z => decide (lim * lim < g * g * (z.1 * z.1 + z.2 * z.2))) x.holdLeft
/-- COUPLE of an antenna: set in any of its streams it couples the three (R73, log 191). -/
def State.coupled (s : State) (a : Nat) : Bool := [0, 1, 2].any fun b => bit (s.strm (3 * a + b)).blank 46
/-- The byte of a sample (R62): I in [7:4], Q in [3:0], levels −7 to +7. -/
def sampleByte (z : Rat × Rat) : BitVec 8 :=
  let q := fun (x : Rat) => max (-7) (min 7 (Config.quantRound x))
  BitVec.ofInt 8 (q z.1 % 16 * 16 + q z.2 % 16)
/-- Stages 6 to 9: a blanked sample enters the eight notches as zero and leaves as 0x88; then the digital gain and the requantisation. -/
def Strm.finish (x : Strm) (bs : List (Rat × Rat)) (mask : List Bool) : List (BitVec 8) :=
  let z := (bs.zip mask).map fun y => if y.2 then (0, 0) else y.1
  let z := x.lines.foldl (fun z n => match n.2 with | some l => Config.notchFilter l.1 (fld x.notch 39 38) z | none => z) z
  let g := Config.digitalGain x.gain
  ((z.zip mask).map fun y => if y.2 then (0x88 : BitVec 8) else sampleByte (g * y.1.1, g * y.1.2)).take 81840
/-- The part of the latest ten blocks that was blanked, in 1/512 (R74). -/
def fracOf (counts : List Nat) : Nat := counts.sum * 512 / 818400
/-- What a block shows of a stream (R61-R74). The block passes the notches and the gain that its beginning found; the gain loop and the notches then go on for the next one (R72). -/
def State.blockOf (i : StreamIn) (all : List StreamIn) (s : State) : State :=
  let x := s.strm i.stream
  let b := i.stream % 3
  if 12 ≤ i.stream then s
  else if s.noInput i.stream then
    let n := x.notches b false []
    s.setStrm i.stream { x with blk := [], gap := true, lines := n.1, linesOver := n.2, adapts := decide (fld x.notch 47 46 = 1), agcFast := true, holdLeft := 0 }
  else
    let bs := fun st => s.baseband st ((all.find? fun j => j.stream == st).elim [] fun j => j.volts)
    let own := x.ownMask (bs i.stream)
    let others := if s.coupled (i.stream / 3) then
        ([0, 1, 2].filter (· ≠ b)).map fun c => if s.noInput (3 * (i.stream / 3) + c) then [] else ((s.strm (3 * (i.stream / 3) + c)).ownMask (bs (3 * (i.stream / 3) + c))).1
      else []
    let mask := own.1.zipIdx.map fun m => m.1 || others.any fun o => o.getD m.2 false
    let blk := x.finish (bs i.stream) mask
    let bl := (blk.filter fun y => y == 0x88).length
    let counts := (bl :: x.counts).take 10
    let n := x.notches b true i.lines
    let lobe := (n.1.filterMap fun e => e.2).find? fun l => nearCarrier b l.1 50000
    let s' := (s.setStrm i.stream { x with
      blk := blk, counts := counts, holdLeft := own.2, gain := x.gainAfter blk, agcFast := false
      blanked := satN 48 (x.blanked + bl), lines := n.1, adapts := decide (fld x.notch 47 46 = 1), linesOver := n.2, inLobe := lobe.isSome }).fracFound i.stream (fracOf counts)
    let s' := match lobe with
      | some l => if x.inLobe then s' else s'.raiseLimited true 0x207 i.stream [word i.stream, pack [putS 13 0 l.1]]
      | none => s'
    if n.2 && !x.linesOver then s'.raiseLimited true 0x208 i.stream [word i.stream] else s'
/-- A sample of a stream's latest block: absent, 0x88, where none is listed or the stream has no input (R62, R75). -/
def State.sampleAt (s : State) (st k : Nat) : BitVec 8 := if s.noInput st then 0x88 else (s.strm st).blk.getD k 0x88
/-- The block boundaries lie 81,840 samples, 654,720 counter clocks, apart, the same for all streams (R63). -/
def State.atBlock (s : State) : Bool := s.rf.blkClk.all fun c => decide (c < s.tb.clk ∧ (s.tb.clk - c) % 654720 = 0)
/-- A mode of the notches that a write has changed takes effect at the boundary (R72, R78). -/
def State.renotch (st : Nat) (s : State) : State :=
  let x := s.strm st
  let n := x.notches (st % 3) false []
  if fld x.notch 47 46 = 1 ∧ x.adapts then s
  else s.setStrm st { x with lines := n.1, adapts := decide (fld x.notch 47 46 = 1), linesOver := n.2 }
/-- A block boundary in the RF domain: the block that ends has passed its path, waiting writes take effect together for the next one, filters change, currents read anew, and the block that begins is stamped. -/
def State.rfBlock (streams : List StreamIn) (bias : List (Nat × Nat)) (s : State) : State :=
  let ws := s.rf.waits
  let s : State := (List.range 12).foldl (fun (s : State) st => if (streams.any fun i => i.stream == st) then s else s.setStrm st { s.strm st with blk := [], gap := (s.strm st).gap || s.noInput st }) s
  let s : State := streams.foldl (fun (s : State) i => s.blockOf i streams) s
  let s : State := ws.foldl (fun (s : State) w => s.rfApply w.1 w.2) (s.putRf { s.rf with waits := [] })
  let s : State := (List.range 12).foldl (fun (s : State) st => s.renotch st) s
  let s : State := bias.foldl (fun (s : State) e => if e.1 < 4 ∧ s.biasOn e.1 then s.setAnt e.1 ((s.ant e.1).measure e.2 s.tb.clk) else s) s
  (s.putRf { s.rf with stamp := s.tb.q0, blkClk := some s.tb.clk, clkq := s.clk.pllF.state == 3 })

/-! Registers (Tables 4-11). -/

/-- ANT_STAT. -/
def State.antStat (s : State) (a : Nat) : Word :=
  let x := s.ant a
  let lk := fun b => (s.strm (3 * a + b)).locked && s.isOn 8
  pack [put 47 45 (s.antState a), put 44 37 (if s.biasOn a then x.ma else 0), put 36 33 x.retries, putB 32 (lk 0), putB 31 (lk 1), putB 30 (lk 2)]
/-- STR_STAT. -/
def State.strStat (s : State) (st : Nat) : Word :=
  let x := s.strm st
  pack [put 47 41 x.gain, putB 40 (x.gain == 0), putB 39 (x.gain == 127), put 38 30 x.frac, put 29 26 (x.lines.filterMap fun e => e.2).length,
    putB 25 x.inLobe, putB 24 x.heavy, putB 23 (s.noInput st), put 22 16 (fld x.agc 23 17 - x.gain), putB 15 x.linesOver]
/-- NOTCHn: in fixed mode the written FREQ, in adaptive mode the tracked line. -/
def Strm.notchWord (x : Strm) (n : Nat) : Word :=
  let w := tget 0 n x.notchN
  let l := tget none n x.lines
  let f : Int := match l with | some v => v.1 | none => sfld w 45 32
  pack [putB 47 (bit w 47), putB 46 l.isSome, putS 45 32 f, put 31 24 (l.getD (0, 0, 0)).2.1, put 23 16 (l.getD (0, 0, 0)).2.2]
/-- A word of an antenna page (Table 3), by offset. -/
def State.rfWord (s : State) (a off : Nat) : Word :=
  if off = 0 then (s.ant a).cfg
  else if off = 1 then s.antStat a
  else if off = 2 then (s.ant a).dly
  else if off < 0x40 ∨ 0xA0 ≤ off then 0
  else
    let b := (off - 0x40) / 0x20
    let x := s.strm (3 * a + b)
    match (off - 0x40) % 0x20 with
    | 0 => x.agc | 1 => x.blank | 2 => x.notch | 3 => s.strStat (3 * a + b) | 4 => word x.blanked
    | 5 => BitVec.setWidth 48 (Config.pathDly a b)
    | n => if 8 ≤ n ∧ n < 16 then x.notchWord (n - 8) else 0

end Sys2Proof.Machine
end

