-- ==== Sys2Proof/Machine/Cells.lean ====
section
/-! DEFINITION. What Gale computes (R81-R89, R99-R101): the size of a job, its captures' search samples, its cells, the engines' block-floating numbers, its noise floor and its report. -/
namespace Sys2Proof.Machine
open Sys2Proof

/-! The size of a job. -/

/-- Search samples per 2 ms. -/
def Job.rate (j : Job) : Nat := match sigOf j.sig with | some g => 2 ^ j.cps * g.chips2 | none => 1
/-- The code period in search samples, P. -/
def Job.period (j : Job) : Nat := match sigOf j.sig with | some g => 2 ^ j.cps * g.chips | none => 1
/-- L_c in ms (R87). -/
def Job.len (j : Job) : Nat := j.coh * j.noncoh + (2 * (j.cpStart + j.cpWidth) + j.rate - 1) / j.rate
/-- The antennas of a mask whose bit 3 is A. -/
def maskAnts (m : Nat) : List Nat := [0, 1, 2, 3].filter fun a => m.testBit (3 - a)
/-- The band of a job's signal. -/
def Job.band (j : Job) : Nat := match sigOf j.sig with | some g => g.band | none => 0
/-- The nominal carrier of a job's signal, 100 Hz. -/
def Job.carrier (j : Job) : Nat := match sigOf j.sig with | some g => carrierOf g j.prn | none => 0
/-- The streams a job names. -/
def Job.streams (j : Job) : List Nat := (maskAnts j.mask).map fun a => 3 * a + j.band
/-- Search samples of n ms. -/
def samplesOf (rate n : Nat) : Nat := (n * rate + 1) / 2
/-- Cells of a job (R81). -/
def Job.cells (j : Job) : Nat := j.cpWidth * j.bins * j.coh * j.noncoh * (maskAnts j.mask).length
/-- Granules of a job (R82). -/
def Job.granules (j : Job) : Nat := (j.cells + 8191) / 8192
/-- Forward transforms of a capture (R84). -/
def fwdOf (rate len : Nat) : Nat := (samplesOf rate len + 65535) / 65536

/-! Captures (R87). -/

/-- The I and Q of a stream byte; a blanked sample counts as zero (R62). -/
def byteIQ (y : BitVec 8) : Int × Int := if y = 0x88 then (0, 0) else (y.toInt / 16, (y.setWidth 4).toInt)
/-- A number in 8-bit two's complement, saturated. -/
def sat8 (x : Int) : BitVec 8 := BitVec.ofInt 8 (max (-128) (min 127 x))
/-- A capture takes in one stream block, a millisecond: the search samples that its filter makes of it, and the power of those that no blanked stream sample stands under (R101). -/
def Capture.take1 (c : Capture) (blk : List (BitVec 8)) : Capture :=
  let blk := (List.range 81840).map fun i => blk.getD i 0x88
  let n := samplesOf c.rate (c.got + 1) - samplesOf c.rate c.got
  let ys := (Config.searchFilter c.band c.carrier c.rate (c.prev.map byteIQ) (blk.map byteIQ)).take n
  let zs := ys.map fun y => (sat8 y.1, sat8 y.2)
  let p := zs.zipIdx.foldl (fun (a : Nat × Nat) z =>
    if blk.getD (z.2 * 163680 / c.rate) 0x88 = 0x88 then a
    else (a.1 + (z.1.1.toInt * z.1.1.toInt + z.1.2.toInt * z.1.2.toInt).toNat, a.2 + 1)) c.power
  { c with got := c.got + 1, data := c.data ++ zs, prev := blk, power := p }
/-- The blocks that have ended since the boundary before: those that no boundary command brought are absent. -/
def Capture.take (c : Capture) (blk : List (BitVec 8)) (n : Nat) : Capture :=
  let c := (List.range (min (n - 1) (c.len - c.got))).foldl (fun (c : Capture) _ => c.take1 []) c
  if c.got < c.len then c.take1 blk else c
/-- A capture is still being filled. -/
def Capture.filling (c : Capture) : Bool := decide (c.got < c.len)
/-- A search sample of a capture. -/
def Capture.sample (c : Capture) (u : Nat) : Int × Int := let z := c.data.getD u (0, 0); (z.1.toInt, z.2.toInt)
/-- The mean power of its unblanked samples. -/
def Capture.meanPower (c : Capture) : Rat := if c.power.2 = 0 then 0 else (c.power.1 : Rat) / c.power.2

/-! Cells (R88). -/

/-- f(i, t) in Hz, t in s from the capture's start. -/
def Job.doppler (j : Job) (i : Nat) (t : Rat) : Rat :=
  (j.dopCentre : Rat) / 2 ^ 16 + ((i : Rat) - ((j.bins : Rat) - 1) / 2) * j.dopStep / 2 ^ 8 + (j.dopRate : Rat) / 2 ^ 12 * t
/-- The carrier cycles that the apparent Doppler of a bin adds up to time t. -/
def Job.cycles (j : Job) (i : Nat) (t : Rat) : Rat := j.doppler i 0 * t + (j.dopRate : Rat) / 2 ^ 12 * t * t / 2
/-- The time of a search sample in s. -/
def Job.at_ (j : Job) (u : Nat) : Rat := (u : Rat) / (500 * j.rate)
/-- The code phase d of window index k. -/
def Job.phase (j : Job) (k : Nat) : Nat := (j.cpStart + k) % j.period
/-- Where a bin's replica stands in its code at a sample, chips from the code period that starts at phase d: it advances at the chip rate × (1 + f / nominal carrier). -/
def Job.codePos (j : Job) (i d u : Nat) : Rat :=
  let chips : Rat := match sigOf j.sig with | some g => 500 * g.chips2 | none => 1
  chips * ((j.at_ u - j.at_ d) + (j.cycles i (j.at_ u) - j.cycles i (j.at_ d)) / (100 * j.carrier))
/-- A replica's sample: code, with SEC the secondary or NH code from SEC_PHASE, and carrier. -/
def Job.replica (j : Job) (i k u : Nat) : Rat × Rat :=
  let d := j.phase k
  let chips := match sigOf j.sig with | some g => g.chips | none => 1
  let pos := j.codePos i d u
  let per : Int := (pos / chips).floor
  let c := match componentOf j.sig with
    | some x =>
      let n : Int := (j.secPhase : Int) - ((j.cpStart + k) / j.period : Nat) + per
      Config.codeAt x j.prn (pos - per * chips) * (if j.sec then Config.secChip x j.prn (n % secLen j.sig).toNat else 1)
    | none => 0
  let w := Config.carrierAt (j.cycles i (j.at_ u))
  (c * w.1, c * w.2)
/-- The correlation of one cell: window index k, bin i, coherent millisecond m after phase d of a capture. -/
def Job.corr (j : Job) (c : Capture) (i k m : Nat) : Rat × Rat :=
  let a := samplesOf j.rate m
  (List.range (samplesOf j.rate (m + 1) - a)).foldl (fun (z : Rat × Rat) x =>
    let u := j.phase k + a + x
    let y := c.sample u
    let r := j.replica i k u
    (z.1 + y.1 * r.1 + y.2 * r.2, z.2 + y.2 * r.1 - y.1 * r.2)) (0, 0)

/-! Block-floating numbers (R85). -/

/-- Redundant sign bits of a 12-bit component. -/
def redundant (x : Int) : Nat := 11 - (if 0 ≤ x then x.toNat.size else (-x - 1).toNat.size)
/-- The block exponent after the seventeen stages: it rises by one wherever a stage's block has fewer than two redundant sign bits. -/
def blockExp (zs : List (Rat × Rat)) : Nat :=
  (List.range 17).foldl (fun e k =>
    if (Config.stagePoints k e zs).any fun p => decide (redundant p.1 < 2 ∨ redundant p.2 < 2) then e + 1 else e) 0
/-- A component as the engine holds it: a 12-bit mantissa under the block exponent. -/
def mantissa (e : Nat) (x : Rat) : Int := max (-2048) (min 2047 (Config.pointRound (x / 2 ^ e)))
/-- The cells of a coherent millisecond of a capture, bin by bin, as the transforms leave them. Which cells share a block is not stated (DESIGN CHOICE, log 192): those of one millisecond and capture do. -/
def Job.block (j : Job) (c : Capture) (m : Nat) : List (Int × Int) :=
  let zs := (List.range j.bins).flatMap fun i => (List.range j.cpWidth).map fun k => j.corr c i k m
  let e := blockExp zs
  zs.map fun z => (mantissa e z.1 * 2 ^ e, mantissa e z.2 * 2 ^ e)
/-- Cell-by-cell sums. -/
def addCells (n : Nat) (xs ys : List (Int × Int)) : List (Int × Int) := (List.range n).map fun i => ((xs.getD i (0, 0)).1 + (ys.getD i (0, 0)).1, (xs.getD i (0, 0)).2 + (ys.getD i (0, 0)).2)
/-- The squared magnitudes of coherent block b of a capture (R88). -/
def Job.cohPower (j : Job) (c : Capture) (b : Nat) : List Nat :=
  let n := j.bins * j.cpWidth
  let sum := (List.range j.coh).foldl (fun a m => addCells n a (j.block c (b * j.coh + m))) []
  (List.range n).map fun i => let z := sum.getD i (0, 0); (z.1 * z.1 + z.2 * z.2).toNat
/-- The non-coherent sums of a job, over its coherent blocks and, cell by cell, over its antennas (R89). -/
def Job.sums (j : Job) (cs : List Capture) : List Nat :=
  let n := j.bins * j.cpWidth
  (cs.flatMap fun c => (List.range j.noncoh).map fun b => j.cohPower c b).foldl (fun a p => (List.range n).map fun i => a.getD i 0 + p.getD i 0) []
/-- The exponent under which a cell's 32 bits hold its sum. -/
def sumExp (big : Nat) : Nat := Nat.log2 big - 31
/-- BEXP for the largest cell: its mantissa has bit 11 set. Below 2^11 no exponent sets it, and BEXP is 0 (DESIGN CHOICE, log 192). -/
def bexpOf (big : Nat) : Nat := if big < 2048 then 0 else min 63 (Nat.log2 big - 11)
/-- A sum's mantissa at BEXP, from its 32 bits. -/
def cellValue (big x : Nat) : Nat := min 4095 (x / 2 ^ sumExp big / 2 ^ (bexpOf big - sumExp big))

/-! Reports (R99-R101). -/

/-- A peak candidate: value, code phase, bin, and its index in the window. -/
structure Cand where
  val : Nat
  cp  : Nat
  bin : Nat
  k   : Nat
  deriving DecidableEq, Repr
/-- Two code phases within d samples of one another, modulo P. -/
def nearPhase (p d a b : Nat) : Bool := decide ((a + p - b % p) % p ≤ d) || decide ((b + p - a % p) % p ≤ d)
/-- The peaks of a job (R100): at most n of the candidates, strongest first, each away from those before it. -/
def pickPeaks (n p d : Nat) (ok : Cand → Bool) (taken : List Cand) : List Cand → List Cand
  | [] => taken
  | c :: cs =>
    if taken.length = n then taken
    else if taken.any (fun x => nearPhase p d c.cp x.cp && decide ((c.bin : Int) - x.bin ≤ 1 ∧ (x.bin : Int) - c.bin ≤ 1)) then pickPeaks n p d ok taken cs
    else if ok c then pickPeaks n p d ok (taken ++ [c]) cs
    else pickPeaks n p d ok taken cs
/-- The mean of a cell with no signal present (R101): the power of the unblanked samples, over the samples of COH ms, NONCOH blocks and the antennas. That the noise adds so is read from the rule (DEDUCED, log 192). -/
def Job.noiseMean (j : Job) (cs : List Capture) : Rat :=
  cs.foldl (fun n c => n + c.meanPower * (j.rate * j.coh : Nat) / 2 * j.noncoh) 0
/-- What a finished job found: BEXP, NOISE and its peaks with their neighbours; one outside the window or the bins reads 0. -/
def Job.found (j : Job) (cs : List Capture) : Nat × Nat × List (Cand × List Nat) :=
  let sums := j.sums cs
  let big := sums.foldl max 0
  let e := bexpOf big
  let noise := min (j.noiseMean cs * 64 / 2 ^ e).floor.toNat (2 ^ 18 - 1)
  let cells : List Cand := sums.zipIdx.map fun x => ⟨cellValue big x.1, j.phase (x.2 % j.cpWidth), x.2 / j.cpWidth, x.2 % j.cpWidth⟩
  let order := cells.mergeSort fun a b => decide (b.val < a.val) || (decide (a.val = b.val) && decide (a.bin * 2 ^ 24 + a.cp ≤ b.bin * 2 ^ 24 + b.cp))
  let near := fun (cp bin : Nat) => match cells.find? fun c => c.cp == cp && c.bin == bin with | some c => c.val | none => 0
  let ps := pickPeaks j.npeak j.period (2 ^ j.cps) (fun c => decide (j.thresh * noise ≤ c.val * 16384)) [] order
  (e, noise, ps.map fun c => (c, [near ((c.cp + j.period - 1) % j.period) c.bin, near ((c.cp + 1) % j.period) c.bin,
    if c.bin = 0 then 0 else near c.cp (c.bin - 1), near c.cp (c.bin + 1)]))
/-- The words of Table 3. The spec states no BEXP and NOISE for a job that is not DONE, and no stamp for one that opened no capture: they are free values (DESIGN CHOICE, log 192), by the number of the free value. -/
def Job.report (j : Job) (cs : List Capture) (fr status : Nat) : List Word :=
  let f := if status = 0 then j.found cs else (Config.freeNat fr, Config.freeNat (fr + 1), [])
  let opened : Bool := j.caps != []
  [pack [put 47 32 j.tag, put 31 20 j.slot, put 19 16 status, put 15 12 f.2.2.length, putB 11 j.clkq, putB 10 j.slip, putB 9 j.heavy, putB 8 j.lobe],
    if opened then cyc j.stamp else Config.freeWord fr, if opened then frc j.stamp else Config.freeWord (fr + 1),
    pack [put 47 42 f.1, put 41 24 f.2.1, put 23 0 j.gran]] ++
  f.2.2.flatMap fun x => [pack [put 47 36 x.1.val, put 35 12 x.1.cp, put 11 0 x.1.bin],
    pack [put 47 36 (x.2.getD 0 0), put 35 24 (x.2.getD 1 0), put 23 12 (x.2.getD 2 0), put 11 0 (x.2.getD 3 0)]]

end Sys2Proof.Machine
end

