-- ==== Sys2Proof/Machine/Gale.lean ====
section
/-! DEFINITION. Gale (R81-R106): jobs, captures, tiles and forward transforms, reports, engine checks; and the block boundary at which captures open. -/
namespace Sys2Proof.Machine
open Sys2Proof

/-- Change the Gale block. -/
def State.onGale (f : Gale → Gale) (s : State) : State := s.putGale (f s.gale)
/-- Engine e. -/
def State.eng (s : State) (e : Nat) : Eng := tget {} e s.gale.engs
/-- Replace engine e. -/
def State.setEng (s : State) (e : Nat) (v : Eng) : State := s.putGale { s.gale with engs := tput {} e v s.gale.engs }
/-- Engine e is on: G0-G31 in D3, G32-G63 in D4. -/
def State.engOn (s : State) (e : Nat) : Bool := s.isOn (if e < 32 then 3 else 4) && !s.pwr.selftest.testBit 5
/-- ENGINES: engines on and not failed. -/
def State.engines (s : State) : Nat := ((List.range 64).filter fun e => s.engOn e && !(s.eng e).failed).length

/-- Search samples of the pool in use. -/
def Gale.poolUsed (g : Gale) : Nat := g.caps.foldl (fun n c => n + samplesOf c.rate c.len) 0
/-- The pool, in search samples (R87). -/
def poolSize : Nat := 12582912

/-! Reports. -/

/-- The captures of a job. -/
def Gale.capsOf (g : Gale) (j : Job) : List Capture := g.caps.filter fun c => j.caps.contains c.id
/-- A job ends with its one report (R95): its slot is free, its captures close when no other job shares them; a partner's record is formed, and Ndovos's own report goes to shared memory through M2 (R99). -/
def State.endJob (status : Nat) (j : Job) (s : State) : State :=
  let ws := j.report (s.gale.capsOf j) s.fresh status
  let s := if status = 0 then s else s.putFresh (s.fresh + 2)
  let s := s.onGale fun g =>
    let jobs := g.jobs.filter fun x => x.seq ≠ j.seq
    { g with
      jobs := jobs
      caps := g.caps.filter fun c => jobs.any fun x => x.caps.contains c.id
      reps := tput none j.slot (some ⟨j.who, j.tag, ws⟩) g.reps
      cntJob := satN 48 (g.cntJob + 1) }
  if j.who < 5 then
    ((s.putJrn (s.jrn.unpin .work j.jsn))).record j.who false ([pack [put 47 40 0x01], pack [put 47 40 0x40]] ++ ws)
  else s.memWrites (Config.galeReport 0 j.slot).toNat ws
/-- Every queued job ends ABORTED (R95, R97); the reports wait while the module is not ready. -/
def State.galeAbort (s : State) : State :=
  let js := s.gale.jobs
  if s.pwr.ready then js.foldl (fun (s : State) j => s.endJob 3 j) s
  else s.onGale fun g => { g with jobs := [], caps := [], aborted := g.aborted ++ js }
/-- The reports of jobs that an outage ended, once the module is ready (R97). -/
def State.galeReady (s : State) : State :=
  let js := s.gale.aborted
  js.foldl (fun (s : State) j => s.endJob 3 j) (s.onGale fun g => { g with aborted := [] })
/-- Replace a job. -/
def State.setJob (j : Job) (s : State) : State := s.onGale fun g => { g with jobs := g.jobs.map fun x => if x.seq = j.seq then j else x }
/-- What an engine was running goes back to be run again, by another engine where `not_` names one. -/
def Gale.giveBack (w : EngWork) (not_ : Option Nat) (g : Gale) : Gale :=
  match w with
  | .tile share => { g with jobs := g.jobs.map fun j => match share.find? fun x => x.1 == j.seq with | some x => { j with left := j.left + x.2, not_ := not_ } | none => j }
  | .fwd c => { g with caps := g.caps.map fun y => if y.id = c then { y with fwd := y.fwd + 1, not_ := not_ } else y }
/-- An engine domain has gone off (R97, R105): its engines restart and their work moves to the other domain; with both off, every job ends. -/
def State.galeDown (d : Nat) (s : State) : State :=
  let lo := if d = 3 then 0 else 32
  let s := s.onGale fun g =>
    let mine := g.engs.filter fun e => decide (lo ≤ e.1 ∧ e.1 < lo + 32)
    let g := mine.foldl (fun (g : Gale) e => match e.2.work with | some w => g.giveBack w none | none => g) g
    { g with engs := g.engs.filter fun e => decide (e.1 < lo ∨ lo + 32 ≤ e.1) }
  if s.dom 3 = 0 ∧ s.dom 4 = 0 then s.galeAbort.onGale fun g => { g with reps := [], windows := [], cntJob := 0, cntGran := 0, fault := 0, tiles := [], fwds := [] }
  else s

/-! GALE_JOB and GALE_CANCEL. -/

/-- The job that the words of a GALE_JOB describe (Table 2). -/
def jobOf (k : Pkt) : Job :=
  let w := arg k.ps
  let j : Job := {
    slot := 0, jsn := 0, seq := 0, who := k.partner
    tag := fld (w 0) 47 32, prio := fld (w 0) 31 30, npeak := fld (w 0) 29 26, mask := fld (w 0) 25 22, sig := fld (w 0) 21 16, cps := fld (w 0) 15 14
    sec := bit (w 0) 13, prn := fld (w 1) 47 40, coh := fld (w 1) 39 32, noncoh := fld (w 1) 31 16, bins := fld (w 1) 15 4
    dopCentre := (w 2).toInt, dopStep := fld (w 3) 47 24, dopRate := sfld (w 3) 23 0
    cpStart := fld (w 4) 47 24, cpWidth := fld (w 4) 23 0, thresh := fld (w 5) 47 32, secPhase := fld (w 5) 31 16
    start := if bit (w 0) 12 then some (mkQ (w 6) (w 7)) else none, gran := 0, left := 0, todo := 0 }
  { j with gran := j.granules, left := j.granules, todo := j.granules }
/-- BAD_PARAM of R91. -/
def jobBad (j : Job) : Bool :=
  match sigOf j.sig with
  | none => true
  | some g =>
    let lim := cohLimit g j.prn j.sec
    !prnOk g j.prn || decide (j.npeak = 0 ∨ 8 < j.npeak ∨ j.mask = 0 ∨ j.coh = 0 ∨ lim < j.coh ∨ j.noncoh = 0 ∨ j.bins = 0) ||
      decide (j.dopStep = 0 ∧ 1 < j.bins) || decide (j.period ≤ j.cpStart ∨ j.cpWidth = 0 ∨ j.period < j.cpWidth) ||
      decide (10000 < j.coh * j.noncoh ∨ 16777215 < j.gran ∨ poolSize < samplesOf j.rate j.len * (maskAnts j.mask).length) ||
      (j.sec && (j.start.isNone || decide (j.period < 2 * j.cpWidth)))
/-- The partner slots that are free (R92). -/
def State.freeSlots (s : State) : List Nat := (List.range 3072).filterMap fun i => if s.gale.jobs.any (fun j => j.slot == 1024 + i) then none else some (1024 + i)
/-- PSLOT_MAX. -/
def Gale.pslotMax (g : Gale) : Nat := fld g.ctrl 46 35
/-- GALE_JOB (0x040, R90-R92). Which free slot it takes is not stated. -/
def opGaleJob : OpSpec :=
  { code := 0x040, modes := 0x7FE
    eval := fun k s =>
      let j := jobOf k
      let free := s.freeSlots
      let slot := free.getD (Config.freeNat s.fresh % free.length) 0
      if k.ps.length ≠ 8 ∨ jobBad j then badParam 0
      else if j.prio = 3 then notPermitted 0
      else if j.start.any (fun q => decide (qdist q s.tb.q0 < usUnits 1000)) then reason .tooLate 0
      else if (maskAnts j.mask).all (fun a => s.fc.front.testBit a) then reason .fault 0x015
      else if free = [] ∨ s.gale.pslotMax ≤ (s.gale.jobs.filter fun x => x.who == k.partner).length ∨
          (tget 0 3 s.pwr.force = 3 ∧ tget 0 4 s.pwr.force = 3) then reason .noCapacity 0
      else
        { status := .accepted, words := [pack [put 47 36 slot, put 35 12 j.gran]], pins := [.work], promise := 2
          act := fun jsn s => (s.putFresh (s.fresh + 1)).onGale fun g =>
            { g with jobs := g.jobs ++ [{ j with slot := slot, jsn := jsn, seq := g.seq }], seq := g.seq + 1 } } }
/-- GALE_JOB. -/
def execGaleJob (t : Lapse) (env : Env) (ps : List Word) (s : State) : Host.Outcome State Fault Refusal := runOp opGaleJob t env ps s
/-- GALE_CANCEL (0x041, R96): a job whose report is out counts as finished while its slot has no later job. -/
def opGaleCancel : OpSpec :=
  { code := 0x041
    eval := fun k s =>
      let w := arg k.ps 0
      let sel := fld w 47 46
      let sup := (s.part k.partner).rights = 3
      let slot := fld w 11 0
      let mine := fun (who tag n : Nat) => match sel with
        | 0 => n == slot && (who == k.partner || sup)
        | 1 => who == k.partner && tag == fld w 27 12
        | _ => who == k.partner
      let js := s.gale.jobs.filter fun j => j.who != 15 && mine j.who j.tag j.slot
      let fin := s.gale.reps.filter fun e => !(s.gale.jobs.any fun j => j.slot == e.1) &&
        (match e.2 with | some r => r.who != 15 && mine r.who r.tag e.1 | none => false)
      if k.ps.length ≠ 1 ∨ sel = 3 then badParam 0
      else if sel = 0 ∧ (slot < 1024 ∨ (s.gale.jobs.any fun j => j.slot == slot && j.who != k.partner && !sup)) then notPermitted 0
      else doneWith [pack [put 47 35 js.length, put 34 22 fin.length]] fun _ s => js.foldl (fun (s : State) j => s.endJob 1 j) s }
/-- GALE_CANCEL. -/
def execGaleCancel (t : Lapse) (env : Env) (ps : List Word) (s : State) : Host.Outcome State Fault Refusal := runOp opGaleCancel t env ps s
/-- GALE_INPUT_TIMEOUT (R93): a job that has waited 1,000 ms for input. -/
def execGaleInputTimeout (t : Lapse) (slot : Nat) (s : State) : Host.Outcome State Fault Refusal :=
  let s := s.elapse t
  match s.gale.jobs.find? fun j => j.slot == slot with
  | some j =>
    match j.since with
    | some c => if j.caps = [] ∧ c + 654720000 ≤ s.tb.clk then .next (s.endJob 2 j) else .next s
    | none => .next s
  | none => .next s

/-! Captures (R87, R93). -/

/-- Take one antenna's capture for a job at this boundary: shared with the jobs of the same boundary, lengthened where needed. -/
def Gale.takeCapture (j : Job) (a : Nat) (now : Qval) (clk : Nat) (g : Gale) : Gale × Nat :=
  match g.caps.find? fun c => c.ant == a && c.carrier == j.carrier && c.rate == j.rate && c.clk == clk with
  | some c =>
    let n := fwdOf c.rate (max c.len j.len)
    let c' := { c with len := max c.len j.len, fwd := n, fwdTodo := n }
    ({ g with caps := g.caps.map fun x => if x.id = c.id then c' else x }, c.id)
  | none =>
    let n := fwdOf j.rate j.len
    ({ g with
      caps := g.caps ++ [{ id := g.capId, ant := a, band := j.band, carrier := j.carrier, rate := j.rate, stamp := now, clk := clk, len := j.len, fwd := n, fwdTodo := n }]
      capId := g.capId + 1 }, g.capId)
/-- A job opens its captures at this boundary, or waits (R93). The boundary at or after START is the AT job's own; only one that it has to wait beyond makes it late (DESIGN CHOICE, log 192: the rule does not say whether a START between two boundaries, or one passed by a forward step, counts as late). -/
def State.openJob (q : Nat) (s : State) : State :=
  match s.gale.jobs.find? fun j => j.seq == q with
  | none => s
  | some j =>
    let due : Bool := match j.start with | some st => !behind s.tb.q0 st | none => true
    if j.caps ≠ [] ∨ !due then s
    else if j.streams.any s.noInput then s.setJob { j with since := some (j.since.getD s.tb.clk), slip := j.start.isSome }
    else
      let r := (maskAnts j.mask).foldl (fun (acc : Gale × List Nat) a =>
        let x := acc.1.takeCapture j a s.tb.q0 s.tb.clk
        (x.1, acc.2 ++ [x.2])) (s.gale, [])
      if poolSize < r.1.poolUsed ∨ 255 < r.1.caps.length then s.setJob { j with since := none, slip := j.start.isSome }
      else State.setJob { j with caps := r.2, stamp := s.tb.q0, since := none } (s.putGale r.1)
/-- What a boundary finds of a job whose captures fill or have just filled: a stream that broke off since the boundary before ends it, flags are kept (R95, R98). `open_` are the captures that were filling. -/
def State.watchJob (open_ : List Nat) (q : Nat) (s : State) : State :=
  match s.gale.jobs.find? fun j => j.seq == q with
  | none => s
  | some j =>
    if j.caps.any fun i => open_.contains i then
      if j.streams.any fun st => (s.strm st).gap then s.endJob 2 j
      else
        let from_ := (s.gale.capsOf j).foldl (fun n c => min n c.clk) s.tb.clk
        s.setJob { j with
          heavy := j.heavy || j.streams.any (fun st => (s.strm st).heavy)
          lobe := j.lobe || j.streams.any (fun st => (s.strm st).inLobe)
          clkq := j.clkq || s.clk.pllF.coastedSince from_ }
    else s
/-- The jobs in the order of R93 and R94: priority, capture start, acceptance. -/
def Gale.inOrder (g : Gale) : List Job :=
  let start := fun (j : Job) => match g.caps.find? fun c => j.caps.contains c.id with | some c => c.clk | none => 0
  g.jobs.mergeSort fun a b =>
    decide (b.prio < a.prio) || (decide (a.prio = b.prio) && (decide (start a < start b) || (decide (start a = start b) && decide (a.seq ≤ b.seq))))
/-- Gale at a block boundary (R87, R93, R95): the block that ended, `n` ms after the boundary before, goes into the captures; then captures open. -/
def State.galeBlock (n : Nat) (s : State) : State :=
  let qs := s.gale.inOrder.map fun j => j.seq
  let filling := (s.gale.caps.filter Capture.filling).map fun c => c.id
  let s : State := s.onGale fun g => { g with caps := g.caps.map fun c => if c.filling then c.take (s.strm (3 * c.ant + c.band)).blk n else c }
  let s : State := qs.foldl (fun (s : State) q => s.watchJob filling q) s
  let s : State := (List.range 12).foldl (fun (s : State) st => s.setStrm st { s.strm st with gap := false }) s
  let s : State := if s.dom 3 ≠ 0 ∨ s.dom 4 ≠ 0 then qs.foldl (fun (s : State) q => s.openJob q) s else s
  qs.foldl (fun (s : State) q => s.watchJob ((s.gale.caps.filter fun c => c.clk == s.tb.clk).map fun c => c.id) q) s
/-- RF_BLOCK_BOUNDARY (R63): every stream block begins on this sample, 81,840 samples after the one before. -/
def execRfBlockBoundary (t : Lapse) (streams : List StreamIn) (bias : List (Nat × Nat)) (s : State) : Host.Outcome State Fault Refusal :=
  let s := s.elapse t
  if s.isOn 11 ∧ s.atBlock then
    let n := match s.rf.blkClk with | some c => (s.tb.clk - c) / 654720 | none => 1
    .next ((s.rfBlock streams bias).galeBlock n)
  else .next s

/-! Engine slots (R83, R94, R105). -/

/-- Captures complete and transformed. -/
def Gale.complete (g : Gale) (j : Job) : Bool := (g.capsOf j).all fun c => !c.filling && c.fwdTodo == 0
/-- Search samples of a capture that stand there, transformed. -/
def Capture.there (c : Capture) : Nat :=
  if c.fwdTodo = 0 then c.data.length else min c.data.length ((fwdOf c.rate c.len - c.fwdTodo) * 65536)
/-- Granules of a job that an engine can take now: those of the coherent milliseconds whose samples are there, the cells in the order of their milliseconds; the last tile only once the captures are complete (R83). -/
def Gale.ready (g : Gale) (e : Nat) (j : Job) : Nat :=
  if j.caps = [] ∨ j.not_ = some e then 0
  else if g.complete j then j.left
  else
    let there := (g.capsOf j).foldl (fun n c => min n c.there) (samplesOf j.rate j.len)
    let ms := min (j.coh * j.noncoh) (2 * (there - (j.cpStart + j.cpWidth)) / j.rate)
    min j.left (min (ms * j.cpWidth * j.bins * (maskAnts j.mask).length / 8192) (j.gran - 1) - (j.gran - j.left))
/-- The granules of the next tile, by job (R82, R94). -/
def tileShare (n : Nat) (ready : Job → Nat) : List Job → List (Job × Nat)
  | [] => []
  | j :: js =>
    if n = 0 then []
    else if ready j = 0 then tileShare n ready js
    else (j, min n (ready j)) :: tileShare (n - min n (ready j)) ready js
/-- A capture's next forward transform can begin on an engine: its samples are there. -/
def Capture.fwdReady (c : Capture) (e : Nat) : Bool :=
  decide (c.fwd ≠ 0) && c.not_ != some e && (!c.filling || decide ((fwdOf c.rate c.len - c.fwd + 1) * 65536 ≤ c.data.length))
/-- The forward transform that is next, with the place of its job in the order (R84, R94). -/
def Gale.nextFwd (g : Gale) (e : Nat) : Option (Nat × Capture) :=
  (g.inOrder.zipIdx.flatMap fun j => ((g.capsOf j.1).filter fun c => c.fwdReady e).map fun c => (j.2, c)).head?
/-- Forward transforms that can begin now, over all captures. -/
def Gale.fwdWork (g : Gale) : Nat :=
  g.caps.foldl (fun n c => n + (if c.filling then min c.fwd (c.data.length / 65536 - (fwdOf c.rate c.len - c.fwd)) else c.fwd)) 0
/-- The engines whose forward slot of the millisecond is still free. -/
def State.freeFwd (s : State) (ms : Nat) : Nat :=
  ((List.range 64).filter fun e => s.engOn e && !(s.eng e).failed && ((s.eng e).ms != ms || (s.eng e).fwds == 0)).length
/-- An energy check failed (R105): what ran is run again on another engine, where one is in service; three within 1 s fail the engine. -/
def State.mismatch (e : Nat) (w : EngWork) (s : State) : State :=
  let x := s.eng e
  let ts := (s.tb.clk :: x.times).filter fun c => s.tb.clk < c + 654720000
  let fail := decide (3 ≤ ts.length)
  let other := (List.range 64).any fun f => f != e && s.engOn f && !(s.eng f).failed
  let s := s.setEng e { x with mis := satN 8 (x.mis + 1), times := ts.take 3, failed := fail }
  let s := s.onGale fun g => { g.giveBack w (if other then some e else none) with fault := setBit g.fault 0 }
  if fail then (s.onGale fun g => { g with fault := setBit g.fault 1 }).raiseAll true 0x301 [word e] else s
/-- The output energy lies further than 2^-6 of the expected value, 131,072 times the input energy, from it (R105). -/
def energyBad (inE outE : Nat) : Bool := decide (131072 * inE < 64 * ((outE : Int) - 131072 * inE).natAbs)
/-- A tile has run: its granules are evaluated, and a job whose last tile it was is DONE (R95). -/
def State.tileDone (began : Nat) (x : Nat × Nat) (s : State) : State :=
  match s.gale.jobs.find? fun j => j.seq == x.1 with
  | none => s
  | some j =>
    let j := { j with todo := j.todo - x.2, not_ := none, clkq := j.clkq || s.clk.pllG.coastedSince began }
    let s := (s.onGale fun g => { g with cntGran := satN 48 (g.cntGran + x.2) }).setJob j
    if j.todo = 0 then s.endJob 0 j else s
/-- The slot in progress on an engine ends. -/
def State.endSlot (e inE outE : Nat) (s : State) : State :=
  let x := s.eng e
  let old := fun (c : Nat) => decide (s.tb.clk < c + 65472000)
  let s := s.setEng e { x with work := none }
  match x.work with
  | none => s
  | some w =>
    let s := s.onGale fun g => match w with
      | .tile _ => { g with tiles := s.tb.clk :: g.tiles.filter old }
      | .fwd _ => { g with fwds := s.tb.clk :: g.fwds.filter old }
    if energyBad inE outE then s.mismatch e w
    else match w with
      | .tile share => share.foldl (fun (s : State) y => s.tileDone x.began y) s
      | .fwd c => s.onGale fun g => { g with caps := g.caps.map fun y => if y.id = c then { y with fwdTodo := y.fwdTodo - 1, not_ := none } else y }
/-- What an engine's next slot runs (R83, R94): its forward slot a forward transform; a search slot the work first in the order, where forward work borrows it that is ahead of every tile, or level with it and more than the free forward slots hold. -/
def State.nextWork (s : State) (e : Nat) (forward : Bool) (ms : Nat) : Option EngWork :=
  let g := s.gale
  let share := tileShare 16 (g.ready e) g.inOrder
  let tile : EngWork := .tile (share.map fun x => (x.1.seq, x.2))
  let tileAt := match share.head? with | some x => g.inOrder.findIdx fun j => j.seq == x.1.seq | none => g.inOrder.length
  let more := decide (s.freeFwd ms < g.fwdWork)
  match g.nextFwd e with
  | some f =>
    if forward ∨ (f.1 < tileAt ∧ share ≠ []) ∨ (f.1 ≤ tileAt ∧ more) then some (.fwd f.2.id)
    else if share = [] then none else some tile
  | none => if forward ∨ share = [] then none else some tile
/-- An engine's next slot begins: four search slots and one forward slot in every millisecond. -/
def State.startSlot (e : Nat) (forward : Bool) (s : State) : State :=
  let ms := s.tb.clk / 654720
  let x := if (s.eng e).ms = ms then s.eng e else { s.eng e with ms := ms, search := 0, fwds := 0 }
  if (forward ∧ x.fwds ≠ 0) ∨ (!forward ∧ 4 ≤ x.search) then s
  else
    let w := s.nextWork e forward ms
    let s := s.setEng e { x with
      work := w, began := s.tb.clk, busy := s.tb.clk + 130944, fwds := if forward then 1 else x.fwds, search := if forward then x.search else x.search + 1 }
    match w with
    | some (.tile share) => s.onGale fun g => { g with jobs := g.jobs.map fun j => match share.find? fun y => y.1 == j.seq with | some y => { j with left := j.left - y.2 } | none => j }
    | some (.fwd c) => s.onGale fun g => { g with caps := g.caps.map fun y => if y.id = c then { y with fwd := y.fwd - 1 } else y }
    | none => s
/-- GALE_SLOT (R83): on an engine one slot of 200 µs ends and the next begins; with HOLD, on a failed engine, or at the safe point of a coast (R216), none begins. -/
def execGaleSlot (t : Lapse) (w : GaleWork) (s : State) : Host.Outcome State Fault Refusal :=
  let s := s.elapse t
  if w.engine < 64 ∧ s.engOn w.engine ∧ (s.eng w.engine).busy ≤ s.tb.clk ∧ s.clk.pllG.gives then
    let s := s.endSlot w.engine w.inE w.outE
    let safe := s.clk.pllG.state = 3 ∧ !s.clk.pllG.refLost
    .next (if (s.eng w.engine).failed ∨ bit s.gale.ctrl 47 ∨ safe then s else s.startSlot w.engine w.forward)
  else .next s

/-! Registers (Tables 8-12). -/

/-- GALE_STAT. -/
def State.galeStat (s : State) : Word :=
  pack [put 47 41 s.engines, put 40 28 s.gale.jobs.length, put 27 20 s.gale.caps.length, put 14 0 ((poolSize - s.gale.poolUsed) / 1024)]
/-- GALE_UTIL, the percentages rounded down; while ENGINES is 0 they are of one engine (DESIGN CHOICE, log 192). -/
def State.galeUtil (s : State) : Word :=
  let e := max 1 s.engines
  let n := fun (xs : List Nat) => (xs.filter fun c => decide (s.tb.clk < c + 65472000)).length
  pack [put 47 41 (min 127 (n s.gale.tiles * 100 / (400 * e))), put 40 34 (min 127 (n s.gale.fwds * 100 / (100 * e)))]
/-- ENG_STAT. -/
def State.engStat (s : State) (e : Nat) : Word :=
  let x := s.eng e
  pack [put 47 46 (if !s.engOn e then 0 else if x.failed then 3 else if s.tb.clk < x.busy ∧ x.work.isSome then 2 else 1), put 45 38 x.mis]
/-- A write of GALE_RSEL (R106): the selected slot's last report is copied into the path's window. -/
def State.selectReport (path : Nat) (w : Word) (s : State) : State :=
  let slot := fld w 11 0
  let ws := match tget none slot s.gale.reps with | some r => r.ws | none => []
  s.onGale fun g => { g with rsel := tput 0 path slot g.rsel, windows := tput [] path ws g.windows }

end Sys2Proof.Machine
end

