-- ==== Sys2Proof/Machine/KiteNco.lean ====
section
/-! DEFINITION. Kite channels (R109, R113-R115, R120-R125): registers of a channel, its NCOs, its loops, its states. -/
namespace Sys2Proof.Machine
open Sys2Proof

/-- Channel n. -/
def State.chan (s : State) (n : Nat) : Chan := tget {} n s.kite.chans
/-- Replace channel n. -/
def State.setChan (s : State) (n : Nat) (v : Chan) : State := s.putKite { s.kite with chans := tput {} n v s.kite.chans }
/-- Train t. -/
def State.train (s : State) (t : Nat) : Train := tget {} t s.kite.trains
/-- Replace train t. -/
def State.setTrain (s : State) (t : Nat) (v : Train) : State := s.putKite { s.kite with trains := tput {} t v s.kite.trains }
/-- Loop profile p. -/
def State.prof (s : State) (p : Nat) : Profile := tget {} p s.kite.profs
/-- PCH_BASE (R108). -/
def Kite.pchBase (k : Kite) : Nat := fld k.ctrl 47 38
/-- COAST_MS. -/
def Kite.coastMs (k : Kite) : Nat := fld k.ctrl 37 26
/-- The channel is in PULL_IN or TRACK. -/
def Chan.active (c : Chan) : Bool := c.state == 1 || c.state == 2
/-- The channel's signal. -/
def Chan.info (c : Chan) : Sig := (sigOf c.sig).getD ⟨0, 0, 15754200, 0, 2046, 1, 20, 0, false, false, 20, false⟩
/-- The channel's stream. -/
def Chan.stream (c : Chan) : Nat := 3 * c.ant + c.info.band
/-- The profile a channel uses. -/
def Chan.profile (c : Chan) : Nat := fld c.ctrl 47 43
/-- CARR_TYPE of a profile. -/
def Profile.kind (p : Profile) : Nat := fld p.w0 47 46
/-- CN0_LOSS. -/
def Profile.cn0Loss (p : Profile) : Nat := fld p.w2 47 36
/-- The profile of channel n in force (R119). -/
def State.profOf (s : State) (n : Nat) : Profile := (s.chan n).prof
/-- The channel's carrier discriminator is the Costas form (R125). -/
def Chan.costas (c : Chan) : Bool := c.state != 0 && !c.info.pilot

/-- A real result as an integer; which way it is rounded is not stated. -/
def rndOpen (x : Rat) : Int := x.floor + (if x.den ≠ 1 ∧ Config.roundUp x.num.natAbs then 1 else 0)
/-- Chips per second. -/
def Sig.chipRate (g : Sig) : Rat := (g.chips2 : Rat) * 500
/-- Nominal carrier of a channel, Hz. -/
def Chan.freq (c : Chan) : Rat := (carrierOf c.info c.prn : Rat) * 100
/-- Carrier rate in NCO units (R115). -/
def carrUnits (hz : Rat) : Int := rndOpen (hz * 2 ^ 48 / 81840000)
/-- Code rate in NCO units. -/
def codeUnits (chips : Rat) : Nat := (rndOpen (chips * 2 ^ 48 / 81840000)).toNat
/-- The code period in NCO units. -/
def Sig.codeSpan (g : Sig) : Nat := g.chips * 2 ^ 48
/-- A code phase moved by a signed number of units: code periods and the secondary index go with it (R115). -/
def Nco.shift (g : Sig) (sec : Nat) (d : Int) (x : Nco) : Nco :=
  let span : Int := max 1 g.codeSpan
  let c := (x.code : Int) + d
  let per := c / span
  { x with code := (c % span).toNat, sec := (((x.sec : Int) + per) % (max 1 sec : Nat)).toNat, epoch := (((x.epoch : Int) + per) % 65536).toNat }
/-- The NCOs at a counter clock: a stream sample every eighth clock (R63, R115). -/
def Nco.at_ (g : Sig) (sec clk : Nat) (x : Nco) : Nco :=
  let n : Int := ((clk / 8 : Nat) : Int) - (x.clk / 8 : Nat)
  { x.shift g sec (x.crate * n) with
    carr := x.carr + x.carate * n + (x.gain * n * n / 2).floor, carate := x.carate + (x.gain * n).floor, clk := clk }
/-- A channel with its NCOs at a counter clock; in LOST they are frozen (R109). -/
def Chan.now (c : Chan) (clk : Nat) : Chan := if c.state = 3 then c else { c with nco := c.nco.at_ c.info (secLen c.sig) clk }
/-- The NCO state with which a channel met a stream sample. -/
def Chan.ncoAt (c : Chan) (u : Nat) : Nco :=
  let x := if c.rateClk / 8 ≤ u then c.nco else
    match c.hist.find? fun h => decide (h.1 / 8 ≤ u) with | some h => h.2 | none => (c.hist.getLast?.elim c.nco fun h => h.2)
  x.at_ c.info (secLen c.sig) (8 * u)
/-- The NCOs are set anew at a counter clock; what held before is kept while an integration still reaches it. -/
def Chan.steer (clk : Nat) (f : Nco → Nco) (c : Chan) : Chan :=
  let c := c.now clk
  let old := (c.rateClk, c.nco) :: c.hist
  let keep := (old.takeWhile fun h => decide (c.intAt < h.1 / 8)).length + 1
  { c with nco := f c.nco, rateClk := clk, hist := old.take keep }
/-- A channel's rates are set (R121). -/
def Chan.rates (clk : Nat) (dop chips : Rat) (c : Chan) : Chan :=
  c.steer clk fun x => { x with carate := carrUnits dop, crate := codeUnits chips, gain := 0 }
/-- The Doppler a channel's carrier NCO runs at, Hz. -/
def Chan.doppler (c : Chan) : Rat := (c.nco.carate : Rat) * 81840000 / 2 ^ 48
/-- Code time of a channel within a ms, s (R128). -/
def Chan.codeTime (c : Chan) : Rat := (c.nco.code : Rat) / 2 ^ 48 / c.info.chipRate
/-- A member's code offset, 2^-48 s: the difference of code times, within half a ms. -/
def codeOfs (c m : Chan) : Int :=
  let d := rndOpen ((c.codeTime - m.codeTime) * 2 ^ 48)
  let ms : Int := 2 ^ 48 / 1000
  (d + ms / 2) % ms - ms / 2
/-- A member's carrier offset, 2^-24 cycle. -/
def carrOfs (c m : Chan) : Int := rndOpen (((c.nco.carr : Rat) - (m.nco.carr : Rat) * c.freq / m.freq) / 2 ^ 24)

/-- Kite sets SLIP (R124): the next dump shows it; lock, n0, the half cycle and frame sync start again (R146-R148, R154). -/
def Chan.slipped (now : Qval) (c : Chan) : Chan :=
  { c with
    slip := true, slips := (c.slips + 1) % 256
    obs := { c.obs with lockFrom := now, n0 := none, amb := true, add := false, framed := false, fails := 0 } }
/-- AMB_MS returns to the code period at a reload (R145). -/
def Chan.unresolved (c : Chan) : Chan := { c with obs := { c.obs with ambMs := c.info.per, tx := none, framed := false }, softs := [] }
/-- The NCOs are reloaded (R124): a slip. -/
def Chan.reloaded (now : Qval) (c : Chan) : Chan := (c.slipped now).unresolved
/-- Effective LT in ms (R120). -/
def Chan.loopMs (c : Chan) : Nat :=
  if c.state = 1 ∨ !c.sync then 1
  else
    let lt := match fld c.prof.w0 19 17 with | 0 => 1 | 1 => 2 | 2 => 4 | 3 => 5 | 4 => 10 | _ => 20
    let u := unitMs c.info c.prn
    ([20, 10, 5, 4, 2, 1].find? fun m => decide (m ≤ lt ∧ m ≤ ltLimit c.info c.prn) && decide (u % m = 0)).getD 1

/-! Correlators (R116, R117). -/

/-- The code of a millisecond in NCO units. -/
def Sig.msSpan (g : Sig) : Nat := g.chips2 * 2 ^ 47
/-- Stream samples from a sample to the one at which the code phase next passes a multiple of a millisecond. -/
def Chan.toMs (c : Chan) (u : Nat) : Nat :=
  let x := c.ncoAt u
  let r := x.code % max 1 c.info.msSpan
  (c.info.msSpan - r + max 1 x.crate - 1) / max 1 x.crate
/-- The roving position of the next integration, 1/128 chip (R117). -/
def Chan.rovePos (c : Chan) : Int :=
  let ofs := sfld c.ctrl 33 22
  match fld c.ctrl 36 34 with
  | 1 => ofs
  | 4 => match c.sweep with
    | some p => if p < ofs.natAbs ∧ -(ofs.natAbs : Int) ≤ p then p + 1 else -ofs.natAbs
    | none => -ofs.natAbs
  | _ => 0
/-- What the roving correlator multiplies by (Table 5). -/
def Chan.roveCode (c : Chan) (x : Config.Component) (pos : Rat) : Int :=
  match fld c.ctrl 36 34 with
  | 1 | 4 => Config.codeAt x c.prn (pos + (c.rovePos : Rat) / 128)
  | 2 => Config.companionAt x c.prn pos
  | 3 => Config.noiseAt x pos
  | _ => 0
/-- One stream sample in a correlator: sample × carrier replica (64 phase levels) × code; the carrier NCO and the fixed offset between the nominal carrier and the band centre (R115, R116). -/
def Chan.wiped (c : Chan) (u : Nat) (y : BitVec 8) : Rat × Rat :=
  let x := c.ncoAt u
  let fixed : Rat := ((carrierOf c.info c.prn : Int) - bandCentre c.info.band) * 100 * (u : Rat) / 81840000
  let ph : Rat := (x.carr : Rat) / 2 ^ 48 + fixed
  let w := Config.carrier64 ((ph - ph.floor) * 64).floor.toNat
  let z := byteIQ y
  (z.1 * w.1 + z.2 * w.2, z.2 * w.1 - z.1 * w.2)
/-- The sum of a code over samples from u on, to a signed 24-bit integer in I and Q. -/
def Chan.correlate (c : Chan) (u : Nat) (ys : List (BitVec 8)) (code : Rat → Int) : Int × Int :=
  let z := ys.zipIdx.foldl (fun (a : Rat × Rat) y =>
    let w := c.wiped (u + y.2) y.1
    let k := code ((c.ncoAt (u + y.2)).code / 2 ^ 48)
    (a.1 + k * w.1, a.2 + k * w.2)) (0, 0)
  (sat 24 (rndOpen z.1), sat 24 (rndOpen z.2))
/-- The integration that begins at `intAt`, over its stream samples: one code-aligned millisecond. -/
def Chan.integ (c : Chan) (x : Config.Component) (bytes : List (BitVec 8)) : Integ :=
  let n := c.toMs c.intAt
  let ys := (List.range n).map fun i => bytes.getD i 0x88
  let d : Rat := (fld c.ctrl 42 37 : Rat) / 128
  let at_ := fun (o p : Rat) => Config.codeAt x c.prn (p + o)
  let e := c.correlate c.intAt ys (at_ d)
  let p := c.correlate c.intAt ys (at_ 0)
  let l := c.correlate c.intAt ys (at_ (-d))
  let r := c.correlate c.intAt ys (c.roveCode x)
  let h := c.correlate c.intAt (ys.take (n / 2)) (at_ 0)
  { eI := e.1, eQ := e.2, pI := p.1, pQ := p.2, lI := l.1, lQ := l.2, rI := r.1, rQ := r.2, hI := h.1, hQ := h.2
    n := n, last := c.intAt + n - 1, rove := c.rovePos, ms := (c.ncoAt c.intAt).code / max 1 c.info.msSpan, sec := (c.ncoAt c.intAt).sec }

/-! Symbols (R153, R154). -/

/-- The message type whose symbols a channel yields: from its prompt correlator on a data component, from its roving correlator in DATA mode on a pilot (R153, Table 5). -/
def Chan.message (c : Chan) : Option Nat :=
  if c.state ≠ 2 ∨ (c.info.pilot && fld c.ctrl 36 34 != 2) then none
  else (List.range 48).find? fun mt => (match msgType mt with | some r => r.1.contains c.sig | none => false) &&
    (mt != 0x10 || !isD2 c.info c.prn) && (mt != 0x11 || isD2 c.info c.prn)
/-- A channel yields symbols of a message type. -/
def Chan.carries (c : Chan) (mt : Nat) : Bool := c.message == some mt
/-- A satellite as one number. -/
def Chan.sat (c : Chan) : Nat := c.info.sys * 256 + c.prn
/-- One integration goes into the symbol in progress, aligned to the boundaries that SYNC establishes; a complete symbol becomes a soft value. The latest two record units are kept. -/
def Chan.symbol (k : Integ) (c : Chan) : Chan :=
  match c.message with
  | none => c
  | some mt =>
    let n := symbolMs mt
    let pos := if c.info.pilot then (k.sec * c.info.per + k.ms) % n else (c.cnt + 20 * n - 1 - c.symAt % n) % n
    let acc := (if pos = 0 then 0 else c.symAcc) + Config.dataChip mt pos * (if c.info.pilot then k.rI else k.pI)
    let at_ := if pos = 0 then k.last + 1 - k.n else c.symFrom
    let keep := match msgType mt with | some r => 2 * (r.2.2 / n) | none => 0
    if !c.sync then c
    else if pos + 1 = n then { c with symAcc := 0, symFrom := at_, softs := (c.softs ++ [(Config.soft acc, at_)]).drop (c.softs.length + 1 - keep) }
    else { c with symAcc := acc, symFrom := at_ }

/-! Symbol and secondary-code synchronism (R120). -/

/-- On a data component: 80 % of the sign changes over 50 symbols fall on one millisecond of the symbol; the count at which a symbol begins. `signs` is newest first and ends before count `cnt`. -/
def symbolSync (u cnt : Nat) (signs : List Bool) : Option Nat :=
  let w := signs.take (50 * u)
  let ch := ((w.zip (w.drop 1)).zipIdx.filter fun p => p.1.1 != p.1.2).map fun p => (cnt + 50 * u - 1 - p.2) % u
  if w.length < 50 * u ∨ ch = [] then none
  else (List.range u).find? fun r => decide (4 * ch.length ≤ 5 * (ch.filter (· == r)).length)
/-- On a pilot: the prompt signs over one secondary period match the known secondary code with a normalised correlation of at least 0.8, the carrier either way up (DEDUCED, log 193); the secondary index of the code period in progress. `ms` is the newest integration's millisecond within its code period. -/
def secondarySync (x : Config.Component) (prn len per ms : Nat) (signs : List Bool) : Option Nat :=
  let w := signs.take (len * per)
  if w.length < len * per then none
  else (List.range len).find? fun o =>
    let m := w.zipIdx.foldl (fun (a : Int) p =>
      let chip : Int := (o : Int) + ((ms : Int) - p.2) / per
      a + (if p.1 then -1 else 1) * Config.secChip x prn (chip % len).toNat) 0
    decide (8 * (len * per) ≤ 10 * m.natAbs)
/-- A channel takes in one integration: its sums, the power sums of R123, SWEEP's step and the search for SYNC. -/
def Chan.take1 (c : Chan) (bytes : List (BitVec 8)) : Chan :=
  match componentOf c.sig with
  | none => c
  | some x =>
    let k := c.integ x bytes
    let g := c.info
    let u := unitMs g c.prn
    let signs := (decide (k.pI < 0) :: c.signs).take (max (50 * u) (secLen c.sig * g.per))
    let p := fun (i q : Int) => (i * i + q * q).toNat
    let noise := decide (fld c.ctrl 36 34 = 3)
    let c := { c with
      intAt := c.intAt + k.n, cnt := c.cnt + 1, recent := (c.recent ++ [k]).drop ((c.recent ++ [k]).length - 20), fresh := c.fresh + 1, signs := signs
      sweep := if fld c.ctrl 36 34 = 4 then some k.rove else none
      pp := (c.pp.1 + p k.pI k.pQ, c.pp.2 + 1), pn := if noise then (c.pn.1 + p k.rI k.rQ, c.pn.2 + 1) else c.pn }
    if c.sync then c.symbol k
    else if g.pilot then
      match secondarySync x c.prn (secLen c.sig) g.per k.ms signs with
      | some o => { c with sync := true, symAt := (c.cnt - 1 + u * g.per - k.ms) % u, nco := { c.nco with sec := (o + c.nco.epoch + 65536 - (c.ncoAt k.last).epoch) % max 1 (secLen c.sig) } }
      | none => c
    else match symbolSync u c.cnt signs with
      | some r => { c with sync := true, symAt := r }
      | none => c
/-- A channel takes in the integrations that have ended by a counter clock; a stream without input is absent (R75). -/
def Chan.takeInts (absent : Bool) (clk : Nat) (ints : List (List (BitVec 8))) (c : Chan) : Chan :=
  ints.foldl (fun (c : Chan) b => if c.active ∧ c.intAt + c.toMs c.intAt ≤ clk / 8 + 1 then c.take1 (if absent then [] else b) else c) c

/-! Starting a channel (R113). -/

/-- The channel that the words of a KITE_ASSIGN start at an instant, with the profile they name. -/
def startChan (who : Nat) (prof : Profile) (ps : List Word) (now : Qval) (clk : Nat) : Chan :=
  let w := arg ps
  let sig := fld (w 0) 37 32
  let prn := fld (w 0) 31 24
  let c : Chan := { sig := sig, prn := prn, ant := fld (w 0) 23 22, owner := who }
  let g := c.info
  let d : Rat := ((w 2).toNat : Rat) / 2 ^ 24 / 2 ^ fld (w 1) 35 34
  let dt : Rat := (qdist now (mkQ (w 5) (w 6)) : Rat) / 2 ^ 48
  let dop : Rat := ((w 3).toInt : Rat) / 2 ^ 16
  let rate : Rat := (sfld (w 4) 47 24 : Rat) / 2 ^ 12
  let chips := g.chipRate * dt + g.chipRate / c.freq * (dop * dt + rate * dt * dt / 2)
  let dop0 := dop + rate * dt
  let code := rndOpen ((chips - d) * 2 ^ 48)
  let span : Int := max 1 g.codeSpan
  let seck := bit (w 1) 17
  let sl : Int := max 1 (secLen sig)
  let sec := if seck then (((fld (w 1) 33 18 : Nat) : Int) + code / span) % sl else 0
  let nco : Nco := { code := (code % span).toNat, sec := sec.toNat, clk := clk, carate := carrUnits dop0, crate := codeUnits (g.chipRate * (1 + dop0 / c.freq)) }
  let c := { c with nco := nco, rateClk := clk, prof := prof }
  let u := max 1 (unitMs g prn)
  let first := clk / 8 + (if nco.code % max 1 g.msSpan = 0 then 0 else c.toMs (clk / 8))
  let ms := sec.toNat * g.per + (nco.code + max 1 g.msSpan - 1) / max 1 g.msSpan
  { c with
    state := 1, since := clk, sync := seck, intAt := first, symAt := (u - ms % u) % u
    ctrl := pack [put 47 43 (fld (w 0) 21 17), put 42 37 (fld (w 0) 16 11), put 36 34 (fld (w 0) 10 8), put 33 22 (fld (w 1) 47 36)]
    lp := { vel := dop0, dop := dop0 }
    slip := true, slips := 1, obs := { lockFrom := now, ambMs := g.per } }

/-! Loops (R121, R128). -/

/-- A bandwidth field in Hz. -/
def hz (v unit : Nat) : Rat := (v : Rat) / unit
/-- The discriminators of one update (R121). -/
structure Disc where
  e  : Rat
  ef : Rat
  ec : Rat
/-- Form the discriminators of a channel's coherent sums over an update interval of `ms` integrations. -/
def Chan.disc (c : Chan) (ks : List Integ) : Disc :=
  let sum := fun (f : Integ → Int) => (ks.map f).sum
  let ms := max 1 ks.length
  let halves := ks.flatMap fun k => [(k.hI, k.hQ), (k.pI - k.hI, k.pQ - k.hQ)]
  let half := fun (zs : List (Int × Int)) => ((zs.map fun z => z.1).sum, (zs.map fun z => z.2).sum)
  let a := half (halves.take ks.length)
  let b := half (halves.drop ks.length)
  let cross := a.1 * b.2 - a.2 * b.1
  let dot := a.1 * b.1 + a.2 * b.2
  let p := c.info.pilot
  let turns := if p then Config.atan2Turns else Config.atanTurns
  let e := Config.envelope (sum fun k => k.eI) (sum fun k => k.eQ)
  let l := Config.envelope (sum fun k => k.lI) (sum fun k => k.lQ)
  { e := turns (sum fun k => k.pQ) (sum fun k => k.pI)
    ef := turns cross dot * 1000 / ms
    ec := match componentOf c.sig with | some x => (e - l) / (e + l) * Config.codeSlope x (fld c.ctrl 42 37) | none => 0 }
/-- The lock indicator of one loop-length integration (R123). -/
def lockTerm (ks : List Integ) : Rat :=
  let i := (ks.map fun k => k.pI).sum
  let q := (ks.map fun k => k.pQ).sum
  ((i * i - q * q : Int) : Rat) / (i * i + q * q : Int)
/-- The carrier and code loops of a channel alone or a master (R121, R122). -/
def Chan.ownLoops (p : Profile) (ms clk : Nat) (d : Disc) (c : Chan) : Chan :=
  let t : Rat := (ms : Rat) / 1000
  let pull := c.state == 1
  let ty := p.kind
  let e := if pull || ty == 2 || (ty == 1 && c.fllOn) then 0 else d.e
  let ef := if !pull && ty == 0 then 0 else d.ef
  let second := fld p.w0 45 44 == 2
  let bn := hz (fld p.w0 43 32) 64
  let wf := hz (fld p.w0 31 20) 64 * 100 / 53
  let w0 := if second then bn * 100 / 53 else bn * 10000 / 7845
  let l := c.lp
  let acc := if second then 0 else l.acc + t * (w0 * w0 * w0 * e + wf * wf * ef)
  let vel := if second then l.vel + t * (w0 * w0 * e + 1414 / 1000 * wf * ef)
    else l.vel + t * (acc + 11 / 10 * w0 * w0 * e + 1414 / 1000 * wf * ef)
  let dop := if second then vel + 1414 / 1000 * w0 * e else vel + 24 / 10 * w0 * e
  let db := hz (fld p.w1 45 34) 1024 * (if pull then 4 else 1)
  let wd := db * 100 / 53
  let ci := if fld p.w1 47 46 = 2 then l.ci + t * wd * wd * d.ec else 0
  let c := { c with lp := { l with acc := acc, vel := vel, dop := dop, ci := ci, e := d.e, ec := d.ec } }
  c.rates clk dop (c.info.chipRate * (1 + dop / c.freq) + 4 * db * d.ec + ci)
/-- A member's code is derived from the master's (R128): its code time is the master's, plus its offset. -/
def Chan.derived (m c : Chan) : Chan :=
  let ofs := (c.codeTime - m.codeTime - c.lp.ofsCode) * 1000
  let d := ofs - (ofs + 1 / 2).floor
  { c with nco := c.nco.shift c.info (secLen c.sig) (rndOpen (-(d / 1000) * c.info.chipRate * 2 ^ 48)) }
/-- A member follows the master: its Doppler scaled, plus its own offset rate, and its code time plus the code offset (R128). -/
def Chan.follow (clk : Nat) (m : Chan) (c : Chan) : Chan :=
  let dop := m.lp.dop * c.freq / m.freq + c.lp.ofsRate
  let c := { c with lp := { c.lp with dop := dop } }.rates clk dop (c.info.chipRate * (1 + dop / c.freq))
  (m.now clk).derived c
/-- A member's offset loops (R128): second order on e, first order on ec. -/
def Chan.offsetLoops (p : Profile) (ms clk : Nat) (d : Disc) (m c : Chan) : Chan :=
  let t : Rat := (ms : Rat) / 1000
  let w0 := hz (fld p.w3 47 36) 64 * 100 / 53
  let cb := hz (fld p.w3 35 24) 4096
  let vel := c.lp.ofsVel + t * (w0 * w0 * d.e)
  let c := { c with lp := { c.lp with
    ofsVel := vel, ofsRate := vel + 1414 / 1000 * w0 * d.e, e := d.e, ec := d.ec, ofsCode := c.lp.ofsCode + t * 4 * cb * d.ec / c.info.chipRate } }
  c.follow clk m
/-- A channel coasts on its master's last Doppler, acceleration and code rate, scaled (R130). -/
def Chan.coastOn (clk : Nat) (m c : Chan) : Chan :=
  let r := c.freq / m.freq
  let dop := m.lp.dop * r + (if c.role = 2 then c.lp.ofsRate else 0)
  { c with coast := true, lp := { c.lp with dop := dop } }.steer clk fun x =>
    { x with carate := carrUnits dop, gain := m.lp.acc * r * 2 ^ 48 / 81840000 / 81840000, crate := (rndOpen ((m.nco.crate : Rat) * c.info.chipRate / m.info.chipRate)).toNat }
/-- The mean discriminators of a combined train (R128): the master's and those of its locked members, weighted by C/N0, in master cycles and chips. -/
def State.combined (s : State) (t : Train) (m : Chan) (d : Disc) : Disc :=
  let ms := (t.slots.drop 1).map s.chan |>.filter fun c => c.mlock
  let w0 := Config.linear ((m.cn0 : Rat) / 32)
  let sum := ms.foldl (fun (a : Rat × Rat × Rat) c =>
    let w := Config.linear ((c.cn0 : Rat) / 32)
    (a.1 + w, a.2.1 + w * c.lp.e * m.freq / c.freq, a.2.2 + w * c.lp.ec * m.info.chipRate / c.info.chipRate)) (w0, w0 * d.e, w0 * d.ec)
  if sum.1 = 0 then d else { d with e := sum.2.1 / sum.1, ec := sum.2.2 / sum.1 }

end Sys2Proof.Machine
end

