-- ==== Sys2Proof/Machine/Kite.lean ====
section
/-! DEFINITION. Kite (R107-R139): commands and their application tick, channel states, evaluation, trains, power, dumps. -/
namespace Sys2Proof.Machine
open Sys2Proof

/-! Trains (R126-R132). -/

/-- A channel qualifies as master (R129). -/
def State.qualifies (s : State) (n : Nat) : Bool :=
  let c := s.chan n
  c.state == 2 && c.plock && decide ((s.profOf n).cn0Loss ≤ c.cn0) && !s.noInput c.stream
/-- An ALARM to a partner that owns a channel or train; Ndovos gets none. -/
def State.kiteAlarm (owner cause : Nat) (args : List Word) (s : State) : State :=
  if owner < 5 then s.raise owner false cause args else s
/-- The strongest qualifying channel of a list; a tie goes to the lower number. -/
def State.strongestOf (s : State) (ns : List Nat) : Option Nat :=
  ns.foldl (fun (a : Option Nat) n =>
    if s.qualifies n then
      match a with
      | none => some n
      | some b => if (s.chan b).cn0 < (s.chan n).cn0 ∨ ((s.chan b).cn0 = (s.chan n).cn0 ∧ n < b) then some n else a
    else a) none
/-- Every channel of a train takes its role. -/
def State.setRoles (t : Nat) (s : State) : State :=
  (s.train t).slots.foldl (fun (s : State) n =>
    let c := s.chan n
    s.setChan n { c with role := if (s.train t).slots.head? = some n then 1 else 2, train := t }) s
/-- A channel's code offset is expressed against a master: the difference of their code times, within half a millisecond (R126, R127, R129). -/
def Chan.level (clk : Nat) (m c : Chan) : Chan :=
  let c := c.steer clk fun x => { x with gain := 0 }
  let d := (c.codeTime - (m.now clk).codeTime) * 1000
  { c with lp := { c.lp with ofsCode := (d - (d + 1 / 2).floor) / 1000 } }
/-- A channel becomes master (R129): every offset is re-expressed, no phase or code jumps. -/
def State.makeMaster (t n : Nat) (s : State) : State :=
  let tr := s.train t
  let old := (tr.slots.headD n)
  let slots := n :: (tr.slots.map fun x => if x = n then old else x).filter (fun x => x ≠ n)
  let slots := slots.eraseDups.filter fun x => tr.slots.contains x
  let mo := s.chan old
  let c := s.chan n
  let s := s.setChan n { c with lp := { c.lp with vel := c.doppler, dop := c.doppler, acc := mo.lp.acc * c.freq / mo.freq, ci := 0, ofsVel := 0, ofsRate := 0, ofsCode := 0 } }
  let m := (s.chan n).now s.tb.clk
  let s := s.setTrain t { tr with slots := slots, state := 1 }
  let s := slots.foldl (fun (s : State) x =>
    if x = n then s
    else
      let y := s.chan x
      let r := y.doppler - m.doppler * y.freq / m.freq
      s.setChan x ({ y with coast := false, lp := { y.lp with ofsRate := r, ofsVel := r } }.level s.tb.clk m)) s
  (s.setChan n ({ s.chan n with coast := false }.steer s.tb.clk fun x => { x with gain := 0 })).setRoles t
/-- A train enters COAST (R130). -/
def State.enterCoast (t : Nat) (s : State) : State :=
  let tr := s.train t
  let s := s.setTrain t { tr with state := 2, coastClk := s.tb.clk }
  let m := (s.chan (tr.slots.headD 0)).now s.tb.clk
  let s := tr.slots.foldl (fun (s : State) n => s.setChan n (((s.chan n).reloaded s.tb.q0).coastOn s.tb.clk m)) s
  s.kiteAlarm tr.owner 0x404 []
/-- The master no longer qualifies, or has left: the strongest qualifying channel takes over, or the train coasts (R129, R130). `old` is the master before. -/
def State.elect (t old : Nat) (s : State) : State :=
  let tr := s.train t
  if tr.slots = [] then s.setTrain t {}
  else
    match s.strongestOf tr.slots with
    | some n =>
      let s := s.makeMaster t n
      let s := s.setTrain t { s.train t with promos := satN 8 (tr.promos + 1) }
      s.kiteAlarm tr.owner 0x403 [word t, word old, word n]
    | none => if tr.state = 2 then s else s.enterCoast t
/-- Channels leave their trains together: where a running train loses its master it elects another from those that stay, and one without channels is free (R129, R133). -/
def State.leaveAll (ns : List Nat) (s : State) : State :=
  (List.range 64).foldl (fun (s : State) t =>
    let tr := s.train t
    let left := tr.slots.filter fun n => !ns.contains n
    if left = tr.slots then s
    else if left = [] then s.setTrain t {}
    else
      let s := s.setTrain t { tr with slots := left }
      if tr.state = 1 ∧ tr.slots.head? ≠ left.head? then s.elect t (tr.slots.headD 0) else s) s
/-- A channel leaves its train. -/
def State.leaveTrain (n : Nat) (s : State) : State :=
  let c := s.chan n
  if c.role = 0 then s
  else
    let t := c.train
    let tr := s.train t
    let was := tr.slots.head? = some n
    let s := s.setTrain t { tr with slots := tr.slots.filter (· ≠ n) }
    let s := s.setChan n { c with role := 0, train := 0, coast := false }
    if (s.train t).slots = [] then s.setTrain t {}
    else if was ∧ tr.state = 1 then s.elect t n
    else s
/-- A channel enters LOST (R109): its NCOs freeze, its owner hears. -/
def State.loseChan (n cause : Nat) (s : State) : State :=
  let c := (s.chan n).now s.tb.clk
  let s := s.setChan n { c with
    state := 3, cause := cause, since := s.tb.clk, plock := false, clock := false, mlock := false, fllOn := false, low := none, drop := none }
  let s := s.kiteAlarm c.owner 0x401 [word n, word cause]
  s.leaveTrain n
/-- A train breaks (R132). -/
def State.breakTrain (t : Nat) (s : State) : State :=
  let tr := s.train t
  let coasted := tr.state = 2
  let s := s.setTrain t {}
  tr.slots.foldl (fun (s : State) n =>
    let c := { (s.chan n).steer s.tb.clk fun x => { x with gain := 0 } with role := 0, train := 0, coast := false }
    let s := s.setChan n c
    if c.prof.cn0Loss ≤ c.cn0 then
      s.setChan n { c with
        state := if coasted then 1 else 2, since := s.tb.clk, mlock := false
        lp := { c.lp with vel := c.doppler, dop := c.doppler, acc := 0, ci := 0, ofsVel := 0, ofsRate := 0 } }
    else s.loseChan n 5) s
/-- Channels become IDLE by release (R133). -/
def State.freeChans (ns : List Nat) (s : State) : State := (ns.foldl (fun (s : State) n => s.setChan n {}) s).leaveAll ns
/-- A channel becomes IDLE by release. -/
def State.freeChan (n : Nat) (s : State) : State := s.freeChans [n]

/-! Commands (R110-R112, R126, R127, R132, R133). -/

/-- A reply word of a Kite command (R111). -/
def kiteWord (id r : Nat) : Word := pack [put 47 38 id, put 11 0 r]
/-- The channel is reserved by an accepted command that names it. -/
def KiteOp.names (n : Nat) : KiteOp → Bool
  | .assign c _ => c == n
  | .form _ _ sl => sl.contains n
  | .release cs _ => cs.contains n
  | _ => false
/-- A train is reserved by an accepted formation or break that names it. -/
def KiteOp.forms (t : Nat) : KiteOp → Bool
  | .form x _ _ => x == t
  | .brk ts _ => ts.contains t
  | _ => false
/-- A profile lacks a bandwidth in use (R111, R119): the offset loops' of a member; the FLL's, which PULL_IN runs on (R122), the PLL's and the DLL's of a channel alone. -/
def profileBad (p : Profile) (join : Bool) : Bool :=
  if join then fld p.w3 47 36 == 0 || fld p.w3 35 24 == 0
  else (p.kind != 2 && fld p.w0 43 32 == 0) || fld p.w0 31 20 == 0 || fld p.w1 45 34 == 0
/-- ELS, ROVE_MODE and ROVE_OFS that R114, R117 or Table 4 forbid: FIELD, ELS_BOC or ROVE_DATA. -/
def roveBad (g : Sig) (els mode : Nat) (ofs : Int) : Option Nat :=
  if els < 1 ∨ 64 < els ∨ 5 ≤ mode ∨ 2047 < ofs.natAbs then some 4
  else if g.boc ∧ 32 < els then some 0xB
  else if mode = 2 ∧ !g.comp then some 0xC
  else none
/-- Two satellites are one (R126): system, and PRN or GLONASS k. -/
def sameSat (a b : Chan) : Bool := a.info.sys == b.info.sys && a.prn == b.prn
/-- A channel starts (R113), alone or as a new member of a train (R127). -/
def State.placeChan (who n : Nat) (ps : List Word) (s : State) : State :=
  let c := startChan who (s.prof (fld (arg ps 0) 21 17)) ps s.tb.q0 s.tb.clk
  let w := arg ps 0
  if bit w 7 then
    let t := fld w 6 1
    let tr := s.train t
    let m := (s.chan (tr.slots.headD 0)).now s.tb.clk
    let r := c.lp.dop - m.lp.dop * c.freq / m.freq
    let c := { (c.level s.tb.clk m) with state := 2, lp := { (c.level s.tb.clk m).lp with ofsRate := r, ofsVel := r }, nco := { c.nco with carr := rndOpen ((m.nco.carr : Rat) * c.freq / m.freq) } }
    ((s.setChan n c).setTrain t { tr with slots := tr.slots ++ [n] }).setRoles t
  else s.setChan n c
/-- A train forms (R126). -/
def State.placeTrain (who t : Nat) (comb : Bool) (sl : List Nat) (s : State) : State :=
  let m := s.chan (sl.headD 0)
  let s := s.setTrain t { state := 1, combine := comb, owner := who, slots := sl }
  let s := (sl.drop 1).foldl (fun (s : State) n =>
    let c := s.chan n
    let r := c.doppler - m.doppler * c.freq / m.freq
    s.setChan n { (c.level s.tb.clk m) with lp := { (c.level s.tb.clk m).lp with ofsRate := r, ofsVel := r }, low := none }) s
  s.setRoles t
/-- The refusal of a KITE_ASSIGN for channel `n` (Table 3), if any: status and REASON, BAD_PARAM before NOT_PERMITTED before TOO_LATE (R284); `none` in place of a channel says that none is free. `cmds` are the accepted commands that reserve, `accepting` that the command is being accepted. -/
def State.assignRefusal (s : State) (who : Nat) (n : Option Nat) (ps : List Word) (cmds : List KiteCmd) (accepting : Bool) : Option (Status × Nat) :=
  let w := arg ps
  let sig := fld (w 0) 37 32
  let prn := fld (w 0) 31 24
  let c : Chan := { sig := sig, prn := prn, ant := fld (w 0) 23 22 }
  let g := c.info
  let ref := mkQ (w 5) (w 6)
  let tr := s.train (fld (w 0) 6 1)
  let join := bit (w 0) 7
  let rove := roveBad g (fld (w 0) 16 11) (fld (w 0) 10 8) (sfld (w 1) 47 36)
  if n.any (fun n => decide (512 ≤ n)) ∨ (sigOf sig).isNone ∨ !prnOk g prn then some (.badParam, 1)
  else if profileBad (s.prof (fld (w 0) 21 17)) join ∨ (w 2).toNat ≥ 2 ^ fld (w 1) 35 34 * g.chips * 2 ^ 24 ∨ (accepting ∧ ahead ref s.tb.q0) ∨ rove = some 4 then some (.badParam, 4)
  else if join ∧ tr.state ≠ 0 ∧ !sameSat c (s.chan (tr.slots.headD 0)) then some (.badParam, 7)
  else if join ∧ tr.state ≠ 0 ∧ (16 ≤ tr.slots.length ∨ tr.slots.any fun m => (s.chan m).sig == sig && (s.chan m).ant == c.ant) then some (.badParam, 0xA)
  else match rove with
    | some r => some (.badParam, r)
    | none =>
      if n.any (fun n => decide ((s.chan n).state ≠ 0) || cmds.any (fun k => k.op.names n)) then some (.notPermitted, 2)
      else if n.any (fun n => decide (n < s.kite.pchBase)) ∨ (join ∧ tr.owner ≠ who) then some (.notPermitted, 6)
      else if join ∧ tr.state ≠ 1 then some (.notPermitted, 8)
      else if accepting ∧ 2 * 2 ^ 48 < qdist s.tb.q0 ref then some (.tooLate, 5)
      else if s.fc.front.testBit c.ant then some (.fault, 0x015)
      else if n.isNone then some (.noCapacity, 3)
      else none
/-- The first whole ms at least 1 ms after acceptance (R112). -/
def kiteTick (q : Qval) : Nat := msOf (qadd q (usUnits 1000 - 1)) + 1
/-- Queue an accepted command. -/
def State.queueKite (jsn who : Nat) (op : KiteOp) (s : State) : State :=
  (s.putKite { s.kite with cmds := s.kite.cmds ++ [⟨jsn, who, kiteTick s.tb.q0, op⟩] })
/-- The verdict of a Kite command. -/
def kiteVerdict (id : Nat) (r : Option (Status × Nat)) (who : Nat) (op : KiteOp) : Verdict :=
  match r with
  | some (st, x) => refuse st [kiteWord id x]
  | none => { status := .accepted, words := [kiteWord id 0], pins := [.work], promise := 1, act := fun jsn s => s.queueKite jsn who op }
/-- The refusal of a release of one channel. -/
def State.releaseRefusal (s : State) (who n : Nat) : Option (Status × Nat) :=
  let o := (s.chan n).owner
  if 512 ≤ n then some (.badParam, 1)
  else if o = who ∨ (o < 5 ∧ (s.part who).rights = 3) then none
  else some (.notPermitted, 6)
/-- The channel slots of a TRAIN_FORM, the first n of them (R126). -/
def formSlots (ps : List Word) (n : Nat) : List Nat :=
  ([1, 2, 3, 4].flatMap fun i => [fld (arg ps i) 44 36, fld (arg ps i) 35 27, fld (arg ps i) 26 18, fld (arg ps i) 17 9, fld (arg ps i) 8 0]).take n
/-- Two assigned channels of a list share SIG and ANT, or a channel stands in it twice. -/
def State.twins (s : State) : List Nat → Bool
  | [] => false
  | n :: ns => ns.any (fun m => m == n || ((s.chan n).state != 0 && (s.chan m).state != 0 && (s.chan m).sig == (s.chan n).sig && (s.chan m).ant == (s.chan n).ant)) || s.twins ns
/-- Assigned channels of a list name different satellites. -/
def State.mixed (s : State) (sl : List Nat) : Bool :=
  let on := sl.filter fun n => (s.chan n).state != 0
  on.any fun n => !sameSat (s.chan n) (s.chan (on.headD 0))
/-- The refusal of a TRAIN_FORM, BAD_PARAM before NOT_PERMITTED (R284); `none` in place of a train says that none is free. -/
def State.formRefusal (s : State) (who : Nat) (t : Option Nat) (sl : List Nat) (cmds : List KiteCmd) : Option (Status × Nat) :=
  let used := t.any fun t => (s.train t).state != 0
  if t.any fun t => decide (64 ≤ t) then some (.badParam, 1)
  else if s.mixed sl then some (.badParam, 7)
  else if s.twins sl then some (.badParam, 0xA)
  else if sl.any (fun n => (s.chan n).owner != who) ∨ (used ∧ t.any fun t => (s.train t).owner != who) then some (.notPermitted, 6)
  else if used ∨ t.any (fun t => cmds.any fun k => k.op.forms t) then some (.notPermitted, 2)
  else if sl.any (fun n => (s.chan n).state != 2) ∨ !(s.chan (sl.headD 0)).plock ∨ (s.chan (sl.headD 0)).cn0 < (s.profOf (sl.headD 0)).cn0Loss then some (.notPermitted, 8)
  else if sl.any fun n => (s.chan n).role != 0 || cmds.any (fun k => k.op.names n) then some (.notPermitted, 9)
  else if t.isNone then some (.noCapacity, 3)
  else none
/-- The refusal of a TRAIN_BREAK of one train. -/
def State.breakRefusal (s : State) (who t : Nat) : Option (Status × Nat) :=
  let o := (s.train t).owner
  if (s.train t).state ≠ 0 ∧ (o = who ∨ (o < 5 ∧ (s.part who).rights = 3)) then none else some (.notPermitted, 6)
/-- Apply one accepted command (R112); one whose conditions no longer hold is abandoned. -/
def State.applyKite (k : KiteCmd) (s : State) : State :=
  let s := (s.putKite { s.kite with cmds := s.kite.cmds.filter fun c => c.jsn ≠ k.jsn }).putJrn (s.jrn.unpin .work k.jsn)
  let drop := fun (r : Status × Nat) => s.raise k.who false 0x402 [word k.jsn, word r.2]
  match k.op with
  | .assign n ps =>
    match s.assignRefusal k.who (some n) ps [] false with
    | some r => drop r
    | none => s.placeChan k.who n ps
  | .release ns true => s.freeChans (ns.filter fun n => (s.chan n).owner == k.who)
  | .release ns false =>
    let n := ns.headD 0
    match s.releaseRefusal k.who n with
    | some r => drop r
    | none => s.freeChan n
  | .form t comb sl =>
    match s.formRefusal k.who (some t) sl [] with
    | some r => drop r
    | none => s.placeTrain k.who t comb sl
  | .brk ts true => (ts.filter fun t => (s.train t).state != 0 && (s.train t).owner == k.who).foldl (fun (s : State) t => s.breakTrain t) s
  | .brk ts false =>
    let t := ts.headD 0
    match s.breakRefusal k.who t with
    | some r => drop r
    | none => s.breakTrain t
/-- The state that the accepted commands not yet applied will leave (R112): at acceptance a command is checked against it. -/
def State.planned (s : State) : State := s.kite.cmds.foldl (fun (s : State) k => s.applyKite k) s
/-- What refuses a KITE_ASSIGN at acceptance: the planned state and the reservations; the train of a JOIN runs already (R127). -/
def State.acceptAssign (s : State) (who : Nat) (n : Option Nat) (ps : List Word) : Option (Status × Nat) :=
  match s.planned.assignRefusal who n ps s.kite.cmds true with
  | some r => some r
  | none => if bit (arg ps 0) 7 ∧ (s.train (fld (arg ps 0) 6 1)).state ≠ 1 then some (.notPermitted, 8) else none
/-- KITE_ASSIGN (0x050). -/
def opKiteAssign : OpSpec :=
  { code := 0x050, modes := 0x7FE, why := 6, named := fun k => put 47 38 (fld (arg k.ps 0) 47 38)
    eval := fun k s =>
      let ch := fld (arg k.ps 0) 47 38
      if k.ps.length ≠ 7 then refuse .badParam [kiteWord ch 4]
      else if ch = 0x3FF then
        let free := (List.range 512).find? fun n => decide (s.kite.pchBase ≤ n) && (s.chan n).state == 0 && !(s.kite.cmds.any fun c => c.op.names n)
        let r := s.acceptAssign k.partner free k.ps
        kiteVerdict (if r.isSome then ch else free.getD ch) r k.partner (.assign (free.getD ch) k.ps)
      else kiteVerdict ch (s.acceptAssign k.partner (some ch) k.ps) k.partner (.assign ch k.ps) }
/-- KITE_ASSIGN. -/
def execKiteAssign (t : Lapse) (env : Env) (ps : List Word) (s : State) : Host.Outcome State Fault Refusal := runOp opKiteAssign t env ps s
/-- KITE_RELEASE (0x051). -/
def opKiteRelease : OpSpec :=
  { code := 0x051, why := 6, named := fun k => put 47 38 (fld (arg k.ps 0) 41 32)
    eval := fun k s =>
      let w := arg k.ps 0
      let n := fld w 41 32
      if k.ps.length ≠ 1 ∨ 2 ≤ fld w 47 46 then refuse .badParam [kiteWord n 4]
      else if fld w 47 46 = 1 then
        let mine := (List.range 512).filter fun n => (s.planned.chan n).owner == k.partner
        kiteVerdict mine.length none k.partner (.release mine true)
      else kiteVerdict n (s.planned.releaseRefusal k.partner n) k.partner (.release [n] false) }
/-- KITE_RELEASE. -/
def execKiteRelease (t : Lapse) (env : Env) (ps : List Word) (s : State) : Host.Outcome State Fault Refusal := runOp opKiteRelease t env ps s
/-- TRAIN_FORM (0x052). -/
def opTrainForm : OpSpec :=
  { code := 0x052, modes := 0x7FE, why := 6, named := fun k => put 47 38 (fld (arg k.ps 0) 47 41)
    eval := fun k s =>
      let w := arg k.ps 0
      let t := fld w 47 41
      let n := fld w 39 35
      let sl := formSlots k.ps n
      let rest := (formSlots k.ps 20).drop n
      if k.ps.length ≠ 5 ∨ n < 2 then refuse .badParam [kiteWord t 4]
      else if 16 < n then refuse .badParam [kiteWord t 0xA]
      else if rest.any (fun x => x != 0x1FF) then refuse .badParam [kiteWord t 4]
      else if t = 0x7F then
        let free := (List.range 64).find? fun x => (s.planned.train x).state == 0 && !(s.kite.cmds.any fun c => c.op.forms x)
        let r := s.planned.formRefusal k.partner free sl s.kite.cmds
        kiteVerdict (if r.isSome then t else free.getD t) r k.partner (.form (free.getD t) (bit w 40) sl)
      else kiteVerdict t (s.planned.formRefusal k.partner (some t) sl s.kite.cmds) k.partner (.form t (bit w 40) sl) }
/-- TRAIN_FORM. -/
def execTrainForm (t : Lapse) (env : Env) (ps : List Word) (s : State) : Host.Outcome State Fault Refusal := runOp opTrainForm t env ps s
/-- TRAIN_BREAK (0x053). -/
def opTrainBreak : OpSpec :=
  { code := 0x053, why := 6, named := fun k => put 47 38 (fld (arg k.ps 0) 45 40)
    eval := fun k s =>
      let w := arg k.ps 0
      let t := fld w 45 40
      if k.ps.length ≠ 1 ∨ 2 ≤ fld w 47 46 then refuse .badParam [kiteWord t 4]
      else if fld w 47 46 = 1 then kiteVerdict t none k.partner (.brk ((List.range 64).filter fun t => (s.planned.train t).state != 0 && (s.planned.train t).owner == k.partner) true)
      else kiteVerdict t (s.planned.breakRefusal k.partner t) k.partner (.brk [t] false) }
/-- TRAIN_BREAK. -/
def execTrainBreak (t : Lapse) (env : Env) (ps : List Word) (s : State) : Host.Outcome State Fault Refusal := runOp opTrainBreak t env ps s

/-- KITE_APPLICATION_TICK (R112): a whole ms of Tether time; accepted commands in JSN order, then the channels' own transitions. -/
def execKiteApplicationTick (t : Lapse) (s : State) : Host.Outcome State Fault Refusal :=
  let s := s.elapse t
  let ms := msOf s.tb.q0
  if s.isOn 5 ∧ s.kite.lastMs ≠ ms then
    let due := s.kite.cmds.filter fun k => decide (k.tick ≤ ms)
    let s := s.putKite { s.kite with lastMs := ms, blk := s.kite.blk + 1 }
    let s : State := due.foldl (fun (s : State) k => s.applyKite k) s
    let dead := (s.kite.chans.filter fun e => e.2.active && s.noInput e.2.stream).map fun e => e.1
    .next (dead.foldl (fun (s : State) n => if (s.chan n).active then s.loseChan n 3 else s) s)
  else .next s
/-- LOST_TO_IDLE (R109): 1,000 ms after it entered LOST. -/
def execLostToIdle (t : Lapse) (n : Nat) (s : State) : Host.Outcome State Fault Refusal :=
  let s := s.elapse t
  let c := s.chan n
  if c.state = 3 ∧ c.since + 654720000 ≤ s.tb.clk then .next (s.setChan n {}) else .next s
/-- NO_PULL_IN (R122): PULL_MS without the conditions for TRACK. -/
def execNoPullIn (t : Lapse) (n : Nat) (s : State) : Host.Outcome State Fault Refusal :=
  let s := s.elapse t
  let c := s.chan n
  if c.state = 1 ∧ s.isOn 5 ∧ c.since + fld (s.profOf n).w1 33 22 * 654720 ≤ s.tb.clk then .next (s.loseChan n 1) else .next s
/-- CN0_LOSS (R123): a channel alone below CN0_LOSS at every evaluation for LOSS_MS, rounded up to 100 ms. -/
def execCn0Loss (t : Lapse) (n : Nat) (s : State) : Host.Outcome State Fault Refusal :=
  let s := s.elapse t
  let c := s.chan n
  match c.low with
  | some k => if c.state = 2 ∧ c.role = 0 ∧ s.isOn 5 ∧ k + (fld (s.profOf n).w1 21 10 + 99) / 100 * 65472000 ≤ s.tb.clk then .next (s.loseChan n 2) else .next s
  | none => .next s
/-- MEMBER_DROP (R131): a member below CN0_DROP at every evaluation for 2,000 ms. -/
def execMemberDrop (t : Lapse) (n : Nat) (s : State) : Host.Outcome State Fault Refusal :=
  let s := s.elapse t
  let c := s.chan n
  match c.drop with
  | some k => if c.state = 2 ∧ c.role = 2 ∧ s.isOn 5 ∧ k + 1309440000 ≤ s.tb.clk then .next (s.loseChan n 4) else .next s
  | none => .next s
/-- TRAIN_COAST_TIMEOUT (R130): COAST has lasted COAST_MS. -/
def execTrainCoastTimeout (t : Lapse) (tr : Nat) (s : State) : Host.Outcome State Fault Refusal :=
  let s := s.elapse t
  let x := s.train tr
  if x.state = 2 ∧ x.coastClk + s.kite.coastMs * 654720 ≤ s.tb.clk then .next ((s.breakTrain tr).kiteAlarm x.owner 0x405 []) else .next s

/-! Evaluation and loop updates. -/

/-- The noise power of a channel's 1 ms correlator (R123): the roving correlator's in NOISE mode, or what the stream's AGC TARGET and blanked fraction give. -/
def State.noiseOf (s : State) (c : Chan) : Rat :=
  if c.pn.2 ≠ 0 then (c.pn.1 : Rat) / c.pn.2 else Config.agcNoise (fld (s.strm c.stream).agc 31 24) (s.strm c.stream).frac
/-- C/N0 in 1/32 dB-Hz over the integrations since the latest evaluation: 10·log10((pp − pn) / (pn × 0.001)), 0 where pp ≤ pn. -/
def State.cn0Of (s : State) (c : Chan) : Nat :=
  let pp : Rat := (c.pp.1 : Rat) / max 1 c.pp.2
  let pn := s.noiseOf c
  if pp ≤ pn then 0 else satN 12 (rndOpen (32 * Config.tenLog ((pp - pn) / (pn / 1000)))).toNat
/-- The mean lock indicator over the loop-length integrations since the latest evaluation, 1/2,048. -/
def Chan.pliOf (c : Chan) : Int := if c.pl.2 = 0 then 0 else rndOpen (2048 * c.pl.1 / c.pl.2)
/-- One channel's evaluation (R122, R123). -/
def State.evalChan (n : Nat) (s : State) : State :=
  let c := s.chan n
  if !c.active then s
  else
    let p := c.prof
    let cn0 := s.cn0Of c
    let pli := c.pliOf
    let lock := decide ((fld p.w2 35 24 : Int) ≤ pli)
    let fell := c.plock && !lock
    let fll := if p.kind ≠ 1 then false else if lock then false else c.fllOn || fell
    let member := c.role == 2
    let toTrack := c.state == 1 && decide (p.cn0Loss ≤ cn0) && (p.kind == 2 || lock)
    let below := decide (cn0 < p.cn0Loss)
    let c' := { c with
      pp := (0, 0), pn := (0, 0), pl := (0, 0), cn0 := cn0, pli := pli, plock := lock, fllOn := fll, mlock := member && lock
      clock := decide ((if member then fld p.w2 23 12 else p.cn0Loss) ≤ cn0)
      low := if (c.state == 2 || toTrack) && c.role == 0 && below then some (c.low.getD s.tb.clk) else none
      drop := if member && decide (cn0 < fld p.w2 23 12) then some (c.drop.getD s.tb.clk) else none
      state := if toTrack then 2 else c.state
      lp := if toTrack then { c.lp with vel := c.lp.dop, acc := 0 } else c.lp }
    let c' := if fell then c'.slipped s.tb.q0 else c'
    let c' := if fll && !c.fllOn then c'.slipped s.tb.q0 else c'
    s.setChan n c'
/-- The master of a train is checked (R129, R130). -/
def State.checkTrain (t : Nat) (s : State) : State :=
  let tr := s.train t
  match tr.slots.head? with
  | none => s
  | some m =>
    if tr.state = 1 then (if s.qualifies m then s else s.elect t m)
    else if tr.state = 2 then
      match s.strongestOf tr.slots with
      | some n =>
        if n = m then (s.makeMaster t n) else s.elect t m
      | none => s
    else s
/-- KITE_EVALUATION (R123): every 100 ms, of every active channel. -/
def execKiteEvaluation (t : Lapse) (s : State) : Host.Outcome State Fault Refusal :=
  let s := s.elapse t
  if s.isOn 5 ∧ s.clk.pllF.gives ∧ (s.kite.evalClk = 0 ∨ s.kite.evalClk + 65472000 ≤ s.tb.clk) then
    let s := s.putKite { s.kite with evalClk := s.tb.clk }
    let s : State := (s.kite.chans.map fun e => e.1).foldl (fun (s : State) n => s.evalChan n) s
    .next ((List.range 64).foldl (fun (s : State) t => s.checkTrain t) s)
  else .next s
/-- The integrations of a complete update interval of a channel (R120), if one has ended since its latest update: it begins at a symbol or secondary-chip boundary. -/
def Chan.interval (c : Chan) : Option (List Integ) :=
  let ms := c.loopMs
  if c.loopCnt + ms ≤ c.cnt ∧ (!c.sync ∨ (c.cnt + 20 * ms - c.symAt % ms) % ms = 0) ∧ ms ≤ c.recent.length then
    some (c.recent.drop (c.recent.length - ms))
  else none
/-- The loops of a channel act on an interval's sums; CH_CTRL values and profiles that wait take effect (R118, R119). -/
def State.updateLoops (n : Nat) (ks : List Integ) (s : State) : State :=
  let c := s.chan n
  let ms := ks.length
  let d := c.disc ks
  let lim : Rat := if c.info.pilot then 1 / 4 else 1 / 8
  let bad := c.plock && (decide (lim < d.e) || decide (d.e < -lim))
  let tr := s.train c.train
  let m := s.chan (tr.slots.headD n)
  let coasting := c.role != 0 && tr.state == 2
  let c :=
    if coasting then c
    else if c.role = 2 then c.offsetLoops c.prof ms s.tb.clk d m
    else c.ownLoops c.prof ms s.tb.clk (if c.role = 1 ∧ tr.combine then s.combined tr c d else d)
  let c := if c.role = 0 then c else { c with lp := { c.lp with e := d.e, ec := d.ec } }
  let c := if bad then c.slipped s.tb.q0 else c
  let ctrl := c.ctrlNext.getD c.ctrl
  let c := { c with ctrl := ctrl, ctrlNext := none, prof := s.prof (fld ctrl 47 43), loopCnt := c.cnt, pl := (c.pl.1 + lockTerm ks, c.pl.2 + 1) }
  let s := s.setChan n c
  if c.role = 1 ∧ !coasting then
    (tr.slots.drop 1).foldl (fun (s : State) x => s.setChan x ((s.chan x).follow s.tb.clk c)) s
  else s
/-- KITE_LOOP_UPDATE (R121): a channel takes in the integrations that have ended and, where they complete its update interval, forms its discriminators and updates its NCOs. -/
def execKiteLoopUpdate (t : Lapse) (n : Nat) (ints : List (List (BitVec 8))) (s : State) : Host.Outcome State Fault Refusal :=
  let s := s.elapse t
  let c := s.chan n
  if n < 512 ∧ c.active ∧ s.isOn 5 ∧ s.clk.pllF.gives then
    let c := c.takeInts (s.noInput c.stream) s.tb.clk ints
    let s := s.setChan n c
    .next (match c.interval with | some ks => s.updateLoops n ks | none => s)
  else .next s

/-! Power (R134). -/

/-- The KITE_RESET records, once the module is ready. -/
def State.kiteReady (s : State) : State :=
  let r := s.kite.reset
  r.foldl (fun (s : State) e => s.raise e.1 false 0x406 [word e.2.1, word e.2.2]) (s.putKite { s.kite with reset := [] })
/-- D5 goes off, or is reset: channels and trains end, and each partner is told, once the module is ready. -/
def State.kiteDown (s : State) : State :=
  let count := fun (k : Kite) (p : Nat) =>
    let a := tget (0, 0) p k.reset
    (a.1 + (k.chans.filter fun e => e.2.owner == p).length, a.2 + (k.trains.filter fun e => e.2.owner == p).length)
  let k := s.kite
  let r := [0, 1, 2, 3, 4].foldl (fun (m : Tab (Nat × Nat)) p => tput (0, 0) p (count k p) m) k.reset
  let s := k.cmds.foldl (fun (s : State) c => (s.putJrn (s.jrn.unpin .work c.jsn))) s
  let s := s.putKite { reset := r, profs := k.profs, ctrl := k.ctrl }
  if s.pwr.ready then s.kiteReady else s
/-- D5 enters retention. -/
def State.kiteRetain (s : State) : State := s.putKite { s.kite with retClk := some s.tb.clk }
/-- D5 is back from retention: active channels are carried across by their rates and pull in again, members of trains as members; after more than 10 s they end LOST (R134). -/
def State.kiteResume (s : State) : State :=
  let f := fun (e : Nat × Chan) =>
    if e.2.active then (e.1, { (e.2.now s.tb.clk).reloaded s.tb.q0 with state := if e.2.role = 0 then 1 else 2, since := s.tb.clk, low := none, drop := none }) else e
  let late := s.kite.retClk.any fun c => decide (c + 6547200000 < s.tb.clk)
  let ns := (s.kite.chans.filter fun e => e.2.active).map fun e => e.1
  let s' := if late then ns.foldl (fun (s : State) n => if (s.chan n).active then s.loseChan n 6 else s) s
    else s.putKite { s.kite with chans := s.kite.chans.map f }
  s'.putKite { s'.kite with retClk := none }
/-- D5_RETENTION_TIMEOUT (R134): longer than 10 s in retention. -/
def execD5RetentionTimeout (t : Lapse) (s : State) : Host.Outcome State Fault Refusal :=
  let s := s.elapse t
  match s.kite.retClk with
  | some c =>
    if s.dom 5 = 1 ∧ c + 6547200000 < s.tb.clk then
      let ns := (s.kite.chans.filter fun e => e.2.active).map fun e => e.1
      .next (ns.foldl (fun (s : State) n => if (s.chan n).active then s.loseChan n 6 else s) s)
    else .next s
  | none => .next s

/-- After a hold of PLL-F every channel is carried across the gap, with SLIP where its carrier loop is not FLL, as it is in PULL_IN (R122, R130). -/
def State.kiteHeld (s : State) : State :=
  let f := fun (e : Nat × Chan) =>
    if !e.2.active then e
    else if e.2.state != 1 && e.2.prof.kind != 2 then (e.1, (e.2.now s.tb.clk).reloaded s.tb.q0)
    else (e.1, (e.2.now s.tb.clk).unresolved)
  (s.putKite { s.kite with chans := s.kite.chans.map f })
/-- PLL_LOCKED: a search of PLL p ends in `band` after `search` periods of 10 ns (R214, R216). -/
def execPllLocked (t : Lapse) (p band search : Nat) (s : State) : Host.Outcome State Fault Refusal :=
  let s := s.elapse t
  let held := decide (p = 0) && s.clk.pllF.state == 4
  let s := s.pllLocked p band search
  .next (if held ∧ s.clk.pllF.state = 2 then s.kiteHeld else s)

/-! Dumps (R136-R139). -/

/-- Words 6 to 13 of a record (Table 8), for a channel whose NCOs stand at the snapshot edge. -/
def State.ncoWords (s : State) (c : Chan) : List Word :=
  let m := (s.chan ((s.train c.train).slots.headD 0)).now c.nco.clk
  let mem := c.role == 2
  [pack [put 47 36 c.nco.sec, put 35 16 (c.nco.code / 2 ^ 48), put 15 0 c.nco.epoch], word (c.nco.code % 2 ^ 48), word c.nco.crate,
    sword (c.nco.carr / 2 ^ 48), sword c.nco.carr, sword c.nco.carate,
    if mem then sword (codeOfs c m) else 0, if mem then sword (carrOfs c m) else 0]
/-- CLKQ of what Kite produces (R135): PLL-F coasts, or has coasted since the snapshot before, over which the dump reaches. -/
def State.chanClkq (s : State) : Bool := s.clk.pllF.coastedSince s.kite.snapClk
/-- The record of one channel (Table 8). -/
def State.dumpRecord (s : State) (n : Nat) (c : Chan) (new : Bool) : List Word :=
  let ms := s.kite.blk % 256
  let w0 := pack [put 47 40 ms, put 39 31 n, put 30 28 c.state, put 27 26 c.role, put 25 20 (if c.role = 0 then 0 else c.train),
    putB 19 c.plock, putB 18 c.clock, putB 17 c.sync, putB 16 c.costas, putB 15 c.fllOn, putB 14 c.mlock, putB 13 c.coast,
    putB 12 s.chanClkq, putB 11 (s.noInput c.stream), putB 10 new, putB 9 c.slip]
  [w0] ++ padTo 5 c.sums ++ s.ncoWords c ++
    [pack [put 47 36 c.cn0, putS 35 24 c.pli, put 23 16 c.slips, put 15 8 c.ints, put 7 4 c.cause], pack [put 47 40 ms]]
/-- The sums of an integration as words 1 to 5, at a snapshot edge. -/
def dumpSums (edge : Nat) (k : Integ) : List Word :=
  let p := fun (a b : Int) => pack [putS 47 24 a, putS 23 0 b]
  [p k.eI k.eQ, p k.pI k.pQ, p k.lI k.lQ, p k.rI k.rQ, pack [put 47 31 k.n, putS 30 19 k.rove, put 18 2 (edge - k.last)]]
/-- The transmit time that a channel's NCOs carry at its NCO clock, in ms of its system's time: modulo the code period, after SYNC modulo the secondary-code period of a pilot or the symbol of a data component (R145). -/
def Chan.msNow (c : Chan) : Rat :=
  let ms : Rat := (c.nco.code : Rat) / max 1 c.info.msSpan
  if !c.sync then ms
  else if c.info.pilot then (c.nco.sec * c.info.per : Nat) + ms
  else
    let est : Rat := ((c.cnt : Int) - c.symAt : Int) + (((c.nco.clk / 8 : Nat) : Int) - c.intAt : Int) * (c.nco.crate : Rat) / max 1 c.info.msSpan
    let f := ms - ms.floor
    f + (est - f + 1 / 2).floor
/-- One channel at the snapshot edge: its record, its snapshot group, and the interval flags of R149 for every partner. -/
def State.snapChan (n : Nat) (d : Option KDump) (s : State) : State × List Word :=
  let c := s.chan n
  if c.state = 0 then
    let clear := fun (e : Nat × MeasCfg) => (e.1, { e.2 with flags := tput 0 n 0 e.2.flags, slips := tput 0 n 0 e.2.slips })
    ((s.putMeas { s.meas with cfgs := s.meas.cfgs.map clear }), List.replicate 16 0)
  else
    let c := c.takeInts (s.noInput c.stream) s.tb.clk (match d with | some x => x.ints | none => [])
    let tr := s.train c.train
    let c := if c.role = 2 ∧ tr.state = 1 then ((s.chan (tr.slots.headD n)).now s.tb.clk).derived (c.now s.tb.clk) else c.now s.tb.clk
    let new := decide (c.fresh ≠ 0) && c.active
    let c := match c.recent.getLast? with
      | some k => if new then { c with sums := dumpSums (s.tb.clk / 8) k, ints := (c.ints + c.fresh) % 256, fresh := 0 } else c
      | none => c
    let ws := s.dumpRecord n c new
    let ms := s.kite.blk % 256
    let snap := [pack [put 47 40 ms, putB 39 new, putB 38 c.slip, putB 37 s.chanClkq]] ++ s.ncoWords c ++ [pack [put 47 40 ms]]
    let st := s.strm c.stream
    let fl := putB 4 c.slip + putB 3 s.chanClkq + putB 2 c.coast + putB 1 st.inLobe + putB 0 st.heavy
    let cf := [0, 1, 2, 3, 4].foldl (fun (t : Tab MeasCfg) p =>
      let x := tget {} p t
      tput {} p { x with flags := tput 0 n (tget 0 n x.flags ||| fl) x.flags } t) s.meas.cfgs
    let shot : Shot := {
      state := c.state, role := c.role, train := c.train, plock := c.plock, clock := c.clock, mlock := c.mlock, coast := c.coast, fllOn := c.fllOn
      fll := c.prof.kind == 2, absent := s.noInput c.stream, sync := c.sync, clkq := s.chanClkq, cn0 := c.cn0, slips := c.slips, msAt := c.msNow, nco := c.nco }
    ((s.putMeas { s.meas with cfgs := cf }).setChan n { c with snap := snap, shot := shot, slip := false }, ws)
/-- KITE_SNAPSHOT (R136): every channel latches its state at the snapshot edge of the latest tick, and the dump block of that tick is written through M3. -/
def execKiteSnapshot (t : Lapse) (ofsPs : Nat) (dumps : List KDump) (s : State) : Host.Outcome State Fault Refusal :=
  let s := s.elapse t
  if s.isOn 5 ∧ s.kite.dseq ≠ s.kite.blk ∧ s.clk.pllF.gives then
    let tk := qOfMs s.kite.lastMs
    let head := [word s.kite.blk, cyc tk, frc tk, pack [put 47 34 (min 12218 ofsPs), putB 33 s.chanClkq]] ++ List.replicate 12 0
    let r := (List.range 512).foldl (fun (acc : State × List (List Word)) n =>
      let x := acc.1.snapChan n (dumps.find? fun d => d.chan == n)
      (x.1, x.2 :: acc.2)) (s, [])
    let base := (Config.kiteBase 0).toNat + s.kite.blk % 16 * 8208
    let s := r.1.memWrites base (head ++ r.2.reverse.flatten)
    .next (s.putKite { s.kite with dseq := s.kite.blk, snapClk := s.tb.clk, snapQ := s.tb.q0 })
  else .next s

/-! Registers (Tables 9-14). -/

/-- CH_ID. -/
def Chan.idWord (c : Chan) : Word :=
  pack [put 47 42 c.sig, put 41 34 c.prn, put 33 32 c.ant, put 31 29 c.owner, put 28 27 c.role, put 26 21 (if c.role = 0 then 0 else c.train)]
/-- CH_STAT. -/
def State.chanStat (s : State) (c : Chan) : Word :=
  pack [put 47 45 c.state, putB 44 c.plock, putB 43 c.clock, putB 42 c.sync, putB 41 c.costas, putB 40 c.fllOn, putB 39 c.mlock, putB 38 c.coast,
    putB 37 (c.state != 0 && s.chanClkq), putB 36 (c.state != 0 && s.noInput c.stream), put 35 32 c.cause, put 31 24 c.slips, put 23 12 c.cn0]
/-- The four words of a profile. -/
def Profile.word_ (p : Profile) (i : Nat) : Word := match i with | 0 => p.w0 | 1 => p.w1 | 2 => p.w2 | 3 => p.w3 | _ => 0
/-- A word of a train page (Table 13). -/
def State.trainWord (s : State) (t i : Nat) : Word :=
  let x := s.train t
  let sl := fun k => if k < x.slots.length then x.slots.getD k 0x1FF else 0x1FF
  let five := fun k => pack [put 44 36 (sl k), put 35 27 (sl (k + 1)), put 26 18 (sl (k + 2)), put 17 9 (sl (k + 3)), put 8 0 (sl (k + 4))]
  match i with
  | 0 => pack [put 47 46 x.state, put 45 37 (x.slots.headD 0x1FF), put 36 32 x.slots.length, putB 31 x.combine, put 30 28 x.owner]
  | 1 => five 0 | 2 => five 5 | 3 => five 10 | 4 => five 15
  | 5 =>
    let gone := (s.tb.clk - x.coastClk) / 654720
    pack [put 47 40 x.promos, put 39 28 (if x.state = 2 then s.kite.coastMs - gone else 0)]
  | _ => 0
/-- A word of the Kite block, by offset from 0x01_0000 (R138). -/
def State.kiteReg (s : State) (off : Nat) : Word :=
  let n := off / 64
  let i := off % 64
  let c := s.chan n
  if 512 ≤ n then 0
  else if i < 48 then
    match i with
    | 0 => c.idWord
    | 1 => c.ctrl
    | 2 => s.chanStat c
    | i => if i < 13 ∧ c.state ≠ 0 then c.snap.getD (i - 3) 0 else 0
  else if n < 64 then s.trainWord n (i - 48)
  else if n = 64 then
    match i - 48 with
    | 0 => s.kite.ctrl
    | 1 => pack [put 47 38 s.kite.chans.length, put 37 31 (s.kite.trains.filter fun e => e.2.state != 0).length]
    | 2 => pack [put 47 40 0x10, put 23 0 (Config.kiteBase 0).toNat]
    | 3 => word s.kite.dseq
    | _ => 0
  else if 128 ≤ n ∧ n < 160 then (s.prof (n - 128)).word_ (i - 48)
  else 0

end Sys2Proof.Machine
end

