-- ==== Sys2Proof/Machine/Meas.lean ====
section
/-! DEFINITION. Measurements and navigation bits (R140-R159): MEAS_CONFIG and NAVBITS_CONFIG, the observables of an epoch and the OBS record, decoded messages and the NAVBITS record. -/
namespace Sys2Proof.Machine
open Sys2Proof

/-- Partner p's measurement configuration. -/
def State.mcfg (s : State) (p : Nat) : MeasCfg := tget {} p s.meas.cfgs
/-- Replace it. -/
def State.setMcfg (s : State) (p : Nat) (v : MeasCfg) : State := s.putMeas { s.meas with cfgs := tput {} p v s.meas.cfgs }
/-- The first whole ms at or after an instant. -/
def msUp (q : Qval) : Nat := msOf (qadd q (-1)) + 1
/-- The first multiple of n ms at least d µs after an instant. -/
def epochAfter (q : Qval) (d : Int) (n : Nat) : Nat := (msUp (qadd q (usUnits d)) + n - 1) / max 1 n * n
/-- Of configurations that wait in order of acceptance, the latest that is due governs and those before it are superseded (R142): the words in force and what still waits. -/
def dueCfg {α : Type} (ok : α → Bool) (old : List Word) : List (α × List Word) → List Word × List (α × List Word)
  | [] => (old, [])
  | (a, ws) :: t => if t.any fun e => ok e.1 then dueCfg ok old t else if ok a then (ws, t) else (old, (a, ws) :: t)
/-- PERIOD of a MEAS_CONFIG. -/
def obsPer (ws : List Word) : Nat := fld (arg ws 0) 44 29
/-- MEAS_CONFIG (0x060, R141, R142). -/
def opMeasConfig : OpSpec :=
  { code := 0x060, rights := 1
    eval := fun k s =>
      let w := arg k.ps
      if k.ps.length ≠ 3 ∨ fld (w 0) 46 45 = 3 ∨ obsPer k.ps = 0 ∨ (w 1).toNat &&& sigMaskAll ≠ (w 1).toNat then badParam 0
      else
        let m := epochAfter s.tb.q0 20000 (10 * obsPer k.ps)
        { status := .done, words := [cyc (qOfMs m), frc (qOfMs m)], pins := [.config 0x060 k.partner]
          act := fun _ s =>
            let c := s.mcfg k.partner
            s.setMcfg k.partner { c with obsNext := (c.obsNext.filter fun e => decide (e.1 < m)) ++ [(m, k.ps)] } } }
/-- MEAS_CONFIG. -/
def execMeasConfig (t : Lapse) (env : Env) (ps : List Word) (s : State) : Host.Outcome State Fault Refusal := runOp opMeasConfig t env ps s

/-! Observables. -/

/-- ANT_CABLE_DLY of an antenna in effect, ps. -/
def Ant.cable (x : Ant) : Int := sfld x.dlyNow 31 0
/-- d of R143 for a channel, in units of 2^-48 s. -/
def State.obsDelay (s : State) (c : Chan) : Int :=
  unitsOfPs ((Config.pathDly c.ant c.info.band).toInt + (s.ant c.ant).cable)
/-- Stream samples from the snapshot edge to s = t_e + d (R143). -/
def State.toS (s : State) (te : Qval) (c : Chan) : Rat := ((qdist te s.kite.snapQ + s.obsDelay c : Int) : Rat) * 81840000 / 2 ^ 48
/-- The carrier NCO of a channel at s, in cycles: the snapshot carried by its rates. -/
def State.carrAt (s : State) (te : Qval) (c : Chan) : Rat := (c.shot.nco.carr + c.shot.nco.carate * s.toS te c) / 2 ^ 48
/-- PR_VALID (Table 2), of the latest dump. -/
def Chan.prValid (c : Chan) : Bool := c.shot.state == 2 && c.shot.clock && !c.shot.coast && !c.shot.absent
/-- PH_VALID (Table 2). -/
def Chan.phValid (c : Chan) : Bool := c.prValid && (if c.shot.role = 2 then c.shot.mlock else c.shot.plock) && !c.shot.fll && !c.shot.fllOn
/-- DOP_VALID (Table 2). -/
def Chan.dopValid (c : Chan) : Bool := c.shot.state == 2 && !c.shot.absent
/-- How much of the transmit time the NCOs carry, ms (R145): the code period, after SYNC the symbol or the secondary-code period. -/
def Chan.ambStep (c : Chan) : Nat :=
  if !c.shot.sync then c.info.per else if c.info.pilot then secLen c.sig * c.info.per else unitMs c.info c.prn
/-- The transmit time that the code NCO carries at s, ms of GPS time (R143, R144). -/
def State.txAt (s : State) (te : Qval) (c : Chan) : Rat :=
  c.shot.msAt + c.shot.nco.crate * s.toS te c / max 1 c.info.msSpan + systemOffset c.info.sys s.tb.leapNow
/-- What resolves the transmit time (R145): the epoch before, where it was full; a checked message of the satellite; Ndovos's prediction where 3 σ_tau lies below a quarter of AMB_MS. In ms of GPS time. -/
def State.txGuess (s : State) (m : Nat) (pred : Option ObsIn) (c : Chan) : Option Rat :=
  match c.obs.tx with
  | some (m0, x) => some (x + m - m0)
  | none => match tget none c.sat s.meas.times with
    | some (rx, x) => some (x + (qdist (qOfMs m) rx : Rat) * 1000 / 2 ^ 48)
    | none => match pred with
      | some p => if 12 * p.sigTau < c.ambStep * 10 ^ 9 then some ((p.tx : Rat) / 10 ^ 9) else none
      | none => none
/-- AMB_MS never increases between reloads; 0 is the full transmit time (R145). -/
def ambNext (old new : Nat) : Nat := if old = 0 ∨ new = 0 then 0 else min old new
/-- C0 forms the observable of one channel at an epoch: transmit time and AMB_MS (R143-R145), the pseudorange, and at the first epoch with PH_VALID since the start or a slip n0 (R146). -/
def State.observe (m : Nat) (pred : Option ObsIn) (n : Nat) (s : State) : State :=
  let c := s.chan n
  let te := qOfMs m
  if c.state = 0 ∨ c.shot.state = 0 then s
  else
    let step : Rat := c.ambStep
    let x := s.txAt te c
    let tx := if c.shot.state = 2 then (s.txGuess m pred c).map fun g => x + step * ((g - x) / step + 1 / 2).floor else none
    let amb := if c.shot.state = 2 then ambNext c.obs.ambMs (if tx.isSome then 0 else c.ambStep) else c.obs.ambMs
    let ms : Rat := match tx with
      | some v => m - v
      | none => let d : Rat := m - x; if amb = 0 then d else d - amb * (d / amb).floor
    let pr : Rat := 299792458 * ms / 1000
    let o : Obs := { c.obs with ambMs := amb, tx := tx.map fun v => (m, v), pr := (rndOpen (pr * 2 ^ 16)).toNat % 2 ^ 48 }
    let o := if c.phValid ∧ o.n0.isNone then { o with n0 := some (pr * c.freq / 299792458 + s.carrAt te c + 1 / 2).floor } else o
    s.setChan n { c with obs := o }
/-- The phase observable in 2^-12 cycle (R143, R146, R147). -/
def State.phase (s : State) (te : Qval) (c : Chan) : Int :=
  rndOpen (((c.obs.n0.getD 0 : Rat) - s.carrAt te c + (if c.obs.add && c.costas then 1 / 2 else 0)) * 4096)
/-- PR_SIGMA and PH_SIGMA (R148). -/
def Chan.sigma (f : Config.Component → Nat → Nat → Nat → Nat → Nat) (c : Chan) : Nat :=
  match componentOf c.sig with | some x => satN 12 (f x c.shot.cn0 (fld c.prof.w1 45 34) (fld c.ctrl 42 37) c.loopMs) | none => 0
/-- The six words of an observation (Table 4). `fl` are the interval flags of the partner, `slip` whether SLIP_CNT changed. -/
def State.obsWords (s : State) (p : Nat) (te : Qval) (n : Nat) (fl : Nat) (slip : Bool) : List Word :=
  let c := s.chan n
  let pr := c.prValid
  let ph := c.phValid
  let dp := c.dopValid
  let amb := c.costas && c.obs.amb
  let lock := (qdist te c.obs.lockFrom).toNat * 1000 / 2 ^ 48
  [pack [put 47 39 n, put 38 33 c.sig, put 32 25 c.prn, put 24 23 c.ant, put 22 21 c.shot.role, put 20 15 (if c.shot.role = 0 then 0 else c.shot.train),
      putB 14 pr, putB 13 ph, putB 12 dp, putB 11 amb, putB 10 (c.costas && c.obs.add), putB 9 (fl.testBit 5 && c.costas && !amb),
      putB 8 (fl.testBit 4 || slip), putB 7 (fl.testBit 3), putB 6 (fl.testBit 2), putB 5 (fl.testBit 1), putB 4 (fl.testBit 0), putB 3 (c.owner == p)],
    if pr then word c.obs.pr else 0, if ph then sword (s.phase te c) else 0,
    pack [putS 47 16 (if dp then rndOpen ((c.shot.nco.carate : Rat) * 81840000 / 2 ^ 40) else 0), put 15 4 c.shot.cn0],
    pack [put 47 24 (satN 24 lock), put 23 8 c.obs.ambMs, put 7 0 c.shot.slips],
    pack [put 47 36 (if pr then c.sigma Config.prSigma else 0), put 35 24 (if ph then c.sigma Config.phSigma else 0)]]
/-- A channel belongs to a SET (Tables 1 and R156). -/
def inSet (set p owner : Nat) : Bool := match set with | 0 => owner == p | 1 => owner == 7 | _ => true
/-- A channel passes a MEAS_CONFIG (R151). -/
def State.obsPasses (s : State) (p : Nat) (ws : List Word) (n : Nat) : Bool :=
  let c := s.chan n
  let w := arg ws 0
  c.state != 0 && inSet (fld w 46 45) p c.owner && bit (arg ws 1) c.sig && bit (arg ws 2) (47 - c.ant) && decide (fld w 28 17 ≤ c.shot.cn0) &&
    (bit w 16 || c.prValid || c.phValid || c.dopValid)
/-- The header words of an OBS record (Table 3). -/
def State.obsHead (s : State) (te : Qval) (per n : Nat) (gap : Option Nat) : List Word :=
  [cyc te, frc te, pack [put 47 32 per, put 31 22 n, put 21 6 (match gap with | some g => min g 0xFFFE | none => 0xFFFF), put 5 2 s.tb.tsrc, putB 1 s.chanClkq],
    pack [put 47 16 s.tb.tqeNow, put 15 12 s.modes.mode]]
/-- A core of the measuring pair has failed: solutions come every second, OBS and heading epochs at most ten a second (R337). -/
def State.oneCore (s : State) : Bool := s.dsp.failed.testBit 0 || s.dsp.failed.testBit 1
/-- One partner's epoch (R142, R149-R151). `whole` says that the dump block of the epoch exists and C0 forms its observables; interval flags reach back to the epoch before in any case. -/
def State.partnerEpoch (m : Nat) (whole : Bool) (p : Nat) (s : State) : State :=
  let c := s.mcfg p
  let due := dueCfg (fun m0 => decide (m0 ≤ m)) c.obs c.obsNext
  let c := { c with obs := due.1, obsNext := due.2 }
  let s := s.setMcfg p c
  let per := if obsPer c.obs ≠ 0 ∧ s.oneCore then max 10 (obsPer c.obs) else obsPer c.obs
  if per = 0 ∨ m % (10 * per) ≠ 0 then s
  else
    let te := qOfMs m
    let on := bit (arg c.obs 0) 47
    let skip := fun (s : State) => if on then s.setMcfg p { s.mcfg p with obsGap := (s.mcfg p).obsGap.map (· + 1) } else s
    let is := (s.kite.chans.map fun e => e.1).filter fun n => s.obsPasses p c.obs n
    let one := fun (n : Nat) =>
      let old := tget 0 n c.slips
      s.obsWords p te n (tget 0 n c.flags) (old != 0 && old != (s.chan n).shot.slips + 1)
    let ws := [pack [put 47 40 0x01], pack [put 47 40 0x01]] ++ s.obsHead te per is.length c.obsGap ++ is.flatMap one
    let seen := s.kite.chans.foldl (fun (t : Tab Nat) e => tput 0 e.1 (e.2.shot.slips + 1) t) []
    let s := s.setMcfg p { c with flags := [], slips := seen }
    if !whole ∨ !on ∨ is = [] ∨ !s.pwr.ready ∨ !s.mayForm p true ws.length then skip s
    else
      let s := s.setMcfg p { s.mcfg p with obsGap := some 0 }
      s.recordCounted p true ws
/-- The gaps of every partner's OBS records are unknown after an outage, and messages in progress are lost (R151, R159). -/
def State.measOutage (s : State) : State :=
  let s := [0, 1, 2, 3, 4].foldl (fun (s : State) p => s.setMcfg p { s.mcfg p with obsGap := none }) s
  s.putKite { s.kite with chans := s.kite.chans.map fun e => (e.1, { e.2 with softs := [], symAcc := 0 }) }
/-- MEAS_EPOCH (R140): every 10 ms C0 forms the observables of every channel that is not IDLE, and the partners' records, in ascending channel order. `preds` are what Ndovos predicts. -/
def execMeasEpoch (t : Lapse) (preds : List ObsIn) (s : State) : Host.Outcome State Fault Refusal :=
  let s := s.elapse t
  let m := msOf s.tb.q0
  if m % 10 = 0 ∧ s.meas.lastMs ≠ m then
    let s := s.putMeas { s.meas with lastMs := m }
    let c0 := s.ndovos
    let whole := c0 && s.isOn 5 && s.clk.pllF.gives && s.kite.lastMs == m && s.kite.dseq == s.kite.blk
    let cable := c0 && [0, 1, 2, 3].any fun a => (s.ant a).dly != (s.ant a).dlyNow
    let s : State := if c0 then [0, 1, 2, 3].foldl (fun (s : State) a => s.setAnt a { s.ant a with dlyNow := (s.ant a).dly }) s else s
    let s := if cable then (s.putModes { s.modes with cable := true }) else s
    let ns := s.kite.chans.map fun e => e.1
    let s : State := if whole then ns.foldl (fun (s : State) n => s.observe m (preds.find? fun p => p.chan == n) n) s else s
    .next ([0, 1, 2, 3, 4].foldl (fun (s : State) p => s.partnerEpoch m whole p) s)
  else .next s

/-! Navigation messages. -/

/-- The bits of MSG_MASK that Table 5 names. -/
def msgMaskAll : Nat := ((List.range 48).filter fun n => (msgType n).isSome).foldl (fun m n => m + 2 ^ n) 0
/-- NAVBITS_CONFIG (0x061, R156). -/
def opNavbitsConfig : OpSpec :=
  { code := 0x061, rights := 1
    eval := fun k _ =>
      let w := arg k.ps
      if k.ps.length ≠ 2 ∨ fld (w 0) 46 45 = 3 ∨ (w 1).toNat &&& msgMaskAll ≠ (w 1).toNat then badParam 0
      else
        { status := .done, pins := [.config 0x061 k.partner]
          act := fun _ s => 
            let c := s.mcfg k.partner
            s.setMcfg k.partner { c with navNext := c.navNext ++ [(qadd s.tb.q0 (usUnits 20000), k.ps)] } } }
/-- NAVBITS_CONFIG. -/
def execNavbitsConfig (t : Lapse) (env : Env) (ps : List Word) (s : State) : Host.Outcome State Fault Refusal := runOp opNavbitsConfig t env ps s
/-- Message bits as words: the unused low bits of the last read 0 (R157). -/
def bitWords (nbits : Nat) (ws : List Word) : List Word :=
  (List.range ((nbits + 47) / 48)).map fun i =>
    let used := min 48 (nbits - 48 * i)
    word ((arg ws i).toNat / 2 ^ (48 - used) * 2 ^ (48 - used))
/-- The NAVBITS record (Table 6). -/
def navRecord (m : NavMsg) (copies skipped : Nat) : List Word :=
  let pass := m.parts.zipIdx.foldl (fun n x => n + (if x.1 then 2 ^ (9 - x.2) else 0)) 0
  [pack [put 47 40 0x02], pack [put 47 42 m.mt, put 41 36 m.sig, put 35 28 m.prn, put 27 26 m.ant, put 25 17 m.chan, put 16 15 m.check, putB 14 m.clkq, put 13 4 m.nbits],
    cyc m.rx, frc m.rx,
    pack [put 47 38 pass, put 37 34 m.parts.length, put 33 28 (satN 6 m.ncorr), put 27 23 (min 16 copies), put 22 7 (satN 16 skipped)]] ++ bitWords m.nbits m.bits
/-- A NAVBITS record for a partner, or one more withheld (R151, R158). -/
def State.sendNav (p : Nat) (m : NavMsg) (copies : Nat) (s : State) : State :=
  let c := s.mcfg p
  let ws := navRecord m copies c.navSkip
  if !s.pwr.ready then s
  else if s.mayForm p true ws.length then State.recordCounted p true ws (s.setMcfg p { c with navSkip := 0 })
  else s.setMcfg p { c with navSkip := satN 16 (c.navSkip + 1) }
/-- The configuration of a partner that governs a message whose last symbol arrives at an instant. -/
def MeasCfg.navAt (c : MeasCfg) (q : Qval) : MeasCfg :=
  let due := dueCfg (fun f => !behind q f) c.nav c.navNext
  { c with nav := due.1, navNext := due.2 }
/-- A collection ends: its record is the best copy's (R158). -/
def State.endDedup (d : Dedup) (s : State) : State :=
  let s := s.putMeas { s.meas with
    dedups := s.meas.dedups.filter fun x => !(x.partner == d.partner && x.sat == d.sat && x.mt == d.mt && x.txTime == d.txTime)
    sent := (d.partner, d.sat, d.mt, d.txTime) :: s.meas.sent }
  if d.passed ∨ bit (arg (s.mcfg d.partner).nav 0) 44 then s.sendNav d.partner d.best d.copies else s
/-- A message reaches one partner (R156-R158). -/
def State.deliverNav (m : NavMsg) (p : Nat) (s : State) : State :=
  let unit := match msgType m.mt with | some r => r.2.2 | none => 0
  let cfg := (s.mcfg p).navAt (qadd m.rx (usUnits (1000 * unit)))
  let s := s.setMcfg p cfg
  let w := arg cfg.nav 0
  let c := s.chan m.chan
  let ok := decide (m.check < 2)
  if !bit w 47 ∨ !inSet (fld w 46 45) p c.owner ∨ !bit (arg cfg.nav 1) m.mt then s
  else if !bit w 43 then (if ok ∨ bit w 44 then s.sendNav p m 1 else s)
  else if s.meas.sent.contains (p, c.sat, m.mt, m.txMs) then s
  else
    let same := fun (x : Dedup) => x.partner == p && x.sat == c.sat && x.mt == m.mt && x.txTime == m.txMs
    let d := match s.meas.dedups.find? same with
      | some d => { d with copies := d.copies + 1, best := if !d.passed && ok then m else d.best, passed := d.passed || ok, done := d.done ++ [m.chan] }
      | none => ⟨p, c.sat, m.mt, m.txMs, s.tb.clk, 1, m, ok, [m.chan]⟩
    let s := s.putMeas { s.meas with dedups := (s.meas.dedups.filter fun x => !same x) ++ [d] }
    let waiting := s.kite.chans.any fun e =>
      e.2.carries m.mt && e.2.sat == c.sat && inSet (fld w 46 45) p e.2.owner && e.2.obs.framed && !d.done.contains e.1
    if waiting then s else s.endDedup d
/-- The instant at which a stream sample's signal reached the phase centre of a channel's antenna (R143). -/
def State.arrival (s : State) (c : Chan) (u : Nat) : Qval := qadd s.tb.q0 (-(((s.tb.clk / 8 : Nat) : Int) - u) * 2 ^ 48 / 81840000 - s.obsDelay c)
/-- The message that the latest record unit of a channel's symbols holds, and what decoding found; an LNAV subframe passes only with all its ten words (R154). -/
def State.decoded (s : State) (n : Nat) : Option (NavMsg × Config.Decoded) :=
  let c := s.chan n
  match c.message with
  | none => none
  | some mt => match msgType mt with
    | none => none
    | some r =>
      let len := r.2.2 / symbolMs mt
      let sy := c.softs.drop (c.softs.length - len)
      let d := Config.decode mt (sy.map fun x => x.1)
      let ok := d.ok && (mt != 0x01 || (d.parts.length == 10 && d.parts.all id))
      let u := (sy.headD (0, 0)).2
      if sy.length < len then none
      else some ({ chan := n, sig := c.sig, prn := c.prn, ant := c.ant, mt := mt, check := if !ok then 2 else if d.ncorr = 0 then 0 else 1, nbits := r.2.1, bits := d.bits
                   parts := d.parts.take 10, ncorr := d.ncorr, rx := s.arrival c u, txMs := d.txMs, clkq := s.clk.pllF.coastedSince (8 * u) }, d)
/-- The symbols one record unit before the latest message begin with a preamble too. -/
def Chan.preambleBefore (c : Chan) (mt : Nat) : Bool :=
  match msgType mt with
  | some r =>
    let len := r.2.2 / symbolMs mt
    decide (2 * len ≤ c.softs.length) && (Config.preamble mt ((c.softs.drop (c.softs.length - 2 * len)).map fun x => x.1)).isSome
  | none => false
/-- Ndovos keeps a checked message in place of the one before of its type, satellite and page (R155, R308). -/
def State.keepMessage (mt sat : Nat) (ws : List Word) (s : State) : State :=
  let page := Config.pageOf mt ws
  s.putMeas { s.meas with kept := (s.meas.kept.filter fun x => !(x.1 == mt && x.2.1 == sat && x.2.2.1 == page)) ++ [(mt, sat, page, ws)] }
/-- What a checked message tells Ndovos (R155): the satellite's time of week, its page, its leap seconds. -/
def State.useMessage (m : NavMsg) (d : Config.Decoded) (s : State) : State :=
  let c := s.chan m.chan
  let tx : Nat := ((m.txMs : Int) + systemOffset c.info.sys s.tb.leapNow).toNat
  let s := State.keepMessage m.mt c.sat (bitWords m.nbits m.bits) (s.putMeas { s.meas with times := tput none c.sat (some (m.rx, tx)) s.meas.times })
  match d.leap with
  | some (now, next, at_) => s.navLeap now next at_
  | none => s
/-- NAV_MESSAGE_DECODED (R154): the last symbol of a message has arrived. Frame sync (its preamble and the one a record unit before stand there and it passes; DEDUCED, log 194), the half cycle (R147), what Ndovos learns (R155), and the NAVBITS records. One that spans a reload or a slip is not delivered (R159). -/
def execNavMessageDecoded (t : Lapse) (n : Nat) (s : State) : Host.Outcome State Fault Refusal :=
  let s := s.elapse t
  let c := s.chan n
  if n < 512 ∧ s.isOn 6 then
    match s.decoded n with
    | none => .next s
    | some (m, d) =>
      if behind m.rx c.obs.lockFrom then .next s
      else
        let ok := decide (m.check < 2)
        let pol := Config.preamble m.mt ((c.softs.drop (c.softs.length - (match msgType m.mt with | some r => r.2.2 / symbolMs m.mt | none => 0))).map fun x => x.1)
        let synced := c.obs.framed || (ok && pol.isSome && c.preambleBefore m.mt)
        let fails := if ok then 0 else c.obs.fails + 1
        let solve := ok && c.costas && c.obs.amb && pol.isSome
        let o : Obs := { c.obs with framed := synced && decide (fails < 3), fails := fails }
        let o := if solve then { o with amb := false, add := pol.getD false } else o
        let s := s.setChan n { c with obs := o }
        let s := if solve then
            let cf := [0, 1, 2, 3, 4].foldl (fun (t : Tab MeasCfg) p =>
              let x := tget {} p t
              tput {} p { x with flags := tput 0 n (setBit (tget 0 n x.flags) 5) x.flags } t) s.meas.cfgs
            (s.putMeas { s.meas with cfgs := cf })
          else s
        let s := if ok ∧ synced then s.useMessage m d else s
        .next (if synced then [0, 1, 2, 3, 4].foldl (fun (s : State) p => s.deliverNav m p) s else s)
  else .next s
/-- DEDUP_TIMEOUT (R158): 50 ms after the first copy, which channel `chan` finished, a partner's record is queued. -/
def execDedupTimeout (t : Lapse) (partner chan : Nat) (s : State) : Host.Outcome State Fault Refusal :=
  let s := s.elapse t
  let due := s.meas.dedups.filter fun d => d.partner == partner && d.done.head? == some chan && decide (d.clk + 32736000 ≤ s.tb.clk)
  .next (due.foldl (fun (s : State) d => s.endDedup d) s)

end Sys2Proof.Machine
end

