-- ==== Sys2Proof/Machine/Search.lean ====
section
/-! DEFINITION. Ndovos's own searches (R102-R104, R173, R174): the aiding terms, the size of a job, the cold plan, the jobs for satellites not yet tracked. -/
namespace Sys2Proof.Machine
open Sys2Proof

/-- Change the mode block. -/
def State.onModes (f : ModeBlk → ModeBlk) (s : State) : State := s.putModes (f s.modes)
/-- ANT_MASK of a MODE_SET, bit 3 antenna A. -/
def msMask (ws : List Word) : Nat := fld (arg ws 0) 39 36
/-- The effective mode: the origin's in an automatic HOLDOVER, NAVIGATE in a forced one (R181). -/
def State.solving (s : State) : Nat :=
  if s.modes.mode = 8 then (if s.modes.origin = 0 then 4 else s.modes.origin) else s.modes.mode
/-- Ndovos searches and tracks (Table 1). -/
def State.tracks (s : State) : Bool :=
  s.ndovos && ([2, 3, 4, 5, 6, 7, 8, 9].contains s.modes.mode || (s.modes.mode == 10 && s.modes.phase != 0))

/-! Aiding terms (Table 4). -/

/-- A position word triple in 2^-16 m. -/
def wordsPos (ws : List Word) : Int × Int × Int := ((arg ws 0).toInt, (arg ws 1).toInt, (arg ws 2).toInt)
/-- Where an antenna is known to be, and its 1σ in mm: held in POSITION_HOLD, else its last solution, else what AID_POSITION gave. -/
def State.antPos (s : State) (a : Nat) : Option ((Int × Int × Int) × Nat) :=
  let h := tget [] a s.modes.held
  if s.solving = 6 ∧ h ≠ [] then some (wordsPos h, fld (arg h 3) 47 24)
  else match tget none a s.modes.fixes with
    | some f => some (f.pos, f.sigma)
    | none => (tget none a s.modes.aidPos).map fun p => ((p.1 * 65536 / 1000, p.2.1 * 65536 / 1000, p.2.2.1 * 65536 / 1000), p.2.2.2 * 1000)
/-- σ_t in s. -/
def State.sigT (s : State) : Option Rat :=
  if s.tb.tsrc ≠ 0 then some (s.tb.tqeNow / 10 ^ 12) else s.modes.aidSigma.map fun n => (n : Rat) / 10 ^ 9
/-- σ_f; until the OCXO has been warm once, 2 × 10^-6 (R210). -/
def State.sigF (s : State) : Rat := if !s.clk.warmed then 2 / 10 ^ 6 else if s.tb.tqf = 0xFFFFFFFF then 5 / 10 ^ 8 else (s.tb.tqf : Rat) / 10 ^ 15
/-- σ_v in m/s. -/
def State.sigV (s : State) (a : Nat) : Option Rat :=
  if s.solving = 5 ∨ s.solving = 6 then some 0 else (tget none a s.modes.fixes).map fun f => (f.sigV : Rat) / 1000
/-- A value of Q0 in ms. -/
def msRat (q : Qval) : Rat := (q.toNat : Rat) * 1000 / 2 ^ 48
/-- What is kept of a satellite: type, page, bits. -/
def State.msgsOf (s : State) (sat : Nat) : List (Nat × Nat × List Word) := (s.meas.kept.filter fun x => x.2.1 == sat).map fun x => (x.1, x.2.2.1, x.2.2.2)
/-- A satellite as its orbit shows it from an antenna at an instant. -/
def State.lookAt (s : State) (sat a : Nat) (q : Qval) : Option Config.Look :=
  match s.antPos a with | some p => Config.look (s.msgsOf sat) (msRat q) p.1 | none => none
/-- The cold Doppler window, ± Hz. -/
def coldWindow (sys : Nat) : Rat := match sys with | 0 | 3 | 4 => 5000 | 5 => 500 | _ => 4500
/-- The least natural number whose square is not below x. -/
def ceilSqrt (x : Rat) : Nat :=
  let k := x.ceil.toNat
  if Nat.sqrt k * Nat.sqrt k = k then Nat.sqrt k else Nat.sqrt k + 1

/-! The size of a job (R102). -/

/-- A job for a signal of a satellite on antennas, sized from what is known; `cold` sets every term to its cold value, `hot` makes it one of hot reacquisition (R103). Predictions hold at the common start, for the lowest antenna. -/
def State.aim (s : State) (cold hot : Bool) (sig prn mask coh noncoh npeak thresh : Nat) (start : Qval) : Job :=
  let g := (sigOf sig).getD ⟨0, 0, 15754200, 0, 2046, 1, 20, 0, false, false, 20, false⟩
  let a := (maskAnts mask).headD 0
  let look := if cold then none else s.lookAt (g.sys * 256 + prn) a start
  let st := if cold then none else s.sigT
  let sp := if cold then none else (s.antPos a).map fun p => (p.2 : Rat) / 1000
  let j : Job := {
    slot := 0, jsn := 0, seq := 0, who := 15, tag := 0, prio := if hot then 3 else 2, npeak := npeak, mask := mask, sig := sig, prn := prn, cps := g.ndovosCps
    sec := false, coh := coh, noncoh := noncoh, bins := 1, dopCentre := 0, dopStep := 0, dopRate := 0, cpStart := 0, cpWidth := 0, thresh := thresh, secPhase := 0
    hot := hot, start := if hot then none else some start, gran := 0, left := 0, todo := 0 }
  let rate : Rat := (j.rate : Rat) * 500
  let c : Rat := 299792458
  let so : Rat := match look with | some l => if l.almanac then 5000 else 5 | none => 0
  let win := match look, st, sp with
    | some _, some t, some p => some (ceilSqrt (9 * rate * rate * (t * t + (p / c) * (p / c) + (so / c) * (so / c))) + 2)
    | _, _, _ => none
  let tx : Rat := match look with | some l => msRat start - l.range / c * 1000 - systemOffset g.sys s.tb.leapNow | none => 0
  let per : Rat := g.per
  let pred := (((-tx) - per * ((-tx) / per).floor) * rate / 1000).floor
  let w := match win with
    | some h => if j.period ≤ 2 * h + 1 then (0, j.period) else (((pred - h) % (j.period : Int)).toNat, 2 * h + 1)
    | none => (0, j.period)
  let sec := !hot && (match st with | some t => decide (3 * t ≤ 1 / 10000) | none => false) && decide (cohLimit g prn true ≠ 0 ∧ 2 * w.2 ≤ j.period)
  let coh := if hot then 1 else max 1 (min coh (cohLimit g prn sec))
  let step : Rat := 500 / (coh : Nat)
  let f : Rat := (carrierOf g prn : Rat) * 100
  let half := match look, s.sigV a with
    | some l, some v =>
      let od : Rat := if l.almanac then 5 else 1 / 20
      ceilSqrt (9 * ((f * s.sigF) * (f * s.sigF) + (v * f / c) * (v * f / c) + od * od) / (step * step))
    | _, _ => (coldWindow g.sys / step).ceil.toNat
  let j := { j with
    sec := sec, coh := coh, noncoh := if hot then 1 else max 1 (min noncoh (10000 / coh)), cpStart := w.1, cpWidth := w.2
    dopStep := (rndOpen (step * 256)).toNat, bins := min 4095 (2 * half + 1)
    dopCentre := match look with | some l => rndOpen (-(l.rate * f / c) * 65536) | none => 0
    dopRate := match look with | some l => rndOpen (-(l.accel * f / c) * 4096) | none => 0
    secPhase := if sec then (((tx + (w.1 : Rat) * 1000 / rate) / per).ceil % (secLen sig : Int)).toNat else 0 }
  { j with gran := j.granules, left := j.granules, todo := j.granules }
/-- Ndovos's job goes into a free slot of its own, where R91 allows it; a hot one with one antenna, one granule, at most 512 of them and at most 40 captures per antenna (R103). Which free slot it takes is not stated. -/
def State.submit (j : Job) (s : State) : State :=
  let free := (List.range 1024).filter fun i => !(s.gale.jobs.any fun x => x.slot == i)
  let hots := s.gale.jobs.filter fun x => x.hot
  let same := hots.filter fun x => x.mask == j.mask
  let room := (((j :: same).map fun x => (x.carrier, x.rate)).eraseDups).length
  if jobBad j ∨ free = [] ∨ (maskAnts j.mask).all (fun a => s.fc.front.testBit a) ∨ (j.hot ∧ ((maskAnts j.mask).length ≠ 1 ∨ j.gran ≠ 1 ∨ 512 ≤ hots.length ∨ 40 < room)) then s
  else
    let slot := free.getD (Config.freeNat s.fresh % free.length) 0
    State.onGale (fun g => { g with jobs := g.jobs ++ [{ j with slot := slot, seq := g.seq }], seq := g.seq + 1 }) (s.putFresh (s.fresh + 1))

/-! The cold plan (R104, R173). -/

/-- The rows of Table 6: the signal, COH and NONCOH per antenna with four of them. -/
def coldRows : List (Nat × Nat × Nat) := [(0x01, 10, 3), (0x1C, 10, 3), (0x20, 2, 46), (0x10, 1, 172), (0x08, 4, 13), (0x18, 10, 3)]
/-- The PRN bytes of a signal. -/
def prnsOf (g : Sig) : List Nat := (List.range 256).filter fun p => prnOk g p
/-- Two positions lie further than 36 m apart. -/
def farApart (a b : Int × Int × Int) : Bool :=
  let d := fun (x y : Int) => (x - y) * (x - y)
  decide ((36 * 65536) ^ 2 < d a.1 b.1 + d a.2.1 b.2.1 + d a.2.2 b.2.2)
/-- The antennas that the plan combines: those of a mask, or the lowest alone where two of them are known to be further than 36 m apart. What is not known to lie apart is combined (DESIGN CHOICE, log 195). -/
def State.planMask (s : State) (mask : Nat) : Nat :=
  let ps := (maskAnts mask).filterMap fun a => match tget [] a s.rtc.keep.survey with | [] => (s.antPos a).map fun p => p.1 | ws => some (wordsPos ws)
  if ps.any fun p => ps.any (farApart p) then 2 ^ (3 - (maskAnts mask).headD 0) else mask
/-- NONCOH with fewer antennas than the four of Table 6: one alone has four times as many; the spec gives one and four, and between them the model keeps the product (DESIGN CHOICE, log 195). -/
def planNoncoh (n ants : Nat) : Nat := (4 * n + ants - 1) / max 1 ants
/-- The cold plan on each band of the antennas of a mask, from one start with THRESH 0: Table 6 on upper L; on the others, which Table 6 leaves out, the cold values of R102 with Ndovos's COH and NONCOH. -/
def State.coldPlan (mask : Nat) (s : State) : State :=
  let start := qadd s.tb.q0 (usUnits Config.planLead)
  let mask := s.planMask mask
  let n := (maskAnts mask).length
  let upper := coldRows.map fun r => (r.1, r.2.1, planNoncoh r.2.2 n)
  let rest := [1, 2].flatMap fun b => [0, 1, 2, 3, 4, 5].filterMap fun sys =>
    match Config.searchSignal sys b with
    | some x => (match sigOf x with | some g => if g.band = b ∧ g.sys = sys then some (x, Config.searchCoh x, Config.searchNoncoh x) else none | none => none)
    | none => none
  (upper ++ rest).foldl (fun (s : State) r =>
    match sigOf r.1 with
    | some g => (prnsOf g).foldl (fun (s : State) prn => s.submit (s.aim true false r.1 prn mask r.2.1 r.2.2 4 0 start)) s
    | none => s) s

/-! Jobs for the visible set (R174). -/

/-- A satellite belongs to the visible set as seen from an antenna: above −5°, or nothing tells where it or the antenna is. -/
def State.visible (s : State) (sat a : Nat) : Bool := match s.lookAt sat a s.tb.q0 with | some l => decide (-5 < l.elev) | none => true
/-- A satellite is tracked on a band and antenna, or one of Ndovos's jobs looks for it there. -/
def State.sought (s : State) (sat band a : Nat) : Bool :=
  (s.kite.chans.any fun e => e.2.active && e.2.sat == sat && e.2.ant == a && e.2.info.band == band) ||
  s.gale.jobs.any fun j => j.who == 15 && j.band == band && j.mask.testBit (3 - a) && (match sigOf j.sig with | some g => g.sys * 256 + j.prn == sat | none => false)
/-- One satellite on one band and antenna: a hot job where that is asked for and its terms allow one, else an ordinary one. -/
def State.seek (hot : Bool) (start : Qval) (a sig prn : Nat) (s : State) : State :=
  let mk := fun h => s.aim false h sig prn (2 ^ (3 - a)) (Config.searchCoh sig) (Config.searchNoncoh sig) (max 1 (min 8 (Config.searchPeaks sig))) (Config.searchThresh sig % 65536) start
  s.submit (if hot ∧ (mk true).gran = 1 then mk true else mk false)
/-- Ndovos's jobs for every satellite of the visible set that it does not yet track, on each band and antenna in use. -/
def State.seekAll (hot : Bool) (s : State) : State :=
  let start := qadd s.tb.q0 (usUnits Config.planLead)
  (maskAnts (msMask s.modes.cur)).foldl (fun (s : State) a =>
    [0, 1, 2].foldl (fun (s : State) b => [0, 1, 2, 3, 4, 5].foldl (fun (s : State) sys =>
      match Config.searchSignal sys b with
      | some x => (match sigOf x with
        | some g =>
          if g.band ≠ b ∨ g.sys ≠ sys then s
          else (prnsOf g).foldl (fun (s : State) prn =>
            if s.visible (sys * 256 + prn) a ∧ !s.sought (sys * 256 + prn) b a then s.seek hot start a x prn else s) s
        | none => s)
      | none => s) s) s) s
/-- What the mode in force has Ndovos search for (Table 1): the cold plan, begun anew when it has ended without a sufficient set, until COLD_SEARCH completes; otherwise the visible set, in SNAPSHOT by hot reacquisition (R184). That a plan that found too little runs again is not stated (DESIGN CHOICE, log 195). -/
def State.search (s : State) : State :=
  if !s.tracks then s
  else if s.modes.mode = 2 ∧ !s.modes.done then (if s.gale.jobs.any (fun j => j.who == 15) then s else s.coldPlan (msMask s.modes.cur))
  else s.seekAll (s.modes.mode == 10)

end Sys2Proof.Machine
end

