-- ==== Sys2Proof/Machine/Modes.lean ====
section
/-! DEFINITION. The mode machine (R160-R189): MODE_SET and MODE_GET, entering a mode, MODE_CHANGE records, the snapshot cycle, restart; Ndovos's own channels; AID_POSITION and AID_ORBIT (R307, R308). -/
namespace Sys2Proof.Machine
open Sys2Proof

/-! The words of a MODE_SET (Tables 2, 3). -/

/-- MODE. -/
def msMode (ws : List Word) : Nat := fld (arg ws 0) 47 44
/-- NEXT. -/
def msNext (ws : List Word) : Nat := fld (arg ws 0) 43 40
/-- HO_DELAY in units of 2^-48 s. -/
def msHoDelay (ws : List Word) : Int := usUnits (100000 * (if fld (arg ws 0) 35 28 = 0 then 10 else fld (arg ws 0) 35 28))
/-- RET_DELAY in units of 2^-48 s. -/
def msRetDelay (ws : List Word) : Int := usUnits (100000 * (if fld (arg ws 0) 27 20 = 0 then 30 else fld (arg ws 0) 27 20))
/-- LEN that Table 3 gives. -/
def msLen (ws : List Word) : Nat :=
  match msMode ws with
  | 5 | 7 | 9 | 10 => 2
  | 6 => if bit (arg ws 1) 47 then 2 + 4 * (maskAnts (msMask ws)).length else 2
  | _ => 1
/-- A field of the mode word is out of range (Table 3). -/
def msWordBad (ws : List Word) : Bool :=
  let w := arg ws 1
  let len := fun n => n != 0 && decide (n < 250 ∨ 100000 < n)
  match msMode ws with
  | 5 => decide (fld w 47 24 < 60 ∨ fld w 23 0 = 0)
  | 7 => len (fld w 47 28) || len (fld w 27 8) || decide (fld w 7 0 = 0 ∨ 100 < fld w 7 0)
  | 9 => decide (fld w 15 0 = 0)
  | 10 => decide (fld w 47 30 < 10 ∨ 86400 < fld w 47 30 ∨ fld w 29 16 < 100 ∨ 10000 < fld w 29 16 ∨ fld w 15 8 = 0)
  | _ => false
/-- NEXT is permitted for MODE. -/
def msNextOk (mode next : Nat) : Bool :=
  match mode with
  | 2 | 3 => [0, 4, 5, 6, 7].contains next
  | 5 => next == 0 || next == 6
  | _ => next == 0
/-- Antenna a has a completed survey. -/
def State.hasSurvey (s : State) (a : Nat) : Bool := tget [] a s.rtc.keep.survey != []
/-- The X3 reference is present: Q4 is REF1PPS with VALID, and the 10 MHz is there (R179). -/
def State.refThere (s : State) : Bool := s.kind 4 == 8 && (s.qty 4).valid && s.modes.ref10
/-- The row of Table 4 that refuses a MODE_SET, if any: status and REASON. -/
def State.modeRefusal (s : State) (who : Nat) (ws : List Word) : Option (Status × Nat) :=
  let w := arg ws 0
  let mode := msMode ws
  let mask := msMask ws
  if mode = 0 ∨ 11 < mode ∨ !msNextOk mode (msNext ws) ∨ mask = 0 ∨ fld w 13 8 = 0 ∨ 60 < fld w 19 14 ∨ ws.length ≠ msLen ws ∨ msWordBad ws then some (.badParam, 1)
  else if mode = 7 ∧ mask &&& 12 ≠ 12 ∧ mask &&& 3 ≠ 3 then some (.badParam, 2)
  else if mode = 6 ∧ !bit (arg ws 1) 47 ∧ (maskAnts mask).any (fun a => !s.hasSurvey a) then some (.notPermitted, 3)
  else if mode = 9 ∧ !s.refThere then some (.notPermitted, 4)
  else if (s.part who).rights < 2 ∨ (mode = 11 ∧ (s.part who).rights ≠ 3) then some (.notPermitted, 5)
  else if s.modes.mode = 11 ∧ (s.pwr.selftest ≠ 0 ∨ s.pwr.fw.session ≠ 0) then some (.notPermitted, 6)
  else none
/-- MODE_SET (0x020, R162-R164). -/
def opModeSet : OpSpec :=
  { code := 0x020, why := 5
    eval := fun k s =>
      match s.modeRefusal k.partner k.ps with
      | some r => reason r.1 r.2
      | none =>
        let m := epochAfter s.tb.q0 10000 10
        { status := .accepted, words := [cyc (qOfMs m), frc (qOfMs m)], pins := [.work], promise := 1
          act := fun jsn s => s.onModes fun b => { b with waits := b.waits ++ [⟨jsn, k.partner, m, k.ps⟩] } } }
/-- MODE_SET. -/
def execModeSet (t : Lapse) (env : Env) (ps : List Word) (s : State) : Host.Outcome State Fault Refusal := runOp opModeSet t env ps s

/-! Ndovos's own jobs, channels and trains. -/

/-- Ndovos's jobs end (R166). -/
def State.dropOwnJobs (s : State) : State := (s.gale.jobs.filter fun j => j.who == 15).foldl (fun (s : State) j => s.endJob 1 j) s
/-- Ndovos releases its own channels and trains (R166). -/
def State.dropOwnChans (s : State) : State :=
  let s : State := ((s.kite.trains.filter fun e => e.2.owner == 7).map fun e => e.1).foldl (fun (s : State) t => s.breakTrain t) s
  s.freeChans ((s.kite.chans.filter fun e => e.2.owner == 7).map fun e => e.1)
/-- The words with which Ndovos assigns a channel of its own: a pilot with a companion runs ROVE_MODE DATA (R153). -/
def ownWords (ws : List Word) : List Word :=
  match sigOf (fld (arg ws 0) 37 32) with
  | some g => if g.pilot ∧ g.comp then fixField 10 8 2 ws else ws
  | none => ws
/-- One thing Ndovos asks of Kite (R108): a channel below PCH_BASE, its release, a train. -/
def State.doOwn (o : Own) (s : State) : State :=
  if !s.tracks then s
  else match o with
  | .chan ws =>
    let ws := ownWords ws
    let w := arg ws
    let n := fld (w 0) 47 38
    let c : Chan := { sig := fld (w 0) 37 32, prn := fld (w 0) 31 24, ant := fld (w 0) 23 22 }
    let tr := s.train (fld (w 0) 6 1)
    let join := bit (w 0) 7
    if s.kite.pchBase ≤ n ∨ 512 ≤ n ∨ !s.isOn 5 ∨ (sigOf c.sig).isNone ∨ !prnOk c.info c.prn ∨ (s.chan n).state ≠ 0 ∨ s.fc.front.testBit c.ant ∨
        profileBad (s.prof (fld (w 0) 21 17)) join ∨ (roveBad c.info (fld (w 0) 16 11) (fld (w 0) 10 8) (sfld (w 1) 47 36)).isSome ∨
        (join ∧ (tr.owner ≠ 7 ∨ tr.state ≠ 1 ∨ 16 ≤ tr.slots.length ∨ !sameSat c (s.chan (tr.slots.headD 0)))) then s
    else s.placeChan 7 n ws
  | .free n => if (s.chan n).owner = 7 then s.freeChan n else s
  | .train t comb sl =>
    if (s.formRefusal 7 (some t) sl []).isSome ∨ sl.length < 2 ∨ 16 < sl.length then s else s.placeTrain 7 t comb sl
  | .brk t => if (s.train t).owner = 7 then s.breakTrain t else s
/-- Everything Ndovos asks for at an event: its channels, then its searches (R160). -/
def State.doOwns (os : List Own) (s : State) : State := (os.foldl (fun (s : State) o => s.doOwn o) s).search

/-! Entering a mode. -/

/-- The CLOCK section as it stands (R474). -/
def State.clockKeep (s : State) : ClockKeep := ⟨s.rtc.trimNext.getD s.rtc.trim, s.tb.loopAdj, s.tb.drift⟩
/-- The CLOCK section is written, every 3,600 s (R475). -/
def State.keepClock (m : Nat) (s : State) : State :=
  let s := s.putRtc (s.rtc.write [4] fun k => { k with clock := some s.clockKeep })
  s.putModes { s.modes with clockMs := m }
/-- The kept data go to the backup store (R185, R475); it takes them only while mains-good or hold-up energy is present, that is while the module runs. -/
def State.keepData (s : State) : State :=
  let s := s.putRtc (s.rtc.write [4, 6, 7] fun k => { k with posvel := some s.modes.fixes, nav := some s.meas.kept, clock := some s.clockKeep })
  (s.putModes { s.modes with keptMs := msOf s.tb.q0 })
/-- D7 has lost its content: Ndovos's copy of the kept data is the backup store's (R185); a section with no valid copy is absent (R475). -/
def State.reloadData (s : State) : State :=
  let k := s.rtc.keep
  let s := s.putModes { s.modes with fixes := k.posvel.getD [] }
  let s := s.putMeas { s.meas with kept := k.nav.getD [] }
  match k.clock with | some c => s.putTb { s.tb with loopAdj := c.offset, drift := c.drift } | none => s
/-- A MODE_CHANGE record (R188, Table 10) of a change at a tick: queued on every stream, or held until the module is ready. -/
def State.modeRecord (at_ : Qval) (old cause jsn : Nat) (s : State) : State :=
  let ws := [pack [put 47 40 0x07],
    pack [put 47 44 s.modes.mode, put 43 40 old, put 39 36 s.modes.origin, put 35 32 cause, put 31 28 s.tb.tsrc],
    cyc at_, frc at_, word jsn, pack [put 47 16 s.tb.tqeNow]]
  if s.pwr.ready then [0, 1, 2, 3, 4].foldl (fun (s : State) p => s.record p false ws) s
  else s.onModes fun b => { b with records := b.records ++ [ws] }
/-- The records of changes made while the module was not ready (R188). -/
def State.modeReady (s : State) : State :=
  let rs := s.modes.records
  rs.foldl (fun (s : State) ws => [0, 1, 2, 3, 4].foldl (fun (s : State) p => s.record p false ws) s) (s.onModes fun b => { b with records := [] })
/-- The four words of a position, the reserved bits of the last ignored (R13, R162). -/
def positionWords (ws : List Word) : List Word := [arg ws 0, arg ws 1, arg ws 2, pack [put 47 24 (fld (arg ws 3) 47 24)]]
/-- The positions of a MODE_SET with PSRC 1, by antenna. -/
def givenPositions (ws : List Word) : Tab (List Word) :=
  (List.range (maskAnts (msMask ws)).length).foldl (fun (t : Tab (List Word)) i =>
    tput [] ((maskAnts (msMask ws)).getD i 0) (positionWords (ws.drop (2 + 4 * i))) t) []
/-- The positions that POSITION_HOLD holds (R176). -/
def State.heldOf (s : State) (ws : List Word) : Tab (List Word) :=
  if msMode ws ≠ 6 then []
  else if bit (arg ws 1) 47 then givenPositions ws
  else (maskAnts (msMask ws)).foldl (fun (t : Tab (List Word)) a => tput [] a (tget [] a s.rtc.keep.survey) t) []
/-- The selected mode goes to the backup store (R168). -/
def State.selectMode (ws : List Word) (who jsn : Nat) (s : State) : State :=
  s.putRtc (s.rtc.write [2] fun k => { k with mode := some ⟨ws, who, jsn⟩ })
/-- A mode is entered at a tick with the words of a MODE_SET (R161, R165, R166, R168, R184). Causes 0 to 2 make it the selected mode. An antenna excluded from timing stays so through a holdover (R176). -/
def State.enterMode (at_ : Qval) (new origin : Nat) (ws : List Word) (cause jsn who : Nat) (s : State) : State :=
  let old := s.modes.mode
  let s := if old = 10 then s.keepData else s
  let s := s.dropOwnJobs
  let s := if new = 1 ∨ new = 2 ∨ new = 11 then s.dropOwnChans else s
  let s := if steersTime new then s else s.endSteering
  let s := s.onModes fun b => { b with
    mode := new, origin := origin, cur := ws, phase := if new = 10 then 1 else 0, enter := at_, enterClk := s.tb.clk, held := s.heldOf ws
    steered := false, done := false, lack := none, present := none, secOk := true, surveyS := 0, sums := [], sigMean := 0
    bases := [], misses := 0, wakeAt := at_, misfit := [], excluded := if 3 ≤ cause ∧ cause ≤ 6 then b.excluded else 0
    jsn := if 3 ≤ cause ∧ cause ≤ 6 then b.jsn else jsn, who := who }
  let s := if cause < 3 then s.selectMode ws who (if cause = 0 then jsn else 0) else s
  s.modeRecord at_ old cause (if cause = 0 then jsn else 0)
/-- The words of a mode entered by SEARCH_DONE or SURVEY_DONE (R173, R175): word 0 carries over, the mode word is as for 0. -/
def nextWords (ws : List Word) (next : Nat) : List Word :=
  word ((arg ws 0).toNat % 2 ^ 40 + next * 2 ^ 44) ::
    (if next = 5 ∨ next = 6 ∨ next = 7 then [0] else [])
/-- A MODE_SET takes effect at a tick, or is abandoned (R164, R165). -/
def State.applyMode (at_ : Qval) (w : ModeWait) (s : State) : State :=
  let s := s.putJrn (s.jrn.unpin .work w.jsn)
  let s := s.onModes fun b => { b with waits := b.waits.filter fun x => x.jsn ≠ w.jsn }
  match s.modeRefusal w.who w.ws with
  | some r => s.raise w.who false 0x501 [word w.jsn, word r.2]
  | none =>
    let new := msMode w.ws
    if s.modes.mode = 8 ∧ s.modes.origin ≠ 0 ∧ (new = 4 ∨ new = 6 ∨ new = 7 ∨ new = 9 ∨ new = 8) then
      let s := s.onModes fun b => { b with
        origin := if new = 8 then 0 else new, cur := w.ws, held := s.heldOf w.ws, present := none, misfit := [], excluded := 0, jsn := w.jsn, who := w.who }
      (s.selectMode w.ws w.who w.jsn).modeRecord at_ 8 0 w.jsn
    else s.enterMode at_ new 0 w.ws 0 w.jsn w.who
/-- A whole millisecond that is a multiple of 10 ms: at the first event in it the MODE_SETs that have fallen due are applied in JSN order (R164). While D1 is in an outage none reaches the mode machine. -/
def State.modeTick (m : Nat) (s : State) : State :=
  if m % 10 = 0 ∧ s.modes.lastMs ≠ m ∧ s.isOn 11 ∧ s.modes.mode ≠ 0 ∧ s.pwr.ready then
    let due := (s.modes.waits.filter fun w => decide (w.tick ≤ m)).mergeSort fun a b => decide (a.jsn ≤ b.jsn)
    due.foldl (fun (s : State) w => s.applyMode (qOfMs m) w) (s.onModes fun b => { b with lastMs := m })
  else s
/-- MODE_TICK (R164): due MODE_SETs, then what the mode in force has Ndovos do. -/
def execModeTick (t : Lapse) (own : List Own) (s : State) : Host.Outcome State Fault Refusal :=
  let s := s.elapse t
  let m := msOf s.tb.q0
  if m % 10 = 0 ∧ s.isOn 11 ∧ s.modes.mode ≠ 0 then .next ((s.modeTick m).doOwns own) else .next s
/-- The mode machine restarts: BRINGUP, which steers nothing (R161, R168); the records of changes in an outage that this restart falls in are lost (R188). -/
def State.modeDown (s : State) : State :=
  (s.endSteering).onModes fun b => { b with mode := 0, origin := 0, cur := [], phase := 0, lack := none, present := none, bases := [], records := [] }
/-- MODE_SETs whose tick has passed wait for the first one at least 10 ms after this moment (R164). -/
def State.newTicks (s : State) : State :=
  let now := msOf s.tb.q0
  let tick := epochAfter s.tb.q0 10000 10
  s.onModes fun b => { b with waits := b.waits.map fun w => if now < w.tick then w else { w with tick := tick } }
/-- The mode machine leaves BRINGUP for the restart mode, the selected mode or IDLE (R168). -/
def State.modeRestart (s : State) : State :=
  let now := s.tb.q0
  let s := match s.rtc.keep.mode with
    | some k =>
      let m := msMode k.ws
      if m = 0 ∨ m = 8 ∨ m = 11 then s.enterMode now 1 0 [] 7 0 15 else s.enterMode now m 0 k.ws 7 k.jsn k.who
    | none => s.enterMode now 1 0 [] 7 0 15
  s.newTicks

/-! The snapshot cycle (R184-R186). -/

/-- SLEEP begins: the kept data are written, Ndovos lets its channels and jobs go, and holdover begins with what offset remains. -/
def State.sleep (s : State) : State :=
  let s := s.keepData
  let s := s.dropOwnJobs.dropOwnChans
  let r := s.tb.residNow.natAbs
  let q := s.tb.tqeNow
  let s := if s.tb.tsrc = 1 ∨ s.tb.tsrc = 3 ∨ s.tb.tsrc = 4 then
      let s := s.endSteering
      s.putTb { s.tb with e0 := satN 32 (sqrtOpen (q * q + r * r)) }
    else s
  s.onModes fun b => { b with phase := 0 }
/-- SNAPSHOT_WAKE (R184): a Q0 second that is a multiple of PERIOD_S; hot reacquisition begins (R103). -/
def execSnapshotWake (t : Lapse) (own : List Own) (s : State) : Host.Outcome State Fault Refusal :=
  let s := s.elapse t
  let per := fld (arg s.modes.cur 1) 47 30
  if s.modes.mode = 10 ∧ s.modes.phase = 0 ∧ atSecond s.tb ∧ (cyc s.tb.q0).toNat % max 1 per = 0 then
    let s := s.onModes fun b => { b with phase := 1, wakeAt := s.tb.q0 }
    .next (s.doOwns own)
  else if s.modes.mode = 10 ∧ s.modes.phase = 1 then .next (s.doOwns own)
  else .next s
/-- Fewer than six satellites of the visible set at the next wake will hold a valid ephemeris (R185). -/
def State.fewEphemerides (s : State) : Bool :=
  let u := max 1 (fld (arg s.modes.cur 1) 47 30) * 2 ^ 48
  let next : Qval := BitVec.ofNat 96 ((s.tb.q0.toNat / u + 1) * u)
  let sats := (s.meas.kept.map fun x => x.2.1).eraseDups
  decide ((sats.filter fun n => (maskAnts (msMask s.modes.cur)).any fun a =>
    match s.lookAt n a next with | some l => decide (-5 < l.elev) && l.valid && !l.almanac | none => false).length < 6)
/-- FIX_END (R184, R185): FIX_MS after the first solution; with few valid ephemerides the window goes on, up to MAXAWAKE_S. -/
def execFixEnd (t : Lapse) (s : State) : Host.Outcome State Fault Refusal :=
  let s := s.elapse t
  let w := arg s.modes.cur 1
  let up := decide (usUnits (1000 * fld w 29 16) ≤ qdist s.tb.q0 s.modes.fixAt)
  let long := decide ((fld w 15 8 : Int) * 2 ^ 48 ≤ qdist s.tb.q0 s.modes.wakeAt)
  if s.modes.mode = 10 ∧ s.modes.phase = 2 ∧ up ∧ (!s.fewEphemerides ∨ long) then
    .next (s.sleep.onModes fun b => { b with misses := 0 })
  else .next s
/-- SNAPSHOT_MISS (R186): no sufficient set within MAXAWAKE_S. -/
def execSnapshotMiss (t : Lapse) (s : State) : Host.Outcome State Fault Refusal :=
  let s := s.elapse t
  let w := arg s.modes.cur 1
  if s.modes.mode = 10 ∧ s.modes.phase = 1 ∧ (fld w 15 8 : Int) * 2 ^ 48 ≤ qdist s.tb.q0 s.modes.wakeAt then
    let s := s.sleep.onModes fun b => { b with misses := b.misses + 1 }
    .next (s.raiseAll false 0x503 [word s.modes.misses])
  else .next s

/-! MODE_GET (R167, R182). -/

/-- Bit 3 − a for every antenna with a survey. -/
def State.surveyedMask (s : State) : Nat := (maskAnts 15).foldl (fun n a => if s.hasSurvey a then n + 2 ^ (3 - a) else n) 0
/-- ELAPSED_S (Table 5). -/
def State.elapsedS (s : State) : Nat :=
  satN 24 (match s.modes.mode with
    | 5 => s.modes.surveyS
    | 8 => s.tb.holdSeconds
    | 10 =>
      let p := fld (arg s.modes.cur 1) 47 30 * 2 ^ 48
      (p - s.tb.q0.toNat % max 1 p) / 2 ^ 48
    | _ => (s.tb.clk - s.modes.enterClk) / 654720000)
/-- PHASE (Table 5). -/
def State.modePhase (s : State) : Nat :=
  if s.modes.mode = 8 then (if s.modes.present.isSome then 1 else 0) else s.modes.phase
/-- The six state words of Table 5. -/
def State.modeWords (s : State) : List Word :=
  let b := s.modes
  [pack [put 47 44 b.mode, put 43 40 b.origin, put 39 36 s.tb.tsrc, put 35 33 s.modePhase, put 32 25 (satN 8 b.nsv), put 24 21 (msMask b.cur),
      put 20 19 b.refAnt, put 18 15 s.surveyedMask],
    cyc b.enter, frc b.enter, pack [put 47 24 s.elapsedS, put 23 0 (if b.mode = 5 then satN 24 b.sigMean else 0)],
    pack [put 47 16 s.tb.tqeNow], word b.jsn]
/-- MODE_GET (0x021). -/
def opModeGet : OpSpec :=
  { code := 0x021, rights := 1, compact := true, reads := true
    eval := fun k s =>
      let sel := fld (arg k.ps 0) 47 46
      if k.ps.length ≠ 1 ∨ sel = 3 then badParam 0
      else
        let pos := if s.modes.mode = 6 then s.modes.held else s.rtc.keep.survey
        { status := .done
          words := match sel with
            | 0 => s.modeWords
            | 1 => [0, 1, 2, 3].flatMap fun a => padTo 4 (tget [] a pos)
            | _ => [pack [put 47 32 (satN 16 (s.tb.discH / 36000)), put 31 0 s.tb.drift], pack [put 47 16 (satN 32 s.tb.e0)], pack [put 47 16 (satN 32 s.tb.f0)]] } }
/-- MODE_GET. -/
def execModeGet (t : Lapse) (env : Env) (ps : List Word) (s : State) : Host.Outcome State Fault Refusal := runOp opModeGet t env ps s

/-! Aiding with position and orbits (R307, R308). -/

/-- AID_POSITION (0x031, R307). -/
def opAidPosition : OpSpec :=
  { code := 0x031, modes := 0x7FE
    eval := fun k _ =>
      let w := arg k.ps
      let x := (w 1).toInt
      let y := (w 2).toInt
      let z := (w 3).toInt
      let r2 := x * x + y * y + z * z
      let mask := fld (w 0) 47 44
      let sigma := fld (w 4) 47 24
      if k.ps.length ≠ 5 ∨ mask = 0 ∨ sigma = 0 ∨ r2 < 6000000000 ^ 2 ∨ 7000000000 ^ 2 < r2 then badParam 0
      else doneWith [] fun _ s => s.onModes fun b =>
        { b with aidPos := (maskAnts mask).foldl (fun (t : Tab (Option (Int × Int × Int × Nat))) a => tput none a (some (x, y, z, sigma)) t) b.aidPos } }
/-- AID_POSITION. -/
def execAidPosition (t : Lapse) (env : Env) (ps : List Word) (s : State) : Host.Outcome State Fault Refusal := runOp opAidPosition t env ps s
/-- PRN is valid for a message type (Table 5). -/
def msgPrnOk (mt prn : Nat) : Bool :=
  match msgType mt with
  | none => false
  | some r => r.1.any fun n => match sigOf n with
    | some g => prnOk g prn && (mt != 0x10 || !isD2 g prn) && (mt != 0x11 || isD2 g prn)
    | none => false
/-- The satellite of a message type's PRN. -/
def msgSat (mt prn : Nat) : Nat :=
  match msgType mt with
  | some r => (match r.1.filterMap (fun n => match sigOf n with | some g => if prnOk g prn then some g.sys else none | none => none) with | x :: _ => x * 256 + prn | [] => prn)
  | none => prn
/-- AID_ORBIT (0x032, R308). Ndovos uses the message as if it had decoded it, but for UTC and leap-second data. -/
def opAidOrbit : OpSpec :=
  { code := 0x032, modes := 0x7FE
    eval := fun k _ =>
      let w := arg k.ps 0
      let mt := fld w 47 42
      let prn := fld w 41 34
      let nb := fld w 33 24
      let check := Config.orbitCheck k.ps
      let same : Bool := match msgType mt with | some r => r.2.1 == nb | none => false
      if !same ∨ !msgPrnOk mt prn ∨ k.ps.length ≠ 1 + (nb + 47) / 48 then badParam 1
      else if 2 ≤ check then badParam 2
      else doneWith [pack [put 47 46 check]] fun _ s => s.keepMessage mt (msgSat mt prn) (bitWords nb (k.ps.drop 1)) }
/-- AID_ORBIT. -/
def execAidOrbit (t : Lapse) (env : Env) (ps : List Word) (s : State) : Host.Outcome State Fault Refusal := runOp opAidOrbit t env ps s

end Sys2Proof.Machine
end

