-- ==== Sys2Proof/Machine/Solve.lean ====
section
/-! DEFINITION. Solutions (R169-R172), steering and its removal of offsets (R174, R179, R180, R183, R211, R212), survey (R175), held positions (R176), headings (R177, R178), holdover entry and return (R180-R183). -/
namespace Sys2Proof.Machine
open Sys2Proof

/-- SOL_CONFIG (0x062, R171). -/
def opSolConfig : OpSpec :=
  { code := 0x062, rights := 1
    eval := fun k s =>
      let w := arg k.ps 0
      if k.ps.length ≠ 1 ∨ fld w 45 30 = 0 ∨ fld w 29 22 = 0 then badParam 0
      else
        { status := .done, pins := [.config 0x062 k.partner]
          act := fun _ s' =>
            let c := s'.mcfg k.partner
            let m := epochAfter s.tb.q0 20000 (100 * fld w 45 30)
            s'.setMcfg k.partner { c with solNext := (c.solNext.filter fun e => decide (e.1 < m)) ++ [(m, k.ps)] } } }
/-- SOL_CONFIG. -/
def execSolConfig (t : Lapse) (env : Env) (ps : List Word) (s : State) : Host.Outcome State Fault Refusal := runOp opSolConfig t env ps s
/-- The SOL_CONFIG of a partner in force at a millisecond. -/
def State.solAt (p m : Nat) (s : State) : State :=
  let c := s.mcfg p
  let due := dueCfg (fun m0 => decide (m0 ≤ m)) c.sol c.solNext
  s.setMcfg p { c with sol := due.1, solNext := due.2 }
/-- The solution period, ms. -/
def State.solMs (s : State) : Nat := if s.oneCore then 1000 else 100

/-! The usable set (R169). -/

/-- The reference antenna (R169): the lowest of ANT_MASK whose front-end works. -/
def State.refAntenna (s : State) : Nat := ((maskAnts (msMask s.modes.cur)).find? fun a => !s.fc.front.testBit a).getD 0
/-- A pseudorange in m. -/
def Chan.prM (c : Chan) : Rat := (c.obs.pr : Rat) / 2 ^ 16
/-- A full pseudorange of an epoch, of a system and an antenna that the mode ranges with; an antenna excluded from timing gives none (R176). -/
def State.ranging (s : State) (m : Nat) (c : Chan) : Bool :=
  c.state != 0 && c.prValid && c.obs.ambMs == 0 && (match c.obs.tx with | some x => x.1 == m | none => false) &&
  bit (arg s.modes.cur 0) (13 - c.info.sys) && (maskAnts (msMask s.modes.cur)).contains c.ant && !(s.solving == 6 && s.modes.excluded.testBit c.ant)
/-- A channel's range without corrections. -/
def State.rawRange (s : State) (c : Chan) : Config.SatRange :=
  { sat := c.sat, sys := c.info.sys, ant := c.ant, dual := false, clkq := c.shot.clkq, range := c.prM
    dop := if c.dopValid then some c.doppler else none, cn0 := c.shot.cn0, msgs := s.msgsOf c.sat }
/-- The channels that range at an epoch. -/
def State.rangers (s : State) (m : Nat) : List Chan := (s.kite.chans.map fun e => e.2).filter fun c => s.ranging m c
/-- Where an antenna stands for the elevation mask and the corrections: where it is known to be, else where the ranges themselves put it. -/
def State.standPos (s : State) (m a : Nat) : Int × Int × Int :=
  match s.antPos a with | some p => p.1 | none => Config.roughPoint ((s.rangers m).map fun c => s.rawRange c)
/-- A satellite's ephemeris is valid, healthy and from checked messages, and it stands at or above ELEV_MASK at the antenna. -/
def State.seen (s : State) (m : Nat) (c : Chan) : Option Config.Look :=
  match c.obs.tx, Config.look (s.msgsOf c.sat) (match c.obs.tx with | some x => x.2 | none => 0) (s.standPos m c.ant) with
  | some _, some l => if !l.almanac && l.valid && l.healthy && decide ((fld (arg s.modes.cur 0) 19 14 : Rat) ≤ l.elev) then some l else none
  | _, _ => none
/-- The dual-frequency combination of two pseudoranges, m. -/
def ionoFree (f1 p1 f2 p2 : Rat) : Rat := (f1 * f1 * p1 - f2 * f2 * p2) / (f1 * f1 - f2 * f2)
/-- One satellite's range at an antenna with the corrections of R170: the combination where it is tracked on two bands, else the broadcast model of its system, the GPS model for GLONASS. -/
def State.satRange (s : State) (m : Nat) (cs : List Chan) : Option Config.SatRange :=
  match cs with
  | [] => none
  | c :: more =>
    match s.seen m c with
    | none => none
    | some l =>
      let p := s.standPos m c.ant
      let tx : Rat := match c.obs.tx with | some x => x.2 | none => 0
      let fixed := Config.satClock (s.msgsOf c.sat) tx - Config.tropoDelay l p
      let r := s.rawRange c
      match more.find? fun d => d.info.band != c.info.band with
      | some d => some { r with dual := true, clkq := c.shot.clkq || d.shot.clkq, range := ionoFree c.freq c.prM d.freq d.prM + fixed }
      | none => some { r with range := c.prM - Config.ionoDelay (if c.info.sys = 3 then 0 else c.info.sys) s.meas.kept c.freq l p + fixed }
/-- The corrected ranges of an epoch, one per satellite and antenna. -/
def State.ranges (s : State) (m : Nat) : List Config.SatRange :=
  let cs := s.rangers m
  ((cs.map fun c => (c.ant, c.sat)).eraseDups).filterMap fun k => s.satRange m (cs.filter fun c => c.ant == k.1 && c.sat == k.2)

/-! Solutions (R170). -/

/-- The result of an epoch: whether the set is sufficient, satellites and systems used, FIX, RAIM and CLKQ of Table 6, and what the solver found. -/
structure Solved where
  sufficient : Bool
  nsv  : Nat
  sysUsed : Nat
  fix  : Nat
  raim : Nat
  clkq : Bool
  f    : Config.Fix
  deriving DecidableEq, Repr
/-- The satellites of a set; one counts once, however many channels carry it. -/
def satsOf (rs : List Config.SatRange) : List Nat := (rs.map fun r => r.sat).eraseDups
/-- The systems that contribute. -/
def sysOf (rs : List Config.SatRange) : List Nat := (rs.map fun r => r.sys).eraseDups
/-- A sufficient set (R169): 3 + k satellites, or k against held positions; a set of none is not (Table 8 of R183). -/
def sufficient (hold : Bool) (rs : List Config.SatRange) : Bool :=
  rs != [] && decide ((if hold then 0 else 3) + (sysOf rs).length ≤ (satsOf rs).length)
/-- One solution: with six or more satellites the residual test may exclude one (R170). -/
def solveSet (hold : Bool) (ref : Nat) (held : List (Nat × (Int × Int × Int) × Nat)) (rs : List Config.SatRange) : Solved :=
  let test := if 6 ≤ (satsOf rs).length then some (Config.residualTest rs) else none
  let rs := match test with | some (.without x) => rs.filter fun r => r.sat != x | _ => rs
  let ok := sufficient hold rs
  { sufficient := ok, nsv := if ok then (satsOf rs).length else 0
    sysUsed := if ok then (sysOf rs).foldl (fun n y => n + 2 ^ (5 - y)) 0 else 0
    fix := if !ok then 0 else if hold then 1 else if rs.all fun r => r.dual then 3 else 2
    raim := match test with | none => 0 | some .passed => 1 | some (.without _) => 2 | some .failed => 3
    clkq := rs.any fun r => r.clkq, f := Config.solve ref rs held }
/-- The held positions, by antenna of ANT_MASK (R176). -/
def State.heldList (s : State) : List (Nat × (Int × Int × Int) × Nat) :=
  if s.solving ≠ 6 then []
  else (maskAnts (msMask s.modes.cur)).filterMap fun a => match tget [] a s.modes.held with | [] => none | ws => some (a, wordsPos ws, fld (arg ws 3) 47 24)
/-- The solution of an epoch in the mode in force: of the reference antenna, or of time against the held positions. -/
def State.solveAll (s : State) (m : Nat) : Solved := solveSet (s.solving == 6) s.refAntenna s.heldList (s.ranges m)
/-- An antenna's own solution. -/
def State.solveAnt (s : State) (m a : Nat) : Solved := solveSet false a [] ((s.ranges m).filter fun r => r.ant == a)
/-- Where each antenna was found; one found needs no AID_POSITION any longer (R185, R307). -/
def State.takeFixes (m : Nat) (s : State) : State :=
  if s.solving = 6 then s
  else (maskAnts (msMask s.modes.cur)).foldl (fun (s : State) a =>
    let x := s.solveAnt m a
    if x.sufficient then s.onModes fun b => { b with fixes := tput none a (some ⟨x.f.pos, x.f.vel, x.f.sigma, x.f.sigV⟩) b.fixes, aidPos := tput none a none b.aidPos } else s) s

/-! SOL records. -/

/-- The twelve words of a SOL record (Table 6). -/
def State.solWords (s : State) (te : Qval) (x : Solved) (changed : Bool) : List Word :=
  let hold := s.solving == 6
  let h := tget [] s.modes.refAnt s.modes.held
  let pos := if hold then [arg h 0, arg h 1, arg h 2] else [sword x.f.pos.1, sword x.f.pos.2.1, sword x.f.pos.2.2]
  [cyc te, frc te,
    pack [put 47 44 s.modes.mode, put 43 42 x.fix, put 41 40 s.modes.refAnt, put 39 32 x.nsv, put 31 26 x.sysUsed, put 25 14 (satN 12 x.f.pdop), put 13 12 x.raim,
      putB 11 x.clkq, putB 10 changed]] ++ pos ++
  [pack [putS 47 24 x.f.vel.1, putS 23 0 x.f.vel.2.1], pack [putS 47 24 x.f.vel.2.2],
    pack [put 47 32 (satN 16 x.f.sigNeu.1), put 31 16 (satN 16 x.f.sigNeu.2.1), put 15 0 (satN 16 x.f.sigNeu.2.2)],
    pack [put 47 32 (satN 16 x.f.sigV), putS 31 0 (sat 32 x.f.offset)], pack [put 47 16 s.tb.tqeNow, put 15 12 s.tb.tsrc], pack [putS 47 16 (sat 32 x.f.fofs)]]
/-- SOL records of an epoch (R171, R172). -/
def State.solRecords (m : Nat) (x : Solved) (changed : Bool) (s : State) : State :=
  [0, 1, 2, 3, 4].foldl (fun (s : State) p =>
    let s := s.solAt p m
    let w := arg (s.mcfg p).sol 0
    let ws := [pack [put 47 40 0x01], pack [put 47 40 0x02]] ++ s.solWords (qOfMs m) x changed
    if bit w 47 ∧ m % (100 * max 1 (fld w 45 30)) = 0 ∧ s.pwr.ready ∧ s.mayForm p true ws.length then s.recordCounted p true ws else s) s

/-! Steering. -/

/-- TQF as C1 sets it: at least 2 × 10^-6 until the OCXO has been warm once (R210). -/
def State.tqfOf (s : State) (sigF : Nat) : Nat := satN 32 (if s.clk.warmed then sigF else max 2000000000 sigF)
/-- An offset is removed under TSRC RECOVERY (R183, R200); one below 1 ns leaves RECOVERY at once. -/
def State.recover (e : Int) (cause after sigma : Nat) (s : State) : State :=
  let s := s.setTsrc 4
  let s := s.putTb { s.tb with tqe := sigma }
  let s := s.removeOffset e cause after (some sigma)
  if s.tb.slew.isNone ∧ s.tb.plan.isNone ∧ s.tb.step.isNone then s.setTsrc after else s
/-- The first time found while TSRC is NONE: the step of R33, from the latest find (R202). -/
def State.firstTime (e : Int) (after sigma : Nat) (s : State) : State :=
  if s.tb.step.isSome then s else s.putTb { s.tb with plan := some ⟨0, e, after, some sigma⟩ }
/-- In RECOVERY each epoch measures the remaining offset anew: a slew goes on from it, a step not yet announced is taken from it (R200, R202). -/
def State.remeasure (e : Int) (sigma sigF : Nat) (s : State) : State :=
  let tb := { s.tb with tqe := sigma, tqf := s.tqfOf sigF }
  s.putTb (if tb.step.isSome then tb
    else match tb.plan with
      | some p => { tb with plan := some { p with e := e, tqe := some sigma }, resid := e }
      | none => { tb with slew := tb.slew.map fun x => (e, tb.clk, x.2.2), resid := e })
/-- The time constant of the loop in s (R212). -/
def State.loopSeconds (s : State) : Nat := match s.modes.mode with | 6 => 1000 | 9 => 300 | _ => 100
/-- What an epoch of steering adds to the record of the disciplining: the time steered and, from 48 h on, the drift learned from it (R182). -/
def State.learn (s : State) : State :=
  let h := s.tb.discH + s.solMs / 100
  let base := if h < 1728000 then 2000 else max 100 (Config.learnedDrift s.fresh)
  (s.putFresh (s.fresh + 1)).putTb { s.tb with discH := h, driftBase := base, drift := base + 300 * Config.driftDegrees s.fresh }
/-- What a truth says of Tether time: Tether minus truth in ps, its 1σ, the frequency error and its 1σ (10^-15). -/
structure Truth where
  e    : Int
  sigma : Nat
  fofs : Int
  sigF : Nat
  deriving DecidableEq, Repr
/-- One epoch of steering to a truth (R174, R179, R183, R212): `first` is what GNSS says, which labels the seconds while TSRC is NONE; `after` the TSRC it leads to, `cause` that of a step. -/
def State.steer (x first : Truth) (after cause : Nat) (s : State) : State :=
  if s.tb.tsrc = 0 then s.firstTime first.e after first.sigma
  else if s.tb.tsrc = after ∧ !(s.modes.cable && after == 1) then
    let lim : Int := 2 ^ 60 / 10 ^ 11
    let d := max (-lim) (min lim (Config.loopAdj s.loopSeconds s.tb.loopAdj x.e x.fofs - s.tb.loopAdj))
    State.learn (s.putTb { s.tb with loopAdj := s.tb.loopAdj + d, tqe := x.sigma, tqf := s.tqfOf x.sigF })
  else if s.tb.tsrc = 4 then State.learn (s.remeasure x.e x.sigma x.sigF)
  else s.recover x.e (if s.tb.tsrc = 5 then 5 else if s.tb.tsrc = after then 3 else cause) after x.sigma
/-- The holdover model while TSRC reads HOLDOVER (R182, R212): the ageing and temperature terms of FADJ, and the drift, which rises with the temperature; TQE does not fall with a new drift. -/
def State.holdModel (s : State) : State :=
  if s.tb.tsrc ≠ 2 then s
  else (s.putFresh (s.fresh + 1)).putTb { s.tb with
    holdAdj := Config.holdAdj s.fresh, tqeFloor := s.tb.tqeNow, drift := max s.tb.drift (s.tb.driftBase + 300 * Config.driftDegrees s.fresh) }
/-- What the Q4 pulses say (R179): the latest pulse, brought back by REF_DLY, against the nearest Tether second, ps. -/
def State.refOffset (s : State) : Int :=
  let q := qadd (s.qty 4).tu (-unitsOfPs (sfld (arg s.modes.cur 1) 47 16))
  let f : Int := (frc q).toNat
  psOfUnits (if f < 2 ^ 47 then f else f - 2 ^ 48)
/-- The truth that GNSS gives. -/
def Solved.truth (x : Solved) : Truth := ⟨x.f.offset, satN 32 x.f.sigT, x.f.fofs, x.f.sigF⟩
/-- The truth that X3 gives: TQE is √(REF_SIGMA² + σ_m²) (R179). -/
def State.refTruth (r : SolveIn) (s : State) : Truth :=
  let sg := fld (arg s.modes.cur 1) 15 0 * 1000
  ⟨s.refOffset, satN 32 (sqrtOpen (sg * sg + r.refNoise * r.refNoise)), r.refFofs, r.refTqf⟩
/-- What steers is there at this epoch: the reference in REFERENCE_FOLLOW, a sufficient set otherwise. -/
def State.steerable (s : State) (x : Solved) : Bool := if s.solving = 9 then s.refThere else x.sufficient
/-- One epoch in a mode that steers (R174, R179, R180, R184). -/
def State.steerEpoch (x : Solved) (r : SolveIn) (s : State) : State :=
  let mode := s.modes.mode
  if s.steerable x then
    let s := if mode = 10 ∧ s.modes.phase = 1 then s.onModes fun b => { b with phase := 2, fixAt := s.tb.q0 } else s
    let cause := if mode = 10 then 4 else if mode = 9 ∧ !s.modes.steered then 2 else 1
    let s := if mode = 9 then (if s.tb.tsrc = 0 ∧ !x.sufficient then s else s.steer (s.refTruth r) x.truth 3 cause)
      else s.steer x.truth x.truth 1 cause
    s.onModes fun b => { b with lack := none, cable := false, steered := b.steered || s.tb.tsrc == 1 || s.tb.tsrc == 3 || s.tb.tsrc == 4 }
  else
    let s := s.endSteering
    s.onModes fun b => { b with lack := some (b.lack.getD s.tb.q0) }

/-! Survey, held positions, search. -/

/-- One epoch of a survey (R175): each antenna's own solution; a second counts when all of its solutions do. -/
def State.surveyEpoch (m : Nat) (s : State) : State :=
  let b := s.modes
  let as := (maskAnts (msMask b.cur)).map fun a => (a, s.solveAnt m a)
  let ok := as.all fun y => decide (2 ≤ y.2.fix) && y.2.raim != 3
  let sums := if ok then
      as.foldl (fun (t : Tab (Nat × Int × Int × Int)) y =>
        let o := tget (0, 0, 0, 0) y.1 t
        tput (0, 0, 0, 0) y.1 (o.1 + 1, o.2.1 + y.2.f.pos.1, o.2.2.1 + y.2.f.pos.2.1, o.2.2.2 + y.2.f.pos.2.2) t) b.sums
    else b.sums
  let sigs := as.map fun y => (y.1, Config.meanSigma (tget (0, 0, 0, 0) y.1 sums).1 y.2.f.sigma)
  let whole := m % 1000 = 0
  let secs := if whole ∧ ok ∧ b.secOk ∧ msUp b.enter + 1000 ≤ m then b.surveyS + 1 else b.surveyS
  let w := arg b.cur 1
  let met := ok && decide (fld w 47 24 ≤ secs) && sigs.all fun y => decide (y.2 ≤ fld w 23 0)
  let s := s.onModes fun b => { b with
    secOk := if whole then true else b.secOk && ok, sums := sums, surveyS := secs
    sigMean := if ok then sigs.foldl (fun n y => max n y.2) 0 else b.sigMean, done := b.done || met, phase := if b.done || met then 2 else if ok then 0 else 1 }
  if !met then s
  else
    let mean := fun (n v : Int) => sword (rndOpen ((v : Rat) / max 1 n))
    let sv := sigs.foldl (fun (t : Tab (List Word)) y =>
      let o := tget (0, 0, 0, 0) y.1 sums
      tput [] y.1 [mean o.1 o.2.1, mean o.1 o.2.2.1, mean o.1 o.2.2.2, pack [put 47 24 (satN 24 y.2)]] t) s.rtc.keep.survey
    let s := s.putRtc (s.rtc.write [3] fun k => { k with survey := sv })
    if msNext b.cur = 6 then s.enterMode (qOfMs m) 6 0 (nextWords b.cur 6) 2 0 b.who else s
/-- Since when each antenna's residuals have been too large (R176). -/
def State.watchHeld (m : Nat) (s : State) : State :=
  s.heldList.foldl (fun (s : State) h =>
    let bad := Config.misfit ((s.ranges m).filter fun r => r.ant == h.1) h.2.1 h.2.2
    s.onModes fun b => { b with misfit := tput none h.1 (if bad then some ((tget none h.1 b.misfit).getD s.tb.q0) else none) b.misfit }) s
/-- A search that has found a sufficient set (R173): once, to NEXT. -/
def State.searchDone (m : Nat) (s : State) : State :=
  let b := s.modes
  let s := s.onModes fun b => { b with done := true }
  let next := msNext b.cur
  if next = 0 ∨ b.done then s
  else if next = 6 ∧ (maskAnts (msMask b.cur)).any (fun a => !s.hasSurvey a) then
    if b.who < 5 then s.raise b.who false 0x501 [word b.jsn, word 3] else s
  else s.enterMode (qOfMs m) next 0 (nextWords b.cur next) 1 0 b.who
/-- An epoch of a mode that forms solutions (Table 1). -/
def State.solveEpoch (m : Nat) (r : SolveIn) (s : State) : State :=
  let x := s.solveAll m
  let ra := s.refAntenna
  let changed := s.modes.refAnt != ra
  let mode := s.modes.mode
  let s := State.takeFixes m (s.onModes fun b => { b with refAnt := ra, nsv := x.nsv, fofs := x.f.fofs })
  let s := if s.steerable x then
      let t := if s.solving = 9 then s.refTruth r else x.truth
      s.onModes fun b => { b with offset := t.e, sigma := t.sigma }
    else s
  let s := if mode = 8 then
      s.onModes fun b => { b with present := if b.origin ≠ 0 ∧ s.steerable x then some (b.present.getD s.tb.q0) else none }
    else s.steerEpoch x r
  let s := s.solRecords m x changed
  let s := if x.sufficient ∧ s.modes.keptMs + 600000 ≤ m then s.keepData else s
  if mode = 5 then s.surveyEpoch m else if mode = 6 then s.watchHeld m else s
/-- SOLUTION_EPOCH (R170): every 100 ms of Tether time, after the MODE_SETs of its tick; steering, SOL records, survey, search, the holdover model. -/
def execSolutionEpoch (t : Lapse) (x : SolveIn) (own : List Own) (s : State) : Host.Outcome State Fault Refusal :=
  let s := s.elapse t
  let m := msOf s.tb.q0
  if m % s.solMs = 0 ∧ s.modes.lastSol ≠ m ∧ s.ndovos ∧ s.isOn 11 then
    let s := (s.modeTick m).onModes fun b => { b with lastSol := m, ref10 := x.ref10 }
    let mode := s.modes.mode
    let s := if mode = 2 ∨ mode = 3 then (if (s.solveAll m).sufficient then s.searchDone m else s)
      else if [4, 5, 6, 7, 8, 9, 10].contains mode ∧ !(mode == 10 && s.modes.phase == 0) then s.solveEpoch m x
      else s
    let s := if s.modes.clockMs + 3600000 ≤ m then s.keepClock m else s
    .next (s.holdModel.doOwns own)
  else .next s
/-- SIGNAL_LOSS (R180): the lack has persisted for HO_DELAY in a mode that has steered; judged at a tick, after the MODE_SETs of it (R164). -/
def execSignalLoss (t : Lapse) (s : State) : Host.Outcome State Fault Refusal :=
  let s := s.elapse t
  let m := msOf s.tb.q0
  if m % 10 ≠ 0 then .next s
  else
    let s := s.modeTick m
    let b := s.modes
    match b.lack with
    | some q =>
      if (b.mode = 4 ∨ b.mode = 6 ∨ b.mode = 7 ∨ b.mode = 9) ∧ b.steered ∧ msHoDelay b.cur ≤ qdist s.tb.q0 q then
        .next (s.enterMode (qOfMs m) 8 b.mode b.cur (if b.mode = 9 then 5 else 3) 0 b.who)
      else .next s
    | none => .next s
/-- SIGNAL_RETURN (R183): the set or the reference has been present for RET_DELAY; the offset found is removed. -/
def execSignalReturn (t : Lapse) (s : State) : Host.Outcome State Fault Refusal :=
  let s := s.elapse t
  let m := msOf s.tb.q0
  if m % 10 ≠ 0 then .next s
  else
    let s := s.modeTick m
    let b := s.modes
    match b.present with
    | some q =>
      if b.mode = 8 ∧ b.origin ≠ 0 ∧ msRetDelay b.cur ≤ qdist s.tb.q0 q then
        let after := if b.origin = 9 then 3 else 1
        let s := if s.tb.tsrc = 2 then s.recover b.offset 1 after b.sigma else if s.tb.tsrc = 0 then s.firstTime b.offset after b.sigma else s
        .next ((s.enterMode (qOfMs m) b.origin 0 b.cur (if b.origin = 9 then 6 else 4) 0 b.who).onModes fun b => { b with steered := true })
      else .next s
    | none => .next s
/-- HOLD_MISMATCH (R176): residuals of an antenna above limit for 60 s. -/
def execHoldMismatch (t : Lapse) (a : Nat) (s : State) : Host.Outcome State Fault Refusal :=
  let s := s.elapse t
  let up : Bool := match tget none a s.modes.misfit with | some q => decide (60 * 2 ^ 48 ≤ qdist s.tb.q0 q) | none => false
  if s.modes.mode = 6 ∧ (maskAnts (msMask s.modes.cur)).contains a ∧ up ∧ !s.modes.excluded.testBit a then
    .next ((s.onModes fun b => { b with excluded := setBit b.excluded a }).raiseAll false 0x502 [word a])
  else .next s

/-! Headings (R46, R177, R178). -/

/-- Both antennas of a baseline are in ANT_MASK. -/
def baseIn (mask b : Nat) : Bool := if b = 0 then mask &&& 12 == 12 else mask &&& 3 == 3
/-- The length given for a baseline, mm; 0 unknown. -/
def baseLen (ws : List Word) (b : Nat) : Nat := if b = 0 then fld (arg ws 1) 47 28 else fld (arg ws 1) 27 8
/-- The heading period in ms; with a core failed headings come at most ten times a second (R337). -/
def State.hdgMs (s : State) : Nat := max (if s.oneCore then 100 else 10) (10 * max 1 (fld (arg s.modes.cur 1) 7 0))
/-- A channel enters the double differences. -/
def Chan.phases (c : Chan) : Bool := c.state != 0 && c.phValid && c.obs.n0.isSome && !(c.costas && c.obs.amb)
/-- The channels of a baseline in pairs: on both antennas, of one satellite and signal (R177). -/
def State.basePairs (s : State) (b : Nat) : List (Chan × Chan) :=
  let on := fun a => (s.kite.chans.map fun e => e.2).filter fun c => c.ant == a && c.phases
  (on (2 * b)).filterMap fun c => ((on (2 * b + 1)).find? fun d => d.sig == c.sig && d.prn == c.prn).map fun d => (c, d)
/-- A front-end of the baseline has failed (R80). -/
def State.baseFailed (s : State) (b : Nat) : Bool := s.fc.front.testBit (2 * b) || s.fc.front.testBit (2 * b + 1)
/-- What a heading epoch makes of a baseline (R177): its new state, the satellites of the double differences, CLKQ, and the vector. A slip drops its satellite until it is resolved again; fewer than four resolved ones return FIXED to NONE. -/
def State.baseSolve (s : State) (m b : Nat) : Baseline × Nat × Bool × Config.BaseFix :=
  let old := tget {} b s.modes.bases
  let ps := s.basePairs b
  let obs : List Config.BaseObs := ps.map fun p => ⟨p.1.sat, p.1.sig, s.phase (qOfMs m) p.1, s.phase (qOfMs m) p.2, s.msgsOf p.1.sat⟩
  let sats := (obs.map fun o => o.sat).eraseDups
  let key := fun (c : Chan) => c.ant * 2 ^ 16 + c.sig * 2 ^ 8 + c.prn
  let now := ps.foldl (fun (t : Tab Nat) p => tput 0 (key p.1) (p.1.shot.slips + 1) (tput 0 (key p.2) (p.2.shot.slips + 1) t)) []
  let slipped := (ps.filter fun p => [p.1, p.2].any fun c => tget 0 (key c) old.slips != tget 0 (key c) now).map fun p => p.1.sat
  let kept := old.sats.filter fun x => sats.contains x && !slipped.contains x
  let len := baseLen s.modes.cur b
  let r := Config.ambiguities obs (if len = 0 then none else some len) kept
  let ok := decide (3 ≤ r.ratio) && (len == 0 || decide (r.length ≤ len + 20 ∧ len ≤ r.length + 20))
  let fixed := if ok then (kept ++ r.resolved.filter fun x => sats.contains x).eraseDups else kept
  let st := if s.baseFailed b ∨ sats.length < (if len = 0 then 5 else 4) then 0
    else if old.state = 2 then (if fixed.length < 4 then 0 else 2)
    else if ok ∧ 4 ≤ fixed.length then 2 else 1
  ({ state := st, sats := if st = 2 then fixed else [], slips := now }, sats.length, ps.any fun p => p.1.shot.clkq || p.2.shot.clkq,
    if st = 2 then r else Config.floatBase obs)
/-- An HDG record (Table 7). -/
def hdgWords (te : Qval) (b st nsv : Nat) (clkq given : Bool) (h : Config.BaseFix) : List Word :=
  [pack [put 47 40 0x01], pack [put 47 40 0x03], cyc te, frc te,
    pack [put 47 47 b, put 46 45 st, put 44 37 nsv, putB 36 clkq, putB 35 given],
    h.heading, pack [putS 47 24 h.pitch, put 23 0 h.length], pack [put 47 32 (satN 16 h.sigHdg), put 31 16 (satN 16 h.sigPitch), put 15 0 (satN 16 h.sigLen)]]
/-- A FIXED baseline updates its quantity (R46): the angle from north with HDG_OFS, unwrapped to whole turns that start at 0. -/
def State.headingUpdate (b : Nat) (heading : Word) (s : State) : State :=
  let n := 6 + b
  let q := s.qty n
  if s.counting n 5 then
    let f : Word := (if bit q.cfg0 42 then -heading else heading) + q.cfg1
    let d : Int := ((f.toNat : Int) - (frc q.vu).toNat) % 2 ^ 48
    let v := if q.fed then qadd q.vu (if d < 2 ^ 47 then d else d - 2 ^ 48) else mkQ 0 f
    s.measured n v fun q => q
  else s
/-- One baseline of ANT_MASK at a heading epoch. -/
def State.baseEpoch (m b : Nat) (s : State) : State :=
  let ws := s.modes.cur
  if !baseIn (msMask ws) b then s
  else
    let x := s.baseSolve m b
    let st := x.1.state
    let s := s.onModes fun y => { y with bases := tput {} b x.1 y.bases }
    let s := if st = 2 ∧ x.2.2.2.sigHdg ≤ 2 ^ 14 then s.headingUpdate b x.2.2.2.heading else s
    [0, 1, 2, 3, 4].foldl (fun (s : State) p =>
      let s := s.solAt p m
      let w := arg (s.mcfg p).sol 0
      let r := hdgWords (qOfMs m) b st x.2.1 x.2.2.1 (baseLen ws b != 0) x.2.2.2
      if bit w 46 ∧ m / s.hdgMs % max 1 (fld w 29 22) = 0 ∧ s.pwr.ready ∧ s.mayForm p true r.length then s.recordCounted p true r else s) s
/-- HEADING_EPOCH (R177): every HDG_PER × 10 ms, both baselines that ANT_MASK holds. -/
def execHeadingEpoch (t : Lapse) (s : State) : Host.Outcome State Fault Refusal :=
  let s := s.elapse t
  let m := msOf s.tb.q0
  if s.solving = 7 ∧ s.ndovos ∧ s.isOn 11 ∧ m % s.hdgMs = 0 ∧ s.modes.lastHdg ≠ m then
    .next ((State.baseEpoch m 0 (s.onModes fun b => { b with lastHdg := m })).baseEpoch m 1)
  else .next s

end Sys2Proof.Machine
end

