-- ==== Sys2Proof/Machine/Store.lean ====
section
/-! DEFINITION. The journal's stores (R319-R331, R337): completion of groups, the ring and its pins, marks, failure and REMIRROR; JOURNAL_STATE and JOURNAL_QUERY (R340, R341); JRN registers (R343). -/
namespace Sys2Proof.Machine
open Sys2Proof

/-- Entries in a ring (Table 1). -/
def ringSize : Nat := 262144
/-- Entries that the ring's groups take. -/
def Journal.used (j : Journal) : Nat := j.ring.foldl (fun n g => n + g.entries) 0
/-- A store that takes entries shows the JSN of the latest group complete in it in its superblock (R334). -/
def Store.took (jsn : Nat) (x : Store) : Store := if x.stat = 2 then x else { x with sealed := max x.sealed jsn }
/-- A journaled record of a partner loses its group before it was acknowledged (R330, R331): it is retired, and a new run of retirements raises its alarm. -/
def State.retire (g : Group) (s : State) : State :=
  let p := g.partner
  let prt := s.part p
  let esn := g.key.toNat
  if g.kind ≠ 3 ∨ g.vol ∨ 4 < p ∨ esn < prt.ev.ackFirst then s
  else
    let recs := prt.ev.recs.map fun r => if r.esn = esn then { r with body := r.body.take 1 } else r
    let first := !prt.ev.retRun
    let s := s.putJrn { s.jrn with fault := setBit s.jrn.fault 4 }
    let s := s.setPart p { prt with ev := { prt.ev with recs := recs, retired := max prt.ev.retired esn, retRun := true } }
    if first then s.raise p false 0x904 [word esn, word esn] else s
/-- The oldest group of the ring is carried, where it is pinned, or overwritten (R327). -/
def State.turnRing (s : State) : State :=
  match s.jrn.ring with
  | [] => s
  | g :: rest =>
    if g.pins ≠ [] then
      (s.putJrn { s.jrn with ring := rest ++ [{ g with carried := true }], cntCarried := satN 24 (s.jrn.cntCarried + g.entries) })
    else State.retire g (s.putJrn { s.jrn with ring := rest })
/-- Room for n entries at the head of the ring; at most `fuel` groups are passed. -/
def State.ringRoom (fuel n : Nat) (s : State) : State :=
  match fuel with
  | 0 => s
  | fuel + 1 => if s.jrn.used + n ≤ ringSize then s else State.ringRoom fuel n s.turnRing
/-- The oldest group in the landing buffer is complete in the working stores, at the head of the ring; its slots return (R324). -/
def State.groupDone (s : State) : State :=
  match s.jrn.landing with
  | [] => s
  | g :: rest =>
    let s := State.ringRoom (2 * ringSize) g.entries (s.putJrn { s.jrn with landing := rest })
    s.putJrn { s.jrn with ring := s.jrn.ring ++ [g], storeA := s.jrn.storeA.took g.jsn, storeB := s.jrn.storeB.took g.jsn }
/-- RING_CARRY (R327): the head comes near the group of JSN n, which is pinned and the oldest in the ring. -/
def execRingCarry (t : Lapse) (n : Nat) (s : State) : Host.Outcome State Fault Refusal :=
  let s := s.elapse t
  match s.jrn.ring with
  | [] => .next s
  | g :: _ => if g.jsn = n ∧ g.pins ≠ [] ∧ s.jrn.working then .next s.turnRing else .next s
/-- Marks folded into the mark table: the larger number stays (R325). -/
def foldMarks (ms : List (Nat × Nat)) (t : Tab Nat) : Tab Nat :=
  ms.foldl (fun (t : Tab Nat) m => tput 0 m.1 (max (tget 0 m.1 t) m.2) t) t
/-- MARK_FOLD (R325): the n oldest marks of the mark ring are written in every working store. -/
def execMarkFold (t : Lapse) (n : Nat) (s : State) : Host.Outcome State Fault Refusal :=
  let s := s.elapse t
  if s.jrn.working then
    .next (s.putJrn { s.jrn with marks := foldMarks (s.jrn.markRing.take n) s.jrn.marks, markRing := s.jrn.markRing.drop n })
  else .next s
/-- Store i: 0 JA, 1 JB. -/
def Journal.store (j : Journal) (i : Nat) : Store := if i = 0 then j.storeA else j.storeB
/-- Replace a store. -/
def Journal.setStore (j : Journal) (i : Nat) (v : Store) : Journal := if i = 0 then { j with storeA := v } else { j with storeB := v }
/-- A store becomes FAILED (R337, R338). -/
def State.storeFails (i : Nat) (s : State) : State :=
  if (s.jrn.store i).stat = 2 then s
  else
    let was := (s.jrn.store i).stat = 1
    let s := s.putJrn { s.jrn.setStore i { s.jrn.store i with stat := 2 } with fault := setBit s.jrn.fault (2 + i) }
    if was then s else s.partFailed 0x010 i
/-- STORE_FAILED (R337). -/
def execStoreFailed (t : Lapse) (store : Nat) (s : State) : Host.Outcome State Fault Refusal :=
  let s := s.elapse t
  if store < 2 then .next (s.storeFails store) else .next s
/-- REMIRROR_END (R337, R338): the store holds everything again. -/
def execRemirrorEnd (t : Lapse) (store : Nat) (s : State) : Host.Outcome State Fault Refusal :=
  let s := s.elapse t
  if store < 2 ∧ (s.jrn.store store).stat = 1 ∧ s.pwr.ready then
    .next (State.partRestored 0x010 store (s.putJrn (s.jrn.setStore store { stat := 0, sealed := (s.jrn.store (1 - store)).sealed })))
  else .next s

/-! Replay reconciles the stores (R334). -/

/-- What the scan of step 2 finds of a group in a store: the rest hold it whole and alike. -/
def damage (finds : List Find) (jsn store : Nat) : Option Bool := (finds.find? fun f => f.jsn == jsn && f.store == store).map fun f => f.other
/-- One group of the rings: complete in one store and incomplete or absent in the other, it is copied; complete in both with different content, the store of the earlier seal becomes FAILED; incomplete in every store, it is discarded and a FAULT record reports it. Of equal seals neither is the earlier: which store fails is not stated (log 197). -/
def State.reconcileOne (finds : List Find) (g : Group) (s : State) : State :=
  let j := s.jrn
  let broken := fun i => decide ((j.store i).stat = 2) || damage finds g.jsn i == some false
  let differs := damage finds g.jsn 0 == some true || damage finds g.jsn 1 == some true
  if broken 0 && broken 1 then
    State.raiseAll true 0x901 [word 0x010, word (if (j.store 0).stat = 2 then 1 else 0)]
      (s.putJrn { j with ring := j.ring.filter fun x => x.jsn != g.jsn })
  else if (damage finds g.jsn 0 == some false && (j.store 0).stat != 2) || (damage finds g.jsn 1 == some false && (j.store 1).stat != 2) then
    s.putJrn { j with fault := setBit j.fault 1 }
  else if differs && (j.store 0).stat != 2 && (j.store 1).stat != 2 then
    let a := j.storeA.sealed
    let b := j.storeB.sealed
    State.storeFails (if a < b then 0 else if b < a then 1 else if Config.freeBit s.fresh then 1 else 0) (s.putFresh (s.fresh + 1))
  else s
/-- Every group of the rings, oldest first. A carried copy has taken the place of the one before it (R327). -/
def State.reconcile (finds : List Find) (s : State) : State := s.jrn.ring.foldl (fun (s : State) g => s.reconcileOne finds g) s

/-- OLDEST_JSN: the least JSN held in the ring; 0 where it holds none. -/
def Journal.oldest (j : Journal) : Nat :=
  match j.ring with
  | [] => 0
  | g :: rest => rest.foldl (fun n x => min n x.jsn) g.jsn
/-- FC_STAT (Table 17). -/
def State.fcStat (s : State) : Word :=
  let rev := fun (n v : Nat) => (List.range n).foldl (fun a i => if v.testBit i then a + 2 ^ (n - 1 - i) else a) 0
  pack [putB 47 (s.jrn.storeA.stat != 0 || s.jrn.storeB.stat != 0), putB 46 (s.mem.spare == 2), put 45 42 (rev 4 s.fc.core), put 41 38 (rev 4 s.fc.host),
    put 37 30 (rev 8 s.fc.link), put 29 26 (rev 4 s.fc.front), put 25 24 (rev 2 s.fc.conv)]
/-- JRN_STAT (Table 15). How far a running REMIRROR has come is not stated. -/
def State.jrnStat (s : State) : Word :=
  pack [put 47 46 s.jrn.storeA.stat, put 45 44 s.jrn.storeB.stat, put 43 24 s.jrn.live, put 23 17 (if s.jrn.storeA.stat = 1 ∨ s.jrn.storeB.stat = 1 then Config.mirrorPct s.tb.clk % 101 else 0)]
/-- JOURNAL_STATE (0x0E0, R340). -/
def opJournalState : OpSpec :=
  { code := 0x0E0, rights := 1, compact := true, reads := true
    eval := fun k s =>
      if k.ps ≠ [] then badParam 0
      else
        let p := s.part k.partner
        { status := .done
          words := [word s.jrn.next, word s.jrn.oldest,
            pack [put 47 46 s.jrn.storeA.stat, put 45 44 s.jrn.storeB.stat, put 43 24 s.jrn.live, put 23 20 (fld s.jrn.rstCause 47 44)],
            word p.lseq, word p.ev.ackFirst, word p.ev.nextEsn, s.fcStat] } }
/-- JOURNAL_STATE. -/
def execJournalState (t : Lapse) (env : Env) (ps : List Word) (s : State) : Host.Outcome State Fault Refusal := runOp opJournalState t env ps s
/-- The newest group that a key names: by JSN, by a partner's SEQ, or by its ESN. -/
def Journal.named (j : Journal) (sel p key : Nat) : Option Group :=
  (j.ring ++ j.landing).foldl (fun (a : Option Group) g =>
    let hit : Bool := match sel with
      | 0 => g.jsn == key
      | 1 => decide (g.kind < 2) && g.partner == p && g.opcode != 2 && g.key.toNat == key
      | _ => g.kind == 3 && g.partner == p && g.key.toNat == key
    if hit then (match a with | some b => if b.jsn < g.jsn then some g else a | none => some g) else a) none
/-- The descriptor and entries of one key (R341). -/
def State.queryKey (s : State) (who sel p key : Nat) : List Word :=
  let ahead : Bool := match sel with
    | 0 => decide (s.jrn.next ≤ key)
    | 1 => decide ((s.part p).lseq < key)
    | _ => decide ((s.part p).ev.nextEsn ≤ key)
  if ahead then [pack [put 47 45 2]]
  else match s.jrn.named sel p key with
    | none => [pack [put 47 45 1]]
    | some g =>
      if sel = 0 ∧ g.partner < 5 ∧ g.partner ≠ who ∧ (s.part who).rights ≠ 3 then [pack [put 47 45 3]]
      else
        let es := g.verbatim
        pack [put 47 45 0, put 44 35 es.length] :: es.flatten
/-- The keys answered, while the reply's LEN stays at or below 4,095. -/
def queryWords (f : Nat → List Word) (room : Nat) : Nat → Nat → Nat × List Word
  | 0, _ => (0, [])
  | n + 1, key =>
    let ws := f key
    if room < ws.length then (0, [])
    else
      let r := queryWords f (room - ws.length) n (key + 1)
      (r.1 + 1, ws ++ r.2)
/-- JOURNAL_QUERY (0x0E1, R341). -/
def opJournalQuery : OpSpec :=
  { code := 0x0E1, rights := 1, compact := true, reads := true
    eval := fun k s =>
      let w := arg k.ps 0
      let sel := fld w 47 46
      let p := fld w 45 43
      let n := fld w 42 37
      if k.ps.length ≠ 2 ∨ sel = 3 ∨ n = 0 ∨ 32 < n ∨ (sel ≠ 0 ∧ 4 < p) then badParam 0
      else if sel ≠ 0 ∧ p ≠ k.partner ∧ (s.part k.partner).rights ≠ 3 then notPermitted 1
      else
        let r := queryWords (s.queryKey k.partner sel p) 4092 n (arg k.ps 1).toNat
        { status := .done, words := pack [put 47 42 r.1] :: r.2 } }
/-- JOURNAL_QUERY. -/
def execJournalQuery (t : Lapse) (env : Env) (ps : List Word) (s : State) : Host.Outcome State Fault Refusal := runOp opJournalQuery t env ps s

end Sys2Proof.Machine
end

