-- ==== Sys2Proof/Machine/Rtc.lean ====
section
/-! DEFINITION. The real-time clock and the backup domain: setting (R456-R458), alarms (R461-R463), rate trim (R464-R466), the cell and its charger (R470, R472, R473), registers (R476). -/
namespace Sys2Proof.Machine
open Sys2Proof

/-- Replace the RTC block by a change of it. -/
def State.onRtc (f : Rtc → Rtc) (s : State) : State := s.putRtc (f s.rtc)
/-- FRAC. -/
def Rtc.frac (r : Rtc) : Nat := r.low / 2 ^ 26
/-- The RTC value as an instant: its epoch and scale are those of Q0 (R454, R462). -/
def Rtc.instant (r : Rtc) : Qval := mkQ (word r.sec) (word (r.frac * 2 ^ 32))

/-! Setting. -/

/-- RTC_SET (0x0D0, R457): FORM 0 VALUE, 1 TETHER; it commits at the next tick and makes staged copies of the group LOST. -/
def opRtcSet : OpSpec :=
  { code := 0x0D0, rights := 3
    eval := fun k s =>
      let form := fld (arg k.ps 0) 47 46
      if 2 ≤ form ∨ k.ps.length ≠ (if form = 0 then 3 else 1) then badParam 1
      else if form = 1 ∧ s.tb.tsrc = 0 then notPermitted 2
      else
        { status := .accepted
          act := fun _ s =>
            let v : RtcSet := if form = 1 then .tether else .value (some (arg k.ps 1).toNat) (some (fld (arg k.ps 2) 47 32))
            (s.onRtc fun r => { r with setNext := some v }).loseStages .rtc } }
/-- RTC_SET. -/
def execRtcSet (t : Lapse) (env : Env) (ps : List Word) (s : State) : Host.Outcome State Fault Refusal := runOp opRtcSet t env ps s
/-- RTC_COMMIT_TICK: a tick of the crystal, the last one of the lapse (R454, R456): the waiting writes take effect at the first. -/
def execRtcCommitTick (t : Lapse) (s : State) : Host.Outcome State Fault Refusal := .next (s.elapse ⟨t.clk, max 1 t.tick⟩)
/-- AUTO_SYNC (R458): at a whole Tether second whose CYC is a multiple of 10, with TSRC GNSS or REFERENCE, a difference above SYNC_US commits Tether time to the RTC. -/
def execAutoSync (t : Lapse) (s : State) : Host.Outcome State Fault Refusal :=
  let s := s.elapse t
  let off := (qdist s.rtc.instant s.tb.q0).natAbs
  if bit s.rtc.cfg 47 ∧ atSecond s.tb ∧ (cyc s.tb.q0).toNat % 10 = 0 ∧ s.pwr.ready ∧ (s.tb.tsrc = 1 ∨ s.tb.tsrc = 3) ∧ fld s.rtc.cfg 46 31 * 2 ^ 48 < off * 10 ^ 6 then
    .next (s.onRtc fun r => { r with setNext := some .tether })
  else .next s
/-- RTC_LEAP_CHANGE: D0 applies a scheduled change when SEC has reached RTC_LEAP_AT (R460). -/
def execRtcLeapChange (t : Lapse) (s : State) : Host.Outcome State Fault Refusal :=
  let s := s.elapse t
  if s.rtc.leapNext ≠ s.rtc.leapNow ∧ s.rtc.leapAt ≤ s.rtc.sec then
    .next (s.onRtc fun r => { r with leapNow := r.leapNext })
  else .next s

/-! Alarms. -/

/-- An unmasked field of an ALM_VAL lies outside its range (R463). -/
def almBad (val ctl : Word) : Bool :=
  let out := fun (m hi lo a b : Nat) => !bit ctl m && decide (fld val hi lo < a ∨ b < fld val hi lo)
  out 46 47 36 1980 2399 || out 45 35 32 1 12 || out 44 31 27 1 31 || out 43 26 22 0 23 || out 42 21 16 0 59 || out 41 15 10 0 60 || out 40 9 7 0 6
/-- The defined bits of ALM_VAL. -/
def almValMask : Nat := 2 ^ 48 - 2 ^ 7
/-- The defined bits of ALM_CTL. -/
def almCtlMask : Nat := 2 ^ 48 - 2 ^ 38
/-- A write of an alarm's words waits for the next tick; `clr` clears FIRED_x and MISSED_x with it. -/
def Rtc.setAlarm (x : Nat) (v c : Option Word) (clr : Bool) (r : Rtc) : Rtc :=
  let merge := fun (o : Option (Option Word × Option Word × Bool)) =>
    let w := o.getD (none, none, false)
    some ((v.map (maskW almValMask)).orElse fun _ => w.1, (c.map (maskW almCtlMask)).orElse fun _ => w.2.1, clr || w.2.2)
  if x = 0 then { r with nextA := merge r.nextA } else { r with nextB := merge r.nextB }
/-- RTC_ALARM (0x0D1, R463). -/
def opRtcAlarm : OpSpec :=
  { code := 0x0D1
    eval := fun k _ =>
      if k.ps.length ≠ 3 ∨ almBad (arg k.ps 1) (arg k.ps 2) then badParam 1
      else doneWith [] fun _ s => s.onRtc (Rtc.setAlarm (fld (arg k.ps 0) 47 47) (some (arg k.ps 1)) (some (arg k.ps 2)) true) }
/-- RTC_ALARM. -/
def execRtcAlarm (t : Lapse) (env : Env) (ps : List Word) (s : State) : Host.Outcome State Fault Refusal := runOp opRtcAlarm t env ps s
/-- ALM_VAL of alarm x. -/
def Rtc.val (r : Rtc) (x : Nat) : Word := if x = 0 then r.valA else r.valB
/-- ALM_CTL of alarm x. -/
def Rtc.ctl (r : Rtc) (x : Nat) : Word := if x = 0 then r.ctlA else r.ctlB
/-- An alarm's record on every stream (R462): the RTC SEC and FRAC of the firing. -/
def State.alarmRecord (a : Nat × Nat × Nat × Qval) (s : State) : State :=
  [0, 1, 2, 3, 4].foldl (fun (s : State) p => s.record p false (causeWords false (0xE01 + a.1) a.2.2.2 [word a.2.1, word a.2.2.1])) s
/-- Alarm x matches the second in progress, which was entered by counting and has not fired it yet (R461). -/
def Rtc.due (r : Rtc) (x : Nat) : Bool :=
  bit (r.ctl x) 47 && almMatch (r.val x) (r.ctl x) (r.cal r.sec) && !r.bySet && (if x = 0 then r.firedA else r.firedB) != some r.sec
/-- ALARM_FIRE (R461, R462): FIRED_x sets, EN clears without REPEAT, and the record is queued or waits for ready; with WAKE it asks for a wake from the dormant state. -/
def execAlarmFire (t : Lapse) (x : Nat) (s : State) : Host.Outcome State Fault Refusal :=
  let s := s.elapse t
  let c := s.rtc.ctl x
  if x < 2 ∧ s.rtc.due x then
    let c' := if bit c 38 then c else maskW (2 ^ 47 - 1) c
    let at_ := if s.dom 11 = 0 then s.rtc.instant else s.tb.q0
    let a := (x, s.rtc.sec, s.rtc.frac, at_)
    let s := s.onRtc fun r =>
      let r := { r with stat := setBit r.stat x }
      if x = 0 then { r with ctlA := c', firedA := some r.sec } else { r with ctlB := c', firedB := some r.sec }
    if s.pwr.ready then .next (s.alarmRecord a)
    else
      let s := s.onRtc fun r => { r with alarmRecs := r.alarmRecs ++ [a] }
      if s.pwr.phase = .dormant ∧ s.rtc.source = 0 ∧ !s.pwr.dormLoss ∧ bit c 39 then
        .next (s.putPwr { s.pwr with wakeReq := some (s.pwr.wakeReq.getD 5) })
      else .next s
  else .next s

/-! Rate trim. -/

/-- TRIM within its limits (R465). -/
def trimClamp (v : Int) : Int := max (-34359) (min 34359 v)
/-- A quotient to the nearest integer; how a half is rounded is not stated. -/
def roundOpen (n d : Int) : Int :=
  if (2 * n + d) % (2 * d) = 0 ∧ Config.roundUp n.natAbs = false then (2 * n + d) / (2 * d) - 1 else (2 * n + d) / (2 * d)
/-- TRIM changes at the next tick, and the CLOCK section is written (R475). -/
def State.setTrim (v : Int) (s : State) : State :=
  s.onRtc fun x => Rtc.write [4] (fun k => { k with clock := some { s.clockKeep with trim := v } }) { x with trimNext := some v }
/-- A window ends DONE (R465): true elapsed time is num/den seconds; `apply` says whether its result governs TRIM. A window whose true time is 0 has an ε that nothing states. -/
def State.trimEnd (r : TrimRun) (num den : Int) (apply : Bool) (s : State) : State :=
  let e := (s.rtc.counted : Int) - r.rtc0
  let eps := if num = 0 then Config.freeInt s.fresh else roundOpen ((e * den - num * 2 ^ 42) * 2 ^ 26) (num * 2 ^ 42)
  let s := if num = 0 then (s.putFresh (s.fresh + 1)) else s
  let old := s.rtc.trimNext.getD s.rtc.trim
  let new := if apply then trimClamp (old - eps) else old
  let s := s.onRtc fun x => { x with
    run := none, trimState := 2, eps := sat 17 eps, applied := decide (new ≠ old)
    trimSat := if apply then decide (new ≠ old - eps) else x.trimSat, trimNext := if apply then some new else x.trimNext }
  (if new = old then s else s.setTrim new).trimDone r
/-- A new window opens at the end of a window with AUTO (R465). -/
def State.trimAgain (r : TrimRun) (start : Nat) (s : State) : State := if r.auto then s.trimStart r start else s
/-- The nominal mains frequency (R45): as Q5 has chosen it, else the nearer of 50 and 60 Hz to the input's. -/
def State.nominalHz (s : State) : Nat := if (s.qty 5).nominal ≠ 0 then (s.qty 5).nominal else if s.pwr.hz < 55 then 50 else 60
/-- WINDOW_H as it governs (R464). -/
def trimHours (src h : Nat) : Nat := if h ≠ 0 then h else if src = 1 then 24 else 1
/-- RTC_TRIM (0x0D2, R464): MANUAL, MAINS, TETHER, PARTNER_OPEN, PARTNER_CLOSE, STOP. -/
def opRtcTrim : OpSpec :=
  { code := 0x0D2, rights := 3
    eval := fun k s =>
      let w := arg k.ps 0
      let src := fld w 47 45
      let trim := sfld w 44 28
      let hours := fld w 27 20
      let auto := bit w 19
      let sigma := fld (arg k.ps 3) 47 24
      let given := (mkQ (arg k.ps 1) (arg k.ps 2)).toNat
      let open_ : Option TrimRun := match s.rtc.run with | some r => if r.kind = 3 ∧ r.owner = some k.partner then some r else none | none => none
      let part : Bool := src == 3 || src == 4
      let done := fun (act : State → State) => doneWith [] fun _ s => act s
      if 6 ≤ src ∨ (src = 0 ∧ (trim < -34359 ∨ 34359 < trim)) ∨ 168 < hours ∨ (part ∧ sigma = 0) ∨ k.ps.length ≠ (if part then 4 else 1) then badParam 1
      else if (src = 1 ∧ (!Config.inputAc ∨ !s.pwr.good)) ∨ (src = 2 ∧ s.tb.tsrc ≠ 1 ∧ s.tb.tsrc ≠ 3) then notPermitted 2
      else match src with
      | 0 => done fun s =>
        let s := match s.rtc.run with
          | some r => if r.owner.isNone then s.onRtc fun x => { x with run := none, trimSrc := 0, trimState := 0 } else s
          | none => s.onRtc fun x => { x with trimSrc := 0, trimState := 0 }
        State.setTrim trim (s.onRtc fun x => { x with trimSat := false })
      | 1 => done fun s => s.trimAbort.trimStart { kind := 1, owner := some k.partner, hours := trimHours 1 hours, auto := auto, waiting := false, rtc0 := 0, true0 := 0 } 0
      | 2 => done fun s =>
        s.trimAbort.trimStart { kind := 2, owner := some k.partner, hours := trimHours 2 hours, auto := auto, waiting := false, rtc0 := 0, true0 := 0 } s.tb.q0.toNat
      | 3 => done fun s =>
        s.trimAbort.trimStart { kind := 3, owner := some k.partner, hours := hours, auto := auto, waiting := false, rtc0 := 0, true0 := 0, sigma := sigma } given
      | 4 =>
        match open_ with
        | none => notPermitted 3
        | some r =>
          if s.rtc.counted < r.rtc0 + 3600 * 2 ^ 42 then badParam 4
          else done fun s =>
            let d := (given : Int) - r.true0
            let ok := decide (20 * (max r.sigma sigma : Int) * 2 ^ 48 ≤ d)
            (s.trimEnd r d (2 ^ 48) ok).trimAgain { r with sigma := sigma } given
      | _ => done fun s =>
        let s := s.trimAbort
        s.onRtc fun x => { x with run := none } }
/-- RTC_TRIM MANUAL. -/
def execRtcTrimManual (t : Lapse) (env : Env) (ps : List Word) (s : State) : Host.Outcome State Fault Refusal := runOp opRtcTrim t env (fixField 47 45 0 ps) s
/-- RTC_TRIM MAINS. -/
def execRtcTrimMains (t : Lapse) (env : Env) (ps : List Word) (s : State) : Host.Outcome State Fault Refusal := runOp opRtcTrim t env (fixField 47 45 1 ps) s
/-- RTC_TRIM TETHER. -/
def execRtcTrimTether (t : Lapse) (env : Env) (ps : List Word) (s : State) : Host.Outcome State Fault Refusal := runOp opRtcTrim t env (fixField 47 45 2 ps) s
/-- RTC_TRIM PARTNER_OPEN. -/
def execRtcTrimPartnerOpen (t : Lapse) (env : Env) (ps : List Word) (s : State) : Host.Outcome State Fault Refusal := runOp opRtcTrim t env (fixField 47 45 3 ps) s
/-- RTC_TRIM PARTNER_CLOSE. -/
def execRtcTrimPartnerClose (t : Lapse) (env : Env) (ps : List Word) (s : State) : Host.Outcome State Fault Refusal := runOp opRtcTrim t env (fixField 47 45 4 ps) s
/-- RTC_TRIM STOP. -/
def execRtcTrimStop (t : Lapse) (env : Env) (ps : List Word) (s : State) : Host.Outcome State Fault Refusal := runOp opRtcTrim t env (fixField 47 45 5 ps) s
/-- TRIM_WINDOW_END (R465): a MAINS window at a crossing, a TETHER window at a whole second, at or after WINDOW_H hours. -/
def execTrimWindowEnd (t : Lapse) (s : State) : Host.Outcome State Fault Refusal :=
  let s := s.elapse t
  match s.rtc.run with
  | none => .next s
  | some r =>
    if r.waiting then .next s
    else if r.kind = 1 ∧ r.hours * 3600 * 2 ^ 42 ≤ s.rtc.counted - r.rtc0 then
      .next ((s.trimEnd r r.true0 s.nominalHz true).trimAgain r 0)
    else if r.kind = 2 ∧ atSecond s.tb ∧ (r.hours * 3600 * 2 ^ 48 : Int) ≤ qdist s.tb.q0 (BitVec.ofNat 96 r.true0) then
      .next ((s.trimEnd r (qdist s.tb.q0 (BitVec.ofNat 96 r.true0)) (2 ^ 48) true).trimAgain r s.tb.q0.toNat)
    else .next s
/-- TRIM_WINDOW_TIMEOUT (R465): a PARTNER window still open after 168 h aborts. -/
def execTrimWindowTimeout (t : Lapse) (s : State) : Host.Outcome State Fault Refusal :=
  let s := s.elapse t
  match s.rtc.run with
  | some r => if r.kind = 3 ∧ r.rtc0 + 168 * 3600 * 2 ^ 42 ≤ s.rtc.counted then .next s.trimAbort else .next s
  | none => .next s

/-! The cell. -/

/-- A BK_CFG out of range (Table 8). -/
def bkBad (w : Word) : Bool :=
  decide (fld w 46 42 < 1 ∨ 20 < fld w 46 42 ∨ fld w 41 33 < 360 ∨ 390 < fld w 41 33 ∨ fld w 32 24 < 300 ∨ 360 < fld w 32 24)
/-- BACKUP_CONFIG (0x0D3, R472). -/
def opBackupConfig : OpSpec :=
  { code := 0x0D3, rights := 3
    eval := fun k _ =>
      let w := arg k.ps 0
      if k.ps.length ≠ 1 ∨ bkBad w then badParam 1
      else doneWith [] fun _ s => s.onRtc fun r => { r with bkNext := some (maskW (2 ^ 48 - 2 ^ 24) w), clrNext := r.clrNext || bit w 23 } }
/-- BACKUP_CONFIG. -/
def execBackupConfig (t : Lapse) (env : Env) (ps : List Word) (s : State) : Host.Outcome State Fault Refusal := runOp opBackupConfig t env ps s
/-- CHG_ON (R473): never below 2,500 mV, and after CHG_V is reached only from 100 mV below it. -/
def Rtc.charging (r : Rtc) : Bool :=
  bit r.bk 47 && r.source == 0 && decide (2500 ≤ r.cellMv) && decide (r.cellMv < 10 * fld r.bk 41 33) && !r.chgFull
/-- The record of a cell condition (R470, R477): at most once in 24 h for each, at once or at ready. -/
def State.cellRecord (cause mv : Nat) (s : State) : State :=
  let last := if cause = 0xE04 then s.rtc.lastLow else s.rtc.lastAbsent
  let quiet : Bool := match last with | some k => decide (s.rtc.ticks < k + 86400 * 65536) | none => false
  if quiet then s
  else
    let s := s.onRtc fun r => if cause = 0xE04 then { r with lastLow := some r.ticks } else { r with lastAbsent := some r.ticks }
    if s.pwr.ready then s.raiseAll true cause [word mv] else s.onRtc fun r => { r with cellRecs := r.cellRecs ++ [(cause, mv)] }
/-- CELL_MEASUREMENT (R470, R473). -/
def execCellMeasurement (t : Lapse) (mv : Nat) (s : State) : Host.Outcome State Fault Refusal :=
  let s := s.elapse t
  let mv := satN 12 mv
  let absent := decide (mv < 1000)
  let low := decide (1000 ≤ mv ∧ mv < 10 * fld s.rtc.bk 32 24)
  let s0 := s
  let v := 10 * fld s.rtc.bk 41 33
  let s := s.onRtc fun r => { r with cellMv := mv, absent := absent, low_ := low, chgFull := decide (v ≤ mv) || (r.chgFull && decide (v < mv + 100)) }
  let s := if low && !s0.rtc.low_ then s.cellRecord 0xE04 mv else s
  .next (if absent && !s0.rtc.absent then s.cellRecord 0xE05 mv else s)

/-! Registers (Tables 6-8). -/

/-- RTC_FRAC of a capture. -/
def Rtc.fracWord (r : Rtc) (expired : Bool) : Word := pack [put 47 32 r.frac, put 31 24 r.sec, putB 23 expired]
/-- RTC_TRIM_STAT. -/
def Rtc.trimStat (r : Rtc) : Word :=
  let mins := match r.run with | some x => if x.waiting then 0 else satN 16 ((r.counted - x.rtc0) / (60 * 2 ^ 42)) | none => 0
  pack [put 47 45 r.trimSrc, put 44 43 r.trimState, putB 42 r.applied, putB 41 r.trimSat, putS 40 24 r.eps, put 23 8 mins]
/-- A stamp's FRAC word. -/
def stampFrac (x : Option (Nat × Nat)) : Word := match x with | some v => pack [put 47 32 v.2, putB 31 true] | none => 0
/-- A stamp's SEC word. -/
def stampSec (x : Option (Nat × Nat)) : Word := match x with | some v => word v.1 | none => 0
/-- BK_STAT. -/
def Rtc.bkStat (r : Rtc) : Word := pack [put 47 47 r.source, put 46 35 r.cellMv, putB 34 r.low_, putB 33 r.absent, putB 32 r.charging]
/-- The RTC's words outside the read group (Table 6), by offset. -/
def Rtc.reg (r : Rtc) (off : Nat) : Word :=
  match off with
  | 6 => pack [putS 47 31 r.trim]
  | 7 => r.trimStat
  | 8 => r.cfg
  | 9 => pack [putS 47 40 r.leapNow, putS 39 32 r.leapNext]
  | 0xA => word r.leapAt
  | 0x10 => r.valA | 0x11 => r.ctlA | 0x12 => r.valB | 0x13 => r.ctlB
  | 0x14 => word r.stat
  | 0x20 => r.bk
  | 0x21 => r.bkStat
  | 0x22 => word r.swCount
  | 0x23 => stampSec r.swFirst
  | 0x24 => stampFrac r.swFirst
  | 0x25 => stampSec r.swRet
  | 0x26 => stampFrac r.swRet
  | 0x28 => pack [put 47 40 r.bksValid, put 39 32 r.bksFall]
  | _ => 0
/-- The path's shadow of the RTC read group (R455). -/
def State.rtcShadow (s : State) (path : Nat) : RtcShadow := tget {} path s.rtc.shadows
/-- Replace it. -/
def State.setRtcShadow (s : State) (path : Nat) (v : RtcShadow) : State := s.onRtc fun r => { r with shadows := tput {} path v r.shadows }
/-- A read of RTC_SEC, RTC_CAL or RTC_FRAC (offset 0 to 2) on a path (R455): RTC_SEC opens a shadow of all three, RTC_FRAC closes it, 1 ms closes it by itself and marks the next RTC_FRAC. Outside an open shadow a word shows the present. -/
def State.readRtc (path off : Nat) (s : State) : Word × State :=
  let h := s.rtcShadow path
  let h := if h.isOpen ∧ h.since + 654720 ≤ s.tb.clk then { h with isOpen := false, expired := true } else h
  let r := s.rtc
  let live := fun (x : Bool) => [word r.sec, r.cal r.sec, r.fracWord x]
  if off = 0 then
    (word r.sec, s.setRtcShadow path { isOpen := true, ws := live false, expired := h.expired, since := s.tb.clk })
  else
    let ws := if h.isOpen then h.ws else live false
    if off = 2 then
      (word ((arg ws 2).toNat + putB 23 h.expired), s.setRtcShadow path { h with isOpen := false, expired := false })
    else (arg ws 1, s.setRtcShadow path h)

end Sys2Proof.Machine
end

