-- ==== Sys2Proof/Machine/Power.lean ====
section
/-! DEFINITION. Power domains: going off, into retention and on (R76, R97, R134, R205, R406, R430, R451, R478), the pads (R491, R492, R495), budgets, forces and the governor (R482-R488), PWR and PAD registers (R499, R500). -/
namespace Sys2Proof.Machine
open Sys2Proof

/-- Change the power block. -/
def State.onPwr (f : Power → Power) (s : State) : State := s.putPwr (f s.pwr)

/-! Pads. -/

/-- The pins of a domain (Table 4 of R24, Table 9). -/
def pinsOf (d : Nat) : List PadPin :=
  match d with
  | 9 => [.miso 2, .miso 3, .ready 2, .ready 3, .attn 2, .attn 3, .mdi 0, .mdi 1] ++ (List.range 8).flatMap fun l => [.lendiTx l, .lendiRx l]
  | 10 => (List.range 8).map .sampleIn
  | 11 => (List.range 8).map PadPin.out ++ (List.range 4).flatMap fun x => [.ssiClk x, .quantityIn x]
  | _ => []
/-- The level that the pad ring holds on a pin it has latched (Table 9): an output at its inactive level, or at high impedance for O0–O5 with IDLE_Z (R205). -/
def State.heldLevel (s : State) (p : PadPin) : PinLevel :=
  match p with
  | .out n => if n < 6 ∧ bit (s.out n).conf.cfg 43 then .highZ else if bit (s.out n).conf.cfg 44 then .high else .low
  | .ssiClk _ => .high
  | .miso _ => .highZ
  | .ready _ => .low
  | .attn _ => .low
  | .mdi _ => .notDriven
  | .lendiTx _ => .notDriven
  | _ => .ignored
/-- The level of a pin whose domain is not on: as latched; after an AON cold reset, before any level has been latched, O0–O5 at high impedance, O6–O7 at differential low, the others as in Table 9 (R491). -/
def State.idleLevel (s : State) (d : Nat) (p : PadPin) : PinLevel :=
  match p with
  | .out n => if s.pinsLatched d then s.heldLevel p else if n < 6 then .highZ else .diffLow
  | _ => s.heldLevel p
/-- The domain's pins are latched at their levels (R491). -/
def State.latchPads (d : Nat) (s : State) : State :=
  match padBit d with
  | some b =>
    if s.pwr.latched.testBit b then s
    else
      (s.onPwr fun p => { p with latched := setBit p.latched b, latches := satN 24 (p.latches + 1) }).emit
        (.pins ((pinsOf d).map fun p => (p, s.heldLevel p)))
  | none => s
/-- Each output joins its running generator at its next inactive phase (R205): the next leading edge lies ahead. -/
def State.joinOutputs (s : State) : State :=
  [0, 1, 2, 3, 4, 5, 6, 7].foldl (fun (s : State) n =>
    let o := s.out n
    if o.conf.periodic ∧ o.state = 2 then s.setOut n { o with next := some (qOf (o.conf.firstLead (uOf s.tb.q0 + 1))) } else s) s
/-- An Ethernet link comes up (R345): an enabled port that has not failed; crossover and master are what negotiation finds. -/
def State.ethUp (h : Nat) (s : State) : State :=
  let e := s.eth h
  if bit e.page.cfg 47 ∧ !e.failed ∧ !e.link ∧ !s.pinsLatched 9 then
    State.setEth (s.putFresh (s.fresh + 2)) h { e with link := true, wasUp := true, mdix := Config.freeBit s.fresh, master := Config.freeBit (s.fresh + 1) }
  else s
/-- D9 is on and drives its pins: enabled links train (R377), and enabled Ethernet ports have their links, at most 400 ms later (R481, R497). -/
def State.linksOn (s : State) : State :=
  if !s.isOn 9 ∨ s.pinsLatched 9 then s
  else
    let s := (s.ethUp 0).ethUp 1
    [0, 1, 2, 3, 4, 5, 6, 7].foldl (fun (s : State) l => if (s.lnk l).en ∧ (s.lnk l).state = 0 then s.setLnk l { s.lnk l with state := 1, outClk := if (s.lnk l).wasUp then some s.tb.clk else none } else s) s
/-- The latches of a domain release (R492); a domain that holds none is unaffected. -/
def State.unlatchPads (d : Nat) (s : State) : State :=
  match padBit d with
  | some b =>
    let was := s.pwr.latched.testBit b
    let s := s.onPwr fun p => { p with latched := clearBits p.latched (2 ^ b), relPend := clearBits p.relPend (2 ^ b) }
    if !was then s
    else if d = 11 then s.joinOutputs
    else if d = 9 then s.linksOn
    else s
  | none => s
/-- The domain is on: its latches release with AUTO or an armed release (R492). -/
def State.padsOn (d : Nat) (s : State) : State :=
  match padBit d with
  | some b => if s.pwr.padCfg.testBit b ∨ s.pwr.relPend.testBit b then s.unlatchPads d else s
  | none => s
/-- An output still active is driven inactive at this instant (R495). -/
def State.cutOut (n : Nat) (s : State) : State :=
  let o := s.out n
  let s := (s.setOut n { o with until_ := none }).emit (.edge n o.last (some s.tb.q0))
  s.onPwr fun p => { p with cut := setBit p.cut (7 - n), cutRec := setBit p.cutRec (7 - n), cuts := satN 24 (p.cuts + 1) }

/-! D11. -/

/-- D11's power-down begins: nothing is released and no new leading edge leaves (R205, R494). -/
def State.timeDownBegins (s : State) : State :=
  if s.dom 11 = 0 ∨ s.pwr.timeDown then s
  else s.onPwr fun p => { p with timeDown := true, downClk := s.tb.clk, cut := 0 }
/-- Every running sample port stops for a reason (R406). -/
def State.stopPorts (why : Nat) (s : State) : State := [0, 1, 2, 3, 4, 5, 6, 7].foldl (fun (s : State) p => s.stopPort p why) s
/-- An occurrence that an outage finds unreported (R255). -/
def Sent.atOutage (x : Sent) : Sent := { x with outage := true, prior := true, asked := false }
/-- An event against Q0 waits for time, one against another quantity has lost it (R254). -/
def Event.timeLost (e : Event) : Event :=
  { e with armed := false, sent := e.sent.map Sent.atOutage, st := if e.qty = 0 then .waitTime else .restarted }
/-- What Tether time leaves behind when D11 goes off or is reset (R33, R35, R39, R202): no source, no offset, no step; permits, calendar and what the oscillator has taught stay. -/
def TimeBase.stopped (tb : TimeBase) : TimeBase :=
  { tb with sub := 0, tsrc := 0, tqe := 0xFFFFFFFF, tqf := 0xFFFFFFFF, plan := none, step := none, slew := none, stepSpan := none, resid := 0, hoStart := none, tsrcAt := none }
/-- A PLL without D11 (R214-R219): its frequency stays set. -/
def Pll.down (l : Pll) : Pll := { freq := l.freq, refLost := l.refLost }
/-- D11 is off (R205, R254, R406): outputs still active are cut, pins latched, the latest accepted configuration of every output kept; quantities, PLLs and counters restart; a mains trim window aborts, ports stop, channels end. -/
def State.timeOff (s : State) : State :=
  let s : State := [0, 1, 2, 3, 4, 5, 6, 7].foldl (fun (s : State) n => if s.outActive n then s.cutOut n else s) s
  let s := (s.latchPads 11).stopPorts 2
  let s := match s.rtc.run with | some r => if r.kind = 1 then s.trimAbort else s | none => s
  let s : State := [0, 1, 2, 3, 4, 5, 6, 7].foldl (fun (s : State) n =>
    let o := s.out n
    s.setOut n { conf := match o.wait with | some w => w.conf | none => o.conf }) s
  let s := s.kiteDown
  let c := s.clk
  let s := (((((s.putTb s.tb.stopped).putQs []).putShadows []).putCalFrz []).putSch { s.sch with cntRel := 0, cntLate := 0, cntEarly := 0, cntMiss := 0, recent := [], mseq := 0, swept := 0, events := s.sch.events.map Event.timeLost }).putClk { c with fault := 0, direct := false, pllF := c.pllF.down, pllG := c.pllG.down, pllS := c.pllS.down, pllT := c.pllT.down, pllW := c.pllW.down }
  State.trimWatch ((s.onPwr fun p => { p with timeDown := false, sc11 := true }).setDom 11 0)
/-- Tether takes the RTC's value (R33, R205), and the leap words of the TIME section (R35), which D0's copies follow (R460). -/
def State.loadTime (s : State) : State :=
  let tb := match s.rtc.keep.time with
    | some k => { s.tb with leapNow := k.now, leapNext := k.next, leapSrc := k.src, leapLock := k.lock, leapPend := k.pend, leapAt := k.at_ }
    | none => { s.tb with leapNow := 18, leapNext := 18, leapSrc := 0, leapLock := false, leapPend := false, leapAt := 0 }
  ((s.putTb { tb with q0 := s.rtc.instant, sub := 0 }).putRtc { s.rtc with leapNow := tb.leapNow, leapNext := tb.leapNext, leapAt := tb.leapAt })
/-- D11 comes on from off (R205, R214): its PLLs lock, Tether time comes from the RTC, and every output runs in the configuration saved for it. -/
def State.timeOn (s : State) : State :=
  let s := (s.setDom 11 2).loadTime
  let lock := fun (l : Pll) => if s.clk.refOk then { l with state := 2 } else { l with state := 1 }
  let c := s.clk
  let s := s.putClk { c with pllF := lock c.pllF, pllG := lock c.pllG, pllS := lock c.pllS, pllT := lock c.pllT, pllW := if c.pllW.freq = 0 then c.pllW else lock c.pllW }
  let s : State := [0, 1, 2, 3, 4, 5, 6, 7].foldl (fun (s : State) n => s.setOut n (s.outStart n (s.out n).conf s.tb.q0 (s.out n))) s
  s.padsOn 11

/-! The other domains. -/

/-- D6 goes off or is reset (R430): running tasks and waiting starts are lost, each owner is told of the core and its starts lost; the slot table stays with the command unit. -/
def State.dspDown (s : State) : State :=
  let lose := fun (k : Nat) (s : State) =>
    let c := s.core k
    let starts := c.run.toList ++ c.ring
    let ownerOf := fun (r : Start) => (c.slot r.task).owner
    let s : State := [0, 1, 2, 3, 4].foldl (fun (s : State) p =>
      let n := (starts.filter fun r => ownerOf r == p).length
      if n = 0 then s else s.raise p false 0xC05 [word k, word n]) s
    s.setCore k { slots := c.slots, failed := c.failed }
  lose 1 (lose 0 s)
/-- D6 is on again (R430): an image that fails its CRC, or any when D7 has lost its content, is gone, and its owner is told. -/
def State.dspUp (s : State) : State :=
  let check := fun (k : Nat) (s : State) =>
    (s.core k).slots.foldl (fun (s : State) e =>
      let x := e.2
      if x.loaded ∧ (s.pwr.sc7 ∨ s.imageCrc x.base x.size ≠ x.crc) then
        let s := s.setCore k ((s.core k).setSlot e.1 { drops := x.drops, skipped := x.skipped })
        if x.owner < 5 then s.raise x.owner false 0xC04 [word k, word e.1] else s
      else s) s
  check 1 (check 0 s)
/-- D7 goes off (R330, R451): every word is lost, and volatile record bodies with them. -/
def State.memDown (s : State) : State :=
  let s := s.setMem { grpcfg := s.mem.grpcfg, patrolCfg := s.mem.patrolCfg }
  let s : State := [0, 1, 2, 3, 4].foldl (fun (s : State) p =>
    let prt := s.part p
    s.setPart p { prt with ev := { prt.ev with recs := prt.ev.recs.map fun r => if r.vol then { r with body := r.body.take 1 } else r } }) s
  s.onPwr fun p => { p with sc7 := true }
/-- D9 leaves on (R478, R491): links drop with POWER, ports lose their links, pins are latched. -/
def State.linksDown (s : State) : State :=
  let s : State := [0, 1, 2, 3, 4, 5, 6, 7].foldl (fun (s : State) l => s.linkDrop l 6) s
  let drop := fun (e : EthPort) => { e with link := false }
  State.latchPads 9 (s.putHost { s.host with eth0 := drop s.host.eth0, eth1 := drop s.host.eth1, reasm := [] })
/-- D9 goes off: counters and buffers of its ports restart too (R518). -/
def State.portsOff (s : State) : State :=
  let e := fun (x : EthPort) => ({ page := x.page, failed := x.failed, selfOk := x.selfOk } : EthPort)
  let p := fun (x : SpiPort) => ({ en := x.en, failed := x.failed } : SpiPort)
  let s := s.putHost { s.host with eth0 := e s.host.eth0, eth1 := e s.host.eth1, spi2 := p s.host.spi2, spi3 := p s.host.spi3 }
  [0, 1, 2, 3, 4, 5, 6, 7].foldl (fun (s : State) l => s.setLnk l { s.lnk l with downs := 0, dropped := 0, resent := 0 }) s
/-- D10 goes off (R406): configurations and masks stay with the command unit, ports come up READY. -/
def State.smpOff (s : State) : State :=
  [0, 1, 2, 3, 4, 5, 6, 7].foldl (fun (s : State) n =>
    let p := s.smp n
    s.setSmp n { cfg0 := p.cfg0, cfg1 := p.cfg1, cfg2 := p.cfg2, cfg3 := p.cfg3, cfg4 := p.cfg4, state := if p.en then 1 else 0, mask := p.mask, maskOld := p.maskOld, next := p.next }) s
/-- The operating point that a domain powers up with (R488). -/
def State.oppReset (d : Nat) (s : State) : State :=
  match d with
  | 1 => s.setOpp 0 { freq := 0, req := 0 } | 3 => s.setOpp 1 {} | 4 => s.setOpp 2 {} | 6 => s.setOpp 3 {} | _ => s
/-- Domain d goes off (R478). -/
def State.domOff (d : Nat) (s : State) : State :=
  if s.dom d = 0 then s
  else
    let s := s.setDom d 0
    match d with
    | 3 => s.galeDown 3
    | 4 => s.galeDown 4
    | 5 => s.kiteDown
    | 6 => (s.dspDown).onPwr fun p => { p with sc6 := true }
    | 7 => s.memDown
    | 8 => s.rfDown
    | 9 => s.linksDown.portsOff
    | 10 => (s.stopPorts 3).smpOff.latchPads 10
    | 11 => (s.setDom 11 2).timeOff
    | _ => s
/-- Domain d enters retention (R478); what it kept of time is what its registers show (R517). -/
def State.domRetain (d : Nat) (s : State) : State :=
  if s.dom d ≠ 2 then s
  else
    let s := (s.setDom d 1).onPwr fun p => { p with retAt := tput none d (some (s.tb.q0, s.tb.clk)) p.retAt }
    match d with
    | 5 => s.kiteRetain
    | 7 => s.setMem s.mem.endLeases
    | 9 => s.linksDown
    | 10 => (s.stopPorts 3).latchPads 10
    | 11 => s.latchPads 11
    | _ => s
/-- Domain d comes on, from off or from retention (R478). -/
def State.domOn (d : Nat) (s : State) : State :=
  if s.dom d = 2 then s
  else
    let off := s.dom d = 0
    let s := (s.setDom d 2).onPwr fun p => { p with retAt := tput none d none p.retAt }
    let s := if off then s.oppReset d else s
    match d with
    | 5 => if off then s else s.kiteResume
    | 6 => if off then s.dspUp else s
    | 7 => if off then s.reloadData else s
    | 8 => if off then s.rfUp else s
    | 9 => (s.padsOn 9).linksOn
    | 10 => s.padsOn 10
    | 11 => if off then (if s.pwr.ready then s.timeOn.modeDown.modeRestart else s.timeOn) else s.padsOn 11
    | _ => s
/-- Whether D11 can enter retention: no event pending, no output enabled, Q1–Q15 OFF (Table 2). -/
def State.timeIdle (s : State) : Bool :=
  s.sch.events.isEmpty && [0, 1, 2, 3, 4, 5, 6, 7].all (fun n => !(s.out n).conf.en && (match (s.out n).wait with | some w => !w.conf.en | none => true)) &&
  (List.range 16).all fun n => n == 0 || s.kind n == 15
/-- The domains that need another one on: D11, then D7 (Table 2, R208). -/
def needsTime : List Nat := [3, 4, 5, 6, 7, 8, 10]
/-- The domains that need D7 on. -/
def needsMem : List Nat := [3, 4, 5, 6, 10]
/-- Bring domain d to a state in the order of R479: what it needs first, what depends on it before it leaves. A request that would break a row of Table 2 is not carried out. D11 goes off once its outputs are inactive; until then its power-down runs. -/
def State.domTo (d v : Nat) (s : State) : State :=
  if s.dom d = v then s
  else if v = 2 then
    let s := if needsTime.contains d then s.domOn 11 else s
    let s := if needsMem.contains d ∨ d = 9 then s.domOn 7 else s
    s.domOn d
  else
    let free : Bool := (d != 11 || needsTime.all fun x => !s.isOn x) && (d != 7 || (needsMem.all (fun x => !s.isOn x) && (v == 1 || !s.isOn 9)))
    if !free then s
    else if v = 1 then
      if d = 11 ∧ (!s.timeIdle ∨ s.dom 11 = 0) then s
      else (if s.dom d = 0 then s.domOn d else s).domRetain d
    else if d = 11 then
      let s := s.timeDownBegins
      if [0, 1, 2, 3, 4, 5, 6, 7].any s.outActive then s else s.domOff 11
    else s.domOff d
/-- D11's power-down ends once no output is active, or 100 ms after it began (R495). -/
def State.settleTime (s : State) : State :=
  if s.pwr.timeDown ∧ (s.pwr.downClk + 65472000 ≤ s.tb.clk ∨ [0, 1, 2, 3, 4, 5, 6, 7].all fun n => !s.outActive n) then s.domOff 11 else s
/-- OUTPUT_CUT (R495): 100 ms after D11's power-down began output n is still active. -/
def execOutputCut (t : Lapse) (n : Nat) (s : State) : Host.Outcome State Fault Refusal :=
  let s := s.elapse t
  if n < 8 ∧ s.pwr.timeDown ∧ s.pwr.downClk + 65472000 ≤ s.tb.clk ∧ s.outActive n then
    let s := s.cutOut n
    .next (if [0, 1, 2, 3, 4, 5, 6, 7].any s.outActive then s else s.domOff 11)
  else .next s

/-! Budgets. -/

/-- A partner's budget for a class. -/
def State.budget (s : State) (p c : Nat) : Budget := tget {} (8 * p + c) s.pwr.buds
/-- PWR_BUDGET (0x0C0, R482). -/
def opPwrBudget : OpSpec :=
  { code := 0x0C0
    eval := fun k _ =>
      let cls := k.ps.map fun w => fld w 47 45
      if k.ps = [] ∨ 7 < k.ps.length ∨ cls.contains 7 ∨ !decide cls.Nodup then badParam 1
      else
        { status := .done, pins := cls.map fun c => .config 0x0C0 (8 * k.partner + c)
          act := fun _ s => s.onPwr fun x =>
            { x with buds := k.ps.foldl (fun (t : Tab Budget) w => tput {} (8 * k.partner + fld w 47 45) ⟨fld w 44 21, bit w 20⟩ t) x.buds } } }
/-- PWR_BUDGET. -/
def execPwrBudget (t : Lapse) (env : Env) (ps : List Word) (s : State) : Host.Outcome State Fault Refusal := runOp opPwrBudget t env ps s
/-- UNBOUNDED. -/
def unbounded : Nat := 0xFFFFFF
/-- The smallest LAT of a class over every partner with rights (R484). -/
def State.classLat (s : State) (c : Nat) : Nat :=
  [0, 1, 2, 3, 4].foldl (fun m p => if (s.part p).rights = 0 then m else min m (s.budget p c).lat) unbounded
/-- FULL of a class from any partner with rights. -/
def State.classFull (s : State) (c : Nat) : Bool := [0, 1, 2, 3, 4].any fun p => decide ((s.part p).rights ≠ 0) && (s.budget p c).full
/-- The domains that a class binds (Table 4). -/
def classDoms (c : Nat) : List Nat := match c with | 0 => [1] | 1 => [3, 4] | 2 => [5] | 3 => [8] | 4 => [6, 7] | 5 => [10] | 6 => [7] | _ => []
/-- L_d: the smallest LAT among the classes that bind a domain. -/
def State.domLat (s : State) (d : Nat) : Nat := [0, 1, 2, 3, 4, 5, 6].foldl (fun m c => if (classDoms c).contains d then min m (s.classLat c) else m) unbounded
/-- A domain whose class has FULL. -/
def State.domFull (s : State) (d : Nat) : Bool := [0, 1, 2, 3, 4, 5, 6].any fun c => (classDoms c).contains d && s.classFull c
/-- The maximum wake time of a domain from off, µs (Table 3). -/
def wakeOff (d : Nat) : Nat :=
  match d with
  | 1 => 15000 | 2 => 1500 | 3 => 100 | 4 => 100 | 5 => 50 | 6 => 160000 | 7 => 25 | 8 => 2500 | 9 => 400000 | 10 => 120 | 11 => 200 | _ => 0
/-- The maximum wake time of a domain from a state, µs. -/
def wakeFrom (d v : Nat) : Nat := match v with | 2 => 0 | 1 => 3 | _ => wakeOff d
/-- The latency of a frequency point, µs (Table 5). -/
def pointLat (d pt : Nat) : Nat :=
  match d with
  | 1 => (match pt with | 2 => 9 | 1 => 18 | _ => 38)
  | 6 => (match pt with | 2 => 1 | 1 => 2 | _ => 4)
  | _ => 0
/-- The frequency of a point, MHz (Table 5 of R222). -/
def pointMHz (d pt : Nat) : Nat :=
  match d with
  | 1 => (match pt with | 2 => 400 | 1 => 200 | _ => 96)
  | 6 => (match pt with | 2 => 600 | 1 => 300 | _ => 150)
  | _ => (match pt with | 2 => 560 | 1 => 280 | _ => 140)
/-- The index of a domain's CLK_OPP. -/
def oppIndex (d : Nat) : Option Nat := match d with | 1 => some 0 | 3 => some 1 | 4 => some 2 | 6 => some 3 | _ => none
/-- The frequency point that a domain runs at, F2 where it has none. -/
def State.pointOf (s : State) (d : Nat) : Nat := match oppIndex d with | some i => (s.clk.opp i).freq | none => 2

/-! The governor. -/

/-- A forced state: 0 none, 1 ON, 2 RETENTION, 3 OFF. -/
def State.forced (s : State) (d : Nat) : Nat := tget 0 d s.pwr.force
/-- The state that a force asks for. -/
def forcedState (f : Nat) : Nat := match f with | 1 => 2 | 2 => 1 | _ => 0
/-- Ndovos's needs for the mode in force (Table 6, R184, R310). -/
def State.modeNeeds (s : State) (d : Nat) : Bool :=
  let m := s.modes.mode
  let all := [3, 4, 5, 6, 7, 8, 11].contains d
  if [2, 3, 4, 5, 6, 7, 8, 9].contains m then all
  else if m = 10 then (if s.modes.phase = 0 then d == 11 || d == 9 else all)
  else if m = 11 then
    let t := fun i => s.pwr.selftest.testBit i
    match d with
    | 3 => t 5 | 4 => t 5 | 5 => t 4 | 8 => t 3 | 6 => t 2 | 7 => t 0 | _ => false
  else false
/-- A pending event of an action whose predicted release lies within a domain's wake time and its class's minimum lead (R256). -/
def State.sinkSoon (s : State) (action d : Nat) : Bool :=
  s.sch.events.any fun e => e.action == action && e.live &&
    (match s.predict e e.goal with
     | some p => decide (qdist p s.tb.q0 ≤ usUnits (wakeOff d + (minLead (classOf action)).getD 0))
     | none => false)
/-- Work waits for a domain, or another chapter keeps it on (R97, R134, R256, R406, R430, R484). -/
def State.keepsOn (s : State) (d : Nat) : Bool :=
  let chans := s.kite.chans.any fun e => e.2.active
  match d with
  | 1 => true
  | 2 => true
  | 3 => !s.gale.jobs.isEmpty
  | 4 => !s.gale.jobs.isEmpty
  | 5 => chans || !s.kite.cmds.isEmpty
  | 6 => (s.core 0).run.isSome || (s.core 1).run.isSome || !(s.core 0).ring.isEmpty || !(s.core 1).ring.isEmpty || s.sinkSoon 2 6
  | 7 => s.sinkSoon 2 7
  | 8 => !s.gale.jobs.isEmpty || chans
  | 9 => bit s.host.eth0.page.cfg 47 || bit s.host.eth1.page.cfg 47 || s.host.spi2.en || s.host.spi3.en || [0, 1, 2, 3, 4, 5, 6, 7].any fun l => (s.lnk l).en
  | 10 => [0, 1, 2, 3, 4, 5, 6, 7].any fun p => decide ((s.smp p).state = 2) || (s.smp p).startAt.isSome || s.sch.events.any fun e => e.action == 3 && (portsOf e.sink).contains p
  | 11 => !s.timeIdle || s.tb.step.isSome
  | _ => false
/-- A domain that holds work which off would destroy (R484). -/
def State.holdsWork (s : State) (d : Nat) : Bool :=
  match d with
  | 3 => !s.gale.jobs.isEmpty
  | 4 => !s.gale.jobs.isEmpty
  | 5 => s.kite.chans.any fun e => e.2.active
  | 6 => true
  | 7 => true
  | 10 => [0, 1, 2, 3, 4, 5, 6, 7].any fun p => decide ((s.smp p).state = 2)
  | _ => false
/-- The state chosen by rules 2 to 4 of R484; `idle` is how long the domain has been idle, µs. -/
def State.wish (s : State) (d idle : Nat) : Nat :=
  if s.forced d ≠ 0 then forcedState (s.forced d)
  else if s.modeNeeds d || s.keepsOn d then 2
  else
    let l := s.domLat d
    let lat := if l = unbounded then none else some (l - pointLat d (s.pointOf d))
    let fits := fun w => match lat with | none => true | some l => decide (w ≤ l)
    if !s.holdsWork d && fits (wakeOff d) && (decide (100000 ≤ idle) || decide (s.dom d = 0)) then 0
    else if fits 3 && decide (s.dom d ≠ 0) && (decide (1000 ≤ idle) || decide (s.dom d = 1)) && (d != 11 || s.timeIdle) then 1
    else if fits 3 && decide (s.dom d = 0) && (d != 11 || s.timeIdle) then 1
    else 2
/-- The states that the governor asks for, rule 1 of R484 applied (Table 2): a domain that needs D11 or D7 brings it up, unless a force holds that one back; D11 with an event, an output or a quantity does not go to retention. -/
def State.choose (s : State) (idle : List (Nat × Nat)) : Tab Nat :=
  let w := fun d => s.wish d (tget 0 d idle)
  let t0 : Tab Nat := [0, 1, 2].foldl (fun (t : Tab Nat) d => tput 0 d 2 t) []
  let t0 := [3, 4, 5, 6, 7, 8, 9, 10, 11].foldl (fun (t : Tab Nat) d => tput 0 d (w d) t) t0
  let t0 := if tget 0 11 t0 = 1 ∧ !s.timeIdle then tput 0 11 2 t0 else t0
  let held := fun (d : Nat) => decide (2 ≤ s.forced d)
  let lower := fun (ds : List Nat) (t : Tab Nat) => ds.foldl (fun (t : Tab Nat) d => if tget 0 d t = 2 then tput 0 d 1 t else t) t
  let t1 := if held 7 && decide (tget 0 7 t0 ≠ 2) then lower needsMem t0
    else if needsMem.any (fun d => tget 0 d t0 == 2) then tput 0 7 2 t0
    else if tget 0 9 t0 = 2 ∧ tget 0 7 t0 = 0 then tput 0 7 1 t0 else t0
  if held 11 && decide (tget 0 11 t1 ≠ 2) then lower needsTime t1
  else if needsTime.any (fun d => tget 0 d t1 == 2) then tput 0 11 2 t1 else t1
/-- Carry a choice out: up from D11 and D7 to those that need them, then down in the reverse order (R479). -/
def State.carryOut (t : Tab Nat) (s : State) : State :=
  let up := fun (s : State) d => if tget 0 d t = 2 then s.domTo d 2 else s
  let down := fun (s : State) d => if tget 0 d t ≠ 2 then s.domTo d (tget 0 d t) else s
  let s : State := [11, 7, 9, 8, 6, 5, 3, 4, 10].foldl up s
  [10, 3, 4, 5, 6, 8, 9, 7, 11].foldl down s
/-- The point that R485 asks for: forced, F2 for FULL, for the modes' D6 and in the fast searches of D3 and D4, otherwise the lowest whose latency fits and which offers 1.25 times the demand (MHz). -/
def State.wantPoint (s : State) (d demand : Nat) : Nat :=
  let f := tget 0 d s.pwr.fpt
  if f ≠ 0 then f - 1
  else if s.domFull d ∨ (d = 6 ∧ s.modeNeeds 6 ∧ s.modes.mode ≠ 11) ∨ ((d = 3 ∨ d = 4) ∧ (s.modes.mode = 2 ∨ s.gale.jobs.any fun j => j.hot)) then 2
  else
    let l := s.domLat d
    let ok := fun pt => decide (l = unbounded ∨ pointLat d pt ≤ l) && decide (5 * demand ≤ 4 * pointMHz d pt)
    if ok 0 then 0 else if ok 1 then 1 else 2
/-- One step toward the wanted point (R488): voltage before frequency going up, frequency before voltage going down. -/
def State.movePoint (d demand : Nat) (s : State) : State :=
  match oppIndex d with
  | none => s
  | some i =>
    if !s.isOn d then s
    else
      let w := s.wantPoint d demand
      let o := s.clk.opp i
      if w = o.freq then (if w < o.volt then s.setOpp i { o with volt := w, settling := none, wish := none } else s)
      else if w < o.freq then s.freqRequest i w
      else if o.volt < w then s.setOpp i { o with settling := some w }
      else s.freqRequest i w
/-- The latency a class can achieve now, µs: the slowest domain it binds, and for SEARCH the faster engine half. -/
def State.achievable (s : State) (c : Nat) : Nat :=
  let l := fun d => wakeFrom d (s.dom d) + pointLat d (s.pointOf d)
  if c = 1 then min (l 3) (l 4) else (classDoms c).foldl (fun m d => max m (l d)) 0
/-- A force or a keep holds a class back (R486). -/
def State.heldBack (s : State) (c : Nat) : Bool := (classDoms c).any fun d => s.forced d != 0 || tget 0 d s.pwr.fpt != 0 || s.modeNeeds d || s.keepsOn d
/-- BUDGET_UNMET to the partners whose budget has just been broken; the record of a further break waits until it has been met (R486). -/
def State.judgeBudgets (s : State) : State :=
  let s : State := [0, 1, 2, 3, 4].foldl (fun (s : State) p => [0, 1, 2, 3, 4, 5, 6].foldl (fun (s : State) c =>
    let b := s.budget p c
    let a := s.achievable c
    let miss := b.lat != unbounded && decide (b.lat < a) && s.heldBack c && decide ((s.part p).rights ≠ 0)
    let was := tget false (8 * p + c) s.pwr.unmet
    let s := s.onPwr fun x => { x with unmet := tput false (8 * p + c) miss x.unmet }
    if miss && !was then s.raise p false 0x802 [word c, word a] else s) s) s
  [0, 1, 2, 3, 4, 5, 6].foldl (fun (s : State) c =>
    let l := s.classLat c
    s.onPwr fun x => { x with
      effLat := tput unbounded c l x.effLat, effFull := tput false c (s.classFull c) x.effFull
      met := tput true c (decide (l = unbounded) || decide (s.achievable c ≤ l)) x.met }) s
/-- GOVERNOR_EVALUATION (R484-R486). `demand` is each domain's over the last 100 ms in MHz, `idle` how long each has been idle in µs. -/
def execGovernorEvaluation (t : Lapse) (demand idle : List (Nat × Nat)) (s : State) : Host.Outcome State Fault Refusal :=
  let s := (s.elapse t).settleTime
  if s.pwr.ready ∧ s.isOn 1 then
    let c := s.choose idle
    let s := (s.onPwr fun p => { p with req := c }).carryOut c
    let s : State := [1, 3, 4, 6].foldl (fun (s : State) d => s.movePoint d (tget 0 d demand)) s
    .next s.judgeBudgets
  else .next s

/-! PWR_DOMAIN. -/

/-- The states of Table 2 that the forces would contradict, with d forced to v (2 ON, 1 RETENTION, 0 OFF). -/
def State.breaksTable (s : State) (d v : Nat) : Bool :=
  let f := fun x => if x = d then some v else if s.forced x = 0 then none else some (forcedState (s.forced x))
  let low := fun x => match f x with | some y => decide (y ≠ 2) | none => false
  let isUp := fun x => match f x with | some y => decide (y = 2) | none => decide (x ≠ d) && s.isOn x
  (d == 6 && v == 0) || (d == 7 && v == 0) ||
  (low 11 && needsTime.any isUp) || (low 7 && needsMem.any isUp) || (d == 11 && v == 1 && !s.timeIdle)
/-- A pending event keeps the domain on (R256). -/
def State.pendingNeeds (s : State) (d : Nat) : Bool :=
  match d with
  | 11 => !s.sch.events.isEmpty
  | 9 => s.sinkSoon 1 9
  | 6 => s.sinkSoon 2 6
  | 7 => s.sinkSoon 2 7
  | 10 => s.sinkSoon 3 10
  | _ => false
/-- DORMANT is refused as BUSY (Table 7). -/
def State.dormantBusy (s : State) : Bool :=
  !s.sch.events.isEmpty || [0, 1, 2, 3, 4, 5, 6, 7].any (fun p => decide ((s.smp p).state = 2)) || (s.core 0).run.isSome || (s.core 1).run.isSome ||
  !(s.core 0).ring.isEmpty || !(s.core 1).ring.isEmpty || s.gale.jobs.any (fun j => decide (j.who < 5)) ||
  s.kite.chans.any (fun e => e.2.active && decide (e.2.owner < 5)) || s.pwr.selftest != 0 || s.pwr.fw.session == 1 || s.tb.step.isSome
/-- The code of a force in PWR_FORCE for STATE of PWR_DOMAIN. -/
def forceCode (state : Nat) : Nat := state + 1
/-- PWR_DOMAIN (0x0C1, R487, Table 7): 0 FORCE, 1 RELEASE, 2 DORMANT. -/
def opPwrDomain : OpSpec :=
  { code := 0x0C1, rights := 3
    eval := fun k s =>
      let w := arg k.ps 0
      let op := fld w 47 46
      let d := fld w 45 42
      let st := fld w 41 40
      let fpt := fld w 39 38
      let v := 2 - st
      let hasPoint := [1, 3, 4, 6].contains d
      let badDom := decide (d = 0 ∨ d = 2 ∨ 11 < d)
      if k.ps.length ≠ 1 ∨ op = 3 then badParam 1
      else if op = 0 then
        if badDom ∨ st = 3 ∨ (d = 1 ∧ st ≠ 0) ∨ (fpt ≠ 0 ∧ (st ≠ 0 ∨ !hasPoint)) then badParam 1
        else if s.breaksTable d v then notPermitted 2
        else if v ≠ 2 ∧ s.pendingNeeds d then notPermitted 3
        else
          { status := .accepted, pins := [.config 0x0C1 d]
            act := fun _ s =>
              let s := s.onPwr fun p => { p with force := tput 0 d (forceCode st) p.force, fpt := tput 0 d fpt p.fpt }
              s.domTo d v }
      else if op = 1 then
        if badDom then badParam 1
        else
          { status := .accepted, pins := [.config 0x0C1 d]
            act := fun _ s => s.onPwr fun p => { p with force := tput 0 d 0 p.force, fpt := tput 0 d 0 p.fpt } }
      else if !s.host.s0.wakeEn ∧ !(bit s.rtc.ctlA 47 && bit s.rtc.ctlA 39) ∧ !(bit s.rtc.ctlB 47 && bit s.rtc.ctlB 39) then notPermitted 4
      else if s.dormantBusy then notPermitted 5
      else acceptWith [] fun _ s => s.onPwr fun p => { p with dormantReq := true } }
/-- PWR_DOMAIN FORCE. -/
def execPwrDomainForce (t : Lapse) (env : Env) (ps : List Word) (s : State) : Host.Outcome State Fault Refusal := runOp opPwrDomain t env (fixField 47 46 0 ps) s
/-- PWR_DOMAIN RELEASE. -/
def execPwrDomainRelease (t : Lapse) (env : Env) (ps : List Word) (s : State) : Host.Outcome State Fault Refusal := runOp opPwrDomain t env (fixField 47 46 1 ps) s
/-- PWR_DOMAIN DORMANT. -/
def execPwrDomainDormant (t : Lapse) (env : Env) (ps : List Word) (s : State) : Host.Outcome State Fault Refusal := runOp opPwrDomain t env (fixField 47 46 2 ps) s
/-- PAD_RELEASE (0x0C2, R492): the release of a latched domain that is on happens at once. -/
def opPadRelease : OpSpec :=
  { code := 0x0C2
    eval := fun k s =>
      let m := fld (arg k.ps 0) 47 45
      let ds := [9, 10, 11].filter fun d => match padBit d with | some b => m.testBit b | none => false
      let lat := fun d => match padBit d with | some b => s.pwr.latched.testBit b | none => false
      if k.ps.length ≠ 1 ∨ m = 0 then badParam 1
      else if ds.any fun d => lat d && !s.isOn d then notPermitted 2
      else doneWith [] fun _ s =>
        let s := if ds.contains 11 then s.onPwr fun p => { p with cut := 0 } else s
        ds.foldl (fun (s : State) d => s.unlatchPads d) s }
/-- PAD_RELEASE. -/
def execPadRelease (t : Lapse) (env : Env) (ps : List Word) (s : State) : Host.Outcome State Fault Refusal := runOp opPadRelease t env ps s

/-! Registers (Tables 13-17). -/

/-- Two bits per domain D0–D11, D0 at [47:46]. -/
def domWord (f : Nat → Nat) : Word := pack ((List.range 12).map fun d => put (47 - 2 * d) (46 - 2 * d) (f d))
/-- PWR_FORCE: F_D1 at [47:46] to F_D11, then the forced points. -/
def State.forceWord (s : State) : Word :=
  let p := fun d => tget 0 d s.pwr.fpt
  pack (((List.range 11).map fun i => put (47 - 2 * i) (46 - 2 * i) (s.forced (i + 1))) ++ [put 25 24 (p 1), put 23 22 (p 3), put 21 20 (p 4), put 19 18 (p 6)])
/-- PWR_SUPPLY. -/
def Power.supply (p : Power) : Word :=
  pack [putB 47 p.good, putB 46 p.dc, put 45 44 p.stages, put 43 37 p.holdup, put 36 27 p.volts, put 26 20 (if p.dc then 0 else p.hz)]
/-- A word of the PWR block (Table 12), by offset. -/
def State.pwrReg (s : State) (off : Nat) : Word :=
  if off = 0 then domWord s.dom
  else if off = 1 then domWord fun d => tget 0 d s.pwr.req
  else if off = 2 then s.forceWord
  else if off = 3 then s.pwr.supply
  else if off = 4 then pack [put 47 32 s.pwr.losses, put 31 16 s.pwr.dormants, put 15 0 s.pwr.wakes]
  else if 0x10 ≤ off ∧ off < 0x38 then
    (if off % 8 = 7 then 0 else pack [put 47 24 (s.budget ((off - 0x10) / 8) (off % 8)).lat, putB 23 (s.budget ((off - 0x10) / 8) (off % 8)).full])
  else if 0x40 ≤ off ∧ off < 0x47 then
    pack [put 47 24 (tget unbounded (off - 0x40) s.pwr.effLat), putB 23 (tget false (off - 0x40) s.pwr.effFull), putB 22 (tget true (off - 0x40) s.pwr.met)]
  else 0
/-- A word of the PAD block (Table 17), by offset. -/
def Power.padReg (p : Power) (off : Nat) : Word :=
  match off with
  | 0 => pack [put 47 45 p.padCfg]
  | 1 => pack [put 47 45 p.latched, put 44 42 p.relPend, put 41 34 p.cut]
  | 2 => pack [put 47 24 p.latches, put 23 0 p.cuts]
  | _ => 0

end Sys2Proof.Machine
end

