-- ==== Sys2Proof/Machine/Lifecycle.lean ====
section
/-! DEFINITION. The module's life: mains loss and load shedding (R326, R493-R496), bring-up (R497, R498), replay and ready (R332-R335), the dormant state and waking (R489, R490), resets (R309, R332), the cell's switch-over (R468, R469, R471), self-tests (R310), firmware (R311), converter stages (R337). -/
namespace Sys2Proof.Machine
open Sys2Proof

/-! What stops with D1. -/

/-- Everything in the landing buffer and the mark ring goes to the working stores (R326, R489). -/
def State.flushOnce (s : State) : State :=
  if s.jrn.working then
    let gs := s.jrn.landing
    let s := s.putJrn { s.jrn with landing := [], marks := foldMarks s.jrn.markRing s.jrn.marks, markRing := [] }
    gs.foldl (fun (s : State) g =>
      let s := State.ringRoom (2 * ringSize) g.entries s
      (s.putJrn { s.jrn with ring := s.jrn.ring ++ [g], storeA := s.jrn.storeA.took g.jsn, storeB := s.jrn.storeB.took g.jsn })) s
  else s
/-- The same, with what retirements on the way have sealed. -/
def State.flush (s : State) : State := s.flushOnce.flushOnce
/-- A staging copy at a reset of D1 (R513): STAGED becomes LOST, any other EMPTY. -/
def loseCopies (cs : List StageCopy) : List StageCopy :=
  (cs.filter fun c => match c.st with | .staged _ => true | .lost => false).map fun c => { c with st := .lost }
/-- A store whose REMIRROR D1's reset interrupts counts as FAILED again (R337). -/
def Store.interrupted (x : Store) : Store := if x.stat = 1 then { x with stat := 2 } else x
/-- A pending event at an outage: what was sent and not reported is asked for afterwards (R255), and it waits for its evaluation (R253). -/
def Event.outageBegins (e : Event) : Event :=
  let e := { e with sent := e.sent.map Sent.atOutage }
  if e.st = .pending then { e with armed := false, st := .outage } else e
/-- D1 stops, for a reset or for good: what it alone holds is gone (R264, R265, R309, R311, R333, R337, R513), and the outage begins (R18): Gale's jobs end and wait to be told (R95, R97), messages in progress and the gaps of OBS records are lost (R151, R159). A RESET that waits is marked executed (R333). One that ends a firmware update restarts the mode machine (R187). -/
def State.cmdStops (s : State) : State :=
  let s : State := [0, 1, 2, 3, 4].foldl (fun (s : State) p => s.setPart p { s.part p with permit := none, lastReply := none }) s
  let j := s.jrn
  let j := match s.pwr.reset with
    | some r => j.mapGroups fun g => if g.jsn = r.jsn then { g with exec := true } else g
    | none => j
  let spi := fun (x : SpiPort) => { x with rx := [], tx := [] }
  let s := (((s.putJrn { j with storeA := j.storeA.interrupted, storeB := j.storeB.interrupted }).putStage (loseCopies s.stage)).putHost { s.host with spi2 := spi s.host.spi2, spi3 := spi s.host.spi3, reasm := [], parse := [], turn := 0 }).putSch { s.sch with events := s.sch.events.map Event.outageBegins }
  let fw := decide (s.pwr.fw.session ≠ 0)
  let s := s.onPwr fun p => { p with ready := false, reset := none, dormantReq := false, selftest := 0, sc6 := p.sc6 && !p.ready, sc7 := p.sc7 && !p.ready, sc11 := p.sc11 && !p.ready, fw := { p.fw with session := 0, words := [] } }
  let s := (s.oppReset 1).putJrn { s.jrn with rstOut := s.tb.q0 }
  let s := if fw then s.modeDown else s
  s.galeAbort.measOutage
/-- D1 and D2 are off: their counters restart, and what the stores did not take is lost (R339, R518). -/
def State.cmdOff (s : State) : State :=
  let s : State := [0, 1, 2, 3, 4].foldl (fun (s : State) p => s.setPart p { s.part p with cntAuth := 0, cntCheck := 0, cntGap := 0, busy := 0 }) s
  let s : State := [0, 1, 2, 3, 4, 5, 6, 7].foldl (fun (s : State) l => s.setLb l { floatWords := (s.lb l).floatWords }) s
  let s := s.putJrn { s.jrn with fault := 0, cntGroups := 0, cntCarried := 0, landing := [], markRing := [] }
  s.setDom 1 0
/-- The parts that only a bring-up tests again (R338), as they stand before D7 goes off. -/
def State.noteRetest (s : State) : State :=
  let bits := fun (n m : Nat) => (List.range n).filter fun i => m.testBit i
  let banks := (List.range 32).filter fun b => (tget ({} : Bank) b s.mem.banks).state != 0
  let r := (bits 4 s.fc.core).map (fun i => (0x012, i)) ++ banks.map (fun b => (0x011, b)) ++ (bits 2 s.fc.conv).map fun i => (0x016, i)
  s.onPwr fun p => { p with retest := r }
/-- D3 to D6, D8 and D10 go off, in the order of R479. -/
def State.workOff (s : State) : State := [10, 3, 4, 5, 6, 8].foldl (fun (s : State) d => s.domOff d) s
/-- D11's power-down has ended, or need not wait any longer (R495). -/
def State.timeSettled (s : State) : Bool :=
  !s.pwr.timeDown || decide (s.pwr.downClk + 65472000 ≤ s.tb.clk) || [0, 1, 2, 3, 4, 5, 6, 7].all fun n => !s.outActive n
/-- D11 goes off if it is not (R205, R495). -/
def State.timeEnd (s : State) : State := s.timeDownBegins.settleTime
/-- Steps 3 and 4 of Table 10: D1 and D9 go off, then D2 and D7, and D11 is off. -/
def State.shedAll (s : State) : State :=
  let s := s.noteRetest.cmdStops.cmdOff
  let s := ((s.domOff 9).domOff 7).setDom 2 0
  (if s.pwr.timeDown then s.domOff 11 else s).onPwr fun p => { p with phase := .shed }
/-- Where a mains loss still runs down, it has done so (R494). -/
def State.shedIfDue (s : State) : State := if s.pwr.phase = .mainsLoss then s.shedAll else s

/-! Ready. -/

/-- A store at the start of D1 (R333, R337): a store that is not FAILED and fails its superblock check becomes FAILED; a FAILED one that passes its test is rebuilt, unless no store works. -/
def State.storeTest (i : Nat) (pass : Bool) (s : State) : State :=
  let x := s.jrn.store i
  if x.stat ≠ 2 then (if pass then s else s.storeFails i)
  else if pass ∧ (s.jrn.store (1 - i)).stat ≠ 2 then s.putJrn (s.jrn.setStore i { x with stat := 1 })
  else s
/-- The body of a SWITCHOVER record (Table 2 of R469). -/
def Rtc.switchBody (r : Rtc) (mv : Nat) : List Word :=
  let f := fun (x : Option (Nat × Nat)) => match x with | some v => (word v.1, pack [put 47 32 v.2]) | none => (0, 0)
  [pack [put 47 40 0x08], pack [put 47 24 (satN 24 r.swCount), putB 23 r.swFirst.isSome, putB 22 r.swRet.isSome],
    (f r.swFirst).1, (f r.swFirst).2, (f r.swRet).1, (f r.swRet).2, pack [put 47 36 mv]]
/-- The records that have waited for ready (R188, R310, R462, R469, R470, R477, R495, R311). -/
def State.readyRecords (cold : Bool) (s : State) : State :=
  let s := s.modeReady
  let s := if s.pwr.cutRec ≠ 0 then (s.raiseAll true 0x801 [word s.pwr.cutRec]).onPwr fun p => { p with cutRec := 0 } else s
  let s := if cold then s.raiseAll false 0xE06 [word (s.rtc.keep.hdr.getD 0)] else s
  let as_ := s.rtc.alarmRecs
  let cs := s.rtc.cellRecs
  let sw := s.rtc.swPend
  let s := s.onRtc fun r => { r with alarmRecs := [], cellRecs := [], swPend := none }
  let s := as_.foldl (fun (s : State) a => s.alarmRecord a) s
  let s := cs.foldl (fun (s : State) c => s.raiseAll true c.1 [word c.2]) s
  let s := match sw with
    | some mv => [0, 1, 2, 3, 4].foldl (fun (s : State) p => s.record p false (s.rtc.switchBody mv)) s
    | none => s
  let ts := s.pwr.retest
  let s := ts.foldl (fun (s : State) x => s.partRestored x.1 x.2) (s.onPwr fun p => { p with retest := [] })
  let s := if s.pwr.fw.told then (s.raiseAll true 0xF02 []).onPwr fun p => { p with fw := { p.fw with told := false } } else s
  s.galeReady.kiteReady
/-- Ready (R33, R168, R315, R332, R475, R477): Tether has the RTC's time where D11 restarted, the RST words are written, REPLAY_DONE is sealed after a replay, the HDR section takes the new COUNT, the mode machine leaves BRINGUP where D6 or D11 restarted, and the waiting records leave. `d1` says that D1 restarted. -/
def State.becomeReady (d1 : Bool) (s : State) : State :=
  let s := if s.pwr.sc11 then s.loadTime else s
  let cold := s.rtc.coldPend
  let p := s.pwr
  let cause := if cold then 1 else p.cause
  let n := if cold then 0 else satN 32 (s.jrn.rstCount + 1)
  let w := pack [put 47 44 cause, putB 43 d1, putB 42 p.sc6, putB 41 p.sc7, putB 40 p.sc11, put 39 38 p.wd, put 31 0 n]
  let s := s.putJrn { s.jrn with rstCause := w, rstRdy := s.tb.q0, rstCount := n }
  let s := if d1 then s.sealSystem 1 [w, cyc s.jrn.rstOut, frc s.jrn.rstOut] else s
  let s := s.onPwr fun p => { p with ready := true, readyClk := s.tb.clk, phase := .running, cause := 0, wd := 0, fw := { p.fw with tries := 0 } }
  let s := if p.sc6 ∨ p.sc11 ∨ s.modes.mode = 0 then s.modeRestart else s.newTicks
  let s := s.readyRecords cold
  let s := s.onRtc fun r => Rtc.write [0] (fun k => { k with hdr := some n }) { r with coldPend := false }
  let s := s.onPwr fun p => { p with sc6 := false, sc7 := false, sc11 := false }
  if d1 then [0, 1, 2, 3, 4].foldl (fun (s : State) q => s.resendFrom q (s.part q).ev.ackFirst) s.sendsReady else s
/-- REPLAY (R333-R335): D1's firmware is ready; `testA` and `testB` say whether the stores pass their checks or tests, `finds` what the scan of the rings finds, and the stores are reconciled (R334). D6 has its images checked and D9 its links, Ndovos opens its own trim window (R466), and the module is ready. -/
def execReplay (t : Lapse) (testA testB : Bool) (finds : List Find) (s : State) : Host.Outcome State Fault Refusal :=
  let s := s.elapse t
  if s.pwr.phase = .bringup ∧ s.isOn 1 ∧ !s.pwr.ready then
    let s := ((s.storeTest 0 testA).storeTest 1 testB).reconcile finds
    let s := if s.pwr.sc6 then s.dspUp else s
    let s := s.linksOn
    let s := (s.trimAbort.onRtc fun r => { r with run := some ownTrim }).trimWatch
    .next (s.becomeReady true)
  else .next s

/-! Mains. -/

/-- Mains loss (R326, R493-R495, R498). In operation: acceptance stops, the working domains shed, D7 keeps its content, D11's power-down and the outage begin, and landing buffer, mark ring and POWER_LOSS reach the stores. In the dormant state D2 goes off. During bring-up everything goes off; nothing is sealed before ready. -/
def State.mainsLost (s : State) : State :=
  let s := (s.putFresh (s.fresh + 2)).putPwr { s.pwr with good := false, losses := satN 16 (s.pwr.losses + 1), lossClk := s.tb.clk, volts := Config.freeNat s.fresh % 1024, hz := Config.freeNat (s.fresh + 1) % 128 }
  let s := match s.rtc.run with | some r => if r.kind = 1 then s.trimAbort else s | none => s
  let s : State := (List.range 16).foldl (fun (s : State) n =>
    if s.kind n = 4 then State.follow 16 n (s.setQty n ((s.qty n).invalid s.tb.q0)) else s) s
  match s.pwr.phase with
  | .running =>
    let s := (s.onPwr fun p => { p with ready := false, phase := .mainsLoss }).turnAway.modeDown.measOutage
    let s := ((s.workOff).domRetain 7).timeDownBegins
    let s := s.putJrn { s.jrn with rstOut := s.tb.q0 }
    ((s.flush.sealSystem 2 []).flush).settleTime
  | .bringup =>
    let s := s.modeDown.workOff.timeDownBegins
    let s := s.flush.noteRetest.cmdStops.cmdOff
    (((s.domOff 9).domOff 7).setDom 2 0).settleTime.onPwr fun p => { p with phase := .shed }
  | .dormant => (s.setDom 2 0).onPwr fun p => { p with dormLoss := true }
  | _ => s
/-- MAINS_LOSS. -/
def execMainsLoss (t : Lapse) (s : State) : Host.Outcome State Fault Refusal :=
  let s := (s.elapse t).settleTime
  if s.pwr.good then .next s.mainsLost else .next s
/-- MAINS_GOOD_RETURN (R326, R490, R496): mains-good has held for 100 ms. With D1 and D2 still on the shed domains come up and the module is ready without replay; in the dormant state it is a wake; later the load has been shed. -/
def execMainsGoodReturn (t : Lapse) (s : State) : Host.Outcome State Fault Refusal :=
  let s := s.elapse t
  if s.pwr.good then .next s
  else match s.pwr.phase with
  | .mainsLoss =>
    if s.tb.clk < s.pwr.lossClk + 65472000 then .next s
    else if s.tb.clk ≤ s.pwr.lossClk + 72019200 then
      let s := s.onPwr fun p => { p with good := true, cause := 0 }
      let s := if s.pwr.timeDown then s.domOff 11 else s
      let s := ((s.domOn 11).domOn 7).domOn 6
      .next ((s.onPwr fun p => { p with sc6 := true, sc7 := false, sc11 := true }).becomeReady false)
    else .next s.shedAll
  | .dormant =>
    if s.pwr.dormLoss then .next (s.onPwr fun p => { p with good := true, dormLoss := false, wakeReq := some 6 })
    else .next s
  | _ => .next s
/-- A bring-up or wake starts an image (R311, R508): the activated one; after two bring-ups in a row that did not reach ready, the previous one again. -/
def Firmware.start (f : Firmware) : Firmware :=
  if f.activated then
    { f with active := 1 - f.active, altValid := true, activated := false, fallback := false, altMajor := 2, altMinor := (Config.fwRelease f.runs).toNat / 2 ^ 32, tries := 1, runs := f.runs + 1 }
  else if 2 ≤ f.tries then
    { f with active := 1 - f.active, altValid := true, fallback := true, told := true, altMajor := (Config.altRelease f.hash).toNat / 256, altMinor := (Config.altRelease f.hash).toNat % 256, tries := 0, runs := f.runs + 1 }
  else { f with tries := if f.tries = 0 then 0 else f.tries + 1, fallback := false }
/-- Every section of the backup store that has a valid copy, section 0 first. -/
def Backup.valid (k : Backup) : Nat :=
  pack [putB 7 k.hdr.isSome, putB 6 k.svc.isSome, putB 5 k.mode.isSome, putB 4 (!k.survey.isEmpty), putB 3 k.clock.isSome, putB 2 k.time.isSome, putB 1 k.posvel.isSome, putB 0 k.nav.isSome] |>.toNat
/-- The sections are loaded at bring-up, each from its newest copy that passes its CRC (R475). `bad` names the copies that fail it: section, and 0 the newest or 1 the one before. FALLBACK marks a section loaded from its older copy, VALID one that has a copy at all. -/
def Rtc.loadSections (bad : List (Nat × Nat)) (r : Rtc) : Rtc :=
  let old := (List.range 8).foldl (fun o i => if bad.contains (i, 1) then Backup.copy i {} o else o) r.keepOld
  let fell := (List.range 8).filter fun i => bad.contains (i, 0)
  let keep := fell.foldl (fun k i => Backup.copy i old k) r.keep
  let old := fell.foldl (fun o i => Backup.copy i {} o) old
  let fall := fell.foldl (fun n i => if keep.valid.testBit (7 - i) then setBit n (7 - i) else n) 0
  { r with keep := keep, keepOld := old, bksValid := keep.valid, bksFall := fall }
/-- The domains of a start of D1 from off come up (Tables 8, 11), every part but the stores is tested again, Ndovos boots, and D0 has its words back from the backup store after a cold reset (R471). -/
def State.powerUp (bad : List (Nat × Nat)) (s : State) : State :=
  let s := (s.putFc { s.fc with core := 0, conv := 0 }).putDsp { s.dsp with failed := 0, navMeas := 0, navSol := 1, c2 := { s.dsp.c2 with failed := false }, c3 := { s.dsp.c3 with failed := false } }
  let s := s.onRtc fun r =>
    let r := r.loadSections bad
    if r.coldPend then { r with trim := match r.keep.clock with | some c => c.trim | none => 0 } else r
  let s := if s.rtc.coldPend then
      match s.rtc.keep.svc with
      | some (a, w, l) => s.putHost { s.host with s0 := { s.host.s0 with addr := a, wakeEn := w, lock := l } }
      | none => s
    else s
  let s := s.onPwr fun p => { p with sc6 := true, sc7 := true, sc11 := true, stages := 3, fw := p.fw.start }
  let s := ((s.domOn 11).domOn 7).setDom 9 2
  let s := (((s.padsOn 9).setDom 6 2).oppReset 6).setDom 2 2
  ((s.setDom 1 2).oppReset 1).onPwr fun p => { p with phase := .bringup }
/-- The input meets the good threshold (R493). -/
def goodInput (volts hz : Nat) (dc : Bool) : Bool :=
  if dc then decide (105 ≤ volts) else Config.inputAc && decide (80 ≤ volts ∧ 47 ≤ hz ∧ hz ≤ 63)
/-- The module can be brought up: D1 is off, outside the dormant state, with D11's power-down over and D0 not on the cell (R497). -/
def State.canStart (s : State) : Bool :=
  (s.pwr.phase == .shed || s.pwr.phase == .bringup || (s.pwr.phase == .mainsLoss && decide (s.pwr.lossClk + 72019200 < s.tb.clk))) &&
  !(s.pwr.phase == .bringup && s.isOn 1) && s.timeSettled && s.rtc.source == 0
/-- The OCXO has its supply again after it stopped: it warms up (R209, R210). -/
def State.ocxoStarts (s : State) : State :=
  if s.clk.stopped then s.putClk { s.clk with ocxo := 0, warmed := false, powerClk := s.tb.clk, refOk := true, lostClk := none, stopped := false } else s
/-- BRING_UP (R497): mains is applied with D1 off, or a RESET of the module restarts it; up to the start of D1. -/
def execBringUp (t : Lapse) (volts hz : Nat) (dc : Bool) (bad : List (Nat × Nat)) (s : State) : Host.Outcome State Fault Refusal :=
  let s := s.elapse t
  if s.canStart ∧ goodInput volts hz dc then
    let s := s.shedIfDue
    let s := if s.pwr.timeDown then s.domOff 11 else s
    let s := s.ocxoStarts
    let s := s.onPwr fun p => { p with cause := if p.good then p.cause else 0, good := true, volts := satN 10 volts, hz := satN 7 hz, dc := dc, holdup := 100 }
    .next (s.powerUp bad)
  else .next s

/-! The dormant state. -/

/-- DORMANT_ENTRY (R489): after the DORMANT reply has left. -/
def execDormantEntry (t : Lapse) (s : State) : Host.Outcome State Fault Refusal :=
  let s := s.elapse t
  if s.pwr.dormantReq ∧ s.pwr.ready then
    let s := s.modeDown.noteRetest
    let s := (s.workOff.domOff 9).domOff 7
    let s := s.timeEnd.flush.cmdStops.cmdOff
    .next ((s.setDom 2 1).onPwr fun p => { p with phase := .dormant, dormants := satN 16 (p.dormants + 1), dormLoss := false, wakeReq := none })
  else .next s
/-- WAKE (R490): a wake event of the dormant state is carried out: 4 S0, 5 alarm, 6 mains. -/
def execWake (t : Lapse) (cause : Nat) (bad : List (Nat × Nat)) (s : State) : Host.Outcome State Fault Refusal :=
  let s := (s.elapse t).settleTime
  if s.pwr.phase = .dormant ∧ s.pwr.wakeReq = some cause ∧ s.pwr.good ∧ !s.pwr.timeDown then
    let s := if cause = 4 then (s.putHost { s.host with s0 := { s.host.s0 with wakes := satN 16 (s.host.s0.wakes + 1) } }) else s
    .next ((s.onPwr fun p => { p with cause := cause, wakes := satN 16 (p.wakes + 1), wakeReq := none }).powerUp bad)
  else .next s

/-! Resets. -/

/-- RESET (0x101, R309). -/
def opReset : OpSpec :=
  { code := 0x101, rights := 3
    eval := fun k _ =>
      let scope := fld (arg k.ps 0) 47 46
      if k.ps.length ≠ 1 ∨ 2 ≤ scope then badParam 0
      else acceptWith [] fun jsn s => if s.pwr.reset.isSome then s else s.onPwr fun p => { p with reset := some ⟨scope, jsn, s.tb.clk⟩ } }
/-- RESET with SCOPE 0. -/
def execResetModule (t : Lapse) (env : Env) (ps : List Word) (s : State) : Host.Outcome State Fault Refusal := runOp opReset t env (fixField 47 46 0 ps) s
/-- RESET with SCOPE 1. -/
def execResetCmd (t : Lapse) (env : Env) (ps : List Word) (s : State) : Host.Outcome State Fault Refusal := runOp opReset t env (fixField 47 46 1 ps) s
/-- D1 alone is reset (R332): replay follows. -/
def State.cmdReset (cause wd : Nat) (s : State) : State :=
  s.cmdStops.onPwr fun p => { p with cause := cause, wd := wd, phase := .bringup }
/-- Every domain but D0 is reset (R309): what is in the landing buffer is written, and the bring-up follows. -/
def State.moduleReset (s : State) : State :=
  let s := s.noteRetest.modeDown
  let s := (s.workOff.domOff 9).domOff 7
  let s := s.timeEnd.flush.cmdStops.cmdOff
  (s.setDom 2 0).onPwr fun p => { p with cause := 3, phase := .bringup }
/-- RESET_BEGIN (R309): 1 ms after the reply the entry is marked executed and the reset begins. -/
def execResetBegin (t : Lapse) (s : State) : Host.Outcome State Fault Refusal :=
  let s := s.elapse t
  match s.pwr.reset with
  | some r =>
    if s.pwr.ready ∧ r.clk + 654720 ≤ s.tb.clk then .next (if r.scope = 0 then s.moduleReset else s.cmdReset 3 0)
    else .next s
  | none => .next s
/-- D6 is reset (R332, R430): tasks and starts are lost and told, images checked, and the mode machine restarts. The RST words are written at once, since the module stays ready. -/
def State.dspReset (s : State) : State :=
  let s := s.putJrn { s.jrn with rstOut := s.tb.q0 }
  let s := (s.dspDown.dspUp.oppReset 6).modeDown.measOutage
  (s.onPwr fun p => { p with cause := 2, wd := 2, sc6 := true, sc7 := false, sc11 := false }).becomeReady false
/-- WATCHDOG (R332): 1 the command unit's, 2 Ndovos's. -/
def execWatchdog (t : Lapse) (src : Nat) (s : State) : Host.Outcome State Fault Refusal :=
  let s := s.elapse t
  let up : Bool := s.isOn 1 && (s.pwr.phase == .running || s.pwr.phase == .bringup)
  if src = 1 ∧ up then .next (s.cmdReset 2 1)
  else if src = 2 ∧ s.pwr.ready ∧ s.isOn 6 then .next s.dspReset
  else .next s
/-- LOCKSTEP_FAULT (R332): the two lockstep processors of the command unit disagree. -/
def execLockstepFault (t : Lapse) (s : State) : Host.Outcome State Fault Refusal :=
  let s := s.elapse t
  if s.isOn 1 ∧ (s.pwr.phase = .running ∨ s.pwr.phase = .bringup) then .next (s.cmdReset 7 0) else .next s
/-- CONVERTER_STAGE_FAILED (R337, R339): 0 A, 1 B; with both failed mains is lost. -/
def execConverterStageFailed (t : Lapse) (stage : Nat) (s : State) : Host.Outcome State Fault Refusal :=
  let s := s.elapse t
  if stage < 2 ∧ s.pwr.good ∧ !s.fc.conv.testBit stage then
    let s := (s.putFc { s.fc with conv := setBit s.fc.conv stage }).putPwr { s.pwr with stages := clearBits s.pwr.stages (2 ^ (1 - stage)) }
    let s := if s.isOn 1 then s.partFailed 0x016 stage else s
    .next (if s.fc.conv = 3 then s.mainsLost else s)
  else .next s

/-! The cell. -/

/-- SWITCHOVER (R468): the cell begins to carry D0; the OCXO stops (R209). -/
def execSwitchover (t : Lapse) (s : State) : Host.Outcome State Fault Refusal :=
  let s := (s.elapse t).settleTime
  if !s.pwr.good ∧ s.rtc.source = 0 then
    let s := s.shedIfDue
    .next ((s.putClk { s.clk with stopped := true }).onRtc fun r => { r with source := 1, swCount := satN 48 (r.swCount + 1), swFirst := some (r.swFirst.getD (r.sec, r.frac)) })
  else .next s
/-- SWITCH_RETURN (R468): the converter input rises above the cell, of `mv` millivolts, with mains-good; the OCXO has its supply again (R209). -/
def execSwitchReturn (t : Lapse) (mv : Nat) (s : State) : Host.Outcome State Fault Refusal :=
  let s := s.elapse t
  if s.rtc.source = 1 then
    .next (s.ocxoStarts.onRtc fun r => { r with source := 0, swRet := some (r.sec, r.frac), swPend := some (satN 12 mv) })
  else .next s
/-- AON_COLD (R467, R471): D0 is reset; its backup store stays; no level is latched (R491). -/
def execAonCold (t : Lapse) (s : State) : Host.Outcome State Fault Refusal :=
  let s := (s.elapse t).settleTime
  if s.pwr.good then .next s
  else
    let s := s.shedIfDue
    let s := if s.pwr.timeDown then s.domOff 11 else s
    let s := ((s.putRtc { keep := s.rtc.keep, keepOld := s.rtc.keepOld, gens := s.rtc.gens }).putHost { s.host with s0 := {} }).putClk { s.clk with stopped := true }
    let s := (s.setDom 2 0).onPwr fun p => { p with padCfg := 6, latched := 0, relPend := 0, cut := 0, latches := 0, cuts := 0, dormLoss := false, wakeReq := none, phase := .shed }
    .next (s.emit (.pins ([9, 10, 11].flatMap fun d => (pinsOf d).map fun p => (p, s.idleLevel d p))))

/-! Self-tests. -/

/-- SELFTEST (0x100, R310). A user task that runs is aborted with code 6 (R428). -/
def opSelftest : OpSpec :=
  { code := 0x100, rights := 3, modes := 0x800
    eval := fun k s =>
      let m := fld (arg k.ps 0) 47 42
      if k.ps.length ≠ 1 ∨ m = 0 then badParam 0
      else if s.pwr.selftest ≠ 0 then notPermitted 1
      else acceptWith [] fun _ s =>
        let s := s.onPwr fun p => { p with selftest := m }
        let s := if m.testBit 4 then s.kiteDown.kiteReady else s
        if m.testBit 2 then (s.abortTask 0 6).abortTask 1 6 else s }
/-- SELFTEST. -/
def execSelftest (t : Lapse) (env : Env) (ps : List Word) (s : State) : Host.Outcome State Fault Refusal := runOp opSelftest t env ps s
/-- SELFTEST_DONE (R310): the tests run and the tests failed. -/
def execSelftestDone (t : Lapse) (failed : Nat) (s : State) : Host.Outcome State Fault Refusal :=
  let s := s.elapse t
  let m := s.pwr.selftest
  if m ≠ 0 ∧ s.pwr.ready then
    .next ((s.onPwr fun p => { p with selftest := 0 }).raiseAll false 0xF01 [word m, word (failed &&& m)])
  else .next s

/-! Firmware. -/

/-- The image of a session, word by word, while it is complete. -/
def Firmware.image (f : Firmware) : Option (List Word) := (List.range f.size).mapM fun i => tget none i f.words
/-- The hash that BEGIN carries: the high 256 bits of words 1 to 6. -/
def fwHash (ps : List Word) : BitVec 256 :=
  BitVec.ofNat 256 (((ps.drop 1).take 6).foldl (fun n w => n * 2 ^ 48 + w.toNat) 0 / 2 ^ 32)
/-- FW_UPDATE (0x102, R311). -/
def opFwUpdate : OpSpec :=
  { code := 0x102, rights := 3, modes := 0x800, compact := true
    eval := fun k s =>
      let w := arg k.ps 0
      let off := fld w 44 20
      let f := s.pwr.fw
      let done := fun (g : Firmware → Firmware) => doneWith [] fun _ s => s.onPwr fun p => { p with fw := g p.fw }
      match fld w 47 45 with
      | 0 =>
        if k.ps.length ≠ 7 then badParam 0
        else done fun f => { f with session := 1, size := off, hash := fwHash k.ps, words := [], altValid := false, activated := false, altMajor := 0, altMinor := 0 }
      | 1 =>
        if k.ps = [] then badParam 0
        else if f.session ≠ 1 then notPermitted 0
        else
          let ws := k.ps.drop 1
          { (done fun f => { f with words := (List.range ws.length).foldl (fun (t : Tab (Option Word)) i => tput none (off + i) (some (arg ws i)) t) f.words }) with
            stored := some [w, word (crc32c (wireBytes ws))] }
      | 2 =>
        if k.ps.length ≠ 1 then badParam 0
        else if f.session ≠ 1 then notPermitted 0
        else match f.image with
          | none => badParam 4
          | some ws =>
            if shaValue (wireBytes ws) ≠ f.hash then badParam 2
            else if !Config.imageSigned f.hash then badParam 3
            else done fun f => { f with session := 2, altValid := true, altMajor := (Config.altRelease f.hash).toNat / 256, altMinor := (Config.altRelease f.hash).toNat % 256 }
      | 3 =>
        if k.ps.length ≠ 1 then badParam 0
        else if f.session = 0 then notPermitted 0
        else done fun f => { f with session := 0, words := [], altValid := false, activated := false, altMajor := 0, altMinor := 0 }
      | 4 =>
        if k.ps.length ≠ 1 then badParam 0
        else if f.session ≠ 2 then notPermitted 0
        else done fun f => { f with activated := true }
      | _ => badParam 0 }
/-- FW_UPDATE BEGIN. -/
def execFwUpdateBegin (t : Lapse) (env : Env) (ps : List Word) (s : State) : Host.Outcome State Fault Refusal := runOp opFwUpdate t env (fixField 47 45 0 ps) s
/-- FW_UPDATE DATA. -/
def execFwUpdateData (t : Lapse) (env : Env) (ps : List Word) (s : State) : Host.Outcome State Fault Refusal := runOp opFwUpdate t env (fixField 47 45 1 ps) s
/-- FW_UPDATE COMMIT. -/
def execFwUpdateCommit (t : Lapse) (env : Env) (ps : List Word) (s : State) : Host.Outcome State Fault Refusal := runOp opFwUpdate t env (fixField 47 45 2 ps) s
/-- FW_UPDATE ABORT. -/
def execFwUpdateAbort (t : Lapse) (env : Env) (ps : List Word) (s : State) : Host.Outcome State Fault Refusal := runOp opFwUpdate t env (fixField 47 45 3 ps) s
/-- FW_UPDATE ACTIVATE. -/
def execFwUpdateActivate (t : Lapse) (env : Env) (ps : List Word) (s : State) : Host.Outcome State Fault Refusal := runOp opFwUpdate t env (fixField 47 45 4 ps) s

end Sys2Proof.Machine
end

