-- ==== Sys2Proof/Machine/Regs.lean ====
section
/-! DEFINITION. The register map (R502-R518): which register an address names, what a read gives on a reading path, what read-clear clears, and what a block shows while its domain is not on. -/
namespace Sys2Proof.Machine
open Sys2Proof

/-- A register by block and page (Tables 1, 8): the numbers are page index and offset. An address that its block's layout reserves is `none` or reads 0. -/
inductive Reg where
  | id (o : Nat) | pwr (o : Nat) | clk (o : Nat) | pll (p o : Nat) | opp (i : Nat) | out (n o : Nat) | step (i : Nat)
  | tb (o : Nat) | qty (n o : Nat) | sch (o : Nat) | qpend (n : Nat) | rtc (o : Nat) | rf (a o : Nat) | rfFault
  | gale (o : Nat) | eng (g : Nat) | chan (n o : Nat) | train (t i : Nat) | kite (i : Nat) | prof (p i : Nat)
  | dsp | core (k o : Nat) | slot (k t i : Nat) | mem (o : Nat) | grp (g : Nat) | patrol (i : Nat) | conf (m : Nat) | bank (b : Nat)
  | smp (p o : Nat) | lnd (l o : Nat) | eth (h o : Nat) | spi (h o : Nat) | s0 (i : Nat) | partner (p o : Nat)
  | jrn (o : Nat) | bal | balPart (p o : Nat) | balLink (l o : Nat) | pad (o : Nat) | none
  deriving DecidableEq, Repr

/-- Whether an address lies in `n` pages of `stride` words from `base` on. -/
def inPages (base stride n a : Nat) : Bool := decide (base ≤ a ∧ a < base + stride * n)
/-- The CLK block (R190, R225), by offset. -/
def clkReg (o : Nat) : Reg :=
  if inPages 0x10 8 5 o then .pll ((o - 0x10) / 8) (o % 8)
  else if inPages 0x40 1 4 o then .opp (o - 0x40)
  else if inPages 0x100 16 8 o then .out ((o - 0x100) / 16) (o % 16)
  else if inPages 0x180 1 2 o then .step (o - 0x180)
  else .clk o
/-- The KITE block (R138), by offset. -/
def kitePage (o : Nat) : Reg :=
  let n := o / 64
  let i := o % 64
  if i < 48 then .chan n i
  else if n < 64 then .train n (i - 48)
  else if n = 64 then .kite (i - 48)
  else if 128 ≤ n ∧ n < 160 then .prof (n - 128) (i - 48)
  else .none
/-- The DSP and MEM blocks (R433, R452), by offset from 0x01_8000. -/
def dspMemReg (o : Nat) : Reg :=
  if o = 0 then .dsp
  else if inPages 0x10 16 2 o then .core ((o - 0x10) / 16) (o % 16)
  else if inPages 0x100 256 2 o then .slot ((o - 0x100) / 256) (o % 256 / 4) (o % 4)
  else if inPages 0x1000 1 5 o then .mem (o - 0x1000)
  else if inPages 0x1010 1 4 o then .grp (o - 0x1010)
  else if inPages 0x1020 1 3 o then .patrol (o - 0x1020)
  else if inPages 0x1030 1 16 o then .conf (o - 0x1030)
  else if inPages 0x1040 1 33 o then .bank (o - 0x1040)
  else .none
/-- The HOST, partner, JRN, ballast and PAD blocks, by offset from 0x01_C000. -/
def hostReg (o : Nat) : Reg :=
  if o < 0x40 then .eth (o / 32) (o % 32)
  else if o < 0x80 then .spi (o / 32) (o % 32)
  else if inPages 0x80 1 3 o then .s0 (o - 0x80)
  else if inPages 0x100 16 5 o then .partner ((o - 0x100) / 16) (o % 16)
  else if inPages 0x1000 1 6 o then .jrn (o - 0x1000)
  else if o = 0x1100 then .bal
  else if inPages 0x1110 4 5 o then .balPart ((o - 0x1110) / 4) (o % 4)
  else if inPages 0x1130 4 8 o then .balLink ((o - 0x1130) / 4) (o % 4)
  else if inPages 0x2000 1 3 o then .pad (o - 0x2000)
  else .none
/-- The register of an address (Tables 1, 8). -/
def regOf (a : Nat) : Reg :=
  if a < 0x1000 then .id a
  else if a < 0x2000 then .pwr (a - 0x1000)
  else if a < 0x3000 then clkReg (a - 0x2000)
  else if a < 0x3100 then .tb (a - 0x3000)
  else if a < 0x3200 then .qty ((a - 0x3100) / 16) (a % 16)
  else if a < 0x4000 then .none
  else if inPages 0x4010 1 16 a then .qpend (a - 0x4010)
  else if a < 0x5000 then .sch (a - 0x4000)
  else if a < 0x6000 then .rtc (a - 0x5000)
  else if a < 0x6400 then .rf ((a - 0x6000) / 0x100) (a % 0x100)
  else if a = 0x6400 then .rfFault
  else if a < 0x8000 then .none
  else if inPages 0x8040 1 64 a then .eng (a - 0x8040)
  else if a < 0x10000 then .gale (a - 0x8000)
  else if a < 0x18000 then kitePage (a - 0x10000)
  else if a < 0x1A000 then dspMemReg (a - 0x18000)
  else if a < 0x1A100 then .smp ((a - 0x1A000) / 32) (a % 32)
  else if a < 0x1B000 then .none
  else if a < 0x1B080 then .lnd ((a - 0x1B000) / 16) (a % 16)
  else if a < 0x1C000 then .none
  else if a < 0x1F000 then hostReg (a - 0x1C000)
  else .none

/-- Access types (Table 4 of R11); a reserved address counts as RO (R503). -/
inductive Access where
  | ro | rw | wo | w1c | rc
  deriving DecidableEq, Repr
/-- The access type of a register. -/
def accessOf : Reg → Access
  | .pwr o => if o = 4 then .rc else .ro
  | .clk o => if o = 2 then .w1c else .ro
  | .pll p o => if o = 2 then .rc else if o = 0 ∧ p = 3 then .rw else .ro
  | .out _ o => if o < 4 then .rw else if o = 4 then .wo else if o = 10 then .w1c else .ro
  | .tb o => if o < 2 then .rw else if o = 2 then .wo else .ro
  | .qty _ o => if o < 5 then .rw else if o < 8 then .wo else .ro
  | .sch o => if o = 0 then .rw else if 3 ≤ o ∧ o < 7 then .rc else .ro
  | .rtc o => if o = 3 ∨ o = 4 ∨ o = 5 ∨ o = 0x27 then .wo else if o = 6 ∨ o = 8 ∨ (0x10 ≤ o ∧ o < 0x14) ∨ o = 0x20 then .rw else if o = 0x14 then .w1c else .ro
  | .rf _ o =>
    if o = 0 ∨ o = 2 then .rw
    else if o < 0x40 ∨ 0xA0 ≤ o then .ro
    else (match (o - 0x40) % 0x20 with | 0 => .rw | 1 => .rw | 2 => .rw | 4 => .rc | n => if 8 ≤ n ∧ n < 16 then .rw else .ro)
  | .rfFault => .w1c
  | .gale o => if o = 0 ∨ o = 0x10 then .rw else if o = 3 ∨ o = 4 then .rc else if o = 5 then .w1c else .ro
  | .chan _ o => if o = 1 then .rw else .ro
  | .kite i => if i = 0 then .rw else .ro
  | .prof _ i => if i < 4 then .rw else .ro
  | .core _ o => if o = 2 ∨ o = 3 then .rc else .ro
  | .mem o => if o = 2 then .rc else if o = 4 then .w1c else .ro
  | .grp _ => .rw
  | .patrol i => if i = 0 then .rw else if i = 2 then .rc else .ro
  | .conf _ => .rc
  | .smp _ o => if o = 9 ∨ o = 10 then .rc else .ro
  | .lnd _ o => if o = 5 then .rc else .ro
  | .eth _ o => if o < 5 then .rw else if o = 5 then .wo else if o = 8 ∨ o = 9 then .rc else .ro
  | .spi _ o => if o = 0 then .rw else if o = 2 then .rc else .ro
  | .s0 i => if i = 0 then .rw else if i = 2 then .rc else .ro
  | .partner _ o => if o = 0 then .rw else if o < 9 then .wo else if o = 12 then .rc else .ro
  | .jrn o => if o = 3 then .rc else if o = 4 then .w1c else .ro
  | .balPart _ o => if o = 0 then .rw else if o = 3 then .rc else .ro
  | .balLink _ o => if o = 0 then .rw else if o = 2 then .rc else .ro
  | .pad o => if o = 0 then .rw else if o = 2 then .rc else .ro
  | _ => .ro

/-! Staging copies (R513). -/

/-- A path's copy of a group; none is EMPTY. -/
def State.copyOf (s : State) (path : Nat) (key : StageKey) : Option Stage := (s.stage.find? fun c => c.path == path && c.key == key).map fun c => c.st
/-- Replace a copy. -/
def State.setCopy (path : Nat) (key : StageKey) (st : Option Stage) (s : State) : State :=
  let rest := s.stage.filter fun c => !(c.path == path && c.key == key)
  (s.putStage (match st with | some x => rest ++ [⟨path, key, x⟩] | none => rest))
/-- The bits of a staged word that are not reserved (R13): of QCFG1-QCFG4 those that some kind of the source uses, of TB_LEAP those that are written. -/
def stageMask (key : StageKey) (i : Nat) : Nat :=
  match key, i with
  | .leap, 0 => 0xFFFF * 2 ^ 32 + 2 ^ 29
  | .qcfg n, i => (List.range 15).foldl (fun m k => if kindAllowed n k then m ||| qcfgMask k i else m) 0
  | .out _, 0 => 2 ^ 48 - 1 - (2 ^ 41 - 2 ^ 32)
  | .out _, 2 => 2 ^ 40 - 1
  | .eth _, 0 => 2 ^ 48 - 2 ^ 12
  | .eth _, 1 => 2 ^ 38 - 1
  | .eth _, 4 => 2 ^ 48 - 2 ^ 8
  | _, _ => 2 ^ 48 - 1
/-- A staged write: a LOST copy stays LOST. -/
def State.stageWord (path : Nat) (key : StageKey) (i : Nat) (v : Word) (s : State) : State :=
  let w := maskW (stageMask key i) v
  match s.copyOf path key with
  | some .lost => s
  | some (.staged ws) => s.setCopy path key (some (.staged (tput none i (some w) ws)))
  | none => s.setCopy path key (some (.staged (tput none i (some w) [])))
/-- Word i of a group as the path sees it: its own staged word, else the one in force. -/
def State.stagedOr (s : State) (path : Nat) (key : StageKey) (i : Nat) (now : Word) : Word :=
  match s.copyOf path key with | some (.staged ws) => (tget none i ws).getD now | _ => now
/-- The path's copy becomes EMPTY and every other STAGED copy of the group LOST: a commit. -/
def State.takeCopy (path : Nat) (key : StageKey) (s : State) : State := (s.setCopy path key none).loseStages key

/-! Reading. -/

/-- ID_PART (R3): member 4832, edition 1. -/
def idPart : Word := 0x000048320001#48
/-- A word of the ID block (R3, R4, R332, R505-R508). -/
def State.idWord (s : State) (o : Nat) : Word :=
  let f := s.pwr.fw
  match o with
  | 0 => idPart
  | 1 => pack [put 47 40 2, (Config.fwRelease f.runs).toNat]
  | 2 => 0x4320040CA000#48
  | 3 => 0xA88910235000#48
  | 4 => pack [putB 47 Config.inputAc, put 46 45 2, putB 44 true, putB 43 true, putB 42 true, putB 41 true]
  | 5 => pack [put 47 47 f.active, putB 46 f.altValid, putB 45 f.activated, putB 44 f.fallback, put 43 42 f.session,
      put 39 32 (if f.altValid then f.altMajor else 0), put 31 24 (if f.altValid then f.altMinor else 0)]
  | 6 => Config.uid
  | 0x10 => s.jrn.rstCause
  | 0x11 => cyc s.jrn.rstOut
  | 0x12 => frc s.jrn.rstOut
  | 0x13 => cyc s.jrn.rstRdy
  | 0x14 => frc s.jrn.rstRdy
  | _ => 0
/-- The words of an output's configuration. -/
def OutCfg.word_ (c : OutCfg) (i : Nat) : Word := match i with | 0 => c.cfg | 1 => c.div | 2 => c.dly | _ => c.hold
/-- The words of a quantity's configuration (Table 5 of R40). -/
def State.qcfg (s : State) (n i : Nat) : Word :=
  let q := s.qty n
  match i with
  | 0 => q.cfg0
  | 1 => q.cfg1 | 2 => q.cfg2 | 3 => q.cfg3 | _ => q.cfg4
/-- The words of an Ethernet page. -/
def EthPage.word_ (p : EthPage) (i : Nat) : Word := match i with | 0 => p.cfg | 1 => p.ip4 | 2 => p.ip6a | 3 => p.ip6b | _ => p.ip6c
/-- Partners bound to a port. -/
def State.boundOn (s : State) (h : Nat) : Nat := ([0, 1, 2, 3, 4].filter fun p => prevPort (s.part p) == h).length
/-- A word of an Ethernet port's page (Tables 8, 11). -/
def State.ethWord (s : State) (path h o : Nat) : Word :=
  let e := s.eth h
  if o < 5 then s.stagedOr path (.eth h) o (e.page.word_ o)
  else match o with
  | 6 => Config.ethMac h
  | 7 => pack [putB 47 e.link, putB 46 (e.link && e.mdix), putB 45 (e.link && e.master), putB 44 e.failed, put 43 40 (s.boundOn h)]
  | 8 => pack [put 47 24 e.cntRx, put 23 0 e.cntDrop]
  | 9 => pack [put 47 24 e.cntSegErr, put 23 0 e.cntUnbound]
  | _ => 0
/-- The ATTN line (R355): a packet is queued or current, and the port runs. -/
def State.attn (s : State) (h : Nat) : Bool := s.portUp h && !(s.spi h).tx.isEmpty
/-- A word of an SPI port's page (Tables 12, 13). -/
def State.spiWord (s : State) (h o : Nat) : Word :=
  let p := s.spi h
  match o with
  | 0 => pack [putB 47 p.en]
  | 1 => pack [putB 47 (s.portUp h), putB 46 (s.attn h), putB 45 p.failed, putB 44 (s.boundOn h != 0), putB 43 p.mode]
  | 2 => pack [put 47 32 p.cntCw, put 31 16 p.cntOvr, put 15 0 p.cntPart]
  | _ => 0
/-- S0_CFG, S0_LAST, S0_CNT (R364, Table 14). -/
def S0Port.word_ (p : S0Port) (i : Nat) : Word :=
  match i with
  | 0 => pack [put 47 41 (p.addrNew.getD p.addr), putB 40 p.wakeEn, putB 39 p.lock]
  | 1 => p.last
  | _ => pack [put 47 32 p.refused, put 31 16 p.wakes, put 15 0 p.aborted]
/-- A word of a partner page (Table 3 of R292); keys are never read back. -/
def Partner.pageWord (p : Partner) (o : Nat) : Word :=
  match o with
  | 0 => pack [put 47 46 p.rights, putB 45 p.authReq]
  | 9 => pack [putB 47 p.bind.isSome, put 46 44 (match p.bind with | some b => b.port | none => 0), putB 43 p.key.isSome]
  | 10 => word p.lseq
  | 11 => word p.hnonce
  | 12 => pack [put 47 32 p.cntAuth, put 31 16 p.cntCheck, put 15 0 p.cntGap]
  | _ => 0
/-- A word of the JRN block (R343). -/
def State.jrnWord (s : State) (o : Nat) : Word :=
  match o with
  | 0 => s.jrnStat
  | 1 => word s.jrn.next
  | 2 => word s.jrn.oldest
  | 3 => pack [put 47 24 s.jrn.cntGroups, put 23 0 s.jrn.cntCarried]
  | 4 => word s.jrn.fault
  | _ => s.fcStat
/-- A word of a partner's ballast (Tables 5 to 7 of R278). -/
def State.balPart (s : State) (p o : Nat) : Word :=
  let x := s.part p
  let g := s.ingress p
  match o with
  | 0 => pack [put 47 37 x.credMax]
  | 1 => pack [put 47 37 g.1, put 36 32 g.2.1, put 31 14 (131072 - g.2.2)]
  | 2 => pack [put 47 31 x.ev.recs.length, putB 30 (decide (49152 ≤ x.ev.recs.length)), putB 29 x.ev.kept.isSome]
  | _ => word x.busy
/-- A word of a link's ballast (Tables 8, 9 of R278). -/
def State.balLink (s : State) (l o : Nat) : Word :=
  let x := s.lb l
  match o with
  | 0 => pack [put 47 42 x.floatWords]
  | 1 => s.balLstat l
  | 2 => pack [put 47 24 x.cntWindow, put 23 0 x.cntUndel]
  | _ => 0
/-- A word of a PLL's page (Tables 9, 10 of R225). -/
def Pll.word_ (l : Pll) (o : Nat) : Word :=
  match o with
  | 0 => l.freq
  | 1 => l.stat
  | 2 => pack [put 47 32 l.unlocks, put 31 16 l.holds, put 15 0 l.forceds]
  | 3 => pack [put 47 32 l.coastUs, put 31 16 l.relock]
  | _ => 0
/-- A word of the SCH block (R257). -/
def State.schWord (s : State) (o : Nat) : Word :=
  match o with
  | 0 => pack [put 47 28 s.sch.pendMax]
  | 1 => s.schStat
  | 2 => s.schUtil
  | 3 => word s.sch.cntRel
  | 4 => word s.sch.cntLate
  | 5 => word s.sch.cntEarly
  | 6 => word s.sch.cntMiss
  | 8 => word (Config.qMirror 0).toNat
  | 9 => pack [put 47 32 s.jrn.markRing.length]
  | _ => 0
/-- A word of the RTC block outside its read group; a register that waits for the tick reads as last written (R11). -/
def State.rtcWord (s : State) (o : Nat) : Word :=
  let r := s.rtc
  let next := fun (x : Option (Option Word × Option Word × Bool)) (i : Nat) (now : Word) =>
    match x with | some v => (if i = 0 then v.1 else v.2.1).getD now | none => now
  match o with
  | 6 => pack [putS 47 31 (r.trimNext.getD r.trim)]
  | 0x10 => next r.nextA 0 r.valA
  | 0x11 => next r.nextA 1 r.ctlA
  | 0x12 => next r.nextB 0 r.valB
  | 0x13 => next r.nextB 1 r.ctlB
  | 0x20 => r.bkNext.getD r.bk
  | _ => r.reg o
/-- A word of the GALE block on a path (R106). -/
def State.galeWord (s : State) (path o : Nat) : Word :=
  let g := s.gale
  match o with
  | 0 => g.ctrl
  | 1 => s.galeStat
  | 2 => s.galeUtil
  | 3 => word g.cntJob
  | 4 => word g.cntGran
  | 5 => word g.fault
  | 0x10 => word (tget 0 path g.rsel)
  | _ => if inPages 0x11 1 20 o then (tget [] path g.windows).getD (o - 0x11) 0 else 0
/-- A word of a user core's page (R433). -/
def State.coreWord (s : State) (k o : Nat) : Word :=
  let c := s.core k
  match o with
  | 0 => s.ucStat k
  | 1 => pack [put 47 24 (if c.run.isSome then c.pc else 0)]
  | 2 => pack [put 47 24 c.starts, put 23 0 c.dropped]
  | 3 => pack [put 47 32 c.aborts, put 31 16 c.faults, put 15 0 c.postsIgn]
  | 4 => c.last
  | _ => 0
/-- A word of the MEM block's first page (R452). -/
def State.memWord (s : State) (o : Nat) : Word :=
  match o with
  | 0 => s.memStat | 1 => s.memUtil | 2 => s.mem.cntWord | 3 => s.mem.ueAddr | _ => word s.mem.fault
/-- A word of a sample port's page (R408). -/
def State.smpWord (s : State) (n o : Nat) : Word :=
  let p := s.smp n
  match o with
  | 0 => p.cfg0 | 1 => p.cfg1 | 2 => p.cfg2 | 3 => p.cfg3 | 4 => p.cfg4
  | 5 => s.smpStat n | 6 => p.rate | 7 => p.wr | 8 => p.maskFrame | 9 => p.cntWord | 10 => p.cnt2Word
  | _ => 0
/-- A word of a link's page (R384). -/
def Link.word_ (k : Link) (o : Nat) : Word :=
  match o with
  | 0 => k.cfgWord | 1 => pack [putS 47 16 k.asym] | 2 => k.statWord | 3 => k.gw | 4 => k.ttWord | 5 => k.cntWord
  | _ => 0
/-- A word of an output's page (R190). -/
def State.outWord (s : State) (path n o : Nat) : Word :=
  let x := s.out n
  if o < 4 then s.stagedOr path (.out n) o (x.conf.word_ o)
  else match o with
  | 5 => s.outStat n
  | 6 => cyc x.last
  | 7 => frc x.last
  | 8 => word x.cnt
  | 9 => BitVec.setWidth 48 (Config.outCal n)
  | 10 => word x.flags
  | _ => 0
/-- TB_LEAP on a path that has staged it: the written fields are the staged ones, SRC and PENDING those in force (Table 2). -/
def TimeBase.leapSeen (tb : TimeBase) (w : Word) : Word :=
  let m := stageMask .leap 0
  maskW m w ||| maskW (2 ^ 48 - 1 - m) tb.leapWord
/-- What a register shows while its block is live, on a reading path; the read groups with shadows are read by `readLive`. -/
def State.regWord (s : State) (path : Nat) : Reg → Word
  | .id o => s.idWord o
  | .pwr o => s.pwrReg o
  | .clk o => (match o with | 0 => s.ocxoWord | 1 => sword s.tb.fadj | 2 => word s.clk.fault | _ => 0)
  | .pll p o => (s.clk.pll p).word_ o
  | .opp i => (s.clk.opp i).word
  | .out n o => s.outWord path n o
  | .step i => if i = 0 then s.tb.takePermit.stepWord else sword s.tb.residNow
  | .tb o =>
    (match o with
     | 0 => s.tb.leapSeen (s.stagedOr path .leap 0 s.tb.leapWord)
     | 1 => s.stagedOr path .leap 1 (word s.tb.leapAt)
     | 3 => s.readCal path 0 | 4 => s.readCal path 1 | 5 => s.readCal path 2 | _ => 0)
  | .qty n o => if o < 5 then s.stagedOr path (.qcfg n) o (s.qcfg n o) else 0
  | .sch o => s.schWord o
  | .qpend n => s.qpend n
  | .rtc o => s.rtcWord o
  | .rf a o =>
    if accessOf (.rf a o) = .rw then (s.rf.waits.foldl (fun (s : State) w => s.rfApply w.1 w.2) s).rfWord a o else s.rfWord a o
  | .rfFault => word s.rf.fault
  | .gale o => s.galeWord path o
  | .eng g => s.engStat g
  | .chan n o => if o = 1 then (s.chan n).ctrlNext.getD (s.chan n).ctrl else s.kiteReg (64 * n + o)
  | .train t i => s.trainWord t i
  | .kite i => s.kiteReg (64 * 64 + 48 + i)
  | .prof p i => (s.prof p).word_ i
  | .dsp => s.dsp.stat
  | .core k o => s.coreWord k o
  | .slot k t i => ((s.core k).slot t).word_ i
  | .mem o => s.memWord o
  | .grp g => s.mem.grp g
  | .patrol i => (match i with | 0 => s.mem.patrolCfg | 1 => s.patrolStat | _ => s.mem.patrolCnt)
  | .conf m => (s.mem.conf m).word_
  | .bank b => s.mem.bankWord b
  | .smp p o => s.smpWord p o
  | .lnd l o => (s.lnk l).word_ o
  | .eth h o => s.ethWord path h o
  | .spi h o => s.spiWord h o
  | .s0 i => s.host.s0.word_ i
  | .partner p o => (s.part p).pageWord o
  | .jrn o => s.jrnWord o
  | .bal => pack [put 47 37 ([0, 1, 2, 3, 4].foldl (fun n p => n + (s.ingress p).1 + (s.ingress p).2.1) 0), put 36 25 (min 2048 s.jrn.slots)]
  | .balPart p o => s.balPart p o
  | .balLink l o => s.balLink l o
  | .pad o => s.pwr.padReg o
  | .none => 0
/-- A read of a live block on a path: the word, and the state with the shadows that the read opens or closes (R53, R455). -/
def State.readLive (path : Nat) (r : Reg) (s : State) : Word × State :=
  match r with
  | .qty n o => if o = 15 then s.readQend path n else if 8 ≤ o then s.readGroup path n o else (s.regWord path r, s)
  | .rtc o => if o < 3 then s.readRtc path o else (s.regWord path r, s)
  | r => (s.regWord path r, s)

/-! Blocks whose domain is not on (R517). -/

/-- The domain that a register's block reports, where its state governs reads (Table 1, R517). -/
def regDom : Reg → Option Nat
  | .clk _ => some 11 | .pll _ _ => some 11 | .out _ _ => some 11 | .step _ => some 11 | .tb _ => some 11 | .qty _ _ => some 11
  | .sch _ => some 11 | .qpend _ => some 11 | .rf _ _ => some 8 | .rfFault => some 8 | .gale _ => some 3 | .eng _ => some 3
  | .chan _ _ => some 5 | .train _ _ => some 5 | .kite _ => some 5 | .prof _ _ => some 5
  | .dsp => some 6 | .core _ _ => some 6 | .slot _ _ _ => some 6
  | .mem _ => some 7 | .grp _ => some 7 | .patrol _ => some 7 | .conf _ => some 7 | .bank _ => some 7
  | .smp _ _ => some 10 | .lnd _ _ => some 9 | .eth _ _ => some 9 | .spi _ _ => some 9 | .s0 _ => some 9
  | _ => none
/-- The domain whose state governs a register now: the GALE block goes with D4 while only D4 is on, and is off only when both are. -/
def State.governs (s : State) (r : Reg) : Option Nat :=
  match regDom r with
  | some 3 => some (if s.dom 3 < s.dom 4 then 4 else 3)
  | d => d
/-- The register's block is live. -/
def State.live (s : State) (r : Reg) : Bool := match s.governs r with | some d => s.isOn d | none => true
/-- The words that read other than the restarted state while their domain is off (R517): reset values. -/
def offWord : Reg → Option Word
  | .clk o => some (if o = 0 then 0x200000000000#48 else 0)
  | .pll _ o => if o = 0 then none else some 0
  | .out _ o => if o < 4 ∨ o = 9 then none else some 0
  | .tb o => (match o with | 3 => some (calWord 0 18 false) | 4 => some 0 | 5 => some (word 0xFFFFFFFF) | _ => none)
  | .qty n o =>
    if o < 5 then none
    else if o = 8 then some (if n = 0 then 0x0800FFFFFFFF#48 else 0xF000FFFFFFFF#48)
    else some 0
  | .sch o => (match o with | 0 => none | 1 => some 0x000001000000#48 | 8 => none | _ => some 0)
  | .rf a o => if accessOf (.rf a o) = .rw ∨ o < 0x40 ∨ (o - 0x40) % 0x20 = 5 then none else if (o - 0x40) % 0x20 = 3 then some 0x000000800000#48 else some 0
  | .kite i => if i = 2 then some 0x100000000000#48 else none
  | .dsp => some 0x400000000000#48
  | .core _ _ => some 0
  | .smp _ o => if o = 5 then some 0x0003FFFC0000#48 else none
  | _ => none
/-- A read on a path (R517): live; as at the entry into retention; or, with the domain off, what will apply at power-up and reset values. Without a live block nothing opens, closes or clears. -/
def State.readReg (path : Nat) (r : Reg) (s : State) : Word × State :=
  if s.live r then s.readLive path r
  else match s.governs r with
  | none => s.readLive path r
  | some d =>
    if s.dom d = 1 then
      let at_ := (tget none d s.pwr.retAt).getD (s.tb.q0, s.tb.clk)
      ((State.readLive path r (s.putTb { s.tb with q0 := at_.1, clk := at_.2 })).1, s)
    else ((offWord r).getD (s.readLive path r).1, s)
/-- Read `n` registers in ascending address order (R301). -/
def State.readRegs (path : Nat) : Nat → Nat → State → List Word × State
  | 0, _, s => ([], s)
  | n + 1, a, s =>
    let x := s.readReg path (regOf a)
    let y := State.readRegs path n (a + 1) x.2
    (x.1 :: y.1, y.2)
/-- What a read of an RC register clears (R11, R12), in a live block. `own` is how many groups have been sealed since the value was formed, which the next read returns. -/
def State.rcClear (own : Nat) (r : Reg) (s : State) : State :=
  if accessOf r ≠ .rc ∨ !s.live r then s
  else
    let eth := fun (h : Nat) (f : EthPort → EthPort) => s.setEth h (f (s.eth h))
    match r with
    | .pwr _ => s.onPwr fun p => { p with losses := 0, dormants := 0, wakes := 0 }
    | .pll p _ => s.putClk (s.clk.setPll p { s.clk.pll p with unlocks := 0, holds := 0, forceds := 0 })
    | .sch o =>
      (match o with
       | 3 => s.putSch { s.sch with cntRel := 0 }
       | 4 => s.putSch { s.sch with cntLate := 0 }
       | 5 => s.putSch { s.sch with cntEarly := 0 }
       | _ => (s.putSch { s.sch with cntMiss := 0 }))
    | .rf a o =>
      let st := 3 * a + (o - 0x40) / 0x20
      s.setStrm st { s.strm st with blanked := 0 }
    | .gale o => s.onGale fun g => if o = 3 then { g with cntJob := 0 } else { g with cntGran := 0 }
    | .core k o =>
      let c := s.core k
      s.setCore k (if o = 2 then { c with starts := 0, dropped := 0 } else { c with aborts := 0, faults := 0, postsIgn := 0 })
    | .mem _ => s.setMem { s.mem with ce := 0, ue := 0 }
    | .patrol _ => s.setMem { s.mem with preempt := 0, fails := 0, scrubbed := 0 }
    | .conf m => s.setMem { s.mem with confs := tput {} m {} s.mem.confs }
    | .smp p o =>
      let x := s.smp p
      s.setSmp p (if o = 9 then { x with filled := 0, discarded := 0 } else { x with underruns := 0, fmtErrs := 0, overrate := 0 })
    | .lnd l _ => s.setLnk l { s.lnk l with downs := 0, dropped := 0, resent := 0 }
    | .eth h o => eth h fun e => if o = 8 then { e with cntRx := 0, cntDrop := 0 } else { e with cntSegErr := 0, cntUnbound := 0 }
    | .spi h _ => s.setSpi h { s.spi h with cntCw := 0, cntOvr := 0, cntPart := 0 }
    | .s0 _ => s.putHost { s.host with s0 := { s.host.s0 with refused := 0, wakes := 0, aborted := 0 } }
    | .partner p _ => s.setPart p { s.part p with cntAuth := 0, cntCheck := 0, cntGap := 0 }
    | .jrn _ => s.putJrn { s.jrn with cntGroups := own, cntCarried := 0 }
    | .balPart p _ => s.setPart p { s.part p with busy := 0 }
    | .balLink l _ => s.setLb l { s.lb l with cntWindow := 0, cntUndel := 0 }
    | .pad _ => s.onPwr fun p => { p with latches := 0, cuts := 0 }
    | _ => s

end Sys2Proof.Machine
end

