-- ==== Sys2Proof/Machine/RegWrite.lean ====
section
/-! DEFINITION. Register writes (R301-R303, R358, R510-R514, R542): who may write, what refuses a word, what it does, REG_READ, REG_WRITE, REG_MODIFY, one word through S0, and the commands that are one register access. -/
namespace Sys2Proof.Machine
open Sys2Proof

/-- The third word of a refusal: ADDR and REASON (R302). -/
def regReason (a r : Nat) : Word := pack [put 47 24 a, put 11 0 r]
/-- The staged group that a commit word commits (R512). -/
def commitKey : Reg → Option StageKey
  | .qty n o => if o = 0 then some (.qcfg n) else if o = 7 then some (.qset n) else none
  | .out n o => if o = 4 then some (.out n) else none
  | .tb o => if o = 2 then some .leap else none
  | .rtc o => if o = 5 then some .rtc else none
  | .eth h o => if o = 5 then some (.eth h) else none
  | .partner p o => if o = 7 then some (.key p) else none
  | _ => none
/-- A commit word (R512). -/
def isCommit (r : Reg) : Bool := (commitKey r).isSome
/-- The least rights of a partner that writes a register (Table 9), 2 operator, 3 supervisor; 4 where no partner may. -/
def leastRights : Reg → Nat
  | .opp _ => 4
  | .prof p _ => if p < 16 then 4 else 2
  | .rtc o => if o = 0x20 ∨ o = 0x27 then 4 else 3
  | .out _ _ => 2
  | .qty _ _ => 2
  | .rf _ o => if o = 2 then 3 else 2
  | .gale o => if o = 0x10 then 2 else 3
  | r => if accessOf r = .w1c then 2 else 3
/-- Who writes: the path, and the rights that its packet had when it was parsed. S0 has a supervisor's (R358). -/
structure Writer where
  path   : Nat
  rights : Nat
  deriving DecidableEq, Repr
/-- The writer may write the register (R118, R476, R510). -/
def State.mayWrite (w : Writer) (r : Reg) (s : State) : Bool :=
  match r with
  | .chan n _ => decide (w.path < 5) && (s.chan n).owner == w.path
  | .rtc _ => w.path == 5 || decide (leastRights r ≤ w.rights)
  | r => decide (leastRights r ≤ w.rights)

/-! What refuses a word. -/

/-- BAD_PARAM where a field lies outside its range. -/
def badIf (b : Bool) : Option (Status × Nat) := if b then some (.badParam, 0) else none
/-- NOT_PERMITTED where the register's description refuses the write. -/
def heldIf (b : Bool) (e : Option (Status × Nat)) : Option (Status × Nat) := if b then some (.notPermitted, 0) else e
/-- A written action word (R542, R513): 0 does nothing, 1 acts, a LOST copy refuses it, an EMPTY one makes it no commit. -/
def commitCheck (copy : Option Stage) (v : Word) (e : Option (Status × Nat)) : Option (Status × Nat) :=
  if v = 0 then none
  else if v ≠ 1 then some (.badParam, 0)
  else match copy with
    | none => none
    | some .lost => some (.notPermitted, 0xF41)
    | some (.staged _) => e
/-- The output configuration that a path's commit puts in force. -/
def State.stagedOut (path n : Nat) (s : State) : OutCfg :=
  let w := fun i => s.stagedOr path (.out n) i ((s.out n).conf.word_ i)
  OutCfg.masked ⟨w 0, w 1, w 2, w 3⟩
/-- Word i of a quantity configuration that a path's commit puts in force. -/
def State.stagedQcfg (path n i : Nat) (s : State) : Word := s.stagedOr path (.qcfg n) i (s.qcfg n i)
/-- TB_LEAP as a path's commit would write it. -/
def State.stagedLeap (path : Nat) (s : State) : Word := s.stagedOr path .leap 0 s.tb.leapWord
/-- LEAP_AT as a path's commit would write it. -/
def State.stagedLeapAt (path : Nat) (s : State) : Nat := (s.stagedOr path .leap 1 (word s.tb.leapAt)).toNat
/-- A loop-profile word out of range, or a bandwidth that its loop type needs left zero (R119, Table 12). -/
def profWordBad (i : Nat) (v : Word) : Bool :=
  match i with
  | 0 =>
    let k := fld v 47 46
    k == 3 || decide (fld v 45 44 < 2) || decide (6 ≤ fld v 19 17) || (k != 2 && fld v 43 32 == 0) || fld v 31 20 == 0
  | 1 =>
    let o := fld v 47 46
    o == 0 || o == 3 || (fld v 45 34 == 0) || decide (fld v 33 22 < 100) || fld v 21 10 == 0
  | 3 => fld v 47 36 == 0 || fld v 35 24 == 0
  | _ => false
/-- A KITE_CTRL that moves a channel which is not IDLE across PCH_BASE (R108). -/
def State.baseMoves (new : Nat) (s : State) : Bool :=
  let old := fld s.kite.ctrl 47 38
  s.kite.chans.any fun e => e.2.state != 0 && decide (min old new ≤ e.1 ∧ e.1 < max old new)
/-- The sum of CRED_MAX with partner p's replaced (R264). -/
def State.credSum (p v : Nat) (s : State) : Nat :=
  [0, 1, 2, 3, 4].foldl (fun n q => n + (if q = p then v else (s.part q).credMax)) 0
/-- A write would leave no supervisor (R292). -/
def State.noSupervisor (p rights : Nat) (s : State) : Bool :=
  [0, 1, 2, 3, 4].all fun q => if q = p then rights != 3 else (s.part q).rights != 3
/-- What a writable register itself refuses: status and REASON. `s` holds what the packet's words before this one have left, `fin` what the whole packet leaves (R292, R302). -/
def State.regRefusal (path : Nat) (fin s : State) (r : Reg) (v : Word) : Option (Status × Nat) :=
  match r with
  | .pll _ _ => (s.pllFreqRefusal v).map fun st => (st, 0)
  | .out n o =>
    if o = 4 then
      let c := s.stagedOut path n
      commitCheck (s.copyOf path (.out n)) v (heldIf (s.outHeld n c) (badIf (s.outBad n c)))
    else none
  | .tb o =>
    if o = 2 then
      let w := s.stagedLeap path
      commitCheck (s.copyOf path .leap) v (badIf (leapBad s.tb (leapNowOf w) (leapNextOf w) (s.stagedLeapAt path)))
    else none
  | .qty n o =>
    if o = 0 then
      match s.copyOf path (.qcfg n) with
      | none => none
      | some .lost => some (.notPermitted, 0xF41)
      | some (.staged _) => heldIf (s.qcfgHeld n) (badIf (s.qcfgBad n v (s.stagedQcfg path n 1) (s.stagedQcfg path n 2)))
    else if o = 7 then commitCheck (s.copyOf path (.qset n)) v (heldIf (s.qsetHeld n) none)
    else none
  | .sch _ => badIf (decide (983040 < fld v 47 28))
  | .rtc o =>
    if o = 5 then commitCheck (s.copyOf path .rtc) v none
    else if o = 6 then badIf (decide (sfld v 47 31 < -34359 ∨ 34359 < sfld v 47 31))
    else if o = 8 then badIf (fld v 46 31 == 0)
    else if 0x10 ≤ o ∧ o < 0x14 then
      let x := (o - 0x10) / 2
      badIf (almBad (fin.rtcWord (0x10 + 2 * x)) (fin.rtcWord (0x11 + 2 * x)))
    else if o = 0x20 then badIf (bkBad v)
    else if o = 0x27 then badIf (decide (1 < v.toNat))
    else none
  | .rf _ o => badIf (rfBad o v)
  | .gale o => badIf (o == 0 && decide (3072 < fld v 46 35))
  | .chan n _ => badIf (roveBad (s.chan n).info (fld v 42 37) (fld v 36 34) (sfld v 33 22)).isSome
  | .kite _ => heldIf (s.baseMoves (fld v 47 38)) (badIf (decide (512 < fld v 47 38)))
  | .prof _ i => badIf (profWordBad i v)
  | .patrol _ => badIf (fld v 46 31 == 0)
  | .balPart p _ => badIf (decide (fld v 47 37 < 1 ∨ 1024 < fld v 47 37 ∨ 1280 < s.credSum p (fld v 47 37)))
  | .balLink l _ =>
    let n := fld v 47 42
    heldIf (decide (n < floatWords (s.class1 s.sch.events l false) ∨ 44 - n < (s.peaks l).1)) (badIf (decide (44 < n)))
  | .eth h o =>
    (match o with
     | 0 => badIf (fld v 42 31 == 4095 || fld v 27 12 == 0)
     | 1 => badIf (decide (fld v 37 32 < 1 ∨ 32 < fld v 37 32))
     | 5 => commitCheck (s.copyOf path (.eth h)) v none
     | _ => none)
  | .s0 _ => badIf (decide (fld v 47 41 < 0x08 ∨ 0x77 < fld v 47 41))
  | .partner p o =>
    (match o with
     | 0 => heldIf ((path != 5 && s.noSupervisor p (fld v 47 46)) || (bit v 45 && (fin.part p).key.isNone)) none
     | 7 =>
       if v = 2 then heldIf (fin.part p).authReq none
       else commitCheck (s.copyOf path (.key p)) v none
     | 8 => if v = 0 then none else if v ≠ 1 then some (.badParam, 0) else heldIf (s.part p).bind.isSome none
     | _ => none)
  | _ => none
/-- What refuses a word of a writer (R302, R510): CLK_OPP always, an RO or RC register never, another register where the writer may not write it or it refuses the value. -/
def State.wordRefusal (w : Writer) (fin s : State) (r : Reg) (v : Word) : Option (Status × Nat) :=
  match r with
  | .opp _ => some (.notPermitted, 0)
  | r =>
    match accessOf r with
    | .ro => none
    | .rc => none
    | _ => if s.mayWrite w r then State.regRefusal w.path fin s r v else some (.notPermitted, 0)

/-! What a word does. -/

/-- The bits of a latch that a W1C write clears; nothing in a block that is not on (R517). -/
def State.w1c (r : Reg) (v : Word) (s : State) : State :=
  if !s.live r then s
  else
    let c := fun x => clearBits x v.toNat
    match r with
    | .clk _ => s.setClk { s.clk with fault := c s.clk.fault }
    | .out n _ => s.setOut n { s.out n with flags := c (s.out n).flags }
    | .rtc _ => s.onRtc fun x => { x with stat := c x.stat }
    | .rfFault => s.putRf { s.rf with fault := c s.rf.fault }
    | .gale _ => s.onGale fun g => { g with fault := c g.fault }
    | .mem _ => s.setMem { s.mem with fault := c s.mem.fault }
    | .jrn _ => s.putJrn { s.jrn with fault := c s.jrn.fault }
    | _ => s
/-- Staged words of a path's copy, if it is STAGED. -/
def State.stagedWords (s : State) (path : Nat) (key : StageKey) : Option (Tab (Option Word)) :=
  match s.copyOf path key with | some (.staged ws) => some ws | _ => none
/-- An Ethernet commit (R364): partners bound through an address or UDP_PORT that changes are unbound; EN brings the link up or down. -/
def State.commitEth (path h : Nat) (s : State) : State :=
  let e := s.eth h
  let old := e.page
  let w := fun i => s.stagedOr path (.eth h) i (old.word_ i)
  let new : EthPage := { cfg := w 0, ip4 := w 1, ip6a := w 2, ip6b := w 3, ip6c := w 4 }
  let udp := fld new.cfg 27 12 != fld old.cfg 27 12
  let v4 := fld new.ip4 31 0 != fld old.ip4 31 0
  let v6 := new.ip6a != old.ip6a || new.ip6b != old.ip6b || fld new.ip6c 47 16 != fld old.ip6c 47 16
  let gone : Endpoint → Bool := fun ep => match ep with | .udp4 _ _ => udp || v4 | .udp6 _ _ => udp || v6 | _ => false
  let s : State := [0, 1, 2, 3, 4].foldl (fun (s : State) p =>
    let x := s.part p
    match x.bind with
    | some b => if b.port = h ∧ gone b.ep then s.setPart p { x with bind := none } else s
    | none => s) s
  let s := s.setEth h { e with page := new }
  if !bit new.cfg 47 then s.setEth h { s.eth h with link := false }
  else if s.isOn 9 then s.ethUp h
  else s
/-- The words of a key (Table 3 of R292). -/
def keyWord (k : BitVec 256) (i : Nat) : Word := if i < 5 then word (k.toNat / 2 ^ (208 - 48 * i)) else word (k.toNat % 2 ^ 16 * 2 ^ 32)
/-- The key that six words hold. -/
def keyOf (w : Nat → Word) : BitVec 256 :=
  BitVec.ofNat 256 ((w 0).toNat * 2 ^ 208 + (w 1).toNat * 2 ^ 160 + (w 2).toNat * 2 ^ 112 + (w 3).toNat * 2 ^ 64 + (w 4).toNat * 2 ^ 16 + fld (w 5) 47 32)
/-- A sequence reset (R289). -/
def State.seqReset (p : Nat) (s : State) : State :=
  let x := s.part p
  let j := x.replays.foldl (fun (j : Journal) e => match e.2 with | some r => j.unpin .long r.jsn | none => j) s.jrn
  let s := ((s.putJrn j)).setPart p { x with lseq := 0, replays := [], hnonce := 0, permit := none, lastReply := none }
  s.sealSystem 5 [word p]
/-- A commit word by a path whose copy is STAGED. -/
def State.commitGroup (path jsn : Nat) (key : StageKey) (ws : Tab (Option Word)) (s : State) : State :=
  State.takeCopy path key (match key with
    | .leap => s.commitLeap (s.stagedLeap path) (s.stagedLeapAt path)
    | .qset n => s.applyQset n (tget none 0 ws) (tget none 1 ws)
    | .out n => s.commitOut n (s.stagedOut path n) jsn
    | .rtc => s.onRtc fun r => { r with setNext := some (.value ((tget none 0 ws).map BitVec.toNat) ((tget none 1 ws).map fun w => fld w 47 32)) }
    | .eth h => s.commitEth path h
    | .key p =>
      let x := s.part p
      let now := fun i => match x.key with | some k => keyWord k i | none => 0
      s.setPart p { x with key := some (keyOf fun i => (tget none i ws).getD (now i)) }
    | .qcfg _ => s)
/-- A written commit word: 1 commits a STAGED copy; with any other copy nothing changes. -/
def State.commitWord (path jsn : Nat) (key : StageKey) (v : Word) (s : State) : State :=
  if v = 1 then
    match s.stagedWords path key with
    | some ws => s.commitGroup path jsn key ws
    | none => s
  else s
/-- QCFG0 commits itself with the staged words of a STAGED copy (R41); with an EMPTY or LOST one nothing changes (R513). -/
def State.commitQcfg (path n : Nat) (v : Word) (s : State) : State :=
  match s.stagedWords path (.qcfg n) with
  | some _ =>
    let w := fun i => s.stagedQcfg path n i
    State.takeCopy path (.qcfg n) (s.applyQcfg n v (w 1) (w 2) (w 3) (w 4))
  | none => s
/-- The effect of an accepted word of a path. -/
def State.regApply (path jsn : Nat) (r : Reg) (v : Word) (s : State) : State :=
  match accessOf r with
  | .ro => s
  | .rc => s
  | .w1c => s.w1c r v
  | _ =>
    match r with
    | .pll _ _ => s.setPllFreq v
    | .out n o => if o = 4 then s.commitWord path jsn (.out n) v else s.stageWord path (.out n) o v
    | .tb o => if o = 2 then s.commitWord path jsn .leap v else s.stageWord path .leap o v
    | .qty n o =>
      if o = 0 then s.commitQcfg path n v
      else if o < 5 then s.stageWord path (.qcfg n) o v
      else if o = 7 then s.commitWord path jsn (.qset n) v
      else s.stageWord path (.qset n) (o - 5) v
    | .sch _ => s.putSch { s.sch with pendMax := fld v 47 28 }
    | .rtc o =>
      if o = 3 ∨ o = 4 then s.stageWord path .rtc (o - 3) v
      else if o = 5 then s.commitWord path jsn .rtc v
      else if o = 6 then s.setTrim (sfld v 47 31)
      else s.onRtc fun x =>
        match o with
        | 8 => { x with cfg := maskW (2 ^ 48 - 2 ^ 31) v }
        | 0x10 => x.setAlarm 0 (some v) none false
        | 0x11 => x.setAlarm 0 none (some v) false
        | 0x12 => x.setAlarm 1 (some v) none false
        | 0x13 => x.setAlarm 1 none (some v) false
        | 0x20 => { x with bkNext := some (maskW (2 ^ 48 - 2 ^ 24) v) }
        | _ => { x with clrNext := x.clrNext || v == 1 }
    | .rf a o =>
      let s := if o = 0 ∧ s.isOn 8 then s.antWritten a v else s
      s.putRf { s.rf with waits := s.rf.waits ++ [(0x100 * a + o, v)] }
    | .gale o => if o = 0 then s.onGale fun g => { g with ctrl := maskW (2 ^ 48 - 2 ^ 35) v } else s.selectReport path v
    | .chan n _ => s.setChan n { s.chan n with ctrlNext := some (maskW (2 ^ 48 - 2 ^ 22) v) }
    | .kite _ => s.putKite { s.kite with ctrl := maskW (2 ^ 48 - 2 ^ 26) v }
    | .prof p i =>
      let x := s.prof p
      let y : Profile := match i with
        | 0 => { x with w0 := maskW (2 ^ 48 - 2 ^ 17) v }
        | 1 => { x with w1 := maskW (2 ^ 48 - 2 ^ 10) v }
        | 2 => { x with w2 := maskW (2 ^ 48 - 2 ^ 12) v }
        | _ => { x with w3 := maskW (2 ^ 48 - 2 ^ 24) v }
      (s.putKite { s.kite with profs := tput {} p y s.kite.profs })
    | .grp g => s.setMem { s.mem with grpcfg := tput 0x800000000000#48 g (maskW (3 * 2 ^ 46) v) s.mem.grpcfg }
    | .patrol _ =>
      let m := if bit v 47 then s.mem else s.mem.endLeases
      s.setMem { m with patrolCfg := maskW (2 ^ 48 - 2 ^ 31) v }
    | .eth h o => if o = 5 then s.commitWord path jsn (.eth h) v else s.stageWord path (.eth h) o v
    | .spi h _ => s.setSpi h { s.spi h with en := bit v 47 }
    | .s0 _ =>
      let x := s.host.s0
      let a := fld v 47 41
      let l := if path = 5 then x.lock else bit v 39
      let s := s.putHost { s.host with s0 := { x with addrNew := if a = x.addr then none else some a, wakeEn := bit v 40, lock := l } }
      s.onRtc (Rtc.write [1] fun k => { k with svc := some (a, bit v 40, l) })
    | .partner p o =>
      let x := s.part p
      if o = 0 then s.setPart p { x with rights := fld v 47 46, authReq := bit v 45 }
      else if o < 7 then s.stageWord path (.key p) (o - 1) v
      else if o = 7 then (if v = 2 then s.setPart p { x with key := none } else s.commitWord path jsn (.key p) v)
      else if v = 1 then s.seqReset p
      else s
    | .balPart p _ => s.setPart p { s.part p with credMax := fld v 47 37 }
    | .balLink l _ => s.setLb l { s.lb l with floatWords := fld v 47 42 }
    | .pad _ =>
      let s := s.onPwr fun p => { p with padCfg := fld v 47 45 }
      [9, 10, 11].foldl (fun (s : State) d => if s.isOn d then s.padsOn d else s) s
    | _ => s
/-- Words take effect in order. -/
def State.applyWords (path jsn : Nat) (ws : List (Nat × Word)) (s : State) : State :=
  ws.foldl (fun (s : State) x => s.regApply path jsn (regOf x.1) x.2) s
/-- The words of a packet that are no commit words. -/
def plainWords (ws : List (Nat × Word)) : List (Nat × Word) := ws.filter fun x => !isCommit (regOf x.1)
/-- The commit words of a packet. -/
def commitWords (ws : List (Nat × Word)) : List (Nat × Word) := ws.filter fun x => isCommit (regOf x.1)
/-- The words of one packet take effect: ascending, commit words last (R512). -/
def State.applyAll (path jsn : Nat) (ws : List (Nat × Word)) (s : State) : State :=
  (s.applyWords path jsn (plainWords ws)).applyWords path jsn (commitWords ws)
/-- The first failing word in ascending address order (R302): a plain word is judged after the plain words before it, a commit word after all plain words and the commit words before it. -/
def firstRefusal (w : Writer) (fin : State) : List (Nat × Word) → State → State → Option (Nat × Status × Nat)
  | [], _, _ => none
  | (a, v) :: t, np, cp =>
    let r := regOf a
    let c := isCommit r
    match State.wordRefusal w fin (if c then cp else np) r v with
    | some e => some (a, e)
    | none => firstRefusal w fin t (if c then np else np.regApply w.path 0 r v) (if c then cp.regApply w.path 0 r v else cp)
/-- What a packet's words are refused for, if anything. -/
def State.refusalOf (w : Writer) (ws : List (Nat × Word)) (s : State) : Option (Nat × Status × Nat) :=
  firstRefusal w (s.applyAll w.path 0 ws) ws s (s.applyWords w.path 0 (plainWords ws))

/-! The commands. -/

/-- The register is kept through journal replay (Table 11). -/
def kept : Reg → Bool
  | .partner _ o => o == 0
  | .eth _ o => decide (o < 6)
  | .spi _ _ => true
  | .out _ o => decide (o < 4)
  | .pll _ _ => true
  | .rf _ _ => true
  | .gale o => o == 0
  | .sch _ => true
  | .kite _ => true
  | .prof _ _ => true
  | .grp _ => true
  | .patrol _ => true
  | .balPart _ _ => true
  | .balLink _ _ => true
  | _ => false
/-- What an accepted word pins (R327): its register's latest write, and with OUT_COMMIT the output's configuration. -/
def State.wordPins (path : Nat) (a : Nat) (v : Word) (s : State) : List Pin :=
  match regOf a with
  | .out n o => if o = 4 ∧ v = 1 ∧ (s.stagedWords path (.out n)).isSome then [.config 0x070 n] else if o < 4 then [.config 0x011 a] else []
  | r => if kept r && accessOf r != .ro && accessOf r != .rc then [.config 0x011 a] else []
/-- A word that the journal does not show: a key (R294). -/
def secret (a : Nat) : Bool := match regOf a with | .partner _ o => decide (1 ≤ o ∧ o < 7) | _ => false
/-- A lost copy's refused commit empties it (R513). -/
def State.emptyLost (path a : Nat) (s : State) : State :=
  match commitKey (regOf a) with | some key => s.setCopy path key none | none => s
/-- The verdict on words that a partner writes. -/
def State.writeVerdict (p : Nat) (ws : List (Nat × Word)) (reply : List Word) (stored : Option (List Word)) (s : State) : Verdict :=
  let w : Writer := ⟨p, (s.part p).rights⟩
  match s.refusalOf w ws with
  | some (a, st, r) =>
    { status := st, words := [regReason a r], stored := stored, act := fun _ s => if r = 0xF41 then s.emptyLost p a else s }
  | none =>
    let cp := s.applyWords p 0 (plainWords ws)
    { status := .done, words := reply, stored := stored, pins := (ws.flatMap fun x => cp.wordPins p x.1 x.2)
      act := fun jsn s => s.applyAll p jsn ws }
/-- REG_READ (0x010, R288, R301). -/
def opRegRead : OpSpec :=
  { code := 0x010, rights := 1, compact := true, reads := true
    eval := fun k s =>
      let a := fld (arg k.ps 0) 47 24
      let n := fld (arg k.ps 0) 23 12
      if k.ps.length ≠ 1 ∨ n = 0 ∨ 2048 < n ∨ 2 ^ 24 < a + n then badParam 0
      else
        let rs := (List.range n).map fun i => regOf (a + i)
        { status := .done, words := (s.readRegs k.partner n a).1, full := rs.any fun r => accessOf r == .rc
          act := fun _ s => rs.foldl (fun (s : State) r => s.rcClear 1 r) (s.readRegs k.partner n a).2 } }
/-- REG_WRITE (0x011, R302). -/
def opRegWrite : OpSpec :=
  { code := 0x011
    eval := fun k s =>
      let a := fld (arg k.ps 0) 47 24
      let n := fld (arg k.ps 0) 23 12
      let ws := (List.range (k.ps.length - 1)).map fun i => (a + i, arg k.ps (i + 1))
      let stored := some (k.ps.take 1 ++ ws.map fun x => if secret x.1 then 0 else x.2)
      if n = 0 ∨ n + 1 ≠ k.ps.length ∨ 2 ^ 24 < a + n then { badParam 0 with stored := stored }
      else s.writeVerdict k.partner ws [] stored }
/-- REG_MODIFY (0x012, R303). -/
def opRegModify : OpSpec :=
  { code := 0x012
    eval := fun k s =>
      let a := fld (arg k.ps 0) 47 24
      if k.ps.length ≠ 3 then badParam 0
      else if accessOf (regOf a) ≠ .rw then refuse .notPermitted [regReason a 0]
      else
        let old := (s.readReg k.partner (regOf a)).1
        let new := (old &&& ~~~(arg k.ps 1)) ||| (arg k.ps 2 &&& arg k.ps 1)
        s.writeVerdict k.partner [(a, new)] [old, new] none }
/-- REG_READ. -/
def execRegRead (t : Lapse) (env : Env) (ps : List Word) (s : State) : Host.Outcome State Fault Refusal := runOp opRegRead t env ps s
/-- REG_WRITE. -/
def execRegWrite (t : Lapse) (env : Env) (ps : List Word) (s : State) : Host.Outcome State Fault Refusal := runOp opRegWrite t env ps s
/-- REG_MODIFY. -/
def execRegModify (t : Lapse) (env : Env) (ps : List Word) (s : State) : Host.Outcome State Fault Refusal := runOp opRegModify t env ps s

/-! One word through S0 (R358, R359). -/

/-- S0 answers its address: the module is ready and D9 is on (R360, R363). -/
def State.s0Up (s : State) : Bool := s.pwr.ready && s.isOn 9
/-- S0 reads the address (Table 5). -/
def s0Reads (a : Nat) : Bool :=
  decide (a < 0x100) || decide (0x1000 ≤ a ∧ a < 0x2000) || decide (0x3000 ≤ a ∧ a < 0x3200) || decide (0x5000 ≤ a ∧ a < 0x6000) ||
    decide (0x1C000 ≤ a ∧ a < 0x1C150) || decide (0x1D000 ≤ a ∧ a < 0x1D200)
/-- S0 writes the address (Table 5). -/
def s0Writes (a : Nat) : Bool := decide (0x5000 ≤ a ∧ a < 0x6000) || decide (0x1C000 ≤ a ∧ a < 0x1C150)
/-- A word read through S0: as read on its own path, with what it clears. -/
def State.s0ReadWord (a : Nat) (s : State) : Word × State :=
  if s0Reads a then
    let x := s.readReg 5 (regOf a)
    (x.1, x.2.rcClear 0 (regOf a))
  else (0, s)
/-- A word refused on S0 is not acknowledged, counted, and shown in S0_LAST. -/
def State.s0Refused (a : Nat) (st : Status) (s : State) : State :=
  let x := s.host.s0
  (s.putHost { s.host with s0 := { x with last := pack [put 47 36 st.code, put 35 12 a], refused := satN 16 (x.refused + 1) } })
/-- An accepted write through S0 that reaches a partner page or a register kept by replay is sealed first (R322). -/
def State.s0Seal (a : Nat) (v : Word) (s : State) : State :=
  let page : Bool := match regOf a with | .partner _ _ => true | _ => false
  if (page || kept (regOf a)) && accessOf (regOf a) != .ro && accessOf (regOf a) != .rc then
    State.jsnCheck (s.seal { jsn := 0, kind := 0, partner := 15, port := 4, opcode := 0x011, status := 1, key := 0, tq := 0, params := [pack [put 47 24 a, put 23 12 1], if secret a then 0 else v], reply := [], pins := s.wordPins 5 a v })
  else s
/-- A word written through S0: whether it is acknowledged, and the state. -/
def State.s0WriteWord (a : Nat) (v : Word) (s : State) : Bool × State :=
  let r := regOf a
  if s.host.s0.lock ∨ !s0Writes a then (false, s.s0Refused a .notPermitted)
  else match State.wordRefusal ⟨5, 3⟩ (s.regApply 5 0 r v) s r v with
    | some (st, why) => (false, State.s0Refused a st (if why = 0xF41 then s.emptyLost 5 a else s))
    | none => (true, (s.s0Seal a v).regApply 5 s.jrn.next r v)
/-- A STOP on the bus: a new address takes effect (Table 14). -/
def State.s0Stop (s : State) : State :=
  let x := s.host.s0
  (s.putHost { s.host with s0 := { x with addr := x.addrNew.getD x.addr, addrNew := none } })
/-- The pointer after a word. -/
def State.s0Point (a : Nat) (s : State) : State := s.putHost { s.host with s0 := { s.host.s0 with ptr := a % 2 ^ 24 } }

/-! Commands that are one register access, by a partner's packet or one S0 transaction. -/

/-- One word written. -/
def regWriteRow (t : Lapse) (via : Via) (a : Nat) (v : Word) (s : State) : Host.Outcome State Fault Refusal :=
  match via with
  | .packet env => runOp opRegWrite t env [pack [put 47 24 a, put 23 12 1], v] s
  | .s0 =>
    let s := s.elapse t
    if s.s0Up then
      let x := s.s0WriteWord a v
      .next ((x.2.s0Point (a + 1)).s0Stop.emit (.s0Ack [x.1]))
    else .next s
/-- One word read. -/
def regReadRow (t : Lapse) (via : Via) (a : Nat) (s : State) : Host.Outcome State Fault Refusal :=
  match via with
  | .packet env => runOp opRegRead t env [pack [put 47 24 a, put 23 12 1]] s
  | .s0 =>
    let s := s.elapse t
    if s.s0Up then
      let x := s.s0ReadWord a
      .next ((x.2.s0Point (a + 1)).s0Stop.emit (.s0 [x.1]))
    else .next s
/-- TB_LEAP_COMMIT (R36, R38). -/
def execTbLeapCommit (t : Lapse) (via : Via) (v : Word) (s : State) : Host.Outcome State Fault Refusal := regWriteRow t via 0x3002 v s
/-- QCFG0 (R41). -/
def execQcfg0 (t : Lapse) (via : Via) (n : Nat) (v : Word) (s : State) : Host.Outcome State Fault Refusal := regWriteRow t via (0x3100 + 16 * (n % 16)) v s
/-- QSET_COMMIT (R56). -/
def execQsetCommit (t : Lapse) (via : Via) (n : Nat) (v : Word) (s : State) : Host.Outcome State Fault Refusal := regWriteRow t via (0x3107 + 16 * (n % 16)) v s
/-- OUT_COMMIT (R191). -/
def execOutCommit (t : Lapse) (via : Via) (n : Nat) (v : Word) (s : State) : Host.Outcome State Fault Refusal := regWriteRow t via (0x2104 + 16 * (n % 8)) v s
/-- RTC_SET_COMMIT (R456). -/
def execRtcSetCommit (t : Lapse) (via : Via) (v : Word) (s : State) : Host.Outcome State Fault Refusal := regWriteRow t via 0x5005 v s
/-- ETH_COMMIT (R364). -/
def execEthCommit (t : Lapse) (via : Via) (h : Nat) (v : Word) (s : State) : Host.Outcome State Fault Refusal := regWriteRow t via (0x1C005 + 32 * (h % 2)) v s
/-- PART_KEY_COMMIT (R292). -/
def execPartKeyCommit (t : Lapse) (via : Via) (p : Nat) (v : Word) (s : State) : Host.Outcome State Fault Refusal := regWriteRow t via (0x1C107 + 16 * (p % 5)) v s
/-- PART_KEY_COMMIT with 2: the key is erased (R292, R294). -/
def execPartKeyErase (t : Lapse) (via : Via) (p : Nat) (s : State) : Host.Outcome State Fault Refusal := regWriteRow t via (0x1C107 + 16 * (p % 5)) 2 s
/-- PART_SEQRESET (R289). -/
def execPartSeqreset (t : Lapse) (via : Via) (p : Nat) (v : Word) (s : State) : Host.Outcome State Fault Refusal := regWriteRow t via (0x1C108 + 16 * (p % 5)) v s
/-- BK_CLEAR (R468). -/
def execBkClear (t : Lapse) (via : Via) (v : Word) (s : State) : Host.Outcome State Fault Refusal := regWriteRow t via 0x5027 v s
/-- GALE_RSEL (R106). -/
def execGaleRsel (t : Lapse) (via : Via) (v : Word) (s : State) : Host.Outcome State Fault Refusal := regWriteRow t via 0x8010 v s
/-- FREQ of PLL-T (Table 9 of R225). -/
def execPllFreq (t : Lapse) (via : Via) (v : Word) (s : State) : Host.Outcome State Fault Refusal := regWriteRow t via 0x2028 v s
/-- A read of QSTAT to QTS_FRC opens a freeze (R53); `off` counts from QSTAT. -/
def execQstatGroupOpen (t : Lapse) (via : Via) (n off : Nat) (s : State) : Host.Outcome State Fault Refusal := regReadRow t via (0x3108 + 16 * (n % 16) + off % 7) s
/-- A read of QEND closes it (R53). -/
def execQend (t : Lapse) (via : Via) (n : Nat) (s : State) : Host.Outcome State Fault Refusal := regReadRow t via (0x310F + 16 * (n % 16)) s
/-- A read of RTC_SEC opens the RTC's shadow (R455). -/
def execRtcSec (t : Lapse) (via : Via) (s : State) : Host.Outcome State Fault Refusal := regReadRow t via 0x5000 s
/-- A read of RTC_FRAC closes it (R455). -/
def execRtcFrac (t : Lapse) (via : Via) (s : State) : Host.Outcome State Fault Refusal := regReadRow t via 0x5002 s
/-- SHADOW_EXPIRY (R53, R455): a shadow open for 1 ms closes by itself. -/
def execShadowExpiry (t : Lapse) (path : Nat) (q : Option Nat) (s : State) : Host.Outcome State Fault Refusal :=
  let s := s.elapse t
  if 5 < path then .next s
  else match q with
  | some n => if n < 16 then .next (s.setShadow path n ((s.shadow path n).expire s.tb.clk)) else .next s
  | none =>
    let h := s.rtcShadow path
    if h.isOpen ∧ h.since + 654720 ≤ s.tb.clk then .next (s.setRtcShadow path { h with isOpen := false, expired := true }) else .next s

end Sys2Proof.Machine
end

