-- ==== Sys2Proof/Machine/Host.lean ====
section
/-! DEFINITION. The host and service ports (R344-R363): Ethernet frames, segments and reassembly, whole packets into the command unit (R284 steps 1 to 3), link-level requests, SPI transfers, S0 transactions, and the failure and return of a port. -/
namespace Sys2Proof.Machine
open Sys2Proof

/-! Whole packets. -/

/-- The opcodes of Table 5. -/
def opTable : List OpSpec :=
  [opPing, opHello, opGoodbye, opRegRead, opRegWrite, opRegModify, opModeSet, opModeGet, opAidTime, opAidPosition, opAidOrbit] ++
  [opGaleJob, opGaleCancel, opKiteAssign, opKiteRelease, opTrainForm, opTrainBreak, opMeasConfig, opNavbitsConfig, opSolConfig] ++
  [opPulseConfig, opTimeStepPermit, opQtyConfig, opQtyRead, opSchedAdd, opSchedCancel, opSchedQuery, opSmpConfig, opSmpStart, opSmpSlotmask] ++
  [opLendiConfig, opLendiSend, opLendiPair, opPwrBudget, opPwrDomain, opPadRelease, opRtcSet, opRtcAlarm, opRtcTrim, opBackupConfig] ++
  [opJournalState, opJournalQuery, opEventAck, opEventResync, opDspLoad, opDspTask, opSelftest, opReset, opFwUpdate]
/-- The row of an opcode, if it has one. -/
def opOf (code : Nat) : Option OpSpec := opTable.find? fun o => o.code == code
/-- A packet dropped at step 1 counts in its Ethernet port's counters. -/
def State.countDrop (port : Nat) (s : State) : State :=
  if port < 2 then s.setEth port { s.eth port with cntDrop := satN 24 ((s.eth port).cntDrop + 1) } else s
/-- Words of a packet whose word 0 is given (R280). -/
def packetLen (w0 : Word) : Nat := 3 + fld w0 15 0 + (if bit w0 33 then 4 else 0)
/-- The packet of received words (R279). -/
def pktOfWords (port : Nat) (ep : Endpoint) (mac : Word) (ws : List Word) (s : State) : Pkt :=
  let w0 := arg ws 0
  let len := fld w0 15 0
  { port := port, ep := ep, mac := mac, partner := fld w0 19 16, seq := (arg ws 1).toNat, code := fld w0 31 20, ps := (ws.drop 2).take len
    tag := if bit w0 33 then some ((ws.drop (2 + len)).take 4) else none, arrival := s.tb.q0 }
/-- REASON of the BAD_FRAME that step 2 of R284 gives, if any. -/
def frameReason (ws : List Word) : Option Nat :=
  let w0 := arg ws 0
  let len := fld w0 15 0
  if fld w0 39 36 ≠ 1 then some 0xF20
  else if fld (ws.getLastD 0) 47 32 ≠ 0xFFFF - len then some 0xF21
  else if ws.length ≠ packetLen w0 then some 0xF22
  else if bit w0 35 ∨ bit w0 34 then some 0xF23
  else if 4 < fld w0 19 16 then some 0xF24
  else if 2048 < len then some 0xF25
  else if arg ws 1 = 0 ∧ fld w0 31 20 ≠ 1 ∧ fld w0 31 20 ≠ 2 then some 0xF26
  else none
/-- Steps 1 to 3 of R284, then the rest. -/
def State.receive (port : Nat) (ep : Endpoint) (mac : Word) (ws : List Word) (s : State) : State :=
  if ws.length < 3 ∨ fld (arg ws 0) 47 40 ≠ 0xD5 then s.countDrop port
  else
    let k := pktOfWords port ep mac ws s
    match frameReason ws with
    | some r => s.early k .badFrame [word r]
    | none =>
      if fld (ws.getLastD 0) 31 0 ≠ crc32c (wireBytes ws.dropLast) then (s.countCheck k.partner).early k .badCheck [0]
      else runPacket (opOf k.code) k s

/-! The parse stage (R267). -/

/-- The first packet of a partner in the parse queue. -/
def State.headOf (s : State) (p : Nat) : Option Waiting := s.host.parse.find? fun w => w.k.partner == p
/-- The partner that the round takes a command from next: in rising number from the one whose turn it is, one whose first packet has its slots. -/
def State.nextTurn (s : State) : Option (Nat × Waiting) :=
  ([0, 1, 2, 3, 4].map fun i => (s.host.turn + i) % 5).findSome? fun p =>
    (s.headOf p).bind fun w => if s.hasSlots (opOf w.k.code) w.k (s.host.parse.length - 1) then some (p, w) else none
/-- One command after another, in rounds, while one can be taken; one whose partner has moved in the meantime is refused with UNBOUND (R361). -/
def State.serveRounds (fuel : Nat) (s : State) : State :=
  match fuel with
  | 0 => s
  | fuel + 1 =>
    match s.nextTurn with
    | none => s
    | some (p, w) =>
      let s := s.putHost { s.host with parse := s.host.parse.erase w, turn := (p + 1) % 5 }
      State.serveRounds fuel (if boundHere (s.part p).bind w.k then runParse (opOf w.k.code) w.k w.extra s else s.unbound w.k)
/-- GROUP_COMPLETE (R324): the oldest group in the landing buffer is complete in the working stores, and the parse queue takes the slots that return. -/
def execGroupComplete (t : Lapse) (s : State) : Host.Outcome State Fault Refusal :=
  let s := s.elapse t
  if s.jrn.working then .next (s.groupDone.serveRounds 1361) else .next s

/-! Ethernet. -/

/-- A frame came to an Ethernet port. -/
def State.countFrame (port : Nat) (s : State) : State :=
  s.setEth port { s.eth port with cntRx := satN 24 ((s.eth port).cntRx + 1) }
/-- A discarded segment or packet (R348). -/
def State.countSeg (port : Nat) (s : State) : State :=
  s.setEth port { s.eth port with cntSegErr := satN 24 ((s.eth port).cntSegErr + 1) }
/-- Bytes of a frame: header, VLAN tag, transport headers, transport word, payload, check sequence. -/
def frameSize (f : Frame) : Nat :=
  let h := match f.ep with | .udp4 _ _ => 28 | .udp6 _ _ => 48 | _ => 0
  14 + (if f.vlan = 0 then 0 else 4) + h + 6 + f.bytes + 4
/-- A frame's VLAN is not the port's: with VLAN_ID 0 a tagged frame, otherwise one without that tag (R345). -/
def EthPage.otherVlan (p : EthPage) (vlan : Nat) : Bool := vlan != fld p.cfg 42 31
/-- What the port's configuration drops (R345, Table 9). -/
def EthPage.drops (p : EthPage) (f : Frame) : Bool :=
  let udp := f.dport != fld p.cfg 27 12 || f.fragment || f.sumBad
  p.otherVlan f.vlan || decide ((if bit p.cfg 46 then 9022 else 1522) < frameSize f) ||
  (match f.ep with
   | .udp4 _ _ => !bit p.cfg 44 || udp
   | .udp6 _ _ => !bit p.cfg 43 || udp
   | .raw _ => !bit p.cfg 45
   | .spi => true)
/-- The packet in progress of an endpoint on a port. -/
def State.reasmOf (s : State) (port : Nat) (ep : Endpoint) : Option Reasm := s.host.reasm.find? fun r => r.port == port && r.ep == ep
/-- It is no longer in progress. -/
def State.dropReasm (port : Nat) (ep : Endpoint) (s : State) : State :=
  (s.putHost { s.host with reasm := s.host.reasm.filter fun r => !(r.port == port && r.ep == ep) })
/-- A packet still incomplete 10 ms after its first segment is discarded and counted (R348). -/
def State.expireReasm (port : Nat) (ep : Endpoint) (s : State) : State :=
  match s.reasmOf port ep with
  | some r => if r.first + 6547200 ≤ s.tb.clk then (s.dropReasm port ep).countSeg port else s
  | none => s
/-- A segment (R347, R348). -/
def State.segment (f : Frame) (s : State) : State :=
  let seg := fld f.xport 47 40
  let nseg := fld f.xport 39 32
  let xid := fld f.xport 31 16
  let n := fld f.xport 15 4
  let cur := s.reasmOf f.port f.ep
  let rest := s.dropReasm f.port f.ep
  let long := decide (nseg ≤ seg) || decide (segWords (bit (s.eth f.port).page.cfg 46) f.ep < n ∨ min (f.bytes / 6) f.words.length < n)
  let go := fun (r : Reasm) =>
    let ws := r.words ++ f.words.take n
    if r.got + 1 = nseg then rest.receive f.port f.ep f.mac ws
    else rest.putHost { rest.host with reasm := rest.host.reasm ++ [{ r with got := r.got + 1, words := ws }] }
  if long then rest.countSeg f.port
  else if seg = 0 then go { port := f.port, ep := f.ep, xid := xid, nseg := nseg, got := 0, first := s.tb.clk, words := [] }
  else match cur with
    | some r => if r.xid = xid ∧ r.nseg = nseg ∧ r.got = seg then go r else rest.countSeg f.port
    | none => rest.countSeg f.port
/-- ETH_SEGMENT (R345, R347, R348). -/
def execEthSegment (t : Lapse) (f : Frame) (s : State) : Host.Outcome State Fault Refusal :=
  let s := s.elapse t
  if f.port < 2 ∧ f.ep ≠ .spi ∧ s.portUp f.port then
    let s := s.countFrame f.port
    if (s.eth f.port).page.drops f then .next (s.countDrop f.port)
    else .next ((s.expireReasm f.port f.ep).segment f)
  else .next s
/-- REASSEMBLY_TIMEOUT (R348). -/
def execReassemblyTimeout (t : Lapse) (port : Nat) (ep : Endpoint) (s : State) : Host.Outcome State Fault Refusal :=
  let s := s.elapse t
  .next (s.expireReasm port ep)
/-- ARP_REQUEST (R345): a request for the port's address is answered. -/
def execArpRequest (t : Lapse) (port vlan : Nat) (target : BitVec 32) (mac : Word) (s : State) : Host.Outcome State Fault Refusal :=
  let s := s.elapse t
  if port < 2 ∧ s.portUp port then
    let s := s.countFrame port
    let p := (s.eth port).page
    if p.otherVlan vlan then .next (s.countDrop port)
    else if target.toNat = fld p.ip4 31 0 then .next (s.emit (.arp port p.tag mac)) else .next s
  else .next s
/-- The link-local address formed from a MAC address by modified EUI-64 (R345). -/
def linkLocal (mac : Word) : BitVec 128 :=
  BitVec.ofNat 128 (0xFE80 * 2 ^ 112 + (fld mac 47 24 ^^^ 0x020000) * 2 ^ 40 + 0xFFFE * 2 ^ 24 + fld mac 23 0)
/-- The static IPv6 address of a page; all zero means none. -/
def EthPage.ip6 (p : EthPage) : BitVec 128 := BitVec.ofNat 128 (p.ip6a.toNat * 2 ^ 80 + p.ip6b.toNat * 2 ^ 32 + fld p.ip6c 47 16)
/-- NEIGHBOUR_SOLICITATION (R345): for the link-local or the static address. -/
def execNeighbourSolicitation (t : Lapse) (port vlan : Nat) (target : BitVec 128) (mac : Word) (s : State) : Host.Outcome State Fault Refusal :=
  let s := s.elapse t
  if port < 2 ∧ s.portUp port then
    let s := s.countFrame port
    let p := (s.eth port).page
    if p.otherVlan vlan then .next (s.countDrop port)
    else if target = linkLocal (Config.ethMac port) ∨ (p.ip6 ≠ 0 ∧ target = p.ip6) then .next (s.emit (.neighbour port p.tag mac)) else .next s
  else .next s
/-- ICMP_ECHO (R345): ICMP and ICMPv6 echo requests are each answered up to 10 times in a second. -/
def execIcmpEcho (t : Lapse) (port vlan : Nat) (v6 : Bool) (mac : Word) (payload : List (BitVec 8)) (s : State) : Host.Outcome State Fault Refusal :=
  let s := s.elapse t
  if port < 2 ∧ s.portUp port then
    let s := s.countFrame port
    let e := s.eth port
    let recent := (if v6 then e.echoes6 else e.echoes4).filter fun c => decide (s.tb.clk < c + 654720000)
    let keep := fun (xs : List Nat) => if v6 then { e with echoes6 := xs } else { e with echoes4 := xs }
    if e.page.otherVlan vlan then .next (s.countDrop port)
    else if recent.length < 10 then .next ((s.setEth port (keep (recent ++ [s.tb.clk]))).emit (.echo port e.page.tag mac payload))
    else .next (s.setEth port (keep recent))
  else .next s

/-! SPI. -/

/-- Words still to be read of the current outbound packet. -/
def SpiPort.avail (p : SpiPort) : Nat := match p.tx with | o :: _ => o.words.length - o.read | [] => 0
/-- Free words of the receive buffer. -/
def SpiPort.rxFree (p : SpiPort) : Nat := 4096 - p.rx.length
/-- The status word (Table 3): the state before the transfer. -/
def State.spiStatus (h : Nat) (s : State) : Word :=
  let p := s.spi h
  let start : Bool := match p.tx with | o :: _ => o.read == 0 | [] => false
  pack [putB 47 (s.portUp h), putB 46 (s.attn h), putB 45 p.cwErr, putB 44 p.ovr, put 43 32 (satN 12 p.rxFree), put 31 20 (satN 12 p.avail), putB 19 start]
/-- A control word that is ignored with its transfer (R353). -/
def cwBad (cw : Word) : Bool := fld cw 47 46 == 3 || fld cw 31 16 != 0xFFFF - fld cw 47 32
/-- Whole packets at the front of the received words pass to step 1 of R284 in turn. -/
def State.spiParse (fuel h : Nat) (s : State) : State :=
  match fuel with
  | 0 => s
  | fuel + 1 =>
    match (s.spi h).rx with
    | [] => s
    | w :: ws =>
      let n := packetLen w
      if (w :: ws).length < n then s
      else
        let s' := s.setSpi h { s.spi h with rx := (w :: ws).drop n }
        State.spiParse fuel h (s'.receive h .spi 0 ((w :: ws).take n))
/-- A WRITE (R353). -/
def State.spiPut (h : Nat) (start : Bool) (nwords : Nat) (ws : List Word) (s : State) : State :=
  let p := s.spi h
  let ovf := decide (p.rxFree < nwords)
  let s := s.setSpi h { p with rx := (if start then [] else p.rx) ++ ws.take p.rxFree, ovr := ovf, cntOvr := if ovf then satN 16 (p.cntOvr + 1) else p.cntOvr }
  let s := State.spiParse (p.rx.length + ws.length) h s
  if ovf then s.setSpi h { s.spi h with rx := [] } else s
/-- A READ of n words (R354): of the current packet only, 0 beyond it. The reply to a GOODBYE has left when its last word has (R297). -/
def State.spiGet (h n : Nat) (s : State) : List Word × State :=
  let p := s.spi h
  match p.tx with
  | [] => (List.replicate n 0, s)
  | o :: rest =>
    let ws := (o.words.drop o.read).take n
    let o' := { o with read := o.read + ws.length }
    let all := decide (o.words.length ≤ o'.read)
    let s := s.setSpi h { p with tx := if all then rest else o' :: rest }
    let bye := all && o.isReply && fld (arg o.words 0) 31 20 == 3 && fld (arg o.words 2) 47 36 == 1
    (ws ++ List.replicate (n - ws.length) 0, if bye then s.unbind o.partner h else s)
/-- One transfer (R351-R354). `ws` are the whole words that came in the data phase; `cut` says that CS rose inside a word. -/
def State.spiTransfer (h : Nat) (idleHigh : Bool) (cw : Word) (ws : List Word) (cut : Bool) (s : State) : State :=
  if !(h == 2 || h == 3) ∨ !s.portUp h then s
  else
    let st := s.spiStatus h
    let p := s.spi h
    let n := fld cw 43 32
    let s := s.setSpi h { p with mode := idleHigh, cwErr := cwBad cw, cntPart := if cut then satN 16 (p.cntPart + 1) else p.cntPart, cntCw := if cwBad cw then satN 16 (p.cntCw + 1) else p.cntCw }
    if cwBad cw then s.emit (.spi h st [])
    else match fld cw 47 46 with
      | 1 => State.emit (s.spiPut h (bit cw 45) n (ws.take n)) (.spi h st [])
      | 2 =>
        let x := s.spiGet h n
        x.2.emit (.spi h st x.1)
      | _ => s.emit (.spi h st [])
/-- SPI_STATUS. -/
def execSpiStatus (t : Lapse) (port : Nat) (idleHigh : Bool) (cw : Word) (s : State) : Host.Outcome State Fault Refusal :=
  .next ((s.elapse t).spiTransfer port idleHigh cw [] false)
/-- SPI_WRITE. -/
def execSpiWrite (t : Lapse) (port : Nat) (idleHigh : Bool) (cw : Word) (ws : List Word) (cut : Bool) (s : State) : Host.Outcome State Fault Refusal :=
  .next ((s.elapse t).spiTransfer port idleHigh cw ws cut)
/-- SPI_READ. -/
def execSpiRead (t : Lapse) (port : Nat) (idleHigh : Bool) (cw : Word) (s : State) : Host.Outcome State Fault Refusal :=
  .next ((s.elapse t).spiTransfer port idleHigh cw [] false)

/-! S0. -/

/-- Words written from the pointer on, with their acknowledgements. -/
def State.s0Words : List Word → List Bool → State → List Bool × State
  | [], acks, s => (acks, s)
  | w :: ws, acks, s =>
    let x := s.s0WriteWord s.host.s0.ptr w
    State.s0Words ws (acks ++ [x.1]) (x.2.s0Point (s.host.s0.ptr + 1))
/-- S0_WRITE (R357, R358): pointer bytes, whole words, and `cut` a word left incomplete at the STOP. -/
def execS0Write (t : Lapse) (addr : Nat) (ws : List Word) (cut : Bool) (s : State) : Host.Outcome State Fault Refusal :=
  let s := s.elapse t
  if s.s0Up then
    let x := State.s0Words ws [] (s.s0Point addr)
    let p := x.2.host.s0
    let s := if cut then (x.2.putHost { x.2.host with s0 := { p with aborted := satN 16 (p.aborted + 1) } }) else x.2
    .next (s.s0Stop.emit (.s0Ack x.1))
  else .next s
/-- Words read from the pointer on. -/
def State.s0Fetch : Nat → List Word → State → List Word × State
  | 0, ws, s => (ws, s)
  | n + 1, ws, s =>
    let x := s.s0ReadWord s.host.s0.ptr
    State.s0Fetch n (ws ++ [x.1]) (x.2.s0Point (s.host.s0.ptr + 1))
/-- S0_READ (R357): from the pointer bytes, or from the pointer in force. -/
def execS0Read (t : Lapse) (addr : Option Nat) (count : Nat) (s : State) : Host.Outcome State Fault Refusal :=
  let s := s.elapse t
  if s.s0Up then
    let x := State.s0Fetch count [] (match addr with | some a => s.s0Point a | none => s)
    .next (x.2.s0Stop.emit (.s0 x.1))
  else .next s
/-- S0_ADDRESS_MATCH (R360). -/
def execS0AddressMatch (t : Lapse) (addr : Nat) (s : State) : Host.Outcome State Fault Refusal :=
  let s := s.elapse t
  let x := s.host.s0
  if addr ≠ x.addr then .next s
  else if s.pwr.phase = .dormant ∧ x.wakeEn ∧ s.pwr.good ∧ s.rtc.source = 0 ∧ !s.pwr.dormLoss then
    .next (s.onPwr fun p => { p with wakeReq := some (p.wakeReq.getD 4) })
  else if s.pwr.ready ∧ !s.isOn 9 then .next (s.domTo 9 2)
  else .next s

/-! Losing a port. -/

/-- A host port fails (R362, R337); its bindings stay. -/
def State.hostFails (port : Nat) (s : State) : State :=
  State.partFailed 0x013 port (s.putFc { s.fc with host := setBit s.fc.host port })
/-- A host port returns (R362). -/
def State.hostReturns (port : Nat) (s : State) : State :=
  State.partRestored 0x013 port (s.putFc { s.fc with host := clearBits s.fc.host (2 ^ port) })
/-- HOST_PORT_FAILED (R362): an Ethernet link that had been up since D9 powered up is down for 1 s. -/
def execHostPortFailed (t : Lapse) (port : Nat) (s : State) : Host.Outcome State Fault Refusal :=
  let s := s.elapse t
  let e := s.eth port
  if port < 2 ∧ s.isOn 9 ∧ bit e.page.cfg 47 ∧ e.wasUp then
    let s := s.setEth port { e with link := false, failed := true }
    .next (if e.failed then s else s.hostFails port)
  else .next s
/-- HOST_SELF_CHECK (R362). -/
def execHostSelfCheck (t : Lapse) (port : Nat) (passed : Bool) (s : State) : Host.Outcome State Fault Refusal :=
  let s := s.elapse t
  if !s.isOn 9 ∨ 4 ≤ port then .next s
  else if port < 2 then
    let e := s.eth port
    let s := s.setEth port { e with selfOk := passed, failed := e.failed || !passed }
    .next (if passed || e.failed then s else s.hostFails port)
  else
    let p := s.spi port
    let s := s.setSpi port { p with failed := !passed }
    .next (if p.failed == !passed then s else if passed then s.hostReturns port else s.hostFails port)
/-- ETH_LINK_STAYED_UP (R362): the link of a failed port has stayed up for 1 s, its self-check passed. -/
def execEthLinkStayedUp (t : Lapse) (port : Nat) (s : State) : Host.Outcome State Fault Refusal :=
  let s := s.elapse t
  let e := s.eth port
  if port < 2 ∧ s.isOn 9 ∧ bit e.page.cfg 47 ∧ e.failed ∧ e.selfOk then
    .next ((s.setEth port { e with link := true, wasUp := true, failed := false }).hostReturns port)
  else .next s

end Sys2Proof.Machine
end

