-- ==== Sys2Proof/Machine/Dispatch.lean ====
section
/-! DEFINITION. The one dispatch: each command to its meaning. -/
namespace Sys2Proof.Machine
open Sys2Proof

/-- The effect of a command on everything but the queue. -/
def exec (i : Instr) (s : State) : Host.Outcome State Fault Refusal :=
  match i with
  | .ping t env ps => Sys2Proof.Machine.execPing t env ps s
  | .hello t env ps => Sys2Proof.Machine.execHello t env ps s
  | .goodbye t env ps => Sys2Proof.Machine.execGoodbye t env ps s
  | .regRead t env ps => Sys2Proof.Machine.execRegRead t env ps s
  | .regWrite t env ps => Sys2Proof.Machine.execRegWrite t env ps s
  | .regModify t env ps => Sys2Proof.Machine.execRegModify t env ps s
  | .tbLeapCommit t via v => Sys2Proof.Machine.execTbLeapCommit t via v s
  | .qcfg0 t via n v => Sys2Proof.Machine.execQcfg0 t via n v s
  | .qsetCommit t via n v => Sys2Proof.Machine.execQsetCommit t via n v s
  | .outCommit t via n v => Sys2Proof.Machine.execOutCommit t via n v s
  | .rtcSetCommit t via v => Sys2Proof.Machine.execRtcSetCommit t via v s
  | .ethCommit t via h v => Sys2Proof.Machine.execEthCommit t via h v s
  | .partKeyCommit t via p v => Sys2Proof.Machine.execPartKeyCommit t via p v s
  | .partKeyErase t via p => Sys2Proof.Machine.execPartKeyErase t via p s
  | .partSeqreset t via p v => Sys2Proof.Machine.execPartSeqreset t via p v s
  | .bkClear t via v => Sys2Proof.Machine.execBkClear t via v s
  | .galeRsel t via v => Sys2Proof.Machine.execGaleRsel t via v s
  | .pllFreq t via v => Sys2Proof.Machine.execPllFreq t via v s
  | .qstatGroupOpen t via n off => Sys2Proof.Machine.execQstatGroupOpen t via n off s
  | .qend t via n => Sys2Proof.Machine.execQend t via n s
  | .shadowExpiry t path q => Sys2Proof.Machine.execShadowExpiry t path q s
  | .rtcSec t via => Sys2Proof.Machine.execRtcSec t via s
  | .rtcFrac t via => Sys2Proof.Machine.execRtcFrac t via s
  | .modeSet t env ps => Sys2Proof.Machine.execModeSet t env ps s
  | .modeGet t env ps => Sys2Proof.Machine.execModeGet t env ps s
  | .aidTime t env ps => Sys2Proof.Machine.execAidTime t env ps s
  | .aidPosition t env ps => Sys2Proof.Machine.execAidPosition t env ps s
  | .aidOrbit t env ps => Sys2Proof.Machine.execAidOrbit t env ps s
  | .galeJob t env ps => Sys2Proof.Machine.execGaleJob t env ps s
  | .galeCancel t env ps => Sys2Proof.Machine.execGaleCancel t env ps s
  | .kiteAssign t env ps => Sys2Proof.Machine.execKiteAssign t env ps s
  | .kiteRelease t env ps => Sys2Proof.Machine.execKiteRelease t env ps s
  | .trainForm t env ps => Sys2Proof.Machine.execTrainForm t env ps s
  | .trainBreak t env ps => Sys2Proof.Machine.execTrainBreak t env ps s
  | .measConfig t env ps => Sys2Proof.Machine.execMeasConfig t env ps s
  | .navbitsConfig t env ps => Sys2Proof.Machine.execNavbitsConfig t env ps s
  | .solConfig t env ps => Sys2Proof.Machine.execSolConfig t env ps s
  | .pulseConfig t env ps => Sys2Proof.Machine.execPulseConfig t env ps s
  | .timeStepPermit t env ps => Sys2Proof.Machine.execTimeStepPermit t env ps s
  | .qtyConfig t env ps => Sys2Proof.Machine.execQtyConfig t env ps s
  | .qtyRead t env ps => Sys2Proof.Machine.execQtyRead t env ps s
  | .schedAdd t env ps => Sys2Proof.Machine.execSchedAdd t env ps s
  | .schedCancel t env ps => Sys2Proof.Machine.execSchedCancel t env ps s
  | .schedQuery t env ps => Sys2Proof.Machine.execSchedQuery t env ps s
  | .smpConfig t env ps => Sys2Proof.Machine.execSmpConfig t env ps s
  | .smpStart t env ps => Sys2Proof.Machine.execSmpStart t env ps s
  | .smpStop t env ps => Sys2Proof.Machine.execSmpStop t env ps s
  | .smpSlotmask t env ps => Sys2Proof.Machine.execSmpSlotmask t env ps s
  | .lendiConfig t env ps => Sys2Proof.Machine.execLendiConfig t env ps s
  | .lendiSend t env ps => Sys2Proof.Machine.execLendiSend t env ps s
  | .lendiPair t env ps => Sys2Proof.Machine.execLendiPair t env ps s
  | .lendiUnpair t env ps => Sys2Proof.Machine.execLendiUnpair t env ps s
  | .pwrBudget t env ps => Sys2Proof.Machine.execPwrBudget t env ps s
  | .pwrDomainForce t env ps => Sys2Proof.Machine.execPwrDomainForce t env ps s
  | .pwrDomainRelease t env ps => Sys2Proof.Machine.execPwrDomainRelease t env ps s
  | .pwrDomainDormant t env ps => Sys2Proof.Machine.execPwrDomainDormant t env ps s
  | .padRelease t env ps => Sys2Proof.Machine.execPadRelease t env ps s
  | .rtcSet t env ps => Sys2Proof.Machine.execRtcSet t env ps s
  | .rtcAlarm t env ps => Sys2Proof.Machine.execRtcAlarm t env ps s
  | .rtcTrimManual t env ps => Sys2Proof.Machine.execRtcTrimManual t env ps s
  | .rtcTrimMains t env ps => Sys2Proof.Machine.execRtcTrimMains t env ps s
  | .rtcTrimTether t env ps => Sys2Proof.Machine.execRtcTrimTether t env ps s
  | .rtcTrimPartnerOpen t env ps => Sys2Proof.Machine.execRtcTrimPartnerOpen t env ps s
  | .rtcTrimPartnerClose t env ps => Sys2Proof.Machine.execRtcTrimPartnerClose t env ps s
  | .rtcTrimStop t env ps => Sys2Proof.Machine.execRtcTrimStop t env ps s
  | .backupConfig t env ps => Sys2Proof.Machine.execBackupConfig t env ps s
  | .journalState t env ps => Sys2Proof.Machine.execJournalState t env ps s
  | .journalQuery t env ps => Sys2Proof.Machine.execJournalQuery t env ps s
  | .eventAck t env ps => Sys2Proof.Machine.execEventAck t env ps s
  | .eventResync t env ps => Sys2Proof.Machine.execEventResync t env ps s
  | .dspLoadData t env ps => Sys2Proof.Machine.execDspLoadData t env ps s
  | .dspLoadCommit t env ps => Sys2Proof.Machine.execDspLoadCommit t env ps s
  | .dspLoadUnload t env ps => Sys2Proof.Machine.execDspLoadUnload t env ps s
  | .dspTaskStart t env ps => Sys2Proof.Machine.execDspTaskStart t env ps s
  | .dspTaskAbort t env ps => Sys2Proof.Machine.execDspTaskAbort t env ps s
  | .selftest t env ps => Sys2Proof.Machine.execSelftest t env ps s
  | .selftestDone t failed => Sys2Proof.Machine.execSelftestDone t failed s
  | .resetModule t env ps => Sys2Proof.Machine.execResetModule t env ps s
  | .resetCmd t env ps => Sys2Proof.Machine.execResetCmd t env ps s
  | .resetBegin t => Sys2Proof.Machine.execResetBegin t s
  | .fwUpdateBegin t env ps => Sys2Proof.Machine.execFwUpdateBegin t env ps s
  | .fwUpdateData t env ps => Sys2Proof.Machine.execFwUpdateData t env ps s
  | .fwUpdateCommit t env ps => Sys2Proof.Machine.execFwUpdateCommit t env ps s
  | .fwUpdateAbort t env ps => Sys2Proof.Machine.execFwUpdateAbort t env ps s
  | .fwUpdateActivate t env ps => Sys2Proof.Machine.execFwUpdateActivate t env ps s
  | .ethSegment t f => Sys2Proof.Machine.execEthSegment t f s
  | .reassemblyTimeout t port ep => Sys2Proof.Machine.execReassemblyTimeout t port ep s
  | .arpRequest t port vlan target mac => Sys2Proof.Machine.execArpRequest t port vlan target mac s
  | .neighbourSolicitation t port vlan target mac => Sys2Proof.Machine.execNeighbourSolicitation t port vlan target mac s
  | .icmpEcho t port vlan v6 mac payload => Sys2Proof.Machine.execIcmpEcho t port vlan v6 mac payload s
  | .spiStatus t port idleHigh cw => Sys2Proof.Machine.execSpiStatus t port idleHigh cw s
  | .spiWrite t port idleHigh cw ws cut => Sys2Proof.Machine.execSpiWrite t port idleHigh cw ws cut s
  | .spiRead t port idleHigh cw => Sys2Proof.Machine.execSpiRead t port idleHigh cw s
  | .s0Write t addr ws cut => Sys2Proof.Machine.execS0Write t addr ws cut s
  | .s0Read t addr count => Sys2Proof.Machine.execS0Read t addr count s
  | .s0AddressMatch t addr => Sys2Proof.Machine.execS0AddressMatch t addr s
  | .hostPortFailed t port => Sys2Proof.Machine.execHostPortFailed t port s
  | .hostSelfCheck t port passed => Sys2Proof.Machine.execHostSelfCheck t port passed s
  | .lendiWindowStart t l dep4 => Sys2Proof.Machine.execLendiWindowStart t l dep4 s
  | .gatewayWindowMarker t l wseq arr4 => Sys2Proof.Machine.execGatewayWindowMarker t l wseq arr4 s
  | .link t l ws => Sys2Proof.Machine.execLink t l ws s
  | .ack t l ws => Sys2Proof.Machine.execAck t l ws s
  | .credit t l ws => Sys2Proof.Machine.execCredit t l ws s
  | .tstamp t l ws => Sys2Proof.Machine.execTstamp t l ws s
  | .qrep t l ws => Sys2Proof.Machine.execQrep t l ws s
  | .rel t l ws => Sys2Proof.Machine.execRel t l ws s
  | .resp t l ws => Sys2Proof.Machine.execResp t l ws s
  | .ackTimeout t l => Sys2Proof.Machine.execAckTimeout t l s
  | .tlockLost t l => Sys2Proof.Machine.execTlockLost t l s
  | .linkDown t l cause => Sys2Proof.Machine.execLinkDown t l cause s
  | .linkFailed t l => Sys2Proof.Machine.execLinkFailed t l s
  | .linkRestored t l => Sys2Proof.Machine.execLinkRestored t l s
  | .undeliveredLink t jsn => Sys2Proof.Machine.execUndeliveredLink t jsn s
  | .relq t jsn => Sys2Proof.Machine.execRelq t jsn s
  | .relqTimeout t jsn => Sys2Proof.Machine.execRelqTimeout t jsn s
  | .sendResent t jsn => Sys2Proof.Machine.execSendResent t jsn s
  | .noResponse t jsn => Sys2Proof.Machine.execNoResponse t jsn s
  | .sendUndelivered t jsn => Sys2Proof.Machine.execSendUndelivered t jsn s
  | .occurrenceArm t jsn => Sys2Proof.Machine.execOccurrenceArm t jsn s
  | .occurrenceRelease t jsn => Sys2Proof.Machine.execOccurrenceRelease t jsn s
  | .class1Outcome t jsn => Sys2Proof.Machine.execClass1Outcome t jsn s
  | .wheelSweep t => Sys2Proof.Machine.execWheelSweep t s
  | .directPathCopy t => Sys2Proof.Machine.execDirectPathCopy t s
  | .eventReevaluation t => Sys2Proof.Machine.execEventReevaluation t s
  | .markFold t n => Sys2Proof.Machine.execMarkFold t n s
  | .groupComplete t => Sys2Proof.Machine.execGroupComplete t s
  | .ringCarry t n => Sys2Proof.Machine.execRingCarry t n s
  | .storeFailed t store => Sys2Proof.Machine.execStoreFailed t store s
  | .remirrorEnd t store => Sys2Proof.Machine.execRemirrorEnd t store s
  | .replay t testA testB finds => Sys2Proof.Machine.execReplay t testA testB finds s
  | .leapChange t => Sys2Proof.Machine.execLeapChange t s
  | .stepAnnounce t => Sys2Proof.Machine.execStepAnnounce t s
  | .stepApply t => Sys2Proof.Machine.execStepApply t s
  | .slewDecision t => Sys2Proof.Machine.execSlewDecision t s
  | .slewEnd t => Sys2Proof.Machine.execSlewEnd t s
  | .quadCount t n isB level => Sys2Proof.Machine.execQuadCount t n isB level s
  | .quadIndex t n => Sys2Proof.Machine.execQuadIndex t n s
  | .quadIllegal t n => Sys2Proof.Machine.execQuadIllegal t n s
  | .ssiFrame t n data err low => Sys2Proof.Machine.execSsiFrame t n data err low s
  | .tachPulse t n => Sys2Proof.Machine.execTachPulse t n s
  | .mainsZeroCrossing t positive phase => Sys2Proof.Machine.execMainsZeroCrossing t positive phase s
  | .ref1ppsPulse t => Sys2Proof.Machine.execRef1ppsPulse t s
  | .qtyTimeout t n => Sys2Proof.Machine.execQtyTimeout t n s
  | .tpgEdge t n => Sys2Proof.Machine.execTpgEdge t n s
  | .outConfigEffect t n => Sys2Proof.Machine.execOutConfigEffect t n s
  | .outSquelch t n => Sys2Proof.Machine.execOutSquelch t n s
  | .outResume t n => Sys2Proof.Machine.execOutResume t n s
  | .outputCut t n => Sys2Proof.Machine.execOutputCut t n s
  | .pllUnlock t p => Sys2Proof.Machine.execPllUnlock t p s
  | .pllHold t p => Sys2Proof.Machine.execPllHold t p s
  | .pllLocked t p band search => Sys2Proof.Machine.execPllLocked t p band search s
  | .pllNoLock t p => Sys2Proof.Machine.execPllNoLock t p s
  | .ocxoLost t => Sys2Proof.Machine.execOcxoLost t s
  | .ocxoFailed t => Sys2Proof.Machine.execOcxoFailed t s
  | .ocxoBack t warm => Sys2Proof.Machine.execOcxoBack t warm s
  | .ocxoWarm t temp => Sys2Proof.Machine.execOcxoWarm t temp s
  | .freqPointChange t idx pt => Sys2Proof.Machine.execFreqPointChange t idx pt s
  | .voltPointChange t idx pt => Sys2Proof.Machine.execVoltPointChange t idx pt s
  | .voltageSettled t idx => Sys2Proof.Machine.execVoltageSettled t idx s
  | .rfBlockBoundary t streams bias => Sys2Proof.Machine.execRfBlockBoundary t streams bias s
  | .antShort t a => Sys2Proof.Machine.execAntShort t a s
  | .biasRetry t a => Sys2Proof.Machine.execBiasRetry t a s
  | .retriesClear t a => Sys2Proof.Machine.execRetriesClear t a s
  | .antOpen t a ma => Sys2Proof.Machine.execAntOpen t a ma s
  | .antOk t a ma => Sys2Proof.Machine.execAntOk t a ma s
  | .loUnlock t st => Sys2Proof.Machine.execLoUnlock t st s
  | .loRelocked t st => Sys2Proof.Machine.execLoRelocked t st s
  | .frontEndFailed t a => Sys2Proof.Machine.execFrontEndFailed t a s
  | .blankHeavy t st frac => Sys2Proof.Machine.execBlankHeavy t st frac s
  | .blankHeavyClear t st frac => Sys2Proof.Machine.execBlankHeavyClear t st frac s
  | .galeSlot t w => Sys2Proof.Machine.execGaleSlot t w s
  | .galeInputTimeout t slot => Sys2Proof.Machine.execGaleInputTimeout t slot s
  | .kiteApplicationTick t => Sys2Proof.Machine.execKiteApplicationTick t s
  | .kiteSnapshot t ofsPs dumps => Sys2Proof.Machine.execKiteSnapshot t ofsPs dumps s
  | .kiteLoopUpdate t n ints => Sys2Proof.Machine.execKiteLoopUpdate t n ints s
  | .kiteEvaluation t => Sys2Proof.Machine.execKiteEvaluation t s
  | .noPullIn t n => Sys2Proof.Machine.execNoPullIn t n s
  | .cn0Loss t n => Sys2Proof.Machine.execCn0Loss t n s
  | .memberDrop t n => Sys2Proof.Machine.execMemberDrop t n s
  | .trainCoastTimeout t tr => Sys2Proof.Machine.execTrainCoastTimeout t tr s
  | .lostToIdle t n => Sys2Proof.Machine.execLostToIdle t n s
  | .d5RetentionTimeout t => Sys2Proof.Machine.execD5RetentionTimeout t s
  | .measEpoch t obs => Sys2Proof.Machine.execMeasEpoch t obs s
  | .navMessageDecoded t n => Sys2Proof.Machine.execNavMessageDecoded t n s
  | .dedupTimeout t partner chan => Sys2Proof.Machine.execDedupTimeout t partner chan s
  | .solutionEpoch t x own => Sys2Proof.Machine.execSolutionEpoch t x own s
  | .signalLoss t => Sys2Proof.Machine.execSignalLoss t s
  | .signalReturn t => Sys2Proof.Machine.execSignalReturn t s
  | .headingEpoch t => Sys2Proof.Machine.execHeadingEpoch t s
  | .holdMismatch t a => Sys2Proof.Machine.execHoldMismatch t a s
  | .modeTick t own => Sys2Proof.Machine.execModeTick t own s
  | .snapshotWake t own => Sys2Proof.Machine.execSnapshotWake t own s
  | .fixEnd t => Sys2Proof.Machine.execFixEnd t s
  | .snapshotMiss t => Sys2Proof.Machine.execSnapshotMiss t s
  | .smpFrameStart t p rising bclk clocks line => Sys2Proof.Machine.execSmpFrameStart t p rising bclk clocks line s
  | .smpMissingFrame t p bclk => Sys2Proof.Machine.execSmpMissingFrame t p bclk s
  | .smpSampleWrite t p => Sys2Proof.Machine.execSmpSampleWrite t p s
  | .smpPortStart t p => Sys2Proof.Machine.execSmpPortStart t p s
  | .smpPortStop t p => Sys2Proof.Machine.execSmpPortStop t p s
  | .smpAudio t p pair => Sys2Proof.Machine.execSmpAudio t p pair s
  | .taskStart t k => Sys2Proof.Machine.execTaskStart t k s
  | .budget t k => Sys2Proof.Machine.execBudget t k s
  | .nop t k => Sys2Proof.Machine.execNop t k s
  | .endTask t k => Sys2Proof.Machine.execEndTask t k s
  | .post t k ap shared dn => Sys2Proof.Machine.execPost t k ap shared dn s
  | .dmac t k m0 m1 la lb => Sys2Proof.Machine.execDmac t k m0 m1 la lb s
  | .add t k dd da db => Sys2Proof.Machine.execAdd t k dd da db s
  | .sub t k dd da db => Sys2Proof.Machine.execSub t k dd da db s
  | .and t k dd da db => Sys2Proof.Machine.execAnd t k dd da db s
  | .or t k dd da db => Sys2Proof.Machine.execOr t k dd da db s
  | .xor t k dd da db => Sys2Proof.Machine.execXor t k dd da db s
  | .shl t k dd da db => Sys2Proof.Machine.execShl t k dd da db s
  | .shr t k dd da db => Sys2Proof.Machine.execShr t k dd da db s
  | .sar t k dd da db => Sys2Proof.Machine.execSar t k dd da db s
  | .cmp t k dd da db => Sys2Proof.Machine.execCmp t k dd da db s
  | .abs t k dd da db => Sys2Proof.Machine.execAbs t k dd da db s
  | .neg t k dd da db => Sys2Proof.Machine.execNeg t k dd da db s
  | .min t k dd da db => Sys2Proof.Machine.execMin t k dd da db s
  | .max t k dd da db => Sys2Proof.Machine.execMax t k dd da db s
  | .alui t k op dd da imm => Sys2Proof.Machine.execAlui t k op dd da imm s
  | .clr t k ak => Sys2Proof.Machine.execClr t k ak s
  | .ext t k dd ak sh rnd sat => Sys2Proof.Machine.execExt t k dd ak sh rnd sat s
  | .mova t k ak dd => Sys2Proof.Machine.execMova t k ak dd s
  | .sbc t k dd ak => Sys2Proof.Machine.execSbc t k dd ak s
  | .norm t k ak sh => Sys2Proof.Machine.execNorm t k ak sh s
  | .load t k isLocal ap dd modf => Sys2Proof.Machine.execLoad t k isLocal ap dd modf s
  | .store t k isLocal ap dd modf => Sys2Proof.Machine.execStore t k isLocal ap dd modf s
  | .vmin t k uns ap isLocal dn dd => Sys2Proof.Machine.execVmin t k uns ap isLocal dn dd s
  | .vmax t k uns ap isLocal dn dd => Sys2Proof.Machine.execVmax t k uns ap isLocal dn dd s
  | .vbexp t k ap isLocal dn dd => Sys2Proof.Machine.execVbexp t k ap isLocal dn dd s
  | .rot t k n dd da => Sys2Proof.Machine.execRot t k n dd da s
  | .fun2 t k n dd da db => Sys2Proof.Machine.execFun2 t k n dd da db s
  | .br t k cond target => Sys2Proof.Machine.execBr t k cond target s
  | .loop t k endAddr dn => Sys2Proof.Machine.execLoop t k endAddr dn s
  | .mov t k dst src => Sys2Proof.Machine.execMov t k dst src s
  | .illegal t k => Sys2Proof.Machine.execIllegal t k s
  | .userCoreFailed t k => Sys2Proof.Machine.execUserCoreFailed t k s
  | .coreHeartbeatLoss t c => Sys2Proof.Machine.execCoreHeartbeatLoss t c s
  | .memoryAccess t reqs => Sys2Proof.Machine.execMemoryAccess t reqs s
  | .patrolLease t engine ecc patternOk => Sys2Proof.Machine.execPatrolLease t engine ecc patternOk s
  | .bankFailed t b => Sys2Proof.Machine.execBankFailed t b s
  | .spareCopyComplete t => Sys2Proof.Machine.execSpareCopyComplete t s
  | .memRetentionIdle t => Sys2Proof.Machine.execMemRetentionIdle t s
  | .rtcCommitTick t => Sys2Proof.Machine.execRtcCommitTick t s
  | .alarmFire t x => Sys2Proof.Machine.execAlarmFire t x s
  | .rtcLeapChange t => Sys2Proof.Machine.execRtcLeapChange t s
  | .autoSync t => Sys2Proof.Machine.execAutoSync t s
  | .trimWindowEnd t => Sys2Proof.Machine.execTrimWindowEnd t s
  | .trimWindowTimeout t => Sys2Proof.Machine.execTrimWindowTimeout t s
  | .cellMeasurement t mv => Sys2Proof.Machine.execCellMeasurement t mv s
  | .switchover t => Sys2Proof.Machine.execSwitchover t s
  | .switchReturn t mv => Sys2Proof.Machine.execSwitchReturn t mv s
  | .aonCold t => Sys2Proof.Machine.execAonCold t s
  | .governorEvaluation t demand idle => Sys2Proof.Machine.execGovernorEvaluation t demand idle s
  | .mainsLoss t => Sys2Proof.Machine.execMainsLoss t s
  | .mainsGoodReturn t => Sys2Proof.Machine.execMainsGoodReturn t s
  | .bringUp t volts hz dc bad => Sys2Proof.Machine.execBringUp t volts hz dc bad s
  | .dormantEntry t => Sys2Proof.Machine.execDormantEntry t s
  | .wake t cause bad => Sys2Proof.Machine.execWake t cause bad s
  | .watchdog t src => Sys2Proof.Machine.execWatchdog t src s
  | .lockstepFault t => Sys2Proof.Machine.execLockstepFault t s
  | .converterStageFailed t stage => Sys2Proof.Machine.execConverterStageFailed t stage s
  | .ethLinkStayedUp t port => Sys2Proof.Machine.execEthLinkStayedUp t port s
  | .lendiFrameDropped t l ws => Sys2Proof.Machine.execLendiFrameDropped t l ws s

end Sys2Proof.Machine
end

