-- ==== Sys2Proof/Safety.lean ====
section
/-! DEFINITION. What claims are stated in: the invariant of the module's data, when the command unit takes a packet as a new command, and what a completed command leaves. -/
namespace Sys2Proof.Machine
open Sys2Proof

/-- The outcome is a next state of which `P` holds. -/
def Answers (o : Host.Outcome State Fault Refusal) (P : State → Prop) : Prop := ∃ t, o = .next t ∧ P t

/-- What every command keeps: shared memory is in its canonical form, so that equal memories are equal data. -/
def State.Inv (s : State) : Prop := s.mem.wf = true

/-- The state without what the command unit itself writes for every command: partners, journal, host ports, what left the module, the limits of repeated records. Two states of one `rest` agree on every other field. -/
def State.rest (s : State) : State := { s with parts := [], jrn := {}, host := {}, wire := [], raised := [] }

/-- Steps 2 to 12 of R284 pass and the packet is a new command (R285): the port is up, partner, length, readiness, rights, authentication, binding, credit and SEQ hold, a journal store works, the mode allows the opcode, the journal has room for the group and what it promises (R328), no packet waits in the parse queue and the landing buffer has slots for the group (R259). `a` is the state at the packet's arrival. -/
def State.admits (code rights modes : Nat) (env : Env) (ps : List Word) (a : State) : Bool :=
  let p := a.part env.partner
  let k := pktOf code env ps a
  a.portUp env.port && decide (env.partner ≤ 4) && decide (ps.length ≤ 2048) && a.pwr.ready &&
  decide (0 < p.rights) && decide (rights ≤ p.rights) && (authFails p k).isNone && boundHere p.bind k &&
  decide ((a.ingress env.partner).2.2 + k.words ≤ 131072) && decide (env.seq.toNat ≤ p.permitted) &&
  decide (env.seq.toNat = p.lseq + 1) && a.jrn.working && decide (a.jrn.next < 0xFFFFFFFFFFFF) &&
  modes.testBit a.modes.mode && decide (a.jrn.live + 1000 ≤ 245760) && a.host.parse.isEmpty && decide (a.jrn.slots + 1000 ≤ 2048)

/-- A new command completed: its SEQ is consumed (R285) and the replay record of its SEQ holds the JSN its group was sealed under, its opcode, its status and its reply words from word 2 on (R329). -/
def Shows (code status : Nat) (words : List Word) (env : Env) (a u : State) : Prop :=
  (u.part env.partner).lseq = env.seq.toNat ∧
  (tget none (env.seq.toNat % 16384) (u.part env.partner).replays).map (fun r => (r.seq, r.jsn, r.code, r.status, r.words))
    = some (env.seq.toNat, a.jrn.next, code, status, words)

/-- The same, whatever its reply words. -/
def Shown (code status : Nat) (env : Env) (a u : State) : Prop :=
  (u.part env.partner).lseq = env.seq.toNat ∧
  (tget none (env.seq.toNat % 16384) (u.part env.partner).replays).map (fun r => (r.seq, r.jsn, r.code, r.status))
    = some (env.seq.toNat, a.jrn.next, code, status)

/-- A packet completes: exec answers a next state that shows the command with its status and reply words, and of which `P` holds. -/
def Completes (code status : Nat) (words : List Word) (env : Env) (a : State) (o : Host.Outcome State Fault Refusal) (P : State → Prop) : Prop :=
  Answers o fun u => Shows code status words env a u ∧ P u
/-- A packet completes, whatever its reply words. -/
def Ends (code status : Nat) (env : Env) (a : State) (o : Host.Outcome State Fault Refusal) (P : State → Prop) : Prop :=
  Answers o fun u => Shown code status env a u ∧ P u

/-- The JSNs that a command takes lie below the one at which JSN_LOW goes out, or that has gone out (R320): no other record joins the command's own. -/
def State.jsnFar (a : State) : Prop := a.jrn.next + 16 < 0xFFFF00000000 ∨ a.jrn.jsnLow = true
/-- A partner's stream has one more record, none where it has no rights (R312), JSN_LOW apart. -/
def ToldOne (p : Nat) (a u : State) : Prop :=
  a.jsnFar → (u.part p).ev.nextEsn = (a.part p).ev.nextEsn + (if (a.part p).rights = 0 then 0 else 1)
/-- So has every partner's (R313). -/
def Told (a u : State) : Prop := ∀ i, i < 5 → ToldOne i a u

/-- A packet leaves on the port that a command came from, to its source: queued on an SPI port, in segments on an Ethernet port (R347, R354); no other port changes. -/
def Replied (env : Env) (ws : List Word) (a u : State) : Prop :=
  let e := a.eth env.port
  let sz := segWords (bit e.page.cfg 46) env.ep
  (2 ≤ env.port → u.spi env.port = { a.spi env.port with tx := (a.spi env.port).tx ++ [{ words := ws, partner := env.partner, isReply := true }] } ∧ u.wire = a.wire) ∧
  (env.port < 2 → u.wire = a.wire ++ (segments 255 0 ((ws.length + sz - 1) / sz) e.xid sz ws).map (Emit.frame env.port e.page.tag env.ep env.mac)) ∧
  (∀ p, 2 ≤ p → p < 4 → p ≠ env.port → u.spi p = a.spi p) ∧ (∀ p, p < 2 → p ≠ env.port → u.eth p = a.eth p)

/-- A packet refused before its SEQ is consumed (R284): the journal takes nothing and no other field changes; `p` holds the counters. -/
def Turned (env : Env) (p : Partner) (a u : State) : Prop :=
  (u.part env.partner).lseq = p.lseq ∧ (u.part env.partner).replays = p.replays ∧
  (u.part env.partner).cntGap = p.cntGap ∧ (u.part env.partner).cntAuth = p.cntAuth ∧ u.jrn = a.jrn ∧ u.rest = a.rest

/-- A commit by a path empties its copy of the group and makes every other copy that is not EMPTY LOST (R512, R513). -/
def Committed (path : Nat) (key : StageKey) (a u : State) : Prop :=
  u.copyOf path key = none ∧ (∀ q, q < 6 → q ≠ path → a.copyOf q key ≠ none → u.copyOf q key = some .lost) ∧
  (∀ q k, k ≠ key → u.copyOf q k = a.copyOf q k)
/-- A refused commit of a LOST copy leaves it EMPTY, and nothing else changes (R513). -/
def Emptied (path : Nat) (key : StageKey) (a u : State) : Prop := u.copyOf path key = none ∧ u.rest = (a.putStage u.stage).rest

/-- The pc of core k lies in the image of its running task (R416). -/
def State.inImage (a : State) (k : Nat) : Bool :=
  match (a.core k).run with
  | some r => decide (((a.core k).slot r.task).base ≤ (a.core k).pc) && decide ((a.core k).pc < ((a.core k).slot r.task).base + ((a.core k).slot r.task).size)
  | none => false
/-- Core k executes the instruction at its pc: a task runs, D6 is on with its clock, the core works, the pc lies in the task's image, and the fetch returns a good word (R410, R416, R423, R445). -/
def State.executes (a : State) (k : Nat) : Bool := a.coreRuns k && a.inImage k && (a.fetched k).coreRuns k

/-- Z and N of a result and SATA, OVF and the reserved bits unchanged (R411). -/
def FlagsOf (v old new : Word) : Prop :=
  bit new 45 = (v == 0) ∧ bit new 44 = bit v 47 ∧ fld new 47 46 = fld old 47 46 ∧ fld new 41 0 = fld old 41 0

/-- An ALU instruction of core k leaves v in Dd and its flags in MODE (R411, R412): every other register of the core is unchanged, one cycle has passed and the next instruction follows; nothing else changes but the number of the next free value. -/
def AluDone (k dd : Nat) (v : Word) (a u : State) : Prop :=
  (u.core k).dr dd = v ∧ (∀ n, n < 16 → n ≠ dd → (u.core k).dr n = (a.core k).dr n) ∧ FlagsOf v (a.core k).mode (u.core k).mode ∧
  u.core k = { (a.core k).retire 1 with d := (u.core k).d, mode := (u.core k).mode } ∧ u = (a.setCore k (u.core k)).putFresh (a.fresh + 3)

end Sys2Proof.Machine
end

