-- ==== Sys2Proof/Certificates/Slice0/Obligations.lean ====
section
/-! DEFINITION. The statements for the provers. In them `s.elapse t` is the state when the command arrives: the lapse `t` before it has passed. -/
open Sys2Proof Sys2Proof.Machine

/-- With a command at the front of the queue, a step is that command's meaning on the state with the queue's rest; on an empty queue one counter clock passes (the model's choice, log 3). -/
def Obligations.StepRunsFront : Prop :=
  (∀ (s : State) (c : Instr) (rest : List Instr),
    s.pending = c :: rest →
      step s = exec c { s with pending := rest }) ∧
  (∀ (s : State),
    s.pending = [] →
      step s = .next (s.elapse ⟨1, 0⟩))

/-- LEAP_CHANGE: with PENDING set, TSRC not NONE and Q0 CYC at or beyond LEAP_AT by the comparison of R29, LEAP_NOW takes LEAP_NEXT and PENDING clears, the TIME section keeps the words, and nothing else changes; while one of the three fails, nothing changes. The instants at which commands act are the model's choice (log 1). -/
def Obligations.LeapChange : Prop :=
  ∀ (t : Lapse) (s : State),
    let a := s.elapse t
    (a.tb.leapPend = true → a.tb.tsrc ≠ 0 → ahead (mkQ (word a.tb.leapAt) 0) (mkQ (cyc a.tb.q0) 0) = false →
        Answers (exec (.leapChange t) s) fun u =>
          u.tb = { a.tb with leapNow := a.tb.leapNext, leapPend := false } ∧
          u.rtc = { a.rtc with leapNow := a.tb.leapNext, leapNext := a.tb.leapNext, leapAt := a.tb.leapAt, keepOld := u.rtc.keepOld, gens := u.rtc.gens
                               keep := { a.rtc.keep with time := some ⟨a.tb.leapNext, a.tb.leapNext, a.tb.leapSrc, a.tb.leapLock, false, a.tb.leapAt⟩ } } ∧
          u = (a.putTb u.tb).putRtc u.rtc) ∧
    (a.tb.leapPend = false ∨ a.tb.tsrc = 0 ∨ ahead (mkQ (word a.tb.leapAt) 0) (mkQ (cyc a.tb.q0) 0) = true →
        exec (.leapChange t) s = .next a)

/-- SLEW_DECISION at a whole second in RECOVERY with no step announced: what remains of the offset, within STEP_THR or under PERMIT NEVER, is removed by a slew (none below 1 ns); a larger rest under a permit becomes the step to be announced, and no slew runs. SLEW_END: with less than 1 ns left the slew ends, and TSRC leaves RECOVERY; with more left nothing changes. The instants at which commands act, and what the rules leave open here, are the model's choice (log 1, 11, 19). -/
def Obligations.SlewOrStep : Prop :=
  ∀ (t : Lapse) (s : State),
    let a := s.elapse t
    let e := a.tb.residNow
    let p := a.tb.takePermit
    (a.tb.tsrc = 4 → atSecond a.tb = true → a.tb.step = none → p.permit = 0 ∨ e.natAbs ≤ p.stepThr * 1000 →
        Answers (exec (.slewDecision t) s) fun u =>
          u.tb.plan = none ∧ u.tb.slew = (if e.natAbs < 1000 then none else some (e, a.tb.clk, a.tb.takePermit.slewPpb)) ∧ u.tb.resid = e ∧
          u.tb.q0 = a.tb.q0 ∧ u = a.putTb u.tb) ∧
    (a.tb.tsrc = 4 → atSecond a.tb = true → a.tb.step = none → p.permit ≠ 0 → p.stepThr * 1000 < e.natAbs →
        Answers (exec (.slewDecision t) s) fun u =>
          u.tb.plan = some ⟨a.tb.planCause, e, a.tb.after, none⟩ ∧ u.tb.slew = none ∧ u.tb.q0 = a.tb.q0 ∧ u = a.putTb u.tb) ∧
    (a.tb.slew.isSome = true → e.natAbs < 1000 →
        Answers (exec (.slewEnd t) s) fun u =>
          u.tb.slew = none ∧ u.tb.resid = e ∧ u.tb.q0 = a.tb.q0 ∧
          (a.tb.tsrc = 4 → u.tb.tsrc = a.tb.after) ∧ (a.tb.tsrc ≠ 4 → u.tb.tsrc = a.tb.tsrc ∧ u = a.putTb u.tb)) ∧
    (a.tb.slew = none ∨ 1000 ≤ e.natAbs →
        exec (.slewEnd t) s = .next a)

/-- STEP_ANNOUNCE at a whole second with a step planned and none announced: the step is announced for the next second N with DELTA the negated offset, a permit ONCE becomes NEVER unless the step is the first one, each partner with rights gets one record, each UP link is told, and Q0 only counts. The instants at which commands act, and what the rules leave open here, are the model's choice (log 1, 19). -/
def Obligations.StepAnnounced : Prop :=
  ∀ (t : Lapse) (s : State) (p : StepPlan),
    let a := s.elapse t
    let n := (cyc a.tb.q0).toNat + 1
    let d : Qval := BitVec.ofInt 96 (unitsOfPs (-p.e))
    a.tb.plan = some p → atSecond a.tb = true → a.tb.step = none →
      Answers (exec (.stepAnnounce t) s) fun u =>
        u.tb.step = some ⟨n, unitsOfPs (-p.e), p⟩ ∧ u.tb.plan = none ∧ u.tb.q0 = a.tb.q0 ∧
        u.tb.permit = (if p.cause ≠ 0 ∧ a.tb.takePermit.permit = 1 then 0 else a.tb.takePermit.permit) ∧
        (∀ l, l < 8 → (a.lnk l).state = 3 → u.lnk l = (a.lnk l).ctl (lendiFrame 5 false 0 [word n, cyc d, frc d])) ∧
        Told a u

/-- STEP_APPLY once Q0 has reached N: Q0 moves by DELTA, no step is announced any more and no offset remains; out of NONE and RECOVERY TSRC becomes what the step brings, or HOLDOVER where that is a truth that the mode in force does not steer to (R161), and in a mode that steers TQE becomes what the step states; every periodic output that runs sets STEPPED. The instants at which commands act, and what the rules leave open here, are the model's choice (log 1, 20, 175). -/
def Obligations.StepApplied : Prop :=
  ∀ (t : Lapse) (s : State) (st : Announced),
    let a := s.elapse t
    a.tb.step = some st → st.n ≤ (cyc a.tb.q0).toNat → a.tb.tsrc = 0 ∨ a.tb.tsrc = 4 → st.plan.after = 1 ∨ st.plan.after = 3 ∨ st.plan.after = 5 →
      Answers (exec (.stepApply t) s) fun u =>
        u.tb.q0 = qadd a.tb.q0 st.delta ∧ u.tb.step = none ∧ u.tb.resid = 0 ∧
        u.tb.tsrc = (if a.steering = false ∧ (st.plan.after = 1 ∨ st.plan.after = 3) then 2 else st.plan.after) ∧
        (a.steering = true → u.tb.tqe = st.plan.tqe.getD a.tb.tqe) ∧
        (∀ n, n < 8 → (a.out n).conf.periodic = true → (a.out n).state = 2 → (u.out n).flags = setBit (a.out n).flags 2)

/-- Taken as new commands with their fields in range, TIME_STEP_PERMIT is answered DONE and its permit, threshold and slew rate wait for the next whole second; AID_TIME of form 0 while the source is NONE is answered DONE, HOW 0, and plans the step that makes Tether time the given time, to source AIDED; out of range TIME_STEP_PERMIT is refused with BAD_PARAM and changes nothing. The instants at which commands act, and what the rules leave open here, are the model's choice (log 1, 12, 20). -/
def Obligations.TimeCommands : Prop :=
  ∀ (t : Lapse) (env : Env) (ps : List Word) (s : State),
    let a := s.elapse t
    let w := arg ps 0
    (a.admits 0x071 3 0xFFE env ps = true → ps.length = 1 → fld w 47 46 ≠ 3 → fld w 45 24 ≠ 0 → 1 ≤ fld w 23 16 → fld w 23 16 ≤ 100 →
        Completes 0x071 1 [] env a (exec (.timeStepPermit t env ps) s) fun u =>
          u.tb.permitNext = some (fld w 47 46, fld w 45 24, fld w 23 16, a.jrn.next, (cyc a.tb.q0).toNat + 1) ∧
          u.rest = (a.putTb u.tb).rest) ∧
    (a.admits 0x071 3 0xFFE env ps = true → ps.length = 1 → fld w 47 46 = 3 ∨ fld w 45 24 = 0 ∨ fld w 23 16 = 0 ∨ 100 < fld w 23 16 →
        Completes 0x071 0x23 [0] env a (exec (.timeStepPermit t env ps) s) fun u => u.rest = a.rest) ∧
    (a.admits 0x030 2 0x7FE env ps = true → ps.length = 5 → fld w 47 46 = 0 → fld w 45 14 ≠ 0 → a.tb.tsrc = 0 → a.tb.step = none →
        Completes 0x030 1 [0] env a (exec (.aidTime t env ps) s) fun u =>
          u.tb.plan = some ⟨0, psOfUnits (qdist a.tb.q0 (mkQ (arg ps 1) (arg ps 2))), 5, some (satN 32 (fld w 45 14 * 1000))⟩ ∧
          u.tb.q0 = a.tb.q0 ∧ u.modes.aidSigma = some (fld w 45 14) ∧ u.rest = ((a.putTb u.tb).putModes u.modes).rest)

/-- On a QUAD source with D11 on, no preset being taken: a line that moves away from the decoder's reference level after the glitch filter's time counts one transition, up where A leads B and DIR is 0, the value is the base moved by count / COUNTS, VALID sets, STOPPED clears, the reference takes the level, and no other of Q0-Q7 changes; a level that is the reference's, or that comes within the filter's time, counts nothing; both lines moving at once count nothing, and every partner with rights gets a FAULT record. An index edge under INDEX RESET puts the fraction at INDEX_FRC and marks the quantity aligned; without an index mode nothing changes. The instants at which commands act, and what the rules leave open here, are the model's choice (log 1, 9, 10, 190). -/
def Obligations.QuadratureCounts : Prop :=
  (∀ (t : Lapse) (s : State) (n : Nat) (isB level : Bool),
    let a := s.elapse t
    let q := (a.qty n).pin isB level
    let r := q.decode isB level a.tb.clk
    let c := if r.leads isB != bit q.cfg0 42 then q.count + 1 else q.count - 1
    (0 < n → n < 5 → a.isOn 11 = true → a.pinsLatched 11 = false → a.kind n = 1 → q.ref isB ≠ level → q.accepts a.tb.clk = true → a.absorbing n = false →
        Answers (exec (.quadCount t n isB level) s) fun u =>
          (u.qty n).count = c ∧ (u.qty n).vu = quadValue q c ∧ (u.qty n).valid = true ∧ (u.qty n).stopped = false ∧ (u.qty n).ref isB = level ∧
          (u.qty n).tu = a.tb.q0 ∧ (∀ m, m < 8 → m ≠ n → u.qty m = a.qty m) ∧ u = (((a.putQs u.qs).putSch u.sch).putPorts u.ports).putFresh (a.fresh + 1)) ∧
    (0 < n → n < 5 → a.isOn 11 = true → a.pinsLatched 11 = false → q.ref isB = level ∨ q.accepts a.tb.clk = false →
        exec (.quadCount t n isB level) s = .next (a.setQty n q))) ∧
  (∀ (t : Lapse) (s : State) (n : Nat),
    let a := s.elapse t
    let q := a.qty n
    (a.counting n 1 = true → 0 < n → n < 8 → fld q.cfg1 33 32 = 1 →
        Answers (exec (.quadIndex t n) s) fun u =>
          frc (u.qty n).vu = q.cfg2 ∧ (u.qty n).aligned = true ∧ (u.qty n).count = q.count ∧ u.tb = a.tb ∧
          (q.aligned = false → u = ((a.putQs u.qs).putSch u.sch).putPorts u.ports)) ∧
    (a.counting n 1 = true → 0 < n → fld q.cfg1 33 32 = 0 →
        exec (.quadIndex t n) s = .next a) ∧
    (0 < n → n < 5 → a.isOn 11 = true → a.pinsLatched 11 = false → a.kind n = 1 → q.refA = q.pinA → q.refB = q.pinB → q.accepts a.tb.clk = true →
        Answers (exec (.quadIllegal t n) s) fun u =>
          (u.qty n).count = q.count ∧ (u.qty n).vu = q.vu ∧ (u.qty n).refA = !q.refA ∧ (u.qty n).refB = !q.refB ∧
          u.rest = (a.putQs u.qs).rest ∧ Told a u))

/-- An SSI frame with its error flag under ERR_EN, or the line low in the pause, is discarded with a FAULT record; the first good frame in binary code sets the value to the turns it shows plus the preset's offset. A TACH pulse moves CYC by one in the sense of DIR with FRC at PULSE_FRC, a REF1PPS pulse with FRC 0. A positive mains crossing counts one cycle for a MAINS measurement, and on an AC module with mains good and the latest cycle at 45 to 65 Hz puts a MAINS quantity's FRC at ZERO_FRC. The instants at which commands act, and what the rules leave open here, are the model's choice (log 1, 10, 25). -/
def Obligations.EncoderAndPulseSources : Prop :=
  (∀ (t : Lapse) (s : State) (n data : Nat) (err low : Bool),
    let a := s.elapse t
    let q := a.qty n
    (a.counting n 2 = true → 0 < n → (err = true ∧ bit q.cfg1 14 = true) ∨ low = true →
        Answers (exec (.ssiFrame t n data err low) s) fun u =>
          u.rest = a.rest ∧ Told a u) ∧
    (a.counting n 2 = true → a.absorbing n = false → 0 < n → n < 8 → err = false → low = false → bit q.cfg1 15 = false → q.ssiRaw = none → bit q.cfg0 42 = false →
        Answers (exec (.ssiFrame t n data err low) s) fun u =>
          (u.qty n).vu = qadd 0 (((data % 2 ^ (fld q.cfg1 29 24 + fld q.cfg1 21 16) * 2 ^ (48 - min 48 (fld q.cfg1 29 24)) : Nat) : Int) + q.ssiOfs) ∧
          (u.qty n).ssiRaw = some (data % 2 ^ (fld q.cfg1 29 24 + fld q.cfg1 21 16)) ∧ (u.qty n).valid = true ∧
          u = (((a.putQs u.qs).putSch u.sch).putPorts u.ports).putFresh u.fresh)) ∧
  (∀ (t : Lapse) (s : State) (n : Nat),
    let a := s.elapse t
    let q := a.qty n
    (a.counting n 3 = true → a.absorbing n = false → 0 < n → n < 8 →
        Answers (exec (.tachPulse t n) s) fun u =>
          cyc (u.qty n).vu = (if bit q.cfg0 42 then cyc q.vu - 1 else cyc q.vu + 1) ∧ frc (u.qty n).vu = q.cfg2 ∧
          (u.qty n).valid = true ∧ (∀ m, m < 8 → m ≠ n → u.qty m = a.qty m) ∧ u = (((a.putQs u.qs).putSch u.sch).putPorts u.ports).putFresh u.fresh) ∧
    (a.counting 4 8 = true → n = 4 →
        Answers (exec (.ref1ppsPulse t) s) fun u =>
          cyc (u.qty 4).vu = (if bit q.cfg0 42 then cyc q.vu - 1 else cyc q.vu + 1) ∧ frc (u.qty 4).vu = 0 ∧
          (u.qty 4).valid = true ∧ (∀ m, m < 8 → m ≠ 4 → u.qty m = a.qty m) ∧ u = (((a.putQs u.qs).putSch u.sch).putPorts u.ports).putFresh u.fresh)) ∧
  (∀ (t : Lapse) (s : State) (phase : Word) (r : TrimRun),
    let a := s.elapse t
    a.counting 5 4 = true → a.rtc.run = some r → r.kind = 1 →
      Answers (exec (.mainsZeroCrossing t true phase) s) fun u =>
        u.rtc.run = some { r with true0 := r.true0 + 1 } ∧
        (Config.inputAc = true → a.pwr.good = true → a.pwr.dc = false → (a.qty 5).followed a.tb.clk = true → frc (u.qty 5).vu = (a.qty 5).cfg1 ∧ (u.qty 5).valid = true) ∧
        (Config.inputAc = false → u.qs = a.qs) ∧ u = ((((a.putQs u.qs).putRtc u.rtc).putSch u.sch).putPorts u.ports).putFresh u.fresh)

/-- QTY_TIMEOUT past the timeout: QUAD and TACH stand at the value reached, read rate and acceleration 0 and set STOPPED; SSI, MAINS and REF1PPS go on at their rate and clear VALID; HEADING and GATEWAY hold the value reached and clear VALID; no quantity but those derived from it changes; within the timeout nothing changes. DIRECT_PATH_COPY, 32 counter clocks after the last rewrite, writes every quantity's present value into its copy and changes nothing else; sooner it changes nothing. The instants at which commands act, and what the rules leave open here, are the model's choice (log 1, 27, 190). -/
def Obligations.QuantityStaleness : Prop :=
  (∀ (t : Lapse) (s : State) (n ms : Nat),
    let a := s.elapse t
    let q := a.qty n
    let k := kindOf q.cfg0
    let h := some (qdist (a.value n) q.vu)
    let inv := fun (x : Qty) => if q.valid then { x with valid := false, fell := a.tb.q0 } else x
    (0 < n → n < 8 → a.isOn 11 = true → timeoutMs q = some ms → ms * 654720 < a.tb.clk - q.tuClk →
        Answers (exec (.qtyTimeout t n) s) fun u =>
          (k = 1 ∨ k = 3 → u.qty n = { q with held := h, rate := 0, acc := 0, overrate := false, accSat := false, stopped := true }) ∧
          (k = 2 ∨ k = 4 ∨ k = 8 → u.qty n = inv q) ∧
          (k = 5 ∨ k = 7 → u.qty n = inv { q with held := h }) ∧
          (∀ m, m < 8 → m ≠ n → u.qty m = a.qty m) ∧ u = a.putQs u.qs) ∧
    (timeoutMs q = some ms → a.tb.clk - q.tuClk ≤ ms * 654720 →
        exec (.qtyTimeout t n) s = .next a)) ∧
  (∀ (t : Lapse) (s : State),
    let a := s.elapse t
    (a.isOn 11 = true → a.tb.dpClk.all (fun c => decide (c + 32 ≤ a.tb.clk)) = true →
        Answers (exec (.directPathCopy t) s) fun u =>
          (∀ n, n < 16 → u.qty n = { a.qty n with direct := a.value n }) ∧ u = (a.putQs u.qs).putTb { a.tb with dpClk := some a.tb.clk }) ∧
    (a.tb.dpClk.any (fun c => decide (a.tb.clk < c + 32)) = true →
        exec (.directPathCopy t) s = .next a))

/-- Taken as new commands: QTY_CONFIG in range on a quantity that no pending event and no DERIVED quantity uses is ACCEPTED, and the quantity restarts with its new words (reserved bits dropped), without VALID, at 0, or for DERIVED at RATIO times the source plus the offset; on one in use it is refused with NOT_PERMITTED and nothing changes. QTY_READ is DONE with the seven words of each selected quantity, FRZ_SEQ 0, and changes nothing. The instants at which commands act, and what the rules leave open here, are the model's choice (log 1, 12, 26). -/
def Obligations.QuantityCommands : Prop :=
  (∀ (t : Lapse) (env : Env) (ps : List Word) (s : State),
    let a := s.elapse t
    let n := fld (arg ps 0) 47 44
    let k := kindOf (arg ps 1)
    (a.admits 0x080 2 0xFFE env ps = true → ps.length = 6 → n ≠ 0 → a.qcfgBad n (arg ps 1) (arg ps 2) (arg ps 3) = false → a.qcfgHeld n = false →
        Completes 0x080 0 [] env a (exec (.qtyConfig t env ps) s) fun u =>
          (u.qty n).cfg0 = maskW qcfg0Mask (arg ps 1) ∧ (u.qty n).cfg1 = maskW (qcfgMask k 1) (arg ps 2) ∧ (u.qty n).rate = 0 ∧
          (u.qty n).fed = false ∧ (u.qty n).valid = false ∧ (k ≠ 6 → (u.qty n).vu = 0) ∧
          (k = 6 → (u.qty n).vu = exactValue (BitVec.ofInt 128 (ratioOf (u.qty n) * (a.value (srcOf (u.qty n))).toNat) + BitVec.ofNat 128 ((mkQ (u.qty n).cfg2 (u.qty n).cfg3).toNat * 2 ^ 32))) ∧
          (∀ m, m < 16 → m ≠ n → u.qty m = a.qty m) ∧ u.tb = a.tb ∧ u.sch = a.sch) ∧
    (a.admits 0x080 2 0xFFE env ps = true → ps.length = 6 → n ≠ 0 → a.qcfgBad n (arg ps 1) (arg ps 2) (arg ps 3) = false → a.qcfgHeld n = true →
        Completes 0x080 0x33 [0] env a (exec (.qtyConfig t env ps) s) fun u => u.rest = a.rest)) ∧
  (∀ (t : Lapse) (env : Env) (ps : List Word) (s : State),
    let a := s.elapse t
    a.admits 0x081 1 0xFFE env ps = true → ps.length = 1 → fld (arg ps 0) 47 32 ≠ 0 →
      Completes 0x081 1 (([0, 1, 2, 3, 4, 5, 6, 7, 8, 9, 10, 11, 12, 13, 14, 15].filter fun n => (fld (arg ps 0) 47 32).testBit (15 - n)).flatMap fun n => a.qGroup n 0)
        env a (exec (.qtyRead t env ps) s) fun u => u.rest = a.rest)

/-- Taken as a new command with its fields in range and no scheduled pulse held up, PULSE_CONFIG is ACCEPTED with the effect instant E, and the configuration waits for E; out of range it is refused with BAD_PARAM, with a scheduled pulse pending on the output and not staying scheduled-only with NOT_PERMITTED, and nothing changes. At E the configuration is in force, a disabled output reads OFF, every other output only runs on to this instant, and every other block stays. The instants at which commands act, and what the rules leave open here, are the model's choice (log 1, 12, 28). -/
def Obligations.OutputConfiguration : Prop :=
  (∀ (t : Lapse) (env : Env) (ps : List Word) (s : State),
    let a := s.elapse t
    let n := fld (arg ps 0) 47 45
    let c := OutCfg.masked ⟨arg ps 1, arg ps 2, arg ps 3, arg ps 4⟩
    (a.admits 0x070 2 0xFFE env ps = true → ps.length = 5 → a.outBad n c = false → a.outHeld n c = false → a.isOn 11 = true →
        Completes 0x070 0 [cyc (a.effectAt n c), frc (a.effectAt n c)] env a (exec (.pulseConfig t env ps) s) fun u =>
          u.out n = { a.out n with wait := some ⟨c, a.effectAt n c, a.jrn.next⟩ } ∧ (∀ m, m < 8 → m ≠ n → u.out m = a.out m) ∧ u.tb = a.tb ∧ u.clk = a.clk) ∧
    (a.admits 0x070 2 0xFFE env ps = true → ps.length = 5 → a.outBad n c = true →
        Completes 0x070 0x23 [0] env a (exec (.pulseConfig t env ps) s) fun u => u.rest = a.rest) ∧
    (a.admits 0x070 2 0xFFE env ps = true → ps.length = 5 → a.outBad n c = false → a.outHeld n c = true →
        Completes 0x070 0x33 [0] env a (exec (.pulseConfig t env ps) s) fun u => u.rest = a.rest)) ∧
  (∀ (t : Lapse) (s : State) (n : Nat) (w : OutWait),
    let a := s.elapse t
    (a.out n).wait = some w → a.isOn 11 = true → behind a.tb.q0 w.at_ = false →
      Answers (exec (.outConfigEffect t n) s) fun u =>
        (u.out n).conf = w.conf ∧ (u.out n).wait = none ∧ (w.conf.en = false → (u.out n).state = 0) ∧
        (w.conf.periodic = true → bit w.conf.cfg 42 = true → a.tb.tsrc = 0 → (u.out n).state = 1) ∧
        (∀ m, m < 8 → m ≠ n → u.out m = (State.runOuts a).out m) ∧ u = a.putOuts u.outs)

/-- TPG_EDGE of a running periodic output whose edge is due, before the effect instant of a configuration that waits: the edge leaves the pin, the status group shows its instant and one more edge, and the next edge is the first one after it; nothing else changes. OUT_SQUELCH in holdover at a limit: the output reads SQUELCHED, has no next edge, keeps the latched flag, and every partner with rights gets an ALARM. OUT_RESUME with a good source: a periodic output runs again once 1 ms has passed since the source became good, with its first leading edge after that; one that is not periodic runs, or is held where its clock gives nothing; an output that is not squelched, or without a good source, stays as it is. The instants at which commands act, and what the rules leave open here, are the model's choice (log 1, 30). -/
def Obligations.OutputEdges : Prop :=
  (∀ (t : Lapse) (s : State) (n : Nat) (e : Qval),
    let a := s.elapse t
    let o := a.out n
    o.next = some e → n < 8 → a.isOn 11 = true → o.conf.periodic = true → o.state = 2 → a.pwr.timeDown = false → a.pwr.latched.testBit 0 = false → behind a.tb.q0 e = false →
    (match o.wait with | some w => ahead w.at_ e | none => true) = true →
      Answers (exec (.tpgEdge t n) s) fun u =>
        (u.out n).last = e ∧ (u.out n).cnt = (o.cnt + 1) % 2 ^ 48 ∧ (u.out n).next = some (qOf (o.conf.firstLead (uOf e + 1))) ∧
        (u.out n).conf = o.conf ∧ (u.out n).ho = decide (a.tb.tsrc = 2) ∧ (∀ m, m < 8 → m ≠ n → u.out m = a.out m) ∧
        u.wire.any (fun x => match x with | .edge m l _ => m == n && l == e | _ => false) = true ∧ u = (a.putOuts u.outs).putWire u.wire) ∧
  (∀ (t : Lapse) (s : State) (n : Nat),
    let a := s.elapse t
    let o := a.out n
    (n < 8 → a.isOn 11 = true → a.tb.tsrc = 2 → o.state = 2 → o.conf.periodic = true ∨ (o.conf.clock = true ∧ o.conf.src = 1) →
      (fld o.conf.hold 47 24 ≠ 0 ∧ fld o.conf.hold 47 24 ≤ a.tb.holdSeconds) ∨ (fld o.conf.hold 23 0 ≠ 0 ∧ fld o.conf.hold 23 0 * 1000 ≤ a.tb.tqeNow) →
        Answers (exec (.outSquelch t n) s) fun u =>
          u.out n = { o with state := 3, next := none, lead := none, flags := setBit o.flags 0 } ∧ (∀ m, m < 8 → m ≠ n → u.out m = a.out m) ∧
          Told a u ∧ u.rest = (a.putOuts u.outs).rest) ∧
    (n < 8 → a.isOn 11 = true → o.state = 3 → a.tb.tsrc = 1 ∨ a.tb.tsrc = 3 → o.conf.periodic = true → a.tb.tsrcAt.all (fun b => decide (uOf b + 2 ^ 48 / 1000 + 1 ≤ uOf a.tb.q0)) = true →
        Answers (exec (.outResume t n) s) fun u =>
          u.out n = { o with state := 2, next := some (qOf (o.conf.firstLead (uOf (a.tb.tsrcAt.getD a.tb.q0) + 2 ^ 48 / 1000 + 1))) } ∧
          Told a u ∧ u.rest = (a.putOuts u.outs).rest) ∧
    (n < 8 → a.isOn 11 = true → o.state = 3 → a.tb.tsrc = 1 ∨ a.tb.tsrc = 3 → o.conf.periodic = false →
        Answers (exec (.outResume t n) s) fun u =>
          (u.out n).state = (if a.fed o.conf then 2 else 5) ∧ (u.out n).conf = o.conf ∧
          Told a u ∧ u.rest = (a.putOuts u.outs).rest) ∧
    (o.state ≠ 3 ∨ (a.tb.tsrc ≠ 1 ∧ a.tb.tsrc ≠ 3) →
        exec (.outResume t n) s = .next a))

/-- PLL_UNLOCK of a locked PLL with the reference present: it coasts, the loss is counted and latched, PLL-F's loss marks the direct path and PLL-S's loss puts D1 at F0. PLL_HOLD: once every consumer has reached its safe point, or from 1 ms after the detection on without it and then forced, it holds, and the outputs that it feeds are held; sooner nothing changes. Memory leases end where D1's PLL-S stops. PLL_LOCKED: it is locked in its band. PLL_NO_LOCK after ten searches: the latch sets and it goes on searching. The instants at which commands act, and what the rules leave open here, are the model's choice (log 1, 33). -/
def Obligations.LossOfLock : Prop :=
  (∀ (t : Lapse) (s : State) (p : Nat),
    let a := s.elapse t
    let l := a.clk.pll p
    (p < 5 → l.state = 2 → a.clk.refOk = true →
        Answers (exec (.pllUnlock t p) s) fun u =>
          u.clk.pll p = { l with state := 3, since := some a.tb.clk, unlocks := satN 16 (l.unlocks + 1) } ∧ u.clk.fault = setBit a.clk.fault p ∧
          u.clk.direct = (a.clk.direct || decide (p = 0)) ∧ u.clk.oppD1.freq = (if p = 2 then 0 else a.clk.oppD1.freq) ∧
          (∀ m, m < 5 → m ≠ p → u.clk.pll m = a.clk.pll m) ∧ u = (a.putClk u.clk).putMem (if p = 2 then a.mem.endLeases else a.mem)) ∧
    (p < 5 → l.state = 3 → a.clk.refOk = true → a.safePoint p = true ∨ 654720 ≤ a.tb.clk - l.since.getD a.tb.clk →
        Answers (exec (.pllHold t p) s) fun u =>
          (u.clk.pll p).state = 4 ∧ (u.clk.pll p).forced = !a.safePoint p ∧ (u.clk.pll p).holds = satN 16 (l.holds + 1) ∧
          (u.clk.pll p).coastUs = satN 16 ((a.tb.clk - l.since.getD a.tb.clk) * 1000000 / 654720000) ∧ u.clk = a.clk.setPll p (u.clk.pll p) ∧
          (∀ n, n < 8 → fedBy p (a.out n).conf = true → u.out n = heldOut n (a.out n)) ∧
          (∀ n, n < 8 → fedBy p (a.out n).conf = false → u.out n = a.out n) ∧
          u = ((a.putClk u.clk).putOuts u.outs).putMem (if p = 2 then a.mem.endLeases else a.mem)) ∧
    (l.state = 3 → a.clk.refOk = true → a.safePoint p = false → a.tb.clk - l.since.getD a.tb.clk < 654720 →
        exec (.pllHold t p) s = .next a) ∧
    (p < 5 → l.state = 1 ∨ l.state = 4 →
        Answers (exec (.pllNoLock t p) s) fun u =>
          u.clk.pll p = { l with fails := 10 } ∧ u.clk.fault = setBit a.clk.fault 6 ∧ u.rest = (a.putClk u.clk).rest)) ∧
  (∀ (t : Lapse) (s : State) (p band search : Nat),
    let a := s.elapse t
    let l := a.clk.pll p
    p < 5 → l.state = 1 ∨ l.state = 4 → a.isOn 11 = true → a.clk.refOk = true →
      Answers (exec (.pllLocked t p band search) s) fun u =>
        u.clk.pll p = { l with state := 2, band := band % 64, relock := satN 16 search, fails := 0, since := none } ∧
        u.clk.direct = (a.clk.direct && decide (p ≠ 0)) ∧ u.tb = a.tb ∧ u.pwr = a.pwr ∧ u.mem = a.mem)

/-- OCXO_LOST: REF_OK clears and latches, every PLL that runs coasts, the source reads HOLDOVER with TQE and TQF at their limits. OCXO_FAILED after 10 ms reads FAILED. OCXO_BACK: the reference reads present and every PLL that runs goes through hold. OCXO_WARM: the oscillator reads LOCKED with its oven's temperature. The instants at which commands act, and what the rules leave open here, are the model's choice (log 1, 21). -/
def Obligations.ReferenceLoss : Prop :=
  (∀ (t : Lapse) (s : State),
    let a := s.elapse t
    (a.clk.refOk = true →
        Answers (exec (.ocxoLost t) s) fun u =>
          u.clk.refOk = false ∧ u.clk.lostClk = some a.tb.clk ∧ u.clk.fault = setBit a.clk.fault 5 ∧
          (∀ p, p < 5 → (u.clk.pll p).refLost = true ∧ ((a.clk.pll p).state ≠ 0 → (u.clk.pll p).state = 3)) ∧
          u.tb.tsrc = 2 ∧ u.tb.tqe = 0xFFFFFFFF ∧ u.tb.tqf = 0xFFFFFFFF ∧ u.tb.q0 = a.tb.q0 ∧ u.pwr = a.pwr ∧ u.mem = a.mem.endLeases) ∧
    (a.clk.refOk = false → a.clk.lostClk.any (fun c => decide (c + 6547200 ≤ a.tb.clk)) = true →
        Answers (exec (.ocxoFailed t) s) fun u => u = a.putClk { a.clk with ocxo := 2 })) ∧
  (∀ (t : Lapse) (s : State) (warm : Bool),
    let a := s.elapse t
    a.clk.refOk = false →
      Answers (exec (.ocxoBack t warm) s) fun u =>
        u.clk.refOk = true ∧ u.clk.lostClk = none ∧ u.clk.ocxo = (if warm && a.clk.warmed then 1 else 0) ∧
        (∀ p, p < 5 → (u.clk.pll p).refLost = false ∧ ((a.clk.pll p).state ≠ 0 → (u.clk.pll p).state = 4)) ∧ u.tb = a.tb ∧ u.rest = (((a.putClk u.clk).putOuts u.outs).putMem a.mem.endLeases).rest) ∧
  (∀ (t : Lapse) (s : State) (temp : Int),
    let a := s.elapse t
    a.clk.refOk = true → a.clk.ocxo = 0 → a.clk.stopped = false →
      Answers (exec (.ocxoWarm t temp) s) fun u =>
        u.clk = { a.clk with ocxo := 1, temp := temp, warmed := true } ∧ u.rest = ((a.putClk u.clk).putTb { a.tb with discH := 0, drift := 2000, driftBase := 2000 }).rest)

/-- FREQ_POINT_CHANGE above the voltage point is refused: the refusal is counted and latched and the point in force stays; at or below it with the domain's PLL locked it is in force. VOLT_POINT_CHANGE below the frequency point is refused in the same way; a permitted decrease reads at once; an increase reads only when VOLTAGE_SETTLED. The instants at which commands act, and what the rules leave open here, are the model's choice (log 1, 151). -/
def Obligations.OperatingPoints : Prop :=
  ∀ (t : Lapse) (s : State) (i pt : Nat),
    let a := s.elapse t
    let o := a.clk.opp i
    (i < 4 → pt < 3 → o.volt < pt →
        Answers (exec (.freqPointChange t i pt) s) fun u =>
          u.clk.opp i = { o with req := pt, refusals := satN 16 (o.refusals + 1) } ∧ u.clk.fault = setBit a.clk.fault 7 ∧ u = a.putClk u.clk) ∧
    (i < 4 → pt < 3 → pt ≤ o.volt → ((oppPll i pt).map fun p => (a.clk.pll p).state).getD 2 = 2 →
        Answers (exec (.freqPointChange t i pt) s) fun u =>
          u.clk.opp i = { o with req := pt, freq := pt, wish := none } ∧ u = a.putClk u.clk) ∧
    (i < 4 → pt < o.volt → o.volt < 3 → pt < o.freq →
        Answers (exec (.voltPointChange t i pt) s) fun u =>
          u.clk.opp i = { o with refusals := satN 16 (o.refusals + 1) } ∧ u.clk.fault = setBit a.clk.fault 7 ∧ u = a.putClk u.clk) ∧
    (i < 4 → pt < o.volt → o.volt < 3 → o.freq ≤ pt →
        Answers (exec (.voltPointChange t i pt) s) fun u => u.clk.opp i = { o with volt := pt, settling := none } ∧ u = a.putClk u.clk) ∧
    (i < 4 → pt < 3 → o.volt < pt →
        Answers (exec (.voltPointChange t i pt) s) fun u => u.clk.opp i = { o with settling := some pt } ∧ u = a.putClk u.clk) ∧
    (i < 4 → o.settling = some pt →
        Answers (exec (.voltageSettled t i) s) fun u => u.clk.opp i = { o with volt := pt, settling := none } ∧ u = a.putClk u.clk)

/-- Taken as a new command with no row of Table 4 applying, SCHED_ADD is ACCEPTED with the partner's pending count and SIDE, and the event it describes joins the pending events under the command's JSN. A field out of range is refused BAD_PARAM (REASON 1), a quantity that is OFF with NOT_PERMITTED (2), a sink that cannot take it with NOT_PERMITTED (3); then nothing changes. The instants at which commands act, and what the rules leave open here, are the model's choice (log 1, 34, 35, 36). -/
def Obligations.ScheduleAccepted : Prop :=
  ∀ (t : Lapse) (env : Env) (ps : List Word) (s : State),
    let a := s.elapse t
    let e := schedEvent env.partner 0 (freeSlot a.sch.events 0 a.sch.events.length) ps (a.value (fld (arg ps 0) 27 24))
    (a.admits 0x090 2 0xFFE env ps = true → schedField ps = false → a.kind e.qty ≠ 15 → a.sinkHeld e = false → a.sinkFailed e = none → a.leadShort e = false → a.passed e = false →
      a.schedFull e = false → densityOk a.sch.events e = true → a.fullLinks e = [] →
        Completes 0x090 0 [pack [put 47 27 (a.pendingOf env.partner + 1), putB 26 e.side]] env a (exec (.schedAdd t env ps) s) fun u =>
          u.sch = { a.sch with events := a.sch.events ++ [{ e with jsn := a.jrn.next }] } ∧ u.rest = (a.putSch u.sch).rest) ∧
    (a.admits 0x090 2 0xFFE env ps = true → schedField ps = true →
        Completes 0x090 0x23 [1] env a (exec (.schedAdd t env ps) s) fun u => u.rest = a.rest) ∧
    (a.admits 0x090 2 0xFFE env ps = true → schedField ps = false → a.kind e.qty = 15 →
        Completes 0x090 0x33 [2] env a (exec (.schedAdd t env ps) s) fun u => u.rest = a.rest) ∧
    (a.admits 0x090 2 0xFFE env ps = true → schedField ps = false → a.kind e.qty ≠ 15 → a.sinkHeld e = true →
        Completes 0x090 0x33 [3] env a (exec (.schedAdd t env ps) s) fun u => u.rest = a.rest)

/-- OCCURRENCE_ARM of an occurrence within 10 µs of its release takes it into its queue. OCCURRENCE_RELEASE of a due Q0 occurrence of class 0, 2 or 3 before which no other of its sink comes: the release is counted; where more are to come the dispatch mark is written and the next occurrence is sought; the last one ends the event, which no longer stands among the pending ones. The instants at which commands act, and what the rules leave open here, are the model's choice (log 1, 39). -/
def Obligations.OccurrenceReleased : Prop :=
  (∀ (t : Lapse) (s : State) (jsn : Word) (e : Event),
    let a := s.elapse t
    a.event jsn.toNat = some e → e.action = 0 ∨ e.action = 2 ∨ e.action = 3 → e.sought = true → e.st = .pending → e.armed = false →
    (a.predict e e.goal).any (fun p => decide (qdist p a.tb.q0 ≤ usUnits 10)) = true → (a.sch.events.filter fun x => x.armed && e.sameQueue x).length < 320 → a.isOn 11 = true →
      Answers (exec (.occurrenceArm t jsn) s) fun u => u.event jsn.toNat = some { e with armed := true } ∧ u = a.putSch u.sch) ∧
  (∀ (t : Lapse) (s : State) (jsn : Word) (e : Event),
    let a := s.elapse t
    (a.event jsn.toNat = some e → e.action ≠ 1 → e.qty = 0 → a.mayRelease = true → a.due e = true → a.isFirst e = true → e.jump = none → e.count = 0 ∨ e.occ + 1 ≤ e.count →
        Answers (exec (.occurrenceRelease t jsn) s) fun u =>
          (u.event jsn.toNat).map (fun x => (x.occ, x.last, x.armed)) = some (e.occ + 1, e.occ, false) ∧
          u.sch.cntRel = satN 48 (a.sch.cntRel + 1) ∧ u.jrn.markRing.contains (e.slot, e.occ) = true ∧ u.tb = a.tb ∧ u.pwr = a.pwr) ∧
    (a.event jsn.toNat = some e → e.action ≠ 1 → e.qty = 0 → a.mayRelease = true → a.due e = true → a.isFirst e = true → e.jump = none → e.count ≠ 0 → e.count ≤ e.occ → e.sent = [] →
      e.cancelled = false →
        Answers (exec (.occurrenceRelease t jsn) s) fun u =>
          u.event jsn.toNat = none ∧ u.sch.cntRel = satN 48 (a.sch.cntRel + 1) ∧
          u.sch.ended.any (fun x => x.jsn == jsn.toNat && x.last == e.occ) = true ∧ u.tb = a.tb ∧ u.pwr = a.pwr))

/-- SCHED_CANCEL of the partner's own event by JSN with nothing in flight and no occurrence due: DONE, and the event ends CANCELLED. SCHED_QUERY of a JSN that is no event answers six words of zeros and changes nothing. EVENT_REEVALUATION of the only event, on a quantity that restarted: it ends MISSED, counted. The instants at which commands act, and what the rules leave open here, are the model's choice (log 1, 38). -/
def Obligations.CancelQueryReevaluate : Prop :=
  (∀ (t : Lapse) (env : Env) (ps : List Word) (s : State) (e : Event),
    let a := s.elapse t
    let jsn := (arg ps 1).toNat
    a.admits 0x091 2 0xFFE env ps = true → ps.length = 2 → fld (arg ps 0) 47 46 = 0 → a.sch.events = [e] → e.jsn = jsn → e.partner = env.partner → a.sch.ended = [] → a.due e = false →
    e.sought = true → e.sent = [] →
      Ends 0x091 1 env a (exec (.schedCancel t env ps) s) fun u =>
        u.sch.events = [] ∧ u.sch.ended.map (fun x => (x.jsn, x.outcome)) = [(jsn, 4)] ∧ u.tb = a.tb ∧ u.outs = a.outs) ∧
  (∀ (t : Lapse) (env : Env) (ps : List Word) (s : State),
    let a := s.elapse t
    let jsn := (arg ps 0).toNat
    a.admits 0x092 1 0xFFE env ps = true → ps.length = 1 → a.event jsn = none → a.sch.ended.find? (fun x => x.jsn == jsn) = none →
      Completes 0x092 1 [0, 0, 0, 0, 0, 0] env a (exec (.schedQuery t env ps) s) fun u => u.rest = a.rest) ∧
  (∀ (t : Lapse) (s : State) (e : Event),
    let a := s.elapse t
    a.pwr.ready = true → a.isOn 11 = true → a.sch.events = [e] → e.st = .restarted → e.sought = true → e.sent = [] → e.cancelled = false →
      Answers (exec (.eventReevaluation t) s) fun u =>
        u.sch.events = [] ∧ u.sch.cntMiss = satN 48 (a.sch.cntMiss + 1) ∧ u.sch.ended.any (fun x => x.jsn == e.jsn && x.outcome == 3) = true ∧
        u.rest = (a.putSch u.sch).rest)

/-- WHEEL_SWEEP at a new 2^-16 s of Tether time: the mirror sequence number advances and the eight words of every quantity's entry stand in shared memory at the mirror's address; every byte outside the 128 words reads as before, and nothing else changes. At the same 2^-16 s nothing changes. The instants at which commands act, and what the rules leave open here, are the model's choice (log 1, 8). -/
def Obligations.QuantityMirror : Prop :=
  ∀ (t : Lapse) (s : State) (adr : Nat),
    let a := s.elapse t
    let idx := a.tb.q0.toNat / 2 ^ 32
    let b := a.putSch { a.sch with swept := idx, mseq := (a.sch.mseq + 1) % 2 ^ 16 }
    let base := (Config.qMirror 0).toNat
    (a.isOn 11 = true → idx ≠ a.sch.swept → tget 0 7 a.pwr.req ≠ 1 →
        Answers (exec (.wheelSweep t) s) fun u =>
          u.sch = b.sch ∧ (∀ n, n < 16 → u.mem.reads (base + 8 * n) 8 = b.mirror n) ∧
          ((∀ k, k < 128 → adr / 6 ≠ (base + k) % 2 ^ 24) → cellRead adr u.mem.cells = cellRead adr a.mem.cells) ∧ u = (a.putSch u.sch).putMem u.mem) ∧
    (idx = a.sch.swept →
        exec (.wheelSweep t) s = .next a)

/-- A LINK frame in TRAINING with at least 64 frames of ballast and the gateway its pair expects: TIMING, with that many credits; with less ballast it stays in TRAINING. CREDIT adds what it frees. A TSTAMP for the window marked on both sides sets θ and the delay where θ lies within 1 µs, and the sixteenth in a row within 20 ns takes TIMING to UP. The gateway's marker of a multiple of 100 is kept. A frame that fails its checks is dropped and counted. The instants at which commands act, and what the rules leave open here, are the model's choice (log 1, 11). -/
def Obligations.LinkTraining : Prop :=
  (∀ (t : Lapse) (s : State) (l : Nat) (ws : List Word),
    let a := s.elapse t
    let k := a.lnk l
    let rxb := fld (arg ws 0) 23 12
    (l < 8 → k.state = 1 → frameGood ws = true → frameType ws = 8 → 64 ≤ rxb → k.pair = none ∨ arg ws 1 = k.pairGw →
        Answers (exec (.link t l ws) s) fun u =>
          (u.lnk l).state = 2 ∧ (u.lnk l).credits = rxb ∧ (u.lnk l).gw = arg ws 1 ∧ (∀ m, m < 8 → m ≠ l → u.lnk m = a.lnk m) ∧ u = a.putLinks u.links) ∧
    (l < 8 → k.state = 1 → frameGood ws = true → frameType ws = 8 → rxb < 64 →
        Answers (exec (.link t l ws) s) fun u => (u.lnk l).state = 1 ∧ (u.lnk l).credits = k.credits ∧ u.rest = (a.putLinks u.links).rest) ∧
    (l < 8 → k.state = 2 ∨ k.state = 3 → frameGood ws = true → frameType ws = 10 →
        Answers (exec (.credit t l ws) s) fun u => u = a.setLnk l { k with credits := satN 12 (k.credits + fld (arg ws 0) 11 0) }) ∧
    (l < 8 → k.state ≠ 0 → frameGood ws = false →
        Answers (exec (.lendiFrameDropped t l ws) s) fun u => (u.lnk l).dropped = satN 16 (k.dropped + 1) ∧ (u.lnk l).state = k.state ∧ u = a.putLinks u.links)) ∧
  (∀ (t : Lapse) (s : State) (l : Nat) (ws : List Word) (dep4 arr4 : Int),
    let a := s.elapse t
    let k := a.lnk l
    let w := fld (arg ws 1) 47 32
    let dn := sfld (arg ws 1) 31 0 - dep4
    let up := arr4 - sfld (arg ws 2) 47 24
    let theta := halfOpen (dn - up + k.asym)
    l < 8 → k.state = 2 ∨ k.state = 3 → frameGood ws = true → frameType ws = 11 → k.dep4 = some (w, dep4) → k.arr4 = some (w, arr4) → theta.natAbs ≤ 1000000 →
      Answers (exec (.tstamp t l ws) s) fun u =>
        (u.lnk l).theta = theta ∧ (u.lnk l).delay = halfOpen (dn + up) ∧ (u.lnk l).lastTs = a.tb.clk ∧
        (u.lnk l).state = (if k.state = 2 ∧ theta.natAbs ≤ 20000 ∧ 15 ≤ k.good then 3 else k.state) ∧ u.rest = (a.putLinks u.links).rest) ∧
  (∀ (t : Lapse) (s : State) (l wseq : Nat) (arr4 : Int),
    let a := s.elapse t
    l < 8 → (a.lnk l).state ≠ 0 → wseq % 100 = 0 →
      Answers (exec (.gatewayWindowMarker t l wseq arr4) s) fun u => u = a.setLnk l { a.lnk l with arr4 := some (wseq % 2 ^ 16, arr4) })

/-- ACK_TIMEOUT (cause 3), TLOCK_LOST (4) and LINK_DOWN on cause 1 or 2 take a link out of UP to TRAINING: time lock and credits are gone, the cause reads, the drop is counted. LINK_FAILED after 100 ms out of UP and LINK_RESTORED after 1 s in UP set and clear the part's failure, each with one record to every partner with rights. The instants at which commands act, and what the rules leave open here, are the model's choice (log 1, 117). -/
def Obligations.LinkStates : Prop :=
  (∀ (t : Lapse) (s : State) (l : Nat),
    let a := s.elapse t
    let k := a.lnk l
    (l < 8 → k.state = 3 →
      a.sch.events.any (fun e => e.sent.any fun x => x.link == l && x.clkSent.isSome && !x.acked && ahead x.tr a.tb.q0 && decide (winStart x.win + usUnits 60 ≤ uOf a.tb.q0)) = true →
        Answers (exec (.ackTimeout t l) s) fun u =>
          (u.lnk l).state = 1 ∧ (u.lnk l).tlock = false ∧ (u.lnk l).credits = 0 ∧ (u.lnk l).lastDown = 3 ∧ (u.lnk l).downs = satN 16 (k.downs + 1) ∧ (∀ m, m < 8 → m ≠ l → u.lnk m = a.lnk m)) ∧
    (l < 8 → k.state = 3 → 50000 < k.theta.natAbs ∨ k.lastTs + 6547200 ≤ a.tb.clk →
        Answers (exec (.tlockLost t l) s) fun u =>
          (u.lnk l).state = 1 ∧ (u.lnk l).tlock = false ∧ (u.lnk l).credits = 0 ∧ (u.lnk l).lastDown = 4 ∧ (u.lnk l).downs = satN 16 (k.downs + 1) ∧ (∀ m, m < 8 → m ≠ l → u.lnk m = a.lnk m)) ∧
    (l < 8 → k.en = true → a.isOn 9 = true → k.wasUp = true → k.state ≠ 3 → k.failed = false → k.outClk.any (fun c => decide (c + 65472000 ≤ a.tb.clk)) = true →
        Answers (exec (.linkFailed t l) s) fun u =>
          u.lnk l = { k with failed := true } ∧ u.fc.link = setBit a.fc.link l ∧
          Told a u ∧ u.rest = ((a.putLinks u.links).putFc u.fc).rest) ∧
    (l < 8 → k.failed = true → k.state = 3 → k.upClk.any (fun c => decide (c + 654720000 ≤ a.tb.clk)) = true →
        Answers (exec (.linkRestored t l) s) fun u =>
          u.lnk l = { k with failed := false } ∧ u.fc.link = clearBits a.fc.link (2 ^ l) ∧
          Told a u ∧ u.rest = ((a.putLinks u.links).putFc u.fc).rest)) ∧
  (∀ (t : Lapse) (s : State) (l cause : Nat),
    let a := s.elapse t
    let k := a.lnk l
    l < 8 → k.state = 2 ∨ k.state = 3 → cause = 1 ∨ cause = 2 →
      Answers (exec (.linkDown t l cause) s) fun u =>
        (u.lnk l).state = 1 ∧ (u.lnk l).tlock = false ∧ (u.lnk l).credits = 0 ∧ (u.lnk l).lastDown = cause ∧ (u.lnk l).downs = satN 16 (k.downs + 1) ∧ (∀ m, m < 8 → m ≠ l → u.lnk m = a.lnk m))

/-- LENDI_WINDOW_START: a new window begins with nothing of it used and its marker leaves; where the only event is a class-1 occurrence on Q0 whose window this is, on a link in UP with a credit, its frame leaves with t_r its target, and takes the credit. ACK marks the occurrence acknowledged. UNDELIVERED_LINK without an acknowledgement at t_r, REL with DISCARDED and RELQ_TIMEOUT end it as undelivered, counted on its link. CLASS1_OUTCOME of an acknowledged Q0 occurrence at its target counts it DELIVERED. RELQ asks for an occurrence marked before an outage. The instants at which commands act, and what the rules leave open here, are the model's choice (log 1, 41, 42, 45). -/
def Obligations.ClassOneDelivery : Prop :=
  (∀ (t : Lapse) (s : State) (l : Nat) (dep4 : Int),
    let a := s.elapse t
    let k := a.lnk l
    let w := (winOf (uOf a.tb.q0)).toNat
    l < 8 → a.isOn 11 = true → k.win ≠ some w → k.state ≠ 0 → k.control = [] → k.sends = [] → k.pair = none → a.sch.events = [] →
      Answers (exec (.lendiWindowStart t l dep4) s) fun u =>
        u.lnk l = { k with win := some w, used := 0, usedCtl := 0, frames := 0, dep4 := if w % 2 ^ 16 % 100 = 0 then some (w % 2 ^ 16, dep4) else k.dep4 } ∧
        u.wire = [.marker l (w % 2 ^ 16) dep4] ∧ u.sch = a.sch ∧ u.tb = a.tb) ∧
  (∀ (t : Lapse) (s : State) (l : Nat) (dep4 : Int) (e : Event),
    let a := s.elapse t
    let k := a.lnk l
    let w := (winOf (uOf a.tb.q0)).toNat
    l < 8 → a.isOn 11 = true → a.mayRelease = true → k.win ≠ some w → k.state = 3 → 0 < k.credits → k.control = [] → k.sends = [] → k.pair = none → a.sch.events = [e] → e.action = 1 →
    e.qty = 0 → e.count = 1 → e.occ = 1 → e.sought = true → e.st = .pending → e.sent = [] → e.jump = none → fld e.sink 47 45 = l → bit e.sink 44 = false → e.cost ≤ 44 →
    (w : Int) = winOf (uOf e.goal) - 15 →
      Answers (exec (.lendiWindowStart t l dep4) s) fun u =>
        u.sch.events.map (fun y => (y.sought, y.sent.map fun x => (x.occ, x.tr, x.clkSent))) = [(false, [(e.occ, e.goal, some a.tb.clk)])] ∧
        (u.lnk l).credits = k.credits - 1 ∧ (u.lnk l).frames = 1 ∧ u.sch.cntRel = satN 48 (a.sch.cntRel + 1) ∧ u.jrn.markRing.contains (e.slot, e.occ) = true ∧
        u.wire.length = 2) ∧
  (∀ (t : Lapse) (s : State) (l : Nat) (ws : List Word) (e : Event) (x : Sent),
    let a := s.elapse t
    (l < 8 → (a.lnk l).state ≠ 0 → frameGood ws = true → frameType ws = 9 → a.event (arg ws 1).toNat = some e →
        Answers (exec (.ack t l ws) s) fun u =>
          u.event (arg ws 1).toNat = some { e with sent := e.sent.map fun x => if x.occ = (arg ws 2).toNat then { x with acked := true } else x } ∧ u = a.putSch u.sch) ∧
    (l < 8 → (a.lnk l).state ≠ 0 → frameGood ws = true → frameType ws = 13 → a.event (arg ws 1).toNat = some e → e.sent.find? (fun y => y.occ == (arg ws 2).toNat) = some x →
      fld (arg ws 0) 23 22 = 2 →
        Answers (exec (.rel t l ws) s) fun u => (u.lb x.link).cntUndel = satN 24 ((a.lb x.link).cntUndel + 1) ∧ u.links = a.links ∧ u.tb = a.tb)) ∧
  (∀ (t : Lapse) (s : State) (jsn : Word) (e : Event) (x : Sent),
    let a := s.elapse t
    (a.event jsn.toNat = some e → e.sent.find? (fun y => !y.acked && !y.prior && !ahead y.tr a.tb.q0) = some x →
        Answers (exec (.undeliveredLink t jsn) s) fun u => (u.lb x.link).cntUndel = satN 24 ((a.lb x.link).cntUndel + 1) ∧ u.links = a.links ∧ u.tb = a.tb) ∧
    (a.event jsn.toNat = some e → e.sent.find? (fun y => y.prior && !y.asked) = some x → a.pwr.ready = true → a.pwr.readyClk + 6547200000 ≤ a.tb.clk →
        Answers (exec (.relqTimeout t jsn) s) fun u => (u.lb x.link).cntUndel = satN 24 ((a.lb x.link).cntUndel + 1) ∧ u.links = a.links ∧ u.tb = a.tb) ∧
    (a.event jsn.toNat = some e → e.sent.find? (fun y => y.acked && !y.prior) = some x → e.st ≠ .restarted → e.qty = 0 → e.sought = true → x.late = false → x.tr = e.tk x.occ →
      0 ≤ qdist a.tb.q0 x.tr →
        Answers (exec (.class1Outcome t jsn) s) fun u =>
          (u.event jsn.toNat).map (fun y => (y.sent, y.nDel)) = some (e.sent.filter (fun y => y.occ ≠ x.occ), e.nDel + 1) ∧ u.links = a.links ∧ u.tb = a.tb)) ∧
  (∀ (t : Lapse) (s : State) (jsn : Word) (e : Event) (x : Sent) (l : Nat),
    let a := s.elapse t
    a.event jsn.toNat = some e → (a.linksOf e).find? (fun m => (a.lnk m).state == 3) = some l → e.sent.find? (fun y => y.prior && !y.asked) = some x → a.pwr.ready = true →
      Answers (exec (.relq t jsn) s) fun u =>
        (u.event jsn.toNat).map (fun y => y.sent) = some (e.sent.map fun y => if y.occ = x.occ then { y with asked := true } else y) ∧
        (u.lnk l).control = (a.lnk l).control ++ [lendiFrame 6 false 0 [word e.jsn, word x.occ]] ∧ u = (a.putLinks u.links).putSch u.sch)

/-- Taken as a new command on an enabled link with room, LENDI_SEND is ACCEPTED and its frame waits on the link; on a disabled link it is refused. SEND_RESENT 5 ms after the first copy marks it for one more; RESP, NO_RESPONSE after 10 ms and SEND_UNDELIVERED after 100 ms take it off the link, once the module is ready, and give its partner one record. A QREP from a link in UP gives the GATEWAY quantity its value, stamp and rate, against its sense with DIR set. The instants at which commands act, and what the rules leave open here, are the model's choice (log 1, 120, 121). -/
def Obligations.UnscheduledFrames : Prop :=
  (∀ (t : Lapse) (env : Env) (ps : List Word) (s : State),
    let a := s.elapse t
    let w := arg ps 0
    let l := fld w 47 45
    let x := a.lnk l
    (a.admits 0x0B1 2 0xFFE env ps = true → ps.length = 1 + fld w 31 26 → 1 ≤ fld w 31 26 → fld w 31 26 ≤ 32 → x.en = true → bit w 44 = false ∨ x.pair.isSome = true → x.failed = false →
      x.sends.length < 16 →
        Completes 0x0B1 0 [] env a (exec (.lendiSend t env ps) s) fun u =>
          (u.lnk l).sends = x.sends ++ [{ jsn := a.jrn.next, partner := env.partner, tag := fld w 15 0, pair := bit w 44, dest := fld w 43 32, payload := ps.drop 1, accClk := a.tb.clk }] ∧
          u.rest = (a.putLinks u.links).rest) ∧
    (a.admits 0x0B1 2 0xFFE env ps = true → ps.length = 1 + fld w 31 26 → 1 ≤ fld w 31 26 → fld w 31 26 ≤ 32 → x.en = false →
        Completes 0x0B1 0x33 [2] env a (exec (.lendiSend t env ps) s) fun u => u.rest = a.rest)) ∧
  (∀ (t : Lapse) (s : State) (jsn : Word) (o : Nat) (i : SendItem),
    let a := s.elapse t
    (a.sendOf jsn.toNat = some (o, i) → i.sentClk.any (fun c => decide (c + 3273600 ≤ a.tb.clk)) = true → i.resent = false → i.again = false →
        Answers (exec (.sendResent t jsn) s) fun u =>
          (u.lnk o).sends = (a.lnk o).sends.map (fun x => if x.jsn = i.jsn then { x with again := true } else x) ∧ u = a.putLinks u.links) ∧
    (a.sendOf jsn.toNat = some (o, i) → i.sentClk.any (fun c => decide (c + 6547200 ≤ a.tb.clk)) = true → a.pwr.ready = true → i.partner < 5 →
        Answers (exec (.noResponse t jsn) s) fun u =>
          (u.lnk o).sends = (a.lnk o).sends.filter (fun x => x.jsn ≠ i.jsn) ∧
          ToldOne i.partner a u ∧ u.rest = (a.putLinks u.links).rest) ∧
    (a.sendOf jsn.toNat = some (o, i) → i.sentClk = none → i.accClk + 65472000 ≤ a.tb.clk → a.pwr.ready = true → i.partner < 5 →
        Answers (exec (.sendUndelivered t jsn) s) fun u =>
          (u.lnk o).sends = (a.lnk o).sends.filter (fun x => x.jsn ≠ i.jsn) ∧
          ToldOne i.partner a u ∧ u.rest = (a.putLinks u.links).rest)) ∧
  (∀ (t : Lapse) (s : State) (l : Nat) (ws : List Word) (o : Nat) (i : SendItem),
    let a := s.elapse t
    l < 8 → (a.lnk l).state ≠ 0 → frameGood ws = true → frameType ws = 14 → a.sendOf (arg ws 1).toNat = some (o, i) → i.sentClk.isSome = true → a.pwr.ready = true → i.partner < 5 →
      Answers (exec (.resp t l ws) s) fun u =>
        (u.lnk o).sends = (a.lnk o).sends.filter (fun x => x.jsn ≠ i.jsn) ∧
        ToldOne i.partner a u ∧ u.rest = (a.putLinks u.links).rest) ∧
  (∀ (t : Lapse) (s : State) (l n : Nat) (ws : List Word),
    let a := s.elapse t
    let q := a.qty n
    let v := mkQ (arg ws 1) (arg ws 2)
    let r := sfld (arg ws 3) 47 0
    l < 8 → (a.lnk l).state = 3 → a.isOn 11 = true → frameGood ws = true → frameType ws = 12 → 8 ≤ n → n < 16 → kindOf q.cfg0 = 7 → fld q.cfg1 7 0 = fld (arg ws 0) 7 0 → fld q.cfg1 10 8 = l →
    q.fed = false ∨ ahead (mkQ (arg ws 4) (arg ws 5)) q.tu = true →
      Answers (exec (.qrep t l ws) s) fun u =>
        (u.qty n).vu = (if bit q.cfg0 42 then -v else v) ∧ (u.qty n).tu = mkQ (arg ws 4) (arg ws 5) ∧ (u.qty n).rate = sat 48 (if bit q.cfg0 42 then -r else r) ∧
        (u.qty n).valid = true ∧ u = (((a.putQs u.qs).putSch u.sch).putPorts u.ports).putFresh u.fresh)

/-- Taken as new commands of a supervisor: LENDI_CONFIG with EN takes a link out of OFF to TRAINING while D9 is on with its pins free and stores its asymmetry; without EN on an unused link the link is OFF. LENDI_PAIR of two links in UP at one gateway pairs them with each other; undone, neither has a pair; links at different gateways are refused and nothing changes. The instants at which commands act, and what the rules leave open here, are the model's choice (log 1, 119). -/
def Obligations.LendiConfiguration : Prop :=
  (∀ (t : Lapse) (env : Env) (ps : List Word) (s : State),
    let a := s.elapse t
    let l := fld (arg ps 0) 47 45
    let k := a.lnk l
    (a.admits 0x0B0 3 0xFFE env ps = true → ps.length = 2 → bit (arg ps 0) 44 = true →
        Completes 0x0B0 1 [] env a (exec (.lendiConfig t env ps) s) fun u =>
          (u.lnk l).en = true ∧ (u.lnk l).asym = sfld (arg ps 1) 47 16 ∧ (u.lnk l).state = (if k.state = 0 ∧ a.isOn 9 = true ∧ a.pinsLatched 9 = false then 1 else k.state) ∧
          (∀ m, m < 8 → m ≠ l → u.lnk m = a.lnk m) ∧ u.rest = (a.putLinks u.links).rest) ∧
    (a.admits 0x0B0 3 0xFFE env ps = true → ps.length = 2 → bit (arg ps 0) 44 = false → k.pair = none → a.sch.events = [] → (∀ n, n < 16 → kindOf (a.qty n).cfg0 ≠ 7) →
        Completes 0x0B0 1 [] env a (exec (.lendiConfig t env ps) s) fun u =>
          (u.lnk l).en = false ∧ (k.state < 4 → (u.lnk l).state = 0) ∧ (∀ m, m < 8 → m ≠ l → u.lnk m = a.lnk m))) ∧
  (∀ (t : Lapse) (env : Env) (ps0 : List Word) (s : State),
    let a := s.elapse t
    let ps := fixField 47 47 1 ps0
    let i := fld (arg ps 0) 46 44
    let j := fld (arg ps 0) 43 41
    (a.admits 0x0B2 3 0xFFE env ps = true → ps.length = 1 → i ≠ j → bit (arg ps 0) 47 = true → (a.lnk i).state = 3 → (a.lnk j).state = 3 → (a.lnk i).gw = (a.lnk j).gw →
      (a.lnk i).pair = none → (a.lnk j).pair = none →
        Completes 0x0B2 1 [] env a (exec (.lendiPair t env ps0) s) fun u =>
          u.lnk i = { a.lnk i with pair := some j, pairGw := (a.lnk i).gw } ∧ u.lnk j = { a.lnk j with pair := some i, pairGw := (a.lnk i).gw } ∧ u.rest = (a.putLinks u.links).rest) ∧
    (a.admits 0x0B2 3 0xFFE env ps = true → ps.length = 1 → i ≠ j → bit (arg ps 0) 47 = true → (a.lnk i).gw ≠ (a.lnk j).gw →
        Completes 0x0B2 0x33 [2] env a (exec (.lendiPair t env ps0) s) fun u => u.rest = a.rest)) ∧
  (∀ (t : Lapse) (env : Env) (ps0 : List Word) (s : State),
    let a := s.elapse t
    let ps := fixField 47 47 0 ps0
    let i := fld (arg ps 0) 46 44
    let j := fld (arg ps 0) 43 41
    a.admits 0x0B2 3 0xFFE env ps = true → ps.length = 1 → i ≠ j → bit (arg ps 0) 47 = false → (a.lnk i).pair = some j → a.sch.events = [] →
      Completes 0x0B2 1 [] env a (exec (.lendiUnpair t env ps0) s) fun u =>
        u.lnk i = { a.lnk i with pair := none, pairGw := 0 } ∧ u.lnk j = { a.lnk j with pair := none, pairGw := 0 } ∧ u.rest = (a.putLinks u.links).rest)

/-- From a partner with rights whose tag holds, on a port that is up, bound or not and whatever its SEQ: PING with at most 8 parameters is answered DONE with the SEQ it carried, Q0 CYC and FRC at its arrival and its parameters; with more, BAD_FRAME with REASON 0xF22. Neither has a journal entry, consumes a SEQ or changes anything but the partner's last reply and the port. On an SPI port the reply is the next packet queued, on an Ethernet port it leaves in segments to the packet's source. -/
def Obligations.PingAnswered : Prop :=
  ∀ (t : Lapse) (env : Env) (ps : List Word) (s : State),
    let a := s.elapse t
    let prt := a.part env.partner
    let now := [cyc a.tb.q0, frc a.tb.q0]
    let reply := fun (ws : List Word) => packet true false false 0x001 env.partner env.seq prt.outKey ws
    (a.portUp env.port = true → a.pwr.ready = true → env.partner ≤ 4 → 0 < prt.rights → authFails prt (pktOf 0x001 env ps a) = none → ps.length ≤ 8 →
        Answers (exec (.ping t env ps) s) fun u =>
          Replied env (reply (replyWord .done prt.credMax 0 :: 0 :: (now ++ ps))) a u ∧
          u.part env.partner = { prt with lastReply := some (env.seq.toNat, prt.credMax) } ∧ (∀ i, i < 5 → i ≠ env.partner → u.part i = a.part i) ∧
          u = ((a.putParts u.parts).putHost u.host).putWire u.wire) ∧
    (a.portUp env.port = true → a.pwr.ready = true → env.partner ≤ 4 → 0 < prt.rights → authFails prt (pktOf 0x001 env ps a) = none → 8 < ps.length → ps.length ≤ 2048 →
        Answers (exec (.ping t env ps) s) fun u =>
          Replied env (reply [replyWord .badFrame prt.credMax 0, 0, 0xF22]) a u ∧
          u.part env.partner = { prt with lastReply := some (env.seq.toNat, prt.credMax) } ∧ (∀ i, i < 5 → i ≠ env.partner → u.part i = a.part i) ∧
          u = ((a.putParts u.parts).putHost u.host).putWire u.wire)

/-- A HELLO with a nonce above the last one, from a partner with rights whose tag holds, on a port that is up and, where it is an SPI port, bound to no other partner: the partner is bound to the port and source, the nonce kept, no SEQ consumed, and, JSN_LOW apart, sending restarts at the oldest unacknowledged record, which on an SPI port stand behind the reply. With a nonce not above it nothing changes but the reply. GOODBYE as a new command is DONE, and the partner is unbound once the reply has left: at once on an Ethernet port, with the reply's last word read on an SPI port. The instants at which commands act, and what the rules leave open here, are the model's choice (log 1, 13, 17, 18). -/
def Obligations.HelloGoodbye : Prop :=
  (∀ (t : Lapse) (env : Env) (s : State),
    let a := s.elapse t
    let prt := a.part env.partner
    (a.portUp env.port = true → a.pwr.ready = true → env.partner ≤ 4 → 0 < prt.rights → authFails prt (pktOf 0x002 env [] a) = none →
      (env.port < 2 ∨ (∀ q, q < 5 → q ≠ env.partner → prevPort (a.part q) ≠ env.port)) → prt.hnonce < env.seq.toNat →
        Answers (exec (.hello t env []) s) fun u =>
          (u.part env.partner).bind = some ⟨env.port, if env.port < 2 then env.ep else .spi, env.mac⟩ ∧
          (u.part env.partner).hnonce = env.seq.toNat ∧ (u.part env.partner).lseq = prt.lseq ∧ u.rest = a.rest ∧
          (a.jsnFar → (u.part env.partner).ev = { prt.ev with cursor := prt.ev.nextEsn } ∧
            (2 ≤ env.port → (u.spi env.port).tx.length = (a.spi env.port).tx.length + 1 + (prt.ev.recs.filter fun r => decide (prt.ev.ackFirst ≤ r.esn)).length))) ∧
    (a.portUp env.port = true → a.pwr.ready = true → env.partner ≤ 4 → 0 < prt.rights → authFails prt (pktOf 0x002 env [] a) = none → env.seq.toNat ≤ prt.hnonce →
        Answers (exec (.hello t env []) s) fun u =>
          (u.part env.partner).bind = prt.bind ∧ (u.part env.partner).hnonce = prt.hnonce ∧ u.jrn = a.jrn ∧ u.rest = a.rest)) ∧
  (∀ (t : Lapse) (env : Env) (ps : List Word) (s : State),
    let a := s.elapse t
    a.admits 0x003 1 0xFFE env ps = true → ps = [] →
      Completes 0x003 1 [] env a (exec (.goodbye t env ps) s) fun u =>
        (env.port < 2 → (u.part env.partner).bind = none) ∧ (2 ≤ env.port → (u.part env.partner).bind = some ⟨env.port, .spi, env.mac⟩) ∧
        (u.part env.partner).rights = (a.part env.partner).rights ∧ u.rest = a.rest) ∧
  (∀ (t : Lapse) (s : State) (h : Nat) (idleHigh : Bool) (cw : Word) (o : OutPkt) (rest : List OutPkt),
    let a := s.elapse t
    h = 2 ∨ h = 3 → a.portUp h = true → cwBad cw = false → fld cw 47 46 = 2 → (a.spi h).tx = o :: rest → o.isReply = true → fld (arg o.words 0) 31 20 = 3 → fld (arg o.words 2) 47 36 = 1 →
    o.words.length ≤ o.read + fld cw 43 32 → (a.part o.partner).bind.any (fun b => b.port == h) = true →
      Answers (exec (.spiRead t h idleHigh cw) s) fun u =>
        (u.part o.partner).bind = none ∧ (u.spi h).tx = rest ∧ u.rest = a.rest)

/-- Taken as a new command, EVENT_ACK with an ESN below NEXT_ESN is DONE with the oldest unacknowledged ESN and NEXT_ESN; the records up to it are gone and the later ones stay; at or below the present acknowledgement the stream is unchanged. An ESN at or above NEXT_ESN is refused BAD_PARAM. An OVERFLOW range that closes by it (R318) forms one more record. The stream is stated JSN_LOW apart. -/
def Obligations.EventAckRule : Prop :=
  ∀ (t : Lapse) (env : Env) (ps : List Word) (s : State),
    let a := s.elapse t
    let ev := (a.part env.partner).ev
    let x := (arg ps 0).toNat
    let left := ev.recs.filter fun r => decide (x < r.esn)
    let more := if ev.kept.isSome = true ∧ left.length ≤ 49152 then 1 else 0
    (a.admits 0x0E2 1 0xFFE env ps = true → ps.length = 1 → ev.ackFirst ≤ x → x < ev.nextEsn →
        Ends 0x0E2 1 env a (exec (.eventAck t env ps) s) fun u =>
          (u.part env.partner).ev.ackFirst = x + 1 ∧ u.rest = a.rest ∧
          (a.jsnFar → Shows 0x0E2 1 [word (x + 1), word (ev.nextEsn + more)] env a u ∧ (u.part env.partner).ev.nextEsn = ev.nextEsn + more ∧ (more = 0 → (u.part env.partner).ev.recs = left))) ∧
    (a.admits 0x0E2 1 0xFFE env ps = true → ps.length = 1 → x < ev.ackFirst → x < ev.nextEsn →
        Completes 0x0E2 1 [word ev.ackFirst, word ev.nextEsn] env a (exec (.eventAck t env ps) s) fun u =>
          (a.jsnFar → (u.part env.partner).ev = ev) ∧ u.rest = a.rest) ∧
    (a.admits 0x0E2 1 0xFFE env ps = true → ps.length = 1 → ev.nextEsn ≤ x →
        Completes 0x0E2 0x23 [0] env a (exec (.eventAck t env ps) s) fun u =>
          (a.jsnFar → (u.part env.partner).ev = ev) ∧ u.rest = a.rest)

/-- Taken as a new command, EVENT_RESYNC from the oldest unacknowledged record on, up to NEXT_ESN, with no OVERFLOW range open, is DONE with the oldest unacknowledged ESN and NEXT_ESN; the records below it are gone, and those from it on are sent again (on an SPI port they stand before the reply). Below the oldest unacknowledged record it is refused NOT_PERMITTED with REASON 1, above NEXT_ESN BAD_PARAM, and the stream is unchanged. The stream is stated JSN_LOW apart. -/
def Obligations.EventResyncRule : Prop :=
  ∀ (t : Lapse) (env : Env) (ps : List Word) (s : State),
    let a := s.elapse t
    let ev := (a.part env.partner).ev
    let x := (arg ps 0).toNat
    let left := ev.recs.filter fun r => decide (x ≤ r.esn)
    (a.admits 0x0E3 1 0xFFE env ps = true → ps.length = 1 → 0 < x → ev.ackFirst ≤ x → x ≤ ev.nextEsn → ev.kept = none → env.port < 4 →
      (∀ r, r ∈ ev.recs → ev.ackFirst ≤ r.esn) →
        Completes 0x0E3 1 [word x, word ev.nextEsn] env a (exec (.eventResync t env ps) s) fun u =>
          (u.part env.partner).ev.ackFirst = x ∧ u.rest = a.rest ∧
          (a.jsnFar → (u.part env.partner).ev.recs = left ∧ (u.part env.partner).ev.nextEsn = ev.nextEsn ∧ (u.part env.partner).ev.cursor = ev.nextEsn ∧
            (2 ≤ env.port → (u.spi env.port).tx.length = (a.spi env.port).tx.length + left.length + 1))) ∧
    (a.admits 0x0E3 1 0xFFE env ps = true → ps.length = 1 → x < ev.ackFirst → x ≤ ev.nextEsn →
        Completes 0x0E3 0x33 [1] env a (exec (.eventResync t env ps) s) fun u =>
          (a.jsnFar → (u.part env.partner).ev = ev) ∧ u.rest = a.rest) ∧
    (a.admits 0x0E3 1 0xFFE env ps = true → ps.length = 1 → ev.nextEsn < x →
        Completes 0x0E3 0x23 [0] env a (exec (.eventResync t env ps) s) fun u =>
          (a.jsnFar → (u.part env.partner).ev = ev) ∧ u.rest = a.rest)

/-- For SCHED_ADD, MODE_SET and QTY_CONFIG alike, none of the partner's packets waiting in the parse queue: on a port that is down nothing happens; from a partner without rights, or from an unbound one, or with a SEQ past LSEQ + 1 (counted), or with a tag but no key (counted), no SEQ is consumed, the journal takes nothing and everything but the reply is as it was; a SEQ at or below LSEQ whose reply is kept is answered DUP with the original words, and nothing is executed. The instants at which commands act, and what the rules leave open here, are the model's choice (log 1, 12). -/
def Obligations.RefusedPackets : Prop :=
  (∀ (t : Lapse) (env : Env) (ps : List Word) (s : State),
    let a := s.elapse t
    let prt := a.part env.partner
    let k := pktOf 0x090 env ps a
    (a.portUp env.port = false →
        exec (.schedAdd t env ps) s = .next a ∧ exec (.modeSet t env ps) s = .next a ∧ exec (.qtyConfig t env ps) s = .next a) ∧
    (a.portUp env.port = true → a.pwr.ready = true → env.partner ≤ 4 → env.seq ≠ 0 → ps.length ≤ 2048 →
      prt.rights = 0 ∨ (prt.authReq = false ∧ env.tag = none ∧ boundHere prt.bind k = false) →
        Answers (exec (.schedAdd t env ps) s) (fun u => Turned env prt a u) ∧ Answers (exec (.modeSet t env ps) s) (fun u => Turned env prt a u) ∧ Answers (exec (.qtyConfig t env ps) s) (fun u => Turned env prt a u)) ∧
    (a.portUp env.port = true → a.pwr.ready = true → env.partner ≤ 4 → env.seq ≠ 0 → ps.length ≤ 2048 → 0 < prt.rights → prt.key = none → env.tag.isSome = true →
        Answers (exec (.schedAdd t env ps) s) (fun u => Turned env { prt with cntAuth := satN 16 (prt.cntAuth + 1) } a u) ∧ Answers (exec (.modeSet t env ps) s) (fun u => Turned env { prt with cntAuth := satN 16 (prt.cntAuth + 1) } a u) ∧ Answers (exec (.qtyConfig t env ps) s) (fun u => Turned env { prt with cntAuth := satN 16 (prt.cntAuth + 1) } a u)) ∧
    (a.portUp env.port = true → a.pwr.ready = true → env.partner ≤ 4 → ps.length ≤ 2048 → 0 < prt.rights → prt.authReq = false → env.tag = none → boundHere prt.bind k = true → (∀ w, w ∈ a.host.parse → w.k.partner ≠ env.partner) →
      (a.ingress env.partner).2.2 + k.words ≤ 131072 → prt.lseq + 1 < env.seq.toNat → env.seq.toNat ≤ prt.permitted →
        Answers (exec (.schedAdd t env ps) s) (fun u => Turned env { prt with cntGap := satN 16 (prt.cntGap + 1) } a u) ∧ Answers (exec (.modeSet t env ps) s) (fun u => Turned env { prt with cntGap := satN 16 (prt.cntGap + 1) } a u) ∧ Answers (exec (.qtyConfig t env ps) s) (fun u => Turned env { prt with cntGap := satN 16 (prt.cntGap + 1) } a u))) ∧
  (∀ (t : Lapse) (env : Env) (ps : List Word) (s : State) (r : Replay),
    let a := s.elapse t
    let prt := a.part env.partner
    let k := pktOf 0x090 env ps a
    let old := (a.spi env.port).tx.map fun p => p.words
    let dup := fun (code : Nat) => [packet true false false code env.partner env.seq none (replyWord .dup prt.credMax r.status :: word r.jsn :: r.words)]
    a.portUp env.port = true → a.pwr.ready = true → env.partner ≤ 4 → env.seq ≠ 0 → ps.length ≤ 2048 → 0 < prt.rights → prt.authReq = false → env.tag = none → boundHere prt.bind k = true → (∀ w, w ∈ a.host.parse → w.k.partner ≠ env.partner) →
    (a.ingress env.partner).2.1 < 16 → (a.ingress env.partner).2.2 + k.words ≤ 131072 → env.seq.toNat ≤ prt.lseq → prt.lseq ≤ env.seq.toNat + 16383 →
    tget none (env.seq.toNat % 16384) prt.replays = some r → r.seq = env.seq.toNat →
      Answers (exec (.schedAdd t env ps) s) (fun u => Turned env prt a u ∧ (2 ≤ env.port → (u.spi env.port).tx.map (fun p => p.words) = old ++ dup 0x090)) ∧ Answers (exec (.modeSet t env ps) s) (fun u => Turned env prt a u ∧ (2 ≤ env.port → (u.spi env.port).tx.map (fun p => p.words) = old ++ dup 0x020)) ∧ Answers (exec (.qtyConfig t env ps) s) (fun u => Turned env prt a u ∧ (2 ≤ env.port → (u.spi env.port).tx.map (fun p => p.words) = old ++ dup 0x080)))

/-- Taken as new commands: REG_READ of the RC counter of releases returns it and clears it, of the RW register SCH_PENDMAX returns it and changes nothing, of no word is BAD_PARAM. REG_WRITE of SCH_PENDMAX by a supervisor in range takes its field, out of range is refused with the address, by an operator is NOT_PERMITTED; of an RO register it is DONE without effect; of the W1C latch TB's clock fault clears the bits written as 1. REG_MODIFY writes the masked bits and answers old and new value. The instants at which commands act, and what the rules leave open here, are the model's choice (log 1, 65). -/
def Obligations.RegisterAccess : Prop :=
  (∀ (t : Lapse) (env : Env) (ps : List Word) (s : State),
    let a := s.elapse t
    (a.admits 0x010 1 0xFFE env ps = true → ps = [0x004003001000#48] → a.isOn 11 = true →
        Completes 0x010 1 [word a.sch.cntRel] env a (exec (.regRead t env ps) s) fun u =>
          u.sch = { a.sch with cntRel := 0 } ∧ u.rest = (a.putSch u.sch).rest) ∧
    (a.admits 0x010 1 0xFFE env ps = true → ps = [0x004000001000#48] →
        Completes 0x010 1 [pack [put 47 28 a.sch.pendMax]] env a (exec (.regRead t env ps) s) fun u => u.rest = a.rest) ∧
    (a.admits 0x010 1 0xFFE env ps = true → ps.length = 1 → fld (arg ps 0) 23 12 = 0 →
        Completes 0x010 0x23 [0] env a (exec (.regRead t env ps) s) fun u => u.rest = a.rest)) ∧
  (∀ (t : Lapse) (env : Env) (v : Word) (s : State),
    let a := s.elapse t
    (a.admits 0x011 3 0xFFE env [0x004000001000#48, v] = true → fld v 47 28 ≤ 983040 →
        Completes 0x011 1 [] env a (exec (.regWrite t env [0x004000001000#48, v]) s) fun u =>
          u.sch = { a.sch with pendMax := fld v 47 28 } ∧ u.rest = (a.putSch u.sch).rest) ∧
    (a.admits 0x011 3 0xFFE env [0x004000001000#48, v] = true → 983040 < fld v 47 28 →
        Completes 0x011 0x23 [regReason 0x4000 0] env a (exec (.regWrite t env [0x004000001000#48, v]) s) fun u => u.rest = a.rest) ∧
    (a.admits 0x011 2 0xFFE env [0x004000001000#48, v] = true → (a.part env.partner).rights = 2 →
        Completes 0x011 0x33 [regReason 0x4000 0] env a (exec (.regWrite t env [0x004000001000#48, v]) s) fun u => u.rest = a.rest) ∧
    (a.admits 0x011 2 0xFFE env [0x004001001000#48, v] = true →
        Completes 0x011 1 [] env a (exec (.regWrite t env [0x004001001000#48, v]) s) fun u => u.rest = a.rest) ∧
    (a.admits 0x011 2 0xFFE env [0x002002001000#48, v] = true → a.isOn 11 = true →
        Completes 0x011 1 [] env a (exec (.regWrite t env [0x002002001000#48, v]) s) fun u =>
          u.clk = { a.clk with fault := clearBits a.clk.fault v.toNat } ∧ u.rest = (a.putClk u.clk).rest)) ∧
  (∀ (t : Lapse) (env : Env) (m v : Word) (s : State),
    let a := s.elapse t
    let old := pack [put 47 28 a.sch.pendMax]
    let new := (old &&& ~~~m) ||| (v &&& m)
    (a.admits 0x012 3 0xFFE env [0x004000000000#48, m, v] = true → fld new 47 28 ≤ 983040 → a.isOn 11 = true →
        Completes 0x012 1 [old, new] env a (exec (.regModify t env [0x004000000000#48, m, v]) s) fun u =>
          u.sch = { a.sch with pendMax := fld new 47 28 } ∧ u.rest = (a.putSch u.sch).rest) ∧
    (a.admits 0x012 2 0xFFE env [0x004001000000#48, m, v] = true →
        Completes 0x012 0x33 [regReason 0x4001 0] env a (exec (.regModify t env [0x004001000000#48, m, v]) s) fun u => u.rest = a.rest))

/-- Written by a path whose copy is STAGED and whose words are in range: TB_LEAP_COMMIT puts the leap words in force with SRC PARTNER and keeps them in D0's copies and the TIME section; QCFG0 restarts its quantity, or on Q0 changes its word alone; QSET_COMMIT leaves its preset for the next counter clock, at which it becomes the value; OUT_COMMIT leaves the new configuration waiting for its effect instant; RTC_SET_COMMIT waits for the RTC tick, from a packet and through S0; each empties the path's copy and makes other copies LOST. An EMPTY copy makes QCFG0 no commit: the write is DONE and changes nothing. A LOST copy refuses each of these commits with 0xF41 and becomes EMPTY. BK_CLEAR is written through S0 alone. The instants at which commands act, and what the rules leave open here, are the model's choice (log 1, 57, 58). -/
def Obligations.StagedCommits : Prop :=
  (∀ (t : Lapse) (env : Env) (s : State) (ws : Tab (Option Word)),
    let a := s.elapse t
    let p := env.partner
    let w := a.stagedLeap p
    (a.admits 0x011 3 0xFFE env [0x003002001000#48, 1] = true → a.copyOf p .leap = some (.staged ws) → leapBad a.tb (leapNowOf w) (leapNextOf w) (a.stagedLeapAt p) = false →
        Completes 0x011 1 [] env a (exec (.tbLeapCommit t (.packet env) 1) s) fun u =>
          u.tb = { a.tb with leapNow := leapNowOf w, leapNext := leapNextOf w, leapLock := bit w 29, leapAt := a.stagedLeapAt p, leapSrc := 1, leapPend := decide (leapNextOf w ≠ leapNowOf w) } ∧
          u.rtc = { a.rtc with leapNow := u.tb.leapNow, leapNext := u.tb.leapNext, leapAt := u.tb.leapAt, keepOld := u.rtc.keepOld, gens := u.rtc.gens
                               keep := { a.rtc.keep with time := some ⟨u.tb.leapNow, u.tb.leapNext, 1, u.tb.leapLock, u.tb.leapPend, u.tb.leapAt⟩ } } ∧
          Committed p .leap a u ∧ u.rest = (((a.putTb u.tb).putRtc u.rtc).putStage u.stage).rest) ∧
    (a.admits 0x011 3 0xFFE env [0x003002001000#48, 1] = true → a.copyOf p .leap = some .lost →
        Completes 0x011 0x33 [regReason 0x3002 0xF41] env a (exec (.tbLeapCommit t (.packet env) 1) s) fun u => Emptied p .leap a u)) ∧
  (∀ (t : Lapse) (env : Env) (n : Nat) (v : Word) (s : State) (ws : Tab (Option Word)),
    let a := s.elapse t
    let p := env.partner
    let w := fun i => a.stagedQcfg p n i
    (n < 16 → a.admits 0x011 2 0xFFE env [pack [put 47 24 (0x3100 + 16 * n), put 23 12 1], v] = true → a.copyOf p (.qcfg n) = none →
        Completes 0x011 1 [] env a (exec (.qcfg0 t (.packet env) n v) s) fun u => u.rest = a.rest) ∧
    (n < 16 → a.admits 0x011 2 0xFFE env [pack [put 47 24 (0x3100 + 16 * n), put 23 12 1], v] = true → a.copyOf p (.qcfg n) = some .lost →
        Completes 0x011 0x33 [regReason (0x3100 + 16 * n) 0xF41] env a (exec (.qcfg0 t (.packet env) n v) s) fun u => Emptied p (.qcfg n) a u) ∧
    (n < 16 → a.admits 0x011 2 0xFFE env [pack [put 47 24 (0x3100 + 16 * n), put 23 12 1], v] = true → a.copyOf p (.qcfg n) = some (.staged ws) → a.qcfgHeld n = false →
      a.qcfgBad n v (w 1) (w 2) = false →
        Completes 0x011 1 [] env a (exec (.qcfg0 t (.packet env) n v) s) fun u =>
          (u.qty n).cfg0 = maskW qcfg0Mask v ∧ (n = 0 → u.qty 0 = { a.qty 0 with cfg0 := maskW qcfg0Mask v }) ∧
          (n ≠ 0 → (u.qty n).cfg1 = maskW (qcfgMask (kindOf v) 1) (w 1) ∧ (u.qty n).fed = false ∧ (u.qty n).valid = false ∧ (u.qty n).rate = 0 ∧ (kindOf v ≠ 6 → (u.qty n).vu = 0)) ∧
          Committed p (.qcfg n) a u ∧ (∀ m, m < 16 → m ≠ n → u.qty m = a.qty m) ∧ u.tb = a.tb ∧ u.sch = a.sch) ∧
    (n < 16 → a.admits 0x011 2 0xFFE env [pack [put 47 24 (0x3107 + 16 * n), put 23 12 1], 1] = true → a.copyOf p (.qset n) = some (.staged ws) → a.qsetHeld n = false →
        Completes 0x011 1 [] env a (exec (.qsetCommit t (.packet env) n 1) s) fun u =>
          (u.qty n).preset = some (mkQ ((tget none 0 ws).getD (cyc (a.value n))) ((tget none 1 ws).getD (frc (a.value n)))) ∧
          u.qty n = { a.qty n with preset := (u.qty n).preset, ssiOfs := (u.qty n).ssiOfs } ∧
          Committed p (.qset n) a u ∧ (∀ m, m < 16 → m ≠ n → u.qty m = a.qty m) ∧ u.rest = ((a.putQs u.qs).putStage u.stage).rest) ∧
    (n < 16 → a.admits 0x011 2 0xFFE env [pack [put 47 24 (0x3107 + 16 * n), put 23 12 1], 1] = true → a.copyOf p (.qset n) = some .lost →
        Completes 0x011 0x33 [regReason (0x3107 + 16 * n) 0xF41] env a (exec (.qsetCommit t (.packet env) n 1) s) fun u => Emptied p (.qset n) a u) ∧
    (n < 8 → a.isOn 11 = true → a.admits 0x011 2 0xFFE env [pack [put 47 24 (0x2104 + 16 * n), put 23 12 1], 1] = true → a.copyOf p (.out n) = some (.staged ws) →
      a.outBad n (a.stagedOut p n) = false → a.outHeld n (a.stagedOut p n) = false →
        Completes 0x011 1 [] env a (exec (.outCommit t (.packet env) n 1) s) fun u =>
          u.out n = { a.out n with wait := some ⟨a.stagedOut p n, a.effectAt n (a.stagedOut p n), a.jrn.next⟩ } ∧
          Committed p (.out n) a u ∧ (∀ m, m < 8 → m ≠ n → u.out m = a.out m) ∧ u.rest = (((a.putOuts u.outs).putStage u.stage).putFresh u.fresh).rest) ∧
    (n < 8 → a.admits 0x011 2 0xFFE env [pack [put 47 24 (0x2104 + 16 * n), put 23 12 1], 1] = true → a.copyOf p (.out n) = some .lost →
        Completes 0x011 0x33 [regReason (0x2104 + 16 * n) 0xF41] env a (exec (.outCommit t (.packet env) n 1) s) fun u => Emptied p (.out n) a u)) ∧
  (∀ (s : State) (n : Nat) (v : Qval),
    s.pending = [] → (s.qty n).preset = some v → kindOf (s.qty n).cfg0 ≠ 6 →
      Answers (step s) fun u => (u.qty n).vu = v ∧ (u.qty n).tu = u.tb.q0 ∧ (u.qty n).count = 0 ∧ (u.qty n).preset = none ∧ (u.qty n).rate = (s.qty n).rate) ∧
  (∀ (t : Lapse) (env : Env) (s : State) (ws : Tab (Option Word)),
    let a := s.elapse t
    let set := RtcSet.value ((tget none 0 ws).map BitVec.toNat) ((tget none 1 ws).map fun w => fld w 47 32)
    (a.admits 0x011 3 0xFFE env [0x005005001000#48, 1] = true → a.copyOf env.partner .rtc = some (.staged ws) →
        Completes 0x011 1 [] env a (exec (.rtcSetCommit t (.packet env) 1) s) fun u =>
          u.rtc = { a.rtc with setNext := some set } ∧ Committed env.partner .rtc a u ∧ u.rest = ((a.putRtc u.rtc).putStage u.stage).rest) ∧
    (a.admits 0x011 3 0xFFE env [0x005005001000#48, 1] = true → a.copyOf env.partner .rtc = some .lost →
        Completes 0x011 0x33 [regReason 0x5005 0xF41] env a (exec (.rtcSetCommit t (.packet env) 1) s) fun u => Emptied env.partner .rtc a u) ∧
    (a.s0Up = true → a.host.s0.lock = false → a.copyOf 5 .rtc = some (.staged ws) →
        Answers (exec (.rtcSetCommit t .s0 1) s) fun u =>
          u.rtc = { a.rtc with setNext := some set } ∧ Committed 5 .rtc a u ∧ u.wire = a.wire ++ [.s0Ack [true]] ∧ u.jrn = a.jrn ∧ u.rest = ((a.putRtc u.rtc).putStage u.stage).rest) ∧
    (a.s0Up = true → a.host.s0.lock = false →
        Answers (exec (.bkClear t .s0 1) s) fun u =>
          u.rtc = { a.rtc with clrNext := true } ∧ u.wire = a.wire ++ [.s0Ack [true]] ∧ u.jrn = a.jrn ∧ u.parts = a.parts ∧ u.rest = (a.putRtc u.rtc).rest) ∧
    (a.admits 0x011 2 0xFFE env [0x005027001000#48, 1] = true →
        Completes 0x011 0x33 [regReason 0x5027 0] env a (exec (.bkClear t (.packet env) 1) s) fun u => u.rest = a.rest))

/-- ETH_COMMIT puts the staged page in force and unbinds the partners bound over UDP where UDP_PORT changes. PART_KEY_COMMIT with 1 stores the staged key, with 2 erases it unless AUTH_REQ is set. PART_SEQRESET of an unbound partner sets LSEQ and the HELLO nonce to 0 and empties its replay window; of a bound one it is refused. GALE_RSEL selects a report slot for its path. An accepted PLL-T FREQ is taken, and a running PLL-T searches again. The instants at which commands act, and what the rules leave open here, are the model's choice (log 1, 59, 60, 63). -/
def Obligations.PagesAndKeys : Prop :=
  (∀ (t : Lapse) (env : Env) (h : Nat) (s : State) (ws : Tab (Option Word)),
    let a := s.elapse t
    let w := fun i => a.stagedOr env.partner (.eth h) i ((a.eth h).page.word_ i)
    h < 2 → a.admits 0x011 3 0xFFE env [pack [put 47 24 (0x1C005 + 32 * h), put 23 12 1], 1] = true → a.copyOf env.partner (.eth h) = some (.staged ws) →
      Completes 0x011 1 [] env a (exec (.ethCommit t (.packet env) h 1) s) fun u =>
        (u.eth h).page = { cfg := maskW (2 ^ 48 - 2 ^ 12) (w 0), ip4 := maskW (2 ^ 38 - 1) (w 1), ip6a := w 2, ip6b := w 3, ip6c := maskW (2 ^ 48 - 2 ^ 8) (w 4) } ∧
        Committed env.partner (.eth h) a u ∧ u.rest = ((a.putStage u.stage).putFresh u.fresh).rest ∧
        (fld (w 0) 27 12 ≠ fld (a.eth h).page.cfg 27 12 → ∀ q, q < 5 → q ≠ env.partner → (a.part q).bind.any (fun b => b.port == h && (match b.ep with | .udp4 _ _ => true | .udp6 _ _ => true | _ => false)) = true → (u.part q).bind = none)) ∧
  (∀ (t : Lapse) (env : Env) (p : Nat) (s : State) (ws : Tab (Option Word)),
    let a := s.elapse t
    let x := a.part p
    let now := fun i => match x.key with | some k => keyWord k i | none => 0
    (p < 5 → a.admits 0x011 3 0xFFE env [pack [put 47 24 (0x1C107 + 16 * p), put 23 12 1], 1] = true → a.copyOf env.partner (.key p) = some (.staged ws) →
        Completes 0x011 1 [] env a (exec (.partKeyCommit t (.packet env) p 1) s) fun u =>
          (u.part p).key = some (keyOf fun i => (tget none i ws).getD (now i)) ∧ Committed env.partner (.key p) a u ∧ (u.part p).authReq = x.authReq ∧ (∀ q, q < 5 → q ≠ p → (u.part q).key = (a.part q).key) ∧ u.rest = (a.putStage u.stage).rest) ∧
    (p < 5 → a.admits 0x011 3 0xFFE env [pack [put 47 24 (0x1C107 + 16 * p), put 23 12 1], 2] = true → x.authReq = false →
        Completes 0x011 1 [] env a (exec (.partKeyErase t (.packet env) p) s) fun u =>
          (u.part p).key = none ∧ (∀ q, q < 5 → q ≠ p → (u.part q).key = (a.part q).key) ∧ u.rest = a.rest) ∧
    (p < 5 → a.admits 0x011 3 0xFFE env [pack [put 47 24 (0x1C107 + 16 * p), put 23 12 1], 2] = true → x.authReq = true →
        Completes 0x011 0x33 [regReason (0x1C107 + 16 * p) 0] env a (exec (.partKeyErase t (.packet env) p) s) fun u =>
          (u.part p).key = x.key ∧ u.rest = a.rest) ∧
    (p < 5 → a.admits 0x011 3 0xFFE env [pack [put 47 24 (0x1C108 + 16 * p), put 23 12 1], 1] = true → x.bind = none →
        Completes 0x011 1 [] env a (exec (.partSeqreset t (.packet env) p 1) s) fun u =>
          (u.part p).lseq = 0 ∧ (u.part p).hnonce = 0 ∧ (u.part p).replays = [] ∧ (u.part p).bind = none ∧ u.rest = a.rest) ∧
    (p < 5 → a.admits 0x011 3 0xFFE env [pack [put 47 24 (0x1C108 + 16 * p), put 23 12 1], 1] = true → x.bind.isSome = true → p ≠ env.partner →
        Completes 0x011 0x33 [regReason (0x1C108 + 16 * p) 0] env a (exec (.partSeqreset t (.packet env) p 1) s) fun u =>
          (u.part p).lseq = x.lseq ∧ (u.part p).hnonce = x.hnonce ∧ (u.part p).replays = x.replays ∧ u.rest = a.rest)) ∧
  (∀ (t : Lapse) (env : Env) (v : Word) (s : State),
    let a := s.elapse t
    (a.admits 0x011 2 0xFFE env [0x008010001000#48, v] = true →
        Completes 0x011 1 [] env a (exec (.galeRsel t (.packet env) v) s) fun u =>
          tget 0 env.partner u.gale.rsel = fld v 11 0 ∧ tget [] env.partner u.gale.windows = (match tget none (fld v 11 0) a.gale.reps with | some r => r.ws | none => []) ∧
          u.rest = (a.putGale u.gale).rest) ∧
    (a.admits 0x011 3 0xFFE env [0x002028001000#48, v] = true → a.pllFreqRefusal v = none →
        Completes 0x011 1 [] env a (exec (.pllFreq t (.packet env) v) s) fun u =>
          u.clk.pllT.freq = maskW (2 ^ 46 - 1) v ∧ (a.isOn 11 = true → a.clk.pllT.state ≠ 0 → u.clk.pllT.state = 1) ∧
          (a.isOn 11 = false ∨ a.clk.pllT.state = 0 → u.outs = a.outs ∧ u.clk.pllT.state = a.clk.pllT.state) ∧ u.clk.pllF = a.clk.pllF ∧ u.tb = a.tb ∧ u.qs = a.qs) ∧
    (a.admits 0x011 3 0xFFE env [0x002028001000#48, v] = true → a.pllFreqRefusal v = some .badParam →
        Completes 0x011 0x23 [regReason 0x2028 0] env a (exec (.pllFreq t (.packet env) v) s) fun u => u.rest = a.rest))

/-- A read of QSTAT to QTS_FRC on a path whose shadow is closed freezes the seven words under the next FRZ_SEQ and returns the word asked for; on an open one it returns the frozen word; QEND answers FRZ_SEQ and closes. RTC_SEC opens the RTC's shadow with the words of one instant, RTC_FRAC returns the frozen fraction and closes it. After 1 ms an open shadow closes by itself and is marked. The instants at which commands act, and what the rules leave open here, are the model's choice (log 1, 56). -/
def Obligations.ReadGroups : Prop :=
  (∀ (t : Lapse) (n off : Nat) (s : State),
    let a := s.elapse t
    let h := a.shadow 5 n
    let seq := (h.seq + 1) % 256
    (n < 16 → off < 7 → a.s0Up = true → a.isOn 11 = true → h.isOpen = false →
        Answers (exec (.qstatGroupOpen t .s0 n off) s) fun u =>
          u.wire = [.s0 [(a.qGroup n seq).getD off 0]] ∧ u.shadow 5 n = { h with isOpen := true, seq := seq, ws := a.qGroup n seq, since := a.tb.clk } ∧
          (∀ k, k < 96 → k ≠ 80 + n → u.shadow (k / 16) (k % 16) = a.shadow (k / 16) (k % 16)) ∧ u.qs = a.qs ∧ u.tb = a.tb ∧ u.jrn = a.jrn) ∧
    (n < 16 → off < 7 → a.s0Up = true → a.isOn 11 = true → h.isOpen = true → a.tb.clk < h.since + 654720 →
        Answers (exec (.qstatGroupOpen t .s0 n off) s) fun u => u.wire = [.s0 [h.ws.getD off 0]] ∧ u.shadow 5 n = h ∧ u.qs = a.qs ∧ u.tb = a.tb ∧ u.jrn = a.jrn) ∧
    (n < 16 → a.s0Up = true → a.isOn 11 = true → h.isOpen = true → a.tb.clk < h.since + 654720 →
        Answers (exec (.qend t .s0 n) s) fun u =>
          u.wire = [.s0 [pack [put 47 40 h.seq, putB 39 h.expired]]] ∧ u.shadow 5 n = { h with isOpen := false, expired := false } ∧ u.qs = a.qs ∧ u.tb = a.tb ∧ u.jrn = a.jrn)) ∧
  (∀ (t : Lapse) (env : Env) (n off : Nat) (s : State),
    let a := s.elapse t
    let h := a.shadow env.partner n
    let seq := (h.seq + 1) % 256
    n < 16 → off < 7 → a.admits 0x010 1 0xFFE env [pack [put 47 24 (0x3108 + 16 * n + off), put 23 12 1]] = true → a.isOn 11 = true → h.isOpen = false →
      Completes 0x010 1 [(a.qGroup n seq).getD off 0] env a (exec (.qstatGroupOpen t (.packet env) n off) s) fun u =>
        u.shadow env.partner n = { h with isOpen := true, seq := seq, ws := a.qGroup n seq, since := a.tb.clk } ∧ u.qs = a.qs ∧ u.tb = a.tb) ∧
  (∀ (t : Lapse) (path : Nat) (s : State),
    let a := s.elapse t
    let h := a.rtcShadow 5
    (a.s0Up = true →
        Answers (exec (.rtcSec t .s0) s) fun u =>
          u.wire = [.s0 [word a.rtc.sec]] ∧ (u.rtcShadow 5).isOpen = true ∧ (u.rtcShadow 5).ws = [word a.rtc.sec, a.rtc.cal a.rtc.sec, a.rtc.fracWord false] ∧
          u.rest = (a.putRtc u.rtc).rest ∧ u.rtc = { a.rtc with shadows := u.rtc.shadows }) ∧
    (a.s0Up = true → h.isOpen = true → a.tb.clk < h.since + 654720 →
        Answers (exec (.rtcFrac t .s0) s) fun u =>
          u.wire = [.s0 [word ((arg h.ws 2).toNat + putB 23 h.expired)]] ∧ (u.rtcShadow 5).isOpen = false ∧ (u.rtcShadow 5).expired = false ∧ u.rest = (a.putRtc u.rtc).rest) ∧
    (path < 6 → (a.rtcShadow path).isOpen = true → (a.rtcShadow path).since + 654720 ≤ a.tb.clk →
        Answers (exec (.shadowExpiry t path none) s) fun u =>
          u.rtcShadow path = { a.rtcShadow path with isOpen := false, expired := true } ∧ u = a.putRtc u.rtc)) ∧
  (∀ (t : Lapse) (path n : Nat) (s : State),
    let a := s.elapse t
    path < 6 → n < 16 → (a.shadow path n).isOpen = true → (a.shadow path n).since + 654720 ≤ a.tb.clk →
      Answers (exec (.shadowExpiry t path (some n)) s) fun u =>
        u.shadow path n = { a.shadow path n with isOpen := false, expired := true } ∧ u = a.putShadows u.shadows)

/-- Taken as a new command that no row of Table 4 refuses, MODE_SET is ACCEPTED with the instant of its tick and waits; the tick puts the mode, its words and its JSN in force; a MODE_SET that a row refuses at its tick is abandoned with one ALARM to its partner. MODE_GET answers the state words, the positions or the holdover words and changes nothing. AID_POSITION keeps the position for each antenna named, AID_ORBIT keeps a message that its check passes, in place of its predecessor, and refuses another. HOLD_MISMATCH, 60 s after an antenna's residuals became too large, excludes it with one ALARM to every partner with rights. The instants at which commands act, and what the rules leave open here, are the model's choice (log 1, 75, 105). -/
def Obligations.ModeCommands : Prop :=
  (∀ (t : Lapse) (env : Env) (ps : List Word) (s : State),
    let a := s.elapse t
    let m := epochAfter a.tb.q0 10000 10
    (a.admits 0x020 2 0xFFE env ps = true → a.modeRefusal env.partner ps = none →
        Completes 0x020 0 [cyc (qOfMs m), frc (qOfMs m)] env a (exec (.modeSet t env ps) s) fun u =>
          u.modes = { a.modes with waits := a.modes.waits ++ [⟨a.jrn.next, env.partner, m, ps⟩] } ∧ u.rest = (a.putModes u.modes).rest) ∧
    (a.admits 0x020 2 0xFFE env ps = true → ps.length = 0 ∨ msMode ps = 0 ∨ 11 < msMode ps →
        Completes 0x020 0x23 [1] env a (exec (.modeSet t env ps) s) fun u => u.rest = a.rest) ∧
    (a.admits 0x021 1 0xFFE env ps = true → ps.length = 1 → fld (arg ps 0) 47 46 = 0 →
        Completes 0x021 1 a.modeWords env a (exec (.modeGet t env ps) s) fun u => u.rest = a.rest) ∧
    (a.admits 0x021 1 0xFFE env ps = true → ps.length = 1 → fld (arg ps 0) 47 46 = 1 →
        Completes 0x021 1 ([0, 1, 2, 3].flatMap fun x => padTo 4 (tget [] x (if a.modes.mode = 6 then a.modes.held else a.rtc.keep.survey))) env a (exec (.modeGet t env ps) s) fun u => u.rest = a.rest) ∧
    (a.admits 0x021 1 0xFFE env ps = true → ps.length = 1 → fld (arg ps 0) 47 46 = 2 →
        Completes 0x021 1 [pack [put 47 32 (satN 16 (a.tb.discH / 36000)), put 31 0 a.tb.drift], pack [put 47 16 (satN 32 a.tb.e0)], pack [put 47 16 (satN 32 a.tb.f0)]] env a (exec (.modeGet t env ps) s) fun u => u.rest = a.rest)) ∧
  (∀ (t : Lapse) (own : List Own) (s : State) (w : ModeWait),
    let a := s.elapse t
    let m := msOf a.tb.q0
    (m % 10 = 0 → a.modes.lastMs ≠ m → a.isOn 11 = true → a.pwr.ready = true → a.modes.mode ≠ 0 → a.modes.origin = 0 → a.modes.waits = [w] → w.tick ≤ m → a.modeRefusal w.who w.ws = none →
        Answers (exec (.modeTick t own) s) fun u =>
          u.modes.mode = msMode w.ws ∧ u.modes.origin = 0 ∧ u.modes.cur = w.ws ∧ u.modes.jsn = w.jsn ∧ u.modes.who = w.who ∧ u.modes.waits = [] ∧
          u.modes.enter = qOfMs m ∧ u.modes.phase = (if msMode w.ws = 10 then 1 else 0) ∧ u.rtc.keep.mode = some ⟨w.ws, w.who, w.jsn⟩ ∧ u.tb.q0 = a.tb.q0 ∧ u.qs = a.qs ∧ u.outs = a.outs ∧
          ((∀ j, j ∈ a.gale.jobs → j.who ≠ 15) → u.mem = a.mem)) ∧
    (m % 10 = 0 → a.modes.lastMs ≠ m → a.isOn 11 = true → a.pwr.ready = true → a.modes.mode ≠ 0 → a.modes.waits = [w] → w.tick ≤ m → (a.modeRefusal w.who w.ws).isSome = true → w.who < 5 →
        Answers (exec (.modeTick t []) s) fun u =>
          u.modes = { a.modes with lastMs := m, waits := [] } ∧ ToldOne w.who a u ∧
          (a.jsnFar → ∀ i, i < 5 → i ≠ w.who → u.part i = a.part i) ∧ u.rest = (((a.putModes u.modes).putGale u.gale).putFresh u.fresh).rest)) ∧
  (∀ (t : Lapse) (env : Env) (ps : List Word) (s : State),
    let a := s.elapse t
    let xyz := ((arg ps 1).toInt, (arg ps 2).toInt, (arg ps 3).toInt)
    let r2 := xyz.1 * xyz.1 + xyz.2.1 * xyz.2.1 + xyz.2.2 * xyz.2.2
    (a.admits 0x031 2 0x7FE env ps = true → ps.length = 5 → fld (arg ps 0) 47 44 ≠ 0 → fld (arg ps 4) 47 24 ≠ 0 → 36000000000000000000 ≤ r2 → r2 ≤ 49000000000000000000 →
        Completes 0x031 1 [] env a (exec (.aidPosition t env ps) s) fun u =>
          (∀ i, i < 4 → tget none i u.modes.aidPos = if (fld (arg ps 0) 47 44).testBit (3 - i) then some (xyz.1, xyz.2.1, xyz.2.2, fld (arg ps 4) 47 24) else tget none i a.modes.aidPos) ∧
          u.modes = { a.modes with aidPos := u.modes.aidPos } ∧ u.rest = (a.putModes u.modes).rest) ∧
    (a.admits 0x031 2 0x7FE env ps = true → ps.length ≠ 5 ∨ fld (arg ps 0) 47 44 = 0 →
        Completes 0x031 0x23 [0] env a (exec (.aidPosition t env ps) s) fun u => u.rest = a.rest)) ∧
  (∀ (t : Lapse) (env : Env) (ps : List Word) (s : State),
    let a := s.elapse t
    let mt := fld (arg ps 0) 47 42
    let prn := fld (arg ps 0) 41 34
    let nb := fld (arg ps 0) 33 24
    let ws := bitWords nb (ps.drop 1)
    let page := Config.pageOf mt ws
    (a.admits 0x032 2 0x7FE env ps = true → (msgType mt).any (fun r => r.2.1 == nb) = true → msgPrnOk mt prn = true → ps.length = 1 + (nb + 47) / 48 →
        Answers (exec (.aidOrbit t env ps) s) fun u =>
          (Config.orbitCheck ps < 2 → Shows 0x032 1 [pack [put 47 46 (Config.orbitCheck ps)]] env a u ∧ (mt, msgSat mt prn, page, ws) ∈ u.meas.kept ∧
            (∀ x, x ∈ u.meas.kept → x ≠ (mt, msgSat mt prn, page, ws) → x ∈ a.meas.kept) ∧ u.meas = { a.meas with kept := u.meas.kept } ∧ u.rest = (a.putMeas u.meas).rest) ∧
          (2 ≤ Config.orbitCheck ps → Shows 0x032 0x23 [2] env a u ∧ u.rest = a.rest)) ∧
    (a.admits 0x032 2 0x7FE env ps = true → (msgType mt).any (fun r => r.2.1 == nb) = false →
        Completes 0x032 0x23 [1] env a (exec (.aidOrbit t env ps) s) fun u => u.rest = a.rest)) ∧
  (∀ (t : Lapse) (x : Nat) (q : Qval) (s : State),
    let a := s.elapse t
    a.modes.mode = 6 → (maskAnts (msMask a.modes.cur)).contains x = true → a.modes.excluded.testBit x = false → tget none x a.modes.misfit = some q → 60 * 2 ^ 48 ≤ qdist a.tb.q0 q →
      Answers (exec (.holdMismatch t x) s) fun u =>
        u.modes = { a.modes with excluded := setBit a.modes.excluded x } ∧
        Told a u ∧ u.rest = (a.putModes u.modes).rest)

/-- SOLUTION_EPOCH with a sufficient set in NAVIGATE under GNSS steers FADJ by at most 1e-11 from what the loop gives and takes TQE and TQF; without one TSRC becomes HOLDOVER and the lack begins; in a search with a sufficient set the NEXT mode is entered at the tick. SIGNAL_LOSS after HO_DELAY enters HOLDOVER with the mode as its origin, SIGNAL_RETURN after RET_DELAY goes back, and TSRC is that of the truth at once where less than 1 ns remains. HEADING_EPOCH of a baseline that is FIXED with a fine angle puts its angle in its quantity. SNAPSHOT_WAKE, FIX_END and SNAPSHOT_MISS move the snapshot phase as the rules say. No MODE_SET is due in them. The instants at which commands act, and what the rules leave open here, are the model's choice (log 1, 23, 109, 110, 115, 195). -/
def Obligations.ModeEvents : Prop :=
  (∀ (t : Lapse) (x : SolveIn) (own : List Own) (s : State),
    let a := s.elapse t
    let m := msOf a.tb.q0
    let lim : Int := 2 ^ 60 / 10 ^ 11
    let r := a.solveAll m
    (m % a.solMs = 0 → a.modes.lastSol ≠ m → a.ndovos = true → a.isOn 11 = true → (∀ w, w ∈ a.modes.waits → m < w.tick) → a.modes.mode = 4 → a.modes.cable = false → a.tb.tsrc = 1 →
        Answers (exec (.solutionEpoch t x own) s) fun u =>
          u.modes.mode = 4 ∧ u.modes.lastSol = m ∧ u.modes.nsv = r.nsv ∧ u.tb.q0 = a.tb.q0 ∧ u.qs = a.qs ∧ u.outs = a.outs ∧ u.mem = a.mem ∧
          (r.sufficient = true → u.tb.loopAdj = a.tb.loopAdj + max (-lim) (min lim (Config.loopAdj 100 a.tb.loopAdj r.f.offset r.f.fofs - a.tb.loopAdj)) ∧
            u.tb.tqe = satN 32 r.f.sigT ∧ u.tb.tqf = satN 32 (if a.clk.warmed then r.f.sigF else max 2000000000 r.f.sigF) ∧ u.tb.tsrc = 1 ∧ u.modes.lack = none ∧ u.modes.steered = true) ∧
          (r.sufficient = false → u.tb.tsrc = 2 ∧ u.tb.hoStart = some a.tb.q0 ∧ u.tb.loopAdj = a.tb.loopAdj ∧ u.modes.lack = some (a.modes.lack.getD a.tb.q0))) ∧
    (m % a.solMs = 0 → a.modes.lastSol ≠ m → a.ndovos = true → a.isOn 11 = true → (∀ w, w ∈ a.modes.waits → m < w.tick) → a.modes.mode = 2 ∨ a.modes.mode = 3 → a.modes.done = false →
      msNext a.modes.cur = 4 →
        Answers (exec (.solutionEpoch t x own) s) fun u =>
          u.modes.lastSol = m ∧ u.tb.q0 = a.tb.q0 ∧
          (r.sufficient = true → u.modes.mode = 4 ∧ u.modes.origin = 0 ∧ u.modes.jsn = 0 ∧ u.modes.enter = qOfMs m) ∧
          (r.sufficient = false → u.modes.mode = a.modes.mode ∧ u.modes.done = false ∧ u.modes.enter = a.modes.enter))) ∧
  (∀ (t : Lapse) (s : State) (q : Qval),
    let a := s.elapse t
    let m := msOf a.tb.q0
    a.modes.lack = some q → m % 10 = 0 → (∀ w, w ∈ a.modes.waits → m < w.tick) → a.modes.mode = 4 ∨ a.modes.mode = 6 ∨ a.modes.mode = 7 ∨ a.modes.mode = 9 → a.modes.steered = true →
    msHoDelay a.modes.cur ≤ qdist a.tb.q0 q →
      Answers (exec (.signalLoss t) s) fun u =>
        u.modes.mode = 8 ∧ u.modes.origin = a.modes.mode ∧ u.modes.cur = a.modes.cur ∧ u.modes.enter = qOfMs m ∧ u.modes.lack = none ∧ u.modes.jsn = a.modes.jsn ∧
        (a.tb.tsrc = 1 ∨ a.tb.tsrc = 3 ∨ a.tb.tsrc = 4 → u.tb.tsrc = 2) ∧ u.tb.q0 = a.tb.q0) ∧
  (∀ (t : Lapse) (s : State) (q : Qval),
    let a := s.elapse t
    let m := msOf a.tb.q0
    a.modes.present = some q → m % 10 = 0 → (∀ w, w ∈ a.modes.waits → m < w.tick) → a.modes.mode = 8 → a.modes.origin = 4 ∨ a.modes.origin = 6 ∨ a.modes.origin = 7 ∨ a.modes.origin = 9 →
    msRetDelay a.modes.cur ≤ qdist a.tb.q0 q → a.tb.tsrc = 2 → a.tb.step = none → a.tb.permit = 0 → a.tb.permitNext = none → a.modes.offset.natAbs < 1000 →
      Answers (exec (.signalReturn t) s) fun u =>
        u.modes.mode = a.modes.origin ∧ u.modes.origin = 0 ∧ u.modes.cur = a.modes.cur ∧ u.modes.steered = true ∧ u.modes.enter = qOfMs m ∧
        u.tb.tsrc = (if a.modes.origin = 9 then 3 else 1) ∧ u.tb.hoStart = none ∧ u.tb.slew = none ∧ u.tb.q0 = a.tb.q0) ∧
  (∀ (t : Lapse) (b : Nat) (s : State),
    let a := s.elapse t
    let m := msOf a.tb.q0
    let n := 6 + b
    let x := a.baseSolve m b
    a.solving = 7 → a.ndovos = true → a.isOn 11 = true → m % a.hdgMs = 0 → a.modes.lastHdg ≠ m → b < 2 → baseIn (msMask a.modes.cur) b = true →
      Answers (exec (.headingEpoch t) s) fun u =>
        tget {} b u.modes.bases = x.1 ∧ u.modes.lastHdg = m ∧ u.tb = a.tb ∧ (∀ k, k < 6 → u.qty k = a.qty k) ∧
        (x.1.state = 2 → x.2.2.2.sigHdg ≤ 2 ^ 14 → a.counting n 5 = true → (a.qty n).fed = false → bit (a.qty n).cfg0 42 = false →
          (u.qty n).vu = mkQ 0 (x.2.2.2.heading + (a.qty n).cfg1) ∧ (u.qty n).valid = true ∧ (u.qty n).tu = a.tb.q0) ∧
        (x.1.state ≠ 2 → u.qty n = a.qty n)) ∧
  (∀ (t : Lapse) (own : List Own) (s : State),
    let a := s.elapse t
    let w := arg a.modes.cur 1
    (a.modes.mode = 10 → a.modes.phase = 0 → atSecond a.tb = true → (cyc a.tb.q0).toNat % max 1 (fld w 47 30) = 0 →
        Answers (exec (.snapshotWake t own) s) fun u =>
          u.modes = { a.modes with phase := 1, wakeAt := a.tb.q0 } ∧ u.tb = a.tb ∧ u.qs = a.qs ∧ u.outs = a.outs ∧ u.rtc = a.rtc ∧ u.mem = a.mem) ∧
    (a.modes.mode = 10 → a.modes.phase = 2 → usUnits (1000 * fld w 29 16) ≤ qdist a.tb.q0 a.modes.fixAt → a.fewEphemerides = false ∨ (fld w 15 8 : Int) * 2 ^ 48 ≤ qdist a.tb.q0 a.modes.wakeAt →
        Answers (exec (.fixEnd t) s) fun u =>
          u.modes.phase = 0 ∧ u.modes.misses = 0 ∧ u.modes.mode = 10 ∧ (a.tb.tsrc = 1 ∨ a.tb.tsrc = 3 ∨ a.tb.tsrc = 4 → u.tb.tsrc = 2) ∧
          u.rtc.keep.nav = some a.meas.kept ∧ u.rtc.keep.posvel = some a.modes.fixes ∧ u.tb.q0 = a.tb.q0) ∧
    (a.modes.mode = 10 → a.modes.phase = 1 → (fld w 15 8 : Int) * 2 ^ 48 ≤ qdist a.tb.q0 a.modes.wakeAt →
        Answers (exec (.snapshotMiss t) s) fun u => u.modes.phase = 0 ∧ u.modes.misses = a.modes.misses + 1 ∧ u.modes.mode = 10 ∧ u.tb.q0 = a.tb.q0))

/-- MEAS_CONFIG, NAVBITS_CONFIG and SOL_CONFIG in range are DONE and wait for their epoch, MEAS_CONFIG with its instant in the reply; out of range nothing changes. MEAS_EPOCH with the dump block of its millisecond there and a channel that passes the only partner's filter forms one OBS record for it and restarts its gap count. NAV_MESSAGE_DECODED on a framed channel of that partner without DEDUP keeps a good message and forms one NAVBITS record where its mask asks for it; where no message is there nothing changes. DEDUP_TIMEOUT ends a collection 50 ms after its first copy with the best copy's record. The instants at which commands act, and what the rules leave open here, are the model's choice (log 1, 101, 102, 103). -/
def Obligations.MeasurementRecords : Prop :=
  (∀ (t : Lapse) (env : Env) (ps : List Word) (s : State),
    let a := s.elapse t
    let m := epochAfter a.tb.q0 20000 (10 * obsPer ps)
    (a.admits 0x060 1 0xFFE env ps = true → ps.length = 3 → fld (arg ps 0) 46 45 ≠ 3 → obsPer ps ≠ 0 → (arg ps 1).toNat &&& sigMaskAll = (arg ps 1).toNat →
        Completes 0x060 1 [cyc (qOfMs m), frc (qOfMs m)] env a (exec (.measConfig t env ps) s) fun u =>
          u.mcfg env.partner = { a.mcfg env.partner with obsNext := ((a.mcfg env.partner).obsNext.filter fun e => decide (e.1 < m)) ++ [(m, ps)] } ∧ (∀ p, p < 5 → p ≠ env.partner → u.mcfg p = a.mcfg p) ∧ u.rest = (a.putMeas u.meas).rest) ∧
    (a.admits 0x060 1 0xFFE env ps = true → ps.length ≠ 3 ∨ obsPer ps = 0 →
        Completes 0x060 0x23 [0] env a (exec (.measConfig t env ps) s) fun u => u.rest = a.rest) ∧
    (a.admits 0x061 1 0xFFE env ps = true → ps.length = 2 → fld (arg ps 0) 46 45 ≠ 3 → (arg ps 1).toNat &&& msgMaskAll = (arg ps 1).toNat →
        Completes 0x061 1 [] env a (exec (.navbitsConfig t env ps) s) fun u =>
          u.mcfg env.partner = { a.mcfg env.partner with navNext := (a.mcfg env.partner).navNext ++ [(qadd a.tb.q0 (usUnits 20000), ps)] } ∧ (∀ p, p < 5 → p ≠ env.partner → u.mcfg p = a.mcfg p) ∧ u.rest = (a.putMeas u.meas).rest) ∧
    (a.admits 0x062 1 0xFFE env ps = true → ps.length = 1 → fld (arg ps 0) 45 30 ≠ 0 → fld (arg ps 0) 29 22 ≠ 0 →
        Completes 0x062 1 [] env a (exec (.solConfig t env ps) s) fun u =>
          u.mcfg env.partner = { a.mcfg env.partner with solNext := ((a.mcfg env.partner).solNext.filter fun e => decide (e.1 < epochAfter a.tb.q0 20000 (100 * fld (arg ps 0) 45 30))) ++ [(epochAfter a.tb.q0 20000 (100 * fld (arg ps 0) 45 30), ps)] } ∧ (∀ p, p < 5 → p ≠ env.partner → u.mcfg p = a.mcfg p) ∧ u.rest = (a.putMeas u.meas).rest)) ∧
  (∀ (t : Lapse) (preds : List ObsIn) (p : Nat) (s : State),
    let a := s.elapse t
    let m := msOf a.tb.q0
    let ws := (a.mcfg p).obs
    let is := (a.kite.chans.map fun e => e.1).filter fun n => a.obsPasses p ws n
    m % 10 = 0 → a.meas.lastMs ≠ m → a.ndovos = true → a.oneCore = false → a.isOn 5 = true → a.clk.pllF.gives = true → a.kite.lastMs = m → a.kite.dseq = a.kite.blk → p < 5 →
    (∀ q, q < 5 → (a.mcfg q).obsNext = [] ∧ (q ≠ p → (a.mcfg q).obs = [])) → bit (arg ws 0) 47 = true → obsPer ws ≠ 0 → m % (10 * obsPer ws) = 0 → is ≠ [] →
    a.pwr.ready = true → a.mayForm p true (6 + 6 * is.length) = true → (a.part p).rights ≠ 0 →
      Answers (exec (.measEpoch t preds) s) fun u =>
        ToldOne p a u ∧ (a.jsnFar → ∀ q, q < 5 → q ≠ p → u.part q = a.part q) ∧ (u.mcfg p).obsGap = some 0 ∧ u.meas.lastMs = m ∧ u.tb = a.tb) ∧
  (∀ (t : Lapse) (n p : Nat) (s : State),
    let a := s.elapse t
    let c := a.chan n
    let w := arg (a.mcfg p).nav 0
    n < 512 → a.isOn 6 = true → c.obs.framed = true → p < 5 → (∀ q, q < 5 → (a.mcfg q).navNext = [] ∧ (q ≠ p → (a.mcfg q).nav = [])) → bit w 47 = true → bit w 43 = false →
    inSet (fld w 46 45) p c.owner = true → a.pwr.ready = true → (a.part p).rights ≠ 0 →
      Answers (exec (.navMessageDecoded t n) s) fun u =>
        (a.decoded n = none → u = a) ∧
        (∀ x d, a.decoded n = some (x, d) → x.check < 2 → behind x.rx c.obs.lockFrom = false → d.leap = none →
          (u.chan n).obs.framed = true ∧ (u.chan n).obs.fails = 0 ∧ u.tb = a.tb ∧ (x.mt, c.sat, Config.pageOf x.mt (bitWords x.nbits x.bits), bitWords x.nbits x.bits) ∈ u.meas.kept ∧
          (bit (arg (a.mcfg p).nav 1) x.mt = true → a.mayForm p true (navRecord x 1 (a.mcfg p).navSkip).length = true → ToldOne p a u ∧ (u.mcfg p).navSkip = 0))) ∧
  (∀ (t : Lapse) (chan : Nat) (d : Dedup) (s : State),
    let a := s.elapse t
    a.meas.dedups = [d] → d.done.head? = some chan → d.partner < 5 → d.clk + 32736000 ≤ a.tb.clk → d.passed = true → a.pwr.ready = true →
    a.mayForm d.partner true (navRecord d.best d.copies (a.mcfg d.partner).navSkip).length = true → (a.part d.partner).rights ≠ 0 →
      Answers (exec (.dedupTimeout t d.partner chan) s) fun u =>
        u.meas.dedups = [] ∧ ToldOne d.partner a u ∧ u.meas.sent = (d.partner, d.sat, d.mt, d.txTime) :: a.meas.sent ∧ u.rest = (a.putMeas u.meas).rest)

/-- With D8 on: ANT_SHORT counts a retry and shows SHORT, or SHORT_LATCHED at the limit; BIAS_RETRY 1 s after a trip shows OK again, RETRIES_CLEAR after 10 s counts 0; ANT_OPEN and ANT_OK follow a current that has stayed below OPEN_MA for 1 s or at least there for 100 ms. LO_UNLOCK and LO_RELOCKED clear and set the stream's lock. FRONT_END_FAILED sets the antenna's bit of the failed parts and takes VALID from its baseline's quantity. BLANK_HEAVY and, after 100 ms, its clear follow the fraction. Each that the rules say raises one record to every partner with rights, where none of its kind went out before. The instants at which commands act, and what the rules leave open here, are the model's choice (log 1, 80, 81). -/
def Obligations.AntennaFaults : Prop :=
  (∀ (t : Lapse) (x : Nat) (s : State),
    let a := s.elapse t
    let y := a.ant x
    let r := min 15 (y.retries + 1)
    (x < 4 → a.biasOn x = true → a.antState x = 1 ∨ a.antState x = 2 → tget none (0x201 * 65536 + x) a.raised = none →
        Answers (exec (.antShort t x) s) fun u =>
          u.ant x = { y with retries := r, state := if fld y.cfg 40 37 ≠ 0 ∧ fld y.cfg 40 37 ≤ r then 4 else 3, tripClk := a.tb.clk, ma := 0 } ∧ u.rf.fault = setBit a.rf.fault (4 * x) ∧
          Told a u ∧ u.rest = (a.putRf u.rf).rest) ∧
    (x < 4 → a.antState x = 3 → bit y.cfg 41 = true → y.tripClk + 654720000 ≤ a.tb.clk → tget none (0x203 * 65536 + x) a.raised = none →
        Answers (exec (.biasRetry t x) s) fun u =>
          u.ant x = { y with state := 1, biasClk := a.tb.clk, aboveClk := none, belowClk := none } ∧ Told a u ∧ u.rest = (a.putRf u.rf).rest) ∧
    (x < 4 → a.biasOn x = true → a.antState x = 1 ∨ a.antState x = 2 → y.biasClk + 6547200000 ≤ a.tb.clk →
        Answers (exec (.retriesClear t x) s) fun u => u.ant x = { y with retries := 0 } ∧ u = a.putRf u.rf)) ∧
  (∀ (t : Lapse) (x ma : Nat) (s : State),
    let a := s.elapse t
    let y := a.ant x
    (x < 4 → a.antState x = 1 → ma < y.openMa → y.biasClk + 654720000 ≤ a.tb.clk → longAgo y.aboveClk 654720000 a.tb.clk = true → tget none (0x202 * 65536 + x) a.raised = none →
        Answers (exec (.antOpen t x ma) s) fun u =>
          u.ant x = { y with state := 2, ma := satN 8 ma, belowClk := some a.tb.clk } ∧ u.rf.fault = setBit a.rf.fault (4 * x + 1) ∧
          Told a u ∧ u.rest = (a.putRf u.rf).rest) ∧
    (x < 4 → a.antState x = 2 → y.openMa ≤ ma → longAgo y.belowClk 65472000 a.tb.clk = true → tget none (0x203 * 65536 + x) a.raised = none →
        Answers (exec (.antOk t x ma) s) fun u =>
          u.ant x = { y with state := 1, ma := satN 8 ma, aboveClk := some a.tb.clk } ∧ Told a u ∧ u.rest = (a.putRf u.rf).rest)) ∧
  (∀ (t : Lapse) (st : Nat) (s : State),
    let a := s.elapse t
    let y := a.strm st
    (st < 12 → a.isOn 8 = true → y.locked = true → tget none (0x204 * 65536 + st) a.raised = none →
        Answers (exec (.loUnlock t st) s) fun u =>
          u.strm st = { y with locked := false, lostClk := some a.tb.clk, gap := true } ∧ u.noInput st = true ∧ u.rf.fault = setBit a.rf.fault (4 * (st / 3) + 2) ∧
          Told a u ∧ u.rest = (a.putRf u.rf).rest) ∧
    (st < 12 → a.isOn 8 = true → y.locked = false → a.fc.front.testBit (st / 3) = false → tget none (0x205 * 65536 + st) a.raised = none →
        Answers (exec (.loRelocked t st) s) fun u =>
          u.strm st = { y with locked := true, lostClk := none } ∧ u.rf.fault = setBit a.rf.fault (4 * (st / 3) + 3) ∧ tget {} (st / 6) u.modes.bases = {} ∧
          Told a u ∧ u.rest = ((a.putRf u.rf).putModes u.modes).rest)) ∧
  (∀ (t : Lapse) (x : Nat) (s : State),
    let a := s.elapse t
    x < 4 → a.fc.front.testBit x = false → a.antState x = 4 ∨ a.loLost x = true →
      Answers (exec (.frontEndFailed t x) s) fun u =>
        u.fc = { a.fc with front := setBit a.fc.front x } ∧ u.rf = a.rf ∧ ((a.qty (6 + x / 2)).valid = false → u.qs = a.qs) ∧ (kindOf (a.qty (6 + x / 2)).cfg0 = 5 → (u.qty (6 + x / 2)).valid = false) ∧
        Told a u ∧ u.tb = a.tb ∧ u.outs = a.outs) ∧
  (∀ (t : Lapse) (st frac : Nat) (s : State),
    let a := s.elapse t
    let y := a.strm st
    (st < 12 → a.isOn 8 = true → fld y.blank 26 18 < satN 9 frac → y.heavy = false → tget none (0x206 * 65536 + st) a.raised = none →
        Answers (exec (.blankHeavy t st frac) s) fun u =>
          u.strm st = { y with frac := satN 9 frac, heavy := true, lowClk := none } ∧ Told a u ∧ u.rest = (a.putRf u.rf).rest) ∧
    (st < 12 → a.isOn 8 = true → satN 9 frac ≤ fld y.blank 26 18 → y.heavy = true → y.lowClk.any (fun c => decide (c + 65472000 ≤ a.tb.clk)) = true →
        Answers (exec (.blankHeavyClear t st frac) s) fun u => u.strm st = { y with frac := satN 9 frac, heavy := false } ∧ u = a.putRf u.rf))

/-- RF_BLOCK_BOUNDARY, a whole number of blocks after the one before, puts waiting writes in force and stamps the block; a stream without input gives an absent block. GALE_JOB that no refusal fits is ACCEPTED in a free slot with its granules; an ill-formed one is BAD_PARAM. An engine slot whose tile was the last of the only job ends it with its report, to its partner or to shared memory; one whose energy check fails counts a mismatch and gives its granules back; a forward transform begins as the engine's next slot and is counted off when that ends. GALE_INPUT_TIMEOUT after 1,000 ms and GALE_CANCEL of all own jobs end the job with one report to its partner. The instants at which commands act, and what the rules leave open here, are the model's choice (log 1, 82, 84, 85, 192). -/
def Obligations.SearchJobs : Prop :=
  (∀ (t : Lapse) (streams : List StreamIn) (bias : List (Nat × Nat)) (s : State),
    let a := s.elapse t
    a.isOn 11 = true → a.atBlock = true →
      Answers (exec (.rfBlockBoundary t streams bias) s) fun u =>
        u.rf.waits = [] ∧ u.rf.stamp = a.tb.q0 ∧ u.rf.blkClk = some a.tb.clk ∧ u.rf.clkq = decide (a.clk.pllF.state = 3) ∧
        (∀ w, a.rf.waits = [(0x40, w)] → (u.strm 0).agc = maskW (2 ^ 48 - 2 ^ 43 + (2 ^ 39 - 2 ^ 17)) w ∧ ∀ st, st < 12 → st ≠ 0 → (u.strm st).agc = (a.strm st).agc) ∧
        (∀ st, st < 12 → (u.strm st).gap = false ∧ (a.noInput st = true → (u.strm st).blk = [])) ∧ u.tb = a.tb ∧ u.qs = a.qs ∧ u.outs = a.outs ∧ u.kite = a.kite) ∧
  (∀ (t : Lapse) (env : Env) (ps : List Word) (s : State),
    let a := s.elapse t
    let k := pktOf 0x040 env ps a
    let j := jobOf k
    let slot := a.freeSlots.getD (Config.freeNat a.fresh % a.freeSlots.length) 0
    (a.admits 0x040 2 0x7FE env ps = true → ps.length = 8 → jobBad j = false → j.start = none → j.prio ≠ 3 → a.fc.front = 0 → a.freeSlots ≠ [] →
      (a.gale.jobs.filter fun x => x.who == env.partner).length < a.gale.pslotMax → tget 0 3 a.pwr.force ≠ 3 →
        Completes 0x040 0 [pack [put 47 36 slot, put 35 12 j.gran]] env a (exec (.galeJob t env ps) s) fun u =>
          u.gale.jobs = a.gale.jobs ++ [{ j with slot := slot, jsn := a.jrn.next, seq := a.gale.seq }] ∧ u.rest = ((a.putGale u.gale).putFresh (a.fresh + 1)).rest) ∧
    (a.admits 0x040 2 0x7FE env ps = true → ps.length ≠ 8 ∨ jobBad j = true →
        Completes 0x040 0x23 [0] env a (exec (.galeJob t env ps) s) fun u => u.rest = a.rest)) ∧
  (∀ (t : Lapse) (env : Env) (ps : List Word) (s : State) (j : Job),
    let a := s.elapse t
    a.admits 0x041 2 0xFFE env ps = true → ps.length = 1 → fld (arg ps 0) 47 46 = 2 → a.gale.jobs = [j] → j.who = env.partner → a.gale.reps = [] →
      Completes 0x041 1 [pack [put 47 35 1]] env a (exec (.galeCancel t env ps) s) fun u =>
        u.gale.jobs = [] ∧ tget none j.slot u.gale.reps = some ⟨j.who, j.tag, j.report (a.gale.capsOf j) a.fresh 1⟩ ∧ u.gale.cntJob = satN 48 (a.gale.cntJob + 1) ∧
        ToldOne env.partner a u ∧ u.rest = ((a.putGale u.gale).putFresh u.fresh).rest) ∧
  (∀ (t : Lapse) (s : State) (j : Job) (c : Nat),
    let a := s.elapse t
    a.gale.jobs = [j] → j.since = some c → j.caps = [] → c + 654720000 ≤ a.tb.clk → j.who < 5 →
      Answers (exec (.galeInputTimeout t j.slot) s) fun u =>
        u.gale.jobs = [] ∧ tget none j.slot u.gale.reps = some ⟨j.who, j.tag, j.report [] a.fresh 2⟩ ∧
        ToldOne j.who a u ∧ u.rest = ((a.putGale u.gale).putFresh u.fresh).rest) ∧
  (∀ (t : Lapse) (s : State) (j : Job) (e n inE outE : Nat) (fw : Bool),
    let a := s.elapse t
    let x := a.eng e
    (e < 64 → a.engOn e = true → x.busy ≤ a.tb.clk → a.clk.pllG.gives = true → x.work = some (.tile [(j.seq, n)]) → a.gale.jobs = [j] → j.todo = n → energyBad inE outE = false →
        Answers (exec (.galeSlot t ⟨e, fw, inE, outE⟩) s) fun u =>
          u.gale.jobs = [] ∧ u.gale.caps = [] ∧ u.gale.cntGran = satN 48 (a.gale.cntGran + n) ∧ u.gale.cntJob = satN 48 (a.gale.cntJob + 1) ∧
          (∃ r, tget none j.slot u.gale.reps = some r ∧ r.who = j.who ∧ r.tag = j.tag ∧
            (j.who < 5 → ToldOne j.who a u ∧ u.rest = (a.putGale u.gale).rest) ∧
            (j.who = 15 → u = (a.memWrites (Config.galeReport 0 j.slot).toNat r.ws).putGale u.gale))) ∧
    (e < 64 → a.engOn e = true → x.busy ≤ a.tb.clk → x.times = [] → a.clk.pllG.gives = true → x.work = some (.tile [(j.seq, n)]) → a.gale.jobs = [j] → energyBad inE outE = true →
        Answers (exec (.galeSlot t ⟨e, fw, inE, outE⟩) s) fun u =>
          (u.eng e).mis = satN 8 (x.mis + 1) ∧ (u.eng e).times = [a.tb.clk] ∧ (u.eng e).failed = false ∧ u.gale.fault = setBit a.gale.fault 0 ∧ (u.gale.jobs.map fun y => (y.seq, y.todo)) = [(j.seq, j.todo)] ∧
          (bit a.gale.ctrl 47 = true → (u.gale.jobs.map fun y => y.left) = [j.left + n]) ∧ u = a.putGale u.gale)) ∧
  (∀ (t : Lapse) (s : State) (e k inE outE : Nat) (c : Capture),
    let a := s.elapse t
    let x := a.eng e
    (e < 64 → a.engOn e = true → x.failed = false → x.work = none → x.busy ≤ a.tb.clk → x.ms ≠ a.tb.clk / 654720 ∨ x.fwds = 0 → a.clk.pllG.gives = true → a.clk.pllG.state ≠ 3 → bit a.gale.ctrl 47 = false →
      a.gale.nextFwd e = some (k, c) → a.gale.caps = [c] →
        Answers (exec (.galeSlot t ⟨e, true, inE, outE⟩) s) fun u =>
          u.gale.caps = [{ c with fwd := c.fwd - 1 }] ∧ u.gale.jobs = a.gale.jobs ∧ (u.eng e).work = some (.fwd c.id) ∧ (u.eng e).busy = a.tb.clk + 130944 ∧ u = a.putGale u.gale) ∧
    (e < 64 → a.engOn e = true → x.work = some (.fwd c.id) → x.busy ≤ a.tb.clk → a.clk.pllG.gives = true → a.gale.caps = [c] → energyBad inE outE = false →
        Answers (exec (.galeSlot t ⟨e, false, inE, outE⟩) s) fun u => (u.gale.caps.map fun y => y.fwdTodo) = [c.fwdTodo - 1] ∧ u.gale.jobs.map (fun y => y.seq) = a.gale.jobs.map (fun y => y.seq) ∧ u = a.putGale u.gale))

/-- Taken as new commands that no row of Table 3 refuses, KITE_ASSIGN, KITE_RELEASE, TRAIN_FORM and TRAIN_BREAK are ACCEPTED with the channel or train they name and wait for the first whole ms at least 1 ms later. The tick starts an assigned channel alone, with its NCOs from the command's words, makes a released one IDLE, and abandons a command that a row refuses by then, with one ALARM to its partner. The instants at which commands act, and what the rules leave open here, are the model's choice (log 1, 93, 95). -/
def Obligations.ChannelCommands : Prop :=
  (∀ (t : Lapse) (env : Env) (ps : List Word) (s : State),
    let a := s.elapse t
    let ch := fld (arg ps 0) 47 38
    let mine := (List.range 512).filter fun n => (a.planned.chan n).owner == env.partner
    let trs := (List.range 64).filter fun x => (a.planned.train x).state != 0 && (a.planned.train x).owner == env.partner
    let cmd := fun (op : KiteOp) => a.putKite { a.kite with cmds := a.kite.cmds ++ [⟨a.jrn.next, env.partner, kiteTick a.tb.q0, op⟩] }
    (a.admits 0x050 2 0x7FE env ps = true → ps.length = 7 → ch ≠ 0x3FF → a.acceptAssign env.partner (some ch) ps = none →
        Completes 0x050 0 [kiteWord ch 0] env a (exec (.kiteAssign t env ps) s) fun u => u.rest = (cmd (.assign ch ps)).rest) ∧
    (a.admits 0x050 2 0x7FE env ps = true → ps.length ≠ 7 →
        Completes 0x050 0x23 [kiteWord ch 4] env a (exec (.kiteAssign t env ps) s) fun u => u.rest = a.rest) ∧
    (a.admits 0x051 2 0xFFE env ps = true → ps.length = 1 → fld (arg ps 0) 47 46 = 0 → a.planned.releaseRefusal env.partner (fld (arg ps 0) 41 32) = none →
        Completes 0x051 0 [kiteWord (fld (arg ps 0) 41 32) 0] env a (exec (.kiteRelease t env ps) s) fun u => u.rest = (cmd (.release [fld (arg ps 0) 41 32] false)).rest) ∧
    (a.admits 0x051 2 0xFFE env ps = true → ps.length = 1 → fld (arg ps 0) 47 46 = 1 →
        Completes 0x051 0 [kiteWord mine.length 0] env a (exec (.kiteRelease t env ps) s) fun u => u.rest = (cmd (.release mine true)).rest) ∧
    (a.admits 0x053 2 0xFFE env ps = true → ps.length = 1 → fld (arg ps 0) 47 46 = 0 → a.planned.breakRefusal env.partner (fld (arg ps 0) 45 40) = none →
        Completes 0x053 0 [kiteWord (fld (arg ps 0) 45 40) 0] env a (exec (.trainBreak t env ps) s) fun u => u.rest = (cmd (.brk [fld (arg ps 0) 45 40] false)).rest) ∧
    (a.admits 0x053 2 0xFFE env ps = true → ps.length = 1 → fld (arg ps 0) 47 46 = 1 →
        Completes 0x053 0 [kiteWord (fld (arg ps 0) 45 40) 0] env a (exec (.trainBreak t env ps) s) fun u => u.rest = (cmd (.brk trs true)).rest) ∧
    (a.admits 0x053 2 0xFFE env ps = true → ps.length = 1 → fld (arg ps 0) 47 46 = 0 → (a.planned.train (fld (arg ps 0) 45 40)).state = 0 →
        Completes 0x053 0x33 [kiteWord (fld (arg ps 0) 45 40) 6] env a (exec (.trainBreak t env ps) s) fun u => u.rest = a.rest)) ∧
  (∀ (t : Lapse) (env : Env) (ps : List Word) (s : State),
    let a := s.elapse t
    let x := fld (arg ps 0) 47 41
    let n := fld (arg ps 0) 39 35
    a.admits 0x052 2 0x7FE env ps = true → ps.length = 5 → 2 ≤ n → n ≤ 16 → ((formSlots ps 20).drop n).all (fun y => y == 0x1FF) = true → x ≠ 0x7F →
    a.planned.formRefusal env.partner (some x) (formSlots ps n) a.kite.cmds = none →
      Completes 0x052 0 [kiteWord x 0] env a (exec (.trainForm t env ps) s) fun u =>
        u.rest = (a.putKite { a.kite with cmds := a.kite.cmds ++ [⟨a.jrn.next, env.partner, kiteTick a.tb.q0, .form x (bit (arg ps 0) 40) (formSlots ps n)⟩] }).rest) ∧
  (∀ (t : Lapse) (s : State) (k : KiteCmd) (n : Nat) (ps : List Word),
    let a := s.elapse t
    let ms := msOf a.tb.q0
    let c := startChan k.who (a.prof (fld (arg ps 0) 21 17)) ps a.tb.q0 a.tb.clk
    (a.isOn 5 = true → a.kite.lastMs ≠ ms → a.kite.cmds = [k] → k.tick ≤ ms → k.op = .assign n ps → a.kite.chans = [] → a.assignRefusal k.who (some n) ps [] false = none →
      bit (arg ps 0) 7 = false → a.noInput c.stream = false →
        Answers (exec (.kiteApplicationTick t) s) fun u =>
          u.chan n = c ∧ c.state = 1 ∧ (∀ m, m < 512 → m ≠ n → u.chan m = a.chan m) ∧ u.kite.cmds = [] ∧ u.kite.lastMs = ms ∧ u.kite.blk = a.kite.blk + 1 ∧ u.rest = (a.putKite u.kite).rest) ∧
    (a.isOn 5 = true → a.kite.lastMs ≠ ms → a.kite.cmds = [k] → k.tick ≤ ms → k.op = .assign n ps → k.who < 5 → a.kite.chans = [] →
      (a.assignRefusal k.who (some n) ps [] false).isSome = true →
        Answers (exec (.kiteApplicationTick t) s) fun u =>
          u.kite = { a.kite with cmds := [], lastMs := ms, blk := a.kite.blk + 1 } ∧ ToldOne k.who a u ∧ u.rest = (a.putKite u.kite).rest) ∧
    (a.isOn 5 = true → a.kite.lastMs ≠ ms → a.kite.cmds = [k] → k.tick ≤ ms → k.op = .release [n] false → n < 512 → (a.chan n).owner = k.who → a.kite.trains = [] →
      (∀ m, m < 512 → m ≠ n → (a.chan m).active = false) → (a.kite.chans.all fun e => decide (e.1 < 512)) = true →
        Answers (exec (.kiteApplicationTick t) s) fun u =>
          u.chan n = {} ∧ (∀ m, m < 512 → m ≠ n → u.chan m = a.chan m) ∧ u.kite.cmds = [] ∧ u.kite.trains = a.kite.trains ∧ u.rest = (a.putKite u.kite).rest))

/-- A loop update of a channel alone sets its carrier rate from its Doppler, takes a waiting CH_CTRL and touches no other channel. An evaluation of a channel alone sets C/N0, PLL indicator and the locks, and takes PULL_IN to TRACK where the conditions hold. NO_PULL_IN, CN0_LOSS, MEMBER_DROP and D5_RETENTION_TIMEOUT make the channel LOST with cause 1, 2, 4 and 6; LOST_TO_IDLE frees it; TRAIN_COAST_TIMEOUT breaks the train, a member above its threshold pulling in again. KITE_SNAPSHOT writes the dump block of the tick and no other byte. The instants at which commands act, and what the rules leave open here, are the model's choice (log 1, 89, 92, 115). -/
def Obligations.ChannelEvents : Prop :=
  (∀ (t : Lapse) (s : State) (n : Nat) (ints : List (List (BitVec 8))),
    let a := s.elapse t
    let c := (a.chan n).takeInts (a.noInput (a.chan n).stream) a.tb.clk ints
    (n < 512 → (a.chan n).active = true → a.isOn 5 = true → a.clk.pllF.gives = true → c.interval = none →
        Answers (exec (.kiteLoopUpdate t n ints) s) fun u => u.chan n = c ∧ (∀ m, m < 512 → m ≠ n → u.chan m = a.chan m) ∧ u = a.putKite u.kite) ∧
    (∀ ks, n < 512 → (a.chan n).active = true → c.role = 0 → a.isOn 5 = true → a.clk.pllF.gives = true → c.interval = some ks →
        Answers (exec (.kiteLoopUpdate t n ints) s) fun u =>
          let w := c.ownLoops c.prof ks.length a.tb.clk (c.disc ks)
          (u.chan n).lp = w.lp ∧ (u.chan n).nco = w.nco ∧ (u.chan n).nco.carate = carrUnits (u.chan n).lp.dop ∧ (u.chan n).nco.clk = a.tb.clk ∧
          (u.chan n).ctrl = c.ctrlNext.getD c.ctrl ∧ (u.chan n).ctrlNext = none ∧ (u.chan n).prof = a.prof (fld (u.chan n).ctrl 47 43) ∧ (u.chan n).loopCnt = c.cnt ∧
          (u.chan n).state = c.state ∧ (u.chan n).sync = c.sync ∧ (u.chan n).cn0 = c.cn0 ∧ ((u.chan n).slips = c.slips ∨ (u.chan n).slips = (c.slips + 1) % 256) ∧
          (∀ m, m < 512 → m ≠ n → u.chan m = a.chan m) ∧ u = a.putKite u.kite)) ∧
  (∀ (t : Lapse) (s : State) (n : Nat),
    let a := s.elapse t
    let c := a.chan n
    let lock := decide ((fld c.prof.w2 35 24 : Int) ≤ c.pliOf)
    n < 512 → c.active = true → c.role = 0 → a.kite.trains = [] → tcanon {} a.kite.chans = true → a.isOn 5 = true → a.clk.pllF.gives = true → a.kite.evalClk = 0 ∨ a.kite.evalClk + 65472000 ≤ a.tb.clk →
      Answers (exec (.kiteEvaluation t) s) fun u =>
        (u.chan n).cn0 = a.cn0Of c ∧ (u.chan n).pli = c.pliOf ∧ (u.chan n).plock = lock ∧ (u.chan n).clock = decide (c.prof.cn0Loss ≤ a.cn0Of c) ∧
        (u.chan n).state = (if c.state = 1 ∧ c.prof.cn0Loss ≤ a.cn0Of c ∧ (c.prof.kind = 2 ∨ lock = true) then 2 else c.state) ∧
        (∀ m, m < 512 → (a.chan m).active = false → u.chan m = a.chan m) ∧ u.kite.evalClk = a.tb.clk ∧ u = a.putKite u.kite) ∧
  (∀ (t : Lapse) (s : State) (n : Nat),
    let a := s.elapse t
    let c := a.chan n
    (n < 512 → c.state = 1 → c.role = 0 → c.owner < 5 → a.isOn 5 = true → c.since + fld (a.profOf n).w1 33 22 * 654720 ≤ a.tb.clk →
        Answers (exec (.noPullIn t n) s) fun u =>
          (u.chan n).state = 3 ∧ (u.chan n).cause = 1 ∧ (u.chan n).plock = false ∧ (u.chan n).nco = (c.now a.tb.clk).nco ∧ (∀ m, m < 512 → m ≠ n → u.chan m = a.chan m) ∧
          ToldOne c.owner a u ∧ u.rest = (a.putKite u.kite).rest) ∧
    (n < 512 → c.state = 2 → c.role = 0 → a.isOn 5 = true → c.low.any (fun k => decide (k + (fld (a.profOf n).w1 21 10 + 99) / 100 * 65472000 ≤ a.tb.clk)) = true →
        Answers (exec (.cn0Loss t n) s) fun u =>
          (u.chan n).state = 3 ∧ (u.chan n).cause = 2 ∧ (u.chan n).plock = false ∧ (u.chan n).nco = (c.now a.tb.clk).nco ∧ (∀ m, m < 512 → m ≠ n → u.chan m = a.chan m) ∧
          (c.owner < 5 → ToldOne c.owner a u) ∧ u.rest = (a.putKite u.kite).rest) ∧
    (n < 512 → c.state = 2 → c.role = 2 → (a.train c.train).slots.head?.any (fun m => m != n) = true → a.isOn 5 = true → c.drop.any (fun k => decide (k + 1309440000 ≤ a.tb.clk)) = true →
        Answers (exec (.memberDrop t n) s) fun u =>
          (u.chan n).state = 3 ∧ (u.chan n).cause = 4 ∧ (u.chan n).role = 0 ∧ (u.train c.train).slots = (a.train c.train).slots.filter (· ≠ n) ∧
          (∀ m, m < 512 → m ≠ n → u.chan m = a.chan m) ∧ (c.owner < 5 → ToldOne c.owner a u) ∧ u.rest = (a.putKite u.kite).rest) ∧
    (n < 512 → c.state = 3 → c.since + 654720000 ≤ a.tb.clk →
        Answers (exec (.lostToIdle t n) s) fun u => u.chan n = {} ∧ (∀ m, m < 512 → m ≠ n → u.chan m = a.chan m) ∧ u = a.putKite u.kite) ∧
    (n < 512 → a.kite.chans = [(n, c)] → c.active = true → c.role = 0 → a.dom 5 = 1 → a.kite.retClk.any (fun k => decide (k + 6547200000 < a.tb.clk)) = true →
        Answers (exec (.d5RetentionTimeout t) s) fun u => (u.chan n).state = 3 ∧ (u.chan n).cause = 6 ∧ (c.owner < 5 → ToldOne c.owner a u) ∧ u.rest = (a.putKite u.kite).rest)) ∧
  (∀ (t : Lapse) (s : State) (x m : Nat),
    let a := s.elapse t
    let tr := a.train x
    x < 64 → m < 512 → tr.state = 2 → tr.slots = [m] → tr.coastClk + a.kite.coastMs * 654720 ≤ a.tb.clk → (a.profOf m).cn0Loss ≤ (a.chan m).cn0 → tr.owner < 5 →
      Answers (exec (.trainCoastTimeout t x) s) fun u =>
        u.train x = {} ∧ (u.chan m).state = 1 ∧ (u.chan m).role = 0 ∧ (u.chan m).coast = false ∧ (∀ k, k < 512 → k ≠ m → u.chan k = a.chan k) ∧
        ToldOne tr.owner a u ∧ u.rest = (a.putKite u.kite).rest) ∧
  (∀ (t : Lapse) (s : State) (ofs adr : Nat) (ds : List KDump),
    let a := s.elapse t
    let tk := qOfMs a.kite.lastMs
    let base := (Config.kiteBase 0).toNat + a.kite.blk % 16 * 8208
    a.isOn 5 = true → a.kite.dseq ≠ a.kite.blk → a.clk.pllF.gives = true →
      Answers (exec (.kiteSnapshot t ofs ds) s) fun u =>
        u.kite.dseq = a.kite.blk ∧ u.mem.reads base 16 = [word a.kite.blk, cyc tk, frc tk, pack [put 47 34 (min 12218 ofs), putB 33 a.chanClkq]] ++ List.replicate 12 0 ∧
        ((∀ k, k < 8208 → adr / 6 ≠ (base + k) % 2 ^ 24) → cellRead adr u.mem.cells = cellRead adr a.mem.cells) ∧ u = ((a.putKite u.kite).putMeas u.meas).putMem u.mem)

/-- Taken as new commands: SMP_CONFIG in range of a port not running puts it in READY with its words, or OFF when released; SMP_START with OP 0 and OP 1 is ACCEPTED with its tick, which each named port waits for; SMP_SLOTMASK of a running port waits for a frame, of a READY one is in force at once with one record. SMP_PORT_START at the tick makes the port RUNNING with index 0 to come and its header written; SMP_PORT_STOP makes it READY. The instants at which commands act, and what the rules leave open here, are the model's choice (log 1, 122). -/
def Obligations.SamplePortCommands : Prop :=
  (∀ (t : Lapse) (env : Env) (ps : List Word) (s : State),
    let a := s.elapse t
    let n := fld (arg ps 0) 47 45
    let p := smpOf (a.smp n) ps
    (a.admits 0x0A0 2 0xFFE env ps = true → smpFieldBad ps = false → p.en = false ∨ (0xC00000 ≤ p.base ∧ p.base + p.extent ≤ 0x1000000 ∧ a.ringsHit n p.base p.extent = false) → (a.smp n).state ≠ 2 →
      a.startPending n = false → p.angle = false ∨ (p.qty ≠ 0 ∧ a.kind p.qty ≠ 15) →
        Completes 0x0A0 1 [] env a (exec (.smpConfig t env ps) s) fun u =>
          (u.smp n).cfg0 = maskW (2 ^ 48 - 2 ^ 23) (arg ps 0) ∧ (u.smp n).cfg1 = (if p.angle then maskW (0xFFFF * 2 ^ 32) (arg ps 1) else arg ps 1) ∧ (u.smp n).cfg2 = arg ps 2 ∧ (u.smp n).cfg3 = maskW (2 ^ 48 - 2 ^ 16) (arg ps 3) ∧ (u.smp n).cfg4 = maskW (2 ^ 48 - 2 ^ 8) (arg ps 4) ∧
          (u.smp n).state = (if bit (arg ps 0) 44 then 1 else 0) ∧ (u.smp n).lock = false ∧ (u.smp n).startAt = none ∧ (∀ m, m < 8 → m ≠ n → u.smp m = a.smp m) ∧ u.rest = ((a.putPorts u.ports).putClk u.clk).rest) ∧
    (a.admits 0x0A0 2 0xFFE env ps = true → smpFieldBad ps = true →
        Completes 0x0A0 0x23 [1] env a (exec (.smpConfig t env ps) s) fun u => u.rest = a.rest)) ∧
  (∀ (t : Lapse) (env : Env) (ps0 : List Word) (s : State),
    let a := s.elapse t
    let tick := tickAfter a.tb.q0
    (a.admits 0x0A1 2 0xFFE env (fixField 47 46 0 ps0) = true → ps0.length = 1 → namedPorts (arg ps0 0) ≠ [] → (namedPorts (arg ps0 0)).all (fun n => (a.smp n).en) = true →
        Completes 0x0A1 0 [cyc tick, frc tick] env a (exec (.smpStart t env ps0) s) fun u =>
          (∀ n, n < 8 → u.smp n = if bit (arg ps0 0) (45 - n) then { a.smp n with startAt := some tick } else a.smp n) ∧ u.rest = (a.putPorts u.ports).rest) ∧
    (a.admits 0x0A1 2 0xFFE env (fixField 47 46 1 ps0) = true → ps0.length = 1 → namedPorts (arg ps0 0) ≠ [] → (namedPorts (arg ps0 0)).all (fun n => (a.smp n).en) = true →
        Completes 0x0A1 0 [cyc tick, frc tick] env a (exec (.smpStop t env ps0) s) fun u =>
          (∀ n, n < 8 → u.smp n = if bit (arg ps0 0) (45 - n) ∧ (a.smp n).state = 2 then { a.smp n with stopAt := some tick } else a.smp n) ∧ u.rest = (a.putPorts u.ports).rest)) ∧
  (∀ (t : Lapse) (env : Env) (ps : List Word) (s : State),
    let a := s.elapse t
    let n := fld (arg ps 0) 47 45
    (a.admits 0x0A2 2 0xFFE env ps = true → ps.length = 1 → (a.smp n).en = true → maskBad (maskOf (arg ps 0)) (a.smp n).nslots = false → (a.smp n).next = none → (a.smp n).state = 2 →
        Completes 0x0A2 0 [] env a (exec (.smpSlotmask t env ps) s) fun u =>
          u.smp n = { a.smp n with next := some ⟨maskOf (arg ps 0), a.jrn.next, env.partner⟩ } ∧ u.rest = (a.putPorts u.ports).rest) ∧
    (a.admits 0x0A2 2 0xFFE env ps = true → ps.length = 1 → (a.smp n).en = true → maskBad (maskOf (arg ps 0)) (a.smp n).nslots = false →
      (a.smp n).next = none → (a.smp n).state ≠ 2 →
        Completes 0x0A2 0 [] env a (exec (.smpSlotmask t env ps) s) fun u =>
          (u.smp n).mask = maskOf (arg ps 0) ∧ (u.smp n).maskOld = (a.smp n).mask ∧ (u.smp n).maskJ = 0 ∧ ToldOne env.partner a u ∧ u.rest = (a.putPorts u.ports).rest)) ∧
  (∀ (t : Lapse) (n adr : Nat) (q : Qval) (s : State),
    let a := s.elapse t
    let p := a.smp n
    (n < 8 → p.startAt = some q → behind a.tb.q0 q = false → p.en = true →
        Answers (exec (.smpPortStart t n) s) fun u =>
          (u.smp n).state = 2 ∧ (u.smp n).ts = q ∧ (u.smp n).wr = 0xFFFFFFFFFFFF#48 ∧ (u.smp n).startSeq = (p.startSeq + 1) % 2 ^ 16 ∧ (u.smp n).startAt = none ∧ (u.smp n).moved = 0 ∧
          u.mem.reads p.hdr 16 = (u.smp n).header ∧ ((∀ k, k < 16 → adr / 6 ≠ (p.hdr + k) % 2 ^ 24) → cellRead adr u.mem.cells = cellRead adr a.mem.cells) ∧
          u.wire = a.wire ++ [.startLine n q] ∧ (∀ m, m < 8 → m ≠ n → u.smp m = a.smp m) ∧ u = ((a.putPorts u.ports).putMem u.mem).putWire u.wire) ∧
    (n < 8 → p.stopAt = some q → behind a.tb.q0 q = false → p.state = 2 → a.idxFrom p p.nextIdx q = true →
        Answers (exec (.smpPortStop t n) s) fun u =>
          (u.smp n).state = 1 ∧ (u.smp n).stopAt = none ∧ (u.smp n).wr = p.wr ∧ u.mem.reads p.hdr 16 = (u.smp n).header ∧
          ((∀ k, k < 16 → adr / 6 ≠ (p.hdr + k) % 2 ^ 24) → cellRead adr u.mem.cells = cellRead adr a.mem.cells) ∧
          (∀ m, m < 8 → m ≠ n → u.smp m = a.smp m) ∧ u = (a.putPorts u.ports).putMem u.mem))

/-- SMP_FRAME_START counts the frames to its stamp, those missed among them, and takes the tracked edge and rate. A good one clears UNDERRUN, locks as R391 says, and in lock keeps the slots' words, read MSB first off the line; a staged mask takes effect with one record. A wrong one, and the first missing frame, drop the lock, count one underrun and raise one record. SMP_SAMPLE_WRITE of the next index advances WR, writes each enabled slot's word in its ring and then the header, and changes no other byte; a filled index is counted. SMP_AUDIO after 8,192 frames without a preamble ends the mute with one record. The instants at which commands act, the frequency loop's coefficients and what the rules leave open here, are the model's choice (log 1, 123, 125, 127, 199). -/
def Obligations.SampleFramesAndRings : Prop :=
  (∀ (t : Lapse) (n : Nat) (rising : Bool) (bclk clocks : Nat) (line : List (Bool × Bool)) (s : State),
    let a := s.elapse t
    let p := a.smp n
    let st := if a.clk.direct then qadd a.tb.q0 (-((Config.freeNat a.fresh % 28147498 : Nat) : Int)) else a.tb.q0
    let y := p.tracked st
    let r := (psOfUnits (qdist st y.edge)).natAbs
    let rs := (r :: p.resids).take 64
    let good := if p.hadLock = false ∨ r < 100000 then min 64 (p.good + 1) else 0
    n < 8 → p.en = true → a.isOn 10 = true → a.pinsLatched 10 = false → p.starts rising = true → bit p.cfg0 28 = false → p.state ≠ 2 →
      Answers (exec (.smpFrameStart t n rising bclk clocks line) s) fun u =>
        (u.smp n).frame = (p.frame + p.framesTo st) % 2 ^ 48 ∧ (u.smp n).edge = y.edge ∧ (u.smp n).rate = y.rate ∧ (u.smp n).wr = p.wr ∧ (∀ m, m < 8 → m ≠ n → u.smp m = a.smp m) ∧
        u.rest = ((a.putPorts u.ports).putFresh u.fresh).rest ∧
        (p.countBad clocks = true ∨ y.rateBad bclk = true →
          (u.smp n).lock = false ∧ (u.smp n).under = true ∧ (u.smp n).fmtErr = true ∧ (u.smp n).mask = p.mask ∧ (u.smp n).next = p.next ∧
          (p.under = false → (u.smp n).underruns = satN 16 (p.underruns + 1) ∧ (tget none (0xB01 * 65536 + n) a.raised = none → Told a u))) ∧
        (p.countBad clocks = false → y.rateBad bclk = false →
          (u.smp n).under = false ∧ (u.smp n).fmtErr = false ∧ (u.smp n).good = good ∧
          (u.smp n).lock = (p.lock || (if p.hadLock then decide (16 ≤ good) else decide (rs.length = 64) && decide (rs.foldl (fun x e => x + e * e) 0 < 64 * 20000 ^ 2))) ∧
          ((u.smp n).lock = true →
            (u.smp n).inputs.getLast?.map (fun f => (f.idx, f.at_, f.vals, f.direct)) = some (y.frame, qadd y.edge (-p.inDly), (List.range p.nslots).map (p.word_ line), a.clk.direct)) ∧
          (p.next = none → (u.smp n).mask = p.mask ∧ u.parts = a.parts) ∧
          (∀ w, p.next = some w → w.partner < 5 → (u.smp n).mask = w.mask ∧ (u.smp n).maskOld = p.mask ∧ (u.smp n).maskFrame = word y.frame ∧ (u.smp n).next = none ∧ ToldOne w.partner a u))) ∧
  (∀ (t : Lapse) (n pair bclk : Nat) (s : State),
    let a := s.elapse t
    let p := a.smp n
    (n < 8 → p.en = true → a.isOn 10 = true → a.pinsLatched 10 = false → (p.rate ≠ 0 ∧ behind a.tb.q0 (p.predicted 3) = false) ∨ p.rateBad bclk = true → p.under = false → tget none (0xB01 * 65536 + n) a.raised = none →
        Answers (exec (.smpMissingFrame t n bclk) s) fun u =>
          (u.smp n).lock = false ∧ (u.smp n).under = true ∧ (u.smp n).underruns = satN 16 (p.underruns + 1) ∧ (u.smp n).fmtErr = p.rateBad bclk ∧ (u.smp n).edge = p.edge ∧
          Told a u ∧ (∀ m, m < 8 → m ≠ n → u.smp m = a.smp m) ∧ u.rest = (a.putPorts u.ports).rest) ∧
    (n < 8 → pair < 8 → (p.pair pair).muted = true → (p.pair pair).since + 8192 ≤ p.frame → tget none (0xB04 * 65536 + n) a.raised = none →
        Answers (exec (.smpAudio t n pair) s) fun u =>
          (u.smp n).pair pair = { p.pair pair with muted := false } ∧ (u.smp n).mask = p.mask ∧
          Told a u ∧ (∀ m, m < 8 → m ≠ n → u.smp m = a.smp m) ∧ u.rest = (a.putPorts u.ports).rest)) ∧
  (∀ (t : Lapse) (n adr k : Nat) (c : Place) (s : State),
    let a := s.elapse t
    let p := a.smp n
    let j := p.nextIdx
    let w := a.span p c.at_
    let fs := p.within c.at_ w
    let all := c.lost || a.tooFast p c.at_ || p.lacks c.at_ w fs
    let muted := fs.any fun f => f.muted.contains (k / 2)
    let v := Config.resample (fs.map fun f => (qdist f.at_ c.at_, f.vals.getD k 0)) p.rate.toNat (a.outRate p c.at_)
    (n < 8 → p.state = 2 → a.isOn 10 = true → a.clk.pllW.gives = true → a.place p j = some c → w + max p.inDly 0 ≤ qdist a.tb.q0 c.at_ → p.stopAt.all (fun q => behind c.at_ q) = true → p.inFill = false ∨ all = true →
        Answers (exec (.smpSampleWrite t n) s) fun u =>
          (u.smp n).wr = word j ∧ (u.smp n).wrFrame = p.frameAt c.at_ ∧ (u.smp n).frame = p.frame ∧ (u.smp n).filled = (if all then satN 24 (p.filled + 1) else p.filled) ∧
          u.mem.reads p.hdr 16 = (u.smp n).header ∧
          ((∀ i, i < 16 → adr / 6 ≠ (p.hdr + i) % 2 ^ 24) → (∀ i, i < p.nslots → adr / 6 ≠ (p.base + i * p.len + j % p.len) % 2 ^ 24) → cellRead adr u.mem.cells = cellRead adr a.mem.cells) ∧
          (∀ m, m < 8 → m ≠ n → u.smp m = a.smp m) ∧ u = (a.putPorts u.ports).putMem u.mem) ∧
    (n < 8 → p.state = 2 → a.isOn 10 = true → a.clk.pllW.gives = true → a.place p j = some c → w + max p.inDly 0 ≤ qdist a.tb.q0 c.at_ → p.stopAt.all (fun q => behind c.at_ q) = true → p.base + p.extent ≤ 2 ^ 24 →
      k < p.nslots → p.writes k j = true →
        Answers (exec (.smpSampleWrite t n) s) fun u =>
          u.mem.read (p.base + k * p.len + j % p.len) =
            slotWord (if bit p.cfg0 29 then tget 0 k p.lastVal else 0) all muted (a.clk.pllW.state == 3 || fs.any fun f => f.direct) c.est (decide (256 * a.outRate p c.at_ < p.rate.toNat)) v j))

/-- RTC_SET is ACCEPTED and waits for the tick; TETHER without a time is refused with REASON 2, a reserved FORM or a LEN that does not match with REASON 1. RTC_ALARM is DONE and its words wait, or is refused with REASON 1. RTC_COMMIT_TICK: a waiting set becomes the count with no increment and a cleared extension, waiting alarm words take effect and clear FIRED and MISSED, and otherwise the count goes on by 2^26 + TRIM. A matching alarm in a second entered by counting fires: FIRED_x sets, EN clears without REPEAT, every partner with rights gets a record; before ready the record waits, and an alarm with WAKE asks for a wake in dormant state. AUTO_SYNC commits Tether time where the two differ by more than SYNC_US, and a leap change of D0 comes at RTC_LEAP_AT. The instants at which commands act, and what the rules leave open here, are the model's choice (log 1, 141, 142, 148). -/
def Obligations.RtcCommands : Prop :=
  (∀ (t : Lapse) (env : Env) (ps : List Word) (s : State),
    let a := s.elapse t
    let form := fld (arg ps 0) 47 46
    (a.admits 0x0D0 3 0xFFE env ps = true → form = 0 → ps.length = 3 →
        Completes 0x0D0 0 [] env a (exec (.rtcSet t env ps) s) fun u =>
          u.rtc = { a.rtc with setNext := some (.value (some (arg ps 1).toNat) (some (fld (arg ps 2) 47 32))) } ∧
          (u.stage.all fun c => c.key != .rtc || decide (c.st = .lost)) = true ∧ u.rest = ((a.putRtc u.rtc).putStage u.stage).rest) ∧
    (a.admits 0x0D0 3 0xFFE env ps = true → form = 1 → ps.length = 1 → a.tb.tsrc ≠ 0 →
        Completes 0x0D0 0 [] env a (exec (.rtcSet t env ps) s) fun u =>
          u.rtc = { a.rtc with setNext := some .tether } ∧
          (u.stage.all fun c => c.key != .rtc || decide (c.st = .lost)) = true ∧ u.rest = ((a.putRtc u.rtc).putStage u.stage).rest) ∧
    (a.admits 0x0D0 3 0xFFE env ps = true → form = 1 → ps.length = 1 → a.tb.tsrc = 0 →
        Completes 0x0D0 0x33 [2] env a (exec (.rtcSet t env ps) s) fun u => u.rest = a.rest) ∧
    (a.admits 0x0D0 3 0xFFE env ps = true → 2 ≤ form ∨ (form = 0 ∧ ps.length ≠ 3) ∨ (form = 1 ∧ ps.length ≠ 1) →
        Completes 0x0D0 0x23 [1] env a (exec (.rtcSet t env ps) s) fun u => u.rest = a.rest) ∧
    (a.admits 0x0D1 2 0xFFE env ps = true → ps.length = 3 → almBad (arg ps 1) (arg ps 2) = false →
        Completes 0x0D1 1 [] env a (exec (.rtcAlarm t env ps) s) fun u =>
          u.rtc = a.rtc.setAlarm (fld (arg ps 0) 47 47) (some (arg ps 1)) (some (arg ps 2)) true ∧ u.rest = (a.putRtc u.rtc).rest) ∧
    (a.admits 0x0D1 2 0xFFE env ps = true → ps.length ≠ 3 ∨ almBad (arg ps 1) (arg ps 2) = true →
        Completes 0x0D1 0x23 [1] env a (exec (.rtcAlarm t env ps) s) fun u => u.rest = a.rest)) ∧
  (∀ (n : Nat) (s : State),
    let b := s.elapse ⟨n, 0⟩
    (b.rtc.setNext = none → b.rtc.trimNext = none →
        Answers (exec (.rtcCommitTick ⟨n, 1⟩) s) fun u =>
          u.rtc.low = (b.rtc.low + ((2 : Int) ^ 26 + b.rtc.trim).toNat) % 2 ^ 42 ∧ u.rtc.sec = (b.rtc.sec + (b.rtc.low + ((2 : Int) ^ 26 + b.rtc.trim).toNat) / 2 ^ 42) % 2 ^ 48 ∧
          u.tb = b.tb ∧ u = b.putRtc u.rtc) ∧
    (b.rtc.setNext = some .tether →
        Answers (exec (.rtcCommitTick ⟨n, 1⟩) s) fun u =>
          u.rtc.sec = (cyc b.tb.q0).toNat ∧ u.rtc.low = (frc b.tb.q0).toNat / 2 ^ 32 * 2 ^ 26 ∧ u.rtc.setNext = none ∧ u = b.putRtc u.rtc) ∧
    (∀ x y, b.rtc.setNext = some (.value (some x) (some y)) →
        Answers (exec (.rtcCommitTick ⟨n, 1⟩) s) fun u =>
          u.rtc.sec = x ∧ u.rtc.low = y * 2 ^ 26 ∧ u.rtc.setNext = none ∧ u = b.putRtc u.rtc)) ∧
  (∀ (n : Nat) (v c : Word) (s : State),
    let b := s.elapse ⟨n, 0⟩
    (b.rtc.nextA = some (some v, some c, true) → b.rtc.setNext = none →
        Answers (exec (.rtcCommitTick ⟨n, 1⟩) s) fun u =>
          u.rtc.valA = v ∧ u.rtc.ctlA = c ∧ u.rtc.nextA = none ∧ u.rtc.stat.testBit 0 = false ∧ u.rtc.stat.testBit 2 = false) ∧
    (b.rtc.nextB = some (some v, some c, true) → b.rtc.setNext = none →
        Answers (exec (.rtcCommitTick ⟨n, 1⟩) s) fun u =>
          u.rtc.valB = v ∧ u.rtc.ctlB = c ∧ u.rtc.nextB = none ∧ u.rtc.stat.testBit 1 = false ∧ u.rtc.stat.testBit 3 = false)) ∧
  (∀ (t : Lapse) (x : Nat) (s : State),
    let a := s.elapse t
    let c := a.rtc.ctl x
    (x < 2 → a.rtc.due x = true → a.pwr.ready = true →
        Answers (exec (.alarmFire t x) s) fun u =>
          u.rtc.stat = setBit a.rtc.stat x ∧ u.rtc.ctl x = (if bit c 38 then c else maskW (2 ^ 47 - 1) c) ∧ u.rtc.due x = false ∧
          u.rtc.ctl (1 - x) = a.rtc.ctl (1 - x) ∧ u.rtc.sec = a.rtc.sec ∧ u.rtc.low = a.rtc.low ∧
          Told a u ∧ u.rest = (a.putRtc u.rtc).rest) ∧
    (x < 2 → a.rtc.due x = true → a.pwr.ready = false →
        Answers (exec (.alarmFire t x) s) fun u =>
          u.rtc.stat = setBit a.rtc.stat x ∧ u.rtc.alarmRecs.length = a.rtc.alarmRecs.length + 1 ∧
          (a.pwr.phase = .dormant → a.rtc.source = 0 → a.pwr.dormLoss = false → bit c 39 = true → u.pwr.wakeReq = some (a.pwr.wakeReq.getD 5)) ∧
          u.parts = a.parts ∧ u.jrn = a.jrn ∧ u.rest = ((a.putRtc u.rtc).putPwr { a.pwr with wakeReq := u.pwr.wakeReq }).rest)) ∧
  (∀ (t : Lapse) (s : State),
    let a := s.elapse t
    let off := (qdist a.rtc.instant a.tb.q0).natAbs
    (bit a.rtc.cfg 47 = true → atSecond a.tb = true → (cyc a.tb.q0).toNat % 10 = 0 → a.pwr.ready = true → a.tb.tsrc = 1 ∨ a.tb.tsrc = 3 → fld a.rtc.cfg 46 31 * 2 ^ 48 < off * 10 ^ 6 →
        exec (.autoSync t) s = .next (a.putRtc { a.rtc with setNext := some .tether })) ∧
    (bit a.rtc.cfg 47 = false ∨ (a.tb.tsrc ≠ 1 ∧ a.tb.tsrc ≠ 3) ∨ off * 10 ^ 6 ≤ fld a.rtc.cfg 46 31 * 2 ^ 48 →
        exec (.autoSync t) s = .next a) ∧
    (a.rtc.leapNext ≠ a.rtc.leapNow → a.rtc.leapAt ≤ a.rtc.sec →
        exec (.rtcLeapChange t) s = .next (a.putRtc { a.rtc with leapNow := a.rtc.leapNext })))

/-- MANUAL writes TRIM at the next tick. MAINS (on the AC module; refused with REASON 2 on the DC module), TETHER and PARTNER_OPEN end the running window as ABORTED and open theirs. PARTNER_CLOSE ends the window of the partner that opened it, with the difference of the two given times as the true time; it is refused without one, or before 1 h. STOP ends the window. A MAINS window ends at or after WINDOW_H hours, a TETHER window at the first whole second from there on, TRIM takes the measured error clamped to its limits, and AUTO opens the next window. A PARTNER window ends after 168 h. The instants at which commands act, and what the rules leave open here, are the model's choice (log 1, 143, 144, 145, 147). -/
def Obligations.RtcTrim : Prop :=
  (∀ (t : Lapse) (env : Env) (ps : List Word) (s : State),
    let a := s.elapse t
    let w0 := arg ps 0
    let trim := sfld w0 44 28
    let given := (mkQ (arg ps 1) (arg ps 2)).toNat
    (a.admits 0x0D2 3 0xFFE env (fixField 47 45 0 ps) = true → ps.length = 1 → -34359 ≤ trim → trim ≤ 34359 → fld w0 27 20 ≤ 168 →
        Completes 0x0D2 1 [] env a (exec (.rtcTrimManual t env ps) s) fun u =>
          u.rtc.trimNext = some trim ∧ u.rtc.trim = a.rtc.trim ∧ u.rtc.keep.clock = some { a.clockKeep with trim := trim } ∧ u.rtc.trimSat = false ∧
          (a.rtc.run = none → u.rtc.trimSrc = 0 ∧ u.rtc.trimState = 0) ∧ u.rtc.sec = a.rtc.sec ∧ u.rtc.low = a.rtc.low ∧ u.rest = (a.putRtc u.rtc).rest) ∧
    (a.admits 0x0D2 3 0xFFE env (fixField 47 45 0 ps) = true → ps.length ≠ 1 ∨ trim < -34359 ∨ 34359 < trim ∨ 168 < fld w0 27 20 →
        Completes 0x0D2 0x23 [1] env a (exec (.rtcTrimManual t env ps) s) fun u => u.rest = a.rest) ∧
    (a.admits 0x0D2 3 0xFFE env (fixField 47 45 1 ps) = true → ps.length = 1 → fld w0 27 20 ≤ 168 → a.pwr.good = true → a.rtc.run = none →
        Answers (exec (.rtcTrimMains t env ps) s) fun u =>
          (Config.inputAc = false → Shows 0x0D2 0x33 [2] env a u ∧ u.rest = a.rest) ∧
          (Config.inputAc = true → Shows 0x0D2 1 [] env a u ∧ u.rtc.run = some { kind := 1, owner := some env.partner, hours := (if fld w0 27 20 = 0 then 24 else fld w0 27 20), auto := bit w0 19, waiting := false, rtc0 := a.rtc.counted, true0 := 0 } ∧ u.rtc.trimSrc = 1 ∧ u.rtc.trimState = 1 ∧ u.rest = (a.putRtc u.rtc).rest)) ∧
    (a.admits 0x0D2 3 0xFFE env (fixField 47 45 2 ps) = true → ps.length = 1 → fld w0 27 20 ≤ 168 → a.tb.tsrc = 1 ∨ a.tb.tsrc = 3 →
      a.rtc.run = none ∨ a.rtc.run.any (fun r => r.waiting) = true →
        Completes 0x0D2 1 [] env a (exec (.rtcTrimTether t env ps) s) fun u =>
          u.rtc.run = some { kind := 2, owner := some env.partner, hours := (if fld w0 27 20 = 0 then 1 else fld w0 27 20), auto := bit w0 19, waiting := false, rtc0 := a.rtc.counted, true0 := a.tb.q0.toNat } ∧
          u.rtc.trimSrc = 2 ∧ u.rtc.trimState = 1 ∧ u.rtc.trim = a.rtc.trim ∧ u.rest = (a.putRtc u.rtc).rest) ∧
    (a.admits 0x0D2 3 0xFFE env (fixField 47 45 2 ps) = true → ps.length = 1 → fld w0 27 20 ≤ 168 → a.tb.tsrc ≠ 1 → a.tb.tsrc ≠ 3 →
        Completes 0x0D2 0x33 [2] env a (exec (.rtcTrimTether t env ps) s) fun u => u.rest = a.rest) ∧
    (a.admits 0x0D2 3 0xFFE env (fixField 47 45 3 ps) = true → ps.length = 4 → fld w0 27 20 ≤ 168 → fld (arg ps 3) 47 24 ≠ 0 → a.rtc.run = none →
        Completes 0x0D2 1 [] env a (exec (.rtcTrimPartnerOpen t env ps) s) fun u =>
          u.rtc.run = some { kind := 3, owner := some env.partner, hours := fld w0 27 20, auto := bit w0 19, waiting := false, rtc0 := a.rtc.counted, true0 := given, sigma := fld (arg ps 3) 47 24 } ∧
          u.rtc.trimSrc = 3 ∧ u.rtc.trimState = 1 ∧ u.rtc.trim = a.rtc.trim ∧ u.rest = (a.putRtc u.rtc).rest) ∧
    (a.admits 0x0D2 3 0xFFE env (fixField 47 45 4 ps) = true → ps.length = 4 → fld w0 27 20 ≤ 168 → fld (arg ps 3) 47 24 ≠ 0 →
      a.rtc.run.all (fun r => r.kind != 3 || r.owner != some env.partner) = true →
        Completes 0x0D2 0x33 [3] env a (exec (.rtcTrimPartnerClose t env ps) s) fun u => u.rest = a.rest)) ∧
  (∀ (t : Lapse) (env : Env) (ps : List Word) (s : State) (r : TrimRun),
    let a := s.elapse t
    let given := (mkQ (arg ps 1) (arg ps 2)).toNat
    let old := a.rtc.trimNext.getD a.rtc.trim
    (a.admits 0x0D2 3 0xFFE env (fixField 47 45 4 ps) = true → ps.length = 4 → fld (arg ps 0) 27 20 ≤ 168 → fld (arg ps 3) 47 24 ≠ 0 → a.rtc.run = some r → r.kind = 3 →
      r.owner = some env.partner → a.rtc.counted < r.rtc0 + 3600 * 2 ^ 42 →
        Completes 0x0D2 0x23 [4] env a (exec (.rtcTrimPartnerClose t env ps) s) fun u => u.rest = a.rest) ∧
    (a.admits 0x0D2 3 0xFFE env (fixField 47 45 4 ps) = true → ps.length = 4 → fld (arg ps 0) 27 20 ≤ 168 → fld (arg ps 3) 47 24 ≠ 0 → a.rtc.run = some r →
      r.kind = 3 → r.owner = some env.partner → r.rtc0 + 3600 * 2 ^ 42 ≤ a.rtc.counted → r.true0 < given →
        Completes 0x0D2 1 [] env a (exec (.rtcTrimPartnerClose t env ps) s) fun u =>
          u.rtc.run = (if r.auto then some { r with waiting := false, rtc0 := a.rtc.counted, true0 := given, sigma := fld (arg ps 3) 47 24 } else none) ∧ u.rtc.trimState = (if r.auto then 1 else 2) ∧
          u.rtc.trimNext = (if 20 * max r.sigma (fld (arg ps 3) 47 24) * 2 ^ 48 ≤ given - r.true0 then
            some (trimClamp (old - roundOpen ((((a.rtc.counted : Int) - r.rtc0) * 2 ^ 48 - ((given : Int) - r.true0) * 2 ^ 42) * 2 ^ 26) (((given : Int) - r.true0) * 2 ^ 42))) else a.rtc.trimNext) ∧
          ToldOne env.partner a u ∧ u.rtc.trim = a.rtc.trim ∧ u.rtc.sec = a.rtc.sec ∧ u.rest = (a.putRtc u.rtc).rest) ∧
    (a.admits 0x0D2 3 0xFFE env (fixField 47 45 5 ps) = true → ps.length = 1 → fld (arg ps 0) 27 20 ≤ 168 → a.rtc.run = some r → r.waiting = false →
        Completes 0x0D2 1 [] env a (exec (.rtcTrimStop t env ps) s) fun u =>
          u.rtc = { a.rtc with run := none, trimState := 3, applied := false } ∧ (r.owner = some env.partner → ToldOne env.partner a u) ∧ u.rest = (a.putRtc u.rtc).rest) ∧
    (a.admits 0x0D2 3 0xFFE env (fixField 47 45 5 ps) = true → ps.length = 1 → fld (arg ps 0) 27 20 ≤ 168 → a.rtc.run.all (fun r => r.waiting) = true →
        Completes 0x0D2 1 [] env a (exec (.rtcTrimStop t env ps) s) fun u => u.rtc = { a.rtc with run := none } ∧ u.rest = (a.putRtc u.rtc).rest)) ∧
  (∀ (t : Lapse) (s : State) (r : TrimRun),
    let a := s.elapse t
    let d := qdist a.tb.q0 (BitVec.ofNat 96 r.true0)
    let old := a.rtc.trimNext.getD a.rtc.trim
    (a.rtc.run = some r → r.waiting = false → r.kind = 1 → r.hours * 3600 * 2 ^ 42 ≤ a.rtc.counted - r.rtc0 → 0 < r.true0 →
        Answers (exec (.trimWindowEnd t) s) fun u =>
          u.rtc.trimNext = some (trimClamp (old - roundOpen ((((a.rtc.counted : Int) - r.rtc0) * a.nominalHz - r.true0 * 2 ^ 42) * 2 ^ 26) (r.true0 * 2 ^ 42))) ∧
          u.rtc.run = (if r.auto then some { r with waiting := false, rtc0 := a.rtc.counted, true0 := 0 } else none) ∧ u.rtc.trimState = (if r.auto then 1 else 2) ∧
          u.rtc.trim = a.rtc.trim ∧ u.rtc.sec = a.rtc.sec ∧ u.rtc.low = a.rtc.low ∧ (∀ p, r.owner = some p → p < 5 → ToldOne p a u) ∧ u.rest = (a.putRtc u.rtc).rest) ∧
    (a.rtc.run = some r → r.waiting = false → r.kind = 2 → atSecond a.tb = true → (r.hours * 3600 * 2 ^ 48 : Int) ≤ d → 0 < d →
        Answers (exec (.trimWindowEnd t) s) fun u =>
          u.rtc.trimNext = some (trimClamp (old - roundOpen ((((a.rtc.counted : Int) - r.rtc0) * 2 ^ 48 - d * 2 ^ 42) * 2 ^ 26) (d * 2 ^ 42))) ∧
          u.rtc.run = (if r.auto then some { r with waiting := false, rtc0 := a.rtc.counted, true0 := a.tb.q0.toNat } else none) ∧ u.rtc.trimState = (if r.auto then 1 else 2) ∧
          u.rtc.trim = a.rtc.trim ∧ u.rtc.sec = a.rtc.sec ∧ u.rtc.low = a.rtc.low ∧ (∀ p, r.owner = some p → p < 5 → ToldOne p a u) ∧ u.rest = (a.putRtc u.rtc).rest) ∧
    (a.rtc.run = some r → r.waiting = false → r.kind = 3 → r.rtc0 + 168 * 3600 * 2 ^ 42 ≤ a.rtc.counted →
        Answers (exec (.trimWindowTimeout t) s) fun u =>
          u.rtc = { a.rtc with run := (if r.owner = none then some ownTrim else none), trimState := 3, applied := false } ∧ (∀ p, r.owner = some p → p < 5 → ToldOne p a u) ∧ u.rest = (a.putRtc u.rtc).rest))

/-- BACKUP_CONFIG waits for the next tick, or is refused with REASON 1. CELL_MEASUREMENT shows the voltage, CELL_ABSENT below 1,000 mV and CELL_LOW from there to LOW_V; on setting in operation each raises its FAULT record once in 24 h to every partner with rights. SWITCHOVER counts, stamps the first one and stops the OCXO, SWITCH_RETURN stamps the return and starts it again. AON_COLD puts the RTC block at its reset values, keeping the backup store, and stops the OCXO. The instants at which commands act, and what the rules leave open here, are the model's choice (log 1, 149). -/
def Obligations.CellAndBackup : Prop :=
  (∀ (t : Lapse) (env : Env) (ps : List Word) (s : State),
    let a := s.elapse t
    (a.admits 0x0D3 3 0xFFE env ps = true → ps.length = 1 → bkBad (arg ps 0) = false →
        Completes 0x0D3 1 [] env a (exec (.backupConfig t env ps) s) fun u =>
          u.rtc = { a.rtc with bkNext := some (maskW (2 ^ 48 - 2 ^ 24) (arg ps 0)), clrNext := a.rtc.clrNext || bit (arg ps 0) 23 } ∧ u.rest = (a.putRtc u.rtc).rest) ∧
    (a.admits 0x0D3 3 0xFFE env ps = true → ps.length ≠ 1 ∨ bkBad (arg ps 0) = true →
        Completes 0x0D3 0x23 [1] env a (exec (.backupConfig t env ps) s) fun u => u.rest = a.rest)) ∧
  (∀ (t : Lapse) (mv : Nat) (s : State),
    let a := s.elapse t
    let lowV := 10 * fld a.rtc.bk 32 24
    (mv < 4096 → lowV ≤ mv → 1000 ≤ mv →
        Answers (exec (.cellMeasurement t mv) s) fun u =>
          u.rtc = { a.rtc with cellMv := mv, absent := false, low_ := false, chgFull := decide (10 * fld a.rtc.bk 41 33 ≤ mv) || (a.rtc.chgFull && decide (10 * fld a.rtc.bk 41 33 < mv + 100)) } ∧
          u.parts = a.parts ∧ u.jrn = a.jrn ∧ u.rest = (a.putRtc u.rtc).rest) ∧
    (1000 ≤ mv → mv < lowV → a.rtc.low_ = false → a.rtc.lastLow = none → a.pwr.ready = true →
        Answers (exec (.cellMeasurement t mv) s) fun u =>
          u.rtc.cellMv = satN 12 mv ∧ u.rtc.low_ = true ∧ u.rtc.absent = false ∧ u.rtc.lastLow = some a.rtc.ticks ∧ u.rtc.sec = a.rtc.sec ∧ u.rtc.low = a.rtc.low ∧ u.rtc.trim = a.rtc.trim ∧
          Told a u ∧ u.rest = (a.putRtc u.rtc).rest) ∧
    (mv < 1000 → a.rtc.absent = false → a.rtc.lastAbsent = none → a.pwr.ready = true →
        Answers (exec (.cellMeasurement t mv) s) fun u =>
          u.rtc.cellMv = mv ∧ u.rtc.low_ = false ∧ u.rtc.absent = true ∧ u.rtc.lastAbsent = some a.rtc.ticks ∧ u.rtc.sec = a.rtc.sec ∧ u.rtc.low = a.rtc.low ∧ u.rtc.trim = a.rtc.trim ∧
          Told a u ∧ u.rest = (a.putRtc u.rtc).rest)) ∧
  (∀ (t : Lapse) (s : State),
    let a := s.elapse t
    a.pwr.good = false → a.rtc.source = 0 → a.pwr.timeDown = false → a.pwr.phase = .shed →
      exec (.switchover t) s = .next ((a.putRtc { a.rtc with source := 1, swCount := satN 48 (a.rtc.swCount + 1), swFirst := some (a.rtc.swFirst.getD (a.rtc.sec, a.rtc.frac)) }).putClk { a.clk with stopped := true })) ∧
  (∀ (t : Lapse) (mv : Nat) (s : State),
    let a := s.elapse t
    a.rtc.source = 1 →
      Answers (exec (.switchReturn t mv) s) fun u =>
        u.rtc = { a.rtc with source := 0, swRet := some (a.rtc.sec, a.rtc.frac), swPend := some (satN 12 mv) } ∧
        u.clk = (if a.clk.stopped then { a.clk with ocxo := 0, warmed := false, powerClk := a.tb.clk, refOk := true, lostClk := none, stopped := false } else a.clk) ∧
        u = (a.putRtc u.rtc).putClk u.clk) ∧
  (∀ (t : Lapse) (s : State),
    let a := s.elapse t
    a.pwr.good = false → a.pwr.timeDown = false → a.pwr.phase = .shed →
      Answers (exec (.aonCold t) s) fun u =>
        u.rtc = { keep := a.rtc.keep, keepOld := a.rtc.keepOld, gens := a.rtc.gens } ∧ u.clk = { a.clk with stopped := true } ∧ u.rtc.sec = 0 ∧ u.rtc.coldPend = true ∧ u.host = { a.host with s0 := {} } ∧ u.pwr.padCfg = 6 ∧ u.pwr.latched = 0 ∧ u.pwr.phase = .shed ∧
        u.parts = a.parts ∧ u.jrn = a.jrn ∧ u.rest = (((a.putRtc u.rtc).putPwr u.pwr).putClk u.clk).rest)

/-- PWR_BUDGET sets LAT and FULL of each class that it names for its partner and of no other, or is refused with REASON 1. PWR_DOMAIN FORCE is ACCEPTED, keeps the force and brings the domain to its state; a force against Table 2 is refused with REASON 2. RELEASE takes force and point away. DORMANT is ACCEPTED where a wake is armed and nothing is under way. PAD_RELEASE opens the latches named, or is refused with REASON 2 for a latched domain that is not on. The instants at which commands act, and what the rules leave open here, are the model's choice (log 1, 155, 156). -/
def Obligations.PowerCommands : Prop :=
  ∀ (t : Lapse) (env : Env) (ps : List Word) (s : State),
    let a := s.elapse t
    let d := fld (arg ps 0) 45 42
    (a.admits 0x0C0 2 0xFFE env ps = true → ps.length = 1 → fld (arg ps 0) 47 45 < 7 →
        Completes 0x0C0 1 [] env a (exec (.pwrBudget t env ps) s) fun u =>
          u.budget env.partner (fld (arg ps 0) 47 45) = ⟨fld (arg ps 0) 44 21, bit (arg ps 0) 20⟩ ∧
          (∀ p, p < 5 → ∀ c, c < 7 → (p ≠ env.partner ∨ c ≠ fld (arg ps 0) 47 45) → u.budget p c = a.budget p c) ∧ u.pwr = { a.pwr with buds := u.pwr.buds } ∧ u.rest = (a.putPwr u.pwr).rest) ∧
    (a.admits 0x0C0 2 0xFFE env ps = true → ps = [] ∨ 7 < ps.length ∨ (ps.map fun w => fld w 47 45).contains 7 = true →
        Completes 0x0C0 0x23 [1] env a (exec (.pwrBudget t env ps) s) fun u => u.rest = a.rest) ∧
    (a.admits 0x0C1 3 0xFFE env (fixField 47 46 0 ps) = true → ps.length = 1 → fld (arg ps 0) 41 40 = 0 → fld (arg ps 0) 39 38 = 0 → d = 1 ∨ (3 ≤ d ∧ d ≤ 11) → a.isOn d = true →
      a.breaksTable d 2 = false →
        Completes 0x0C1 0 [] env a (exec (.pwrDomainForce t env ps) s) fun u =>
          u.forced d = 1 ∧ tget 0 d u.pwr.fpt = 0 ∧ u.pwr = { a.pwr with force := u.pwr.force, fpt := u.pwr.fpt } ∧ u.rest = (a.putPwr u.pwr).rest) ∧
    (a.admits 0x0C1 3 0xFFE env (fixField 47 46 0 ps) = true → ps.length = 1 → fld (arg ps 0) 41 40 = 2 → fld (arg ps 0) 39 38 = 0 → d = 5 → a.isOn 5 = true → a.breaksTable 5 0 = false →
        Completes 0x0C1 0 [] env a (exec (.pwrDomainForce t env ps) s) fun u =>
          u.forced 5 = 3 ∧ u.dom 5 = 0 ∧ (∀ x, x < 12 → x ≠ 5 → u.dom x = a.dom x) ∧ u.kite.chans.all (fun e => !e.2.active) = true) ∧
    (a.admits 0x0C1 3 0xFFE env (fixField 47 46 0 ps) = true → ps.length = 1 → fld (arg ps 0) 41 40 = 2 → fld (arg ps 0) 39 38 = 0 → d = 6 ∨ d = 7 →
        Completes 0x0C1 0x33 [2] env a (exec (.pwrDomainForce t env ps) s) fun u => u.rest = a.rest) ∧
    (a.admits 0x0C1 3 0xFFE env (fixField 47 46 1 ps) = true → ps.length = 1 → d = 1 ∨ (3 ≤ d ∧ d ≤ 11) →
        Completes 0x0C1 0 [] env a (exec (.pwrDomainRelease t env ps) s) fun u =>
          u.forced d = 0 ∧ tget 0 d u.pwr.fpt = 0 ∧ (∀ x, x < 12 → x ≠ d → u.forced x = a.forced x) ∧ u.pwr = { a.pwr with force := u.pwr.force, fpt := u.pwr.fpt } ∧ u.rest = (a.putPwr u.pwr).rest) ∧
    (a.admits 0x0C1 3 0xFFE env (fixField 47 46 2 ps) = true → ps.length = 1 → a.host.s0.wakeEn = true → a.dormantBusy = false →
        Completes 0x0C1 0 [] env a (exec (.pwrDomainDormant t env ps) s) fun u => u.pwr = { a.pwr with dormantReq := true } ∧ u.rest = (a.putPwr u.pwr).rest) ∧
    (a.admits 0x0C1 3 0xFFE env (fixField 47 46 2 ps) = true → ps.length = 1 → a.host.s0.wakeEn = false → bit a.rtc.ctlA 47 = false ∨ bit a.rtc.ctlA 39 = false →
      bit a.rtc.ctlB 47 = false ∨ bit a.rtc.ctlB 39 = false →
        Completes 0x0C1 0x33 [4] env a (exec (.pwrDomainDormant t env ps) s) fun u => u.rest = a.rest) ∧
    (a.admits 0x0C2 2 0xFFE env ps = true → ps.length = 1 → fld (arg ps 0) 47 45 ≠ 0 → fld (arg ps 0) 45 45 = 0 → a.isOn 9 = true → a.isOn 10 = true →
        Completes 0x0C2 1 [] env a (exec (.padRelease t env ps) s) fun u =>
          (∀ b, b < 3 → u.pwr.latched.testBit b = (a.pwr.latched.testBit b && !(fld (arg ps 0) 47 45).testBit b)) ∧
          u.pwr = { a.pwr with latched := u.pwr.latched, relPend := u.pwr.relPend } ∧ u.rest = (a.putPwr u.pwr).rest) ∧
    (a.admits 0x0C2 2 0xFFE env ps = true → ps.length = 1 → fld (arg ps 0) 45 45 = 1 → a.pwr.latched.testBit 0 = true → a.isOn 11 = false →
        Completes 0x0C2 0x33 [2] env a (exec (.padRelease t env ps) s) fun u => u.rest = a.rest)

/-- GOVERNOR_EVALUATION with every domain from D3 to D11 on and forced ON asks for ON of each and changes no domain's state. With D10 forced OFF and the others forced ON, D10 goes off and the others stay on. OUTPUT_CUT, 100 ms after the power-down of D11 began and with another output still active, drives the output inactive at this instant and counts it. The instants at which commands act, and what the rules leave open here, are the model's choice (log 1, 151, 152, 153). -/
def Obligations.GovernorAndPads : Prop :=
  (∀ (t : Lapse) (demand idle : List (Nat × Nat)) (s : State),
    let a := s.elapse t
    (a.pwr.ready = true → a.pwr.timeDown = false → (∀ d, d < 12 → a.dom d = 2) → (∀ d, d < 9 → a.forced (d + 3) = 1) →
        Answers (exec (.governorEvaluation t demand idle) s) fun u =>
          u.pwr.dom = a.pwr.dom ∧ (∀ d, d < 12 → tget 0 d u.pwr.req = 2) ∧ u.qs = a.qs ∧ u.outs = a.outs ∧ u.mem = a.mem ∧ u.tb = a.tb ∧ u.sch = a.sch ∧ u.links = a.links) ∧
    (a.pwr.ready = true → a.pwr.timeDown = false → (∀ d, d < 12 → a.dom d = 2) → (∀ d, d < 9 → a.forced (d + 3) = (if d = 7 then 3 else 1)) →
        Answers (exec (.governorEvaluation t demand idle) s) fun u =>
          (∀ d, d < 12 → u.dom d = if d = 10 then 0 else 2) ∧ (∀ d, d < 12 → tget 0 d u.pwr.req = if d = 10 then 0 else 2) ∧ u.pwr.latched.testBit 1 = true ∧ u.outs = a.outs ∧ ((∀ p, p < 8 → (a.smp p).state ≠ 2) → u.mem = a.mem))) ∧
  (∀ (t : Lapse) (n m : Nat) (s : State),
    let a := s.elapse t
    n < 8 → m < 8 → m ≠ n → a.pwr.timeDown = true → a.pwr.downClk + 65472000 ≤ a.tb.clk → a.outActive n = true → a.outActive m = true →
      Answers (exec (.outputCut t n) s) fun u =>
        u.out n = { a.out n with until_ := none } ∧ (∀ k, k < 8 → k ≠ n → u.out k = a.out k) ∧ u.pwr.cut = setBit a.pwr.cut (7 - n) ∧ u.pwr.cuts = satN 24 (a.pwr.cuts + 1) ∧
        u.wire = [.edge n (a.out n).last (some a.tb.q0)] ∧ u.pwr.timeDown = true ∧ u.tb = a.tb)

/-- DSP_LOAD DATA stores its words in the user region, COMMIT loads the slot where the image has its CRC, UNLOAD empties it. DSP_TASK START queues a start for its owner, ABORT discards the waiting starts and ends the running instance. TASK_START gives an idle core the oldest start with D0 to D8 as R427 says and every other register zero. END ends the task; BUDGET at MAXCYC and ILLEGAL abort it with their codes in LAST and in the fault counter. A failed user core loses its task and its starts; the loss of C0 or C1 gives its roles to the other. The instants at which commands act, and what the rules leave open here, are the model's choice (log 1, 132, 133). -/
def Obligations.DspCommands : Prop :=
  (∀ (t : Lapse) (env : Env) (ps : List Word) (s : State),
    let a := s.elapse t
    let c := fld (arg ps 0) 47 47
    let task := fld (arg ps 0) 44 39
    let addr := fld (arg ps 0) 23 0
    (a.admits 0x0F0 2 0xFFE env (fixField 46 45 0 ps) = true → ps ≠ [] → (a.core c).failed = false → a.userRegion addr (ps.length - 1) = true → a.overImage addr (ps.length - 1) = false →
        Completes 0x0F0 0 [] env a (exec (.dspLoadData t env ps) s) fun u => u.mem = a.mem.writes addr (ps.drop 1) ∧ u.rest = (a.putMem u.mem).rest) ∧
    (a.admits 0x0F0 2 0xFFE env (fixField 46 45 0 ps) = true → ps ≠ [] → (a.core c).failed = false → a.userRegion addr (ps.length - 1) = false →
        Completes 0x0F0 0x23 [2] env a (exec (.dspLoadData t env ps) s) fun u => u.rest = a.rest) ∧
    (a.admits 0x0F0 2 0xFFE env (fixField 46 45 1 ps) = true → a.jrn.live + 2000 ≤ 245760 → ps.length = 4 → (a.core c).failed = false → 1 ≤ fld (arg ps 1) 23 0 → fld (arg ps 1) 23 0 ≤ 65536 →
      fld (arg ps 1) 47 24 ≤ fld (arg ps 2) 47 24 → fld (arg ps 2) 47 24 < fld (arg ps 1) 47 24 + fld (arg ps 1) 23 0 → 1 ≤ fld (arg ps 2) 23 0 →
      a.userRegion (fld (arg ps 1) 47 24) (fld (arg ps 1) 23 0) = true → ((a.core c).slot task).loaded = false → a.slotBusy c task = false →
      a.imageCrc (fld (arg ps 1) 47 24) (fld (arg ps 1) 23 0) = fld (arg ps 3) 31 0 →
        Completes 0x0F0 0 [] env a (exec (.dspLoadCommit t env ps) s) fun u =>
          u.core c = (a.core c).setSlot task { loaded := true, owner := env.partner, entry := fld (arg ps 2) 47 24, base := fld (arg ps 1) 47 24, size := fld (arg ps 1) 23 0, crc := fld (arg ps 3) 31 0, maxcyc := fld (arg ps 2) 23 0 } ∧
          u.rest = (a.setCore c (u.core c)).rest) ∧
    (a.admits 0x0F0 2 0xFFE env (fixField 46 45 2 ps) = true → ps.length = 1 → (a.core c).failed = false → ((a.core c).slot task).owner = env.partner → a.slotBusy c task = false →
        Completes 0x0F0 0 [] env a (exec (.dspLoadUnload t env ps) s) fun u => u.core c = (a.core c).setSlot task {} ∧ u.rest = (a.setCore c (u.core c)).rest)) ∧
  (∀ (t : Lapse) (env : Env) (ps : List Word) (s : State),
    let a := s.elapse t
    let c := fld (arg ps 0) 47 47
    let task := fld (arg ps 0) 45 40
    (a.admits 0x0F1 2 0xFFE env (fixField 46 46 0 ps) = true → fld (arg ps 0) 39 37 ≤ 4 → ps.length = 1 + fld (arg ps 0) 39 37 → (a.core c).failed = false →
      ((a.core c).slot task).loaded = true → ((a.core c).slot task).owner = env.partner → (a.core c).ring.length < 4 →
        Completes 0x0F1 0 [] env a (exec (.dspTaskStart t env ps) s) fun u =>
          (u.core c).ring = (a.core c).ring ++ [⟨task, a.jrn.next, 0, a.tb.q0, ps.drop 1, false, a.clk.direct⟩] ∧ u.core c = { a.core c with ring := (u.core c).ring } ∧ u.rest = (a.setCore c (u.core c)).rest) ∧
    (a.admits 0x0F1 2 0xFFE env (fixField 46 46 0 ps) = true → fld (arg ps 0) 39 37 ≤ 4 → ps.length = 1 + fld (arg ps 0) 39 37 → (a.core c).failed = false →
      ((a.core c).slot task).loaded = false →
        Completes 0x0F1 0x33 [5] env a (exec (.dspTaskStart t env ps) s) fun u => u.rest = a.rest) ∧
    (a.admits 0x0F1 2 0xFFE env (fixField 46 46 1 ps) = true → fld (arg ps 0) 39 37 = 0 → ps.length = 1 → (a.core c).failed = false → ((a.core c).slot task).owner = env.partner →
      (a.core c).run = none →
        Completes 0x0F1 0 [] env a (exec (.dspTaskAbort t env ps) s) fun u =>
          u.core c = { a.core c with ring := (a.core c).ring.filter fun r => r.task ≠ task, aborts := satN 16 ((a.core c).aborts + ((a.core c).ring.filter fun r => r.task == task).length) } ∧ u.rest = (a.setCore c (u.core c)).rest)) ∧
  (∀ (t : Lapse) (k : Nat) (s : State) (r : Start) (rest : List Start),
    let a := s.elapse t
    let c := a.core k
    k < 2 → a.isOn 6 = true → a.clk.pllS.gives = true → c.failed = false → a.pwr.selftest.testBit 2 = false → c.run = none → c.ring = r :: rest →
      Answers (exec (.taskStart t k) s) fun u =>
        (u.core k).run = some r ∧ (u.core k).ring = rest ∧ (u.core k).pc = (c.slot r.task).entry ∧ (u.core k).cycnt = 0 ∧ (u.core k).mode = 0 ∧ (u.core k).loops = [] ∧
        (u.core k).a = [] ∧ (u.core k).ap = [] ∧ (u.core k).ix = [] ∧ (u.core k).off = [] ∧ (u.core k).ln = [] ∧ (u.core k).lmem = c.lmem ∧
        (∀ i, i < 4 → (u.core k).dr i = arg r.argw i) ∧ (u.core k).dr 4 = word r.jsn ∧ (u.core k).dr 5 = word r.occ ∧ (u.core k).dr 6 = cyc r.at_ ∧ (u.core k).dr 7 = frc r.at_ ∧
        (u.core k).dr 8 = pack [putB 47 r.late, putB 46 r.clkq, put 45 24 (c.slot r.task).drops] ∧ (∀ i, i < 7 → (u.core k).dr (9 + i) = 0) ∧
        (u.core k).starts = satN 24 (c.starts + 1) ∧ u = (a.setCore k (u.core k)).putWire [.coreStart k r.task]) ∧
  (∀ (t : Lapse) (k : Nat) (s : State) (r : Start),
    let e := s.elapse t
    let a := e.fetched k
    let c := a.core k
    e.executes k = true → c.run = some r →
      Answers (exec (.endTask t k) s) fun u =>
        (u.core k).run = none ∧ (u.core k).lmem = c.lmem ∧ (u.core k).ring = c.ring ∧ ((u.core k).slot r.task).lastCyc = satN 24 ((c.cycnt + 1) % 2 ^ 48 / 1024) ∧ (u.core k).aborts = c.aborts ∧ (u.core k).faults = c.faults ∧ u = a.setCore k (u.core k)) ∧
  (∀ (t : Lapse) (k : Nat) (s : State) (r : Start),
    let a := s.elapse t
    let c := a.core k
    (a.coreRuns k = true → c.run = some r → (c.slot r.task).owner < 5 → (c.slot r.task).maxcyc * 1024 ≤ c.cycnt →
        Answers (exec (.budget t k) s) fun u =>
          (u.core k).run = none ∧ (u.core k).last = pack [put 47 44 4, put 43 38 r.task, put 37 14 c.pc] ∧ (u.core k).faults = satN 16 (c.faults + 1) ∧ (u.core k).aborts = c.aborts ∧ (u.core k).lmem = c.lmem ∧
          ToldOne (c.slot r.task).owner a u ∧ u.rest = (a.setCore k (u.core k)).rest) ∧
    (a.coreRuns k = true → c.run = some r → (c.slot r.task).owner < 5 →
        Answers (exec (.illegal t k) s) fun u =>
          (u.core k).run = none ∧ (u.core k).last = pack [put 47 44 1, put 43 38 r.task, put 37 14 c.pc] ∧ (u.core k).faults = satN 16 (c.faults + 1) ∧ (u.core k).aborts = c.aborts ∧ (u.core k).lmem = c.lmem ∧
          ToldOne (c.slot r.task).owner a u ∧ u.rest = (a.setCore k (u.core k)).rest) ∧
    (k < 2 → a.isOn 6 = true → c.failed = false → c.run = some r → c.ring = [] →
        Answers (exec (.userCoreFailed t k) s) fun u =>
          (u.core k).failed = true ∧ (u.core k).run = none ∧ (u.core k).ring = [] ∧ (u.core k).lmem = c.lmem ∧ u.core (1 - k) = a.core (1 - k) ∧
          u.fc.core = setBit a.fc.core (2 + k) ∧ u.dsp.failed = setBit a.dsp.failed (2 + k) ∧ Told a u ∧ u.rest = ((a.putFc u.fc).putDsp u.dsp).rest)) ∧
  (∀ (t : Lapse) (c : Nat) (s : State),
    let a := s.elapse t
    c < 2 → a.isOn 6 = true → a.dsp.failed.testBit c = false → a.dsp.failed.testBit (1 - c) = false →
      Answers (exec (.coreHeartbeatLoss t c) s) fun u =>
        u.dsp = { a.dsp with failed := setBit a.dsp.failed c, navMeas := 1 - c, navSol := 1 - c } ∧ u.fc = { a.fc with core := setBit a.fc.core c } ∧
        Told a u ∧ u.rest = ((a.putFc u.fc).putDsp u.dsp).rest)

/-- With a task running and the pc in its image, ADD, SUB, AND, OR, XOR, MIN and MAX leave their results in Dd, SHL, SHR and SAR for counts below 48, ABS and NEG for operands other than -2^47; Z and N follow the result, C and V of ADD and V of SUB are the carry and the signed overflow. CMP sets the flags of the difference and writes no register. ALUI takes its sign-extended immediate as second operand. NOP only moves on. Outside the image the task is aborted with code 2; where the fetch itself meets an uncorrectable word, nothing follows it. For the operands left out the instruction completes too, and nothing is stated of the result. The instants at which commands act, and what the rules leave open here, are the model's choice (log 1, 130). -/
def Obligations.CoreArithmetic : Prop :=
  (∀ (t : Lapse) (k dd da db : Nat) (s : State),
    let e := s.elapse t
    let a := e.fetched k
    let c := a.core k
    let x := c.dr da
    let y := c.dr db
    (e.executes k = true → dd < 16 →
        Answers (exec (.add t k dd da db) s) fun u =>
          AluDone k dd (x + y) a u ∧ bit (u.core k).mode 43 = decide (2 ^ 48 ≤ x.toNat + y.toNat) ∧ bit (u.core k).mode 42 = decide (x.toInt + y.toInt ≠ (x + y).toInt)) ∧
    (e.executes k = true → dd < 16 →
        Answers (exec (.sub t k dd da db) s) fun u => AluDone k dd (x - y) a u ∧ bit (u.core k).mode 42 = decide (x.toInt - y.toInt ≠ (x - y).toInt)) ∧
    (e.executes k = true → dd < 16 →
        Answers (exec (.and t k dd da db) s) (AluDone k dd (x &&& y) a) ∧ Answers (exec (.or t k dd da db) s) (AluDone k dd (x ||| y) a) ∧ Answers (exec (.xor t k dd da db) s) (AluDone k dd (x ^^^ y) a)) ∧
    (e.executes k = true → dd < 16 →
        Answers (exec (.min t k dd da db) s) (AluDone k dd (if x.slt y then x else y) a) ∧ Answers (exec (.max t k dd da db) s) (AluDone k dd (if x.slt y then y else x) a)) ∧
    (e.executes k = true → dd < 16 → y.toNat < 48 →
        Answers (exec (.shl t k dd da db) s) (AluDone k dd (word (x.toNat * 2 ^ y.toNat)) a) ∧ Answers (exec (.shr t k dd da db) s) (AluDone k dd (word (x.toNat / 2 ^ y.toNat)) a) ∧
          Answers (exec (.sar t k dd da db) s) (AluDone k dd (BitVec.ofInt 48 (x.toInt / 2 ^ y.toNat)) a)) ∧
    (e.executes k = true → dd < 16 → 48 ≤ y.toNat →
        Answers (exec (.shl t k dd da db) s) (fun u => AluDone k dd ((u.core k).dr dd) a u) ∧ Answers (exec (.shr t k dd da db) s) (fun u => AluDone k dd ((u.core k).dr dd) a u) ∧ Answers (exec (.sar t k dd da db) s) (fun u => AluDone k dd ((u.core k).dr dd) a u)) ∧
    (e.executes k = true → dd < 16 → x ≠ 0x800000000000#48 →
        Answers (exec (.abs t k dd da db) s) (AluDone k dd (BitVec.ofInt 48 x.toInt.natAbs) a) ∧ Answers (exec (.neg t k dd da db) s) (AluDone k dd (BitVec.ofInt 48 (-x.toInt)) a)) ∧
    (e.executes k = true →
        Answers (exec (.cmp t k dd da db) s) fun u =>
          FlagsOf (x - y) c.mode (u.core k).mode ∧ bit (u.core k).mode 42 = decide (x.toInt - y.toInt ≠ (x - y).toInt) ∧ u.core k = { c.retire 1 with mode := (u.core k).mode } ∧ u = (a.setCore k (u.core k)).putFresh (a.fresh + 3)) ∧
    (e.executes k = true →
        exec (.nop t k) s = .next (a.setCore k (c.retire 1))) ∧
    (e.coreRuns k = true → e.inImage k = false →
        Answers (exec (.nop t k) s) (fun u => (u.core k).run = none ∧ fld (u.core k).last 47 44 = 2 ∧ (u.core k).faults = satN 16 ((e.core k).faults + 1)) ∧
          Answers (exec (.add t k dd da db) s) (fun u => (u.core k).run = none ∧ fld (u.core k).last 47 44 = 2 ∧ (u.core k).faults = satN 16 ((e.core k).faults + 1))) ∧
    (e.coreRuns k = true → e.inImage k = true → a.coreRuns k = false →
        exec (.nop t k) s = .next a ∧ exec (.add t k dd da db) s = .next a)) ∧
  (∀ (t : Lapse) (k dd da : Nat) (op : AluOp) (imm : Addr) (s : State),
    let e := s.elapse t
    let a := e.fetched k
    let x := (a.core k).dr da
    (e.executes k = true → dd < 16 → op ≠ .cmp →
        Answers (exec (.alui t k op dd da imm) s) (AluDone k dd (aluOp op (Config.freeWord a.fresh) x (imm.signExtend 48)).value a)) ∧
    (e.executes k = true → dd < 16 →
      Answers (exec (.alui t k .add dd da imm) s) (AluDone k dd (x + imm.signExtend 48) a) ∧ Answers (exec (.alui t k .and dd da imm) s) (AluDone k dd (x &&& imm.signExtend 48) a) ∧
        Answers (exec (.alui t k .sub dd da imm) s) (AluDone k dd (x - imm.signExtend 48) a) ∧ Answers (exec (.alui t k .or dd da imm) s) (AluDone k dd (x ||| imm.signExtend 48) a)))

/-- DMAC adds both products to their accumulators, into one of them where both halves name it, with every operand read before; the sum wraps or, with SATA, saturates, and a sum out of range sets OVF. CLR, MOVA, SBC and NORM do as their rules say. EXT places the shifted and rounded accumulator, limited with SAT; SH above 72 and RND 3 abort with code 1. ROT and FUN move byte lanes; lane counts 6 and 7 abort with code 1. The instants at which commands act, and what the rules leave open here, are the model's choice (log 1, 130). -/
def Obligations.CoreAccumulators : Prop :=
  (∀ (t : Lapse) (k : Nat) (m0 m1 : MacHalf) (la lb : Option MacLoad) (s : State),
    let e := s.elapse t
    let a := e.fetched k
    let c := a.core k
    let v := (c.ar m0.acc).toInt + c.macTerm m0 + (if m0.acc = m1.acc then c.macTerm m1 else 0)
    (e.executes k = true → m0.acc = m1.acc → -2 ^ 119 ≤ v → v < 2 ^ 119 →
        exec (.dmac t k m0 m1 la lb) s = .next (a.setCore k ((({ c with a := tput 0 m0.acc (BitVec.ofInt 120 v) c.a }.macLoad la).macLoad lb).retire 1))) ∧
    (e.executes k = true → m0.acc = m1.acc → v < -2 ^ 119 ∨ 2 ^ 119 ≤ v →
        Answers (exec (.dmac t k m0 m1 none none) s) fun u =>
          ((u.core k).ar m0.acc).toInt = (if bit c.mode 47 then max (-2 ^ 119) (min (2 ^ 119 - 1) v) else (BitVec.ofInt 120 v).toInt) ∧ bit (u.core k).mode 46 = true ∧ (∀ n, n < 8 → n ≠ m0.acc → (u.core k).ar n = c.ar n) ∧ (u.core k).d = c.d) ∧
    (e.executes k = true → m0.acc ≠ m1.acc → -2 ^ 119 ≤ v → v < 2 ^ 119 → -2 ^ 119 ≤ (c.ar m1.acc).toInt + c.macTerm m1 → (c.ar m1.acc).toInt + c.macTerm m1 < 2 ^ 119 →
        Answers (exec (.dmac t k m0 m1 (some ⟨0, m0.x⟩) none) s) fun u =>
          ((u.core k).ar m0.acc).toInt = v ∧ ((u.core k).ar m1.acc).toInt = (c.ar m1.acc).toInt + c.macTerm m1 ∧ (u.core k).dr m0.x = c.local_ (c.address 0) ∧ (u.core k).mode = c.mode ∧ u = a.setCore k (u.core k))) ∧
  (∀ (t : Lapse) (k dd n sh rnd : Nat) (sat : Bool) (s : State),
    let e := s.elapse t
    let a := e.fetched k
    let c := a.core k
    let x := (c.ar n).toInt
    (e.executes k = true →
        exec (.clr t k n) s = .next (a.setCore k ({ c with a := tput 0 n 0 c.a }.retire 1)) ∧ exec (.mova t k n dd) s = .next (a.setCore k ({ c with a := tput 0 n ((c.dr dd).signExtend 120) c.a }.retire 1)) ∧
          exec (.sbc t k dd n) s = .next (a.setCore k ((c.setD dd (word (signBits 120 (c.ar n).toNat))).retire 1))) ∧
    (e.executes k = true → -2 ^ 119 ≤ x * 2 ^ sh → x * 2 ^ sh < 2 ^ 119 →
        exec (.norm t k n sh) s = .next (a.setCore k ({ c with a := tput 0 n (BitVec.ofInt 120 (x * 2 ^ sh)) c.a }.retire 1))) ∧
    (e.executes k = true → sh ≤ 72 → rnd = 0 → sat = false →
        exec (.ext t k dd n sh rnd sat) s = .next (a.setCore k ((c.setD dd (BitVec.ofInt 48 (x / 2 ^ sh))).retire 1))) ∧
    (e.executes k = true → 1 ≤ sh → sh ≤ 72 → rnd = 1 → sat = true →
        exec (.ext t k dd n sh rnd sat) s = .next (a.setCore k ((c.setD dd (BitVec.ofInt 48 (max (-2 ^ 47) (min (2 ^ 47 - 1) ((x + 2 ^ (sh - 1)) / 2 ^ sh))))).retire 1))) ∧
    (e.executes k = true → 72 < sh ∨ 2 < rnd →
        Answers (exec (.ext t k dd n sh rnd sat) s) fun u => (u.core k).run = none ∧ fld (u.core k).last 47 44 = 1 ∧ (u.core k).a = c.a ∧ (u.core k).d = c.d)) ∧
  (∀ (t : Lapse) (k dd da db n : Nat) (s : State),
    let e := s.elapse t
    let a := e.fetched k
    let c := a.core k
    (e.executes k = true → n ≤ 5 →
        exec (.rot t k n dd da) s = .next (a.setCore k ((c.setD dd (word ((c.dr da).toNat * 2 ^ (8 * n) + (c.dr da).toNat / 2 ^ (48 - 8 * n)))).retire 1)) ∧
          exec (.fun2 t k n dd da db) s = .next (a.setCore k ((c.setD dd (word (((c.dr da).toNat * 2 ^ 48 + (c.dr db).toNat) / 2 ^ (48 - 8 * n)))).retire 1))) ∧
    (e.executes k = true → 6 ≤ n →
        Answers (exec (.rot t k n dd da) s) (fun u => (u.core k).run = none ∧ fld (u.core k).last 47 44 = 1) ∧ Answers (exec (.fun2 t k n dd da db) s) (fun u => (u.core k).run = none ∧ fld (u.core k).last 47 44 = 1)))

/-- LOAD and STORE move one word of local memory (modulo 16,384) or of shared memory, with post-modify where MOD is set; a shared store outside the permitted words aborts with code 3 and stores nothing, and sets GUARD where it is outside the user region; a read that shared memory reports uncorrectable aborts with code 7, and the memory counts it and keeps its address and master. VMAX, VMIN and VBEXP of no element give what the rules say; of one element, that element and index 0. A branch goes to its target or on; LOOP enters a level, a fifth is illegal. MOV copies its source. POST makes one RESULT record for the task's owner and counts it; after the sixteenth it is counted and ignored. The instants at which commands act, and what the rules leave open here, are the model's choice (log 1, 130, 134, 180). -/
def Obligations.CoreMemoryAndFlow : Prop :=
  (∀ (t : Lapse) (k ap dd dn : Nat) (s : State),
    let e := s.elapse t
    let a := e.fetched k
    let c := a.core k
    let w := c.address ap
    (e.executes k = true →
        exec (.load t k true ap dd false) s = .next ((a.setCore k ((c.setD dd (tget 0 (w % 16384) c.lmem)).retire 1)).putFresh (a.fresh + 1)) ∧
          exec (.load t k true ap dd true) s = .next ((a.setCore k (((c.bump ap).setD dd (tget 0 (w % 16384) c.lmem)).retire 1)).putFresh (a.fresh + 1)) ∧
          exec (.store t k true ap dd false) s = .next (a.setCore k ({ c with lmem := tput 0 (w % 16384) (c.dr dd) c.lmem }.retire 1))) ∧
    (e.executes k = true → a.mem.queue = [] → a.mem.leaseOn w a.cycleNow = none → a.mem.bad.contains w = false →
        Answers (exec (.load t k false ap dd false) s) fun u =>
          u.core k = { (c.setD dd (a.mem.read w)).retire 1 with cycnt := (u.core k).cycnt } ∧ u.mem.cells = a.mem.cells ∧ u.mem.bad = a.mem.bad ∧ u = (((a.setCore k (u.core k)).putMem u.mem).putWire u.wire).putFresh (a.fresh + 1)) ∧
    (e.executes k = true → a.mem.queue = [] → a.mem.leaseOn w a.cycleNow = none → a.mem.bad.contains w = true →
        Answers (exec (.load t k false ap dd false) s) fun u => (u.core k).run = none ∧ fld (u.core k).last 47 44 = 7 ∧ (u.core k).d = c.d ∧ u.mem.ue = satN 24 (a.mem.ue + 1) ∧ fld u.mem.ueAddr 47 24 = w ∧ fld u.mem.ueAddr 23 20 = 12 + 2 * k ∧ u.mem.cells = a.mem.cells) ∧
    (e.executes k = true → a.mem.queue = [] → a.mem.leaseOn w a.cycleNow = none → a.userRegion w 1 = true →
        Answers (exec (.store t k false ap dd false) s) fun u => u.mem.cells = (a.mem.write w (c.dr dd)).cells ∧ u.mem.read w = c.dr dd ∧ u.mem.fault = a.mem.fault ∧ u = (a.setCore k (c.retire 1)).putMem u.mem) ∧
    (e.executes k = true → a.userRegion w 1 = false →
        Answers (exec (.store t k false ap dd false) s) fun u => (u.core k).run = none ∧ fld (u.core k).last 47 44 = 3 ∧ u.mem.cells = a.mem.cells ∧
          u.mem.fault = (if w < 0xC00000 then setBit a.mem.fault 3 else a.mem.fault)) ∧
    (e.executes k = true → dd ≤ 14 → (c.dr dn).toNat = 0 →
        Answers (exec (.vmax t k false ap true dn dd) s) (fun u => (u.core k).dr dd = 0x800000000000#48 ∧ (u.core k).dr (dd + 1) = 0xFFFFFFFFFFFF#48 ∧ (u.core k).ix = c.ix ∧ (u.core k).mode = c.mode) ∧
          Answers (exec (.vmin t k false ap true dn dd) s) (fun u => (u.core k).dr dd = 0x7FFFFFFFFFFF#48 ∧ (u.core k).dr (dd + 1) = 0xFFFFFFFFFFFF#48) ∧
          Answers (exec (.vbexp t k ap true dn dd) s) (fun u => (u.core k).dr dd = 47)) ∧
    (e.executes k = true → dd ≤ 14 → (c.dr dn).toNat = 1 →
        Answers (exec (.vmax t k true ap true dn dd) s) (fun u => (u.core k).dr dd = c.local_ w ∧ (u.core k).dr (dd + 1) = 0 ∧ (u.core k).ix = (c.bump ap).ix) ∧
          Answers (exec (.vmin t k true ap true dn dd) s) (fun u => (u.core k).dr dd = c.local_ w ∧ (u.core k).dr (dd + 1) = 0) ∧
          Answers (exec (.vbexp t k ap true dn dd) s) (fun u => (u.core k).dr dd = word (signBits 48 (c.local_ w).toNat))) ∧
    (e.executes k = true →
        Answers (exec (.mov t k (.d dd) (.qcyc 3)) s) fun u => (u.core k).dr dd = cyc (a.qty 3).direct ∧ u = (a.setCore k (u.core k)).putFresh (a.fresh + 1)) ∧
    (∀ dst src, e.executes k = true →
        Answers (exec (.mov t k dst src) s) fun u => u.core k = { (c.movDst (a.movSrc c src) dst).retire 1 with cycnt := (u.core k).cycnt } ∧ u = (a.setCore k (u.core k)).putFresh (a.fresh + 1))) ∧
  (∀ (t : Lapse) (k i j : Nat) (target : Addr) (s : State),
    let e := s.elapse t
    let a := e.fetched k
    let c := a.core k
    (e.executes k = true →
        exec (.mov t k (.d i) (.d j)) s = .next ((a.setCore k ((c.setD i (c.dr j)).retire 1)).putFresh (a.fresh + 1)) ∧
          exec (.mov t k .mode (.d j)) s = .next ((a.setCore k ({ c with mode := c.dr j &&& 0xFC0000000000#48 }.retire 1)).putFresh (a.fresh + 1)) ∧
          exec (.mov t k (.ln i) (.d j)) s = .next ((a.setCore k ({ c with ln := tput 0 i ((c.dr j).setWidth 24) c.ln }.retire 1)).putFresh (a.fresh + 1))) ∧
    (e.executes k = true → i ≠ 14 →
        exec (.br t k i target) s = .next (a.setCore k { c with cycnt := (c.cycnt + 1) % 2 ^ 48, pc := target.toNat }) ∨ exec (.br t k i target) s = .next (a.setCore k (c.retire 1))) ∧
    (e.executes k = true →
        Answers (exec (.br t k 14 target) s) fun u => (u.core k).run = none ∧ fld (u.core k).last 47 44 = 1) ∧
    (e.executes k = true → c.loops.length < 4 → (c.dr i).toNat ≠ 0 →
        Answers (exec (.loop t k target i) s) fun u =>
          (u.core k).loops.length = c.loops.length + 1 ∧ (u.core k).loops.map (fun l => (l.first, l.left)) = (c.pc + 1, (c.dr i).toNat - 1) :: c.loops.map (fun l => (l.first, l.left)) ∧
          (u.core k).pc = (c.pc + 1) % 2 ^ 24 ∧ (u.core k).d = c.d ∧ u = (a.setCore k (u.core k)).putFresh (a.fresh + 1)) ∧
    (e.executes k = true → 4 ≤ c.loops.length →
        Answers (exec (.loop t k target i) s) fun u => (u.core k).run = none ∧ fld (u.core k).last 47 44 = 1)) ∧
  (∀ (t : Lapse) (k ap dn : Nat) (s : State) (r : Start),
    let e := s.elapse t
    let a := e.fetched k
    let c := a.core k
    let o := (c.slot r.task).owner
    (e.executes k = true → c.run = some r → o < 5 → (a.part o).rights ≠ 0 → (c.dr dn).toNat = 1 → c.npost < 16 → a.mayForm o true 8 = true →
        Answers (exec (.post t k ap false dn) s) fun u =>
          ToldOne o a u ∧ (u.core k).npost = c.npost + 1 ∧ (u.core k).run = some r ∧ (u.core k).d = c.d ∧ u.qs = a.qs ∧ u.mem = a.mem) ∧
    (e.executes k = true → c.run = some r → 16 ≤ c.npost →
        exec (.post t k ap false dn) s = .next (a.setCore k ({ c with postsIgn := satN 16 (c.postsIgn + 1) }.retire 1))))

/-- A segment that the port's configuration drops is counted. A packet of one segment goes to the command unit as its words stand; the first of several opens a reassembly, its last segment completes it; a segment out of order discards the packet and is counted, and so is a packet still incomplete after 10 ms. On the port's VLAN, ARP and neighbour solicitation for its own address are answered, echoes of each kind up to ten times in a second; a frame of another VLAN is counted as dropped. A port whose link has been down or whose self-check failed is reported once to every partner with rights, and again when it returns. The instants at which commands act, and what the rules leave open here, are the model's choice (log 1, 67, 68, 72, 73). -/
def Obligations.EthernetPorts : Prop :=
  (∀ (t : Lapse) (f : Frame) (s : State),
    let a := s.elapse t
    let e := a.eth f.port
    let n := fld f.xport 15 4
    (f.port < 2 → f.ep ≠ .spi → a.portUp f.port = true → e.page.drops f = true →
        exec (.ethSegment t f) s = .next (a.setEth f.port { e with cntRx := satN 24 (e.cntRx + 1), cntDrop := satN 24 (e.cntDrop + 1) })) ∧
    (f.port < 2 → f.ep ≠ .spi → a.portUp f.port = true → e.page.drops f = false → a.host.reasm = [] → fld f.xport 47 40 = 0 → fld f.xport 39 32 = 1 → n ≤ segWords (bit e.page.cfg 46) f.ep →
      n ≤ f.bytes / 6 → n ≤ f.words.length →
        exec (.ethSegment t f) s = .next (State.receive f.port f.ep f.mac (f.words.take n) (a.setEth f.port { e with cntRx := satN 24 (e.cntRx + 1) }))) ∧
    (f.port < 2 → f.ep ≠ .spi → a.portUp f.port = true → e.page.drops f = false → a.host.reasm = [] → fld f.xport 47 40 = 0 → 2 ≤ fld f.xport 39 32 → n ≤ segWords (bit e.page.cfg 46) f.ep →
      n ≤ f.bytes / 6 → n ≤ f.words.length →
        Answers (exec (.ethSegment t f) s) fun u =>
          u.host.reasm = [{ port := f.port, ep := f.ep, xid := fld f.xport 31 16, nseg := fld f.xport 39 32, got := 1, first := a.tb.clk, words := f.words.take n }] ∧
          u = (a.setEth f.port { e with cntRx := satN 24 (e.cntRx + 1) }).putHost { (a.setEth f.port { e with cntRx := satN 24 (e.cntRx + 1) }).host with reasm := u.host.reasm })) ∧
  (∀ (t : Lapse) (f : Frame) (r : Reasm) (s : State),
    let a := s.elapse t
    let e := a.eth f.port
    let n := fld f.xport 15 4
    let b := (a.setEth f.port { e with cntRx := satN 24 (e.cntRx + 1) })
    (f.port < 2 → f.ep ≠ .spi → a.portUp f.port = true → e.page.drops f = false → a.host.reasm = [r] → r.port = f.port → r.ep = f.ep → a.tb.clk < r.first + 6547200 →
      r.xid = fld f.xport 31 16 → r.nseg = fld f.xport 39 32 → r.got = fld f.xport 47 40 → r.got ≠ 0 → r.got + 1 = r.nseg → n ≤ segWords (bit e.page.cfg 46) f.ep → n ≤ f.bytes / 6 →
      n ≤ f.words.length →
        exec (.ethSegment t f) s = .next (State.receive f.port f.ep f.mac (r.words ++ f.words.take n) (b.putHost { b.host with reasm := [] }))) ∧
    (f.port < 2 → f.ep ≠ .spi → a.portUp f.port = true → e.page.drops f = false → a.host.reasm = [r] → r.port = f.port → r.ep = f.ep → a.tb.clk < r.first + 6547200 → fld f.xport 47 40 ≠ 0 →
      r.got ≠ fld f.xport 47 40 →
        Answers (exec (.ethSegment t f) s) fun u => u.host.reasm = [] ∧ (u.eth f.port).cntSegErr = satN 24 (e.cntSegErr + 1) ∧ u.parts = a.parts ∧ u.jrn = a.jrn ∧ u.rest = a.rest) ∧
    (a.host.reasm = [r] → r.first + 6547200 ≤ a.tb.clk →
        Answers (exec (.reassemblyTimeout t r.port r.ep) s) fun u => u.host.reasm = [] ∧ (u.eth r.port).cntSegErr = satN 24 ((a.eth r.port).cntSegErr + 1) ∧ u.parts = a.parts ∧ u.jrn = a.jrn ∧ u.rest = a.rest)) ∧
  (∀ (t : Lapse) (port vlan : Nat) (mac : Word) (target : BitVec 32) (six : BitVec 128) (v6 : Bool) (payload : List (BitVec 8)) (s : State),
    let a := s.elapse t
    let e := a.eth port
    let b := a.setEth port { e with cntRx := satN 24 (e.cntRx + 1) }
    let d := a.setEth port { e with cntRx := satN 24 (e.cntRx + 1), cntDrop := satN 24 (e.cntDrop + 1) }
    (port < 2 → a.portUp port = true → e.page.otherVlan vlan = false → target.toNat = fld e.page.ip4 31 0 →
        exec (.arpRequest t port vlan target mac) s = .next (b.emit (.arp port e.page.tag mac))) ∧
    (port < 2 → a.portUp port = true → e.page.otherVlan vlan = false → e.page.ip6 ≠ 0 → six = e.page.ip6 →
        exec (.neighbourSolicitation t port vlan six mac) s = .next (b.emit (.neighbour port e.page.tag mac))) ∧
    (port < 2 → a.portUp port = true → e.page.otherVlan vlan = false →
        exec (.neighbourSolicitation t port vlan (linkLocal (Config.ethMac port)) mac) s = .next (b.emit (.neighbour port e.page.tag mac))) ∧
    (port < 2 → a.portUp port = true → e.page.otherVlan vlan = true →
        exec (.arpRequest t port vlan target mac) s = .next d ∧ exec (.neighbourSolicitation t port vlan six mac) s = .next d ∧ exec (.icmpEcho t port vlan v6 mac payload) s = .next d) ∧
    (port < 2 → a.portUp port = true → e.page.otherVlan vlan = false → ((if v6 then e.echoes6 else e.echoes4).filter fun c => decide (a.tb.clk < c + 654720000)).length < 10 →
        Answers (exec (.icmpEcho t port vlan v6 mac payload) s) fun u => u.wire = a.wire ++ [.echo port e.page.tag mac payload] ∧ (u.eth port).cntRx = satN 24 (e.cntRx + 1) ∧ (u.eth port).page = e.page ∧ u.parts = a.parts ∧ u.jrn = a.jrn ∧ u.rest = a.rest) ∧
    (port < 2 → a.portUp port = true → e.page.otherVlan vlan = false → 10 ≤ ((if v6 then e.echoes6 else e.echoes4).filter fun c => decide (a.tb.clk < c + 654720000)).length →
        Answers (exec (.icmpEcho t port vlan v6 mac payload) s) fun u => u.wire = a.wire ∧ (u.eth port).cntRx = satN 24 (e.cntRx + 1) ∧ u.parts = a.parts ∧ u.jrn = a.jrn ∧ u.rest = a.rest) ∧
    (port < 2 → a.isOn 9 = true → bit e.page.cfg 47 = true → e.wasUp = true → e.failed = false →
        Answers (exec (.hostPortFailed t port) s) fun u =>
          u.fc = { a.fc with host := setBit a.fc.host port } ∧ (u.eth port).failed = true ∧ (u.eth port).link = false ∧ Told a u ∧
          (∀ i, i < 5 → (u.part i).bind = (a.part i).bind) ∧ u.rest = (a.putFc u.fc).rest) ∧
    (port < 2 → a.isOn 9 = true → bit e.page.cfg 47 = true → e.selfOk = true → e.failed = true →
        Answers (exec (.ethLinkStayedUp t port) s) fun u =>
          u.fc = { a.fc with host := clearBits a.fc.host (2 ^ port) } ∧ (u.eth port).failed = false ∧ (u.eth port).link = true ∧ Told a u ∧ u.rest = (a.putFc u.fc).rest) ∧
    (port = 2 ∨ port = 3 → a.isOn 9 = true → (a.spi port).failed = false →
        Answers (exec (.hostSelfCheck t port false) s) (fun u => u.fc = { a.fc with host := setBit a.fc.host port } ∧ (u.spi port).failed = true ∧ u.rest = (a.putFc u.fc).rest) ∧
          Answers (exec (.hostSelfCheck t port true) s) (fun u => u.fc = a.fc ∧ (u.spi port).failed = false ∧ u.parts = a.parts ∧ u.jrn = a.jrn ∧ u.rest = a.rest)))

/-- A STATUS transfer gives the status of before the transfer and changes only the port's flags. A control word that fails its complement is ignored, sets CW_ERR and is counted. A WRITE of words that make no whole packet keeps them; with more words than there is room for it sets OVR and discards. A READ gives the words of the packet at the front from where the last one stopped, zeros beyond. S0 reads and writes from its pointer on; a refused word is not acknowledged, is counted and changes nothing else. An address match of S0 wakes the module from the dormant state where it may. The instants at which commands act, and what the rules leave open here, are the model's choice (log 1, 70, 71, 76). -/
def Obligations.SpiAndServicePorts : Prop :=
  (∀ (t : Lapse) (port : Nat) (idle : Bool) (cw : Word) (ws : List Word) (s : State),
    let a := s.elapse t
    let p := a.spi port
    (port = 2 ∨ port = 3 → a.portUp port = true → cwBad cw = false → fld cw 47 46 = 0 →
        exec (.spiStatus t port idle cw) s = .next ((a.setSpi port { p with mode := idle, cwErr := false }).putWire [.spi port (a.spiStatus port) []])) ∧
    (port = 2 ∨ port = 3 → a.portUp port = true → cwBad cw = true →
        exec (.spiStatus t port idle cw) s = .next ((a.setSpi port { p with mode := idle, cwErr := true, cntCw := satN 16 (p.cntCw + 1) }).putWire [.spi port (a.spiStatus port) []]) ∧
          exec (.spiWrite t port idle cw ws false) s = .next ((a.setSpi port { p with mode := idle, cwErr := true, cntCw := satN 16 (p.cntCw + 1) }).putWire [.spi port (a.spiStatus port) []])) ∧
    (port = 2 ∨ port = 3 → a.portUp port = true → cwBad cw = false → fld cw 47 46 = 1 → bit cw 45 = true → fld cw 43 32 = ws.length → ws.length + p.rx.length ≤ 4096 →
      ws.length < packetLen (arg ws 0) → ws ≠ [] →
        exec (.spiWrite t port idle cw ws false) s = .next ((a.setSpi port { p with mode := idle, cwErr := false, ovr := false, rx := ws }).putWire [.spi port (a.spiStatus port) []]))) ∧
  (∀ (t : Lapse) (port : Nat) (idle : Bool) (cw w : Word) (ws xs : List Word) (s : State),
    let a := s.elapse t
    let p := a.spi port
    port = 2 ∨ port = 3 → a.portUp port = true → cwBad cw = false → fld cw 47 46 = 1 → bit cw 45 = false → p.rx = w :: xs → p.rx.length ≤ 4096 → 4096 < packetLen w → p.rxFree < fld cw 43 32 →
      exec (.spiWrite t port idle cw ws false) s = .next ((a.setSpi port { p with mode := idle, cwErr := false, ovr := true, rx := [], cntOvr := satN 16 (p.cntOvr + 1) }).putWire [.spi port (a.spiStatus port) []])) ∧
  (∀ (t : Lapse) (port : Nat) (idle : Bool) (cw : Word) (o : OutPkt) (rest : List OutPkt) (s : State),
    let a := s.elapse t
    let p := a.spi port
    let n := fld cw 43 32
    (port = 2 ∨ port = 3 → a.portUp port = true → cwBad cw = false → fld cw 47 46 = 2 → p.tx = o :: rest → o.read + n < o.words.length →
        exec (.spiRead t port idle cw) s = .next ((a.setSpi port { p with mode := idle, cwErr := false, tx := { o with read := o.read + n } :: rest }).putWire [.spi port (a.spiStatus port) ((o.words.drop o.read).take n)])) ∧
    (port = 2 ∨ port = 3 → a.portUp port = true → cwBad cw = false → fld cw 47 46 = 2 → p.tx = o :: rest → o.read < o.words.length → o.words.length ≤ o.read + n →
        exec (.spiRead t port idle cw) s = .next ((a.setSpi port { p with mode := idle, cwErr := false, tx := rest }).putWire [.spi port (a.spiStatus port) (o.words.drop o.read ++ List.replicate (n - (o.words.length - o.read)) 0)]))) ∧
  (∀ (t : Lapse) (addr : Nat) (v : Word) (s : State),
    let a := s.elapse t
    (a.s0Up = true → a.host.s0.lock = false → a.host.s0.addrNew = none → addr = 0x5008 → 1 ≤ fld v 46 31 →
        Answers (exec (.s0Write t addr [v] false) s) fun u => u.wire = [.s0Ack [true]] ∧ u.rtc.cfg = maskW (2 ^ 48 - 2 ^ 31) v ∧ u.host.s0 = { a.host.s0 with ptr := 0x5009 } ∧ u.rest = (a.putRtc { a.rtc with cfg := u.rtc.cfg }).rest) ∧
    (a.s0Up = true → a.host.s0.addrNew = none → a.host.s0.lock = true ∨ s0Writes addr = false → addr < 2 ^ 24 →
        Answers (exec (.s0Write t addr [v] false) s) fun u =>
          u.wire = [.s0Ack [false]] ∧ u.host.s0 = { a.host.s0 with ptr := (addr + 1) % 2 ^ 24, last := pack [put 47 36 0x33, put 35 12 addr], refused := satN 16 (a.host.s0.refused + 1) } ∧ u.parts = a.parts ∧ u.jrn = a.jrn ∧ u.rest = a.rest) ∧
    (a.s0Up = true → a.host.s0.addrNew = none → addr = 0x5008 →
        Answers (exec (.s0Read t (some addr) 1) s) fun u => u.wire = [.s0 [a.rtc.cfg]] ∧ u.host.s0 = { a.host.s0 with ptr := 0x5009 } ∧ u.parts = a.parts ∧ u.jrn = a.jrn ∧ u.rest = a.rest) ∧
    (addr = a.host.s0.addr → a.pwr.phase = .dormant → a.host.s0.wakeEn = true → a.pwr.good = true → a.rtc.source = 0 → a.pwr.dormLoss = false →
        exec (.s0AddressMatch t addr) s = .next (a.putPwr { a.pwr with wakeReq := some (a.pwr.wakeReq.getD 4) })) ∧
    (addr ≠ a.host.s0.addr ∨ (a.pwr.phase ≠ .dormant ∧ a.isOn 9 = true) →
        exec (.s0AddressMatch t addr) s = .next a))

/-- JOURNAL_STATE answers the words of Table 12 and JOURNAL_QUERY the descriptor of a key: ahead, absent, or the entries of its group verbatim; neither changes anything. A complete group moves from the landing buffer to the end of the ring where there is room; the pinned oldest group is written again at the head with CARRIED. A folded mark leaves the mark ring and the larger number stays in the table. A failed store is shown, reported once and its return reported. The instants at which commands act, and what the rules leave open here, are the model's choice (log 1, 47, 49, 50). -/
def Obligations.JournalStores : Prop :=
  (∀ (t : Lapse) (env : Env) (ps : List Word) (s : State),
    let a := s.elapse t
    let p := a.part env.partner
    let key := (arg ps 1).toNat
    (a.admits 0x0E0 1 0xFFE env ps = true → ps = [] →
        Completes 0x0E0 1 [word a.jrn.next, word a.jrn.oldest, pack [put 47 46 a.jrn.storeA.stat, put 45 44 a.jrn.storeB.stat, put 43 24 a.jrn.live, put 23 20 (fld a.jrn.rstCause 47 44)], word p.lseq, word p.ev.ackFirst, word p.ev.nextEsn, a.fcStat]
          env a (exec (.journalState t env ps) s) fun u => u.rest = a.rest) ∧
    (a.admits 0x0E1 1 0xFFE env ps = true → ps.length = 2 → fld (arg ps 0) 47 46 = 0 → fld (arg ps 0) 42 37 = 1 → a.jrn.next ≤ key →
        Completes 0x0E1 1 [put 47 42 1 |> word, put 47 45 2 |> word] env a (exec (.journalQuery t env ps) s) fun u => u.rest = a.rest) ∧
    (a.admits 0x0E1 1 0xFFE env ps = true → ps.length = 2 → fld (arg ps 0) 47 46 = 0 → fld (arg ps 0) 42 37 = 1 → key < a.jrn.next →
      (a.jrn.ring ++ a.jrn.landing).all (fun g => g.jsn != key) = true →
        Completes 0x0E1 1 [put 47 42 1 |> word, put 47 45 1 |> word] env a (exec (.journalQuery t env ps) s) fun u => u.rest = a.rest) ∧
    (a.admits 0x0E1 1 0xFFE env ps = true → ps.length = 2 → fld (arg ps 0) 47 46 = 0 → fld (arg ps 0) 42 37 = 1 → a.jrn.ring = [] →
      a.jrn.landing.map (fun g => (g.jsn, g.partner)) = [(key, env.partner)] → key < a.jrn.next →
      a.jrn.landing.all (fun g => decide (g.params.length ≤ 2048) && decide (g.reply.length ≤ 100)) = true →
        Completes 0x0E1 1 ((put 47 42 1 |> word) :: a.jrn.landing.flatMap fun g => (put 44 35 g.verbatim.length |> word) :: g.verbatim.flatten) env a (exec (.journalQuery t env ps) s) fun u => u.rest = a.rest) ∧
    (a.admits 0x0E1 1 0xFFE env ps = true → ps.length ≠ 2 ∨ fld (arg ps 0) 47 46 = 3 ∨ fld (arg ps 0) 42 37 = 0 ∨ 32 < fld (arg ps 0) 42 37 →
        Completes 0x0E1 0x23 [0] env a (exec (.journalQuery t env ps) s) fun u => u.rest = a.rest)) ∧
  (∀ (t : Lapse) (g : Group) (rest : List Group) (s : State),
    let a := s.elapse t
    (a.jrn.landing = g :: rest → a.jrn.working = true → a.jrn.used + g.entries ≤ 262144 → a.host.parse = [] →
        exec (.groupComplete t) s = .next (a.putJrn { a.jrn with landing := rest, ring := a.jrn.ring ++ [g], storeA := a.jrn.storeA.took g.jsn, storeB := a.jrn.storeB.took g.jsn })) ∧
    (a.jrn.ring = g :: rest → a.jrn.working = true → g.pins ≠ [] →
        exec (.ringCarry t g.jsn) s = .next (a.putJrn { a.jrn with ring := rest ++ [{ g with carried := true }], cntCarried := satN 24 (a.jrn.cntCarried + g.entries) }))) ∧
  (∀ (t : Lapse) (i n : Nat) (rest : List (Nat × Nat)) (s : State),
    let a := s.elapse t
    a.jrn.markRing = (i, n) :: rest → a.jrn.working = true →
      Answers (exec (.markFold t 1) s) fun u =>
        tget 0 i u.jrn.marks = max (tget 0 i a.jrn.marks) n ∧ (∀ j, j < 5000 → j ≠ i → tget 0 j u.jrn.marks = tget 0 j a.jrn.marks) ∧ u.jrn = { a.jrn with markRing := rest, marks := u.jrn.marks } ∧ u = a.putJrn u.jrn) ∧
  (∀ (t : Lapse) (i : Nat) (s : State),
    let a := s.elapse t
    (i < 2 → (a.jrn.store i).stat = 0 →
        Answers (exec (.storeFailed t i) s) fun u =>
          u.jrn.store i = { a.jrn.store i with stat := 2 } ∧ u.jrn.store (1 - i) = a.jrn.store (1 - i) ∧ u.jrn.fault.testBit (2 + i) = true ∧ Told a u ∧ u.rest = a.rest) ∧
    (i < 2 → (a.jrn.store i).stat = 1 → a.pwr.ready = true →
        Answers (exec (.remirrorEnd t i) s) fun u =>
          u.jrn.store i = { stat := 0, sealed := (a.jrn.store (1 - i)).sealed } ∧ u.jrn.store (1 - i) = a.jrn.store (1 - i) ∧ Told a u ∧ u.rest = a.rest))

/-- SELFTEST is ACCEPTED in SERVICE and runs; it is refused with REASON 1 while one runs, and SELFTEST_DONE tells every partner with rights. RESET waits 1 ms after its reply; RESET_BEGIN of scope CMD resets D1 alone, and so do the command unit's watchdog and a lockstep fault with their own causes; scope MODULE takes D1 off and starts a bring-up. FW_UPDATE BEGIN opens a session, DATA keeps its words by place, COMMIT takes a complete image with its hash and its signature, and is refused with REASON 2, 3 or 4 where the hash differs, the signature does not verify or a word is missing, ABORT ends the session, ACTIVATE arms the image. The instants at which commands act, and what the rules leave open here, are the model's choice (log 1, 167, 168, 170). -/
def Obligations.ResetsAndFirmware : Prop :=
  (∀ (t : Lapse) (env : Env) (ps : List Word) (s : State),
    let a := s.elapse t
    (a.admits 0x100 3 0x800 env ps = true → ps.length = 1 → fld (arg ps 0) 47 42 ≠ 0 → a.pwr.selftest = 0 →
        Completes 0x100 0 [] env a (exec (.selftest t env ps) s) fun u =>
          u.pwr = { a.pwr with selftest := fld (arg ps 0) 47 42 } ∧ (bit (arg ps 0) 46 = false → bit (arg ps 0) 44 = false → u.rest = (a.putPwr u.pwr).rest)) ∧
    (a.admits 0x100 3 0x800 env ps = true → ps.length = 1 → fld (arg ps 0) 47 42 ≠ 0 → a.pwr.selftest ≠ 0 →
        Completes 0x100 0x33 [1] env a (exec (.selftest t env ps) s) fun u => u.rest = a.rest) ∧
    (a.admits 0x101 3 0xFFE env (fixField 47 46 0 ps) = true → ps.length = 1 → a.pwr.reset = none →
        Completes 0x101 0 [] env a (exec (.resetModule t env ps) s) fun u => u.pwr = { a.pwr with reset := some ⟨0, a.jrn.next, a.tb.clk⟩ } ∧ u.rest = (a.putPwr u.pwr).rest) ∧
    (a.admits 0x101 3 0xFFE env (fixField 47 46 1 ps) = true → ps.length = 1 → a.pwr.reset = none →
        Completes 0x101 0 [] env a (exec (.resetCmd t env ps) s) fun u => u.pwr = { a.pwr with reset := some ⟨1, a.jrn.next, a.tb.clk⟩ } ∧ u.rest = (a.putPwr u.pwr).rest) ∧
    (a.admits 0x102 3 0x800 env (fixField 47 45 0 ps) = true → ps.length = 7 →
        Completes 0x102 1 [] env a (exec (.fwUpdateBegin t env ps) s) fun u =>
          u.pwr.fw = { a.pwr.fw with session := 1, size := fld (arg ps 0) 44 20, hash := fwHash ps, words := [], altValid := false, activated := false, altMajor := 0, altMinor := 0 } ∧ u.rest = (a.putPwr { a.pwr with fw := u.pwr.fw }).rest) ∧
    (a.admits 0x102 3 0x800 env (fixField 47 45 1 ps) = true → ps.length = 3 → a.pwr.fw.session = 1 →
        Completes 0x102 1 [] env a (exec (.fwUpdateData t env ps) s) fun u =>
          tget none (fld (arg ps 0) 44 20) u.pwr.fw.words = some (arg ps 1) ∧ tget none (fld (arg ps 0) 44 20 + 1) u.pwr.fw.words = some (arg ps 2) ∧
          (∀ i, i ≠ fld (arg ps 0) 44 20 → i ≠ fld (arg ps 0) 44 20 + 1 → tget none i u.pwr.fw.words = tget none i a.pwr.fw.words) ∧
          u.pwr.fw = { a.pwr.fw with words := u.pwr.fw.words } ∧ u.rest = (a.putPwr { a.pwr with fw := u.pwr.fw }).rest) ∧
    (a.admits 0x102 3 0x800 env (fixField 47 45 3 ps) = true → ps.length = 1 → a.pwr.fw.session ≠ 0 →
        Completes 0x102 1 [] env a (exec (.fwUpdateAbort t env ps) s) fun u =>
          u.pwr.fw = { a.pwr.fw with session := 0, words := [], altValid := false, activated := false, altMajor := 0, altMinor := 0 } ∧ u.rest = (a.putPwr { a.pwr with fw := u.pwr.fw }).rest) ∧
    (a.admits 0x102 3 0x800 env (fixField 47 45 4 ps) = true → ps.length = 1 → a.pwr.fw.session = 2 →
        Completes 0x102 1 [] env a (exec (.fwUpdateActivate t env ps) s) fun u => u.pwr.fw = { a.pwr.fw with activated := true } ∧ u.rest = (a.putPwr { a.pwr with fw := u.pwr.fw }).rest)) ∧
  (∀ (t : Lapse) (env : Env) (ps ws : List Word) (s : State),
    let a := s.elapse t
    (a.admits 0x102 3 0x800 env (fixField 47 45 2 ps) = true → ps.length = 1 → a.pwr.fw.session = 1 → a.pwr.fw.image = some ws → shaValue (wireBytes ws) = a.pwr.fw.hash →
        Answers (exec (.fwUpdateCommit t env ps) s) fun u =>
          (Config.imageSigned a.pwr.fw.hash = true → Shows 0x102 1 [] env a u ∧
            u.pwr.fw.session = 2 ∧ u.pwr.fw.altValid = true ∧ u.pwr.fw.words = a.pwr.fw.words ∧ u.pwr.fw.active = a.pwr.fw.active ∧ u.rest = (a.putPwr { a.pwr with fw := u.pwr.fw }).rest) ∧
          (Config.imageSigned a.pwr.fw.hash = false → Shows 0x102 0x23 [3] env a u ∧ u.rest = a.rest)) ∧
    (a.admits 0x102 3 0x800 env (fixField 47 45 2 ps) = true → ps.length = 1 → a.pwr.fw.session = 1 → a.pwr.fw.image = some ws → shaValue (wireBytes ws) ≠ a.pwr.fw.hash →
        Completes 0x102 0x23 [2] env a (exec (.fwUpdateCommit t env ps) s) fun u => u.rest = a.rest) ∧
    (a.admits 0x102 3 0x800 env (fixField 47 45 2 ps) = true → ps.length = 1 → a.pwr.fw.session = 1 → a.pwr.fw.image = none →
        Completes 0x102 0x23 [4] env a (exec (.fwUpdateCommit t env ps) s) fun u => u.rest = a.rest)) ∧
  (∀ (t : Lapse) (failed : Nat) (s : State),
    let a := s.elapse t
    a.pwr.selftest ≠ 0 → a.pwr.ready = true →
      Answers (exec (.selftestDone t failed) s) fun u =>
        u.pwr = { a.pwr with selftest := 0 } ∧ Told a u ∧ u.rest = (a.putPwr u.pwr).rest) ∧
  (∀ (t : Lapse) (r : ResetWait) (s : State),
    let a := s.elapse t
    (a.pwr.reset = some r → r.scope = 1 → a.pwr.ready = true → r.clk + 654720 ≤ a.tb.clk →
        Answers (exec (.resetBegin t) s) fun u =>
          u.pwr.ready = false ∧ u.pwr.phase = .bringup ∧ u.pwr.cause = 3 ∧ u.pwr.wd = 0 ∧ u.pwr.reset = none ∧ u.pwr.dom = a.pwr.dom ∧ u.jrn.rstOut = a.tb.q0 ∧
          u.jrn.landing.map (fun g => (g.jsn, g.exec)) = a.jrn.landing.map (fun g => (g.jsn, g.exec || g.jsn == r.jsn)) ∧ u.qs = a.qs ∧ u.outs = a.outs ∧ u.mem = a.mem ∧ u.tb = a.tb ∧ u.rtc = a.rtc) ∧
    (a.pwr.reset = some r → r.scope = 0 → a.pwr.ready = true → r.clk + 654720 ≤ a.tb.clk →
        Answers (exec (.resetBegin t) s) fun u => u.pwr.ready = false ∧ u.pwr.phase = .bringup ∧ u.pwr.cause = 3 ∧ u.dom 1 = 0 ∧ u.dom 2 = 0 ∧ u.pwr.reset = none ∧ u.rtc.sec = a.rtc.sec ∧ u.rtc.low = a.rtc.low)) ∧
  (∀ (t : Lapse) (s : State),
    let a := s.elapse t
    a.isOn 1 = true → a.pwr.phase = .running →
      Answers (exec (.watchdog t 1) s) (fun u => u.pwr.ready = false ∧ u.pwr.phase = .bringup ∧ u.pwr.cause = 2 ∧ u.pwr.wd = 1 ∧ u.pwr.dom = a.pwr.dom ∧ u.jrn.rstOut = a.tb.q0 ∧ u.qs = a.qs ∧ u.outs = a.outs ∧ u.mem = a.mem ∧ u.tb = a.tb ∧ u.rtc = a.rtc) ∧
        Answers (exec (.lockstepFault t) s) (fun u => u.pwr.ready = false ∧ u.pwr.phase = .bringup ∧ u.pwr.cause = 7 ∧ u.pwr.wd = 0 ∧ u.pwr.dom = a.pwr.dom ∧ u.jrn.rstOut = a.tb.q0 ∧ u.qs = a.qs ∧ u.outs = a.outs ∧ u.mem = a.mem ∧ u.tb = a.tb ∧ u.rtc = a.rtc))

/-- MAINS_LOSS in operation ends readiness, sheds the working domains, keeps the shared memory's content and begins the outage. MAINS_GOOD_RETURN between 100 and 110 ms later makes the module ready again without a replay, later finds the load shed. BRING_UP from there brings D1, D2, D6, D7, D9 and D11 up with Tether time from the RTC; REPLAY makes the module ready and writes the RST words. DORMANT_ENTRY turns every domain but D0 and D2 off, with D2 in retention; WAKE brings the module up with its cause. With a converter stage failed the stage is shown and reported. The instants at which commands act, and what the rules leave open here, are the model's choice (log 1, 51, 163, 164). -/
def Obligations.PowerLifecycle : Prop :=
  (∀ (t : Lapse) (s : State),
    let a := s.elapse t
    (a.pwr.good = true → a.pwr.timeDown = false → a.pwr.phase = .running → a.dom 7 = 2 → (∀ n, n < 8 → a.outActive n = false) →
        Answers (exec (.mainsLoss t) s) fun u =>
          u.pwr.good = false ∧ u.pwr.ready = false ∧ u.pwr.phase = .mainsLoss ∧ u.pwr.losses = satN 16 (a.pwr.losses + 1) ∧ u.pwr.lossClk = a.tb.clk ∧ u.jrn.rstOut = a.tb.q0 ∧
          (∀ d, d < 12 → u.dom d = if d = 3 ∨ d = 4 ∨ d = 5 ∨ d = 6 ∨ d = 8 ∨ d = 10 ∨ d = 11 then 0 else if d = 7 then 1 else a.dom d) ∧ u.rtc.sec = a.rtc.sec) ∧
    (a.pwr.good = true → a.pwr.timeDown = false → a.pwr.phase = .dormant → a.rtc.run = none →
        Answers (exec (.mainsLoss t) s) fun u => u.pwr.good = false ∧ u.pwr.dormLoss = true ∧ u.pwr.phase = .dormant ∧ u.dom 2 = 0 ∧ u.pwr.losses = satN 16 (a.pwr.losses + 1) ∧ u.jrn = a.jrn ∧ u.parts = a.parts) ∧
    (a.pwr.good = false → a.pwr.phase = .mainsLoss → a.pwr.ready = false → a.pwr.lossClk + 65472000 ≤ a.tb.clk → a.tb.clk ≤ a.pwr.lossClk + 72019200 → a.rtc.coldPend = false → a.dom 11 = 0 →
      a.pwr.timeDown = false →
        Answers (exec (.mainsGoodReturn t) s) fun u =>
          u.pwr.ready = true ∧ u.pwr.good = true ∧ u.pwr.phase = .running ∧ u.dom 6 = 2 ∧ u.dom 7 = 2 ∧ u.dom 11 = 2 ∧ u.tb.q0 = a.rtc.instant ∧ u.jrn.rstRdy = a.rtc.instant ∧
          u.jrn.rstCount = satN 32 (a.jrn.rstCount + 1) ∧ fld u.jrn.rstCause 47 44 = 0 ∧ bit u.jrn.rstCause 43 = false ∧ bit u.jrn.rstCause 40 = true) ∧
    (a.pwr.good = false → a.pwr.phase = .mainsLoss → a.pwr.lossClk + 72019200 < a.tb.clk →
        Answers (exec (.mainsGoodReturn t) s) fun u => u.pwr.ready = false ∧ u.pwr.good = false ∧ u.pwr.phase = .shed ∧ u.dom 1 = 0 ∧ u.dom 2 = 0 ∧ u.dom 7 = 0 ∧ u.dom 9 = 0 ∧ u.rtc.sec = a.rtc.sec)) ∧
  (∀ (t : Lapse) (volts hz : Nat) (bad : List (Nat × Nat)) (s : State),
    let a := s.elapse t
    a.pwr.phase = .shed → a.pwr.ready = false → a.pwr.good = false → a.pwr.timeDown = false → a.rtc.source = 0 → (∀ d, d < 11 → a.dom (d + 1) = 0) → 105 ≤ volts →
      Answers (exec (.bringUp t volts hz true bad) s) fun u =>
        u.pwr.phase = .bringup ∧ u.pwr.ready = false ∧ u.pwr.good = true ∧ u.pwr.dc = true ∧ u.pwr.volts = satN 10 volts ∧ u.pwr.stages = 3 ∧ u.pwr.cause = 0 ∧
        (∀ d, d < 12 → u.dom d = if d = 1 ∨ d = 2 ∨ d = 6 ∨ d = 7 ∨ d = 9 ∨ d = 11 then 2 else a.dom d) ∧ u.tb.q0 = a.rtc.instant ∧ u.jrn = a.jrn ∧ u.parts = a.parts) ∧
  (∀ (t : Lapse) (okA okB : Bool) (finds : List Find) (s : State),
    let a := s.elapse t
    (a.pwr.phase = .bringup → a.isOn 1 = true → a.pwr.ready = false → a.pwr.sc11 = true → a.rtc.coldPend = false →
        Answers (exec (.replay t okA okB finds) s) fun u =>
          u.pwr.ready = true ∧ u.pwr.phase = .running ∧ u.pwr.readyClk = a.tb.clk ∧ u.tb.q0 = a.rtc.instant ∧ u.jrn.rstRdy = a.rtc.instant ∧ u.jrn.rstCount = satN 32 (a.jrn.rstCount + 1) ∧
          fld u.jrn.rstCause 47 44 = a.pwr.cause % 16 ∧ bit u.jrn.rstCause 43 = true ∧ u.rtc.keep.hdr = some (satN 32 (a.jrn.rstCount + 1)) ∧ u.pwr.dom = a.pwr.dom ∧ u.mem = a.mem) ∧
    (a.pwr.dormantReq = true → a.pwr.ready = true → a.dom 11 = 0 →
        Answers (exec (.dormantEntry t) s) fun u =>
          u.pwr.phase = .dormant ∧ u.pwr.ready = false ∧ u.pwr.dormantReq = false ∧ u.pwr.dormants = satN 16 (a.pwr.dormants + 1) ∧ u.pwr.wakeReq = none ∧
          (∀ d, d < 12 → u.dom d = if d = 0 then a.dom 0 else if d = 2 then 1 else 0) ∧ u.jrn.rstOut = a.tb.q0 ∧ u.rtc.sec = a.rtc.sec)) ∧
  (∀ (t : Lapse) (cause : Nat) (bad : List (Nat × Nat)) (s : State),
    let a := s.elapse t
    a.pwr.phase = .dormant → a.pwr.ready = false → a.pwr.wakeReq = some cause → a.pwr.good = true → a.pwr.timeDown = false → (∀ d, d < 11 → d ≠ 1 → a.dom (d + 1) = 0) →
      Answers (exec (.wake t cause bad) s) fun u =>
        u.pwr.phase = .bringup ∧ u.pwr.cause = cause ∧ u.pwr.wakes = satN 16 (a.pwr.wakes + 1) ∧ u.pwr.wakeReq = none ∧
        (∀ d, d < 12 → u.dom d = if d = 1 ∨ d = 2 ∨ d = 6 ∨ d = 7 ∨ d = 9 ∨ d = 11 then 2 else a.dom d) ∧ u.tb.q0 = a.rtc.instant ∧ u.jrn = a.jrn ∧ u.parts = a.parts) ∧
  (∀ (t : Lapse) (stage : Nat) (s : State),
    let a := s.elapse t
    stage < 2 → a.pwr.good = true → a.fc.conv = 0 → a.isOn 1 = true →
      Answers (exec (.converterStageFailed t stage) s) fun u =>
        u.fc = { a.fc with conv := 2 ^ stage } ∧ u.pwr = { a.pwr with stages := clearBits a.pwr.stages (2 ^ (1 - stage)) } ∧
        Told a u ∧ u.rest = ((a.putFc u.fc).putPwr u.pwr).rest)

/-- A granted write in a region of its master stores its word and changes no other; a lone read without an error changes nothing in memory and its master is answered the word. A write outside the master's regions is not performed, sets the fault bit and is reported. An address beyond 0xFF_FFFF stops the model. A patrol lease without an error advances its engine by one stripe. A failed bank is mapped to BS while that is free, is reported, and the copy's completion is shown; memory goes to retention after 1 ms without access where that is asked for. The instants at which commands act, and what the rules leave open here, are the model's choice (log 1, 5, 135, 140). -/
def Obligations.SharedMemoryAccess : Prop :=
  (∀ (t : Lapse) (r : MemReq) (w : Word) (s : State),
    let a := s.elapse t
    (a.dom 7 = 2 → a.clk.pllS.gives = true → r.addr < 0x1000000 → r.master < 16 → r.data = some w → a.mem.queue = [] → a.mem.capped r a.cycleNow = false → reqHard r = true ∨ a.mem.leaseOn r.addr a.cycleNow = none →
      a.memAllowed r = true →
        Answers (exec (.memoryAccess t [r]) s) fun u =>
          u.mem.cells = (a.mem.write r.addr w).cells ∧ u.mem.read r.addr = w ∧ u.mem.bad = a.mem.bad.filter (· ≠ r.addr) ∧ u.mem.fault = a.mem.fault ∧ u.mem.queue = [] ∧ u = a.putMem u.mem) ∧
    (a.dom 7 = 2 → a.clk.pllS.gives = true → r.addr < 0x1000000 → r.master < 16 → r.data = none → r.ecc = 0 → a.mem.queue = [] → a.mem.capped r a.cycleNow = false → reqHard r = true ∨ a.mem.leaseOn r.addr a.cycleNow = none →
      a.mem.bad.contains r.addr = false →
        Answers (exec (.memoryAccess t [r]) s) fun u =>
          u.mem.cells = a.mem.cells ∧ u.mem.bad = a.mem.bad ∧ u.mem.ce = a.mem.ce ∧ u.mem.ue = a.mem.ue ∧ u.mem.fault = a.mem.fault ∧ u.mem.queue = [] ∧ u.mem.lastClk = a.tb.clk ∧
          u = (a.putMem u.mem).putWire [.mem r.master r.addr 0 (a.mem.read r.addr)]) ∧
    (a.dom 7 = 2 → a.clk.pllS.gives = true → r.addr < 0x1000000 → r.master < 16 → r.data = some w → a.mem.queue = [] → a.mem.capped r a.cycleNow = false → reqHard r = true ∨ a.mem.leaseOn r.addr a.cycleNow = none →
      mayWrite r.master (regionOf r.addr) = false → coreOf r.master = none → tget none (0xD03 * 65536 + r.master) a.raised = none →
        Answers (exec (.memoryAccess t [r]) s) fun u =>
          u.mem.cells = a.mem.cells ∧ u.mem.fault = setBit a.mem.fault 3 ∧ Told a u ∧ u.rest = (a.putMem u.mem).rest) ∧
    (0x1000000 ≤ r.addr →
        exec (.memoryAccess t [r]) s = .fault .outsideMemory)) ∧
  (∀ (t : Lapse) (g : Nat) (s : State),
    let a := s.elapse t
    let p := a.mem.patrol g
    (g < 4 → bit a.mem.patrolCfg 47 = true → a.isOn 7 = true → a.clk.pllS.gives = true → p.since.all (fun c => decide (c + usClk (fld a.mem.patrolCfg 46 31) ≤ a.tb.clk)) = true → p.pos + 1 < 65536 →
        Answers (exec (.patrolLease t g [] true) s) fun u =>
          u.mem.patrol g = { pos := p.pos + 1, passes := p.passes, since := some a.tb.clk, lease := some (8 * g + p.pos / 8192, p.pos % 8192 * 64, memCycle a.tb.clk) } ∧
          (∀ x, x < 4 → x ≠ g → u.mem.patrol x = a.mem.patrol x) ∧ u.mem = { a.mem with patrols := u.mem.patrols } ∧ u = a.putMem u.mem) ∧
    (g < 32 → (a.mem.bank g).due = true → (a.mem.bank g).state = 0 → a.mem.spare = 0 →
        Answers (exec (.bankFailed t g) s) fun u =>
          (u.mem.bank g).state = 1 ∧ (u.mem.bank g).due = false ∧ u.mem.spare = 1 ∧ u.mem.spareFor = g ∧ u.mem.cells = a.mem.cells ∧
          (a.mem.bad = [] → u.sch = a.sch) ∧ Told a u ∧ u.rest = ((a.putMem u.mem).putSch u.sch).rest) ∧
    (g < 32 → (a.mem.bank g).due = true → (a.mem.bank g).state = 0 → a.mem.spare = 2 →
        Answers (exec (.bankFailed t g) s) fun u => (u.mem.bank g).state = 2 ∧ u.mem.spare = 2 ∧ u.mem.spareFor = a.mem.spareFor ∧ u.mem.cells = a.mem.cells ∧ Told a u ∧ u.rest = (a.putMem u.mem).rest) ∧
    (a.mem.spare = 1 →
        exec (.spareCopyComplete t) s = .next (a.putMem { a.mem with spare := 2 })) ∧
    (a.dom 7 = 2 → tget 0 7 a.pwr.req = 1 → a.mem.lastClk + 654720 ≤ a.tb.clk →
        exec (.memRetentionIdle t) s = .next ((a.putMem a.mem.endLeases).setDom 7 1)))

/-- From every state whose memory is in its canonical form, whatever command stands at the front of the queue, a step that answers a next state leaves memory in its canonical form: addresses strictly rising and no entry equal to what an unlisted byte reads as, so that equal memories are equal data. That an unlisted byte reads 0 is the model's choice (log 5). -/
def Obligations.StepKeepsInvariant : Prop :=
∀ s u : State, s.Inv → step s = .next u → u.Inv

/-- The state right after reset has its memory in canonical form, lists no byte of it, and no command waits in its queue. The instants at which commands act, and what the rules leave open here, are the model's choice (log 1, 5, 7). -/
def Obligations.ResetHoldsInvariant : Prop :=
State.reset.Inv ∧ State.reset.mem.cells = [] ∧ State.reset.pending = []

/-- Whatever the command and the state, where exec answers a next state the queue of waiting commands is the one it was given. -/
def Obligations.ExecKeepsTheQueue : Prop :=
∀ (c : Instr) (s u : State), exec c s = .next u → u.pending = s.pending
end

