-- ==== Sys2Proof/Laws/State.lean ====
section
/-! SUPPORT. The small lemmas of State: reading an indexed instance after writing one, and what every shared operation leaves alone, field by field. -/
namespace Sys2Proof.Machine
open Sys2Proof

@[simp] theorem tget_tins_same {α : Type} (d : α) (k : Nat) (v : α) (t : Tab α) : tget d k (tins k v t) = v := by
  induction t with
  | nil => simp [tins, tget]
  | cons e t ih => obtain ⟨j, x⟩ := e; simp only [tins]; split <;> (try split) <;> simp_all [tget]
@[simp] theorem tget_tins_ne {α : Type} (d : α) (i k : Nat) (v : α) (t : Tab α) (h : i ≠ k) : tget d i (tins k v t) = tget d i t := by
  induction t with
  | nil => simp [tins, tget, h]
  | cons e t ih =>
    obtain ⟨j, x⟩ := e; simp only [tins]; split
    · simp [tget, h]
    · split
      · subst_vars; simp [tget, h]
      · simp [tget, ih]
theorem tget_filter_same {α : Type} (d : α) (k : Nat) (t : Tab α) : tget d k (t.filter (fun e => e.1 != k)) = d := by
  induction t with
  | nil => rfl
  | cons e t ih =>
    obtain ⟨j, x⟩ := e
    by_cases h : j = k
    · simp [h, ih]
    · simp [h, tget, ih, Ne.symm h]
theorem tget_filter_ne {α : Type} (d : α) (i k : Nat) (t : Tab α) (h : i ≠ k) : tget d i (t.filter (fun e => e.1 != k)) = tget d i t := by
  induction t with
  | nil => rfl
  | cons e t ih =>
    obtain ⟨j, x⟩ := e
    by_cases hj : j = k
    · subst hj; simp [tget, h, ih]
    · simp [hj, tget, ih]
@[simp] theorem tget_tput_same {α : Type} [DecidableEq α] (d : α) (k : Nat) (v : α) (t : Tab α) : tget d k (tput d k v t) = v := by
  unfold tput; split
  · next h => rw [tget_filter_same, h]
  · simp
@[simp] theorem tget_tput_ne {α : Type} [DecidableEq α] (d d' : α) (i k : Nat) (v : α) (t : Tab α) (h : i ≠ k) : tget d i (tput d' k v t) = tget d i t := by
  unfold tput; split
  · exact tget_filter_ne d i k t h
  · simp [h]

/-! Reading a field after replacing one. -/

@[simp] theorem putTb_tb (s : State) (v : TimeBase) : (s.putTb v).tb = v := rfl
@[simp] theorem putTb_qs (s : State) (v : TimeBase) : (s.putTb v).qs = s.qs := rfl
@[simp] theorem putTb_shadows (s : State) (v : TimeBase) : (s.putTb v).shadows = s.shadows := rfl
@[simp] theorem putTb_calFrz (s : State) (v : TimeBase) : (s.putTb v).calFrz = s.calFrz := rfl
@[simp] theorem putTb_outs (s : State) (v : TimeBase) : (s.putTb v).outs = s.outs := rfl
@[simp] theorem putTb_clk (s : State) (v : TimeBase) : (s.putTb v).clk = s.clk := rfl
@[simp] theorem putTb_sch (s : State) (v : TimeBase) : (s.putTb v).sch = s.sch := rfl
@[simp] theorem putTb_parts (s : State) (v : TimeBase) : (s.putTb v).parts = s.parts := rfl
@[simp] theorem putTb_jrn (s : State) (v : TimeBase) : (s.putTb v).jrn = s.jrn := rfl
@[simp] theorem putTb_fc (s : State) (v : TimeBase) : (s.putTb v).fc = s.fc := rfl
@[simp] theorem putTb_raised (s : State) (v : TimeBase) : (s.putTb v).raised = s.raised := rfl
@[simp] theorem putTb_host (s : State) (v : TimeBase) : (s.putTb v).host = s.host := rfl
@[simp] theorem putTb_stage (s : State) (v : TimeBase) : (s.putTb v).stage = s.stage := rfl
@[simp] theorem putTb_lbal (s : State) (v : TimeBase) : (s.putTb v).lbal = s.lbal := rfl
@[simp] theorem putTb_rtc (s : State) (v : TimeBase) : (s.putTb v).rtc = s.rtc := rfl
@[simp] theorem putTb_pwr (s : State) (v : TimeBase) : (s.putTb v).pwr = s.pwr := rfl
@[simp] theorem putTb_rf (s : State) (v : TimeBase) : (s.putTb v).rf = s.rf := rfl
@[simp] theorem putTb_gale (s : State) (v : TimeBase) : (s.putTb v).gale = s.gale := rfl
@[simp] theorem putTb_kite (s : State) (v : TimeBase) : (s.putTb v).kite = s.kite := rfl
@[simp] theorem putTb_meas (s : State) (v : TimeBase) : (s.putTb v).meas = s.meas := rfl
@[simp] theorem putTb_modes (s : State) (v : TimeBase) : (s.putTb v).modes = s.modes := rfl
@[simp] theorem putTb_mem (s : State) (v : TimeBase) : (s.putTb v).mem = s.mem := rfl
@[simp] theorem putTb_links (s : State) (v : TimeBase) : (s.putTb v).links = s.links := rfl
@[simp] theorem putTb_ports (s : State) (v : TimeBase) : (s.putTb v).ports = s.ports := rfl
@[simp] theorem putTb_dsp (s : State) (v : TimeBase) : (s.putTb v).dsp = s.dsp := rfl
@[simp] theorem putTb_wire (s : State) (v : TimeBase) : (s.putTb v).wire = s.wire := rfl
@[simp] theorem putTb_fresh (s : State) (v : TimeBase) : (s.putTb v).fresh = s.fresh := rfl
@[simp] theorem putTb_pending (s : State) (v : TimeBase) : (s.putTb v).pending = s.pending := rfl
@[simp] theorem putQs_tb (s : State) (v : Tab Qty) : (s.putQs v).tb = s.tb := rfl
@[simp] theorem putQs_qs (s : State) (v : Tab Qty) : (s.putQs v).qs = v := rfl
@[simp] theorem putQs_shadows (s : State) (v : Tab Qty) : (s.putQs v).shadows = s.shadows := rfl
@[simp] theorem putQs_calFrz (s : State) (v : Tab Qty) : (s.putQs v).calFrz = s.calFrz := rfl
@[simp] theorem putQs_outs (s : State) (v : Tab Qty) : (s.putQs v).outs = s.outs := rfl
@[simp] theorem putQs_clk (s : State) (v : Tab Qty) : (s.putQs v).clk = s.clk := rfl
@[simp] theorem putQs_sch (s : State) (v : Tab Qty) : (s.putQs v).sch = s.sch := rfl
@[simp] theorem putQs_parts (s : State) (v : Tab Qty) : (s.putQs v).parts = s.parts := rfl
@[simp] theorem putQs_jrn (s : State) (v : Tab Qty) : (s.putQs v).jrn = s.jrn := rfl
@[simp] theorem putQs_fc (s : State) (v : Tab Qty) : (s.putQs v).fc = s.fc := rfl
@[simp] theorem putQs_raised (s : State) (v : Tab Qty) : (s.putQs v).raised = s.raised := rfl
@[simp] theorem putQs_host (s : State) (v : Tab Qty) : (s.putQs v).host = s.host := rfl
@[simp] theorem putQs_stage (s : State) (v : Tab Qty) : (s.putQs v).stage = s.stage := rfl
@[simp] theorem putQs_lbal (s : State) (v : Tab Qty) : (s.putQs v).lbal = s.lbal := rfl
@[simp] theorem putQs_rtc (s : State) (v : Tab Qty) : (s.putQs v).rtc = s.rtc := rfl
@[simp] theorem putQs_pwr (s : State) (v : Tab Qty) : (s.putQs v).pwr = s.pwr := rfl
@[simp] theorem putQs_rf (s : State) (v : Tab Qty) : (s.putQs v).rf = s.rf := rfl
@[simp] theorem putQs_gale (s : State) (v : Tab Qty) : (s.putQs v).gale = s.gale := rfl
@[simp] theorem putQs_kite (s : State) (v : Tab Qty) : (s.putQs v).kite = s.kite := rfl
@[simp] theorem putQs_meas (s : State) (v : Tab Qty) : (s.putQs v).meas = s.meas := rfl
@[simp] theorem putQs_modes (s : State) (v : Tab Qty) : (s.putQs v).modes = s.modes := rfl
@[simp] theorem putQs_mem (s : State) (v : Tab Qty) : (s.putQs v).mem = s.mem := rfl
@[simp] theorem putQs_links (s : State) (v : Tab Qty) : (s.putQs v).links = s.links := rfl
@[simp] theorem putQs_ports (s : State) (v : Tab Qty) : (s.putQs v).ports = s.ports := rfl
@[simp] theorem putQs_dsp (s : State) (v : Tab Qty) : (s.putQs v).dsp = s.dsp := rfl
@[simp] theorem putQs_wire (s : State) (v : Tab Qty) : (s.putQs v).wire = s.wire := rfl
@[simp] theorem putQs_fresh (s : State) (v : Tab Qty) : (s.putQs v).fresh = s.fresh := rfl
@[simp] theorem putQs_pending (s : State) (v : Tab Qty) : (s.putQs v).pending = s.pending := rfl
@[simp] theorem putShadows_tb (s : State) (v : Tab Shadow) : (s.putShadows v).tb = s.tb := rfl
@[simp] theorem putShadows_qs (s : State) (v : Tab Shadow) : (s.putShadows v).qs = s.qs := rfl
@[simp] theorem putShadows_shadows (s : State) (v : Tab Shadow) : (s.putShadows v).shadows = v := rfl
@[simp] theorem putShadows_calFrz (s : State) (v : Tab Shadow) : (s.putShadows v).calFrz = s.calFrz := rfl
@[simp] theorem putShadows_outs (s : State) (v : Tab Shadow) : (s.putShadows v).outs = s.outs := rfl
@[simp] theorem putShadows_clk (s : State) (v : Tab Shadow) : (s.putShadows v).clk = s.clk := rfl
@[simp] theorem putShadows_sch (s : State) (v : Tab Shadow) : (s.putShadows v).sch = s.sch := rfl
@[simp] theorem putShadows_parts (s : State) (v : Tab Shadow) : (s.putShadows v).parts = s.parts := rfl
@[simp] theorem putShadows_jrn (s : State) (v : Tab Shadow) : (s.putShadows v).jrn = s.jrn := rfl
@[simp] theorem putShadows_fc (s : State) (v : Tab Shadow) : (s.putShadows v).fc = s.fc := rfl
@[simp] theorem putShadows_raised (s : State) (v : Tab Shadow) : (s.putShadows v).raised = s.raised := rfl
@[simp] theorem putShadows_host (s : State) (v : Tab Shadow) : (s.putShadows v).host = s.host := rfl
@[simp] theorem putShadows_stage (s : State) (v : Tab Shadow) : (s.putShadows v).stage = s.stage := rfl
@[simp] theorem putShadows_lbal (s : State) (v : Tab Shadow) : (s.putShadows v).lbal = s.lbal := rfl
@[simp] theorem putShadows_rtc (s : State) (v : Tab Shadow) : (s.putShadows v).rtc = s.rtc := rfl
@[simp] theorem putShadows_pwr (s : State) (v : Tab Shadow) : (s.putShadows v).pwr = s.pwr := rfl
@[simp] theorem putShadows_rf (s : State) (v : Tab Shadow) : (s.putShadows v).rf = s.rf := rfl
@[simp] theorem putShadows_gale (s : State) (v : Tab Shadow) : (s.putShadows v).gale = s.gale := rfl
@[simp] theorem putShadows_kite (s : State) (v : Tab Shadow) : (s.putShadows v).kite = s.kite := rfl
@[simp] theorem putShadows_meas (s : State) (v : Tab Shadow) : (s.putShadows v).meas = s.meas := rfl
@[simp] theorem putShadows_modes (s : State) (v : Tab Shadow) : (s.putShadows v).modes = s.modes := rfl
@[simp] theorem putShadows_mem (s : State) (v : Tab Shadow) : (s.putShadows v).mem = s.mem := rfl
@[simp] theorem putShadows_links (s : State) (v : Tab Shadow) : (s.putShadows v).links = s.links := rfl
@[simp] theorem putShadows_ports (s : State) (v : Tab Shadow) : (s.putShadows v).ports = s.ports := rfl
@[simp] theorem putShadows_dsp (s : State) (v : Tab Shadow) : (s.putShadows v).dsp = s.dsp := rfl
@[simp] theorem putShadows_wire (s : State) (v : Tab Shadow) : (s.putShadows v).wire = s.wire := rfl
@[simp] theorem putShadows_fresh (s : State) (v : Tab Shadow) : (s.putShadows v).fresh = s.fresh := rfl
@[simp] theorem putShadows_pending (s : State) (v : Tab Shadow) : (s.putShadows v).pending = s.pending := rfl
@[simp] theorem putCalFrz_tb (s : State) (v : Tab (Option (Word × Word × Word))) : (s.putCalFrz v).tb = s.tb := rfl
@[simp] theorem putCalFrz_qs (s : State) (v : Tab (Option (Word × Word × Word))) : (s.putCalFrz v).qs = s.qs := rfl
@[simp] theorem putCalFrz_shadows (s : State) (v : Tab (Option (Word × Word × Word))) : (s.putCalFrz v).shadows = s.shadows := rfl
@[simp] theorem putCalFrz_calFrz (s : State) (v : Tab (Option (Word × Word × Word))) : (s.putCalFrz v).calFrz = v := rfl
@[simp] theorem putCalFrz_outs (s : State) (v : Tab (Option (Word × Word × Word))) : (s.putCalFrz v).outs = s.outs := rfl
@[simp] theorem putCalFrz_clk (s : State) (v : Tab (Option (Word × Word × Word))) : (s.putCalFrz v).clk = s.clk := rfl
@[simp] theorem putCalFrz_sch (s : State) (v : Tab (Option (Word × Word × Word))) : (s.putCalFrz v).sch = s.sch := rfl
@[simp] theorem putCalFrz_parts (s : State) (v : Tab (Option (Word × Word × Word))) : (s.putCalFrz v).parts = s.parts := rfl
@[simp] theorem putCalFrz_jrn (s : State) (v : Tab (Option (Word × Word × Word))) : (s.putCalFrz v).jrn = s.jrn := rfl
@[simp] theorem putCalFrz_fc (s : State) (v : Tab (Option (Word × Word × Word))) : (s.putCalFrz v).fc = s.fc := rfl
@[simp] theorem putCalFrz_raised (s : State) (v : Tab (Option (Word × Word × Word))) : (s.putCalFrz v).raised = s.raised := rfl
@[simp] theorem putCalFrz_host (s : State) (v : Tab (Option (Word × Word × Word))) : (s.putCalFrz v).host = s.host := rfl
@[simp] theorem putCalFrz_stage (s : State) (v : Tab (Option (Word × Word × Word))) : (s.putCalFrz v).stage = s.stage := rfl
@[simp] theorem putCalFrz_lbal (s : State) (v : Tab (Option (Word × Word × Word))) : (s.putCalFrz v).lbal = s.lbal := rfl
@[simp] theorem putCalFrz_rtc (s : State) (v : Tab (Option (Word × Word × Word))) : (s.putCalFrz v).rtc = s.rtc := rfl
@[simp] theorem putCalFrz_pwr (s : State) (v : Tab (Option (Word × Word × Word))) : (s.putCalFrz v).pwr = s.pwr := rfl
@[simp] theorem putCalFrz_rf (s : State) (v : Tab (Option (Word × Word × Word))) : (s.putCalFrz v).rf = s.rf := rfl
@[simp] theorem putCalFrz_gale (s : State) (v : Tab (Option (Word × Word × Word))) : (s.putCalFrz v).gale = s.gale := rfl
@[simp] theorem putCalFrz_kite (s : State) (v : Tab (Option (Word × Word × Word))) : (s.putCalFrz v).kite = s.kite := rfl
@[simp] theorem putCalFrz_meas (s : State) (v : Tab (Option (Word × Word × Word))) : (s.putCalFrz v).meas = s.meas := rfl
@[simp] theorem putCalFrz_modes (s : State) (v : Tab (Option (Word × Word × Word))) : (s.putCalFrz v).modes = s.modes := rfl
@[simp] theorem putCalFrz_mem (s : State) (v : Tab (Option (Word × Word × Word))) : (s.putCalFrz v).mem = s.mem := rfl
@[simp] theorem putCalFrz_links (s : State) (v : Tab (Option (Word × Word × Word))) : (s.putCalFrz v).links = s.links := rfl
@[simp] theorem putCalFrz_ports (s : State) (v : Tab (Option (Word × Word × Word))) : (s.putCalFrz v).ports = s.ports := rfl
@[simp] theorem putCalFrz_dsp (s : State) (v : Tab (Option (Word × Word × Word))) : (s.putCalFrz v).dsp = s.dsp := rfl
@[simp] theorem putCalFrz_wire (s : State) (v : Tab (Option (Word × Word × Word))) : (s.putCalFrz v).wire = s.wire := rfl
@[simp] theorem putCalFrz_fresh (s : State) (v : Tab (Option (Word × Word × Word))) : (s.putCalFrz v).fresh = s.fresh := rfl
@[simp] theorem putCalFrz_pending (s : State) (v : Tab (Option (Word × Word × Word))) : (s.putCalFrz v).pending = s.pending := rfl
@[simp] theorem putOuts_tb (s : State) (v : Tab Output) : (s.putOuts v).tb = s.tb := rfl
@[simp] theorem putOuts_qs (s : State) (v : Tab Output) : (s.putOuts v).qs = s.qs := rfl
@[simp] theorem putOuts_shadows (s : State) (v : Tab Output) : (s.putOuts v).shadows = s.shadows := rfl
@[simp] theorem putOuts_calFrz (s : State) (v : Tab Output) : (s.putOuts v).calFrz = s.calFrz := rfl
@[simp] theorem putOuts_outs (s : State) (v : Tab Output) : (s.putOuts v).outs = v := rfl
@[simp] theorem putOuts_clk (s : State) (v : Tab Output) : (s.putOuts v).clk = s.clk := rfl
@[simp] theorem putOuts_sch (s : State) (v : Tab Output) : (s.putOuts v).sch = s.sch := rfl
@[simp] theorem putOuts_parts (s : State) (v : Tab Output) : (s.putOuts v).parts = s.parts := rfl
@[simp] theorem putOuts_jrn (s : State) (v : Tab Output) : (s.putOuts v).jrn = s.jrn := rfl
@[simp] theorem putOuts_fc (s : State) (v : Tab Output) : (s.putOuts v).fc = s.fc := rfl
@[simp] theorem putOuts_raised (s : State) (v : Tab Output) : (s.putOuts v).raised = s.raised := rfl
@[simp] theorem putOuts_host (s : State) (v : Tab Output) : (s.putOuts v).host = s.host := rfl
@[simp] theorem putOuts_stage (s : State) (v : Tab Output) : (s.putOuts v).stage = s.stage := rfl
@[simp] theorem putOuts_lbal (s : State) (v : Tab Output) : (s.putOuts v).lbal = s.lbal := rfl
@[simp] theorem putOuts_rtc (s : State) (v : Tab Output) : (s.putOuts v).rtc = s.rtc := rfl
@[simp] theorem putOuts_pwr (s : State) (v : Tab Output) : (s.putOuts v).pwr = s.pwr := rfl
@[simp] theorem putOuts_rf (s : State) (v : Tab Output) : (s.putOuts v).rf = s.rf := rfl
@[simp] theorem putOuts_gale (s : State) (v : Tab Output) : (s.putOuts v).gale = s.gale := rfl
@[simp] theorem putOuts_kite (s : State) (v : Tab Output) : (s.putOuts v).kite = s.kite := rfl
@[simp] theorem putOuts_meas (s : State) (v : Tab Output) : (s.putOuts v).meas = s.meas := rfl
@[simp] theorem putOuts_modes (s : State) (v : Tab Output) : (s.putOuts v).modes = s.modes := rfl
@[simp] theorem putOuts_mem (s : State) (v : Tab Output) : (s.putOuts v).mem = s.mem := rfl
@[simp] theorem putOuts_links (s : State) (v : Tab Output) : (s.putOuts v).links = s.links := rfl
@[simp] theorem putOuts_ports (s : State) (v : Tab Output) : (s.putOuts v).ports = s.ports := rfl
@[simp] theorem putOuts_dsp (s : State) (v : Tab Output) : (s.putOuts v).dsp = s.dsp := rfl
@[simp] theorem putOuts_wire (s : State) (v : Tab Output) : (s.putOuts v).wire = s.wire := rfl
@[simp] theorem putOuts_fresh (s : State) (v : Tab Output) : (s.putOuts v).fresh = s.fresh := rfl
@[simp] theorem putOuts_pending (s : State) (v : Tab Output) : (s.putOuts v).pending = s.pending := rfl
@[simp] theorem putClk_tb (s : State) (v : Clock) : (s.putClk v).tb = s.tb := rfl
@[simp] theorem putClk_qs (s : State) (v : Clock) : (s.putClk v).qs = s.qs := rfl
@[simp] theorem putClk_shadows (s : State) (v : Clock) : (s.putClk v).shadows = s.shadows := rfl
@[simp] theorem putClk_calFrz (s : State) (v : Clock) : (s.putClk v).calFrz = s.calFrz := rfl
@[simp] theorem putClk_outs (s : State) (v : Clock) : (s.putClk v).outs = s.outs := rfl
@[simp] theorem putClk_clk (s : State) (v : Clock) : (s.putClk v).clk = v := rfl
@[simp] theorem putClk_sch (s : State) (v : Clock) : (s.putClk v).sch = s.sch := rfl
@[simp] theorem putClk_parts (s : State) (v : Clock) : (s.putClk v).parts = s.parts := rfl
@[simp] theorem putClk_jrn (s : State) (v : Clock) : (s.putClk v).jrn = s.jrn := rfl
@[simp] theorem putClk_fc (s : State) (v : Clock) : (s.putClk v).fc = s.fc := rfl
@[simp] theorem putClk_raised (s : State) (v : Clock) : (s.putClk v).raised = s.raised := rfl
@[simp] theorem putClk_host (s : State) (v : Clock) : (s.putClk v).host = s.host := rfl
@[simp] theorem putClk_stage (s : State) (v : Clock) : (s.putClk v).stage = s.stage := rfl
@[simp] theorem putClk_lbal (s : State) (v : Clock) : (s.putClk v).lbal = s.lbal := rfl
@[simp] theorem putClk_rtc (s : State) (v : Clock) : (s.putClk v).rtc = s.rtc := rfl
@[simp] theorem putClk_pwr (s : State) (v : Clock) : (s.putClk v).pwr = s.pwr := rfl
@[simp] theorem putClk_rf (s : State) (v : Clock) : (s.putClk v).rf = s.rf := rfl
@[simp] theorem putClk_gale (s : State) (v : Clock) : (s.putClk v).gale = s.gale := rfl
@[simp] theorem putClk_kite (s : State) (v : Clock) : (s.putClk v).kite = s.kite := rfl
@[simp] theorem putClk_meas (s : State) (v : Clock) : (s.putClk v).meas = s.meas := rfl
@[simp] theorem putClk_modes (s : State) (v : Clock) : (s.putClk v).modes = s.modes := rfl
@[simp] theorem putClk_mem (s : State) (v : Clock) : (s.putClk v).mem = s.mem := rfl
@[simp] theorem putClk_links (s : State) (v : Clock) : (s.putClk v).links = s.links := rfl
@[simp] theorem putClk_ports (s : State) (v : Clock) : (s.putClk v).ports = s.ports := rfl
@[simp] theorem putClk_dsp (s : State) (v : Clock) : (s.putClk v).dsp = s.dsp := rfl
@[simp] theorem putClk_wire (s : State) (v : Clock) : (s.putClk v).wire = s.wire := rfl
@[simp] theorem putClk_fresh (s : State) (v : Clock) : (s.putClk v).fresh = s.fresh := rfl
@[simp] theorem putClk_pending (s : State) (v : Clock) : (s.putClk v).pending = s.pending := rfl
@[simp] theorem putSch_tb (s : State) (v : Sched) : (s.putSch v).tb = s.tb := rfl
@[simp] theorem putSch_qs (s : State) (v : Sched) : (s.putSch v).qs = s.qs := rfl
@[simp] theorem putSch_shadows (s : State) (v : Sched) : (s.putSch v).shadows = s.shadows := rfl
@[simp] theorem putSch_calFrz (s : State) (v : Sched) : (s.putSch v).calFrz = s.calFrz := rfl
@[simp] theorem putSch_outs (s : State) (v : Sched) : (s.putSch v).outs = s.outs := rfl
@[simp] theorem putSch_clk (s : State) (v : Sched) : (s.putSch v).clk = s.clk := rfl
@[simp] theorem putSch_sch (s : State) (v : Sched) : (s.putSch v).sch = v := rfl
@[simp] theorem putSch_parts (s : State) (v : Sched) : (s.putSch v).parts = s.parts := rfl
@[simp] theorem putSch_jrn (s : State) (v : Sched) : (s.putSch v).jrn = s.jrn := rfl
@[simp] theorem putSch_fc (s : State) (v : Sched) : (s.putSch v).fc = s.fc := rfl
@[simp] theorem putSch_raised (s : State) (v : Sched) : (s.putSch v).raised = s.raised := rfl
@[simp] theorem putSch_host (s : State) (v : Sched) : (s.putSch v).host = s.host := rfl
@[simp] theorem putSch_stage (s : State) (v : Sched) : (s.putSch v).stage = s.stage := rfl
@[simp] theorem putSch_lbal (s : State) (v : Sched) : (s.putSch v).lbal = s.lbal := rfl
@[simp] theorem putSch_rtc (s : State) (v : Sched) : (s.putSch v).rtc = s.rtc := rfl
@[simp] theorem putSch_pwr (s : State) (v : Sched) : (s.putSch v).pwr = s.pwr := rfl
@[simp] theorem putSch_rf (s : State) (v : Sched) : (s.putSch v).rf = s.rf := rfl
@[simp] theorem putSch_gale (s : State) (v : Sched) : (s.putSch v).gale = s.gale := rfl
@[simp] theorem putSch_kite (s : State) (v : Sched) : (s.putSch v).kite = s.kite := rfl
@[simp] theorem putSch_meas (s : State) (v : Sched) : (s.putSch v).meas = s.meas := rfl
@[simp] theorem putSch_modes (s : State) (v : Sched) : (s.putSch v).modes = s.modes := rfl
@[simp] theorem putSch_mem (s : State) (v : Sched) : (s.putSch v).mem = s.mem := rfl
@[simp] theorem putSch_links (s : State) (v : Sched) : (s.putSch v).links = s.links := rfl
@[simp] theorem putSch_ports (s : State) (v : Sched) : (s.putSch v).ports = s.ports := rfl
@[simp] theorem putSch_dsp (s : State) (v : Sched) : (s.putSch v).dsp = s.dsp := rfl
@[simp] theorem putSch_wire (s : State) (v : Sched) : (s.putSch v).wire = s.wire := rfl
@[simp] theorem putSch_fresh (s : State) (v : Sched) : (s.putSch v).fresh = s.fresh := rfl
@[simp] theorem putSch_pending (s : State) (v : Sched) : (s.putSch v).pending = s.pending := rfl
@[simp] theorem putParts_tb (s : State) (v : Tab Partner) : (s.putParts v).tb = s.tb := rfl
@[simp] theorem putParts_qs (s : State) (v : Tab Partner) : (s.putParts v).qs = s.qs := rfl
@[simp] theorem putParts_shadows (s : State) (v : Tab Partner) : (s.putParts v).shadows = s.shadows := rfl
@[simp] theorem putParts_calFrz (s : State) (v : Tab Partner) : (s.putParts v).calFrz = s.calFrz := rfl
@[simp] theorem putParts_outs (s : State) (v : Tab Partner) : (s.putParts v).outs = s.outs := rfl
@[simp] theorem putParts_clk (s : State) (v : Tab Partner) : (s.putParts v).clk = s.clk := rfl
@[simp] theorem putParts_sch (s : State) (v : Tab Partner) : (s.putParts v).sch = s.sch := rfl
@[simp] theorem putParts_parts (s : State) (v : Tab Partner) : (s.putParts v).parts = v := rfl
@[simp] theorem putParts_jrn (s : State) (v : Tab Partner) : (s.putParts v).jrn = s.jrn := rfl
@[simp] theorem putParts_fc (s : State) (v : Tab Partner) : (s.putParts v).fc = s.fc := rfl
@[simp] theorem putParts_raised (s : State) (v : Tab Partner) : (s.putParts v).raised = s.raised := rfl
@[simp] theorem putParts_host (s : State) (v : Tab Partner) : (s.putParts v).host = s.host := rfl
@[simp] theorem putParts_stage (s : State) (v : Tab Partner) : (s.putParts v).stage = s.stage := rfl
@[simp] theorem putParts_lbal (s : State) (v : Tab Partner) : (s.putParts v).lbal = s.lbal := rfl
@[simp] theorem putParts_rtc (s : State) (v : Tab Partner) : (s.putParts v).rtc = s.rtc := rfl
@[simp] theorem putParts_pwr (s : State) (v : Tab Partner) : (s.putParts v).pwr = s.pwr := rfl
@[simp] theorem putParts_rf (s : State) (v : Tab Partner) : (s.putParts v).rf = s.rf := rfl
@[simp] theorem putParts_gale (s : State) (v : Tab Partner) : (s.putParts v).gale = s.gale := rfl
@[simp] theorem putParts_kite (s : State) (v : Tab Partner) : (s.putParts v).kite = s.kite := rfl
@[simp] theorem putParts_meas (s : State) (v : Tab Partner) : (s.putParts v).meas = s.meas := rfl
@[simp] theorem putParts_modes (s : State) (v : Tab Partner) : (s.putParts v).modes = s.modes := rfl
@[simp] theorem putParts_mem (s : State) (v : Tab Partner) : (s.putParts v).mem = s.mem := rfl
@[simp] theorem putParts_links (s : State) (v : Tab Partner) : (s.putParts v).links = s.links := rfl
@[simp] theorem putParts_ports (s : State) (v : Tab Partner) : (s.putParts v).ports = s.ports := rfl
@[simp] theorem putParts_dsp (s : State) (v : Tab Partner) : (s.putParts v).dsp = s.dsp := rfl
@[simp] theorem putParts_wire (s : State) (v : Tab Partner) : (s.putParts v).wire = s.wire := rfl
@[simp] theorem putParts_fresh (s : State) (v : Tab Partner) : (s.putParts v).fresh = s.fresh := rfl
@[simp] theorem putParts_pending (s : State) (v : Tab Partner) : (s.putParts v).pending = s.pending := rfl
@[simp] theorem putJrn_tb (s : State) (v : Journal) : (s.putJrn v).tb = s.tb := rfl
@[simp] theorem putJrn_qs (s : State) (v : Journal) : (s.putJrn v).qs = s.qs := rfl
@[simp] theorem putJrn_shadows (s : State) (v : Journal) : (s.putJrn v).shadows = s.shadows := rfl
@[simp] theorem putJrn_calFrz (s : State) (v : Journal) : (s.putJrn v).calFrz = s.calFrz := rfl
@[simp] theorem putJrn_outs (s : State) (v : Journal) : (s.putJrn v).outs = s.outs := rfl
@[simp] theorem putJrn_clk (s : State) (v : Journal) : (s.putJrn v).clk = s.clk := rfl
@[simp] theorem putJrn_sch (s : State) (v : Journal) : (s.putJrn v).sch = s.sch := rfl
@[simp] theorem putJrn_parts (s : State) (v : Journal) : (s.putJrn v).parts = s.parts := rfl
@[simp] theorem putJrn_jrn (s : State) (v : Journal) : (s.putJrn v).jrn = v := rfl
@[simp] theorem putJrn_fc (s : State) (v : Journal) : (s.putJrn v).fc = s.fc := rfl
@[simp] theorem putJrn_raised (s : State) (v : Journal) : (s.putJrn v).raised = s.raised := rfl
@[simp] theorem putJrn_host (s : State) (v : Journal) : (s.putJrn v).host = s.host := rfl
@[simp] theorem putJrn_stage (s : State) (v : Journal) : (s.putJrn v).stage = s.stage := rfl
@[simp] theorem putJrn_lbal (s : State) (v : Journal) : (s.putJrn v).lbal = s.lbal := rfl
@[simp] theorem putJrn_rtc (s : State) (v : Journal) : (s.putJrn v).rtc = s.rtc := rfl
@[simp] theorem putJrn_pwr (s : State) (v : Journal) : (s.putJrn v).pwr = s.pwr := rfl
@[simp] theorem putJrn_rf (s : State) (v : Journal) : (s.putJrn v).rf = s.rf := rfl
@[simp] theorem putJrn_gale (s : State) (v : Journal) : (s.putJrn v).gale = s.gale := rfl
@[simp] theorem putJrn_kite (s : State) (v : Journal) : (s.putJrn v).kite = s.kite := rfl
@[simp] theorem putJrn_meas (s : State) (v : Journal) : (s.putJrn v).meas = s.meas := rfl
@[simp] theorem putJrn_modes (s : State) (v : Journal) : (s.putJrn v).modes = s.modes := rfl
@[simp] theorem putJrn_mem (s : State) (v : Journal) : (s.putJrn v).mem = s.mem := rfl
@[simp] theorem putJrn_links (s : State) (v : Journal) : (s.putJrn v).links = s.links := rfl
@[simp] theorem putJrn_ports (s : State) (v : Journal) : (s.putJrn v).ports = s.ports := rfl
@[simp] theorem putJrn_dsp (s : State) (v : Journal) : (s.putJrn v).dsp = s.dsp := rfl
@[simp] theorem putJrn_wire (s : State) (v : Journal) : (s.putJrn v).wire = s.wire := rfl
@[simp] theorem putJrn_fresh (s : State) (v : Journal) : (s.putJrn v).fresh = s.fresh := rfl
@[simp] theorem putJrn_pending (s : State) (v : Journal) : (s.putJrn v).pending = s.pending := rfl
@[simp] theorem putFc_tb (s : State) (v : Parts) : (s.putFc v).tb = s.tb := rfl
@[simp] theorem putFc_qs (s : State) (v : Parts) : (s.putFc v).qs = s.qs := rfl
@[simp] theorem putFc_shadows (s : State) (v : Parts) : (s.putFc v).shadows = s.shadows := rfl
@[simp] theorem putFc_calFrz (s : State) (v : Parts) : (s.putFc v).calFrz = s.calFrz := rfl
@[simp] theorem putFc_outs (s : State) (v : Parts) : (s.putFc v).outs = s.outs := rfl
@[simp] theorem putFc_clk (s : State) (v : Parts) : (s.putFc v).clk = s.clk := rfl
@[simp] theorem putFc_sch (s : State) (v : Parts) : (s.putFc v).sch = s.sch := rfl
@[simp] theorem putFc_parts (s : State) (v : Parts) : (s.putFc v).parts = s.parts := rfl
@[simp] theorem putFc_jrn (s : State) (v : Parts) : (s.putFc v).jrn = s.jrn := rfl
@[simp] theorem putFc_fc (s : State) (v : Parts) : (s.putFc v).fc = v := rfl
@[simp] theorem putFc_raised (s : State) (v : Parts) : (s.putFc v).raised = s.raised := rfl
@[simp] theorem putFc_host (s : State) (v : Parts) : (s.putFc v).host = s.host := rfl
@[simp] theorem putFc_stage (s : State) (v : Parts) : (s.putFc v).stage = s.stage := rfl
@[simp] theorem putFc_lbal (s : State) (v : Parts) : (s.putFc v).lbal = s.lbal := rfl
@[simp] theorem putFc_rtc (s : State) (v : Parts) : (s.putFc v).rtc = s.rtc := rfl
@[simp] theorem putFc_pwr (s : State) (v : Parts) : (s.putFc v).pwr = s.pwr := rfl
@[simp] theorem putFc_rf (s : State) (v : Parts) : (s.putFc v).rf = s.rf := rfl
@[simp] theorem putFc_gale (s : State) (v : Parts) : (s.putFc v).gale = s.gale := rfl
@[simp] theorem putFc_kite (s : State) (v : Parts) : (s.putFc v).kite = s.kite := rfl
@[simp] theorem putFc_meas (s : State) (v : Parts) : (s.putFc v).meas = s.meas := rfl
@[simp] theorem putFc_modes (s : State) (v : Parts) : (s.putFc v).modes = s.modes := rfl
@[simp] theorem putFc_mem (s : State) (v : Parts) : (s.putFc v).mem = s.mem := rfl
@[simp] theorem putFc_links (s : State) (v : Parts) : (s.putFc v).links = s.links := rfl
@[simp] theorem putFc_ports (s : State) (v : Parts) : (s.putFc v).ports = s.ports := rfl
@[simp] theorem putFc_dsp (s : State) (v : Parts) : (s.putFc v).dsp = s.dsp := rfl
@[simp] theorem putFc_wire (s : State) (v : Parts) : (s.putFc v).wire = s.wire := rfl
@[simp] theorem putFc_fresh (s : State) (v : Parts) : (s.putFc v).fresh = s.fresh := rfl
@[simp] theorem putFc_pending (s : State) (v : Parts) : (s.putFc v).pending = s.pending := rfl
@[simp] theorem putRaised_tb (s : State) (v : Tab (Option Nat)) : (s.putRaised v).tb = s.tb := rfl
@[simp] theorem putRaised_qs (s : State) (v : Tab (Option Nat)) : (s.putRaised v).qs = s.qs := rfl
@[simp] theorem putRaised_shadows (s : State) (v : Tab (Option Nat)) : (s.putRaised v).shadows = s.shadows := rfl
@[simp] theorem putRaised_calFrz (s : State) (v : Tab (Option Nat)) : (s.putRaised v).calFrz = s.calFrz := rfl
@[simp] theorem putRaised_outs (s : State) (v : Tab (Option Nat)) : (s.putRaised v).outs = s.outs := rfl
@[simp] theorem putRaised_clk (s : State) (v : Tab (Option Nat)) : (s.putRaised v).clk = s.clk := rfl
@[simp] theorem putRaised_sch (s : State) (v : Tab (Option Nat)) : (s.putRaised v).sch = s.sch := rfl
@[simp] theorem putRaised_parts (s : State) (v : Tab (Option Nat)) : (s.putRaised v).parts = s.parts := rfl
@[simp] theorem putRaised_jrn (s : State) (v : Tab (Option Nat)) : (s.putRaised v).jrn = s.jrn := rfl
@[simp] theorem putRaised_fc (s : State) (v : Tab (Option Nat)) : (s.putRaised v).fc = s.fc := rfl
@[simp] theorem putRaised_raised (s : State) (v : Tab (Option Nat)) : (s.putRaised v).raised = v := rfl
@[simp] theorem putRaised_host (s : State) (v : Tab (Option Nat)) : (s.putRaised v).host = s.host := rfl
@[simp] theorem putRaised_stage (s : State) (v : Tab (Option Nat)) : (s.putRaised v).stage = s.stage := rfl
@[simp] theorem putRaised_lbal (s : State) (v : Tab (Option Nat)) : (s.putRaised v).lbal = s.lbal := rfl
@[simp] theorem putRaised_rtc (s : State) (v : Tab (Option Nat)) : (s.putRaised v).rtc = s.rtc := rfl
@[simp] theorem putRaised_pwr (s : State) (v : Tab (Option Nat)) : (s.putRaised v).pwr = s.pwr := rfl
@[simp] theorem putRaised_rf (s : State) (v : Tab (Option Nat)) : (s.putRaised v).rf = s.rf := rfl
@[simp] theorem putRaised_gale (s : State) (v : Tab (Option Nat)) : (s.putRaised v).gale = s.gale := rfl
@[simp] theorem putRaised_kite (s : State) (v : Tab (Option Nat)) : (s.putRaised v).kite = s.kite := rfl
@[simp] theorem putRaised_meas (s : State) (v : Tab (Option Nat)) : (s.putRaised v).meas = s.meas := rfl
@[simp] theorem putRaised_modes (s : State) (v : Tab (Option Nat)) : (s.putRaised v).modes = s.modes := rfl
@[simp] theorem putRaised_mem (s : State) (v : Tab (Option Nat)) : (s.putRaised v).mem = s.mem := rfl
@[simp] theorem putRaised_links (s : State) (v : Tab (Option Nat)) : (s.putRaised v).links = s.links := rfl
@[simp] theorem putRaised_ports (s : State) (v : Tab (Option Nat)) : (s.putRaised v).ports = s.ports := rfl
@[simp] theorem putRaised_dsp (s : State) (v : Tab (Option Nat)) : (s.putRaised v).dsp = s.dsp := rfl
@[simp] theorem putRaised_wire (s : State) (v : Tab (Option Nat)) : (s.putRaised v).wire = s.wire := rfl
@[simp] theorem putRaised_fresh (s : State) (v : Tab (Option Nat)) : (s.putRaised v).fresh = s.fresh := rfl
@[simp] theorem putRaised_pending (s : State) (v : Tab (Option Nat)) : (s.putRaised v).pending = s.pending := rfl
@[simp] theorem putHost_tb (s : State) (v : HostBlk) : (s.putHost v).tb = s.tb := rfl
@[simp] theorem putHost_qs (s : State) (v : HostBlk) : (s.putHost v).qs = s.qs := rfl
@[simp] theorem putHost_shadows (s : State) (v : HostBlk) : (s.putHost v).shadows = s.shadows := rfl
@[simp] theorem putHost_calFrz (s : State) (v : HostBlk) : (s.putHost v).calFrz = s.calFrz := rfl
@[simp] theorem putHost_outs (s : State) (v : HostBlk) : (s.putHost v).outs = s.outs := rfl
@[simp] theorem putHost_clk (s : State) (v : HostBlk) : (s.putHost v).clk = s.clk := rfl
@[simp] theorem putHost_sch (s : State) (v : HostBlk) : (s.putHost v).sch = s.sch := rfl
@[simp] theorem putHost_parts (s : State) (v : HostBlk) : (s.putHost v).parts = s.parts := rfl
@[simp] theorem putHost_jrn (s : State) (v : HostBlk) : (s.putHost v).jrn = s.jrn := rfl
@[simp] theorem putHost_fc (s : State) (v : HostBlk) : (s.putHost v).fc = s.fc := rfl
@[simp] theorem putHost_raised (s : State) (v : HostBlk) : (s.putHost v).raised = s.raised := rfl
@[simp] theorem putHost_host (s : State) (v : HostBlk) : (s.putHost v).host = v := rfl
@[simp] theorem putHost_stage (s : State) (v : HostBlk) : (s.putHost v).stage = s.stage := rfl
@[simp] theorem putHost_lbal (s : State) (v : HostBlk) : (s.putHost v).lbal = s.lbal := rfl
@[simp] theorem putHost_rtc (s : State) (v : HostBlk) : (s.putHost v).rtc = s.rtc := rfl
@[simp] theorem putHost_pwr (s : State) (v : HostBlk) : (s.putHost v).pwr = s.pwr := rfl
@[simp] theorem putHost_rf (s : State) (v : HostBlk) : (s.putHost v).rf = s.rf := rfl
@[simp] theorem putHost_gale (s : State) (v : HostBlk) : (s.putHost v).gale = s.gale := rfl
@[simp] theorem putHost_kite (s : State) (v : HostBlk) : (s.putHost v).kite = s.kite := rfl
@[simp] theorem putHost_meas (s : State) (v : HostBlk) : (s.putHost v).meas = s.meas := rfl
@[simp] theorem putHost_modes (s : State) (v : HostBlk) : (s.putHost v).modes = s.modes := rfl
@[simp] theorem putHost_mem (s : State) (v : HostBlk) : (s.putHost v).mem = s.mem := rfl
@[simp] theorem putHost_links (s : State) (v : HostBlk) : (s.putHost v).links = s.links := rfl
@[simp] theorem putHost_ports (s : State) (v : HostBlk) : (s.putHost v).ports = s.ports := rfl
@[simp] theorem putHost_dsp (s : State) (v : HostBlk) : (s.putHost v).dsp = s.dsp := rfl
@[simp] theorem putHost_wire (s : State) (v : HostBlk) : (s.putHost v).wire = s.wire := rfl
@[simp] theorem putHost_fresh (s : State) (v : HostBlk) : (s.putHost v).fresh = s.fresh := rfl
@[simp] theorem putHost_pending (s : State) (v : HostBlk) : (s.putHost v).pending = s.pending := rfl
@[simp] theorem putStage_tb (s : State) (v : List StageCopy) : (s.putStage v).tb = s.tb := rfl
@[simp] theorem putStage_qs (s : State) (v : List StageCopy) : (s.putStage v).qs = s.qs := rfl
@[simp] theorem putStage_shadows (s : State) (v : List StageCopy) : (s.putStage v).shadows = s.shadows := rfl
@[simp] theorem putStage_calFrz (s : State) (v : List StageCopy) : (s.putStage v).calFrz = s.calFrz := rfl
@[simp] theorem putStage_outs (s : State) (v : List StageCopy) : (s.putStage v).outs = s.outs := rfl
@[simp] theorem putStage_clk (s : State) (v : List StageCopy) : (s.putStage v).clk = s.clk := rfl
@[simp] theorem putStage_sch (s : State) (v : List StageCopy) : (s.putStage v).sch = s.sch := rfl
@[simp] theorem putStage_parts (s : State) (v : List StageCopy) : (s.putStage v).parts = s.parts := rfl
@[simp] theorem putStage_jrn (s : State) (v : List StageCopy) : (s.putStage v).jrn = s.jrn := rfl
@[simp] theorem putStage_fc (s : State) (v : List StageCopy) : (s.putStage v).fc = s.fc := rfl
@[simp] theorem putStage_raised (s : State) (v : List StageCopy) : (s.putStage v).raised = s.raised := rfl
@[simp] theorem putStage_host (s : State) (v : List StageCopy) : (s.putStage v).host = s.host := rfl
@[simp] theorem putStage_stage (s : State) (v : List StageCopy) : (s.putStage v).stage = v := rfl
@[simp] theorem putStage_lbal (s : State) (v : List StageCopy) : (s.putStage v).lbal = s.lbal := rfl
@[simp] theorem putStage_rtc (s : State) (v : List StageCopy) : (s.putStage v).rtc = s.rtc := rfl
@[simp] theorem putStage_pwr (s : State) (v : List StageCopy) : (s.putStage v).pwr = s.pwr := rfl
@[simp] theorem putStage_rf (s : State) (v : List StageCopy) : (s.putStage v).rf = s.rf := rfl
@[simp] theorem putStage_gale (s : State) (v : List StageCopy) : (s.putStage v).gale = s.gale := rfl
@[simp] theorem putStage_kite (s : State) (v : List StageCopy) : (s.putStage v).kite = s.kite := rfl
@[simp] theorem putStage_meas (s : State) (v : List StageCopy) : (s.putStage v).meas = s.meas := rfl
@[simp] theorem putStage_modes (s : State) (v : List StageCopy) : (s.putStage v).modes = s.modes := rfl
@[simp] theorem putStage_mem (s : State) (v : List StageCopy) : (s.putStage v).mem = s.mem := rfl
@[simp] theorem putStage_links (s : State) (v : List StageCopy) : (s.putStage v).links = s.links := rfl
@[simp] theorem putStage_ports (s : State) (v : List StageCopy) : (s.putStage v).ports = s.ports := rfl
@[simp] theorem putStage_dsp (s : State) (v : List StageCopy) : (s.putStage v).dsp = s.dsp := rfl
@[simp] theorem putStage_wire (s : State) (v : List StageCopy) : (s.putStage v).wire = s.wire := rfl
@[simp] theorem putStage_fresh (s : State) (v : List StageCopy) : (s.putStage v).fresh = s.fresh := rfl
@[simp] theorem putStage_pending (s : State) (v : List StageCopy) : (s.putStage v).pending = s.pending := rfl
@[simp] theorem putLbal_tb (s : State) (v : Tab LinkBal) : (s.putLbal v).tb = s.tb := rfl
@[simp] theorem putLbal_qs (s : State) (v : Tab LinkBal) : (s.putLbal v).qs = s.qs := rfl
@[simp] theorem putLbal_shadows (s : State) (v : Tab LinkBal) : (s.putLbal v).shadows = s.shadows := rfl
@[simp] theorem putLbal_calFrz (s : State) (v : Tab LinkBal) : (s.putLbal v).calFrz = s.calFrz := rfl
@[simp] theorem putLbal_outs (s : State) (v : Tab LinkBal) : (s.putLbal v).outs = s.outs := rfl
@[simp] theorem putLbal_clk (s : State) (v : Tab LinkBal) : (s.putLbal v).clk = s.clk := rfl
@[simp] theorem putLbal_sch (s : State) (v : Tab LinkBal) : (s.putLbal v).sch = s.sch := rfl
@[simp] theorem putLbal_parts (s : State) (v : Tab LinkBal) : (s.putLbal v).parts = s.parts := rfl
@[simp] theorem putLbal_jrn (s : State) (v : Tab LinkBal) : (s.putLbal v).jrn = s.jrn := rfl
@[simp] theorem putLbal_fc (s : State) (v : Tab LinkBal) : (s.putLbal v).fc = s.fc := rfl
@[simp] theorem putLbal_raised (s : State) (v : Tab LinkBal) : (s.putLbal v).raised = s.raised := rfl
@[simp] theorem putLbal_host (s : State) (v : Tab LinkBal) : (s.putLbal v).host = s.host := rfl
@[simp] theorem putLbal_stage (s : State) (v : Tab LinkBal) : (s.putLbal v).stage = s.stage := rfl
@[simp] theorem putLbal_lbal (s : State) (v : Tab LinkBal) : (s.putLbal v).lbal = v := rfl
@[simp] theorem putLbal_rtc (s : State) (v : Tab LinkBal) : (s.putLbal v).rtc = s.rtc := rfl
@[simp] theorem putLbal_pwr (s : State) (v : Tab LinkBal) : (s.putLbal v).pwr = s.pwr := rfl
@[simp] theorem putLbal_rf (s : State) (v : Tab LinkBal) : (s.putLbal v).rf = s.rf := rfl
@[simp] theorem putLbal_gale (s : State) (v : Tab LinkBal) : (s.putLbal v).gale = s.gale := rfl
@[simp] theorem putLbal_kite (s : State) (v : Tab LinkBal) : (s.putLbal v).kite = s.kite := rfl
@[simp] theorem putLbal_meas (s : State) (v : Tab LinkBal) : (s.putLbal v).meas = s.meas := rfl
@[simp] theorem putLbal_modes (s : State) (v : Tab LinkBal) : (s.putLbal v).modes = s.modes := rfl
@[simp] theorem putLbal_mem (s : State) (v : Tab LinkBal) : (s.putLbal v).mem = s.mem := rfl
@[simp] theorem putLbal_links (s : State) (v : Tab LinkBal) : (s.putLbal v).links = s.links := rfl
@[simp] theorem putLbal_ports (s : State) (v : Tab LinkBal) : (s.putLbal v).ports = s.ports := rfl
@[simp] theorem putLbal_dsp (s : State) (v : Tab LinkBal) : (s.putLbal v).dsp = s.dsp := rfl
@[simp] theorem putLbal_wire (s : State) (v : Tab LinkBal) : (s.putLbal v).wire = s.wire := rfl
@[simp] theorem putLbal_fresh (s : State) (v : Tab LinkBal) : (s.putLbal v).fresh = s.fresh := rfl
@[simp] theorem putLbal_pending (s : State) (v : Tab LinkBal) : (s.putLbal v).pending = s.pending := rfl
@[simp] theorem putRtc_tb (s : State) (v : Rtc) : (s.putRtc v).tb = s.tb := rfl
@[simp] theorem putRtc_qs (s : State) (v : Rtc) : (s.putRtc v).qs = s.qs := rfl
@[simp] theorem putRtc_shadows (s : State) (v : Rtc) : (s.putRtc v).shadows = s.shadows := rfl
@[simp] theorem putRtc_calFrz (s : State) (v : Rtc) : (s.putRtc v).calFrz = s.calFrz := rfl
@[simp] theorem putRtc_outs (s : State) (v : Rtc) : (s.putRtc v).outs = s.outs := rfl
@[simp] theorem putRtc_clk (s : State) (v : Rtc) : (s.putRtc v).clk = s.clk := rfl
@[simp] theorem putRtc_sch (s : State) (v : Rtc) : (s.putRtc v).sch = s.sch := rfl
@[simp] theorem putRtc_parts (s : State) (v : Rtc) : (s.putRtc v).parts = s.parts := rfl
@[simp] theorem putRtc_jrn (s : State) (v : Rtc) : (s.putRtc v).jrn = s.jrn := rfl
@[simp] theorem putRtc_fc (s : State) (v : Rtc) : (s.putRtc v).fc = s.fc := rfl
@[simp] theorem putRtc_raised (s : State) (v : Rtc) : (s.putRtc v).raised = s.raised := rfl
@[simp] theorem putRtc_host (s : State) (v : Rtc) : (s.putRtc v).host = s.host := rfl
@[simp] theorem putRtc_stage (s : State) (v : Rtc) : (s.putRtc v).stage = s.stage := rfl
@[simp] theorem putRtc_lbal (s : State) (v : Rtc) : (s.putRtc v).lbal = s.lbal := rfl
@[simp] theorem putRtc_rtc (s : State) (v : Rtc) : (s.putRtc v).rtc = v := rfl
@[simp] theorem putRtc_pwr (s : State) (v : Rtc) : (s.putRtc v).pwr = s.pwr := rfl
@[simp] theorem putRtc_rf (s : State) (v : Rtc) : (s.putRtc v).rf = s.rf := rfl
@[simp] theorem putRtc_gale (s : State) (v : Rtc) : (s.putRtc v).gale = s.gale := rfl
@[simp] theorem putRtc_kite (s : State) (v : Rtc) : (s.putRtc v).kite = s.kite := rfl
@[simp] theorem putRtc_meas (s : State) (v : Rtc) : (s.putRtc v).meas = s.meas := rfl
@[simp] theorem putRtc_modes (s : State) (v : Rtc) : (s.putRtc v).modes = s.modes := rfl
@[simp] theorem putRtc_mem (s : State) (v : Rtc) : (s.putRtc v).mem = s.mem := rfl
@[simp] theorem putRtc_links (s : State) (v : Rtc) : (s.putRtc v).links = s.links := rfl
@[simp] theorem putRtc_ports (s : State) (v : Rtc) : (s.putRtc v).ports = s.ports := rfl
@[simp] theorem putRtc_dsp (s : State) (v : Rtc) : (s.putRtc v).dsp = s.dsp := rfl
@[simp] theorem putRtc_wire (s : State) (v : Rtc) : (s.putRtc v).wire = s.wire := rfl
@[simp] theorem putRtc_fresh (s : State) (v : Rtc) : (s.putRtc v).fresh = s.fresh := rfl
@[simp] theorem putRtc_pending (s : State) (v : Rtc) : (s.putRtc v).pending = s.pending := rfl
@[simp] theorem putPwr_tb (s : State) (v : Power) : (s.putPwr v).tb = s.tb := rfl
@[simp] theorem putPwr_qs (s : State) (v : Power) : (s.putPwr v).qs = s.qs := rfl
@[simp] theorem putPwr_shadows (s : State) (v : Power) : (s.putPwr v).shadows = s.shadows := rfl
@[simp] theorem putPwr_calFrz (s : State) (v : Power) : (s.putPwr v).calFrz = s.calFrz := rfl
@[simp] theorem putPwr_outs (s : State) (v : Power) : (s.putPwr v).outs = s.outs := rfl
@[simp] theorem putPwr_clk (s : State) (v : Power) : (s.putPwr v).clk = s.clk := rfl
@[simp] theorem putPwr_sch (s : State) (v : Power) : (s.putPwr v).sch = s.sch := rfl
@[simp] theorem putPwr_parts (s : State) (v : Power) : (s.putPwr v).parts = s.parts := rfl
@[simp] theorem putPwr_jrn (s : State) (v : Power) : (s.putPwr v).jrn = s.jrn := rfl
@[simp] theorem putPwr_fc (s : State) (v : Power) : (s.putPwr v).fc = s.fc := rfl
@[simp] theorem putPwr_raised (s : State) (v : Power) : (s.putPwr v).raised = s.raised := rfl
@[simp] theorem putPwr_host (s : State) (v : Power) : (s.putPwr v).host = s.host := rfl
@[simp] theorem putPwr_stage (s : State) (v : Power) : (s.putPwr v).stage = s.stage := rfl
@[simp] theorem putPwr_lbal (s : State) (v : Power) : (s.putPwr v).lbal = s.lbal := rfl
@[simp] theorem putPwr_rtc (s : State) (v : Power) : (s.putPwr v).rtc = s.rtc := rfl
@[simp] theorem putPwr_pwr (s : State) (v : Power) : (s.putPwr v).pwr = v := rfl
@[simp] theorem putPwr_rf (s : State) (v : Power) : (s.putPwr v).rf = s.rf := rfl
@[simp] theorem putPwr_gale (s : State) (v : Power) : (s.putPwr v).gale = s.gale := rfl
@[simp] theorem putPwr_kite (s : State) (v : Power) : (s.putPwr v).kite = s.kite := rfl
@[simp] theorem putPwr_meas (s : State) (v : Power) : (s.putPwr v).meas = s.meas := rfl
@[simp] theorem putPwr_modes (s : State) (v : Power) : (s.putPwr v).modes = s.modes := rfl
@[simp] theorem putPwr_mem (s : State) (v : Power) : (s.putPwr v).mem = s.mem := rfl
@[simp] theorem putPwr_links (s : State) (v : Power) : (s.putPwr v).links = s.links := rfl
@[simp] theorem putPwr_ports (s : State) (v : Power) : (s.putPwr v).ports = s.ports := rfl
@[simp] theorem putPwr_dsp (s : State) (v : Power) : (s.putPwr v).dsp = s.dsp := rfl
@[simp] theorem putPwr_wire (s : State) (v : Power) : (s.putPwr v).wire = s.wire := rfl
@[simp] theorem putPwr_fresh (s : State) (v : Power) : (s.putPwr v).fresh = s.fresh := rfl
@[simp] theorem putPwr_pending (s : State) (v : Power) : (s.putPwr v).pending = s.pending := rfl
@[simp] theorem putRf_tb (s : State) (v : Rf) : (s.putRf v).tb = s.tb := rfl
@[simp] theorem putRf_qs (s : State) (v : Rf) : (s.putRf v).qs = s.qs := rfl
@[simp] theorem putRf_shadows (s : State) (v : Rf) : (s.putRf v).shadows = s.shadows := rfl
@[simp] theorem putRf_calFrz (s : State) (v : Rf) : (s.putRf v).calFrz = s.calFrz := rfl
@[simp] theorem putRf_outs (s : State) (v : Rf) : (s.putRf v).outs = s.outs := rfl
@[simp] theorem putRf_clk (s : State) (v : Rf) : (s.putRf v).clk = s.clk := rfl
@[simp] theorem putRf_sch (s : State) (v : Rf) : (s.putRf v).sch = s.sch := rfl
@[simp] theorem putRf_parts (s : State) (v : Rf) : (s.putRf v).parts = s.parts := rfl
@[simp] theorem putRf_jrn (s : State) (v : Rf) : (s.putRf v).jrn = s.jrn := rfl
@[simp] theorem putRf_fc (s : State) (v : Rf) : (s.putRf v).fc = s.fc := rfl
@[simp] theorem putRf_raised (s : State) (v : Rf) : (s.putRf v).raised = s.raised := rfl
@[simp] theorem putRf_host (s : State) (v : Rf) : (s.putRf v).host = s.host := rfl
@[simp] theorem putRf_stage (s : State) (v : Rf) : (s.putRf v).stage = s.stage := rfl
@[simp] theorem putRf_lbal (s : State) (v : Rf) : (s.putRf v).lbal = s.lbal := rfl
@[simp] theorem putRf_rtc (s : State) (v : Rf) : (s.putRf v).rtc = s.rtc := rfl
@[simp] theorem putRf_pwr (s : State) (v : Rf) : (s.putRf v).pwr = s.pwr := rfl
@[simp] theorem putRf_rf (s : State) (v : Rf) : (s.putRf v).rf = v := rfl
@[simp] theorem putRf_gale (s : State) (v : Rf) : (s.putRf v).gale = s.gale := rfl
@[simp] theorem putRf_kite (s : State) (v : Rf) : (s.putRf v).kite = s.kite := rfl
@[simp] theorem putRf_meas (s : State) (v : Rf) : (s.putRf v).meas = s.meas := rfl
@[simp] theorem putRf_modes (s : State) (v : Rf) : (s.putRf v).modes = s.modes := rfl
@[simp] theorem putRf_mem (s : State) (v : Rf) : (s.putRf v).mem = s.mem := rfl
@[simp] theorem putRf_links (s : State) (v : Rf) : (s.putRf v).links = s.links := rfl
@[simp] theorem putRf_ports (s : State) (v : Rf) : (s.putRf v).ports = s.ports := rfl
@[simp] theorem putRf_dsp (s : State) (v : Rf) : (s.putRf v).dsp = s.dsp := rfl
@[simp] theorem putRf_wire (s : State) (v : Rf) : (s.putRf v).wire = s.wire := rfl
@[simp] theorem putRf_fresh (s : State) (v : Rf) : (s.putRf v).fresh = s.fresh := rfl
@[simp] theorem putRf_pending (s : State) (v : Rf) : (s.putRf v).pending = s.pending := rfl
@[simp] theorem putGale_tb (s : State) (v : Gale) : (s.putGale v).tb = s.tb := rfl
@[simp] theorem putGale_qs (s : State) (v : Gale) : (s.putGale v).qs = s.qs := rfl
@[simp] theorem putGale_shadows (s : State) (v : Gale) : (s.putGale v).shadows = s.shadows := rfl
@[simp] theorem putGale_calFrz (s : State) (v : Gale) : (s.putGale v).calFrz = s.calFrz := rfl
@[simp] theorem putGale_outs (s : State) (v : Gale) : (s.putGale v).outs = s.outs := rfl
@[simp] theorem putGale_clk (s : State) (v : Gale) : (s.putGale v).clk = s.clk := rfl
@[simp] theorem putGale_sch (s : State) (v : Gale) : (s.putGale v).sch = s.sch := rfl
@[simp] theorem putGale_parts (s : State) (v : Gale) : (s.putGale v).parts = s.parts := rfl
@[simp] theorem putGale_jrn (s : State) (v : Gale) : (s.putGale v).jrn = s.jrn := rfl
@[simp] theorem putGale_fc (s : State) (v : Gale) : (s.putGale v).fc = s.fc := rfl
@[simp] theorem putGale_raised (s : State) (v : Gale) : (s.putGale v).raised = s.raised := rfl
@[simp] theorem putGale_host (s : State) (v : Gale) : (s.putGale v).host = s.host := rfl
@[simp] theorem putGale_stage (s : State) (v : Gale) : (s.putGale v).stage = s.stage := rfl
@[simp] theorem putGale_lbal (s : State) (v : Gale) : (s.putGale v).lbal = s.lbal := rfl
@[simp] theorem putGale_rtc (s : State) (v : Gale) : (s.putGale v).rtc = s.rtc := rfl
@[simp] theorem putGale_pwr (s : State) (v : Gale) : (s.putGale v).pwr = s.pwr := rfl
@[simp] theorem putGale_rf (s : State) (v : Gale) : (s.putGale v).rf = s.rf := rfl
@[simp] theorem putGale_gale (s : State) (v : Gale) : (s.putGale v).gale = v := rfl
@[simp] theorem putGale_kite (s : State) (v : Gale) : (s.putGale v).kite = s.kite := rfl
@[simp] theorem putGale_meas (s : State) (v : Gale) : (s.putGale v).meas = s.meas := rfl
@[simp] theorem putGale_modes (s : State) (v : Gale) : (s.putGale v).modes = s.modes := rfl
@[simp] theorem putGale_mem (s : State) (v : Gale) : (s.putGale v).mem = s.mem := rfl
@[simp] theorem putGale_links (s : State) (v : Gale) : (s.putGale v).links = s.links := rfl
@[simp] theorem putGale_ports (s : State) (v : Gale) : (s.putGale v).ports = s.ports := rfl
@[simp] theorem putGale_dsp (s : State) (v : Gale) : (s.putGale v).dsp = s.dsp := rfl
@[simp] theorem putGale_wire (s : State) (v : Gale) : (s.putGale v).wire = s.wire := rfl
@[simp] theorem putGale_fresh (s : State) (v : Gale) : (s.putGale v).fresh = s.fresh := rfl
@[simp] theorem putGale_pending (s : State) (v : Gale) : (s.putGale v).pending = s.pending := rfl
@[simp] theorem putKite_tb (s : State) (v : Kite) : (s.putKite v).tb = s.tb := rfl
@[simp] theorem putKite_qs (s : State) (v : Kite) : (s.putKite v).qs = s.qs := rfl
@[simp] theorem putKite_shadows (s : State) (v : Kite) : (s.putKite v).shadows = s.shadows := rfl
@[simp] theorem putKite_calFrz (s : State) (v : Kite) : (s.putKite v).calFrz = s.calFrz := rfl
@[simp] theorem putKite_outs (s : State) (v : Kite) : (s.putKite v).outs = s.outs := rfl
@[simp] theorem putKite_clk (s : State) (v : Kite) : (s.putKite v).clk = s.clk := rfl
@[simp] theorem putKite_sch (s : State) (v : Kite) : (s.putKite v).sch = s.sch := rfl
@[simp] theorem putKite_parts (s : State) (v : Kite) : (s.putKite v).parts = s.parts := rfl
@[simp] theorem putKite_jrn (s : State) (v : Kite) : (s.putKite v).jrn = s.jrn := rfl
@[simp] theorem putKite_fc (s : State) (v : Kite) : (s.putKite v).fc = s.fc := rfl
@[simp] theorem putKite_raised (s : State) (v : Kite) : (s.putKite v).raised = s.raised := rfl
@[simp] theorem putKite_host (s : State) (v : Kite) : (s.putKite v).host = s.host := rfl
@[simp] theorem putKite_stage (s : State) (v : Kite) : (s.putKite v).stage = s.stage := rfl
@[simp] theorem putKite_lbal (s : State) (v : Kite) : (s.putKite v).lbal = s.lbal := rfl
@[simp] theorem putKite_rtc (s : State) (v : Kite) : (s.putKite v).rtc = s.rtc := rfl
@[simp] theorem putKite_pwr (s : State) (v : Kite) : (s.putKite v).pwr = s.pwr := rfl
@[simp] theorem putKite_rf (s : State) (v : Kite) : (s.putKite v).rf = s.rf := rfl
@[simp] theorem putKite_gale (s : State) (v : Kite) : (s.putKite v).gale = s.gale := rfl
@[simp] theorem putKite_kite (s : State) (v : Kite) : (s.putKite v).kite = v := rfl
@[simp] theorem putKite_meas (s : State) (v : Kite) : (s.putKite v).meas = s.meas := rfl
@[simp] theorem putKite_modes (s : State) (v : Kite) : (s.putKite v).modes = s.modes := rfl
@[simp] theorem putKite_mem (s : State) (v : Kite) : (s.putKite v).mem = s.mem := rfl
@[simp] theorem putKite_links (s : State) (v : Kite) : (s.putKite v).links = s.links := rfl
@[simp] theorem putKite_ports (s : State) (v : Kite) : (s.putKite v).ports = s.ports := rfl
@[simp] theorem putKite_dsp (s : State) (v : Kite) : (s.putKite v).dsp = s.dsp := rfl
@[simp] theorem putKite_wire (s : State) (v : Kite) : (s.putKite v).wire = s.wire := rfl
@[simp] theorem putKite_fresh (s : State) (v : Kite) : (s.putKite v).fresh = s.fresh := rfl
@[simp] theorem putKite_pending (s : State) (v : Kite) : (s.putKite v).pending = s.pending := rfl
@[simp] theorem putMeas_tb (s : State) (v : Meas) : (s.putMeas v).tb = s.tb := rfl
@[simp] theorem putMeas_qs (s : State) (v : Meas) : (s.putMeas v).qs = s.qs := rfl
@[simp] theorem putMeas_shadows (s : State) (v : Meas) : (s.putMeas v).shadows = s.shadows := rfl
@[simp] theorem putMeas_calFrz (s : State) (v : Meas) : (s.putMeas v).calFrz = s.calFrz := rfl
@[simp] theorem putMeas_outs (s : State) (v : Meas) : (s.putMeas v).outs = s.outs := rfl
@[simp] theorem putMeas_clk (s : State) (v : Meas) : (s.putMeas v).clk = s.clk := rfl
@[simp] theorem putMeas_sch (s : State) (v : Meas) : (s.putMeas v).sch = s.sch := rfl
@[simp] theorem putMeas_parts (s : State) (v : Meas) : (s.putMeas v).parts = s.parts := rfl
@[simp] theorem putMeas_jrn (s : State) (v : Meas) : (s.putMeas v).jrn = s.jrn := rfl
@[simp] theorem putMeas_fc (s : State) (v : Meas) : (s.putMeas v).fc = s.fc := rfl
@[simp] theorem putMeas_raised (s : State) (v : Meas) : (s.putMeas v).raised = s.raised := rfl
@[simp] theorem putMeas_host (s : State) (v : Meas) : (s.putMeas v).host = s.host := rfl
@[simp] theorem putMeas_stage (s : State) (v : Meas) : (s.putMeas v).stage = s.stage := rfl
@[simp] theorem putMeas_lbal (s : State) (v : Meas) : (s.putMeas v).lbal = s.lbal := rfl
@[simp] theorem putMeas_rtc (s : State) (v : Meas) : (s.putMeas v).rtc = s.rtc := rfl
@[simp] theorem putMeas_pwr (s : State) (v : Meas) : (s.putMeas v).pwr = s.pwr := rfl
@[simp] theorem putMeas_rf (s : State) (v : Meas) : (s.putMeas v).rf = s.rf := rfl
@[simp] theorem putMeas_gale (s : State) (v : Meas) : (s.putMeas v).gale = s.gale := rfl
@[simp] theorem putMeas_kite (s : State) (v : Meas) : (s.putMeas v).kite = s.kite := rfl
@[simp] theorem putMeas_meas (s : State) (v : Meas) : (s.putMeas v).meas = v := rfl
@[simp] theorem putMeas_modes (s : State) (v : Meas) : (s.putMeas v).modes = s.modes := rfl
@[simp] theorem putMeas_mem (s : State) (v : Meas) : (s.putMeas v).mem = s.mem := rfl
@[simp] theorem putMeas_links (s : State) (v : Meas) : (s.putMeas v).links = s.links := rfl
@[simp] theorem putMeas_ports (s : State) (v : Meas) : (s.putMeas v).ports = s.ports := rfl
@[simp] theorem putMeas_dsp (s : State) (v : Meas) : (s.putMeas v).dsp = s.dsp := rfl
@[simp] theorem putMeas_wire (s : State) (v : Meas) : (s.putMeas v).wire = s.wire := rfl
@[simp] theorem putMeas_fresh (s : State) (v : Meas) : (s.putMeas v).fresh = s.fresh := rfl
@[simp] theorem putMeas_pending (s : State) (v : Meas) : (s.putMeas v).pending = s.pending := rfl
@[simp] theorem putModes_tb (s : State) (v : ModeBlk) : (s.putModes v).tb = s.tb := rfl
@[simp] theorem putModes_qs (s : State) (v : ModeBlk) : (s.putModes v).qs = s.qs := rfl
@[simp] theorem putModes_shadows (s : State) (v : ModeBlk) : (s.putModes v).shadows = s.shadows := rfl
@[simp] theorem putModes_calFrz (s : State) (v : ModeBlk) : (s.putModes v).calFrz = s.calFrz := rfl
@[simp] theorem putModes_outs (s : State) (v : ModeBlk) : (s.putModes v).outs = s.outs := rfl
@[simp] theorem putModes_clk (s : State) (v : ModeBlk) : (s.putModes v).clk = s.clk := rfl
@[simp] theorem putModes_sch (s : State) (v : ModeBlk) : (s.putModes v).sch = s.sch := rfl
@[simp] theorem putModes_parts (s : State) (v : ModeBlk) : (s.putModes v).parts = s.parts := rfl
@[simp] theorem putModes_jrn (s : State) (v : ModeBlk) : (s.putModes v).jrn = s.jrn := rfl
@[simp] theorem putModes_fc (s : State) (v : ModeBlk) : (s.putModes v).fc = s.fc := rfl
@[simp] theorem putModes_raised (s : State) (v : ModeBlk) : (s.putModes v).raised = s.raised := rfl
@[simp] theorem putModes_host (s : State) (v : ModeBlk) : (s.putModes v).host = s.host := rfl
@[simp] theorem putModes_stage (s : State) (v : ModeBlk) : (s.putModes v).stage = s.stage := rfl
@[simp] theorem putModes_lbal (s : State) (v : ModeBlk) : (s.putModes v).lbal = s.lbal := rfl
@[simp] theorem putModes_rtc (s : State) (v : ModeBlk) : (s.putModes v).rtc = s.rtc := rfl
@[simp] theorem putModes_pwr (s : State) (v : ModeBlk) : (s.putModes v).pwr = s.pwr := rfl
@[simp] theorem putModes_rf (s : State) (v : ModeBlk) : (s.putModes v).rf = s.rf := rfl
@[simp] theorem putModes_gale (s : State) (v : ModeBlk) : (s.putModes v).gale = s.gale := rfl
@[simp] theorem putModes_kite (s : State) (v : ModeBlk) : (s.putModes v).kite = s.kite := rfl
@[simp] theorem putModes_meas (s : State) (v : ModeBlk) : (s.putModes v).meas = s.meas := rfl
@[simp] theorem putModes_modes (s : State) (v : ModeBlk) : (s.putModes v).modes = v := rfl
@[simp] theorem putModes_mem (s : State) (v : ModeBlk) : (s.putModes v).mem = s.mem := rfl
@[simp] theorem putModes_links (s : State) (v : ModeBlk) : (s.putModes v).links = s.links := rfl
@[simp] theorem putModes_ports (s : State) (v : ModeBlk) : (s.putModes v).ports = s.ports := rfl
@[simp] theorem putModes_dsp (s : State) (v : ModeBlk) : (s.putModes v).dsp = s.dsp := rfl
@[simp] theorem putModes_wire (s : State) (v : ModeBlk) : (s.putModes v).wire = s.wire := rfl
@[simp] theorem putModes_fresh (s : State) (v : ModeBlk) : (s.putModes v).fresh = s.fresh := rfl
@[simp] theorem putModes_pending (s : State) (v : ModeBlk) : (s.putModes v).pending = s.pending := rfl
@[simp] theorem putMem_tb (s : State) (v : Memory) : (s.putMem v).tb = s.tb := rfl
@[simp] theorem putMem_qs (s : State) (v : Memory) : (s.putMem v).qs = s.qs := rfl
@[simp] theorem putMem_shadows (s : State) (v : Memory) : (s.putMem v).shadows = s.shadows := rfl
@[simp] theorem putMem_calFrz (s : State) (v : Memory) : (s.putMem v).calFrz = s.calFrz := rfl
@[simp] theorem putMem_outs (s : State) (v : Memory) : (s.putMem v).outs = s.outs := rfl
@[simp] theorem putMem_clk (s : State) (v : Memory) : (s.putMem v).clk = s.clk := rfl
@[simp] theorem putMem_sch (s : State) (v : Memory) : (s.putMem v).sch = s.sch := rfl
@[simp] theorem putMem_parts (s : State) (v : Memory) : (s.putMem v).parts = s.parts := rfl
@[simp] theorem putMem_jrn (s : State) (v : Memory) : (s.putMem v).jrn = s.jrn := rfl
@[simp] theorem putMem_fc (s : State) (v : Memory) : (s.putMem v).fc = s.fc := rfl
@[simp] theorem putMem_raised (s : State) (v : Memory) : (s.putMem v).raised = s.raised := rfl
@[simp] theorem putMem_host (s : State) (v : Memory) : (s.putMem v).host = s.host := rfl
@[simp] theorem putMem_stage (s : State) (v : Memory) : (s.putMem v).stage = s.stage := rfl
@[simp] theorem putMem_lbal (s : State) (v : Memory) : (s.putMem v).lbal = s.lbal := rfl
@[simp] theorem putMem_rtc (s : State) (v : Memory) : (s.putMem v).rtc = s.rtc := rfl
@[simp] theorem putMem_pwr (s : State) (v : Memory) : (s.putMem v).pwr = s.pwr := rfl
@[simp] theorem putMem_rf (s : State) (v : Memory) : (s.putMem v).rf = s.rf := rfl
@[simp] theorem putMem_gale (s : State) (v : Memory) : (s.putMem v).gale = s.gale := rfl
@[simp] theorem putMem_kite (s : State) (v : Memory) : (s.putMem v).kite = s.kite := rfl
@[simp] theorem putMem_meas (s : State) (v : Memory) : (s.putMem v).meas = s.meas := rfl
@[simp] theorem putMem_modes (s : State) (v : Memory) : (s.putMem v).modes = s.modes := rfl
@[simp] theorem putMem_mem (s : State) (v : Memory) : (s.putMem v).mem = v := rfl
@[simp] theorem putMem_links (s : State) (v : Memory) : (s.putMem v).links = s.links := rfl
@[simp] theorem putMem_ports (s : State) (v : Memory) : (s.putMem v).ports = s.ports := rfl
@[simp] theorem putMem_dsp (s : State) (v : Memory) : (s.putMem v).dsp = s.dsp := rfl
@[simp] theorem putMem_wire (s : State) (v : Memory) : (s.putMem v).wire = s.wire := rfl
@[simp] theorem putMem_fresh (s : State) (v : Memory) : (s.putMem v).fresh = s.fresh := rfl
@[simp] theorem putMem_pending (s : State) (v : Memory) : (s.putMem v).pending = s.pending := rfl
@[simp] theorem putLinks_tb (s : State) (v : Tab Link) : (s.putLinks v).tb = s.tb := rfl
@[simp] theorem putLinks_qs (s : State) (v : Tab Link) : (s.putLinks v).qs = s.qs := rfl
@[simp] theorem putLinks_shadows (s : State) (v : Tab Link) : (s.putLinks v).shadows = s.shadows := rfl
@[simp] theorem putLinks_calFrz (s : State) (v : Tab Link) : (s.putLinks v).calFrz = s.calFrz := rfl
@[simp] theorem putLinks_outs (s : State) (v : Tab Link) : (s.putLinks v).outs = s.outs := rfl
@[simp] theorem putLinks_clk (s : State) (v : Tab Link) : (s.putLinks v).clk = s.clk := rfl
@[simp] theorem putLinks_sch (s : State) (v : Tab Link) : (s.putLinks v).sch = s.sch := rfl
@[simp] theorem putLinks_parts (s : State) (v : Tab Link) : (s.putLinks v).parts = s.parts := rfl
@[simp] theorem putLinks_jrn (s : State) (v : Tab Link) : (s.putLinks v).jrn = s.jrn := rfl
@[simp] theorem putLinks_fc (s : State) (v : Tab Link) : (s.putLinks v).fc = s.fc := rfl
@[simp] theorem putLinks_raised (s : State) (v : Tab Link) : (s.putLinks v).raised = s.raised := rfl
@[simp] theorem putLinks_host (s : State) (v : Tab Link) : (s.putLinks v).host = s.host := rfl
@[simp] theorem putLinks_stage (s : State) (v : Tab Link) : (s.putLinks v).stage = s.stage := rfl
@[simp] theorem putLinks_lbal (s : State) (v : Tab Link) : (s.putLinks v).lbal = s.lbal := rfl
@[simp] theorem putLinks_rtc (s : State) (v : Tab Link) : (s.putLinks v).rtc = s.rtc := rfl
@[simp] theorem putLinks_pwr (s : State) (v : Tab Link) : (s.putLinks v).pwr = s.pwr := rfl
@[simp] theorem putLinks_rf (s : State) (v : Tab Link) : (s.putLinks v).rf = s.rf := rfl
@[simp] theorem putLinks_gale (s : State) (v : Tab Link) : (s.putLinks v).gale = s.gale := rfl
@[simp] theorem putLinks_kite (s : State) (v : Tab Link) : (s.putLinks v).kite = s.kite := rfl
@[simp] theorem putLinks_meas (s : State) (v : Tab Link) : (s.putLinks v).meas = s.meas := rfl
@[simp] theorem putLinks_modes (s : State) (v : Tab Link) : (s.putLinks v).modes = s.modes := rfl
@[simp] theorem putLinks_mem (s : State) (v : Tab Link) : (s.putLinks v).mem = s.mem := rfl
@[simp] theorem putLinks_links (s : State) (v : Tab Link) : (s.putLinks v).links = v := rfl
@[simp] theorem putLinks_ports (s : State) (v : Tab Link) : (s.putLinks v).ports = s.ports := rfl
@[simp] theorem putLinks_dsp (s : State) (v : Tab Link) : (s.putLinks v).dsp = s.dsp := rfl
@[simp] theorem putLinks_wire (s : State) (v : Tab Link) : (s.putLinks v).wire = s.wire := rfl
@[simp] theorem putLinks_fresh (s : State) (v : Tab Link) : (s.putLinks v).fresh = s.fresh := rfl
@[simp] theorem putLinks_pending (s : State) (v : Tab Link) : (s.putLinks v).pending = s.pending := rfl
@[simp] theorem putPorts_tb (s : State) (v : Tab SmpPort) : (s.putPorts v).tb = s.tb := rfl
@[simp] theorem putPorts_qs (s : State) (v : Tab SmpPort) : (s.putPorts v).qs = s.qs := rfl
@[simp] theorem putPorts_shadows (s : State) (v : Tab SmpPort) : (s.putPorts v).shadows = s.shadows := rfl
@[simp] theorem putPorts_calFrz (s : State) (v : Tab SmpPort) : (s.putPorts v).calFrz = s.calFrz := rfl
@[simp] theorem putPorts_outs (s : State) (v : Tab SmpPort) : (s.putPorts v).outs = s.outs := rfl
@[simp] theorem putPorts_clk (s : State) (v : Tab SmpPort) : (s.putPorts v).clk = s.clk := rfl
@[simp] theorem putPorts_sch (s : State) (v : Tab SmpPort) : (s.putPorts v).sch = s.sch := rfl
@[simp] theorem putPorts_parts (s : State) (v : Tab SmpPort) : (s.putPorts v).parts = s.parts := rfl
@[simp] theorem putPorts_jrn (s : State) (v : Tab SmpPort) : (s.putPorts v).jrn = s.jrn := rfl
@[simp] theorem putPorts_fc (s : State) (v : Tab SmpPort) : (s.putPorts v).fc = s.fc := rfl
@[simp] theorem putPorts_raised (s : State) (v : Tab SmpPort) : (s.putPorts v).raised = s.raised := rfl
@[simp] theorem putPorts_host (s : State) (v : Tab SmpPort) : (s.putPorts v).host = s.host := rfl
@[simp] theorem putPorts_stage (s : State) (v : Tab SmpPort) : (s.putPorts v).stage = s.stage := rfl
@[simp] theorem putPorts_lbal (s : State) (v : Tab SmpPort) : (s.putPorts v).lbal = s.lbal := rfl
@[simp] theorem putPorts_rtc (s : State) (v : Tab SmpPort) : (s.putPorts v).rtc = s.rtc := rfl
@[simp] theorem putPorts_pwr (s : State) (v : Tab SmpPort) : (s.putPorts v).pwr = s.pwr := rfl
@[simp] theorem putPorts_rf (s : State) (v : Tab SmpPort) : (s.putPorts v).rf = s.rf := rfl
@[simp] theorem putPorts_gale (s : State) (v : Tab SmpPort) : (s.putPorts v).gale = s.gale := rfl
@[simp] theorem putPorts_kite (s : State) (v : Tab SmpPort) : (s.putPorts v).kite = s.kite := rfl
@[simp] theorem putPorts_meas (s : State) (v : Tab SmpPort) : (s.putPorts v).meas = s.meas := rfl
@[simp] theorem putPorts_modes (s : State) (v : Tab SmpPort) : (s.putPorts v).modes = s.modes := rfl
@[simp] theorem putPorts_mem (s : State) (v : Tab SmpPort) : (s.putPorts v).mem = s.mem := rfl
@[simp] theorem putPorts_links (s : State) (v : Tab SmpPort) : (s.putPorts v).links = s.links := rfl
@[simp] theorem putPorts_ports (s : State) (v : Tab SmpPort) : (s.putPorts v).ports = v := rfl
@[simp] theorem putPorts_dsp (s : State) (v : Tab SmpPort) : (s.putPorts v).dsp = s.dsp := rfl
@[simp] theorem putPorts_wire (s : State) (v : Tab SmpPort) : (s.putPorts v).wire = s.wire := rfl
@[simp] theorem putPorts_fresh (s : State) (v : Tab SmpPort) : (s.putPorts v).fresh = s.fresh := rfl
@[simp] theorem putPorts_pending (s : State) (v : Tab SmpPort) : (s.putPorts v).pending = s.pending := rfl
@[simp] theorem putDsp_tb (s : State) (v : Dsp) : (s.putDsp v).tb = s.tb := rfl
@[simp] theorem putDsp_qs (s : State) (v : Dsp) : (s.putDsp v).qs = s.qs := rfl
@[simp] theorem putDsp_shadows (s : State) (v : Dsp) : (s.putDsp v).shadows = s.shadows := rfl
@[simp] theorem putDsp_calFrz (s : State) (v : Dsp) : (s.putDsp v).calFrz = s.calFrz := rfl
@[simp] theorem putDsp_outs (s : State) (v : Dsp) : (s.putDsp v).outs = s.outs := rfl
@[simp] theorem putDsp_clk (s : State) (v : Dsp) : (s.putDsp v).clk = s.clk := rfl
@[simp] theorem putDsp_sch (s : State) (v : Dsp) : (s.putDsp v).sch = s.sch := rfl
@[simp] theorem putDsp_parts (s : State) (v : Dsp) : (s.putDsp v).parts = s.parts := rfl
@[simp] theorem putDsp_jrn (s : State) (v : Dsp) : (s.putDsp v).jrn = s.jrn := rfl
@[simp] theorem putDsp_fc (s : State) (v : Dsp) : (s.putDsp v).fc = s.fc := rfl
@[simp] theorem putDsp_raised (s : State) (v : Dsp) : (s.putDsp v).raised = s.raised := rfl
@[simp] theorem putDsp_host (s : State) (v : Dsp) : (s.putDsp v).host = s.host := rfl
@[simp] theorem putDsp_stage (s : State) (v : Dsp) : (s.putDsp v).stage = s.stage := rfl
@[simp] theorem putDsp_lbal (s : State) (v : Dsp) : (s.putDsp v).lbal = s.lbal := rfl
@[simp] theorem putDsp_rtc (s : State) (v : Dsp) : (s.putDsp v).rtc = s.rtc := rfl
@[simp] theorem putDsp_pwr (s : State) (v : Dsp) : (s.putDsp v).pwr = s.pwr := rfl
@[simp] theorem putDsp_rf (s : State) (v : Dsp) : (s.putDsp v).rf = s.rf := rfl
@[simp] theorem putDsp_gale (s : State) (v : Dsp) : (s.putDsp v).gale = s.gale := rfl
@[simp] theorem putDsp_kite (s : State) (v : Dsp) : (s.putDsp v).kite = s.kite := rfl
@[simp] theorem putDsp_meas (s : State) (v : Dsp) : (s.putDsp v).meas = s.meas := rfl
@[simp] theorem putDsp_modes (s : State) (v : Dsp) : (s.putDsp v).modes = s.modes := rfl
@[simp] theorem putDsp_mem (s : State) (v : Dsp) : (s.putDsp v).mem = s.mem := rfl
@[simp] theorem putDsp_links (s : State) (v : Dsp) : (s.putDsp v).links = s.links := rfl
@[simp] theorem putDsp_ports (s : State) (v : Dsp) : (s.putDsp v).ports = s.ports := rfl
@[simp] theorem putDsp_dsp (s : State) (v : Dsp) : (s.putDsp v).dsp = v := rfl
@[simp] theorem putDsp_wire (s : State) (v : Dsp) : (s.putDsp v).wire = s.wire := rfl
@[simp] theorem putDsp_fresh (s : State) (v : Dsp) : (s.putDsp v).fresh = s.fresh := rfl
@[simp] theorem putDsp_pending (s : State) (v : Dsp) : (s.putDsp v).pending = s.pending := rfl
@[simp] theorem putWire_tb (s : State) (v : List Emit) : (s.putWire v).tb = s.tb := rfl
@[simp] theorem putWire_qs (s : State) (v : List Emit) : (s.putWire v).qs = s.qs := rfl
@[simp] theorem putWire_shadows (s : State) (v : List Emit) : (s.putWire v).shadows = s.shadows := rfl
@[simp] theorem putWire_calFrz (s : State) (v : List Emit) : (s.putWire v).calFrz = s.calFrz := rfl
@[simp] theorem putWire_outs (s : State) (v : List Emit) : (s.putWire v).outs = s.outs := rfl
@[simp] theorem putWire_clk (s : State) (v : List Emit) : (s.putWire v).clk = s.clk := rfl
@[simp] theorem putWire_sch (s : State) (v : List Emit) : (s.putWire v).sch = s.sch := rfl
@[simp] theorem putWire_parts (s : State) (v : List Emit) : (s.putWire v).parts = s.parts := rfl
@[simp] theorem putWire_jrn (s : State) (v : List Emit) : (s.putWire v).jrn = s.jrn := rfl
@[simp] theorem putWire_fc (s : State) (v : List Emit) : (s.putWire v).fc = s.fc := rfl
@[simp] theorem putWire_raised (s : State) (v : List Emit) : (s.putWire v).raised = s.raised := rfl
@[simp] theorem putWire_host (s : State) (v : List Emit) : (s.putWire v).host = s.host := rfl
@[simp] theorem putWire_stage (s : State) (v : List Emit) : (s.putWire v).stage = s.stage := rfl
@[simp] theorem putWire_lbal (s : State) (v : List Emit) : (s.putWire v).lbal = s.lbal := rfl
@[simp] theorem putWire_rtc (s : State) (v : List Emit) : (s.putWire v).rtc = s.rtc := rfl
@[simp] theorem putWire_pwr (s : State) (v : List Emit) : (s.putWire v).pwr = s.pwr := rfl
@[simp] theorem putWire_rf (s : State) (v : List Emit) : (s.putWire v).rf = s.rf := rfl
@[simp] theorem putWire_gale (s : State) (v : List Emit) : (s.putWire v).gale = s.gale := rfl
@[simp] theorem putWire_kite (s : State) (v : List Emit) : (s.putWire v).kite = s.kite := rfl
@[simp] theorem putWire_meas (s : State) (v : List Emit) : (s.putWire v).meas = s.meas := rfl
@[simp] theorem putWire_modes (s : State) (v : List Emit) : (s.putWire v).modes = s.modes := rfl
@[simp] theorem putWire_mem (s : State) (v : List Emit) : (s.putWire v).mem = s.mem := rfl
@[simp] theorem putWire_links (s : State) (v : List Emit) : (s.putWire v).links = s.links := rfl
@[simp] theorem putWire_ports (s : State) (v : List Emit) : (s.putWire v).ports = s.ports := rfl
@[simp] theorem putWire_dsp (s : State) (v : List Emit) : (s.putWire v).dsp = s.dsp := rfl
@[simp] theorem putWire_wire (s : State) (v : List Emit) : (s.putWire v).wire = v := rfl
@[simp] theorem putWire_fresh (s : State) (v : List Emit) : (s.putWire v).fresh = s.fresh := rfl
@[simp] theorem putWire_pending (s : State) (v : List Emit) : (s.putWire v).pending = s.pending := rfl
@[simp] theorem putFresh_tb (s : State) (v : Nat) : (s.putFresh v).tb = s.tb := rfl
@[simp] theorem putFresh_qs (s : State) (v : Nat) : (s.putFresh v).qs = s.qs := rfl
@[simp] theorem putFresh_shadows (s : State) (v : Nat) : (s.putFresh v).shadows = s.shadows := rfl
@[simp] theorem putFresh_calFrz (s : State) (v : Nat) : (s.putFresh v).calFrz = s.calFrz := rfl
@[simp] theorem putFresh_outs (s : State) (v : Nat) : (s.putFresh v).outs = s.outs := rfl
@[simp] theorem putFresh_clk (s : State) (v : Nat) : (s.putFresh v).clk = s.clk := rfl
@[simp] theorem putFresh_sch (s : State) (v : Nat) : (s.putFresh v).sch = s.sch := rfl
@[simp] theorem putFresh_parts (s : State) (v : Nat) : (s.putFresh v).parts = s.parts := rfl
@[simp] theorem putFresh_jrn (s : State) (v : Nat) : (s.putFresh v).jrn = s.jrn := rfl
@[simp] theorem putFresh_fc (s : State) (v : Nat) : (s.putFresh v).fc = s.fc := rfl
@[simp] theorem putFresh_raised (s : State) (v : Nat) : (s.putFresh v).raised = s.raised := rfl
@[simp] theorem putFresh_host (s : State) (v : Nat) : (s.putFresh v).host = s.host := rfl
@[simp] theorem putFresh_stage (s : State) (v : Nat) : (s.putFresh v).stage = s.stage := rfl
@[simp] theorem putFresh_lbal (s : State) (v : Nat) : (s.putFresh v).lbal = s.lbal := rfl
@[simp] theorem putFresh_rtc (s : State) (v : Nat) : (s.putFresh v).rtc = s.rtc := rfl
@[simp] theorem putFresh_pwr (s : State) (v : Nat) : (s.putFresh v).pwr = s.pwr := rfl
@[simp] theorem putFresh_rf (s : State) (v : Nat) : (s.putFresh v).rf = s.rf := rfl
@[simp] theorem putFresh_gale (s : State) (v : Nat) : (s.putFresh v).gale = s.gale := rfl
@[simp] theorem putFresh_kite (s : State) (v : Nat) : (s.putFresh v).kite = s.kite := rfl
@[simp] theorem putFresh_meas (s : State) (v : Nat) : (s.putFresh v).meas = s.meas := rfl
@[simp] theorem putFresh_modes (s : State) (v : Nat) : (s.putFresh v).modes = s.modes := rfl
@[simp] theorem putFresh_mem (s : State) (v : Nat) : (s.putFresh v).mem = s.mem := rfl
@[simp] theorem putFresh_links (s : State) (v : Nat) : (s.putFresh v).links = s.links := rfl
@[simp] theorem putFresh_ports (s : State) (v : Nat) : (s.putFresh v).ports = s.ports := rfl
@[simp] theorem putFresh_dsp (s : State) (v : Nat) : (s.putFresh v).dsp = s.dsp := rfl
@[simp] theorem putFresh_wire (s : State) (v : Nat) : (s.putFresh v).wire = s.wire := rfl
@[simp] theorem putFresh_fresh (s : State) (v : Nat) : (s.putFresh v).fresh = v := rfl
@[simp] theorem putFresh_pending (s : State) (v : Nat) : (s.putFresh v).pending = s.pending := rfl

/-! Reading an indexed instance after replacing one. -/

@[simp] theorem part_setPart (s : State) (n : Nat) (v : Partner) : (s.setPart n v).part n = v := by simp [State.setPart, State.part]
@[simp] theorem part_setPart_ne (s : State) (m n : Nat) (v : Partner) (h : m ≠ n) : (s.setPart n v).part m = s.part m := by simp [State.setPart, State.part, h]
@[simp] theorem setPart_tb (s : State) (n : Nat) (v : Partner) : (s.setPart n v).tb = s.tb := rfl
@[simp] theorem setPart_qs (s : State) (n : Nat) (v : Partner) : (s.setPart n v).qs = s.qs := rfl
@[simp] theorem setPart_shadows (s : State) (n : Nat) (v : Partner) : (s.setPart n v).shadows = s.shadows := rfl
@[simp] theorem setPart_calFrz (s : State) (n : Nat) (v : Partner) : (s.setPart n v).calFrz = s.calFrz := rfl
@[simp] theorem setPart_outs (s : State) (n : Nat) (v : Partner) : (s.setPart n v).outs = s.outs := rfl
@[simp] theorem setPart_clk (s : State) (n : Nat) (v : Partner) : (s.setPart n v).clk = s.clk := rfl
@[simp] theorem setPart_sch (s : State) (n : Nat) (v : Partner) : (s.setPart n v).sch = s.sch := rfl
@[simp] theorem setPart_jrn (s : State) (n : Nat) (v : Partner) : (s.setPart n v).jrn = s.jrn := rfl
@[simp] theorem setPart_fc (s : State) (n : Nat) (v : Partner) : (s.setPart n v).fc = s.fc := rfl
@[simp] theorem setPart_raised (s : State) (n : Nat) (v : Partner) : (s.setPart n v).raised = s.raised := rfl
@[simp] theorem setPart_host (s : State) (n : Nat) (v : Partner) : (s.setPart n v).host = s.host := rfl
@[simp] theorem setPart_stage (s : State) (n : Nat) (v : Partner) : (s.setPart n v).stage = s.stage := rfl
@[simp] theorem setPart_lbal (s : State) (n : Nat) (v : Partner) : (s.setPart n v).lbal = s.lbal := rfl
@[simp] theorem setPart_rtc (s : State) (n : Nat) (v : Partner) : (s.setPart n v).rtc = s.rtc := rfl
@[simp] theorem setPart_pwr (s : State) (n : Nat) (v : Partner) : (s.setPart n v).pwr = s.pwr := rfl
@[simp] theorem setPart_rf (s : State) (n : Nat) (v : Partner) : (s.setPart n v).rf = s.rf := rfl
@[simp] theorem setPart_gale (s : State) (n : Nat) (v : Partner) : (s.setPart n v).gale = s.gale := rfl
@[simp] theorem setPart_kite (s : State) (n : Nat) (v : Partner) : (s.setPart n v).kite = s.kite := rfl
@[simp] theorem setPart_meas (s : State) (n : Nat) (v : Partner) : (s.setPart n v).meas = s.meas := rfl
@[simp] theorem setPart_modes (s : State) (n : Nat) (v : Partner) : (s.setPart n v).modes = s.modes := rfl
@[simp] theorem setPart_mem (s : State) (n : Nat) (v : Partner) : (s.setPart n v).mem = s.mem := rfl
@[simp] theorem setPart_links (s : State) (n : Nat) (v : Partner) : (s.setPart n v).links = s.links := rfl
@[simp] theorem setPart_ports (s : State) (n : Nat) (v : Partner) : (s.setPart n v).ports = s.ports := rfl
@[simp] theorem setPart_dsp (s : State) (n : Nat) (v : Partner) : (s.setPart n v).dsp = s.dsp := rfl
@[simp] theorem setPart_wire (s : State) (n : Nat) (v : Partner) : (s.setPart n v).wire = s.wire := rfl
@[simp] theorem setPart_fresh (s : State) (n : Nat) (v : Partner) : (s.setPart n v).fresh = s.fresh := rfl
@[simp] theorem setPart_pending (s : State) (n : Nat) (v : Partner) : (s.setPart n v).pending = s.pending := rfl
@[simp] theorem qty_setQty (s : State) (n : Nat) (v : Qty) : (s.setQty n v).qty n = v := by simp [State.setQty, State.qty]
@[simp] theorem qty_setQty_ne (s : State) (m n : Nat) (v : Qty) (h : m ≠ n) : (s.setQty n v).qty m = s.qty m := by simp [State.setQty, State.qty, h]
@[simp] theorem setQty_tb (s : State) (n : Nat) (v : Qty) : (s.setQty n v).tb = s.tb := rfl
@[simp] theorem setQty_shadows (s : State) (n : Nat) (v : Qty) : (s.setQty n v).shadows = s.shadows := rfl
@[simp] theorem setQty_calFrz (s : State) (n : Nat) (v : Qty) : (s.setQty n v).calFrz = s.calFrz := rfl
@[simp] theorem setQty_outs (s : State) (n : Nat) (v : Qty) : (s.setQty n v).outs = s.outs := rfl
@[simp] theorem setQty_clk (s : State) (n : Nat) (v : Qty) : (s.setQty n v).clk = s.clk := rfl
@[simp] theorem setQty_sch (s : State) (n : Nat) (v : Qty) : (s.setQty n v).sch = s.sch := rfl
@[simp] theorem setQty_parts (s : State) (n : Nat) (v : Qty) : (s.setQty n v).parts = s.parts := rfl
@[simp] theorem setQty_jrn (s : State) (n : Nat) (v : Qty) : (s.setQty n v).jrn = s.jrn := rfl
@[simp] theorem setQty_fc (s : State) (n : Nat) (v : Qty) : (s.setQty n v).fc = s.fc := rfl
@[simp] theorem setQty_raised (s : State) (n : Nat) (v : Qty) : (s.setQty n v).raised = s.raised := rfl
@[simp] theorem setQty_host (s : State) (n : Nat) (v : Qty) : (s.setQty n v).host = s.host := rfl
@[simp] theorem setQty_stage (s : State) (n : Nat) (v : Qty) : (s.setQty n v).stage = s.stage := rfl
@[simp] theorem setQty_lbal (s : State) (n : Nat) (v : Qty) : (s.setQty n v).lbal = s.lbal := rfl
@[simp] theorem setQty_rtc (s : State) (n : Nat) (v : Qty) : (s.setQty n v).rtc = s.rtc := rfl
@[simp] theorem setQty_pwr (s : State) (n : Nat) (v : Qty) : (s.setQty n v).pwr = s.pwr := rfl
@[simp] theorem setQty_rf (s : State) (n : Nat) (v : Qty) : (s.setQty n v).rf = s.rf := rfl
@[simp] theorem setQty_gale (s : State) (n : Nat) (v : Qty) : (s.setQty n v).gale = s.gale := rfl
@[simp] theorem setQty_kite (s : State) (n : Nat) (v : Qty) : (s.setQty n v).kite = s.kite := rfl
@[simp] theorem setQty_meas (s : State) (n : Nat) (v : Qty) : (s.setQty n v).meas = s.meas := rfl
@[simp] theorem setQty_modes (s : State) (n : Nat) (v : Qty) : (s.setQty n v).modes = s.modes := rfl
@[simp] theorem setQty_mem (s : State) (n : Nat) (v : Qty) : (s.setQty n v).mem = s.mem := rfl
@[simp] theorem setQty_links (s : State) (n : Nat) (v : Qty) : (s.setQty n v).links = s.links := rfl
@[simp] theorem setQty_ports (s : State) (n : Nat) (v : Qty) : (s.setQty n v).ports = s.ports := rfl
@[simp] theorem setQty_dsp (s : State) (n : Nat) (v : Qty) : (s.setQty n v).dsp = s.dsp := rfl
@[simp] theorem setQty_wire (s : State) (n : Nat) (v : Qty) : (s.setQty n v).wire = s.wire := rfl
@[simp] theorem setQty_fresh (s : State) (n : Nat) (v : Qty) : (s.setQty n v).fresh = s.fresh := rfl
@[simp] theorem setQty_pending (s : State) (n : Nat) (v : Qty) : (s.setQty n v).pending = s.pending := rfl
@[simp] theorem out_setOut (s : State) (n : Nat) (v : Output) : (s.setOut n v).out n = v := by simp [State.setOut, State.out]
@[simp] theorem out_setOut_ne (s : State) (m n : Nat) (v : Output) (h : m ≠ n) : (s.setOut n v).out m = s.out m := by simp [State.setOut, State.out, h]
@[simp] theorem setOut_tb (s : State) (n : Nat) (v : Output) : (s.setOut n v).tb = s.tb := rfl
@[simp] theorem setOut_qs (s : State) (n : Nat) (v : Output) : (s.setOut n v).qs = s.qs := rfl
@[simp] theorem setOut_shadows (s : State) (n : Nat) (v : Output) : (s.setOut n v).shadows = s.shadows := rfl
@[simp] theorem setOut_calFrz (s : State) (n : Nat) (v : Output) : (s.setOut n v).calFrz = s.calFrz := rfl
@[simp] theorem setOut_clk (s : State) (n : Nat) (v : Output) : (s.setOut n v).clk = s.clk := rfl
@[simp] theorem setOut_sch (s : State) (n : Nat) (v : Output) : (s.setOut n v).sch = s.sch := rfl
@[simp] theorem setOut_parts (s : State) (n : Nat) (v : Output) : (s.setOut n v).parts = s.parts := rfl
@[simp] theorem setOut_jrn (s : State) (n : Nat) (v : Output) : (s.setOut n v).jrn = s.jrn := rfl
@[simp] theorem setOut_fc (s : State) (n : Nat) (v : Output) : (s.setOut n v).fc = s.fc := rfl
@[simp] theorem setOut_raised (s : State) (n : Nat) (v : Output) : (s.setOut n v).raised = s.raised := rfl
@[simp] theorem setOut_host (s : State) (n : Nat) (v : Output) : (s.setOut n v).host = s.host := rfl
@[simp] theorem setOut_stage (s : State) (n : Nat) (v : Output) : (s.setOut n v).stage = s.stage := rfl
@[simp] theorem setOut_lbal (s : State) (n : Nat) (v : Output) : (s.setOut n v).lbal = s.lbal := rfl
@[simp] theorem setOut_rtc (s : State) (n : Nat) (v : Output) : (s.setOut n v).rtc = s.rtc := rfl
@[simp] theorem setOut_pwr (s : State) (n : Nat) (v : Output) : (s.setOut n v).pwr = s.pwr := rfl
@[simp] theorem setOut_rf (s : State) (n : Nat) (v : Output) : (s.setOut n v).rf = s.rf := rfl
@[simp] theorem setOut_gale (s : State) (n : Nat) (v : Output) : (s.setOut n v).gale = s.gale := rfl
@[simp] theorem setOut_kite (s : State) (n : Nat) (v : Output) : (s.setOut n v).kite = s.kite := rfl
@[simp] theorem setOut_meas (s : State) (n : Nat) (v : Output) : (s.setOut n v).meas = s.meas := rfl
@[simp] theorem setOut_modes (s : State) (n : Nat) (v : Output) : (s.setOut n v).modes = s.modes := rfl
@[simp] theorem setOut_mem (s : State) (n : Nat) (v : Output) : (s.setOut n v).mem = s.mem := rfl
@[simp] theorem setOut_links (s : State) (n : Nat) (v : Output) : (s.setOut n v).links = s.links := rfl
@[simp] theorem setOut_ports (s : State) (n : Nat) (v : Output) : (s.setOut n v).ports = s.ports := rfl
@[simp] theorem setOut_dsp (s : State) (n : Nat) (v : Output) : (s.setOut n v).dsp = s.dsp := rfl
@[simp] theorem setOut_wire (s : State) (n : Nat) (v : Output) : (s.setOut n v).wire = s.wire := rfl
@[simp] theorem setOut_fresh (s : State) (n : Nat) (v : Output) : (s.setOut n v).fresh = s.fresh := rfl
@[simp] theorem setOut_pending (s : State) (n : Nat) (v : Output) : (s.setOut n v).pending = s.pending := rfl
@[simp] theorem lb_setLb (s : State) (n : Nat) (v : LinkBal) : (s.setLb n v).lb n = v := by simp [State.setLb, State.lb]
@[simp] theorem lb_setLb_ne (s : State) (m n : Nat) (v : LinkBal) (h : m ≠ n) : (s.setLb n v).lb m = s.lb m := by simp [State.setLb, State.lb, h]
@[simp] theorem setLb_tb (s : State) (n : Nat) (v : LinkBal) : (s.setLb n v).tb = s.tb := rfl
@[simp] theorem setLb_qs (s : State) (n : Nat) (v : LinkBal) : (s.setLb n v).qs = s.qs := rfl
@[simp] theorem setLb_shadows (s : State) (n : Nat) (v : LinkBal) : (s.setLb n v).shadows = s.shadows := rfl
@[simp] theorem setLb_calFrz (s : State) (n : Nat) (v : LinkBal) : (s.setLb n v).calFrz = s.calFrz := rfl
@[simp] theorem setLb_outs (s : State) (n : Nat) (v : LinkBal) : (s.setLb n v).outs = s.outs := rfl
@[simp] theorem setLb_clk (s : State) (n : Nat) (v : LinkBal) : (s.setLb n v).clk = s.clk := rfl
@[simp] theorem setLb_sch (s : State) (n : Nat) (v : LinkBal) : (s.setLb n v).sch = s.sch := rfl
@[simp] theorem setLb_parts (s : State) (n : Nat) (v : LinkBal) : (s.setLb n v).parts = s.parts := rfl
@[simp] theorem setLb_jrn (s : State) (n : Nat) (v : LinkBal) : (s.setLb n v).jrn = s.jrn := rfl
@[simp] theorem setLb_fc (s : State) (n : Nat) (v : LinkBal) : (s.setLb n v).fc = s.fc := rfl
@[simp] theorem setLb_raised (s : State) (n : Nat) (v : LinkBal) : (s.setLb n v).raised = s.raised := rfl
@[simp] theorem setLb_host (s : State) (n : Nat) (v : LinkBal) : (s.setLb n v).host = s.host := rfl
@[simp] theorem setLb_stage (s : State) (n : Nat) (v : LinkBal) : (s.setLb n v).stage = s.stage := rfl
@[simp] theorem setLb_rtc (s : State) (n : Nat) (v : LinkBal) : (s.setLb n v).rtc = s.rtc := rfl
@[simp] theorem setLb_pwr (s : State) (n : Nat) (v : LinkBal) : (s.setLb n v).pwr = s.pwr := rfl
@[simp] theorem setLb_rf (s : State) (n : Nat) (v : LinkBal) : (s.setLb n v).rf = s.rf := rfl
@[simp] theorem setLb_gale (s : State) (n : Nat) (v : LinkBal) : (s.setLb n v).gale = s.gale := rfl
@[simp] theorem setLb_kite (s : State) (n : Nat) (v : LinkBal) : (s.setLb n v).kite = s.kite := rfl
@[simp] theorem setLb_meas (s : State) (n : Nat) (v : LinkBal) : (s.setLb n v).meas = s.meas := rfl
@[simp] theorem setLb_modes (s : State) (n : Nat) (v : LinkBal) : (s.setLb n v).modes = s.modes := rfl
@[simp] theorem setLb_mem (s : State) (n : Nat) (v : LinkBal) : (s.setLb n v).mem = s.mem := rfl
@[simp] theorem setLb_links (s : State) (n : Nat) (v : LinkBal) : (s.setLb n v).links = s.links := rfl
@[simp] theorem setLb_ports (s : State) (n : Nat) (v : LinkBal) : (s.setLb n v).ports = s.ports := rfl
@[simp] theorem setLb_dsp (s : State) (n : Nat) (v : LinkBal) : (s.setLb n v).dsp = s.dsp := rfl
@[simp] theorem setLb_wire (s : State) (n : Nat) (v : LinkBal) : (s.setLb n v).wire = s.wire := rfl
@[simp] theorem setLb_fresh (s : State) (n : Nat) (v : LinkBal) : (s.setLb n v).fresh = s.fresh := rfl
@[simp] theorem setLb_pending (s : State) (n : Nat) (v : LinkBal) : (s.setLb n v).pending = s.pending := rfl
@[simp] theorem lnk_setLnk (s : State) (n : Nat) (v : Link) : (s.setLnk n v).lnk n = v := by simp [State.setLnk, State.lnk]
@[simp] theorem lnk_setLnk_ne (s : State) (m n : Nat) (v : Link) (h : m ≠ n) : (s.setLnk n v).lnk m = s.lnk m := by simp [State.setLnk, State.lnk, h]
@[simp] theorem setLnk_tb (s : State) (n : Nat) (v : Link) : (s.setLnk n v).tb = s.tb := rfl
@[simp] theorem setLnk_qs (s : State) (n : Nat) (v : Link) : (s.setLnk n v).qs = s.qs := rfl
@[simp] theorem setLnk_shadows (s : State) (n : Nat) (v : Link) : (s.setLnk n v).shadows = s.shadows := rfl
@[simp] theorem setLnk_calFrz (s : State) (n : Nat) (v : Link) : (s.setLnk n v).calFrz = s.calFrz := rfl
@[simp] theorem setLnk_outs (s : State) (n : Nat) (v : Link) : (s.setLnk n v).outs = s.outs := rfl
@[simp] theorem setLnk_clk (s : State) (n : Nat) (v : Link) : (s.setLnk n v).clk = s.clk := rfl
@[simp] theorem setLnk_sch (s : State) (n : Nat) (v : Link) : (s.setLnk n v).sch = s.sch := rfl
@[simp] theorem setLnk_parts (s : State) (n : Nat) (v : Link) : (s.setLnk n v).parts = s.parts := rfl
@[simp] theorem setLnk_jrn (s : State) (n : Nat) (v : Link) : (s.setLnk n v).jrn = s.jrn := rfl
@[simp] theorem setLnk_fc (s : State) (n : Nat) (v : Link) : (s.setLnk n v).fc = s.fc := rfl
@[simp] theorem setLnk_raised (s : State) (n : Nat) (v : Link) : (s.setLnk n v).raised = s.raised := rfl
@[simp] theorem setLnk_host (s : State) (n : Nat) (v : Link) : (s.setLnk n v).host = s.host := rfl
@[simp] theorem setLnk_stage (s : State) (n : Nat) (v : Link) : (s.setLnk n v).stage = s.stage := rfl
@[simp] theorem setLnk_lbal (s : State) (n : Nat) (v : Link) : (s.setLnk n v).lbal = s.lbal := rfl
@[simp] theorem setLnk_rtc (s : State) (n : Nat) (v : Link) : (s.setLnk n v).rtc = s.rtc := rfl
@[simp] theorem setLnk_pwr (s : State) (n : Nat) (v : Link) : (s.setLnk n v).pwr = s.pwr := rfl
@[simp] theorem setLnk_rf (s : State) (n : Nat) (v : Link) : (s.setLnk n v).rf = s.rf := rfl
@[simp] theorem setLnk_gale (s : State) (n : Nat) (v : Link) : (s.setLnk n v).gale = s.gale := rfl
@[simp] theorem setLnk_kite (s : State) (n : Nat) (v : Link) : (s.setLnk n v).kite = s.kite := rfl
@[simp] theorem setLnk_meas (s : State) (n : Nat) (v : Link) : (s.setLnk n v).meas = s.meas := rfl
@[simp] theorem setLnk_modes (s : State) (n : Nat) (v : Link) : (s.setLnk n v).modes = s.modes := rfl
@[simp] theorem setLnk_mem (s : State) (n : Nat) (v : Link) : (s.setLnk n v).mem = s.mem := rfl
@[simp] theorem setLnk_ports (s : State) (n : Nat) (v : Link) : (s.setLnk n v).ports = s.ports := rfl
@[simp] theorem setLnk_dsp (s : State) (n : Nat) (v : Link) : (s.setLnk n v).dsp = s.dsp := rfl
@[simp] theorem setLnk_wire (s : State) (n : Nat) (v : Link) : (s.setLnk n v).wire = s.wire := rfl
@[simp] theorem setLnk_fresh (s : State) (n : Nat) (v : Link) : (s.setLnk n v).fresh = s.fresh := rfl
@[simp] theorem setLnk_pending (s : State) (n : Nat) (v : Link) : (s.setLnk n v).pending = s.pending := rfl
@[simp] theorem smp_setSmp (s : State) (n : Nat) (v : SmpPort) : (s.setSmp n v).smp n = v := by simp [State.setSmp, State.smp]
@[simp] theorem smp_setSmp_ne (s : State) (m n : Nat) (v : SmpPort) (h : m ≠ n) : (s.setSmp n v).smp m = s.smp m := by simp [State.setSmp, State.smp, h]
@[simp] theorem setSmp_tb (s : State) (n : Nat) (v : SmpPort) : (s.setSmp n v).tb = s.tb := rfl
@[simp] theorem setSmp_qs (s : State) (n : Nat) (v : SmpPort) : (s.setSmp n v).qs = s.qs := rfl
@[simp] theorem setSmp_shadows (s : State) (n : Nat) (v : SmpPort) : (s.setSmp n v).shadows = s.shadows := rfl
@[simp] theorem setSmp_calFrz (s : State) (n : Nat) (v : SmpPort) : (s.setSmp n v).calFrz = s.calFrz := rfl
@[simp] theorem setSmp_outs (s : State) (n : Nat) (v : SmpPort) : (s.setSmp n v).outs = s.outs := rfl
@[simp] theorem setSmp_clk (s : State) (n : Nat) (v : SmpPort) : (s.setSmp n v).clk = s.clk := rfl
@[simp] theorem setSmp_sch (s : State) (n : Nat) (v : SmpPort) : (s.setSmp n v).sch = s.sch := rfl
@[simp] theorem setSmp_parts (s : State) (n : Nat) (v : SmpPort) : (s.setSmp n v).parts = s.parts := rfl
@[simp] theorem setSmp_jrn (s : State) (n : Nat) (v : SmpPort) : (s.setSmp n v).jrn = s.jrn := rfl
@[simp] theorem setSmp_fc (s : State) (n : Nat) (v : SmpPort) : (s.setSmp n v).fc = s.fc := rfl
@[simp] theorem setSmp_raised (s : State) (n : Nat) (v : SmpPort) : (s.setSmp n v).raised = s.raised := rfl
@[simp] theorem setSmp_host (s : State) (n : Nat) (v : SmpPort) : (s.setSmp n v).host = s.host := rfl
@[simp] theorem setSmp_stage (s : State) (n : Nat) (v : SmpPort) : (s.setSmp n v).stage = s.stage := rfl
@[simp] theorem setSmp_lbal (s : State) (n : Nat) (v : SmpPort) : (s.setSmp n v).lbal = s.lbal := rfl
@[simp] theorem setSmp_rtc (s : State) (n : Nat) (v : SmpPort) : (s.setSmp n v).rtc = s.rtc := rfl
@[simp] theorem setSmp_pwr (s : State) (n : Nat) (v : SmpPort) : (s.setSmp n v).pwr = s.pwr := rfl
@[simp] theorem setSmp_rf (s : State) (n : Nat) (v : SmpPort) : (s.setSmp n v).rf = s.rf := rfl
@[simp] theorem setSmp_gale (s : State) (n : Nat) (v : SmpPort) : (s.setSmp n v).gale = s.gale := rfl
@[simp] theorem setSmp_kite (s : State) (n : Nat) (v : SmpPort) : (s.setSmp n v).kite = s.kite := rfl
@[simp] theorem setSmp_meas (s : State) (n : Nat) (v : SmpPort) : (s.setSmp n v).meas = s.meas := rfl
@[simp] theorem setSmp_modes (s : State) (n : Nat) (v : SmpPort) : (s.setSmp n v).modes = s.modes := rfl
@[simp] theorem setSmp_mem (s : State) (n : Nat) (v : SmpPort) : (s.setSmp n v).mem = s.mem := rfl
@[simp] theorem setSmp_links (s : State) (n : Nat) (v : SmpPort) : (s.setSmp n v).links = s.links := rfl
@[simp] theorem setSmp_dsp (s : State) (n : Nat) (v : SmpPort) : (s.setSmp n v).dsp = s.dsp := rfl
@[simp] theorem setSmp_wire (s : State) (n : Nat) (v : SmpPort) : (s.setSmp n v).wire = s.wire := rfl
@[simp] theorem setSmp_fresh (s : State) (n : Nat) (v : SmpPort) : (s.setSmp n v).fresh = s.fresh := rfl
@[simp] theorem setSmp_pending (s : State) (n : Nat) (v : SmpPort) : (s.setSmp n v).pending = s.pending := rfl
@[simp] theorem part_putTb (s : State) (m : Nat) (v : TimeBase) : (s.putTb v).part m = s.part m := rfl
@[simp] theorem part_putQs (s : State) (m : Nat) (v : Tab Qty) : (s.putQs v).part m = s.part m := rfl
@[simp] theorem part_putShadows (s : State) (m : Nat) (v : Tab Shadow) : (s.putShadows v).part m = s.part m := rfl
@[simp] theorem part_putCalFrz (s : State) (m : Nat) (v : Tab (Option (Word × Word × Word))) : (s.putCalFrz v).part m = s.part m := rfl
@[simp] theorem part_putOuts (s : State) (m : Nat) (v : Tab Output) : (s.putOuts v).part m = s.part m := rfl
@[simp] theorem part_putClk (s : State) (m : Nat) (v : Clock) : (s.putClk v).part m = s.part m := rfl
@[simp] theorem part_putSch (s : State) (m : Nat) (v : Sched) : (s.putSch v).part m = s.part m := rfl
@[simp] theorem part_putJrn (s : State) (m : Nat) (v : Journal) : (s.putJrn v).part m = s.part m := rfl
@[simp] theorem part_putFc (s : State) (m : Nat) (v : Parts) : (s.putFc v).part m = s.part m := rfl
@[simp] theorem part_putRaised (s : State) (m : Nat) (v : Tab (Option Nat)) : (s.putRaised v).part m = s.part m := rfl
@[simp] theorem part_putHost (s : State) (m : Nat) (v : HostBlk) : (s.putHost v).part m = s.part m := rfl
@[simp] theorem part_putStage (s : State) (m : Nat) (v : List StageCopy) : (s.putStage v).part m = s.part m := rfl
@[simp] theorem part_putLbal (s : State) (m : Nat) (v : Tab LinkBal) : (s.putLbal v).part m = s.part m := rfl
@[simp] theorem part_putRtc (s : State) (m : Nat) (v : Rtc) : (s.putRtc v).part m = s.part m := rfl
@[simp] theorem part_putPwr (s : State) (m : Nat) (v : Power) : (s.putPwr v).part m = s.part m := rfl
@[simp] theorem part_putRf (s : State) (m : Nat) (v : Rf) : (s.putRf v).part m = s.part m := rfl
@[simp] theorem part_putGale (s : State) (m : Nat) (v : Gale) : (s.putGale v).part m = s.part m := rfl
@[simp] theorem part_putKite (s : State) (m : Nat) (v : Kite) : (s.putKite v).part m = s.part m := rfl
@[simp] theorem part_putMeas (s : State) (m : Nat) (v : Meas) : (s.putMeas v).part m = s.part m := rfl
@[simp] theorem part_putModes (s : State) (m : Nat) (v : ModeBlk) : (s.putModes v).part m = s.part m := rfl
@[simp] theorem part_putMem (s : State) (m : Nat) (v : Memory) : (s.putMem v).part m = s.part m := rfl
@[simp] theorem part_putLinks (s : State) (m : Nat) (v : Tab Link) : (s.putLinks v).part m = s.part m := rfl
@[simp] theorem part_putPorts (s : State) (m : Nat) (v : Tab SmpPort) : (s.putPorts v).part m = s.part m := rfl
@[simp] theorem part_putDsp (s : State) (m : Nat) (v : Dsp) : (s.putDsp v).part m = s.part m := rfl
@[simp] theorem part_putWire (s : State) (m : Nat) (v : List Emit) : (s.putWire v).part m = s.part m := rfl
@[simp] theorem part_putFresh (s : State) (m : Nat) (v : Nat) : (s.putFresh v).part m = s.part m := rfl
@[simp] theorem qty_setPart (s : State) (m n : Nat) (v : Partner) : (s.setPart n v).qty m = s.qty m := rfl
@[simp] theorem out_setPart (s : State) (m n : Nat) (v : Partner) : (s.setPart n v).out m = s.out m := rfl
@[simp] theorem lb_setPart (s : State) (m n : Nat) (v : Partner) : (s.setPart n v).lb m = s.lb m := rfl
@[simp] theorem lnk_setPart (s : State) (m n : Nat) (v : Partner) : (s.setPart n v).lnk m = s.lnk m := rfl
@[simp] theorem smp_setPart (s : State) (m n : Nat) (v : Partner) : (s.setPart n v).smp m = s.smp m := rfl
@[simp] theorem qty_putTb (s : State) (m : Nat) (v : TimeBase) : (s.putTb v).qty m = s.qty m := rfl
@[simp] theorem qty_putShadows (s : State) (m : Nat) (v : Tab Shadow) : (s.putShadows v).qty m = s.qty m := rfl
@[simp] theorem qty_putCalFrz (s : State) (m : Nat) (v : Tab (Option (Word × Word × Word))) : (s.putCalFrz v).qty m = s.qty m := rfl
@[simp] theorem qty_putOuts (s : State) (m : Nat) (v : Tab Output) : (s.putOuts v).qty m = s.qty m := rfl
@[simp] theorem qty_putClk (s : State) (m : Nat) (v : Clock) : (s.putClk v).qty m = s.qty m := rfl
@[simp] theorem qty_putSch (s : State) (m : Nat) (v : Sched) : (s.putSch v).qty m = s.qty m := rfl
@[simp] theorem qty_putParts (s : State) (m : Nat) (v : Tab Partner) : (s.putParts v).qty m = s.qty m := rfl
@[simp] theorem qty_putJrn (s : State) (m : Nat) (v : Journal) : (s.putJrn v).qty m = s.qty m := rfl
@[simp] theorem qty_putFc (s : State) (m : Nat) (v : Parts) : (s.putFc v).qty m = s.qty m := rfl
@[simp] theorem qty_putRaised (s : State) (m : Nat) (v : Tab (Option Nat)) : (s.putRaised v).qty m = s.qty m := rfl
@[simp] theorem qty_putHost (s : State) (m : Nat) (v : HostBlk) : (s.putHost v).qty m = s.qty m := rfl
@[simp] theorem qty_putStage (s : State) (m : Nat) (v : List StageCopy) : (s.putStage v).qty m = s.qty m := rfl
@[simp] theorem qty_putLbal (s : State) (m : Nat) (v : Tab LinkBal) : (s.putLbal v).qty m = s.qty m := rfl
@[simp] theorem qty_putRtc (s : State) (m : Nat) (v : Rtc) : (s.putRtc v).qty m = s.qty m := rfl
@[simp] theorem qty_putPwr (s : State) (m : Nat) (v : Power) : (s.putPwr v).qty m = s.qty m := rfl
@[simp] theorem qty_putRf (s : State) (m : Nat) (v : Rf) : (s.putRf v).qty m = s.qty m := rfl
@[simp] theorem qty_putGale (s : State) (m : Nat) (v : Gale) : (s.putGale v).qty m = s.qty m := rfl
@[simp] theorem qty_putKite (s : State) (m : Nat) (v : Kite) : (s.putKite v).qty m = s.qty m := rfl
@[simp] theorem qty_putMeas (s : State) (m : Nat) (v : Meas) : (s.putMeas v).qty m = s.qty m := rfl
@[simp] theorem qty_putModes (s : State) (m : Nat) (v : ModeBlk) : (s.putModes v).qty m = s.qty m := rfl
@[simp] theorem qty_putMem (s : State) (m : Nat) (v : Memory) : (s.putMem v).qty m = s.qty m := rfl
@[simp] theorem qty_putLinks (s : State) (m : Nat) (v : Tab Link) : (s.putLinks v).qty m = s.qty m := rfl
@[simp] theorem qty_putPorts (s : State) (m : Nat) (v : Tab SmpPort) : (s.putPorts v).qty m = s.qty m := rfl
@[simp] theorem qty_putDsp (s : State) (m : Nat) (v : Dsp) : (s.putDsp v).qty m = s.qty m := rfl
@[simp] theorem qty_putWire (s : State) (m : Nat) (v : List Emit) : (s.putWire v).qty m = s.qty m := rfl
@[simp] theorem qty_putFresh (s : State) (m : Nat) (v : Nat) : (s.putFresh v).qty m = s.qty m := rfl
@[simp] theorem part_setQty (s : State) (m n : Nat) (v : Qty) : (s.setQty n v).part m = s.part m := rfl
@[simp] theorem out_setQty (s : State) (m n : Nat) (v : Qty) : (s.setQty n v).out m = s.out m := rfl
@[simp] theorem lb_setQty (s : State) (m n : Nat) (v : Qty) : (s.setQty n v).lb m = s.lb m := rfl
@[simp] theorem lnk_setQty (s : State) (m n : Nat) (v : Qty) : (s.setQty n v).lnk m = s.lnk m := rfl
@[simp] theorem smp_setQty (s : State) (m n : Nat) (v : Qty) : (s.setQty n v).smp m = s.smp m := rfl
@[simp] theorem out_putTb (s : State) (m : Nat) (v : TimeBase) : (s.putTb v).out m = s.out m := rfl
@[simp] theorem out_putQs (s : State) (m : Nat) (v : Tab Qty) : (s.putQs v).out m = s.out m := rfl
@[simp] theorem out_putShadows (s : State) (m : Nat) (v : Tab Shadow) : (s.putShadows v).out m = s.out m := rfl
@[simp] theorem out_putCalFrz (s : State) (m : Nat) (v : Tab (Option (Word × Word × Word))) : (s.putCalFrz v).out m = s.out m := rfl
@[simp] theorem out_putClk (s : State) (m : Nat) (v : Clock) : (s.putClk v).out m = s.out m := rfl
@[simp] theorem out_putSch (s : State) (m : Nat) (v : Sched) : (s.putSch v).out m = s.out m := rfl
@[simp] theorem out_putParts (s : State) (m : Nat) (v : Tab Partner) : (s.putParts v).out m = s.out m := rfl
@[simp] theorem out_putJrn (s : State) (m : Nat) (v : Journal) : (s.putJrn v).out m = s.out m := rfl
@[simp] theorem out_putFc (s : State) (m : Nat) (v : Parts) : (s.putFc v).out m = s.out m := rfl
@[simp] theorem out_putRaised (s : State) (m : Nat) (v : Tab (Option Nat)) : (s.putRaised v).out m = s.out m := rfl
@[simp] theorem out_putHost (s : State) (m : Nat) (v : HostBlk) : (s.putHost v).out m = s.out m := rfl
@[simp] theorem out_putStage (s : State) (m : Nat) (v : List StageCopy) : (s.putStage v).out m = s.out m := rfl
@[simp] theorem out_putLbal (s : State) (m : Nat) (v : Tab LinkBal) : (s.putLbal v).out m = s.out m := rfl
@[simp] theorem out_putRtc (s : State) (m : Nat) (v : Rtc) : (s.putRtc v).out m = s.out m := rfl
@[simp] theorem out_putPwr (s : State) (m : Nat) (v : Power) : (s.putPwr v).out m = s.out m := rfl
@[simp] theorem out_putRf (s : State) (m : Nat) (v : Rf) : (s.putRf v).out m = s.out m := rfl
@[simp] theorem out_putGale (s : State) (m : Nat) (v : Gale) : (s.putGale v).out m = s.out m := rfl
@[simp] theorem out_putKite (s : State) (m : Nat) (v : Kite) : (s.putKite v).out m = s.out m := rfl
@[simp] theorem out_putMeas (s : State) (m : Nat) (v : Meas) : (s.putMeas v).out m = s.out m := rfl
@[simp] theorem out_putModes (s : State) (m : Nat) (v : ModeBlk) : (s.putModes v).out m = s.out m := rfl
@[simp] theorem out_putMem (s : State) (m : Nat) (v : Memory) : (s.putMem v).out m = s.out m := rfl
@[simp] theorem out_putLinks (s : State) (m : Nat) (v : Tab Link) : (s.putLinks v).out m = s.out m := rfl
@[simp] theorem out_putPorts (s : State) (m : Nat) (v : Tab SmpPort) : (s.putPorts v).out m = s.out m := rfl
@[simp] theorem out_putDsp (s : State) (m : Nat) (v : Dsp) : (s.putDsp v).out m = s.out m := rfl
@[simp] theorem out_putWire (s : State) (m : Nat) (v : List Emit) : (s.putWire v).out m = s.out m := rfl
@[simp] theorem out_putFresh (s : State) (m : Nat) (v : Nat) : (s.putFresh v).out m = s.out m := rfl
@[simp] theorem part_setOut (s : State) (m n : Nat) (v : Output) : (s.setOut n v).part m = s.part m := rfl
@[simp] theorem qty_setOut (s : State) (m n : Nat) (v : Output) : (s.setOut n v).qty m = s.qty m := rfl
@[simp] theorem lb_setOut (s : State) (m n : Nat) (v : Output) : (s.setOut n v).lb m = s.lb m := rfl
@[simp] theorem lnk_setOut (s : State) (m n : Nat) (v : Output) : (s.setOut n v).lnk m = s.lnk m := rfl
@[simp] theorem smp_setOut (s : State) (m n : Nat) (v : Output) : (s.setOut n v).smp m = s.smp m := rfl
@[simp] theorem lb_putTb (s : State) (m : Nat) (v : TimeBase) : (s.putTb v).lb m = s.lb m := rfl
@[simp] theorem lb_putQs (s : State) (m : Nat) (v : Tab Qty) : (s.putQs v).lb m = s.lb m := rfl
@[simp] theorem lb_putShadows (s : State) (m : Nat) (v : Tab Shadow) : (s.putShadows v).lb m = s.lb m := rfl
@[simp] theorem lb_putCalFrz (s : State) (m : Nat) (v : Tab (Option (Word × Word × Word))) : (s.putCalFrz v).lb m = s.lb m := rfl
@[simp] theorem lb_putOuts (s : State) (m : Nat) (v : Tab Output) : (s.putOuts v).lb m = s.lb m := rfl
@[simp] theorem lb_putClk (s : State) (m : Nat) (v : Clock) : (s.putClk v).lb m = s.lb m := rfl
@[simp] theorem lb_putSch (s : State) (m : Nat) (v : Sched) : (s.putSch v).lb m = s.lb m := rfl
@[simp] theorem lb_putParts (s : State) (m : Nat) (v : Tab Partner) : (s.putParts v).lb m = s.lb m := rfl
@[simp] theorem lb_putJrn (s : State) (m : Nat) (v : Journal) : (s.putJrn v).lb m = s.lb m := rfl
@[simp] theorem lb_putFc (s : State) (m : Nat) (v : Parts) : (s.putFc v).lb m = s.lb m := rfl
@[simp] theorem lb_putRaised (s : State) (m : Nat) (v : Tab (Option Nat)) : (s.putRaised v).lb m = s.lb m := rfl
@[simp] theorem lb_putHost (s : State) (m : Nat) (v : HostBlk) : (s.putHost v).lb m = s.lb m := rfl
@[simp] theorem lb_putStage (s : State) (m : Nat) (v : List StageCopy) : (s.putStage v).lb m = s.lb m := rfl
@[simp] theorem lb_putRtc (s : State) (m : Nat) (v : Rtc) : (s.putRtc v).lb m = s.lb m := rfl
@[simp] theorem lb_putPwr (s : State) (m : Nat) (v : Power) : (s.putPwr v).lb m = s.lb m := rfl
@[simp] theorem lb_putRf (s : State) (m : Nat) (v : Rf) : (s.putRf v).lb m = s.lb m := rfl
@[simp] theorem lb_putGale (s : State) (m : Nat) (v : Gale) : (s.putGale v).lb m = s.lb m := rfl
@[simp] theorem lb_putKite (s : State) (m : Nat) (v : Kite) : (s.putKite v).lb m = s.lb m := rfl
@[simp] theorem lb_putMeas (s : State) (m : Nat) (v : Meas) : (s.putMeas v).lb m = s.lb m := rfl
@[simp] theorem lb_putModes (s : State) (m : Nat) (v : ModeBlk) : (s.putModes v).lb m = s.lb m := rfl
@[simp] theorem lb_putMem (s : State) (m : Nat) (v : Memory) : (s.putMem v).lb m = s.lb m := rfl
@[simp] theorem lb_putLinks (s : State) (m : Nat) (v : Tab Link) : (s.putLinks v).lb m = s.lb m := rfl
@[simp] theorem lb_putPorts (s : State) (m : Nat) (v : Tab SmpPort) : (s.putPorts v).lb m = s.lb m := rfl
@[simp] theorem lb_putDsp (s : State) (m : Nat) (v : Dsp) : (s.putDsp v).lb m = s.lb m := rfl
@[simp] theorem lb_putWire (s : State) (m : Nat) (v : List Emit) : (s.putWire v).lb m = s.lb m := rfl
@[simp] theorem lb_putFresh (s : State) (m : Nat) (v : Nat) : (s.putFresh v).lb m = s.lb m := rfl
@[simp] theorem part_setLb (s : State) (m n : Nat) (v : LinkBal) : (s.setLb n v).part m = s.part m := rfl
@[simp] theorem qty_setLb (s : State) (m n : Nat) (v : LinkBal) : (s.setLb n v).qty m = s.qty m := rfl
@[simp] theorem out_setLb (s : State) (m n : Nat) (v : LinkBal) : (s.setLb n v).out m = s.out m := rfl
@[simp] theorem lnk_setLb (s : State) (m n : Nat) (v : LinkBal) : (s.setLb n v).lnk m = s.lnk m := rfl
@[simp] theorem smp_setLb (s : State) (m n : Nat) (v : LinkBal) : (s.setLb n v).smp m = s.smp m := rfl
@[simp] theorem lnk_putTb (s : State) (m : Nat) (v : TimeBase) : (s.putTb v).lnk m = s.lnk m := rfl
@[simp] theorem lnk_putQs (s : State) (m : Nat) (v : Tab Qty) : (s.putQs v).lnk m = s.lnk m := rfl
@[simp] theorem lnk_putShadows (s : State) (m : Nat) (v : Tab Shadow) : (s.putShadows v).lnk m = s.lnk m := rfl
@[simp] theorem lnk_putCalFrz (s : State) (m : Nat) (v : Tab (Option (Word × Word × Word))) : (s.putCalFrz v).lnk m = s.lnk m := rfl
@[simp] theorem lnk_putOuts (s : State) (m : Nat) (v : Tab Output) : (s.putOuts v).lnk m = s.lnk m := rfl
@[simp] theorem lnk_putClk (s : State) (m : Nat) (v : Clock) : (s.putClk v).lnk m = s.lnk m := rfl
@[simp] theorem lnk_putSch (s : State) (m : Nat) (v : Sched) : (s.putSch v).lnk m = s.lnk m := rfl
@[simp] theorem lnk_putParts (s : State) (m : Nat) (v : Tab Partner) : (s.putParts v).lnk m = s.lnk m := rfl
@[simp] theorem lnk_putJrn (s : State) (m : Nat) (v : Journal) : (s.putJrn v).lnk m = s.lnk m := rfl
@[simp] theorem lnk_putFc (s : State) (m : Nat) (v : Parts) : (s.putFc v).lnk m = s.lnk m := rfl
@[simp] theorem lnk_putRaised (s : State) (m : Nat) (v : Tab (Option Nat)) : (s.putRaised v).lnk m = s.lnk m := rfl
@[simp] theorem lnk_putHost (s : State) (m : Nat) (v : HostBlk) : (s.putHost v).lnk m = s.lnk m := rfl
@[simp] theorem lnk_putStage (s : State) (m : Nat) (v : List StageCopy) : (s.putStage v).lnk m = s.lnk m := rfl
@[simp] theorem lnk_putLbal (s : State) (m : Nat) (v : Tab LinkBal) : (s.putLbal v).lnk m = s.lnk m := rfl
@[simp] theorem lnk_putRtc (s : State) (m : Nat) (v : Rtc) : (s.putRtc v).lnk m = s.lnk m := rfl
@[simp] theorem lnk_putPwr (s : State) (m : Nat) (v : Power) : (s.putPwr v).lnk m = s.lnk m := rfl
@[simp] theorem lnk_putRf (s : State) (m : Nat) (v : Rf) : (s.putRf v).lnk m = s.lnk m := rfl
@[simp] theorem lnk_putGale (s : State) (m : Nat) (v : Gale) : (s.putGale v).lnk m = s.lnk m := rfl
@[simp] theorem lnk_putKite (s : State) (m : Nat) (v : Kite) : (s.putKite v).lnk m = s.lnk m := rfl
@[simp] theorem lnk_putMeas (s : State) (m : Nat) (v : Meas) : (s.putMeas v).lnk m = s.lnk m := rfl
@[simp] theorem lnk_putModes (s : State) (m : Nat) (v : ModeBlk) : (s.putModes v).lnk m = s.lnk m := rfl
@[simp] theorem lnk_putMem (s : State) (m : Nat) (v : Memory) : (s.putMem v).lnk m = s.lnk m := rfl
@[simp] theorem lnk_putPorts (s : State) (m : Nat) (v : Tab SmpPort) : (s.putPorts v).lnk m = s.lnk m := rfl
@[simp] theorem lnk_putDsp (s : State) (m : Nat) (v : Dsp) : (s.putDsp v).lnk m = s.lnk m := rfl
@[simp] theorem lnk_putWire (s : State) (m : Nat) (v : List Emit) : (s.putWire v).lnk m = s.lnk m := rfl
@[simp] theorem lnk_putFresh (s : State) (m : Nat) (v : Nat) : (s.putFresh v).lnk m = s.lnk m := rfl
@[simp] theorem part_setLnk (s : State) (m n : Nat) (v : Link) : (s.setLnk n v).part m = s.part m := rfl
@[simp] theorem qty_setLnk (s : State) (m n : Nat) (v : Link) : (s.setLnk n v).qty m = s.qty m := rfl
@[simp] theorem out_setLnk (s : State) (m n : Nat) (v : Link) : (s.setLnk n v).out m = s.out m := rfl
@[simp] theorem lb_setLnk (s : State) (m n : Nat) (v : Link) : (s.setLnk n v).lb m = s.lb m := rfl
@[simp] theorem smp_setLnk (s : State) (m n : Nat) (v : Link) : (s.setLnk n v).smp m = s.smp m := rfl
@[simp] theorem smp_putTb (s : State) (m : Nat) (v : TimeBase) : (s.putTb v).smp m = s.smp m := rfl
@[simp] theorem smp_putQs (s : State) (m : Nat) (v : Tab Qty) : (s.putQs v).smp m = s.smp m := rfl
@[simp] theorem smp_putShadows (s : State) (m : Nat) (v : Tab Shadow) : (s.putShadows v).smp m = s.smp m := rfl
@[simp] theorem smp_putCalFrz (s : State) (m : Nat) (v : Tab (Option (Word × Word × Word))) : (s.putCalFrz v).smp m = s.smp m := rfl
@[simp] theorem smp_putOuts (s : State) (m : Nat) (v : Tab Output) : (s.putOuts v).smp m = s.smp m := rfl
@[simp] theorem smp_putClk (s : State) (m : Nat) (v : Clock) : (s.putClk v).smp m = s.smp m := rfl
@[simp] theorem smp_putSch (s : State) (m : Nat) (v : Sched) : (s.putSch v).smp m = s.smp m := rfl
@[simp] theorem smp_putParts (s : State) (m : Nat) (v : Tab Partner) : (s.putParts v).smp m = s.smp m := rfl
@[simp] theorem smp_putJrn (s : State) (m : Nat) (v : Journal) : (s.putJrn v).smp m = s.smp m := rfl
@[simp] theorem smp_putFc (s : State) (m : Nat) (v : Parts) : (s.putFc v).smp m = s.smp m := rfl
@[simp] theorem smp_putRaised (s : State) (m : Nat) (v : Tab (Option Nat)) : (s.putRaised v).smp m = s.smp m := rfl
@[simp] theorem smp_putHost (s : State) (m : Nat) (v : HostBlk) : (s.putHost v).smp m = s.smp m := rfl
@[simp] theorem smp_putStage (s : State) (m : Nat) (v : List StageCopy) : (s.putStage v).smp m = s.smp m := rfl
@[simp] theorem smp_putLbal (s : State) (m : Nat) (v : Tab LinkBal) : (s.putLbal v).smp m = s.smp m := rfl
@[simp] theorem smp_putRtc (s : State) (m : Nat) (v : Rtc) : (s.putRtc v).smp m = s.smp m := rfl
@[simp] theorem smp_putPwr (s : State) (m : Nat) (v : Power) : (s.putPwr v).smp m = s.smp m := rfl
@[simp] theorem smp_putRf (s : State) (m : Nat) (v : Rf) : (s.putRf v).smp m = s.smp m := rfl
@[simp] theorem smp_putGale (s : State) (m : Nat) (v : Gale) : (s.putGale v).smp m = s.smp m := rfl
@[simp] theorem smp_putKite (s : State) (m : Nat) (v : Kite) : (s.putKite v).smp m = s.smp m := rfl
@[simp] theorem smp_putMeas (s : State) (m : Nat) (v : Meas) : (s.putMeas v).smp m = s.smp m := rfl
@[simp] theorem smp_putModes (s : State) (m : Nat) (v : ModeBlk) : (s.putModes v).smp m = s.smp m := rfl
@[simp] theorem smp_putMem (s : State) (m : Nat) (v : Memory) : (s.putMem v).smp m = s.smp m := rfl
@[simp] theorem smp_putLinks (s : State) (m : Nat) (v : Tab Link) : (s.putLinks v).smp m = s.smp m := rfl
@[simp] theorem smp_putDsp (s : State) (m : Nat) (v : Dsp) : (s.putDsp v).smp m = s.smp m := rfl
@[simp] theorem smp_putWire (s : State) (m : Nat) (v : List Emit) : (s.putWire v).smp m = s.smp m := rfl
@[simp] theorem smp_putFresh (s : State) (m : Nat) (v : Nat) : (s.putFresh v).smp m = s.smp m := rfl
@[simp] theorem part_setSmp (s : State) (m n : Nat) (v : SmpPort) : (s.setSmp n v).part m = s.part m := rfl
@[simp] theorem qty_setSmp (s : State) (m n : Nat) (v : SmpPort) : (s.setSmp n v).qty m = s.qty m := rfl
@[simp] theorem out_setSmp (s : State) (m n : Nat) (v : SmpPort) : (s.setSmp n v).out m = s.out m := rfl
@[simp] theorem lb_setSmp (s : State) (m n : Nat) (v : SmpPort) : (s.setSmp n v).lb m = s.lb m := rfl
@[simp] theorem lnk_setSmp (s : State) (m n : Nat) (v : SmpPort) : (s.setSmp n v).lnk m = s.lnk m := rfl
@[simp] theorem dom_setDom (s : State) (d v : Nat) : (s.setDom d v).dom d = v := by simp [State.setDom, State.dom]
@[simp] theorem dom_setDom_ne (s : State) (e d v : Nat) (h : e ≠ d) : (s.setDom d v).dom e = s.dom e := by simp [State.setDom, State.dom, h]
@[simp] theorem setDom_tb (s : State) (d v : Nat) : (s.setDom d v).tb = s.tb := rfl
@[simp] theorem setDom_qs (s : State) (d v : Nat) : (s.setDom d v).qs = s.qs := rfl
@[simp] theorem setDom_shadows (s : State) (d v : Nat) : (s.setDom d v).shadows = s.shadows := rfl
@[simp] theorem setDom_calFrz (s : State) (d v : Nat) : (s.setDom d v).calFrz = s.calFrz := rfl
@[simp] theorem setDom_outs (s : State) (d v : Nat) : (s.setDom d v).outs = s.outs := rfl
@[simp] theorem setDom_clk (s : State) (d v : Nat) : (s.setDom d v).clk = s.clk := rfl
@[simp] theorem setDom_sch (s : State) (d v : Nat) : (s.setDom d v).sch = s.sch := rfl
@[simp] theorem setDom_parts (s : State) (d v : Nat) : (s.setDom d v).parts = s.parts := rfl
@[simp] theorem setDom_jrn (s : State) (d v : Nat) : (s.setDom d v).jrn = s.jrn := rfl
@[simp] theorem setDom_fc (s : State) (d v : Nat) : (s.setDom d v).fc = s.fc := rfl
@[simp] theorem setDom_raised (s : State) (d v : Nat) : (s.setDom d v).raised = s.raised := rfl
@[simp] theorem setDom_host (s : State) (d v : Nat) : (s.setDom d v).host = s.host := rfl
@[simp] theorem setDom_stage (s : State) (d v : Nat) : (s.setDom d v).stage = s.stage := rfl
@[simp] theorem setDom_lbal (s : State) (d v : Nat) : (s.setDom d v).lbal = s.lbal := rfl
@[simp] theorem setDom_rtc (s : State) (d v : Nat) : (s.setDom d v).rtc = s.rtc := rfl
@[simp] theorem setDom_rf (s : State) (d v : Nat) : (s.setDom d v).rf = s.rf := rfl
@[simp] theorem setDom_gale (s : State) (d v : Nat) : (s.setDom d v).gale = s.gale := rfl
@[simp] theorem setDom_kite (s : State) (d v : Nat) : (s.setDom d v).kite = s.kite := rfl
@[simp] theorem setDom_meas (s : State) (d v : Nat) : (s.setDom d v).meas = s.meas := rfl
@[simp] theorem setDom_modes (s : State) (d v : Nat) : (s.setDom d v).modes = s.modes := rfl
@[simp] theorem setDom_mem (s : State) (d v : Nat) : (s.setDom d v).mem = s.mem := rfl
@[simp] theorem setDom_links (s : State) (d v : Nat) : (s.setDom d v).links = s.links := rfl
@[simp] theorem setDom_ports (s : State) (d v : Nat) : (s.setDom d v).ports = s.ports := rfl
@[simp] theorem setDom_dsp (s : State) (d v : Nat) : (s.setDom d v).dsp = s.dsp := rfl
@[simp] theorem setDom_wire (s : State) (d v : Nat) : (s.setDom d v).wire = s.wire := rfl
@[simp] theorem setDom_fresh (s : State) (d v : Nat) : (s.setDom d v).fresh = s.fresh := rfl
@[simp] theorem setDom_pending (s : State) (d v : Nat) : (s.setDom d v).pending = s.pending := rfl
@[simp] theorem core_setCore (s : State) (k : Nat) (v : UCore) : (s.setCore k v).core k = v := by unfold State.setCore State.core; split <;> simp_all
@[simp] theorem setCore_tb (s : State) (k : Nat) (v : UCore) : (s.setCore k v).tb = s.tb := by unfold State.setCore; split <;> rfl
@[simp] theorem setCore_qs (s : State) (k : Nat) (v : UCore) : (s.setCore k v).qs = s.qs := by unfold State.setCore; split <;> rfl
@[simp] theorem setCore_shadows (s : State) (k : Nat) (v : UCore) : (s.setCore k v).shadows = s.shadows := by unfold State.setCore; split <;> rfl
@[simp] theorem setCore_calFrz (s : State) (k : Nat) (v : UCore) : (s.setCore k v).calFrz = s.calFrz := by unfold State.setCore; split <;> rfl
@[simp] theorem setCore_outs (s : State) (k : Nat) (v : UCore) : (s.setCore k v).outs = s.outs := by unfold State.setCore; split <;> rfl
@[simp] theorem setCore_clk (s : State) (k : Nat) (v : UCore) : (s.setCore k v).clk = s.clk := by unfold State.setCore; split <;> rfl
@[simp] theorem setCore_sch (s : State) (k : Nat) (v : UCore) : (s.setCore k v).sch = s.sch := by unfold State.setCore; split <;> rfl
@[simp] theorem setCore_parts (s : State) (k : Nat) (v : UCore) : (s.setCore k v).parts = s.parts := by unfold State.setCore; split <;> rfl
@[simp] theorem setCore_jrn (s : State) (k : Nat) (v : UCore) : (s.setCore k v).jrn = s.jrn := by unfold State.setCore; split <;> rfl
@[simp] theorem setCore_fc (s : State) (k : Nat) (v : UCore) : (s.setCore k v).fc = s.fc := by unfold State.setCore; split <;> rfl
@[simp] theorem setCore_raised (s : State) (k : Nat) (v : UCore) : (s.setCore k v).raised = s.raised := by unfold State.setCore; split <;> rfl
@[simp] theorem setCore_host (s : State) (k : Nat) (v : UCore) : (s.setCore k v).host = s.host := by unfold State.setCore; split <;> rfl
@[simp] theorem setCore_stage (s : State) (k : Nat) (v : UCore) : (s.setCore k v).stage = s.stage := by unfold State.setCore; split <;> rfl
@[simp] theorem setCore_lbal (s : State) (k : Nat) (v : UCore) : (s.setCore k v).lbal = s.lbal := by unfold State.setCore; split <;> rfl
@[simp] theorem setCore_rtc (s : State) (k : Nat) (v : UCore) : (s.setCore k v).rtc = s.rtc := by unfold State.setCore; split <;> rfl
@[simp] theorem setCore_pwr (s : State) (k : Nat) (v : UCore) : (s.setCore k v).pwr = s.pwr := by unfold State.setCore; split <;> rfl
@[simp] theorem setCore_rf (s : State) (k : Nat) (v : UCore) : (s.setCore k v).rf = s.rf := by unfold State.setCore; split <;> rfl
@[simp] theorem setCore_gale (s : State) (k : Nat) (v : UCore) : (s.setCore k v).gale = s.gale := by unfold State.setCore; split <;> rfl
@[simp] theorem setCore_kite (s : State) (k : Nat) (v : UCore) : (s.setCore k v).kite = s.kite := by unfold State.setCore; split <;> rfl
@[simp] theorem setCore_meas (s : State) (k : Nat) (v : UCore) : (s.setCore k v).meas = s.meas := by unfold State.setCore; split <;> rfl
@[simp] theorem setCore_modes (s : State) (k : Nat) (v : UCore) : (s.setCore k v).modes = s.modes := by unfold State.setCore; split <;> rfl
@[simp] theorem setCore_mem (s : State) (k : Nat) (v : UCore) : (s.setCore k v).mem = s.mem := by unfold State.setCore; split <;> rfl
@[simp] theorem setCore_links (s : State) (k : Nat) (v : UCore) : (s.setCore k v).links = s.links := by unfold State.setCore; split <;> rfl
@[simp] theorem setCore_ports (s : State) (k : Nat) (v : UCore) : (s.setCore k v).ports = s.ports := by unfold State.setCore; split <;> rfl
@[simp] theorem setCore_wire (s : State) (k : Nat) (v : UCore) : (s.setCore k v).wire = s.wire := by unfold State.setCore; split <;> rfl
@[simp] theorem setCore_fresh (s : State) (k : Nat) (v : UCore) : (s.setCore k v).fresh = s.fresh := by unfold State.setCore; split <;> rfl
@[simp] theorem setCore_pending (s : State) (k : Nat) (v : UCore) : (s.setCore k v).pending = s.pending := by unfold State.setCore; split <;> rfl
@[simp] theorem setEth_tb (s : State) (k : Nat) (v : EthPort) : (s.setEth k v).tb = s.tb := by unfold State.setEth; split <;> rfl
@[simp] theorem setEth_qs (s : State) (k : Nat) (v : EthPort) : (s.setEth k v).qs = s.qs := by unfold State.setEth; split <;> rfl
@[simp] theorem setEth_shadows (s : State) (k : Nat) (v : EthPort) : (s.setEth k v).shadows = s.shadows := by unfold State.setEth; split <;> rfl
@[simp] theorem setEth_calFrz (s : State) (k : Nat) (v : EthPort) : (s.setEth k v).calFrz = s.calFrz := by unfold State.setEth; split <;> rfl
@[simp] theorem setEth_outs (s : State) (k : Nat) (v : EthPort) : (s.setEth k v).outs = s.outs := by unfold State.setEth; split <;> rfl
@[simp] theorem setEth_clk (s : State) (k : Nat) (v : EthPort) : (s.setEth k v).clk = s.clk := by unfold State.setEth; split <;> rfl
@[simp] theorem setEth_sch (s : State) (k : Nat) (v : EthPort) : (s.setEth k v).sch = s.sch := by unfold State.setEth; split <;> rfl
@[simp] theorem setEth_parts (s : State) (k : Nat) (v : EthPort) : (s.setEth k v).parts = s.parts := by unfold State.setEth; split <;> rfl
@[simp] theorem setEth_jrn (s : State) (k : Nat) (v : EthPort) : (s.setEth k v).jrn = s.jrn := by unfold State.setEth; split <;> rfl
@[simp] theorem setEth_fc (s : State) (k : Nat) (v : EthPort) : (s.setEth k v).fc = s.fc := by unfold State.setEth; split <;> rfl
@[simp] theorem setEth_raised (s : State) (k : Nat) (v : EthPort) : (s.setEth k v).raised = s.raised := by unfold State.setEth; split <;> rfl
@[simp] theorem setEth_stage (s : State) (k : Nat) (v : EthPort) : (s.setEth k v).stage = s.stage := by unfold State.setEth; split <;> rfl
@[simp] theorem setEth_lbal (s : State) (k : Nat) (v : EthPort) : (s.setEth k v).lbal = s.lbal := by unfold State.setEth; split <;> rfl
@[simp] theorem setEth_rtc (s : State) (k : Nat) (v : EthPort) : (s.setEth k v).rtc = s.rtc := by unfold State.setEth; split <;> rfl
@[simp] theorem setEth_pwr (s : State) (k : Nat) (v : EthPort) : (s.setEth k v).pwr = s.pwr := by unfold State.setEth; split <;> rfl
@[simp] theorem setEth_rf (s : State) (k : Nat) (v : EthPort) : (s.setEth k v).rf = s.rf := by unfold State.setEth; split <;> rfl
@[simp] theorem setEth_gale (s : State) (k : Nat) (v : EthPort) : (s.setEth k v).gale = s.gale := by unfold State.setEth; split <;> rfl
@[simp] theorem setEth_kite (s : State) (k : Nat) (v : EthPort) : (s.setEth k v).kite = s.kite := by unfold State.setEth; split <;> rfl
@[simp] theorem setEth_meas (s : State) (k : Nat) (v : EthPort) : (s.setEth k v).meas = s.meas := by unfold State.setEth; split <;> rfl
@[simp] theorem setEth_modes (s : State) (k : Nat) (v : EthPort) : (s.setEth k v).modes = s.modes := by unfold State.setEth; split <;> rfl
@[simp] theorem setEth_mem (s : State) (k : Nat) (v : EthPort) : (s.setEth k v).mem = s.mem := by unfold State.setEth; split <;> rfl
@[simp] theorem setEth_links (s : State) (k : Nat) (v : EthPort) : (s.setEth k v).links = s.links := by unfold State.setEth; split <;> rfl
@[simp] theorem setEth_ports (s : State) (k : Nat) (v : EthPort) : (s.setEth k v).ports = s.ports := by unfold State.setEth; split <;> rfl
@[simp] theorem setEth_dsp (s : State) (k : Nat) (v : EthPort) : (s.setEth k v).dsp = s.dsp := by unfold State.setEth; split <;> rfl
@[simp] theorem setEth_wire (s : State) (k : Nat) (v : EthPort) : (s.setEth k v).wire = s.wire := by unfold State.setEth; split <;> rfl
@[simp] theorem setEth_fresh (s : State) (k : Nat) (v : EthPort) : (s.setEth k v).fresh = s.fresh := by unfold State.setEth; split <;> rfl
@[simp] theorem setEth_pending (s : State) (k : Nat) (v : EthPort) : (s.setEth k v).pending = s.pending := by unfold State.setEth; split <;> rfl
@[simp] theorem setSpi_tb (s : State) (k : Nat) (v : SpiPort) : (s.setSpi k v).tb = s.tb := by unfold State.setSpi; split <;> rfl
@[simp] theorem setSpi_qs (s : State) (k : Nat) (v : SpiPort) : (s.setSpi k v).qs = s.qs := by unfold State.setSpi; split <;> rfl
@[simp] theorem setSpi_shadows (s : State) (k : Nat) (v : SpiPort) : (s.setSpi k v).shadows = s.shadows := by unfold State.setSpi; split <;> rfl
@[simp] theorem setSpi_calFrz (s : State) (k : Nat) (v : SpiPort) : (s.setSpi k v).calFrz = s.calFrz := by unfold State.setSpi; split <;> rfl
@[simp] theorem setSpi_outs (s : State) (k : Nat) (v : SpiPort) : (s.setSpi k v).outs = s.outs := by unfold State.setSpi; split <;> rfl
@[simp] theorem setSpi_clk (s : State) (k : Nat) (v : SpiPort) : (s.setSpi k v).clk = s.clk := by unfold State.setSpi; split <;> rfl
@[simp] theorem setSpi_sch (s : State) (k : Nat) (v : SpiPort) : (s.setSpi k v).sch = s.sch := by unfold State.setSpi; split <;> rfl
@[simp] theorem setSpi_parts (s : State) (k : Nat) (v : SpiPort) : (s.setSpi k v).parts = s.parts := by unfold State.setSpi; split <;> rfl
@[simp] theorem setSpi_jrn (s : State) (k : Nat) (v : SpiPort) : (s.setSpi k v).jrn = s.jrn := by unfold State.setSpi; split <;> rfl
@[simp] theorem setSpi_fc (s : State) (k : Nat) (v : SpiPort) : (s.setSpi k v).fc = s.fc := by unfold State.setSpi; split <;> rfl
@[simp] theorem setSpi_raised (s : State) (k : Nat) (v : SpiPort) : (s.setSpi k v).raised = s.raised := by unfold State.setSpi; split <;> rfl
@[simp] theorem setSpi_stage (s : State) (k : Nat) (v : SpiPort) : (s.setSpi k v).stage = s.stage := by unfold State.setSpi; split <;> rfl
@[simp] theorem setSpi_lbal (s : State) (k : Nat) (v : SpiPort) : (s.setSpi k v).lbal = s.lbal := by unfold State.setSpi; split <;> rfl
@[simp] theorem setSpi_rtc (s : State) (k : Nat) (v : SpiPort) : (s.setSpi k v).rtc = s.rtc := by unfold State.setSpi; split <;> rfl
@[simp] theorem setSpi_pwr (s : State) (k : Nat) (v : SpiPort) : (s.setSpi k v).pwr = s.pwr := by unfold State.setSpi; split <;> rfl
@[simp] theorem setSpi_rf (s : State) (k : Nat) (v : SpiPort) : (s.setSpi k v).rf = s.rf := by unfold State.setSpi; split <;> rfl
@[simp] theorem setSpi_gale (s : State) (k : Nat) (v : SpiPort) : (s.setSpi k v).gale = s.gale := by unfold State.setSpi; split <;> rfl
@[simp] theorem setSpi_kite (s : State) (k : Nat) (v : SpiPort) : (s.setSpi k v).kite = s.kite := by unfold State.setSpi; split <;> rfl
@[simp] theorem setSpi_meas (s : State) (k : Nat) (v : SpiPort) : (s.setSpi k v).meas = s.meas := by unfold State.setSpi; split <;> rfl
@[simp] theorem setSpi_modes (s : State) (k : Nat) (v : SpiPort) : (s.setSpi k v).modes = s.modes := by unfold State.setSpi; split <;> rfl
@[simp] theorem setSpi_mem (s : State) (k : Nat) (v : SpiPort) : (s.setSpi k v).mem = s.mem := by unfold State.setSpi; split <;> rfl
@[simp] theorem setSpi_links (s : State) (k : Nat) (v : SpiPort) : (s.setSpi k v).links = s.links := by unfold State.setSpi; split <;> rfl
@[simp] theorem setSpi_ports (s : State) (k : Nat) (v : SpiPort) : (s.setSpi k v).ports = s.ports := by unfold State.setSpi; split <;> rfl
@[simp] theorem setSpi_dsp (s : State) (k : Nat) (v : SpiPort) : (s.setSpi k v).dsp = s.dsp := by unfold State.setSpi; split <;> rfl
@[simp] theorem setSpi_wire (s : State) (k : Nat) (v : SpiPort) : (s.setSpi k v).wire = s.wire := by unfold State.setSpi; split <;> rfl
@[simp] theorem setSpi_fresh (s : State) (k : Nat) (v : SpiPort) : (s.setSpi k v).fresh = s.fresh := by unfold State.setSpi; split <;> rfl
@[simp] theorem setSpi_pending (s : State) (k : Nat) (v : SpiPort) : (s.setSpi k v).pending = s.pending := by unfold State.setSpi; split <;> rfl
@[simp] theorem eth_setEth (s : State) (h : Nat) (v : EthPort) : (s.setEth h v).eth h = v := by unfold State.setEth State.eth; split <;> simp_all
@[simp] theorem spi_setSpi (s : State) (h : Nat) (v : SpiPort) : (s.setSpi h v).spi h = v := by unfold State.setSpi State.spi; split <;> simp_all
@[simp] theorem emit_tb (s : State) (e : Emit) : (s.emit e).tb = s.tb := rfl
@[simp] theorem memWrites_tb (s : State) (a : Nat) (ws : List Word) : (s.memWrites a ws).tb = s.tb := rfl
@[simp] theorem emit_qs (s : State) (e : Emit) : (s.emit e).qs = s.qs := rfl
@[simp] theorem memWrites_qs (s : State) (a : Nat) (ws : List Word) : (s.memWrites a ws).qs = s.qs := rfl
@[simp] theorem emit_shadows (s : State) (e : Emit) : (s.emit e).shadows = s.shadows := rfl
@[simp] theorem memWrites_shadows (s : State) (a : Nat) (ws : List Word) : (s.memWrites a ws).shadows = s.shadows := rfl
@[simp] theorem emit_calFrz (s : State) (e : Emit) : (s.emit e).calFrz = s.calFrz := rfl
@[simp] theorem memWrites_calFrz (s : State) (a : Nat) (ws : List Word) : (s.memWrites a ws).calFrz = s.calFrz := rfl
@[simp] theorem emit_outs (s : State) (e : Emit) : (s.emit e).outs = s.outs := rfl
@[simp] theorem memWrites_outs (s : State) (a : Nat) (ws : List Word) : (s.memWrites a ws).outs = s.outs := rfl
@[simp] theorem emit_clk (s : State) (e : Emit) : (s.emit e).clk = s.clk := rfl
@[simp] theorem memWrites_clk (s : State) (a : Nat) (ws : List Word) : (s.memWrites a ws).clk = s.clk := rfl
@[simp] theorem emit_sch (s : State) (e : Emit) : (s.emit e).sch = s.sch := rfl
@[simp] theorem memWrites_sch (s : State) (a : Nat) (ws : List Word) : (s.memWrites a ws).sch = s.sch := rfl
@[simp] theorem emit_parts (s : State) (e : Emit) : (s.emit e).parts = s.parts := rfl
@[simp] theorem memWrites_parts (s : State) (a : Nat) (ws : List Word) : (s.memWrites a ws).parts = s.parts := rfl
@[simp] theorem emit_jrn (s : State) (e : Emit) : (s.emit e).jrn = s.jrn := rfl
@[simp] theorem memWrites_jrn (s : State) (a : Nat) (ws : List Word) : (s.memWrites a ws).jrn = s.jrn := rfl
@[simp] theorem emit_fc (s : State) (e : Emit) : (s.emit e).fc = s.fc := rfl
@[simp] theorem memWrites_fc (s : State) (a : Nat) (ws : List Word) : (s.memWrites a ws).fc = s.fc := rfl
@[simp] theorem emit_raised (s : State) (e : Emit) : (s.emit e).raised = s.raised := rfl
@[simp] theorem memWrites_raised (s : State) (a : Nat) (ws : List Word) : (s.memWrites a ws).raised = s.raised := rfl
@[simp] theorem emit_host (s : State) (e : Emit) : (s.emit e).host = s.host := rfl
@[simp] theorem memWrites_host (s : State) (a : Nat) (ws : List Word) : (s.memWrites a ws).host = s.host := rfl
@[simp] theorem emit_stage (s : State) (e : Emit) : (s.emit e).stage = s.stage := rfl
@[simp] theorem memWrites_stage (s : State) (a : Nat) (ws : List Word) : (s.memWrites a ws).stage = s.stage := rfl
@[simp] theorem emit_lbal (s : State) (e : Emit) : (s.emit e).lbal = s.lbal := rfl
@[simp] theorem memWrites_lbal (s : State) (a : Nat) (ws : List Word) : (s.memWrites a ws).lbal = s.lbal := rfl
@[simp] theorem emit_rtc (s : State) (e : Emit) : (s.emit e).rtc = s.rtc := rfl
@[simp] theorem memWrites_rtc (s : State) (a : Nat) (ws : List Word) : (s.memWrites a ws).rtc = s.rtc := rfl
@[simp] theorem emit_pwr (s : State) (e : Emit) : (s.emit e).pwr = s.pwr := rfl
@[simp] theorem memWrites_pwr (s : State) (a : Nat) (ws : List Word) : (s.memWrites a ws).pwr = s.pwr := rfl
@[simp] theorem emit_rf (s : State) (e : Emit) : (s.emit e).rf = s.rf := rfl
@[simp] theorem memWrites_rf (s : State) (a : Nat) (ws : List Word) : (s.memWrites a ws).rf = s.rf := rfl
@[simp] theorem emit_gale (s : State) (e : Emit) : (s.emit e).gale = s.gale := rfl
@[simp] theorem memWrites_gale (s : State) (a : Nat) (ws : List Word) : (s.memWrites a ws).gale = s.gale := rfl
@[simp] theorem emit_kite (s : State) (e : Emit) : (s.emit e).kite = s.kite := rfl
@[simp] theorem memWrites_kite (s : State) (a : Nat) (ws : List Word) : (s.memWrites a ws).kite = s.kite := rfl
@[simp] theorem emit_meas (s : State) (e : Emit) : (s.emit e).meas = s.meas := rfl
@[simp] theorem memWrites_meas (s : State) (a : Nat) (ws : List Word) : (s.memWrites a ws).meas = s.meas := rfl
@[simp] theorem emit_modes (s : State) (e : Emit) : (s.emit e).modes = s.modes := rfl
@[simp] theorem memWrites_modes (s : State) (a : Nat) (ws : List Word) : (s.memWrites a ws).modes = s.modes := rfl
@[simp] theorem emit_mem (s : State) (e : Emit) : (s.emit e).mem = s.mem := rfl
@[simp] theorem emit_links (s : State) (e : Emit) : (s.emit e).links = s.links := rfl
@[simp] theorem memWrites_links (s : State) (a : Nat) (ws : List Word) : (s.memWrites a ws).links = s.links := rfl
@[simp] theorem emit_ports (s : State) (e : Emit) : (s.emit e).ports = s.ports := rfl
@[simp] theorem memWrites_ports (s : State) (a : Nat) (ws : List Word) : (s.memWrites a ws).ports = s.ports := rfl
@[simp] theorem emit_dsp (s : State) (e : Emit) : (s.emit e).dsp = s.dsp := rfl
@[simp] theorem memWrites_dsp (s : State) (a : Nat) (ws : List Word) : (s.memWrites a ws).dsp = s.dsp := rfl
@[simp] theorem memWrites_wire (s : State) (a : Nat) (ws : List Word) : (s.memWrites a ws).wire = s.wire := rfl
@[simp] theorem emit_fresh (s : State) (e : Emit) : (s.emit e).fresh = s.fresh := rfl
@[simp] theorem memWrites_fresh (s : State) (a : Nat) (ws : List Word) : (s.memWrites a ws).fresh = s.fresh := rfl
@[simp] theorem emit_pending (s : State) (e : Emit) : (s.emit e).pending = s.pending := rfl
@[simp] theorem memWrites_pending (s : State) (a : Nat) (ws : List Word) : (s.memWrites a ws).pending = s.pending := rfl

end Sys2Proof.Machine
end

