-- ==== Sys2Proof/Laws/Journal.lean ====
section
/-! SUPPORT. What the shared operations of the command side can do: they write partners, journal, host ports, what left the module and the record limits, and leave the rest alone. -/
namespace Sys2Proof.Machine
open Sys2Proof

/-- A fold whose steps keep a view keeps it. -/
theorem foldl_keeps {α β γ : Type} (v : α → γ) (f : α → β → α) (h : ∀ a b, v (f a b) = v a) (l : List β) (a : α) : v (l.foldl f a) = v a := by
  induction l generalizing a with
  | nil => rfl
  | cons b l ih => rw [List.foldl_cons, ih, h]
/-- A fold whose steps keep a property keeps it. -/
theorem foldl_inv {α β : Type} (P : α → Prop) (f : α → β → α) (h : ∀ a b, P a → P (f a b)) (l : List β) (a : α) (ha : P a) : P (l.foldl f a) := by
  induction l generalizing a with
  | nil => exact ha
  | cons b l ih => exact ih _ (h a b ha)

@[simp] theorem setPart_rest (s : State) (p : Nat) (v : Partner) : (s.setPart p v).rest = s.rest := rfl
@[simp] theorem setEth_rest (s : State) (h : Nat) (v : EthPort) : (s.setEth h v).rest = s.rest := by unfold State.setEth; split <;> rfl
@[simp] theorem setSpi_rest (s : State) (h : Nat) (v : SpiPort) : (s.setSpi h v).rest = s.rest := by unfold State.setSpi; split <;> rfl
@[simp] theorem emit_rest (s : State) (e : Emit) : (s.emit e).rest = s.rest := rfl
@[simp] theorem putJrn_rest (s : State) (j : Journal) : (s.putJrn j).rest = s.rest := rfl
@[simp] theorem putRaised_rest (s : State) (r : Tab (Option Nat)) : (s.putRaised r).rest = s.rest := rfl
@[simp] theorem putWire_rest (s : State) (w : List Emit) : (s.putWire w).rest = s.rest := rfl
@[simp] theorem putHost_rest (s : State) (h : HostBlk) : (s.putHost h).rest = s.rest := rfl
@[simp] theorem putParts_rest (s : State) (p : Tab Partner) : (s.putParts p).rest = s.rest := rfl
theorem part_congr {a b : State} (h : a.parts = b.parts) (q : Nat) : a.part q = b.part q := by unfold State.part; rw [h]

theorem of_rest_tb {a b : State} (h : a.rest = b.rest) : a.tb = b.tb := show a.rest.tb = b.rest.tb from congrArg State.tb h
theorem of_rest_qs {a b : State} (h : a.rest = b.rest) : a.qs = b.qs := show a.rest.qs = b.rest.qs from congrArg State.qs h
theorem of_rest_shadows {a b : State} (h : a.rest = b.rest) : a.shadows = b.shadows := show a.rest.shadows = b.rest.shadows from congrArg State.shadows h
theorem of_rest_calFrz {a b : State} (h : a.rest = b.rest) : a.calFrz = b.calFrz := show a.rest.calFrz = b.rest.calFrz from congrArg State.calFrz h
theorem of_rest_outs {a b : State} (h : a.rest = b.rest) : a.outs = b.outs := show a.rest.outs = b.rest.outs from congrArg State.outs h
theorem of_rest_clk {a b : State} (h : a.rest = b.rest) : a.clk = b.clk := show a.rest.clk = b.rest.clk from congrArg State.clk h
theorem of_rest_sch {a b : State} (h : a.rest = b.rest) : a.sch = b.sch := show a.rest.sch = b.rest.sch from congrArg State.sch h
theorem of_rest_fc {a b : State} (h : a.rest = b.rest) : a.fc = b.fc := show a.rest.fc = b.rest.fc from congrArg State.fc h
theorem of_rest_stage {a b : State} (h : a.rest = b.rest) : a.stage = b.stage := show a.rest.stage = b.rest.stage from congrArg State.stage h
theorem of_rest_lbal {a b : State} (h : a.rest = b.rest) : a.lbal = b.lbal := show a.rest.lbal = b.rest.lbal from congrArg State.lbal h
theorem of_rest_rtc {a b : State} (h : a.rest = b.rest) : a.rtc = b.rtc := show a.rest.rtc = b.rest.rtc from congrArg State.rtc h
theorem of_rest_pwr {a b : State} (h : a.rest = b.rest) : a.pwr = b.pwr := show a.rest.pwr = b.rest.pwr from congrArg State.pwr h
theorem of_rest_rf {a b : State} (h : a.rest = b.rest) : a.rf = b.rf := show a.rest.rf = b.rest.rf from congrArg State.rf h
theorem of_rest_gale {a b : State} (h : a.rest = b.rest) : a.gale = b.gale := show a.rest.gale = b.rest.gale from congrArg State.gale h
theorem of_rest_kite {a b : State} (h : a.rest = b.rest) : a.kite = b.kite := show a.rest.kite = b.rest.kite from congrArg State.kite h
theorem of_rest_meas {a b : State} (h : a.rest = b.rest) : a.meas = b.meas := show a.rest.meas = b.rest.meas from congrArg State.meas h
theorem of_rest_modes {a b : State} (h : a.rest = b.rest) : a.modes = b.modes := show a.rest.modes = b.rest.modes from congrArg State.modes h
theorem of_rest_mem {a b : State} (h : a.rest = b.rest) : a.mem = b.mem := show a.rest.mem = b.rest.mem from congrArg State.mem h
theorem of_rest_links {a b : State} (h : a.rest = b.rest) : a.links = b.links := show a.rest.links = b.rest.links from congrArg State.links h
theorem of_rest_ports {a b : State} (h : a.rest = b.rest) : a.ports = b.ports := show a.rest.ports = b.rest.ports from congrArg State.ports h
theorem of_rest_dsp {a b : State} (h : a.rest = b.rest) : a.dsp = b.dsp := show a.rest.dsp = b.rest.dsp from congrArg State.dsp h
theorem of_rest_fresh {a b : State} (h : a.rest = b.rest) : a.fresh = b.fresh := show a.rest.fresh = b.rest.fresh from congrArg State.fresh h
theorem of_rest_pending {a b : State} (h : a.rest = b.rest) : a.pending = b.pending := show a.rest.pending = b.rest.pending from congrArg State.pending h
@[simp] theorem seal_rest (g : Group) (s : State) : (s.seal g).rest = s.rest := by
  unfold State.seal; split <;> rfl
@[simp] theorem seal_tb (g : Group) (s : State) : (s.seal g).tb = s.tb := of_rest_tb (seal_rest g s)
@[simp] theorem seal_qs (g : Group) (s : State) : (s.seal g).qs = s.qs := of_rest_qs (seal_rest g s)
@[simp] theorem seal_shadows (g : Group) (s : State) : (s.seal g).shadows = s.shadows := of_rest_shadows (seal_rest g s)
@[simp] theorem seal_calFrz (g : Group) (s : State) : (s.seal g).calFrz = s.calFrz := of_rest_calFrz (seal_rest g s)
@[simp] theorem seal_outs (g : Group) (s : State) : (s.seal g).outs = s.outs := of_rest_outs (seal_rest g s)
@[simp] theorem seal_clk (g : Group) (s : State) : (s.seal g).clk = s.clk := of_rest_clk (seal_rest g s)
@[simp] theorem seal_sch (g : Group) (s : State) : (s.seal g).sch = s.sch := of_rest_sch (seal_rest g s)
@[simp] theorem seal_fc (g : Group) (s : State) : (s.seal g).fc = s.fc := of_rest_fc (seal_rest g s)
@[simp] theorem seal_stage (g : Group) (s : State) : (s.seal g).stage = s.stage := of_rest_stage (seal_rest g s)
@[simp] theorem seal_lbal (g : Group) (s : State) : (s.seal g).lbal = s.lbal := of_rest_lbal (seal_rest g s)
@[simp] theorem seal_rtc (g : Group) (s : State) : (s.seal g).rtc = s.rtc := of_rest_rtc (seal_rest g s)
@[simp] theorem seal_pwr (g : Group) (s : State) : (s.seal g).pwr = s.pwr := of_rest_pwr (seal_rest g s)
@[simp] theorem seal_rf (g : Group) (s : State) : (s.seal g).rf = s.rf := of_rest_rf (seal_rest g s)
@[simp] theorem seal_gale (g : Group) (s : State) : (s.seal g).gale = s.gale := of_rest_gale (seal_rest g s)
@[simp] theorem seal_kite (g : Group) (s : State) : (s.seal g).kite = s.kite := of_rest_kite (seal_rest g s)
@[simp] theorem seal_meas (g : Group) (s : State) : (s.seal g).meas = s.meas := of_rest_meas (seal_rest g s)
@[simp] theorem seal_modes (g : Group) (s : State) : (s.seal g).modes = s.modes := of_rest_modes (seal_rest g s)
@[simp] theorem seal_mem (g : Group) (s : State) : (s.seal g).mem = s.mem := of_rest_mem (seal_rest g s)
@[simp] theorem seal_links (g : Group) (s : State) : (s.seal g).links = s.links := of_rest_links (seal_rest g s)
@[simp] theorem seal_ports (g : Group) (s : State) : (s.seal g).ports = s.ports := of_rest_ports (seal_rest g s)
@[simp] theorem seal_dsp (g : Group) (s : State) : (s.seal g).dsp = s.dsp := of_rest_dsp (seal_rest g s)
@[simp] theorem seal_fresh (g : Group) (s : State) : (s.seal g).fresh = s.fresh := of_rest_fresh (seal_rest g s)
@[simp] theorem seal_pending (g : Group) (s : State) : (s.seal g).pending = s.pending := of_rest_pending (seal_rest g s)
@[simp] theorem seal_parts (g : Group) (s : State) : (s.seal g).parts = s.parts := by
  unfold State.seal; split <;> rfl
@[simp] theorem seal_host (g : Group) (s : State) : (s.seal g).host = s.host := by
  unfold State.seal; split <;> rfl
@[simp] theorem seal_wire (g : Group) (s : State) : (s.seal g).wire = s.wire := by
  unfold State.seal; split <;> rfl
@[simp] theorem seal_raised (g : Group) (s : State) : (s.seal g).raised = s.raised := by
  unfold State.seal; split <;> rfl
@[simp] theorem seal_part (g : Group) (s : State) (q : Nat) : (s.seal g).part q = s.part q := part_congr (seal_parts g s) q
@[simp] theorem sendPacket_rest (port : Nat) (ep : Endpoint) (mac : Word) (p : Nat) (r : Bool) (h : Option (Bool × Nat)) (ws : List Word) (s : State) : (s.sendPacket port ep mac p r h ws).rest = s.rest := by
  unfold State.sendPacket
  split
  · split
    · unfold State.setEth; split <;> rfl
    · unfold State.setSpi; split <;> rfl
  · rfl
@[simp] theorem sendPacket_tb (port : Nat) (ep : Endpoint) (mac : Word) (p : Nat) (r : Bool) (h : Option (Bool × Nat)) (ws : List Word) (s : State) : (s.sendPacket port ep mac p r h ws).tb = s.tb := of_rest_tb (sendPacket_rest port ep mac p r h ws s)
@[simp] theorem sendPacket_qs (port : Nat) (ep : Endpoint) (mac : Word) (p : Nat) (r : Bool) (h : Option (Bool × Nat)) (ws : List Word) (s : State) : (s.sendPacket port ep mac p r h ws).qs = s.qs := of_rest_qs (sendPacket_rest port ep mac p r h ws s)
@[simp] theorem sendPacket_shadows (port : Nat) (ep : Endpoint) (mac : Word) (p : Nat) (r : Bool) (h : Option (Bool × Nat)) (ws : List Word) (s : State) : (s.sendPacket port ep mac p r h ws).shadows = s.shadows := of_rest_shadows (sendPacket_rest port ep mac p r h ws s)
@[simp] theorem sendPacket_calFrz (port : Nat) (ep : Endpoint) (mac : Word) (p : Nat) (r : Bool) (h : Option (Bool × Nat)) (ws : List Word) (s : State) : (s.sendPacket port ep mac p r h ws).calFrz = s.calFrz := of_rest_calFrz (sendPacket_rest port ep mac p r h ws s)
@[simp] theorem sendPacket_outs (port : Nat) (ep : Endpoint) (mac : Word) (p : Nat) (r : Bool) (h : Option (Bool × Nat)) (ws : List Word) (s : State) : (s.sendPacket port ep mac p r h ws).outs = s.outs := of_rest_outs (sendPacket_rest port ep mac p r h ws s)
@[simp] theorem sendPacket_clk (port : Nat) (ep : Endpoint) (mac : Word) (p : Nat) (r : Bool) (h : Option (Bool × Nat)) (ws : List Word) (s : State) : (s.sendPacket port ep mac p r h ws).clk = s.clk := of_rest_clk (sendPacket_rest port ep mac p r h ws s)
@[simp] theorem sendPacket_sch (port : Nat) (ep : Endpoint) (mac : Word) (p : Nat) (r : Bool) (h : Option (Bool × Nat)) (ws : List Word) (s : State) : (s.sendPacket port ep mac p r h ws).sch = s.sch := of_rest_sch (sendPacket_rest port ep mac p r h ws s)
@[simp] theorem sendPacket_fc (port : Nat) (ep : Endpoint) (mac : Word) (p : Nat) (r : Bool) (h : Option (Bool × Nat)) (ws : List Word) (s : State) : (s.sendPacket port ep mac p r h ws).fc = s.fc := of_rest_fc (sendPacket_rest port ep mac p r h ws s)
@[simp] theorem sendPacket_stage (port : Nat) (ep : Endpoint) (mac : Word) (p : Nat) (r : Bool) (h : Option (Bool × Nat)) (ws : List Word) (s : State) : (s.sendPacket port ep mac p r h ws).stage = s.stage := of_rest_stage (sendPacket_rest port ep mac p r h ws s)
@[simp] theorem sendPacket_lbal (port : Nat) (ep : Endpoint) (mac : Word) (p : Nat) (r : Bool) (h : Option (Bool × Nat)) (ws : List Word) (s : State) : (s.sendPacket port ep mac p r h ws).lbal = s.lbal := of_rest_lbal (sendPacket_rest port ep mac p r h ws s)
@[simp] theorem sendPacket_rtc (port : Nat) (ep : Endpoint) (mac : Word) (p : Nat) (r : Bool) (h : Option (Bool × Nat)) (ws : List Word) (s : State) : (s.sendPacket port ep mac p r h ws).rtc = s.rtc := of_rest_rtc (sendPacket_rest port ep mac p r h ws s)
@[simp] theorem sendPacket_pwr (port : Nat) (ep : Endpoint) (mac : Word) (p : Nat) (r : Bool) (h : Option (Bool × Nat)) (ws : List Word) (s : State) : (s.sendPacket port ep mac p r h ws).pwr = s.pwr := of_rest_pwr (sendPacket_rest port ep mac p r h ws s)
@[simp] theorem sendPacket_rf (port : Nat) (ep : Endpoint) (mac : Word) (p : Nat) (r : Bool) (h : Option (Bool × Nat)) (ws : List Word) (s : State) : (s.sendPacket port ep mac p r h ws).rf = s.rf := of_rest_rf (sendPacket_rest port ep mac p r h ws s)
@[simp] theorem sendPacket_gale (port : Nat) (ep : Endpoint) (mac : Word) (p : Nat) (r : Bool) (h : Option (Bool × Nat)) (ws : List Word) (s : State) : (s.sendPacket port ep mac p r h ws).gale = s.gale := of_rest_gale (sendPacket_rest port ep mac p r h ws s)
@[simp] theorem sendPacket_kite (port : Nat) (ep : Endpoint) (mac : Word) (p : Nat) (r : Bool) (h : Option (Bool × Nat)) (ws : List Word) (s : State) : (s.sendPacket port ep mac p r h ws).kite = s.kite := of_rest_kite (sendPacket_rest port ep mac p r h ws s)
@[simp] theorem sendPacket_meas (port : Nat) (ep : Endpoint) (mac : Word) (p : Nat) (r : Bool) (h : Option (Bool × Nat)) (ws : List Word) (s : State) : (s.sendPacket port ep mac p r h ws).meas = s.meas := of_rest_meas (sendPacket_rest port ep mac p r h ws s)
@[simp] theorem sendPacket_modes (port : Nat) (ep : Endpoint) (mac : Word) (p : Nat) (r : Bool) (h : Option (Bool × Nat)) (ws : List Word) (s : State) : (s.sendPacket port ep mac p r h ws).modes = s.modes := of_rest_modes (sendPacket_rest port ep mac p r h ws s)
@[simp] theorem sendPacket_mem (port : Nat) (ep : Endpoint) (mac : Word) (p : Nat) (r : Bool) (h : Option (Bool × Nat)) (ws : List Word) (s : State) : (s.sendPacket port ep mac p r h ws).mem = s.mem := of_rest_mem (sendPacket_rest port ep mac p r h ws s)
@[simp] theorem sendPacket_links (port : Nat) (ep : Endpoint) (mac : Word) (p : Nat) (r : Bool) (h : Option (Bool × Nat)) (ws : List Word) (s : State) : (s.sendPacket port ep mac p r h ws).links = s.links := of_rest_links (sendPacket_rest port ep mac p r h ws s)
@[simp] theorem sendPacket_ports (port : Nat) (ep : Endpoint) (mac : Word) (p : Nat) (r : Bool) (h : Option (Bool × Nat)) (ws : List Word) (s : State) : (s.sendPacket port ep mac p r h ws).ports = s.ports := of_rest_ports (sendPacket_rest port ep mac p r h ws s)
@[simp] theorem sendPacket_dsp (port : Nat) (ep : Endpoint) (mac : Word) (p : Nat) (r : Bool) (h : Option (Bool × Nat)) (ws : List Word) (s : State) : (s.sendPacket port ep mac p r h ws).dsp = s.dsp := of_rest_dsp (sendPacket_rest port ep mac p r h ws s)
@[simp] theorem sendPacket_fresh (port : Nat) (ep : Endpoint) (mac : Word) (p : Nat) (r : Bool) (h : Option (Bool × Nat)) (ws : List Word) (s : State) : (s.sendPacket port ep mac p r h ws).fresh = s.fresh := of_rest_fresh (sendPacket_rest port ep mac p r h ws s)
@[simp] theorem sendPacket_pending (port : Nat) (ep : Endpoint) (mac : Word) (p : Nat) (r : Bool) (h : Option (Bool × Nat)) (ws : List Word) (s : State) : (s.sendPacket port ep mac p r h ws).pending = s.pending := of_rest_pending (sendPacket_rest port ep mac p r h ws s)
@[simp] theorem sendPacket_parts (port : Nat) (ep : Endpoint) (mac : Word) (p : Nat) (r : Bool) (h : Option (Bool × Nat)) (ws : List Word) (s : State) : (s.sendPacket port ep mac p r h ws).parts = s.parts := by
  unfold State.sendPacket
  split
  · split
    · unfold State.setEth; split <;> rfl
    · unfold State.setSpi; split <;> rfl
  · rfl
@[simp] theorem sendPacket_jrn (port : Nat) (ep : Endpoint) (mac : Word) (p : Nat) (r : Bool) (h : Option (Bool × Nat)) (ws : List Word) (s : State) : (s.sendPacket port ep mac p r h ws).jrn = s.jrn := by
  unfold State.sendPacket
  split
  · split
    · unfold State.setEth; split <;> rfl
    · unfold State.setSpi; split <;> rfl
  · rfl
@[simp] theorem sendPacket_raised (port : Nat) (ep : Endpoint) (mac : Word) (p : Nat) (r : Bool) (h : Option (Bool × Nat)) (ws : List Word) (s : State) : (s.sendPacket port ep mac p r h ws).raised = s.raised := by
  unfold State.sendPacket
  split
  · split
    · unfold State.setEth; split <;> rfl
    · unfold State.setSpi; split <;> rfl
  · rfl
@[simp] theorem sendPacket_part (port : Nat) (ep : Endpoint) (mac : Word) (p : Nat) (r : Bool) (h : Option (Bool × Nat)) (ws : List Word) (s : State) (q : Nat) : (s.sendPacket port ep mac p r h ws).part q = s.part q := part_congr (sendPacket_parts port ep mac p r h ws s) q
@[simp] theorem sendRecs_rest (p : Nat) (s : State) : (s.sendRecs p).rest = s.rest := by
  unfold State.sendRecs
  split
  · rfl
  · split
    · dsimp only
      rw [foldl_keeps State.rest _ (fun a b => sendPacket_rest _ _ _ _ _ _ _ a)]
      rfl
    · rfl
@[simp] theorem sendRecs_tb (p : Nat) (s : State) : (s.sendRecs p).tb = s.tb := of_rest_tb (sendRecs_rest p s)
@[simp] theorem sendRecs_qs (p : Nat) (s : State) : (s.sendRecs p).qs = s.qs := of_rest_qs (sendRecs_rest p s)
@[simp] theorem sendRecs_shadows (p : Nat) (s : State) : (s.sendRecs p).shadows = s.shadows := of_rest_shadows (sendRecs_rest p s)
@[simp] theorem sendRecs_calFrz (p : Nat) (s : State) : (s.sendRecs p).calFrz = s.calFrz := of_rest_calFrz (sendRecs_rest p s)
@[simp] theorem sendRecs_outs (p : Nat) (s : State) : (s.sendRecs p).outs = s.outs := of_rest_outs (sendRecs_rest p s)
@[simp] theorem sendRecs_clk (p : Nat) (s : State) : (s.sendRecs p).clk = s.clk := of_rest_clk (sendRecs_rest p s)
@[simp] theorem sendRecs_sch (p : Nat) (s : State) : (s.sendRecs p).sch = s.sch := of_rest_sch (sendRecs_rest p s)
@[simp] theorem sendRecs_fc (p : Nat) (s : State) : (s.sendRecs p).fc = s.fc := of_rest_fc (sendRecs_rest p s)
@[simp] theorem sendRecs_stage (p : Nat) (s : State) : (s.sendRecs p).stage = s.stage := of_rest_stage (sendRecs_rest p s)
@[simp] theorem sendRecs_lbal (p : Nat) (s : State) : (s.sendRecs p).lbal = s.lbal := of_rest_lbal (sendRecs_rest p s)
@[simp] theorem sendRecs_rtc (p : Nat) (s : State) : (s.sendRecs p).rtc = s.rtc := of_rest_rtc (sendRecs_rest p s)
@[simp] theorem sendRecs_pwr (p : Nat) (s : State) : (s.sendRecs p).pwr = s.pwr := of_rest_pwr (sendRecs_rest p s)
@[simp] theorem sendRecs_rf (p : Nat) (s : State) : (s.sendRecs p).rf = s.rf := of_rest_rf (sendRecs_rest p s)
@[simp] theorem sendRecs_gale (p : Nat) (s : State) : (s.sendRecs p).gale = s.gale := of_rest_gale (sendRecs_rest p s)
@[simp] theorem sendRecs_kite (p : Nat) (s : State) : (s.sendRecs p).kite = s.kite := of_rest_kite (sendRecs_rest p s)
@[simp] theorem sendRecs_meas (p : Nat) (s : State) : (s.sendRecs p).meas = s.meas := of_rest_meas (sendRecs_rest p s)
@[simp] theorem sendRecs_modes (p : Nat) (s : State) : (s.sendRecs p).modes = s.modes := of_rest_modes (sendRecs_rest p s)
@[simp] theorem sendRecs_mem (p : Nat) (s : State) : (s.sendRecs p).mem = s.mem := of_rest_mem (sendRecs_rest p s)
@[simp] theorem sendRecs_links (p : Nat) (s : State) : (s.sendRecs p).links = s.links := of_rest_links (sendRecs_rest p s)
@[simp] theorem sendRecs_ports (p : Nat) (s : State) : (s.sendRecs p).ports = s.ports := of_rest_ports (sendRecs_rest p s)
@[simp] theorem sendRecs_dsp (p : Nat) (s : State) : (s.sendRecs p).dsp = s.dsp := of_rest_dsp (sendRecs_rest p s)
@[simp] theorem sendRecs_fresh (p : Nat) (s : State) : (s.sendRecs p).fresh = s.fresh := of_rest_fresh (sendRecs_rest p s)
@[simp] theorem sendRecs_pending (p : Nat) (s : State) : (s.sendRecs p).pending = s.pending := of_rest_pending (sendRecs_rest p s)
@[simp] theorem sendRecs_jrn (p : Nat) (s : State) : (s.sendRecs p).jrn = s.jrn := by
  unfold State.sendRecs
  split
  · rfl
  · split
    · dsimp only
      rw [foldl_keeps State.jrn _ (fun a b => sendPacket_jrn _ _ _ _ _ _ _ a)]
      rfl
    · rfl
@[simp] theorem sendRecs_raised (p : Nat) (s : State) : (s.sendRecs p).raised = s.raised := by
  unfold State.sendRecs
  split
  · rfl
  · split
    · dsimp only
      rw [foldl_keeps State.raised _ (fun a b => sendPacket_raised _ _ _ _ _ _ _ a)]
      rfl
    · rfl
@[simp] theorem form_rest (p : Nat) (vol : Bool) (ws : List Word) (s : State) : (s.form p vol ws).rest = s.rest := by
  unfold State.form
  dsimp only
  split
  · rfl
  · rw [sendRecs_rest, setPart_rest, putJrn_rest, seal_rest]
@[simp] theorem form_tb (p : Nat) (vol : Bool) (ws : List Word) (s : State) : (s.form p vol ws).tb = s.tb := of_rest_tb (form_rest p vol ws s)
@[simp] theorem form_qs (p : Nat) (vol : Bool) (ws : List Word) (s : State) : (s.form p vol ws).qs = s.qs := of_rest_qs (form_rest p vol ws s)
@[simp] theorem form_shadows (p : Nat) (vol : Bool) (ws : List Word) (s : State) : (s.form p vol ws).shadows = s.shadows := of_rest_shadows (form_rest p vol ws s)
@[simp] theorem form_calFrz (p : Nat) (vol : Bool) (ws : List Word) (s : State) : (s.form p vol ws).calFrz = s.calFrz := of_rest_calFrz (form_rest p vol ws s)
@[simp] theorem form_outs (p : Nat) (vol : Bool) (ws : List Word) (s : State) : (s.form p vol ws).outs = s.outs := of_rest_outs (form_rest p vol ws s)
@[simp] theorem form_clk (p : Nat) (vol : Bool) (ws : List Word) (s : State) : (s.form p vol ws).clk = s.clk := of_rest_clk (form_rest p vol ws s)
@[simp] theorem form_sch (p : Nat) (vol : Bool) (ws : List Word) (s : State) : (s.form p vol ws).sch = s.sch := of_rest_sch (form_rest p vol ws s)
@[simp] theorem form_fc (p : Nat) (vol : Bool) (ws : List Word) (s : State) : (s.form p vol ws).fc = s.fc := of_rest_fc (form_rest p vol ws s)
@[simp] theorem form_stage (p : Nat) (vol : Bool) (ws : List Word) (s : State) : (s.form p vol ws).stage = s.stage := of_rest_stage (form_rest p vol ws s)
@[simp] theorem form_lbal (p : Nat) (vol : Bool) (ws : List Word) (s : State) : (s.form p vol ws).lbal = s.lbal := of_rest_lbal (form_rest p vol ws s)
@[simp] theorem form_rtc (p : Nat) (vol : Bool) (ws : List Word) (s : State) : (s.form p vol ws).rtc = s.rtc := of_rest_rtc (form_rest p vol ws s)
@[simp] theorem form_pwr (p : Nat) (vol : Bool) (ws : List Word) (s : State) : (s.form p vol ws).pwr = s.pwr := of_rest_pwr (form_rest p vol ws s)
@[simp] theorem form_rf (p : Nat) (vol : Bool) (ws : List Word) (s : State) : (s.form p vol ws).rf = s.rf := of_rest_rf (form_rest p vol ws s)
@[simp] theorem form_gale (p : Nat) (vol : Bool) (ws : List Word) (s : State) : (s.form p vol ws).gale = s.gale := of_rest_gale (form_rest p vol ws s)
@[simp] theorem form_kite (p : Nat) (vol : Bool) (ws : List Word) (s : State) : (s.form p vol ws).kite = s.kite := of_rest_kite (form_rest p vol ws s)
@[simp] theorem form_meas (p : Nat) (vol : Bool) (ws : List Word) (s : State) : (s.form p vol ws).meas = s.meas := of_rest_meas (form_rest p vol ws s)
@[simp] theorem form_modes (p : Nat) (vol : Bool) (ws : List Word) (s : State) : (s.form p vol ws).modes = s.modes := of_rest_modes (form_rest p vol ws s)
@[simp] theorem form_mem (p : Nat) (vol : Bool) (ws : List Word) (s : State) : (s.form p vol ws).mem = s.mem := of_rest_mem (form_rest p vol ws s)
@[simp] theorem form_links (p : Nat) (vol : Bool) (ws : List Word) (s : State) : (s.form p vol ws).links = s.links := of_rest_links (form_rest p vol ws s)
@[simp] theorem form_ports (p : Nat) (vol : Bool) (ws : List Word) (s : State) : (s.form p vol ws).ports = s.ports := of_rest_ports (form_rest p vol ws s)
@[simp] theorem form_dsp (p : Nat) (vol : Bool) (ws : List Word) (s : State) : (s.form p vol ws).dsp = s.dsp := of_rest_dsp (form_rest p vol ws s)
@[simp] theorem form_fresh (p : Nat) (vol : Bool) (ws : List Word) (s : State) : (s.form p vol ws).fresh = s.fresh := of_rest_fresh (form_rest p vol ws s)
@[simp] theorem form_pending (p : Nat) (vol : Bool) (ws : List Word) (s : State) : (s.form p vol ws).pending = s.pending := of_rest_pending (form_rest p vol ws s)
@[simp] theorem form_raised (p : Nat) (vol : Bool) (ws : List Word) (s : State) : (s.form p vol ws).raised = s.raised := by
  unfold State.form
  dsimp only
  split
  · rfl
  · rw [sendRecs_raised, setPart_raised, putJrn_raised, seal_raised]
@[simp] theorem jsnCheck_rest (s : State) : (s.jsnCheck).rest = s.rest := by
  unfold State.jsnCheck
  split
  · rw [foldl_keeps State.rest _ (fun a b => form_rest _ _ _ a), putJrn_rest]
  · rfl
@[simp] theorem jsnCheck_raised (s : State) : (s.jsnCheck).raised = s.raised := by
  unfold State.jsnCheck
  split
  · rw [foldl_keeps State.raised _ (fun a b => form_raised _ _ _ a), putJrn_raised]
  · rfl
@[simp] theorem jsnCheck_tb (s : State) : (s.jsnCheck).tb = s.tb := of_rest_tb (jsnCheck_rest s)
@[simp] theorem jsnCheck_qs (s : State) : (s.jsnCheck).qs = s.qs := of_rest_qs (jsnCheck_rest s)
@[simp] theorem jsnCheck_shadows (s : State) : (s.jsnCheck).shadows = s.shadows := of_rest_shadows (jsnCheck_rest s)
@[simp] theorem jsnCheck_calFrz (s : State) : (s.jsnCheck).calFrz = s.calFrz := of_rest_calFrz (jsnCheck_rest s)
@[simp] theorem jsnCheck_outs (s : State) : (s.jsnCheck).outs = s.outs := of_rest_outs (jsnCheck_rest s)
@[simp] theorem jsnCheck_clk (s : State) : (s.jsnCheck).clk = s.clk := of_rest_clk (jsnCheck_rest s)
@[simp] theorem jsnCheck_sch (s : State) : (s.jsnCheck).sch = s.sch := of_rest_sch (jsnCheck_rest s)
@[simp] theorem jsnCheck_fc (s : State) : (s.jsnCheck).fc = s.fc := of_rest_fc (jsnCheck_rest s)
@[simp] theorem jsnCheck_stage (s : State) : (s.jsnCheck).stage = s.stage := of_rest_stage (jsnCheck_rest s)
@[simp] theorem jsnCheck_lbal (s : State) : (s.jsnCheck).lbal = s.lbal := of_rest_lbal (jsnCheck_rest s)
@[simp] theorem jsnCheck_rtc (s : State) : (s.jsnCheck).rtc = s.rtc := of_rest_rtc (jsnCheck_rest s)
@[simp] theorem jsnCheck_pwr (s : State) : (s.jsnCheck).pwr = s.pwr := of_rest_pwr (jsnCheck_rest s)
@[simp] theorem jsnCheck_rf (s : State) : (s.jsnCheck).rf = s.rf := of_rest_rf (jsnCheck_rest s)
@[simp] theorem jsnCheck_gale (s : State) : (s.jsnCheck).gale = s.gale := of_rest_gale (jsnCheck_rest s)
@[simp] theorem jsnCheck_kite (s : State) : (s.jsnCheck).kite = s.kite := of_rest_kite (jsnCheck_rest s)
@[simp] theorem jsnCheck_meas (s : State) : (s.jsnCheck).meas = s.meas := of_rest_meas (jsnCheck_rest s)
@[simp] theorem jsnCheck_modes (s : State) : (s.jsnCheck).modes = s.modes := of_rest_modes (jsnCheck_rest s)
@[simp] theorem jsnCheck_mem (s : State) : (s.jsnCheck).mem = s.mem := of_rest_mem (jsnCheck_rest s)
@[simp] theorem jsnCheck_links (s : State) : (s.jsnCheck).links = s.links := of_rest_links (jsnCheck_rest s)
@[simp] theorem jsnCheck_ports (s : State) : (s.jsnCheck).ports = s.ports := of_rest_ports (jsnCheck_rest s)
@[simp] theorem jsnCheck_dsp (s : State) : (s.jsnCheck).dsp = s.dsp := of_rest_dsp (jsnCheck_rest s)
@[simp] theorem jsnCheck_fresh (s : State) : (s.jsnCheck).fresh = s.fresh := of_rest_fresh (jsnCheck_rest s)
@[simp] theorem jsnCheck_pending (s : State) : (s.jsnCheck).pending = s.pending := of_rest_pending (jsnCheck_rest s)
@[simp] theorem record_rest (p : Nat) (vol : Bool) (ws : List Word) (s : State) : (s.record p vol ws).rest = s.rest := by
  unfold State.record; rw [jsnCheck_rest, form_rest]
@[simp] theorem record_tb (p : Nat) (vol : Bool) (ws : List Word) (s : State) : (s.record p vol ws).tb = s.tb := of_rest_tb (record_rest p vol ws s)
@[simp] theorem record_qs (p : Nat) (vol : Bool) (ws : List Word) (s : State) : (s.record p vol ws).qs = s.qs := of_rest_qs (record_rest p vol ws s)
@[simp] theorem record_shadows (p : Nat) (vol : Bool) (ws : List Word) (s : State) : (s.record p vol ws).shadows = s.shadows := of_rest_shadows (record_rest p vol ws s)
@[simp] theorem record_calFrz (p : Nat) (vol : Bool) (ws : List Word) (s : State) : (s.record p vol ws).calFrz = s.calFrz := of_rest_calFrz (record_rest p vol ws s)
@[simp] theorem record_outs (p : Nat) (vol : Bool) (ws : List Word) (s : State) : (s.record p vol ws).outs = s.outs := of_rest_outs (record_rest p vol ws s)
@[simp] theorem record_clk (p : Nat) (vol : Bool) (ws : List Word) (s : State) : (s.record p vol ws).clk = s.clk := of_rest_clk (record_rest p vol ws s)
@[simp] theorem record_sch (p : Nat) (vol : Bool) (ws : List Word) (s : State) : (s.record p vol ws).sch = s.sch := of_rest_sch (record_rest p vol ws s)
@[simp] theorem record_fc (p : Nat) (vol : Bool) (ws : List Word) (s : State) : (s.record p vol ws).fc = s.fc := of_rest_fc (record_rest p vol ws s)
@[simp] theorem record_stage (p : Nat) (vol : Bool) (ws : List Word) (s : State) : (s.record p vol ws).stage = s.stage := of_rest_stage (record_rest p vol ws s)
@[simp] theorem record_lbal (p : Nat) (vol : Bool) (ws : List Word) (s : State) : (s.record p vol ws).lbal = s.lbal := of_rest_lbal (record_rest p vol ws s)
@[simp] theorem record_rtc (p : Nat) (vol : Bool) (ws : List Word) (s : State) : (s.record p vol ws).rtc = s.rtc := of_rest_rtc (record_rest p vol ws s)
@[simp] theorem record_pwr (p : Nat) (vol : Bool) (ws : List Word) (s : State) : (s.record p vol ws).pwr = s.pwr := of_rest_pwr (record_rest p vol ws s)
@[simp] theorem record_rf (p : Nat) (vol : Bool) (ws : List Word) (s : State) : (s.record p vol ws).rf = s.rf := of_rest_rf (record_rest p vol ws s)
@[simp] theorem record_gale (p : Nat) (vol : Bool) (ws : List Word) (s : State) : (s.record p vol ws).gale = s.gale := of_rest_gale (record_rest p vol ws s)
@[simp] theorem record_kite (p : Nat) (vol : Bool) (ws : List Word) (s : State) : (s.record p vol ws).kite = s.kite := of_rest_kite (record_rest p vol ws s)
@[simp] theorem record_meas (p : Nat) (vol : Bool) (ws : List Word) (s : State) : (s.record p vol ws).meas = s.meas := of_rest_meas (record_rest p vol ws s)
@[simp] theorem record_modes (p : Nat) (vol : Bool) (ws : List Word) (s : State) : (s.record p vol ws).modes = s.modes := of_rest_modes (record_rest p vol ws s)
@[simp] theorem record_mem (p : Nat) (vol : Bool) (ws : List Word) (s : State) : (s.record p vol ws).mem = s.mem := of_rest_mem (record_rest p vol ws s)
@[simp] theorem record_links (p : Nat) (vol : Bool) (ws : List Word) (s : State) : (s.record p vol ws).links = s.links := of_rest_links (record_rest p vol ws s)
@[simp] theorem record_ports (p : Nat) (vol : Bool) (ws : List Word) (s : State) : (s.record p vol ws).ports = s.ports := of_rest_ports (record_rest p vol ws s)
@[simp] theorem record_dsp (p : Nat) (vol : Bool) (ws : List Word) (s : State) : (s.record p vol ws).dsp = s.dsp := of_rest_dsp (record_rest p vol ws s)
@[simp] theorem record_fresh (p : Nat) (vol : Bool) (ws : List Word) (s : State) : (s.record p vol ws).fresh = s.fresh := of_rest_fresh (record_rest p vol ws s)
@[simp] theorem record_pending (p : Nat) (vol : Bool) (ws : List Word) (s : State) : (s.record p vol ws).pending = s.pending := of_rest_pending (record_rest p vol ws s)
@[simp] theorem record_raised (p : Nat) (vol : Bool) (ws : List Word) (s : State) : (s.record p vol ws).raised = s.raised := by
  unfold State.record; rw [jsnCheck_raised, form_raised]
@[simp] theorem sealSystem_rest (c : Nat) (d : List Word) (s : State) : (s.sealSystem c d).rest = s.rest := by
  unfold State.sealSystem; rw [jsnCheck_rest, seal_rest]
@[simp] theorem sealSystem_tb (c : Nat) (d : List Word) (s : State) : (s.sealSystem c d).tb = s.tb := of_rest_tb (sealSystem_rest c d s)
@[simp] theorem sealSystem_qs (c : Nat) (d : List Word) (s : State) : (s.sealSystem c d).qs = s.qs := of_rest_qs (sealSystem_rest c d s)
@[simp] theorem sealSystem_shadows (c : Nat) (d : List Word) (s : State) : (s.sealSystem c d).shadows = s.shadows := of_rest_shadows (sealSystem_rest c d s)
@[simp] theorem sealSystem_calFrz (c : Nat) (d : List Word) (s : State) : (s.sealSystem c d).calFrz = s.calFrz := of_rest_calFrz (sealSystem_rest c d s)
@[simp] theorem sealSystem_outs (c : Nat) (d : List Word) (s : State) : (s.sealSystem c d).outs = s.outs := of_rest_outs (sealSystem_rest c d s)
@[simp] theorem sealSystem_clk (c : Nat) (d : List Word) (s : State) : (s.sealSystem c d).clk = s.clk := of_rest_clk (sealSystem_rest c d s)
@[simp] theorem sealSystem_sch (c : Nat) (d : List Word) (s : State) : (s.sealSystem c d).sch = s.sch := of_rest_sch (sealSystem_rest c d s)
@[simp] theorem sealSystem_fc (c : Nat) (d : List Word) (s : State) : (s.sealSystem c d).fc = s.fc := of_rest_fc (sealSystem_rest c d s)
@[simp] theorem sealSystem_stage (c : Nat) (d : List Word) (s : State) : (s.sealSystem c d).stage = s.stage := of_rest_stage (sealSystem_rest c d s)
@[simp] theorem sealSystem_lbal (c : Nat) (d : List Word) (s : State) : (s.sealSystem c d).lbal = s.lbal := of_rest_lbal (sealSystem_rest c d s)
@[simp] theorem sealSystem_rtc (c : Nat) (d : List Word) (s : State) : (s.sealSystem c d).rtc = s.rtc := of_rest_rtc (sealSystem_rest c d s)
@[simp] theorem sealSystem_pwr (c : Nat) (d : List Word) (s : State) : (s.sealSystem c d).pwr = s.pwr := of_rest_pwr (sealSystem_rest c d s)
@[simp] theorem sealSystem_rf (c : Nat) (d : List Word) (s : State) : (s.sealSystem c d).rf = s.rf := of_rest_rf (sealSystem_rest c d s)
@[simp] theorem sealSystem_gale (c : Nat) (d : List Word) (s : State) : (s.sealSystem c d).gale = s.gale := of_rest_gale (sealSystem_rest c d s)
@[simp] theorem sealSystem_kite (c : Nat) (d : List Word) (s : State) : (s.sealSystem c d).kite = s.kite := of_rest_kite (sealSystem_rest c d s)
@[simp] theorem sealSystem_meas (c : Nat) (d : List Word) (s : State) : (s.sealSystem c d).meas = s.meas := of_rest_meas (sealSystem_rest c d s)
@[simp] theorem sealSystem_modes (c : Nat) (d : List Word) (s : State) : (s.sealSystem c d).modes = s.modes := of_rest_modes (sealSystem_rest c d s)
@[simp] theorem sealSystem_mem (c : Nat) (d : List Word) (s : State) : (s.sealSystem c d).mem = s.mem := of_rest_mem (sealSystem_rest c d s)
@[simp] theorem sealSystem_links (c : Nat) (d : List Word) (s : State) : (s.sealSystem c d).links = s.links := of_rest_links (sealSystem_rest c d s)
@[simp] theorem sealSystem_ports (c : Nat) (d : List Word) (s : State) : (s.sealSystem c d).ports = s.ports := of_rest_ports (sealSystem_rest c d s)
@[simp] theorem sealSystem_dsp (c : Nat) (d : List Word) (s : State) : (s.sealSystem c d).dsp = s.dsp := of_rest_dsp (sealSystem_rest c d s)
@[simp] theorem sealSystem_fresh (c : Nat) (d : List Word) (s : State) : (s.sealSystem c d).fresh = s.fresh := of_rest_fresh (sealSystem_rest c d s)
@[simp] theorem sealSystem_pending (c : Nat) (d : List Word) (s : State) : (s.sealSystem c d).pending = s.pending := of_rest_pending (sealSystem_rest c d s)
@[simp] theorem sealSystem_raised (c : Nat) (d : List Word) (s : State) : (s.sealSystem c d).raised = s.raised := by
  unfold State.sealSystem; rw [jsnCheck_raised, seal_raised]
@[simp] theorem raise_rest (p : Nat) (f : Bool) (c : Nat) (a : List Word) (s : State) : (s.raise p f c a).rest = s.rest := by
  unfold State.raise; exact record_rest _ _ _ _
@[simp] theorem raise_tb (p : Nat) (f : Bool) (c : Nat) (a : List Word) (s : State) : (s.raise p f c a).tb = s.tb := of_rest_tb (raise_rest p f c a s)
@[simp] theorem raise_qs (p : Nat) (f : Bool) (c : Nat) (a : List Word) (s : State) : (s.raise p f c a).qs = s.qs := of_rest_qs (raise_rest p f c a s)
@[simp] theorem raise_shadows (p : Nat) (f : Bool) (c : Nat) (a : List Word) (s : State) : (s.raise p f c a).shadows = s.shadows := of_rest_shadows (raise_rest p f c a s)
@[simp] theorem raise_calFrz (p : Nat) (f : Bool) (c : Nat) (a : List Word) (s : State) : (s.raise p f c a).calFrz = s.calFrz := of_rest_calFrz (raise_rest p f c a s)
@[simp] theorem raise_outs (p : Nat) (f : Bool) (c : Nat) (a : List Word) (s : State) : (s.raise p f c a).outs = s.outs := of_rest_outs (raise_rest p f c a s)
@[simp] theorem raise_clk (p : Nat) (f : Bool) (c : Nat) (a : List Word) (s : State) : (s.raise p f c a).clk = s.clk := of_rest_clk (raise_rest p f c a s)
@[simp] theorem raise_sch (p : Nat) (f : Bool) (c : Nat) (a : List Word) (s : State) : (s.raise p f c a).sch = s.sch := of_rest_sch (raise_rest p f c a s)
@[simp] theorem raise_fc (p : Nat) (f : Bool) (c : Nat) (a : List Word) (s : State) : (s.raise p f c a).fc = s.fc := of_rest_fc (raise_rest p f c a s)
@[simp] theorem raise_stage (p : Nat) (f : Bool) (c : Nat) (a : List Word) (s : State) : (s.raise p f c a).stage = s.stage := of_rest_stage (raise_rest p f c a s)
@[simp] theorem raise_lbal (p : Nat) (f : Bool) (c : Nat) (a : List Word) (s : State) : (s.raise p f c a).lbal = s.lbal := of_rest_lbal (raise_rest p f c a s)
@[simp] theorem raise_rtc (p : Nat) (f : Bool) (c : Nat) (a : List Word) (s : State) : (s.raise p f c a).rtc = s.rtc := of_rest_rtc (raise_rest p f c a s)
@[simp] theorem raise_pwr (p : Nat) (f : Bool) (c : Nat) (a : List Word) (s : State) : (s.raise p f c a).pwr = s.pwr := of_rest_pwr (raise_rest p f c a s)
@[simp] theorem raise_rf (p : Nat) (f : Bool) (c : Nat) (a : List Word) (s : State) : (s.raise p f c a).rf = s.rf := of_rest_rf (raise_rest p f c a s)
@[simp] theorem raise_gale (p : Nat) (f : Bool) (c : Nat) (a : List Word) (s : State) : (s.raise p f c a).gale = s.gale := of_rest_gale (raise_rest p f c a s)
@[simp] theorem raise_kite (p : Nat) (f : Bool) (c : Nat) (a : List Word) (s : State) : (s.raise p f c a).kite = s.kite := of_rest_kite (raise_rest p f c a s)
@[simp] theorem raise_meas (p : Nat) (f : Bool) (c : Nat) (a : List Word) (s : State) : (s.raise p f c a).meas = s.meas := of_rest_meas (raise_rest p f c a s)
@[simp] theorem raise_modes (p : Nat) (f : Bool) (c : Nat) (a : List Word) (s : State) : (s.raise p f c a).modes = s.modes := of_rest_modes (raise_rest p f c a s)
@[simp] theorem raise_mem (p : Nat) (f : Bool) (c : Nat) (a : List Word) (s : State) : (s.raise p f c a).mem = s.mem := of_rest_mem (raise_rest p f c a s)
@[simp] theorem raise_links (p : Nat) (f : Bool) (c : Nat) (a : List Word) (s : State) : (s.raise p f c a).links = s.links := of_rest_links (raise_rest p f c a s)
@[simp] theorem raise_ports (p : Nat) (f : Bool) (c : Nat) (a : List Word) (s : State) : (s.raise p f c a).ports = s.ports := of_rest_ports (raise_rest p f c a s)
@[simp] theorem raise_dsp (p : Nat) (f : Bool) (c : Nat) (a : List Word) (s : State) : (s.raise p f c a).dsp = s.dsp := of_rest_dsp (raise_rest p f c a s)
@[simp] theorem raise_fresh (p : Nat) (f : Bool) (c : Nat) (a : List Word) (s : State) : (s.raise p f c a).fresh = s.fresh := of_rest_fresh (raise_rest p f c a s)
@[simp] theorem raise_pending (p : Nat) (f : Bool) (c : Nat) (a : List Word) (s : State) : (s.raise p f c a).pending = s.pending := of_rest_pending (raise_rest p f c a s)
@[simp] theorem raise_raised (p : Nat) (f : Bool) (c : Nat) (a : List Word) (s : State) : (s.raise p f c a).raised = s.raised := by
  unfold State.raise; exact record_raised _ _ _ _
@[simp] theorem raiseAll_rest (f : Bool) (c : Nat) (a : List Word) (s : State) : (s.raiseAll f c a).rest = s.rest := by
  unfold State.raiseAll; exact foldl_keeps State.rest _ (fun a b => raise_rest _ _ _ _ a) _ _
@[simp] theorem raiseAll_tb (f : Bool) (c : Nat) (a : List Word) (s : State) : (s.raiseAll f c a).tb = s.tb := of_rest_tb (raiseAll_rest f c a s)
@[simp] theorem raiseAll_qs (f : Bool) (c : Nat) (a : List Word) (s : State) : (s.raiseAll f c a).qs = s.qs := of_rest_qs (raiseAll_rest f c a s)
@[simp] theorem raiseAll_shadows (f : Bool) (c : Nat) (a : List Word) (s : State) : (s.raiseAll f c a).shadows = s.shadows := of_rest_shadows (raiseAll_rest f c a s)
@[simp] theorem raiseAll_calFrz (f : Bool) (c : Nat) (a : List Word) (s : State) : (s.raiseAll f c a).calFrz = s.calFrz := of_rest_calFrz (raiseAll_rest f c a s)
@[simp] theorem raiseAll_outs (f : Bool) (c : Nat) (a : List Word) (s : State) : (s.raiseAll f c a).outs = s.outs := of_rest_outs (raiseAll_rest f c a s)
@[simp] theorem raiseAll_clk (f : Bool) (c : Nat) (a : List Word) (s : State) : (s.raiseAll f c a).clk = s.clk := of_rest_clk (raiseAll_rest f c a s)
@[simp] theorem raiseAll_sch (f : Bool) (c : Nat) (a : List Word) (s : State) : (s.raiseAll f c a).sch = s.sch := of_rest_sch (raiseAll_rest f c a s)
@[simp] theorem raiseAll_fc (f : Bool) (c : Nat) (a : List Word) (s : State) : (s.raiseAll f c a).fc = s.fc := of_rest_fc (raiseAll_rest f c a s)
@[simp] theorem raiseAll_stage (f : Bool) (c : Nat) (a : List Word) (s : State) : (s.raiseAll f c a).stage = s.stage := of_rest_stage (raiseAll_rest f c a s)
@[simp] theorem raiseAll_lbal (f : Bool) (c : Nat) (a : List Word) (s : State) : (s.raiseAll f c a).lbal = s.lbal := of_rest_lbal (raiseAll_rest f c a s)
@[simp] theorem raiseAll_rtc (f : Bool) (c : Nat) (a : List Word) (s : State) : (s.raiseAll f c a).rtc = s.rtc := of_rest_rtc (raiseAll_rest f c a s)
@[simp] theorem raiseAll_pwr (f : Bool) (c : Nat) (a : List Word) (s : State) : (s.raiseAll f c a).pwr = s.pwr := of_rest_pwr (raiseAll_rest f c a s)
@[simp] theorem raiseAll_rf (f : Bool) (c : Nat) (a : List Word) (s : State) : (s.raiseAll f c a).rf = s.rf := of_rest_rf (raiseAll_rest f c a s)
@[simp] theorem raiseAll_gale (f : Bool) (c : Nat) (a : List Word) (s : State) : (s.raiseAll f c a).gale = s.gale := of_rest_gale (raiseAll_rest f c a s)
@[simp] theorem raiseAll_kite (f : Bool) (c : Nat) (a : List Word) (s : State) : (s.raiseAll f c a).kite = s.kite := of_rest_kite (raiseAll_rest f c a s)
@[simp] theorem raiseAll_meas (f : Bool) (c : Nat) (a : List Word) (s : State) : (s.raiseAll f c a).meas = s.meas := of_rest_meas (raiseAll_rest f c a s)
@[simp] theorem raiseAll_modes (f : Bool) (c : Nat) (a : List Word) (s : State) : (s.raiseAll f c a).modes = s.modes := of_rest_modes (raiseAll_rest f c a s)
@[simp] theorem raiseAll_mem (f : Bool) (c : Nat) (a : List Word) (s : State) : (s.raiseAll f c a).mem = s.mem := of_rest_mem (raiseAll_rest f c a s)
@[simp] theorem raiseAll_links (f : Bool) (c : Nat) (a : List Word) (s : State) : (s.raiseAll f c a).links = s.links := of_rest_links (raiseAll_rest f c a s)
@[simp] theorem raiseAll_ports (f : Bool) (c : Nat) (a : List Word) (s : State) : (s.raiseAll f c a).ports = s.ports := of_rest_ports (raiseAll_rest f c a s)
@[simp] theorem raiseAll_dsp (f : Bool) (c : Nat) (a : List Word) (s : State) : (s.raiseAll f c a).dsp = s.dsp := of_rest_dsp (raiseAll_rest f c a s)
@[simp] theorem raiseAll_fresh (f : Bool) (c : Nat) (a : List Word) (s : State) : (s.raiseAll f c a).fresh = s.fresh := of_rest_fresh (raiseAll_rest f c a s)
@[simp] theorem raiseAll_pending (f : Bool) (c : Nat) (a : List Word) (s : State) : (s.raiseAll f c a).pending = s.pending := of_rest_pending (raiseAll_rest f c a s)
@[simp] theorem raiseAll_raised (f : Bool) (c : Nat) (a : List Word) (s : State) : (s.raiseAll f c a).raised = s.raised := by
  unfold State.raiseAll; exact foldl_keeps State.raised _ (fun a b => raise_raised _ _ _ _ a) _ _
@[simp] theorem raiseLimited_rest (f : Bool) (c i : Nat) (a : List Word) (s : State) : (s.raiseLimited f c i a).rest = s.rest := by
  unfold State.raiseLimited
  dsimp only
  split
  · split
    · rfl
    · rw [raiseAll_rest, putRaised_rest]
  · rw [raiseAll_rest, putRaised_rest]
@[simp] theorem raiseLimited_tb (f : Bool) (c i : Nat) (a : List Word) (s : State) : (s.raiseLimited f c i a).tb = s.tb := of_rest_tb (raiseLimited_rest f c i a s)
@[simp] theorem raiseLimited_qs (f : Bool) (c i : Nat) (a : List Word) (s : State) : (s.raiseLimited f c i a).qs = s.qs := of_rest_qs (raiseLimited_rest f c i a s)
@[simp] theorem raiseLimited_shadows (f : Bool) (c i : Nat) (a : List Word) (s : State) : (s.raiseLimited f c i a).shadows = s.shadows := of_rest_shadows (raiseLimited_rest f c i a s)
@[simp] theorem raiseLimited_calFrz (f : Bool) (c i : Nat) (a : List Word) (s : State) : (s.raiseLimited f c i a).calFrz = s.calFrz := of_rest_calFrz (raiseLimited_rest f c i a s)
@[simp] theorem raiseLimited_outs (f : Bool) (c i : Nat) (a : List Word) (s : State) : (s.raiseLimited f c i a).outs = s.outs := of_rest_outs (raiseLimited_rest f c i a s)
@[simp] theorem raiseLimited_clk (f : Bool) (c i : Nat) (a : List Word) (s : State) : (s.raiseLimited f c i a).clk = s.clk := of_rest_clk (raiseLimited_rest f c i a s)
@[simp] theorem raiseLimited_sch (f : Bool) (c i : Nat) (a : List Word) (s : State) : (s.raiseLimited f c i a).sch = s.sch := of_rest_sch (raiseLimited_rest f c i a s)
@[simp] theorem raiseLimited_fc (f : Bool) (c i : Nat) (a : List Word) (s : State) : (s.raiseLimited f c i a).fc = s.fc := of_rest_fc (raiseLimited_rest f c i a s)
@[simp] theorem raiseLimited_stage (f : Bool) (c i : Nat) (a : List Word) (s : State) : (s.raiseLimited f c i a).stage = s.stage := of_rest_stage (raiseLimited_rest f c i a s)
@[simp] theorem raiseLimited_lbal (f : Bool) (c i : Nat) (a : List Word) (s : State) : (s.raiseLimited f c i a).lbal = s.lbal := of_rest_lbal (raiseLimited_rest f c i a s)
@[simp] theorem raiseLimited_rtc (f : Bool) (c i : Nat) (a : List Word) (s : State) : (s.raiseLimited f c i a).rtc = s.rtc := of_rest_rtc (raiseLimited_rest f c i a s)
@[simp] theorem raiseLimited_pwr (f : Bool) (c i : Nat) (a : List Word) (s : State) : (s.raiseLimited f c i a).pwr = s.pwr := of_rest_pwr (raiseLimited_rest f c i a s)
@[simp] theorem raiseLimited_rf (f : Bool) (c i : Nat) (a : List Word) (s : State) : (s.raiseLimited f c i a).rf = s.rf := of_rest_rf (raiseLimited_rest f c i a s)
@[simp] theorem raiseLimited_gale (f : Bool) (c i : Nat) (a : List Word) (s : State) : (s.raiseLimited f c i a).gale = s.gale := of_rest_gale (raiseLimited_rest f c i a s)
@[simp] theorem raiseLimited_kite (f : Bool) (c i : Nat) (a : List Word) (s : State) : (s.raiseLimited f c i a).kite = s.kite := of_rest_kite (raiseLimited_rest f c i a s)
@[simp] theorem raiseLimited_meas (f : Bool) (c i : Nat) (a : List Word) (s : State) : (s.raiseLimited f c i a).meas = s.meas := of_rest_meas (raiseLimited_rest f c i a s)
@[simp] theorem raiseLimited_modes (f : Bool) (c i : Nat) (a : List Word) (s : State) : (s.raiseLimited f c i a).modes = s.modes := of_rest_modes (raiseLimited_rest f c i a s)
@[simp] theorem raiseLimited_mem (f : Bool) (c i : Nat) (a : List Word) (s : State) : (s.raiseLimited f c i a).mem = s.mem := of_rest_mem (raiseLimited_rest f c i a s)
@[simp] theorem raiseLimited_links (f : Bool) (c i : Nat) (a : List Word) (s : State) : (s.raiseLimited f c i a).links = s.links := of_rest_links (raiseLimited_rest f c i a s)
@[simp] theorem raiseLimited_ports (f : Bool) (c i : Nat) (a : List Word) (s : State) : (s.raiseLimited f c i a).ports = s.ports := of_rest_ports (raiseLimited_rest f c i a s)
@[simp] theorem raiseLimited_dsp (f : Bool) (c i : Nat) (a : List Word) (s : State) : (s.raiseLimited f c i a).dsp = s.dsp := of_rest_dsp (raiseLimited_rest f c i a s)
@[simp] theorem raiseLimited_fresh (f : Bool) (c i : Nat) (a : List Word) (s : State) : (s.raiseLimited f c i a).fresh = s.fresh := of_rest_fresh (raiseLimited_rest f c i a s)
@[simp] theorem raiseLimited_pending (f : Bool) (c i : Nat) (a : List Word) (s : State) : (s.raiseLimited f c i a).pending = s.pending := of_rest_pending (raiseLimited_rest f c i a s)
@[simp] theorem raiseOwner_rest (p c i : Nat) (a : List Word) (s : State) : (s.raiseOwner p c i a).rest = s.rest := by
  unfold State.raiseOwner
  dsimp only
  split
  · split
    · rfl
    · rw [raise_rest, putRaised_rest]
  · rw [raise_rest, putRaised_rest]
@[simp] theorem raiseOwner_tb (p c i : Nat) (a : List Word) (s : State) : (s.raiseOwner p c i a).tb = s.tb := of_rest_tb (raiseOwner_rest p c i a s)
@[simp] theorem raiseOwner_qs (p c i : Nat) (a : List Word) (s : State) : (s.raiseOwner p c i a).qs = s.qs := of_rest_qs (raiseOwner_rest p c i a s)
@[simp] theorem raiseOwner_shadows (p c i : Nat) (a : List Word) (s : State) : (s.raiseOwner p c i a).shadows = s.shadows := of_rest_shadows (raiseOwner_rest p c i a s)
@[simp] theorem raiseOwner_calFrz (p c i : Nat) (a : List Word) (s : State) : (s.raiseOwner p c i a).calFrz = s.calFrz := of_rest_calFrz (raiseOwner_rest p c i a s)
@[simp] theorem raiseOwner_outs (p c i : Nat) (a : List Word) (s : State) : (s.raiseOwner p c i a).outs = s.outs := of_rest_outs (raiseOwner_rest p c i a s)
@[simp] theorem raiseOwner_clk (p c i : Nat) (a : List Word) (s : State) : (s.raiseOwner p c i a).clk = s.clk := of_rest_clk (raiseOwner_rest p c i a s)
@[simp] theorem raiseOwner_sch (p c i : Nat) (a : List Word) (s : State) : (s.raiseOwner p c i a).sch = s.sch := of_rest_sch (raiseOwner_rest p c i a s)
@[simp] theorem raiseOwner_fc (p c i : Nat) (a : List Word) (s : State) : (s.raiseOwner p c i a).fc = s.fc := of_rest_fc (raiseOwner_rest p c i a s)
@[simp] theorem raiseOwner_stage (p c i : Nat) (a : List Word) (s : State) : (s.raiseOwner p c i a).stage = s.stage := of_rest_stage (raiseOwner_rest p c i a s)
@[simp] theorem raiseOwner_lbal (p c i : Nat) (a : List Word) (s : State) : (s.raiseOwner p c i a).lbal = s.lbal := of_rest_lbal (raiseOwner_rest p c i a s)
@[simp] theorem raiseOwner_rtc (p c i : Nat) (a : List Word) (s : State) : (s.raiseOwner p c i a).rtc = s.rtc := of_rest_rtc (raiseOwner_rest p c i a s)
@[simp] theorem raiseOwner_pwr (p c i : Nat) (a : List Word) (s : State) : (s.raiseOwner p c i a).pwr = s.pwr := of_rest_pwr (raiseOwner_rest p c i a s)
@[simp] theorem raiseOwner_rf (p c i : Nat) (a : List Word) (s : State) : (s.raiseOwner p c i a).rf = s.rf := of_rest_rf (raiseOwner_rest p c i a s)
@[simp] theorem raiseOwner_gale (p c i : Nat) (a : List Word) (s : State) : (s.raiseOwner p c i a).gale = s.gale := of_rest_gale (raiseOwner_rest p c i a s)
@[simp] theorem raiseOwner_kite (p c i : Nat) (a : List Word) (s : State) : (s.raiseOwner p c i a).kite = s.kite := of_rest_kite (raiseOwner_rest p c i a s)
@[simp] theorem raiseOwner_meas (p c i : Nat) (a : List Word) (s : State) : (s.raiseOwner p c i a).meas = s.meas := of_rest_meas (raiseOwner_rest p c i a s)
@[simp] theorem raiseOwner_modes (p c i : Nat) (a : List Word) (s : State) : (s.raiseOwner p c i a).modes = s.modes := of_rest_modes (raiseOwner_rest p c i a s)
@[simp] theorem raiseOwner_mem (p c i : Nat) (a : List Word) (s : State) : (s.raiseOwner p c i a).mem = s.mem := of_rest_mem (raiseOwner_rest p c i a s)
@[simp] theorem raiseOwner_links (p c i : Nat) (a : List Word) (s : State) : (s.raiseOwner p c i a).links = s.links := of_rest_links (raiseOwner_rest p c i a s)
@[simp] theorem raiseOwner_ports (p c i : Nat) (a : List Word) (s : State) : (s.raiseOwner p c i a).ports = s.ports := of_rest_ports (raiseOwner_rest p c i a s)
@[simp] theorem raiseOwner_dsp (p c i : Nat) (a : List Word) (s : State) : (s.raiseOwner p c i a).dsp = s.dsp := of_rest_dsp (raiseOwner_rest p c i a s)
@[simp] theorem raiseOwner_fresh (p c i : Nat) (a : List Word) (s : State) : (s.raiseOwner p c i a).fresh = s.fresh := of_rest_fresh (raiseOwner_rest p c i a s)
@[simp] theorem raiseOwner_pending (p c i : Nat) (a : List Word) (s : State) : (s.raiseOwner p c i a).pending = s.pending := of_rest_pending (raiseOwner_rest p c i a s)
@[simp] theorem recordCounted_rest (p : Nat) (vol : Bool) (ws : List Word) (s : State) : (s.recordCounted p vol ws).rest = s.rest := by
  unfold State.recordCounted; dsimp only; rw [record_rest, putJrn_rest]
@[simp] theorem recordCounted_tb (p : Nat) (vol : Bool) (ws : List Word) (s : State) : (s.recordCounted p vol ws).tb = s.tb := of_rest_tb (recordCounted_rest p vol ws s)
@[simp] theorem recordCounted_qs (p : Nat) (vol : Bool) (ws : List Word) (s : State) : (s.recordCounted p vol ws).qs = s.qs := of_rest_qs (recordCounted_rest p vol ws s)
@[simp] theorem recordCounted_shadows (p : Nat) (vol : Bool) (ws : List Word) (s : State) : (s.recordCounted p vol ws).shadows = s.shadows := of_rest_shadows (recordCounted_rest p vol ws s)
@[simp] theorem recordCounted_calFrz (p : Nat) (vol : Bool) (ws : List Word) (s : State) : (s.recordCounted p vol ws).calFrz = s.calFrz := of_rest_calFrz (recordCounted_rest p vol ws s)
@[simp] theorem recordCounted_outs (p : Nat) (vol : Bool) (ws : List Word) (s : State) : (s.recordCounted p vol ws).outs = s.outs := of_rest_outs (recordCounted_rest p vol ws s)
@[simp] theorem recordCounted_clk (p : Nat) (vol : Bool) (ws : List Word) (s : State) : (s.recordCounted p vol ws).clk = s.clk := of_rest_clk (recordCounted_rest p vol ws s)
@[simp] theorem recordCounted_sch (p : Nat) (vol : Bool) (ws : List Word) (s : State) : (s.recordCounted p vol ws).sch = s.sch := of_rest_sch (recordCounted_rest p vol ws s)
@[simp] theorem recordCounted_fc (p : Nat) (vol : Bool) (ws : List Word) (s : State) : (s.recordCounted p vol ws).fc = s.fc := of_rest_fc (recordCounted_rest p vol ws s)
@[simp] theorem recordCounted_stage (p : Nat) (vol : Bool) (ws : List Word) (s : State) : (s.recordCounted p vol ws).stage = s.stage := of_rest_stage (recordCounted_rest p vol ws s)
@[simp] theorem recordCounted_lbal (p : Nat) (vol : Bool) (ws : List Word) (s : State) : (s.recordCounted p vol ws).lbal = s.lbal := of_rest_lbal (recordCounted_rest p vol ws s)
@[simp] theorem recordCounted_rtc (p : Nat) (vol : Bool) (ws : List Word) (s : State) : (s.recordCounted p vol ws).rtc = s.rtc := of_rest_rtc (recordCounted_rest p vol ws s)
@[simp] theorem recordCounted_pwr (p : Nat) (vol : Bool) (ws : List Word) (s : State) : (s.recordCounted p vol ws).pwr = s.pwr := of_rest_pwr (recordCounted_rest p vol ws s)
@[simp] theorem recordCounted_rf (p : Nat) (vol : Bool) (ws : List Word) (s : State) : (s.recordCounted p vol ws).rf = s.rf := of_rest_rf (recordCounted_rest p vol ws s)
@[simp] theorem recordCounted_gale (p : Nat) (vol : Bool) (ws : List Word) (s : State) : (s.recordCounted p vol ws).gale = s.gale := of_rest_gale (recordCounted_rest p vol ws s)
@[simp] theorem recordCounted_kite (p : Nat) (vol : Bool) (ws : List Word) (s : State) : (s.recordCounted p vol ws).kite = s.kite := of_rest_kite (recordCounted_rest p vol ws s)
@[simp] theorem recordCounted_meas (p : Nat) (vol : Bool) (ws : List Word) (s : State) : (s.recordCounted p vol ws).meas = s.meas := of_rest_meas (recordCounted_rest p vol ws s)
@[simp] theorem recordCounted_modes (p : Nat) (vol : Bool) (ws : List Word) (s : State) : (s.recordCounted p vol ws).modes = s.modes := of_rest_modes (recordCounted_rest p vol ws s)
@[simp] theorem recordCounted_mem (p : Nat) (vol : Bool) (ws : List Word) (s : State) : (s.recordCounted p vol ws).mem = s.mem := of_rest_mem (recordCounted_rest p vol ws s)
@[simp] theorem recordCounted_links (p : Nat) (vol : Bool) (ws : List Word) (s : State) : (s.recordCounted p vol ws).links = s.links := of_rest_links (recordCounted_rest p vol ws s)
@[simp] theorem recordCounted_ports (p : Nat) (vol : Bool) (ws : List Word) (s : State) : (s.recordCounted p vol ws).ports = s.ports := of_rest_ports (recordCounted_rest p vol ws s)
@[simp] theorem recordCounted_dsp (p : Nat) (vol : Bool) (ws : List Word) (s : State) : (s.recordCounted p vol ws).dsp = s.dsp := of_rest_dsp (recordCounted_rest p vol ws s)
@[simp] theorem recordCounted_fresh (p : Nat) (vol : Bool) (ws : List Word) (s : State) : (s.recordCounted p vol ws).fresh = s.fresh := of_rest_fresh (recordCounted_rest p vol ws s)
@[simp] theorem recordCounted_pending (p : Nat) (vol : Bool) (ws : List Word) (s : State) : (s.recordCounted p vol ws).pending = s.pending := of_rest_pending (recordCounted_rest p vol ws s)
@[simp] theorem recordCounted_raised (p : Nat) (vol : Bool) (ws : List Word) (s : State) : (s.recordCounted p vol ws).raised = s.raised := by
  unfold State.recordCounted; dsimp only; rw [record_raised, putJrn_raised]
@[simp] theorem ackEsn_rest (p a : Nat) (s : State) : (s.ackEsn p a).rest = s.rest := by
  unfold State.ackEsn
  dsimp only
  split
  · rfl
  · split
    · split
      · rw [record_rest, setPart_rest, putJrn_rest]
      · rw [setPart_rest, putJrn_rest]
    · rw [setPart_rest, putJrn_rest]
@[simp] theorem ackEsn_tb (p a : Nat) (s : State) : (s.ackEsn p a).tb = s.tb := of_rest_tb (ackEsn_rest p a s)
@[simp] theorem ackEsn_qs (p a : Nat) (s : State) : (s.ackEsn p a).qs = s.qs := of_rest_qs (ackEsn_rest p a s)
@[simp] theorem ackEsn_shadows (p a : Nat) (s : State) : (s.ackEsn p a).shadows = s.shadows := of_rest_shadows (ackEsn_rest p a s)
@[simp] theorem ackEsn_calFrz (p a : Nat) (s : State) : (s.ackEsn p a).calFrz = s.calFrz := of_rest_calFrz (ackEsn_rest p a s)
@[simp] theorem ackEsn_outs (p a : Nat) (s : State) : (s.ackEsn p a).outs = s.outs := of_rest_outs (ackEsn_rest p a s)
@[simp] theorem ackEsn_clk (p a : Nat) (s : State) : (s.ackEsn p a).clk = s.clk := of_rest_clk (ackEsn_rest p a s)
@[simp] theorem ackEsn_sch (p a : Nat) (s : State) : (s.ackEsn p a).sch = s.sch := of_rest_sch (ackEsn_rest p a s)
@[simp] theorem ackEsn_fc (p a : Nat) (s : State) : (s.ackEsn p a).fc = s.fc := of_rest_fc (ackEsn_rest p a s)
@[simp] theorem ackEsn_stage (p a : Nat) (s : State) : (s.ackEsn p a).stage = s.stage := of_rest_stage (ackEsn_rest p a s)
@[simp] theorem ackEsn_lbal (p a : Nat) (s : State) : (s.ackEsn p a).lbal = s.lbal := of_rest_lbal (ackEsn_rest p a s)
@[simp] theorem ackEsn_rtc (p a : Nat) (s : State) : (s.ackEsn p a).rtc = s.rtc := of_rest_rtc (ackEsn_rest p a s)
@[simp] theorem ackEsn_pwr (p a : Nat) (s : State) : (s.ackEsn p a).pwr = s.pwr := of_rest_pwr (ackEsn_rest p a s)
@[simp] theorem ackEsn_rf (p a : Nat) (s : State) : (s.ackEsn p a).rf = s.rf := of_rest_rf (ackEsn_rest p a s)
@[simp] theorem ackEsn_gale (p a : Nat) (s : State) : (s.ackEsn p a).gale = s.gale := of_rest_gale (ackEsn_rest p a s)
@[simp] theorem ackEsn_kite (p a : Nat) (s : State) : (s.ackEsn p a).kite = s.kite := of_rest_kite (ackEsn_rest p a s)
@[simp] theorem ackEsn_meas (p a : Nat) (s : State) : (s.ackEsn p a).meas = s.meas := of_rest_meas (ackEsn_rest p a s)
@[simp] theorem ackEsn_modes (p a : Nat) (s : State) : (s.ackEsn p a).modes = s.modes := of_rest_modes (ackEsn_rest p a s)
@[simp] theorem ackEsn_mem (p a : Nat) (s : State) : (s.ackEsn p a).mem = s.mem := of_rest_mem (ackEsn_rest p a s)
@[simp] theorem ackEsn_links (p a : Nat) (s : State) : (s.ackEsn p a).links = s.links := of_rest_links (ackEsn_rest p a s)
@[simp] theorem ackEsn_ports (p a : Nat) (s : State) : (s.ackEsn p a).ports = s.ports := of_rest_ports (ackEsn_rest p a s)
@[simp] theorem ackEsn_dsp (p a : Nat) (s : State) : (s.ackEsn p a).dsp = s.dsp := of_rest_dsp (ackEsn_rest p a s)
@[simp] theorem ackEsn_fresh (p a : Nat) (s : State) : (s.ackEsn p a).fresh = s.fresh := of_rest_fresh (ackEsn_rest p a s)
@[simp] theorem ackEsn_pending (p a : Nat) (s : State) : (s.ackEsn p a).pending = s.pending := of_rest_pending (ackEsn_rest p a s)
@[simp] theorem resendFrom_rest (p e : Nat) (s : State) : (s.resendFrom p e).rest = s.rest := by
  unfold State.resendFrom; dsimp only; rw [sendRecs_rest, setPart_rest]
@[simp] theorem resendFrom_tb (p e : Nat) (s : State) : (s.resendFrom p e).tb = s.tb := of_rest_tb (resendFrom_rest p e s)
@[simp] theorem resendFrom_qs (p e : Nat) (s : State) : (s.resendFrom p e).qs = s.qs := of_rest_qs (resendFrom_rest p e s)
@[simp] theorem resendFrom_shadows (p e : Nat) (s : State) : (s.resendFrom p e).shadows = s.shadows := of_rest_shadows (resendFrom_rest p e s)
@[simp] theorem resendFrom_calFrz (p e : Nat) (s : State) : (s.resendFrom p e).calFrz = s.calFrz := of_rest_calFrz (resendFrom_rest p e s)
@[simp] theorem resendFrom_outs (p e : Nat) (s : State) : (s.resendFrom p e).outs = s.outs := of_rest_outs (resendFrom_rest p e s)
@[simp] theorem resendFrom_clk (p e : Nat) (s : State) : (s.resendFrom p e).clk = s.clk := of_rest_clk (resendFrom_rest p e s)
@[simp] theorem resendFrom_sch (p e : Nat) (s : State) : (s.resendFrom p e).sch = s.sch := of_rest_sch (resendFrom_rest p e s)
@[simp] theorem resendFrom_fc (p e : Nat) (s : State) : (s.resendFrom p e).fc = s.fc := of_rest_fc (resendFrom_rest p e s)
@[simp] theorem resendFrom_stage (p e : Nat) (s : State) : (s.resendFrom p e).stage = s.stage := of_rest_stage (resendFrom_rest p e s)
@[simp] theorem resendFrom_lbal (p e : Nat) (s : State) : (s.resendFrom p e).lbal = s.lbal := of_rest_lbal (resendFrom_rest p e s)
@[simp] theorem resendFrom_rtc (p e : Nat) (s : State) : (s.resendFrom p e).rtc = s.rtc := of_rest_rtc (resendFrom_rest p e s)
@[simp] theorem resendFrom_pwr (p e : Nat) (s : State) : (s.resendFrom p e).pwr = s.pwr := of_rest_pwr (resendFrom_rest p e s)
@[simp] theorem resendFrom_rf (p e : Nat) (s : State) : (s.resendFrom p e).rf = s.rf := of_rest_rf (resendFrom_rest p e s)
@[simp] theorem resendFrom_gale (p e : Nat) (s : State) : (s.resendFrom p e).gale = s.gale := of_rest_gale (resendFrom_rest p e s)
@[simp] theorem resendFrom_kite (p e : Nat) (s : State) : (s.resendFrom p e).kite = s.kite := of_rest_kite (resendFrom_rest p e s)
@[simp] theorem resendFrom_meas (p e : Nat) (s : State) : (s.resendFrom p e).meas = s.meas := of_rest_meas (resendFrom_rest p e s)
@[simp] theorem resendFrom_modes (p e : Nat) (s : State) : (s.resendFrom p e).modes = s.modes := of_rest_modes (resendFrom_rest p e s)
@[simp] theorem resendFrom_mem (p e : Nat) (s : State) : (s.resendFrom p e).mem = s.mem := of_rest_mem (resendFrom_rest p e s)
@[simp] theorem resendFrom_links (p e : Nat) (s : State) : (s.resendFrom p e).links = s.links := of_rest_links (resendFrom_rest p e s)
@[simp] theorem resendFrom_ports (p e : Nat) (s : State) : (s.resendFrom p e).ports = s.ports := of_rest_ports (resendFrom_rest p e s)
@[simp] theorem resendFrom_dsp (p e : Nat) (s : State) : (s.resendFrom p e).dsp = s.dsp := of_rest_dsp (resendFrom_rest p e s)
@[simp] theorem resendFrom_fresh (p e : Nat) (s : State) : (s.resendFrom p e).fresh = s.fresh := of_rest_fresh (resendFrom_rest p e s)
@[simp] theorem resendFrom_pending (p e : Nat) (s : State) : (s.resendFrom p e).pending = s.pending := of_rest_pending (resendFrom_rest p e s)
@[simp] theorem partFailed_rest (c i : Nat) (s : State) : (s.partFailed c i).rest = s.rest := by
  unfold State.partFailed; rw [sealSystem_rest, raiseAll_rest]
@[simp] theorem partFailed_tb (c i : Nat) (s : State) : (s.partFailed c i).tb = s.tb := of_rest_tb (partFailed_rest c i s)
@[simp] theorem partFailed_qs (c i : Nat) (s : State) : (s.partFailed c i).qs = s.qs := of_rest_qs (partFailed_rest c i s)
@[simp] theorem partFailed_shadows (c i : Nat) (s : State) : (s.partFailed c i).shadows = s.shadows := of_rest_shadows (partFailed_rest c i s)
@[simp] theorem partFailed_calFrz (c i : Nat) (s : State) : (s.partFailed c i).calFrz = s.calFrz := of_rest_calFrz (partFailed_rest c i s)
@[simp] theorem partFailed_outs (c i : Nat) (s : State) : (s.partFailed c i).outs = s.outs := of_rest_outs (partFailed_rest c i s)
@[simp] theorem partFailed_clk (c i : Nat) (s : State) : (s.partFailed c i).clk = s.clk := of_rest_clk (partFailed_rest c i s)
@[simp] theorem partFailed_sch (c i : Nat) (s : State) : (s.partFailed c i).sch = s.sch := of_rest_sch (partFailed_rest c i s)
@[simp] theorem partFailed_fc (c i : Nat) (s : State) : (s.partFailed c i).fc = s.fc := of_rest_fc (partFailed_rest c i s)
@[simp] theorem partFailed_stage (c i : Nat) (s : State) : (s.partFailed c i).stage = s.stage := of_rest_stage (partFailed_rest c i s)
@[simp] theorem partFailed_lbal (c i : Nat) (s : State) : (s.partFailed c i).lbal = s.lbal := of_rest_lbal (partFailed_rest c i s)
@[simp] theorem partFailed_rtc (c i : Nat) (s : State) : (s.partFailed c i).rtc = s.rtc := of_rest_rtc (partFailed_rest c i s)
@[simp] theorem partFailed_pwr (c i : Nat) (s : State) : (s.partFailed c i).pwr = s.pwr := of_rest_pwr (partFailed_rest c i s)
@[simp] theorem partFailed_rf (c i : Nat) (s : State) : (s.partFailed c i).rf = s.rf := of_rest_rf (partFailed_rest c i s)
@[simp] theorem partFailed_gale (c i : Nat) (s : State) : (s.partFailed c i).gale = s.gale := of_rest_gale (partFailed_rest c i s)
@[simp] theorem partFailed_kite (c i : Nat) (s : State) : (s.partFailed c i).kite = s.kite := of_rest_kite (partFailed_rest c i s)
@[simp] theorem partFailed_meas (c i : Nat) (s : State) : (s.partFailed c i).meas = s.meas := of_rest_meas (partFailed_rest c i s)
@[simp] theorem partFailed_modes (c i : Nat) (s : State) : (s.partFailed c i).modes = s.modes := of_rest_modes (partFailed_rest c i s)
@[simp] theorem partFailed_mem (c i : Nat) (s : State) : (s.partFailed c i).mem = s.mem := of_rest_mem (partFailed_rest c i s)
@[simp] theorem partFailed_links (c i : Nat) (s : State) : (s.partFailed c i).links = s.links := of_rest_links (partFailed_rest c i s)
@[simp] theorem partFailed_ports (c i : Nat) (s : State) : (s.partFailed c i).ports = s.ports := of_rest_ports (partFailed_rest c i s)
@[simp] theorem partFailed_dsp (c i : Nat) (s : State) : (s.partFailed c i).dsp = s.dsp := of_rest_dsp (partFailed_rest c i s)
@[simp] theorem partFailed_fresh (c i : Nat) (s : State) : (s.partFailed c i).fresh = s.fresh := of_rest_fresh (partFailed_rest c i s)
@[simp] theorem partFailed_pending (c i : Nat) (s : State) : (s.partFailed c i).pending = s.pending := of_rest_pending (partFailed_rest c i s)
@[simp] theorem partRestored_rest (c i : Nat) (s : State) : (s.partRestored c i).rest = s.rest := by
  unfold State.partRestored; rw [sealSystem_rest, raiseAll_rest]
@[simp] theorem partRestored_tb (c i : Nat) (s : State) : (s.partRestored c i).tb = s.tb := of_rest_tb (partRestored_rest c i s)
@[simp] theorem partRestored_qs (c i : Nat) (s : State) : (s.partRestored c i).qs = s.qs := of_rest_qs (partRestored_rest c i s)
@[simp] theorem partRestored_shadows (c i : Nat) (s : State) : (s.partRestored c i).shadows = s.shadows := of_rest_shadows (partRestored_rest c i s)
@[simp] theorem partRestored_calFrz (c i : Nat) (s : State) : (s.partRestored c i).calFrz = s.calFrz := of_rest_calFrz (partRestored_rest c i s)
@[simp] theorem partRestored_outs (c i : Nat) (s : State) : (s.partRestored c i).outs = s.outs := of_rest_outs (partRestored_rest c i s)
@[simp] theorem partRestored_clk (c i : Nat) (s : State) : (s.partRestored c i).clk = s.clk := of_rest_clk (partRestored_rest c i s)
@[simp] theorem partRestored_sch (c i : Nat) (s : State) : (s.partRestored c i).sch = s.sch := of_rest_sch (partRestored_rest c i s)
@[simp] theorem partRestored_fc (c i : Nat) (s : State) : (s.partRestored c i).fc = s.fc := of_rest_fc (partRestored_rest c i s)
@[simp] theorem partRestored_stage (c i : Nat) (s : State) : (s.partRestored c i).stage = s.stage := of_rest_stage (partRestored_rest c i s)
@[simp] theorem partRestored_lbal (c i : Nat) (s : State) : (s.partRestored c i).lbal = s.lbal := of_rest_lbal (partRestored_rest c i s)
@[simp] theorem partRestored_rtc (c i : Nat) (s : State) : (s.partRestored c i).rtc = s.rtc := of_rest_rtc (partRestored_rest c i s)
@[simp] theorem partRestored_pwr (c i : Nat) (s : State) : (s.partRestored c i).pwr = s.pwr := of_rest_pwr (partRestored_rest c i s)
@[simp] theorem partRestored_rf (c i : Nat) (s : State) : (s.partRestored c i).rf = s.rf := of_rest_rf (partRestored_rest c i s)
@[simp] theorem partRestored_gale (c i : Nat) (s : State) : (s.partRestored c i).gale = s.gale := of_rest_gale (partRestored_rest c i s)
@[simp] theorem partRestored_kite (c i : Nat) (s : State) : (s.partRestored c i).kite = s.kite := of_rest_kite (partRestored_rest c i s)
@[simp] theorem partRestored_meas (c i : Nat) (s : State) : (s.partRestored c i).meas = s.meas := of_rest_meas (partRestored_rest c i s)
@[simp] theorem partRestored_modes (c i : Nat) (s : State) : (s.partRestored c i).modes = s.modes := of_rest_modes (partRestored_rest c i s)
@[simp] theorem partRestored_mem (c i : Nat) (s : State) : (s.partRestored c i).mem = s.mem := of_rest_mem (partRestored_rest c i s)
@[simp] theorem partRestored_links (c i : Nat) (s : State) : (s.partRestored c i).links = s.links := of_rest_links (partRestored_rest c i s)
@[simp] theorem partRestored_ports (c i : Nat) (s : State) : (s.partRestored c i).ports = s.ports := of_rest_ports (partRestored_rest c i s)
@[simp] theorem partRestored_dsp (c i : Nat) (s : State) : (s.partRestored c i).dsp = s.dsp := of_rest_dsp (partRestored_rest c i s)
@[simp] theorem partRestored_fresh (c i : Nat) (s : State) : (s.partRestored c i).fresh = s.fresh := of_rest_fresh (partRestored_rest c i s)
@[simp] theorem partRestored_pending (c i : Nat) (s : State) : (s.partRestored c i).pending = s.pending := of_rest_pending (partRestored_rest c i s)
@[simp] theorem answer_rest (k : Pkt) (h : Option (Bool × Nat)) (st : Status) (g c j : Nat) (ws : List Word) (s : State) : (s.answer k h st g c j ws).rest = s.rest := by
  unfold State.answer; dsimp only; rw [sendPacket_rest]; split <;> rfl
@[simp] theorem answer_tb (k : Pkt) (h : Option (Bool × Nat)) (st : Status) (g c j : Nat) (ws : List Word) (s : State) : (s.answer k h st g c j ws).tb = s.tb := of_rest_tb (answer_rest k h st g c j ws s)
@[simp] theorem answer_qs (k : Pkt) (h : Option (Bool × Nat)) (st : Status) (g c j : Nat) (ws : List Word) (s : State) : (s.answer k h st g c j ws).qs = s.qs := of_rest_qs (answer_rest k h st g c j ws s)
@[simp] theorem answer_shadows (k : Pkt) (h : Option (Bool × Nat)) (st : Status) (g c j : Nat) (ws : List Word) (s : State) : (s.answer k h st g c j ws).shadows = s.shadows := of_rest_shadows (answer_rest k h st g c j ws s)
@[simp] theorem answer_calFrz (k : Pkt) (h : Option (Bool × Nat)) (st : Status) (g c j : Nat) (ws : List Word) (s : State) : (s.answer k h st g c j ws).calFrz = s.calFrz := of_rest_calFrz (answer_rest k h st g c j ws s)
@[simp] theorem answer_outs (k : Pkt) (h : Option (Bool × Nat)) (st : Status) (g c j : Nat) (ws : List Word) (s : State) : (s.answer k h st g c j ws).outs = s.outs := of_rest_outs (answer_rest k h st g c j ws s)
@[simp] theorem answer_clk (k : Pkt) (h : Option (Bool × Nat)) (st : Status) (g c j : Nat) (ws : List Word) (s : State) : (s.answer k h st g c j ws).clk = s.clk := of_rest_clk (answer_rest k h st g c j ws s)
@[simp] theorem answer_sch (k : Pkt) (h : Option (Bool × Nat)) (st : Status) (g c j : Nat) (ws : List Word) (s : State) : (s.answer k h st g c j ws).sch = s.sch := of_rest_sch (answer_rest k h st g c j ws s)
@[simp] theorem answer_fc (k : Pkt) (h : Option (Bool × Nat)) (st : Status) (g c j : Nat) (ws : List Word) (s : State) : (s.answer k h st g c j ws).fc = s.fc := of_rest_fc (answer_rest k h st g c j ws s)
@[simp] theorem answer_stage (k : Pkt) (h : Option (Bool × Nat)) (st : Status) (g c j : Nat) (ws : List Word) (s : State) : (s.answer k h st g c j ws).stage = s.stage := of_rest_stage (answer_rest k h st g c j ws s)
@[simp] theorem answer_lbal (k : Pkt) (h : Option (Bool × Nat)) (st : Status) (g c j : Nat) (ws : List Word) (s : State) : (s.answer k h st g c j ws).lbal = s.lbal := of_rest_lbal (answer_rest k h st g c j ws s)
@[simp] theorem answer_rtc (k : Pkt) (h : Option (Bool × Nat)) (st : Status) (g c j : Nat) (ws : List Word) (s : State) : (s.answer k h st g c j ws).rtc = s.rtc := of_rest_rtc (answer_rest k h st g c j ws s)
@[simp] theorem answer_pwr (k : Pkt) (h : Option (Bool × Nat)) (st : Status) (g c j : Nat) (ws : List Word) (s : State) : (s.answer k h st g c j ws).pwr = s.pwr := of_rest_pwr (answer_rest k h st g c j ws s)
@[simp] theorem answer_rf (k : Pkt) (h : Option (Bool × Nat)) (st : Status) (g c j : Nat) (ws : List Word) (s : State) : (s.answer k h st g c j ws).rf = s.rf := of_rest_rf (answer_rest k h st g c j ws s)
@[simp] theorem answer_gale (k : Pkt) (h : Option (Bool × Nat)) (st : Status) (g c j : Nat) (ws : List Word) (s : State) : (s.answer k h st g c j ws).gale = s.gale := of_rest_gale (answer_rest k h st g c j ws s)
@[simp] theorem answer_kite (k : Pkt) (h : Option (Bool × Nat)) (st : Status) (g c j : Nat) (ws : List Word) (s : State) : (s.answer k h st g c j ws).kite = s.kite := of_rest_kite (answer_rest k h st g c j ws s)
@[simp] theorem answer_meas (k : Pkt) (h : Option (Bool × Nat)) (st : Status) (g c j : Nat) (ws : List Word) (s : State) : (s.answer k h st g c j ws).meas = s.meas := of_rest_meas (answer_rest k h st g c j ws s)
@[simp] theorem answer_modes (k : Pkt) (h : Option (Bool × Nat)) (st : Status) (g c j : Nat) (ws : List Word) (s : State) : (s.answer k h st g c j ws).modes = s.modes := of_rest_modes (answer_rest k h st g c j ws s)
@[simp] theorem answer_mem (k : Pkt) (h : Option (Bool × Nat)) (st : Status) (g c j : Nat) (ws : List Word) (s : State) : (s.answer k h st g c j ws).mem = s.mem := of_rest_mem (answer_rest k h st g c j ws s)
@[simp] theorem answer_links (k : Pkt) (h : Option (Bool × Nat)) (st : Status) (g c j : Nat) (ws : List Word) (s : State) : (s.answer k h st g c j ws).links = s.links := of_rest_links (answer_rest k h st g c j ws s)
@[simp] theorem answer_ports (k : Pkt) (h : Option (Bool × Nat)) (st : Status) (g c j : Nat) (ws : List Word) (s : State) : (s.answer k h st g c j ws).ports = s.ports := of_rest_ports (answer_rest k h st g c j ws s)
@[simp] theorem answer_dsp (k : Pkt) (h : Option (Bool × Nat)) (st : Status) (g c j : Nat) (ws : List Word) (s : State) : (s.answer k h st g c j ws).dsp = s.dsp := of_rest_dsp (answer_rest k h st g c j ws s)
@[simp] theorem answer_fresh (k : Pkt) (h : Option (Bool × Nat)) (st : Status) (g c j : Nat) (ws : List Word) (s : State) : (s.answer k h st g c j ws).fresh = s.fresh := of_rest_fresh (answer_rest k h st g c j ws s)
@[simp] theorem answer_pending (k : Pkt) (h : Option (Bool × Nat)) (st : Status) (g c j : Nat) (ws : List Word) (s : State) : (s.answer k h st g c j ws).pending = s.pending := of_rest_pending (answer_rest k h st g c j ws s)
@[simp] theorem answer_jrn (k : Pkt) (h : Option (Bool × Nat)) (st : Status) (g c j : Nat) (ws : List Word) (s : State) : (s.answer k h st g c j ws).jrn = s.jrn := by
  unfold State.answer; dsimp only; rw [sendPacket_jrn]; split <;> rfl
@[simp] theorem early_rest (k : Pkt) (st : Status) (ws : List Word) (s : State) : (s.early k st ws).rest = s.rest := by
  unfold State.early; dsimp only; rw [answer_rest]
@[simp] theorem early_tb (k : Pkt) (st : Status) (ws : List Word) (s : State) : (s.early k st ws).tb = s.tb := of_rest_tb (early_rest k st ws s)
@[simp] theorem early_qs (k : Pkt) (st : Status) (ws : List Word) (s : State) : (s.early k st ws).qs = s.qs := of_rest_qs (early_rest k st ws s)
@[simp] theorem early_shadows (k : Pkt) (st : Status) (ws : List Word) (s : State) : (s.early k st ws).shadows = s.shadows := of_rest_shadows (early_rest k st ws s)
@[simp] theorem early_calFrz (k : Pkt) (st : Status) (ws : List Word) (s : State) : (s.early k st ws).calFrz = s.calFrz := of_rest_calFrz (early_rest k st ws s)
@[simp] theorem early_outs (k : Pkt) (st : Status) (ws : List Word) (s : State) : (s.early k st ws).outs = s.outs := of_rest_outs (early_rest k st ws s)
@[simp] theorem early_clk (k : Pkt) (st : Status) (ws : List Word) (s : State) : (s.early k st ws).clk = s.clk := of_rest_clk (early_rest k st ws s)
@[simp] theorem early_sch (k : Pkt) (st : Status) (ws : List Word) (s : State) : (s.early k st ws).sch = s.sch := of_rest_sch (early_rest k st ws s)
@[simp] theorem early_fc (k : Pkt) (st : Status) (ws : List Word) (s : State) : (s.early k st ws).fc = s.fc := of_rest_fc (early_rest k st ws s)
@[simp] theorem early_stage (k : Pkt) (st : Status) (ws : List Word) (s : State) : (s.early k st ws).stage = s.stage := of_rest_stage (early_rest k st ws s)
@[simp] theorem early_lbal (k : Pkt) (st : Status) (ws : List Word) (s : State) : (s.early k st ws).lbal = s.lbal := of_rest_lbal (early_rest k st ws s)
@[simp] theorem early_rtc (k : Pkt) (st : Status) (ws : List Word) (s : State) : (s.early k st ws).rtc = s.rtc := of_rest_rtc (early_rest k st ws s)
@[simp] theorem early_pwr (k : Pkt) (st : Status) (ws : List Word) (s : State) : (s.early k st ws).pwr = s.pwr := of_rest_pwr (early_rest k st ws s)
@[simp] theorem early_rf (k : Pkt) (st : Status) (ws : List Word) (s : State) : (s.early k st ws).rf = s.rf := of_rest_rf (early_rest k st ws s)
@[simp] theorem early_gale (k : Pkt) (st : Status) (ws : List Word) (s : State) : (s.early k st ws).gale = s.gale := of_rest_gale (early_rest k st ws s)
@[simp] theorem early_kite (k : Pkt) (st : Status) (ws : List Word) (s : State) : (s.early k st ws).kite = s.kite := of_rest_kite (early_rest k st ws s)
@[simp] theorem early_meas (k : Pkt) (st : Status) (ws : List Word) (s : State) : (s.early k st ws).meas = s.meas := of_rest_meas (early_rest k st ws s)
@[simp] theorem early_modes (k : Pkt) (st : Status) (ws : List Word) (s : State) : (s.early k st ws).modes = s.modes := of_rest_modes (early_rest k st ws s)
@[simp] theorem early_mem (k : Pkt) (st : Status) (ws : List Word) (s : State) : (s.early k st ws).mem = s.mem := of_rest_mem (early_rest k st ws s)
@[simp] theorem early_links (k : Pkt) (st : Status) (ws : List Word) (s : State) : (s.early k st ws).links = s.links := of_rest_links (early_rest k st ws s)
@[simp] theorem early_ports (k : Pkt) (st : Status) (ws : List Word) (s : State) : (s.early k st ws).ports = s.ports := of_rest_ports (early_rest k st ws s)
@[simp] theorem early_dsp (k : Pkt) (st : Status) (ws : List Word) (s : State) : (s.early k st ws).dsp = s.dsp := of_rest_dsp (early_rest k st ws s)
@[simp] theorem early_fresh (k : Pkt) (st : Status) (ws : List Word) (s : State) : (s.early k st ws).fresh = s.fresh := of_rest_fresh (early_rest k st ws s)
@[simp] theorem early_pending (k : Pkt) (st : Status) (ws : List Word) (s : State) : (s.early k st ws).pending = s.pending := of_rest_pending (early_rest k st ws s)
@[simp] theorem early_jrn (k : Pkt) (st : Status) (ws : List Word) (s : State) : (s.early k st ws).jrn = s.jrn := by
  unfold State.early; dsimp only; rw [answer_jrn]
@[simp] theorem consume_rest (o : Option OpSpec) (k : Pkt) (v : Verdict) (s : State) : (s.consume o k v).rest = s.rest := by
  unfold State.consume; dsimp only; rw [setPart_rest]; split <;> simp
@[simp] theorem consume_tb (o : Option OpSpec) (k : Pkt) (v : Verdict) (s : State) : (s.consume o k v).tb = s.tb := of_rest_tb (consume_rest o k v s)
@[simp] theorem consume_qs (o : Option OpSpec) (k : Pkt) (v : Verdict) (s : State) : (s.consume o k v).qs = s.qs := of_rest_qs (consume_rest o k v s)
@[simp] theorem consume_shadows (o : Option OpSpec) (k : Pkt) (v : Verdict) (s : State) : (s.consume o k v).shadows = s.shadows := of_rest_shadows (consume_rest o k v s)
@[simp] theorem consume_calFrz (o : Option OpSpec) (k : Pkt) (v : Verdict) (s : State) : (s.consume o k v).calFrz = s.calFrz := of_rest_calFrz (consume_rest o k v s)
@[simp] theorem consume_outs (o : Option OpSpec) (k : Pkt) (v : Verdict) (s : State) : (s.consume o k v).outs = s.outs := of_rest_outs (consume_rest o k v s)
@[simp] theorem consume_clk (o : Option OpSpec) (k : Pkt) (v : Verdict) (s : State) : (s.consume o k v).clk = s.clk := of_rest_clk (consume_rest o k v s)
@[simp] theorem consume_sch (o : Option OpSpec) (k : Pkt) (v : Verdict) (s : State) : (s.consume o k v).sch = s.sch := of_rest_sch (consume_rest o k v s)
@[simp] theorem consume_fc (o : Option OpSpec) (k : Pkt) (v : Verdict) (s : State) : (s.consume o k v).fc = s.fc := of_rest_fc (consume_rest o k v s)
@[simp] theorem consume_stage (o : Option OpSpec) (k : Pkt) (v : Verdict) (s : State) : (s.consume o k v).stage = s.stage := of_rest_stage (consume_rest o k v s)
@[simp] theorem consume_lbal (o : Option OpSpec) (k : Pkt) (v : Verdict) (s : State) : (s.consume o k v).lbal = s.lbal := of_rest_lbal (consume_rest o k v s)
@[simp] theorem consume_rtc (o : Option OpSpec) (k : Pkt) (v : Verdict) (s : State) : (s.consume o k v).rtc = s.rtc := of_rest_rtc (consume_rest o k v s)
@[simp] theorem consume_pwr (o : Option OpSpec) (k : Pkt) (v : Verdict) (s : State) : (s.consume o k v).pwr = s.pwr := of_rest_pwr (consume_rest o k v s)
@[simp] theorem consume_rf (o : Option OpSpec) (k : Pkt) (v : Verdict) (s : State) : (s.consume o k v).rf = s.rf := of_rest_rf (consume_rest o k v s)
@[simp] theorem consume_gale (o : Option OpSpec) (k : Pkt) (v : Verdict) (s : State) : (s.consume o k v).gale = s.gale := of_rest_gale (consume_rest o k v s)
@[simp] theorem consume_kite (o : Option OpSpec) (k : Pkt) (v : Verdict) (s : State) : (s.consume o k v).kite = s.kite := of_rest_kite (consume_rest o k v s)
@[simp] theorem consume_meas (o : Option OpSpec) (k : Pkt) (v : Verdict) (s : State) : (s.consume o k v).meas = s.meas := of_rest_meas (consume_rest o k v s)
@[simp] theorem consume_modes (o : Option OpSpec) (k : Pkt) (v : Verdict) (s : State) : (s.consume o k v).modes = s.modes := of_rest_modes (consume_rest o k v s)
@[simp] theorem consume_mem (o : Option OpSpec) (k : Pkt) (v : Verdict) (s : State) : (s.consume o k v).mem = s.mem := of_rest_mem (consume_rest o k v s)
@[simp] theorem consume_links (o : Option OpSpec) (k : Pkt) (v : Verdict) (s : State) : (s.consume o k v).links = s.links := of_rest_links (consume_rest o k v s)
@[simp] theorem consume_ports (o : Option OpSpec) (k : Pkt) (v : Verdict) (s : State) : (s.consume o k v).ports = s.ports := of_rest_ports (consume_rest o k v s)
@[simp] theorem consume_dsp (o : Option OpSpec) (k : Pkt) (v : Verdict) (s : State) : (s.consume o k v).dsp = s.dsp := of_rest_dsp (consume_rest o k v s)
@[simp] theorem consume_fresh (o : Option OpSpec) (k : Pkt) (v : Verdict) (s : State) : (s.consume o k v).fresh = s.fresh := of_rest_fresh (consume_rest o k v s)
@[simp] theorem consume_pending (o : Option OpSpec) (k : Pkt) (v : Verdict) (s : State) : (s.consume o k v).pending = s.pending := of_rest_pending (consume_rest o k v s)
@[simp] theorem consume_host (o : Option OpSpec) (k : Pkt) (v : Verdict) (s : State) : (s.consume o k v).host = s.host := by
  unfold State.consume; dsimp only; rw [setPart_host]; split <;> simp
@[simp] theorem consume_wire (o : Option OpSpec) (k : Pkt) (v : Verdict) (s : State) : (s.consume o k v).wire = s.wire := by
  unfold State.consume; dsimp only; rw [setPart_wire]; split <;> simp
@[simp] theorem consume_raised (o : Option OpSpec) (k : Pkt) (v : Verdict) (s : State) : (s.consume o k v).raised = s.raised := by
  unfold State.consume; dsimp only; rw [setPart_raised]; split <;> simp
@[simp] theorem replyNew_rest (k : Pkt) (h : Option (Bool × Nat)) (v : Verdict) (j : Nat) (s : State) : (s.replyNew k h v j).rest = s.rest := by
  unfold State.replyNew; dsimp only; rw [jsnCheck_rest, answer_rest, setPart_rest]
@[simp] theorem replyNew_tb (k : Pkt) (h : Option (Bool × Nat)) (v : Verdict) (j : Nat) (s : State) : (s.replyNew k h v j).tb = s.tb := of_rest_tb (replyNew_rest k h v j s)
@[simp] theorem replyNew_qs (k : Pkt) (h : Option (Bool × Nat)) (v : Verdict) (j : Nat) (s : State) : (s.replyNew k h v j).qs = s.qs := of_rest_qs (replyNew_rest k h v j s)
@[simp] theorem replyNew_shadows (k : Pkt) (h : Option (Bool × Nat)) (v : Verdict) (j : Nat) (s : State) : (s.replyNew k h v j).shadows = s.shadows := of_rest_shadows (replyNew_rest k h v j s)
@[simp] theorem replyNew_calFrz (k : Pkt) (h : Option (Bool × Nat)) (v : Verdict) (j : Nat) (s : State) : (s.replyNew k h v j).calFrz = s.calFrz := of_rest_calFrz (replyNew_rest k h v j s)
@[simp] theorem replyNew_outs (k : Pkt) (h : Option (Bool × Nat)) (v : Verdict) (j : Nat) (s : State) : (s.replyNew k h v j).outs = s.outs := of_rest_outs (replyNew_rest k h v j s)
@[simp] theorem replyNew_clk (k : Pkt) (h : Option (Bool × Nat)) (v : Verdict) (j : Nat) (s : State) : (s.replyNew k h v j).clk = s.clk := of_rest_clk (replyNew_rest k h v j s)
@[simp] theorem replyNew_sch (k : Pkt) (h : Option (Bool × Nat)) (v : Verdict) (j : Nat) (s : State) : (s.replyNew k h v j).sch = s.sch := of_rest_sch (replyNew_rest k h v j s)
@[simp] theorem replyNew_fc (k : Pkt) (h : Option (Bool × Nat)) (v : Verdict) (j : Nat) (s : State) : (s.replyNew k h v j).fc = s.fc := of_rest_fc (replyNew_rest k h v j s)
@[simp] theorem replyNew_stage (k : Pkt) (h : Option (Bool × Nat)) (v : Verdict) (j : Nat) (s : State) : (s.replyNew k h v j).stage = s.stage := of_rest_stage (replyNew_rest k h v j s)
@[simp] theorem replyNew_lbal (k : Pkt) (h : Option (Bool × Nat)) (v : Verdict) (j : Nat) (s : State) : (s.replyNew k h v j).lbal = s.lbal := of_rest_lbal (replyNew_rest k h v j s)
@[simp] theorem replyNew_rtc (k : Pkt) (h : Option (Bool × Nat)) (v : Verdict) (j : Nat) (s : State) : (s.replyNew k h v j).rtc = s.rtc := of_rest_rtc (replyNew_rest k h v j s)
@[simp] theorem replyNew_pwr (k : Pkt) (h : Option (Bool × Nat)) (v : Verdict) (j : Nat) (s : State) : (s.replyNew k h v j).pwr = s.pwr := of_rest_pwr (replyNew_rest k h v j s)
@[simp] theorem replyNew_rf (k : Pkt) (h : Option (Bool × Nat)) (v : Verdict) (j : Nat) (s : State) : (s.replyNew k h v j).rf = s.rf := of_rest_rf (replyNew_rest k h v j s)
@[simp] theorem replyNew_gale (k : Pkt) (h : Option (Bool × Nat)) (v : Verdict) (j : Nat) (s : State) : (s.replyNew k h v j).gale = s.gale := of_rest_gale (replyNew_rest k h v j s)
@[simp] theorem replyNew_kite (k : Pkt) (h : Option (Bool × Nat)) (v : Verdict) (j : Nat) (s : State) : (s.replyNew k h v j).kite = s.kite := of_rest_kite (replyNew_rest k h v j s)
@[simp] theorem replyNew_meas (k : Pkt) (h : Option (Bool × Nat)) (v : Verdict) (j : Nat) (s : State) : (s.replyNew k h v j).meas = s.meas := of_rest_meas (replyNew_rest k h v j s)
@[simp] theorem replyNew_modes (k : Pkt) (h : Option (Bool × Nat)) (v : Verdict) (j : Nat) (s : State) : (s.replyNew k h v j).modes = s.modes := of_rest_modes (replyNew_rest k h v j s)
@[simp] theorem replyNew_mem (k : Pkt) (h : Option (Bool × Nat)) (v : Verdict) (j : Nat) (s : State) : (s.replyNew k h v j).mem = s.mem := of_rest_mem (replyNew_rest k h v j s)
@[simp] theorem replyNew_links (k : Pkt) (h : Option (Bool × Nat)) (v : Verdict) (j : Nat) (s : State) : (s.replyNew k h v j).links = s.links := of_rest_links (replyNew_rest k h v j s)
@[simp] theorem replyNew_ports (k : Pkt) (h : Option (Bool × Nat)) (v : Verdict) (j : Nat) (s : State) : (s.replyNew k h v j).ports = s.ports := of_rest_ports (replyNew_rest k h v j s)
@[simp] theorem replyNew_dsp (k : Pkt) (h : Option (Bool × Nat)) (v : Verdict) (j : Nat) (s : State) : (s.replyNew k h v j).dsp = s.dsp := of_rest_dsp (replyNew_rest k h v j s)
@[simp] theorem replyNew_fresh (k : Pkt) (h : Option (Bool × Nat)) (v : Verdict) (j : Nat) (s : State) : (s.replyNew k h v j).fresh = s.fresh := of_rest_fresh (replyNew_rest k h v j s)
@[simp] theorem replyNew_pending (k : Pkt) (h : Option (Bool × Nat)) (v : Verdict) (j : Nat) (s : State) : (s.replyNew k h v j).pending = s.pending := of_rest_pending (replyNew_rest k h v j s)
theorem setPart_view {γ : Type} (v : Partner → γ) (s : State) (p : Nat) (x : Partner) (h : v x = v (s.part p)) (q : Nat) : v ((s.setPart p x).part q) = v (s.part q) := by
  by_cases hq : q = p
  · subst hq; rw [part_setPart]; exact h
  · rw [part_setPart_ne _ _ _ _ hq]
theorem sendRecs_view {γ : Type} (v : Partner → γ) (h : ∀ (x : Partner) (e : Stream), v { x with ev := e } = v x) (p : Nat) (s : State) (q : Nat) : v ((s.sendRecs p).part q) = v (s.part q) := by
  unfold State.sendRecs
  split
  · rfl
  · split
    · dsimp only
      rw [part_congr (foldl_keeps State.parts _ (fun a b => sendPacket_parts _ _ _ _ _ _ _ a) _ _)]
      exact setPart_view v s p _ (h _ _) q
    · rfl
theorem form_view {γ : Type} (v : Partner → γ) (h : ∀ (x : Partner) (e : Stream), v { x with ev := e } = v x) (p : Nat) (vol : Bool) (ws : List Word) (s : State) (q : Nat) : v ((s.form p vol ws).part q) = v (s.part q) := by
  unfold State.form
  dsimp only
  split
  · rfl
  · rw [sendRecs_view v h, setPart_view v]
    · rw [part_putJrn, seal_part]
    · rw [part_putJrn, seal_part, h]
theorem jsnCheck_view {γ : Type} (v : Partner → γ) (h : ∀ (x : Partner) (e : Stream), v { x with ev := e } = v x) (s : State) (q : Nat) : v (s.jsnCheck.part q) = v (s.part q) := by
  unfold State.jsnCheck; split
  · rw [foldl_keeps (fun t : State => v (t.part q)) _ (fun a _ => form_view v h _ _ _ a q), part_putJrn]
  · rfl
theorem record_view {γ : Type} (v : Partner → γ) (h : ∀ (x : Partner) (e : Stream), v { x with ev := e } = v x) (p : Nat) (vol : Bool) (ws : List Word) (s : State) (q : Nat) : v ((s.record p vol ws).part q) = v (s.part q) := by
  unfold State.record; rw [jsnCheck_view v h, form_view v h]
theorem sealSystem_view {γ : Type} (v : Partner → γ) (h : ∀ (x : Partner) (e : Stream), v { x with ev := e } = v x) (c : Nat) (d : List Word) (s : State) (q : Nat) : v ((s.sealSystem c d).part q) = v (s.part q) := by
  unfold State.sealSystem; rw [jsnCheck_view v h, seal_part]
theorem raiseAll_view {γ : Type} (v : Partner → γ) (h : ∀ (x : Partner) (e : Stream), v { x with ev := e } = v x) (f : Bool) (c : Nat) (a : List Word) (s : State) (q : Nat) : v ((s.raiseAll f c a).part q) = v (s.part q) := by
  unfold State.raiseAll State.raise
  exact foldl_keeps (fun t : State => v (t.part q)) _ (fun a _ => record_view v h _ _ _ a q) _ _
theorem raiseLimited_view {γ : Type} (v : Partner → γ) (h : ∀ (x : Partner) (e : Stream), v { x with ev := e } = v x) (f : Bool) (c i : Nat) (a : List Word) (s : State) (q : Nat) : v ((s.raiseLimited f c i a).part q) = v (s.part q) := by
  unfold State.raiseLimited; dsimp only; split
  · split
    · rfl
    · rw [raiseAll_view v h, part_putRaised]
  · rw [raiseAll_view v h, part_putRaised]
theorem raiseOwner_view {γ : Type} (v : Partner → γ) (h : ∀ (x : Partner) (e : Stream), v { x with ev := e } = v x) (p c i : Nat) (a : List Word) (s : State) (q : Nat) : v ((s.raiseOwner p c i a).part q) = v (s.part q) := by
  unfold State.raiseOwner State.raise; dsimp only; split
  · split
    · rfl
    · rw [record_view v h, part_putRaised]
  · rw [record_view v h, part_putRaised]
theorem ackEsn_view {γ : Type} (v : Partner → γ) (h : ∀ (x : Partner) (e : Stream), v { x with ev := e } = v x) (p a : Nat) (s : State) (q : Nat) : v ((s.ackEsn p a).part q) = v (s.part q) := by
  unfold State.ackEsn; dsimp only; split
  · rfl
  · split
    · split
      · rw [record_view v h]; refine (setPart_view v _ p _ ?_ q).trans ?_
        · rw [part_putJrn]; exact h _ _
        · rw [part_putJrn]
      · refine (setPart_view v _ p _ ?_ q).trans ?_
        · rw [part_putJrn]; exact h _ _
        · rw [part_putJrn]
    · refine (setPart_view v _ p _ ?_ q).trans ?_
      · rw [part_putJrn]; exact h _ _
      · rw [part_putJrn]
theorem resendFrom_view {γ : Type} (v : Partner → γ) (h : ∀ (x : Partner) (e : Stream), v { x with ev := e } = v x) (p e : Nat) (s : State) (q : Nat) : v ((s.resendFrom p e).part q) = v (s.part q) := by
  unfold State.resendFrom; dsimp only; rw [sendRecs_view v h]; exact setPart_view v _ p _ (h _ _) q
@[simp] theorem sendRecs_part_rights (p : Nat) (s : State) (q : Nat) : ((s.sendRecs p).part q).rights = (s.part q).rights := sendRecs_view (fun x : Partner => x.rights) (fun _ _ => rfl) p s q
@[simp] theorem record_part_rights (p : Nat) (vol : Bool) (ws : List Word) (s : State) (q : Nat) : ((s.record p vol ws).part q).rights = (s.part q).rights := record_view (fun x : Partner => x.rights) (fun _ _ => rfl) p vol ws s q
@[simp] theorem sealSystem_part_rights (c : Nat) (d : List Word) (s : State) (q : Nat) : ((s.sealSystem c d).part q).rights = (s.part q).rights := sealSystem_view (fun x : Partner => x.rights) (fun _ _ => rfl) c d s q
@[simp] theorem raise_part_rights (p : Nat) (f : Bool) (c : Nat) (w : List Word) (s : State) (q : Nat) : ((s.raise p f c w).part q).rights = (s.part q).rights := record_view (fun x : Partner => x.rights) (fun _ _ => rfl) p false _ s q
@[simp] theorem raiseAll_part_rights (f : Bool) (c : Nat) (w : List Word) (s : State) (q : Nat) : ((s.raiseAll f c w).part q).rights = (s.part q).rights := raiseAll_view (fun x : Partner => x.rights) (fun _ _ => rfl) f c w s q
@[simp] theorem raiseLimited_part_rights (f : Bool) (c i : Nat) (w : List Word) (s : State) (q : Nat) : ((s.raiseLimited f c i w).part q).rights = (s.part q).rights := raiseLimited_view (fun x : Partner => x.rights) (fun _ _ => rfl) f c i w s q
@[simp] theorem raiseOwner_part_rights (p c i : Nat) (w : List Word) (s : State) (q : Nat) : ((s.raiseOwner p c i w).part q).rights = (s.part q).rights := raiseOwner_view (fun x : Partner => x.rights) (fun _ _ => rfl) p c i w s q
@[simp] theorem ackEsn_part_rights (p e : Nat) (s : State) (q : Nat) : ((s.ackEsn p e).part q).rights = (s.part q).rights := ackEsn_view (fun x : Partner => x.rights) (fun _ _ => rfl) p e s q
@[simp] theorem resendFrom_part_rights (p e : Nat) (s : State) (q : Nat) : ((s.resendFrom p e).part q).rights = (s.part q).rights := resendFrom_view (fun x : Partner => x.rights) (fun _ _ => rfl) p e s q
@[simp] theorem jsnCheck_part_rights (s : State) (q : Nat) : ((s.jsnCheck).part q).rights = (s.part q).rights := jsnCheck_view (fun x : Partner => x.rights) (fun _ _ => rfl) s q
@[simp] theorem recordCounted_part_rights (p : Nat) (vol : Bool) (ws : List Word) (s : State) (q : Nat) : ((s.recordCounted p vol ws).part q).rights = (s.part q).rights := by
  unfold State.recordCounted; dsimp only; rw [record_part_rights, part_putJrn]
@[simp] theorem partFailed_part_rights (c i : Nat) (s : State) (q : Nat) : ((s.partFailed c i).part q).rights = (s.part q).rights := by unfold State.partFailed; rw [sealSystem_part_rights, raiseAll_part_rights]
@[simp] theorem partRestored_part_rights (c i : Nat) (s : State) (q : Nat) : ((s.partRestored c i).part q).rights = (s.part q).rights := by unfold State.partRestored; rw [sealSystem_part_rights, raiseAll_part_rights]
@[simp] theorem sendRecs_part_authReq (p : Nat) (s : State) (q : Nat) : ((s.sendRecs p).part q).authReq = (s.part q).authReq := sendRecs_view (fun x : Partner => x.authReq) (fun _ _ => rfl) p s q
@[simp] theorem record_part_authReq (p : Nat) (vol : Bool) (ws : List Word) (s : State) (q : Nat) : ((s.record p vol ws).part q).authReq = (s.part q).authReq := record_view (fun x : Partner => x.authReq) (fun _ _ => rfl) p vol ws s q
@[simp] theorem sealSystem_part_authReq (c : Nat) (d : List Word) (s : State) (q : Nat) : ((s.sealSystem c d).part q).authReq = (s.part q).authReq := sealSystem_view (fun x : Partner => x.authReq) (fun _ _ => rfl) c d s q
@[simp] theorem raise_part_authReq (p : Nat) (f : Bool) (c : Nat) (w : List Word) (s : State) (q : Nat) : ((s.raise p f c w).part q).authReq = (s.part q).authReq := record_view (fun x : Partner => x.authReq) (fun _ _ => rfl) p false _ s q
@[simp] theorem raiseAll_part_authReq (f : Bool) (c : Nat) (w : List Word) (s : State) (q : Nat) : ((s.raiseAll f c w).part q).authReq = (s.part q).authReq := raiseAll_view (fun x : Partner => x.authReq) (fun _ _ => rfl) f c w s q
@[simp] theorem raiseLimited_part_authReq (f : Bool) (c i : Nat) (w : List Word) (s : State) (q : Nat) : ((s.raiseLimited f c i w).part q).authReq = (s.part q).authReq := raiseLimited_view (fun x : Partner => x.authReq) (fun _ _ => rfl) f c i w s q
@[simp] theorem raiseOwner_part_authReq (p c i : Nat) (w : List Word) (s : State) (q : Nat) : ((s.raiseOwner p c i w).part q).authReq = (s.part q).authReq := raiseOwner_view (fun x : Partner => x.authReq) (fun _ _ => rfl) p c i w s q
@[simp] theorem ackEsn_part_authReq (p e : Nat) (s : State) (q : Nat) : ((s.ackEsn p e).part q).authReq = (s.part q).authReq := ackEsn_view (fun x : Partner => x.authReq) (fun _ _ => rfl) p e s q
@[simp] theorem resendFrom_part_authReq (p e : Nat) (s : State) (q : Nat) : ((s.resendFrom p e).part q).authReq = (s.part q).authReq := resendFrom_view (fun x : Partner => x.authReq) (fun _ _ => rfl) p e s q
@[simp] theorem jsnCheck_part_authReq (s : State) (q : Nat) : ((s.jsnCheck).part q).authReq = (s.part q).authReq := jsnCheck_view (fun x : Partner => x.authReq) (fun _ _ => rfl) s q
@[simp] theorem recordCounted_part_authReq (p : Nat) (vol : Bool) (ws : List Word) (s : State) (q : Nat) : ((s.recordCounted p vol ws).part q).authReq = (s.part q).authReq := by
  unfold State.recordCounted; dsimp only; rw [record_part_authReq, part_putJrn]
@[simp] theorem partFailed_part_authReq (c i : Nat) (s : State) (q : Nat) : ((s.partFailed c i).part q).authReq = (s.part q).authReq := by unfold State.partFailed; rw [sealSystem_part_authReq, raiseAll_part_authReq]
@[simp] theorem partRestored_part_authReq (c i : Nat) (s : State) (q : Nat) : ((s.partRestored c i).part q).authReq = (s.part q).authReq := by unfold State.partRestored; rw [sealSystem_part_authReq, raiseAll_part_authReq]
@[simp] theorem sendRecs_part_key (p : Nat) (s : State) (q : Nat) : ((s.sendRecs p).part q).key = (s.part q).key := sendRecs_view (fun x : Partner => x.key) (fun _ _ => rfl) p s q
@[simp] theorem record_part_key (p : Nat) (vol : Bool) (ws : List Word) (s : State) (q : Nat) : ((s.record p vol ws).part q).key = (s.part q).key := record_view (fun x : Partner => x.key) (fun _ _ => rfl) p vol ws s q
@[simp] theorem sealSystem_part_key (c : Nat) (d : List Word) (s : State) (q : Nat) : ((s.sealSystem c d).part q).key = (s.part q).key := sealSystem_view (fun x : Partner => x.key) (fun _ _ => rfl) c d s q
@[simp] theorem raise_part_key (p : Nat) (f : Bool) (c : Nat) (w : List Word) (s : State) (q : Nat) : ((s.raise p f c w).part q).key = (s.part q).key := record_view (fun x : Partner => x.key) (fun _ _ => rfl) p false _ s q
@[simp] theorem raiseAll_part_key (f : Bool) (c : Nat) (w : List Word) (s : State) (q : Nat) : ((s.raiseAll f c w).part q).key = (s.part q).key := raiseAll_view (fun x : Partner => x.key) (fun _ _ => rfl) f c w s q
@[simp] theorem raiseLimited_part_key (f : Bool) (c i : Nat) (w : List Word) (s : State) (q : Nat) : ((s.raiseLimited f c i w).part q).key = (s.part q).key := raiseLimited_view (fun x : Partner => x.key) (fun _ _ => rfl) f c i w s q
@[simp] theorem raiseOwner_part_key (p c i : Nat) (w : List Word) (s : State) (q : Nat) : ((s.raiseOwner p c i w).part q).key = (s.part q).key := raiseOwner_view (fun x : Partner => x.key) (fun _ _ => rfl) p c i w s q
@[simp] theorem ackEsn_part_key (p e : Nat) (s : State) (q : Nat) : ((s.ackEsn p e).part q).key = (s.part q).key := ackEsn_view (fun x : Partner => x.key) (fun _ _ => rfl) p e s q
@[simp] theorem resendFrom_part_key (p e : Nat) (s : State) (q : Nat) : ((s.resendFrom p e).part q).key = (s.part q).key := resendFrom_view (fun x : Partner => x.key) (fun _ _ => rfl) p e s q
@[simp] theorem jsnCheck_part_key (s : State) (q : Nat) : ((s.jsnCheck).part q).key = (s.part q).key := jsnCheck_view (fun x : Partner => x.key) (fun _ _ => rfl) s q
@[simp] theorem recordCounted_part_key (p : Nat) (vol : Bool) (ws : List Word) (s : State) (q : Nat) : ((s.recordCounted p vol ws).part q).key = (s.part q).key := by
  unfold State.recordCounted; dsimp only; rw [record_part_key, part_putJrn]
@[simp] theorem partFailed_part_key (c i : Nat) (s : State) (q : Nat) : ((s.partFailed c i).part q).key = (s.part q).key := by unfold State.partFailed; rw [sealSystem_part_key, raiseAll_part_key]
@[simp] theorem partRestored_part_key (c i : Nat) (s : State) (q : Nat) : ((s.partRestored c i).part q).key = (s.part q).key := by unfold State.partRestored; rw [sealSystem_part_key, raiseAll_part_key]
@[simp] theorem sendRecs_part_lseq (p : Nat) (s : State) (q : Nat) : ((s.sendRecs p).part q).lseq = (s.part q).lseq := sendRecs_view (fun x : Partner => x.lseq) (fun _ _ => rfl) p s q
@[simp] theorem record_part_lseq (p : Nat) (vol : Bool) (ws : List Word) (s : State) (q : Nat) : ((s.record p vol ws).part q).lseq = (s.part q).lseq := record_view (fun x : Partner => x.lseq) (fun _ _ => rfl) p vol ws s q
@[simp] theorem sealSystem_part_lseq (c : Nat) (d : List Word) (s : State) (q : Nat) : ((s.sealSystem c d).part q).lseq = (s.part q).lseq := sealSystem_view (fun x : Partner => x.lseq) (fun _ _ => rfl) c d s q
@[simp] theorem raise_part_lseq (p : Nat) (f : Bool) (c : Nat) (w : List Word) (s : State) (q : Nat) : ((s.raise p f c w).part q).lseq = (s.part q).lseq := record_view (fun x : Partner => x.lseq) (fun _ _ => rfl) p false _ s q
@[simp] theorem raiseAll_part_lseq (f : Bool) (c : Nat) (w : List Word) (s : State) (q : Nat) : ((s.raiseAll f c w).part q).lseq = (s.part q).lseq := raiseAll_view (fun x : Partner => x.lseq) (fun _ _ => rfl) f c w s q
@[simp] theorem raiseLimited_part_lseq (f : Bool) (c i : Nat) (w : List Word) (s : State) (q : Nat) : ((s.raiseLimited f c i w).part q).lseq = (s.part q).lseq := raiseLimited_view (fun x : Partner => x.lseq) (fun _ _ => rfl) f c i w s q
@[simp] theorem raiseOwner_part_lseq (p c i : Nat) (w : List Word) (s : State) (q : Nat) : ((s.raiseOwner p c i w).part q).lseq = (s.part q).lseq := raiseOwner_view (fun x : Partner => x.lseq) (fun _ _ => rfl) p c i w s q
@[simp] theorem ackEsn_part_lseq (p e : Nat) (s : State) (q : Nat) : ((s.ackEsn p e).part q).lseq = (s.part q).lseq := ackEsn_view (fun x : Partner => x.lseq) (fun _ _ => rfl) p e s q
@[simp] theorem resendFrom_part_lseq (p e : Nat) (s : State) (q : Nat) : ((s.resendFrom p e).part q).lseq = (s.part q).lseq := resendFrom_view (fun x : Partner => x.lseq) (fun _ _ => rfl) p e s q
@[simp] theorem jsnCheck_part_lseq (s : State) (q : Nat) : ((s.jsnCheck).part q).lseq = (s.part q).lseq := jsnCheck_view (fun x : Partner => x.lseq) (fun _ _ => rfl) s q
@[simp] theorem recordCounted_part_lseq (p : Nat) (vol : Bool) (ws : List Word) (s : State) (q : Nat) : ((s.recordCounted p vol ws).part q).lseq = (s.part q).lseq := by
  unfold State.recordCounted; dsimp only; rw [record_part_lseq, part_putJrn]
@[simp] theorem partFailed_part_lseq (c i : Nat) (s : State) (q : Nat) : ((s.partFailed c i).part q).lseq = (s.part q).lseq := by unfold State.partFailed; rw [sealSystem_part_lseq, raiseAll_part_lseq]
@[simp] theorem partRestored_part_lseq (c i : Nat) (s : State) (q : Nat) : ((s.partRestored c i).part q).lseq = (s.part q).lseq := by unfold State.partRestored; rw [sealSystem_part_lseq, raiseAll_part_lseq]
@[simp] theorem sendRecs_part_hnonce (p : Nat) (s : State) (q : Nat) : ((s.sendRecs p).part q).hnonce = (s.part q).hnonce := sendRecs_view (fun x : Partner => x.hnonce) (fun _ _ => rfl) p s q
@[simp] theorem record_part_hnonce (p : Nat) (vol : Bool) (ws : List Word) (s : State) (q : Nat) : ((s.record p vol ws).part q).hnonce = (s.part q).hnonce := record_view (fun x : Partner => x.hnonce) (fun _ _ => rfl) p vol ws s q
@[simp] theorem sealSystem_part_hnonce (c : Nat) (d : List Word) (s : State) (q : Nat) : ((s.sealSystem c d).part q).hnonce = (s.part q).hnonce := sealSystem_view (fun x : Partner => x.hnonce) (fun _ _ => rfl) c d s q
@[simp] theorem raise_part_hnonce (p : Nat) (f : Bool) (c : Nat) (w : List Word) (s : State) (q : Nat) : ((s.raise p f c w).part q).hnonce = (s.part q).hnonce := record_view (fun x : Partner => x.hnonce) (fun _ _ => rfl) p false _ s q
@[simp] theorem raiseAll_part_hnonce (f : Bool) (c : Nat) (w : List Word) (s : State) (q : Nat) : ((s.raiseAll f c w).part q).hnonce = (s.part q).hnonce := raiseAll_view (fun x : Partner => x.hnonce) (fun _ _ => rfl) f c w s q
@[simp] theorem raiseLimited_part_hnonce (f : Bool) (c i : Nat) (w : List Word) (s : State) (q : Nat) : ((s.raiseLimited f c i w).part q).hnonce = (s.part q).hnonce := raiseLimited_view (fun x : Partner => x.hnonce) (fun _ _ => rfl) f c i w s q
@[simp] theorem raiseOwner_part_hnonce (p c i : Nat) (w : List Word) (s : State) (q : Nat) : ((s.raiseOwner p c i w).part q).hnonce = (s.part q).hnonce := raiseOwner_view (fun x : Partner => x.hnonce) (fun _ _ => rfl) p c i w s q
@[simp] theorem ackEsn_part_hnonce (p e : Nat) (s : State) (q : Nat) : ((s.ackEsn p e).part q).hnonce = (s.part q).hnonce := ackEsn_view (fun x : Partner => x.hnonce) (fun _ _ => rfl) p e s q
@[simp] theorem resendFrom_part_hnonce (p e : Nat) (s : State) (q : Nat) : ((s.resendFrom p e).part q).hnonce = (s.part q).hnonce := resendFrom_view (fun x : Partner => x.hnonce) (fun _ _ => rfl) p e s q
@[simp] theorem jsnCheck_part_hnonce (s : State) (q : Nat) : ((s.jsnCheck).part q).hnonce = (s.part q).hnonce := jsnCheck_view (fun x : Partner => x.hnonce) (fun _ _ => rfl) s q
@[simp] theorem recordCounted_part_hnonce (p : Nat) (vol : Bool) (ws : List Word) (s : State) (q : Nat) : ((s.recordCounted p vol ws).part q).hnonce = (s.part q).hnonce := by
  unfold State.recordCounted; dsimp only; rw [record_part_hnonce, part_putJrn]
@[simp] theorem partFailed_part_hnonce (c i : Nat) (s : State) (q : Nat) : ((s.partFailed c i).part q).hnonce = (s.part q).hnonce := by unfold State.partFailed; rw [sealSystem_part_hnonce, raiseAll_part_hnonce]
@[simp] theorem partRestored_part_hnonce (c i : Nat) (s : State) (q : Nat) : ((s.partRestored c i).part q).hnonce = (s.part q).hnonce := by unfold State.partRestored; rw [sealSystem_part_hnonce, raiseAll_part_hnonce]
@[simp] theorem sendRecs_part_bind (p : Nat) (s : State) (q : Nat) : ((s.sendRecs p).part q).bind = (s.part q).bind := sendRecs_view (fun x : Partner => x.bind) (fun _ _ => rfl) p s q
@[simp] theorem record_part_bind (p : Nat) (vol : Bool) (ws : List Word) (s : State) (q : Nat) : ((s.record p vol ws).part q).bind = (s.part q).bind := record_view (fun x : Partner => x.bind) (fun _ _ => rfl) p vol ws s q
@[simp] theorem sealSystem_part_bind (c : Nat) (d : List Word) (s : State) (q : Nat) : ((s.sealSystem c d).part q).bind = (s.part q).bind := sealSystem_view (fun x : Partner => x.bind) (fun _ _ => rfl) c d s q
@[simp] theorem raise_part_bind (p : Nat) (f : Bool) (c : Nat) (w : List Word) (s : State) (q : Nat) : ((s.raise p f c w).part q).bind = (s.part q).bind := record_view (fun x : Partner => x.bind) (fun _ _ => rfl) p false _ s q
@[simp] theorem raiseAll_part_bind (f : Bool) (c : Nat) (w : List Word) (s : State) (q : Nat) : ((s.raiseAll f c w).part q).bind = (s.part q).bind := raiseAll_view (fun x : Partner => x.bind) (fun _ _ => rfl) f c w s q
@[simp] theorem raiseLimited_part_bind (f : Bool) (c i : Nat) (w : List Word) (s : State) (q : Nat) : ((s.raiseLimited f c i w).part q).bind = (s.part q).bind := raiseLimited_view (fun x : Partner => x.bind) (fun _ _ => rfl) f c i w s q
@[simp] theorem raiseOwner_part_bind (p c i : Nat) (w : List Word) (s : State) (q : Nat) : ((s.raiseOwner p c i w).part q).bind = (s.part q).bind := raiseOwner_view (fun x : Partner => x.bind) (fun _ _ => rfl) p c i w s q
@[simp] theorem ackEsn_part_bind (p e : Nat) (s : State) (q : Nat) : ((s.ackEsn p e).part q).bind = (s.part q).bind := ackEsn_view (fun x : Partner => x.bind) (fun _ _ => rfl) p e s q
@[simp] theorem resendFrom_part_bind (p e : Nat) (s : State) (q : Nat) : ((s.resendFrom p e).part q).bind = (s.part q).bind := resendFrom_view (fun x : Partner => x.bind) (fun _ _ => rfl) p e s q
@[simp] theorem jsnCheck_part_bind (s : State) (q : Nat) : ((s.jsnCheck).part q).bind = (s.part q).bind := jsnCheck_view (fun x : Partner => x.bind) (fun _ _ => rfl) s q
@[simp] theorem recordCounted_part_bind (p : Nat) (vol : Bool) (ws : List Word) (s : State) (q : Nat) : ((s.recordCounted p vol ws).part q).bind = (s.part q).bind := by
  unfold State.recordCounted; dsimp only; rw [record_part_bind, part_putJrn]
@[simp] theorem partFailed_part_bind (c i : Nat) (s : State) (q : Nat) : ((s.partFailed c i).part q).bind = (s.part q).bind := by unfold State.partFailed; rw [sealSystem_part_bind, raiseAll_part_bind]
@[simp] theorem partRestored_part_bind (c i : Nat) (s : State) (q : Nat) : ((s.partRestored c i).part q).bind = (s.part q).bind := by unfold State.partRestored; rw [sealSystem_part_bind, raiseAll_part_bind]
@[simp] theorem sendRecs_part_cntAuth (p : Nat) (s : State) (q : Nat) : ((s.sendRecs p).part q).cntAuth = (s.part q).cntAuth := sendRecs_view (fun x : Partner => x.cntAuth) (fun _ _ => rfl) p s q
@[simp] theorem record_part_cntAuth (p : Nat) (vol : Bool) (ws : List Word) (s : State) (q : Nat) : ((s.record p vol ws).part q).cntAuth = (s.part q).cntAuth := record_view (fun x : Partner => x.cntAuth) (fun _ _ => rfl) p vol ws s q
@[simp] theorem sealSystem_part_cntAuth (c : Nat) (d : List Word) (s : State) (q : Nat) : ((s.sealSystem c d).part q).cntAuth = (s.part q).cntAuth := sealSystem_view (fun x : Partner => x.cntAuth) (fun _ _ => rfl) c d s q
@[simp] theorem raise_part_cntAuth (p : Nat) (f : Bool) (c : Nat) (w : List Word) (s : State) (q : Nat) : ((s.raise p f c w).part q).cntAuth = (s.part q).cntAuth := record_view (fun x : Partner => x.cntAuth) (fun _ _ => rfl) p false _ s q
@[simp] theorem raiseAll_part_cntAuth (f : Bool) (c : Nat) (w : List Word) (s : State) (q : Nat) : ((s.raiseAll f c w).part q).cntAuth = (s.part q).cntAuth := raiseAll_view (fun x : Partner => x.cntAuth) (fun _ _ => rfl) f c w s q
@[simp] theorem raiseLimited_part_cntAuth (f : Bool) (c i : Nat) (w : List Word) (s : State) (q : Nat) : ((s.raiseLimited f c i w).part q).cntAuth = (s.part q).cntAuth := raiseLimited_view (fun x : Partner => x.cntAuth) (fun _ _ => rfl) f c i w s q
@[simp] theorem raiseOwner_part_cntAuth (p c i : Nat) (w : List Word) (s : State) (q : Nat) : ((s.raiseOwner p c i w).part q).cntAuth = (s.part q).cntAuth := raiseOwner_view (fun x : Partner => x.cntAuth) (fun _ _ => rfl) p c i w s q
@[simp] theorem ackEsn_part_cntAuth (p e : Nat) (s : State) (q : Nat) : ((s.ackEsn p e).part q).cntAuth = (s.part q).cntAuth := ackEsn_view (fun x : Partner => x.cntAuth) (fun _ _ => rfl) p e s q
@[simp] theorem resendFrom_part_cntAuth (p e : Nat) (s : State) (q : Nat) : ((s.resendFrom p e).part q).cntAuth = (s.part q).cntAuth := resendFrom_view (fun x : Partner => x.cntAuth) (fun _ _ => rfl) p e s q
@[simp] theorem jsnCheck_part_cntAuth (s : State) (q : Nat) : ((s.jsnCheck).part q).cntAuth = (s.part q).cntAuth := jsnCheck_view (fun x : Partner => x.cntAuth) (fun _ _ => rfl) s q
@[simp] theorem recordCounted_part_cntAuth (p : Nat) (vol : Bool) (ws : List Word) (s : State) (q : Nat) : ((s.recordCounted p vol ws).part q).cntAuth = (s.part q).cntAuth := by
  unfold State.recordCounted; dsimp only; rw [record_part_cntAuth, part_putJrn]
@[simp] theorem partFailed_part_cntAuth (c i : Nat) (s : State) (q : Nat) : ((s.partFailed c i).part q).cntAuth = (s.part q).cntAuth := by unfold State.partFailed; rw [sealSystem_part_cntAuth, raiseAll_part_cntAuth]
@[simp] theorem partRestored_part_cntAuth (c i : Nat) (s : State) (q : Nat) : ((s.partRestored c i).part q).cntAuth = (s.part q).cntAuth := by unfold State.partRestored; rw [sealSystem_part_cntAuth, raiseAll_part_cntAuth]
@[simp] theorem sendRecs_part_cntCheck (p : Nat) (s : State) (q : Nat) : ((s.sendRecs p).part q).cntCheck = (s.part q).cntCheck := sendRecs_view (fun x : Partner => x.cntCheck) (fun _ _ => rfl) p s q
@[simp] theorem record_part_cntCheck (p : Nat) (vol : Bool) (ws : List Word) (s : State) (q : Nat) : ((s.record p vol ws).part q).cntCheck = (s.part q).cntCheck := record_view (fun x : Partner => x.cntCheck) (fun _ _ => rfl) p vol ws s q
@[simp] theorem sealSystem_part_cntCheck (c : Nat) (d : List Word) (s : State) (q : Nat) : ((s.sealSystem c d).part q).cntCheck = (s.part q).cntCheck := sealSystem_view (fun x : Partner => x.cntCheck) (fun _ _ => rfl) c d s q
@[simp] theorem raise_part_cntCheck (p : Nat) (f : Bool) (c : Nat) (w : List Word) (s : State) (q : Nat) : ((s.raise p f c w).part q).cntCheck = (s.part q).cntCheck := record_view (fun x : Partner => x.cntCheck) (fun _ _ => rfl) p false _ s q
@[simp] theorem raiseAll_part_cntCheck (f : Bool) (c : Nat) (w : List Word) (s : State) (q : Nat) : ((s.raiseAll f c w).part q).cntCheck = (s.part q).cntCheck := raiseAll_view (fun x : Partner => x.cntCheck) (fun _ _ => rfl) f c w s q
@[simp] theorem raiseLimited_part_cntCheck (f : Bool) (c i : Nat) (w : List Word) (s : State) (q : Nat) : ((s.raiseLimited f c i w).part q).cntCheck = (s.part q).cntCheck := raiseLimited_view (fun x : Partner => x.cntCheck) (fun _ _ => rfl) f c i w s q
@[simp] theorem raiseOwner_part_cntCheck (p c i : Nat) (w : List Word) (s : State) (q : Nat) : ((s.raiseOwner p c i w).part q).cntCheck = (s.part q).cntCheck := raiseOwner_view (fun x : Partner => x.cntCheck) (fun _ _ => rfl) p c i w s q
@[simp] theorem ackEsn_part_cntCheck (p e : Nat) (s : State) (q : Nat) : ((s.ackEsn p e).part q).cntCheck = (s.part q).cntCheck := ackEsn_view (fun x : Partner => x.cntCheck) (fun _ _ => rfl) p e s q
@[simp] theorem resendFrom_part_cntCheck (p e : Nat) (s : State) (q : Nat) : ((s.resendFrom p e).part q).cntCheck = (s.part q).cntCheck := resendFrom_view (fun x : Partner => x.cntCheck) (fun _ _ => rfl) p e s q
@[simp] theorem jsnCheck_part_cntCheck (s : State) (q : Nat) : ((s.jsnCheck).part q).cntCheck = (s.part q).cntCheck := jsnCheck_view (fun x : Partner => x.cntCheck) (fun _ _ => rfl) s q
@[simp] theorem recordCounted_part_cntCheck (p : Nat) (vol : Bool) (ws : List Word) (s : State) (q : Nat) : ((s.recordCounted p vol ws).part q).cntCheck = (s.part q).cntCheck := by
  unfold State.recordCounted; dsimp only; rw [record_part_cntCheck, part_putJrn]
@[simp] theorem partFailed_part_cntCheck (c i : Nat) (s : State) (q : Nat) : ((s.partFailed c i).part q).cntCheck = (s.part q).cntCheck := by unfold State.partFailed; rw [sealSystem_part_cntCheck, raiseAll_part_cntCheck]
@[simp] theorem partRestored_part_cntCheck (c i : Nat) (s : State) (q : Nat) : ((s.partRestored c i).part q).cntCheck = (s.part q).cntCheck := by unfold State.partRestored; rw [sealSystem_part_cntCheck, raiseAll_part_cntCheck]
@[simp] theorem sendRecs_part_cntGap (p : Nat) (s : State) (q : Nat) : ((s.sendRecs p).part q).cntGap = (s.part q).cntGap := sendRecs_view (fun x : Partner => x.cntGap) (fun _ _ => rfl) p s q
@[simp] theorem record_part_cntGap (p : Nat) (vol : Bool) (ws : List Word) (s : State) (q : Nat) : ((s.record p vol ws).part q).cntGap = (s.part q).cntGap := record_view (fun x : Partner => x.cntGap) (fun _ _ => rfl) p vol ws s q
@[simp] theorem sealSystem_part_cntGap (c : Nat) (d : List Word) (s : State) (q : Nat) : ((s.sealSystem c d).part q).cntGap = (s.part q).cntGap := sealSystem_view (fun x : Partner => x.cntGap) (fun _ _ => rfl) c d s q
@[simp] theorem raise_part_cntGap (p : Nat) (f : Bool) (c : Nat) (w : List Word) (s : State) (q : Nat) : ((s.raise p f c w).part q).cntGap = (s.part q).cntGap := record_view (fun x : Partner => x.cntGap) (fun _ _ => rfl) p false _ s q
@[simp] theorem raiseAll_part_cntGap (f : Bool) (c : Nat) (w : List Word) (s : State) (q : Nat) : ((s.raiseAll f c w).part q).cntGap = (s.part q).cntGap := raiseAll_view (fun x : Partner => x.cntGap) (fun _ _ => rfl) f c w s q
@[simp] theorem raiseLimited_part_cntGap (f : Bool) (c i : Nat) (w : List Word) (s : State) (q : Nat) : ((s.raiseLimited f c i w).part q).cntGap = (s.part q).cntGap := raiseLimited_view (fun x : Partner => x.cntGap) (fun _ _ => rfl) f c i w s q
@[simp] theorem raiseOwner_part_cntGap (p c i : Nat) (w : List Word) (s : State) (q : Nat) : ((s.raiseOwner p c i w).part q).cntGap = (s.part q).cntGap := raiseOwner_view (fun x : Partner => x.cntGap) (fun _ _ => rfl) p c i w s q
@[simp] theorem ackEsn_part_cntGap (p e : Nat) (s : State) (q : Nat) : ((s.ackEsn p e).part q).cntGap = (s.part q).cntGap := ackEsn_view (fun x : Partner => x.cntGap) (fun _ _ => rfl) p e s q
@[simp] theorem resendFrom_part_cntGap (p e : Nat) (s : State) (q : Nat) : ((s.resendFrom p e).part q).cntGap = (s.part q).cntGap := resendFrom_view (fun x : Partner => x.cntGap) (fun _ _ => rfl) p e s q
@[simp] theorem jsnCheck_part_cntGap (s : State) (q : Nat) : ((s.jsnCheck).part q).cntGap = (s.part q).cntGap := jsnCheck_view (fun x : Partner => x.cntGap) (fun _ _ => rfl) s q
@[simp] theorem recordCounted_part_cntGap (p : Nat) (vol : Bool) (ws : List Word) (s : State) (q : Nat) : ((s.recordCounted p vol ws).part q).cntGap = (s.part q).cntGap := by
  unfold State.recordCounted; dsimp only; rw [record_part_cntGap, part_putJrn]
@[simp] theorem partFailed_part_cntGap (c i : Nat) (s : State) (q : Nat) : ((s.partFailed c i).part q).cntGap = (s.part q).cntGap := by unfold State.partFailed; rw [sealSystem_part_cntGap, raiseAll_part_cntGap]
@[simp] theorem partRestored_part_cntGap (c i : Nat) (s : State) (q : Nat) : ((s.partRestored c i).part q).cntGap = (s.part q).cntGap := by unfold State.partRestored; rw [sealSystem_part_cntGap, raiseAll_part_cntGap]
@[simp] theorem sendRecs_part_replays (p : Nat) (s : State) (q : Nat) : ((s.sendRecs p).part q).replays = (s.part q).replays := sendRecs_view (fun x : Partner => x.replays) (fun _ _ => rfl) p s q
@[simp] theorem record_part_replays (p : Nat) (vol : Bool) (ws : List Word) (s : State) (q : Nat) : ((s.record p vol ws).part q).replays = (s.part q).replays := record_view (fun x : Partner => x.replays) (fun _ _ => rfl) p vol ws s q
@[simp] theorem sealSystem_part_replays (c : Nat) (d : List Word) (s : State) (q : Nat) : ((s.sealSystem c d).part q).replays = (s.part q).replays := sealSystem_view (fun x : Partner => x.replays) (fun _ _ => rfl) c d s q
@[simp] theorem raise_part_replays (p : Nat) (f : Bool) (c : Nat) (w : List Word) (s : State) (q : Nat) : ((s.raise p f c w).part q).replays = (s.part q).replays := record_view (fun x : Partner => x.replays) (fun _ _ => rfl) p false _ s q
@[simp] theorem raiseAll_part_replays (f : Bool) (c : Nat) (w : List Word) (s : State) (q : Nat) : ((s.raiseAll f c w).part q).replays = (s.part q).replays := raiseAll_view (fun x : Partner => x.replays) (fun _ _ => rfl) f c w s q
@[simp] theorem raiseLimited_part_replays (f : Bool) (c i : Nat) (w : List Word) (s : State) (q : Nat) : ((s.raiseLimited f c i w).part q).replays = (s.part q).replays := raiseLimited_view (fun x : Partner => x.replays) (fun _ _ => rfl) f c i w s q
@[simp] theorem raiseOwner_part_replays (p c i : Nat) (w : List Word) (s : State) (q : Nat) : ((s.raiseOwner p c i w).part q).replays = (s.part q).replays := raiseOwner_view (fun x : Partner => x.replays) (fun _ _ => rfl) p c i w s q
@[simp] theorem ackEsn_part_replays (p e : Nat) (s : State) (q : Nat) : ((s.ackEsn p e).part q).replays = (s.part q).replays := ackEsn_view (fun x : Partner => x.replays) (fun _ _ => rfl) p e s q
@[simp] theorem resendFrom_part_replays (p e : Nat) (s : State) (q : Nat) : ((s.resendFrom p e).part q).replays = (s.part q).replays := resendFrom_view (fun x : Partner => x.replays) (fun _ _ => rfl) p e s q
@[simp] theorem jsnCheck_part_replays (s : State) (q : Nat) : ((s.jsnCheck).part q).replays = (s.part q).replays := jsnCheck_view (fun x : Partner => x.replays) (fun _ _ => rfl) s q
@[simp] theorem recordCounted_part_replays (p : Nat) (vol : Bool) (ws : List Word) (s : State) (q : Nat) : ((s.recordCounted p vol ws).part q).replays = (s.part q).replays := by
  unfold State.recordCounted; dsimp only; rw [record_part_replays, part_putJrn]
@[simp] theorem partFailed_part_replays (c i : Nat) (s : State) (q : Nat) : ((s.partFailed c i).part q).replays = (s.part q).replays := by unfold State.partFailed; rw [sealSystem_part_replays, raiseAll_part_replays]
@[simp] theorem partRestored_part_replays (c i : Nat) (s : State) (q : Nat) : ((s.partRestored c i).part q).replays = (s.part q).replays := by unfold State.partRestored; rw [sealSystem_part_replays, raiseAll_part_replays]
@[simp] theorem sendRecs_part_credMax (p : Nat) (s : State) (q : Nat) : ((s.sendRecs p).part q).credMax = (s.part q).credMax := sendRecs_view (fun x : Partner => x.credMax) (fun _ _ => rfl) p s q
@[simp] theorem record_part_credMax (p : Nat) (vol : Bool) (ws : List Word) (s : State) (q : Nat) : ((s.record p vol ws).part q).credMax = (s.part q).credMax := record_view (fun x : Partner => x.credMax) (fun _ _ => rfl) p vol ws s q
@[simp] theorem sealSystem_part_credMax (c : Nat) (d : List Word) (s : State) (q : Nat) : ((s.sealSystem c d).part q).credMax = (s.part q).credMax := sealSystem_view (fun x : Partner => x.credMax) (fun _ _ => rfl) c d s q
@[simp] theorem raise_part_credMax (p : Nat) (f : Bool) (c : Nat) (w : List Word) (s : State) (q : Nat) : ((s.raise p f c w).part q).credMax = (s.part q).credMax := record_view (fun x : Partner => x.credMax) (fun _ _ => rfl) p false _ s q
@[simp] theorem raiseAll_part_credMax (f : Bool) (c : Nat) (w : List Word) (s : State) (q : Nat) : ((s.raiseAll f c w).part q).credMax = (s.part q).credMax := raiseAll_view (fun x : Partner => x.credMax) (fun _ _ => rfl) f c w s q
@[simp] theorem raiseLimited_part_credMax (f : Bool) (c i : Nat) (w : List Word) (s : State) (q : Nat) : ((s.raiseLimited f c i w).part q).credMax = (s.part q).credMax := raiseLimited_view (fun x : Partner => x.credMax) (fun _ _ => rfl) f c i w s q
@[simp] theorem raiseOwner_part_credMax (p c i : Nat) (w : List Word) (s : State) (q : Nat) : ((s.raiseOwner p c i w).part q).credMax = (s.part q).credMax := raiseOwner_view (fun x : Partner => x.credMax) (fun _ _ => rfl) p c i w s q
@[simp] theorem ackEsn_part_credMax (p e : Nat) (s : State) (q : Nat) : ((s.ackEsn p e).part q).credMax = (s.part q).credMax := ackEsn_view (fun x : Partner => x.credMax) (fun _ _ => rfl) p e s q
@[simp] theorem resendFrom_part_credMax (p e : Nat) (s : State) (q : Nat) : ((s.resendFrom p e).part q).credMax = (s.part q).credMax := resendFrom_view (fun x : Partner => x.credMax) (fun _ _ => rfl) p e s q
@[simp] theorem jsnCheck_part_credMax (s : State) (q : Nat) : ((s.jsnCheck).part q).credMax = (s.part q).credMax := jsnCheck_view (fun x : Partner => x.credMax) (fun _ _ => rfl) s q
@[simp] theorem recordCounted_part_credMax (p : Nat) (vol : Bool) (ws : List Word) (s : State) (q : Nat) : ((s.recordCounted p vol ws).part q).credMax = (s.part q).credMax := by
  unfold State.recordCounted; dsimp only; rw [record_part_credMax, part_putJrn]
@[simp] theorem partFailed_part_credMax (c i : Nat) (s : State) (q : Nat) : ((s.partFailed c i).part q).credMax = (s.part q).credMax := by unfold State.partFailed; rw [sealSystem_part_credMax, raiseAll_part_credMax]
@[simp] theorem partRestored_part_credMax (c i : Nat) (s : State) (q : Nat) : ((s.partRestored c i).part q).credMax = (s.part q).credMax := by unfold State.partRestored; rw [sealSystem_part_credMax, raiseAll_part_credMax]
@[simp] theorem sendRecs_part_lastReply (p : Nat) (s : State) (q : Nat) : ((s.sendRecs p).part q).lastReply = (s.part q).lastReply := sendRecs_view (fun x : Partner => x.lastReply) (fun _ _ => rfl) p s q
@[simp] theorem record_part_lastReply (p : Nat) (vol : Bool) (ws : List Word) (s : State) (q : Nat) : ((s.record p vol ws).part q).lastReply = (s.part q).lastReply := record_view (fun x : Partner => x.lastReply) (fun _ _ => rfl) p vol ws s q
@[simp] theorem sealSystem_part_lastReply (c : Nat) (d : List Word) (s : State) (q : Nat) : ((s.sealSystem c d).part q).lastReply = (s.part q).lastReply := sealSystem_view (fun x : Partner => x.lastReply) (fun _ _ => rfl) c d s q
@[simp] theorem raise_part_lastReply (p : Nat) (f : Bool) (c : Nat) (w : List Word) (s : State) (q : Nat) : ((s.raise p f c w).part q).lastReply = (s.part q).lastReply := record_view (fun x : Partner => x.lastReply) (fun _ _ => rfl) p false _ s q
@[simp] theorem raiseAll_part_lastReply (f : Bool) (c : Nat) (w : List Word) (s : State) (q : Nat) : ((s.raiseAll f c w).part q).lastReply = (s.part q).lastReply := raiseAll_view (fun x : Partner => x.lastReply) (fun _ _ => rfl) f c w s q
@[simp] theorem raiseLimited_part_lastReply (f : Bool) (c i : Nat) (w : List Word) (s : State) (q : Nat) : ((s.raiseLimited f c i w).part q).lastReply = (s.part q).lastReply := raiseLimited_view (fun x : Partner => x.lastReply) (fun _ _ => rfl) f c i w s q
@[simp] theorem raiseOwner_part_lastReply (p c i : Nat) (w : List Word) (s : State) (q : Nat) : ((s.raiseOwner p c i w).part q).lastReply = (s.part q).lastReply := raiseOwner_view (fun x : Partner => x.lastReply) (fun _ _ => rfl) p c i w s q
@[simp] theorem ackEsn_part_lastReply (p e : Nat) (s : State) (q : Nat) : ((s.ackEsn p e).part q).lastReply = (s.part q).lastReply := ackEsn_view (fun x : Partner => x.lastReply) (fun _ _ => rfl) p e s q
@[simp] theorem resendFrom_part_lastReply (p e : Nat) (s : State) (q : Nat) : ((s.resendFrom p e).part q).lastReply = (s.part q).lastReply := resendFrom_view (fun x : Partner => x.lastReply) (fun _ _ => rfl) p e s q
@[simp] theorem jsnCheck_part_lastReply (s : State) (q : Nat) : ((s.jsnCheck).part q).lastReply = (s.part q).lastReply := jsnCheck_view (fun x : Partner => x.lastReply) (fun _ _ => rfl) s q
@[simp] theorem recordCounted_part_lastReply (p : Nat) (vol : Bool) (ws : List Word) (s : State) (q : Nat) : ((s.recordCounted p vol ws).part q).lastReply = (s.part q).lastReply := by
  unfold State.recordCounted; dsimp only; rw [record_part_lastReply, part_putJrn]
@[simp] theorem partFailed_part_lastReply (c i : Nat) (s : State) (q : Nat) : ((s.partFailed c i).part q).lastReply = (s.part q).lastReply := by unfold State.partFailed; rw [sealSystem_part_lastReply, raiseAll_part_lastReply]
@[simp] theorem partRestored_part_lastReply (c i : Nat) (s : State) (q : Nat) : ((s.partRestored c i).part q).lastReply = (s.part q).lastReply := by unfold State.partRestored; rw [sealSystem_part_lastReply, raiseAll_part_lastReply]
@[simp] theorem sendRecs_part_permit (p : Nat) (s : State) (q : Nat) : ((s.sendRecs p).part q).permit = (s.part q).permit := sendRecs_view (fun x : Partner => x.permit) (fun _ _ => rfl) p s q
@[simp] theorem record_part_permit (p : Nat) (vol : Bool) (ws : List Word) (s : State) (q : Nat) : ((s.record p vol ws).part q).permit = (s.part q).permit := record_view (fun x : Partner => x.permit) (fun _ _ => rfl) p vol ws s q
@[simp] theorem sealSystem_part_permit (c : Nat) (d : List Word) (s : State) (q : Nat) : ((s.sealSystem c d).part q).permit = (s.part q).permit := sealSystem_view (fun x : Partner => x.permit) (fun _ _ => rfl) c d s q
@[simp] theorem raise_part_permit (p : Nat) (f : Bool) (c : Nat) (w : List Word) (s : State) (q : Nat) : ((s.raise p f c w).part q).permit = (s.part q).permit := record_view (fun x : Partner => x.permit) (fun _ _ => rfl) p false _ s q
@[simp] theorem raiseAll_part_permit (f : Bool) (c : Nat) (w : List Word) (s : State) (q : Nat) : ((s.raiseAll f c w).part q).permit = (s.part q).permit := raiseAll_view (fun x : Partner => x.permit) (fun _ _ => rfl) f c w s q
@[simp] theorem raiseLimited_part_permit (f : Bool) (c i : Nat) (w : List Word) (s : State) (q : Nat) : ((s.raiseLimited f c i w).part q).permit = (s.part q).permit := raiseLimited_view (fun x : Partner => x.permit) (fun _ _ => rfl) f c i w s q
@[simp] theorem raiseOwner_part_permit (p c i : Nat) (w : List Word) (s : State) (q : Nat) : ((s.raiseOwner p c i w).part q).permit = (s.part q).permit := raiseOwner_view (fun x : Partner => x.permit) (fun _ _ => rfl) p c i w s q
@[simp] theorem ackEsn_part_permit (p e : Nat) (s : State) (q : Nat) : ((s.ackEsn p e).part q).permit = (s.part q).permit := ackEsn_view (fun x : Partner => x.permit) (fun _ _ => rfl) p e s q
@[simp] theorem resendFrom_part_permit (p e : Nat) (s : State) (q : Nat) : ((s.resendFrom p e).part q).permit = (s.part q).permit := resendFrom_view (fun x : Partner => x.permit) (fun _ _ => rfl) p e s q
@[simp] theorem jsnCheck_part_permit (s : State) (q : Nat) : ((s.jsnCheck).part q).permit = (s.part q).permit := jsnCheck_view (fun x : Partner => x.permit) (fun _ _ => rfl) s q
@[simp] theorem recordCounted_part_permit (p : Nat) (vol : Bool) (ws : List Word) (s : State) (q : Nat) : ((s.recordCounted p vol ws).part q).permit = (s.part q).permit := by
  unfold State.recordCounted; dsimp only; rw [record_part_permit, part_putJrn]
@[simp] theorem partFailed_part_permit (c i : Nat) (s : State) (q : Nat) : ((s.partFailed c i).part q).permit = (s.part q).permit := by unfold State.partFailed; rw [sealSystem_part_permit, raiseAll_part_permit]
@[simp] theorem partRestored_part_permit (c i : Nat) (s : State) (q : Nat) : ((s.partRestored c i).part q).permit = (s.part q).permit := by unfold State.partRestored; rw [sealSystem_part_permit, raiseAll_part_permit]
@[simp] theorem sendRecs_part_busy (p : Nat) (s : State) (q : Nat) : ((s.sendRecs p).part q).busy = (s.part q).busy := sendRecs_view (fun x : Partner => x.busy) (fun _ _ => rfl) p s q
@[simp] theorem record_part_busy (p : Nat) (vol : Bool) (ws : List Word) (s : State) (q : Nat) : ((s.record p vol ws).part q).busy = (s.part q).busy := record_view (fun x : Partner => x.busy) (fun _ _ => rfl) p vol ws s q
@[simp] theorem sealSystem_part_busy (c : Nat) (d : List Word) (s : State) (q : Nat) : ((s.sealSystem c d).part q).busy = (s.part q).busy := sealSystem_view (fun x : Partner => x.busy) (fun _ _ => rfl) c d s q
@[simp] theorem raise_part_busy (p : Nat) (f : Bool) (c : Nat) (w : List Word) (s : State) (q : Nat) : ((s.raise p f c w).part q).busy = (s.part q).busy := record_view (fun x : Partner => x.busy) (fun _ _ => rfl) p false _ s q
@[simp] theorem raiseAll_part_busy (f : Bool) (c : Nat) (w : List Word) (s : State) (q : Nat) : ((s.raiseAll f c w).part q).busy = (s.part q).busy := raiseAll_view (fun x : Partner => x.busy) (fun _ _ => rfl) f c w s q
@[simp] theorem raiseLimited_part_busy (f : Bool) (c i : Nat) (w : List Word) (s : State) (q : Nat) : ((s.raiseLimited f c i w).part q).busy = (s.part q).busy := raiseLimited_view (fun x : Partner => x.busy) (fun _ _ => rfl) f c i w s q
@[simp] theorem raiseOwner_part_busy (p c i : Nat) (w : List Word) (s : State) (q : Nat) : ((s.raiseOwner p c i w).part q).busy = (s.part q).busy := raiseOwner_view (fun x : Partner => x.busy) (fun _ _ => rfl) p c i w s q
@[simp] theorem ackEsn_part_busy (p e : Nat) (s : State) (q : Nat) : ((s.ackEsn p e).part q).busy = (s.part q).busy := ackEsn_view (fun x : Partner => x.busy) (fun _ _ => rfl) p e s q
@[simp] theorem resendFrom_part_busy (p e : Nat) (s : State) (q : Nat) : ((s.resendFrom p e).part q).busy = (s.part q).busy := resendFrom_view (fun x : Partner => x.busy) (fun _ _ => rfl) p e s q
@[simp] theorem jsnCheck_part_busy (s : State) (q : Nat) : ((s.jsnCheck).part q).busy = (s.part q).busy := jsnCheck_view (fun x : Partner => x.busy) (fun _ _ => rfl) s q
@[simp] theorem recordCounted_part_busy (p : Nat) (vol : Bool) (ws : List Word) (s : State) (q : Nat) : ((s.recordCounted p vol ws).part q).busy = (s.part q).busy := by
  unfold State.recordCounted; dsimp only; rw [record_part_busy, part_putJrn]
@[simp] theorem partFailed_part_busy (c i : Nat) (s : State) (q : Nat) : ((s.partFailed c i).part q).busy = (s.part q).busy := by unfold State.partFailed; rw [sealSystem_part_busy, raiseAll_part_busy]
@[simp] theorem partRestored_part_busy (c i : Nat) (s : State) (q : Nat) : ((s.partRestored c i).part q).busy = (s.part q).busy := by unfold State.partRestored; rw [sealSystem_part_busy, raiseAll_part_busy]

end Sys2Proof.Machine
end

