-- ==== Sys2Proof/Laws/Memory.lean ====
section
/-! SUPPORT. Shared memory: every write keeps the canonical form, a byte reads back as written, every other byte as before. -/
namespace Sys2Proof.Machine
open Sys2Proof

/-- Every listed address lies above `a`. -/
def above (a : Nat) : List Host.Cell → Prop
  | [] => True
  | (b, _) :: t => a < b ∧ above a t

theorem cellsWf_cons (a : Nat) (x : BitVec 8) (t : List Host.Cell) : cellsWf ((a, x) :: t) = true ↔ x ≠ 0 ∧ above a t ∧ cellsWf t = true := by
  induction t generalizing a x with
  | nil => simp [cellsWf, above]
  | cons e t ih =>
    obtain ⟨b, y⟩ := e
    have hb := ih b y
    have up : ∀ u : List Host.Cell, a < b → above b u → above a u := by
      intro u hab
      induction u with
      | nil => simp [above]
      | cons e u ihu => obtain ⟨c, z⟩ := e; simp only [above]; rintro ⟨h1, h2⟩; exact ⟨by omega, ihu h2⟩
    simp only [cellsWf, Bool.and_eq_true, decide_eq_true_eq, above]
    constructor
    · rintro ⟨⟨h1, h2⟩, h3⟩; exact ⟨h1, ⟨h2, up t h2 (hb.mp h3).2.1⟩, h3⟩
    · rintro ⟨h1, ⟨h2, _⟩, h3⟩; exact ⟨⟨h1, h2⟩, h3⟩

theorem above_filter (a k : Nat) (t : List Host.Cell) (h : above a t) : above a (t.filter (fun e => e.1 != k)) := by
  induction t with
  | nil => trivial
  | cons e t ih => obtain ⟨b, y⟩ := e; by_cases hb : b = k <;> simp_all [above]
theorem above_ins (a k : Nat) (v : BitVec 8) (t : List Host.Cell) (h : above a t) (hk : a < k) : above a (cellIns k v t) := by
  induction t with
  | nil => simp [cellIns, above, hk]
  | cons e t ih => obtain ⟨b, y⟩ := e; simp only [cellIns]; split <;> (try split) <;> simp_all [above]
theorem cellsWf_filter (k : Nat) (t : List Host.Cell) (h : cellsWf t = true) : cellsWf (t.filter (fun e => e.1 != k)) = true := by
  induction t with
  | nil => rfl
  | cons e t ih =>
    obtain ⟨b, y⟩ := e
    rw [cellsWf_cons] at h
    by_cases hb : b = k
    · simp [hb, ih h.2.2]
    · simp only [List.filter_cons, bne_iff_ne, ne_eq, hb, not_false_eq_true, if_true]
      rw [cellsWf_cons]; exact ⟨h.1, above_filter b k t h.2.1, ih h.2.2⟩
theorem cellsWf_ins (k : Nat) (v : BitVec 8) (hv : v ≠ 0) (t : List Host.Cell) (h : cellsWf t = true) : cellsWf (cellIns k v t) = true := by
  induction t with
  | nil => simpa [cellIns, cellsWf] using hv
  | cons e t ih =>
    obtain ⟨b, y⟩ := e
    have h' := (cellsWf_cons b y t).mp h
    simp only [cellIns]; split
    · next hk =>
      have up : ∀ u : List Host.Cell, above b u → above k u := by
        intro u
        induction u with
        | nil => simp [above]
        | cons e u ihu => obtain ⟨c, z⟩ := e; simp only [above]; rintro ⟨h1, h2⟩; exact ⟨by omega, ihu h2⟩
      rw [cellsWf_cons]; exact ⟨hv, ⟨hk, up t h'.2.1⟩, h⟩
    · split
      · next _ hk => subst hk; rw [cellsWf_cons]; exact ⟨hv, h'.2⟩
      · rw [cellsWf_cons]; exact ⟨h'.1, above_ins b k v t h'.2.1 (by omega), ih h'.2.2⟩
/-- One byte written keeps the canonical form. -/
theorem cellsWf_write (k : Nat) (v : BitVec 8) (t : List Host.Cell) (h : cellsWf t = true) : cellsWf (cellWrite k v t) = true := by
  unfold cellWrite; split
  · exact cellsWf_filter k t h
  · next hv => exact cellsWf_ins k v hv t h

theorem cellRead_filter (a k : Nat) (t : List Host.Cell) : cellRead a (t.filter (fun e => e.1 != k)) = if a = k then 0 else cellRead a t := by
  induction t with
  | nil => simp [cellRead]
  | cons e t ih =>
    obtain ⟨b, y⟩ := e
    by_cases hb : b = k
    · subst hb; by_cases ha : a = b <;> simp_all [cellRead]
    · by_cases ha : a = k
      · subst ha; simp_all [cellRead, Ne.symm hb]
      · simp_all [cellRead]
theorem cellRead_ins (a k : Nat) (v : BitVec 8) (t : List Host.Cell) : cellRead a (cellIns k v t) = if a = k then v else cellRead a t := by
  induction t with
  | nil => simp [cellRead, cellIns]
  | cons e t ih =>
    obtain ⟨b, y⟩ := e
    simp only [cellIns]; split
    · simp [cellRead]
    · split
      · next _ hk => subst hk; by_cases ha : a = k <;> simp [cellRead, ha]
      · next _ hk => by_cases ha : a = b
                     · subst ha; simp [cellRead, Ne.symm hk]
                     · simp [cellRead, ha, ih]
/-- A byte reads back as written, every other as before. -/
@[simp] theorem cellRead_write (a k : Nat) (v : BitVec 8) (t : List Host.Cell) : cellRead a (cellWrite k v t) = if a = k then v else cellRead a t := by
  unfold cellWrite; split
  · next hv => subst hv; exact cellRead_filter a k t
  · exact cellRead_ins a k v t

/-- A word stored: each of its six bytes reads back, every other byte of memory as before. -/
theorem Memory.cellRead_store (m : Memory) (w a : Nat) (x : Word) :
    cellRead a (m.write w x).cells = if a / 6 = w then byteOf x (a % 6) else cellRead a m.cells := by
  have h : ∀ n, n ≤ 6 → cellRead a ((List.range n).foldl (fun c k => cellWrite (6 * w + k) (byteOf x k) c) m.cells)
      = if a / 6 = w ∧ a % 6 < n then byteOf x (a % 6) else cellRead a m.cells := by
    intro n
    induction n with
    | zero => simp
    | succ n ih =>
      intro hn
      rw [List.range_succ, List.foldl_append, List.foldl_cons, List.foldl_nil, cellRead_write, ih (by omega)]
      by_cases h1 : a = 6 * w + n
      · have h2 : a / 6 = w := by omega
        have h3 : a % 6 = n := by omega
        rw [if_pos h1, if_pos ⟨h2, by omega⟩, h3]
      · have : (a / 6 = w ∧ a % 6 < n + 1) ↔ (a / 6 = w ∧ a % 6 < n) := by omega
        rw [if_neg h1]; simp only [this]
  have h6 := h 6 (le_refl 6)
  simp only [Memory.write]
  rw [h6]
  have : (a / 6 = w ∧ a % 6 < 6) ↔ a / 6 = w := by omega
  simp [this]
/-- Storing a word keeps the canonical form. -/
theorem Memory.wf_write (m : Memory) (w : Nat) (x : Word) (h : m.wf = true) : (m.write w x).wf = true := by
  have g : ∀ (l : List Nat) (c : List Host.Cell), cellsWf c = true → cellsWf (l.foldl (fun c k => cellWrite (6 * w + k) (byteOf x k) c) c) = true := by
    intro l
    induction l with
    | nil => intro c hc; exact hc
    | cons k l ih => intro c hc; exact ih _ (cellsWf_write _ _ c hc)
  exact g _ _ h
/-- Storing words keeps the canonical form. -/
theorem Memory.wf_writes (m : Memory) (a : Nat) (ws : List Word) (h : m.wf = true) : (m.writes a ws).wf = true := by
  induction ws generalizing m a with
  | nil => exact h
  | cons w ws ih => exact ih _ _ (Memory.wf_write m _ w h)
/-- The state's memory after storing words. -/
theorem memWrites_wf (s : State) (a : Nat) (ws : List Word) (h : s.mem.wf = true) : (s.memWrites a ws).mem.wf = true := Memory.wf_writes s.mem a ws h

/-- The bytes of a word put together again are the word. -/
theorem word_bytes (x : Word) : word ((byteOf x 0).toNat * 2 ^ 40 + (byteOf x 1).toNat * 2 ^ 32 + (byteOf x 2).toNat * 2 ^ 24 + (byteOf x 3).toNat * 2 ^ 16 + (byteOf x 4).toNat * 2 ^ 8 + (byteOf x 5).toNat) = x := by
  apply BitVec.eq_of_toNat_eq
  have h := x.isLt
  simp only [byteOf, word, BitVec.toNat_ofNat]
  omega
/-- A word reads back as stored. -/
theorem Memory.read_write (m : Memory) (a : Nat) (x : Word) : (m.write a x).read a = x := by
  have h : ∀ k, k < 6 → cellRead (6 * a + k) (m.write a x).cells = byteOf x k := by
    intro k hk
    have e : (6 * a + k) / 6 = a := by omega
    have f : (6 * a + k) % 6 = k := by omega
    rw [Memory.cellRead_store, if_pos e, f]
  have h0 := h 0 (by omega)
  have h1 := h 1 (by omega)
  have h2 := h 2 (by omega)
  have h3 := h 3 (by omega)
  have h4 := h 4 (by omega)
  have h5 := h 5 (by omega)
  simp only [Memory.read, h0, h1, h2, h3, h4, h5]
  exact word_bytes x
/-- Every other word reads as before. -/
theorem Memory.read_write_ne (m : Memory) (a b : Nat) (x : Word) (h : b ≠ a) : (m.write a x).read b = m.read b := by
  have g : ∀ k, k < 6 → cellRead (6 * b + k) (m.write a x).cells = cellRead (6 * b + k) m.cells := by
    intro k hk
    have e : ¬ (6 * b + k) / 6 = a := by omega
    rw [Memory.cellRead_store, if_neg e]
  have h0 := g 0 (by omega)
  have h1 := g 1 (by omega)
  have h2 := g 2 (by omega)
  have h3 := g 3 (by omega)
  have h4 := g 4 (by omega)
  have h5 := g 5 (by omega)
  simp only [Memory.read, h0, h1, h2, h3, h4, h5]
/-- A word outside the n words stored from `a` on reads as before. -/
theorem Memory.read_writes_out (m : Memory) (a b : Nat) (ws : List Word) (h : ∀ i, i < ws.length → (a + i) % 2 ^ 24 ≠ b) : (m.writes a ws).read b = m.read b := by
  induction ws generalizing m a with
  | nil => rfl
  | cons w ws ih =>
    show ((m.write (a % 2 ^ 24) w).writes (a + 1) ws).read b = m.read b
    rw [ih _ _ fun i hi => by have := h (i + 1) (by simp; omega); rwa [show a + 1 + i = a + (i + 1) by omega]]
    have h0 := h 0 (by simp)
    exact Memory.read_write_ne m _ _ _ (Ne.symm h0)
/-- The i-th word of a run of at most 2^24 words reads back as stored. -/
theorem Memory.read_writes (m : Memory) (a i : Nat) (ws : List Word) (hi : i < ws.length) (hn : ws.length ≤ 2 ^ 24) : (m.writes a ws).read ((a + i) % 2 ^ 24) = ws[i] := by
  induction ws generalizing m a i with
  | nil => simp at hi
  | cons w ws ih =>
    show ((m.write (a % 2 ^ 24) w).writes (a + 1) ws).read _ = _
    simp only [List.length_cons] at hi hn
    cases i with
    | zero =>
      rw [Memory.read_writes_out _ _ _ _ fun j hj => by omega, Nat.add_zero, Memory.read_write]
      rfl
    | succ i =>
      rw [show a + (i + 1) = a + 1 + i by omega, ih _ _ _ (by omega) (by omega)]
      rfl

end Sys2Proof.Machine
end

