-- ==== Sys2Proof/Laws/Banks.lean ====
section
/-! SUPPORT. What the banks of shared memory can do: every operation on them keeps the canonical form of memory. -/
namespace Sys2Proof.Machine
open Sys2Proof

@[simp] theorem setMem_mem (s : State) (m : Memory) : (s.setMem m).mem = m := rfl
@[simp] theorem endLeases_wf (m : Memory) : m.endLeases.wf = m.wf := rfl
@[simp] theorem setBank_wf (b : Nat) (v : Bank) (m : Memory) : (m.setBank b v).wf = m.wf := rfl
@[simp] theorem setPatrol_wf (g : Nat) (v : Patrol) (m : Memory) : (m.setPatrol g v).wf = m.wf := rfl
@[simp] theorem waits_wf (i : Nat) (m : Memory) : (m.waits i).wf = m.wf := rfl
@[simp] theorem loses_wf (i : Nat) (m : Memory) : (m.loses i).wf = m.wf := rfl
theorem uncorrected_wf (a b i : Nat) (s : State) : (s.uncorrected a b i).mem.wf = s.mem.wf := by
  unfold State.uncorrected; dsimp only; rw [raiseLimited_mem]; rfl
theorem corrected_wf (b : Nat) (s : State) : (s.corrected b).mem.wf = s.mem.wf := by
  unfold State.corrected; dsimp only; split
  · rw [raiseLimited_mem]; rfl
  · rfl
theorem guarded_wf (i a : Nat) (s : State) : (s.guarded i a).mem.wf = s.mem.wf := by
  unfold State.guarded; rw [raiseLimited_mem]; rfl
theorem rebuild_wf (as : List Nat) (s : State) : (s.rebuild as).mem.wf = s.mem.wf := rfl
theorem granted_wf (mc : Nat) (s : State) (r : MemReq) : (s.granted mc r).mem.wf = s.mem.wf := by
  unfold State.granted; dsimp only; split <;> rfl
theorem issue_wf (mc : Nat) (rs : List MemReq) (s : State) : (s.issue mc rs).mem.wf = s.mem.wf := rfl

theorem abortTask_mem (k c : Nat) (s : State) : (s.abortTask k c).mem = s.mem := by
  unfold State.abortTask; dsimp only; split
  · rfl
  · split
    · rw [raise_mem]; unfold State.setCore; split <;> rfl
    · unfold State.setCore; split <;> rfl
theorem memRead_wf (r : MemReq) (f : Option Word) (s : State) : (s.memRead r f).mem.wf = s.mem.wf := by
  have hu : ∀ e : Emit, ((s.uncorrected r.addr (bankOf r.addr) r.master).emit e).mem.wf = s.mem.wf := fun e => uncorrected_wf _ _ _ s
  unfold State.memRead; dsimp only; split
  · rfl
  · split
    · split
      · rw [abortTask_mem]; exact hu _
      · split
        · rw [rebuild_wf]; exact hu _
        · exact hu _
    · split
      · rw [corrected_wf]; rfl
      · rfl
theorem memWrite_wf (r : MemReq) (w : Word) (s : State) (h : s.mem.wf = true) : (s.memWrite r w).mem.wf = true := by
  unfold State.memWrite; dsimp only; split
  · exact memWrites_wf s _ _ h
  · split
    · split
      · rw [abortTask_mem]; exact h
      · exact h
    · split
      · rw [abortTask_mem, guarded_wf]; exact h
      · rw [guarded_wf]; exact h
theorem serveWrites_wf (ws : List MemReq) (s : State) (h : s.mem.wf = true) : (s.serveWrites ws).mem.wf = true := by
  unfold State.serveWrites; split
  · dsimp only; split
    · exact memWrite_wf _ _ s h
    · exact memWrite_wf _ _ _ (memWrite_wf _ _ s h)
  · exact memWrite_wf _ _ s h
  · exact h
/-- What a bank does in a cycle keeps the canonical form. -/
theorem serve_wf (mc b : Nat) (s : State) (h : s.mem.wf = true) : (s.serve mc b).mem.wf = true := by
  unfold State.serve; dsimp only
  refine serveWrites_wf _ _ ?_
  refine foldl_inv (fun t : State => t.mem.wf = true) _ (fun a x ha => (memRead_wf x.req _ a).trans ha) _ _ ?_
  exact foldl_inv (fun t : State => t.mem.wf = true) _ (fun a x ha => (granted_wf mc a x.req).trans ha) _ _ h
/-- A memory cycle keeps the canonical form. -/
theorem bankCycle_wf (mc : Nat) (s : State) (h : s.mem.wf = true) : (s.bankCycle mc).mem.wf = true := by
  unfold State.bankCycle; dsimp only; rw [setMem_mem]
  show Memory.wf (List.foldl _ _ _) = true
  refine foldl_inv (fun m : Memory => m.wf = true) _ (fun m (x : BankReq) hm => (waits_wf x.req.master m).trans hm) _ _ ?_
  exact foldl_inv (fun t : State => t.mem.wf = true) _ (fun a b ha => serve_wf mc b a ha) _ s h
theorem bankCycles_wf (u n : Nat) (s : State) (h : s.mem.wf = true) : (s.bankCycles u n).mem.wf = true := by
  induction n generalizing s with
  | zero => exact h
  | succ n ih => unfold State.bankCycles; split
                 · exact h
                 · exact ih _ (bankCycle_wf _ s h)
theorem toNow_wf (s : State) (h : s.mem.wf = true) : s.toNow.mem.wf = true := bankCycles_wf _ _ s h
theorem awaitRead_wf (x : BankReq) (n : Nat) (s : State) (h : s.mem.wf = true) : (s.awaitRead x n).1.mem.wf = true := by
  induction n generalizing s with
  | zero => exact h
  | succ n ih => unfold State.awaitRead; dsimp only; split
                 · exact bankCycle_wf _ s h
                 · exact ih _ (bankCycle_wf _ s h)
/-- A user core's read keeps the canonical form. -/
theorem busRead_wf (i a : Nat) (s : State) (h : s.mem.wf = true) : (s.busRead i a).1.mem.wf = true := by
  have ht := toNow_wf s h
  have key : ∀ (t : State) (x : BankReq) (c n : Nat) (rs : List MemReq), t.mem.wf = true → (State.awaitRead x n ((t.setMem { t.mem with cycle := c }).issue c rs)).1.mem.wf = true :=
    fun t x c n rs h => awaitRead_wf x n _ h
  exact key _ _ _ _ _ ht
/-- A user core's write keeps the canonical form. -/
theorem busWrite_wf (i a : Nat) (w : Word) (s : State) (h : s.mem.wf = true) : (s.busWrite i a w).mem.wf = true := by
  unfold State.busWrite; dsimp only
  refine bankCycle_wf _ _ ?_
  rw [issue_wf]; exact toNow_wf s h

end Sys2Proof.Machine
end

