-- ==== Sys2Proof/Laws/Packet.lean ====
section
/-! SUPPORT. The lapse before a command, and what a packet that the command unit takes as a new command leads to. -/
namespace Sys2Proof.Machine
open Sys2Proof

/-- The state without the quantities. -/
def State.noQs (s : State) : State := { s with qs := [] }
@[simp] theorem feed_noQs (fuel src : Nat) (s : State) : (s.feed fuel src).noQs = s.noQs := by
  induction fuel generalizing src s with
  | zero => rfl
  | succ fuel ih =>
    unfold State.feed
    refine foldl_keeps State.noQs _ (fun a b => ?_) _ s
    dsimp only
    rw [ih]
    split <;> rfl

@[simp] theorem feed_tb (fuel src : Nat) (s : State) : (s.feed fuel src).tb = s.tb := show (s.feed fuel src).noQs.tb = s.noQs.tb from congrArg State.tb (feed_noQs fuel src s)
@[simp] theorem feed_shadows (fuel src : Nat) (s : State) : (s.feed fuel src).shadows = s.shadows := show (s.feed fuel src).noQs.shadows = s.noQs.shadows from congrArg State.shadows (feed_noQs fuel src s)
@[simp] theorem feed_calFrz (fuel src : Nat) (s : State) : (s.feed fuel src).calFrz = s.calFrz := show (s.feed fuel src).noQs.calFrz = s.noQs.calFrz from congrArg State.calFrz (feed_noQs fuel src s)
@[simp] theorem feed_outs (fuel src : Nat) (s : State) : (s.feed fuel src).outs = s.outs := show (s.feed fuel src).noQs.outs = s.noQs.outs from congrArg State.outs (feed_noQs fuel src s)
@[simp] theorem feed_clk (fuel src : Nat) (s : State) : (s.feed fuel src).clk = s.clk := show (s.feed fuel src).noQs.clk = s.noQs.clk from congrArg State.clk (feed_noQs fuel src s)
@[simp] theorem feed_sch (fuel src : Nat) (s : State) : (s.feed fuel src).sch = s.sch := show (s.feed fuel src).noQs.sch = s.noQs.sch from congrArg State.sch (feed_noQs fuel src s)
@[simp] theorem feed_parts (fuel src : Nat) (s : State) : (s.feed fuel src).parts = s.parts := show (s.feed fuel src).noQs.parts = s.noQs.parts from congrArg State.parts (feed_noQs fuel src s)
@[simp] theorem feed_jrn (fuel src : Nat) (s : State) : (s.feed fuel src).jrn = s.jrn := show (s.feed fuel src).noQs.jrn = s.noQs.jrn from congrArg State.jrn (feed_noQs fuel src s)
@[simp] theorem feed_fc (fuel src : Nat) (s : State) : (s.feed fuel src).fc = s.fc := show (s.feed fuel src).noQs.fc = s.noQs.fc from congrArg State.fc (feed_noQs fuel src s)
@[simp] theorem feed_raised (fuel src : Nat) (s : State) : (s.feed fuel src).raised = s.raised := show (s.feed fuel src).noQs.raised = s.noQs.raised from congrArg State.raised (feed_noQs fuel src s)
@[simp] theorem feed_host (fuel src : Nat) (s : State) : (s.feed fuel src).host = s.host := show (s.feed fuel src).noQs.host = s.noQs.host from congrArg State.host (feed_noQs fuel src s)
@[simp] theorem feed_stage (fuel src : Nat) (s : State) : (s.feed fuel src).stage = s.stage := show (s.feed fuel src).noQs.stage = s.noQs.stage from congrArg State.stage (feed_noQs fuel src s)
@[simp] theorem feed_lbal (fuel src : Nat) (s : State) : (s.feed fuel src).lbal = s.lbal := show (s.feed fuel src).noQs.lbal = s.noQs.lbal from congrArg State.lbal (feed_noQs fuel src s)
@[simp] theorem feed_rtc (fuel src : Nat) (s : State) : (s.feed fuel src).rtc = s.rtc := show (s.feed fuel src).noQs.rtc = s.noQs.rtc from congrArg State.rtc (feed_noQs fuel src s)
@[simp] theorem feed_pwr (fuel src : Nat) (s : State) : (s.feed fuel src).pwr = s.pwr := show (s.feed fuel src).noQs.pwr = s.noQs.pwr from congrArg State.pwr (feed_noQs fuel src s)
@[simp] theorem feed_rf (fuel src : Nat) (s : State) : (s.feed fuel src).rf = s.rf := show (s.feed fuel src).noQs.rf = s.noQs.rf from congrArg State.rf (feed_noQs fuel src s)
@[simp] theorem feed_gale (fuel src : Nat) (s : State) : (s.feed fuel src).gale = s.gale := show (s.feed fuel src).noQs.gale = s.noQs.gale from congrArg State.gale (feed_noQs fuel src s)
@[simp] theorem feed_kite (fuel src : Nat) (s : State) : (s.feed fuel src).kite = s.kite := show (s.feed fuel src).noQs.kite = s.noQs.kite from congrArg State.kite (feed_noQs fuel src s)
@[simp] theorem feed_meas (fuel src : Nat) (s : State) : (s.feed fuel src).meas = s.meas := show (s.feed fuel src).noQs.meas = s.noQs.meas from congrArg State.meas (feed_noQs fuel src s)
@[simp] theorem feed_modes (fuel src : Nat) (s : State) : (s.feed fuel src).modes = s.modes := show (s.feed fuel src).noQs.modes = s.noQs.modes from congrArg State.modes (feed_noQs fuel src s)
@[simp] theorem feed_mem (fuel src : Nat) (s : State) : (s.feed fuel src).mem = s.mem := show (s.feed fuel src).noQs.mem = s.noQs.mem from congrArg State.mem (feed_noQs fuel src s)
@[simp] theorem feed_links (fuel src : Nat) (s : State) : (s.feed fuel src).links = s.links := show (s.feed fuel src).noQs.links = s.noQs.links from congrArg State.links (feed_noQs fuel src s)
@[simp] theorem feed_ports (fuel src : Nat) (s : State) : (s.feed fuel src).ports = s.ports := show (s.feed fuel src).noQs.ports = s.noQs.ports from congrArg State.ports (feed_noQs fuel src s)
@[simp] theorem feed_dsp (fuel src : Nat) (s : State) : (s.feed fuel src).dsp = s.dsp := show (s.feed fuel src).noQs.dsp = s.noQs.dsp from congrArg State.dsp (feed_noQs fuel src s)
@[simp] theorem feed_wire (fuel src : Nat) (s : State) : (s.feed fuel src).wire = s.wire := show (s.feed fuel src).noQs.wire = s.noQs.wire from congrArg State.wire (feed_noQs fuel src s)
@[simp] theorem feed_fresh (fuel src : Nat) (s : State) : (s.feed fuel src).fresh = s.fresh := show (s.feed fuel src).noQs.fresh = s.noQs.fresh from congrArg State.fresh (feed_noQs fuel src s)
@[simp] theorem feed_pending (fuel src : Nat) (s : State) : (s.feed fuel src).pending = s.pending := show (s.feed fuel src).noQs.pending = s.noQs.pending from congrArg State.pending (feed_noQs fuel src s)
@[simp] theorem elapse_shadows (t : Lapse) (s : State) : (s.elapse t).shadows = s.shadows := by unfold State.elapse; dsimp only; split <;> simp [State.runOuts]
@[simp] theorem elapse_calFrz (t : Lapse) (s : State) : (s.elapse t).calFrz = s.calFrz := by unfold State.elapse; dsimp only; split <;> simp [State.runOuts]
@[simp] theorem elapse_clk (t : Lapse) (s : State) : (s.elapse t).clk = s.clk := by unfold State.elapse; dsimp only; split <;> simp [State.runOuts]
@[simp] theorem elapse_sch (t : Lapse) (s : State) : (s.elapse t).sch = s.sch := by unfold State.elapse; dsimp only; split <;> simp [State.runOuts]
@[simp] theorem elapse_parts (t : Lapse) (s : State) : (s.elapse t).parts = s.parts := by unfold State.elapse; dsimp only; split <;> simp [State.runOuts]
@[simp] theorem elapse_jrn (t : Lapse) (s : State) : (s.elapse t).jrn = s.jrn := by unfold State.elapse; dsimp only; split <;> simp [State.runOuts]
@[simp] theorem elapse_fc (t : Lapse) (s : State) : (s.elapse t).fc = s.fc := by unfold State.elapse; dsimp only; split <;> simp [State.runOuts]
@[simp] theorem elapse_raised (t : Lapse) (s : State) : (s.elapse t).raised = s.raised := by unfold State.elapse; dsimp only; split <;> simp [State.runOuts]
@[simp] theorem elapse_host (t : Lapse) (s : State) : (s.elapse t).host = s.host := by unfold State.elapse; dsimp only; split <;> simp [State.runOuts]
@[simp] theorem elapse_stage (t : Lapse) (s : State) : (s.elapse t).stage = s.stage := by unfold State.elapse; dsimp only; split <;> simp [State.runOuts]
@[simp] theorem elapse_lbal (t : Lapse) (s : State) : (s.elapse t).lbal = s.lbal := by unfold State.elapse; dsimp only; split <;> simp [State.runOuts]
@[simp] theorem elapse_pwr (t : Lapse) (s : State) : (s.elapse t).pwr = s.pwr := by unfold State.elapse; dsimp only; split <;> simp [State.runOuts]
@[simp] theorem elapse_rf (t : Lapse) (s : State) : (s.elapse t).rf = s.rf := by unfold State.elapse; dsimp only; split <;> simp [State.runOuts]
@[simp] theorem elapse_gale (t : Lapse) (s : State) : (s.elapse t).gale = s.gale := by unfold State.elapse; dsimp only; split <;> simp [State.runOuts]
@[simp] theorem elapse_kite (t : Lapse) (s : State) : (s.elapse t).kite = s.kite := by unfold State.elapse; dsimp only; split <;> simp [State.runOuts]
@[simp] theorem elapse_meas (t : Lapse) (s : State) : (s.elapse t).meas = s.meas := by unfold State.elapse; dsimp only; split <;> simp [State.runOuts]
@[simp] theorem elapse_modes (t : Lapse) (s : State) : (s.elapse t).modes = s.modes := by unfold State.elapse; dsimp only; split <;> simp [State.runOuts]
@[simp] theorem elapse_mem (t : Lapse) (s : State) : (s.elapse t).mem = s.mem := by unfold State.elapse; dsimp only; split <;> simp [State.runOuts]
@[simp] theorem elapse_links (t : Lapse) (s : State) : (s.elapse t).links = s.links := by unfold State.elapse; dsimp only; split <;> simp [State.runOuts]
@[simp] theorem elapse_ports (t : Lapse) (s : State) : (s.elapse t).ports = s.ports := by unfold State.elapse; dsimp only; split <;> simp [State.runOuts]
@[simp] theorem elapse_dsp (t : Lapse) (s : State) : (s.elapse t).dsp = s.dsp := by unfold State.elapse; dsimp only; split <;> simp [State.runOuts]
@[simp] theorem elapse_fresh (t : Lapse) (s : State) : (s.elapse t).fresh = s.fresh := by unfold State.elapse; dsimp only; split <;> simp [State.runOuts]
@[simp] theorem elapse_pending (t : Lapse) (s : State) : (s.elapse t).pending = s.pending := by unfold State.elapse; dsimp only; split <;> simp [State.runOuts]
@[simp] theorem elapse_wire (t : Lapse) (s : State) : (s.elapse t).wire = [] := by unfold State.elapse; dsimp only; split <;> simp [State.runOuts]
@[simp] theorem elapse_tb (t : Lapse) (s : State) : (s.elapse t).tb = s.tb.advance t.clk (decide (s.dom 11 = 1 ∨ s.dom 11 = 2)) := by unfold State.elapse; dsimp only; split <;> simp [State.runOuts]
@[simp] theorem elapse_part (t : Lapse) (s : State) (q : Nat) : (s.elapse t).part q = s.part q := part_congr (elapse_parts t s) q
@[simp] theorem elapse_dom (t : Lapse) (s : State) (d : Nat) : (s.elapse t).dom d = s.dom d := by unfold State.dom; rw [elapse_pwr]

/-- The partner bound where its packet came from (R284 step 7). -/
def State.bound (env : Env) (a : State) : State :=
  a.setPart env.partner { a.part env.partner with bind := some ⟨env.port, if env.port < 2 then env.ep else .spi, env.mac⟩ }
/-- A packet with its parameters and at most 2,048 reply words takes at most 1,000 entries. -/
theorem newGroup_entries (op : Option OpSpec) (k : Pkt) (v : Verdict) (h : entriesFor ((v.stored.getD k.ps).length + v.reply.length) ≤ 1000) : (newGroup op k v).entries ≤ 1000 := by
  refine le_trans ?_ h
  unfold Group.entries Group.data newGroup entriesFor
  dsimp only
  generalize ((match op with | some op => op.compact | none => false) && !v.full) = c
  cases c <;> cases v.stored <;> simp <;> omega
/-- A packet that the command unit takes as a new command, but for GOODBYE, goes to `runNew`, where its group takes at most 1,000 entries. -/
theorem runPacket_new (op : OpSpec) (env : Env) (ps : List Word) (rights modes : Nat) (a : State)
    (h : a.admits op.code rights modes env ps = true) (h1 : op.code ≠ 1) (h2 : op.code ≠ 2) (h3 : op.code ≠ 3)
    (hg : (newGroup (some op) (pktOf op.code env ps a) (judge (some op) (pktOf op.code env ps a) (a.bound env))).entries ≤ 1000) :
    runPacket (some op) (pktOf op.code env ps a) a = runNew (some op) (pktOf op.code env ps a) ((pktOf op.code env ps a).held false) (a.bound env) := by
  simp only [State.admits, Bool.and_eq_true, decide_eq_true_eq, Option.isNone_iff_eq_none, List.isEmpty_iff] at h
  obtain ⟨⟨⟨⟨⟨⟨⟨⟨⟨⟨⟨⟨⟨⟨⟨⟨hport, hpart⟩, hlen⟩, hready⟩, hr0⟩, hr⟩, hauth⟩, hbound⟩, hroom⟩, hperm⟩, hseq⟩, hwork⟩, hnext⟩, hmode⟩, hlive⟩, hparse⟩, hslots⟩ := h
  have hs0 : env.seq.toNat ≠ 0 := by omega
  have e1 : (pktOf op.code env ps a).port = env.port := rfl
  have e2 : (pktOf op.code env ps a).partner = env.partner := rfl
  have e3 : (pktOf op.code env ps a).seq = env.seq.toNat := rfl
  have e4 : (pktOf op.code env ps a).code = op.code := rfl
  have e5 : (pktOf op.code env ps a).ps = ps := rfl
  have hb : a.setPart env.partner { a.part env.partner with bind := some ⟨env.port, (pktOf op.code env ps a).ep, (pktOf op.code env ps a).mac⟩ } = a.bound env := rfl
  have hi : (a.bound env).ingress env.partner = a.ingress env.partner := rfl
  have hp : (a.bound env).host.parse = [] := hparse
  have hl : ((a.bound env).part env.partner).lseq = (a.part env.partner).lseq := by unfold State.bound; rw [part_setPart]
  have hsl : (a.bound env).hasSlots (some op) (pktOf op.code env ps a) 0 = true := by
    unfold State.hasSlots State.entriesOf
    have : (a.bound env).jrn.slots = a.jrn.slots := rfl
    simp only [this, Bool.or_eq_true, beq_iff_eq, decide_eq_true_eq]
    right; split <;> omega
  unfold runPacket
  simp only [e1, e2, e3, e4, e5, hb, hi, hp, hport, hready, hauth, hbound, h1, h2]
  rw [if_neg (by simp), if_neg (by omega), if_neg (by omega), if_neg (by omega), if_neg (by simp), if_neg (by omega)]
  have hfit : (decide (env.seq.toNat ≤ (a.part env.partner).lseq)) = false := by simp; omega
  simp only [hfit, hroom, hperm, hsl, decide_true, Bool.true_and, Bool.false_eq_true, if_false, Bool.not_true, List.any_nil, List.length_nil, Bool.or_self]
  unfold runParse
  simp only [e2, e3, e4, hl, h3]
  rw [if_neg (by omega), if_neg (by omega), if_neg (by rw [show (a.bound env).jrn = a.jrn from rfl, hwork]; simp),
    if_neg (by rw [show (a.bound env).jrn = a.jrn from rfl]; omega)]
  simp

theorem bound_rest (env : Env) (a : State) : (a.bound env).rest = a.rest := rfl
theorem bound_part_view {γ : Type} (v : Partner → γ) (h : ∀ (x : Partner) (b : Option Binding), v { x with bind := b } = v x) (env : Env) (a : State) (q : Nat) : v ((a.bound env).part q) = v (a.part q) :=
  setPart_view v a env.partner _ (h _ _) q
theorem consume_lseq (op : Option OpSpec) (k : Pkt) (v : Verdict) (s : State) : ((s.consume op k v).part k.partner).lseq = k.seq := by
  unfold State.consume; dsimp only; rw [part_setPart]; dsimp only; split <;> simp
theorem consume_replay (op : Option OpSpec) (k : Pkt) (v : Verdict) (s : State) :
    tget none (k.seq % 16384) ((s.consume op k v).part k.partner).replays = some (newReplay op k v s.jrn.next) := by
  unfold State.consume; dsimp only; rw [part_setPart]; dsimp only; rw [tget_tput_same]
theorem answer_view {γ : Type} (v : Partner → γ) (h : ∀ (x : Partner) (r : Option (Nat × Nat)), v { x with lastReply := r } = v x) (k : Pkt) (hd : Option (Bool × Nat)) (st : Status) (g c j : Nat) (ws : List Word) (s : State) (q : Nat) :
    v ((s.answer k hd st g c j ws).part q) = v (s.part q) := by
  unfold State.answer; dsimp only; rw [sendPacket_part]; split
  · rfl
  · exact setPart_view v s _ _ (h _ _) q
theorem replyNew_lseq (k : Pkt) (h : Option (Bool × Nat)) (v : Verdict) (j : Nat) (s : State) (q : Nat) : ((s.replyNew k h v j).part q).lseq = (s.part q).lseq := by
  unfold State.replyNew; dsimp only
  rw [jsnCheck_part_lseq, answer_view (fun x : Partner => x.lseq) (fun _ _ => rfl)]
  refine setPart_view (fun x : Partner => x.lseq) s _ _ ?_ q; rfl
theorem replyNew_replays (k : Pkt) (h : Option (Bool × Nat)) (v : Verdict) (j : Nat) (s : State) (q : Nat) : ((s.replyNew k h v j).part q).replays = (s.part q).replays := by
  unfold State.replyNew; dsimp only
  rw [jsnCheck_part_replays, answer_view (fun x : Partner => x.replays) (fun _ _ => rfl)]
  refine setPart_view (fun x : Partner => x.replays) s _ _ ?_ q; rfl

/-- The state at a new command's hand-off: its packet consumed, and where it is ACCEPTED its reply queued (R26, R27). -/
def State.handed (op : OpSpec) (k : Pkt) (v : Verdict) (s : State) : State :=
  let c := s.consume (some op) k v
  if v.status = .accepted then c.replyNew k (k.held false) v s.jrn.next else c
theorem handed_rest (op : OpSpec) (k : Pkt) (v : Verdict) (s : State) : (s.handed op k v).rest = s.rest := by
  unfold State.handed; dsimp only; split <;> simp
theorem handed_lseq (op : OpSpec) (k : Pkt) (v : Verdict) (s : State) : ((s.handed op k v).part k.partner).lseq = k.seq := by
  unfold State.handed; dsimp only; split
  · rw [replyNew_lseq, consume_lseq]
  · exact consume_lseq _ _ _ _
theorem handed_replay (op : OpSpec) (k : Pkt) (v : Verdict) (s : State) :
    tget none (k.seq % 16384) ((s.handed op k v).part k.partner).replays = some (newReplay (some op) k v s.jrn.next) := by
  unfold State.handed; dsimp only; split
  · rw [replyNew_replays, consume_replay]
  · exact consume_replay _ _ _ _

/-- A new command answers a next state: its effect at hand-off, and the reply; the replay record shows it (R285, R329), provided the effect leaves the partner's SEQ and replay records alone. -/
theorem runOp_judged (op : OpSpec) (t : Lapse) (env : Env) (ps : List Word) (rights modes : Nat) (s : State) (v : Verdict)
    (h : (s.elapse t).admits op.code rights modes env ps = true) (h1 : op.code ≠ 1) (h2 : op.code ≠ 2) (h3 : op.code ≠ 3)
    (hj : judge (some op) (pktOf op.code env ps (s.elapse t)) ((s.elapse t).bound env) = v)
    (hsize : entriesFor ((v.stored.getD ps).length + v.reply.length) ≤ 1000)
    (hact : ∀ (j : Nat) (b : State), ((v.act j b).part env.partner).lseq = (b.part env.partner).lseq ∧ ((v.act j b).part env.partner).replays = (b.part env.partner).replays) :
    ∃ u, runOp op t env ps s = .next u ∧ Shows op.code v.status.code v.reply env (s.elapse t) u ∧
      u.rest = (v.act s.jrn.next (((s.elapse t).bound env).handed op (pktOf op.code env ps (s.elapse t)) v)).rest := by
  have hp := runPacket_new op env ps rights modes _ h h1 h2 h3 (by rw [hj]; exact newGroup_entries _ _ _ hsize)
  have hn : ((s.elapse t).bound env).jrn.next = s.jrn.next := by rw [show ((s.elapse t).bound env).jrn = (s.elapse t).jrn from rfl, elapse_jrn]
  have hn' : (s.elapse t).jrn.next = s.jrn.next := by rw [elapse_jrn]
  have hl := handed_lseq op (pktOf op.code env ps (s.elapse t)) v ((s.elapse t).bound env)
  have hr := handed_replay op (pktOf op.code env ps (s.elapse t)) v ((s.elapse t).bound env)
  have key : ∃ u, runPacket (some op) (pktOf op.code env ps (s.elapse t)) (s.elapse t) = u ∧
      (u.part env.partner).lseq = ((v.act s.jrn.next (((s.elapse t).bound env).handed op (pktOf op.code env ps (s.elapse t)) v)).part env.partner).lseq ∧
      (u.part env.partner).replays = ((v.act s.jrn.next (((s.elapse t).bound env).handed op (pktOf op.code env ps (s.elapse t)) v)).part env.partner).replays ∧
      u.rest = (v.act s.jrn.next (((s.elapse t).bound env).handed op (pktOf op.code env ps (s.elapse t)) v)).rest := by
    rw [hp]; refine ⟨_, rfl, ?_⟩
    unfold runNew State.handed
    rw [hj]; dsimp only; rw [hn]
    split
    · exact ⟨rfl, rfl, rfl⟩
    · exact ⟨replyNew_lseq _ _ _ _ _ _, replyNew_replays _ _ _ _ _ _, replyNew_rest _ _ _ _ _⟩
  obtain ⟨u, hu, h4, h5, h6⟩ := key
  refine ⟨u, show Host.Outcome.next _ = _ from congrArg _ hu, ⟨?_, ?_⟩, h6⟩
  · rw [h4, (hact _ _).1]; exact hl
  · rw [h5, (hact _ _).2]
    refine (congrArg (Option.map _) hr).trans ?_
    simp only [newReplay, Option.map_some, hn, hn']
    rfl

/-- An opcode's own verdict stands where the journal has room for its group. -/
theorem judge_eval (op : OpSpec) (env : Env) (ps : List Word) (rights modes : Nat) (a : State) (v : Verdict)
    (h : a.admits op.code rights modes env ps = true) (hr : op.rights ≤ rights) (hm : op.modes = modes)
    (hv : op.eval (pktOf op.code env ps a) (a.bound env) = v)
    (hroom : entriesFor ((v.stored.getD ps).length + v.words.length) + v.promise ≤ 1000) :
    judge (some op) (pktOf op.code env ps a) (a.bound env) = v := by
  simp only [State.admits, Bool.and_eq_true, decide_eq_true_eq] at h
  replace h := h.1.1
  have hrt : op.rights ≤ (a.part env.partner).rights := by omega
  have hmo := h.1.2
  have hlv := h.2
  unfold judge
  have e1 : ((a.bound env).part (pktOf op.code env ps a).partner).rights = (a.part env.partner).rights :=
    bound_part_view (fun x : Partner => x.rights) (fun _ _ => rfl) env _ _
  have e2 : (a.bound env).modes.mode = a.modes.mode := rfl
  have e3 : (a.bound env).jrn = a.jrn := rfl
  have e4 : (pktOf op.code env ps a).ps = ps := rfl
  simp only [hv, e1, e2, e3, e4, hm, hmo]
  rw [if_neg (by omega), if_neg (by simp), if_neg (by omega)]

/-- A command whose own checks pass (`v` is their verdict). -/
theorem runOp_ok (op : OpSpec) (t : Lapse) (env : Env) (ps : List Word) (rights modes : Nat) (s : State) (v : Verdict)
    (h : (s.elapse t).admits op.code rights modes env ps = true) (h1 : op.code ≠ 1) (h2 : op.code ≠ 2) (h3 : op.code ≠ 3)
    (hr : op.rights ≤ rights) (hm : op.modes = modes)
    (hv : op.eval (pktOf op.code env ps (s.elapse t)) ((s.elapse t).bound env) = v) (hok : v.status.ok = true)
    (hroom : entriesFor ((v.stored.getD ps).length + v.words.length) + v.promise ≤ 1000)
    (hact : ∀ (j : Nat) (b : State), ((v.act j b).part env.partner).lseq = (b.part env.partner).lseq ∧ ((v.act j b).part env.partner).replays = (b.part env.partner).replays) :
    ∃ u, runOp op t env ps s = .next u ∧ Shows op.code v.status.code v.words env (s.elapse t) u ∧
      u.rest = (v.act s.jrn.next (((s.elapse t).bound env).handed op (pktOf op.code env ps (s.elapse t)) v)).rest := by
  have hw : v.reply = v.words := by unfold Verdict.reply; simp [hok]
  rw [← hw]
  exact runOp_judged op t env ps rights modes s v h h1 h2 h3 (judge_eval op env ps rights modes _ v h hr hm hv hroom) (by rw [hw]; omega) hact
/-- A command that its own checks refuse changes nothing but the command side (R290). -/
theorem runOp_refused (op : OpSpec) (t : Lapse) (env : Env) (ps : List Word) (rights modes : Nat) (s : State) (st : Status) (ws : List Word)
    (h : (s.elapse t).admits op.code rights modes env ps = true) (h1 : op.code ≠ 1) (h2 : op.code ≠ 2) (h3 : op.code ≠ 3)
    (hr : op.rights ≤ rights) (hm : op.modes = modes) (hne : ws ≠ [])
    (hv : op.eval (pktOf op.code env ps (s.elapse t)) ((s.elapse t).bound env) = refuse st ws) (hl : ws.length ≤ 2048) :
    ∃ u, runOp op t env ps s = .next u ∧ Shows op.code st.code ws env (s.elapse t) u ∧ u.rest = (s.elapse t).rest := by
  have hlen : ps.length ≤ 2048 := by
    simp only [State.admits, Bool.and_eq_true, decide_eq_true_eq] at h; omega
  have hj := judge_eval op env ps rights modes _ _ h hr hm hv (by unfold entriesFor refuse; simp; omega)
  obtain ⟨u, hu, hs, hrest⟩ := runOp_judged op t env ps rights modes s _ h h1 h2 h3 hj (by unfold entriesFor refuse Verdict.reply; simp [hne]; omega) (fun _ _ => ⟨rfl, rfl⟩)
  refine ⟨u, hu, ?_, ?_⟩
  · have : (refuse st ws).reply = ws := by unfold Verdict.reply refuse; simp [hne]
    rw [this] at hs; exact hs
  · rw [hrest]; unfold refuse; rw [handed_rest, bound_rest]

end Sys2Proof.Machine
end

