-- ==== Sys2Proof/Tests/Slice0.lean ====
section
/-! SUPPORT. For every statement with hypotheses, states and operands that meet all hypotheses of each of its clauses; ill-formed operands that WellFormed refuses; a few results worked out by hand from the spec. -/

namespace Sys2Proof.Machine
open Sys2Proof
set_option Elab.async false
/-- A running module: every domain on, every PLL locked, mode IDLE, partner 0 a supervisor bound to the SPI port H2. -/
def W : State := { State.reset with
  pwr := { State.reset.pwr with ready := true, phase := .running, dom := [(0, 2), (1, 2), (2, 2), (3, 2), (4, 2), (5, 2), (6, 2), (7, 2), (8, 2), (9, 2), (10, 2), (11, 2)], req := [(0, 2), (1, 2), (2, 2), (3, 2), (4, 2), (5, 2), (6, 2), (7, 2), (8, 2), (9, 2), (10, 2), (11, 2)], good := true, stages := 3 }
  modes := { State.reset.modes with mode := 1 }
  clk := { State.reset.clk with stopped := false, pllF := { State.reset.clk.pllF with state := 2 }, pllG := { State.reset.clk.pllG with state := 2 }, pllS := { State.reset.clk.pllS with state := 2 }, pllT := { State.reset.clk.pllT with state := 2 }, pllW := { State.reset.clk.pllW with state := 2 } }
  parts := [(0, { rights := 3, bind := some ⟨2, .spi, 0⟩ })] }
/-- A packet of partner 0 on H2 with the next SEQ. -/
def E1 : Env := { port := 2, ep := .spi, mac := 0, partner := 0, seq := 1, tag := none }
/-- No time passes. -/
def L0 : Lapse := ⟨0, 0⟩
/-- A frame as a gateway sends it. -/
def gw (ty low : Nat) (ws : List Word) : List Word :=
  let body := pack [put 47 44 ty, put 43 38 (ws.length + 2), low] :: ws
  body ++ [pack [put 31 0 (crc32c (wireBytes body))]]
/-- A class-1 event on link 2 of an UP pair of nothing. -/
def ev1 : Event := { jsn := 3, partner := 0, slot := 0, tag := 0, action := 1, qty := 0, xdir := 0, lateOk := false, report := 0, target := 42221246506598, step := 0, count := 1, bound := 0, sink := 0x400000000000#48, payload := [7], side := true }
/-- A frame in flight. -/
def sn1 : Sent := { occ := 1, tr := 9, tu := 0, allow := 0, link := 2, win := 0, clkSent := some 0 }
/-- Link 2 UP. -/
def W2 : State := W.setLnk 2 { en := true, state := 3, credits := 64, rxb := 64, wasUp := true, upClk := some 0, tlock := true }
/-- A waiting LENDI_SEND. -/
def snd1 : SendItem := { jsn := 5, partner := 0, tag := 1, pair := false, dest := 9, payload := [1], accClk := 0 }
/-- A start of task 7. -/
def st7 : Start := ⟨7, 1, 3, 9, [4, 5], true, false⟩
/-- C2 runs task 7, whose image lies at 0xC00000. -/
def WC : State := W.setCore 0 { ({ : UCore }.setSlot 7 { loaded := true, owner := 0, entry := 0xC00000, base := 0xC00000, size := 4 }) with run := some st7, pc := 0xC00001, d := [(1, 0x7FFFFFFFFFF0#48), (2, 17)], ap := [(1, 0xC00000#24), (3, 5)], ix := [(1, 5)], off := [(1, 0xFFFFFE#24)], ln := [(1, 16)], lmem := [(5, 0xABC)], a := [(2, 100)] }
/-- H0 with its link up. -/
def WE : State := W.setEth 0 { link := true, wasUp := true }
/-- A segment of three words for H0's UDP port. -/
def fr1 : Frame := ⟨0, .udp4 0xC0A83001#32 5000, 7, 0, fld ({ : EthPage }.cfg) 27 12, false, false, 18, transport 0 1 5 3, [1, 2, 3]⟩
/-- A sealed command of partner 0. -/
def gr1 : Group := { jsn := 1, kind := 0, partner := 0, port := 2, opcode := 0x101, status := 0, key := 1, tq := 0, params := [5], reply := [] }
/-- SERVICE mode. -/
def WS : State := W.putModes { W.modes with mode := 11 }

/-- Each clause of StepRunsFront has a case. -/
theorem hyp_StepRunsFront :
    (fun (s : State) (c : Instr) (rest : List Instr) => s.pending = c :: rest) ({ W with pending := [.leapChange L0, .wheelSweep L0] }) (.leapChange L0) ([.wheelSweep L0]) ∧
    (fun (s : State) => s.pending = []) W :=
  by and_intros <;> decide +kernel

/-- Each clause of LeapChange has a case. -/
theorem hyp_LeapChange :
    (fun (t : Lapse) (s : State) => let a := s.elapse t; a.tb.leapPend = true ∧ a.tb.tsrc ≠ 0 ∧ ahead (mkQ (word a.tb.leapAt) 0) (mkQ (cyc a.tb.q0) 0) = false) L0 (W.putTb { W.tb with leapPend := true, tsrc := 1, leapAt := 5, leapNext := 19, q0 := mkQ 5 0 }) ∧
    (fun (t : Lapse) (s : State) => let a := s.elapse t; (a.tb.leapPend = false ∨ a.tb.tsrc = 0 ∨ ahead (mkQ (word a.tb.leapAt) 0) (mkQ (cyc a.tb.q0) 0) = true)) L0 (W.putTb { W.tb with leapPend := true, tsrc := 1, leapAt := 6, leapNext := 19, q0 := mkQ 5 0xFFFFFFFFFFFF }) :=
  by and_intros <;> decide +kernel

/-- Each clause of SlewOrStep has a case. -/
theorem hyp_SlewOrStep :
    (fun (t : Lapse) (s : State) => let a := s.elapse t; let e := a.tb.residNow; let p := a.tb.takePermit; a.tb.tsrc = 4 ∧ atSecond a.tb = true ∧ a.tb.step = none ∧ (p.permit = 0 ∨ e.natAbs ≤ p.stepThr * 1000)) L0 (W.putTb { W.tb with tsrc := 4, permit := 2, resid := -1000000 }) ∧
    (fun (t : Lapse) (s : State) => let a := s.elapse t; let e := a.tb.residNow; let p := a.tb.takePermit; a.tb.tsrc = 4 ∧ atSecond a.tb = true ∧ a.tb.step = none ∧ p.permit ≠ 0 ∧ p.stepThr * 1000 < e.natAbs) L0 (W.putTb { W.tb with tsrc := 4, permit := 2, resid := -1000001 }) ∧
    (fun (t : Lapse) (s : State) => let a := s.elapse t; let e := a.tb.residNow; a.tb.slew.isSome = true ∧ e.natAbs < 1000) L0 (W.putTb { W.tb with tsrc := 4, slew := some (999, 0, 100), resid := 999 }) ∧
    (fun (t : Lapse) (s : State) => let a := s.elapse t; let e := a.tb.residNow; (a.tb.slew = none ∨ 1000 ≤ e.natAbs)) L0 (W.putTb { W.tb with tsrc := 4, slew := some (1000, 0, 100), resid := 1000 }) :=
  by and_intros <;> decide +kernel

/-- Each clause of StepAnnounced has a case. -/
theorem hyp_StepAnnounced :
    (fun (t : Lapse) (s : State) (p : StepPlan) => let a := s.elapse t; a.tb.plan = some p ∧ atSecond a.tb = true ∧ a.tb.step = none) L0 ((W.putTb { W.tb with tsrc := 4, permit := 1, plan := some ⟨1, 5000000, 1, none⟩ }).setLnk 2 { en := true, state := 3 }) (⟨1, 5000000, 1, none⟩) :=
  by decide +kernel

/-- Each clause of StepApplied has a case. -/
theorem hyp_StepApplied :
    (fun (t : Lapse) (s : State) (st : Announced) => let a := s.elapse t; a.tb.step = some st ∧ st.n ≤ (cyc a.tb.q0).toNat ∧ (a.tb.tsrc = 0 ∨ a.tb.tsrc = 4) ∧ (st.plan.after = 1 ∨ st.plan.after = 3 ∨ st.plan.after = 5)) L0 ((W.putTb { W.tb with step := some ⟨3, 5000000, ⟨0, -17, 5, some 7⟩⟩, q0 := mkQ 3 0 }).setOut 1 { conf := { cfg := 0x200005F5E100#48 }, state := 2 }) (⟨3, 5000000, ⟨0, -17, 5, some 7⟩⟩) :=
  by decide +kernel

/-- Each clause of TimeCommands has a case. -/
theorem hyp_TimeCommands :
    (fun (t : Lapse) (env : Env) (ps : List Word) (s : State) => let a := s.elapse t; let w := arg ps 0; a.admits 0x071 3 0xFFE env ps = true ∧ ps.length = 1 ∧ fld w 47 46 ≠ 3 ∧ fld w 45 24 ≠ 0 ∧ 1 ≤ fld w 23 16 ∧ fld w 23 16 ≤ 100) L0 E1 ([0x800064640000#48]) W ∧
    (fun (t : Lapse) (env : Env) (ps : List Word) (s : State) => let a := s.elapse t; let w := arg ps 0; a.admits 0x071 3 0xFFE env ps = true ∧ ps.length = 1 ∧ (fld w 47 46 = 3 ∨ fld w 45 24 = 0 ∨ fld w 23 16 = 0 ∨ 100 < fld w 23 16)) L0 E1 ([0x800064650000#48]) W ∧
    (fun (t : Lapse) (env : Env) (ps : List Word) (s : State) => let a := s.elapse t; let w := arg ps 0; a.admits 0x030 2 0x7FE env ps = true ∧ ps.length = 5 ∧ fld w 47 46 = 0 ∧ fld w 45 14 ≠ 0 ∧ a.tb.tsrc = 0 ∧ a.tb.step = none) L0 E1 ([0x000000190000#48, 0x53724E00#48, 0, 0, 0]) W :=
  by and_intros <;> decide +kernel

/-- Each clause of QuadratureCounts has a case. -/
theorem hyp_QuadratureCounts :
    (fun (t : Lapse) (s : State) (n : Nat) (isB : Bool) (level : Bool) => let a := s.elapse t; let q := (a.qty n).pin isB level; 0 < n ∧ n < 5 ∧ a.isOn 11 = true ∧ a.pinsLatched 11 = false ∧ a.kind n = 1 ∧ q.ref isB ≠ level ∧ q.accepts a.tb.clk = true ∧ a.absorbing n = false) L0 (W.setQty 1 { cfg0 := 0x120000000000#48, cfg1 := 4000 }) 1 false true ∧
    (fun (t : Lapse) (s : State) (n : Nat) (isB : Bool) (level : Bool) => let a := s.elapse t; let q := (a.qty n).pin isB level; 0 < n ∧ n < 5 ∧ a.isOn 11 = true ∧ a.pinsLatched 11 = false ∧ (q.ref isB = level ∨ q.accepts a.tb.clk = false)) L0 (W.setQty 1 { cfg0 := 0x120000000000#48, cfg1 := 4000 }) 1 true false ∧
    (fun (t : Lapse) (s : State) (n : Nat) => let a := s.elapse t; let q := a.qty n; a.counting n 1 = true ∧ 0 < n ∧ n < 8 ∧ fld q.cfg1 33 32 = 1) L0 (W.setQty 1 { cfg0 := 0x120000000000#48, cfg1 := 0x100000FA0#48, cfg2 := 0x800000000001#48, vu := mkQ 7 0x100000000000#48 }) 1 ∧
    (fun (t : Lapse) (s : State) (n : Nat) => let a := s.elapse t; let q := a.qty n; a.counting n 1 = true ∧ 0 < n ∧ fld q.cfg1 33 32 = 0) L0 (W.setQty 1 { cfg0 := 0x120000000000#48, cfg1 := 4000 }) 1 ∧
    (fun (t : Lapse) (s : State) (n : Nat) => let a := s.elapse t; let q := a.qty n; 0 < n ∧ n < 5 ∧ a.isOn 11 = true ∧ a.pinsLatched 11 = false ∧ a.kind n = 1 ∧ q.refA = q.pinA ∧ q.refB = q.pinB ∧ q.accepts a.tb.clk = true) L0 (W.setQty 1 { cfg0 := 0x120000000000#48, cfg1 := 4000 }) 1 :=
  by and_intros <;> decide +kernel

/-- Each clause of EncoderAndPulseSources has a case. -/
theorem hyp_EncoderAndPulseSources :
    (fun (t : Lapse) (s : State) (n : Nat) (err : Bool) (low : Bool) => let a := s.elapse t; let q := a.qty n; a.counting n 2 = true ∧ 0 < n ∧ ((err = true ∧ bit q.cfg1 14 = true) ∨ low = true)) L0 (W.setQty 1 { cfg0 := 0x220000000000#48, cfg1 := 0x190C0C4000#48 }) 1 true false ∧
    (fun (t : Lapse) (s : State) (n : Nat) (err : Bool) (low : Bool) => let a := s.elapse t; let q := a.qty n; a.counting n 2 = true ∧ a.absorbing n = false ∧ 0 < n ∧ n < 8 ∧ err = false ∧ low = false ∧ bit q.cfg1 15 = false ∧ q.ssiRaw = none ∧ bit q.cfg0 42 = false) L0 (W.setQty 1 { cfg0 := 0x220000000000#48, cfg1 := 0x190C0C0000#48 }) 1 false false ∧
    (fun (t : Lapse) (s : State) (n : Nat) => let a := s.elapse t; a.counting n 3 = true ∧ a.absorbing n = false ∧ 0 < n ∧ n < 8) L0 (W.setQty 2 { cfg0 := 0x360000000000#48, cfg2 := 99 }) 2 ∧
    (fun (t : Lapse) (s : State) (n : Nat) => let a := s.elapse t; a.counting 4 8 = true ∧ n = 4) L0 (W.setQty 4 { cfg0 := 0x820000000000#48, vu := mkQ 0xFFFFFFFFFFFF#48 7 }) 4 ∧
    (fun (t : Lapse) (s : State) (r : TrimRun) => let a := s.elapse t; a.counting 5 4 = true ∧ a.rtc.run = some r ∧ r.kind = 1) L0 (((W.setQty 5 { cfg0 := 0x420000000000#48 }).putRtc { W.rtc with run := some { kind := 1, owner := none, hours := 1, auto := false, waiting := false, rtc0 := 0, true0 := 9 } })) ({ kind := 1, owner := none, hours := 1, auto := false, waiting := false, rtc0 := 0, true0 := 9 }) :=
  by and_intros <;> decide +kernel

/-- Each clause of QuantityStaleness has a case. -/
theorem hyp_QuantityStaleness :
    (fun (t : Lapse) (s : State) (n : Nat) (ms : Nat) => let a := s.elapse t; let q := a.qty n; 0 < n ∧ n < 8 ∧ a.isOn 11 = true ∧ timeoutMs q = some ms ∧ ms * 654720 < a.tb.clk - q.tuClk) L0 ((W.putTb { W.tb with clk := 700000000 }).setQty 3 { cfg0 := 0x120000000000#48, fed := true, rate := 5, valid := true }) 3 1000 ∧
    (fun (t : Lapse) (s : State) (n : Nat) (ms : Nat) => let a := s.elapse t; let q := a.qty n; timeoutMs q = some ms ∧ a.tb.clk - q.tuClk ≤ ms * 654720) L0 (W.setQty 3 { cfg0 := 0x120000000000#48, fed := true }) 3 1000 ∧
    (fun (t : Lapse) (s : State) => let a := s.elapse t; a.isOn 11 = true ∧ a.tb.dpClk.all (fun c => decide (c + 32 ≤ a.tb.clk)) = true) L0 (W.setQty 3 { cfg0 := 0x120000000000#48, fed := true, vu := mkQ 1 2 }) ∧
    (fun (t : Lapse) (s : State) => let a := s.elapse t; a.tb.dpClk.any (fun c => decide (a.tb.clk < c + 32)) = true) L0 (W.putTb { W.tb with dpClk := some 0, clk := 31 }) :=
  by and_intros <;> decide +kernel

/-- Each clause of QuantityCommands has a case. -/
theorem hyp_QuantityCommands :
    (fun (t : Lapse) (env : Env) (ps : List Word) (s : State) => let a := s.elapse t; let n := fld (arg ps 0) 47 44; a.admits 0x080 2 0xFFE env ps = true ∧ ps.length = 6 ∧ n ≠ 0 ∧ a.qcfgBad n (arg ps 1) (arg ps 2) (arg ps 3) = false ∧ a.qcfgHeld n = false) L0 E1 ([0x100000000000#48, 0x120000000000#48, 4000, 0, 0, 0]) W ∧
    (fun (t : Lapse) (env : Env) (ps : List Word) (s : State) => let a := s.elapse t; let n := fld (arg ps 0) 47 44; a.admits 0x080 2 0xFFE env ps = true ∧ ps.length = 6 ∧ n ≠ 0 ∧ a.qcfgBad n (arg ps 1) (arg ps 2) (arg ps 3) = false ∧ a.qcfgHeld n = true) L0 E1 ([0x100000000000#48, 0x120000000000#48, 4000, 0, 0, 0]) (W.setQty 9 { cfg0 := 0x620800000000#48 }) ∧
    (fun (t : Lapse) (env : Env) (ps : List Word) (s : State) => let a := s.elapse t; a.admits 0x081 1 0xFFE env ps = true ∧ ps.length = 1 ∧ fld (arg ps 0) 47 32 ≠ 0) L0 E1 ([0xC00100000000#48]) W :=
  by and_intros <;> decide +kernel

/-- Each clause of OutputConfiguration has a case. -/
theorem hyp_OutputConfiguration :
    (fun (t : Lapse) (env : Env) (ps : List Word) (s : State) => let a := s.elapse t; let n := fld (arg ps 0) 47 45; let c := OutCfg.masked ⟨arg ps 1, arg ps 2, arg ps 3, arg ps 4⟩; a.admits 0x070 2 0xFFE env ps = true ∧ ps.length = 5 ∧ a.outBad n c = false ∧ a.outHeld n c = false ∧ a.isOn 11 = true) L0 E1 ([0x200000000000#48, 0x200005F5E100#48, 0x00003B9ACA00#48, 0, 0]) W ∧
    (fun (t : Lapse) (env : Env) (ps : List Word) (s : State) => let a := s.elapse t; let n := fld (arg ps 0) 47 45; let c := OutCfg.masked ⟨arg ps 1, arg ps 2, arg ps 3, arg ps 4⟩; a.admits 0x070 2 0xFFE env ps = true ∧ ps.length = 5 ∧ a.outBad n c = true) L0 E1 ([0x200000000000#48, 0x200000000009#48, 0x00003B9ACA00#48, 0, 0]) W ∧
    (fun (t : Lapse) (env : Env) (ps : List Word) (s : State) => let a := s.elapse t; let n := fld (arg ps 0) 47 45; let c := OutCfg.masked ⟨arg ps 1, arg ps 2, arg ps 3, arg ps 4⟩; a.admits 0x070 2 0xFFE env ps = true ∧ ps.length = 5 ∧ a.outBad n c = false ∧ a.outHeld n c = true) L0 E1 ([0x200000000000#48, 0x200005F5E100#48, 0x00003B9ACA00#48, 0, 0]) (W.putSch { W.sch with events := [{ jsn := 3, partner := 0, slot := 0, tag := 0, action := 0, qty := 0, xdir := 0, lateOk := false, report := 0, target := 0, step := 0, count := 1, bound := 0, sink := 0x200000000000#48, payload := [], side := false }] }) ∧
    (fun (t : Lapse) (s : State) (n : Nat) (w : OutWait) => let a := s.elapse t; (a.out n).wait = some w ∧ a.isOn 11 = true ∧ behind a.tb.q0 w.at_ = false) L0 (W.setOut 1 { wait := some ⟨{ cfg := 0x240005F5E100#48 }, 0, 3⟩ }) 1 (⟨{ cfg := 0x240005F5E100#48 }, 0, 3⟩) :=
  by and_intros <;> decide +kernel

/-- Each clause of OutputEdges has a case. -/
theorem hyp_OutputEdges :
    (fun (t : Lapse) (s : State) (n : Nat) (e : Qval) => let a := s.elapse t; let o := a.out n; o.next = some e ∧ n < 8 ∧ a.isOn 11 = true ∧ o.conf.periodic = true ∧ o.state = 2 ∧ a.pwr.timeDown = false ∧ a.pwr.latched.testBit 0 = false ∧ behind a.tb.q0 e = false ∧ (match o.wait with | some w => ahead w.at_ e | none => true) = true) L0 (W.setOut 1 { conf := { cfg := 0x200005F5E100#48 }, state := 2, next := some 0 }) 1 0 ∧
    (fun (t : Lapse) (s : State) (n : Nat) => let a := s.elapse t; let o := a.out n; n < 8 ∧ a.isOn 11 = true ∧ a.tb.tsrc = 2 ∧ o.state = 2 ∧ (o.conf.periodic = true ∨ (o.conf.clock = true ∧ o.conf.src = 1)) ∧ (fld o.conf.hold 47 24 ≠ 0 ∧ fld o.conf.hold 47 24 ≤ a.tb.holdSeconds) ∨ (fld o.conf.hold 23 0 ≠ 0 ∧ fld o.conf.hold 23 0 * 1000 ≤ a.tb.tqeNow)) L0 ((W.putTb { W.tb with tsrc := 2 }).setOut 1 { conf := { cfg := 0x200005F5E100#48, hold := 5 }, state := 2, next := some 0 }) 1 ∧
    (fun (t : Lapse) (s : State) (n : Nat) => let a := s.elapse t; let o := a.out n; n < 8 ∧ a.isOn 11 = true ∧ o.state = 3 ∧ (a.tb.tsrc = 1 ∨ a.tb.tsrc = 3) ∧ o.conf.periodic = true ∧ a.tb.tsrcAt.all (fun b => decide (uOf b + 2 ^ 48 / 1000 + 1 ≤ uOf a.tb.q0)) = true) L0 ((W.putTb { W.tb with tsrc := 1 }).setOut 1 { conf := { cfg := 0x200005F5E100#48, hold := 5 }, state := 3 }) 1 ∧
    (fun (t : Lapse) (s : State) (n : Nat) => let a := s.elapse t; let o := a.out n; n < 8 ∧ a.isOn 11 = true ∧ o.state = 3 ∧ (a.tb.tsrc = 1 ∨ a.tb.tsrc = 3) ∧ o.conf.periodic = false) L0 ((W.putTb { W.tb with tsrc := 3 }).setOut 6 { conf := { cfg := 0x600000000000#48, div := 5, hold := 5 }, state := 3 }) 6 ∧
    (fun (t : Lapse) (s : State) (n : Nat) => let a := s.elapse t; let o := a.out n; (o.state ≠ 3 ∨ (a.tb.tsrc ≠ 1 ∧ a.tb.tsrc ≠ 3))) L0 W 6 :=
  by and_intros <;> decide +kernel

/-- Each clause of LossOfLock has a case. -/
theorem hyp_LossOfLock :
    (fun (t : Lapse) (s : State) (p : Nat) => let a := s.elapse t; let l := a.clk.pll p; p < 5 ∧ l.state = 2 ∧ a.clk.refOk = true) L0 (W.putClk { W.clk with pllS := { W.clk.pllS with state := 2 }, oppD1 := { freq := 2, req := 2 } }) 2 ∧
    (fun (t : Lapse) (s : State) (p : Nat) => let a := s.elapse t; let l := a.clk.pll p; p < 5 ∧ l.state = 3 ∧ a.clk.refOk = true ∧ (a.safePoint p = true ∨ 654720 ≤ a.tb.clk - l.since.getD a.tb.clk)) L0 ((W.putTb { W.tb with clk := 654720 }).putClk { W.clk with pllF := { W.clk.pllF with state := 3, since := some 0 } }) 0 ∧
    (fun (t : Lapse) (s : State) (p : Nat) => let a := s.elapse t; let l := a.clk.pll p; l.state = 3 ∧ a.clk.refOk = true ∧ a.safePoint p = false ∧ a.tb.clk - l.since.getD a.tb.clk < 654720) L0 (W.putClk { W.clk with pllG := { W.clk.pllG with state := 3, since := some 0 } } |>.putGale { W.gale with engs := [(0, { busy := 9 })] }) 1 ∧
    (fun (t : Lapse) (s : State) (p : Nat) => let a := s.elapse t; let l := a.clk.pll p; p < 5 ∧ (l.state = 1 ∨ l.state = 4)) L0 (W.putClk { W.clk with pllG := { W.clk.pllG with state := 1 } }) 1 ∧
    (fun (t : Lapse) (s : State) (p : Nat) => let a := s.elapse t; let l := a.clk.pll p; p < 5 ∧ (l.state = 1 ∨ l.state = 4) ∧ a.isOn 11 = true ∧ a.clk.refOk = true) L0 (W.putClk { W.clk with pllF := { W.clk.pllF with state := 4, since := some 0 } }) 0 :=
  by and_intros <;> decide +kernel

/-- Each clause of ReferenceLoss has a case. -/
theorem hyp_ReferenceLoss :
    (fun (t : Lapse) (s : State) => let a := s.elapse t; a.clk.refOk = true) L0 ((W.putTb { W.tb with tsrc := 1 }).putClk { W.clk with pllF := { W.clk.pllF with state := 2 } }) ∧
    (fun (t : Lapse) (s : State) => let a := s.elapse t; a.clk.refOk = false ∧ a.clk.lostClk.any (fun c => decide (c + 6547200 ≤ a.tb.clk)) = true) L0 ((W.putTb { W.tb with clk := 6547200 }).putClk { W.clk with refOk := false, lostClk := some 0 }) ∧
    (fun (t : Lapse) (s : State) => let a := s.elapse t; a.clk.refOk = false) L0 (W.putClk { W.clk with refOk := false, lostClk := some 0, pllF := { W.clk.pllF with state := 3 }, warmed := true }) ∧
    (fun (t : Lapse) (s : State) => let a := s.elapse t; a.clk.refOk = true ∧ a.clk.ocxo = 0 ∧ a.clk.stopped = false) L0 W :=
  by and_intros <;> decide +kernel

/-- Each clause of OperatingPoints has a case. -/
theorem hyp_OperatingPoints :
    (fun (t : Lapse) (s : State) (i : Nat) (pt : Nat) => let a := s.elapse t; let o := a.clk.opp i; i < 4 ∧ pt < 3 ∧ o.volt < pt) L0 (W.putClk { W.clk with oppD3 := { volt := 1, freq := 1 } }) 1 2 ∧
    (fun (t : Lapse) (s : State) (i : Nat) (pt : Nat) => let a := s.elapse t; let o := a.clk.opp i; i < 4 ∧ pt < 3 ∧ pt ≤ o.volt ∧ ((oppPll i pt).map fun p => (a.clk.pll p).state).getD 2 = 2) L0 (W.putClk { W.clk with oppD3 := { volt := 1, freq := 0 }, pllG := { W.clk.pllG with state := 2 } }) 1 1 ∧
    (fun (t : Lapse) (s : State) (i : Nat) (pt : Nat) => let a := s.elapse t; let o := a.clk.opp i; i < 4 ∧ pt < o.volt ∧ o.volt < 3 ∧ pt < o.freq) L0 W 1 1 ∧
    (fun (t : Lapse) (s : State) (i : Nat) (pt : Nat) => let a := s.elapse t; let o := a.clk.opp i; i < 4 ∧ pt < o.volt ∧ o.volt < 3 ∧ o.freq ≤ pt) L0 (W.putClk { W.clk with oppD3 := { volt := 2, freq := 1 } }) 1 1 ∧
    (fun (t : Lapse) (s : State) (i : Nat) (pt : Nat) => let a := s.elapse t; let o := a.clk.opp i; i < 4 ∧ pt < 3 ∧ o.volt < pt) L0 (W.putClk { W.clk with oppD3 := { volt := 1, freq := 1 } }) 1 2 ∧
    (fun (t : Lapse) (s : State) (i : Nat) (pt : Nat) => let a := s.elapse t; let o := a.clk.opp i; i < 4 ∧ o.settling = some pt) L0 (W.putClk { W.clk with oppD3 := { volt := 1, freq := 1, settling := some 2 } }) 1 2 :=
  by and_intros <;> decide +kernel

/-- Each clause of ScheduleAccepted has a case. -/
theorem hyp_ScheduleAccepted :
    (fun (t : Lapse) (env : Env) (ps : List Word) (s : State) => let a := s.elapse t; let e := schedEvent env.partner 0 (freeSlot a.sch.events 0 a.sch.events.length) ps (a.value (fld (arg ps 0) 27 24)); a.admits 0x090 2 0xFFE env ps = true ∧ schedField ps = false ∧ a.kind e.qty ≠ 15 ∧ a.sinkHeld e = false ∧ a.sinkFailed e = none ∧ a.leadShort e = false ∧ a.passed e = false ∧ a.schedFull e = false ∧ densityOk a.sch.events e = true ∧ a.fullLinks e = []) L0 E1 ([0x000140000000#48, 5, 0, 0, 0, 0x000001000000#48, 0, 0]) W ∧
    (fun (t : Lapse) (env : Env) (ps : List Word) (s : State) => let a := s.elapse t; a.admits 0x090 2 0xFFE env ps = true ∧ schedField ps = true) L0 E1 ([0x000140C00000#48, 5, 0, 0, 0, 0x000001000000#48, 0, 0]) W ∧
    (fun (t : Lapse) (env : Env) (ps : List Word) (s : State) => let a := s.elapse t; let e := schedEvent env.partner 0 (freeSlot a.sch.events 0 a.sch.events.length) ps (a.value (fld (arg ps 0) 27 24)); a.admits 0x090 2 0xFFE env ps = true ∧ schedField ps = false ∧ a.kind e.qty = 15) L0 E1 ([0x000141000000#48, 5, 0, 0, 0, 0x000001000000#48, 0, 0]) W ∧
    (fun (t : Lapse) (env : Env) (ps : List Word) (s : State) => let a := s.elapse t; let e := schedEvent env.partner 0 (freeSlot a.sch.events 0 a.sch.events.length) ps (a.value (fld (arg ps 0) 27 24)); a.admits 0x090 2 0xFFE env ps = true ∧ schedField ps = false ∧ a.kind e.qty ≠ 15 ∧ a.sinkHeld e = true) L0 E1 ([0x000100000000#48, 5, 0, 0, 0, 0x000001000000#48, 0, 0]) W :=
  by and_intros <;> decide +kernel

/-- Each clause of OccurrenceReleased has a case. -/
theorem hyp_OccurrenceReleased :
    (fun (t : Lapse) (s : State) (jsn : Word) (e : Event) => let a := s.elapse t; a.event jsn.toNat = some e ∧ (e.action = 0 ∨ e.action = 2 ∨ e.action = 3) ∧ e.sought = true ∧ e.st = .pending ∧ e.armed = false ∧ (a.predict e e.goal).any (fun p => decide (qdist p a.tb.q0 ≤ usUnits 10)) = true ∧ (a.sch.events.filter fun x => x.armed && e.sameQueue x).length < 320 ∧ a.isOn 11 = true) L0 (W.putSch { W.sch with events := [{ jsn := 3, partner := 0, slot := 0, tag := 0, action := 0, qty := 0, xdir := 0, lateOk := false, report := 0, target := 9, step := 0, count := 1, bound := 0, sink := 0x200000000000#48, payload := [], side := false }] }) 3 ({ jsn := 3, partner := 0, slot := 0, tag := 0, action := 0, qty := 0, xdir := 0, lateOk := false, report := 0, target := 9, step := 0, count := 1, bound := 0, sink := 0x200000000000#48, payload := [], side := false }) ∧
    (fun (t : Lapse) (s : State) (jsn : Word) (e : Event) => let a := s.elapse t; a.event jsn.toNat = some e ∧ e.action ≠ 1 ∧ e.qty = 0 ∧ a.mayRelease = true ∧ a.due e = true ∧ a.isFirst e = true ∧ e.jump = none ∧ (e.count = 0 ∨ e.occ + 1 ≤ e.count)) L0 ((W.putTb { W.tb with q0 := 9 }).putSch { W.sch with events := [{ jsn := 3, partner := 0, slot := 0, tag := 0, action := 4, qty := 0, xdir := 0, lateOk := false, report := 0, target := 9, step := 281474977, count := 2, bound := 0, sink := 0, payload := [], side := false }] }) 3 ({ jsn := 3, partner := 0, slot := 0, tag := 0, action := 4, qty := 0, xdir := 0, lateOk := false, report := 0, target := 9, step := 281474977, count := 2, bound := 0, sink := 0, payload := [], side := false }) ∧
    (fun (t : Lapse) (s : State) (jsn : Word) (e : Event) => let a := s.elapse t; a.event jsn.toNat = some e ∧ e.action ≠ 1 ∧ e.qty = 0 ∧ a.mayRelease = true ∧ a.due e = true ∧ a.isFirst e = true ∧ e.jump = none ∧ e.count ≠ 0 ∧ e.count ≤ e.occ ∧ e.sent = [] ∧ e.cancelled = false) L0 (((W.putTb { W.tb with q0 := 9 }).setOut 1 { conf := { cfg := 0x200000000064#48, div := 0 }, state := 2 }).putSch { W.sch with events := [{ jsn := 3, partner := 0, slot := 0, tag := 0, action := 0, qty := 0, xdir := 0, lateOk := false, report := 0, target := 9, step := 0, count := 1, bound := 0, sink := 0x200000000000#48, payload := [], side := false }] }) 3 ({ jsn := 3, partner := 0, slot := 0, tag := 0, action := 0, qty := 0, xdir := 0, lateOk := false, report := 0, target := 9, step := 0, count := 1, bound := 0, sink := 0x200000000000#48, payload := [], side := false }) :=
  by and_intros <;> decide +kernel

/-- Each clause of CancelQueryReevaluate has a case. -/
theorem hyp_CancelQueryReevaluate :
    (fun (t : Lapse) (env : Env) (ps : List Word) (s : State) (e : Event) => let a := s.elapse t; let jsn := (arg ps 1).toNat; a.admits 0x091 2 0xFFE env ps = true ∧ ps.length = 2 ∧ fld (arg ps 0) 47 46 = 0 ∧ a.sch.events = [e] ∧ e.jsn = jsn ∧ e.partner = env.partner ∧ a.sch.ended = [] ∧ a.due e = false ∧ e.sought = true ∧ e.sent = []) L0 E1 ([0, 3]) (W.putSch { W.sch with events := [{ jsn := 3, partner := 0, slot := 0, tag := 0, action := 4, qty := 1, xdir := 0, lateOk := false, report := 0, target := 9, step := 0, count := 1, bound := 0, sink := 0, payload := [], side := false }] }) ({ jsn := 3, partner := 0, slot := 0, tag := 0, action := 4, qty := 1, xdir := 0, lateOk := false, report := 0, target := 9, step := 0, count := 1, bound := 0, sink := 0, payload := [], side := false }) ∧
    (fun (t : Lapse) (env : Env) (ps : List Word) (s : State) => let a := s.elapse t; let jsn := (arg ps 0).toNat; a.admits 0x092 1 0xFFE env ps = true ∧ ps.length = 1 ∧ a.event jsn = none ∧ a.sch.ended.find? (fun x => x.jsn == jsn) = none) L0 E1 ([77]) W ∧
    (fun (t : Lapse) (s : State) (e : Event) => let a := s.elapse t; a.pwr.ready = true ∧ a.isOn 11 = true ∧ a.sch.events = [e] ∧ e.st = .restarted ∧ e.sought = true ∧ e.sent = [] ∧ e.cancelled = false) L0 (W.putSch { W.sch with events := [{ jsn := 3, partner := 0, slot := 0, tag := 0, action := 4, qty := 1, xdir := 0, lateOk := false, report := 0, target := 9, step := 0, count := 1, bound := 0, sink := 0, payload := [], side := false, st := .restarted }] }) ({ jsn := 3, partner := 0, slot := 0, tag := 0, action := 4, qty := 1, xdir := 0, lateOk := false, report := 0, target := 9, step := 0, count := 1, bound := 0, sink := 0, payload := [], side := false, st := .restarted }) :=
  by and_intros <;> decide +kernel

/-- Each clause of QuantityMirror has a case. -/
theorem hyp_QuantityMirror :
    (fun (t : Lapse) (s : State) => let a := s.elapse t; let idx := a.tb.q0.toNat / 2 ^ 32; a.isOn 11 = true ∧ idx ≠ a.sch.swept ∧ tget 0 7 a.pwr.req ≠ 1) L0 (W.putTb { W.tb with q0 := 4294967296 }) ∧
    (fun (t : Lapse) (s : State) => let a := s.elapse t; let idx := a.tb.q0.toNat / 2 ^ 32; idx = a.sch.swept) L0 W :=
  by and_intros <;> decide +kernel

/-- Each clause of LinkTraining has a case. -/
theorem hyp_LinkTraining :
    (fun (t : Lapse) (s : State) (l : Nat) (ws : List Word) => let a := s.elapse t; let k := a.lnk l; let rxb := fld (arg ws 0) 23 12; l < 8 ∧ k.state = 1 ∧ frameGood ws = true ∧ frameType ws = 8 ∧ 64 ≤ rxb ∧ (k.pair = none ∨ arg ws 1 = k.pairGw)) L0 (W.setLnk 2 { en := true, state := 1 }) 2 (gw 8 0x40000 [0xABC, 0]) ∧
    (fun (t : Lapse) (s : State) (l : Nat) (ws : List Word) => let a := s.elapse t; let k := a.lnk l; let rxb := fld (arg ws 0) 23 12; l < 8 ∧ k.state = 1 ∧ frameGood ws = true ∧ frameType ws = 8 ∧ rxb < 64) L0 (W.setLnk 2 { en := true, state := 1 }) 2 (gw 8 0x3F000 [0xABC, 0]) ∧
    (fun (t : Lapse) (s : State) (l : Nat) (ws : List Word) => let a := s.elapse t; let k := a.lnk l; l < 8 ∧ (k.state = 2 ∨ k.state = 3) ∧ frameGood ws = true ∧ frameType ws = 10) L0 W2 2 (gw 10 5 []) ∧
    (fun (t : Lapse) (s : State) (l : Nat) (ws : List Word) => let a := s.elapse t; let k := a.lnk l; l < 8 ∧ k.state ≠ 0 ∧ frameGood ws = false) L0 W2 2 ([1, 2, 3]) ∧
    (fun (t : Lapse) (s : State) (l : Nat) (ws : List Word) (dep4 : Int) (arr4 : Int) => let a := s.elapse t; let k := a.lnk l; let w := fld (arg ws 1) 47 32; let dn := sfld (arg ws 1) 31 0 - dep4; let up := arr4 - sfld (arg ws 2) 47 24; let theta := halfOpen (dn - up + k.asym); l < 8 ∧ (k.state = 2 ∨ k.state = 3) ∧ frameGood ws = true ∧ frameType ws = 11 ∧ k.dep4 = some (w, dep4) ∧ k.arr4 = some (w, arr4) ∧ theta.natAbs ≤ 1000000) L0 (W.setLnk 2 { en := true, state := 2, good := 15, dep4 := some (100, 4), arr4 := some (100, 5000) }) 2 (gw 11 0 [0x006400001388#48, 0x000004000000#48]) 4 5000 ∧
    (fun (t : Lapse) (s : State) (l : Nat) (wseq : Nat) => let a := s.elapse t; l < 8 ∧ (a.lnk l).state ≠ 0 ∧ wseq % 100 = 0) L0 W2 2 65500 :=
  by and_intros <;> decide +kernel

/-- Each clause of LinkStates has a case. -/
theorem hyp_LinkStates :
    (fun (t : Lapse) (s : State) (l : Nat) => let a := s.elapse t; let k := a.lnk l; l < 8 ∧ k.state = 3 ∧ a.sch.events.any (fun e => e.sent.any fun x => x.link == l && x.clkSent.isSome && !x.acked && ahead x.tr a.tb.q0 && decide (winStart x.win + usUnits 60 ≤ uOf a.tb.q0)) = true) L0 ((W2.putTb { W2.tb with q0 := 42221246506598 }).putSch { W2.sch with events := [{ ev1 with sent := [{ sn1 with tr := 52221246506598 }] }] }) 2 ∧
    (fun (t : Lapse) (s : State) (l : Nat) => let a := s.elapse t; let k := a.lnk l; l < 8 ∧ k.state = 3 ∧ (50000 < k.theta.natAbs ∨ k.lastTs + 6547200 ≤ a.tb.clk)) L0 (W2.setLnk 2 { (W2.lnk 2) with theta := -50001 }) 2 ∧
    (fun (t : Lapse) (s : State) (l : Nat) => let a := s.elapse t; let k := a.lnk l; l < 8 ∧ k.en = true ∧ a.isOn 9 = true ∧ k.wasUp = true ∧ k.state ≠ 3 ∧ k.failed = false ∧ k.outClk.any (fun c => decide (c + 65472000 ≤ a.tb.clk)) = true) L0 ((W2.putTb { W2.tb with clk := 65472000 }).setLnk 2 { (W2.lnk 2) with state := 1, outClk := some 0 }) 2 ∧
    (fun (t : Lapse) (s : State) (l : Nat) => let a := s.elapse t; let k := a.lnk l; l < 8 ∧ k.failed = true ∧ k.state = 3 ∧ k.upClk.any (fun c => decide (c + 654720000 ≤ a.tb.clk)) = true) L0 ((W2.putTb { W2.tb with clk := 654720000 }).setLnk 2 { (W2.lnk 2) with failed := true }) 2 ∧
    (fun (t : Lapse) (s : State) (l : Nat) (cause : Nat) => let a := s.elapse t; let k := a.lnk l; l < 8 ∧ (k.state = 2 ∨ k.state = 3) ∧ (cause = 1 ∨ cause = 2)) L0 W2 2 1 :=
  by and_intros <;> decide +kernel

/-- Each clause of ClassOneDelivery has a case. -/
theorem hyp_ClassOneDelivery :
    (fun (t : Lapse) (s : State) (l : Nat) => let a := s.elapse t; let k := a.lnk l; let w := (winOf (uOf a.tb.q0)).toNat; l < 8 ∧ a.isOn 11 = true ∧ k.win ≠ some w ∧ k.state ≠ 0 ∧ k.control = [] ∧ k.sends = [] ∧ k.pair = none ∧ a.sch.events = []) L0 W2 2 ∧
    (fun (t : Lapse) (s : State) (l : Nat) (e : Event) => let a := s.elapse t; let k := a.lnk l; let w := (winOf (uOf a.tb.q0)).toNat; l < 8 ∧ a.isOn 11 = true ∧ a.mayRelease = true ∧ k.win ≠ some w ∧ k.state = 3 ∧ 0 < k.credits ∧ k.control = [] ∧ k.sends = [] ∧ k.pair = none ∧ a.sch.events = [e] ∧ e.action = 1 ∧ e.qty = 0 ∧ e.count = 1 ∧ e.occ = 1 ∧ e.sought = true ∧ e.st = .pending ∧ e.sent = [] ∧ e.jump = none ∧ fld e.sink 47 45 = l ∧ bit e.sink 44 = false ∧ e.cost ≤ 44 ∧ (w : Int) = winOf (uOf e.goal) - 15) L0 (W2.putSch { W2.sch with events := [{ ev1 with target := 42221246600 }] }) 2 ({ ev1 with target := 42221246600 }) ∧
    (fun (t : Lapse) (s : State) (l : Nat) (ws : List Word) (e : Event) => let a := s.elapse t; l < 8 ∧ (a.lnk l).state ≠ 0 ∧ frameGood ws = true ∧ frameType ws = 9 ∧ a.event (arg ws 1).toNat = some e) L0 (W2.putSch { W2.sch with events := [{ ev1 with sent := [sn1] }] }) 2 (gw 9 0 [3, 1]) ({ ev1 with sent := [sn1] }) ∧
    (fun (t : Lapse) (s : State) (l : Nat) (ws : List Word) (e : Event) (x : Sent) => let a := s.elapse t; l < 8 ∧ (a.lnk l).state ≠ 0 ∧ frameGood ws = true ∧ frameType ws = 13 ∧ a.event (arg ws 1).toNat = some e ∧ e.sent.find? (fun y => y.occ == (arg ws 2).toNat) = some x ∧ fld (arg ws 0) 23 22 = 2) L0 (W2.putSch { W2.sch with events := [{ ev1 with sent := [sn1] }] }) 2 (gw 13 0x800000 [3, 1, 0, 0]) ({ ev1 with sent := [sn1] }) sn1 ∧
    (fun (t : Lapse) (s : State) (jsn : Word) (e : Event) (x : Sent) => let a := s.elapse t; a.event jsn.toNat = some e ∧ e.sent.find? (fun y => !y.acked && !y.prior && !ahead y.tr a.tb.q0) = some x) L0 ((W2.putTb { W2.tb with q0 := 9 }).putSch { W2.sch with events := [{ ev1 with sent := [sn1] }] }) 3 ({ ev1 with sent := [sn1] }) sn1 ∧
    (fun (t : Lapse) (s : State) (jsn : Word) (e : Event) (x : Sent) => let a := s.elapse t; a.event jsn.toNat = some e ∧ e.sent.find? (fun y => y.prior && !y.asked) = some x ∧ a.pwr.ready = true ∧ a.pwr.readyClk + 6547200000 ≤ a.tb.clk) L0 ((W2.putTb { W2.tb with clk := 6547200000 }).putSch { W2.sch with events := [{ ev1 with sent := [{ sn1 with prior := true }] }] }) 3 ({ ev1 with sent := [{ sn1 with prior := true }] }) ({ sn1 with prior := true }) ∧
    (fun (t : Lapse) (s : State) (jsn : Word) (e : Event) (x : Sent) => let a := s.elapse t; a.event jsn.toNat = some e ∧ e.sent.find? (fun y => y.acked && !y.prior) = some x ∧ e.st ≠ .restarted ∧ e.qty = 0 ∧ e.sought = true ∧ x.late = false ∧ x.tr = e.tk x.occ ∧ 0 ≤ qdist a.tb.q0 x.tr) L0 ((W2.putTb { W2.tb with q0 := 42221246506599 }).putSch { W2.sch with events := [{ ev1 with sent := [{ sn1 with tr := 42221246506598, acked := true }] }] }) 3 ({ ev1 with sent := [{ sn1 with tr := 42221246506598, acked := true }] }) ({ sn1 with tr := 42221246506598, acked := true }) ∧
    (fun (t : Lapse) (s : State) (jsn : Word) (e : Event) (x : Sent) (l : Nat) => let a := s.elapse t; a.event jsn.toNat = some e ∧ (a.linksOf e).find? (fun m => (a.lnk m).state == 3) = some l ∧ e.sent.find? (fun y => y.prior && !y.asked) = some x ∧ a.pwr.ready = true) L0 (W2.putSch { W2.sch with events := [{ ev1 with sent := [{ sn1 with prior := true }] }] }) 3 ({ ev1 with sent := [{ sn1 with prior := true }] }) ({ sn1 with prior := true }) 2 :=
  by and_intros <;> decide +kernel

/-- Each clause of UnscheduledFrames has a case. -/
theorem hyp_UnscheduledFrames :
    (fun (t : Lapse) (env : Env) (ps : List Word) (s : State) => let a := s.elapse t; let w := arg ps 0; let l := fld w 47 45; let x := a.lnk l; a.admits 0x0B1 2 0xFFE env ps = true ∧ ps.length = 1 + fld w 31 26 ∧ 1 ≤ fld w 31 26 ∧ fld w 31 26 ≤ 32 ∧ x.en = true ∧ (bit w 44 = false ∨ x.pair.isSome = true) ∧ x.failed = false ∧ x.sends.length < 16) L0 E1 ([0x400904000001#48, 6]) W2 ∧
    (fun (t : Lapse) (env : Env) (ps : List Word) (s : State) => let a := s.elapse t; let w := arg ps 0; let l := fld w 47 45; let x := a.lnk l; a.admits 0x0B1 2 0xFFE env ps = true ∧ ps.length = 1 + fld w 31 26 ∧ 1 ≤ fld w 31 26 ∧ fld w 31 26 ≤ 32 ∧ x.en = false) L0 E1 ([0x600904000001#48, 6]) W2 ∧
    (fun (t : Lapse) (s : State) (jsn : Word) (o : Nat) (i : SendItem) => let a := s.elapse t; a.sendOf jsn.toNat = some (o, i) ∧ i.sentClk.any (fun c => decide (c + 3273600 ≤ a.tb.clk)) = true ∧ i.resent = false ∧ i.again = false) L0 ((W2.putTb { W2.tb with clk := 3273600 }).setLnk 2 { (W2.lnk 2) with sends := [{ snd1 with sentClk := some 0 }] }) 5 2 ({ snd1 with sentClk := some 0 }) ∧
    (fun (t : Lapse) (s : State) (jsn : Word) (o : Nat) (i : SendItem) => let a := s.elapse t; a.sendOf jsn.toNat = some (o, i) ∧ i.sentClk.any (fun c => decide (c + 6547200 ≤ a.tb.clk)) = true ∧ a.pwr.ready = true ∧ i.partner < 5) L0 ((W2.putTb { W2.tb with clk := 6547200 }).setLnk 2 { (W2.lnk 2) with sends := [{ snd1 with sentClk := some 0 }] }) 5 2 ({ snd1 with sentClk := some 0 }) ∧
    (fun (t : Lapse) (s : State) (jsn : Word) (o : Nat) (i : SendItem) => let a := s.elapse t; a.sendOf jsn.toNat = some (o, i) ∧ i.sentClk = none ∧ i.accClk + 65472000 ≤ a.tb.clk ∧ a.pwr.ready = true ∧ i.partner < 5) L0 ((W2.putTb { W2.tb with clk := 65472000 }).setLnk 2 { (W2.lnk 2) with sends := [snd1] }) 5 2 snd1 ∧
    (fun (t : Lapse) (s : State) (l : Nat) (ws : List Word) (o : Nat) (i : SendItem) => let a := s.elapse t; l < 8 ∧ (a.lnk l).state ≠ 0 ∧ frameGood ws = true ∧ frameType ws = 14 ∧ a.sendOf (arg ws 1).toNat = some (o, i) ∧ i.sentClk.isSome = true ∧ a.pwr.ready = true ∧ i.partner < 5) L0 (W2.setLnk 2 { (W2.lnk 2) with sends := [{ snd1 with sentClk := some 0 }] }) 2 (gw 14 0 [5, 6]) 2 ({ snd1 with sentClk := some 0 }) ∧
    (fun (t : Lapse) (s : State) (l : Nat) (n : Nat) (ws : List Word) => let a := s.elapse t; let q := a.qty n; l < 8 ∧ (a.lnk l).state = 3 ∧ a.isOn 11 = true ∧ frameGood ws = true ∧ frameType ws = 12 ∧ 8 ≤ n ∧ n < 16 ∧ kindOf q.cfg0 = 7 ∧ fld q.cfg1 7 0 = fld (arg ws 0) 7 0 ∧ fld q.cfg1 10 8 = l ∧ (q.fed = false ∨ ahead (mkQ (arg ws 4) (arg ws 5)) q.tu = true)) L0 (W2.setQty 9 { cfg0 := 0x720000000000#48, cfg1 := 0x203 }) 2 9 (gw 12 3 [5, 6, 0xFFFFFFFFFFFF#48, 1, 2]) :=
  by and_intros <;> decide +kernel

/-- Each clause of LendiConfiguration has a case. -/
theorem hyp_LendiConfiguration :
    (fun (t : Lapse) (env : Env) (ps : List Word) (s : State) => let a := s.elapse t; a.admits 0x0B0 3 0xFFE env ps = true ∧ ps.length = 2 ∧ bit (arg ps 0) 44 = true) L0 E1 ([0x500000000000#48, 0x000000010000#48]) W ∧
    (fun (t : Lapse) (env : Env) (ps : List Word) (s : State) => let a := s.elapse t; let l := fld (arg ps 0) 47 45; let k := a.lnk l; a.admits 0x0B0 3 0xFFE env ps = true ∧ ps.length = 2 ∧ bit (arg ps 0) 44 = false ∧ k.pair = none ∧ a.sch.events = [] ∧ (∀ n, n < 16 → kindOf (a.qty n).cfg0 ≠ 7)) L0 E1 ([0x400000000000#48, 0x000000010000#48]) W2 ∧
    (fun (t : Lapse) (env : Env) (ps0 : List Word) (s : State) => let a := s.elapse t; let ps := fixField 47 47 1 ps0; let i := fld (arg ps 0) 46 44; let j := fld (arg ps 0) 43 41; a.admits 0x0B2 3 0xFFE env ps = true ∧ ps.length = 1 ∧ i ≠ j ∧ bit (arg ps 0) 47 = true ∧ (a.lnk i).state = 3 ∧ (a.lnk j).state = 3 ∧ (a.lnk i).gw = (a.lnk j).gw ∧ (a.lnk i).pair = none ∧ (a.lnk j).pair = none) L0 E1 ([0x260000000000#48]) (W2.setLnk 3 { en := true, state := 3 }) ∧
    (fun (t : Lapse) (env : Env) (ps0 : List Word) (s : State) => let a := s.elapse t; let ps := fixField 47 47 1 ps0; let i := fld (arg ps 0) 46 44; let j := fld (arg ps 0) 43 41; a.admits 0x0B2 3 0xFFE env ps = true ∧ ps.length = 1 ∧ i ≠ j ∧ bit (arg ps 0) 47 = true ∧ (a.lnk i).gw ≠ (a.lnk j).gw) L0 E1 ([0x260000000000#48]) (W2.setLnk 3 { en := true, state := 3, gw := 1 }) ∧
    (fun (t : Lapse) (env : Env) (ps0 : List Word) (s : State) => let a := s.elapse t; let ps := fixField 47 47 0 ps0; let i := fld (arg ps 0) 46 44; let j := fld (arg ps 0) 43 41; a.admits 0x0B2 3 0xFFE env ps = true ∧ ps.length = 1 ∧ i ≠ j ∧ bit (arg ps 0) 47 = false ∧ (a.lnk i).pair = some j ∧ a.sch.events = []) L0 E1 ([0x260000000000#48]) ((W.setLnk 2 { en := true, state := 3, pair := some 3 }).setLnk 3 { en := true, state := 3, pair := some 2 }) :=
  by and_intros <;> decide +kernel

/-- Each clause of PingAnswered has a case. -/
theorem hyp_PingAnswered :
    (fun (t : Lapse) (env : Env) (ps : List Word) (s : State) => let a := s.elapse t; let prt := a.part env.partner; a.portUp env.port = true ∧ a.pwr.ready = true ∧ env.partner ≤ 4 ∧ 0 < prt.rights ∧ authFails prt (pktOf 0x001 env ps a) = none ∧ ps.length ≤ 8) L0 E1 ([7]) W ∧
    (fun (t : Lapse) (env : Env) (ps : List Word) (s : State) => let a := s.elapse t; let prt := a.part env.partner; a.portUp env.port = true ∧ a.pwr.ready = true ∧ env.partner ≤ 4 ∧ 0 < prt.rights ∧ authFails prt (pktOf 0x001 env ps a) = none ∧ 8 < ps.length ∧ ps.length ≤ 2048) L0 E1 ([1, 2, 3, 4, 5, 6, 7, 8, 9]) W :=
  by and_intros <;> decide +kernel

/-- Each clause of HelloGoodbye has a case. -/
theorem hyp_HelloGoodbye :
    (fun (t : Lapse) (env : Env) (s : State) => let a := s.elapse t; let prt := a.part env.partner; a.portUp env.port = true ∧ a.pwr.ready = true ∧ env.partner ≤ 4 ∧ 0 < prt.rights ∧ authFails prt (pktOf 0x002 env [] a) = none ∧ (env.port < 2 ∨ (∀ q, q < 5 → q ≠ env.partner → prevPort (a.part q) ≠ env.port)) ∧ prt.hnonce < env.seq.toNat) L0 ({ E1 with seq := 9 }) (W.setPart 0 { rights := 1, lseq := 4, ev := { nextEsn := 3, recs := [⟨1, 5, false, false, [0]⟩, ⟨2, 6, true, false, [0]⟩], cursor := 3 } }) ∧
    (fun (t : Lapse) (env : Env) (s : State) => let a := s.elapse t; let prt := a.part env.partner; a.portUp env.port = true ∧ a.pwr.ready = true ∧ env.partner ≤ 4 ∧ 0 < prt.rights ∧ authFails prt (pktOf 0x002 env [] a) = none ∧ env.seq.toNat ≤ prt.hnonce) L0 E1 (W.setPart 0 { rights := 1, hnonce := 1 }) ∧
    (fun (t : Lapse) (env : Env) (ps : List Word) (s : State) => let a := s.elapse t; a.admits 0x003 1 0xFFE env ps = true ∧ ps = []) L0 E1 ([]) W ∧
    (fun (t : Lapse) (s : State) (h : Nat) (cw : Word) (o : OutPkt) (rest : List OutPkt) => let a := s.elapse t; (h = 2 ∨ h = 3) ∧ a.portUp h = true ∧ cwBad cw = false ∧ fld cw 47 46 = 2 ∧ (a.spi h).tx = o :: rest ∧ o.isReply = true ∧ fld (arg o.words 0) 31 20 = 3 ∧ fld (arg o.words 2) 47 36 = 1 ∧ o.words.length ≤ o.read + fld cw 43 32 ∧ (a.part o.partner).bind.any (fun b => b.port == h) = true) L0 (W.setSpi 2 { tx := [{ words := [0x00000300000#48, 0, 0x001000000000#48], partner := 0, isReply := true }] }) 2 (0x80037FFC0000#48) ({ words := [0x00000300000#48, 0, 0x001000000000#48], partner := 0, isReply := true }) ([]) :=
  by and_intros <;> decide +kernel

/-- Each clause of EventAckRule has a case. -/
theorem hyp_EventAckRule :
    (fun (t : Lapse) (env : Env) (ps : List Word) (s : State) => let a := s.elapse t; let ev := (a.part env.partner).ev; let x := (arg ps 0).toNat; a.admits 0x0E2 1 0xFFE env ps = true ∧ ps.length = 1 ∧ ev.ackFirst ≤ x ∧ x < ev.nextEsn) L0 E1 ([1]) (W.setPart 0 { rights := 1, bind := some ⟨2, .spi, 0⟩, ev := { nextEsn := 3, recs := [⟨1, 5, false, false, [0]⟩, ⟨2, 6, true, false, [0]⟩], cursor := 3 } }) ∧
    (fun (t : Lapse) (env : Env) (ps : List Word) (s : State) => let a := s.elapse t; let ev := (a.part env.partner).ev; let x := (arg ps 0).toNat; a.admits 0x0E2 1 0xFFE env ps = true ∧ ps.length = 1 ∧ x < ev.ackFirst ∧ x < ev.nextEsn) L0 E1 ([0]) W ∧
    (fun (t : Lapse) (env : Env) (ps : List Word) (s : State) => let a := s.elapse t; let ev := (a.part env.partner).ev; let x := (arg ps 0).toNat; a.admits 0x0E2 1 0xFFE env ps = true ∧ ps.length = 1 ∧ ev.nextEsn ≤ x) L0 E1 ([1]) W :=
  by and_intros <;> decide +kernel

/-- Each clause of EventResyncRule has a case. -/
theorem hyp_EventResyncRule :
    (fun (t : Lapse) (env : Env) (ps : List Word) (s : State) => let a := s.elapse t; let ev := (a.part env.partner).ev; let x := (arg ps 0).toNat; a.admits 0x0E3 1 0xFFE env ps = true ∧ ps.length = 1 ∧ 0 < x ∧ ev.ackFirst ≤ x ∧ x ≤ ev.nextEsn ∧ ev.kept = none ∧ env.port < 4 ∧ (∀ r, r ∈ ev.recs → ev.ackFirst ≤ r.esn)) L0 E1 ([2]) (W.setPart 0 { rights := 1, bind := some ⟨2, .spi, 0⟩, ev := { nextEsn := 3, recs := [⟨1, 5, false, false, [0]⟩, ⟨2, 6, true, false, [0]⟩], cursor := 3 } }) ∧
    (fun (t : Lapse) (env : Env) (ps : List Word) (s : State) => let a := s.elapse t; let ev := (a.part env.partner).ev; let x := (arg ps 0).toNat; a.admits 0x0E3 1 0xFFE env ps = true ∧ ps.length = 1 ∧ x < ev.ackFirst ∧ x ≤ ev.nextEsn) L0 E1 ([2]) (W.setPart 0 { rights := 1, bind := some ⟨2, .spi, 0⟩, ev := { nextEsn := 5, ackFirst := 4, cursor := 5 } }) ∧
    (fun (t : Lapse) (env : Env) (ps : List Word) (s : State) => let a := s.elapse t; let ev := (a.part env.partner).ev; let x := (arg ps 0).toNat; a.admits 0x0E3 1 0xFFE env ps = true ∧ ps.length = 1 ∧ ev.nextEsn < x) L0 E1 ([2]) W :=
  by and_intros <;> decide +kernel

/-- Each clause of RefusedPackets has a case. -/
theorem hyp_RefusedPackets :
    (fun (t : Lapse) (env : Env) (s : State) => let a := s.elapse t; a.portUp env.port = false) L0 ({ E1 with port := 0 }) W ∧
    (fun (t : Lapse) (env : Env) (ps : List Word) (s : State) => let a := s.elapse t; let prt := a.part env.partner; let k := pktOf 0x090 env ps a; a.portUp env.port = true ∧ a.pwr.ready = true ∧ env.partner ≤ 4 ∧ env.seq ≠ 0 ∧ ps.length ≤ 2048 ∧ (prt.rights = 0 ∨ (prt.authReq = false ∧ env.tag = none ∧ boundHere prt.bind k = false))) L0 ({ E1 with partner := 1 }) ([]) W ∧
    (fun (t : Lapse) (env : Env) (ps : List Word) (s : State) => let a := s.elapse t; let prt := a.part env.partner; a.portUp env.port = true ∧ a.pwr.ready = true ∧ env.partner ≤ 4 ∧ env.seq ≠ 0 ∧ ps.length ≤ 2048 ∧ 0 < prt.rights ∧ prt.key = none ∧ env.tag.isSome = true) L0 ({ E1 with tag := some [1, 2, 3, 4] }) ([]) W ∧
    (fun (t : Lapse) (env : Env) (ps : List Word) (s : State) => let a := s.elapse t; let prt := a.part env.partner; let k := pktOf 0x090 env ps a; a.portUp env.port = true ∧ a.pwr.ready = true ∧ env.partner ≤ 4 ∧ ps.length ≤ 2048 ∧ 0 < prt.rights ∧ prt.authReq = false ∧ env.tag = none ∧ boundHere prt.bind k = true ∧ (∀ w, w ∈ a.host.parse → w.k.partner ≠ env.partner) ∧ (a.ingress env.partner).2.2 + k.words ≤ 131072 ∧ prt.lseq + 1 < env.seq.toNat ∧ env.seq.toNat ≤ prt.permitted) L0 ({ E1 with seq := 3 }) ([]) (W.setPart 0 { rights := 3, bind := some ⟨2, .spi, 0⟩, permit := some 5 }) ∧
    (fun (t : Lapse) (env : Env) (ps : List Word) (s : State) (r : Replay) => let a := s.elapse t; let prt := a.part env.partner; let k := pktOf 0x090 env ps a; a.portUp env.port = true ∧ a.pwr.ready = true ∧ env.partner ≤ 4 ∧ env.seq ≠ 0 ∧ ps.length ≤ 2048 ∧ 0 < prt.rights ∧ prt.authReq = false ∧ env.tag = none ∧ boundHere prt.bind k = true ∧ (∀ w, w ∈ a.host.parse → w.k.partner ≠ env.partner) ∧ (a.ingress env.partner).2.1 < 16 ∧ (a.ingress env.partner).2.2 + k.words ≤ 131072 ∧ env.seq.toNat ≤ prt.lseq ∧ prt.lseq ≤ env.seq.toNat + 16383 ∧ tget none (env.seq.toNat % 16384) prt.replays = some r ∧ r.seq = env.seq.toNat) L0 E1 ([]) (W.setPart 0 { rights := 3, lseq := 1, bind := some ⟨2, .spi, 0⟩, replays := [(1, some ⟨1, 4, 0x090, 1, [5], false⟩)] }) (⟨1, 4, 0x090, 1, [5], false⟩) :=
  by and_intros <;> decide +kernel

/-- Each clause of RegisterAccess has a case. -/
theorem hyp_RegisterAccess :
    (fun (t : Lapse) (env : Env) (ps : List Word) (s : State) => let a := s.elapse t; a.admits 0x010 1 0xFFE env ps = true ∧ ps = [0x004003001000#48] ∧ a.isOn 11 = true) L0 E1 ([0x004003001000#48]) (W.putSch { W.sch with cntRel := 5 }) ∧
    (fun (t : Lapse) (env : Env) (ps : List Word) (s : State) => let a := s.elapse t; a.admits 0x010 1 0xFFE env ps = true ∧ ps = [0x004000001000#48]) L0 E1 ([0x004000001000#48]) W ∧
    (fun (t : Lapse) (env : Env) (ps : List Word) (s : State) => let a := s.elapse t; a.admits 0x010 1 0xFFE env ps = true ∧ ps.length = 1 ∧ fld (arg ps 0) 23 12 = 0) L0 E1 ([0x004000000000#48]) W ∧
    (fun (t : Lapse) (env : Env) (v : Word) (s : State) => let a := s.elapse t; a.admits 0x011 3 0xFFE env [0x004000001000#48, v] = true ∧ fld v 47 28 ≤ 983040) L0 E1 (0x000030000000#48) W ∧
    (fun (t : Lapse) (env : Env) (v : Word) (s : State) => let a := s.elapse t; a.admits 0x011 3 0xFFE env [0x004000001000#48, v] = true ∧ 983040 < fld v 47 28) L0 E1 (0xF00010000000#48) W ∧
    (fun (t : Lapse) (env : Env) (v : Word) (s : State) => let a := s.elapse t; a.admits 0x011 2 0xFFE env [0x004000001000#48, v] = true ∧ (a.part env.partner).rights = 2) L0 E1 (0x000030000000#48) (W.setPart 0 { rights := 2, bind := some ⟨2, .spi, 0⟩ }) ∧
    (fun (t : Lapse) (env : Env) (v : Word) (s : State) => let a := s.elapse t; a.admits 0x011 2 0xFFE env [0x004001001000#48, v] = true) L0 E1 (0xFFFFFFFFFFFF#48) W ∧
    (fun (t : Lapse) (env : Env) (v : Word) (s : State) => let a := s.elapse t; a.admits 0x011 2 0xFFE env [0x002002001000#48, v] = true ∧ a.isOn 11 = true) L0 E1 5 (W.putClk { W.clk with fault := 7 }) ∧
    (fun (t : Lapse) (env : Env) (m : Word) (v : Word) (s : State) => let a := s.elapse t; let old := pack [put 47 28 a.sch.pendMax]; let new := (old &&& ~~~m) ||| (v &&& m); a.admits 0x012 3 0xFFE env [0x004000000000#48, m, v] = true ∧ fld new 47 28 ≤ 983040 ∧ a.isOn 11 = true) L0 E1 (0x000010000000#48) (0xFFFFFFFFFFFF#48) W ∧
    (fun (t : Lapse) (env : Env) (m : Word) (v : Word) (s : State) => let a := s.elapse t; a.admits 0x012 2 0xFFE env [0x004001000000#48, m, v] = true) L0 E1 1 1 W :=
  by and_intros <;> decide +kernel

/-- Each clause of StagedCommits has a case. -/
theorem hyp_StagedCommits :
    (fun (t : Lapse) (env : Env) (s : State) (ws : Tab (Option Word)) => let a := s.elapse t; let p := env.partner; let w := a.stagedLeap p; a.admits 0x011 3 0xFFE env [0x003002001000#48, 1] = true ∧ a.copyOf p .leap = some (.staged ws) ∧ leapBad a.tb (leapNowOf w) (leapNextOf w) (a.stagedLeapAt p) = false) L0 E1 (W.putStage [⟨0, .leap, .staged [(0, some 0x121320000000#48), (1, some 86419)]⟩, ⟨1, .leap, .staged []⟩]) ([(0, some 0x121320000000#48), (1, some 86419)]) ∧
    (fun (t : Lapse) (env : Env) (s : State) => let a := s.elapse t; let p := env.partner; a.admits 0x011 3 0xFFE env [0x003002001000#48, 1] = true ∧ a.copyOf p .leap = some .lost) L0 E1 (W.putStage [⟨0, .leap, .lost⟩]) ∧
    (fun (t : Lapse) (env : Env) (n : Nat) (v : Word) (s : State) => let a := s.elapse t; let p := env.partner; n < 16 ∧ a.admits 0x011 2 0xFFE env [pack [put 47 24 (0x3100 + 16 * n), put 23 12 1], v] = true ∧ a.copyOf p (.qcfg n) = none) L0 E1 1 (0x120000000000#48) W ∧
    (fun (t : Lapse) (env : Env) (n : Nat) (v : Word) (s : State) => let a := s.elapse t; let p := env.partner; n < 16 ∧ a.admits 0x011 2 0xFFE env [pack [put 47 24 (0x3100 + 16 * n), put 23 12 1], v] = true ∧ a.copyOf p (.qcfg n) = some .lost) L0 E1 3 9 (W.putStage [⟨0, .qcfg 3, .lost⟩]) ∧
    (fun (t : Lapse) (env : Env) (n : Nat) (v : Word) (s : State) (ws : Tab (Option Word)) => let a := s.elapse t; let p := env.partner; let w := fun i => a.stagedQcfg p n i; n < 16 ∧ a.admits 0x011 2 0xFFE env [pack [put 47 24 (0x3100 + 16 * n), put 23 12 1], v] = true ∧ a.copyOf p (.qcfg n) = some (.staged ws) ∧ a.qcfgHeld n = false ∧ a.qcfgBad n v (w 1) (w 2) = false) L0 E1 1 (0x120000000000#48) (W.putStage [⟨0, .qcfg 1, .staged [(1, some 4000)]⟩]) ([(1, some 4000)]) ∧
    (fun (t : Lapse) (env : Env) (n : Nat) (s : State) (ws : Tab (Option Word)) => let a := s.elapse t; let p := env.partner; n < 16 ∧ a.admits 0x011 2 0xFFE env [pack [put 47 24 (0x3107 + 16 * n), put 23 12 1], 1] = true ∧ a.copyOf p (.qset n) = some (.staged ws) ∧ a.qsetHeld n = false) L0 E1 1 ((W.setQty 1 { cfg0 := 0x120000000000#48, cfg1 := 4000 }).putStage [⟨0, .qset 1, .staged [(0, some 77)]⟩]) ([(0, some 77)]) ∧
    (fun (t : Lapse) (env : Env) (n : Nat) (s : State) => let a := s.elapse t; let p := env.partner; n < 16 ∧ a.admits 0x011 2 0xFFE env [pack [put 47 24 (0x3107 + 16 * n), put 23 12 1], 1] = true ∧ a.copyOf p (.qset n) = some .lost) L0 E1 3 (W.putStage [⟨0, .qset 3, .lost⟩]) ∧
    (fun (t : Lapse) (env : Env) (n : Nat) (s : State) (ws : Tab (Option Word)) => let a := s.elapse t; let p := env.partner; n < 8 ∧ a.isOn 11 = true ∧ a.admits 0x011 2 0xFFE env [pack [put 47 24 (0x2104 + 16 * n), put 23 12 1], 1] = true ∧ a.copyOf p (.out n) = some (.staged ws) ∧ a.outBad n (a.stagedOut p n) = false ∧ a.outHeld n (a.stagedOut p n) = false) L0 E1 1 (W.putStage [⟨0, .out 1, .staged [(0, some 0x800005F5E100#48)]⟩]) ([(0, some 0x800005F5E100#48)]) ∧
    (fun (t : Lapse) (env : Env) (n : Nat) (s : State) => let a := s.elapse t; let p := env.partner; n < 8 ∧ a.admits 0x011 2 0xFFE env [pack [put 47 24 (0x2104 + 16 * n), put 23 12 1], 1] = true ∧ a.copyOf p (.out n) = some .lost) L0 E1 3 (W.putStage [⟨0, .out 3, .lost⟩]) ∧
    (fun (s : State) (n : Nat) (v : Qval) => s.pending = [] ∧ (s.qty n).preset = some v ∧ kindOf (s.qty n).cfg0 ≠ 6) (W.setQty 1 { cfg0 := 0x120000000000#48, fed := true, preset := some 5 }) 1 5 ∧
    (fun (t : Lapse) (env : Env) (s : State) (ws : Tab (Option Word)) => let a := s.elapse t; a.admits 0x011 3 0xFFE env [0x005005001000#48, 1] = true ∧ a.copyOf env.partner .rtc = some (.staged ws)) L0 E1 (W.putStage [⟨0, .rtc, .staged [(0, some 99)]⟩]) ([(0, some 99)]) ∧
    (fun (t : Lapse) (env : Env) (s : State) => let a := s.elapse t; a.admits 0x011 3 0xFFE env [0x005005001000#48, 1] = true ∧ a.copyOf env.partner .rtc = some .lost) L0 E1 (W.putStage [⟨0, .rtc, .lost⟩]) ∧
    (fun (t : Lapse) (s : State) (ws : Tab (Option Word)) => let a := s.elapse t; a.s0Up = true ∧ a.host.s0.lock = false ∧ a.copyOf 5 .rtc = some (.staged ws)) L0 (W.putStage [⟨5, .rtc, .staged [(0, some 99)]⟩]) ([(0, some 99)]) ∧
    (fun (t : Lapse) (s : State) => let a := s.elapse t; a.s0Up = true ∧ a.host.s0.lock = false) L0 W ∧
    (fun (t : Lapse) (env : Env) (s : State) => let a := s.elapse t; a.admits 0x011 2 0xFFE env [0x005027001000#48, 1] = true) L0 E1 W :=
  by and_intros <;> decide +kernel

/-- Each clause of PagesAndKeys has a case. -/
theorem hyp_PagesAndKeys :
    (fun (t : Lapse) (env : Env) (h : Nat) (s : State) (ws : Tab (Option Word)) => let a := s.elapse t; h < 2 ∧ a.admits 0x011 3 0xFFE env [pack [put 47 24 (0x1C005 + 32 * h), put 23 12 1], 1] = true ∧ a.copyOf env.partner (.eth h) = some (.staged ws)) L0 E1 0 ((W.putStage [⟨0, .eth 0, .staged [(0, some 0xB8000C540000#48)]⟩]).setPart 1 { rights := 1, bind := some ⟨0, .udp4 5 6, 7⟩ }) ([(0, some 0xB8000C540000#48)]) ∧
    (fun (t : Lapse) (env : Env) (p : Nat) (s : State) (ws : Tab (Option Word)) => let a := s.elapse t; p < 5 ∧ a.admits 0x011 3 0xFFE env [pack [put 47 24 (0x1C107 + 16 * p), put 23 12 1], 1] = true ∧ a.copyOf env.partner (.key p) = some (.staged ws)) L0 E1 2 (W.putStage [⟨0, .key 2, .staged [(0, some 9)]⟩]) ([(0, some 9)]) ∧
    (fun (t : Lapse) (env : Env) (p : Nat) (s : State) => let a := s.elapse t; let x := a.part p; p < 5 ∧ a.admits 0x011 3 0xFFE env [pack [put 47 24 (0x1C107 + 16 * p), put 23 12 1], 2] = true ∧ x.authReq = false) L0 E1 2 (W.setPart 2 { rights := 1, key := some 5 }) ∧
    (fun (t : Lapse) (env : Env) (p : Nat) (s : State) => let a := s.elapse t; let x := a.part p; p < 5 ∧ a.admits 0x011 3 0xFFE env [pack [put 47 24 (0x1C107 + 16 * p), put 23 12 1], 2] = true ∧ x.authReq = true) L0 E1 2 (W.setPart 2 { rights := 1, key := some 5, authReq := true }) ∧
    (fun (t : Lapse) (env : Env) (p : Nat) (s : State) => let a := s.elapse t; let x := a.part p; p < 5 ∧ a.admits 0x011 3 0xFFE env [pack [put 47 24 (0x1C108 + 16 * p), put 23 12 1], 1] = true ∧ x.bind = none) L0 E1 2 (W.setPart 2 { rights := 1, lseq := 5, hnonce := 9 }) ∧
    (fun (t : Lapse) (env : Env) (p : Nat) (s : State) => let a := s.elapse t; let x := a.part p; p < 5 ∧ a.admits 0x011 3 0xFFE env [pack [put 47 24 (0x1C108 + 16 * p), put 23 12 1], 1] = true ∧ x.bind.isSome = true ∧ p ≠ env.partner) L0 E1 2 (W.setPart 2 { rights := 1, lseq := 5, hnonce := 9, bind := some ⟨3, .spi, 0⟩ }) ∧
    (fun (t : Lapse) (env : Env) (v : Word) (s : State) => let a := s.elapse t; a.admits 0x011 2 0xFFE env [0x008010001000#48, v] = true) L0 E1 7 W ∧
    (fun (t : Lapse) (env : Env) (v : Word) (s : State) => let a := s.elapse t; a.admits 0x011 3 0xFFE env [0x002028001000#48, v] = true ∧ a.pllFreqRefusal v = none) L0 E1 (0x009896800000#48) W ∧
    (fun (t : Lapse) (env : Env) (v : Word) (s : State) => let a := s.elapse t; a.admits 0x011 3 0xFFE env [0x002028001000#48, v] = true ∧ a.pllFreqRefusal v = some .badParam) L0 E1 5 W :=
  by and_intros <;> decide +kernel

/-- Each clause of ReadGroups has a case. -/
theorem hyp_ReadGroups :
    (fun (t : Lapse) (n : Nat) (off : Nat) (s : State) => let a := s.elapse t; let h := a.shadow 5 n; n < 16 ∧ off < 7 ∧ a.s0Up = true ∧ a.isOn 11 = true ∧ h.isOpen = false) L0 3 1 W ∧
    (fun (t : Lapse) (n : Nat) (off : Nat) (s : State) => let a := s.elapse t; let h := a.shadow 5 n; n < 16 ∧ off < 7 ∧ a.s0Up = true ∧ a.isOn 11 = true ∧ h.isOpen = true ∧ a.tb.clk < h.since + 654720) L0 3 1 (W.setShadow 5 3 { isOpen := true, seq := 4, ws := [1, 2, 3, 4, 5, 6, 7] }) ∧
    (fun (t : Lapse) (n : Nat) (s : State) => let a := s.elapse t; let h := a.shadow 5 n; n < 16 ∧ a.s0Up = true ∧ a.isOn 11 = true ∧ h.isOpen = true ∧ a.tb.clk < h.since + 654720) L0 3 (W.setShadow 5 3 { isOpen := true, seq := 4, ws := [1, 2, 3, 4, 5, 6, 7] }) ∧
    (fun (t : Lapse) (env : Env) (n : Nat) (off : Nat) (s : State) => let a := s.elapse t; let h := a.shadow env.partner n; n < 16 ∧ off < 7 ∧ a.admits 0x010 1 0xFFE env [pack [put 47 24 (0x3108 + 16 * n + off), put 23 12 1]] = true ∧ a.isOn 11 = true ∧ h.isOpen = false) L0 E1 3 1 W ∧
    (fun (t : Lapse) (s : State) => let a := s.elapse t; a.s0Up = true) L0 W ∧
    (fun (t : Lapse) (s : State) => let a := s.elapse t; let h := a.rtcShadow 5; a.s0Up = true ∧ h.isOpen = true ∧ a.tb.clk < h.since + 654720) L0 (W.setRtcShadow 5 { isOpen := true, ws := [1, 2, 3], expired := false, since := 0 }) ∧
    (fun (t : Lapse) (path : Nat) (s : State) => let a := s.elapse t; path < 6 ∧ (a.rtcShadow path).isOpen = true ∧ (a.rtcShadow path).since + 654720 ≤ a.tb.clk) L0 2 ((W.putTb { W.tb with clk := 654720 }).setRtcShadow 2 { isOpen := true, ws := [1, 2, 3], expired := false, since := 0 }) ∧
    (fun (t : Lapse) (path : Nat) (n : Nat) (s : State) => let a := s.elapse t; path < 6 ∧ n < 16 ∧ (a.shadow path n).isOpen = true ∧ (a.shadow path n).since + 654720 ≤ a.tb.clk) L0 2 3 ((W.putTb { W.tb with clk := 654720 }).setShadow 2 3 { isOpen := true }) :=
  by and_intros <;> decide +kernel

/-- Each clause of ModeCommands has a case. -/
theorem hyp_ModeCommands :
    (fun (t : Lapse) (env : Env) (ps : List Word) (s : State) => let a := s.elapse t; a.admits 0x020 2 0xFFE env ps = true ∧ a.modeRefusal env.partner ps = none) L0 E1 ([0x408000000F00#48]) W ∧
    (fun (t : Lapse) (env : Env) (ps : List Word) (s : State) => let a := s.elapse t; a.admits 0x020 2 0xFFE env ps = true ∧ (ps.length = 0 ∨ msMode ps = 0 ∨ 11 < msMode ps)) L0 E1 ([0xF08000000F00#48]) W ∧
    (fun (t : Lapse) (env : Env) (ps : List Word) (s : State) => let a := s.elapse t; a.admits 0x021 1 0xFFE env ps = true ∧ ps.length = 1 ∧ fld (arg ps 0) 47 46 = 0) L0 E1 ([0]) W ∧
    (fun (t : Lapse) (env : Env) (ps : List Word) (s : State) => let a := s.elapse t; a.admits 0x021 1 0xFFE env ps = true ∧ ps.length = 1 ∧ fld (arg ps 0) 47 46 = 1) L0 E1 ([0x400000000000#48]) W ∧
    (fun (t : Lapse) (env : Env) (ps : List Word) (s : State) => let a := s.elapse t; a.admits 0x021 1 0xFFE env ps = true ∧ ps.length = 1 ∧ fld (arg ps 0) 47 46 = 2) L0 E1 ([0x800000000000#48]) W ∧
    (fun (t : Lapse) (s : State) (w : ModeWait) => let a := s.elapse t; let m := msOf a.tb.q0; m % 10 = 0 ∧ a.modes.lastMs ≠ m ∧ a.isOn 11 = true ∧ a.pwr.ready = true ∧ a.modes.mode ≠ 0 ∧ a.modes.origin = 0 ∧ a.modes.waits = [w] ∧ w.tick ≤ m ∧ a.modeRefusal w.who w.ws = none) L0 ((W.putTb { W.tb with q0 := mkQ 1 0 }).putModes { W.modes with waits := [⟨7, 0, 1000, [0x408000000F00#48]⟩] }) (⟨7, 0, 1000, [0x408000000F00#48]⟩) ∧
    (fun (t : Lapse) (s : State) (w : ModeWait) => let a := s.elapse t; let m := msOf a.tb.q0; m % 10 = 0 ∧ a.modes.lastMs ≠ m ∧ a.isOn 11 = true ∧ a.pwr.ready = true ∧ a.modes.mode ≠ 0 ∧ a.modes.waits = [w] ∧ w.tick ≤ m ∧ (a.modeRefusal w.who w.ws).isSome = true ∧ w.who < 5) L0 ((W.putTb { W.tb with q0 := mkQ 1 0 }).putModes { W.modes with waits := [⟨7, 0, 1000, [0x908000000F00#48, 5]⟩] }) (⟨7, 0, 1000, [0x908000000F00#48, 5]⟩) ∧
    (fun (t : Lapse) (env : Env) (ps : List Word) (s : State) => let a := s.elapse t; let xyz := ((arg ps 1).toInt, (arg ps 2).toInt, (arg ps 3).toInt); let r2 := xyz.1 * xyz.1 + xyz.2.1 * xyz.2.1 + xyz.2.2 * xyz.2.2; a.admits 0x031 2 0x7FE env ps = true ∧ ps.length = 5 ∧ fld (arg ps 0) 47 44 ≠ 0 ∧ fld (arg ps 4) 47 24 ≠ 0 ∧ 36000000000000000000 ≤ r2 ∧ r2 ≤ 49000000000000000000) L0 E1 ([0x500000000000#48, word 6371000000, 0, 0, 0x000064000000#48]) W ∧
    (fun (t : Lapse) (env : Env) (ps : List Word) (s : State) => let a := s.elapse t; a.admits 0x031 2 0x7FE env ps = true ∧ (ps.length ≠ 5 ∨ fld (arg ps 0) 47 44 = 0)) L0 E1 ([]) W ∧
    (fun (t : Lapse) (env : Env) (ps : List Word) (s : State) => let a := s.elapse t; let mt := fld (arg ps 0) 47 42; let prn := fld (arg ps 0) 41 34; let nb := fld (arg ps 0) 33 24; a.admits 0x032 2 0x7FE env ps = true ∧ (msgType mt).any (fun r => r.2.1 == nb) = true ∧ msgPrnOk mt prn = true ∧ ps.length = 1 + (nb + 47) / 48) L0 E1 ([0x04052C000000#48, 1, 2, 3, 4, 5, 6, 7]) W ∧
    (fun (t : Lapse) (env : Env) (ps : List Word) (s : State) => let a := s.elapse t; let mt := fld (arg ps 0) 47 42; let nb := fld (arg ps 0) 33 24; a.admits 0x032 2 0x7FE env ps = true ∧ (msgType mt).any (fun r => r.2.1 == nb) = false) L0 E1 ([0x04052D000000#48, 1, 2, 3, 4, 5, 6, 7]) W ∧
    (fun (t : Lapse) (x : Nat) (q : Qval) (s : State) => let a := s.elapse t; a.modes.mode = 6 ∧ (maskAnts (msMask a.modes.cur)).contains x = true ∧ a.modes.excluded.testBit x = false ∧ tget none x a.modes.misfit = some q ∧ 60 * 2 ^ 48 ≤ qdist a.tb.q0 q) L0 0 0 ((W.putTb { W.tb with q0 := mkQ 60 0 }).putModes { W.modes with mode := 6, cur := [0x608000000F00#48, 0], misfit := [(0, some 0)] }) :=
  by and_intros <;> decide +kernel

/-- Each clause of ModeEvents has a case. -/
theorem hyp_ModeEvents :
    (fun (t : Lapse) (s : State) => let a := s.elapse t; let m := msOf a.tb.q0; m % a.solMs = 0 ∧ a.modes.lastSol ≠ m ∧ a.ndovos = true ∧ a.isOn 11 = true ∧ (∀ w, w ∈ a.modes.waits → m < w.tick) ∧ a.modes.mode = 4 ∧ a.modes.cable = false ∧ a.tb.tsrc = 1) L0 ((W.putTb { W.tb with q0 := mkQ 1 0, tsrc := 1 }).putModes { W.modes with mode := 4, cur := [0x408000000F00#48] }) ∧
    (fun (t : Lapse) (s : State) => let a := s.elapse t; let m := msOf a.tb.q0; m % a.solMs = 0 ∧ a.modes.lastSol ≠ m ∧ a.ndovos = true ∧ a.isOn 11 = true ∧ (∀ w, w ∈ a.modes.waits → m < w.tick) ∧ (a.modes.mode = 2 ∨ a.modes.mode = 3) ∧ a.modes.done = false ∧ msNext a.modes.cur = 4) L0 ((W.putTb { W.tb with q0 := mkQ 1 0 }).putModes { W.modes with mode := 2, cur := [0x248000000F00#48] }) ∧
    (fun (t : Lapse) (s : State) (q : Qval) => let a := s.elapse t; let m := msOf a.tb.q0; a.modes.lack = some q ∧ m % 10 = 0 ∧ (∀ w, w ∈ a.modes.waits → m < w.tick) ∧ (a.modes.mode = 4 ∨ a.modes.mode = 6 ∨ a.modes.mode = 7 ∨ a.modes.mode = 9) ∧ a.modes.steered = true ∧ msHoDelay a.modes.cur ≤ qdist a.tb.q0 q) L0 ((W.putTb { W.tb with q0 := mkQ 2 0, tsrc := 2 }).putModes { W.modes with mode := 4, cur := [0x408000000F00#48], steered := true, lack := some 0 }) 0 ∧
    (fun (t : Lapse) (s : State) (q : Qval) => let a := s.elapse t; let m := msOf a.tb.q0; a.modes.present = some q ∧ m % 10 = 0 ∧ (∀ w, w ∈ a.modes.waits → m < w.tick) ∧ a.modes.mode = 8 ∧ (a.modes.origin = 4 ∨ a.modes.origin = 6 ∨ a.modes.origin = 7 ∨ a.modes.origin = 9) ∧ msRetDelay a.modes.cur ≤ qdist a.tb.q0 q ∧ a.tb.tsrc = 2 ∧ a.tb.step = none ∧ a.tb.permit = 0 ∧ a.tb.permitNext = none ∧ a.modes.offset.natAbs < 1000) L0 ((W.putTb { W.tb with q0 := mkQ 9 0, tsrc := 2, hoStart := some 0 }).putModes { W.modes with mode := 8, origin := 4, cur := [0x408000000F00#48], present := some 0 }) 0 ∧
    (fun (t : Lapse) (b : Nat) (s : State) => let a := s.elapse t; let m := msOf a.tb.q0; a.solving = 7 ∧ a.ndovos = true ∧ a.isOn 11 = true ∧ m % a.hdgMs = 0 ∧ a.modes.lastHdg ≠ m ∧ b < 2 ∧ baseIn (msMask a.modes.cur) b = true) L0 0 ((W.putTb { W.tb with q0 := mkQ 1 0, tsrc := 1 }).putModes { W.modes with mode := 7, cur := [0x70F000000F00#48, 1] }) ∧
    (fun (t : Lapse) (s : State) => let a := s.elapse t; let w := arg a.modes.cur 1; a.modes.mode = 10 ∧ a.modes.phase = 0 ∧ atSecond a.tb = true ∧ (cyc a.tb.q0).toNat % max 1 (fld w 47 30) = 0) L0 ((W.putTb { W.tb with q0 := mkQ 20 0 }).putModes { W.modes with mode := 10, cur := [0xA08000000F00#48, 0x000280643C00#48] }) ∧
    (fun (t : Lapse) (s : State) => let a := s.elapse t; let w := arg a.modes.cur 1; a.modes.mode = 10 ∧ a.modes.phase = 2 ∧ usUnits (1000 * fld w 29 16) ≤ qdist a.tb.q0 a.modes.fixAt ∧ (a.fewEphemerides = false ∨ (fld w 15 8 : Int) * 2 ^ 48 ≤ qdist a.tb.q0 a.modes.wakeAt)) L0 ((W.putTb { W.tb with q0 := mkQ 90 0, tsrc := 1 }).putModes { W.modes with mode := 10, phase := 2, cur := [0xA08000000F00#48, 0x000280643C00#48] }) ∧
    (fun (t : Lapse) (s : State) => let a := s.elapse t; let w := arg a.modes.cur 1; a.modes.mode = 10 ∧ a.modes.phase = 1 ∧ (fld w 15 8 : Int) * 2 ^ 48 ≤ qdist a.tb.q0 a.modes.wakeAt) L0 ((W.putTb { W.tb with q0 := mkQ 90 0, tsrc := 1 }).putModes { W.modes with mode := 10, phase := 1, cur := [0xA08000000F00#48, 0x000280643C00#48] }) :=
  by and_intros <;> decide +kernel

/-- Each clause of MeasurementRecords has a case. -/
theorem hyp_MeasurementRecords :
    (fun (t : Lapse) (env : Env) (ps : List Word) (s : State) => let a := s.elapse t; a.admits 0x060 1 0xFFE env ps = true ∧ ps.length = 3 ∧ fld (arg ps 0) 46 45 ≠ 3 ∧ obsPer ps ≠ 0 ∧ (arg ps 1).toNat &&& sigMaskAll = (arg ps 1).toNat) L0 E1 ([0xC00140000000#48, 6, 0xF00000000000#48]) W ∧
    (fun (t : Lapse) (env : Env) (ps : List Word) (s : State) => let a := s.elapse t; a.admits 0x060 1 0xFFE env ps = true ∧ (ps.length ≠ 3 ∨ obsPer ps = 0)) L0 E1 ([0, 0, 0]) W ∧
    (fun (t : Lapse) (env : Env) (ps : List Word) (s : State) => let a := s.elapse t; a.admits 0x061 1 0xFFE env ps = true ∧ ps.length = 2 ∧ fld (arg ps 0) 46 45 ≠ 3 ∧ (arg ps 1).toNat &&& msgMaskAll = (arg ps 1).toNat) L0 E1 ([0xC00000000000#48, 6]) W ∧
    (fun (t : Lapse) (env : Env) (ps : List Word) (s : State) => let a := s.elapse t; a.admits 0x062 1 0xFFE env ps = true ∧ ps.length = 1 ∧ fld (arg ps 0) 45 30 ≠ 0 ∧ fld (arg ps 0) 29 22 ≠ 0) L0 E1 ([0xC00040400000#48]) W ∧
    (fun (t : Lapse) (p : Nat) (s : State) => let a := s.elapse t; let m := msOf a.tb.q0; let ws := (a.mcfg p).obs; let is := (a.kite.chans.map fun e => e.1).filter fun n => a.obsPasses p ws n; m % 10 = 0 ∧ a.meas.lastMs ≠ m ∧ a.ndovos = true ∧ a.oneCore = false ∧ a.isOn 5 = true ∧ a.clk.pllF.gives = true ∧ a.kite.lastMs = m ∧ a.kite.dseq = a.kite.blk ∧ p < 5 ∧ (∀ q, q < 5 → (a.mcfg q).obsNext = [] ∧ (q ≠ p → (a.mcfg q).obs = [])) ∧ bit (arg ws 0) 47 = true ∧ obsPer ws ≠ 0 ∧ m % (10 * obsPer ws) = 0 ∧ is ≠ [] ∧ a.pwr.ready = true ∧ a.mayForm p true (6 + 6 * is.length) = true ∧ (a.part p).rights ≠ 0) L0 0 (((W.putTb { W.tb with q0 := mkQ 1 0 }).putKite { W.kite with lastMs := 1000, chans := [(4, { state := 2, sig := 1, owner := 0, clock := true })] }).setMcfg 0 { obs := [0xC0002001FFFF#48, 2, 0xF00000000000#48] }) ∧
    (fun (t : Lapse) (n : Nat) (p : Nat) (s : State) => let a := s.elapse t; let c := a.chan n; let w := arg (a.mcfg p).nav 0; n < 512 ∧ a.isOn 6 = true ∧ c.obs.framed = true ∧ p < 5 ∧ (∀ q, q < 5 → (a.mcfg q).navNext = [] ∧ (q ≠ p → (a.mcfg q).nav = [])) ∧ bit w 47 = true ∧ bit w 43 = false ∧ inSet (fld w 46 45) p c.owner = true ∧ a.pwr.ready = true ∧ (a.part p).rights ≠ 0) L0 4 0 ((W.putKite { W.kite with chans := [(4, { state := 2, sig := 1, prn := 5, owner := 0, obs := { framed := true } })] }).setMcfg 0 { nav := [0xC00000000000#48, 2] }) ∧
    (fun (t : Lapse) (chan : Nat) (d : Dedup) (s : State) => let a := s.elapse t; a.meas.dedups = [d] ∧ d.done.head? = some chan ∧ d.partner < 5 ∧ d.clk + 32736000 ≤ a.tb.clk ∧ d.passed = true ∧ a.pwr.ready = true ∧ a.mayForm d.partner true (navRecord d.best d.copies (a.mcfg d.partner).navSkip).length = true ∧ (a.part d.partner).rights ≠ 0) L0 4 (⟨0, 261, 1, 7, 0, 1, { chan := 4, sig := 1, prn := 5, ant := 0, mt := 1, check := 0, nbits := 300, bits := [1, 2, 3], parts := [true], ncorr := 0, rx := 9, txMs := 7, clkq := false }, true, [4]⟩) ((W.putTb { W.tb with clk := 32736000 }).putMeas { W.meas with dedups := [⟨0, 261, 1, 7, 0, 1, { chan := 4, sig := 1, prn := 5, ant := 0, mt := 1, check := 0, nbits := 300, bits := [1, 2, 3], parts := [true], ncorr := 0, rx := 9, txMs := 7, clkq := false }, true, [4]⟩] }) :=
  by and_intros <;> decide +kernel

/-- Each clause of AntennaFaults has a case. -/
theorem hyp_AntennaFaults :
    (fun (t : Lapse) (x : Nat) (s : State) => let a := s.elapse t; x < 4 ∧ a.biasOn x = true ∧ (a.antState x = 1 ∨ a.antState x = 2) ∧ tget none (0x201 * 65536 + x) a.raised = none) L0 1 W ∧
    (fun (t : Lapse) (x : Nat) (s : State) => let a := s.elapse t; let y := a.ant x; x < 4 ∧ a.antState x = 3 ∧ bit y.cfg 41 = true ∧ y.tripClk + 654720000 ≤ a.tb.clk ∧ tget none (0x203 * 65536 + x) a.raised = none) L0 1 ((W.putTb { W.tb with clk := 654720000 }).setAnt 1 { state := 3, cfg := 0x7F2060000000#48 }) ∧
    (fun (t : Lapse) (x : Nat) (s : State) => let a := s.elapse t; let y := a.ant x; x < 4 ∧ a.biasOn x = true ∧ (a.antState x = 1 ∨ a.antState x = 2) ∧ y.biasClk + 6547200000 ≤ a.tb.clk) L0 1 ((W.putTb { W.tb with clk := 6547200000 }).setAnt 1 { state := 1, retries := 5 }) ∧
    (fun (t : Lapse) (x : Nat) (ma : Nat) (s : State) => let a := s.elapse t; let y := a.ant x; x < 4 ∧ a.antState x = 1 ∧ ma < y.openMa ∧ y.biasClk + 654720000 ≤ a.tb.clk ∧ longAgo y.aboveClk 654720000 a.tb.clk = true ∧ tget none (0x202 * 65536 + x) a.raised = none) L0 1 0 (W.putTb { W.tb with clk := 654720000 }) ∧
    (fun (t : Lapse) (x : Nat) (ma : Nat) (s : State) => let a := s.elapse t; let y := a.ant x; x < 4 ∧ a.antState x = 2 ∧ y.openMa ≤ ma ∧ longAgo y.belowClk 65472000 a.tb.clk = true ∧ tget none (0x203 * 65536 + x) a.raised = none) L0 1 50 (W.setAnt 1 { state := 2 }) ∧
    (fun (t : Lapse) (st : Nat) (s : State) => let a := s.elapse t; let y := a.strm st; st < 12 ∧ a.isOn 8 = true ∧ y.locked = true ∧ tget none (0x204 * 65536 + st) a.raised = none) L0 4 (W.setStrm 4 { locked := true }) ∧
    (fun (t : Lapse) (st : Nat) (s : State) => let a := s.elapse t; let y := a.strm st; st < 12 ∧ a.isOn 8 = true ∧ y.locked = false ∧ a.fc.front.testBit (st / 3) = false ∧ tget none (0x205 * 65536 + st) a.raised = none) L0 4 (W.setStrm 4 { lostClk := some 0 }) ∧
    (fun (t : Lapse) (x : Nat) (s : State) => let a := s.elapse t; x < 4 ∧ a.fc.front.testBit x = false ∧ (a.antState x = 4 ∨ a.loLost x = true)) L0 1 (W.setAnt 1 { state := 4 }) ∧
    (fun (t : Lapse) (st : Nat) (frac : Nat) (s : State) => let a := s.elapse t; let y := a.strm st; st < 12 ∧ a.isOn 8 = true ∧ fld y.blank 26 18 < satN 9 frac ∧ y.heavy = false ∧ tget none (0x206 * 65536 + st) a.raised = none) L0 4 400 W ∧
    (fun (t : Lapse) (st : Nat) (frac : Nat) (s : State) => let a := s.elapse t; let y := a.strm st; st < 12 ∧ a.isOn 8 = true ∧ satN 9 frac ≤ fld y.blank 26 18 ∧ y.heavy = true ∧ y.lowClk.any (fun c => decide (c + 65472000 ≤ a.tb.clk)) = true) L0 4 3 ((W.putTb { W.tb with clk := 65472000 }).setStrm 4 { heavy := true, lowClk := some 0 }) :=
  by and_intros <;> decide +kernel

/-- Each clause of SearchJobs has a case. -/
theorem hyp_SearchJobs :
    (fun (t : Lapse) (s : State) => let a := s.elapse t; a.isOn 11 = true ∧ a.atBlock = true) L0 (W.putRf { W.rf with waits := [(0x40, 0x200030000000#48)] }) ∧
    (fun (t : Lapse) (env : Env) (ps : List Word) (s : State) => let a := s.elapse t; let k := pktOf 0x040 env ps a; let j := jobOf k; a.admits 0x040 2 0x7FE env ps = true ∧ ps.length = 8 ∧ jobBad j = false ∧ j.start = none ∧ j.prio ≠ 3 ∧ a.fc.front = 0 ∧ a.freeSlots ≠ [] ∧ (a.gale.jobs.filter fun x => x.who == env.partner).length < a.gale.pslotMax ∧ tget 0 3 a.pwr.force ≠ 3) L0 E1 ([0x000144810000#48, 0x010100010010#48, 0, 0x0001F4000000#48, 0x0000000003FF#48, 0x500000000000#48, 0, 0]) W ∧
    (fun (t : Lapse) (env : Env) (ps : List Word) (s : State) => let a := s.elapse t; let k := pktOf 0x040 env ps a; let j := jobOf k; a.admits 0x040 2 0x7FE env ps = true ∧ (ps.length ≠ 8 ∨ jobBad j = true)) L0 E1 ([1, 2, 3, 4, 5, 6, 7, 8]) W ∧
    (fun (t : Lapse) (env : Env) (ps : List Word) (s : State) (j : Job) => let a := s.elapse t; a.admits 0x041 2 0xFFE env ps = true ∧ ps.length = 1 ∧ fld (arg ps 0) 47 46 = 2 ∧ a.gale.jobs = [j] ∧ j.who = env.partner ∧ a.gale.reps = []) L0 E1 ([0x800000000000#48]) (W.putGale { W.gale with jobs := [{ slot := 1024, jsn := 3, seq := 0, who := 0, tag := 5, prio := 1, npeak := 1, mask := 8, sig := 1, prn := 1, cps := 1, sec := false, coh := 1, noncoh := 1, bins := 1, dopCentre := 0, dopStep := 500, dopRate := 0, cpStart := 0, cpWidth := 1023, thresh := 1, secPhase := 0, start := none, gran := 1, left := 1, todo := 1 }] }) ({ slot := 1024, jsn := 3, seq := 0, who := 0, tag := 5, prio := 1, npeak := 1, mask := 8, sig := 1, prn := 1, cps := 1, sec := false, coh := 1, noncoh := 1, bins := 1, dopCentre := 0, dopStep := 500, dopRate := 0, cpStart := 0, cpWidth := 1023, thresh := 1, secPhase := 0, start := none, gran := 1, left := 1, todo := 1 }) ∧
    (fun (t : Lapse) (s : State) (j : Job) (c : Nat) => let a := s.elapse t; a.gale.jobs = [j] ∧ j.since = some c ∧ j.caps = [] ∧ c + 654720000 ≤ a.tb.clk ∧ j.who < 5) L0 ((W.putTb { W.tb with clk := 654720000 }).putGale { W.gale with jobs := [{ slot := 1024, jsn := 3, seq := 0, who := 0, tag := 5, prio := 1, npeak := 1, mask := 8, sig := 1, prn := 1, cps := 1, sec := false, coh := 1, noncoh := 1, bins := 1, dopCentre := 0, dopStep := 500, dopRate := 0, cpStart := 0, cpWidth := 1023, thresh := 1, secPhase := 0, start := none, gran := 1, left := 1, todo := 1, since := some 0 }] }) ({ slot := 1024, jsn := 3, seq := 0, who := 0, tag := 5, prio := 1, npeak := 1, mask := 8, sig := 1, prn := 1, cps := 1, sec := false, coh := 1, noncoh := 1, bins := 1, dopCentre := 0, dopStep := 500, dopRate := 0, cpStart := 0, cpWidth := 1023, thresh := 1, secPhase := 0, start := none, gran := 1, left := 1, todo := 1, since := some 0 }) 0 ∧
    (fun (t : Lapse) (s : State) (j : Job) (e : Nat) (n : Nat) (inE : Nat) (outE : Nat) => let a := s.elapse t; let x := a.eng e; e < 64 ∧ a.engOn e = true ∧ x.busy ≤ a.tb.clk ∧ a.clk.pllG.gives = true ∧ x.work = some (.tile [(j.seq, n)]) ∧ a.gale.jobs = [j] ∧ j.todo = n ∧ energyBad inE outE = false) L0 (W.putGale { W.gale with jobs := [{ slot := 1024, jsn := 3, seq := 0, who := 0, tag := 5, prio := 1, npeak := 1, mask := 8, sig := 1, prn := 1, cps := 1, sec := false, coh := 1, noncoh := 1, bins := 1, dopCentre := 0, dopStep := 500, dopRate := 0, cpStart := 0, cpWidth := 1023, thresh := 1, secPhase := 0, start := none, gran := 1, left := 0, todo := 1 }], engs := [(3, { work := some (.tile [(0, 1)]) })] }) ({ slot := 1024, jsn := 3, seq := 0, who := 0, tag := 5, prio := 1, npeak := 1, mask := 8, sig := 1, prn := 1, cps := 1, sec := false, coh := 1, noncoh := 1, bins := 1, dopCentre := 0, dopStep := 500, dopRate := 0, cpStart := 0, cpWidth := 1023, thresh := 1, secPhase := 0, start := none, gran := 1, left := 0, todo := 1 }) 3 1 9 1179648 ∧
    (fun (t : Lapse) (s : State) (j : Job) (e : Nat) (n : Nat) (inE : Nat) (outE : Nat) => let a := s.elapse t; let x := a.eng e; e < 64 ∧ a.engOn e = true ∧ x.busy ≤ a.tb.clk ∧ x.times = [] ∧ a.clk.pllG.gives = true ∧ x.work = some (.tile [(j.seq, n)]) ∧ a.gale.jobs = [j] ∧ energyBad inE outE = true) L0 (W.putGale { W.gale with jobs := [{ slot := 1024, jsn := 3, seq := 0, who := 0, tag := 5, prio := 1, npeak := 1, mask := 8, sig := 1, prn := 1, cps := 1, sec := false, coh := 1, noncoh := 1, bins := 1, dopCentre := 0, dopStep := 500, dopRate := 0, cpStart := 0, cpWidth := 1023, thresh := 1, secPhase := 0, start := none, gran := 1, left := 0, todo := 1 }], engs := [(3, { work := some (.tile [(0, 1)]) })] }) ({ slot := 1024, jsn := 3, seq := 0, who := 0, tag := 5, prio := 1, npeak := 1, mask := 8, sig := 1, prn := 1, cps := 1, sec := false, coh := 1, noncoh := 1, bins := 1, dopCentre := 0, dopStep := 500, dopRate := 0, cpStart := 0, cpWidth := 1023, thresh := 1, secPhase := 0, start := none, gran := 1, left := 0, todo := 1 }) 3 1 9 9 ∧
    (fun (t : Lapse) (s : State) (e : Nat) (k : Nat) (c : Capture) => let a := s.elapse t; let x := a.eng e; e < 64 ∧ a.engOn e = true ∧ x.failed = false ∧ x.work = none ∧ x.busy ≤ a.tb.clk ∧ (x.ms ≠ a.tb.clk / 654720 ∨ x.fwds = 0) ∧ a.clk.pllG.gives = true ∧ a.clk.pllG.state ≠ 3 ∧ bit a.gale.ctrl 47 = false ∧ a.gale.nextFwd e = some (k, c) ∧ a.gale.caps = [c]) L0 ((W.putTb { W.tb with clk := 654720000 }).putGale { W.gale with caps := [⟨1, 0, 1, 15754200, 2046, 0, 0, 2, 2, [], [], (0, 0), 1, 1, none⟩], jobs := [{ slot := 1024, jsn := 3, seq := 0, who := 0, tag := 5, prio := 1, npeak := 1, mask := 8, sig := 1, prn := 1, cps := 1, sec := false, coh := 1, noncoh := 1, bins := 1, dopCentre := 0, dopStep := 500, dopRate := 0, cpStart := 0, cpWidth := 1023, thresh := 1, secPhase := 0, start := none, gran := 1, left := 1, todo := 1, caps := [1] }] }) 3 0 (⟨1, 0, 1, 15754200, 2046, 0, 0, 2, 2, [], [], (0, 0), 1, 1, none⟩) ∧
    (fun (t : Lapse) (s : State) (e : Nat) (inE : Nat) (outE : Nat) (c : Capture) => let a := s.elapse t; let x := a.eng e; e < 64 ∧ a.engOn e = true ∧ x.work = some (.fwd c.id) ∧ x.busy ≤ a.tb.clk ∧ a.clk.pllG.gives = true ∧ a.gale.caps = [c] ∧ energyBad inE outE = false) L0 ((W.putTb { W.tb with clk := 654720000 }).putGale { W.gale with caps := [⟨1, 0, 1, 15754200, 2046, 0, 0, 2, 2, [], [], (0, 0), 1, 1, none⟩], jobs := [{ slot := 1024, jsn := 3, seq := 0, who := 0, tag := 5, prio := 1, npeak := 1, mask := 8, sig := 1, prn := 1, cps := 1, sec := false, coh := 1, noncoh := 1, bins := 1, dopCentre := 0, dopStep := 500, dopRate := 0, cpStart := 0, cpWidth := 1023, thresh := 1, secPhase := 0, start := none, gran := 1, left := 1, todo := 1, caps := [1] }], engs := [(3, { work := some (.fwd 1) })] }) 3 9 1179648 (⟨1, 0, 1, 15754200, 2046, 0, 0, 2, 2, [], [], (0, 0), 1, 1, none⟩) :=
  by and_intros <;> decide +kernel

/-- Each clause of ChannelCommands has a case. -/
theorem hyp_ChannelCommands :
    (fun (t : Lapse) (env : Env) (ps : List Word) (s : State) => let a := s.elapse t; let ch := fld (arg ps 0) 47 38; a.admits 0x050 2 0x7FE env ps = true ∧ ps.length = 7 ∧ ch ≠ 0x3FF ∧ a.acceptAssign env.partner (some ch) ps = none) L0 E1 ([0x770101004000#48, 0x000400000000#48, 0, 0, 0, 0, 0]) W ∧
    (fun (t : Lapse) (env : Env) (ps : List Word) (s : State) => let a := s.elapse t; a.admits 0x050 2 0x7FE env ps = true ∧ ps.length ≠ 7) L0 E1 ([5]) W ∧
    (fun (t : Lapse) (env : Env) (ps : List Word) (s : State) => let a := s.elapse t; a.admits 0x051 2 0xFFE env ps = true ∧ ps.length = 1 ∧ fld (arg ps 0) 47 46 = 0 ∧ a.planned.releaseRefusal env.partner (fld (arg ps 0) 41 32) = none) L0 E1 ([0x01DC00000000#48]) (W.setChan 476 { state := 2, sig := 1, prn := 1, owner := 0 }) ∧
    (fun (t : Lapse) (env : Env) (ps : List Word) (s : State) => let a := s.elapse t; a.admits 0x051 2 0xFFE env ps = true ∧ ps.length = 1 ∧ fld (arg ps 0) 47 46 = 1) L0 E1 ([0x400000000000#48]) (W.setChan 476 { state := 2, sig := 1, prn := 1, owner := 0 }) ∧
    (fun (t : Lapse) (env : Env) (ps : List Word) (s : State) => let a := s.elapse t; a.admits 0x053 2 0xFFE env ps = true ∧ ps.length = 1 ∧ fld (arg ps 0) 47 46 = 0 ∧ a.planned.breakRefusal env.partner (fld (arg ps 0) 45 40) = none) L0 E1 ([0x050000000000#48]) (W.setTrain 5 { state := 1, owner := 0, slots := [476, 477] }) ∧
    (fun (t : Lapse) (env : Env) (ps : List Word) (s : State) => let a := s.elapse t; a.admits 0x053 2 0xFFE env ps = true ∧ ps.length = 1 ∧ fld (arg ps 0) 47 46 = 1) L0 E1 ([0x400000000000#48]) (W.setTrain 5 { state := 1, owner := 0, slots := [476, 477] }) ∧
    (fun (t : Lapse) (env : Env) (ps : List Word) (s : State) => let a := s.elapse t; a.admits 0x053 2 0xFFE env ps = true ∧ ps.length = 1 ∧ fld (arg ps 0) 47 46 = 0 ∧ (a.planned.train (fld (arg ps 0) 45 40)).state = 0) L0 E1 ([0x050000000000#48]) W ∧
    (fun (t : Lapse) (env : Env) (ps : List Word) (s : State) => let a := s.elapse t; let x := fld (arg ps 0) 47 41; let n := fld (arg ps 0) 39 35; a.admits 0x052 2 0x7FE env ps = true ∧ ps.length = 5 ∧ 2 ≤ n ∧ n ≤ 16 ∧ ((formSlots ps 20).drop n).all (fun y => y == 0x1FF) = true ∧ x ≠ 0x7F ∧ a.planned.formRefusal env.partner (some x) (formSlots ps n) a.kite.cmds = none) L0 E1 ([0x0A1000000000#48, pack [put 44 36 476, put 35 27 477, put 26 18 0x1FF, put 17 9 0x1FF, put 8 0 0x1FF], 0x1FFFFFFFFFFF#48, 0x1FFFFFFFFFFF#48, 0x1FFFFFFFFFFF#48]) ((W.setChan 476 { state := 2, sig := 1, prn := 1, owner := 0, plock := true, cn0 := 4000 }).setChan 477 { state := 2, sig := 2, prn := 1, owner := 0, plock := true, cn0 := 4000 }) ∧
    (fun (t : Lapse) (s : State) (k : KiteCmd) (n : Nat) (ps : List Word) => let a := s.elapse t; let ms := msOf a.tb.q0; let c := startChan k.who (a.prof (fld (arg ps 0) 21 17)) ps a.tb.q0 a.tb.clk; a.isOn 5 = true ∧ a.kite.lastMs ≠ ms ∧ a.kite.cmds = [k] ∧ k.tick ≤ ms ∧ k.op = .assign n ps ∧ a.kite.chans = [] ∧ a.assignRefusal k.who (some n) ps [] false = none ∧ bit (arg ps 0) 7 = false ∧ a.noInput c.stream = false) L0 (((W.putTb { W.tb with q0 := mkQ 1 0 }).putKite { W.kite with cmds := [⟨7, 0, 1000, .assign 476 [0x770101004000#48, 0x000400000000#48, 0, 0, 0, 0, 0]⟩] }).setStrm 0 { locked := true }) (⟨7, 0, 1000, .assign 476 [0x770101004000#48, 0x000400000000#48, 0, 0, 0, 0, 0]⟩) 476 ([0x770101004000#48, 0x000400000000#48, 0, 0, 0, 0, 0]) ∧
    (fun (t : Lapse) (s : State) (k : KiteCmd) (n : Nat) (ps : List Word) => let a := s.elapse t; let ms := msOf a.tb.q0; a.isOn 5 = true ∧ a.kite.lastMs ≠ ms ∧ a.kite.cmds = [k] ∧ k.tick ≤ ms ∧ k.op = .assign n ps ∧ k.who < 5 ∧ a.kite.chans = [] ∧ (a.assignRefusal k.who (some n) ps [] false).isSome = true) L0 ((W.putTb { W.tb with q0 := mkQ 1 0 }).putKite { W.kite with cmds := [⟨7, 0, 1000, .assign 5 [0x770101004000#48, 0x000400000000#48, 0, 0, 0, 0, 0]⟩] }) (⟨7, 0, 1000, .assign 5 [0x770101004000#48, 0x000400000000#48, 0, 0, 0, 0, 0]⟩) 5 ([0x770101004000#48, 0x000400000000#48, 0, 0, 0, 0, 0]) ∧
    (fun (t : Lapse) (s : State) (k : KiteCmd) (n : Nat) => let a := s.elapse t; let ms := msOf a.tb.q0; a.isOn 5 = true ∧ a.kite.lastMs ≠ ms ∧ a.kite.cmds = [k] ∧ k.tick ≤ ms ∧ k.op = .release [n] false ∧ n < 512 ∧ (a.chan n).owner = k.who ∧ a.kite.trains = [] ∧ (∀ m, m < 512 → m ≠ n → (a.chan m).active = false) ∧ (a.kite.chans.all fun e => decide (e.1 < 512)) = true) L0 (((W.putTb { W.tb with q0 := mkQ 1 0 }).putKite { W.kite with cmds := [⟨7, 0, 1000, .release [476] false⟩] }).setChan 476 { state := 2, sig := 1, prn := 1, owner := 0 }) (⟨7, 0, 1000, .release [476] false⟩) 476 :=
  by and_intros <;> decide +kernel

/-- Each clause of ChannelEvents has a case. -/
theorem hyp_ChannelEvents :
    (fun (t : Lapse) (s : State) (n : Nat) (ints : List (List (BitVec 8))) => let a := s.elapse t; let c := (a.chan n).takeInts (a.noInput (a.chan n).stream) a.tb.clk ints; n < 512 ∧ (a.chan n).active = true ∧ a.isOn 5 = true ∧ a.clk.pllF.gives = true ∧ c.interval = none) L0 (W.setChan 476 { state := 2, sig := 1, prn := 1, owner := 0, ctrlNext := some 5, nco := { code := 7, crate := 100, carate := 5 } }) 476 ([]) ∧
    (fun (t : Lapse) (s : State) (n : Nat) (ints : List (List (BitVec 8))) ks => let a := s.elapse t; let c := (a.chan n).takeInts (a.noInput (a.chan n).stream) a.tb.clk ints; n < 512 ∧ (a.chan n).active = true ∧ c.role = 0 ∧ a.isOn 5 = true ∧ a.clk.pllF.gives = true ∧ c.interval = some ks) L0 (W.setChan 476 { state := 2, sig := 1, prn := 1, owner := 0, ctrlNext := some 5, nco := { code := 7, crate := 100, carate := 5 }, cnt := 5, recent := [⟨100, 5, 90, 7, 80, 4, 0, 0, 40, 3, 1000, 5, 0, 1, 0⟩] }) 476 ([]) ([⟨100, 5, 90, 7, 80, 4, 0, 0, 40, 3, 1000, 5, 0, 1, 0⟩]) ∧
    (fun (t : Lapse) (s : State) (n : Nat) => let a := s.elapse t; let c := a.chan n; n < 512 ∧ c.active = true ∧ c.role = 0 ∧ a.kite.trains = [] ∧ tcanon {} a.kite.chans = true ∧ a.isOn 5 = true ∧ a.clk.pllF.gives = true ∧ (a.kite.evalClk = 0 ∨ a.kite.evalClk + 65472000 ≤ a.tb.clk)) L0 ((W.putTb { W.tb with clk := 65472000 }).setChan 476 { state := 1, sig := 1, prn := 1, owner := 0, pp := (900, 10), pn := (90, 10) }) 476 ∧
    (fun (t : Lapse) (s : State) (n : Nat) => let a := s.elapse t; let c := a.chan n; n < 512 ∧ c.state = 1 ∧ c.role = 0 ∧ c.owner < 5 ∧ a.isOn 5 = true ∧ c.since + fld (a.profOf n).w1 33 22 * 654720 ≤ a.tb.clk) L0 ((W.putTb { W.tb with clk := 6547200000 }).setChan 476 { state := 1, sig := 1, prn := 1, owner := 0 }) 476 ∧
    (fun (t : Lapse) (s : State) (n : Nat) => let a := s.elapse t; let c := a.chan n; n < 512 ∧ c.state = 2 ∧ c.role = 0 ∧ a.isOn 5 = true ∧ c.low.any (fun k => decide (k + (fld (a.profOf n).w1 21 10 + 99) / 100 * 65472000 ≤ a.tb.clk)) = true) L0 ((W.putTb { W.tb with clk := 6547200000 }).setChan 476 { state := 2, sig := 1, prn := 1, owner := 0, low := some 0 }) 476 ∧
    (fun (t : Lapse) (s : State) (n : Nat) => let a := s.elapse t; let c := a.chan n; n < 512 ∧ c.state = 2 ∧ c.role = 2 ∧ (a.train c.train).slots.head?.any (fun m => m != n) = true ∧ a.isOn 5 = true ∧ c.drop.any (fun k => decide (k + 1309440000 ≤ a.tb.clk)) = true) L0 (((W.putTb { W.tb with clk := 6547200000 }).setChan 476 { state := 2, sig := 1, prn := 1, owner := 0, role := 2, train := 5, drop := some 0 }).setTrain 5 { state := 1, owner := 0, slots := [477, 476] }) 476 ∧
    (fun (t : Lapse) (s : State) (n : Nat) => let a := s.elapse t; let c := a.chan n; n < 512 ∧ c.state = 3 ∧ c.since + 654720000 ≤ a.tb.clk) L0 ((W.putTb { W.tb with clk := 654720000 }).setChan 476 { state := 3, sig := 1, prn := 1, owner := 0 }) 476 ∧
    (fun (t : Lapse) (s : State) (n : Nat) => let a := s.elapse t; let c := a.chan n; n < 512 ∧ a.kite.chans = [(n, c)] ∧ c.active = true ∧ c.role = 0 ∧ a.dom 5 = 1 ∧ a.kite.retClk.any (fun k => decide (k + 6547200000 < a.tb.clk)) = true) L0 ((((W.putTb { W.tb with clk := 6547200001 }).putKite { W.kite with retClk := some 0 }).setChan 476 { state := 2, sig := 1, prn := 1, owner := 0 }).setDom 5 1) 476 ∧
    (fun (t : Lapse) (s : State) (x : Nat) (m : Nat) => let a := s.elapse t; let tr := a.train x; x < 64 ∧ m < 512 ∧ tr.state = 2 ∧ tr.slots = [m] ∧ tr.coastClk + a.kite.coastMs * 654720 ≤ a.tb.clk ∧ (a.profOf m).cn0Loss ≤ (a.chan m).cn0 ∧ tr.owner < 5) L0 (((W.putTb { W.tb with clk := 65472000000 }).setChan 476 { state := 2, sig := 1, prn := 1, owner := 0, role := 1, train := 5, coast := true, cn0 := 4000 }).setTrain 5 { state := 2, owner := 0, slots := [476] }) 5 476 ∧
    (fun (t : Lapse) (s : State) => let a := s.elapse t; a.isOn 5 = true ∧ a.kite.dseq ≠ a.kite.blk ∧ a.clk.pllF.gives = true) L0 (W.putKite { W.kite with blk := 3, lastMs := 1000 }) :=
  by and_intros <;> decide +kernel

/-- Each clause of SamplePortCommands has a case. -/
theorem hyp_SamplePortCommands :
    (fun (t : Lapse) (env : Env) (ps : List Word) (s : State) => let a := s.elapse t; let n := fld (arg ps 0) 47 45; let p := smpOf (a.smp n) ps; a.admits 0x0A0 2 0xFFE env ps = true ∧ smpFieldBad ps = false ∧ (p.en = false ∨ (0xC00000 ≤ p.base ∧ p.base + p.extent ≤ 0x1000000 ∧ a.ringsHit n p.base p.extent = false)) ∧ (a.smp n).state ≠ 2 ∧ a.startPending n = false ∧ (p.angle = false ∨ (p.qty ≠ 0 ∧ a.kind p.qty ≠ 15))) L0 E1 ([0x305400000000#48, 0x0000BB800000#48, 0, 0, 0xC00000500000#48]) W ∧
    (fun (t : Lapse) (env : Env) (ps : List Word) (s : State) => let a := s.elapse t; a.admits 0x0A0 2 0xFFE env ps = true ∧ smpFieldBad ps = true) L0 E1 ([0]) W ∧
    (fun (t : Lapse) (env : Env) (ps0 : List Word) (s : State) => let a := s.elapse t; a.admits 0x0A1 2 0xFFE env (fixField 47 46 0 ps0) = true ∧ ps0.length = 1 ∧ namedPorts (arg ps0 0) ≠ [] ∧ (namedPorts (arg ps0 0)).all (fun n => (a.smp n).en) = true) L0 E1 ([0x100000000000#48]) (W.setSmp 1 { cfg0 := 0x305400000000#48, state := 1 }) ∧
    (fun (t : Lapse) (env : Env) (ps0 : List Word) (s : State) => let a := s.elapse t; a.admits 0x0A1 2 0xFFE env (fixField 47 46 1 ps0) = true ∧ ps0.length = 1 ∧ namedPorts (arg ps0 0) ≠ [] ∧ (namedPorts (arg ps0 0)).all (fun n => (a.smp n).en) = true) L0 E1 ([0x100000000000#48]) (W.setSmp 1 { cfg0 := 0x305400000000#48, state := 2 }) ∧
    (fun (t : Lapse) (env : Env) (ps : List Word) (s : State) => let a := s.elapse t; let n := fld (arg ps 0) 47 45; a.admits 0x0A2 2 0xFFE env ps = true ∧ ps.length = 1 ∧ (a.smp n).en = true ∧ maskBad (maskOf (arg ps 0)) (a.smp n).nslots = false ∧ (a.smp n).next = none ∧ (a.smp n).state = 2) L0 E1 ([0x300000000000#48]) (W.setSmp 1 { cfg0 := 0x305400000000#48, state := 2 }) ∧
    (fun (t : Lapse) (env : Env) (ps : List Word) (s : State) => let a := s.elapse t; let n := fld (arg ps 0) 47 45; a.admits 0x0A2 2 0xFFE env ps = true ∧ ps.length = 1 ∧ (a.smp n).en = true ∧ maskBad (maskOf (arg ps 0)) (a.smp n).nslots = false ∧ (a.smp n).next = none ∧ (a.smp n).state ≠ 2) L0 E1 ([0x300000000000#48]) (W.setSmp 1 { cfg0 := 0x305400000000#48, state := 1 }) ∧
    (fun (t : Lapse) (n : Nat) (q : Qval) (s : State) => let a := s.elapse t; let p := a.smp n; n < 8 ∧ p.startAt = some q ∧ behind a.tb.q0 q = false ∧ p.en = true) L0 1 5 ((W.putTb { W.tb with q0 := 9 }).setSmp 1 { cfg0 := 0x305400000000#48, cfg1 := 0x0000BB800000#48, cfg4 := 0xC00000500000#48, state := 1, startAt := some 5 }) ∧
    (fun (t : Lapse) (n : Nat) (q : Qval) (s : State) => let a := s.elapse t; let p := a.smp n; n < 8 ∧ p.stopAt = some q ∧ behind a.tb.q0 q = false ∧ p.state = 2 ∧ a.idxFrom p p.nextIdx q = true) L0 1 5 ((W.putTb { W.tb with q0 := 9 }).setSmp 1 { cfg0 := 0x305400000000#48, cfg1 := 0x0000BB800000#48, cfg4 := 0xC00000500000#48, state := 2, ts := 6, stopAt := some 5 }) :=
  by and_intros <;> decide +kernel

/-- Each clause of SampleFramesAndRings has a case. -/
theorem hyp_SampleFramesAndRings :
    (fun (t : Lapse) (n : Nat) (rising : Bool) (s : State) => let a := s.elapse t; let p := a.smp n; n < 8 ∧ p.en = true ∧ a.isOn 10 = true ∧ a.pinsLatched 10 = false ∧ p.starts rising = true ∧ bit p.cfg0 28 = false ∧ p.state ≠ 2) L0 1 false (W.setSmp 1 { cfg0 := 0x305400000000#48, cfg1 := 0x0000BB800000#48, cfg4 := 0xC00000500000#48, state := 1, good := 63 }) ∧
    (fun (t : Lapse) (n : Nat) (bclk : Nat) (s : State) => let a := s.elapse t; let p := a.smp n; n < 8 ∧ p.en = true ∧ a.isOn 10 = true ∧ a.pinsLatched 10 = false ∧ ((p.rate ≠ 0 ∧ behind a.tb.q0 (p.predicted 3) = false) ∨ p.rateBad bclk = true) ∧ p.under = false ∧ tget none (0xB01 * 65536 + n) a.raised = none) L0 1 30000000 (W.setSmp 1 { cfg0 := 0x305400000000#48, cfg1 := 0x0000BB800000#48, cfg4 := 0xC00000500000#48, state := 2, lock := true }) ∧
    (fun (t : Lapse) (n : Nat) (pair : Nat) (s : State) => let a := s.elapse t; let p := a.smp n; n < 8 ∧ pair < 8 ∧ (p.pair pair).muted = true ∧ (p.pair pair).since + 8192 ≤ p.frame ∧ tget none (0xB04 * 65536 + n) a.raised = none) L0 1 2 (W.setSmp 1 { cfg0 := 0x305400000000#48, cfg1 := 0x0000BB800000#48, cfg4 := 0xC00000500000#48, state := 2, frame := 9000, pairs := [(2, { muted := true, since := 8 })] }) ∧
    (fun (t : Lapse) (n : Nat) (c : Place) (s : State) => let a := s.elapse t; let p := a.smp n; let j := p.nextIdx; let w := a.span p c.at_; let fs := p.within c.at_ w; let all := c.lost || a.tooFast p c.at_ || p.lacks c.at_ w fs; n < 8 ∧ p.state = 2 ∧ a.isOn 10 = true ∧ a.clk.pllW.gives = true ∧ a.place p j = some c ∧ w + max p.inDly 0 ≤ qdist a.tb.q0 c.at_ ∧ p.stopAt.all (fun q => behind c.at_ q) = true ∧ (p.inFill = false ∨ all = true)) L0 1 (⟨6, false, false⟩) ((W.putTb { W.tb with q0 := mkQ 1 0 }).setSmp 1 { cfg0 := 0x305400000000#48, cfg1 := 0x0000BB800000#48, cfg4 := 0xC00000500000#48, rate := 0x0000BB800000#48, state := 2, ts := 6 }) ∧
    (fun (t : Lapse) (n : Nat) (k : Nat) (c : Place) (s : State) => let a := s.elapse t; let p := a.smp n; let j := p.nextIdx; let w := a.span p c.at_; n < 8 ∧ p.state = 2 ∧ a.isOn 10 = true ∧ a.clk.pllW.gives = true ∧ a.place p j = some c ∧ w + max p.inDly 0 ≤ qdist a.tb.q0 c.at_ ∧ p.stopAt.all (fun q => behind c.at_ q) = true ∧ p.base + p.extent ≤ 2 ^ 24 ∧ k < p.nslots ∧ p.writes k j = true) L0 1 0 (⟨6, false, false⟩) ((W.putTb { W.tb with q0 := mkQ 1 0 }).setSmp 1 { cfg0 := 0x305400000000#48, cfg1 := 0x0000BB800000#48, cfg4 := 0xC00000500000#48, rate := 0x0000BB800000#48, state := 2, ts := 6 }) :=
  by and_intros <;> decide +kernel

/-- Each clause of RtcCommands has a case. -/
theorem hyp_RtcCommands :
    (fun (t : Lapse) (env : Env) (ps : List Word) (s : State) => let a := s.elapse t; let form := fld (arg ps 0) 47 46; a.admits 0x0D0 3 0xFFE env ps = true ∧ form = 0 ∧ ps.length = 3) L0 E1 ([0, 1400100000, 0x800000000000#48]) W ∧
    (fun (t : Lapse) (env : Env) (ps : List Word) (s : State) => let a := s.elapse t; let form := fld (arg ps 0) 47 46; a.admits 0x0D0 3 0xFFE env ps = true ∧ form = 1 ∧ ps.length = 1 ∧ a.tb.tsrc ≠ 0) L0 E1 ([0x400000000000#48]) (W.putTb { W.tb with tsrc := 1 }) ∧
    (fun (t : Lapse) (env : Env) (ps : List Word) (s : State) => let a := s.elapse t; let form := fld (arg ps 0) 47 46; a.admits 0x0D0 3 0xFFE env ps = true ∧ form = 1 ∧ ps.length = 1 ∧ a.tb.tsrc = 0) L0 E1 ([0x400000000000#48]) W ∧
    (fun (t : Lapse) (env : Env) (ps : List Word) (s : State) => let a := s.elapse t; let form := fld (arg ps 0) 47 46; a.admits 0x0D0 3 0xFFE env ps = true ∧ (2 ≤ form ∨ (form = 0 ∧ ps.length ≠ 3) ∨ (form = 1 ∧ ps.length ≠ 1))) L0 E1 ([0xC00000000000#48]) W ∧
    (fun (t : Lapse) (env : Env) (ps : List Word) (s : State) => let a := s.elapse t; a.admits 0x0D1 2 0xFFE env ps = true ∧ ps.length = 3 ∧ almBad (arg ps 1) (arg ps 2) = false) L0 E1 ([0x800000000000#48, 0, 0xFF0000000000#48]) W ∧
    (fun (t : Lapse) (env : Env) (ps : List Word) (s : State) => let a := s.elapse t; a.admits 0x0D1 2 0xFFE env ps = true ∧ (ps.length ≠ 3 ∨ almBad (arg ps 1) (arg ps 2) = true)) L0 E1 ([0x800000000000#48, 0, 0x800000000000#48]) W ∧
    (fun (n : Nat) (s : State) => let b := s.elapse ⟨n, 0⟩; b.rtc.setNext = none ∧ b.rtc.trimNext = none) 9 (W.putRtc { W.rtc with sec := 7, low := 2 ^ 42 - 5, trim := -40 }) ∧
    (fun (n : Nat) (s : State) => let b := s.elapse ⟨n, 0⟩; b.rtc.setNext = some .tether) 9 ((W.putTb { W.tb with q0 := mkQ 7 0x400100000001#48 }).putRtc { W.rtc with sec := 5, setNext := some .tether }) ∧
    (fun (n : Nat) (s : State) x y => let b := s.elapse ⟨n, 0⟩; b.rtc.setNext = some (.value (some x) (some y))) 9 (W.putRtc { W.rtc with sec := 1400099999, setNext := some (.value (some 1400100000) (some 0x8000)) }) 1400100000 0x8000 ∧
    (fun (n : Nat) (v : Word) (c : Word) (s : State) => let b := s.elapse ⟨n, 0⟩; b.rtc.nextA = some (some v, some c, true) ∧ b.rtc.setNext = none) 9 3 (0x800000000000#48) (W.putRtc { W.rtc with nextA := some (some 3, some 0x800000000000#48, true), stat := 15 }) ∧
    (fun (n : Nat) (v : Word) (c : Word) (s : State) => let b := s.elapse ⟨n, 0⟩; b.rtc.nextB = some (some v, some c, true) ∧ b.rtc.setNext = none) 9 3 (0x800000000000#48) (W.putRtc { W.rtc with nextB := some (some 3, some 0x800000000000#48, true), stat := 15 }) ∧
    (fun (t : Lapse) (x : Nat) (s : State) => let a := s.elapse t; x < 2 ∧ a.rtc.due x = true ∧ a.pwr.ready = true) L0 1 (W.putRtc { W.rtc with ctlB := 0xFF0000000000#48 }) ∧
    (fun (t : Lapse) (x : Nat) (s : State) => let a := s.elapse t; x < 2 ∧ a.rtc.due x = true ∧ a.pwr.ready = false) L0 0 ((W.putRtc { W.rtc with ctlA := 0xFF8000000000#48 }).putPwr { W.pwr with ready := false, phase := .dormant }) ∧
    (fun (t : Lapse) (s : State) => let a := s.elapse t; let off := (qdist a.rtc.instant a.tb.q0).natAbs; bit a.rtc.cfg 47 = true ∧ atSecond a.tb = true ∧ (cyc a.tb.q0).toNat % 10 = 0 ∧ a.pwr.ready = true ∧ (a.tb.tsrc = 1 ∨ a.tb.tsrc = 3) ∧ fld a.rtc.cfg 46 31 * 2 ^ 48 < off * 10 ^ 6) L0 ((W.putTb { W.tb with q0 := mkQ 20 0, tsrc := 3 }).putRtc { W.rtc with sec := 19 }) ∧
    (fun (t : Lapse) (s : State) => let a := s.elapse t; let off := (qdist a.rtc.instant a.tb.q0).natAbs; (bit a.rtc.cfg 47 = false ∨ (a.tb.tsrc ≠ 1 ∧ a.tb.tsrc ≠ 3) ∨ off * 10 ^ 6 ≤ fld a.rtc.cfg 46 31 * 2 ^ 48)) L0 ((W.putTb { W.tb with q0 := mkQ 20 0, tsrc := 3 }).putRtc { W.rtc with sec := 20 }) ∧
    (fun (t : Lapse) (s : State) => let a := s.elapse t; a.rtc.leapNext ≠ a.rtc.leapNow ∧ a.rtc.leapAt ≤ a.rtc.sec) L0 (W.putRtc { W.rtc with sec := 90000, leapNext := 19, leapAt := 86419 }) :=
  by and_intros <;> decide +kernel

/-- Each clause of RtcTrim has a case. -/
theorem hyp_RtcTrim :
    (fun (t : Lapse) (env : Env) (ps : List Word) (s : State) => let a := s.elapse t; let w0 := arg ps 0; let trim := sfld w0 44 28; a.admits 0x0D2 3 0xFFE env (fixField 47 45 0 ps) = true ∧ ps.length = 1 ∧ -34359 ≤ trim ∧ trim ≤ 34359 ∧ fld w0 27 20 ≤ 168) L0 E1 ([pack [putS 44 28 (-34359)]]) W ∧
    (fun (t : Lapse) (env : Env) (ps : List Word) (s : State) => let a := s.elapse t; let w0 := arg ps 0; let trim := sfld w0 44 28; a.admits 0x0D2 3 0xFFE env (fixField 47 45 0 ps) = true ∧ (ps.length ≠ 1 ∨ trim < -34359 ∨ 34359 < trim ∨ 168 < fld w0 27 20)) L0 E1 ([pack [putS 44 28 (-34360)]]) W ∧
    (fun (t : Lapse) (env : Env) (ps : List Word) (s : State) => let a := s.elapse t; let w0 := arg ps 0; a.admits 0x0D2 3 0xFFE env (fixField 47 45 1 ps) = true ∧ ps.length = 1 ∧ fld w0 27 20 ≤ 168 ∧ a.pwr.good = true ∧ a.rtc.run = none) L0 E1 ([0]) W ∧
    (fun (t : Lapse) (env : Env) (ps : List Word) (s : State) => let a := s.elapse t; let w0 := arg ps 0; a.admits 0x0D2 3 0xFFE env (fixField 47 45 2 ps) = true ∧ ps.length = 1 ∧ fld w0 27 20 ≤ 168 ∧ (a.tb.tsrc = 1 ∨ a.tb.tsrc = 3) ∧ (a.rtc.run = none ∨ a.rtc.run.any (fun r => r.waiting) = true)) L0 E1 ([0x000000080000#48]) ((W.putTb { W.tb with q0 := mkQ 20 0, tsrc := 3 }).putRtc { W.rtc with run := some ownTrim }) ∧
    (fun (t : Lapse) (env : Env) (ps : List Word) (s : State) => let a := s.elapse t; let w0 := arg ps 0; a.admits 0x0D2 3 0xFFE env (fixField 47 45 2 ps) = true ∧ ps.length = 1 ∧ fld w0 27 20 ≤ 168 ∧ a.tb.tsrc ≠ 1 ∧ a.tb.tsrc ≠ 3) L0 E1 ([0]) W ∧
    (fun (t : Lapse) (env : Env) (ps : List Word) (s : State) => let a := s.elapse t; let w0 := arg ps 0; a.admits 0x0D2 3 0xFFE env (fixField 47 45 3 ps) = true ∧ ps.length = 4 ∧ fld w0 27 20 ≤ 168 ∧ fld (arg ps 3) 47 24 ≠ 0 ∧ a.rtc.run = none) L0 E1 ([0, 1400000000, 0, 0x000001000000#48]) W ∧
    (fun (t : Lapse) (env : Env) (ps : List Word) (s : State) => let a := s.elapse t; let w0 := arg ps 0; a.admits 0x0D2 3 0xFFE env (fixField 47 45 4 ps) = true ∧ ps.length = 4 ∧ fld w0 27 20 ≤ 168 ∧ fld (arg ps 3) 47 24 ≠ 0 ∧ a.rtc.run.all (fun r => r.kind != 3 || r.owner != some env.partner) = true) L0 E1 ([0, 1400000000, 0, 0x000001000000#48]) W ∧
    (fun (t : Lapse) (env : Env) (ps : List Word) (s : State) (r : TrimRun) => let a := s.elapse t; a.admits 0x0D2 3 0xFFE env (fixField 47 45 4 ps) = true ∧ ps.length = 4 ∧ fld (arg ps 0) 27 20 ≤ 168 ∧ fld (arg ps 3) 47 24 ≠ 0 ∧ a.rtc.run = some r ∧ r.kind = 3 ∧ r.owner = some env.partner ∧ a.rtc.counted < r.rtc0 + 3600 * 2 ^ 42) L0 E1 ([0, 1400000000, 0, 0x000001000000#48]) (W.putRtc { W.rtc with run := some { kind := 3, owner := some 0, hours := 0, auto := false, waiting := false, rtc0 := 0, true0 := 0, sigma := 1 } }) ({ kind := 3, owner := some 0, hours := 0, auto := false, waiting := false, rtc0 := 0, true0 := 0, sigma := 1 }) ∧
    (fun (t : Lapse) (env : Env) (ps : List Word) (s : State) (r : TrimRun) => let a := s.elapse t; let given := (mkQ (arg ps 1) (arg ps 2)).toNat; a.admits 0x0D2 3 0xFFE env (fixField 47 45 4 ps) = true ∧ ps.length = 4 ∧ fld (arg ps 0) 27 20 ≤ 168 ∧ fld (arg ps 3) 47 24 ≠ 0 ∧ a.rtc.run = some r ∧ r.kind = 3 ∧ r.owner = some env.partner ∧ r.rtc0 + 3600 * 2 ^ 42 ≤ a.rtc.counted ∧ r.true0 < given) L0 E1 ([0, 1400003600, 0, 0x000001000000#48]) (W.putRtc { W.rtc with counted := 3601 * 2 ^ 42, run := some { kind := 3, owner := some 0, hours := 0, auto := false, waiting := false, rtc0 := 0, true0 := 1400000000 * 2 ^ 48, sigma := 1 } }) ({ kind := 3, owner := some 0, hours := 0, auto := false, waiting := false, rtc0 := 0, true0 := 1400000000 * 2 ^ 48, sigma := 1 }) ∧
    (fun (t : Lapse) (env : Env) (ps : List Word) (s : State) (r : TrimRun) => let a := s.elapse t; a.admits 0x0D2 3 0xFFE env (fixField 47 45 5 ps) = true ∧ ps.length = 1 ∧ fld (arg ps 0) 27 20 ≤ 168 ∧ a.rtc.run = some r ∧ r.waiting = false) L0 E1 ([0]) (W.putRtc { W.rtc with run := some { kind := 3, owner := some 0, hours := 0, auto := false, waiting := false, rtc0 := 0, true0 := 0, sigma := 1 } }) ({ kind := 3, owner := some 0, hours := 0, auto := false, waiting := false, rtc0 := 0, true0 := 0, sigma := 1 }) ∧
    (fun (t : Lapse) (env : Env) (ps : List Word) (s : State) (r : TrimRun) => let a := s.elapse t; a.admits 0x0D2 3 0xFFE env (fixField 47 45 5 ps) = true ∧ ps.length = 1 ∧ fld (arg ps 0) 27 20 ≤ 168 ∧ a.rtc.run.all (fun r => r.waiting) = true) L0 E1 ([0x000000000000#48]) (W.putRtc { W.rtc with run := some { kind := 2, owner := none, hours := 1, auto := true, waiting := true, rtc0 := 0, true0 := 0 } }) ({ kind := 2, owner := none, hours := 1, auto := true, waiting := true, rtc0 := 0, true0 := 0 }) ∧
    (fun (t : Lapse) (s : State) (r : TrimRun) => let a := s.elapse t; a.rtc.run = some r ∧ r.waiting = false ∧ r.kind = 1 ∧ r.hours * 3600 * 2 ^ 42 ≤ a.rtc.counted - r.rtc0 ∧ 0 < r.true0) L0 (W.putRtc { W.rtc with counted := 3600 * 2 ^ 42, run := some { kind := 1, owner := some 0, hours := 1, auto := false, waiting := false, rtc0 := 0, true0 := 180000 } }) ({ kind := 1, owner := some 0, hours := 1, auto := false, waiting := false, rtc0 := 0, true0 := 180000 }) ∧
    (fun (t : Lapse) (s : State) (r : TrimRun) => let a := s.elapse t; let d := qdist a.tb.q0 (BitVec.ofNat 96 r.true0); a.rtc.run = some r ∧ r.waiting = false ∧ r.kind = 2 ∧ atSecond a.tb = true ∧ (r.hours * 3600 * 2 ^ 48 : Int) ≤ d ∧ 0 < d) L0 ((W.putTb { W.tb with q0 := mkQ 3600 0, tsrc := 1 }).putRtc { W.rtc with counted := 3599 * 2 ^ 42, run := some { kind := 2, owner := none, hours := 1, auto := true, waiting := false, rtc0 := 0, true0 := 0 } }) ({ kind := 2, owner := none, hours := 1, auto := true, waiting := false, rtc0 := 0, true0 := 0 }) ∧
    (fun (t : Lapse) (s : State) (r : TrimRun) => let a := s.elapse t; a.rtc.run = some r ∧ r.waiting = false ∧ r.kind = 3 ∧ r.rtc0 + 168 * 3600 * 2 ^ 42 ≤ a.rtc.counted) L0 (W.putRtc { W.rtc with counted := 700000 * 2 ^ 42, run := some { kind := 3, owner := some 1, hours := 0, auto := false, waiting := false, rtc0 := 0, true0 := 0, sigma := 1 } }) ({ kind := 3, owner := some 1, hours := 0, auto := false, waiting := false, rtc0 := 0, true0 := 0, sigma := 1 }) :=
  by and_intros <;> decide +kernel

/-- Each clause of CellAndBackup has a case. -/
theorem hyp_CellAndBackup :
    (fun (t : Lapse) (env : Env) (ps : List Word) (s : State) => let a := s.elapse t; a.admits 0x0D3 3 0xFFE env ps = true ∧ ps.length = 1 ∧ bkBad (arg ps 0) = false) L0 E1 ([0x16F936800000#48]) W ∧
    (fun (t : Lapse) (env : Env) (ps : List Word) (s : State) => let a := s.elapse t; a.admits 0x0D3 3 0xFFE env ps = true ∧ (ps.length ≠ 1 ∨ bkBad (arg ps 0) = true)) L0 E1 ([0]) W ∧
    (fun (t : Lapse) (mv : Nat) (s : State) => let a := s.elapse t; let lowV := 10 * fld a.rtc.bk 32 24; mv < 4096 ∧ lowV ≤ mv ∧ 1000 ≤ mv) L0 3650 W ∧
    (fun (t : Lapse) (mv : Nat) (s : State) => let a := s.elapse t; let lowV := 10 * fld a.rtc.bk 32 24; 1000 ≤ mv ∧ mv < lowV ∧ a.rtc.low_ = false ∧ a.rtc.lastLow = none ∧ a.pwr.ready = true) L0 2900 W ∧
    (fun (t : Lapse) (mv : Nat) (s : State) => let a := s.elapse t; mv < 1000 ∧ a.rtc.absent = false ∧ a.rtc.lastAbsent = none ∧ a.pwr.ready = true) L0 999 (W.putRtc { W.rtc with low_ := true }) ∧
    (fun (t : Lapse) (s : State) => let a := s.elapse t; a.pwr.good = false ∧ a.rtc.source = 0 ∧ a.pwr.timeDown = false ∧ a.pwr.phase = .shed) L0 ((W.putPwr { W.pwr with good := false, ready := false, phase := .shed }).putRtc { W.rtc with sec := 77, low := 2 ^ 41 }) ∧
    (fun (t : Lapse) (s : State) => let a := s.elapse t; a.rtc.source = 1) L0 (W.putRtc { W.rtc with sec := 77, low := 2 ^ 41, source := 1 }) ∧
    (fun (t : Lapse) (s : State) => let a := s.elapse t; a.pwr.good = false ∧ a.pwr.timeDown = false ∧ a.pwr.phase = .shed) L0 ((W.putPwr { W.pwr with good := false, ready := false, phase := .shed, latched := 7 }).putRtc { W.rtc with sec := 77, source := 1 }) :=
  by and_intros <;> decide +kernel

/-- Each clause of PowerCommands has a case. -/
theorem hyp_PowerCommands :
    (fun (t : Lapse) (env : Env) (ps : List Word) (s : State) => let a := s.elapse t; a.admits 0x0C0 2 0xFFE env ps = true ∧ ps.length = 1 ∧ fld (arg ps 0) 47 45 < 7) L0 E1 ([0x200000D00000#48]) W ∧
    (fun (t : Lapse) (env : Env) (ps : List Word) (s : State) => let a := s.elapse t; a.admits 0x0C0 2 0xFFE env ps = true ∧ (ps = [] ∨ 7 < ps.length ∨ (ps.map fun w => fld w 47 45).contains 7 = true)) L0 E1 ([0, 0xE00000D00000#48]) W ∧
    (fun (t : Lapse) (env : Env) (ps : List Word) (s : State) => let a := s.elapse t; let d := fld (arg ps 0) 45 42; a.admits 0x0C1 3 0xFFE env (fixField 47 46 0 ps) = true ∧ ps.length = 1 ∧ fld (arg ps 0) 41 40 = 0 ∧ fld (arg ps 0) 39 38 = 0 ∧ (d = 1 ∨ (3 ≤ d ∧ d ≤ 11)) ∧ a.isOn d = true ∧ a.breaksTable d 2 = false) L0 E1 ([put 45 42 3 |> word]) W ∧
    (fun (t : Lapse) (env : Env) (ps : List Word) (s : State) => let a := s.elapse t; let d := fld (arg ps 0) 45 42; a.admits 0x0C1 3 0xFFE env (fixField 47 46 0 ps) = true ∧ ps.length = 1 ∧ fld (arg ps 0) 41 40 = 2 ∧ fld (arg ps 0) 39 38 = 0 ∧ d = 5 ∧ a.isOn 5 = true ∧ a.breaksTable 5 0 = false) L0 E1 ([put 45 42 5 + put 41 40 2 |> word]) W ∧
    (fun (t : Lapse) (env : Env) (ps : List Word) (s : State) => let a := s.elapse t; let d := fld (arg ps 0) 45 42; a.admits 0x0C1 3 0xFFE env (fixField 47 46 0 ps) = true ∧ ps.length = 1 ∧ fld (arg ps 0) 41 40 = 2 ∧ fld (arg ps 0) 39 38 = 0 ∧ (d = 6 ∨ d = 7)) L0 E1 ([put 45 42 7 + put 41 40 2 |> word]) W ∧
    (fun (t : Lapse) (env : Env) (ps : List Word) (s : State) => let a := s.elapse t; let d := fld (arg ps 0) 45 42; a.admits 0x0C1 3 0xFFE env (fixField 47 46 1 ps) = true ∧ ps.length = 1 ∧ (d = 1 ∨ (3 ≤ d ∧ d ≤ 11))) L0 E1 ([put 45 42 3 |> word]) (W.putPwr { W.pwr with force := [(3, 1)] }) ∧
    (fun (t : Lapse) (env : Env) (ps : List Word) (s : State) => let a := s.elapse t; a.admits 0x0C1 3 0xFFE env (fixField 47 46 2 ps) = true ∧ ps.length = 1 ∧ a.host.s0.wakeEn = true ∧ a.dormantBusy = false) L0 E1 ([0]) (W.putHost { W.host with s0 := { W.host.s0 with wakeEn := true } }) ∧
    (fun (t : Lapse) (env : Env) (ps : List Word) (s : State) => let a := s.elapse t; a.admits 0x0C1 3 0xFFE env (fixField 47 46 2 ps) = true ∧ ps.length = 1 ∧ a.host.s0.wakeEn = false ∧ (bit a.rtc.ctlA 47 = false ∨ bit a.rtc.ctlA 39 = false) ∧ (bit a.rtc.ctlB 47 = false ∨ bit a.rtc.ctlB 39 = false)) L0 E1 ([0]) (W.putHost { W.host with s0 := { W.host.s0 with wakeEn := false } }) ∧
    (fun (t : Lapse) (env : Env) (ps : List Word) (s : State) => let a := s.elapse t; a.admits 0x0C2 2 0xFFE env ps = true ∧ ps.length = 1 ∧ fld (arg ps 0) 47 45 ≠ 0 ∧ fld (arg ps 0) 45 45 = 0 ∧ a.isOn 9 = true ∧ a.isOn 10 = true) L0 E1 ([put 47 45 6 |> word]) (W.putPwr { W.pwr with latched := 3 }) ∧
    (fun (t : Lapse) (env : Env) (ps : List Word) (s : State) => let a := s.elapse t; a.admits 0x0C2 2 0xFFE env ps = true ∧ ps.length = 1 ∧ fld (arg ps 0) 45 45 = 1 ∧ a.pwr.latched.testBit 0 = true ∧ a.isOn 11 = false) L0 E1 ([put 47 45 1 |> word]) (W.putPwr { W.pwr with latched := 1, dom := (11, 1) :: W.pwr.dom }) :=
  by and_intros <;> decide +kernel

/-- Each clause of GovernorAndPads has a case. -/
theorem hyp_GovernorAndPads :
    (fun (t : Lapse) (s : State) => let a := s.elapse t; a.pwr.ready = true ∧ a.pwr.timeDown = false ∧ (∀ d, d < 12 → a.dom d = 2) ∧ (∀ d, d < 9 → a.forced (d + 3) = 1)) L0 (W.putPwr { W.pwr with force := [(3, 1), (4, 1), (5, 1), (6, 1), (7, 1), (8, 1), (9, 1), (10, 1), (11, 1)] }) ∧
    (fun (t : Lapse) (s : State) => let a := s.elapse t; a.pwr.ready = true ∧ a.pwr.timeDown = false ∧ (∀ d, d < 12 → a.dom d = 2) ∧ (∀ d, d < 9 → a.forced (d + 3) = (if d = 7 then 3 else 1))) L0 (W.putPwr { W.pwr with force := [(3, 1), (4, 1), (5, 1), (6, 1), (7, 1), (8, 1), (9, 1), (10, 3), (11, 1)] }) ∧
    (fun (t : Lapse) (n : Nat) (m : Nat) (s : State) => let a := s.elapse t; n < 8 ∧ m < 8 ∧ m ≠ n ∧ a.pwr.timeDown = true ∧ a.pwr.downClk + 65472000 ≤ a.tb.clk ∧ a.outActive n = true ∧ a.outActive m = true) L0 1 2 (((W.setOut 1 { until_ := some 9 }).setOut 2 { until_ := some 9 }).putPwr { W.pwr with timeDown := true } |> fun s => s.putTb { s.tb with clk := 65472000 }) :=
  by and_intros <;> decide +kernel

/-- Each clause of DspCommands has a case. -/
theorem hyp_DspCommands :
    (fun (t : Lapse) (env : Env) (ps : List Word) (s : State) => let a := s.elapse t; let c := fld (arg ps 0) 47 47; let addr := fld (arg ps 0) 23 0; a.admits 0x0F0 2 0xFFE env (fixField 46 45 0 ps) = true ∧ ps ≠ [] ∧ (a.core c).failed = false ∧ a.userRegion addr (ps.length - 1) = true ∧ a.overImage addr (ps.length - 1) = false) L0 E1 ([put 47 47 1 + put 23 0 0xC00000 |> word, 5, 6]) W ∧
    (fun (t : Lapse) (env : Env) (ps : List Word) (s : State) => let a := s.elapse t; let c := fld (arg ps 0) 47 47; let addr := fld (arg ps 0) 23 0; a.admits 0x0F0 2 0xFFE env (fixField 46 45 0 ps) = true ∧ ps ≠ [] ∧ (a.core c).failed = false ∧ a.userRegion addr (ps.length - 1) = false) L0 E1 ([put 23 0 0xBFFFFF |> word, 5, 6]) W ∧
    (fun (t : Lapse) (env : Env) (ps : List Word) (s : State) => let a := s.elapse t; let c := fld (arg ps 0) 47 47; let task := fld (arg ps 0) 44 39; a.admits 0x0F0 2 0xFFE env (fixField 46 45 1 ps) = true ∧ a.jrn.live + 2000 ≤ 245760 ∧ ps.length = 4 ∧ (a.core c).failed = false ∧ 1 ≤ fld (arg ps 1) 23 0 ∧ fld (arg ps 1) 23 0 ≤ 65536 ∧ fld (arg ps 1) 47 24 ≤ fld (arg ps 2) 47 24 ∧ fld (arg ps 2) 47 24 < fld (arg ps 1) 47 24 + fld (arg ps 1) 23 0 ∧ 1 ≤ fld (arg ps 2) 23 0 ∧ a.userRegion (fld (arg ps 1) 47 24) (fld (arg ps 1) 23 0) = true ∧ ((a.core c).slot task).loaded = false ∧ a.slotBusy c task = false ∧ a.imageCrc (fld (arg ps 1) 47 24) (fld (arg ps 1) 23 0) = fld (arg ps 3) 31 0) L0 E1 ([put 44 39 7 |> word, put 47 24 0xC00000 + put 23 0 2 |> word, put 47 24 0xC00001 + 9 |> word, word (W.imageCrc 0xC00000 2)]) W ∧
    (fun (t : Lapse) (env : Env) (ps : List Word) (s : State) => let a := s.elapse t; let c := fld (arg ps 0) 47 47; let task := fld (arg ps 0) 44 39; a.admits 0x0F0 2 0xFFE env (fixField 46 45 2 ps) = true ∧ ps.length = 1 ∧ (a.core c).failed = false ∧ ((a.core c).slot task).owner = env.partner ∧ a.slotBusy c task = false) L0 E1 ([put 44 39 7 |> word]) (W.setCore 0 ({ : UCore }.setSlot 7 { loaded := true, owner := 0 })) ∧
    (fun (t : Lapse) (env : Env) (ps : List Word) (s : State) => let a := s.elapse t; let c := fld (arg ps 0) 47 47; let task := fld (arg ps 0) 45 40; a.admits 0x0F1 2 0xFFE env (fixField 46 46 0 ps) = true ∧ fld (arg ps 0) 39 37 ≤ 4 ∧ ps.length = 1 + fld (arg ps 0) 39 37 ∧ (a.core c).failed = false ∧ ((a.core c).slot task).loaded = true ∧ ((a.core c).slot task).owner = env.partner ∧ (a.core c).ring.length < 4) L0 E1 ([put 45 40 7 + put 39 37 1 |> word, 55]) (W.setCore 0 ({ : UCore }.setSlot 7 { loaded := true, owner := 0 })) ∧
    (fun (t : Lapse) (env : Env) (ps : List Word) (s : State) => let a := s.elapse t; let c := fld (arg ps 0) 47 47; let task := fld (arg ps 0) 45 40; a.admits 0x0F1 2 0xFFE env (fixField 46 46 0 ps) = true ∧ fld (arg ps 0) 39 37 ≤ 4 ∧ ps.length = 1 + fld (arg ps 0) 39 37 ∧ (a.core c).failed = false ∧ ((a.core c).slot task).loaded = false) L0 E1 ([put 45 40 7 + put 39 37 1 |> word, 55]) W ∧
    (fun (t : Lapse) (env : Env) (ps : List Word) (s : State) => let a := s.elapse t; let c := fld (arg ps 0) 47 47; let task := fld (arg ps 0) 45 40; a.admits 0x0F1 2 0xFFE env (fixField 46 46 1 ps) = true ∧ fld (arg ps 0) 39 37 = 0 ∧ ps.length = 1 ∧ (a.core c).failed = false ∧ ((a.core c).slot task).owner = env.partner ∧ (a.core c).run = none) L0 E1 ([put 45 40 7 |> word]) (W.setCore 0 { ({ : UCore }.setSlot 7 { loaded := true, owner := 0 }) with ring := [⟨7, 1, 0, 0, [], false, false⟩, ⟨8, 1, 0, 0, [], false, false⟩] }) ∧
    (fun (t : Lapse) (k : Nat) (s : State) (r : Start) (rest : List Start) => let a := s.elapse t; let c := a.core k; k < 2 ∧ a.isOn 6 = true ∧ a.clk.pllS.gives = true ∧ c.failed = false ∧ a.pwr.selftest.testBit 2 = false ∧ c.run = none ∧ c.ring = r :: rest) L0 1 (W.setCore 1 { ({ : UCore }.setSlot 7 { loaded := true, owner := 0, entry := 0xC00000, drops := 2 }) with ring := [⟨7, 1, 3, 9, [4, 5], true, false⟩] }) (⟨7, 1, 3, 9, [4, 5], true, false⟩) ([]) ∧
    (fun (t : Lapse) (k : Nat) (s : State) (r : Start) => let e := s.elapse t; let a := e.fetched k; let c := a.core k; e.executes k = true ∧ c.run = some r) L0 0 WC st7 ∧
    (fun (t : Lapse) (k : Nat) (s : State) (r : Start) => let a := s.elapse t; let c := a.core k; a.coreRuns k = true ∧ c.run = some r ∧ (c.slot r.task).owner < 5 ∧ (c.slot r.task).maxcyc * 1024 ≤ c.cycnt) L0 0 WC st7 ∧
    (fun (t : Lapse) (k : Nat) (s : State) (r : Start) => let a := s.elapse t; let c := a.core k; a.coreRuns k = true ∧ c.run = some r ∧ (c.slot r.task).owner < 5) L0 0 WC st7 ∧
    (fun (t : Lapse) (k : Nat) (s : State) (r : Start) => let a := s.elapse t; let c := a.core k; k < 2 ∧ a.isOn 6 = true ∧ c.failed = false ∧ c.run = some r ∧ c.ring = []) L0 0 WC st7 ∧
    (fun (t : Lapse) (c : Nat) (s : State) => let a := s.elapse t; c < 2 ∧ a.isOn 6 = true ∧ a.dsp.failed.testBit c = false ∧ a.dsp.failed.testBit (1 - c) = false) L0 1 W :=
  by and_intros <;> decide +kernel

/-- Each clause of CoreArithmetic has a case. -/
theorem hyp_CoreArithmetic :
    (fun (t : Lapse) (k : Nat) (dd : Nat) (s : State) => let e := s.elapse t; e.executes k = true ∧ dd < 16) L0 0 3 WC ∧
    (fun (t : Lapse) (k : Nat) (dd : Nat) (s : State) => let e := s.elapse t; e.executes k = true ∧ dd < 16) L0 0 3 WC ∧
    (fun (t : Lapse) (k : Nat) (dd : Nat) (s : State) => let e := s.elapse t; e.executes k = true ∧ dd < 16) L0 0 1 WC ∧
    (fun (t : Lapse) (k : Nat) (dd : Nat) (s : State) => let e := s.elapse t; e.executes k = true ∧ dd < 16) L0 0 1 WC ∧
    (fun (t : Lapse) (k : Nat) (dd : Nat) (db : Nat) (s : State) => let e := s.elapse t; let a := e.fetched k; let c := a.core k; let y := c.dr db; e.executes k = true ∧ dd < 16 ∧ y.toNat < 48) L0 0 3 2 WC ∧
    (fun (t : Lapse) (k : Nat) (dd : Nat) (db : Nat) (s : State) => let e := s.elapse t; let a := e.fetched k; let c := a.core k; let y := c.dr db; e.executes k = true ∧ dd < 16 ∧ 48 ≤ y.toNat) L0 0 3 1 WC ∧
    (fun (t : Lapse) (k : Nat) (dd : Nat) (da : Nat) (s : State) => let e := s.elapse t; let a := e.fetched k; let c := a.core k; let x := c.dr da; e.executes k = true ∧ dd < 16 ∧ x ≠ 0x800000000000#48) L0 0 3 1 WC ∧
    (fun (t : Lapse) (k : Nat) (s : State) => let e := s.elapse t; e.executes k = true) L0 0 WC ∧
    (fun (t : Lapse) (k : Nat) (s : State) => let e := s.elapse t; e.executes k = true) L0 0 WC ∧
    (fun (t : Lapse) (k : Nat) (s : State) => let e := s.elapse t; e.coreRuns k = true ∧ e.inImage k = false) L0 0 (WC.setCore 0 { WC.core 0 with pc := 0xC00010 }) ∧
    (fun (t : Lapse) (k : Nat) (s : State) => let e := s.elapse t; let a := e.fetched k; e.coreRuns k = true ∧ e.inImage k = true ∧ a.coreRuns k = false) L0 0 (WC.putMem { WC.mem with bad := [0xC00001] }) ∧
    (fun (t : Lapse) (k : Nat) (dd : Nat) (op : AluOp) (s : State) => let e := s.elapse t; e.executes k = true ∧ dd < 16 ∧ op ≠ .cmp) L0 0 3 .min WC ∧
    (fun (t : Lapse) (k : Nat) (dd : Nat) (s : State) => let e := s.elapse t; e.executes k = true ∧ dd < 16) L0 0 3 WC :=
  by and_intros <;> decide +kernel

/-- Each clause of CoreAccumulators has a case. -/
theorem hyp_CoreAccumulators :
    (fun (t : Lapse) (k : Nat) (m0 : MacHalf) (m1 : MacHalf) (s : State) => let e := s.elapse t; let a := e.fetched k; let c := a.core k; let v := (c.ar m0.acc).toInt + c.macTerm m0 + (if m0.acc = m1.acc then c.macTerm m1 else 0); e.executes k = true ∧ m0.acc = m1.acc ∧ -2 ^ 119 ≤ v ∧ v < 2 ^ 119) L0 0 (⟨0, false, 2, 1, 2⟩) (⟨1, true, 2, 2, 2⟩) WC ∧
    (fun (t : Lapse) (k : Nat) (m0 : MacHalf) (m1 : MacHalf) (s : State) => let e := s.elapse t; let a := e.fetched k; let c := a.core k; let v := (c.ar m0.acc).toInt + c.macTerm m0 + (if m0.acc = m1.acc then c.macTerm m1 else 0); e.executes k = true ∧ m0.acc = m1.acc ∧ (v < -2 ^ 119 ∨ 2 ^ 119 ≤ v)) L0 0 (⟨0, false, 2, 1, 1⟩) (⟨0, false, 2, 2, 2⟩) (WC.setCore 0 { WC.core 0 with mode := 0x800000000000#48, a := [(2, BitVec.ofInt 120 (2 ^ 119 - 1))] }) ∧
    (fun (t : Lapse) (k : Nat) (m0 : MacHalf) (m1 : MacHalf) (s : State) => let e := s.elapse t; let a := e.fetched k; let c := a.core k; let v := (c.ar m0.acc).toInt + c.macTerm m0 + (if m0.acc = m1.acc then c.macTerm m1 else 0); e.executes k = true ∧ m0.acc ≠ m1.acc ∧ -2 ^ 119 ≤ v ∧ v < 2 ^ 119 ∧ -2 ^ 119 ≤ (c.ar m1.acc).toInt + c.macTerm m1 ∧ (c.ar m1.acc).toInt + c.macTerm m1 < 2 ^ 119) L0 0 (⟨0, false, 2, 1, 2⟩) (⟨2, true, 3, 1, 2⟩) WC ∧
    (fun (t : Lapse) (k : Nat) (s : State) => let e := s.elapse t; e.executes k = true) L0 0 WC ∧
    (fun (t : Lapse) (k : Nat) (n : Nat) (sh : Nat) (s : State) => let e := s.elapse t; let a := e.fetched k; let c := a.core k; let x := (c.ar n).toInt; e.executes k = true ∧ -2 ^ 119 ≤ x * 2 ^ sh ∧ x * 2 ^ sh < 2 ^ 119) L0 0 2 4 WC ∧
    (fun (t : Lapse) (k : Nat) (sh : Nat) (rnd : Nat) (sat : Bool) (s : State) => let e := s.elapse t; e.executes k = true ∧ sh ≤ 72 ∧ rnd = 0 ∧ sat = false) L0 0 4 0 false WC ∧
    (fun (t : Lapse) (k : Nat) (sh : Nat) (rnd : Nat) (sat : Bool) (s : State) => let e := s.elapse t; e.executes k = true ∧ 1 ≤ sh ∧ sh ≤ 72 ∧ rnd = 1 ∧ sat = true) L0 0 4 1 true WC ∧
    (fun (t : Lapse) (k : Nat) (sh : Nat) (rnd : Nat) (s : State) => let e := s.elapse t; e.executes k = true ∧ (72 < sh ∨ 2 < rnd)) L0 0 4 3 WC ∧
    (fun (t : Lapse) (k : Nat) (n : Nat) (s : State) => let e := s.elapse t; e.executes k = true ∧ n ≤ 5) L0 0 5 WC ∧
    (fun (t : Lapse) (k : Nat) (n : Nat) (s : State) => let e := s.elapse t; e.executes k = true ∧ 6 ≤ n) L0 0 6 WC :=
  by and_intros <;> decide +kernel

/-- Each clause of CoreMemoryAndFlow has a case. -/
theorem hyp_CoreMemoryAndFlow :
    (fun (t : Lapse) (k : Nat) (s : State) => let e := s.elapse t; e.executes k = true) L0 0 WC ∧
    (fun (t : Lapse) (k : Nat) (ap : Nat) (s : State) => let e := s.elapse t; let a := e.fetched k; let c := a.core k; let w := c.address ap; e.executes k = true ∧ a.mem.queue = [] ∧ a.mem.leaseOn w a.cycleNow = none ∧ a.mem.bad.contains w = false) L0 0 1 WC ∧
    (fun (t : Lapse) (k : Nat) (ap : Nat) (s : State) => let e := s.elapse t; let a := e.fetched k; let c := a.core k; let w := c.address ap; e.executes k = true ∧ a.mem.queue = [] ∧ a.mem.leaseOn w a.cycleNow = none ∧ a.mem.bad.contains w = true) L0 0 1 (WC.putMem { WC.mem with bad := [0xC00005] }) ∧
    (fun (t : Lapse) (k : Nat) (ap : Nat) (s : State) => let e := s.elapse t; let a := e.fetched k; let c := a.core k; let w := c.address ap; e.executes k = true ∧ a.mem.queue = [] ∧ a.mem.leaseOn w a.cycleNow = none ∧ a.userRegion w 1 = true) L0 0 1 WC ∧
    (fun (t : Lapse) (k : Nat) (ap : Nat) (s : State) => let e := s.elapse t; let a := e.fetched k; let c := a.core k; let w := c.address ap; e.executes k = true ∧ a.userRegion w 1 = false) L0 0 3 WC ∧
    (fun (t : Lapse) (k : Nat) (dd : Nat) (dn : Nat) (s : State) => let e := s.elapse t; let a := e.fetched k; let c := a.core k; e.executes k = true ∧ dd ≤ 14 ∧ (c.dr dn).toNat = 0) L0 0 3 9 WC ∧
    (fun (t : Lapse) (k : Nat) (dd : Nat) (dn : Nat) (s : State) => let e := s.elapse t; let a := e.fetched k; let c := a.core k; e.executes k = true ∧ dd ≤ 14 ∧ (c.dr dn).toNat = 1) L0 0 3 9 (WC.setCore 0 ((WC.core 0).setD 9 1)) ∧
    (fun (t : Lapse) (k : Nat) (s : State) => let e := s.elapse t; e.executes k = true) L0 0 WC ∧
    (fun (t : Lapse) (k : Nat) (s : State) => let e := s.elapse t; e.executes k = true) L0 0 WC ∧
    (fun (t : Lapse) (k : Nat) (s : State) => let e := s.elapse t; e.executes k = true) L0 0 WC ∧
    (fun (t : Lapse) (k : Nat) (i : Nat) (s : State) => let e := s.elapse t; e.executes k = true ∧ i ≠ 14) L0 0 1 WC ∧
    (fun (t : Lapse) (k : Nat) (s : State) => let e := s.elapse t; e.executes k = true) L0 0 WC ∧
    (fun (t : Lapse) (k : Nat) (i : Nat) (s : State) => let e := s.elapse t; let a := e.fetched k; let c := a.core k; e.executes k = true ∧ c.loops.length < 4 ∧ (c.dr i).toNat ≠ 0) L0 0 1 WC ∧
    (fun (t : Lapse) (k : Nat) (s : State) => let e := s.elapse t; let a := e.fetched k; let c := a.core k; e.executes k = true ∧ 4 ≤ c.loops.length) L0 0 (WC.setCore 0 { WC.core 0 with loops := [⟨0, 0, 0⟩, ⟨0, 0, 0⟩, ⟨0, 0, 0⟩, ⟨0, 0, 0⟩] }) ∧
    (fun (t : Lapse) (k : Nat) (dn : Nat) (s : State) (r : Start) => let e := s.elapse t; let a := e.fetched k; let c := a.core k; let o := (c.slot r.task).owner; e.executes k = true ∧ c.run = some r ∧ o < 5 ∧ (a.part o).rights ≠ 0 ∧ (c.dr dn).toNat = 1 ∧ c.npost < 16 ∧ a.mayForm o true 8 = true) L0 0 2 (WC.setCore 0 ((WC.core 0).setD 2 1)) st7 ∧
    (fun (t : Lapse) (k : Nat) (s : State) (r : Start) => let e := s.elapse t; let a := e.fetched k; let c := a.core k; e.executes k = true ∧ c.run = some r ∧ 16 ≤ c.npost) L0 0 (WC.setCore 0 { WC.core 0 with npost := 16 }) st7 :=
  by and_intros <;> decide +kernel

/-- Each clause of EthernetPorts has a case. -/
theorem hyp_EthernetPorts :
    (fun (t : Lapse) (f : Frame) (s : State) => let a := s.elapse t; let e := a.eth f.port; f.port < 2 ∧ f.ep ≠ .spi ∧ a.portUp f.port = true ∧ e.page.drops f = true) L0 ({ fr1 with dport := 9 }) WE ∧
    (fun (t : Lapse) (f : Frame) (s : State) => let a := s.elapse t; let e := a.eth f.port; let n := fld f.xport 15 4; f.port < 2 ∧ f.ep ≠ .spi ∧ a.portUp f.port = true ∧ e.page.drops f = false ∧ a.host.reasm = [] ∧ fld f.xport 47 40 = 0 ∧ fld f.xport 39 32 = 1 ∧ n ≤ segWords (bit e.page.cfg 46) f.ep ∧ n ≤ f.bytes / 6 ∧ n ≤ f.words.length) L0 fr1 WE ∧
    (fun (t : Lapse) (f : Frame) (s : State) => let a := s.elapse t; let e := a.eth f.port; let n := fld f.xport 15 4; f.port < 2 ∧ f.ep ≠ .spi ∧ a.portUp f.port = true ∧ e.page.drops f = false ∧ a.host.reasm = [] ∧ fld f.xport 47 40 = 0 ∧ 2 ≤ fld f.xport 39 32 ∧ n ≤ segWords (bit e.page.cfg 46) f.ep ∧ n ≤ f.bytes / 6 ∧ n ≤ f.words.length) L0 ({ fr1 with xport := transport 0 2 5 3 }) WE ∧
    (fun (t : Lapse) (f : Frame) (r : Reasm) (s : State) => let a := s.elapse t; let e := a.eth f.port; let n := fld f.xport 15 4; f.port < 2 ∧ f.ep ≠ .spi ∧ a.portUp f.port = true ∧ e.page.drops f = false ∧ a.host.reasm = [r] ∧ r.port = f.port ∧ r.ep = f.ep ∧ a.tb.clk < r.first + 6547200 ∧ r.xid = fld f.xport 31 16 ∧ r.nseg = fld f.xport 39 32 ∧ r.got = fld f.xport 47 40 ∧ r.got ≠ 0 ∧ r.got + 1 = r.nseg ∧ n ≤ segWords (bit e.page.cfg 46) f.ep ∧ n ≤ f.bytes / 6 ∧ n ≤ f.words.length) L0 ({ fr1 with xport := transport 1 2 5 2 }) ({ port := 0, ep := fr1.ep, xid := 5, nseg := 2, got := 1, first := 0, words := [1] }) (WE.putHost { WE.host with reasm := [{ port := 0, ep := fr1.ep, xid := 5, nseg := 2, got := 1, first := 0, words := [1] }] }) ∧
    (fun (t : Lapse) (f : Frame) (r : Reasm) (s : State) => let a := s.elapse t; let e := a.eth f.port; f.port < 2 ∧ f.ep ≠ .spi ∧ a.portUp f.port = true ∧ e.page.drops f = false ∧ a.host.reasm = [r] ∧ r.port = f.port ∧ r.ep = f.ep ∧ a.tb.clk < r.first + 6547200 ∧ fld f.xport 47 40 ≠ 0 ∧ r.got ≠ fld f.xport 47 40) L0 ({ fr1 with xport := transport 2 3 5 2 }) ({ port := 0, ep := fr1.ep, xid := 5, nseg := 3, got := 1, first := 0, words := [1] }) (WE.putHost { WE.host with reasm := [{ port := 0, ep := fr1.ep, xid := 5, nseg := 3, got := 1, first := 0, words := [1] }] }) ∧
    (fun (t : Lapse) (r : Reasm) (s : State) => let a := s.elapse t; a.host.reasm = [r] ∧ r.first + 6547200 ≤ a.tb.clk) (⟨6547200, 0⟩) ({ port := 0, ep := fr1.ep, xid := 5, nseg := 3, got := 1, first := 0, words := [1] }) (WE.putHost { WE.host with reasm := [{ port := 0, ep := fr1.ep, xid := 5, nseg := 3, got := 1, first := 0, words := [1] }] }) ∧
    (fun (t : Lapse) (port : Nat) (vlan : Nat) (target : BitVec 32) (s : State) => let a := s.elapse t; let e := a.eth port; port < 2 ∧ a.portUp port = true ∧ e.page.otherVlan vlan = false ∧ target.toNat = fld e.page.ip4 31 0) L0 0 0 (0xC0A83020#32) WE ∧
    (fun (t : Lapse) (port : Nat) (vlan : Nat) (six : BitVec 128) (s : State) => let a := s.elapse t; let e := a.eth port; port < 2 ∧ a.portUp port = true ∧ e.page.otherVlan vlan = false ∧ e.page.ip6 ≠ 0 ∧ six = e.page.ip6) L0 0 0 (BitVec.ofNat 128 (2 ^ 120)) (WE.setEth 0 { (WE.eth 0) with page := { (WE.eth 0).page with ip6a := 0x010000000000#48 } }) ∧
    (fun (t : Lapse) (port : Nat) (vlan : Nat) (s : State) => let a := s.elapse t; let e := a.eth port; port < 2 ∧ a.portUp port = true ∧ e.page.otherVlan vlan = false) L0 0 0 WE ∧
    (fun (t : Lapse) (port : Nat) (vlan : Nat) (s : State) => let a := s.elapse t; let e := a.eth port; port < 2 ∧ a.portUp port = true ∧ e.page.otherVlan vlan = true) L0 0 5 WE ∧
    (fun (t : Lapse) (port : Nat) (vlan : Nat) (v6 : Bool) (s : State) => let a := s.elapse t; let e := a.eth port; port < 2 ∧ a.portUp port = true ∧ e.page.otherVlan vlan = false ∧ ((if v6 then e.echoes6 else e.echoes4).filter fun c => decide (a.tb.clk < c + 654720000)).length < 10) L0 0 0 true WE ∧
    (fun (t : Lapse) (port : Nat) (vlan : Nat) (v6 : Bool) (s : State) => let a := s.elapse t; let e := a.eth port; port < 2 ∧ a.portUp port = true ∧ e.page.otherVlan vlan = false ∧ 10 ≤ ((if v6 then e.echoes6 else e.echoes4).filter fun c => decide (a.tb.clk < c + 654720000)).length) L0 0 0 false (WE.setEth 0 { (WE.eth 0) with echoes4 := List.replicate 10 0 }) ∧
    (fun (t : Lapse) (port : Nat) (s : State) => let a := s.elapse t; let e := a.eth port; port < 2 ∧ a.isOn 9 = true ∧ bit e.page.cfg 47 = true ∧ e.wasUp = true ∧ e.failed = false) L0 0 WE ∧
    (fun (t : Lapse) (port : Nat) (s : State) => let a := s.elapse t; let e := a.eth port; port < 2 ∧ a.isOn 9 = true ∧ bit e.page.cfg 47 = true ∧ e.selfOk = true ∧ e.failed = true) L0 0 ((WE.setEth 0 { (WE.eth 0) with failed := true, link := false }).putFc { WE.fc with host := 1 }) ∧
    (fun (t : Lapse) (port : Nat) (s : State) => let a := s.elapse t; (port = 2 ∨ port = 3) ∧ a.isOn 9 = true ∧ (a.spi port).failed = false) L0 2 W :=
  by and_intros <;> decide +kernel

/-- Each clause of SpiAndServicePorts has a case. -/
theorem hyp_SpiAndServicePorts :
    (fun (t : Lapse) (port : Nat) (cw : Word) (s : State) => let a := s.elapse t; (port = 2 ∨ port = 3) ∧ a.portUp port = true ∧ cwBad cw = false ∧ fld cw 47 46 = 0) L0 2 (put 47 32 0 + put 31 16 0xFFFF |> word) W ∧
    (fun (t : Lapse) (port : Nat) (cw : Word) (s : State) => let a := s.elapse t; (port = 2 ∨ port = 3) ∧ a.portUp port = true ∧ cwBad cw = true) L0 2 5 W ∧
    (fun (t : Lapse) (port : Nat) (cw : Word) (ws : List Word) (s : State) => let a := s.elapse t; let p := a.spi port; (port = 2 ∨ port = 3) ∧ a.portUp port = true ∧ cwBad cw = false ∧ fld cw 47 46 = 1 ∧ bit cw 45 = true ∧ fld cw 43 32 = ws.length ∧ ws.length + p.rx.length ≤ 4096 ∧ ws.length < packetLen (arg ws 0) ∧ ws ≠ []) L0 2 (put 47 32 0x6002 + put 31 16 (0xFFFF - 0x6002) |> word) ([0xD51000000003#48, 1]) W ∧
    (fun (t : Lapse) (port : Nat) (cw : Word) (w : Word) (xs : List Word) (s : State) => let a := s.elapse t; let p := a.spi port; (port = 2 ∨ port = 3) ∧ a.portUp port = true ∧ cwBad cw = false ∧ fld cw 47 46 = 1 ∧ bit cw 45 = false ∧ p.rx = w :: xs ∧ p.rx.length ≤ 4096 ∧ 4096 < packetLen w ∧ p.rxFree < fld cw 43 32) L0 2 (put 47 32 0x4FFF + put 31 16 (0xFFFF - 0x4FFF) |> word) (0xD51000002000#48) ([7]) (W.setSpi 2 { rx := [0xD51000002000#48, 7] }) ∧
    (fun (t : Lapse) (port : Nat) (cw : Word) (o : OutPkt) (rest : List OutPkt) (s : State) => let a := s.elapse t; let p := a.spi port; let n := fld cw 43 32; (port = 2 ∨ port = 3) ∧ a.portUp port = true ∧ cwBad cw = false ∧ fld cw 47 46 = 2 ∧ p.tx = o :: rest ∧ o.read + n < o.words.length) L0 2 (put 47 32 0x8002 + put 31 16 (0xFFFF - 0x8002) |> word) (⟨[1, 2, 3, 4], 1, 0, true, none⟩) ([]) (W.setSpi 2 { tx := [⟨[1, 2, 3, 4], 1, 0, true, none⟩] }) ∧
    (fun (t : Lapse) (port : Nat) (cw : Word) (o : OutPkt) (rest : List OutPkt) (s : State) => let a := s.elapse t; let p := a.spi port; let n := fld cw 43 32; (port = 2 ∨ port = 3) ∧ a.portUp port = true ∧ cwBad cw = false ∧ fld cw 47 46 = 2 ∧ p.tx = o :: rest ∧ o.read < o.words.length ∧ o.words.length ≤ o.read + n) L0 2 (put 47 32 0x8005 + put 31 16 (0xFFFF - 0x8005) |> word) (⟨[1, 2, 3, 4], 1, 0, true, none⟩) ([]) (W.setSpi 2 { tx := [⟨[1, 2, 3, 4], 1, 0, true, none⟩] }) ∧
    (fun (t : Lapse) (addr : Nat) (v : Word) (s : State) => let a := s.elapse t; a.s0Up = true ∧ a.host.s0.lock = false ∧ a.host.s0.addrNew = none ∧ addr = 0x5008 ∧ 1 ≤ fld v 46 31) L0 0x5008 (0x81F480000000#48) W ∧
    (fun (t : Lapse) (addr : Nat) (s : State) => let a := s.elapse t; a.s0Up = true ∧ a.host.s0.addrNew = none ∧ (a.host.s0.lock = true ∨ s0Writes addr = false) ∧ addr < 2 ^ 24) L0 0x1000 W ∧
    (fun (t : Lapse) (addr : Nat) (s : State) => let a := s.elapse t; a.s0Up = true ∧ a.host.s0.addrNew = none ∧ addr = 0x5008) L0 0x5008 W ∧
    (fun (t : Lapse) (addr : Nat) (s : State) => let a := s.elapse t; addr = a.host.s0.addr ∧ a.pwr.phase = .dormant ∧ a.host.s0.wakeEn = true ∧ a.pwr.good = true ∧ a.rtc.source = 0 ∧ a.pwr.dormLoss = false) L0 0x2C (W.putPwr { W.pwr with phase := .dormant, ready := false }) ∧
    (fun (t : Lapse) (addr : Nat) (s : State) => let a := s.elapse t; (addr ≠ a.host.s0.addr ∨ (a.pwr.phase ≠ .dormant ∧ a.isOn 9 = true))) L0 0x2D W :=
  by and_intros <;> decide +kernel

/-- Each clause of JournalStores has a case. -/
theorem hyp_JournalStores :
    (fun (t : Lapse) (env : Env) (ps : List Word) (s : State) => let a := s.elapse t; a.admits 0x0E0 1 0xFFE env ps = true ∧ ps = []) L0 E1 ([]) W ∧
    (fun (t : Lapse) (env : Env) (ps : List Word) (s : State) => let a := s.elapse t; let key := (arg ps 1).toNat; a.admits 0x0E1 1 0xFFE env ps = true ∧ ps.length = 2 ∧ fld (arg ps 0) 47 46 = 0 ∧ fld (arg ps 0) 42 37 = 1 ∧ a.jrn.next ≤ key) L0 E1 ([put 42 37 1 |> word, 99]) W ∧
    (fun (t : Lapse) (env : Env) (ps : List Word) (s : State) => let a := s.elapse t; let key := (arg ps 1).toNat; a.admits 0x0E1 1 0xFFE env ps = true ∧ ps.length = 2 ∧ fld (arg ps 0) 47 46 = 0 ∧ fld (arg ps 0) 42 37 = 1 ∧ key < a.jrn.next ∧ (a.jrn.ring ++ a.jrn.landing).all (fun g => g.jsn != key) = true) L0 E1 ([put 42 37 1 |> word, 0]) W ∧
    (fun (t : Lapse) (env : Env) (ps : List Word) (s : State) => let a := s.elapse t; let key := (arg ps 1).toNat; a.admits 0x0E1 1 0xFFE env ps = true ∧ ps.length = 2 ∧ fld (arg ps 0) 47 46 = 0 ∧ fld (arg ps 0) 42 37 = 1 ∧ a.jrn.ring = [] ∧ a.jrn.landing.map (fun g => (g.jsn, g.partner)) = [(key, env.partner)] ∧ key < a.jrn.next ∧ a.jrn.landing.all (fun g => decide (g.params.length ≤ 2048) && decide (g.reply.length ≤ 100)) = true) L0 E1 ([put 42 37 1 |> word, 1]) (W.putJrn { W.jrn with next := 2, landing := [gr1] }) ∧
    (fun (t : Lapse) (env : Env) (ps : List Word) (s : State) => let a := s.elapse t; a.admits 0x0E1 1 0xFFE env ps = true ∧ (ps.length ≠ 2 ∨ fld (arg ps 0) 47 46 = 3 ∨ fld (arg ps 0) 42 37 = 0 ∨ 32 < fld (arg ps 0) 42 37)) L0 E1 ([0, 1]) W ∧
    (fun (t : Lapse) (g : Group) (rest : List Group) (s : State) => let a := s.elapse t; a.jrn.landing = g :: rest ∧ a.jrn.working = true ∧ a.jrn.used + g.entries ≤ 262144 ∧ a.host.parse = []) L0 gr1 ([]) (W.putJrn { W.jrn with next := 2, landing := [gr1] }) ∧
    (fun (t : Lapse) (g : Group) (rest : List Group) (s : State) => let a := s.elapse t; a.jrn.ring = g :: rest ∧ a.jrn.working = true ∧ g.pins ≠ []) L0 ({ gr1 with pins := [.work] }) ([gr1]) (W.putJrn { W.jrn with next := 2, ring := [{ gr1 with pins := [.work] }, gr1] }) ∧
    (fun (t : Lapse) (i : Nat) (n : Nat) (rest : List (Nat × Nat)) (s : State) => let a := s.elapse t; a.jrn.markRing = (i, n) :: rest ∧ a.jrn.working = true) L0 7 4 ([(8, 1)]) (W.putJrn { W.jrn with markRing := [(7, 4), (8, 1)], marks := [(7, 2)] }) ∧
    (fun (t : Lapse) (i : Nat) (s : State) => let a := s.elapse t; i < 2 ∧ (a.jrn.store i).stat = 0) L0 0 W ∧
    (fun (t : Lapse) (i : Nat) (s : State) => let a := s.elapse t; i < 2 ∧ (a.jrn.store i).stat = 1 ∧ a.pwr.ready = true) L0 1 (W.putJrn { W.jrn with storeB := { stat := 1, sealed := 3 } }) :=
  by and_intros <;> decide +kernel

/-- Each clause of ResetsAndFirmware has a case. -/
theorem hyp_ResetsAndFirmware :
    (fun (t : Lapse) (env : Env) (ps : List Word) (s : State) => let a := s.elapse t; a.admits 0x100 3 0x800 env ps = true ∧ ps.length = 1 ∧ fld (arg ps 0) 47 42 ≠ 0 ∧ a.pwr.selftest = 0) L0 E1 ([put 47 42 1 |> word]) WS ∧
    (fun (t : Lapse) (env : Env) (ps : List Word) (s : State) => let a := s.elapse t; a.admits 0x100 3 0x800 env ps = true ∧ ps.length = 1 ∧ fld (arg ps 0) 47 42 ≠ 0 ∧ a.pwr.selftest ≠ 0) L0 E1 ([put 47 42 1 |> word]) (WS.putPwr { WS.pwr with selftest := 2 }) ∧
    (fun (t : Lapse) (env : Env) (ps : List Word) (s : State) => let a := s.elapse t; a.admits 0x101 3 0xFFE env (fixField 47 46 0 ps) = true ∧ ps.length = 1 ∧ a.pwr.reset = none) L0 E1 ([0]) W ∧
    (fun (t : Lapse) (env : Env) (ps : List Word) (s : State) => let a := s.elapse t; a.admits 0x101 3 0xFFE env (fixField 47 46 1 ps) = true ∧ ps.length = 1 ∧ a.pwr.reset = none) L0 E1 ([0]) W ∧
    (fun (t : Lapse) (env : Env) (ps : List Word) (s : State) => let a := s.elapse t; a.admits 0x102 3 0x800 env (fixField 47 45 0 ps) = true ∧ ps.length = 7) L0 E1 ([2, 1, 2, 3, 4, 5, 6]) WS ∧
    (fun (t : Lapse) (env : Env) (ps : List Word) (s : State) => let a := s.elapse t; a.admits 0x102 3 0x800 env (fixField 47 45 1 ps) = true ∧ ps.length = 3 ∧ a.pwr.fw.session = 1) L0 E1 ([put 44 20 9 |> word, 5, 6]) (WS.putPwr { WS.pwr with fw := { WS.pwr.fw with session := 1, size := 11 } }) ∧
    (fun (t : Lapse) (env : Env) (ps : List Word) (s : State) => let a := s.elapse t; a.admits 0x102 3 0x800 env (fixField 47 45 3 ps) = true ∧ ps.length = 1 ∧ a.pwr.fw.session ≠ 0) L0 E1 ([0]) (WS.putPwr { WS.pwr with fw := { WS.pwr.fw with session := 2, size := 11 } }) ∧
    (fun (t : Lapse) (env : Env) (ps : List Word) (s : State) => let a := s.elapse t; a.admits 0x102 3 0x800 env (fixField 47 45 4 ps) = true ∧ ps.length = 1 ∧ a.pwr.fw.session = 2) L0 E1 ([0]) (WS.putPwr { WS.pwr with fw := { WS.pwr.fw with session := 2, size := 11 } }) ∧
    (fun (t : Lapse) (env : Env) (ps : List Word) (ws : List Word) (s : State) => let a := s.elapse t; a.admits 0x102 3 0x800 env (fixField 47 45 2 ps) = true ∧ ps.length = 1 ∧ a.pwr.fw.session = 1 ∧ a.pwr.fw.image = some ws ∧ shaValue (wireBytes ws) = a.pwr.fw.hash) L0 E1 ([0]) ([9]) (WS.putPwr { WS.pwr with fw := { WS.pwr.fw with session := 1, size := 1, words := [(0, some 9)], hash := shaValue (wireBytes [9]) } }) ∧
    (fun (t : Lapse) (env : Env) (ps : List Word) (ws : List Word) (s : State) => let a := s.elapse t; a.admits 0x102 3 0x800 env (fixField 47 45 2 ps) = true ∧ ps.length = 1 ∧ a.pwr.fw.session = 1 ∧ a.pwr.fw.image = some ws ∧ shaValue (wireBytes ws) ≠ a.pwr.fw.hash) L0 E1 ([0]) ([9]) (WS.putPwr { WS.pwr with fw := { WS.pwr.fw with session := 1, size := 1, words := [(0, some 9)], hash := 5 } }) ∧
    (fun (t : Lapse) (env : Env) (ps : List Word) (s : State) => let a := s.elapse t; a.admits 0x102 3 0x800 env (fixField 47 45 2 ps) = true ∧ ps.length = 1 ∧ a.pwr.fw.session = 1 ∧ a.pwr.fw.image = none) L0 E1 ([0]) (WS.putPwr { WS.pwr with fw := { WS.pwr.fw with session := 1, size := 2, words := [(0, some 9)], hash := 5 } }) ∧
    (fun (t : Lapse) (s : State) => let a := s.elapse t; a.pwr.selftest ≠ 0 ∧ a.pwr.ready = true) L0 (WS.putPwr { WS.pwr with selftest := 2 }) ∧
    (fun (t : Lapse) (r : ResetWait) (s : State) => let a := s.elapse t; a.pwr.reset = some r ∧ r.scope = 1 ∧ a.pwr.ready = true ∧ r.clk + 654720 ≤ a.tb.clk) (⟨654720, 0⟩) (⟨1, 1, 0⟩) ((W.putPwr { W.pwr with reset := some ⟨1, 1, 0⟩ }).putJrn { W.jrn with next := 2, landing := [gr1] }) ∧
    (fun (t : Lapse) (r : ResetWait) (s : State) => let a := s.elapse t; a.pwr.reset = some r ∧ r.scope = 0 ∧ a.pwr.ready = true ∧ r.clk + 654720 ≤ a.tb.clk) (⟨654720, 0⟩) (⟨0, 1, 0⟩) (W.putPwr { W.pwr with reset := some ⟨0, 1, 0⟩ }) ∧
    (fun (t : Lapse) (s : State) => let a := s.elapse t; a.isOn 1 = true ∧ a.pwr.phase = .running) L0 W :=
  by and_intros <;> decide +kernel

/-- Each clause of PowerLifecycle has a case. -/
theorem hyp_PowerLifecycle :
    (fun (t : Lapse) (s : State) => let a := s.elapse t; a.pwr.good = true ∧ a.pwr.timeDown = false ∧ a.pwr.phase = .running ∧ a.dom 7 = 2 ∧ (∀ n, n < 8 → a.outActive n = false)) L0 W ∧
    (fun (t : Lapse) (s : State) => let a := s.elapse t; a.pwr.good = true ∧ a.pwr.timeDown = false ∧ a.pwr.phase = .dormant ∧ a.rtc.run = none) L0 (W.putPwr { W.pwr with ready := false, phase := .dormant, dom := [(0, 2), (2, 1)] }) ∧
    (fun (t : Lapse) (s : State) => let a := s.elapse t; a.pwr.good = false ∧ a.pwr.phase = .mainsLoss ∧ a.pwr.ready = false ∧ a.pwr.lossClk + 65472000 ≤ a.tb.clk ∧ a.tb.clk ≤ a.pwr.lossClk + 72019200 ∧ a.rtc.coldPend = false ∧ a.dom 11 = 0 ∧ a.pwr.timeDown = false) (⟨65472000, 0⟩) ((W.putPwr { W.pwr with good := false, ready := false, phase := .mainsLoss, dom := [(0, 2), (1, 2), (2, 2), (7, 1), (9, 2)] }).putRtc { W.rtc with sec := 9, coldPend := false }) ∧
    (fun (t : Lapse) (s : State) => let a := s.elapse t; a.pwr.good = false ∧ a.pwr.phase = .mainsLoss ∧ a.pwr.lossClk + 72019200 < a.tb.clk) (⟨72019201, 0⟩) (W.putPwr { W.pwr with good := false, ready := false, phase := .mainsLoss, dom := [(0, 2), (1, 2), (2, 2), (7, 1), (9, 2)] }) ∧
    (fun (t : Lapse) (volts : Nat) (s : State) => let a := s.elapse t; a.pwr.phase = .shed ∧ a.pwr.ready = false ∧ a.pwr.good = false ∧ a.pwr.timeDown = false ∧ a.rtc.source = 0 ∧ (∀ d, d < 11 → a.dom (d + 1) = 0) ∧ 105 ≤ volts) L0 120 ((W.putPwr { W.pwr with good := false, ready := false, phase := .shed, dom := [(0, 2)] }).putRtc { W.rtc with sec := 9 }) ∧
    (fun (t : Lapse) (s : State) => let a := s.elapse t; a.pwr.phase = .bringup ∧ a.isOn 1 = true ∧ a.pwr.ready = false ∧ a.pwr.sc11 = true ∧ a.rtc.coldPend = false) L0 ((W.putPwr { W.pwr with ready := false, phase := .bringup, sc11 := true, cause := 5 }).putRtc { W.rtc with sec := 9, coldPend := false }) ∧
    (fun (t : Lapse) (s : State) => let a := s.elapse t; a.pwr.dormantReq = true ∧ a.pwr.ready = true ∧ a.dom 11 = 0) L0 (W.putPwr { W.pwr with dormantReq := true, dom := [(0, 2), (1, 2), (2, 2), (7, 2), (9, 2)] }) ∧
    (fun (t : Lapse) (cause : Nat) (s : State) => let a := s.elapse t; a.pwr.phase = .dormant ∧ a.pwr.ready = false ∧ a.pwr.wakeReq = some cause ∧ a.pwr.good = true ∧ a.pwr.timeDown = false ∧ (∀ d, d < 11 → d ≠ 1 → a.dom (d + 1) = 0)) L0 5 ((W.putPwr { W.pwr with ready := false, phase := .dormant, wakeReq := some 5, dom := [(0, 2), (2, 1)] }).putRtc { W.rtc with sec := 9 }) ∧
    (fun (t : Lapse) (stage : Nat) (s : State) => let a := s.elapse t; stage < 2 ∧ a.pwr.good = true ∧ a.fc.conv = 0 ∧ a.isOn 1 = true) L0 1 W :=
  by and_intros <;> decide +kernel

/-- Each clause of SharedMemoryAccess has a case. -/
theorem hyp_SharedMemoryAccess :
    (fun (t : Lapse) (r : MemReq) (w : Word) (s : State) => let a := s.elapse t; a.dom 7 = 2 ∧ a.clk.pllS.gives = true ∧ r.addr < 0x1000000 ∧ r.master < 16 ∧ r.data = some w ∧ a.mem.queue = [] ∧ a.mem.capped r a.cycleNow = false ∧ (reqHard r = true ∨ a.mem.leaseOn r.addr a.cycleNow = none) ∧ a.memAllowed r = true) L0 (⟨12, 0xC00007, some 5, false, 0⟩) 5 W ∧
    (fun (t : Lapse) (r : MemReq) (s : State) => let a := s.elapse t; a.dom 7 = 2 ∧ a.clk.pllS.gives = true ∧ r.addr < 0x1000000 ∧ r.master < 16 ∧ r.data = none ∧ r.ecc = 0 ∧ a.mem.queue = [] ∧ a.mem.capped r a.cycleNow = false ∧ (reqHard r = true ∨ a.mem.leaseOn r.addr a.cycleNow = none) ∧ a.mem.bad.contains r.addr = false) L0 (⟨9, 0xC00007, none, false, 0⟩) W ∧
    (fun (t : Lapse) (r : MemReq) (w : Word) (s : State) => let a := s.elapse t; a.dom 7 = 2 ∧ a.clk.pllS.gives = true ∧ r.addr < 0x1000000 ∧ r.master < 16 ∧ r.data = some w ∧ a.mem.queue = [] ∧ a.mem.capped r a.cycleNow = false ∧ (reqHard r = true ∨ a.mem.leaseOn r.addr a.cycleNow = none) ∧ mayWrite r.master (regionOf r.addr) = false ∧ coreOf r.master = none ∧ tget none (0xD03 * 65536 + r.master) a.raised = none) L0 (⟨9, 0xC00007, some 5, false, 0⟩) 5 W ∧
    (fun (r : MemReq) => 0x1000000 ≤ r.addr) (⟨3, 0x1000000, none, false, 0⟩) ∧
    (fun (t : Lapse) (g : Nat) (s : State) => let a := s.elapse t; let p := a.mem.patrol g; g < 4 ∧ bit a.mem.patrolCfg 47 = true ∧ a.isOn 7 = true ∧ a.clk.pllS.gives = true ∧ p.since.all (fun c => decide (c + usClk (fld a.mem.patrolCfg 46 31) ≤ a.tb.clk)) = true ∧ p.pos + 1 < 65536) L0 3 (W.putMem (W.mem.setPatrol 3 { pos := 8191 })) ∧
    (fun (t : Lapse) (g : Nat) (s : State) => let a := s.elapse t; g < 32 ∧ (a.mem.bank g).due = true ∧ (a.mem.bank g).state = 0 ∧ a.mem.spare = 0) L0 5 (W.putMem (W.mem.setBank 5 { due := true })) ∧
    (fun (t : Lapse) (g : Nat) (s : State) => let a := s.elapse t; g < 32 ∧ (a.mem.bank g).due = true ∧ (a.mem.bank g).state = 0 ∧ a.mem.spare = 2) L0 5 (W.putMem { (W.mem.setBank 5 { due := true }) with spare := 2, spareFor := 9 }) ∧
    (fun (t : Lapse) (s : State) => let a := s.elapse t; a.mem.spare = 1) L0 (W.putMem { W.mem with spare := 1 }) ∧
    (fun (t : Lapse) (s : State) => let a := s.elapse t; a.dom 7 = 2 ∧ tget 0 7 a.pwr.req = 1 ∧ a.mem.lastClk + 654720 ≤ a.tb.clk) (⟨654720, 0⟩) (W.putPwr { W.pwr with req := [(7, 1)] }) :=
  by and_intros <;> decide +kernel

/-- StepKeepsInvariant has a case: a step that stores a word to an empty memory. -/
theorem hyp_StepKeepsInvariant : ∃ u, ({ W with pending := [.memoryAccess L0 [⟨12, 0xC00007, some 5, false, 0⟩]] } : State).Inv ∧
    step { W with pending := [.memoryAccess L0 [⟨12, 0xC00007, some 5, false, 0⟩]] } = .next u ∧ u.mem.cells.length = 1 :=
  ⟨_, by unfold State.Inv; decide +kernel, rfl, by decide +kernel⟩

/-- ExecKeepsTheQueue has a case: a command that runs while another waits. -/
theorem hyp_ExecKeepsTheQueue : ∃ u, exec (.memoryAccess L0 [⟨12, 0xC00007, some 5, false, 0⟩]) { W with pending := [.wheelSweep L0] } = .next u :=
  ⟨_, rfl⟩

/-! Ill-formed operands that `wellFormed` refuses. -/

/-- An envelope on host port 4, with PARTNER 16, or with three tag words. -/
theorem test_refuses_envelope : wellFormed (.ping L0 { E1 with port := 4 } []) = false ∧ wellFormed (.ping L0 { E1 with partner := 16 } []) = false ∧
    wellFormed (.ping L0 { E1 with tag := some [1, 2, 3] } []) = false ∧ wellFormed (.ping L0 E1 []) = true := by decide
/-- A register path whose envelope is ill-formed; an instance number above its count. -/
theorem test_refuses_instances : wellFormed (.rtcSec L0 (.packet { E1 with port := 9 })) = false ∧ wellFormed (.qcfg0 L0 .s0 16 0) = false ∧
    wellFormed (.outCommit L0 .s0 8 0) = false ∧ wellFormed (.ethCommit L0 .s0 2 0) = false ∧ wellFormed (.partKeyErase L0 .s0 5) = false := by decide
/-- A frame on port 2, with a VLAN identifier of 13 bits, or with more words than bytes. -/
theorem test_refuses_frames : wellFormed (.ethSegment L0 { fr1 with port := 2 }) = false ∧ wellFormed (.ethSegment L0 { fr1 with vlan := 4096 }) = false ∧
    wellFormed (.ethSegment L0 { fr1 with bytes := 17 }) = false ∧ wellFormed (.ethSegment L0 fr1) = true := by decide
/-- Register numbers of a user core above their counts. -/
theorem test_refuses_core_operands : wellFormed (.mov L0 0 (.ap 8) .mode) = false ∧ wellFormed (.mov L0 0 .mode (.qcyc 16)) = false ∧
    wellFormed (.dmac L0 0 ⟨4, false, 0, 0, 0⟩ ⟨0, false, 0, 0, 0⟩ none none) = false ∧ wellFormed (.dmac L0 0 ⟨0, false, 0, 0, 0⟩ ⟨0, false, 8, 0, 0⟩ none none) = false ∧
    wellFormed (.dmac L0 0 ⟨0, false, 0, 0, 0⟩ ⟨0, false, 0, 0, 0⟩ (some ⟨8, 0⟩) none) = false ∧ wellFormed (.add L0 2 0 0 0) = false := by decide
/-- A master or an address of shared memory that does not exist. -/
theorem test_refuses_requests : wellFormed (.memoryAccess L0 [⟨16, 0, none, false, 0⟩]) = false ∧ wellFormed (.memoryAccess L0 [⟨0, 0x1000000, none, false, 0⟩]) = false := by decide

/-! Values that the spec's text gives. -/

/-- The check value of R281 over "123456789". -/
theorem test_crc : crc32c [0x31, 0x32, 0x33, 0x34, 0x35, 0x36, 0x37, 0x38, 0x39] = 0xE3069283 := by decide +kernel
/-- Word 0 and LENC of the worked example of R281. -/
theorem test_packet_words : ((packet false false false 0x090 1 7 (some 5) (List.replicate 10 0)).headD 0, fld ((packet false false false 0x090 1 7 (some 5) (List.replicate 10 0)).getLastD 0) 47 32, (packet false false false 0x090 1 7 (some 5) (List.replicate 10 0)).length)
    = (0xD5120901000A#48, 0xFFF5, 17) := by decide +kernel
/-- CAL0 and CAL1 at 1,400,000,000 s with an offset of 18 s (R37). -/
theorem test_calendar : ({ : TimeBase }).cal0 (mkQ 1400000000 0) = 0x7E858C350A80#48 ∧ cal1 (mkQ 1400000000 0) = 0x00090A785000#48 := by decide +kernel
/-- The group of the burst on blade 2 takes two entries (R321). -/
theorem test_group_size : entriesFor 11 = 2 := by decide
/-- Step 1 of Table 4 of R355: the status that a WRITE of three words receives, and a reply of seven words that waits after it. -/
theorem test_ping_over_spi : Answers (exec (.spiWrite L0 2 false 0x60039FFC0000#48 [0xD51000120000#48, 1, word (0xFFFF * 2 ^ 32 + crc32c (wireBytes [0xD51000120000#48, 1]))] false) { W with parts := [(2, { rights := 3, bind := some ⟨2, .spi, 0⟩ })] }) (fun u =>
    u.wire = [.spi 2 0x8FFF00000000#48 []] ∧ u.spiStatus 2 = 0xCFFF00780000#48) := ⟨_, rfl, by decide +kernel⟩
/-- A SELFTEST sent in NAVIGATE is refused with the mode and the modes it is legal in (R299). -/
theorem test_selftest_in_navigate : Answers (exec (.selftest L0 E1 [0x040000000000#48]) (W.putModes { W.modes with mode := 4 })) (Shows 0x100 0x30 [0x480000000000#48] E1 W) := ⟨_, rfl, by decide +kernel, by decide +kernel⟩
/-- The body of the SWITCHOVER record of the weekend without supply (R469). -/
theorem test_switchover_record : ({ ({ : Rtc }) with swCount := 1, swFirst := some (0x5373D4A0, 0xAF5C), swRet := some (0x5375CEDB, 0x50E5) } : Rtc).switchBody 3050
    = [0x080000000000#48, 0x000001C00000#48, 0x00005373D4A0#48, 0xAF5C00000000#48, 0x00005375CEDB#48, 0x50E500000000#48, 0xBEA000000000#48] := by decide +kernel
/-- TRIM −268 reads 0x1_FEF4 in its 17 bits (R465's example). -/
theorem test_trim_field : fld (pack [putS 47 31 (-268)]) 47 31 = 0x1FEF4 := by decide +kernel

end Sys2Proof.Machine
end

section
namespace Sys2Proof.Machine
open Sys2Proof

/-! # What a step leaves of shared memory and of the queue (O58)

Most functions of the model touch neither the bytes of memory nor the queue: `X_held` says so of
each. Those that write memory keep its canonical form, and the queue: `X_kept`. -/

/-- What the claims about every step speak of: the bytes of shared memory and the queue of waiting
commands. -/
def State.held (s : State) : List Host.Cell × List Instr := (s.mem.cells, s.pending)
theorem held_of_eq {a u : State} (hm : u.mem = a.mem) (hp : u.pending = a.pending) :
    u.held = a.held := by unfold State.held; rw [hm, hp]
theorem held_of_rest {a u : State} (h : u.rest = a.rest) :
    u.held = a.held := held_of_eq (of_rest_mem h) (of_rest_pending h)
/-- A fold whose steps hold on to them holds on to them. -/
@[simp] theorem foldl_held {β : Type} (f : State → β → State) (h : ∀ a b, (f a b).held = a.held)
    (l : List β) (s : State) :
    (l.foldl f s).held = s.held := foldl_keeps State.held f h l s
@[simp] theorem ite_held (c : Prop) [Decidable c] (a b : State) :
    (if c then a else b).held = if c then a.held else b.held := apply_ite ..
@[simp] theorem endLeases_cells (m : Memory) : m.endLeases.cells = m.cells := by cases m; rfl
@[simp] theorem setBank_cells (b : Nat) (v : Bank) (m : Memory) :
    (m.setBank b v).cells = m.cells := by cases m; rfl
@[simp] theorem setPatrol_cells (g : Nat) (v : Patrol) (m : Memory) :
    (m.setPatrol g v).cells = m.cells := by cases m; rfl
@[simp] theorem loses_cells (i : Nat) (m : Memory) : (m.loses i).cells = m.cells := by cases m; rfl
@[simp] theorem ite_cells (c : Prop) [Decidable c] (m n : Memory) :
    (if c then m else n).cells = if c then m.cells else n.cells := apply_ite ..

/-! Ops -/

@[simp] theorem putTb_held (s : State) (v : TimeBase) :
    (s.putTb v).held = s.held := held_of_eq (putTb_mem ..) (putTb_pending ..)
@[simp] theorem putQs_held (s : State) (v : Tab Qty) :
    (s.putQs v).held = s.held := held_of_eq (putQs_mem ..) (putQs_pending ..)
@[simp] theorem putShadows_held (s : State) (v : Tab Shadow) :
    (s.putShadows v).held = s.held := held_of_eq (putShadows_mem ..) (putShadows_pending ..)
@[simp] theorem putCalFrz_held (s : State) (v : Tab (Option (Word × Word × Word))) :
    (s.putCalFrz v).held = s.held := held_of_eq (putCalFrz_mem ..) (putCalFrz_pending ..)
@[simp] theorem putOuts_held (s : State) (v : Tab Output) :
    (s.putOuts v).held = s.held := held_of_eq (putOuts_mem ..) (putOuts_pending ..)
@[simp] theorem putClk_held (s : State) (v : Clock) :
    (s.putClk v).held = s.held := held_of_eq (putClk_mem ..) (putClk_pending ..)
@[simp] theorem putSch_held (s : State) (v : Sched) :
    (s.putSch v).held = s.held := held_of_eq (putSch_mem ..) (putSch_pending ..)
@[simp] theorem putParts_held (s : State) (v : Tab Partner) :
    (s.putParts v).held = s.held := held_of_rest (putParts_rest ..)
@[simp] theorem putJrn_held (s : State) (v : Journal) :
    (s.putJrn v).held = s.held := held_of_rest (putJrn_rest ..)
@[simp] theorem putFc_held (s : State) (v : Parts) :
    (s.putFc v).held = s.held := held_of_eq (putFc_mem ..) (putFc_pending ..)
@[simp] theorem putRaised_held (s : State) (v : Tab (Option Nat)) :
    (s.putRaised v).held = s.held := held_of_rest (putRaised_rest ..)
@[simp] theorem putHost_held (s : State) (v : HostBlk) :
    (s.putHost v).held = s.held := held_of_rest (putHost_rest ..)
@[simp] theorem putStage_held (s : State) (v : List StageCopy) :
    (s.putStage v).held = s.held := held_of_eq (putStage_mem ..) (putStage_pending ..)
@[simp] theorem putLbal_held (s : State) (v : Tab LinkBal) :
    (s.putLbal v).held = s.held := held_of_eq (putLbal_mem ..) (putLbal_pending ..)
@[simp] theorem putRtc_held (s : State) (v : Rtc) :
    (s.putRtc v).held = s.held := held_of_eq (putRtc_mem ..) (putRtc_pending ..)
@[simp] theorem putPwr_held (s : State) (v : Power) :
    (s.putPwr v).held = s.held := held_of_eq (putPwr_mem ..) (putPwr_pending ..)
@[simp] theorem putRf_held (s : State) (v : Rf) :
    (s.putRf v).held = s.held := held_of_eq (putRf_mem ..) (putRf_pending ..)
@[simp] theorem putGale_held (s : State) (v : Gale) :
    (s.putGale v).held = s.held := held_of_eq (putGale_mem ..) (putGale_pending ..)
@[simp] theorem putKite_held (s : State) (v : Kite) :
    (s.putKite v).held = s.held := held_of_eq (putKite_mem ..) (putKite_pending ..)
@[simp] theorem putMeas_held (s : State) (v : Meas) :
    (s.putMeas v).held = s.held := held_of_eq (putMeas_mem ..) (putMeas_pending ..)
@[simp] theorem putModes_held (s : State) (v : ModeBlk) :
    (s.putModes v).held = s.held := held_of_eq (putModes_mem ..) (putModes_pending ..)
@[simp] theorem putMem_held (s : State) (v : Memory) (hc : v.cells = s.mem.cells) :
    (s.putMem v).held = s.held := congrArg (fun c => (c, s.pending)) hc
@[simp] theorem putLinks_held (s : State) (v : Tab Link) :
    (s.putLinks v).held = s.held := held_of_eq (putLinks_mem ..) (putLinks_pending ..)
@[simp] theorem putPorts_held (s : State) (v : Tab SmpPort) :
    (s.putPorts v).held = s.held := held_of_eq (putPorts_mem ..) (putPorts_pending ..)
@[simp] theorem putDsp_held (s : State) (v : Dsp) :
    (s.putDsp v).held = s.held := held_of_eq (putDsp_mem ..) (putDsp_pending ..)
@[simp] theorem putWire_held (s : State) (v : List Emit) :
    (s.putWire v).held = s.held := held_of_rest (putWire_rest ..)
@[simp] theorem putFresh_held (s : State) (v : Nat) :
    (s.putFresh v).held = s.held := held_of_eq (putFresh_mem ..) (putFresh_pending ..)
@[simp] theorem setPart_held (s : State) (p : Nat) (v : Partner) :
    (s.setPart p v).held = s.held := held_of_rest (setPart_rest ..)
@[simp] theorem setQty_held (s : State) (n : Nat) (v : Qty) :
    (s.setQty n v).held = s.held := held_of_eq (setQty_mem ..) (setQty_pending ..)
@[simp] theorem setOut_held (s : State) (n : Nat) (v : Output) :
    (s.setOut n v).held = s.held := held_of_eq (setOut_mem ..) (setOut_pending ..)
@[simp] theorem setLb_held (s : State) (l : Nat) (v : LinkBal) :
    (s.setLb l v).held = s.held := held_of_eq (setLb_mem ..) (setLb_pending ..)
@[simp] theorem setDom_held (s : State) (d v : Nat) :
    (s.setDom d v).held = s.held := held_of_eq (setDom_mem ..) (setDom_pending ..)
@[simp] theorem setLnk_held (s : State) (l : Nat) (v : Link) :
    (s.setLnk l v).held = s.held := held_of_eq (setLnk_mem ..) (setLnk_pending ..)
@[simp] theorem setSmp_held (s : State) (p : Nat) (v : SmpPort) :
    (s.setSmp p v).held = s.held := held_of_eq (setSmp_mem ..) (setSmp_pending ..)
@[simp] theorem setCore_held (s : State) (k : Nat) (v : UCore) :
    (s.setCore k v).held = s.held := held_of_eq (setCore_mem ..) (setCore_pending ..)
@[simp] theorem feed_held (fuel : Nat) (src : Nat) (s : State) :
    (s.feed fuel src).held = s.held := held_of_eq (feed_mem ..) (feed_pending ..)
@[simp] theorem follow_held (fuel : Nat) (src : Nat) (s : State) :
    (s.follow fuel src).held = s.held := by
  induction fuel generalizing src s with
  | zero => rfl
  | succ fuel ih => exact foldl_held _ (fun a n => (ih ..).trans (setQty_held ..)) _ s
@[simp] theorem runOuts_held (s : State) : (s.runOuts).held = s.held := by simp [State.runOuts]
@[simp] theorem elapse_held (t : Lapse) (s : State) :
    (s.elapse t).held = s.held := held_of_eq (elapse_mem ..) (elapse_pending ..)
@[simp] theorem emit_held (s : State) (e : Emit) :
    (s.emit e).held = s.held := held_of_rest (emit_rest ..)

/-! Journal -/

@[simp] theorem setEth_held (s : State) (h : Nat) (v : EthPort) :
    (s.setEth h v).held = s.held := held_of_rest (setEth_rest ..)
@[simp] theorem setSpi_held (s : State) (h : Nat) (v : SpiPort) :
    (s.setSpi h v).held = s.held := held_of_rest (setSpi_rest ..)
@[simp] theorem sendPacket_held (port : Nat) (ep : Endpoint) (mac : Word) (partner : Nat)
    (isReply : Bool) (held : Option (Bool × Nat)) (ws : List Word) (s : State) :
    (s.sendPacket port ep mac partner isReply held ws).held = s.held :=
  held_of_rest (sendPacket_rest ..)
@[simp] theorem seal_held (g : Group) (s : State) :
    (s.seal g).held = s.held := held_of_rest (seal_rest ..)
@[simp] theorem sendRecs_held (p : Nat) (s : State) :
    (s.sendRecs p).held = s.held := held_of_rest (sendRecs_rest ..)
@[simp] theorem form_held (p : Nat) (vol : Bool) (ws : List Word) (s : State) :
    (s.form p vol ws).held = s.held := held_of_rest (form_rest ..)
@[simp] theorem jsnCheck_held (s : State) :
    (s.jsnCheck).held = s.held := held_of_rest (jsnCheck_rest ..)
@[simp] theorem record_held (p : Nat) (vol : Bool) (ws : List Word) (s : State) :
    (s.record p vol ws).held = s.held := held_of_rest (record_rest ..)
@[simp] theorem sealSystem_held (scode : Nat) (data : List Word) (s : State) :
    (s.sealSystem scode data).held = s.held := held_of_rest (sealSystem_rest ..)
@[simp] theorem raise_held (p : Nat) (fault : Bool) (cause : Nat) (args : List Word) (s : State) :
    (s.raise p fault cause args).held = s.held := held_of_rest (raise_rest ..)
@[simp] theorem raiseAll_held (fault : Bool) (cause : Nat) (args : List Word) (s : State) :
    (s.raiseAll fault cause args).held = s.held := held_of_rest (raiseAll_rest ..)
@[simp] theorem raiseLimited_held (fault : Bool) (cause inst : Nat) (args : List Word) (s : State) :
    (s.raiseLimited fault cause inst args).held = s.held := held_of_rest (raiseLimited_rest ..)
@[simp] theorem raiseOwner_held (p : Nat) (cause inst : Nat) (args : List Word) (s : State) :
    (s.raiseOwner p cause inst args).held = s.held := held_of_rest (raiseOwner_rest ..)
@[simp] theorem recordCounted_held (p : Nat) (vol : Bool) (ws : List Word) (s : State) :
    (s.recordCounted p vol ws).held = s.held := held_of_rest (recordCounted_rest ..)
@[simp] theorem ackEsn_held (p a : Nat) (s : State) :
    (s.ackEsn p a).held = s.held := held_of_rest (ackEsn_rest ..)
@[simp] theorem resendFrom_held (p esn : Nat) (s : State) :
    (s.resendFrom p esn).held = s.held := held_of_rest (resendFrom_rest ..)
@[simp] theorem partFailed_held (cls inst : Nat) (s : State) :
    (s.partFailed cls inst).held = s.held := held_of_rest (partFailed_rest ..)
@[simp] theorem partRestored_held (cls inst : Nat) (s : State) :
    (s.partRestored cls inst).held = s.held := held_of_rest (partRestored_rest ..)

/-! Skonus -/

@[simp] theorem answer_held (k : Pkt) (held : Option (Bool × Nat)) (st : Status)
    (orig credit jsn : Nat) (ws : List Word) (s : State) :
    (s.answer k held st orig credit jsn ws).held = s.held := held_of_rest (answer_rest ..)
@[simp] theorem early_held (k : Pkt) (st : Status) (ws : List Word) (s : State) :
    (s.early k st ws).held = s.held := held_of_rest (early_rest ..)
@[simp] theorem countAuth_held (p : Nat) (s : State) :
    (s.countAuth p).held = s.held := by simp [State.countAuth]
@[simp] theorem countCheck_held (p : Nat) (s : State) :
    (s.countCheck p).held = s.held := by simp [State.countCheck]
@[simp] theorem countGap_held (p : Nat) (s : State) :
    (s.countGap p).held = s.held := by simp [State.countGap]
@[simp] theorem runPing_held (k : Pkt) (s : State) :
    (runPing k s).held = s.held := by simp [runPing]
@[simp] theorem runHello_held (k : Pkt) (s : State) :
    (runHello k s).held = s.held := by simp [runHello]
@[simp] theorem consume_held (op : Option OpSpec) (k : Pkt) (v : Verdict) (s : State) :
    (s.consume op k v).held = s.held := held_of_rest (consume_rest ..)
@[simp] theorem replyNew_held (k : Pkt) (held : Option (Bool × Nat)) (v : Verdict) (jsn : Nat)
    (s : State) :
    (s.replyNew k held v jsn).held = s.held := held_of_rest (replyNew_rest ..)
@[simp] theorem unbind_held (p port : Nat) (s : State) :
    (s.unbind p port).held = s.held := by simp [State.unbind]
@[simp] theorem notReady_held (ms : Nat) (k : Pkt) (s : State) :
    (s.notReady ms k).held = s.held := by simp [State.notReady]
@[simp] theorem turnAway_held (s : State) : (s.turnAway).held = s.held := by simp [State.turnAway]
@[simp] theorem unbound_held (k : Pkt) (s : State) :
    (s.unbound k).held = s.held := by simp [State.unbound]

/-! Time -/

@[simp] theorem trimDone_held (r : TrimRun) (s : State) :
    (s.trimDone r).held = s.held := by unfold State.trimDone; split <;> simp
@[simp] theorem trimAbort_held (s : State) :
    (s.trimAbort).held = s.held := by unfold State.trimAbort; split <;> simp
@[simp] theorem trimStart_held (r : TrimRun) (start : Nat) (s : State) :
    (s.trimStart r start).held = s.held := by simp [State.trimStart]
@[simp] theorem trimWatch_held (s : State) :
    (s.trimWatch).held = s.held := by unfold State.trimWatch; split <;> simp
@[simp] theorem setTsrc_held (v : Nat) (s : State) :
    (s.setTsrc v).held = s.held := by simp [State.setTsrc]
@[simp] theorem endSteering_held (s : State) :
    (s.endSteering).held = s.held := by simp [State.endSteering]
@[simp] theorem keepLeap_held (s : State) : (s.keepLeap).held = s.held := by simp [State.keepLeap]
@[simp] theorem commitLeap_held (w : Word) (at_ : Nat) (s : State) :
    (s.commitLeap w at_).held = s.held := by simp [State.commitLeap]
@[simp] theorem takeLeap_held (s : State) : (s.takeLeap).held = s.held := by simp [State.takeLeap]
@[simp] theorem navLeap_held (now next : Int) (at_ : Nat) (s : State) :
    (s.navLeap now next at_).held = s.held := by simp [State.navLeap]
@[simp] theorem removeOffset_held (e : Int) (cause after : Nat) (tqe : Option Nat) (s : State) :
    (s.removeOffset e cause after tqe).held = s.held := by simp [State.removeOffset]
@[simp] theorem slewDone_held (remaining : Int) (s : State) :
    (s.slewDone remaining).held = s.held := by simp only [State.slewDone]; split <;> simp

/-! Crossing -/

@[simp] theorem witness_held (s0 : State) (n : Nat) (s : State) :
    (s0.witness n s).held = s.held := rfl

/-! Sinks -/

@[simp] theorem pushStart_held (k : Nat) (r : Start) (s : State) :
    (s.pushStart k r).held = s.held := by
  unfold State.pushStart; dsimp only; repeat' split
  all_goals simp
@[simp] theorem sampled_held (n : Nat) (s : State) :
    (s.sampled n).held = s.held := by simp [State.sampled]

/-! Quantities -/

@[simp] theorem measured_held (n : Nat) (v : Qval) (f : Qty → Qty) (s : State) :
    (s.measured n v f).held = s.held := by
  unfold State.measured; dsimp only
  rw [sampled_held, witness_held, feed_held, setQty_held, putFresh_held]
@[simp] theorem absorbed_held (n : Nat) (f : Qty → Qty) (s : State) :
    (s.absorbed n f).held = s.held := by simp [State.absorbed]
@[simp] theorem holdInvalid_held (n : Nat) (s : State) :
    (s.holdInvalid n).held = s.held := by simp [State.holdInvalid]
@[simp] theorem timedOut_held (n : Nat) (s : State) :
    (s.timedOut n).held = s.held := by unfold State.timedOut; split <;> simp
@[simp] theorem setShadow_held (s : State) (path n : Nat) (v : Shadow) :
    (s.setShadow path n v).held = s.held := by simp [State.setShadow]
@[simp] theorem openShadow_held (path n : Nat) (s : State) :
    (s.openShadow path n).held = s.held := by simp [State.openShadow]
@[simp] theorem readGroup_held (path n off : Nat) (s : State) :
    (s.readGroup path n off).2.held = s.held := openShadow_held ..
@[simp] theorem readQend_held (path n : Nat) (s : State) :
    (s.readQend path n).2.held = s.held := setShadow_held ..
@[simp] theorem applyQset_held (n : Nat) (c f : Option Word) (s : State) :
    (s.applyQset n c f).held = s.held := by simp [State.applyQset]
@[simp] theorem loseStages_held (key : StageKey) (s : State) :
    (s.loseStages key).held = s.held := by simp [State.loseStages]

/-! Outputs -/

@[simp] theorem commitOut_held (n : Nat) (c : OutCfg) (jsn : Nat) (s : State) :
    (s.commitOut n c jsn).held = s.held := by simp [State.commitOut]
@[simp] theorem leadEdge_held (n : Nat) (e : Qval) (s : State) :
    (s.leadEdge n e).held = s.held := by simp [State.leadEdge]

/-! Clocks -/

@[simp] theorem setClk_held (s : State) (c : Clock) :
    (s.setClk c).held = s.held := by simp [State.setClk]
@[simp] theorem setPll_held (s : State) (p : Nat) (v : Pll) : (s.setPll p v).held = s.held := by
  unfold State.setPll; dsimp only; split
  · exact (putMem_held _ _ rfl).trans (putClk_held ..)
  · exact putClk_held ..
@[simp] theorem setOpp_held (s : State) (i : Nat) (v : Opp) :
    (s.setOpp i v).held = s.held := by simp [State.setOpp]
@[simp] theorem mapFed_held (p : Nat) (f : Nat → Output → Output) (s : State) :
    (s.mapFed p f).held = s.held := by simp [State.mapFed]
@[simp] theorem pllLocked_held (p band search : Nat) (s : State) :
    (s.pllLocked p band search).held = s.held := by simp [State.pllLocked]
@[simp] theorem haltOcxo_held (s : State) : (s.haltOcxo).held = s.held := by simp [State.haltOcxo]
@[simp] theorem startOcxo_held (s : State) :
    (s.startOcxo).held = s.held := by simp [State.startOcxo]
@[simp] theorem refuseOpp_held (i : Nat) (s : State) :
    (s.refuseOpp i).held = s.held := by simp [State.refuseOpp]
@[simp] theorem freqRequest_held (i pt : Nat) (s : State) :
    (s.freqRequest i pt).held = s.held := by unfold State.freqRequest; split <;> simp
@[simp] theorem setPllFreq_held (w : Word) (s : State) :
    (s.setPllFreq w).held = s.held := by simp [State.setPllFreq]

/-! Sched -/

@[simp] theorem setEvent_held (e : Event) (s : State) :
    (s.setEvent e).held = s.held := by simp [State.setEvent]
@[simp] theorem endEvent_held (e : Event) (r : Result) (s : State) :
    (s.endEvent e r).held = s.held := by simp [State.endEvent]
@[simp] theorem report_held (e : Event) (r : Result) (s : State) :
    (s.report e r).held = s.held := by
  unfold State.report; dsimp only; repeat' split
  all_goals simp
@[simp] theorem mark_held (e : Event) (s : State) : (s.mark e).held = s.held := by simp [State.mark]
@[simp] theorem missed_held (jsn occ n : Nat) (restart : Bool) (s : State) :
    (s.missed jsn occ n restart).held = s.held := by unfold State.missed; split <;> simp

/-! Lendi -/

@[simp] theorem failOver_held (l : Nat) (s : State) :
    (s.failOver l).held = s.held := by simp [State.failOver]
@[simp] theorem linkDrop_held (l cause : Nat) (s : State) :
    (s.linkDrop l cause).held = s.held := by simp [State.linkDrop]
@[simp] theorem trySched_held (e : Event) (x : Sent) (w : Nat) (s : State) :
    (s.trySched e x w).2.held = s.held := by
  unfold State.trySched; dsimp only; split <;> simp
@[simp] theorem class1Send_held (jsn w : Nat) (exact : Bool) (s : State) :
    (s.class1Send jsn w exact).held = s.held := by
  unfold State.class1Send; split
  · rfl
  · split
    · rfl
    · dsimp only; split
      · rfl
      · rw [setEvent_held, trySched_held, mark_held]
@[simp] theorem class1Retry_held (jsn l w : Nat) (s : State) :
    (s.class1Retry jsn l w).held = s.held := by
  unfold State.class1Retry; split
  · rfl
  · next e _ =>
    have hone : ∀ (go : Prop) [Decidable go] (x : Sent) (t : State), (if go then State.trySched e x w t else (x, t)).2.held = t.held := by
      intro go _ x t; split
      · exact trySched_held ..
      · rfl
    dsimp only; rw [setEvent_held]
    exact foldl_keeps (fun p : List Sent × State => p.2.held) _ (fun p x => hone ..) _ _
@[simp] theorem sendControl_held (fuel l w : Nat) (s : State) :
    (s.sendControl fuel l w).held = s.held := by
  induction fuel generalizing s with
  | zero => rfl
  | succ fuel ih =>
    unfold State.sendControl; dsimp only; split
    · rfl
    · split
      · rw [ih, emit_held, setLnk_held]
      · rfl
@[simp] theorem trySend_held (l : Nat) (i : SendItem) (s : State) :
    (s.trySend l i).2.held = s.held := by
  unfold State.trySend; dsimp only; split <;> simp
@[simp] theorem sendSends_held (o l : Nat) (s : State) : (s.sendSends o l).held = s.held := by
  unfold State.sendSends; dsimp only; rw [setLnk_held]
  refine foldl_keeps (fun p : List SendItem × State => p.2.held) _ (fun p x => ?_) _ _
  dsimp only; split
  · exact trySend_held ..
  · rfl
@[simp] theorem dropFrame_held (l : Nat) (s : State) :
    (s.dropFrame l).held = s.held := by simp [State.dropFrame]
@[simp] theorem endSend_held (o : Nat) (i : SendItem) (rstat l : Nat) (ws : List Word) (s : State) :
    (s.endSend o i rstat l ws).held = s.held := by simp [State.endSend]
@[simp] theorem sendsReady_held (s : State) :
    (s.sendsReady).held = s.held := by simp [State.sendsReady]
@[simp] theorem applyLendi_held (l : Nat) (en : Bool) (asym : Int) (s : State) :
    (s.applyLendi l en asym).held = s.held := by simp [State.applyLendi]

/-! Smp -/

@[simp] theorem settlePllW_held (s : State) :
    (s.settlePllW).held = s.held := by simp [State.settlePllW]
@[simp] theorem applySmp_held (n : Nat) (ps : List Word) (s : State) :
    (s.applySmp n ps).held = s.held := by simp [State.applySmp]
@[simp] theorem maskRecord_held (n : Nat) (m : MaskWait) (old f j : Nat) (superseded : Bool)
    (s : State) :
    (s.maskRecord n m old f j superseded).held = s.held := by simp [State.maskRecord]
@[simp] theorem scanPairs_held (n : Nat) (vs : List Int) (s : State) :
    (s.scanPairs n vs).held = s.held := by simp [State.scanPairs]
@[simp] theorem frameMissing_held (n : Nat) (fmtErr : Bool) (s : State) :
    (s.frameMissing n fmtErr).held = s.held := by simp [State.frameMissing]
@[simp] theorem takeFrame_held (n : Nat) (vs : List Int) (direct : Bool) (s : State) :
    (s.takeFrame n vs direct).held = s.held := by simp [State.takeFrame]

/-! Steps -/

@[simp] theorem shiftStamps_held (d : Int) (s : State) :
    (s.shiftStamps d).held = s.held := by simp [State.shiftStamps]

/-! Dsp -/

@[simp] theorem onUC_held (k : Nat) (f : UCore → UCore) (s : State) :
    (s.onUC k f).held = s.held := by simp [State.onUC]
@[simp] theorem abortTask_held (k code : Nat) (s : State) :
    (s.abortTask k code).held = s.held := by simp only [State.abortTask]; split <;> simp
@[simp] theorem coreFails_held (k : Nat) (s : State) :
    (s.coreFails k).held = s.held := by simp [State.coreFails]

/-! Banks -/

@[simp] theorem setMem_held (s : State) (m : Memory) (hc : m.cells = s.mem.cells) :
    (s.setMem m).held = s.held := congrArg (fun c => (c, s.pending)) hc
@[simp] theorem uncorrected_held (a b master : Nat) (s : State) :
    (s.uncorrected a b master).held = s.held := by
  unfold State.uncorrected; dsimp only; rw [raiseLimited_held]; exact setMem_held _ _ rfl
@[simp] theorem guarded_held (master a : Nat) (s : State) :
    (s.guarded master a).held = s.held := by simp [State.guarded]
@[simp] theorem corrected_held (b : Nat) (s : State) : (s.corrected b).held = s.held := by
  unfold State.corrected; dsimp only; split
  · rw [raiseLimited_held]; exact setMem_held _ _ rfl
  · exact setMem_held _ _ rfl
@[simp] theorem rebuild_held (as : List Nat) (s : State) :
    (s.rebuild as).held = s.held := by simp [State.rebuild]
@[simp] theorem memRead_held (r : MemReq) (fwd : Option Word) (s : State) :
    (s.memRead r fwd).held = s.held := by
  unfold State.memRead; dsimp only; repeat' split
  all_goals simp
@[simp] theorem granted_held (mc : Nat) (s : State) (r : MemReq) :
    (s.granted mc r).held = s.held := by
  unfold State.granted; dsimp only; split
  · exact setMem_held _ _ rfl
  · exact setMem_held _ _ rfl
@[simp] theorem issue_held (mc : Nat) (rs : List MemReq) (s : State) :
    (s.issue mc rs).held = s.held := by simp [State.issue]

/-! UserCore -/

@[simp] theorem used_held (n : Nat) (s : State) : (s.used n).held = s.held := by simp [State.used]

/-! Rf -/

@[simp] theorem setAnt_held (s : State) (a : Nat) (v : Ant) :
    (s.setAnt a v).held = s.held := by simp [State.setAnt]
@[simp] theorem setStrm_held (s : State) (st : Nat) (v : Strm) :
    (s.setStrm st v).held = s.held := by simp [State.setStrm]
@[simp] theorem rfLatch_held (i : Nat) (s : State) :
    (s.rfLatch i).held = s.held := by simp [State.rfLatch]
@[simp] theorem frontCheck_held (a : Nat) (s : State) :
    (s.frontCheck a).held = s.held := by simp [State.frontCheck]
@[simp] theorem rfUp_held (s : State) : (s.rfUp).held = s.held := by simp [State.rfUp]
@[simp] theorem rfDown_held (s : State) : (s.rfDown).held = s.held := by simp [State.rfDown]
@[simp] theorem breakInput_held (a : Nat) (s : State) :
    (s.breakInput a).held = s.held := by simp [State.breakInput]
@[simp] theorem rebias_held (a : Nat) (s : State) :
    (s.rebias a).held = s.held := by simp [State.rebias]
@[simp] theorem antWritten_held (a : Nat) (w : Word) (s : State) :
    (s.antWritten a w).held = s.held := by simp [State.antWritten]
@[simp] theorem restartBaseline_held (a : Nat) (s : State) :
    (s.restartBaseline a).held = s.held := by simp [State.restartBaseline]
@[simp] theorem stopHeading_held (a : Nat) (s : State) :
    (s.stopHeading a).held = s.held := by simp [State.stopHeading]
@[simp] theorem fracFound_held (st frac : Nat) (s : State) :
    (s.fracFound st frac).held = s.held := by simp [State.fracFound]
@[simp] theorem rfApply_held (addr : Nat) (w : Word) (s : State) :
    (s.rfApply addr w).held = s.held := by
  unfold State.rfApply; dsimp only; repeat' split
  all_goals simp
@[simp] theorem blockOf_held (i : StreamIn) (all : List StreamIn) (s : State) :
    (s.blockOf i all).held = s.held := by
  unfold State.blockOf; dsimp only; repeat' split
  all_goals simp
@[simp] theorem renotch_held (st : Nat) (s : State) :
    (s.renotch st).held = s.held := by simp [State.renotch]
@[simp] theorem rfBlock_held (streams : List StreamIn) (bias : List (Nat × Nat)) (s : State) :
    (s.rfBlock streams bias).held = s.held := by simp [State.rfBlock]

/-! Gale -/

@[simp] theorem onGale_held (f : Gale → Gale) (s : State) :
    (s.onGale f).held = s.held := by simp [State.onGale]
@[simp] theorem setEng_held (s : State) (e : Nat) (v : Eng) :
    (s.setEng e v).held = s.held := by simp [State.setEng]
@[simp] theorem setJob_held (j : Job) (s : State) :
    (s.setJob j).held = s.held := by simp [State.setJob]
@[simp] theorem openJob_held (q : Nat) (s : State) :
    (s.openJob q).held = s.held := by unfold State.openJob; split <;> simp
@[simp] theorem mismatch_held (e : Nat) (w : EngWork) (s : State) :
    (s.mismatch e w).held = s.held := by simp [State.mismatch]
@[simp] theorem startSlot_held (e : Nat) (forward : Bool) (s : State) :
    (s.startSlot e forward).held = s.held := by
  unfold State.startSlot; dsimp only; repeat' split
  all_goals simp
@[simp] theorem selectReport_held (path : Nat) (w : Word) (s : State) :
    (s.selectReport path w).held = s.held := by simp [State.selectReport]

/-! KiteNco -/

@[simp] theorem setChan_held (s : State) (n : Nat) (v : Chan) :
    (s.setChan n v).held = s.held := by simp [State.setChan]
@[simp] theorem setTrain_held (s : State) (t : Nat) (v : Train) :
    (s.setTrain t v).held = s.held := by simp [State.setTrain]

/-! Kite -/

@[simp] theorem kiteAlarm_held (owner cause : Nat) (args : List Word) (s : State) :
    (s.kiteAlarm owner cause args).held = s.held := by simp [State.kiteAlarm]
@[simp] theorem setRoles_held (t : Nat) (s : State) :
    (s.setRoles t).held = s.held := by simp [State.setRoles]
@[simp] theorem makeMaster_held (t n : Nat) (s : State) :
    (s.makeMaster t n).held = s.held := by simp [State.makeMaster]
@[simp] theorem enterCoast_held (t : Nat) (s : State) :
    (s.enterCoast t).held = s.held := by simp [State.enterCoast]
@[simp] theorem elect_held (t old : Nat) (s : State) : (s.elect t old).held = s.held := by
  unfold State.elect; dsimp only; repeat' split
  all_goals simp
@[simp] theorem leaveAll_held (ns : List Nat) (s : State) :
    (s.leaveAll ns).held = s.held := by simp [State.leaveAll]
@[simp] theorem leaveTrain_held (n : Nat) (s : State) :
    (s.leaveTrain n).held = s.held := by simp [State.leaveTrain]
@[simp] theorem loseChan_held (n cause : Nat) (s : State) :
    (s.loseChan n cause).held = s.held := by simp [State.loseChan]
@[simp] theorem breakTrain_held (t : Nat) (s : State) :
    (s.breakTrain t).held = s.held := by simp [State.breakTrain]
@[simp] theorem freeChans_held (ns : List Nat) (s : State) :
    (s.freeChans ns).held = s.held := by simp [State.freeChans]
@[simp] theorem freeChan_held (n : Nat) (s : State) :
    (s.freeChan n).held = s.held := by simp [State.freeChan]
@[simp] theorem placeChan_held (who n : Nat) (ps : List Word) (s : State) :
    (s.placeChan who n ps).held = s.held := by simp [State.placeChan]
@[simp] theorem placeTrain_held (who t : Nat) (comb : Bool) (sl : List Nat) (s : State) :
    (s.placeTrain who t comb sl).held = s.held := by simp [State.placeTrain]
@[simp] theorem queueKite_held (jsn who : Nat) (op : KiteOp) (s : State) :
    (s.queueKite jsn who op).held = s.held := by simp [State.queueKite]
@[simp] theorem applyKite_held (k : KiteCmd) (s : State) : (s.applyKite k).held = s.held := by
  unfold State.applyKite; dsimp only; repeat' split
  all_goals simp
@[simp] theorem planned_held (s : State) : (s.planned).held = s.held := by simp [State.planned]
@[simp] theorem evalChan_held (n : Nat) (s : State) :
    (s.evalChan n).held = s.held := by simp [State.evalChan]
@[simp] theorem checkTrain_held (t : Nat) (s : State) : (s.checkTrain t).held = s.held := by
  unfold State.checkTrain; dsimp only; repeat' split
  all_goals simp
@[simp] theorem updateLoops_held (n : Nat) (ks : List Integ) (s : State) :
    (s.updateLoops n ks).held = s.held := by simp [State.updateLoops]
@[simp] theorem kiteReady_held (s : State) :
    (s.kiteReady).held = s.held := by simp [State.kiteReady]
@[simp] theorem kiteDown_held (s : State) :
    (s.kiteDown).held = s.held := by simp only [State.kiteDown]; split <;> simp
@[simp] theorem kiteRetain_held (s : State) :
    (s.kiteRetain).held = s.held := by simp [State.kiteRetain]
@[simp] theorem kiteResume_held (s : State) :
    (s.kiteResume).held = s.held := by simp [State.kiteResume]
@[simp] theorem kiteHeld_held (s : State) : (s.kiteHeld).held = s.held := by simp [State.kiteHeld]
@[simp] theorem snapChan_held (n : Nat) (d : Option KDump) (s : State) :
    (s.snapChan n d).1.held = s.held := by
  unfold State.snapChan; dsimp only; split
  · exact putMeas_held ..
  · exact (setChan_held ..).trans (putMeas_held ..)

/-! Meas -/

@[simp] theorem setMcfg_held (s : State) (p : Nat) (v : MeasCfg) :
    (s.setMcfg p v).held = s.held := by simp [State.setMcfg]
@[simp] theorem observe_held (m : Nat) (pred : Option ObsIn) (n : Nat) (s : State) :
    (s.observe m pred n).held = s.held := by simp [State.observe]
@[simp] theorem partnerEpoch_held (m : Nat) (whole : Bool) (p : Nat) (s : State) :
    (s.partnerEpoch m whole p).held = s.held := by simp [State.partnerEpoch]
@[simp] theorem measOutage_held (s : State) :
    (s.measOutage).held = s.held := by simp [State.measOutage]
@[simp] theorem sendNav_held (p : Nat) (m : NavMsg) (copies : Nat) (s : State) :
    (s.sendNav p m copies).held = s.held := by simp [State.sendNav]
@[simp] theorem endDedup_held (d : Dedup) (s : State) :
    (s.endDedup d).held = s.held := by simp [State.endDedup]
@[simp] theorem deliverNav_held (m : NavMsg) (p : Nat) (s : State) :
    (s.deliverNav m p).held = s.held := by
  unfold State.deliverNav; dsimp only; repeat' split
  all_goals simp
@[simp] theorem keepMessage_held (mt sat : Nat) (ws : List Word) (s : State) :
    (s.keepMessage mt sat ws).held = s.held := by simp [State.keepMessage]
@[simp] theorem useMessage_held (m : NavMsg) (d : Config.Decoded) (s : State) :
    (s.useMessage m d).held = s.held := by unfold State.useMessage; split <;> simp

/-! Search -/

@[simp] theorem onModes_held (f : ModeBlk → ModeBlk) (s : State) :
    (s.onModes f).held = s.held := by simp [State.onModes]
@[simp] theorem submit_held (j : Job) (s : State) :
    (s.submit j).held = s.held := by simp [State.submit]
@[simp] theorem coldPlan_held (mask : Nat) (s : State) : (s.coldPlan mask).held = s.held := by
  unfold State.coldPlan; dsimp only
  refine foldl_held _ (fun a r => ?_) _ s
  split
  · exact foldl_held _ (fun b prn => submit_held ..) _ a
  · rfl
@[simp] theorem seek_held (hot : Bool) (start : Qval) (a sig prn : Nat) (s : State) :
    (s.seek hot start a sig prn).held = s.held := by simp [State.seek]
@[simp] theorem seekAll_held (hot : Bool) (s : State) : (s.seekAll hot).held = s.held := by
  unfold State.seekAll; dsimp only
  refine foldl_held _ (fun a ant => foldl_held _ (fun b band => foldl_held _ (fun c sys => ?_) _ b) _ a) _ s
  split
  · split
    · split
      · rfl
      · refine foldl_held _ (fun d prn => ?_) _ c
        split
        · exact seek_held ..
        · rfl
    · rfl
  · rfl
@[simp] theorem search_held (s : State) : (s.search).held = s.held := by simp [State.search]

/-! Modes -/

@[simp] theorem dropOwnChans_held (s : State) :
    (s.dropOwnChans).held = s.held := by simp [State.dropOwnChans]
@[simp] theorem doOwn_held (o : Own) (s : State) : (s.doOwn o).held = s.held := by
  unfold State.doOwn; dsimp only; repeat' split
  all_goals simp
@[simp] theorem doOwns_held (os : List Own) (s : State) :
    (s.doOwns os).held = s.held := by simp [State.doOwns]
@[simp] theorem keepClock_held (m : Nat) (s : State) :
    (s.keepClock m).held = s.held := by simp [State.keepClock]
@[simp] theorem keepData_held (s : State) : (s.keepData).held = s.held := by simp [State.keepData]
@[simp] theorem reloadData_held (s : State) :
    (s.reloadData).held = s.held := by simp only [State.reloadData]; split <;> simp
@[simp] theorem modeRecord_held (at_ : Qval) (old cause jsn : Nat) (s : State) :
    (s.modeRecord at_ old cause jsn).held = s.held := by simp [State.modeRecord]
@[simp] theorem modeReady_held (s : State) :
    (s.modeReady).held = s.held := by simp [State.modeReady]
@[simp] theorem selectMode_held (ws : List Word) (who jsn : Nat) (s : State) :
    (s.selectMode ws who jsn).held = s.held := by simp [State.selectMode]
@[simp] theorem modeDown_held (s : State) : (s.modeDown).held = s.held := by simp [State.modeDown]
@[simp] theorem newTicks_held (s : State) : (s.newTicks).held = s.held := by simp [State.newTicks]

/-! Solve -/

@[simp] theorem solAt_held (p m : Nat) (s : State) :
    (s.solAt p m).held = s.held := by simp [State.solAt]
@[simp] theorem takeFixes_held (m : Nat) (s : State) :
    (s.takeFixes m).held = s.held := by simp [State.takeFixes]
@[simp] theorem solRecords_held (m : Nat) (x : Solved) (changed : Bool) (s : State) :
    (s.solRecords m x changed).held = s.held := by simp [State.solRecords]
@[simp] theorem recover_held (e : Int) (cause after sigma : Nat) (s : State) :
    (s.recover e cause after sigma).held = s.held := by simp [State.recover]
@[simp] theorem firstTime_held (e : Int) (after sigma : Nat) (s : State) :
    (s.firstTime e after sigma).held = s.held := by simp [State.firstTime]
@[simp] theorem remeasure_held (e : Int) (sigma sigF : Nat) (s : State) :
    (s.remeasure e sigma sigF).held = s.held := by simp [State.remeasure]
@[simp] theorem learn_held (s : State) : (s.learn).held = s.held := by simp [State.learn]
@[simp] theorem steer_held (x first : Truth) (after cause : Nat) (s : State) :
    (s.steer x first after cause).held = s.held := by simp [State.steer]
@[simp] theorem holdModel_held (s : State) :
    (s.holdModel).held = s.held := by simp [State.holdModel]
@[simp] theorem steerEpoch_held (x : Solved) (r : SolveIn) (s : State) :
    (s.steerEpoch x r).held = s.held := by simp [State.steerEpoch]
@[simp] theorem watchHeld_held (m : Nat) (s : State) :
    (s.watchHeld m).held = s.held := by simp [State.watchHeld]
@[simp] theorem headingUpdate_held (b : Nat) (heading : Word) (s : State) :
    (s.headingUpdate b heading).held = s.held := by simp [State.headingUpdate]
@[simp] theorem baseEpoch_held (m b : Nat) (s : State) :
    (s.baseEpoch m b).held = s.held := by simp [State.baseEpoch]

/-! Store -/

@[simp] theorem retire_held (g : Group) (s : State) :
    (s.retire g).held = s.held := by simp [State.retire]
@[simp] theorem turnRing_held (s : State) :
    (s.turnRing).held = s.held := by unfold State.turnRing; split <;> simp
@[simp] theorem ringRoom_held (fuel n : Nat) (s : State) : (s.ringRoom fuel n).held = s.held := by
  induction fuel generalizing s with
  | zero => rfl
  | succ fuel ih =>
    unfold State.ringRoom; split
    · rfl
    · rw [ih, turnRing_held]
@[simp] theorem groupDone_held (s : State) :
    (s.groupDone).held = s.held := by unfold State.groupDone; split <;> simp
@[simp] theorem storeFails_held (i : Nat) (s : State) :
    (s.storeFails i).held = s.held := by simp [State.storeFails]
@[simp] theorem reconcileOne_held (finds : List Find) (g : Group) (s : State) :
    (s.reconcileOne finds g).held = s.held := by simp [State.reconcileOne]
@[simp] theorem reconcile_held (finds : List Find) (s : State) :
    (s.reconcile finds).held = s.held := by simp [State.reconcile]

/-! Rtc -/

@[simp] theorem onRtc_held (f : Rtc → Rtc) (s : State) :
    (s.onRtc f).held = s.held := by simp [State.onRtc]
@[simp] theorem alarmRecord_held (a : Nat × Nat × Nat × Qval) (s : State) :
    (s.alarmRecord a).held = s.held := by simp [State.alarmRecord]
@[simp] theorem setTrim_held (v : Int) (s : State) :
    (s.setTrim v).held = s.held := by simp [State.setTrim]
@[simp] theorem trimEnd_held (r : TrimRun) (num den : Int) (apply : Bool) (s : State) :
    (s.trimEnd r num den apply).held = s.held := by simp [State.trimEnd]
@[simp] theorem trimAgain_held (r : TrimRun) (start : Nat) (s : State) :
    (s.trimAgain r start).held = s.held := by simp [State.trimAgain]
@[simp] theorem cellRecord_held (cause mv : Nat) (s : State) :
    (s.cellRecord cause mv).held = s.held := by simp [State.cellRecord]
@[simp] theorem setRtcShadow_held (s : State) (path : Nat) (v : RtcShadow) :
    (s.setRtcShadow path v).held = s.held := by simp [State.setRtcShadow]
@[simp] theorem readRtc_held (path off : Nat) (s : State) :
    (s.readRtc path off).2.held = s.held := by
  unfold State.readRtc; dsimp only; split
  · exact setRtcShadow_held ..
  · split <;> exact setRtcShadow_held ..

/-! Power -/

@[simp] theorem onPwr_held (f : Power → Power) (s : State) :
    (s.onPwr f).held = s.held := by simp [State.onPwr]
@[simp] theorem latchPads_held (d : Nat) (s : State) :
    (s.latchPads d).held = s.held := by unfold State.latchPads; split <;> simp
@[simp] theorem joinOutputs_held (s : State) :
    (s.joinOutputs).held = s.held := by simp [State.joinOutputs]
@[simp] theorem ethUp_held (h : Nat) (s : State) :
    (s.ethUp h).held = s.held := by simp [State.ethUp]
@[simp] theorem linksOn_held (s : State) : (s.linksOn).held = s.held := by simp [State.linksOn]
@[simp] theorem unlatchPads_held (d : Nat) (s : State) :
    (s.unlatchPads d).held = s.held := by unfold State.unlatchPads; split <;> simp
@[simp] theorem padsOn_held (d : Nat) (s : State) :
    (s.padsOn d).held = s.held := by unfold State.padsOn; split <;> simp
@[simp] theorem cutOut_held (n : Nat) (s : State) :
    (s.cutOut n).held = s.held := by simp [State.cutOut]
@[simp] theorem timeDownBegins_held (s : State) :
    (s.timeDownBegins).held = s.held := by simp [State.timeDownBegins]
@[simp] theorem loadTime_held (s : State) : (s.loadTime).held = s.held := by simp [State.loadTime]
@[simp] theorem timeOn_held (s : State) : (s.timeOn).held = s.held := by
  unfold State.timeOn; dsimp only
  rw [padsOn_held, foldl_held _ (fun a n => setOut_held ..), putClk_held, loadTime_held, setDom_held]
@[simp] theorem dspDown_held (s : State) : (s.dspDown).held = s.held := by simp [State.dspDown]
@[simp] theorem dspUp_held (s : State) : (s.dspUp).held = s.held := by simp [State.dspUp]
@[simp] theorem linksDown_held (s : State) :
    (s.linksDown).held = s.held := by simp [State.linksDown]
@[simp] theorem portsOff_held (s : State) : (s.portsOff).held = s.held := by simp [State.portsOff]
@[simp] theorem smpOff_held (s : State) : (s.smpOff).held = s.held := by simp [State.smpOff]
@[simp] theorem oppReset_held (d : Nat) (s : State) :
    (s.oppReset d).held = s.held := by unfold State.oppReset; split <;> simp
@[simp] theorem movePoint_held (d demand : Nat) (s : State) :
    (s.movePoint d demand).held = s.held := by unfold State.movePoint; split <;> simp
@[simp] theorem judgeBudgets_held (s : State) : (s.judgeBudgets).held = s.held := by
  unfold State.judgeBudgets; dsimp only
  rw [foldl_held _ (fun a c => onPwr_held ..)]
  refine foldl_held _ (fun a p => foldl_held _ (fun b c => ?_) _ a) _ s
  split
  · rw [raise_held, onPwr_held]
  · exact onPwr_held ..

/-! Lifecycle -/

@[simp] theorem flushOnce_held (s : State) :
    (s.flushOnce).held = s.held := by simp [State.flushOnce]
@[simp] theorem flush_held (s : State) : (s.flush).held = s.held := by simp [State.flush]
@[simp] theorem cmdOff_held (s : State) : (s.cmdOff).held = s.held := by simp [State.cmdOff]
@[simp] theorem noteRetest_held (s : State) :
    (s.noteRetest).held = s.held := by simp [State.noteRetest]
@[simp] theorem storeTest_held (i : Nat) (pass : Bool) (s : State) :
    (s.storeTest i pass).held = s.held := by simp [State.storeTest]
@[simp] theorem ocxoStarts_held (s : State) :
    (s.ocxoStarts).held = s.held := by simp [State.ocxoStarts]

/-! Regs -/

@[simp] theorem setCopy_held (path : Nat) (key : StageKey) (st : Option Stage) (s : State) :
    (s.setCopy path key st).held = s.held := by simp [State.setCopy]
@[simp] theorem stageWord_held (path : Nat) (key : StageKey) (i : Nat) (v : Word) (s : State) :
    (s.stageWord path key i v).held = s.held := by unfold State.stageWord; split <;> simp
@[simp] theorem takeCopy_held (path : Nat) (key : StageKey) (s : State) :
    (s.takeCopy path key).held = s.held := by simp [State.takeCopy]
@[simp] theorem readLive_held (path : Nat) (r : Reg) (s : State) :
    (s.readLive path r).2.held = s.held := by
  unfold State.readLive; split
  · split
    · exact readQend_held ..
    · split
      · exact readGroup_held ..
      · rfl
  · split
    · exact readRtc_held ..
    · rfl
  · rfl
@[simp] theorem readReg_held (path : Nat) (r : Reg) (s : State) :
    (s.readReg path r).2.held = s.held := by
  unfold State.readReg; split
  · exact readLive_held ..
  · split
    · exact readLive_held ..
    · split <;> rfl
@[simp] theorem readRegs_held (path n a : Nat) (s : State) :
    (State.readRegs path n a s).2.held = s.held := by
  induction n generalizing a s with
  | zero => rfl
  | succ n ih => exact (ih ..).trans (readReg_held ..)
@[simp] theorem rcClear_held (own : Nat) (r : Reg) (s : State) :
    (s.rcClear own r).held = s.held := by
  unfold State.rcClear; dsimp only; repeat' split
  all_goals simp

/-! RegWrite -/

@[simp] theorem w1c_held (r : Reg) (v : Word) (s : State) : (s.w1c r v).held = s.held := by
  unfold State.w1c; dsimp only; repeat' split
  all_goals simp
@[simp] theorem commitEth_held (path h : Nat) (s : State) : (s.commitEth path h).held = s.held := by
  unfold State.commitEth; dsimp only
  generalize hfold : List.foldl _ s [0, 1, 2, 3, 4] = t
  have ht : t.held = s.held := by
    rw [← hfold]; refine foldl_held _ (fun a p => ?_) _ s
    split
    · split
      · exact setPart_held ..
      · rfl
    · rfl
  split
  · rw [setEth_held, setEth_held, ht]
  · split
    · rw [ethUp_held, setEth_held, ht]
    · rw [setEth_held, ht]
@[simp] theorem seqReset_held (p : Nat) (s : State) :
    (s.seqReset p).held = s.held := by simp [State.seqReset]
@[simp] theorem commitGroup_held (path jsn : Nat) (key : StageKey) (ws : Tab (Option Word))
    (s : State) :
    (s.commitGroup path jsn key ws).held = s.held := by unfold State.commitGroup; split <;> simp
@[simp] theorem commitWord_held (path jsn : Nat) (key : StageKey) (v : Word) (s : State) :
    (s.commitWord path jsn key v).held = s.held := by
  unfold State.commitWord; split
  · split
    · exact commitGroup_held ..
    · rfl
  · rfl
@[simp] theorem emptyLost_held (path a : Nat) (s : State) :
    (s.emptyLost path a).held = s.held := by unfold State.emptyLost; split <;> simp
@[simp] theorem s0ReadWord_held (a : Nat) (s : State) : (s.s0ReadWord a).2.held = s.held := by
  unfold State.s0ReadWord; split
  · exact (rcClear_held ..).trans (readReg_held ..)
  · rfl
@[simp] theorem s0Refused_held (a : Nat) (st : Status) (s : State) :
    (s.s0Refused a st).held = s.held := by simp [State.s0Refused]
@[simp] theorem s0Seal_held (a : Nat) (v : Word) (s : State) :
    (s.s0Seal a v).held = s.held := by simp [State.s0Seal]
@[simp] theorem s0Stop_held (s : State) : (s.s0Stop).held = s.held := by simp [State.s0Stop]
@[simp] theorem s0Point_held (a : Nat) (s : State) :
    (s.s0Point a).held = s.held := by simp [State.s0Point]

/-! Host -/

@[simp] theorem countDrop_held (port : Nat) (s : State) :
    (s.countDrop port).held = s.held := by simp [State.countDrop]
@[simp] theorem countFrame_held (port : Nat) (s : State) :
    (s.countFrame port).held = s.held := by simp [State.countFrame]
@[simp] theorem countSeg_held (port : Nat) (s : State) :
    (s.countSeg port).held = s.held := by simp [State.countSeg]
@[simp] theorem dropReasm_held (port : Nat) (ep : Endpoint) (s : State) :
    (s.dropReasm port ep).held = s.held := by simp [State.dropReasm]
@[simp] theorem expireReasm_held (port : Nat) (ep : Endpoint) (s : State) :
    (s.expireReasm port ep).held = s.held := by unfold State.expireReasm; split <;> simp
@[simp] theorem spiGet_held (h n : Nat) (s : State) : (s.spiGet h n).2.held = s.held := by
  unfold State.spiGet; dsimp only; split
  · rfl
  · dsimp only; split
    · exact (unbind_held ..).trans (setSpi_held ..)
    · exact setSpi_held ..
@[simp] theorem s0Fetch_held (n : Nat) (ws : List Word) (s : State) :
    (State.s0Fetch n ws s).2.held = s.held := by
  induction n generalizing ws s with
  | zero => rfl
  | succ n ih => exact (ih ..).trans ((s0Point_held ..).trans (s0ReadWord_held ..))
@[simp] theorem hostFails_held (port : Nat) (s : State) :
    (s.hostFails port).held = s.held := by simp [State.hostFails]
@[simp] theorem hostReturns_held (port : Nat) (s : State) :
    (s.hostReturns port).held = s.held := by simp [State.hostReturns]

/-! ## The functions that write memory, the commands, and the step -/

/-- Memory's bytes and the queue. -/
abbrev Held := List Host.Cell × List Instr
/-- What a step keeps of what is held: the queue, and memory's canonical form. -/
def Kept (m₀ m : Held) : Prop := m.2 = m₀.2 ∧ (cellsWf m₀.1 = true → cellsWf m.1 = true)
theorem Kept.refl (m₀ : Held) : Kept m₀ m₀ := ⟨rfl, id⟩
theorem Kept.of_eq {m₀ : Held} {u v : State} (h : v.held = u.held) (hu : Kept m₀ u.held) :
    Kept m₀ v.held := h ▸ hu
@[simp] theorem ite_kept (m₀ x y : Held) (c : Prop) [Decidable c] :
    Kept m₀ (if c then x else y) ↔ if c then Kept m₀ x else Kept m₀ y := by split <;> rfl
theorem kept_ite {m₀ : Held} {c : Prop} [Decidable c] {x y : State} (hx : Kept m₀ x.held)
    (hy : Kept m₀ y.held) :
    Kept m₀ (if c then x else y).held := by
  split
  · exact hx
  · exact hy
/-- A fold whose steps keep it keeps it. -/
@[simp] theorem foldl_kept {β : Type} {m₀ : Held} (f : State → β → State)
    (hf : ∀ a x, Kept m₀ a.held → Kept m₀ (f a x).held) (l : List β) (s : State)
    (hs : Kept m₀ s.held) :
    Kept m₀ (l.foldl f s).held :=
  foldl_inv (fun t : State => Kept m₀ t.held) f hf l s hs
/-- A next state keeps it; a fault or a refusal leaves none. -/
def KeptBy (m₀ : Held) : Host.Outcome State Fault Refusal → Prop
  | .next u => Kept m₀ u.held
  | .fault _ => True
  | .refused _ => True
@[simp] theorem keptBy_next (m₀ : Held) (u : State) :
    KeptBy m₀ (.next u) ↔ Kept m₀ u.held := Iff.rfl
@[simp] theorem keptBy_fault (m₀ : Held) (r : Fault) : KeptBy m₀ (.fault r) ↔ True := Iff.rfl
@[simp] theorem keptBy_refused (m₀ : Held) (r : Refusal) : KeptBy m₀ (.refused r) ↔ True := Iff.rfl
@[simp] theorem ite_keptBy (m₀ : Held) (x y : Host.Outcome State Fault Refusal) (c : Prop)
    [Decidable c] :
    KeptBy m₀ (if c then x else y) ↔ if c then KeptBy m₀ x else KeptBy m₀ y := by split <;> rfl
theorem keptBy_ite {m₀ : Held} {c : Prop} [Decidable c] {x y : Host.Outcome State Fault Refusal}
    (hx : KeptBy m₀ x) (hy : KeptBy m₀ y) :
    KeptBy m₀ (if c then x else y) := by
  split
  · exact hx
  · exact hy
/-- The effect of a verdict keeps it. -/
def Verdict.Keeps (v : Verdict) : Prop := ∀ (j : Nat) (m₀ : Held) (t : State), Kept m₀ t.held → Kept m₀ (v.act j t).held
/-- So does the effect of every packet of an opcode. -/
def OpSpec.Keeps (op : OpSpec) : Prop := ∀ (k : Pkt) (s : State), (op.eval k s).Keeps
@[simp] theorem refuse_act (st : Status) (ws : List Word) (j : Nat) (t : State) :
    (refuse st ws).act j t = t := rfl
@[simp] theorem reason_act (st : Status) (r j : Nat) (t : State) : (reason st r).act j t = t := rfl
@[simp] theorem badParam_act (r j : Nat) (t : State) : (badParam r).act j t = t := rfl
@[simp] theorem notPermitted_act (r j : Nat) (t : State) : (notPermitted r).act j t = t := rfl
@[simp] theorem doneWith_act (ws : List Word) (f : Nat → State → State) :
    (doneWith ws f).act = f := rfl
@[simp] theorem acceptWith_act (ws : List Word) (f : Nat → State → State) :
    (acceptWith ws f).act = f := rfl
@[simp] theorem ite_keeps (v w : Verdict) (c : Prop) [Decidable c] :
    (if c then v else w).Keeps ↔ if c then v.Keeps else w.Keeps := by split <;> rfl
theorem keeps_ite {c : Prop} [Decidable c] {v w : Verdict} (hv : v.Keeps) (hw : w.Keeps) :
    (if c then v else w).Keeps := by
  split
  · exact hv
  · exact hw
@[simp] theorem refuse_keeps (st : Status) (ws : List Word) :
    (refuse st ws).Keeps := fun _ _ _ h => h
@[simp] theorem reason_keeps (st : Status) (r : Nat) : (reason st r).Keeps := fun _ _ _ h => h
@[simp] theorem badParam_keeps (r : Nat) : (badParam r).Keeps := fun _ _ _ h => h
@[simp] theorem notPermitted_keeps (r : Nat) : (notPermitted r).Keeps := fun _ _ _ h => h
theorem judge_keeps (op : Option OpSpec) (ho : ∀ o, op = some o → o.Keeps) (k : Pkt) (s : State) :
    (judge op k s).Keeps := by
  unfold judge; split
  · exact refuse_keeps _ _
  · next o =>
    split
    · exact notPermitted_keeps _
    · split
      · exact refuse_keeps _ _
      · dsimp only; split
        · intro j m₀ t ht; simpa using ht
        · exact ho o rfl k s
/-- The fetch is a read of the word at the pc (R416). Stated between functions: compared at a state,
the kernel would run the read. -/
theorem fetched_def : State.fetched = fun k s => (s.busRead (13 + 2 * k) (s.core k).pc).1 := rfl
/-- Counting who waits leaves the bytes of memory alone. -/
theorem waits_cells (l : List BankReq) (m : Memory) :
    (l.foldl (fun (m : Memory) x => m.waits x.req.master) m).cells = m.cells :=
  foldl_keeps Memory.cells (fun (m : Memory) (x : BankReq) => m.waits x.req.master) (fun _ _ => rfl) l m

/-! Ops -/

@[simp] theorem memWrites_kept {m₀ : Held} (s : State) (a : Nat) (ws : List Word)
    (hs : Kept m₀ s.held) :
    Kept m₀ (s.memWrites a ws).held := ⟨hs.1, fun hw => memWrites_wf s a ws (hs.2 hw)⟩

/-! Skonus -/

@[simp] theorem runDup_kept {m₀ : Held} (op : OpSpec) (ho : op.Keeps) (k : Pkt)
    (held : Option (Bool × Nat)) (s : State) (hs : Kept m₀ s.held) :
    Kept m₀ (runDup op k held s).held := by
  unfold runDup; dsimp only; split
  · simp [hs]
  · split
    · simp [hs]
    · rw [answer_held, setPart_held]; split
      · exact ho _ _ _ _ _ hs
      · exact hs
@[simp] theorem runNew_kept {m₀ : Held} (op : Option OpSpec) (ho : ∀ o, op = some o → o.Keeps)
    (k : Pkt) (held : Option (Bool × Nat)) (s : State) (hs : Kept m₀ s.held) :
    Kept m₀ (runNew op k held s).held := by
  have hv := judge_keeps op ho k s s.jrn.next m₀
  unfold runNew; dsimp only; split
  · exact hv _ (by simp [hs])
  · rw [replyNew_held]; exact hv _ (by simp [hs])
@[simp] theorem runParse_kept {m₀ : Held} (op : Option OpSpec) (ho : ∀ o, op = some o → o.Keeps)
    (k : Pkt) (old : Bool) (s : State) (hs : Kept m₀ s.held) :
    Kept m₀ (runParse op k old s).held := by
  have hd : (op.getD { code := k.code, eval := fun _ _ => refuse .badOpcode [0] }).Keeps := by
    cases op with
    | none => exact fun _ _ => refuse_keeps _ _
    | some o => exact ho o rfl
  have hn := runNew_kept op ho k (k.held old) s hs
  unfold runParse; dsimp only; split
  · simp [hs]
  · split
    · split
      · simp [hs]
      · exact runDup_kept _ hd _ _ _ hs
    · split
      · simp [hs]
      · split
        · simp [hs]
        · split
          · rw [unbind_held]; exact hn
          · exact hn
@[simp] theorem runPacket_kept {m₀ : Held} (op : Option OpSpec) (ho : ∀ o, op = some o → o.Keeps)
    (k : Pkt) (s : State) (hs : Kept m₀ s.held) :
    Kept m₀ (runPacket op k s).held := by
  have he : ∀ st ws, Kept m₀ (s.early k st ws).held := fun st ws => by simp [hs]
  have hp : ∀ x, Kept m₀ (runParse op k x (s.setPart k.partner { s.part k.partner with bind := some ⟨k.port, k.ep, k.mac⟩ })).held :=
    fun x => runParse_kept op ho k x _ (by simp [hs])
  unfold runPacket
  refine kept_ite hs (kept_ite (he _ _) (kept_ite (he _ _) (kept_ite (he _ _) (kept_ite (by simp [hs]) ?_))))
  refine kept_ite (he _ _) ?_
  generalize authFails (s.part k.partner) k = r
  cases r with
  | some r => simp [hs]
  | none =>
    refine kept_ite (by simp [hs]) (kept_ite (by simp [hs]) (kept_ite (by simp [hs]) ?_))
    exact kept_ite (by simp [hs]) (kept_ite (by simp [hs]) (hp _))
theorem runOp_kept {m₀ : Held} (op : OpSpec) (ho : op.Keeps) (t : Lapse) (env : Env)
    (ps : List Word) (s : State) (hs : Kept m₀ s.held) :
    KeptBy m₀ (runOp op t env ps s) :=
  runPacket_kept _ (fun o h => by cases h; exact ho) _ _ (by simp [hs])
theorem opPing_keeps : opPing.Keeps := by
  intro k s j m₀ t hs
  simp [opPing, hs]
theorem opHello_keeps : opHello.Keeps := by
  intro k s j m₀ t hs
  simp [opHello, hs]
theorem opGoodbye_keeps : opGoodbye.Keeps := by
  intro k s j m₀ t hs
  unfold opGoodbye; dsimp only; repeat' split
  all_goals simp [hs]
theorem opEventAck_keeps : opEventAck.Keeps := by
  intro k s j m₀ t hs
  unfold opEventAck; dsimp only; repeat' split
  all_goals simp [hs]
theorem opEventResync_keeps : opEventResync.Keeps := by
  intro k s j m₀ t hs
  unfold opEventResync; dsimp only; repeat' split
  all_goals simp [hs]
theorem execPing_kept {m₀ : Held} (t : Lapse) (env : Env) (ps : List Word) (s : State)
    (hs : Kept m₀ s.held) :
    KeptBy m₀ (execPing t env ps s) := runOp_kept _ opPing_keeps _ _ _ _ hs
theorem execHello_kept {m₀ : Held} (t : Lapse) (env : Env) (ps : List Word) (s : State)
    (hs : Kept m₀ s.held) :
    KeptBy m₀ (execHello t env ps s) := runOp_kept _ opHello_keeps _ _ _ _ hs
theorem execGoodbye_kept {m₀ : Held} (t : Lapse) (env : Env) (ps : List Word) (s : State)
    (hs : Kept m₀ s.held) :
    KeptBy m₀ (execGoodbye t env ps s) := runOp_kept _ opGoodbye_keeps _ _ _ _ hs
theorem execEventAck_kept {m₀ : Held} (t : Lapse) (env : Env) (ps : List Word) (s : State)
    (hs : Kept m₀ s.held) :
    KeptBy m₀ (execEventAck t env ps s) := runOp_kept _ opEventAck_keeps _ _ _ _ hs
theorem execEventResync_kept {m₀ : Held} (t : Lapse) (env : Env) (ps : List Word) (s : State)
    (hs : Kept m₀ s.held) :
    KeptBy m₀ (execEventResync t env ps s) := runOp_kept _ opEventResync_keeps _ _ _ _ hs

/-! Time -/

theorem execLeapChange_kept {m₀ : Held} (t : Lapse) (s : State) (hs : Kept m₀ s.held) :
    KeptBy m₀ (execLeapChange t s) := by simp [execLeapChange, hs]
theorem execSlewDecision_kept {m₀ : Held} (t : Lapse) (s : State) (hs : Kept m₀ s.held) :
    KeptBy m₀ (execSlewDecision t s) := by simp [execSlewDecision, hs]
theorem execSlewEnd_kept {m₀ : Held} (t : Lapse) (s : State) (hs : Kept m₀ s.held) :
    KeptBy m₀ (execSlewEnd t s) := by simp [execSlewEnd, hs]
theorem opTimeStepPermit_keeps : opTimeStepPermit.Keeps := by
  intro k s j m₀ t hs
  unfold opTimeStepPermit; dsimp only; repeat' split
  all_goals simp [hs]
theorem execTimeStepPermit_kept {m₀ : Held} (t : Lapse) (env : Env) (ps : List Word) (s : State)
    (hs : Kept m₀ s.held) :
    KeptBy m₀ (execTimeStepPermit t env ps s) := runOp_kept _ opTimeStepPermit_keeps _ _ _ _ hs
theorem opAidTime_keeps : opAidTime.Keeps := by
  intro k s
  unfold opAidTime; dsimp only
  split
  · exact badParam_keeps _
  split
  · exact reason_keeps _ _
  intro j m₀ t hs
  rw [doneWith_act]
  exact kept_ite (kept_ite (by simp [hs]) (by simp [hs])) (kept_ite (by simp [hs]) (by simp [hs]))
theorem execAidTime_kept {m₀ : Held} (t : Lapse) (env : Env) (ps : List Word) (s : State)
    (hs : Kept m₀ s.held) :
    KeptBy m₀ (execAidTime t env ps s) := runOp_kept _ opAidTime_keeps _ _ _ _ hs

/-! Sinks -/

@[simp] theorem writeHeader_kept {m₀ : Held} (n : Nat) (s : State) (hs : Kept m₀ s.held) :
    Kept m₀ (s.writeHeader n).held := by simp [State.writeHeader, hs]
@[simp] theorem startPort_kept {m₀ : Held} (n : Nat) (ts : Qval) (s : State) (hs : Kept m₀ s.held) :
    Kept m₀ (s.startPort n ts).held := by simp [State.startPort, hs]
@[simp] theorem stopPort_kept {m₀ : Held} (n why : Nat) (s : State) (hs : Kept m₀ s.held) :
    Kept m₀ (s.stopPort n why).held := by simp [State.stopPort, hs]

/-! Quantities -/

@[simp] theorem applyQcfg_kept {m₀ : Held} (n : Nat) (c0 c1 c2 c3 c4 : Word) (s : State)
    (hs : Kept m₀ s.held) :
    Kept m₀ (s.applyQcfg n c0 c1 c2 c3 c4).held := by
  unfold State.applyQcfg; dsimp only; repeat' split
  all_goals simp +contextual [hs]
theorem execQuadCount_kept {m₀ : Held} (t : Lapse) (n : Nat) (isB level : Bool) (s : State)
    (hs : Kept m₀ s.held) :
    KeptBy m₀ (execQuadCount t n isB level s) := by simp [execQuadCount, hs]
theorem execQuadIndex_kept {m₀ : Held} (t : Lapse) (n : Nat) (s : State) (hs : Kept m₀ s.held) :
    KeptBy m₀ (execQuadIndex t n s) := by
  unfold execQuadIndex; dsimp only; repeat' split
  all_goals simp [hs]
theorem execQuadIllegal_kept {m₀ : Held} (t : Lapse) (n : Nat) (s : State) (hs : Kept m₀ s.held) :
    KeptBy m₀ (execQuadIllegal t n s) := by simp [execQuadIllegal, hs]
theorem execSsiFrame_kept {m₀ : Held} (t : Lapse) (n : Nat) (data : Nat) (err low : Bool)
    (s : State) (hs : Kept m₀ s.held) :
    KeptBy m₀ (execSsiFrame t n data err low s) := by simp [execSsiFrame, hs]
theorem execTachPulse_kept {m₀ : Held} (t : Lapse) (n : Nat) (s : State) (hs : Kept m₀ s.held) :
    KeptBy m₀ (execTachPulse t n s) := by simp [execTachPulse, hs]
theorem execMainsZeroCrossing_kept {m₀ : Held} (t : Lapse) (positive : Bool) (phase : Word)
    (s : State) (hs : Kept m₀ s.held) :
    KeptBy m₀ (execMainsZeroCrossing t positive phase s) := by
  simp only [execMainsZeroCrossing]; split <;> simp [hs]
theorem execRef1ppsPulse_kept {m₀ : Held} (t : Lapse) (s : State) (hs : Kept m₀ s.held) :
    KeptBy m₀ (execRef1ppsPulse t s) := by simp [execRef1ppsPulse, hs]
theorem execQtyTimeout_kept {m₀ : Held} (t : Lapse) (n : Nat) (s : State) (hs : Kept m₀ s.held) :
    KeptBy m₀ (execQtyTimeout t n s) := by simp only [execQtyTimeout]; split <;> simp [hs]
theorem execDirectPathCopy_kept {m₀ : Held} (t : Lapse) (s : State) (hs : Kept m₀ s.held) :
    KeptBy m₀ (execDirectPathCopy t s) := by simp [execDirectPathCopy, hs]
theorem opQtyConfig_keeps : opQtyConfig.Keeps := by
  intro k s j m₀ t hs
  unfold opQtyConfig; dsimp only; repeat' split
  all_goals simp [hs]
theorem execQtyConfig_kept {m₀ : Held} (t : Lapse) (env : Env) (ps : List Word) (s : State)
    (hs : Kept m₀ s.held) :
    KeptBy m₀ (execQtyConfig t env ps s) := runOp_kept _ opQtyConfig_keeps _ _ _ _ hs
theorem opQtyRead_keeps : opQtyRead.Keeps := by
  intro k s j m₀ t hs
  unfold opQtyRead; dsimp only; repeat' split
  all_goals simp [hs]
theorem execQtyRead_kept {m₀ : Held} (t : Lapse) (env : Env) (ps : List Word) (s : State)
    (hs : Kept m₀ s.held) :
    KeptBy m₀ (execQtyRead t env ps s) := runOp_kept _ opQtyRead_keeps _ _ _ _ hs

/-! Outputs -/

theorem opPulseConfig_keeps : opPulseConfig.Keeps := by
  intro k s j m₀ t hs
  unfold opPulseConfig; dsimp only; repeat' split
  all_goals simp [hs]
theorem execPulseConfig_kept {m₀ : Held} (t : Lapse) (env : Env) (ps : List Word) (s : State)
    (hs : Kept m₀ s.held) :
    KeptBy m₀ (execPulseConfig t env ps s) := runOp_kept _ opPulseConfig_keeps _ _ _ _ hs
theorem execOutConfigEffect_kept {m₀ : Held} (t : Lapse) (n : Nat) (s : State) (hs : Kept m₀ s.held)
    :
    KeptBy m₀ (execOutConfigEffect t n s) := by simp only [execOutConfigEffect]; split <;> simp [hs]
theorem execTpgEdge_kept {m₀ : Held} (t : Lapse) (n : Nat) (s : State) (hs : Kept m₀ s.held) :
    KeptBy m₀ (execTpgEdge t n s) := by simp only [execTpgEdge]; split <;> simp [hs]
theorem execOutSquelch_kept {m₀ : Held} (t : Lapse) (n : Nat) (s : State) (hs : Kept m₀ s.held) :
    KeptBy m₀ (execOutSquelch t n s) := by simp [execOutSquelch, hs]
theorem execOutResume_kept {m₀ : Held} (t : Lapse) (n : Nat) (s : State) (hs : Kept m₀ s.held) :
    KeptBy m₀ (execOutResume t n s) := by simp [execOutResume, hs]

/-! Clocks -/

theorem execPllUnlock_kept {m₀ : Held} (t : Lapse) (p : Nat) (s : State) (hs : Kept m₀ s.held) :
    KeptBy m₀ (execPllUnlock t p s) := by simp [execPllUnlock, hs]
theorem execPllHold_kept {m₀ : Held} (t : Lapse) (p : Nat) (s : State) (hs : Kept m₀ s.held) :
    KeptBy m₀ (execPllHold t p s) := by simp [execPllHold, hs]
theorem execPllNoLock_kept {m₀ : Held} (t : Lapse) (p : Nat) (s : State) (hs : Kept m₀ s.held) :
    KeptBy m₀ (execPllNoLock t p s) := by simp [execPllNoLock, hs]
theorem execOcxoLost_kept {m₀ : Held} (t : Lapse) (s : State) (hs : Kept m₀ s.held) :
    KeptBy m₀ (execOcxoLost t s) := by simp [execOcxoLost, hs]
theorem execOcxoFailed_kept {m₀ : Held} (t : Lapse) (s : State) (hs : Kept m₀ s.held) :
    KeptBy m₀ (execOcxoFailed t s) := by simp only [execOcxoFailed]; split <;> simp [hs]
theorem execOcxoBack_kept {m₀ : Held} (t : Lapse) (warm : Bool) (s : State) (hs : Kept m₀ s.held) :
    KeptBy m₀ (execOcxoBack t warm s) := by simp [execOcxoBack, hs]
theorem execOcxoWarm_kept {m₀ : Held} (t : Lapse) (temp : Int) (s : State) (hs : Kept m₀ s.held) :
    KeptBy m₀ (execOcxoWarm t temp s) := by simp [execOcxoWarm, hs]
theorem execFreqPointChange_kept {m₀ : Held} (t : Lapse) (i pt : Nat) (s : State)
    (hs : Kept m₀ s.held) :
    KeptBy m₀ (execFreqPointChange t i pt s) := by simp [execFreqPointChange, hs]
theorem execVoltPointChange_kept {m₀ : Held} (t : Lapse) (i pt : Nat) (s : State)
    (hs : Kept m₀ s.held) :
    KeptBy m₀ (execVoltPointChange t i pt s) := by simp [execVoltPointChange, hs]
theorem execVoltageSettled_kept {m₀ : Held} (t : Lapse) (i : Nat) (s : State) (hs : Kept m₀ s.held)
    :
    KeptBy m₀ (execVoltageSettled t i s) := by simp only [execVoltageSettled]; split <;> simp [hs]

/-! Sched -/

theorem opSchedAdd_keeps : opSchedAdd.Keeps := by
  intro k s j m₀ t hs
  unfold opSchedAdd; dsimp only; repeat' split
  all_goals simp [hs]
theorem execSchedAdd_kept {m₀ : Held} (t : Lapse) (env : Env) (ps : List Word) (s : State)
    (hs : Kept m₀ s.held) :
    KeptBy m₀ (execSchedAdd t env ps s) := runOp_kept _ opSchedAdd_keeps _ _ _ _ hs
@[simp] theorem deliver_kept {m₀ : Held} (e : Event) (rel tx : Qval) (late clkq : Bool) (s : State)
    (hs : Kept m₀ s.held) :
    Kept m₀ (s.deliver e rel tx late clkq).held := by
  unfold State.deliver; split
  · rw [leadEdge_held]; exact hs
  · rw [pushStart_held]; exact hs
  · exact foldl_kept _ (fun a p ha => startPort_kept _ _ _ ha) _ _ hs
  · exact hs
@[simp] theorem releaseAt_kept {m₀ : Held} (e : Event) (tx : Qval)
    (byUpdate late step invalid outage : Bool) (s : State) (hs : Kept m₀ s.held) :
    Kept m₀ (s.releaseAt e tx byUpdate late step invalid outage).held := by
  simp [State.releaseAt, hs]
@[simp] theorem releaseDue_kept {m₀ : Held} (e : Event) (s : State) (hs : Kept m₀ s.held) :
    Kept m₀ (s.releaseDue e).held := by simp [State.releaseDue, hs]
theorem execOccurrenceRelease_kept {m₀ : Held} (t : Lapse) (jsn : Word) (s : State)
    (hs : Kept m₀ s.held) :
    KeptBy m₀ (execOccurrenceRelease t jsn s) := by
  simp only [execOccurrenceRelease]; split <;> simp [hs]
theorem execOccurrenceArm_kept {m₀ : Held} (t : Lapse) (jsn : Word) (s : State)
    (hs : Kept m₀ s.held) :
    KeptBy m₀ (execOccurrenceArm t jsn s) := by simp only [execOccurrenceArm]; split <;> simp [hs]
@[simp] theorem cancelEvent_kept {m₀ : Held} (jsn : Nat) (s : State) (hs : Kept m₀ s.held) :
    Kept m₀ (s.cancelEvent jsn).held := by
  unfold State.cancelEvent; dsimp only; repeat' split
  all_goals simp [hs]
theorem opSchedCancel_keeps : opSchedCancel.Keeps := by
  intro k s
  unfold opSchedCancel; dsimp only
  split
  · exact badParam_keeps _
  · split
    · exact notPermitted_keeps _
    · intro j m₀ t hs
      exact foldl_kept _ (fun a e ha => cancelEvent_kept _ _ ha) _ _ hs
theorem execSchedCancel_kept {m₀ : Held} (t : Lapse) (env : Env) (ps : List Word) (s : State)
    (hs : Kept m₀ s.held) :
    KeptBy m₀ (execSchedCancel t env ps s) := runOp_kept _ opSchedCancel_keeps _ _ _ _ hs
theorem opSchedQuery_keeps : opSchedQuery.Keeps := by
  intro k s j m₀ t hs
  unfold opSchedQuery; dsimp only; repeat' split
  all_goals simp [hs]
theorem execSchedQuery_kept {m₀ : Held} (t : Lapse) (env : Env) (ps : List Word) (s : State)
    (hs : Kept m₀ s.held) :
    KeptBy m₀ (execSchedQuery t env ps s) := runOp_kept _ opSchedQuery_keeps _ _ _ _ hs
@[simp] theorem reevaluate_kept {m₀ : Held} (jsn : Nat) (s : State) (hs : Kept m₀ s.held) :
    Kept m₀ (s.reevaluate jsn).held := by
  unfold State.reevaluate; dsimp only; repeat' split
  all_goals simp [hs]
theorem execEventReevaluation_kept {m₀ : Held} (t : Lapse) (s : State) (hs : Kept m₀ s.held) :
    KeptBy m₀ (execEventReevaluation t s) := by
  unfold execEventReevaluation; dsimp only; repeat' split
  all_goals simp +contextual [hs]
theorem execWheelSweep_kept {m₀ : Held} (t : Lapse) (s : State) (hs : Kept m₀ s.held) :
    KeptBy m₀ (execWheelSweep t s) := by
  unfold execWheelSweep; dsimp only; repeat' split
  all_goals simp +contextual [hs]

/-! Lendi -/

theorem execLendiWindowStart_kept {m₀ : Held} (t : Lapse) (l : Nat) (dep4 : Int) (s : State)
    (hs : Kept m₀ s.held) :
    KeptBy m₀ (execLendiWindowStart t l dep4 s) := by
  unfold execLendiWindowStart; dsimp only; repeat' split
  all_goals simp [hs]
theorem execGatewayWindowMarker_kept {m₀ : Held} (t : Lapse) (l : Nat) (wseq : Nat) (arr4 : Int)
    (s : State) (hs : Kept m₀ s.held) :
    KeptBy m₀ (execGatewayWindowMarker t l wseq arr4 s) := by simp [execGatewayWindowMarker, hs]
theorem onFrame_kept {m₀ : Held} (type : Nat) (t : Lapse) (l : Nat) (ws : List Word)
    (f : State → State) (hf : ∀ u, Kept m₀ u.held → Kept m₀ (f u).held) (s : State)
    (hs : Kept m₀ s.held) :
    KeptBy m₀ (onFrame type t l ws f s) := by
  unfold onFrame; dsimp only; split
  · simp [hs]
  · split
    · exact hf _ (by simp [hs])
    · simp [hs]
theorem execLendiFrameDropped_kept {m₀ : Held} (t : Lapse) (l : Nat) (ws : List Word) (s : State)
    (hs : Kept m₀ s.held) :
    KeptBy m₀ (execLendiFrameDropped t l ws s) := by simp [execLendiFrameDropped, hs]
theorem execLink_kept {m₀ : Held} (t : Lapse) (l : Nat) (ws : List Word) (s : State)
    (hs : Kept m₀ s.held) :
    KeptBy m₀ (execLink t l ws s) := onFrame_kept _ _ _ _ _ (fun u hu => by simp [hu]) _ hs
theorem execAck_kept {m₀ : Held} (t : Lapse) (l : Nat) (ws : List Word) (s : State)
    (hs : Kept m₀ s.held) :
    KeptBy m₀ (execAck t l ws s) := onFrame_kept _ _ _ _ _ (fun u hu => by split <;> simp [hu]) _ hs
theorem execCredit_kept {m₀ : Held} (t : Lapse) (l : Nat) (ws : List Word) (s : State)
    (hs : Kept m₀ s.held) :
    KeptBy m₀ (execCredit t l ws s) := onFrame_kept _ _ _ _ _ (fun u hu => by simp [hu]) _ hs
theorem execTstamp_kept {m₀ : Held} (t : Lapse) (l : Nat) (ws : List Word) (s : State)
    (hs : Kept m₀ s.held) :
    KeptBy m₀ (execTstamp t l ws s) := by
  refine onFrame_kept _ _ _ _ _ (fun u hu => ?_) _ hs
  dsimp only; split
  · split
    · simp [hu]
    · exact hu
  · exact hu
theorem execQrep_kept {m₀ : Held} (t : Lapse) (l : Nat) (ws : List Word) (s : State)
    (hs : Kept m₀ s.held) :
    KeptBy m₀ (execQrep t l ws s) := onFrame_kept _ _ _ _ _ (fun u hu => by simp [hu]) _ hs
theorem execResp_kept {m₀ : Held} (t : Lapse) (l : Nat) (ws : List Word) (s : State)
    (hs : Kept m₀ s.held) :
    KeptBy m₀ (execResp t l ws s) := by
  refine onFrame_kept _ _ _ _ _ (fun u hu => ?_) _ hs
  split
  · simp [hu]
  · exact hu
@[simp] theorem endSent_kept {m₀ : Held} (e : Event) (x : Sent) (r : Result) (s : State)
    (hs : Kept m₀ s.held) :
    Kept m₀ (s.endSent e x r).held := by simp [State.endSent, hs]
theorem execUndeliveredLink_kept {m₀ : Held} (t : Lapse) (jsn : Word) (s : State)
    (hs : Kept m₀ s.held) :
    KeptBy m₀ (execUndeliveredLink t jsn s) := by
  unfold execUndeliveredLink; dsimp only; repeat' split
  all_goals simp [hs]
theorem execClass1Outcome_kept {m₀ : Held} (t : Lapse) (jsn : Word) (s : State)
    (hs : Kept m₀ s.held) :
    KeptBy m₀ (execClass1Outcome t jsn s) := by
  unfold execClass1Outcome; dsimp only; repeat' split
  all_goals simp [hs]
theorem execRel_kept {m₀ : Held} (t : Lapse) (l : Nat) (ws : List Word) (s : State)
    (hs : Kept m₀ s.held) :
    KeptBy m₀ (execRel t l ws s) := by
  refine onFrame_kept _ _ _ _ _ (fun u hu => ?_) _ hs
  dsimp only; split
  · exact hu
  · split
    · exact hu
    · simp [hu]
theorem execAckTimeout_kept {m₀ : Held} (t : Lapse) (l : Nat) (s : State) (hs : Kept m₀ s.held) :
    KeptBy m₀ (execAckTimeout t l s) := by simp [execAckTimeout, hs]
theorem execTlockLost_kept {m₀ : Held} (t : Lapse) (l : Nat) (s : State) (hs : Kept m₀ s.held) :
    KeptBy m₀ (execTlockLost t l s) := by simp [execTlockLost, hs]
theorem execLinkDown_kept {m₀ : Held} (t : Lapse) (l : Nat) (cause : Nat) (s : State)
    (hs : Kept m₀ s.held) :
    KeptBy m₀ (execLinkDown t l cause s) := by simp [execLinkDown, hs]
theorem execLinkFailed_kept {m₀ : Held} (t : Lapse) (l : Nat) (s : State) (hs : Kept m₀ s.held) :
    KeptBy m₀ (execLinkFailed t l s) := by simp only [execLinkFailed]; split <;> simp [hs]
theorem execLinkRestored_kept {m₀ : Held} (t : Lapse) (l : Nat) (s : State) (hs : Kept m₀ s.held) :
    KeptBy m₀ (execLinkRestored t l s) := by simp only [execLinkRestored]; split <;> simp [hs]
theorem execRelq_kept {m₀ : Held} (t : Lapse) (jsn : Word) (s : State) (hs : Kept m₀ s.held) :
    KeptBy m₀ (execRelq t jsn s) := by
  unfold execRelq; dsimp only; repeat' split
  all_goals simp [hs]
theorem execRelqTimeout_kept {m₀ : Held} (t : Lapse) (jsn : Word) (s : State) (hs : Kept m₀ s.held)
    :
    KeptBy m₀ (execRelqTimeout t jsn s) := by
  unfold execRelqTimeout; dsimp only; repeat' split
  all_goals simp [hs]
theorem execSendResent_kept {m₀ : Held} (t : Lapse) (jsn : Word) (s : State) (hs : Kept m₀ s.held) :
    KeptBy m₀ (execSendResent t jsn s) := by
  unfold execSendResent; dsimp only; repeat' split
  all_goals simp [hs]
theorem execNoResponse_kept {m₀ : Held} (t : Lapse) (jsn : Word) (s : State) (hs : Kept m₀ s.held) :
    KeptBy m₀ (execNoResponse t jsn s) := by
  unfold execNoResponse; dsimp only; repeat' split
  all_goals simp [hs]
theorem execSendUndelivered_kept {m₀ : Held} (t : Lapse) (jsn : Word) (s : State)
    (hs : Kept m₀ s.held) :
    KeptBy m₀ (execSendUndelivered t jsn s) := by
  simp only [execSendUndelivered]; split <;> simp [hs]
theorem opLendiSend_keeps : opLendiSend.Keeps := by
  intro k s j m₀ t hs
  unfold opLendiSend; dsimp only; repeat' split
  all_goals simp [hs]
theorem execLendiSend_kept {m₀ : Held} (t : Lapse) (env : Env) (ps : List Word) (s : State)
    (hs : Kept m₀ s.held) :
    KeptBy m₀ (execLendiSend t env ps s) := runOp_kept _ opLendiSend_keeps _ _ _ _ hs
theorem opLendiConfig_keeps : opLendiConfig.Keeps := by
  intro k s j m₀ t hs
  unfold opLendiConfig; dsimp only; repeat' split
  all_goals simp [hs]
theorem execLendiConfig_kept {m₀ : Held} (t : Lapse) (env : Env) (ps : List Word) (s : State)
    (hs : Kept m₀ s.held) :
    KeptBy m₀ (execLendiConfig t env ps s) := runOp_kept _ opLendiConfig_keeps _ _ _ _ hs
theorem opLendiPair_keeps : opLendiPair.Keeps := by
  intro k s j m₀ t hs
  unfold opLendiPair; dsimp only; repeat' split
  all_goals simp [hs]
theorem execLendiPair_kept {m₀ : Held} (t : Lapse) (env : Env) (ps : List Word) (s : State)
    (hs : Kept m₀ s.held) :
    KeptBy m₀ (execLendiPair t env ps s) := runOp_kept _ opLendiPair_keeps _ _ _ _ hs
theorem execLendiUnpair_kept {m₀ : Held} (t : Lapse) (env : Env) (ps : List Word) (s : State)
    (hs : Kept m₀ s.held) :
    KeptBy m₀ (execLendiUnpair t env ps s) := runOp_kept _ opLendiPair_keeps _ _ _ _ hs

/-! Smp -/

theorem opSmpConfig_keeps : opSmpConfig.Keeps := by
  intro k s j m₀ t hs
  unfold opSmpConfig; dsimp only; repeat' split
  all_goals simp [hs]
theorem execSmpConfig_kept {m₀ : Held} (t : Lapse) (env : Env) (ps : List Word) (s : State)
    (hs : Kept m₀ s.held) :
    KeptBy m₀ (execSmpConfig t env ps s) := runOp_kept _ opSmpConfig_keeps _ _ _ _ hs
theorem opSmpStart_keeps : opSmpStart.Keeps := by
  intro k s j m₀ t hs
  unfold opSmpStart; dsimp only; repeat' split
  all_goals simp [hs]
theorem execSmpStart_kept {m₀ : Held} (t : Lapse) (env : Env) (ps : List Word) (s : State)
    (hs : Kept m₀ s.held) :
    KeptBy m₀ (execSmpStart t env ps s) := runOp_kept _ opSmpStart_keeps _ _ _ _ hs
theorem execSmpStop_kept {m₀ : Held} (t : Lapse) (env : Env) (ps : List Word) (s : State)
    (hs : Kept m₀ s.held) :
    KeptBy m₀ (execSmpStop t env ps s) := runOp_kept _ opSmpStart_keeps _ _ _ _ hs
theorem execSmpPortStart_kept {m₀ : Held} (t : Lapse) (p : Nat) (s : State) (hs : Kept m₀ s.held) :
    KeptBy m₀ (execSmpPortStart t p s) := by simp only [execSmpPortStart]; split <;> simp [hs]
theorem execSmpPortStop_kept {m₀ : Held} (t : Lapse) (p : Nat) (s : State) (hs : Kept m₀ s.held) :
    KeptBy m₀ (execSmpPortStop t p s) := by simp only [execSmpPortStop]; split <;> simp [hs]
@[simp] theorem applyMask_kept {m₀ : Held} (n : Nat) (m : MaskWait) (j : Nat) (s : State)
    (hs : Kept m₀ s.held) :
    Kept m₀ (s.applyMask n m j).held := by simp [State.applyMask, hs]
theorem opSmpSlotmask_keeps : opSmpSlotmask.Keeps := by
  intro k s
  unfold opSmpSlotmask; dsimp only
  split
  · exact badParam_keeps _
  · split
    · exact notPermitted_keeps _
    · intro j m₀ t hs
      dsimp only; split <;> split <;> simp [hs]
theorem execSmpSlotmask_kept {m₀ : Held} (t : Lapse) (env : Env) (ps : List Word) (s : State)
    (hs : Kept m₀ s.held) :
    KeptBy m₀ (execSmpSlotmask t env ps s) := runOp_kept _ opSmpSlotmask_keeps _ _ _ _ hs
theorem execSmpFrameStart_kept {m₀ : Held} (t : Lapse) (p : Nat) (rising : Bool) (bclk clocks : Nat)
    (line : List (Bool × Bool)) (s : State) (hs : Kept m₀ s.held) :
    KeptBy m₀ (execSmpFrameStart t p rising bclk clocks line s) := by
  unfold execSmpFrameStart; dsimp only; repeat' split
  all_goals simp [hs]
theorem execSmpMissingFrame_kept {m₀ : Held} (t : Lapse) (p bclk : Nat) (s : State)
    (hs : Kept m₀ s.held) :
    KeptBy m₀ (execSmpMissingFrame t p bclk s) := by simp [execSmpMissingFrame, hs]
theorem execSmpAudio_kept {m₀ : Held} (t : Lapse) (p pair : Nat) (s : State) (hs : Kept m₀ s.held) :
    KeptBy m₀ (execSmpAudio t p pair s) := by simp [execSmpAudio, hs]
@[simp] theorem writeSlot_kept {m₀ : Held} (n j : Nat) (c : Place) (all : Bool) (fs : List InFrame)
    (k : Nat) (s : State) (hs : Kept m₀ s.held) :
    Kept m₀ (s.writeSlot n j c all fs k).held := by simp [State.writeSlot, hs]
theorem execSmpSampleWrite_kept {m₀ : Held} (t : Lapse) (p : Nat) (s : State) (hs : Kept m₀ s.held)
    :
    KeptBy m₀ (execSmpSampleWrite t p s) := by
  have h1 : Kept m₀ (s.elapse t).held := by simp [hs]
  unfold execSmpSampleWrite; dsimp only
  split
  · exact h1
  · refine keptBy_ite (kept_ite ?_ ?_) h1
    · rw [raiseLimited_held]; apply writeHeader_kept; rw [setSmp_held]
      exact foldl_kept _ (fun a k ha => writeSlot_kept _ _ _ _ _ _ _ ha) _ _ h1
    · apply writeHeader_kept; rw [setSmp_held]
      exact foldl_kept _ (fun a k ha => writeSlot_kept _ _ _ _ _ _ _ ha) _ _ h1
@[simp] theorem stepPort_kept {m₀ : Held} (n : Nat) (old : Qval) (delta : Int) (s : State)
    (hs : Kept m₀ s.held) :
    Kept m₀ (s.stepPort n old delta).held := by simp [State.stepPort, hs]

/-! Steps -/

theorem execStepAnnounce_kept {m₀ : Held} (t : Lapse) (s : State) (hs : Kept m₀ s.held) :
    KeptBy m₀ (execStepAnnounce t s) := by
  have h1 : (s.elapse t).held = s.held := elapse_held ..
  unfold execStepAnnounce; dsimp only; split
  · split
    · rw [keptBy_next, foldl_held _ (fun a i => record_held ..), foldl_held _ (fun a l => ?_), putTb_held, h1]
      · exact hs
      · split
        · exact setLnk_held ..
        · rfl
    · rw [keptBy_next, h1]; exact hs
  · rw [keptBy_next, h1]; exact hs
theorem execStepApply_kept {m₀ : Held} (t : Lapse) (s : State) (hs : Kept m₀ s.held) :
    KeptBy m₀ (execStepApply t s) := by
  unfold execStepApply
  extract_lets +onlyGivenNames u
  have hu : Kept m₀ u.held := by simp [u, hs]
  clear_value u
  split
  · refine keptBy_ite ?_ hu
    extract_lets +onlyGivenNames old new src a b first c
    have hb : Kept m₀ b.held := by
      rw [show b.held = a.held from (feed_held ..).trans (shiftStamps_held ..), show a.held = u.held from putTb_held ..]; exact hu
    have hc : Kept m₀ c.held := by rw [show c.held = b.held from foldl_held _ (fun x n => setOut_held ..) _ _]; exact hb
    clear_value c first b a src
    extract_lets +onlyGivenNames d e f src g i
    have hd : Kept m₀ d.held := foldl_kept _ (fun x p hx => stepPort_kept _ _ _ _ hx) _ _ hc
    have he : Kept m₀ e.held := by rw [show e.held = d.held from foldl_held _ (fun x l => setLnk_held ..) _ _]; exact hd
    have hf : Kept m₀ f.held := kept_ite (by rw [setTsrc_held]; exact he) he
    have hg : Kept m₀ g.held := kept_ite hf (by rw [putTb_held]; exact hf)
    have hi : Kept m₀ i.held := kept_ite hg (by rw [endSteering_held]; exact hg)
    exact kept_ite (by rw [takeLeap_held]; exact hi) hi
  · exact hu

/-! Dsp -/

theorem opDspLoad_keeps : opDspLoad.Keeps := by
  intro k s j m₀ t hs
  unfold opDspLoad; dsimp only; repeat' split
  all_goals simp [hs]
theorem execDspLoadData_kept {m₀ : Held} (t : Lapse) (env : Env) (ps : List Word) (s : State)
    (hs : Kept m₀ s.held) :
    KeptBy m₀ (execDspLoadData t env ps s) := runOp_kept _ opDspLoad_keeps _ _ _ _ hs
theorem execDspLoadCommit_kept {m₀ : Held} (t : Lapse) (env : Env) (ps : List Word) (s : State)
    (hs : Kept m₀ s.held) :
    KeptBy m₀ (execDspLoadCommit t env ps s) := runOp_kept _ opDspLoad_keeps _ _ _ _ hs
theorem execDspLoadUnload_kept {m₀ : Held} (t : Lapse) (env : Env) (ps : List Word) (s : State)
    (hs : Kept m₀ s.held) :
    KeptBy m₀ (execDspLoadUnload t env ps s) := runOp_kept _ opDspLoad_keeps _ _ _ _ hs
theorem opDspTask_keeps : opDspTask.Keeps := by
  intro k s
  unfold opDspTask; dsimp only
  split
  · exact badParam_keeps _
  split
  · split
    · exact notPermitted_keeps _
    · split
      · exact reason_keeps _ _
      · intro j m₀ t hs
        rw [acceptWith_act]; split
        · simp [hs]
        · simp [hs]
  · split
    · exact notPermitted_keeps _
    · split
      · exact notPermitted_keeps _
      · split
        · exact reason_keeps _ _
        · intro j m₀ t hs; simp [hs]
theorem execDspTaskStart_kept {m₀ : Held} (t : Lapse) (env : Env) (ps : List Word) (s : State)
    (hs : Kept m₀ s.held) :
    KeptBy m₀ (execDspTaskStart t env ps s) := runOp_kept _ opDspTask_keeps _ _ _ _ hs
theorem execDspTaskAbort_kept {m₀ : Held} (t : Lapse) (env : Env) (ps : List Word) (s : State)
    (hs : Kept m₀ s.held) :
    KeptBy m₀ (execDspTaskAbort t env ps s) := runOp_kept _ opDspTask_keeps _ _ _ _ hs
theorem execTaskStart_kept {m₀ : Held} (t : Lapse) (k : Nat) (s : State) (hs : Kept m₀ s.held) :
    KeptBy m₀ (execTaskStart t k s) := by simp only [execTaskStart]; split <;> simp [hs]
theorem execBudget_kept {m₀ : Held} (t : Lapse) (k : Nat) (s : State) (hs : Kept m₀ s.held) :
    KeptBy m₀ (execBudget t k s) := by simp only [execBudget]; split <;> simp [hs]
theorem execIllegal_kept {m₀ : Held} (t : Lapse) (k : Nat) (s : State) (hs : Kept m₀ s.held) :
    KeptBy m₀ (execIllegal t k s) := by simp [execIllegal, hs]
theorem execUserCoreFailed_kept {m₀ : Held} (t : Lapse) (k : Nat) (s : State) (hs : Kept m₀ s.held)
    :
    KeptBy m₀ (execUserCoreFailed t k s) := by simp [execUserCoreFailed, hs]
theorem execCoreHeartbeatLoss_kept {m₀ : Held} (t : Lapse) (c : Nat) (s : State)
    (hs : Kept m₀ s.held) :
    KeptBy m₀ (execCoreHeartbeatLoss t c s) := by simp [execCoreHeartbeatLoss, hs]

/-! Banks -/

@[simp] theorem memWrite_kept {m₀ : Held} (r : MemReq) (w : Word) (s : State) (hs : Kept m₀ s.held)
    :
    Kept m₀ (s.memWrite r w).held := by
  unfold State.memWrite; dsimp only; repeat' split
  all_goals simp [hs]
@[simp] theorem serveWrites_kept {m₀ : Held} (ws : List MemReq) (s : State) (hs : Kept m₀ s.held) :
    Kept m₀ (s.serveWrites ws).held := by
  unfold State.serveWrites; split
  · refine kept_ite ?_ ?_
    · rw [emit_held, setMem_held _ _ (loses_cells ..)]; exact memWrite_kept _ _ _ hs
    · exact memWrite_kept _ _ _ (memWrite_kept _ _ _ hs)
  · exact memWrite_kept _ _ _ hs
  · exact hs
@[simp] theorem serve_kept {m₀ : Held} (mc b : Nat) (s : State) (hs : Kept m₀ s.held) :
    Kept m₀ (s.serve mc b).held := by simp [State.serve, hs]
@[simp] theorem bankCycle_kept {m₀ : Held} (mc : Nat) (s : State) (hs : Kept m₀ s.held) :
    Kept m₀ (s.bankCycle mc).held := by
  unfold State.bankCycle; dsimp only
  refine (setMem_held _ _ (waits_cells _ _)).symm ▸ ?_
  exact foldl_kept _ (fun a x ha => serve_kept _ _ _ ha) _ _ hs
@[simp] theorem bankCycles_kept {m₀ : Held} (u n : Nat) (s : State) (hs : Kept m₀ s.held) :
    Kept m₀ (s.bankCycles u n).held := by
  induction n generalizing s with
  | zero => exact hs
  | succ n ih =>
    unfold State.bankCycles; split
    · exact hs
    · exact ih _ (bankCycle_kept _ _ hs)
@[simp] theorem toNow_kept {m₀ : Held} (s : State) (hs : Kept m₀ s.held) :
    Kept m₀ (s.toNow).held := by simp [State.toNow, hs]
@[simp] theorem awaitRead_kept {m₀ : Held} (x : BankReq) (n : Nat) (s : State) (hs : Kept m₀ s.held)
    :
    Kept m₀ (s.awaitRead x n).1.held := by
  induction n generalizing s with
  | zero => exact hs
  | succ n ih =>
    unfold State.awaitRead; dsimp only; split
    · exact bankCycle_kept _ _ hs
    · exact ih _ (bankCycle_kept _ _ hs)
@[simp] theorem busRead_kept {m₀ : Held} (master a : Nat) (s : State) (hs : Kept m₀ s.held) :
    Kept m₀ (s.busRead master a).1.held := by
  have ht := toNow_kept s hs
  have key : ∀ (t : State) (x : BankReq) (c n : Nat) (rs : List MemReq), Kept m₀ t.held → Kept m₀ (State.awaitRead x n ((t.setMem { t.mem with cycle := c }).issue c rs)).1.held :=
    fun t x c n rs h => awaitRead_kept _ _ _ (by simpa using h)
  exact key _ _ _ _ _ ht
@[simp] theorem busWrite_kept {m₀ : Held} (master a : Nat) (w : Word) (s : State)
    (hs : Kept m₀ s.held) :
    Kept m₀ (s.busWrite master a w).held := by simp [State.busWrite, hs]

/-! UserCore -/

@[simp] theorem fetched_kept {m₀ : Held} (k : Nat) (s : State) (hs : Kept m₀ s.held) :
    Kept m₀ (s.fetched k).held := by
  rw [fetched_def]; exact busRead_kept _ _ _ hs
theorem onCore_kept {m₀ : Held} (t : Lapse) (k : Nat) (f : UCore → State → State)
    (hf : ∀ c u, Kept m₀ u.held → Kept m₀ (f c u).held) (s : State) (hs : Kept m₀ s.held) :
    KeptBy m₀ (onCore t k f s) := by
  have h1 : Kept m₀ (s.elapse t).held := by simp [hs]
  unfold onCore; dsimp only; split
  · split
    · split
      · simp [hs]
      · split
        · exact hf _ _ (fetched_kept _ _ h1)
        · exact fetched_kept _ _ h1
    · exact h1
  · exact h1
theorem onRegs_kept {m₀ : Held} (t : Lapse) (k cycles : Nat) (f : UCore → UCore) (s : State)
    (hs : Kept m₀ s.held) :
    KeptBy m₀ (onRegs t k cycles f s) := onCore_kept _ _ _ (fun c u hu => by simp [hu]) _ hs
theorem execNop_kept {m₀ : Held} (t : Lapse) (k : Nat) (s : State) (hs : Kept m₀ s.held) :
    KeptBy m₀ (execNop t k s) := onRegs_kept _ _ _ _ _ hs
theorem execEndTask_kept {m₀ : Held} (t : Lapse) (k : Nat) (s : State) (hs : Kept m₀ s.held) :
    KeptBy m₀ (execEndTask t k s) := onCore_kept _ _ _ (fun c u hu => by simp [hu]) _ hs
@[simp] theorem fetchWord_kept {m₀ : Held} (k : Nat) (isLocal : Bool) (ap : Nat) (c : UCore)
    (s : State) (hs : Kept m₀ s.held) :
    Kept m₀ (s.fetchWord k isLocal ap c).1.held := by unfold State.fetchWord; split <;> simp [hs]
@[simp] theorem stream_kept {m₀ : Held} (k : Nat) (isLocal : Bool) (ap n : Nat) (c : UCore)
    (s : State) (hs : Kept m₀ s.held) :
    Kept m₀ (State.stream k isLocal ap n c s).1.held := by
  induction n generalizing c s with
  | zero => exact hs
  | succ n ih =>
    have hf := fetchWord_kept k isLocal ap c s hs
    unfold State.stream; split
    · next t ht => rw [ht] at hf; exact hf
    · next t w ht =>
      rw [ht] at hf
      have hr := ih (c.bump ap) t hf
      split
      · next u hu => rw [hu] at hr; exact hr
      · next u x hu => rw [hu] at hr; exact hr
theorem execLoad_kept {m₀ : Held} (t : Lapse) (k : Nat) (isLocal : Bool) (ap dd : Nat) (modf : Bool)
    (s : State) (hs : Kept m₀ s.held) :
    KeptBy m₀ (execLoad t k isLocal ap dd modf s) := by
  refine onCore_kept _ _ _ (fun c u hu => ?_) _ hs
  have hf := fetchWord_kept k isLocal ap c u hu
  dsimp only; split
  · next ht => rw [ht] at hf; exact hf
  · next ht => rw [ht] at hf; simpa using hf
theorem execStore_kept {m₀ : Held} (t : Lapse) (k : Nat) (isLocal : Bool) (ap dd : Nat)
    (modf : Bool) (s : State) (hs : Kept m₀ s.held) :
    KeptBy m₀ (execStore t k isLocal ap dd modf s) :=
  onCore_kept _ _ _ (fun c u hu => by simp [hu]) _ hs
theorem execDmac_kept {m₀ : Held} (t : Lapse) (k : Nat) (m0 m1 : MacHalf) (la lb : Option MacLoad)
    (s : State) (hs : Kept m₀ s.held) :
    KeptBy m₀ (execDmac t k m0 m1 la lb s) := onRegs_kept _ _ _ _ _ hs
theorem aluInstr_kept {m₀ : Held} (t : Lapse) (k : Nat) (op : AluOp) (dd : Nat)
    (f : UCore → Word × Word) (s : State) (hs : Kept m₀ s.held) :
    KeptBy m₀ (aluInstr t k op dd f s) := onCore_kept _ _ _ (fun c u hu => by simp [hu]) _ hs
theorem execAdd_kept {m₀ : Held} (t : Lapse) (k dd da db : Nat) (s : State) (hs : Kept m₀ s.held) :
    KeptBy m₀ (execAdd t k dd da db s) := aluInstr_kept _ _ _ _ _ _ hs
theorem execSub_kept {m₀ : Held} (t : Lapse) (k dd da db : Nat) (s : State) (hs : Kept m₀ s.held) :
    KeptBy m₀ (execSub t k dd da db s) := aluInstr_kept _ _ _ _ _ _ hs
theorem execAnd_kept {m₀ : Held} (t : Lapse) (k dd da db : Nat) (s : State) (hs : Kept m₀ s.held) :
    KeptBy m₀ (execAnd t k dd da db s) := aluInstr_kept _ _ _ _ _ _ hs
theorem execOr_kept {m₀ : Held} (t : Lapse) (k dd da db : Nat) (s : State) (hs : Kept m₀ s.held) :
    KeptBy m₀ (execOr t k dd da db s) := aluInstr_kept _ _ _ _ _ _ hs
theorem execXor_kept {m₀ : Held} (t : Lapse) (k dd da db : Nat) (s : State) (hs : Kept m₀ s.held) :
    KeptBy m₀ (execXor t k dd da db s) := aluInstr_kept _ _ _ _ _ _ hs
theorem execShl_kept {m₀ : Held} (t : Lapse) (k dd da db : Nat) (s : State) (hs : Kept m₀ s.held) :
    KeptBy m₀ (execShl t k dd da db s) := aluInstr_kept _ _ _ _ _ _ hs
theorem execShr_kept {m₀ : Held} (t : Lapse) (k dd da db : Nat) (s : State) (hs : Kept m₀ s.held) :
    KeptBy m₀ (execShr t k dd da db s) := aluInstr_kept _ _ _ _ _ _ hs
theorem execSar_kept {m₀ : Held} (t : Lapse) (k dd da db : Nat) (s : State) (hs : Kept m₀ s.held) :
    KeptBy m₀ (execSar t k dd da db s) := aluInstr_kept _ _ _ _ _ _ hs
theorem execCmp_kept {m₀ : Held} (t : Lapse) (k dd da db : Nat) (s : State) (hs : Kept m₀ s.held) :
    KeptBy m₀ (execCmp t k dd da db s) := aluInstr_kept _ _ _ _ _ _ hs
theorem execAbs_kept {m₀ : Held} (t : Lapse) (k dd da db : Nat) (s : State) (hs : Kept m₀ s.held) :
    KeptBy m₀ (execAbs t k dd da db s) := aluInstr_kept _ _ _ _ _ _ hs
theorem execNeg_kept {m₀ : Held} (t : Lapse) (k dd da db : Nat) (s : State) (hs : Kept m₀ s.held) :
    KeptBy m₀ (execNeg t k dd da db s) := aluInstr_kept _ _ _ _ _ _ hs
theorem execMin_kept {m₀ : Held} (t : Lapse) (k dd da db : Nat) (s : State) (hs : Kept m₀ s.held) :
    KeptBy m₀ (execMin t k dd da db s) := aluInstr_kept _ _ _ _ _ _ hs
theorem execMax_kept {m₀ : Held} (t : Lapse) (k dd da db : Nat) (s : State) (hs : Kept m₀ s.held) :
    KeptBy m₀ (execMax t k dd da db s) := aluInstr_kept _ _ _ _ _ _ hs
theorem execAlui_kept {m₀ : Held} (t : Lapse) (k : Nat) (op : AluOp) (dd da : Nat) (imm : Addr)
    (s : State) (hs : Kept m₀ s.held) :
    KeptBy m₀ (execAlui t k op dd da imm s) := aluInstr_kept _ _ _ _ _ _ hs
theorem execClr_kept {m₀ : Held} (t : Lapse) (k ak : Nat) (s : State) (hs : Kept m₀ s.held) :
    KeptBy m₀ (execClr t k ak s) := onRegs_kept _ _ _ _ _ hs
theorem execExt_kept {m₀ : Held} (t : Lapse) (k dd ak sh rnd : Nat) (sat : Bool) (s : State)
    (hs : Kept m₀ s.held) :
    KeptBy m₀ (execExt t k dd ak sh rnd sat s) :=
  onCore_kept _ _ _ (fun c u hu => by simp [hu]) _ hs
theorem execMova_kept {m₀ : Held} (t : Lapse) (k ak dd : Nat) (s : State) (hs : Kept m₀ s.held) :
    KeptBy m₀ (execMova t k ak dd s) := onRegs_kept _ _ _ _ _ hs
theorem execSbc_kept {m₀ : Held} (t : Lapse) (k dd ak : Nat) (s : State) (hs : Kept m₀ s.held) :
    KeptBy m₀ (execSbc t k dd ak s) := onRegs_kept _ _ _ _ _ hs
theorem execNorm_kept {m₀ : Held} (t : Lapse) (k ak sh : Nat) (s : State) (hs : Kept m₀ s.held) :
    KeptBy m₀ (execNorm t k ak sh s) := onRegs_kept _ _ _ _ _ hs
theorem vecInstr_kept {m₀ : Held} (t : Lapse) (k : Nat) (better : Word → Word → Bool) (none_ : Word)
    (ap : Nat) (isLocal : Bool) (dn dd : Nat) (s : State) (hs : Kept m₀ s.held) :
    KeptBy m₀ (vecInstr t k better none_ ap isLocal dn dd s) := by
  refine onCore_kept _ _ _ (fun c u hu => ?_) _ hs
  have hf := stream_kept k isLocal ap (c.dr dn).toNat c u hu
  dsimp only; split
  · simpa using hu
  · split
    · next ht => rw [ht] at hf; exact hf
    · next ht => rw [ht] at hf; simpa using hf
theorem execVmin_kept {m₀ : Held} (t : Lapse) (k : Nat) (uns : Bool) (ap : Nat) (isLocal : Bool)
    (dn dd : Nat) (s : State) (hs : Kept m₀ s.held) :
    KeptBy m₀ (execVmin t k uns ap isLocal dn dd s) := vecInstr_kept _ _ _ _ _ _ _ _ _ hs
theorem execVmax_kept {m₀ : Held} (t : Lapse) (k : Nat) (uns : Bool) (ap : Nat) (isLocal : Bool)
    (dn dd : Nat) (s : State) (hs : Kept m₀ s.held) :
    KeptBy m₀ (execVmax t k uns ap isLocal dn dd s) := vecInstr_kept _ _ _ _ _ _ _ _ _ hs
theorem execVbexp_kept {m₀ : Held} (t : Lapse) (k : Nat) (ap : Nat) (isLocal : Bool) (dn dd : Nat)
    (s : State) (hs : Kept m₀ s.held) :
    KeptBy m₀ (execVbexp t k ap isLocal dn dd s) := by
  refine onCore_kept _ _ _ (fun c u hu => ?_) _ hs
  have hf := stream_kept k isLocal ap (c.dr dn).toNat c u hu
  dsimp only; split
  · next ht => rw [ht] at hf; exact hf
  · next ht => rw [ht] at hf; simpa using hf
theorem execRot_kept {m₀ : Held} (t : Lapse) (k n dd da : Nat) (s : State) (hs : Kept m₀ s.held) :
    KeptBy m₀ (execRot t k n dd da s) := onCore_kept _ _ _ (fun c u hu => by simp [hu]) _ hs
theorem execFun2_kept {m₀ : Held} (t : Lapse) (k n dd da db : Nat) (s : State) (hs : Kept m₀ s.held)
    :
    KeptBy m₀ (execFun2 t k n dd da db s) := onCore_kept _ _ _ (fun c u hu => by simp [hu]) _ hs
theorem execBr_kept {m₀ : Held} (t : Lapse) (k cond : Nat) (target : Addr) (s : State)
    (hs : Kept m₀ s.held) :
    KeptBy m₀ (execBr t k cond target s) := onCore_kept _ _ _ (fun c u hu => by simp [hu]) _ hs
theorem execLoop_kept {m₀ : Held} (t : Lapse) (k : Nat) (endAddr : Addr) (dn : Nat) (s : State)
    (hs : Kept m₀ s.held) :
    KeptBy m₀ (execLoop t k endAddr dn s) := onCore_kept _ _ _ (fun c u hu => by simp [hu]) _ hs
theorem execMov_kept {m₀ : Held} (t : Lapse) (k : Nat) (dst : MovDst) (src : MovSrc) (s : State)
    (hs : Kept m₀ s.held) :
    KeptBy m₀ (execMov t k dst src s) := onCore_kept _ _ _ (fun c u hu => by simp [hu]) _ hs
theorem execPost_kept {m₀ : Held} (t : Lapse) (k : Nat) (ap : Nat) (isShared : Bool) (dn : Nat)
    (s : State) (hs : Kept m₀ s.held) :
    KeptBy m₀ (execPost t k ap isShared dn s) := by
  refine onCore_kept _ _ _ (fun c u hu => ?_) _ hs
  have hf : ∀ n, Kept m₀ (State.stream k (!isShared) ap n c u).1.held := fun n => stream_kept _ _ _ _ _ _ hu
  dsimp only; split
  · exact hu
  · split
    · simpa using hu
    · split
      · next ht =>
        have hr := hf (if 1 ≤ (c.dr dn).toNat ∧ (c.dr dn).toNat ≤ 256 then (c.dr dn).toNat else Config.freeNat u.fresh % 256 + 1)
        rw [ht] at hr; exact hr
      · next ht =>
        have hr := hf (if 1 ≤ (c.dr dn).toNat ∧ (c.dr dn).toNat ≤ 256 then (c.dr dn).toNat else Config.freeNat u.fresh % 256 + 1)
        rw [ht] at hr; simpa using hr

/-! Mem -/

theorem execMemoryAccess_kept {m₀ : Held} (t : Lapse) (reqs : List MemReq) (s : State)
    (hs : Kept m₀ s.held) :
    KeptBy m₀ (execMemoryAccess t reqs s) := by simp [execMemoryAccess, hs]
theorem execMemRetentionIdle_kept {m₀ : Held} (t : Lapse) (s : State) (hs : Kept m₀ s.held) :
    KeptBy m₀ (execMemRetentionIdle t s) := by simp [execMemRetentionIdle, hs]
theorem execPatrolLease_kept {m₀ : Held} (t : Lapse) (engine : Nat) (ecc : List (Nat × Nat))
    (patternOk : Bool) (s : State) (hs : Kept m₀ s.held) :
    KeptBy m₀ (execPatrolLease t engine ecc patternOk s) := by simp [execPatrolLease, hs]
theorem execBankFailed_kept {m₀ : Held} (t : Lapse) (b : Nat) (s : State) (hs : Kept m₀ s.held) :
    KeptBy m₀ (execBankFailed t b s) := by simp [execBankFailed, hs]
theorem execSpareCopyComplete_kept {m₀ : Held} (t : Lapse) (s : State) (hs : Kept m₀ s.held) :
    KeptBy m₀ (execSpareCopyComplete t s) := by simp [execSpareCopyComplete, hs]

/-! Rf -/

theorem execAntShort_kept {m₀ : Held} (t : Lapse) (a : Nat) (s : State) (hs : Kept m₀ s.held) :
    KeptBy m₀ (execAntShort t a s) := by simp [execAntShort, hs]
theorem execBiasRetry_kept {m₀ : Held} (t : Lapse) (a : Nat) (s : State) (hs : Kept m₀ s.held) :
    KeptBy m₀ (execBiasRetry t a s) := by simp [execBiasRetry, hs]
theorem execRetriesClear_kept {m₀ : Held} (t : Lapse) (a : Nat) (s : State) (hs : Kept m₀ s.held) :
    KeptBy m₀ (execRetriesClear t a s) := by simp [execRetriesClear, hs]
theorem execAntOpen_kept {m₀ : Held} (t : Lapse) (a ma : Nat) (s : State) (hs : Kept m₀ s.held) :
    KeptBy m₀ (execAntOpen t a ma s) := by simp [execAntOpen, hs]
theorem execAntOk_kept {m₀ : Held} (t : Lapse) (a ma : Nat) (s : State) (hs : Kept m₀ s.held) :
    KeptBy m₀ (execAntOk t a ma s) := by simp [execAntOk, hs]
theorem execLoUnlock_kept {m₀ : Held} (t : Lapse) (st : Nat) (s : State) (hs : Kept m₀ s.held) :
    KeptBy m₀ (execLoUnlock t st s) := by simp [execLoUnlock, hs]
theorem execLoRelocked_kept {m₀ : Held} (t : Lapse) (st : Nat) (s : State) (hs : Kept m₀ s.held) :
    KeptBy m₀ (execLoRelocked t st s) := by simp [execLoRelocked, hs]
theorem execFrontEndFailed_kept {m₀ : Held} (t : Lapse) (a : Nat) (s : State) (hs : Kept m₀ s.held)
    :
    KeptBy m₀ (execFrontEndFailed t a s) := by simp [execFrontEndFailed, hs]
theorem execBlankHeavy_kept {m₀ : Held} (t : Lapse) (st frac : Nat) (s : State)
    (hs : Kept m₀ s.held) :
    KeptBy m₀ (execBlankHeavy t st frac s) := by simp [execBlankHeavy, hs]
theorem execBlankHeavyClear_kept {m₀ : Held} (t : Lapse) (st frac : Nat) (s : State)
    (hs : Kept m₀ s.held) :
    KeptBy m₀ (execBlankHeavyClear t st frac s) := by simp [execBlankHeavyClear, hs]

/-! Gale -/

@[simp] theorem endJob_kept {m₀ : Held} (status : Nat) (j : Job) (s : State) (hs : Kept m₀ s.held) :
    Kept m₀ (s.endJob status j).held := by simp [State.endJob, hs]
@[simp] theorem galeAbort_kept {m₀ : Held} (s : State) (hs : Kept m₀ s.held) :
    Kept m₀ (s.galeAbort).held := by
  unfold State.galeAbort; dsimp only; repeat' split
  all_goals simp +contextual [hs]
@[simp] theorem galeReady_kept {m₀ : Held} (s : State) (hs : Kept m₀ s.held) :
    Kept m₀ (s.galeReady).held := by
  unfold State.galeReady; dsimp only; simp +contextual [hs]
@[simp] theorem galeDown_kept {m₀ : Held} (d : Nat) (s : State) (hs : Kept m₀ s.held) :
    Kept m₀ (s.galeDown d).held := by simp [State.galeDown, hs]
theorem opGaleJob_keeps : opGaleJob.Keeps := by
  intro k s j m₀ t hs
  unfold opGaleJob; dsimp only; repeat' split
  all_goals simp [hs]
theorem execGaleJob_kept {m₀ : Held} (t : Lapse) (env : Env) (ps : List Word) (s : State)
    (hs : Kept m₀ s.held) :
    KeptBy m₀ (execGaleJob t env ps s) := runOp_kept _ opGaleJob_keeps _ _ _ _ hs
theorem opGaleCancel_keeps : opGaleCancel.Keeps := by
  intro k s
  unfold opGaleCancel; dsimp only
  split
  · exact badParam_keeps _
  · split
    · exact notPermitted_keeps _
    · intro j m₀ t hs
      exact foldl_kept _ (fun a x ha => endJob_kept _ _ _ ha) _ _ hs
theorem execGaleCancel_kept {m₀ : Held} (t : Lapse) (env : Env) (ps : List Word) (s : State)
    (hs : Kept m₀ s.held) :
    KeptBy m₀ (execGaleCancel t env ps s) := runOp_kept _ opGaleCancel_keeps _ _ _ _ hs
theorem execGaleInputTimeout_kept {m₀ : Held} (t : Lapse) (slot : Nat) (s : State)
    (hs : Kept m₀ s.held) :
    KeptBy m₀ (execGaleInputTimeout t slot s) := by
  unfold execGaleInputTimeout; dsimp only; repeat' split
  all_goals simp [hs]
@[simp] theorem watchJob_kept {m₀ : Held} (open_ : List Nat) (q : Nat) (s : State)
    (hs : Kept m₀ s.held) :
    Kept m₀ (s.watchJob open_ q).held := by unfold State.watchJob; split <;> simp [hs]
@[simp] theorem galeBlock_kept {m₀ : Held} (n : Nat) (s : State) (hs : Kept m₀ s.held) :
    Kept m₀ (s.galeBlock n).held := by
  have hw : ∀ (l : List Nat) (f : State → List Nat) (a : State), Kept m₀ a.held → Kept m₀ (l.foldl (fun (s : State) q => s.watchJob (f s) q) a).held :=
    fun l f a => foldl_kept _ (fun b q hb => watchJob_kept _ _ _ hb) l a
  unfold State.galeBlock; dsimp only
  refine hw _ _ _ ?_
  rw [ite_held, foldl_held _ (fun a q => openJob_held ..), ite_self, foldl_held _ (fun a st => setStrm_held ..)]
  refine hw _ _ _ ?_
  rw [onGale_held]; exact hs
theorem execRfBlockBoundary_kept {m₀ : Held} (t : Lapse) (streams : List StreamIn)
    (bias : List (Nat × Nat)) (s : State) (hs : Kept m₀ s.held) :
    KeptBy m₀ (execRfBlockBoundary t streams bias s) := by simp [execRfBlockBoundary, hs]
@[simp] theorem tileDone_kept {m₀ : Held} (began : Nat) (x : Nat × Nat) (s : State)
    (hs : Kept m₀ s.held) :
    Kept m₀ (s.tileDone began x).held := by unfold State.tileDone; split <;> simp [hs]
@[simp] theorem endSlot_kept {m₀ : Held} (e inE outE : Nat) (s : State) (hs : Kept m₀ s.held) :
    Kept m₀ (s.endSlot e inE outE).held := by
  unfold State.endSlot; dsimp only; repeat' split
  all_goals simp +contextual [hs]
theorem execGaleSlot_kept {m₀ : Held} (t : Lapse) (w : GaleWork) (s : State) (hs : Kept m₀ s.held) :
    KeptBy m₀ (execGaleSlot t w s) := by simp [execGaleSlot, hs]

/-! Kite -/

@[simp] theorem kiteVerdict_keeps (id : Nat) (r : Option (Status × Nat)) (who : Nat) (op : KiteOp) :
    (kiteVerdict id r who op).Keeps := by
  intro j m₀ t hs
  unfold kiteVerdict; split <;> simp [hs]
theorem opKiteAssign_keeps : opKiteAssign.Keeps := by
  intro k s; simp [opKiteAssign]
theorem execKiteAssign_kept {m₀ : Held} (t : Lapse) (env : Env) (ps : List Word) (s : State)
    (hs : Kept m₀ s.held) :
    KeptBy m₀ (execKiteAssign t env ps s) := runOp_kept _ opKiteAssign_keeps _ _ _ _ hs
theorem opKiteRelease_keeps : opKiteRelease.Keeps := by
  intro k s; simp [opKiteRelease]
theorem execKiteRelease_kept {m₀ : Held} (t : Lapse) (env : Env) (ps : List Word) (s : State)
    (hs : Kept m₀ s.held) :
    KeptBy m₀ (execKiteRelease t env ps s) := runOp_kept _ opKiteRelease_keeps _ _ _ _ hs
theorem opTrainForm_keeps : opTrainForm.Keeps := by
  intro k s; simp [opTrainForm]
theorem execTrainForm_kept {m₀ : Held} (t : Lapse) (env : Env) (ps : List Word) (s : State)
    (hs : Kept m₀ s.held) :
    KeptBy m₀ (execTrainForm t env ps s) := runOp_kept _ opTrainForm_keeps _ _ _ _ hs
theorem opTrainBreak_keeps : opTrainBreak.Keeps := by
  intro k s; simp [opTrainBreak]
theorem execTrainBreak_kept {m₀ : Held} (t : Lapse) (env : Env) (ps : List Word) (s : State)
    (hs : Kept m₀ s.held) :
    KeptBy m₀ (execTrainBreak t env ps s) := runOp_kept _ opTrainBreak_keeps _ _ _ _ hs
theorem execKiteApplicationTick_kept {m₀ : Held} (t : Lapse) (s : State) (hs : Kept m₀ s.held) :
    KeptBy m₀ (execKiteApplicationTick t s) := by simp [execKiteApplicationTick, hs]
theorem execLostToIdle_kept {m₀ : Held} (t : Lapse) (n : Nat) (s : State) (hs : Kept m₀ s.held) :
    KeptBy m₀ (execLostToIdle t n s) := by simp [execLostToIdle, hs]
theorem execNoPullIn_kept {m₀ : Held} (t : Lapse) (n : Nat) (s : State) (hs : Kept m₀ s.held) :
    KeptBy m₀ (execNoPullIn t n s) := by simp [execNoPullIn, hs]
theorem execCn0Loss_kept {m₀ : Held} (t : Lapse) (n : Nat) (s : State) (hs : Kept m₀ s.held) :
    KeptBy m₀ (execCn0Loss t n s) := by simp only [execCn0Loss]; split <;> simp [hs]
theorem execMemberDrop_kept {m₀ : Held} (t : Lapse) (n : Nat) (s : State) (hs : Kept m₀ s.held) :
    KeptBy m₀ (execMemberDrop t n s) := by simp only [execMemberDrop]; split <;> simp [hs]
theorem execTrainCoastTimeout_kept {m₀ : Held} (t : Lapse) (tr : Nat) (s : State)
    (hs : Kept m₀ s.held) :
    KeptBy m₀ (execTrainCoastTimeout t tr s) := by simp [execTrainCoastTimeout, hs]
theorem execKiteEvaluation_kept {m₀ : Held} (t : Lapse) (s : State) (hs : Kept m₀ s.held) :
    KeptBy m₀ (execKiteEvaluation t s) := by simp [execKiteEvaluation, hs]
theorem execKiteLoopUpdate_kept {m₀ : Held} (t : Lapse) (n : Nat) (ints : List (List (BitVec 8)))
    (s : State) (hs : Kept m₀ s.held) :
    KeptBy m₀ (execKiteLoopUpdate t n ints s) := by
  unfold execKiteLoopUpdate; dsimp only; repeat' split
  all_goals simp [hs]
theorem execD5RetentionTimeout_kept {m₀ : Held} (t : Lapse) (s : State) (hs : Kept m₀ s.held) :
    KeptBy m₀ (execD5RetentionTimeout t s) := by
  simp only [execD5RetentionTimeout]; split <;> simp [hs]
theorem execPllLocked_kept {m₀ : Held} (t : Lapse) (p band search : Nat) (s : State)
    (hs : Kept m₀ s.held) :
    KeptBy m₀ (execPllLocked t p band search s) := by simp [execPllLocked, hs]
theorem execKiteSnapshot_kept {m₀ : Held} (t : Lapse) (ofsPs : Nat) (dumps : List KDump) (s : State)
    (hs : Kept m₀ s.held) :
    KeptBy m₀ (execKiteSnapshot t ofsPs dumps s) := by
  have h1 : Kept m₀ (s.elapse t).held := by simp [hs]
  unfold execKiteSnapshot; dsimp only; split
  · rw [keptBy_next, putKite_held]
    refine memWrites_kept _ _ _ ?_
    exact foldl_inv (fun a : State × List (List Word) => Kept m₀ a.1.held) _ (fun a n ha => by simpa using ha) _ _ h1
  · exact h1

/-! Meas -/

theorem opMeasConfig_keeps : opMeasConfig.Keeps := by
  intro k s j m₀ t hs
  unfold opMeasConfig; dsimp only; repeat' split
  all_goals simp [hs]
theorem execMeasConfig_kept {m₀ : Held} (t : Lapse) (env : Env) (ps : List Word) (s : State)
    (hs : Kept m₀ s.held) :
    KeptBy m₀ (execMeasConfig t env ps s) := runOp_kept _ opMeasConfig_keeps _ _ _ _ hs
theorem execMeasEpoch_kept {m₀ : Held} (t : Lapse) (preds : List ObsIn) (s : State)
    (hs : Kept m₀ s.held) :
    KeptBy m₀ (execMeasEpoch t preds s) := by simp [execMeasEpoch, hs]
theorem opNavbitsConfig_keeps : opNavbitsConfig.Keeps := by
  intro k s j m₀ t hs
  unfold opNavbitsConfig; dsimp only; repeat' split
  all_goals simp [hs]
theorem execNavbitsConfig_kept {m₀ : Held} (t : Lapse) (env : Env) (ps : List Word) (s : State)
    (hs : Kept m₀ s.held) :
    KeptBy m₀ (execNavbitsConfig t env ps s) := runOp_kept _ opNavbitsConfig_keeps _ _ _ _ hs
theorem execNavMessageDecoded_kept {m₀ : Held} (t : Lapse) (n : Nat) (s : State)
    (hs : Kept m₀ s.held) :
    KeptBy m₀ (execNavMessageDecoded t n s) := by
  unfold execNavMessageDecoded; dsimp only; repeat' split
  all_goals simp [hs]
theorem execDedupTimeout_kept {m₀ : Held} (t : Lapse) (partner chan : Nat) (s : State)
    (hs : Kept m₀ s.held) :
    KeptBy m₀ (execDedupTimeout t partner chan s) := by simp [execDedupTimeout, hs]

/-! Modes -/

theorem opModeSet_keeps : opModeSet.Keeps := by
  intro k s j m₀ t hs
  unfold opModeSet; dsimp only; repeat' split
  all_goals simp [hs]
theorem execModeSet_kept {m₀ : Held} (t : Lapse) (env : Env) (ps : List Word) (s : State)
    (hs : Kept m₀ s.held) :
    KeptBy m₀ (execModeSet t env ps s) := runOp_kept _ opModeSet_keeps _ _ _ _ hs
@[simp] theorem dropOwnJobs_kept {m₀ : Held} (s : State) (hs : Kept m₀ s.held) :
    Kept m₀ (s.dropOwnJobs).held := foldl_kept _ (fun _ _ ha => endJob_kept _ _ _ ha) _ _ hs
@[simp] theorem enterMode_kept {m₀ : Held} (at_ : Qval) (new origin : Nat) (ws : List Word)
    (cause jsn who : Nat) (s : State) (hs : Kept m₀ s.held) :
    Kept m₀ (s.enterMode at_ new origin ws cause jsn who).held := by simp [State.enterMode, hs]
@[simp] theorem applyMode_kept {m₀ : Held} (at_ : Qval) (w : ModeWait) (s : State)
    (hs : Kept m₀ s.held) :
    Kept m₀ (s.applyMode at_ w).held := by simp only [State.applyMode]; split <;> simp [hs]
@[simp] theorem modeTick_kept {m₀ : Held} (m : Nat) (s : State) (hs : Kept m₀ s.held) :
    Kept m₀ (s.modeTick m).held := by
  unfold State.modeTick; dsimp only; repeat' split
  all_goals simp +contextual [hs]
theorem execModeTick_kept {m₀ : Held} (t : Lapse) (own : List Own) (s : State) (hs : Kept m₀ s.held)
    :
    KeptBy m₀ (execModeTick t own s) := by simp [execModeTick, hs]
@[simp] theorem modeRestart_kept {m₀ : Held} (s : State) (hs : Kept m₀ s.held) :
    Kept m₀ (s.modeRestart).held := by unfold State.modeRestart; split <;> simp [hs]
@[simp] theorem sleep_kept {m₀ : Held} (s : State) (hs : Kept m₀ s.held) :
    Kept m₀ (s.sleep).held := by simp [State.sleep, hs]
theorem execSnapshotWake_kept {m₀ : Held} (t : Lapse) (own : List Own) (s : State)
    (hs : Kept m₀ s.held) :
    KeptBy m₀ (execSnapshotWake t own s) := by simp [execSnapshotWake, hs]
theorem execFixEnd_kept {m₀ : Held} (t : Lapse) (s : State) (hs : Kept m₀ s.held) :
    KeptBy m₀ (execFixEnd t s) := by simp [execFixEnd, hs]
theorem execSnapshotMiss_kept {m₀ : Held} (t : Lapse) (s : State) (hs : Kept m₀ s.held) :
    KeptBy m₀ (execSnapshotMiss t s) := by simp [execSnapshotMiss, hs]
theorem opModeGet_keeps : opModeGet.Keeps := by
  intro k s j m₀ t hs
  unfold opModeGet; dsimp only; repeat' split
  all_goals simp [hs]
theorem execModeGet_kept {m₀ : Held} (t : Lapse) (env : Env) (ps : List Word) (s : State)
    (hs : Kept m₀ s.held) :
    KeptBy m₀ (execModeGet t env ps s) := runOp_kept _ opModeGet_keeps _ _ _ _ hs
theorem opAidPosition_keeps : opAidPosition.Keeps := by
  intro k s j m₀ t hs
  unfold opAidPosition; dsimp only; repeat' split
  all_goals simp [hs]
theorem execAidPosition_kept {m₀ : Held} (t : Lapse) (env : Env) (ps : List Word) (s : State)
    (hs : Kept m₀ s.held) :
    KeptBy m₀ (execAidPosition t env ps s) := runOp_kept _ opAidPosition_keeps _ _ _ _ hs
theorem opAidOrbit_keeps : opAidOrbit.Keeps := by
  intro k s j m₀ t hs
  unfold opAidOrbit; dsimp only; repeat' split
  all_goals simp [hs]
theorem execAidOrbit_kept {m₀ : Held} (t : Lapse) (env : Env) (ps : List Word) (s : State)
    (hs : Kept m₀ s.held) :
    KeptBy m₀ (execAidOrbit t env ps s) := runOp_kept _ opAidOrbit_keeps _ _ _ _ hs

/-! Solve -/

theorem opSolConfig_keeps : opSolConfig.Keeps := by
  intro k s j m₀ t hs
  unfold opSolConfig; dsimp only; repeat' split
  all_goals simp [hs]
theorem execSolConfig_kept {m₀ : Held} (t : Lapse) (env : Env) (ps : List Word) (s : State)
    (hs : Kept m₀ s.held) :
    KeptBy m₀ (execSolConfig t env ps s) := runOp_kept _ opSolConfig_keeps _ _ _ _ hs
@[simp] theorem surveyEpoch_kept {m₀ : Held} (m : Nat) (s : State) (hs : Kept m₀ s.held) :
    Kept m₀ (s.surveyEpoch m).held := by simp [State.surveyEpoch, hs]
@[simp] theorem searchDone_kept {m₀ : Held} (m : Nat) (s : State) (hs : Kept m₀ s.held) :
    Kept m₀ (s.searchDone m).held := by simp [State.searchDone, hs]
@[simp] theorem solveEpoch_kept {m₀ : Held} (m : Nat) (r : SolveIn) (s : State)
    (hs : Kept m₀ s.held) :
    Kept m₀ (s.solveEpoch m r).held := by simp [State.solveEpoch, hs]
theorem execSolutionEpoch_kept {m₀ : Held} (t : Lapse) (x : SolveIn) (own : List Own) (s : State)
    (hs : Kept m₀ s.held) :
    KeptBy m₀ (execSolutionEpoch t x own s) := by simp [execSolutionEpoch, hs]
theorem execSignalLoss_kept {m₀ : Held} (t : Lapse) (s : State) (hs : Kept m₀ s.held) :
    KeptBy m₀ (execSignalLoss t s) := by
  unfold execSignalLoss; dsimp only; repeat' split
  all_goals simp [hs]
theorem execSignalReturn_kept {m₀ : Held} (t : Lapse) (s : State) (hs : Kept m₀ s.held) :
    KeptBy m₀ (execSignalReturn t s) := by
  unfold execSignalReturn
  extract_lets +onlyGivenNames u m
  have h1 : Kept m₀ u.held := by simp [u, hs]
  clear_value m u
  refine keptBy_ite h1 ?_
  extract_lets +onlyGivenNames v b
  have h2 : Kept m₀ v.held := modeTick_kept _ _ h1
  clear_value b v
  split
  · refine keptBy_ite ?_ h2
    extract_lets +onlyGivenNames after w
    have h3 : Kept m₀ w.held := kept_ite (by rw [recover_held]; exact h2) (kept_ite (by rw [firstTime_held]; exact h2) h2)
    rw [keptBy_next, onModes_held]; exact enterMode_kept _ _ _ _ _ _ _ _ h3
  · exact h2
theorem execHoldMismatch_kept {m₀ : Held} (t : Lapse) (a : Nat) (s : State) (hs : Kept m₀ s.held) :
    KeptBy m₀ (execHoldMismatch t a s) := by simp [execHoldMismatch, hs]
theorem execHeadingEpoch_kept {m₀ : Held} (t : Lapse) (s : State) (hs : Kept m₀ s.held) :
    KeptBy m₀ (execHeadingEpoch t s) := by simp [execHeadingEpoch, hs]

/-! Store -/

theorem execRingCarry_kept {m₀ : Held} (t : Lapse) (n : Nat) (s : State) (hs : Kept m₀ s.held) :
    KeptBy m₀ (execRingCarry t n s) := by simp only [execRingCarry]; split <;> simp [hs]
theorem execMarkFold_kept {m₀ : Held} (t : Lapse) (n : Nat) (s : State) (hs : Kept m₀ s.held) :
    KeptBy m₀ (execMarkFold t n s) := by simp [execMarkFold, hs]
theorem execStoreFailed_kept {m₀ : Held} (t : Lapse) (store : Nat) (s : State) (hs : Kept m₀ s.held)
    :
    KeptBy m₀ (execStoreFailed t store s) := by simp [execStoreFailed, hs]
theorem execRemirrorEnd_kept {m₀ : Held} (t : Lapse) (store : Nat) (s : State) (hs : Kept m₀ s.held)
    :
    KeptBy m₀ (execRemirrorEnd t store s) := by simp [execRemirrorEnd, hs]
theorem opJournalState_keeps : opJournalState.Keeps := by
  intro k s j m₀ t hs
  unfold opJournalState; dsimp only; repeat' split
  all_goals simp [hs]
theorem execJournalState_kept {m₀ : Held} (t : Lapse) (env : Env) (ps : List Word) (s : State)
    (hs : Kept m₀ s.held) :
    KeptBy m₀ (execJournalState t env ps s) := runOp_kept _ opJournalState_keeps _ _ _ _ hs
theorem opJournalQuery_keeps : opJournalQuery.Keeps := by
  intro k s j m₀ t hs
  unfold opJournalQuery; dsimp only; repeat' split
  all_goals simp [hs]
theorem execJournalQuery_kept {m₀ : Held} (t : Lapse) (env : Env) (ps : List Word) (s : State)
    (hs : Kept m₀ s.held) :
    KeptBy m₀ (execJournalQuery t env ps s) := runOp_kept _ opJournalQuery_keeps _ _ _ _ hs

/-! Rtc -/

theorem opRtcSet_keeps : opRtcSet.Keeps := by
  intro k s j m₀ t hs
  unfold opRtcSet; dsimp only; repeat' split
  all_goals simp [hs]
theorem execRtcSet_kept {m₀ : Held} (t : Lapse) (env : Env) (ps : List Word) (s : State)
    (hs : Kept m₀ s.held) :
    KeptBy m₀ (execRtcSet t env ps s) := runOp_kept _ opRtcSet_keeps _ _ _ _ hs
theorem execRtcCommitTick_kept {m₀ : Held} (t : Lapse) (s : State) (hs : Kept m₀ s.held) :
    KeptBy m₀ (execRtcCommitTick t s) := by simp [execRtcCommitTick, hs]
theorem execAutoSync_kept {m₀ : Held} (t : Lapse) (s : State) (hs : Kept m₀ s.held) :
    KeptBy m₀ (execAutoSync t s) := by simp [execAutoSync, hs]
theorem execRtcLeapChange_kept {m₀ : Held} (t : Lapse) (s : State) (hs : Kept m₀ s.held) :
    KeptBy m₀ (execRtcLeapChange t s) := by simp [execRtcLeapChange, hs]
theorem opRtcAlarm_keeps : opRtcAlarm.Keeps := by
  intro k s j m₀ t hs
  unfold opRtcAlarm; dsimp only; repeat' split
  all_goals simp [hs]
theorem execRtcAlarm_kept {m₀ : Held} (t : Lapse) (env : Env) (ps : List Word) (s : State)
    (hs : Kept m₀ s.held) :
    KeptBy m₀ (execRtcAlarm t env ps s) := runOp_kept _ opRtcAlarm_keeps _ _ _ _ hs
theorem execAlarmFire_kept {m₀ : Held} (t : Lapse) (x : Nat) (s : State) (hs : Kept m₀ s.held) :
    KeptBy m₀ (execAlarmFire t x s) := by simp [execAlarmFire, hs]
theorem opRtcTrim_keeps : opRtcTrim.Keeps := by
  have hd : ∀ (ws : List Word) (f : State → State), (∀ u, (f u).held = u.held) → (doneWith ws fun _ u => f u).Keeps :=
    fun ws f hf j m₀ t hs => by rw [doneWith_act, hf]; exact hs
  intro k s
  unfold opRtcTrim
  extract_lets
  refine keeps_ite (badParam_keeps _) (keeps_ite (notPermitted_keeps _) ?_)
  split
  · refine hd _ _ (fun u => ?_)
    rw [setTrim_held, onRtc_held]; split
    · simp
    · simp
  · exact hd _ _ (fun u => by simp)
  · exact hd _ _ (fun u => by simp)
  · exact hd _ _ (fun u => by simp)
  · split
    · exact notPermitted_keeps _
    · exact keeps_ite (badParam_keeps _) (hd _ _ (fun u => by simp))
  · exact hd _ _ (fun u => by simp)
theorem execRtcTrimManual_kept {m₀ : Held} (t : Lapse) (env : Env) (ps : List Word) (s : State)
    (hs : Kept m₀ s.held) :
    KeptBy m₀ (execRtcTrimManual t env ps s) := runOp_kept _ opRtcTrim_keeps _ _ _ _ hs
theorem execRtcTrimMains_kept {m₀ : Held} (t : Lapse) (env : Env) (ps : List Word) (s : State)
    (hs : Kept m₀ s.held) :
    KeptBy m₀ (execRtcTrimMains t env ps s) := runOp_kept _ opRtcTrim_keeps _ _ _ _ hs
theorem execRtcTrimTether_kept {m₀ : Held} (t : Lapse) (env : Env) (ps : List Word) (s : State)
    (hs : Kept m₀ s.held) :
    KeptBy m₀ (execRtcTrimTether t env ps s) := runOp_kept _ opRtcTrim_keeps _ _ _ _ hs
theorem execRtcTrimPartnerOpen_kept {m₀ : Held} (t : Lapse) (env : Env) (ps : List Word) (s : State)
    (hs : Kept m₀ s.held) :
    KeptBy m₀ (execRtcTrimPartnerOpen t env ps s) := runOp_kept _ opRtcTrim_keeps _ _ _ _ hs
theorem execRtcTrimPartnerClose_kept {m₀ : Held} (t : Lapse) (env : Env) (ps : List Word)
    (s : State) (hs : Kept m₀ s.held) :
    KeptBy m₀ (execRtcTrimPartnerClose t env ps s) := runOp_kept _ opRtcTrim_keeps _ _ _ _ hs
theorem execRtcTrimStop_kept {m₀ : Held} (t : Lapse) (env : Env) (ps : List Word) (s : State)
    (hs : Kept m₀ s.held) :
    KeptBy m₀ (execRtcTrimStop t env ps s) := runOp_kept _ opRtcTrim_keeps _ _ _ _ hs
theorem execTrimWindowEnd_kept {m₀ : Held} (t : Lapse) (s : State) (hs : Kept m₀ s.held) :
    KeptBy m₀ (execTrimWindowEnd t s) := by simp only [execTrimWindowEnd]; split <;> simp [hs]
theorem execTrimWindowTimeout_kept {m₀ : Held} (t : Lapse) (s : State) (hs : Kept m₀ s.held) :
    KeptBy m₀ (execTrimWindowTimeout t s) := by
  simp only [execTrimWindowTimeout]; split <;> simp [hs]
theorem opBackupConfig_keeps : opBackupConfig.Keeps := by
  intro k s j m₀ t hs
  unfold opBackupConfig; dsimp only; repeat' split
  all_goals simp [hs]
theorem execBackupConfig_kept {m₀ : Held} (t : Lapse) (env : Env) (ps : List Word) (s : State)
    (hs : Kept m₀ s.held) :
    KeptBy m₀ (execBackupConfig t env ps s) := runOp_kept _ opBackupConfig_keeps _ _ _ _ hs
theorem execCellMeasurement_kept {m₀ : Held} (t : Lapse) (mv : Nat) (s : State)
    (hs : Kept m₀ s.held) :
    KeptBy m₀ (execCellMeasurement t mv s) := by simp [execCellMeasurement, hs]

/-! Power -/

@[simp] theorem stopPorts_kept {m₀ : Held} (why : Nat) (s : State) (hs : Kept m₀ s.held) :
    Kept m₀ (s.stopPorts why).held := foldl_kept _ (fun _ _ ha => stopPort_kept _ _ _ ha) _ _ hs
@[simp] theorem timeOff_kept {m₀ : Held} (s : State) (hs : Kept m₀ s.held) :
    Kept m₀ (s.timeOff).held := by simp only [State.timeOff]; split <;> simp [hs]
@[simp] theorem memDown_kept {m₀ : Held} (s : State) (hs : Kept m₀ s.held) :
    Kept m₀ (s.memDown).held := by
  have hm : s.memDown.held = ([], s.pending) := by
    unfold State.memDown; dsimp only
    rw [onPwr_held, foldl_held _ (fun a p => setPart_held ..)]; rfl
  rw [hm]; exact ⟨hs.1, fun _ => rfl⟩
@[simp] theorem domOff_kept {m₀ : Held} (d : Nat) (s : State) (hs : Kept m₀ s.held) :
    Kept m₀ (s.domOff d).held := by
  unfold State.domOff; dsimp only; repeat' split
  all_goals simp [hs]
@[simp] theorem domRetain_kept {m₀ : Held} (d : Nat) (s : State) (hs : Kept m₀ s.held) :
    Kept m₀ (s.domRetain d).held := by
  have h1 : Kept m₀ ((s.setDom d 1).onPwr fun p => { p with retAt := tput none d (some (s.tb.q0, s.tb.clk)) p.retAt }).held := by simp [hs]
  unfold State.domRetain
  refine kept_ite hs ?_
  dsimp only; split
  · rw [kiteRetain_held]; exact h1
  · rw [setMem_held _ _ (endLeases_cells _)]; exact h1
  · rw [linksDown_held]; exact h1
  · rw [latchPads_held]; exact stopPorts_kept _ _ h1
  · rw [latchPads_held]; exact h1
  · exact h1
@[simp] theorem domOn_kept {m₀ : Held} (d : Nat) (s : State) (hs : Kept m₀ s.held) :
    Kept m₀ (s.domOn d).held := by
  unfold State.domOn; dsimp only; repeat' split
  all_goals simp [hs]
@[simp] theorem domTo_kept {m₀ : Held} (d v : Nat) (s : State) (hs : Kept m₀ s.held) :
    Kept m₀ (s.domTo d v).held := by
  unfold State.domTo
  refine kept_ite hs (kept_ite ?_ (kept_ite hs (kept_ite (kept_ite hs ?_) (kept_ite (kept_ite ?_ ?_) ?_))))
  · apply domOn_kept
    exact kept_ite (domOn_kept _ _ (kept_ite (domOn_kept _ _ hs) hs)) (kept_ite (domOn_kept _ _ hs) hs)
  · exact domRetain_kept _ _ (kept_ite (domOn_kept _ _ hs) hs)
  · rw [timeDownBegins_held]; exact hs
  · apply domOff_kept; rw [timeDownBegins_held]; exact hs
  · exact domOff_kept _ _ hs
@[simp] theorem settleTime_kept {m₀ : Held} (s : State) (hs : Kept m₀ s.held) :
    Kept m₀ (s.settleTime).held := by simp [State.settleTime, hs]
theorem execOutputCut_kept {m₀ : Held} (t : Lapse) (n : Nat) (s : State) (hs : Kept m₀ s.held) :
    KeptBy m₀ (execOutputCut t n s) := by simp [execOutputCut, hs]
theorem opPwrBudget_keeps : opPwrBudget.Keeps := by
  intro k s j m₀ t hs
  unfold opPwrBudget; dsimp only; repeat' split
  all_goals simp [hs]
theorem execPwrBudget_kept {m₀ : Held} (t : Lapse) (env : Env) (ps : List Word) (s : State)
    (hs : Kept m₀ s.held) :
    KeptBy m₀ (execPwrBudget t env ps s) := runOp_kept _ opPwrBudget_keeps _ _ _ _ hs
@[simp] theorem carryOut_kept {m₀ : Held} (t : Tab Nat) (s : State) (hs : Kept m₀ s.held) :
    Kept m₀ (s.carryOut t).held := by
  unfold State.carryOut; dsimp only
  apply foldl_kept
  · exact fun a d ha => kept_ite (domTo_kept _ _ _ ha) ha
  · apply foldl_kept
    · exact fun a d ha => kept_ite (domTo_kept _ _ _ ha) ha
    · exact hs
theorem execGovernorEvaluation_kept {m₀ : Held} (t : Lapse) (demand idle : List (Nat × Nat))
    (s : State) (hs : Kept m₀ s.held) :
    KeptBy m₀ (execGovernorEvaluation t demand idle s) := by simp [execGovernorEvaluation, hs]
theorem opPwrDomain_keeps : opPwrDomain.Keeps := by
  intro k s j m₀ t hs
  unfold opPwrDomain; dsimp only; repeat' split
  all_goals simp [hs]
theorem execPwrDomainForce_kept {m₀ : Held} (t : Lapse) (env : Env) (ps : List Word) (s : State)
    (hs : Kept m₀ s.held) :
    KeptBy m₀ (execPwrDomainForce t env ps s) := runOp_kept _ opPwrDomain_keeps _ _ _ _ hs
theorem execPwrDomainRelease_kept {m₀ : Held} (t : Lapse) (env : Env) (ps : List Word) (s : State)
    (hs : Kept m₀ s.held) :
    KeptBy m₀ (execPwrDomainRelease t env ps s) := runOp_kept _ opPwrDomain_keeps _ _ _ _ hs
theorem execPwrDomainDormant_kept {m₀ : Held} (t : Lapse) (env : Env) (ps : List Word) (s : State)
    (hs : Kept m₀ s.held) :
    KeptBy m₀ (execPwrDomainDormant t env ps s) := runOp_kept _ opPwrDomain_keeps _ _ _ _ hs
theorem opPadRelease_keeps : opPadRelease.Keeps := by
  intro k s j m₀ t hs
  unfold opPadRelease; dsimp only; repeat' split
  all_goals simp [hs]
theorem execPadRelease_kept {m₀ : Held} (t : Lapse) (env : Env) (ps : List Word) (s : State)
    (hs : Kept m₀ s.held) :
    KeptBy m₀ (execPadRelease t env ps s) := runOp_kept _ opPadRelease_keeps _ _ _ _ hs

/-! Lifecycle -/

@[simp] theorem cmdStops_kept {m₀ : Held} (s : State) (hs : Kept m₀ s.held) :
    Kept m₀ (s.cmdStops).held := by simp [State.cmdStops, hs]
@[simp] theorem workOff_kept {m₀ : Held} (s : State) (hs : Kept m₀ s.held) :
    Kept m₀ (s.workOff).held := foldl_kept _ (fun _ _ ha => domOff_kept _ _ ha) _ _ hs
@[simp] theorem timeEnd_kept {m₀ : Held} (s : State) (hs : Kept m₀ s.held) :
    Kept m₀ (s.timeEnd).held := by simp [State.timeEnd, hs]
@[simp] theorem shedAll_kept {m₀ : Held} (s : State) (hs : Kept m₀ s.held) :
    Kept m₀ (s.shedAll).held := by
  have h1 : Kept m₀ (((s.noteRetest.cmdStops.cmdOff.domOff 9).domOff 7).setDom 2 0).held := by
    rw [setDom_held]; apply domOff_kept; apply domOff_kept
    rw [cmdOff_held]; apply cmdStops_kept; rw [noteRetest_held]; exact hs
  unfold State.shedAll; dsimp only
  rw [onPwr_held]
  exact kept_ite (domOff_kept _ _ h1) h1
@[simp] theorem shedIfDue_kept {m₀ : Held} (s : State) (hs : Kept m₀ s.held) :
    Kept m₀ (s.shedIfDue).held := by simp [State.shedIfDue, hs]
@[simp] theorem readyRecords_kept {m₀ : Held} (cold : Bool) (s : State) (hs : Kept m₀ s.held) :
    Kept m₀ (s.readyRecords cold).held := by simp only [State.readyRecords]; split <;> simp [hs]
@[simp] theorem becomeReady_kept {m₀ : Held} (d1 : Bool) (s : State) (hs : Kept m₀ s.held) :
    Kept m₀ (s.becomeReady d1).held := by
  unfold State.becomeReady
  extract_lets +onlyGivenNames a cold p cause n w src b
  have ha : Kept m₀ a.held := kept_ite (by rw [loadTime_held]; exact hs) hs
  have hb : Kept m₀ b.held := by rw [show b.held = a.held from putJrn_held ..]; exact ha
  clear_value b src w n cause p cold a
  extract_lets +onlyGivenNames c d e f g i
  have hc : Kept m₀ c.held := kept_ite (by rw [sealSystem_held]; exact hb) hb
  have hd : Kept m₀ d.held := by rw [show d.held = c.held from onPwr_held ..]; exact hc
  have he : Kept m₀ e.held := kept_ite (modeRestart_kept _ hd) (by rw [newTicks_held]; exact hd)
  have hf : Kept m₀ f.held := readyRecords_kept _ _ he
  have hi : i.held = f.held := by rw [show i.held = g.held from onPwr_held .., show g.held = f.held from onRtc_held ..]
  refine kept_ite ?_ (by rw [hi]; exact hf)
  rw [foldl_held _ (fun a q => resendFrom_held ..), sendsReady_held, hi]; exact hf
theorem execReplay_kept {m₀ : Held} (t : Lapse) (testA testB : Bool) (finds : List Find) (s : State)
    (hs : Kept m₀ s.held) :
    KeptBy m₀ (execReplay t testA testB finds s) := by simp [execReplay, hs]
@[simp] theorem mainsLost_kept {m₀ : Held} (s : State) (hs : Kept m₀ s.held) :
    Kept m₀ (s.mainsLost).held := by
  unfold State.mainsLost
  extract_lets +onlyGivenNames src a
  have ha : Kept m₀ a.held := by rw [show a.held = s.held from (putPwr_held ..).trans (putFresh_held ..)]; exact hs
  clear_value a src
  extract_lets +onlyGivenNames b
  have hb : Kept m₀ b.held := by
    simp only [b]; split
    · exact kept_ite (by rw [trimAbort_held]; exact ha) ha
    · exact ha
  clear_value b
  extract_lets +onlyGivenNames c
  have hc : Kept m₀ c.held := foldl_kept _ (fun x n hx => by
    refine kept_ite ?_ hx
    rw [follow_held, setQty_held]; exact hx) _ _ hb
  clear_value c
  split
  · extract_lets +onlyGivenNames d e src f
    have hd : Kept m₀ d.held := by
      rw [show d.held = c.held from (measOutage_held ..).trans ((modeDown_held ..).trans ((turnAway_held ..).trans (onPwr_held ..)))]; exact hc
    have he : Kept m₀ e.held := by
      rw [show e.held = (d.workOff.domRetain 7).held from timeDownBegins_held ..]; exact domRetain_kept _ _ (workOff_kept _ hd)
    apply settleTime_kept
    rw [flush_held, sealSystem_held, flush_held, show f.held = e.held from putJrn_held ..]; exact he
  · extract_lets +onlyGivenNames d e
    have hd : Kept m₀ d.held := by
      rw [show d.held = c.modeDown.workOff.held from timeDownBegins_held ..]; apply workOff_kept; rw [modeDown_held]; exact hc
    have he : Kept m₀ e.held := by
      rw [show e.held = d.flush.noteRetest.cmdStops.held from cmdOff_held ..]; apply cmdStops_kept; rw [noteRetest_held, flush_held]; exact hd
    rw [onPwr_held]; apply settleTime_kept; rw [setDom_held]; exact domOff_kept _ _ (domOff_kept _ _ he)
  · rw [onPwr_held, setDom_held]; exact hc
  · exact hc
theorem execMainsLoss_kept {m₀ : Held} (t : Lapse) (s : State) (hs : Kept m₀ s.held) :
    KeptBy m₀ (execMainsLoss t s) := by simp [execMainsLoss, hs]
theorem execMainsGoodReturn_kept {m₀ : Held} (t : Lapse) (s : State) (hs : Kept m₀ s.held) :
    KeptBy m₀ (execMainsGoodReturn t s) := by
  have h1 : Kept m₀ (s.elapse t).held := by simp [hs]
  unfold execMainsGoodReturn; dsimp only
  refine keptBy_ite h1 ?_
  split
  · refine keptBy_ite h1 (keptBy_ite ?_ (shedAll_kept _ h1))
    rw [keptBy_next]; apply becomeReady_kept; rw [onPwr_held]
    apply domOn_kept; apply domOn_kept; apply domOn_kept
    exact kept_ite (domOff_kept _ _ (by rw [onPwr_held]; exact h1)) (by rw [onPwr_held]; exact h1)
  · exact keptBy_ite (by rw [keptBy_next, onPwr_held]; exact h1) h1
  · exact h1
@[simp] theorem powerUp_kept {m₀ : Held} (bad : List (Nat × Nat)) (s : State) (hs : Kept m₀ s.held)
    :
    Kept m₀ (s.powerUp bad).held := by
  unfold State.powerUp; dsimp only; repeat' split
  all_goals simp [hs]
theorem execBringUp_kept {m₀ : Held} (t : Lapse) (volts hz : Nat) (dc : Bool)
    (bad : List (Nat × Nat)) (s : State) (hs : Kept m₀ s.held) :
    KeptBy m₀ (execBringUp t volts hz dc bad s) := by
  have h1 : Kept m₀ (s.elapse t).shedIfDue.held := shedIfDue_kept _ (by simp [hs])
  unfold execBringUp
  refine keptBy_ite ?_ (by simp [hs])
  rw [keptBy_next]; apply powerUp_kept
  rw [onPwr_held, ocxoStarts_held]
  exact kept_ite (domOff_kept _ _ h1) h1
theorem execDormantEntry_kept {m₀ : Held} (t : Lapse) (s : State) (hs : Kept m₀ s.held) :
    KeptBy m₀ (execDormantEntry t s) := by
  unfold execDormantEntry
  refine keptBy_ite ?_ (by simp [hs])
  rw [keptBy_next, onPwr_held, setDom_held, cmdOff_held]; apply cmdStops_kept
  rw [flush_held]; apply timeEnd_kept; apply domOff_kept; apply domOff_kept; apply workOff_kept
  rw [noteRetest_held, modeDown_held, elapse_held]; exact hs
theorem execWake_kept {m₀ : Held} (t : Lapse) (cause : Nat) (bad : List (Nat × Nat)) (s : State)
    (hs : Kept m₀ s.held) :
    KeptBy m₀ (execWake t cause bad s) := by simp [execWake, hs]
theorem opReset_keeps : opReset.Keeps := by
  intro k s j m₀ t hs
  unfold opReset; dsimp only; repeat' split
  all_goals simp [hs]
theorem execResetModule_kept {m₀ : Held} (t : Lapse) (env : Env) (ps : List Word) (s : State)
    (hs : Kept m₀ s.held) :
    KeptBy m₀ (execResetModule t env ps s) := runOp_kept _ opReset_keeps _ _ _ _ hs
theorem execResetCmd_kept {m₀ : Held} (t : Lapse) (env : Env) (ps : List Word) (s : State)
    (hs : Kept m₀ s.held) :
    KeptBy m₀ (execResetCmd t env ps s) := runOp_kept _ opReset_keeps _ _ _ _ hs
@[simp] theorem cmdReset_kept {m₀ : Held} (cause wd : Nat) (s : State) (hs : Kept m₀ s.held) :
    Kept m₀ (s.cmdReset cause wd).held := by simp [State.cmdReset, hs]
@[simp] theorem moduleReset_kept {m₀ : Held} (s : State) (hs : Kept m₀ s.held) :
    Kept m₀ (s.moduleReset).held := by
  unfold State.moduleReset; dsimp only
  rw [onPwr_held, setDom_held, cmdOff_held]; apply cmdStops_kept
  rw [flush_held]; apply timeEnd_kept; apply domOff_kept; apply domOff_kept; apply workOff_kept
  rw [modeDown_held, noteRetest_held]; exact hs
theorem execResetBegin_kept {m₀ : Held} (t : Lapse) (s : State) (hs : Kept m₀ s.held) :
    KeptBy m₀ (execResetBegin t s) := by simp only [execResetBegin]; split <;> simp [hs]
@[simp] theorem dspReset_kept {m₀ : Held} (s : State) (hs : Kept m₀ s.held) :
    Kept m₀ (s.dspReset).held := by simp [State.dspReset, hs]
theorem execWatchdog_kept {m₀ : Held} (t : Lapse) (src : Nat) (s : State) (hs : Kept m₀ s.held) :
    KeptBy m₀ (execWatchdog t src s) := by simp [execWatchdog, hs]
theorem execLockstepFault_kept {m₀ : Held} (t : Lapse) (s : State) (hs : Kept m₀ s.held) :
    KeptBy m₀ (execLockstepFault t s) := by simp [execLockstepFault, hs]
theorem execConverterStageFailed_kept {m₀ : Held} (t : Lapse) (stage : Nat) (s : State)
    (hs : Kept m₀ s.held) :
    KeptBy m₀ (execConverterStageFailed t stage s) := by simp [execConverterStageFailed, hs]
theorem execSwitchover_kept {m₀ : Held} (t : Lapse) (s : State) (hs : Kept m₀ s.held) :
    KeptBy m₀ (execSwitchover t s) := by simp [execSwitchover, hs]
theorem execSwitchReturn_kept {m₀ : Held} (t : Lapse) (mv : Nat) (s : State) (hs : Kept m₀ s.held) :
    KeptBy m₀ (execSwitchReturn t mv s) := by simp [execSwitchReturn, hs]
theorem execAonCold_kept {m₀ : Held} (t : Lapse) (s : State) (hs : Kept m₀ s.held) :
    KeptBy m₀ (execAonCold t s) := by simp [execAonCold, hs]
theorem opSelftest_keeps : opSelftest.Keeps := by
  intro k s j m₀ t hs
  unfold opSelftest; dsimp only; repeat' split
  all_goals simp [hs]
theorem execSelftest_kept {m₀ : Held} (t : Lapse) (env : Env) (ps : List Word) (s : State)
    (hs : Kept m₀ s.held) :
    KeptBy m₀ (execSelftest t env ps s) := runOp_kept _ opSelftest_keeps _ _ _ _ hs
theorem execSelftestDone_kept {m₀ : Held} (t : Lapse) (failed : Nat) (s : State)
    (hs : Kept m₀ s.held) :
    KeptBy m₀ (execSelftestDone t failed s) := by simp [execSelftestDone, hs]
theorem opFwUpdate_keeps : opFwUpdate.Keeps := by
  intro k s j m₀ t hs
  unfold opFwUpdate; dsimp only; repeat' split
  all_goals simp [hs]
theorem execFwUpdateBegin_kept {m₀ : Held} (t : Lapse) (env : Env) (ps : List Word) (s : State)
    (hs : Kept m₀ s.held) :
    KeptBy m₀ (execFwUpdateBegin t env ps s) := runOp_kept _ opFwUpdate_keeps _ _ _ _ hs
theorem execFwUpdateData_kept {m₀ : Held} (t : Lapse) (env : Env) (ps : List Word) (s : State)
    (hs : Kept m₀ s.held) :
    KeptBy m₀ (execFwUpdateData t env ps s) := runOp_kept _ opFwUpdate_keeps _ _ _ _ hs
theorem execFwUpdateCommit_kept {m₀ : Held} (t : Lapse) (env : Env) (ps : List Word) (s : State)
    (hs : Kept m₀ s.held) :
    KeptBy m₀ (execFwUpdateCommit t env ps s) := runOp_kept _ opFwUpdate_keeps _ _ _ _ hs
theorem execFwUpdateAbort_kept {m₀ : Held} (t : Lapse) (env : Env) (ps : List Word) (s : State)
    (hs : Kept m₀ s.held) :
    KeptBy m₀ (execFwUpdateAbort t env ps s) := runOp_kept _ opFwUpdate_keeps _ _ _ _ hs
theorem execFwUpdateActivate_kept {m₀ : Held} (t : Lapse) (env : Env) (ps : List Word) (s : State)
    (hs : Kept m₀ s.held) :
    KeptBy m₀ (execFwUpdateActivate t env ps s) := runOp_kept _ opFwUpdate_keeps _ _ _ _ hs

/-! RegWrite -/

@[simp] theorem commitQcfg_kept {m₀ : Held} (path n : Nat) (v : Word) (s : State)
    (hs : Kept m₀ s.held) :
    Kept m₀ (s.commitQcfg path n v).held := by unfold State.commitQcfg; split <;> simp [hs]
@[simp] theorem regApply_kept {m₀ : Held} (path jsn : Nat) (r : Reg) (v : Word) (s : State)
    (hs : Kept m₀ s.held) :
    Kept m₀ (s.regApply path jsn r v).held := by
  unfold State.regApply; split
  · exact hs
  · exact hs
  · rw [w1c_held]; exact hs
  · split
    all_goals (repeat' split) <;> simp [hs]
@[simp] theorem applyWords_kept {m₀ : Held} (path jsn : Nat) (ws : List (Nat × Word)) (s : State)
    (hs : Kept m₀ s.held) :
    Kept m₀ (s.applyWords path jsn ws).held :=
  foldl_kept _ (fun _ _ ha => regApply_kept _ _ _ _ _ ha) _ _ hs
@[simp] theorem applyAll_kept {m₀ : Held} (path jsn : Nat) (ws : List (Nat × Word)) (s : State)
    (hs : Kept m₀ s.held) :
    Kept m₀ (s.applyAll path jsn ws).held := by simp [State.applyAll, hs]
@[simp] theorem writeVerdict_keeps (p : Nat) (ws : List (Nat × Word)) (reply : List Word)
    (stored : Option (List Word)) (s : State) :
    (s.writeVerdict p ws reply stored).Keeps := by
  intro j m₀ t ht
  unfold State.writeVerdict; dsimp only; split
  · exact kept_ite (by rw [emptyLost_held]; exact ht) ht
  · exact applyAll_kept _ _ _ _ ht
theorem opRegRead_keeps : opRegRead.Keeps := by
  intro k s j m₀ t hs
  unfold opRegRead; dsimp only; repeat' split
  all_goals simp [hs]
theorem opRegWrite_keeps : opRegWrite.Keeps := by
  intro k s
  unfold opRegWrite; dsimp only
  split
  · exact fun _ _ _ ht => ht
  · exact writeVerdict_keeps _ _ _ _ _
theorem opRegModify_keeps : opRegModify.Keeps := by
  intro k s
  unfold opRegModify; dsimp only
  split
  · exact badParam_keeps _
  · split
    · exact refuse_keeps _ _
    · exact writeVerdict_keeps _ _ _ _ _
theorem execRegRead_kept {m₀ : Held} (t : Lapse) (env : Env) (ps : List Word) (s : State)
    (hs : Kept m₀ s.held) :
    KeptBy m₀ (execRegRead t env ps s) := runOp_kept _ opRegRead_keeps _ _ _ _ hs
theorem execRegWrite_kept {m₀ : Held} (t : Lapse) (env : Env) (ps : List Word) (s : State)
    (hs : Kept m₀ s.held) :
    KeptBy m₀ (execRegWrite t env ps s) := runOp_kept _ opRegWrite_keeps _ _ _ _ hs
theorem execRegModify_kept {m₀ : Held} (t : Lapse) (env : Env) (ps : List Word) (s : State)
    (hs : Kept m₀ s.held) :
    KeptBy m₀ (execRegModify t env ps s) := runOp_kept _ opRegModify_keeps _ _ _ _ hs
@[simp] theorem s0WriteWord_kept {m₀ : Held} (a : Nat) (v : Word) (s : State) (hs : Kept m₀ s.held)
    :
    Kept m₀ (s.s0WriteWord a v).2.held := by
  unfold State.s0WriteWord; dsimp only; repeat' split
  all_goals simp [hs]
theorem regWriteRow_kept {m₀ : Held} (t : Lapse) (via : Via) (a : Nat) (v : Word) (s : State)
    (hs : Kept m₀ s.held) :
    KeptBy m₀ (regWriteRow t via a v s) := by
  unfold regWriteRow; split
  · exact runOp_kept _ opRegWrite_keeps _ _ _ _ hs
  · refine keptBy_ite ?_ (by simp [hs])
    rw [keptBy_next, emit_held, s0Stop_held, s0Point_held]
    exact s0WriteWord_kept _ _ _ (by simp [hs])
theorem regReadRow_kept {m₀ : Held} (t : Lapse) (via : Via) (a : Nat) (s : State)
    (hs : Kept m₀ s.held) :
    KeptBy m₀ (regReadRow t via a s) := by
  unfold regReadRow; split
  · exact runOp_kept _ opRegRead_keeps _ _ _ _ hs
  · refine keptBy_ite ?_ (by simp [hs])
    rw [keptBy_next, emit_held, s0Stop_held, s0Point_held, s0ReadWord_held, elapse_held]; exact hs
theorem execTbLeapCommit_kept {m₀ : Held} (t : Lapse) (via : Via) (v : Word) (s : State)
    (hs : Kept m₀ s.held) :
    KeptBy m₀ (execTbLeapCommit t via v s) := regWriteRow_kept _ _ _ _ _ hs
theorem execQcfg0_kept {m₀ : Held} (t : Lapse) (via : Via) (n : Nat) (v : Word) (s : State)
    (hs : Kept m₀ s.held) :
    KeptBy m₀ (execQcfg0 t via n v s) := regWriteRow_kept _ _ _ _ _ hs
theorem execQsetCommit_kept {m₀ : Held} (t : Lapse) (via : Via) (n : Nat) (v : Word) (s : State)
    (hs : Kept m₀ s.held) :
    KeptBy m₀ (execQsetCommit t via n v s) := regWriteRow_kept _ _ _ _ _ hs
theorem execOutCommit_kept {m₀ : Held} (t : Lapse) (via : Via) (n : Nat) (v : Word) (s : State)
    (hs : Kept m₀ s.held) :
    KeptBy m₀ (execOutCommit t via n v s) := regWriteRow_kept _ _ _ _ _ hs
theorem execRtcSetCommit_kept {m₀ : Held} (t : Lapse) (via : Via) (v : Word) (s : State)
    (hs : Kept m₀ s.held) :
    KeptBy m₀ (execRtcSetCommit t via v s) := regWriteRow_kept _ _ _ _ _ hs
theorem execEthCommit_kept {m₀ : Held} (t : Lapse) (via : Via) (h : Nat) (v : Word) (s : State)
    (hs : Kept m₀ s.held) :
    KeptBy m₀ (execEthCommit t via h v s) := regWriteRow_kept _ _ _ _ _ hs
theorem execPartKeyCommit_kept {m₀ : Held} (t : Lapse) (via : Via) (p : Nat) (v : Word) (s : State)
    (hs : Kept m₀ s.held) :
    KeptBy m₀ (execPartKeyCommit t via p v s) := regWriteRow_kept _ _ _ _ _ hs
theorem execPartKeyErase_kept {m₀ : Held} (t : Lapse) (via : Via) (p : Nat) (s : State)
    (hs : Kept m₀ s.held) :
    KeptBy m₀ (execPartKeyErase t via p s) := regWriteRow_kept _ _ _ _ _ hs
theorem execPartSeqreset_kept {m₀ : Held} (t : Lapse) (via : Via) (p : Nat) (v : Word) (s : State)
    (hs : Kept m₀ s.held) :
    KeptBy m₀ (execPartSeqreset t via p v s) := regWriteRow_kept _ _ _ _ _ hs
theorem execBkClear_kept {m₀ : Held} (t : Lapse) (via : Via) (v : Word) (s : State)
    (hs : Kept m₀ s.held) :
    KeptBy m₀ (execBkClear t via v s) := regWriteRow_kept _ _ _ _ _ hs
theorem execGaleRsel_kept {m₀ : Held} (t : Lapse) (via : Via) (v : Word) (s : State)
    (hs : Kept m₀ s.held) :
    KeptBy m₀ (execGaleRsel t via v s) := regWriteRow_kept _ _ _ _ _ hs
theorem execPllFreq_kept {m₀ : Held} (t : Lapse) (via : Via) (v : Word) (s : State)
    (hs : Kept m₀ s.held) :
    KeptBy m₀ (execPllFreq t via v s) := regWriteRow_kept _ _ _ _ _ hs
theorem execQstatGroupOpen_kept {m₀ : Held} (t : Lapse) (via : Via) (n off : Nat) (s : State)
    (hs : Kept m₀ s.held) :
    KeptBy m₀ (execQstatGroupOpen t via n off s) := regReadRow_kept _ _ _ _ hs
theorem execQend_kept {m₀ : Held} (t : Lapse) (via : Via) (n : Nat) (s : State)
    (hs : Kept m₀ s.held) :
    KeptBy m₀ (execQend t via n s) := regReadRow_kept _ _ _ _ hs
theorem execRtcSec_kept {m₀ : Held} (t : Lapse) (via : Via) (s : State) (hs : Kept m₀ s.held) :
    KeptBy m₀ (execRtcSec t via s) := regReadRow_kept _ _ _ _ hs
theorem execRtcFrac_kept {m₀ : Held} (t : Lapse) (via : Via) (s : State) (hs : Kept m₀ s.held) :
    KeptBy m₀ (execRtcFrac t via s) := regReadRow_kept _ _ _ _ hs
theorem execShadowExpiry_kept {m₀ : Held} (t : Lapse) (path : Nat) (q : Option Nat) (s : State)
    (hs : Kept m₀ s.held) :
    KeptBy m₀ (execShadowExpiry t path q s) := by
  unfold execShadowExpiry; dsimp only; repeat' split
  all_goals simp [hs]

/-! Host -/

theorem opTable_keeps : ∀ o ∈ opTable, o.Keeps := by
  simp only [opTable, List.cons_append, List.nil_append, List.forall_mem_cons]
  exact ⟨opPing_keeps, opHello_keeps, opGoodbye_keeps, opRegRead_keeps, opRegWrite_keeps,
    opRegModify_keeps, opModeSet_keeps, opModeGet_keeps, opAidTime_keeps, opAidPosition_keeps,
    opAidOrbit_keeps, opGaleJob_keeps, opGaleCancel_keeps, opKiteAssign_keeps, opKiteRelease_keeps,
    opTrainForm_keeps, opTrainBreak_keeps, opMeasConfig_keeps, opNavbitsConfig_keeps,
    opSolConfig_keeps, opPulseConfig_keeps, opTimeStepPermit_keeps, opQtyConfig_keeps,
    opQtyRead_keeps, opSchedAdd_keeps, opSchedCancel_keeps, opSchedQuery_keeps, opSmpConfig_keeps,
    opSmpStart_keeps, opSmpSlotmask_keeps, opLendiConfig_keeps, opLendiSend_keeps,
    opLendiPair_keeps, opPwrBudget_keeps, opPwrDomain_keeps, opPadRelease_keeps, opRtcSet_keeps,
    opRtcAlarm_keeps, opRtcTrim_keeps, opBackupConfig_keeps, opJournalState_keeps,
    opJournalQuery_keeps, opEventAck_keeps, opEventResync_keeps, opDspLoad_keeps, opDspTask_keeps,
    opSelftest_keeps, opReset_keeps, opFwUpdate_keeps, fun _ h => nomatch h⟩
theorem opOf_keeps {code : Nat} {o : OpSpec} (h : opOf code = some o) :
    o.Keeps := opTable_keeps _ (List.mem_of_find?_eq_some h)
@[simp] theorem receive_kept {m₀ : Held} (port : Nat) (ep : Endpoint) (mac : Word) (ws : List Word)
    (s : State) (hs : Kept m₀ s.held) :
    Kept m₀ (s.receive port ep mac ws).held := by
  unfold State.receive
  refine kept_ite (by simp [hs]) ?_
  dsimp only; split
  · simp [hs]
  · exact kept_ite (by simp [hs]) (runPacket_kept _ (fun o ho => opOf_keeps ho) _ _ hs)
@[simp] theorem serveRounds_kept {m₀ : Held} (fuel : Nat) (s : State) (hs : Kept m₀ s.held) :
    Kept m₀ (s.serveRounds fuel).held := by
  induction fuel generalizing s with
  | zero => exact hs
  | succ fuel ih =>
    unfold State.serveRounds; split
    · exact hs
    · refine ih _ (kept_ite (runParse_kept _ (fun o ho => opOf_keeps ho) _ _ _ ?_) ?_)
      · simp [hs]
      · simp [hs]
theorem execGroupComplete_kept {m₀ : Held} (t : Lapse) (s : State) (hs : Kept m₀ s.held) :
    KeptBy m₀ (execGroupComplete t s) := by simp [execGroupComplete, hs]
@[simp] theorem segment_kept {m₀ : Held} (f : Frame) (s : State) (hs : Kept m₀ s.held) :
    Kept m₀ (s.segment f).held := by
  unfold State.segment; dsimp only; repeat' split
  all_goals simp [hs]
theorem execEthSegment_kept {m₀ : Held} (t : Lapse) (f : Frame) (s : State) (hs : Kept m₀ s.held) :
    KeptBy m₀ (execEthSegment t f s) := by simp [execEthSegment, hs]
theorem execReassemblyTimeout_kept {m₀ : Held} (t : Lapse) (port : Nat) (ep : Endpoint) (s : State)
    (hs : Kept m₀ s.held) :
    KeptBy m₀ (execReassemblyTimeout t port ep s) := by simp [execReassemblyTimeout, hs]
theorem execArpRequest_kept {m₀ : Held} (t : Lapse) (port vlan : Nat) (target : BitVec 32)
    (mac : Word) (s : State) (hs : Kept m₀ s.held) :
    KeptBy m₀ (execArpRequest t port vlan target mac s) := by simp [execArpRequest, hs]
theorem execNeighbourSolicitation_kept {m₀ : Held} (t : Lapse) (port vlan : Nat)
    (target : BitVec 128) (mac : Word) (s : State) (hs : Kept m₀ s.held) :
    KeptBy m₀ (execNeighbourSolicitation t port vlan target mac s) := by
  simp [execNeighbourSolicitation, hs]
theorem execIcmpEcho_kept {m₀ : Held} (t : Lapse) (port vlan : Nat) (v6 : Bool) (mac : Word)
    (payload : List (BitVec 8)) (s : State) (hs : Kept m₀ s.held) :
    KeptBy m₀ (execIcmpEcho t port vlan v6 mac payload s) := by simp [execIcmpEcho, hs]
@[simp] theorem spiParse_kept {m₀ : Held} (fuel h : Nat) (s : State) (hs : Kept m₀ s.held) :
    Kept m₀ (s.spiParse fuel h).held := by
  induction fuel generalizing s with
  | zero => exact hs
  | succ fuel ih =>
    unfold State.spiParse; split
    · exact hs
    · refine kept_ite hs (ih _ ?_)
      apply receive_kept; simp [hs]
@[simp] theorem spiPut_kept {m₀ : Held} (h : Nat) (start : Bool) (nwords : Nat) (ws : List Word)
    (s : State) (hs : Kept m₀ s.held) :
    Kept m₀ (s.spiPut h start nwords ws).held := by simp [State.spiPut, hs]
@[simp] theorem spiTransfer_kept {m₀ : Held} (h : Nat) (idleHigh : Bool) (cw : Word)
    (ws : List Word) (cut : Bool) (s : State) (hs : Kept m₀ s.held) :
    Kept m₀ (s.spiTransfer h idleHigh cw ws cut).held := by
  unfold State.spiTransfer; dsimp only; repeat' split
  all_goals simp [hs]
theorem execSpiStatus_kept {m₀ : Held} (t : Lapse) (port : Nat) (idleHigh : Bool) (cw : Word)
    (s : State) (hs : Kept m₀ s.held) :
    KeptBy m₀ (execSpiStatus t port idleHigh cw s) := by simp [execSpiStatus, hs]
theorem execSpiWrite_kept {m₀ : Held} (t : Lapse) (port : Nat) (idleHigh : Bool) (cw : Word)
    (ws : List Word) (cut : Bool) (s : State) (hs : Kept m₀ s.held) :
    KeptBy m₀ (execSpiWrite t port idleHigh cw ws cut s) := by simp [execSpiWrite, hs]
theorem execSpiRead_kept {m₀ : Held} (t : Lapse) (port : Nat) (idleHigh : Bool) (cw : Word)
    (s : State) (hs : Kept m₀ s.held) :
    KeptBy m₀ (execSpiRead t port idleHigh cw s) := by simp [execSpiRead, hs]
@[simp] theorem s0Words_kept {m₀ : Held} (ws : List Word) (acks : List Bool) (s : State)
    (hs : Kept m₀ s.held) :
    Kept m₀ (State.s0Words ws acks s).2.held := by
  induction ws generalizing acks s with
  | nil => exact hs
  | cons w ws ih => exact ih _ _ (by simp [hs])
theorem execS0Write_kept {m₀ : Held} (t : Lapse) (addr : Nat) (ws : List Word) (cut : Bool)
    (s : State) (hs : Kept m₀ s.held) :
    KeptBy m₀ (execS0Write t addr ws cut s) := by simp [execS0Write, hs]
theorem execS0Read_kept {m₀ : Held} (t : Lapse) (addr : Option Nat) (count : Nat) (s : State)
    (hs : Kept m₀ s.held) :
    KeptBy m₀ (execS0Read t addr count s) := by unfold execS0Read; split <;> simp [hs]
theorem execS0AddressMatch_kept {m₀ : Held} (t : Lapse) (addr : Nat) (s : State)
    (hs : Kept m₀ s.held) :
    KeptBy m₀ (execS0AddressMatch t addr s) := by simp [execS0AddressMatch, hs]
theorem execHostPortFailed_kept {m₀ : Held} (t : Lapse) (port : Nat) (s : State)
    (hs : Kept m₀ s.held) :
    KeptBy m₀ (execHostPortFailed t port s) := by simp [execHostPortFailed, hs]
theorem execHostSelfCheck_kept {m₀ : Held} (t : Lapse) (port : Nat) (passed : Bool) (s : State)
    (hs : Kept m₀ s.held) :
    KeptBy m₀ (execHostSelfCheck t port passed s) := by simp [execHostSelfCheck, hs]
theorem execEthLinkStayedUp_kept {m₀ : Held} (t : Lapse) (port : Nat) (s : State)
    (hs : Kept m₀ s.held) :
    KeptBy m₀ (execEthLinkStayedUp t port s) := by simp [execEthLinkStayedUp, hs]

/-! Dispatch -/

/-- Every command keeps what is held: one arm for each instruction. Of the queue it says that
`exec` leaves it as it was given. -/
theorem exec_kept {m₀ : Held} (i : Instr) (s : State) (hs : Kept m₀ s.held) :
    KeptBy m₀ (exec i s) :=
  match i with
  | .ping t env ps => execPing_kept t env ps s hs
  | .hello t env ps => execHello_kept t env ps s hs
  | .goodbye t env ps => execGoodbye_kept t env ps s hs
  | .regRead t env ps => execRegRead_kept t env ps s hs
  | .regWrite t env ps => execRegWrite_kept t env ps s hs
  | .regModify t env ps => execRegModify_kept t env ps s hs
  | .tbLeapCommit t via v => execTbLeapCommit_kept t via v s hs
  | .qcfg0 t via n v => execQcfg0_kept t via n v s hs
  | .qsetCommit t via n v => execQsetCommit_kept t via n v s hs
  | .outCommit t via n v => execOutCommit_kept t via n v s hs
  | .rtcSetCommit t via v => execRtcSetCommit_kept t via v s hs
  | .ethCommit t via h v => execEthCommit_kept t via h v s hs
  | .partKeyCommit t via p v => execPartKeyCommit_kept t via p v s hs
  | .partKeyErase t via p => execPartKeyErase_kept t via p s hs
  | .partSeqreset t via p v => execPartSeqreset_kept t via p v s hs
  | .bkClear t via v => execBkClear_kept t via v s hs
  | .galeRsel t via v => execGaleRsel_kept t via v s hs
  | .pllFreq t via v => execPllFreq_kept t via v s hs
  | .qstatGroupOpen t via n off => execQstatGroupOpen_kept t via n off s hs
  | .qend t via n => execQend_kept t via n s hs
  | .shadowExpiry t path q => execShadowExpiry_kept t path q s hs
  | .rtcSec t via => execRtcSec_kept t via s hs
  | .rtcFrac t via => execRtcFrac_kept t via s hs
  | .modeSet t env ps => execModeSet_kept t env ps s hs
  | .modeGet t env ps => execModeGet_kept t env ps s hs
  | .aidTime t env ps => execAidTime_kept t env ps s hs
  | .aidPosition t env ps => execAidPosition_kept t env ps s hs
  | .aidOrbit t env ps => execAidOrbit_kept t env ps s hs
  | .galeJob t env ps => execGaleJob_kept t env ps s hs
  | .galeCancel t env ps => execGaleCancel_kept t env ps s hs
  | .kiteAssign t env ps => execKiteAssign_kept t env ps s hs
  | .kiteRelease t env ps => execKiteRelease_kept t env ps s hs
  | .trainForm t env ps => execTrainForm_kept t env ps s hs
  | .trainBreak t env ps => execTrainBreak_kept t env ps s hs
  | .measConfig t env ps => execMeasConfig_kept t env ps s hs
  | .navbitsConfig t env ps => execNavbitsConfig_kept t env ps s hs
  | .solConfig t env ps => execSolConfig_kept t env ps s hs
  | .pulseConfig t env ps => execPulseConfig_kept t env ps s hs
  | .timeStepPermit t env ps => execTimeStepPermit_kept t env ps s hs
  | .qtyConfig t env ps => execQtyConfig_kept t env ps s hs
  | .qtyRead t env ps => execQtyRead_kept t env ps s hs
  | .schedAdd t env ps => execSchedAdd_kept t env ps s hs
  | .schedCancel t env ps => execSchedCancel_kept t env ps s hs
  | .schedQuery t env ps => execSchedQuery_kept t env ps s hs
  | .smpConfig t env ps => execSmpConfig_kept t env ps s hs
  | .smpStart t env ps => execSmpStart_kept t env ps s hs
  | .smpStop t env ps => execSmpStop_kept t env ps s hs
  | .smpSlotmask t env ps => execSmpSlotmask_kept t env ps s hs
  | .lendiConfig t env ps => execLendiConfig_kept t env ps s hs
  | .lendiSend t env ps => execLendiSend_kept t env ps s hs
  | .lendiPair t env ps => execLendiPair_kept t env ps s hs
  | .lendiUnpair t env ps => execLendiUnpair_kept t env ps s hs
  | .pwrBudget t env ps => execPwrBudget_kept t env ps s hs
  | .pwrDomainForce t env ps => execPwrDomainForce_kept t env ps s hs
  | .pwrDomainRelease t env ps => execPwrDomainRelease_kept t env ps s hs
  | .pwrDomainDormant t env ps => execPwrDomainDormant_kept t env ps s hs
  | .padRelease t env ps => execPadRelease_kept t env ps s hs
  | .rtcSet t env ps => execRtcSet_kept t env ps s hs
  | .rtcAlarm t env ps => execRtcAlarm_kept t env ps s hs
  | .rtcTrimManual t env ps => execRtcTrimManual_kept t env ps s hs
  | .rtcTrimMains t env ps => execRtcTrimMains_kept t env ps s hs
  | .rtcTrimTether t env ps => execRtcTrimTether_kept t env ps s hs
  | .rtcTrimPartnerOpen t env ps => execRtcTrimPartnerOpen_kept t env ps s hs
  | .rtcTrimPartnerClose t env ps => execRtcTrimPartnerClose_kept t env ps s hs
  | .rtcTrimStop t env ps => execRtcTrimStop_kept t env ps s hs
  | .backupConfig t env ps => execBackupConfig_kept t env ps s hs
  | .journalState t env ps => execJournalState_kept t env ps s hs
  | .journalQuery t env ps => execJournalQuery_kept t env ps s hs
  | .eventAck t env ps => execEventAck_kept t env ps s hs
  | .eventResync t env ps => execEventResync_kept t env ps s hs
  | .dspLoadData t env ps => execDspLoadData_kept t env ps s hs
  | .dspLoadCommit t env ps => execDspLoadCommit_kept t env ps s hs
  | .dspLoadUnload t env ps => execDspLoadUnload_kept t env ps s hs
  | .dspTaskStart t env ps => execDspTaskStart_kept t env ps s hs
  | .dspTaskAbort t env ps => execDspTaskAbort_kept t env ps s hs
  | .selftest t env ps => execSelftest_kept t env ps s hs
  | .selftestDone t failed => execSelftestDone_kept t failed s hs
  | .resetModule t env ps => execResetModule_kept t env ps s hs
  | .resetCmd t env ps => execResetCmd_kept t env ps s hs
  | .resetBegin t => execResetBegin_kept t s hs
  | .fwUpdateBegin t env ps => execFwUpdateBegin_kept t env ps s hs
  | .fwUpdateData t env ps => execFwUpdateData_kept t env ps s hs
  | .fwUpdateCommit t env ps => execFwUpdateCommit_kept t env ps s hs
  | .fwUpdateAbort t env ps => execFwUpdateAbort_kept t env ps s hs
  | .fwUpdateActivate t env ps => execFwUpdateActivate_kept t env ps s hs
  | .ethSegment t f => execEthSegment_kept t f s hs
  | .reassemblyTimeout t port ep => execReassemblyTimeout_kept t port ep s hs
  | .arpRequest t port vlan target mac => execArpRequest_kept t port vlan target mac s hs
  | .neighbourSolicitation t port vlan target mac => execNeighbourSolicitation_kept t port vlan target mac s hs
  | .icmpEcho t port vlan v6 mac payload => execIcmpEcho_kept t port vlan v6 mac payload s hs
  | .spiStatus t port idleHigh cw => execSpiStatus_kept t port idleHigh cw s hs
  | .spiWrite t port idleHigh cw ws cut => execSpiWrite_kept t port idleHigh cw ws cut s hs
  | .spiRead t port idleHigh cw => execSpiRead_kept t port idleHigh cw s hs
  | .s0Write t addr ws cut => execS0Write_kept t addr ws cut s hs
  | .s0Read t addr count => execS0Read_kept t addr count s hs
  | .s0AddressMatch t addr => execS0AddressMatch_kept t addr s hs
  | .hostPortFailed t port => execHostPortFailed_kept t port s hs
  | .hostSelfCheck t port passed => execHostSelfCheck_kept t port passed s hs
  | .lendiWindowStart t l dep4 => execLendiWindowStart_kept t l dep4 s hs
  | .gatewayWindowMarker t l wseq arr4 => execGatewayWindowMarker_kept t l wseq arr4 s hs
  | .link t l ws => execLink_kept t l ws s hs
  | .ack t l ws => execAck_kept t l ws s hs
  | .credit t l ws => execCredit_kept t l ws s hs
  | .tstamp t l ws => execTstamp_kept t l ws s hs
  | .qrep t l ws => execQrep_kept t l ws s hs
  | .rel t l ws => execRel_kept t l ws s hs
  | .resp t l ws => execResp_kept t l ws s hs
  | .ackTimeout t l => execAckTimeout_kept t l s hs
  | .tlockLost t l => execTlockLost_kept t l s hs
  | .linkDown t l cause => execLinkDown_kept t l cause s hs
  | .linkFailed t l => execLinkFailed_kept t l s hs
  | .linkRestored t l => execLinkRestored_kept t l s hs
  | .undeliveredLink t jsn => execUndeliveredLink_kept t jsn s hs
  | .relq t jsn => execRelq_kept t jsn s hs
  | .relqTimeout t jsn => execRelqTimeout_kept t jsn s hs
  | .sendResent t jsn => execSendResent_kept t jsn s hs
  | .noResponse t jsn => execNoResponse_kept t jsn s hs
  | .sendUndelivered t jsn => execSendUndelivered_kept t jsn s hs
  | .occurrenceArm t jsn => execOccurrenceArm_kept t jsn s hs
  | .occurrenceRelease t jsn => execOccurrenceRelease_kept t jsn s hs
  | .class1Outcome t jsn => execClass1Outcome_kept t jsn s hs
  | .wheelSweep t => execWheelSweep_kept t s hs
  | .directPathCopy t => execDirectPathCopy_kept t s hs
  | .eventReevaluation t => execEventReevaluation_kept t s hs
  | .markFold t n => execMarkFold_kept t n s hs
  | .groupComplete t => execGroupComplete_kept t s hs
  | .ringCarry t n => execRingCarry_kept t n s hs
  | .storeFailed t store => execStoreFailed_kept t store s hs
  | .remirrorEnd t store => execRemirrorEnd_kept t store s hs
  | .replay t testA testB finds => execReplay_kept t testA testB finds s hs
  | .leapChange t => execLeapChange_kept t s hs
  | .stepAnnounce t => execStepAnnounce_kept t s hs
  | .stepApply t => execStepApply_kept t s hs
  | .slewDecision t => execSlewDecision_kept t s hs
  | .slewEnd t => execSlewEnd_kept t s hs
  | .quadCount t n isB level => execQuadCount_kept t n isB level s hs
  | .quadIndex t n => execQuadIndex_kept t n s hs
  | .quadIllegal t n => execQuadIllegal_kept t n s hs
  | .ssiFrame t n data err low => execSsiFrame_kept t n data err low s hs
  | .tachPulse t n => execTachPulse_kept t n s hs
  | .mainsZeroCrossing t positive phase => execMainsZeroCrossing_kept t positive phase s hs
  | .ref1ppsPulse t => execRef1ppsPulse_kept t s hs
  | .qtyTimeout t n => execQtyTimeout_kept t n s hs
  | .tpgEdge t n => execTpgEdge_kept t n s hs
  | .outConfigEffect t n => execOutConfigEffect_kept t n s hs
  | .outSquelch t n => execOutSquelch_kept t n s hs
  | .outResume t n => execOutResume_kept t n s hs
  | .outputCut t n => execOutputCut_kept t n s hs
  | .pllUnlock t p => execPllUnlock_kept t p s hs
  | .pllHold t p => execPllHold_kept t p s hs
  | .pllLocked t p band search => execPllLocked_kept t p band search s hs
  | .pllNoLock t p => execPllNoLock_kept t p s hs
  | .ocxoLost t => execOcxoLost_kept t s hs
  | .ocxoFailed t => execOcxoFailed_kept t s hs
  | .ocxoBack t warm => execOcxoBack_kept t warm s hs
  | .ocxoWarm t temp => execOcxoWarm_kept t temp s hs
  | .freqPointChange t idx pt => execFreqPointChange_kept t idx pt s hs
  | .voltPointChange t idx pt => execVoltPointChange_kept t idx pt s hs
  | .voltageSettled t idx => execVoltageSettled_kept t idx s hs
  | .rfBlockBoundary t streams bias => execRfBlockBoundary_kept t streams bias s hs
  | .antShort t a => execAntShort_kept t a s hs
  | .biasRetry t a => execBiasRetry_kept t a s hs
  | .retriesClear t a => execRetriesClear_kept t a s hs
  | .antOpen t a ma => execAntOpen_kept t a ma s hs
  | .antOk t a ma => execAntOk_kept t a ma s hs
  | .loUnlock t st => execLoUnlock_kept t st s hs
  | .loRelocked t st => execLoRelocked_kept t st s hs
  | .frontEndFailed t a => execFrontEndFailed_kept t a s hs
  | .blankHeavy t st frac => execBlankHeavy_kept t st frac s hs
  | .blankHeavyClear t st frac => execBlankHeavyClear_kept t st frac s hs
  | .galeSlot t w => execGaleSlot_kept t w s hs
  | .galeInputTimeout t slot => execGaleInputTimeout_kept t slot s hs
  | .kiteApplicationTick t => execKiteApplicationTick_kept t s hs
  | .kiteSnapshot t ofsPs dumps => execKiteSnapshot_kept t ofsPs dumps s hs
  | .kiteLoopUpdate t n ints => execKiteLoopUpdate_kept t n ints s hs
  | .kiteEvaluation t => execKiteEvaluation_kept t s hs
  | .noPullIn t n => execNoPullIn_kept t n s hs
  | .cn0Loss t n => execCn0Loss_kept t n s hs
  | .memberDrop t n => execMemberDrop_kept t n s hs
  | .trainCoastTimeout t tr => execTrainCoastTimeout_kept t tr s hs
  | .lostToIdle t n => execLostToIdle_kept t n s hs
  | .d5RetentionTimeout t => execD5RetentionTimeout_kept t s hs
  | .measEpoch t obs => execMeasEpoch_kept t obs s hs
  | .navMessageDecoded t n => execNavMessageDecoded_kept t n s hs
  | .dedupTimeout t partner chan => execDedupTimeout_kept t partner chan s hs
  | .solutionEpoch t x own => execSolutionEpoch_kept t x own s hs
  | .signalLoss t => execSignalLoss_kept t s hs
  | .signalReturn t => execSignalReturn_kept t s hs
  | .headingEpoch t => execHeadingEpoch_kept t s hs
  | .holdMismatch t a => execHoldMismatch_kept t a s hs
  | .modeTick t own => execModeTick_kept t own s hs
  | .snapshotWake t own => execSnapshotWake_kept t own s hs
  | .fixEnd t => execFixEnd_kept t s hs
  | .snapshotMiss t => execSnapshotMiss_kept t s hs
  | .smpFrameStart t p rising bclk clocks line => execSmpFrameStart_kept t p rising bclk clocks line s hs
  | .smpMissingFrame t p bclk => execSmpMissingFrame_kept t p bclk s hs
  | .smpSampleWrite t p => execSmpSampleWrite_kept t p s hs
  | .smpPortStart t p => execSmpPortStart_kept t p s hs
  | .smpPortStop t p => execSmpPortStop_kept t p s hs
  | .smpAudio t p pair => execSmpAudio_kept t p pair s hs
  | .taskStart t k => execTaskStart_kept t k s hs
  | .budget t k => execBudget_kept t k s hs
  | .nop t k => execNop_kept t k s hs
  | .endTask t k => execEndTask_kept t k s hs
  | .post t k ap shared dn => execPost_kept t k ap shared dn s hs
  | .dmac t k m0 m1 la lb => execDmac_kept t k m0 m1 la lb s hs
  | .add t k dd da db => execAdd_kept t k dd da db s hs
  | .sub t k dd da db => execSub_kept t k dd da db s hs
  | .and t k dd da db => execAnd_kept t k dd da db s hs
  | .or t k dd da db => execOr_kept t k dd da db s hs
  | .xor t k dd da db => execXor_kept t k dd da db s hs
  | .shl t k dd da db => execShl_kept t k dd da db s hs
  | .shr t k dd da db => execShr_kept t k dd da db s hs
  | .sar t k dd da db => execSar_kept t k dd da db s hs
  | .cmp t k dd da db => execCmp_kept t k dd da db s hs
  | .abs t k dd da db => execAbs_kept t k dd da db s hs
  | .neg t k dd da db => execNeg_kept t k dd da db s hs
  | .min t k dd da db => execMin_kept t k dd da db s hs
  | .max t k dd da db => execMax_kept t k dd da db s hs
  | .alui t k op dd da imm => execAlui_kept t k op dd da imm s hs
  | .clr t k ak => execClr_kept t k ak s hs
  | .ext t k dd ak sh rnd sat => execExt_kept t k dd ak sh rnd sat s hs
  | .mova t k ak dd => execMova_kept t k ak dd s hs
  | .sbc t k dd ak => execSbc_kept t k dd ak s hs
  | .norm t k ak sh => execNorm_kept t k ak sh s hs
  | .load t k isLocal ap dd modf => execLoad_kept t k isLocal ap dd modf s hs
  | .store t k isLocal ap dd modf => execStore_kept t k isLocal ap dd modf s hs
  | .vmin t k uns ap isLocal dn dd => execVmin_kept t k uns ap isLocal dn dd s hs
  | .vmax t k uns ap isLocal dn dd => execVmax_kept t k uns ap isLocal dn dd s hs
  | .vbexp t k ap isLocal dn dd => execVbexp_kept t k ap isLocal dn dd s hs
  | .rot t k n dd da => execRot_kept t k n dd da s hs
  | .fun2 t k n dd da db => execFun2_kept t k n dd da db s hs
  | .br t k cond target => execBr_kept t k cond target s hs
  | .loop t k endAddr dn => execLoop_kept t k endAddr dn s hs
  | .mov t k dst src => execMov_kept t k dst src s hs
  | .illegal t k => execIllegal_kept t k s hs
  | .userCoreFailed t k => execUserCoreFailed_kept t k s hs
  | .coreHeartbeatLoss t c => execCoreHeartbeatLoss_kept t c s hs
  | .memoryAccess t reqs => execMemoryAccess_kept t reqs s hs
  | .patrolLease t engine ecc patternOk => execPatrolLease_kept t engine ecc patternOk s hs
  | .bankFailed t b => execBankFailed_kept t b s hs
  | .spareCopyComplete t => execSpareCopyComplete_kept t s hs
  | .memRetentionIdle t => execMemRetentionIdle_kept t s hs
  | .rtcCommitTick t => execRtcCommitTick_kept t s hs
  | .alarmFire t x => execAlarmFire_kept t x s hs
  | .rtcLeapChange t => execRtcLeapChange_kept t s hs
  | .autoSync t => execAutoSync_kept t s hs
  | .trimWindowEnd t => execTrimWindowEnd_kept t s hs
  | .trimWindowTimeout t => execTrimWindowTimeout_kept t s hs
  | .cellMeasurement t mv => execCellMeasurement_kept t mv s hs
  | .switchover t => execSwitchover_kept t s hs
  | .switchReturn t mv => execSwitchReturn_kept t mv s hs
  | .aonCold t => execAonCold_kept t s hs
  | .governorEvaluation t demand idle => execGovernorEvaluation_kept t demand idle s hs
  | .mainsLoss t => execMainsLoss_kept t s hs
  | .mainsGoodReturn t => execMainsGoodReturn_kept t s hs
  | .bringUp t volts hz dc bad => execBringUp_kept t volts hz dc bad s hs
  | .dormantEntry t => execDormantEntry_kept t s hs
  | .wake t cause bad => execWake_kept t cause bad s hs
  | .watchdog t src => execWatchdog_kept t src s hs
  | .lockstepFault t => execLockstepFault_kept t s hs
  | .converterStageFailed t stage => execConverterStageFailed_kept t stage s hs
  | .ethLinkStayedUp t port => execEthLinkStayedUp_kept t port s hs
  | .lendiFrameDropped t l ws => execLendiFrameDropped_kept t l ws s hs

/-! The claim -/

/-- A step with a command in front of the queue is that command on the rest of the queue. -/
theorem step_kept (s : State) : KeptBy (s.mem.cells, s.pending.tail) (step s) := by
  unfold step
  cases hq : s.pending with
  | nil => simpa [State.held, hq] using Kept.refl (s.mem.cells, s.pending)
  | cons c rest => exact exec_kept c { s with pending := rest } (Kept.refl _)

/-- Settles O58: each command keeps memory in its canonical form, because every write of memory
goes through `State.memWrites`, and a step carries out one command or lets time pass. -/
theorem stepKeepsInvariant : Obligations.StepKeepsInvariant := by
  intro s u hs h
  have hk := step_kept s
  rw [h] at hk
  exact hk.2 hs

end Sys2Proof.Machine
end

section
/-! # The quantities' mirror in shared memory (O19) -/
namespace Sys2Proof.Machine
open Sys2Proof

/-- A byte outside the words stored from `a` on reads as before. -/
theorem Memory.cellRead_writes_out (m : Memory) (a adr : Nat) (ws : List Word)
    (h : ∀ i, i < ws.length → adr / 6 ≠ (a + i) % 2 ^ 24) :
    cellRead adr (m.writes a ws).cells = cellRead adr m.cells := by
  induction ws generalizing m a with
  | nil => rfl
  | cons w ws ih =>
    show cellRead adr ((m.write (a % 2 ^ 24) w).writes (a + 1) ws).cells = _
    have hhead : adr / 6 ≠ a % 2 ^ 24 := h 0 (by simp)
    have htail : ∀ i, i < ws.length → adr / 6 ≠ (a + 1 + i) % 2 ^ 24 := fun i hi => by
      rw [show a + 1 + i = a + (i + 1) by omega]
      exact h (i + 1) (by simpa using hi)
    rw [ih _ _ htail, Memory.cellRead_store, if_neg hhead]

/-- A run of at most 2^24 words reads back as stored. -/
theorem Memory.reads_writes (m : Memory) (a : Nat) (ws : List Word) (hn : ws.length ≤ 2 ^ 24) :
    (m.writes a ws).reads a ws.length = ws := by
  refine List.ext_getElem (by simp [Memory.reads]) fun i _ hi => ?_
  simpa [Memory.reads] using Memory.read_writes m a i ws hi hn

/-- Words outside the words stored read as before. -/
theorem Memory.reads_writes_out (m : Memory) (a b n : Nat) (ws : List Word)
    (h : ∀ i k, i < ws.length → k < n → (a + i) % 2 ^ 24 ≠ (b + k) % 2 ^ 24) :
    (m.writes a ws).reads b n = m.reads b n :=
  List.map_congr_left fun k hk =>
    Memory.read_writes_out _ _ _ _ fun i hi => h i k hi (List.mem_range.mp hk)

/-- The entries `f 0` to `f (n - 1)`, of eight words each, stored one after the other from `a` on. -/
def Memory.writeEntries (a : Nat) (f : Nat → List Word) (n : Nat) (m : Memory) : Memory :=
  (List.range n).foldl (fun m i => m.writes (a + 8 * i) (f i)) m

theorem Memory.writeEntries_succ (a : Nat) (f : Nat → List Word) (n : Nat) (m : Memory) :
    m.writeEntries a f (n + 1) = (m.writeEntries a f n).writes (a + 8 * n) (f n) := by
  simp [Memory.writeEntries, List.range_succ]

/-- Every entry reads back, as long as the entries do not run round memory. -/
theorem Memory.reads_writeEntries (a : Nat) (f : Nat → List Word) (hf : ∀ i, (f i).length = 8)
    (m : Memory) (n i : Nat) (hn : 8 * n ≤ 2 ^ 24) (hi : i < n) :
    (m.writeEntries a f n).reads (a + 8 * i) 8 = f i := by
  induction n with
  | zero => omega
  | succ n ih =>
    rw [Memory.writeEntries_succ]
    by_cases h : i = n
    · subst h
      have := Memory.reads_writes (m.writeEntries a f i) (a + 8 * i) (f i) (by rw [hf]; omega)
      rwa [hf] at this
    · rw [Memory.reads_writes_out, ih (by omega) (by omega)]
      intro j k hj hk
      rw [hf] at hj
      omega

/-- Every byte outside the entries reads as before. -/
theorem Memory.cellRead_writeEntries (a adr : Nat) (f : Nat → List Word)
    (hf : ∀ i, (f i).length = 8) (m : Memory) (n : Nat)
    (h : ∀ k, k < 8 * n → adr / 6 ≠ (a + k) % 2 ^ 24) :
    cellRead adr (m.writeEntries a f n).cells = cellRead adr m.cells := by
  induction n with
  | zero => rfl
  | succ n ih =>
    rw [Memory.writeEntries_succ, Memory.cellRead_writes_out, ih fun k hk => h k (by omega)]
    intro i hi
    rw [hf] at hi
    rw [Nat.add_assoc]
    exact h (8 * n + i) (by omega)

/-- A mirror entry says nothing of shared memory. -/
@[simp] theorem mirror_putMem (s : State) (m : Memory) (n : Nat) :
    (s.putMem m).mirror n = s.mirror n := rfl
theorem mirror_length (s : State) (n : Nat) : (s.mirror n).length = 8 := rfl

/-- A sweep stores the entries of the state in which it begins. -/
theorem sweep_eq_writeEntries (a n : Nat) (s : State) :
    (List.range n).foldl (fun (s : State) i => s.memWrites (a + 8 * i) (s.mirror i)) s
      = s.putMem (s.mem.writeEntries a s.mirror n) := by
  induction n with
  | zero => rfl
  | succ n ih =>
    rw [List.range_succ, List.foldl_append, ih, Memory.writeEntries_succ]
    simp only [List.foldl_cons, List.foldl_nil, State.memWrites, mirror_putMem]
    rfl

/-- A sweep at a new 2^-16 s of Tether time stores the entries, unless memory is asked into retention. -/
theorem execWheelSweep_new (t : Lapse) (s a b : State) (ha : s.elapse t = a)
    (hon : a.isOn 11 = true) (hidx : a.tb.q0.toNat / 2 ^ 32 ≠ a.sch.swept)
    (hreq : tget 0 7 a.pwr.req ≠ 1)
    (hb : b = a.putSch { a.sch with
      swept := a.tb.q0.toNat / 2 ^ 32, mseq := (a.sch.mseq + 1) % 2 ^ 16 }) :
    execWheelSweep t s =
      .next (b.putMem (b.mem.writeEntries (Config.qMirror 0).toNat b.mirror 16)) := by
  unfold execWheelSweep
  rw [ha]; dsimp only
  rw [if_pos ⟨hon, hidx, hreq⟩, ← hb, sweep_eq_writeEntries]
/-- A second sweep within one 2^-16 s of Tether time stores nothing. -/
theorem execWheelSweep_again (t : Lapse) (s a : State) (ha : s.elapse t = a)
    (hidx : a.tb.q0.toNat / 2 ^ 32 = a.sch.swept) : execWheelSweep t s = .next a := by
  unfold execWheelSweep
  rw [ha]; dsimp only
  exact if_neg fun h => h.2.1 hidx

/-- Settles O19: the sixteen entries are stored one after the other, each as the state at the
beginning of the sweep has it, and do not overlap. -/
theorem quantityMirror : Obligations.QuantityMirror := by
  intro t s adr
  generalize ha : s.elapse t = a
  intro a' idx b base
  have hlen := mirror_length b
  refine ⟨fun hon hidx hreq => ⟨_, execWheelSweep_new t s a b ha hon hidx hreq rfl, ?_, ?_, ?_, ?_⟩,
    fun hidx => execWheelSweep_again t s a ha hidx⟩
  · exact putMem_sch _ _
  · exact fun n hn => Memory.reads_writeEntries base b.mirror hlen b.mem 16 n (by omega) hn
  · exact Memory.cellRead_writeEntries base adr b.mirror hlen b.mem 16
  · rfl

end Sys2Proof.Machine
end

section
/-! # Registers read, written and modified by a partner's commands (O30) -/
namespace Sys2Proof.Machine
open Sys2Proof

/-! ## A packet that completes -/

/-- A command completes with its own verdict `v`: every field but the command unit's own is as `v`
leaves it from a state `b` that agrees with the one at arrival. -/
theorem runOp_completes (op : OpSpec) (t : Lapse) (env : Env) (ps : List Word) (rights : Nat)
    (s : State) (v : Verdict) (ws : List Word) (P : State → Prop)
    (h : (s.elapse t).admits op.code rights op.modes env ps = true) (hcode : 3 < op.code)
    (hr : op.rights ≤ rights)
    (hv : op.eval (pktOf op.code env ps (s.elapse t)) ((s.elapse t).bound env) = v)
    (hw : v.reply = ws)
    (hroom : entriesFor ((v.stored.getD ps).length + ws.length) + v.promise ≤ 1000)
    (hact : ∀ j b, ((v.act j b).part env.partner).lseq = (b.part env.partner).lseq ∧
      ((v.act j b).part env.partner).replays = (b.part env.partner).replays)
    (hP : ∀ j b u, b.rest = (s.elapse t).rest → u.rest = (v.act j b).rest → P u) :
    Completes op.code v.status.code ws env (s.elapse t) (runOp op t env ps s) P := by
  subst hw
  have hle : v.words.length ≤ v.reply.length := by unfold Verdict.reply; split <;> simp_all
  have hmono : entriesFor ((v.stored.getD ps).length + v.words.length)
      ≤ entriesFor ((v.stored.getD ps).length + v.reply.length) := by unfold entriesFor; omega
  have hj := judge_eval op env ps rights op.modes _ v h hr rfl hv (by omega)
  obtain ⟨u, hu, hshow, hrest⟩ := runOp_judged op t env ps rights op.modes s v h (by omega) (by omega)
    (by omega) hj (by omega) hact
  exact ⟨u, hu, hshow, hP _ _ u (by rw [handed_rest, bound_rest]) hrest⟩

/-! ## Registers of the scheduling block -/

theorem live_sch (s : State) (o : Nat) : s.live (.sch o) = s.isOn 11 := rfl
theorem live_clk (s : State) (o : Nat) : s.live (.clk o) = s.isOn 11 := rfl
theorem isOn_of_rest {a b : State} (h : a.rest = b.rest) (d : Nat) : a.isOn d = b.isOn d := by
  unfold State.isOn State.dom; rw [of_rest_pwr h]

/-- The command unit's own fields and the scheduling block are apart. -/
theorem putSch_rest (s : State) (v : Sched) : (s.putSch v).rest = s.rest.putSch v := rfl
theorem putClk_rest (s : State) (v : Clock) : (s.putClk v).rest = s.rest.putClk v := rfl

/-- Where only the scheduling block was written, it is as written and the rest as before. -/
theorem sch_of_rest_putSch {a b u : State} {v : Sched} (hb : b.rest = a.rest)
    (h : u.rest = (b.putSch v).rest) : u.sch = v ∧ u.rest = (a.putSch u.sch).rest := by
  have hv : u.sch = v := of_rest_sch h
  refine ⟨hv, ?_⟩
  rw [hv, h, putSch_rest, putSch_rest, hb]
theorem clk_of_rest_putClk {a b u : State} {v : Clock} (hb : b.rest = a.rest)
    (h : u.rest = (b.putClk v).rest) : u.clk = v ∧ u.rest = (a.putClk u.clk).rest := by
  have hv : u.clk = v := of_rest_clk h
  refine ⟨hv, ?_⟩
  rw [hv, h, putClk_rest, putClk_rest, hb]

/-- Reading a register of the scheduling block changes nothing. -/
theorem readReg_sch_state (path o : Nat) (s : State) : (s.readReg path (.sch o)).2 = s := by
  unfold State.readReg; split
  · rfl
  · split
    · rfl
    · split <;> rfl
/-- With D11 on, a register of the scheduling block reads its word. -/
theorem readReg_sch_live (path o : Nat) (s : State) (h : s.isOn 11 = true) :
    (s.readReg path (.sch o)).1 = s.schWord o := by
  unfold State.readReg; rw [live_sch, h]; rfl
/-- SCH_PENDMAX is kept in every state of its domain (R517). -/
theorem readReg_pendMax (path : Nat) (s : State) :
    (s.readReg path (.sch 0)).1 = pack [put 47 28 s.sch.pendMax] := by
  unfold State.readReg; split
  · rfl
  · split
    · rfl
    · split <;> rfl

/-- A command reads what stood there at its arrival. -/
theorem readReg_cntRel_bound (path : Nat) (env : Env) (a : State) (h : a.isOn 11 = true) :
    ((a.bound env).readReg path (.sch 3)).1 = word a.sch.cntRel :=
  readReg_sch_live path 3 (a.bound env) h
theorem readReg_pendMax_bound (path : Nat) (env : Env) (a : State) :
    ((a.bound env).readReg path (.sch 0)).1 = pack [put 47 28 a.sch.pendMax] :=
  readReg_pendMax path (a.bound env)

/-! ## The verdicts on one register -/

/-- The verdict of a REG_READ of one register. -/
theorem opRegRead_one (k : Pkt) (s : State) (w : Word) (a : Nat) (hps : k.ps = [w])
    (ha : fld w 47 24 = a) (hn : fld w 23 12 = 1) (hlt : a < 2 ^ 24) :
    opRegRead.eval k s =
      { status := .done, words := [(s.readReg k.partner (regOf a)).1],
        full := accessOf (regOf a) == .rc,
        act := fun _ t => (t.readReg k.partner (regOf a)).2.rcClear 1 (regOf a) } := by
  subst ha
  have hbound : ¬ 16777216 ≤ fld w 47 24 := by omega
  simp [opRegRead, hps, arg, hn, hbound, State.readRegs]

/-- A REG_READ of no word is BAD_PARAM. -/
theorem opRegRead_none (k : Pkt) (s : State) (hn : fld (arg k.ps 0) 23 12 = 0) :
    opRegRead.eval k s = refuse .badParam [0] := by
  simp [opRegRead, hn]; rfl

/-- The verdict of a REG_WRITE of one register is that on its word. -/
theorem opRegWrite_one (k : Pkt) (s : State) (w v : Word) (a : Nat) (hps : k.ps = [w, v])
    (ha : fld w 47 24 = a) (hn : fld w 23 12 = 1) (hlt : a < 2 ^ 24) :
    opRegWrite.eval k s =
      s.writeVerdict k.partner [(a, v)] [] (some [w, if secret a then 0 else v]) := by
  subst ha
  have hbound : ¬ 16777216 ≤ fld w 47 24 := by omega
  simp [opRegWrite, hps, arg, hn, hbound]

/-- The verdict of a REG_MODIFY of an RW register is that on the word it makes. -/
theorem opRegModify_one (k : Pkt) (s : State) (w m v old : Word) (a : Nat) (hps : k.ps = [w, m, v])
    (ha : fld w 47 24 = a) (hrw : accessOf (regOf a) = .rw)
    (hold : (s.readReg k.partner (regOf a)).1 = old) :
    opRegModify.eval k s = s.writeVerdict k.partner [(a, (old &&& ~~~m) ||| (v &&& m))]
      [old, (old &&& ~~~m) ||| (v &&& m)] none := by
  subst ha
  simp [opRegModify, hps, arg, hrw, hold]

/-- A REG_MODIFY of a register that is not RW is NOT_PERMITTED, with its address. -/
theorem opRegModify_not_rw (k : Pkt) (s : State) (a : Nat) (hlen : k.ps.length = 3)
    (ha : fld (arg k.ps 0) 47 24 = a) (hrw : accessOf (regOf a) ≠ .rw) :
    opRegModify.eval k s = refuse .notPermitted [regReason a 0] := by
  subst ha
  simp [opRegModify, hlen, hrw]

section
variable {p a : Nat} {v : Word} {s : State} (reply : List Word) (stored : Option (List Word))

/-- One word that is no commit word is judged on the state as it stands. -/
theorem refusalOf_plain (hplain : isCommit (regOf a) = false) :
    s.refusalOf ⟨p, (s.part p).rights⟩ [(a, v)] =
      (State.wordRefusal ⟨p, (s.part p).rights⟩ (s.regApply p 0 (regOf a) v) s (regOf a) v).map
        fun e => (a, e) := by
  unfold State.refusalOf
  simp only [firstRefusal, hplain, State.applyAll, plainWords, commitWords, State.applyWords]
  split <;> simp_all

/-- A plain word that nothing refuses takes effect. -/
theorem writeVerdict_plain (hplain : isCommit (regOf a) = false)
    (hok : State.wordRefusal ⟨p, (s.part p).rights⟩ (s.regApply p 0 (regOf a) v) s (regOf a) v
      = none) :
    s.writeVerdict p [(a, v)] reply stored =
      { status := .done, words := reply, stored := stored,
        pins := (s.regApply p 0 (regOf a) v).wordPins p a v,
        act := fun j t => t.regApply p j (regOf a) v } := by
  unfold State.writeVerdict
  simp [refusalOf_plain hplain, hok, State.applyAll, plainWords, commitWords, State.applyWords,
    hplain]

/-- A plain word that is refused, but not for a LOST copy, changes nothing and names its address. -/
theorem writeVerdict_refused (hplain : isCommit (regOf a) = false) (st : Status) (r : Nat)
    (hlost : r ≠ 0xF41)
    (hno : State.wordRefusal ⟨p, (s.part p).rights⟩ (s.regApply p 0 (regOf a) v) s (regOf a) v
      = some (st, r)) :
    s.writeVerdict p [(a, v)] reply stored =
      { status := st, words := [regReason a r], stored := stored } := by
  unfold State.writeVerdict
  simp [refusalOf_plain hplain, hno, hlost]
end

/-- What refuses a word for SCH_PENDMAX: too few rights, or a number out of range. -/
theorem wordRefusal_pendMax (w : Writer) (fin s : State) (v : Word) :
    State.wordRefusal w fin s (.sch 0) v =
      if 3 ≤ w.rights then (if 983040 < fld v 47 28 then some (.badParam, 0) else none)
      else some (.notPermitted, 0) := by
  have h : s.mayWrite w (.sch 0) = decide (3 ≤ w.rights) := rfl
  simp [State.wordRefusal, State.regRefusal, badIf, accessOf, h]
theorem wordRefusal_ro (w : Writer) (fin s : State) (v : Word) :
    State.wordRefusal w fin s (.sch 1) v = none := rfl
theorem wordRefusal_clkFault (w : Writer) (fin s : State) (v : Word) (h : 2 ≤ w.rights) :
    State.wordRefusal w fin s (.clk 2) v = none := by
  have h : s.mayWrite w (.clk 2) = true := decide_eq_true h
  simp [State.wordRefusal, State.regRefusal, accessOf, h]

theorem regApply_pendMax (p j : Nat) (v : Word) (s : State) :
    s.regApply p j (.sch 0) v = s.putSch { s.sch with pendMax := fld v 47 28 } := rfl
theorem regApply_ro (p j : Nat) (v : Word) (s : State) : s.regApply p j (.sch 1) v = s := rfl
/-- A W1C write clears the bits written as 1 where the block is on, and nothing else. -/
theorem regApply_clkFault (p j : Nat) (v : Word) (s : State) :
    s.regApply p j (.clk 2) v =
      if s.isOn 11 then s.putClk { s.clk with fault := clearBits s.clk.fault v.toNat } else s := by
  show s.w1c (.clk 2) v = _
  unfold State.w1c; rw [live_clk]
  cases s.isOn 11 <;> rfl
/-- Reading an RC counter clears it where the block is on. -/
theorem rcClear_cntRel (s : State) :
    s.rcClear 1 (.sch 3) = if s.isOn 11 then s.putSch { s.sch with cntRel := 0 } else s := by
  unfold State.rcClear; rw [live_sch]
  cases s.isOn 11 <;> rfl

/-! ## The commands on one register -/

section
variable {t : Lapse} {env : Env} {s : State} {f : State → State}
  {P : State → Prop}

/-- A write of a partner's part alone leaves what a command shows as it is. -/
theorem keeps_shown {b u : State} (h : u.parts = b.parts) (p : Nat) :
    (u.part p).lseq = (b.part p).lseq ∧ (u.part p).replays = (b.part p).replays := by
  rw [part_congr h p]; exact ⟨rfl, rfl⟩

/-- REG_READ of a register whose reading does `f` to the state. -/
theorem regRead_completes (a : Nat) (r : Reg) (w x : Word)
    (h : (s.elapse t).admits 0x010 1 0xFFE env [w] = true)
    (ha : fld w 47 24 = a) (hn : fld w 23 12 = 1) (hlt : a < 2 ^ 24) (hreg : regOf a = r)
    (hx : (((s.elapse t).bound env).readReg env.partner r).1 = x)
    (hf : ∀ b : State, (b.readReg env.partner r).2.rcClear 1 r = f b)
    (hparts : ∀ b, (f b).parts = b.parts)
    (hP : ∀ b u, b.rest = (s.elapse t).rest → u.rest = (f b).rest → P u) :
    Completes 0x010 1 [x] env (s.elapse t) (runOp opRegRead t env [w] s) P := by
  subst hreg
  refine runOp_completes opRegRead t env _ 1 s _ _ _ h (by decide) (by decide)
    (opRegRead_one _ _ w a rfl ha hn hlt) (congrArg (fun y => [y]) hx) (by simp [entriesFor]) ?_ ?_
  · exact fun _ b => keeps_shown (by rw [← hparts b, ← hf b]; rfl) env.partner
  · exact fun _ b u hb hu => hP b u hb (by rw [← hf b]; exact hu)

/-- REG_WRITE of a plain word that nothing refuses and that does `f` to the state. -/
theorem regWrite_completes (rights : Nat) (hr : 2 ≤ rights) (a : Nat) (r : Reg) (w v : Word)
    (h : (s.elapse t).admits 0x011 rights 0xFFE env [w, v] = true)
    (ha : fld w 47 24 = a) (hn : fld w 23 12 = 1) (hlt : a < 2 ^ 24) (hreg : regOf a = r)
    (hplain : isCommit r = false)
    (hok : ∀ fin, State.wordRefusal ⟨env.partner, ((s.elapse t).part env.partner).rights⟩ fin
      ((s.elapse t).bound env) r v = none)
    (hf : ∀ (j : Nat) (b : State), b.regApply env.partner j r v = f b)
    (hparts : ∀ b, (f b).parts = b.parts)
    (hP : ∀ b u, b.rest = (s.elapse t).rest → u.rest = (f b).rest → P u) :
    Completes 0x011 1 [] env (s.elapse t) (runOp opRegWrite t env [w, v] s) P := by
  subst hreg
  have hrt : (((s.elapse t).bound env).part env.partner).rights
      = ((s.elapse t).part env.partner).rights :=
    bound_part_view (fun x : Partner => x.rights) (fun _ _ => rfl) env _ _
  have hv := (opRegWrite_one (pktOf 0x011 env [w, v] (s.elapse t)) ((s.elapse t).bound env) w v a
    rfl ha hn hlt).trans (writeVerdict_plain _ _ hplain (hrt.symm ▸ hok _))
  refine runOp_completes opRegWrite t env _ rights s _ _ _ h (by decide) hr hv rfl
    (by simp [entriesFor]) ?_ ?_
  · exact fun j b => keeps_shown (by rw [← hparts b, ← hf j b]; rfl) env.partner
  · exact fun j b u hb hu => hP b u hb (by rw [← hf j b]; exact hu)

/-- REG_WRITE of a plain word that is refused, but not for a LOST copy. -/
theorem regWrite_refused (rights : Nat) (hr : 2 ≤ rights) (a : Nat) (r : Reg) (w v : Word) (st : Status) (why : Nat)
    (h : (s.elapse t).admits 0x011 rights 0xFFE env [w, v] = true)
    (ha : fld w 47 24 = a) (hn : fld w 23 12 = 1) (hlt : a < 2 ^ 24) (hreg : regOf a = r)
    (hplain : isCommit r = false) (hlost : why ≠ 0xF41)
    (hno : ∀ fin, State.wordRefusal ⟨env.partner, ((s.elapse t).part env.partner).rights⟩ fin
      ((s.elapse t).bound env) r v = some (st, why)) :
    Completes 0x011 st.code [regReason a why] env (s.elapse t) (runOp opRegWrite t env [w, v] s)
      fun u => u.rest = (s.elapse t).rest := by
  subst hreg
  have hrt : (((s.elapse t).bound env).part env.partner).rights
      = ((s.elapse t).part env.partner).rights :=
    bound_part_view (fun x : Partner => x.rights) (fun _ _ => rfl) env _ _
  have hv := (opRegWrite_one (pktOf 0x011 env [w, v] (s.elapse t)) ((s.elapse t).bound env) w v a
    rfl ha hn hlt).trans (writeVerdict_refused _ _ hplain st why hlost (hrt.symm ▸ hno _))
  exact runOp_completes opRegWrite t env _ rights s _ _ _ h (by decide) hr hv rfl
    (by simp [entriesFor]) (fun _ _ => ⟨rfl, rfl⟩) (fun _ _ _ hb hu => hu.trans hb)

/-- REG_MODIFY of a plain RW register whose new word nothing refuses and does `f` to the state. -/
theorem regModify_completes (rights : Nat) (hr : 2 ≤ rights) (a : Nat) (r : Reg) (w m v old : Word)
    (h : (s.elapse t).admits 0x012 rights 0xFFE env [w, m, v] = true)
    (ha : fld w 47 24 = a) (hreg : regOf a = r) (hrw : accessOf r = .rw)
    (hplain : isCommit r = false)
    (hold : (((s.elapse t).bound env).readReg env.partner r).1 = old)
    (hok : ∀ fin, State.wordRefusal ⟨env.partner, ((s.elapse t).part env.partner).rights⟩ fin
      ((s.elapse t).bound env) r ((old &&& ~~~m) ||| (v &&& m)) = none)
    (hf : ∀ (j : Nat) (b : State), b.regApply env.partner j r ((old &&& ~~~m) ||| (v &&& m)) = f b)
    (hparts : ∀ b, (f b).parts = b.parts)
    (hP : ∀ b u, b.rest = (s.elapse t).rest → u.rest = (f b).rest → P u) :
    Completes 0x012 1 [old, (old &&& ~~~m) ||| (v &&& m)] env (s.elapse t) (runOp opRegModify t env [w, m, v] s) P := by
  subst hreg
  have hrt : (((s.elapse t).bound env).part env.partner).rights
      = ((s.elapse t).part env.partner).rights :=
    bound_part_view (fun x : Partner => x.rights) (fun _ _ => rfl) env _ _
  have hv := (opRegModify_one (pktOf 0x012 env [w, m, v] (s.elapse t)) ((s.elapse t).bound env)
    w m v old a rfl ha hrw hold).trans (writeVerdict_plain _ _ hplain (hrt.symm ▸ hok _))
  refine runOp_completes opRegModify t env _ rights s _ _ _ h (by decide) hr hv rfl
    (by simp [entriesFor]) ?_ ?_
  · exact fun j b => keeps_shown (by rw [← hparts b, ← hf j b]; rfl) env.partner
  · exact fun j b u hb hu => hP b u hb (by rw [← hf j b]; exact hu)
end

/-- A partner whose packet is admitted has the rights that its opcode asks for. -/
theorem rights_of_admits {code rights modes : Nat} {env : Env} {ps : List Word} {a : State}
    (h : a.admits code rights modes env ps = true) : rights ≤ (a.part env.partner).rights := by
  simp only [State.admits, Bool.and_eq_true, decide_eq_true_eq] at h
  omega

/-- REG_MODIFY of SCH_PENDMAX, whose word at arrival is `old`. -/
theorem regModify_pendMax {t : Lapse} {env : Env} {s : State} {m v : Word} (old : Word)
    (hold : pack [put 47 28 (s.elapse t).sch.pendMax] = old)
    (h : (s.elapse t).admits 0x012 3 0xFFE env [0x004000000000#48, m, v] = true)
    (hv : ¬ 983040 < fld ((old &&& ~~~m) ||| (v &&& m)) 47 28) :
    Completes 0x012 1 [old, (old &&& ~~~m) ||| (v &&& m)] env (s.elapse t)
      (runOp opRegModify t env [0x004000000000#48, m, v] s) fun u =>
        u.sch = { (s.elapse t).sch with pendMax := fld ((old &&& ~~~m) ||| (v &&& m)) 47 28 } ∧
          u.rest = ((s.elapse t).putSch u.sch).rest :=
  regModify_completes 3 (by decide) 0x4000 (.sch 0) _ _ _ _ h (by decide) (by decide) (by decide) rfl
    ((readReg_pendMax_bound _ _ _).trans hold)
    (fun fin => by rw [wordRefusal_pendMax, if_pos (rights_of_admits h), if_neg hv])
    (fun j b => regApply_pendMax ..) (fun b => rfl)
    (fun b u hb hu => by rw [of_rest_sch hb] at hu; exact sch_of_rest_putSch hb hu)

/-- Settles O30: each register's verdict and effect, through the commands on one register. -/
theorem registerAccess : Obligations.RegisterAccess := by
  refine ⟨fun t env ps s => ?_, fun t env v s => ?_, fun t env m v s => ?_⟩
  · refine ⟨fun h hps hon => ?_, fun h hps => ?_, fun h hlen hn => ?_⟩
    · subst hps
      exact regRead_completes 0x4003 (.sch 3) _ _ h (by decide) (by decide) (by decide) (by decide)
        (readReg_cntRel_bound _ _ _ hon) (fun b => by rw [readReg_sch_state, rcClear_cntRel])
        (fun b => by split <;> rfl)
        (fun b u hb hu => by
          rw [isOn_of_rest hb, if_pos hon, of_rest_sch hb] at hu
          exact sch_of_rest_putSch hb hu)
    · subst hps
      exact regRead_completes 0x4000 (.sch 0) _ _ h (by decide) (by decide) (by decide) (by decide)
        (readReg_pendMax_bound _ _ _) (fun b => by rw [readReg_sch_state]; rfl) (fun b => rfl)
        (fun b u hb hu => hu.trans hb)
    · exact runOp_refused opRegRead t env ps 1 0xFFE s .badParam [0] h (by decide) (by decide)
        (by decide) (by decide) rfl (by simp)
        (opRegRead_none _ _ hn) (by simp)
  · refine ⟨fun h hv => ?_, fun h hv => ?_, fun h hr => ?_, fun h => ?_, fun h hon => ?_⟩
    · exact regWrite_completes 3 (by decide) 0x4000 (.sch 0) _ _ h (by decide) (by decide) (by decide)
        (by decide) rfl
        (fun fin => by rw [wordRefusal_pendMax, if_pos (rights_of_admits h), if_neg (by omega)])
        (fun j b => regApply_pendMax ..) (fun b => rfl)
        (fun b u hb hu => by rw [of_rest_sch hb] at hu; exact sch_of_rest_putSch hb hu)
    · exact regWrite_refused 3 (by decide) 0x4000 (.sch 0) _ _ .badParam 0 h (by decide) (by decide)
        (by decide) (by decide) rfl (by decide)
        (fun fin => by rw [wordRefusal_pendMax, if_pos (rights_of_admits h), if_pos hv])
    · exact regWrite_refused 2 (by decide) 0x4000 (.sch 0) _ _ .notPermitted 0 h (by decide) (by decide)
        (by decide) (by decide) rfl (by decide)
        (fun fin => by rw [wordRefusal_pendMax, if_neg (by simp only [hr]; decide)])
    · exact regWrite_completes 2 (by decide) 0x4001 (.sch 1) _ _ h (by decide) (by decide) (by decide)
        (by decide) rfl (fun fin => wordRefusal_ro ..) (fun j b => regApply_ro ..) (fun b => rfl)
        (fun b u hb hu => hu.trans hb)
    · exact regWrite_completes 2 (by decide) 0x2002 (.clk 2) _ _ h (by decide) (by decide) (by decide)
        (by decide) rfl (fun fin => wordRefusal_clkFault _ _ _ _ (rights_of_admits h))
        (fun j b => regApply_clkFault ..) (fun b => by split <;> rfl)
        (fun b u hb hu => by
          rw [isOn_of_rest hb, if_pos hon, of_rest_clk hb] at hu
          exact clk_of_rest_putClk hb hu)
  · refine ⟨fun h hv hon => ?_, fun h => ?_⟩
    · exact regModify_pendMax _ rfl h (Nat.not_lt.mpr hv)
    · exact runOp_refused opRegModify t env _ 2 0xFFE s .notPermitted [regReason 0x4001 0] h
        (by decide) (by decide) (by decide) (by decide) rfl (by simp)
        (opRegModify_not_rw _ _ 0x4001 rfl (show fld 0x004001000000#48 47 24 = _ by decide)
          (by decide)) (by simp)

end Sys2Proof.Machine
end

section
/-! # How many records a partner's stream has, and how many JSNs are left (R313, R320)

What `Told` and `ToldOne` count: a record moves its partner's NEXT_ESN by one, and as long as the
JSNs are far from the one at which JSN_LOW goes out, nothing else does. -/
namespace Sys2Proof.Machine
open Sys2Proof

/-- The next ESN of a partner's stream. -/
def State.esn (s : State) (p : Nat) : Nat := (s.part p).ev.nextEsn
/-- One record more, but none for a partner without rights. -/
def State.oneMore (s : State) (p : Nat) : Nat := if (s.part p).rights = 0 then 0 else 1
/-- `n` more JSNs lie below the one at which JSN_LOW goes out, or it has gone out. -/
def State.jsnRoom (n : Nat) (s : State) : Prop :=
  s.jrn.next + n < 0xFFFF00000000 ∨ s.jrn.jsnLow = true

theorem esn_congr {a b : State} (h : a.parts = b.parts) (p : Nat) : a.esn p = b.esn p := by
  unfold State.esn; rw [part_congr h]
theorem oneMore_congr {a b : State} (h : (a.part p).rights = (b.part p).rights) :
    a.oneMore p = b.oneMore p := by
  unfold State.oneMore; rw [h]

/-! ## JSNs -/

theorem jsnRoom_mono {m n : Nat} {a b : State} (hn : b.jrn.next + n ≤ a.jrn.next + m)
    (hl : b.jrn.jsnLow = a.jrn.jsnLow) (h : a.jsnRoom m) : b.jsnRoom n := by
  unfold State.jsnRoom at *
  rcases h with h | h
  · exact .inl (by omega)
  · exact .inr (hl.trans h)

@[simp] theorem unpin_next (p : Pin) (j : Nat) (x : Journal) : (x.unpin p j).next = x.next := rfl
@[simp] theorem unpin_jsnLow (p : Pin) (j : Nat) (x : Journal) :
    (x.unpin p j).jsnLow = x.jsnLow := rfl
@[simp] theorem trimPins_next (n p : Nat) (j : Journal) : (j.trimPins n p).next = j.next := by
  induction n generalizing j with
  | zero => rfl
  | succ n ih =>
    unfold Journal.trimPins; split
    · rfl
    · split
      · rw [ih, unpin_next]
      · rfl
@[simp] theorem trimPins_jsnLow (n p : Nat) (j : Journal) :
    (j.trimPins n p).jsnLow = j.jsnLow := by
  induction n generalizing j with
  | zero => rfl
  | succ n ih =>
    unfold Journal.trimPins; split
    · rfl
    · split
      · rw [ih, unpin_jsnLow]
      · rfl

/-- The pins that a group takes off leave the numbers of the journal as they are. -/
theorem unpinAll_foldl (ps : List Pin) (j : Journal) :
    (ps.foldl (fun j pin => match pin with | .config _ _ => j.unpinAll pin | _ => j) j).next = j.next ∧
    (ps.foldl (fun j pin => match pin with | .config _ _ => j.unpinAll pin | _ => j) j).jsnLow
      = j.jsnLow :=
  foldl_inv (fun x : Journal => x.next = j.next ∧ x.jsnLow = j.jsnLow) _
    (fun x pin hx => by cases pin <;> exact hx) ps j ⟨rfl, rfl⟩
/-- A group sealed takes one JSN at most. -/
theorem seal_next_le (g : Group) (s : State) : (s.seal g).jrn.next ≤ s.jrn.next + 1 := by
  unfold State.seal; split
  · omega
  · exact (congrArg (· + 1) (unpinAll_foldl g.pins s.jrn).1).le
@[simp] theorem seal_jsnLow (g : Group) (s : State) : (s.seal g).jrn.jsnLow = s.jrn.jsnLow := by
  unfold State.seal; split
  · rfl
  · exact (unpinAll_foldl g.pins s.jrn).2

/-! ## One record -/

@[simp] theorem sendRecs_esn (p : Nat) (s : State) (q : Nat) : (s.sendRecs p).esn q = s.esn q := by
  unfold State.sendRecs; split
  · rfl
  · split
    · refine (foldl_keeps (fun t : State => t.esn q) _
        (fun t r => esn_congr (sendPacket_parts ..) q) _ _).trans ?_
      refine setPart_view (fun x : Partner => x.ev.nextEsn) s p _ ?_ q
      rfl
    · rfl

/-- A record formed is the next of its partner's stream; the other streams stay. -/
theorem form_esn (p : Nat) (vol : Bool) (ws : List Word) (s : State) (q : Nat) :
    (s.form p vol ws).esn q = s.esn q + if q = p then s.oneMore p else 0 := by
  unfold State.form State.oneMore; dsimp only; split
  · simp
  · rw [sendRecs_esn]
    by_cases hq : q = p
    · subst hq
      rw [if_pos rfl]
      unfold State.esn; rw [part_setPart]
      split
      · rfl
      · split <;> rfl
    · rw [if_neg hq]
      unfold State.esn; rw [part_setPart_ne _ _ _ _ hq, part_putJrn, seal_part]; rfl
/-- It takes one JSN at most. -/
theorem form_room {n : Nat} (p : Nat) (vol : Bool) (ws : List Word) (s : State)
    (h : s.jsnRoom (n + 1)) : (s.form p vol ws).jsnRoom n := by
  unfold State.form; dsimp only; split
  · exact jsnRoom_mono (by omega) rfl h
  · refine jsnRoom_mono ?_ ?_ h
    · rw [sendRecs_jrn, setPart_jrn, putJrn_jrn, trimPins_next]
      exact (Nat.add_le_add_right (seal_next_le ..) n).trans (by omega)
    · rw [sendRecs_jrn, setPart_jrn, putJrn_jrn, trimPins_jsnLow, seal_jsnLow]
/-- With a JSN to spare, JSN_LOW does not go out. -/
theorem jsnCheck_far {s : State} (h : s.jsnRoom 0) : s.jsnCheck = s := by
  unfold State.jsnCheck
  refine if_neg fun hc => ?_
  unfold State.jsnRoom at h; simp only [Bool.not_eq_true'] at hc
  rcases h with h | h
  · omega
  · simp [h] at hc

theorem raise_eq_form {s : State} (h : s.jsnRoom 1) (p : Nat) (fault : Bool) (cause : Nat)
    (args : List Word) :
    s.raise p fault cause args = s.form p false (causeWords fault cause s.tb.q0 args) :=
  jsnCheck_far (form_room _ _ _ _ h)

/-! ## A record to every partner -/

/-- `ps` partners, each told once: the streams of the others stay. -/
theorem foldl_raise_esn (fault : Bool) (cause : Nat) (args : List Word) (ps : List Nat)
    (hps : ps.Nodup) (n : Nat) (s : State) (h : s.jsnRoom (n + ps.length)) (q : Nat) :
    (ps.foldl (fun s p => s.raise p fault cause args) s).jsnRoom n ∧
    (ps.foldl (fun s p => s.raise p fault cause args) s).esn q
      = s.esn q + if q ∈ ps then s.oneMore q else 0 := by
  induction ps generalizing s with
  | nil => exact ⟨h, by simp⟩
  | cons p ps ih =>
    obtain ⟨hp, hnd⟩ := List.nodup_cons.mp hps
    have h1 : s.jsnRoom 1 := jsnRoom_mono (by simp; omega) rfl h
    have hroom : (s.raise p fault cause args).jsnRoom (n + ps.length) := by
      rw [raise_eq_form h1]; exact form_room _ _ _ _ h
    have hesn : (s.raise p fault cause args).esn q = s.esn q + if q = p then s.oneMore p else 0 := by
      rw [raise_eq_form h1, form_esn]
    have hmore : (s.raise p fault cause args).oneMore q = s.oneMore q :=
      oneMore_congr (record_part_rights ..)
    obtain ⟨hr, he⟩ := ih hnd _ hroom
    refine ⟨hr, ?_⟩
    rw [List.foldl_cons, he, hesn, hmore]
    by_cases hq : q = p
    · subst hq; simp [hp]
    · simp [hq]

/-- With 5 JSNs to spare, every partner is told once and `n` JSNs are left. -/
theorem raiseAll_esn (fault : Bool) (cause : Nat) (args : List Word) (n : Nat) (s : State)
    (h : s.jsnRoom (n + 5)) :
    (s.raiseAll fault cause args).jsnRoom n ∧
    ∀ q, q < 5 → (s.raiseAll fault cause args).esn q = s.esn q + s.oneMore q := by
  unfold State.raiseAll
  have key := foldl_raise_esn fault cause args [0, 1, 2, 3, 4] (by decide) n s h
  refine ⟨(key 0).1, fun q hq => ?_⟩
  have hmem : q ∈ [0, 1, 2, 3, 4] := by simp; omega
  exact (key q).2.trans (by rw [if_pos hmem])

/-- Where a state `b` with the partners and the journal of `a` is followed by one in which every
stream has one record more, every partner has been told. -/
theorem told_of_esn {a b u : State} (hp : b.parts = a.parts) (hj : b.jrn = a.jrn)
    (h : b.jsnRoom 16 → ∀ q, q < 5 → u.esn q = b.esn q + b.oneMore q) : Told a u := by
  intro q hq hfar
  have hroom : b.jsnRoom 16 := by unfold State.jsnRoom; rw [hj]; exact hfar
  have he := h hroom q hq
  rwa [esn_congr hp, oneMore_congr (congrArg Partner.rights (part_congr hp q))] at he

/-- A part's failure tells every partner. -/
theorem partFailed_told {a b : State} (hp : b.parts = a.parts) (hj : b.jrn = a.jrn)
    (cls inst : Nat) : Told a (b.partFailed cls inst) := by
  refine told_of_esn hp hj fun hroom q hq => ?_
  obtain ⟨hr, he⟩ := raiseAll_esn true 0x901 [word cls, word inst] 11 b hroom
  have hs : ∀ g : Group, ((b.raiseAll true 0x901 [word cls, word inst]).seal g).jsnRoom 0 := by
    intro g
    have hle := seal_next_le g (b.raiseAll true 0x901 [word cls, word inst])
    exact jsnRoom_mono (by omega) (seal_jsnLow ..) hr
  unfold State.partFailed State.sealSystem
  rw [jsnCheck_far (hs _), esn_congr (seal_parts ..)]
  exact he q hq
/-- So does a record that has not gone out in the last second. -/
theorem raiseLimited_told {a b : State} (hp : b.parts = a.parts) (hj : b.jrn = a.jrn)
    (fault : Bool) (cause inst : Nat) (args : List Word)
    (hfirst : tget none (cause * 65536 + inst) b.raised = none) :
    Told a (b.raiseLimited fault cause inst args) := by
  obtain ⟨r, hr⟩ : ∃ r, b.raiseLimited fault cause inst args
      = (b.putRaised r).raiseAll fault cause args := by
    unfold State.raiseLimited; dsimp only; rw [hfirst]; exact ⟨_, rfl⟩
  rw [hr]
  refine told_of_esn ((putRaised_parts b r).trans hp) ((putRaised_jrn b r).trans hj)
    fun hroom q hq => ?_
  exact (raiseAll_esn fault cause args 11 (b.putRaised r) hroom).2 q hq

end Sys2Proof.Machine
end

section
/-! # Accesses of shared memory, its patrol and its banks (O57) -/
namespace Sys2Proof.Machine
open Sys2Proof

/-! ## A lone request -/

theorem filter_range_eq {n k : Nat} (h : k < n) : ((List.range n).filter fun i => k == i) = [k] := by
  have hcount : (List.range n).count k = 1 :=
    List.count_eq_one_of_mem List.nodup_range (List.mem_range.mpr h)
  have hflip : (fun i => k == i) = fun i : Nat => i == k := funext fun i => Bool.beq_comm
  rw [hflip, List.filter_beq, hcount]; rfl

section
variable {m : Memory} {x : BankReq} {mc : Nat} (hq : m.queue = [x]) (hm : x.req.master < 16)
  (hc : m.capped x.req mc = false)
  (hl : reqHard x.req = true ∨ m.leaseOn x.req.addr mc = none)
include hq hm hc

/-- A lone request that no cap keeps back stands at its bank. -/
theorem standing_lone : m.standing mc = [x] := by
  have hpick : ∀ l : List Nat, (l.filterMap fun i => [x].find? fun y => y.req.master == i)
      = (l.filter fun i => x.req.master == i).map fun _ => x := by
    intro l
    induction l with
    | nil => rfl
    | cons i l ih => by_cases h : x.req.master = i <;> simp_all
  unfold Memory.standing
  rw [hq, hpick, filter_range_eq hm]
  simp [hc]

include hl
/-- Its bank grants it, unless a lease holds it back; no other bank grants anything. -/
theorem grantsAt_lone (b : Nat) :
    m.grantsAt b mc = if bankOf x.req.addr = b then [x] else [] := by
  have hfree : (reqHard x.req || (m.leaseOn x.req.addr mc).isNone) = true := by
    rcases hl with h | h <;> simp [h]
  unfold Memory.grantsAt
  rw [standing_lone hq hm hc]
  by_cases hb : bankOf x.req.addr = b <;> simp [hb, hfree]

end

/-- What a granted lone request does at its bank. -/
def State.serveLone (mc : Nat) (r : MemReq) (s : State) : State :=
  match r.data with
  | some w => (s.granted mc r).memWrite r w
  | none => (s.granted mc r).memRead r none

/-- A cycle in which one request is granted serves it and leaves no request waiting. -/
theorem bankCycle_lone {s : State} {x : BankReq} {mc : Nat} (hq : s.mem.queue = [x])
    (hm : x.req.master < 16) (hc : s.mem.capped x.req mc = false)
    (hl : reqHard x.req = true ∨ s.mem.leaseOn x.req.addr mc = none) :
    s.bankCycle mc = (s.serveLone mc x.req).setMem { (s.serveLone mc x.req).mem with
      queue := [], cycle := mc + 1, lastClk := (s.serveLone mc x.req).tb.clk } := by
  have hb : bankOf x.req.addr < 32 := Nat.mod_lt _ (by decide)
  have hg := grantsAt_lone hq hm hc hl
  have hserve : s.serve mc (bankOf x.req.addr) = s.serveLone mc x.req := by
    unfold State.serve State.serveLone
    rw [hg, if_pos rfl]
    cases hd : x.req.data with
    | none => simp [hd, State.serveWrites, State.forwarded]
    | some w => simp [hd, State.serveWrites]
  unfold State.bankCycle
  simp only [standing_lone hq hm hc, hq, hg, List.any_cons, List.any_nil, Bool.or_false,
    filter_range_eq hb, List.flatMap_cons, List.flatMap_nil, if_true, List.foldl_cons,
    List.foldl_nil, hserve]
  simp

/-- Nothing waits, so the memory is at the present. -/
theorem toNow_idle {s : State} (h : s.mem.queue = []) : s.toNow = s := by
  unfold State.toNow
  cases memCycle s.tb.clk - s.mem.cycle with
  | zero => rfl
  | succ n => unfold State.bankCycles; simp [h]

/-! ## What a granted request leaves -/

/-- Memory apart from the command unit's own fields: what stood in it before does not matter. -/
theorem putMem_rest_of_rest {a b : State} {m : Memory} (h : b.rest = (a.putMem m).rest)
    (n : Memory) : (b.putMem n).rest = (a.putMem n).rest :=
  congrArg (fun x : State => x.putMem n) h

/-- A request made and granted changes memory alone, and none of its words. -/
theorem issue_granted (a : State) (mc : Nat) (r : MemReq) :
    ∃ g, (a.issue mc [r]).granted mc r = a.putMem g ∧ g.cells = a.mem.cells ∧ g.bad = a.mem.bad ∧
      g.ce = a.mem.ce ∧ g.ue = a.mem.ue ∧ g.fault = a.mem.fault := by
  unfold State.granted; dsimp only
  split
  · exact ⟨_, rfl, rfl, rfl, rfl, rfl, rfl⟩
  · exact ⟨_, rfl, rfl, rfl, rfl, rfl, rfl⟩

/-- What a write stores depends on the bytes of memory alone. -/
theorem write_cells_congr {m n : Memory} (h : m.cells = n.cells) (a : Nat) (w : Word) :
    (m.write a w).cells = (n.write a w).cells := by
  unfold Memory.write; rw [h]
theorem read_congr {m n : Memory} (h : m.cells = n.cells) (a : Nat) : m.read a = n.read a := by
  unfold Memory.read; rw [h]

section
variable {t : Lapse} {s a : State} {r : MemReq} (ha : s.elapse t = a) (hon : a.dom 7 = 2)
  (hpll : a.clk.pllS.gives = true) (hadr : r.addr < 0x1000000) (hm : r.master < 16)
  (hidle : a.mem.queue = []) (hc : a.mem.capped r a.cycleNow = false)
  (hl : reqHard r = true ∨ a.mem.leaseOn r.addr a.cycleNow = none)
include ha hon hpll hadr hm hidle hc hl

/-- A lone access with nothing waiting is served at once. -/
theorem execMemoryAccess_lone (v : State)
    (hv : (a.issue a.cycleNow [r]).serveLone a.cycleNow r = v) :
    execMemoryAccess t [r] s = .next (v.setMem { v.mem with
      queue := [], cycle := a.cycleNow + 1, lastClk := v.tb.clk }) := by
  have hq : (a.issue a.cycleNow [r]).mem.queue = [⟨r, a.cycleNow, false⟩] := by
    show a.mem.queue ++ _ = _
    rw [hidle]; rfl
  have hcycle := bankCycle_lone hq hm hc hl
  have hin : ¬ 0x1000000 ≤ r.addr := by omega
  unfold execMemoryAccess
  rw [ha]
  simp only [List.any_cons, List.any_nil, Bool.or_false, hin, decide_false, hon,
    Bool.false_eq_true, if_false]
  simp only [hon, hpll, toNow_idle hidle, show ¬ (2 = 1) by decide, false_and, if_false, ne_eq,
    not_true, Bool.not_true, Bool.false_eq_true, or_self, show ¬ (2 = 0) by decide]
  rw [hcycle, hv]

/-- A write in a region of its master stores its word and changes no other. -/
theorem execMemoryAccess_write {w : Word} (hd : r.data = some w) (hok : a.memAllowed r = true) :
    Answers (execMemoryAccess t [r] s) fun u =>
      u.mem.cells = (a.mem.write r.addr w).cells ∧ u.mem.read r.addr = w ∧
      u.mem.bad = a.mem.bad.filter (· ≠ r.addr) ∧ u.mem.fault = a.mem.fault ∧ u.mem.queue = [] ∧
      u = a.putMem u.mem := by
  obtain ⟨g, hg, hcells, hbad, -, -, hfault⟩ := issue_granted a a.cycleNow r
  have hserve : (a.issue a.cycleNow [r]).serveLone a.cycleNow r
      = a.putMem (g.write r.addr w) := by
    have hadr' : r.addr % 2 ^ 24 = r.addr := Nat.mod_eq_of_lt hadr
    have hok' : (a.putMem g).memAllowed r = true := hok
    unfold State.serveLone; rw [hd, hg]
    show (a.putMem g).memWrite r w = _
    unfold State.memWrite
    rw [if_pos hok']
    show a.putMem (g.write (r.addr % 2 ^ 24) w) = _
    rw [hadr']
  refine ⟨_, execMemoryAccess_lone ha hon hpll hadr hm hidle hc hl _ hserve, ?_, ?_, ?_, ?_, rfl, rfl⟩
  · exact write_cells_congr hcells r.addr w
  · exact Memory.read_write g r.addr w
  · exact congrArg (List.filter (· ≠ r.addr)) hbad
  · exact hfault

/-- A read without an error changes nothing, and its master is answered the word. -/
theorem execMemoryAccess_read (hd : r.data = none) (hecc : r.ecc = 0)
    (hgood : a.mem.bad.contains r.addr = false) :
    Answers (execMemoryAccess t [r] s) fun u =>
      u.mem.cells = a.mem.cells ∧ u.mem.bad = a.mem.bad ∧ u.mem.ce = a.mem.ce ∧
      u.mem.ue = a.mem.ue ∧ u.mem.fault = a.mem.fault ∧ u.mem.queue = [] ∧
      u.mem.lastClk = a.tb.clk ∧
      u = (a.putMem u.mem).putWire [.mem r.master r.addr 0 (a.mem.read r.addr)] := by
  obtain ⟨g, hg, hcells, hbad, hce, hue, hfault⟩ := issue_granted a a.cycleNow r
  have hwire : a.wire = [] := by rw [← ha, elapse_wire]
  have hserve : (a.issue a.cycleNow [r]).serveLone a.cycleNow r
      = (a.putMem g).putWire [.mem r.master r.addr 0 (a.mem.read r.addr)] := by
    unfold State.serveLone; rw [hd, hg]
    show (a.putMem g).memRead r none = _
    unfold State.memRead
    simp only [putMem_mem, hbad, hgood, hecc, read_congr hcells]
    simp [State.emit, hwire]
  exact ⟨_, execMemoryAccess_lone ha hon hpll hadr hm hidle hc hl _ hserve, hcells, hbad, hce, hue,
    hfault, rfl, rfl, rfl⟩

/-- A write outside its master's regions is not performed, sets the fault bit and is reported. -/
theorem execMemoryAccess_guarded {w : Word} (hd : r.data = some w)
    (hno : mayWrite r.master (regionOf r.addr) = false) (hcore : coreOf r.master = none)
    (hfirst : tget none (0xD03 * 65536 + r.master) a.raised = none) :
    Answers (execMemoryAccess t [r] s) fun u =>
      u.mem.cells = a.mem.cells ∧ u.mem.fault = setBit a.mem.fault 3 ∧ Told a u ∧
      u.rest = (a.putMem u.mem).rest := by
  obtain ⟨g, hg, hcells, -, -, -, hfault⟩ := issue_granted a a.cycleNow r
  obtain ⟨b, hb, hbmem, hbrest, hbparts, hbjrn, hbraised⟩ : ∃ b : State,
      (a.issue a.cycleNow [r]).serveLone a.cycleNow r
        = b.raiseLimited true 0xD03 r.master [word r.master, word r.addr] ∧
      b.mem = { g with fault := setBit g.fault 3 } ∧ b.rest = (a.putMem b.mem).rest ∧
      b.parts = a.parts ∧ b.jrn = a.jrn ∧ b.raised = a.raised := by
    have hno' : (a.putMem g).memAllowed r = false := by simp [State.memAllowed, hno]
    refine ⟨((a.putMem g).emit (.mem r.master r.addr 1 0)).setMem { g with
      fault := setBit g.fault 3 }, ?_, rfl, rfl, rfl, rfl, rfl⟩
    unfold State.serveLone; rw [hd, hg]
    show (a.putMem g).memWrite r w = _
    unfold State.memWrite
    rw [hno', hno, hcore]
    rfl
  refine ⟨_, execMemoryAccess_lone ha hon hpll hadr hm hidle hc hl _ hb, ?_, ?_, ?_, ?_⟩
  · show (b.raiseLimited ..).mem.cells = _
    rw [raiseLimited_mem, hbmem]; exact hcells
  · show (b.raiseLimited ..).mem.fault = _
    rw [raiseLimited_mem, hbmem, ← hfault]
  · exact raiseLimited_told hbparts hbjrn _ _ _ _ (hbraised ▸ hfirst)
  · exact putMem_rest_of_rest ((raiseLimited_rest ..).trans hbrest) _

end

/-! ## Patrol, banks and retention -/

/-- Before its last bank an engine walks its own eight. -/
theorem stripes_ne (g : Nat) {p : Nat} (h : p + 1 < 65536) : p + 1 ≠ stripes g := by
  unfold stripes; split <;> omega
theorem stripeBank_own (g : Nat) {p : Nat} (h : p + 1 < 65536) :
    stripeBank g p = 8 * g + p / 8192 := by
  have hp : ¬ p / 8192 = 8 := by omega
  unfold stripeBank; exact if_neg hp

theorem le_of_all_le {o : Option Nat} {pace clk c : Nat}
    (h : o.all (fun c => decide (c + pace ≤ clk)) = true) (hc : o = some c) : c + pace ≤ clk := by
  subst hc; simpa using h

/-- A due lease whose words have no error advances its engine by one stripe. -/
theorem execPatrolLease_clean {t : Lapse} {s a : State} {g : Nat} (ha : s.elapse t = a) (hg : g < 4)
    (hcfg : bit a.mem.patrolCfg 47 = true) (hon : a.isOn 7 = true)
    (hpll : a.clk.pllS.gives = true)
    (hdue : (a.mem.patrol g).since.all
      (fun c => decide (c + usClk (fld a.mem.patrolCfg 46 31) ≤ a.tb.clk)) = true)
    (hpos : (a.mem.patrol g).pos + 1 < 65536) :
    execPatrolLease t g [] true s = .next (a.putMem (a.mem.setPatrol g
      { pos := (a.mem.patrol g).pos + 1, passes := (a.mem.patrol g).passes,
        since := some a.tb.clk,
        lease := some (8 * g + (a.mem.patrol g).pos / 8192, (a.mem.patrol g).pos % 8192 * 64,
          memCycle a.tb.clk) })) := by
  have hlast := stripes_ne g hpos
  have hbank := stripeBank_own g hpos
  unfold execPatrolLease
  rw [ha]; dsimp only
  cases hs : (a.mem.patrol g).since with
  | none => simp [hg, hcfg, hon, hpll, hbank, hlast, State.setMem]
  | some c =>
    have hpace := le_of_all_le hdue hs
    simp [hg, hcfg, hon, hpll, hbank, hlast, hpace, State.setMem]

/-- The words of no address are lost: nothing of the schedule is rebuilt. -/
theorem rebuild_nil (s : State) :
    s.rebuild [] = s.setMem { s.mem with bad := s.mem.bad.filter fun _ => true } := by
  unfold State.rebuild
  simp only [List.contains_nil, List.any_nil, Bool.false_eq_true, and_false, if_false,
    Bool.not_false, List.map_id']
  rfl

/-- A part that fails after words were rebuilt tells every partner. -/
theorem rebuild_partFailed_told (a : State) (m : Memory) (as : List Nat) (cls inst : Nat) :
    Told a (((a.putMem m).rebuild as).partFailed cls inst) :=
  partFailed_told (b := (a.putMem m).rebuild as) rfl rfl cls inst

/-- A bank that has failed, and BS begins to copy it. -/
def Memory.copying (b : Nat) (m : Memory) : Memory :=
  { m.setBank b { m.bank b with due := false, state := 1 } with
    failedCnt := min 32 (m.failedCnt + 1), spare := 1, spareFor := b }
/-- A bank that has failed while BS is taken. -/
def Memory.unrepaired (b : Nat) (m : Memory) : Memory :=
  { m.setBank b { m.bank b with due := false, state := 2 } with
    failedCnt := min 32 (m.failedCnt + 1) }

section
variable {t : Lapse} {s a : State} {b : Nat} (ha : s.elapse t = a) (hb : b < 32)
  (hdue : (a.mem.bank b).due = true) (hwork : (a.mem.bank b).state = 0)
include ha hb hdue hwork

theorem execBankFailed_first (hfree : a.mem.spare = 0) :
    execBankFailed t b s = .next (((a.putMem (a.mem.copying b)).rebuild
      (a.mem.bad.filter fun x => bankOf x == b && decide (x < 0x780000))).partFailed 0x011 b) := by
  unfold execBankFailed
  rw [ha]; dsimp only
  rw [if_pos ⟨hb, hdue, hwork⟩]
  simp only [hfree, if_true]
  rfl
theorem execBankFailed_later (htaken : a.mem.spare ≠ 0) :
    execBankFailed t b s = .next (((a.putMem (a.mem.unrepaired b)).rebuild []).partFailed 0x011 b) := by
  unfold execBankFailed
  rw [ha]; dsimp only
  rw [if_pos ⟨hb, hdue, hwork⟩]
  simp only [htaken, if_false]
  rfl
end

/-! ## The claim -/

@[simp] theorem patrol_setPatrol (g : Nat) (v : Patrol) (m : Memory) :
    (m.setPatrol g v).patrol g = v :=
  tget_tput_same ..
@[simp] theorem patrol_setPatrol_ne {x g : Nat} (h : x ≠ g) (v : Patrol) (m : Memory) :
    (m.setPatrol g v).patrol x = m.patrol x :=
  tget_tput_ne _ _ _ _ _ _ h
theorem bank_copying (b : Nat) (m : Memory) :
    (m.copying b).bank b = { m.bank b with due := false, state := 1 } := by
  simp only [Memory.copying, Memory.bank, Memory.setBank, tget_tput_same]
theorem bank_unrepaired (b : Nat) (m : Memory) :
    (m.unrepaired b).bank b = { m.bank b with due := false, state := 2 } := by
  simp only [Memory.unrepaired, Memory.bank, Memory.setBank, tget_tput_same]

/-- Settles O57: a lone request is granted in its first cycle; patrol, banks and retention by their
own cases. -/
theorem sharedMemoryAccess : Obligations.SharedMemoryAccess := by
  refine ⟨fun t r w s => ?_, fun t g s => ?_⟩
  · generalize ha : s.elapse t = a
    refine ⟨fun hon hpll hadr hm hd hidle hc hl hok => ?_,
      fun hon hpll hadr hm hd hecc hidle hc hl hgood => ?_,
      fun hon hpll hadr hm hd hidle hc hl hno hcore hfirst => ?_, fun hadr => ?_⟩
    · exact execMemoryAccess_write ha hon hpll hadr hm hidle hc hl hd hok
    · exact execMemoryAccess_read ha hon hpll hadr hm hidle hc hl hd hecc hgood
    · exact execMemoryAccess_guarded ha hon hpll hadr hm hidle hc hl hd hno hcore hfirst
    · show execMemoryAccess t [r] s = _
      unfold execMemoryAccess
      exact if_pos (by simpa using hadr)
  · generalize ha : s.elapse t = a
    refine ⟨fun hg hcfg hon hpll hdue hpos => ?_, fun hb hdue hwork hfree => ?_,
      fun hb hdue hwork htaken => ?_, fun hcopy => ?_, fun hon hreq hlate => ?_⟩
    · refine ⟨_, execPatrolLease_clean ha hg hcfg hon hpll hdue hpos, patrol_setPatrol .., ?_, rfl, rfl⟩
      exact fun x _ hx => patrol_setPatrol_ne hx ..
    · refine ⟨_, execBankFailed_first ha hb hdue hwork hfree, ?_⟩
      simp only [partFailed_mem, partFailed_sch, partFailed_rest]
      refine ⟨congrArg Bank.state (bank_copying g a.mem), congrArg Bank.due (bank_copying g a.mem),
        rfl, rfl, rfl, fun hbad => ?_, rebuild_partFailed_told _ _ _ _ _, rfl⟩
      rw [hbad, List.filter_nil, rebuild_nil]; rfl
    · refine ⟨_, execBankFailed_later ha hb hdue hwork (by omega), ?_⟩
      simp only [partFailed_mem, partFailed_rest]
      refine ⟨congrArg Bank.state (bank_unrepaired g a.mem), htaken, rfl, rfl,
        rebuild_partFailed_told _ _ _ _ _, ?_⟩
      rw [rebuild_nil]; rfl
    · show execSpareCopyComplete t s = _
      unfold execSpareCopyComplete
      rw [ha]; dsimp only
      exact if_pos hcopy
    · show execMemRetentionIdle t s = _
      unfold execMemRetentionIdle
      rw [ha]; dsimp only
      exact if_pos ⟨hon, hreq, hlate⟩

end Sys2Proof.Machine
end

section
/-! # What a step is, by the queue it finds (O1) -/
namespace Sys2Proof.Machine
open Sys2Proof

/-- The front command leaves the queue before it runs, so it runs once (R27, R287). -/
theorem step_of_pending_cons {s : State} {c : Instr} {rest : List Instr}
    (h : s.pending = c :: rest) : step s = exec c { s with pending := rest } := by
  unfold step
  rw [h]

/-- With no command waiting one counter clock passes (DESIGN CHOICE, log 3). -/
theorem step_of_pending_nil {s : State} (h : s.pending = []) :
    step s = .next (s.elapse ⟨1, 0⟩) := by
  unfold step
  rw [h]

/-- Settles O1: the queue has a front command or is empty, and each case has its equation. -/
theorem stepRunsFront : Obligations.StepRunsFront :=
  ⟨fun _ _ _ hfront => step_of_pending_cons hfront, fun _ hempty => step_of_pending_nil hempty⟩

end Sys2Proof.Machine
end

section
/-! # What an update of a quantity leaves: itself, the quantities derived from it, events and sample ports -/
namespace Sys2Proof.Machine
open Sys2Proof

/-! ## Folds over instances -/

/-- A fold that reaches element `n` once acts on it as its own step does, where the other steps
leave it alone. `P` holds all along. -/
theorem foldl_once {σ β : Type} (get : σ → β) (f : σ → Nat → σ) (n : Nat) (v : β → β) (P : σ → Prop)
    (hP : ∀ s m, P s → P (f s m)) (hne : ∀ s m, m ≠ n → get (f s m) = get s)
    (hv : ∀ s, P s → get (f s n) = v (get s)) (l : List Nat) (hl : l.Nodup) (hn : n ∈ l) (s : σ)
    (hs : P s) : get (l.foldl f s) = v (get s) := by
  induction l generalizing s with
  | nil => cases hn
  | cons m l ih =>
    obtain ⟨hm, hnd⟩ := List.nodup_cons.mp hl
    rw [List.foldl_cons]
    by_cases h : m = n
    · subst h
      have hrest : ∀ (k : List Nat) (b : σ), m ∉ k → get (k.foldl f b) = get b := by
        intro k
        induction k with
        | nil => exact fun _ _ => rfl
        | cons i k ihk =>
          intro b hk
          rw [List.mem_cons, not_or] at hk
          rw [List.foldl_cons, ihk _ hk.2, hne _ _ (Ne.symm hk.1)]
      rw [hrest l _ hm, hv s hs]
    · rw [ih hnd ((List.mem_cons.mp hn).resolve_left (Ne.symm h)) _ (hP _ _ hs), hne _ _ h]

/-! ## The quantities -/

theorem qty_congr {a b : State} (h : a.qs = b.qs) (n : Nat) : a.qty n = b.qty n := by
  unfold State.qty; rw [h]
theorem eq_putQs_of_noQs {a b : State} (h : a.noQs = b.noQs) : a = b.putQs a.qs := by
  cases a; cases b
  simp only [State.noQs, State.mk.injEq] at h
  simp only [State.putQs, State.mk.injEq]
  tauto
theorem mem_derivedFrom {n src : Nat} {s : State} (h : n ∈ s.derivedFrom src) : 8 ≤ n := by
  have h8 := List.mem_of_mem_filter h
  simp only [List.mem_cons, List.not_mem_nil, or_false] at h8
  omega

/-- An update reaches DERIVED quantities alone, Q8 to Q15. -/
@[simp] theorem feed_qty_low (fuel src : Nat) (s : State) {m : Nat} (hm : m < 8) :
    (s.feed fuel src).qty m = s.qty m := by
  induction fuel generalizing src s with
  | zero => rfl
  | succ fuel ih =>
    unfold State.feed
    refine List.foldlRecOn (motive := fun (u : State) => u.qty m = s.qty m) _ _ rfl fun b hb n hn => ?_
    have hne : m ≠ n := by have := mem_derivedFrom hn; omega
    dsimp only
    rw [ih, qty_setQty_ne _ _ _ _ hne, hb]
/-- So does a change of a source without one. -/
@[simp] theorem follow_qty_low (fuel src : Nat) (s : State) {m : Nat} (hm : m < 8) :
    (s.follow fuel src).qty m = s.qty m := by
  induction fuel generalizing src s with
  | zero => rfl
  | succ fuel ih =>
    unfold State.follow
    refine List.foldlRecOn (motive := fun (u : State) => u.qty m = s.qty m) _ _ rfl fun b hb n hn => ?_
    have hne : m ≠ n := by have := mem_derivedFrom hn; omega
    dsimp only
    rw [ih, qty_setQty_ne _ _ _ _ hne, hb]
@[simp] theorem follow_noQs (fuel src : Nat) (s : State) : (s.follow fuel src).noQs = s.noQs := by
  induction fuel generalizing src s with
  | zero => rfl
  | succ fuel ih =>
    unfold State.follow
    refine foldl_keeps State.noQs _ (fun a b => ?_) _ s
    dsimp only
    rw [ih]; rfl
theorem feed_frame (fuel src : Nat) (s : State) : s.feed fuel src = s.putQs (s.feed fuel src).qs :=
  eq_putQs_of_noQs (feed_noQs ..)
theorem follow_frame (fuel src : Nat) (s : State) :
    s.follow fuel src = s.putQs (s.follow fuel src).qs :=
  eq_putQs_of_noQs (follow_noQs ..)

/-! ## Events and sample ports -/

theorem witness_frame (s0 : State) (n : Nat) (s : State) :
    s0.witness n s = s.putSch (s0.witness n s).sch := rfl
@[simp] theorem witness_qs (s0 : State) (n : Nat) (s : State) : (s0.witness n s).qs = s.qs := rfl
theorem sampled_frame (n : Nat) (s : State) : s.sampled n = s.putPorts (s.sampled n).ports := by
  have h : ∃ l, s.sampled n = s.putPorts l := by
    unfold State.sampled
    refine foldl_inv (fun u => ∃ l, u = s.putPorts l) _ (fun u p hu => ?_) _ s ⟨s.ports, rfl⟩
    obtain ⟨l, rfl⟩ := hu
    dsimp only
    split
    · exact ⟨_, rfl⟩
    · exact ⟨l, rfl⟩
  obtain ⟨l, h⟩ := h
  rw [h]; rfl
@[simp] theorem sampled_qs (n : Nat) (s : State) : (s.sampled n).qs = s.qs := by
  rw [sampled_frame]; rfl

/-- What a new value of Qn reaches: DERIVED quantities, events, and sample ports. -/
def State.spread (s0 : State) (n : Nat) (s : State) : State :=
  State.sampled n (s0.witness n (s.feed 16 n))
theorem spread_frame (s0 : State) (n : Nat) (s : State) :
    s0.spread n s = ((s.putQs (s0.spread n s).qs).putSch (s0.spread n s).sch).putPorts
      (s0.spread n s).ports := by
  have h : ∃ q e p, s0.spread n s = ((s.putQs q).putSch e).putPorts p := by
    unfold State.spread
    rw [sampled_frame, witness_frame, feed_frame]
    exact ⟨_, _, _, rfl⟩
  obtain ⟨q, e, p, h⟩ := h
  rw [h]; rfl
@[simp] theorem spread_qty_low (s0 : State) (n : Nat) (s : State) {m : Nat} (hm : m < 8) :
    (s0.spread n s).qty m = s.qty m := by
  unfold State.spread
  rw [qty_congr (sampled_qs ..), qty_congr (witness_qs ..), feed_qty_low _ _ _ hm]

/-! ## A measured value (R50) -/

/-- Qn as an update with a value leaves it, before what its kind adds. -/
def State.updated (n : Nat) (v : Qval) (s : State) : Qty :=
  let q := s.qty n
  let iv := s.tb.clk - q.tuClk
  let r := Config.estRate s.fresh (fld q.cfg0 41 39) iv q.rate (qdist v q.vu)
  let a := Config.estAcc s.fresh (fld q.cfg0 41 39) iv q.acc (qdist v q.vu)
  { q with
    vu := v, tu := s.tb.q0, tuClk := s.tb.clk, lastIv := iv, fed := true, valid := true, stopped := false, held := none
    backAt := if q.valid then none else some s.tb.q0
    rate := sat 48 r, overrate := decide (sat 48 r ≠ r), acc := sat 48 a, accSat := decide (sat 48 a ≠ a) }
theorem measured_eq (n : Nat) (v : Qval) (f : Qty → Qty) (s : State) :
    s.measured n v f = s.spread n ((s.putFresh (s.fresh + 1)).setQty n (f (s.updated n v))) := rfl
theorem measured_qty {n : Nat} (hn : n < 8) (v : Qval) (f : Qty → Qty) (s : State) :
    (s.measured n v f).qty n = f (s.updated n v) := by
  rw [measured_eq, spread_qty_low _ _ _ hn, qty_setQty]
theorem measured_qty_ne {m n : Nat} (hm : m < 8) (h : m ≠ n) (v : Qval) (f : Qty → Qty) (s : State) :
    (s.measured n v f).qty m = s.qty m := by
  rw [measured_eq, spread_qty_low _ _ _ hm, qty_setQty_ne _ _ _ _ h]; rfl
theorem exists_measured_eq (n : Nat) (v : Qval) (f : Qty → Qty) (s : State) : ∃ q e p,
    s.measured n v f = (((s.putQs q).putSch e).putPorts p).putFresh (s.fresh + 1) := by
  rw [measured_eq, spread_frame]; exact ⟨_, _, _, rfl⟩
theorem measured_frame (n : Nat) (v : Qval) (f : Qty → Qty) (s : State) :
    s.measured n v f = (((s.putQs (s.measured n v f).qs).putSch (s.measured n v f).sch).putPorts
      (s.measured n v f).ports).putFresh (s.fresh + 1) := by
  obtain ⟨q, e, p, h⟩ := exists_measured_eq n v f s
  rw [h]; rfl

/-! ## Values -/

theorem cyc_mkQ (c f : Word) : cyc (mkQ c f) = c := by
  unfold cyc mkQ; bv_omega
theorem frc_mkQ (c f : Word) : frc (mkQ c f) = f := by
  unfold frc mkQ; bv_omega
/-- A move by a number of units congruent to `f − FRC` modulo a cycle puts FRC at `f`. -/
theorem frc_qadd {v : Qval} {f : Word} {d : Int}
    (h : d % 2 ^ 48 = ((f.toNat : Int) - (frc v).toNat) % 2 ^ 48) : frc (qadd v d) = f := by
  unfold frc at h ⊢
  unfold qadd
  apply BitVec.eq_of_toNat_eq
  rw [BitVec.toNat_ofNat] at h ⊢
  rw [BitVec.toNat_add, BitVec.toNat_ofInt]
  have hf := f.isLt
  omega

end Sys2Proof.Machine
end

section
/-! # Encoders and pulse sources (O7, O8) -/
namespace Sys2Proof.Machine
open Sys2Proof

theorem raiseAll_told {a b : State} (hp : b.parts = a.parts) (hj : b.jrn = a.jrn) (fault : Bool)
    (cause : Nat) (args : List Word) : Told a (b.raiseAll fault cause args) :=
  told_of_esn hp hj fun hroom q hq => (raiseAll_esn fault cause args 11 b hroom).2 q hq

theorem counting_kind {a : State} {n k : Nat} (h : a.counting n k = true) : a.kind n = k := by
  unfold State.counting at h
  simp only [Bool.and_eq_true, beq_iff_eq] at h
  exact h.1.2

/-! ## Incremental encoders (R42) -/

/-- A pin that moves leaves the reference levels, the count and the configuration. -/
theorem decode_pin_quadValue (isB level : Bool) (clk : Nat) (q : Qty) (c : Int) :
    quadValue ((q.pin isB level).decode isB level clk) c = quadValue (q.pin isB level) c := by
  cases isB <;> rfl
theorem ref_decode (isB level : Bool) (clk : Nat) (q : Qty) :
    (q.decode isB level clk).ref isB = level := by cases isB <;> rfl

section
variable {t : Lapse} {s a : State} {n : Nat} {isB level : Bool} {q : Qty}
  (ha : s.elapse t = a) (hq : (a.qty n).pin isB level = q) (h0 : 0 < n) (h5 : n < 5)
  (hon : a.isOn 11 = true) (hpin : a.pinsLatched 11 = false)
include ha hq h0 h5 hon hpin

/-- QUAD_COUNT past the guards on its operands. -/
theorem execQuadCount_live : execQuadCount t n isB level s =
    if a.kind n = 1 ∧ q.ref isB ≠ level ∧ q.accepts a.tb.clk = true then
      let r := q.decode isB level a.tb.clk
      let c := if r.leads isB != bit r.cfg0 42 then r.count + 1 else r.count - 1
      let b := a.setQty n r
      if b.absorbing n = true then .next (b.absorbed n id)
      else .next (b.measured n (quadValue r c) fun x => { x with count := c })
    else .next (a.setQty n q) := by
  unfold execQuadCount
  rw [ha]; dsimp only
  rw [if_neg (by simp only [hon, hpin]; simp; omega), hq]

theorem execQuadCount_filtered (h : q.ref isB = level ∨ q.accepts a.tb.clk = false) :
    execQuadCount t n isB level s = .next (a.setQty n q) := by
  rw [execQuadCount_live ha hq h0 h5 hon hpin]
  refine if_neg fun ⟨_, hr, hacc⟩ => ?_
  rcases h with h | h
  · exact hr h
  · rw [h] at hacc; cases hacc

theorem execQuadCount_counts (hk : a.kind n = 1) (hr : q.ref isB ≠ level)
    (hacc : q.accepts a.tb.clk = true) (habs : a.absorbing n = false) {r : Qty} {c : Int}
    (er : q.decode isB level a.tb.clk = r)
    (ec : (if r.leads isB != bit q.cfg0 42 then q.count + 1 else q.count - 1) = c) :
    execQuadCount t n isB level s = .next ((a.setQty n r).measured n (quadValue q c)
      fun x => { x with count := c }) := by
  have hcfg : r.cfg0 = q.cfg0 := by subst er; cases isB <;> rfl
  have hcount : r.count = q.count := by subst er; cases isB <;> rfl
  have hval : quadValue r c = quadValue q c := by subst er hq; exact decode_pin_quadValue ..
  have hab : (a.setQty n r).absorbing n = false := by
    refine Eq.trans ?_ habs
    unfold State.absorbing; rw [qty_setQty]
    subst er hq; cases isB <;> rfl
  rw [execQuadCount_live ha hq h0 h5 hon hpin, if_pos ⟨hk, hr, hacc⟩, er]
  dsimp only
  rw [hab, hcfg, hcount, ec, hval]
  exact if_neg (by simp)
end

/-- QUAD_INDEX under INDEX RESET (R42). -/
theorem execQuadIndex_reset {t : Lapse} {s a : State} {n : Nat} (ha : s.elapse t = a)
    (hc : a.counting n 1 = true) (h0 : 0 < n) (hidx : fld (a.qty n).cfg1 33 32 = 1) {d : Int}
    (hd : indexCorr (a.qty n) (a.qty n).vu = d) {b : State}
    (hb : a.spread n (a.setQty n { a.qty n with vu := qadd (a.qty n).vu d, base := qadd (a.qty n).base d, aligned := true }) = b) :
    execQuadIndex t n s = .next (if (a.qty n).aligned = true ∧ d ≠ 0
      then b.raiseAll true 0x102 [sword (corrCounts (a.qty n) d)] else b) := by
  unfold execQuadIndex
  rw [ha]; dsimp only
  rw [if_pos ⟨hc, by omega⟩, hidx]
  subst hd hb; rfl
theorem execQuadIndex_off {t : Lapse} {s a : State} {n : Nat} (ha : s.elapse t = a)
    (hc : a.counting n 1 = true) (h0 : 0 < n) (hidx : fld (a.qty n).cfg1 33 32 = 0) :
    execQuadIndex t n s = .next a := by
  unfold execQuadIndex
  rw [ha]; dsimp only
  rw [if_pos ⟨hc, by omega⟩, hidx]
  rfl
/-- The index correction takes FRC to INDEX_FRC. -/
theorem frc_indexCorr (q : Qty) (v : Qval) : frc (qadd v (indexCorr q v)) = q.cfg2 := by
  refine frc_qadd ?_
  unfold indexCorr; dsimp only; split <;> omega

/-- QUAD_ILLEGAL on levels that were the decoder's reference. -/
theorem execQuadIllegal_both {t : Lapse} {s a : State} {n : Nat} {q : Qty} (ha : s.elapse t = a)
    (hq : a.qty n = q) (h0 : 0 < n) (h5 : n < 5) (hon : a.isOn 11 = true)
    (hpin : a.pinsLatched 11 = false) (hk : a.kind n = 1) (hA : q.refA = q.pinA)
    (hB : q.refB = q.pinB) (hacc : q.accepts a.tb.clk = true) :
    execQuadIllegal t n s = .next ((a.setQty n { q with
      pinA := !q.pinA, pinB := !q.pinB, refA := !q.pinA, refB := !q.pinB
      edgeClk := some a.tb.clk }).raiseAll true 0x103 []) := by
  unfold execQuadIllegal
  rw [ha]; dsimp only
  rw [if_neg (by simp only [hon, hpin]; simp; omega), hq,
    if_pos ⟨hk, by simp [hA], by simp [hB], hacc⟩]
  rfl

/-- Settles O7: a transition counts or is filtered; an index and an illegal transition by their own
rules. -/
theorem quadratureCounts : Obligations.QuadratureCounts := by
  refine ⟨fun t s n isB level => ?_, fun t s n => ?_⟩
  · generalize ha : s.elapse t = a
    intro a' q r c
    refine ⟨fun h0 h5 hon hpin hk hr hacc habs => ?_, fun h0 h5 hon hpin hno => ?_⟩
    · refine ⟨_, execQuadCount_counts ha rfl h0 h5 hon hpin hk hr hacc habs rfl rfl, ?_⟩
      have hself := measured_qty (n := n) (by omega) (quadValue q c) (fun x => { x with count := c })
        (a.setQty n r)
      refine ⟨?_, ?_, ?_, ?_, ?_, ?_, fun m hm hne => ?_, ?_⟩
      · rw [hself]
      · rw [hself]; rfl
      · rw [hself]; rfl
      · rw [hself]; rfl
      · rw [hself]
        refine Eq.trans ?_ (ref_decode isB level a.tb.clk q)
        unfold State.updated; rw [qty_setQty]; cases isB <;> rfl
      · rw [hself]; rfl
      · rw [measured_qty_ne hm hne, qty_setQty_ne _ _ _ _ hne]
      · exact (measured_frame ..).trans rfl
    · exact execQuadCount_filtered ha rfl h0 h5 hon hpin hno
  · generalize ha : s.elapse t = a
    intro a' q
    refine ⟨fun hc h0 h8 hidx => ?_, fun hc h0 hidx => execQuadIndex_off ha hc h0 hidx,
      fun h0 h5 hon hpin hk hA hB hacc => ?_⟩
    · refine ⟨_, execQuadIndex_reset ha hc h0 hidx rfl rfl, ?_⟩
      generalize hb : a.spread n _ = b
      have hself : b.qty n = { q with vu := qadd q.vu (indexCorr q q.vu), base := qadd q.base (indexCorr q q.vu), aligned := true } := by
        rw [← hb, spread_qty_low _ _ _ h8, qty_setQty]
      have hframe : b = ((a.putQs b.qs).putSch b.sch).putPorts b.ports := by
        rw [← hb]; exact (spread_frame ..).trans rfl
      have htb : b.tb = a.tb := by rw [hframe]; rfl
      have hqs : (if q.aligned = true ∧ indexCorr q q.vu ≠ 0 then b.raiseAll true 0x102
          [sword (corrCounts q (indexCorr q q.vu))] else b).qty n = b.qty n :=
        qty_congr (by split <;> simp) n
      refine ⟨?_, ?_, ?_, ?_, fun hal => ?_⟩
      · rw [hqs, hself]; exact frc_indexCorr q q.vu
      · rw [hqs, hself]
      · rw [hqs, hself]
      · split
        · rw [raiseAll_tb, htb]
        · exact htb
      · rw [if_neg (by rw [hal]; simp)]; exact hframe
    · refine ⟨_, execQuadIllegal_both ha rfl h0 h5 hon hpin hk hA hB hacc, ?_⟩
      have hself : ∀ v : Qty, ((a.setQty n v).raiseAll true 0x103 []).qty n = v := fun v => by
        rw [qty_congr (raiseAll_qs ..), qty_setQty]
      simp only [hself]
      refine ⟨rfl, rfl, congrArg _ hA.symm, congrArg _ hB.symm, ?_, raiseAll_told (setQty_parts ..) (setQty_jrn ..) true 0x103 []⟩
      rw [raiseAll_rest, raiseAll_qs]; rfl

end Sys2Proof.Machine
end

section
namespace Sys2Proof.Machine
open Sys2Proof

/-! ## Absolute encoders and pulses (R43, R44, R49) -/

theorem execSsiFrame_discarded {t : Lapse} {s a : State} {n data : Nat} {err low : Bool}
    (ha : s.elapse t = a) (hc : a.counting n 2 = true) (h0 : 0 < n)
    (hbad : (err = true ∧ bit (a.qty n).cfg1 14 = true) ∨ low = true) :
    execSsiFrame t n data err low s = .next (a.raiseAll true 0x104 []) := by
  unfold execSsiFrame
  rw [ha]; dsimp only
  rw [if_pos ⟨hc, by omega⟩, if_pos hbad]

/-- The first good frame of an SSI source in binary code whose turns count up. -/
theorem execSsiFrame_first {t : Lapse} {s a : State} {n data raw : Nat} {q : Qty}
    (ha : s.elapse t = a) (hc : a.counting n 2 = true) (habs : a.absorbing n = false) (h0 : 0 < n)
    (hq : a.qty n = q) (hbin : bit q.cfg1 15 = false) (hraw : q.ssiRaw = none)
    (hup : bit q.cfg0 42 = false) (hr : data % 2 ^ (fld q.cfg1 29 24 + fld q.cfg1 21 16) = raw) :
    execSsiFrame t n data false false s = .next (a.measured n
      (qadd 0 (((raw * 2 ^ (48 - min 48 (fld q.cfg1 29 24)) : Nat) : Int) + q.ssiOfs))
      fun x => { x with ssiRaw := some raw }) := by
  unfold execSsiFrame
  rw [ha]; dsimp only
  rw [if_pos ⟨hc, by omega⟩, if_neg (by simp), hq, hraw, hup, hbin, habs]
  simp only [Bool.false_eq_true, if_false, hr]
  push_cast
  rw [one_mul]

theorem execTachPulse_counts {t : Lapse} {s a : State} {n : Nat} (ha : s.elapse t = a)
    (hc : a.counting n 3 = true) (habs : a.absorbing n = false) (h0 : 0 < n) :
    execTachPulse t n s = .next (a.measured n
      (mkQ (if bit (a.qty n).cfg0 42 then cyc (a.qty n).vu - 1 else cyc (a.qty n).vu + 1) (a.qty n).cfg2)
      fun x => x) := by
  unfold execTachPulse
  rw [ha]; dsimp only
  rw [if_pos ⟨hc, by omega⟩, if_neg (by rw [habs]; simp)]

theorem execRef1ppsPulse_counts {t : Lapse} {s a : State} (ha : s.elapse t = a)
    (hc : a.counting 4 8 = true) :
    execRef1ppsPulse t s = .next (a.measured 4
      (mkQ (if bit (a.qty 4).cfg0 42 then cyc (a.qty 4).vu - 1 else cyc (a.qty 4).vu + 1) 0)
      fun x => x) := by
  unfold execRef1ppsPulse
  rw [ha]; dsimp only
  exact if_pos hc

/-- A pulse's value on a quantity that it updates: the others of Q0 to Q7 stay. -/
theorem measured_pulse {a : State} {n : Nat} (hn : n < 8) (c f : Word) :
    let u := a.measured n (mkQ c f) fun x => x
    cyc (u.qty n).vu = c ∧ frc (u.qty n).vu = f ∧ (u.qty n).valid = true ∧
    (∀ m, m < 8 → m ≠ n → u.qty m = a.qty m) ∧
    u = (((a.putQs u.qs).putSch u.sch).putPorts u.ports).putFresh u.fresh := by
  intro u
  have hself := measured_qty hn (mkQ c f) (fun x => x) a
  refine ⟨?_, ?_, ?_, fun m hm hne => measured_qty_ne hm hne .., ?_⟩
  · exact (congrArg (fun q : Qty => cyc q.vu) hself).trans (cyc_mkQ c f)
  · exact (congrArg (fun q : Qty => frc q.vu) hself).trans (frc_mkQ c f)
  · exact (congrArg Qty.valid hself).trans rfl
  · have h := measured_frame n (mkQ c f) (fun x => x) a
    have hf : u.fresh = a.fresh + 1 := by show (State.measured ..).fresh = _; rw [h]; rfl
    rw [hf]; exact h

/-! ## Mains (R45, R464) -/

/-- A mains measurement counts the cycle that a positive crossing completes. -/
def State.cycleCounted (r : TrimRun) (a : State) : State :=
  a.putRtc { a.rtc with run := some { r with true0 := r.true0 + 1 } }
/-- Q5 at a positive crossing that it follows. -/
def State.mainsValue (a : State) : Qval :=
  let q := a.qty 5
  if !q.fed then mkQ 0 q.cfg1
  else
    let d : Int := ((q.cfg1.toNat : Int) - (frc q.vu).toNat) % 2 ^ 48
    let d := if d = 0 then 2 ^ 48 else d
    if bit q.cfg0 42 then qadd q.vu (d - 2 ^ 48) else qadd q.vu d
/-- It has FRC at ZERO_FRC. -/
theorem frc_mainsValue (a : State) : frc a.mainsValue = (a.qty 5).cfg1 := by
  unfold State.mainsValue; dsimp only
  split
  · exact frc_mkQ ..
  · split <;> exact frc_qadd (by split <;> omega)
theorem chooseNominal_eq (clk : Nat) (q : Qty) :
    ∃ c k f, q.chooseNominal clk = { q with cycles := c, cycleClk := k, nominal := f } := by
  unfold Qty.chooseNominal
  repeat' split
  all_goals exact ⟨_, _, _, rfl⟩

section
variable {t : Lapse} {s a : State} {r : TrimRun} (ha : s.elapse t = a)
  (hc : a.counting 5 4 = true) (hrun : a.rtc.run = some r) (hkind : r.kind = 1)
include ha hc hrun hkind

/-- MAINS_ZERO_CROSSING, positive, while a mains measurement runs. -/
theorem execMainsZeroCrossing_counted (phase : Word) : ∃ q : Qty,
    (q = { a.qty 5 with crossings := q.crossings, cycles := q.cycles, cycleClk := q.cycleClk, nominal := q.nominal }) ∧
    execMainsZeroCrossing t true phase s = .next (
      if Config.inputAc = true ∧ a.pwr.good = true ∧ a.pwr.dc = false then
        if (a.qty 5).followed a.tb.clk = true then
          ((a.cycleCounted r).setQty 5 q).measured 5 a.mainsValue fun x => x
        else (a.cycleCounted r).setQty 5 q
      else a.cycleCounted r) := by
  have hon : a.isOn 11 = true := by
    unfold State.counting at hc; simp only [Bool.and_eq_true] at hc; exact hc.1.1
  have hq : ∀ v, (a.putRtc v).qty 5 = a.qty 5 := fun _ => rfl
  have hc' : ∀ v, (a.putRtc v).counting 5 4 = true := fun _ => hc
  unfold execMainsZeroCrossing State.cycleCounted State.mainsValue
  rw [ha]; dsimp only
  rw [hrun]
  simp only [hkind, hon, and_self, if_true, hq, hc', putRtc_tb, putRtc_pwr, true_and, and_true, Bool.not_eq_true']
  cases hf : (a.qty 5).followed a.tb.clk with
  | false =>
    refine ⟨{ a.qty 5 with crossings := (a.tb.clk :: (a.qty 5).crossings).take 2 }, rfl, ?_⟩
    simp only [Bool.false_eq_true, if_false]
    split <;> rfl
  | true =>
    obtain ⟨c, k, f, hn⟩ := chooseNominal_eq a.tb.clk
      { a.qty 5 with crossings := (a.tb.clk :: (a.qty 5).crossings).take 2 }
    simp only [if_true, hn]
    refine ⟨{ a.qty 5 with crossings := (a.tb.clk :: (a.qty 5).crossings).take 2, cycles := c, cycleClk := k, nominal := f }, rfl, ?_⟩
    split <;> rfl
end

theorem putRtc_eq_puts (a : State) (x : Rtc) :
    a.putRtc x = ((((a.putQs a.qs).putRtc x).putSch a.sch).putPorts a.ports).putFresh a.fresh := by
  cases a; rfl

/-- Settles O8: each source's update is a measured value (`measured_qty`, `measured_frame`). -/
theorem encoderAndPulseSources : Obligations.EncoderAndPulseSources := by
  refine ⟨fun t s n data err low => ?_, fun t s n => ?_, fun t s phase r => ?_⟩
  · generalize ha : s.elapse t = a
    refine ⟨fun hc h0 hbad => ?_, fun hc habs h0 h8 herr hlow hbin hraw hup => ?_⟩
    · exact ⟨_, execSsiFrame_discarded ha hc h0 hbad, raiseAll_rest .., raiseAll_told rfl rfl true 0x104 []⟩
    · subst herr hlow
      refine ⟨_, execSsiFrame_first ha hc habs h0 rfl hbin hraw hup rfl, ?_⟩
      have hself := fun v f => measured_qty h8 v f a
      refine ⟨?_, ?_, ?_, ?_⟩
      · rw [hself]; rfl
      · rw [hself]
      · rw [hself]; rfl
      · have h := fun v f => measured_frame n v f a
        refine (h _ _).trans ?_
        rw [show ∀ v f, (a.measured n v f).fresh = a.fresh + 1 from fun v f => by rw [h]; rfl]
  · generalize ha : s.elapse t = a
    refine ⟨fun hc habs h0 h8 => ⟨_, execTachPulse_counts ha hc habs h0, measured_pulse h8 _ _⟩,
      fun hc h4 => ?_⟩
    subst h4
    exact ⟨_, execRef1ppsPulse_counts ha hc, measured_pulse (by decide) _ _⟩
  · generalize ha : s.elapse t = a
    dsimp only
    intro hc hrun hkind
    obtain ⟨q, hq, hexec⟩ := execMainsZeroCrossing_counted ha hc hrun hkind phase
    refine ⟨_, hexec, ?_⟩
    have hm : ∀ v f b, State.rtc (State.measured 5 v f b) = b.rtc := fun v f b => by
      rw [measured_frame]; rfl
    refine ⟨?_, fun hac hgood hdc hnear => ?_, fun hac => ?_, ?_⟩
    · split
      · split
        · rw [hm]; rfl
        · rfl
      · rfl
    · rw [if_pos ⟨hac, hgood, hdc⟩, if_pos hnear]
      have hself := measured_qty (show 5 < 8 by decide) a.mainsValue (fun x => x)
        ((a.cycleCounted r).setQty 5 q)
      exact ⟨(congrArg (fun q : Qty => frc q.vu) hself).trans (frc_mainsValue a),
        (congrArg Qty.valid hself).trans rfl⟩
    · rw [if_neg (by rw [hac]; simp)]; rfl
    · split
      · split
        · obtain ⟨l, e, p, h⟩ := exists_measured_eq 5 a.mainsValue (fun x => x) ((a.cycleCounted r).setQty 5 q)
          rw [h]; rfl
        · rfl
      · exact putRtc_eq_puts a _

end Sys2Proof.Machine
end

section
/-! # Quantities that go stale, and the direct path (O9) -/
namespace Sys2Proof.Machine
open Sys2Proof

/-! ## Timeouts (R52, Table 10) -/

/-- Qn as its timeout leaves it. -/
def State.timeoutQty (n : Nat) (s : State) : Qty :=
  let k := kindOf (s.qty n).cfg0
  if k = 1 ∨ k = 3 then { s.stand n with rate := 0, acc := 0, overrate := false, accSat := false, stopped := true }
  else if k = 5 ∨ k = 7 then (s.stand n).invalid s.tb.q0
  else (s.qty n).invalid s.tb.q0
theorem timedOut_eq (n : Nat) (s : State) :
    s.timedOut n = (s.setQty n (s.timeoutQty n)).follow 16 n := by
  unfold State.timedOut State.timeoutQty State.holdInvalid
  split <;> simp_all
theorem execQtyTimeout_past {t : Lapse} {s a : State} {n ms : Nat} (ha : s.elapse t = a)
    (h0 : 0 < n) (h8 : n < 8) (hon : a.isOn 11 = true) (hms : timeoutMs (a.qty n) = some ms)
    (hlate : ms * 654720 < a.tb.clk - (a.qty n).tuClk) :
    execQtyTimeout t n s = .next ((a.setQty n (a.timeoutQty n)).follow 16 n) := by
  unfold execQtyTimeout
  rw [ha]; dsimp only
  rw [hms, ← timedOut_eq]
  exact if_pos ⟨by omega, by omega, hon, hlate⟩
theorem execQtyTimeout_within {t : Lapse} {s a : State} {n ms : Nat} (ha : s.elapse t = a)
    (hms : timeoutMs (a.qty n) = some ms) (hin : a.tb.clk - (a.qty n).tuClk ≤ ms * 654720) :
    execQtyTimeout t n s = .next a := by
  unfold execQtyTimeout
  rw [ha]; dsimp only
  rw [hms]
  exact if_neg fun ⟨_, _, _, h⟩ => absurd hin (by omega)

/-! ## The direct path (R55) -/

/-- Two states that differ in the direct-path copies alone, as far as values go. -/
def State.sameValues (a b : State) : Prop :=
  a.tb = b.tb ∧ ∀ m, ∃ d, a.qty m = { b.qty m with direct := d }
theorem rateIn_of_sameValues {a b : State} (h : a.sameValues b) (fuel n : Nat) :
    a.rateIn fuel n = b.rateIn fuel n := by
  induction fuel generalizing n with
  | zero =>
    obtain ⟨d, hd⟩ := h.2 n
    show (a.qty n).rate = (b.qty n).rate
    rw [hd]
  | succ fuel ih =>
    obtain ⟨d, hd⟩ := h.2 n
    unfold State.rateIn
    rw [hd, h.1]; dsimp only
    rw [ih]; rfl
theorem value_of_sameValues {a b : State} (h : a.sameValues b) (n : Nat) : a.value n = b.value n := by
  obtain ⟨d, hd⟩ := h.2 n
  unfold State.value State.valueAt State.rateNow
  rw [hd, h.1, rateIn_of_sameValues h]; rfl
theorem sameValues_copy {a b : State} (h : a.sameValues b) (n : Nat) (v : Qval) :
    (a.setQty n { a.qty n with direct := v }).sameValues b := by
  refine ⟨h.1, fun m => ?_⟩
  obtain ⟨d, hd⟩ := h.2 m
  by_cases hm : m = n
  · subst hm; exact ⟨v, by rw [qty_setQty, hd]⟩
  · exact ⟨d, by rw [qty_setQty_ne _ _ _ _ hm, hd]⟩

/-- Every copy rewritten with its quantity's value. -/
def State.copyDirect (s : State) : State :=
  [0, 1, 2, 3, 4, 5, 6, 7, 8, 9, 10, 11, 12, 13, 14, 15].foldl (fun (s : State) n => s.setQty n { s.qty n with direct := s.value n }) s
theorem exists_copyDirect_eq (s : State) : ∃ l, s.copyDirect = s.putQs l := by
  refine foldl_inv (fun u => ∃ l, u = s.putQs l) _ (fun u n hu => ?_) _ s ⟨s.qs, rfl⟩
  obtain ⟨l, rfl⟩ := hu
  exact ⟨_, rfl⟩
theorem copyDirect_qty (s : State) {n : Nat} (hn : n < 16) :
    s.copyDirect.qty n = { s.qty n with direct := s.value n } := by
  have hmem : n ∈ [0, 1, 2, 3, 4, 5, 6, 7, 8, 9, 10, 11, 12, 13, 14, 15] := by
    simp only [List.mem_cons]; omega
  refine foldl_once (fun (u : State) => u.qty n) (fun (s : State) n => s.setQty n { s.qty n with direct := s.value n }) n
    (fun q => { q with direct := s.value n }) (fun u => u.sameValues s)
    (fun u m h => sameValues_copy h m _) (fun u m hm => qty_setQty_ne _ _ _ _ hm.symm)
    (fun u h => ?_) _ (by decide) hmem s ⟨rfl, fun _ => ⟨_, rfl⟩⟩
  dsimp only
  rw [qty_setQty, value_of_sameValues h]

theorem execDirectPathCopy_due {t : Lapse} {s a : State} (ha : s.elapse t = a)
    (hon : a.isOn 11 = true) (hdue : a.tb.dpClk.all (fun c => decide (c + 32 ≤ a.tb.clk)) = true) :
    execDirectPathCopy t s = .next (a.putTb { a.tb with dpClk := some a.tb.clk }).copyDirect := by
  unfold execDirectPathCopy
  rw [ha]; dsimp only
  exact if_pos ⟨hon, hdue⟩
theorem execDirectPathCopy_early {t : Lapse} {s a : State} (ha : s.elapse t = a)
    (hearly : a.tb.dpClk.any (fun c => decide (a.tb.clk < c + 32)) = true) :
    execDirectPathCopy t s = .next a := by
  unfold execDirectPathCopy
  rw [ha]; dsimp only
  refine if_neg fun ⟨_, hdue⟩ => ?_
  cases h : a.tb.dpClk with
  | none => rw [h] at hearly; cases hearly
  | some c =>
    rw [h] at hearly hdue
    simp only [Option.any_some, Option.all_some, decide_eq_true_eq] at hearly hdue
    omega

/-- Settles O9: a timeout changes Qn as its kind says and what is derived from it; a rewrite of the
direct path changes no value that a later copy takes. -/
theorem quantityStaleness : Obligations.QuantityStaleness := by
  refine ⟨fun t s n ms => ?_, fun t s => ?_⟩
  · generalize ha : s.elapse t = a
    refine ⟨fun h0 h8 hon hms hlate => ?_, fun hms hin => execQtyTimeout_within ha hms hin⟩
    refine ⟨_, execQtyTimeout_past ha h0 h8 hon hms hlate, ?_⟩
    have hself : ((a.setQty n (a.timeoutQty n)).follow 16 n).qty n = a.timeoutQty n := by
      rw [follow_qty_low _ _ _ h8, qty_setQty]
    refine ⟨fun hk => hself.trans (if_pos hk), fun hk => hself.trans ?_, fun hk => hself.trans ?_,
      fun m hm hne => ?_, ?_⟩
    · exact (if_neg (by omega)).trans (if_neg (by omega))
    · exact (if_neg (by omega)).trans (if_pos hk)
    · rw [follow_qty_low _ _ _ hm, qty_setQty_ne _ _ _ _ hne]
    · exact (follow_frame ..).trans rfl
  · generalize ha : s.elapse t = a
    refine ⟨fun hon hdue => ⟨_, execDirectPathCopy_due ha hon hdue, fun n hn => ?_, ?_⟩,
      fun hearly => execDirectPathCopy_early ha hearly⟩
    · rw [copyDirect_qty _ hn]; rfl
    · obtain ⟨l, h⟩ := exists_copyDirect_eq (a.putTb { a.tb with dpClk := some a.tb.clk })
      rw [h]; rfl

end Sys2Proof.Machine
end

section
/-! # Leap seconds, steps of Tether time, and the commands on time (O2, O5, O6) -/
namespace Sys2Proof.Machine
open Sys2Proof

/-! ## Leap seconds (R35, R36) -/

theorem leapDue_eq (s : State) : s.leapDue = (s.tb.leapPend && s.tb.tsrc != 0 &&
    !ahead (mkQ (word s.tb.leapAt) 0) (mkQ (cyc s.tb.q0) 0)) := rfl
theorem execLeapChange_due {t : Lapse} {s a : State} (ha : s.elapse t = a) (h : a.leapDue = true) :
    execLeapChange t s = .next a.takeLeap := by
  unfold execLeapChange
  rw [ha]; dsimp only
  rw [if_pos h]
theorem execLeapChange_idle {t : Lapse} {s a : State} (ha : s.elapse t = a) (h : a.leapDue = false) :
    execLeapChange t s = .next a := by
  unfold execLeapChange
  rw [ha]; dsimp only
  rw [if_neg (by rw [h]; simp)]

/-- Settles O2: the change acts exactly where it is due. -/
theorem leapChange : Obligations.LeapChange := by
  intro t s
  generalize ha : s.elapse t = a
  refine ⟨fun hpend hsrc hat => ?_, fun hno => execLeapChange_idle ha ?_⟩
  · refine ⟨_, execLeapChange_due ha ?_, rfl, rfl, rfl⟩
    rw [leapDue_eq, hpend, hat]; simpa using hsrc
  · rw [leapDue_eq]
    rcases hno with h | h | h <;> rw [h] <;> simp

/-! ## TSRC (R161, R180, R465) -/

/-- What a change of TSRC does to a measurement stays in the RTC block, records apart. -/
theorem exists_trimWatch_rest (s : State) :
    ∃ x, s.trimWatch.rest = (s.putRtc x).rest ∧ x.keep = s.rtc.keep := by
  have habort : ∃ x, s.trimAbort.rest = (s.putRtc x).rest ∧ x.keep = s.rtc.keep := by
    unfold State.trimAbort State.trimDone
    split
    · exact ⟨s.rtc, rfl, rfl⟩
    · next r hr =>
      by_cases hw : r.waiting = true
      · rw [if_pos hw]; exact ⟨s.rtc, rfl, rfl⟩
      · rw [if_neg hw]; dsimp only
        split
        · rw [raise_rest]; exact ⟨_, rfl, rfl⟩
        · exact ⟨_, rfl, rfl⟩
  unfold State.trimWatch
  dsimp only
  split
  · split
    · exact ⟨_, rfl, rfl⟩
    · split
      · exact habort
      · exact ⟨s.rtc, rfl, rfl⟩
  · exact ⟨s.rtc, rfl, rfl⟩

/-- A new TSRC, and what begins or ends with HOLDOVER (R180, R182). -/
def TimeBase.sourced (v : Nat) (tb : TimeBase) : TimeBase :=
  if v = 2 ∧ tb.tsrc ≠ 2 then
    { tb with tsrc := 2, hoStart := some tb.q0, tqe := tb.tqeNow, tqeFloor := 0, e0 := tb.tqeNow, f0 := tb.tqf }
  else if v ≠ 2 ∧ tb.tsrc = 2 then { tb with tsrc := v, tqe := tb.tqeNow, hoStart := none }
  else { tb with tsrc := v }
/-- The time base as TSRC becomes `v`. -/
def TimeBase.taking (v : Nat) (tb : TimeBase) : TimeBase :=
  TimeBase.sourced v (if v = tb.tsrc then tb else { tb with tsrcAt := some tb.q0 })
theorem putTb_sourced (v : Nat) (s : State) :
    (if v = 2 ∧ s.tb.tsrc ≠ 2 then s.putTb { s.tb with
        tsrc := 2, hoStart := some s.tb.q0, tqe := s.tb.tqeNow, tqeFloor := 0, e0 := s.tb.tqeNow, f0 := s.tb.tqf }
      else if v ≠ 2 ∧ s.tb.tsrc = 2 then s.putTb { s.tb with tsrc := v, tqe := s.tb.tqeNow, hoStart := none }
      else s.putTb { s.tb with tsrc := v }) = s.putTb (s.tb.sourced v) := by
  unfold TimeBase.sourced
  split
  · rfl
  · split <;> rfl
theorem setTsrc_eq (v : Nat) (s : State) : s.setTsrc v = (s.putTb (s.tb.taking v)).trimWatch := by
  unfold State.setTsrc TimeBase.taking; dsimp only
  rw [putTb_sourced]
  split <;> rfl
theorem exists_setTsrc_rest (v : Nat) (s : State) :
    ∃ x, (s.setTsrc v).rest = ((s.putTb (s.tb.taking v)).putRtc x).rest ∧ x.keep = s.rtc.keep := by
  rw [setTsrc_eq]; exact exists_trimWatch_rest _
theorem setTsrc_tb (v : Nat) (s : State) : (s.setTsrc v).tb = s.tb.taking v := by
  obtain ⟨x, h, -⟩ := exists_setTsrc_rest v s; exact of_rest_tb h
theorem setTsrc_outs (v : Nat) (s : State) : (s.setTsrc v).outs = s.outs := by
  obtain ⟨x, h, -⟩ := exists_setTsrc_rest v s; exact (of_rest_outs h).trans rfl
theorem setTsrc_modes (v : Nat) (s : State) : (s.setTsrc v).modes = s.modes := by
  obtain ⟨x, h, -⟩ := exists_setTsrc_rest v s; exact (of_rest_modes h).trans rfl

section
variable (v : Nat) (tb : TimeBase)
/-- A field that no case of a change of TSRC writes. -/
theorem taking_view {γ : Type} (f : TimeBase → γ)
    (h : ∀ (x : TimeBase) sa c hs q fl e z, f { x with tsrcAt := sa, tsrc := c, hoStart := hs, tqe := q, tqeFloor := fl, e0 := e, f0 := z } = f x) :
    f (tb.taking v) = f tb := by
  have hs : ∀ x : TimeBase, f (x.sourced v) = f x := by
    intro x
    unfold TimeBase.sourced
    split
    · exact h x ..
    · split <;> exact h x ..
  unfold TimeBase.taking
  rw [hs]; split
  · rfl
  · exact h tb ..
@[simp] theorem taking_q0 : (tb.taking v).q0 = tb.q0 := taking_view v tb (·.q0) (fun _ _ _ _ _ _ _ _ => rfl)
@[simp] theorem taking_step : (tb.taking v).step = tb.step := taking_view v tb (·.step) (fun _ _ _ _ _ _ _ _ => rfl)
@[simp] theorem taking_resid : (tb.taking v).resid = tb.resid := taking_view v tb (·.resid) (fun _ _ _ _ _ _ _ _ => rfl)
theorem sourced_tsrc : (tb.sourced v).tsrc = v := by
  unfold TimeBase.sourced
  split
  · next h => exact h.1.symm
  · split <;> rfl
@[simp] theorem taking_tsrc : (tb.taking v).tsrc = v := sourced_tsrc ..
/-- Between two sources that are not HOLDOVER, TQE stays. -/
theorem taking_tqe (hv : v ≠ 2) (hsrc : tb.tsrc ≠ 2) : (tb.taking v).tqe = tb.tqe := by
  have h : ∀ x : TimeBase, x.tsrc ≠ 2 → (x.sourced v).tqe = x.tqe := by
    intro x hx
    unfold TimeBase.sourced
    rw [if_neg fun hc => hv hc.1, if_neg fun hc => hx hc.2]
  unfold TimeBase.taking
  split
  · exact h _ hsrc
  · exact h _ hsrc
end

/-! ## A step of Tether time (R199, R202, R203) -/

theorem tget_map {α : Type} (d : α) (f : α → α) (hd : f d = d) (k : Nat) (t : Tab α) :
    tget d k (t.map fun e => (e.1, f e.2)) = f (tget d k t) := by
  induction t with
  | nil => exact hd.symm
  | cons e t ih =>
    obtain ⟨j, x⟩ := e
    simp only [List.map_cons, tget]
    split
    · rfl
    · exact ih
theorem shiftStamps_tb (d : Int) (s : State) : (s.shiftStamps d).tb = { s.tb with
    hoStart := s.tb.hoStart.map fun q => qadd q d, tsrcAt := s.tb.tsrcAt.map fun q => qadd q d } := rfl
theorem shiftStamps_out (d : Int) (s : State) (n : Nat) : (s.shiftStamps d).out n = { s.out n with
    until_ := (s.out n).until_.map fun q => qadd q d, from_ := (s.out n).from_.map fun q => qadd q d } :=
  tget_map ({} : Output) (fun o : Output => { o with until_ := o.until_.map fun q => qadd q d, from_ := o.from_.map fun q => qadd q d }) rfl n s.outs
theorem shiftStamps_steering (d : Int) (s : State) : (s.shiftStamps d).steering = s.steering := rfl
theorem out_congr {a b : State} (h : a.outs = b.outs) (n : Nat) : a.out n = b.out n := by
  unfold State.out; rw [h]
theorem steering_congr {a b : State} (h : a.modes = b.modes) : a.steering = b.steering := by
  unfold State.steering; rw [h]

/-- The outputs across a step. -/
def State.stepOuts (new : Qval) (d : Int) (first : Prop) [Decidable first] (s : State) : State :=
  [0, 1, 2, 3, 4, 5, 6, 7].foldl (fun (s : State) n => s.setOut n ((s.out n).step new d first (s.clk.pllT.freq.toNat % 2 ^ 46))) s
theorem exists_stepOuts_eq (new : Qval) (d : Int) (first : Prop) [Decidable first] (s : State) :
    ∃ l, s.stepOuts new d first = s.putOuts l := by
  refine foldl_inv (fun u => ∃ l, u = s.putOuts l) _ (fun u n hu => ?_) _ s ⟨s.outs, rfl⟩
  obtain ⟨l, rfl⟩ := hu
  exact ⟨_, rfl⟩
theorem stepOuts_out (new : Qval) (d : Int) (first : Prop) [Decidable first] (s : State) {n : Nat} (hn : n < 8) :
    (s.stepOuts new d first).out n = (s.out n).step new d first (s.clk.pllT.freq.toNat % 2 ^ 46) := by
  refine foldl_once (fun (u : State) => u.out n)
    (fun (s : State) n => s.setOut n ((s.out n).step new d first (s.clk.pllT.freq.toNat % 2 ^ 46))) n
    (fun o => o.step new d first (s.clk.pllT.freq.toNat % 2 ^ 46)) (fun u => u.clk = s.clk)
    (fun u m h => h) (fun u m hm => out_setOut_ne _ _ _ _ hm.symm) (fun u h => ?_) _ (by decide)
    (by simp only [List.mem_cons]; omega) s rfl
  rw [out_setOut, h]
/-- A periodic output that runs sets STEPPED. -/
theorem step_flags {o : Output} (hp : o.conf.periodic = true) (hs : o.state = 2) (new : Qval) (d : Int)
    (first : Bool) (f : Nat) : (o.step new d first f).flags = setBit o.flags 2 := by
  unfold Output.step
  rw [if_neg (by rw [hs]; simp), if_pos ⟨hp, hs⟩]

theorem exists_writeHeader_eq (n : Nat) (s : State) :
    ∃ p m, s.writeHeader n = (s.putPorts p).putMem m :=
  ⟨tput {} n { s.smp n with hseq := ((s.smp n).hseq + 1) % 2 ^ 16 } s.ports, _, rfl⟩
theorem exists_stepPorts_eq (old : Qval) (d : Int) (l : List Nat) (s : State) :
    ∃ p m, l.foldl (fun (s : State) p => s.stepPort p old d) s = (s.putPorts p).putMem m := by
  refine foldl_inv (fun u => ∃ p m, u = (s.putPorts p).putMem m) _ (fun u n hu => ?_) _ s
    ⟨s.ports, s.mem, rfl⟩
  obtain ⟨p, m, rfl⟩ := hu
  unfold State.stepPort; dsimp only
  split
  · obtain ⟨q, hq⟩ : ∃ q, ∀ v, (((s.putPorts p).putMem m).setSmp n v) = (s.putPorts (q v)).putMem m :=
      ⟨fun v => tput {} n v p, fun _ => rfl⟩
    rw [hq]
    obtain ⟨p', m', h⟩ := exists_writeHeader_eq n ((s.putPorts (q _)).putMem m)
    rw [h]; exact ⟨p', m', rfl⟩
  · exact ⟨p, m, rfl⟩
theorem exists_foldl_setLnk_eq (f : Nat → Link → Link) (l : List Nat) (s : State) :
    ∃ x, l.foldl (fun (s : State) n => s.setLnk n (f s.tb.clk (s.lnk n))) s = s.putLinks x := by
  refine foldl_inv (fun u => ∃ x, u = s.putLinks x) _ (fun u n hu => ?_) _ s ⟨s.links, rfl⟩
  obtain ⟨x, rfl⟩ := hu
  exact ⟨_, rfl⟩

/-- What a step makes of TSRC and TQE, and of a leap change that it reaches (R36, R161, R202). -/
def State.sourceStepped (p : StepPlan) (s : State) : State :=
  let s := if s.tb.tsrc = 4 ∨ s.tb.tsrc = 0 ∨ p.cause = 0 then s.setTsrc p.after else s
  let s := if s.tb.tsrc = 2 then s else s.putTb { s.tb with tqe := p.tqe.getD s.tb.tqe }
  let s := if s.steering then s else s.endSteering
  if s.leapDue then s.takeLeap else s


/-- What the source's part of a step needs of the state before: `a` is the state at arrival. -/
structure State.AtStep (st : Announced) (a b : State) : Prop where
  q0 : b.tb.q0 = qadd a.tb.q0 st.delta
  step : b.tb.step = none
  resid : b.tb.resid = 0
  tsrc : b.tb.tsrc = a.tb.tsrc
  tqe : b.tb.tqe = a.tb.tqe
  steering : b.steering = a.steering
  flags : ∀ n, n < 8 → (a.out n).conf.periodic = true → (a.out n).state = 2 →
    (b.out n).flags = setBit (a.out n).flags 2

/-- STEP_APPLY once Q0 has reached N. -/
theorem execStepApply_reached {t : Lapse} {s a : State} {st : Announced} (ha : s.elapse t = a)
    (hst : a.tb.step = some st) (hn : st.n ≤ (cyc a.tb.q0).toNat) :
    ∃ b, a.AtStep st b ∧ execStepApply t s = .next (b.sourceStepped st.plan) := by
  unfold execStepApply
  extract_lets +onlyGivenNames u
  rw [show u = a from ha]
  clear_value u
  split
  · next st' h =>
    obtain rfl : st' = st := Option.some.inj (h.symm.trans hst)
    rw [if_pos hn]
    extract_lets +onlyGivenNames old new src b c first d e f
    have hctb : c.tb = { b.tb with
        hoStart := b.tb.hoStart.map fun q => qadd q st'.delta
        tsrcAt := b.tb.tsrcAt.map fun q => qadd q st'.delta } := (feed_tb ..).trans (shiftStamps_tb st'.delta b)
    have hcout : ∀ n, c.out n = (b.shiftStamps st'.delta).out n := out_congr (feed_outs ..)
    have hcst : c.steering = a.steering :=
      (steering_congr (feed_modes ..)).trans (shiftStamps_steering st'.delta b)
    have hdout : ∀ n, n < 8 → d.out n = (c.out n).step new st'.delta first (c.clk.pllT.freq.toNat % 2 ^ 46) :=
      fun n hn => stepOuts_out new st'.delta first c hn
    obtain ⟨o, hd⟩ : ∃ o, d = c.putOuts o := exists_stepOuts_eq new st'.delta first c
    obtain ⟨p, m, he⟩ : ∃ p m, e = (d.putPorts p).putMem m := exists_stepPorts_eq old st'.delta _ d
    obtain ⟨x, hf⟩ : ∃ x, f = e.putLinks x := exists_foldl_setLnk_eq (fun clk k => k.stepped clk) _ e
    clear_value f e d c
    have hftb : f.tb = c.tb := by rw [hf, he, hd, putLinks_tb, putMem_tb, putPorts_tb, putOuts_tb]
    have hfst : f.steering = c.steering := steering_congr (by
      rw [hf, he, hd, putLinks_modes, putMem_modes, putPorts_modes, putOuts_modes])
    have hfout : ∀ n, f.out n = d.out n := out_congr (by
      rw [hf, he, putLinks_outs, putMem_outs, putPorts_outs])
    have htb := hftb.trans hctb
    refine ⟨f, ⟨?_, ?_, ?_, ?_, ?_, hfst.trans hcst, fun n hn hp hs => ?_⟩, rfl⟩
    · exact (congrArg TimeBase.q0 htb).trans rfl
    · exact (congrArg TimeBase.step htb).trans rfl
    · exact (congrArg TimeBase.resid htb).trans rfl
    · exact (congrArg TimeBase.tsrc htb).trans rfl
    · exact (congrArg TimeBase.tqe htb).trans rfl
    · rw [hfout, hdout n hn, hcout, shiftStamps_out]
      rw [step_flags]
      · rfl
      · exact hp
      · exact hs
  · next h => rw [hst] at h; cases h

theorem takeLeap_tb (s : State) : s.takeLeap.tb = { s.tb with leapNow := s.tb.leapNext, leapPend := false } := rfl
theorem endSteering_tb (s : State) : s.endSteering.tb =
    if s.tb.tsrc = 1 ∨ s.tb.tsrc = 3 ∨ s.tb.tsrc = 4 then { s.tb with plan := none }.taking 2 else s.tb := by
  unfold State.endSteering
  split
  · exact setTsrc_tb ..
  · rfl
theorem endSteering_outs (s : State) : s.endSteering.outs = s.outs := by
  unfold State.endSteering
  split
  · exact setTsrc_outs ..
  · rfl

/-- A leap change that is due, on what it leaves alone. -/
theorem leapTaken_view {γ : Type} (f : State → γ) (h : ∀ s : State, f s.takeLeap = f s) (s : State) :
    f (if s.leapDue = true then s.takeLeap else s) = f s := by
  split
  · exact h s
  · rfl

/-- The time base with the source and TQE that a step out of NONE or RECOVERY brings. -/
def TimeBase.stepSourced (p : StepPlan) (tb : TimeBase) : TimeBase :=
  { tb.taking p.after with tqe := p.tqe.getD (tb.taking p.after).tqe }
/-- A step out of NONE or RECOVERY: its source and TQE, the end of steering where the mode in force
steers nothing, and a leap change. -/
theorem exists_sourceStepped_eq {p : StepPlan} {b : State} (hsrc : b.tb.tsrc = 0 ∨ b.tb.tsrc = 4)
    (hafter : p.after ≠ 2) : ∃ c d : State, c.tb = b.tb.stepSourced p ∧ c.outs = b.outs ∧
    d = (if b.steering = true then c else c.endSteering) ∧
    b.sourceStepped p = if d.leapDue = true then d.takeLeap else d := by
  have h1 : b.tb.tsrc = 4 ∨ b.tb.tsrc = 0 ∨ p.cause = 0 := by tauto
  have h2 : (b.setTsrc p.after).tb.tsrc ≠ 2 := by rw [setTsrc_tb, taking_tsrc]; exact hafter
  unfold State.sourceStepped
  rw [if_pos h1]
  extract_lets +onlyGivenNames c0 src c
  have hc : c = c0.putTb { c0.tb with tqe := p.tqe.getD c0.tb.tqe } := if_neg h2
  have htb : c.tb = b.tb.stepSourced p := by
    unfold TimeBase.stepSourced; rw [hc, ← setTsrc_tb]; rfl
  have hst : c.steering = b.steering := by rw [hc]; exact steering_congr (setTsrc_modes ..)
  exact ⟨c, if c.steering = true then c else c.endSteering, htb, by rw [hc]; exact setTsrc_outs ..,
    by rw [hst], rfl⟩

theorem endSteering_view {γ : Type} (f : State → γ) (hp : ∀ (s : State) x, f (s.putTb { s.tb with plan := x }) = f s)
    (h : ∀ s : State, f (s.setTsrc 2) = f s) (s : State) : f s.endSteering = f s := by
  unfold State.endSteering
  split
  · rw [h, hp]
  · rfl

/-- Settles O5: the physical step, and then its source. -/
theorem stepApplied : Obligations.StepApplied := by
  intro t s st
  generalize ha : s.elapse t = a
  dsimp only
  intro hst hn hsrc hafter
  obtain ⟨b, hb, hexec⟩ := execStepApply_reached ha hst hn
  have hne : st.plan.after ≠ 2 := by omega
  obtain ⟨c, d, htb, houts, hd, hr⟩ := exists_sourceStepped_eq (b := b) (by rw [hb.tsrc]; exact hsrc) hne
  have hview : ∀ {γ : Type} (f : TimeBase → γ), (∀ tb x, f { tb with plan := x } = f tb) →
      (∀ v tb, f (TimeBase.taking v tb) = f tb) → (∀ tb x, f { tb with tqe := x } = f tb) →
      (∀ tb x y, f { tb with leapNow := x, leapPend := y } = f tb) →
      f (b.sourceStepped st.plan).tb = f b.tb := by
    intro γ f h1 h2 h3 h4
    rw [hr, leapTaken_view (fun s => f s.tb) (fun s => h4 ..), hd]
    have hc : f c.tb = f b.tb := by rw [htb]; exact (h3 ..).trans (h2 ..)
    split
    · exact hc
    · rw [endSteering_view (fun s => f s.tb) (fun s x => h1 ..) (fun s => by rw [setTsrc_tb, h2])]
      exact hc
  have hctsrc : c.tb.tsrc = st.plan.after := by rw [htb]; exact taking_tsrc ..
  refine ⟨_, hexec, ?_, ?_, ?_, ?_, fun hsteer => ?_, fun n hn hp hs => ?_⟩
  · rw [← hb.q0]; exact hview (·.q0) (fun _ _ => rfl) taking_q0 (fun _ _ => rfl) (fun _ _ _ => rfl)
  · rw [← hb.step]; exact hview (·.step) (fun _ _ => rfl) taking_step (fun _ _ => rfl) (fun _ _ _ => rfl)
  · rw [← hb.resid]; exact hview (·.resid) (fun _ _ => rfl) taking_resid (fun _ _ => rfl) (fun _ _ _ => rfl)
  · rw [hr, leapTaken_view (·.tb.tsrc) (fun _ => rfl), hd, ← hb.steering]
    cases hsteer : b.steering with
    | true => rw [if_pos rfl, if_neg (by simp)]; exact hctsrc
    | false =>
      rw [if_neg (by simp), endSteering_tb, hctsrc]
      by_cases h13 : st.plan.after = 1 ∨ st.plan.after = 3
      · rw [if_pos (by tauto), if_pos ⟨rfl, h13⟩]; exact taking_tsrc ..
      · rw [if_neg (by omega), if_neg (fun h => h13 h.2)]; exact hctsrc
  · rw [hr, leapTaken_view (·.tb.tqe) (fun _ => rfl), hd, hb.steering, if_pos hsteer, htb]
    show st.plan.tqe.getD (TimeBase.taking st.plan.after b.tb).tqe = _
    rw [taking_tqe _ _ hne (by rw [hb.tsrc]; omega), hb.tqe]
  · refine Eq.trans ?_ (hb.flags n hn hp hs)
    refine congrArg Output.flags (out_congr ?_ n)
    rw [hr, leapTaken_view (·.outs) (fun _ => rfl), hd, ← houts]
    split
    · rfl
    · exact endSteering_outs c
end Sys2Proof.Machine
end

section
namespace Sys2Proof.Machine
open Sys2Proof

/-! ## Commands whose effect takes the JSN of its group -/

/-- A command completes with its own verdict `v`, which acts under the next JSN at arrival. -/
theorem runOp_completes_jsn (op : OpSpec) (t : Lapse) (env : Env) (ps : List Word) (rights : Nat)
    (s : State) (v : Verdict) (ws : List Word) (P : State → Prop)
    (h : (s.elapse t).admits op.code rights op.modes env ps = true) (hcode : 3 < op.code)
    (hr : op.rights ≤ rights)
    (hv : op.eval (pktOf op.code env ps (s.elapse t)) ((s.elapse t).bound env) = v)
    (hok : v.status.ok = true) (hw : v.words = ws)
    (hroom : entriesFor ((v.stored.getD ps).length + ws.length) + v.promise ≤ 1000)
    (hact : ∀ j b, ((v.act j b).part env.partner).lseq = (b.part env.partner).lseq ∧
      ((v.act j b).part env.partner).replays = (b.part env.partner).replays)
    (hP : ∀ b u, b.rest = (s.elapse t).rest → u.rest = (v.act (s.elapse t).jrn.next b).rest → P u) :
    Completes op.code v.status.code ws env (s.elapse t) (runOp op t env ps s) P := by
  subst hw
  obtain ⟨u, hu, hshow, hrest⟩ := runOp_ok op t env ps rights op.modes s v h (by omega) (by omega)
    (by omega) hr rfl hv hok hroom hact
  exact ⟨u, hu, hshow, hP (((s.elapse t).bound env).handed op (pktOf op.code env ps (s.elapse t)) v) u
    (by rw [handed_rest, bound_rest]) (by rw [elapse_jrn]; exact hrest)⟩
/-- A command that its own checks refuse completes and changes nothing but the command side. -/
theorem runOp_refuses (op : OpSpec) (t : Lapse) (env : Env) (ps : List Word) (rights : Nat)
    (s : State) (st : Status) (ws : List Word)
    (h : (s.elapse t).admits op.code rights op.modes env ps = true) (hcode : 3 < op.code)
    (hr : op.rights ≤ rights) (hne : ws ≠ [])
    (hv : op.eval (pktOf op.code env ps (s.elapse t)) ((s.elapse t).bound env) = refuse st ws)
    (hl : ws.length ≤ 2048) :
    Completes op.code st.code ws env (s.elapse t) (runOp op t env ps s)
      fun u => u.rest = (s.elapse t).rest :=
  runOp_refused op t env ps rights op.modes s st ws h (by omega) (by omega) (by omega) hr rfl hne hv hl
theorem putTb_rest (s : State) (v : TimeBase) : (s.putTb v).rest = s.rest.putTb v := rfl
theorem tb_of_rest_putTb {a b u : State} {v : TimeBase} (hb : b.rest = a.rest)
    (hu : u.rest = (b.putTb v).rest) : u.tb = v ∧ u.rest = (a.putTb u.tb).rest := by
  have htb : u.tb = v := of_rest_tb hu
  exact ⟨htb, by rw [hu, htb, putTb_rest, hb]; rfl⟩
theorem putModes_rest (s : State) (v : ModeBlk) : (s.putModes v).rest = s.rest.putModes v := rfl

/-! ## TIME_STEP_PERMIT and AID_TIME (R201, R306) -/

theorem opTimeStepPermit_refused {k : Pkt} {s : State}
    (h : fld (arg k.ps 0) 47 46 = 3 ∨ fld (arg k.ps 0) 45 24 = 0 ∨ fld (arg k.ps 0) 23 16 = 0 ∨ 100 < fld (arg k.ps 0) 23 16) :
    opTimeStepPermit.eval k s = badParam 0 := by
  refine if_pos ?_
  rcases h with h | h | h | h
  · exact Or.inr (Or.inl h)
  · exact Or.inr (Or.inr (Or.inl h))
  · exact Or.inr (Or.inr (Or.inr (Or.inl (by omega))))
  · exact Or.inr (Or.inr (Or.inr (Or.inr h)))
/-- A permit, threshold and slew rate that wait for the next whole second. -/
def TimeBase.permitWaits (w : Word) (jsn : Nat) (tb : TimeBase) : TimeBase :=
  { tb.takePermit with
    permitNext := some (fld w 47 46, fld w 45 24, fld w 23 16, jsn, (cyc tb.q0).toNat + 1) }
theorem opTimeStepPermit_ok {k : Pkt} {s : State} {w : Word} (hw : arg k.ps 0 = w) (hlen : k.ps.length = 1)
    (hp : fld w 47 46 ≠ 3) (hthr : fld w 45 24 ≠ 0) (h1 : 1 ≤ fld w 23 16) (h100 : fld w 23 16 ≤ 100) :
    opTimeStepPermit.eval k s = { status := .done, pins := [.config 0x071 0], act := fun jsn s => s.putTb (s.tb.permitWaits w jsn) } := by
  subst hw
  refine if_neg ?_
  rintro (h | h | h | h | h)
  · exact h hlen
  · exact hp h
  · exact hthr h
  · omega
  · omega

/-- What AID_TIME of form 0 leaves while the source is NONE: the step to the given time, planned. -/
def State.aidPlans (w : Word) (e : Int) (s : State) : State :=
  (s.putModes { s.modes with aidSigma := some (fld w 45 14) }).putTb
    { s.tb with plan := some ⟨0, e, 5, some (satN 32 (fld w 45 14 * 1000))⟩ }
theorem opAidTime_form0 {k : Pkt} {s : State} {w : Word} (hw : arg k.ps 0 = w) (hlen : k.ps.length = 5)
    (hform : fld w 47 46 = 0) (hsigma : fld w 45 14 ≠ 0) (hsrc : s.tb.tsrc = 0) :
    opAidTime.eval k s = doneWith [0] fun _ b =>
      if b.tb.step.isSome then b.putModes { b.modes with aidSigma := some (fld w 45 14) }
      else b.aidPlans w (psOfUnits (qdist k.arrival (mkQ (arg k.ps 1) (arg k.ps 2)))) := by
  have hz : pack [put 47 46 0] = 0 := by decide
  subst hw
  unfold opAidTime
  dsimp only
  rw [if_neg (by simp [hlen, hform, hsigma]), if_neg (by simp [hform])]
  simp only [hform, hsrc, if_true, hz]
  rfl

/-- Settles O6: the verdicts of both commands. -/
theorem timeCommands : Obligations.TimeCommands := by
  intro t env ps s
  refine ⟨fun h hlen hp hthr h1 h100 => ?_, fun h hlen hbad => ?_, fun h hlen hform hsigma hsrc hstep => ?_⟩
  · refine runOp_completes_jsn opTimeStepPermit t env ps 3 s _ _ _ h (by decide) (by decide)
      (opTimeStepPermit_ok rfl hlen hp hthr h1 h100) rfl rfl ?_ (fun _ _ => ⟨rfl, rfl⟩) ?_
    · simp [entriesFor, hlen]
    · intro b u hb hu
      obtain ⟨htb, hrest⟩ := tb_of_rest_putTb hb hu
      exact ⟨by rw [htb, of_rest_tb hb]; rfl, hrest⟩
  · exact runOp_refuses opTimeStepPermit t env ps 3 s .badParam [0] h (by decide) (by decide) (by simp)
      (opTimeStepPermit_refused hbad) (by simp)
  · refine runOp_completes_jsn opAidTime t env ps 2 s _ _ _ h (by decide) (by decide)
      (opAidTime_form0 rfl hlen hform hsigma hsrc) rfl rfl ?_ (fun _ b => ?_) ?_
    · simp [entriesFor, doneWith, hlen]
    · exact keeps_shown (by simp only [doneWith]; split <;> rfl) _
    · intro b u hb hu
      have hact : u.rest = (b.aidPlans (arg ps 0) (psOfUnits (qdist (s.elapse t).tb.q0 (mkQ (arg ps 1) (arg ps 2))))).rest := by
        have hno : b.tb.step.isSome = false := by rw [of_rest_tb hb, hstep]; rfl
        refine hu.trans (congrArg State.rest ?_)
        exact if_neg (by simp [hno])
      unfold State.aidPlans at hact
      have htb := of_rest_tb hact
      have hmodes := of_rest_modes hact
      rw [putTb_tb, of_rest_tb hb] at htb
      rw [putTb_modes, putModes_modes, of_rest_modes hb] at hmodes
      refine ⟨by rw [htb], by rw [htb], by rw [hmodes], ?_⟩
      rw [hact, htb, hmodes, putTb_rest, putModes_rest, hb, of_rest_tb hb, of_rest_modes hb]; rfl

end Sys2Proof.Machine
end

section
/-! Read groups and their shadows (R53, R455): what opens, holds and closes one (O33). -/
namespace Sys2Proof.Machine
open Sys2Proof

/-! ## Shadows -/

@[simp] theorem shadow_setShadow_same (s : State) (path n : Nat) (v : Shadow) : (s.setShadow path n v).shadow path n = v :=
  tget_tput_same _ _ _ _
theorem shadow_setShadow_ne {path n p m : Nat} (s : State) (v : Shadow) (h : p * 16 + m ≠ path * 16 + n) :
    (s.setShadow path n v).shadow p m = s.shadow p m :=
  tget_tput_ne _ _ _ _ _ _ h
@[simp] theorem rtcShadow_setRtcShadow_same (s : State) (path : Nat) (v : RtcShadow) : (s.setRtcShadow path v).rtcShadow path = v :=
  tget_tput_same _ _ _ _

theorem expire_closed {clk : Nat} {h : Shadow} (hc : h.isOpen = false) : h.expire clk = h := by
  simp [Shadow.expire, hc]
theorem expire_young {clk : Nat} {h : Shadow} (hy : clk < h.since + 654720) : h.expire clk = h := by
  simp [Shadow.expire, hy]
theorem expire_old {clk : Nat} {h : Shadow} (hopen : h.isOpen = true) (hold : h.since + 654720 ≤ clk) :
    h.expire clk = { h with isOpen := false, expired := true } := by
  simp [Shadow.expire, hopen, hold]

/-! ## The read group of a quantity -/

/-- The shadow that a read of a closed group leaves on the path. -/
def State.frozen (path n : Nat) (s : State) : Shadow :=
  let h := s.shadow path n
  let seq := (h.seq + 1) % 256
  { h with isOpen := true, seq := seq, ws := s.qGroup n seq, since := s.tb.clk }

/-- A read of a closed group opens it; of Q0 it also keeps the calendar's words, which no shadow holds. -/
theorem openShadow_closed {path n : Nat} {s : State} (hc : (s.shadow path n).isOpen = false) :
    ∃ c, s.openShadow path n = (s.setShadow path n (s.frozen path n)).putCalFrz c := by
  unfold State.openShadow
  rw [expire_closed hc]
  simp only [hc, Bool.false_eq_true, if_false]
  split
  · exact ⟨_, rfl⟩
  · exact ⟨s.calFrz, rfl⟩
theorem openShadow_open {path n : Nat} {s : State} (hopen : (s.shadow path n).isOpen = true)
    (hy : s.tb.clk < (s.shadow path n).since + 654720) :
    s.openShadow path n = s.setShadow path n (s.shadow path n) := by
  unfold State.openShadow
  rw [expire_young hy]
  simp only [hopen, if_true]

theorem eq_putCalFrz (s : State) : s = s.putCalFrz s.calFrz := by cases s; rfl
/-- A read of a group word changes the path's shadow of the quantity, and what a freeze of Q0 keeps. -/
theorem exists_openShadow_eq (path n : Nat) (s : State) :
    ∃ h c, s.openShadow path n = (s.setShadow path n h).putCalFrz c := by
  unfold State.openShadow
  dsimp only
  split
  · exact ⟨_, s.calFrz, eq_putCalFrz _⟩
  · split
    · exact ⟨_, _, rfl⟩
    · exact ⟨_, s.calFrz, eq_putCalFrz _⟩

/-! ## A quantity's page -/

/-- The address of word `o` of quantity `n`'s page. -/
theorem regOf_qty {n o : Nat} (hn : n < 16) (ho : o < 16) : regOf (0x3100 + 16 * n + o) = .qty n o := by
  have hdiv : (12544 + 16 * n + o - 12544) / 16 = n := by omega
  have hmod : (12544 + 16 * n + o) % 16 = o := by omega
  unfold regOf
  rw [if_neg (by omega), if_neg (by omega), if_neg (by omega), if_neg (by omega), if_pos (by omega), hdiv, hmod]
theorem live_qty (s : State) (n o : Nat) : s.live (.qty n o) = s.isOn 11 := rfl
theorem accessOf_qty_group {n o : Nat} (ho : 8 ≤ o) : accessOf (.qty n o) = .ro := by
  simp only [accessOf]; rw [if_neg (by omega), if_neg (by omega)]
theorem rcClear_qty_group {own n o : Nat} (s : State) (ho : 8 ≤ o) : s.rcClear own (.qty n o) = s :=
  if_pos (Or.inl (by rw [accessOf_qty_group ho]; decide))

theorem readReg_qty_group {path n o : Nat} {s : State} (hon : s.isOn 11 = true) (ho : 8 ≤ o) (h15 : o ≠ 15) :
    s.readReg path (.qty n o) = s.readGroup path n o := by
  unfold State.readReg
  rw [live_qty, hon, if_pos rfl]
  simp [State.readLive, ho, h15]
theorem readReg_qend {path n : Nat} {s : State} (hon : s.isOn 11 = true) :
    s.readReg path (.qty n 15) = s.readQend path n := by
  unfold State.readReg
  rw [live_qty, hon, if_pos rfl]
  rfl

theorem readLive_qty_parts (path n o : Nat) (s : State) : (s.readLive path (.qty n o)).2.parts = s.parts := by
  simp only [State.readLive]
  split
  · rfl
  · split
    · obtain ⟨h, c, hrest⟩ := exists_openShadow_eq path n s
      exact (congrArg State.parts hrest :)
    · rfl
theorem readReg_qty_parts (path n o : Nat) (s : State) : (s.readReg path (.qty n o)).2.parts = s.parts := by
  unfold State.readReg; split
  · exact readLive_qty_parts path n o s
  · split
    · exact readLive_qty_parts path n o s
    · split <;> rfl

/-! ## Through S0 -/

/-- What a transaction on S0 leaves beside the word read: the pointer, the address in force, and the word on the bus. -/
theorem exists_s0Read_eq (a : Nat) (w : Word) (s : State) :
    ∃ x, ((s.s0Point a).s0Stop.emit (.s0 [w])) = (s.putHost x).emit (.s0 [w]) := ⟨_, rfl⟩

/-- A read of an address that S0 reads, on a bus that answers: the word goes out, and the state is that after the reading. -/
theorem regReadRow_s0 {t : Lapse} {a : Nat} {s x : State} {r : Reg} {w : Word} (hup : (s.elapse t).s0Up = true) (hreads : s0Reads a = true)
    (hreg : regOf a = r) (hro : accessOf r ≠ .rc) (hread : (s.elapse t).readReg 5 r = (w, x)) :
    ∃ y, regReadRow t .s0 a s = .next ((x.putHost y).emit (.s0 [w])) := by
  subst hreg
  obtain ⟨y, hy⟩ := exists_s0Read_eq (a + 1) w x
  refine ⟨y, ?_⟩
  have hword : (s.elapse t).s0ReadWord a = (w, x) := by
    unfold State.s0ReadWord
    rw [if_pos hreads]
    simp only [hread]
    rw [show x.rcClear 0 (regOf a) = x from if_pos (Or.inl hro)]
  simp only [regReadRow, if_pos hup, hword, hy]

theorem s0Reads_qty {n o : Nat} (hn : n < 16) (ho : o < 16) : s0Reads (0x3100 + 16 * n + o) = true := by
  simp only [s0Reads, Bool.or_eq_true, decide_eq_true_eq]; omega

/-- The address and count of a read of one register. -/
theorem fld_one_addr {a : Nat} (ha : a < 2 ^ 24) : fld (pack [put 47 24 a, put 23 12 1]) 47 24 = a := by
  simp only [fld, pack, put, List.sum_cons, List.sum_nil, BitVec.toNat_ofNat]; omega
theorem fld_one_count (a : Nat) : fld (pack [put 47 24 a, put 23 12 1]) 23 12 = 1 := by
  simp only [fld, pack, put, List.sum_cons, List.sum_nil, BitVec.toNat_ofNat]; omega

theorem frozen_of_rest {a b : State} (h : a.rest = b.rest) (path n : Nat) : a.frozen path n = b.frozen path n :=
  show a.rest.frozen path n = b.rest.frozen path n from congrArg (State.frozen path n) h
theorem shadow_of_rest {a b : State} (h : a.rest = b.rest) (path n : Nat) : a.shadow path n = b.shadow path n :=
  show a.rest.shadow path n = b.rest.shadow path n from congrArg (fun s : State => s.shadow path n) h

@[simp] theorem shadow_putCalFrz (s : State) (c : Tab (Option (Word × Word × Word))) (path n : Nat) :
    (s.putCalFrz c).shadow path n = s.shadow path n := rfl
@[simp] theorem shadow_putHost (s : State) (x : HostBlk) (path n : Nat) : (s.putHost x).shadow path n = s.shadow path n := rfl
@[simp] theorem shadow_emit (s : State) (e : Emit) (path n : Nat) : (s.emit e).shadow path n = s.shadow path n := rfl

/-- A read of a closed group gives the word as frozen. -/
theorem readGroup_closed {path n o : Nat} {s : State} (hc : (s.shadow path n).isOpen = false) :
    ∃ c, s.readGroup path n o = ((s.qGroup n (((s.shadow path n).seq + 1) % 256)).getD (o - 8) 0,
      (s.setShadow path n (s.frozen path n)).putCalFrz c) := by
  obtain ⟨c, h⟩ := openShadow_closed hc
  refine ⟨c, ?_⟩
  have hshadow : (s.openShadow path n).shadow path n = s.frozen path n := by
    rw [h, shadow_putCalFrz, shadow_setShadow_same]
  unfold State.readGroup
  dsimp only
  rw [hshadow, h]
  rfl
theorem readGroup_open {path n o : Nat} {s : State} (hopen : (s.shadow path n).isOpen = true)
    (hy : s.tb.clk < (s.shadow path n).since + 654720) :
    s.readGroup path n o = ((s.shadow path n).ws.getD (o - 8) 0, s.setShadow path n (s.shadow path n)) := by
  unfold State.readGroup
  dsimp only
  rw [openShadow_open hopen hy, shadow_setShadow_same]
theorem readQend_open {path n : Nat} {s : State} (hopen : (s.shadow path n).isOpen = true)
    (hy : s.tb.clk < (s.shadow path n).since + 654720) :
    s.readQend path n = (pack [put 47 40 (s.shadow path n).seq, putB 39 (s.shadow path n).expired],
      s.setShadow path n { s.shadow path n with isOpen := false, expired := false }) := by
  have hword (x y : Nat) : pack [x, y, putB 38 (!true)] = pack [x, y] := by simp [pack, putB]
  unfold State.readQend
  dsimp only
  rw [expire_young hy, hopen, hword]

section
variable {t : Lapse} {n off : Nat} {s : State} (hn : n < 16)
include hn

theorem qend_address : 0x310F + 16 * (n % 16) = 0x3100 + 16 * n + 15 := by omega
theorem qstat_address (hoff : off < 7) : 0x3108 + 16 * (n % 16) + off % 7 = 0x3100 + 16 * n + (8 + off) := by omega

/-- S0 reads a word of a quantity's group. -/
theorem readQty_s0 {o : Nat} {w : Word} {x : State} (hup : (s.elapse t).s0Up = true) (h8 : 8 ≤ o) (h16 : o < 16)
    (hread : (s.elapse t).readReg 5 (.qty n o) = (w, x)) :
    ∃ y, regReadRow t .s0 (0x3100 + 16 * n + o) s = .next ((x.putHost y).emit (.s0 [w])) :=
  regReadRow_s0 hup (s0Reads_qty hn h16) (regOf_qty hn h16) (by rw [accessOf_qty_group h8]; decide) hread

theorem qstat_s0_closed (hoff : off < 7) (hup : (s.elapse t).s0Up = true) (hon : (s.elapse t).isOn 11 = true)
    (hc : ((s.elapse t).shadow 5 n).isOpen = false) :
    ∃ c y, execQstatGroupOpen t .s0 n off s =
      .next (((((s.elapse t).setShadow 5 n ((s.elapse t).frozen 5 n)).putCalFrz c).putHost y).emit
        (.s0 [((s.elapse t).qGroup n ((((s.elapse t).shadow 5 n).seq + 1) % 256)).getD off 0])) := by
  obtain ⟨c, hread⟩ := readGroup_closed (o := 8 + off) hc
  rw [← readReg_qty_group hon (by omega) (by omega)] at hread
  obtain ⟨y, hy⟩ := readQty_s0 hn hup (by omega) (by omega) hread
  refine ⟨c, y, ?_⟩
  unfold execQstatGroupOpen
  rw [qstat_address hn hoff, hy, Nat.add_sub_cancel_left]
theorem qstat_s0_open (hoff : off < 7) (hup : (s.elapse t).s0Up = true) (hon : (s.elapse t).isOn 11 = true)
    (hopen : ((s.elapse t).shadow 5 n).isOpen = true) (hy : (s.elapse t).tb.clk < ((s.elapse t).shadow 5 n).since + 654720) :
    ∃ y, execQstatGroupOpen t .s0 n off s =
      .next ((((s.elapse t).setShadow 5 n ((s.elapse t).shadow 5 n)).putHost y).emit
        (.s0 [((s.elapse t).shadow 5 n).ws.getD off 0])) := by
  have hread := readGroup_open (o := 8 + off) hopen hy
  rw [← readReg_qty_group hon (by omega) (by omega)] at hread
  obtain ⟨y, hy⟩ := readQty_s0 hn hup (by omega) (by omega) hread
  refine ⟨y, ?_⟩
  unfold execQstatGroupOpen
  rw [qstat_address hn hoff, hy, Nat.add_sub_cancel_left]
theorem qend_s0_open (hup : (s.elapse t).s0Up = true) (hon : (s.elapse t).isOn 11 = true)
    (hopen : ((s.elapse t).shadow 5 n).isOpen = true) (hy : (s.elapse t).tb.clk < ((s.elapse t).shadow 5 n).since + 654720) :
    ∃ y, execQend t .s0 n s =
      .next ((((s.elapse t).setShadow 5 n { (s.elapse t).shadow 5 n with isOpen := false, expired := false }).putHost y).emit
        (.s0 [pack [put 47 40 ((s.elapse t).shadow 5 n).seq, putB 39 ((s.elapse t).shadow 5 n).expired]])) := by
  have hread := readQend_open hopen hy
  rw [← readReg_qend hon] at hread
  obtain ⟨y, hy⟩ := readQty_s0 hn hup (by omega) (by omega) hread
  exact ⟨y, by unfold execQend; rw [qend_address hn, hy]⟩

end

/-- A packet reads a word of a closed group. -/
theorem qstat_packet {t : Lapse} {env : Env} {n off : Nat} {s : State} (hn : n < 16) (hoff : off < 7)
    (h : (s.elapse t).admits 0x010 1 0xFFE env [pack [put 47 24 (0x3108 + 16 * n + off), put 23 12 1]] = true)
    (hon : (s.elapse t).isOn 11 = true) (hc : ((s.elapse t).shadow env.partner n).isOpen = false) :
    Completes 0x010 1 [((s.elapse t).qGroup n ((((s.elapse t).shadow env.partner n).seq + 1) % 256)).getD off 0] env (s.elapse t)
      (execQstatGroupOpen t (.packet env) n off s) fun u =>
        u.shadow env.partner n = (s.elapse t).frozen env.partner n ∧ u.qs = (s.elapse t).qs ∧ u.tb = (s.elapse t).tb := by
  have haddr : 0x3108 + 16 * (n % 16) + off % 7 = 0x3108 + 16 * n + off := by omega
  have hreg : regOf (0x3108 + 16 * n + off) = .qty n (8 + off) := by
    rw [← regOf_qty hn (show 8 + off < 16 by omega)]; congr 1; omega
  have hbound : ((s.elapse t).bound env).rest = (s.elapse t).rest := bound_rest env _
  unfold execQstatGroupOpen regReadRow
  dsimp only
  rw [haddr]
  refine regRead_completes (f := fun b => ((b.readReg env.partner (.qty n (8 + off))).2.rcClear 1 (.qty n (8 + off))))
    _ _ _ _ h (fld_one_addr (by omega)) (fld_one_count _) (by omega) hreg ?_ (fun _ => rfl) ?_ ?_
  · obtain ⟨c, hread⟩ := readGroup_closed (path := env.partner) (n := n) (o := 8 + off) (s := (s.elapse t).bound env)
      (by rw [shadow_of_rest hbound]; exact hc)
    rw [readReg_qty_group (by rw [isOn_of_rest hbound]; exact hon) (by omega) (by omega), hread, Nat.add_sub_cancel_left]
    rfl
  · exact fun b => by
      rw [rcClear_qty_group _ (by omega)]; exact readReg_qty_parts _ _ _ b
  · intro b u hb hu
    obtain ⟨c, hread⟩ := readGroup_closed (path := env.partner) (n := n) (o := 8 + off) (s := b)
      (by rw [shadow_of_rest hb]; exact hc)
    rw [rcClear_qty_group _ (by omega), readReg_qty_group (by rw [isOn_of_rest hb]; exact hon) (by omega) (by omega), hread] at hu
    dsimp only at hu
    refine ⟨?_, (of_rest_qs hu).trans (of_rest_qs hb :), (of_rest_tb hu).trans (of_rest_tb hb :)⟩
    rw [shadow_of_rest hu, ← frozen_of_rest hb, shadow_putCalFrz, shadow_setShadow_same]

/-! ## The RTC's shadow -/

theorem readReg_rtc {path o : Nat} {s : State} (ho : o < 3) : s.readReg path (.rtc o) = s.readRtc path o := by
  unfold State.readReg
  rw [show s.live (.rtc o) = true from rfl, if_pos rfl]
  exact if_pos ho

@[simp] theorem rtcShadow_putHost (s : State) (x : HostBlk) (path : Nat) : (s.putHost x).rtcShadow path = s.rtcShadow path := rfl
@[simp] theorem rtcShadow_emit (s : State) (e : Emit) (path : Nat) : (s.emit e).rtcShadow path = s.rtcShadow path := rfl
theorem setRtcShadow_rest (s : State) (path : Nat) (v : RtcShadow) (y : HostBlk) (e : Emit) :
    (((s.setRtcShadow path v).putHost y).emit e).rest = (s.putRtc (((s.setRtcShadow path v).putHost y).emit e).rtc).rest := rfl

/-- The shadow that a read of RTC_SEC opens. -/
theorem readRtc_sec (path : Nat) (s : State) :
    ∃ x, s.readRtc path 0 = (word s.rtc.sec, s.setRtcShadow path
      { isOpen := true, ws := [word s.rtc.sec, s.rtc.cal s.rtc.sec, s.rtc.fracWord false], expired := x, since := s.tb.clk }) :=
  ⟨_, rfl⟩
theorem readRtc_frac_open {path : Nat} {s : State} (hopen : (s.rtcShadow path).isOpen = true)
    (hy : s.tb.clk < (s.rtcShadow path).since + 654720) :
    s.readRtc path 2 = (word ((arg (s.rtcShadow path).ws 2).toNat + putB 23 (s.rtcShadow path).expired),
      s.setRtcShadow path { s.rtcShadow path with isOpen := false, expired := false }) := by
  have hyoung : ¬ ((s.rtcShadow path).isOpen = true ∧ (s.rtcShadow path).since + 654720 ≤ s.tb.clk) := by omega
  unfold State.readRtc
  dsimp only
  rw [if_neg (by decide), if_pos rfl, if_neg hyoung, if_pos hopen]

theorem rtcSec_s0 {t : Lapse} {s : State} (hup : (s.elapse t).s0Up = true) :
    ∃ x y, execRtcSec t .s0 s = .next ((((s.elapse t).setRtcShadow 5
      { isOpen := true, ws := [word (s.elapse t).rtc.sec, (s.elapse t).rtc.cal (s.elapse t).rtc.sec, (s.elapse t).rtc.fracWord false],
        expired := x, since := (s.elapse t).tb.clk }).putHost y).emit (.s0 [word (s.elapse t).rtc.sec])) := by
  obtain ⟨x, hread⟩ := readRtc_sec 5 (s.elapse t)
  rw [← readReg_rtc (by decide)] at hread
  exact ⟨x, regReadRow_s0 hup (by decide) rfl (by decide) hread⟩
theorem rtcFrac_s0 {t : Lapse} {s : State} (hup : (s.elapse t).s0Up = true) (hopen : ((s.elapse t).rtcShadow 5).isOpen = true)
    (hy : (s.elapse t).tb.clk < ((s.elapse t).rtcShadow 5).since + 654720) :
    ∃ y, execRtcFrac t .s0 s = .next ((((s.elapse t).setRtcShadow 5
      { (s.elapse t).rtcShadow 5 with isOpen := false, expired := false }).putHost y).emit
        (.s0 [word ((arg ((s.elapse t).rtcShadow 5).ws 2).toNat + putB 23 ((s.elapse t).rtcShadow 5).expired)])) := by
  have hread := readRtc_frac_open hopen hy
  rw [← readReg_rtc (by decide)] at hread
  exact regReadRow_s0 hup (by decide) rfl (by decide) hread

/-! ## A shadow open for 1 ms -/

theorem shadowExpiry_rtc {t : Lapse} {path : Nat} {s : State} (hpath : path < 6) (hopen : ((s.elapse t).rtcShadow path).isOpen = true)
    (hold : ((s.elapse t).rtcShadow path).since + 654720 ≤ (s.elapse t).tb.clk) :
    execShadowExpiry t path none s =
      .next ((s.elapse t).setRtcShadow path { (s.elapse t).rtcShadow path with isOpen := false, expired := true }) := by
  unfold execShadowExpiry
  dsimp only
  rw [if_neg (by omega), if_pos ⟨hopen, hold⟩]
theorem shadowExpiry_quantity {t : Lapse} {path n : Nat} {s : State} (hpath : path < 6) (hn : n < 16)
    (hopen : ((s.elapse t).shadow path n).isOpen = true)
    (hold : ((s.elapse t).shadow path n).since + 654720 ≤ (s.elapse t).tb.clk) :
    execShadowExpiry t path (some n) s =
      .next ((s.elapse t).setShadow path n { (s.elapse t).shadow path n with isOpen := false, expired := true }) := by
  unfold execShadowExpiry
  dsimp only
  rw [if_neg (by omega), if_pos hn, expire_old hopen hold]

/-- What goes out in an instant in which nothing has gone out. -/
theorem wire_emit_of_empty {s : State} {e : Emit} (h : s.wire = []) : (s.emit e).wire = [e] := by
  show s.wire ++ [e] = [e]; rw [h]; rfl

/-- Settles O33: per path, what a read opens, shows and closes. -/
theorem readGroups : Obligations.ReadGroups := by
  refine ⟨fun t n off s => ⟨?_, ?_, ?_⟩, ?_, fun t path s => ⟨?_, ?_, ?_⟩, ?_⟩
  · intro hn hoff hup hon hc
    obtain ⟨c, y, h⟩ := qstat_s0_closed hn hoff hup hon hc
    refine ⟨_, h, wire_emit_of_empty (elapse_wire t s), by simp [State.frozen], fun k _ hk => ?_, rfl, rfl, rfl⟩
    simp only [shadow_emit, shadow_putHost, shadow_putCalFrz]
    exact shadow_setShadow_ne _ _ (by omega)
  · intro hn hoff hup hon hopen hy
    obtain ⟨y, h⟩ := qstat_s0_open hn hoff hup hon hopen hy
    exact ⟨_, h, wire_emit_of_empty (elapse_wire t s), by simp, rfl, rfl, rfl⟩
  · intro hn hup hon hopen hy
    obtain ⟨y, h⟩ := qend_s0_open hn hup hon hopen hy
    exact ⟨_, h, wire_emit_of_empty (elapse_wire t s), by simp, rfl, rfl, rfl⟩
  · intro t env n off s a h seq hn hoff hadm hon hc
    exact qstat_packet hn hoff hadm hon hc
  · intro hup
    obtain ⟨x, y, h⟩ := rtcSec_s0 hup
    exact ⟨_, h, wire_emit_of_empty (elapse_wire t s), by simp, by simp, setRtcShadow_rest _ _ _ _ _, rfl⟩
  · intro hup hopen hy
    obtain ⟨y, h⟩ := rtcFrac_s0 hup hopen hy
    exact ⟨_, h, wire_emit_of_empty (elapse_wire t s), by simp, by simp, setRtcShadow_rest _ _ _ _ _⟩
  · intro hpath hopen hold
    exact ⟨_, shadowExpiry_rtc hpath hopen hold, rtcShadow_setRtcShadow_same _ _ _, rfl⟩
  · intro t path n s a hpath hn hopen hold
    exact ⟨_, shadowExpiry_quantity hpath hn hopen hold, shadow_setShadow_same _ _ _ _, rfl⟩

end Sys2Proof.Machine
end

section
/-! Unscheduled frames and gateway quantity reports (R48, R381, R382): LENDI_SEND, its resending and its ends, QREP (O23). -/
namespace Sys2Proof.Machine
open Sys2Proof

/-! ## One record to one partner -/

/-- A record moves its partner's stream by one. -/
theorem toldOne_record {a b u : State} (hp : b.parts = a.parts) (hj : b.jrn = a.jrn) (p : Nat) (vol : Bool) (ws : List Word)
    (hu : u.parts = (b.record p vol ws).parts) : ToldOne p a u := by
  intro hfar
  have hroom : b.jsnRoom 1 := by
    have h16 : b.jsnRoom 16 := by unfold State.jsnRoom; rw [hj]; exact hfar
    exact jsnRoom_mono (by omega) rfl h16
  have hesn : u.esn p = b.esn p + b.oneMore p := by
    rw [esn_congr hu]
    unfold State.record
    rw [jsnCheck_far (form_room p vol ws b hroom), form_esn, if_pos rfl]
  rwa [esn_congr hp, oneMore_congr (congrArg Partner.rights (part_congr hp p))] at hesn

/-! ## A report reaches its quantity (R48) -/

/-- An update reaches DERIVED quantities alone. -/
theorem feed_qty_kind (fuel src : Nat) (s : State) {m : Nat} (hm : kindOf (s.qty m).cfg0 ≠ 6) :
    (s.feed fuel src).qty m = s.qty m := by
  induction fuel generalizing src s with
  | zero => rfl
  | succ fuel ih =>
    unfold State.feed
    refine List.foldlRecOn (motive := fun (u : State) => u.qty m = s.qty m) _ _ rfl fun b hb n hn => ?_
    have hne : m ≠ n := by
      rintro rfl
      have hkind := List.of_mem_filter hn
      simp only [Bool.and_eq_true, beq_iff_eq] at hkind
      exact hm hkind.1.1
    dsimp only
    have hkeep : ∀ q : Qty, (b.setQty n q).qty m = s.qty m := fun q => (qty_setQty_ne _ _ _ _ hne).trans hb
    rw [ih _ _ (by rw [hkeep]; exact hm), hkeep]
theorem spread_qty_kind (s0 : State) (n : Nat) (s : State) {m : Nat} (hm : kindOf (s.qty m).cfg0 ≠ 6) :
    (s0.spread n s).qty m = s.qty m := by
  unfold State.spread
  rw [qty_congr (sampled_qs ..), qty_congr (witness_qs ..), feed_qty_kind _ _ _ hm]
theorem measured_qty_kind {n : Nat} (v : Qval) {f : Qty → Qty} (s : State) (hf : (f (s.updated n v)).cfg0 = (s.qty n).cfg0)
    (hn : kindOf (s.qty n).cfg0 ≠ 6) : (s.measured n v f).qty n = f (s.updated n v) := by
  have hset : ((s.putFresh (s.fresh + 1)).setQty n (f (s.updated n v))).qty n = f (s.updated n v) := qty_setQty ..
  rw [measured_eq, spread_qty_kind _ _ _ (by rw [hset, hf]; exact hn), hset]
theorem measured_qty_kind_ne {m n : Nat} (h : m ≠ n) (v : Qval) (f : Qty → Qty) (s : State) (hm : kindOf (s.qty m).cfg0 ≠ 6) :
    (s.measured n v f).qty m = s.qty m := by
  have hset : ((s.putFresh (s.fresh + 1)).setQty n (f (s.updated n v))).qty m = s.qty m := qty_setQty_ne _ _ _ _ h
  rw [measured_eq, spread_qty_kind _ _ _ (by rw [hset]; exact hm), hset]

/-- A value or rate in a quantity's own sense. -/
def senseOf {α : Type} [Neg α] (q : Qty) (x : α) : α := if bit q.cfg0 42 then -x else x
/-- What a report adds to the update of a quantity: its stamp, and its rate r. -/
def Qty.reported (ws : List Word) (r : Int) (q : Qty) : Qty :=
  { q with tu := mkQ (arg ws 4) (arg ws 5), rate := sat 48 r, overrate := decide (sat 48 r ≠ r) }
/-- A GATEWAY quantity takes a report. -/
def State.takesReport (ws : List Word) (n : Nat) (s : State) : State :=
  s.measured n (senseOf (s.qty n) (mkQ (arg ws 1) (arg ws 2))) (Qty.reported ws (senseOf (s.qty n) (sfld (arg ws 3) 47 0)))
/-- The report at one quantity: it takes it where it is a GATEWAY quantity of that number on the link or its pair, with a stamp ahead of the last. -/
def State.reportTo (l : Nat) (ws : List Word) (s : State) (n : Nat) : State :=
  let q := s.qty n
  let ql := fld q.cfg1 10 8
  if kindOf q.cfg0 = 7 ∧ fld q.cfg1 7 0 = fld (arg ws 0) 7 0 ∧ (ql = l ∨ (s.lnk ql).pair = some l) ∧
    (!q.fed ∨ ahead (mkQ (arg ws 4) (arg ws 5)) q.tu) then s.takesReport ws n else s

theorem reportTo_eq (l : Nat) (ws : List Word) (s : State) (n : Nat) :
    s.reportTo l ws n = s.takesReport ws n ∨ s.reportTo l ws n = s := by
  unfold State.reportTo
  dsimp only
  split
  · exact Or.inl rfl
  · exact Or.inr rfl
theorem reportTo_qty_ne {m n : Nat} (h : n ≠ m) (l : Nat) (ws : List Word) (s : State) (hm : kindOf (s.qty m).cfg0 ≠ 6) :
    (s.reportTo l ws n).qty m = s.qty m := by
  rcases reportTo_eq l ws s n with h' | h' <;> rw [h']
  exact measured_qty_kind_ne (Ne.symm h) _ _ _ hm
/-- Quantity `n` once it has taken the report. -/
def State.reportedAs (n : Nat) (ws : List Word) (s : State) : Qty :=
  Qty.reported ws (senseOf (s.qty n) (sfld (arg ws 3) 47 0)) (s.updated n (senseOf (s.qty n) (mkQ (arg ws 1) (arg ws 2))))

/-- What a report leaves apart from the quantities, their events and sample ports. -/
theorem exists_reports_eq (l : Nat) (ws : List Word) (ns : List Nat) (s : State) :
    ∃ q e p f, ns.foldl (State.reportTo l ws) s = (((s.putQs q).putSch e).putPorts p).putFresh f := by
  refine foldl_inv (fun u => ∃ q e p f, u = (((s.putQs q).putSch e).putPorts p).putFresh f) _ (fun u n hu => ?_) ns s
    ⟨s.qs, s.sch, s.ports, s.fresh, by cases s; rfl⟩
  obtain ⟨q, e, p, f, rfl⟩ := hu
  rcases reportTo_eq l ws ((((s.putQs q).putSch e).putPorts p).putFresh f) n with h | h <;> rw [h]
  · obtain ⟨q', e', p', h'⟩ := exists_measured_eq n _ (Qty.reported ws _) ((((s.putQs q).putSch e).putPorts p).putFresh f)
    exact ⟨q', e', p', f + 1, h'⟩
  · exact ⟨q, e, p, f, rfl⟩

/-- A report reaches a GATEWAY quantity of its number on its link. -/
theorem reports_qty (l : Nat) (ws : List Word) (n : Nat) (ns : List Nat) (hns : ns.Nodup) (hn : n ∈ ns) (s : State)
    (hkind : kindOf (s.qty n).cfg0 = 7) (hnum : fld (s.qty n).cfg1 7 0 = fld (arg ws 0) 7 0) (hlink : fld (s.qty n).cfg1 10 8 = l)
    (hahead : (s.qty n).fed = false ∨ ahead (mkQ (arg ws 4) (arg ws 5)) (s.qty n).tu = true) :
    ∃ b : State, b.qty n = s.qty n ∧ (ns.foldl (State.reportTo l ws) s).qty n = b.reportedAs n ws := by
  induction ns generalizing s with
  | nil => cases hn
  | cons m ns ih =>
    obtain ⟨hm, hnd⟩ := List.nodup_cons.mp hns
    have h6 : kindOf (s.qty n).cfg0 ≠ 6 := by omega
    rw [List.foldl_cons]
    by_cases hmn : m = n
    · subst hmn
      have htake : (s.reportTo l ws m).qty m = s.reportedAs m ws := by
        unfold State.reportTo
        dsimp only
        rw [if_pos ⟨hkind, hnum, Or.inl hlink, by simpa using hahead⟩]
        exact measured_qty_kind _ s rfl h6
      have hrest : ∀ (k : List Nat) (b : State), m ∉ k → kindOf (b.qty m).cfg0 ≠ 6 →
          (k.foldl (State.reportTo l ws) b).qty m = b.qty m := by
        intro k
        induction k with
        | nil => exact fun _ _ _ => rfl
        | cons i k ihk =>
          intro b hk hb
          rw [List.mem_cons, not_or] at hk
          have hi := reportTo_qty_ne (Ne.symm hk.1) l ws b hb
          rw [List.foldl_cons, ihk _ hk.2 (by rw [hi]; exact hb), hi]
      exact ⟨s, rfl, (hrest ns _ hm (by rw [htake]; exact h6)).trans htake⟩
    · have hstep := reportTo_qty_ne hmn l ws s h6
      obtain ⟨b, hb, h⟩ := ih hnd ((List.mem_cons.mp hn).resolve_left (Ne.symm hmn)) (s.reportTo l ws m)
        (by rw [hstep]; exact hkind) (by rw [hstep]; exact hnum) (by rw [hstep]; exact hlink) (by rw [hstep]; exact hahead)
      exact ⟨b, hb.trans hstep, h⟩

/-- A good frame of its type on a link that is not OFF is handled. -/
theorem onFrame_good {type l : Nat} {t : Lapse} {ws : List Word} {f : State → State} {s : State} (hl : l < 8)
    (hstate : ((s.elapse t).lnk l).state ≠ 0) (hgood : frameGood ws = true) (htype : frameType ws = type) :
    onFrame type t l ws f s = .next (f (s.elapse t)) := by
  unfold onFrame
  dsimp only
  rw [if_neg (by omega), if_pos ⟨hgood, htype⟩]
theorem execQrep_up {t : Lapse} {l : Nat} {ws : List Word} {s : State} (hl : l < 8) (hup : ((s.elapse t).lnk l).state = 3)
    (hon : (s.elapse t).isOn 11 = true) (hgood : frameGood ws = true) (htype : frameType ws = 12) :
    execQrep t l ws s = .next ([8, 9, 10, 11, 12, 13, 14, 15].foldl (State.reportTo l ws) (s.elapse t)) := by
  unfold execQrep
  rw [onFrame_good hl (by omega) hgood htype]
  dsimp only
  rw [if_neg (by simp [hup, hon])]
  rfl

/-! ## The end of a SEND (R381, R382) -/

/-- The sends of a link without one. -/
def Link.without (k : Link) (jsn : Nat) : Link := { k with sends := k.sends.filter fun x => x.jsn ≠ jsn }
theorem endSend_links (o : Nat) (i : SendItem) (rstat l : Nat) (ws : List Word) (s : State) :
    (s.endSend o i rstat l ws).links = (s.setLnk o ((s.lnk o).without i.jsn)).links := by
  unfold State.endSend
  dsimp only
  rw [putJrn_links, record_links]; rfl
/-- It leaves the link, its partner gets one record, and nothing else changes. -/
theorem endSend_ends {o rstat l : Nat} {i : SendItem} {ws : List Word} {a : State} :
    ((a.endSend o i rstat l ws).lnk o).sends = (a.lnk o).sends.filter (fun x => x.jsn ≠ i.jsn) ∧
    ToldOne i.partner a (a.endSend o i rstat l ws) ∧
    (a.endSend o i rstat l ws).rest = (a.putLinks (a.endSend o i rstat l ws).links).rest := by
  refine ⟨?_, toldOne_record (b := a.setLnk o ((a.lnk o).without i.jsn)) rfl rfl i.partner false _ rfl, ?_⟩
  · have hlnk : (a.endSend o i rstat l ws).lnk o = (a.setLnk o ((a.lnk o).without i.jsn)).lnk o := by
      exact congrArg (tget _ o) (endSend_links ..)
    rw [hlnk, lnk_setLnk]; rfl
  · rw [endSend_links]
    exact record_rest ..

/-! ## LENDI_SEND (R381) -/

/-- The frame that a LENDI_SEND leaves on its link. -/
def sendItem (k : Pkt) (jsn clk : Nat) : SendItem :=
  { jsn := jsn, partner := k.partner, tag := fld (arg k.ps 0) 15 0, pair := bit (arg k.ps 0) 44, dest := fld (arg k.ps 0) 43 32,
    payload := k.ps.drop 1, accClk := clk }
/-- One more frame waits on a link. -/
def State.queueSend (l : Nat) (i : SendItem) (s : State) : State := s.setLnk l { s.lnk l with sends := (s.lnk l).sends ++ [i] }
theorem queueSend_sends (l : Nat) (i : SendItem) (s : State) : ((s.queueSend l i).lnk l).sends = (s.lnk l).sends ++ [i] := by
  unfold State.queueSend; rw [lnk_setLnk]
/-- The verdict on a LENDI_SEND that nothing refuses. -/
def sendAccepted (k : Pkt) : Verdict where
  status := .accepted
  pins := [.work]
  promise := 2
  act jsn b := b.queueSend (fld (arg k.ps 0) 47 45) (sendItem k jsn b.tb.clk)
theorem opLendiSend_ok {k : Pkt} {s : State} (hlen : k.ps.length = 1 + fld (arg k.ps 0) 31 26) (h1 : 1 ≤ fld (arg k.ps 0) 31 26)
    (h32 : fld (arg k.ps 0) 31 26 ≤ 32) (hen : (s.lnk (fld (arg k.ps 0) 47 45)).en = true)
    (hpair : bit (arg k.ps 0) 44 = false ∨ (s.lnk (fld (arg k.ps 0) 47 45)).pair.isSome = true)
    (hfailed : (s.lnk (fld (arg k.ps 0) 47 45)).failed = false) (hroom : (s.lnk (fld (arg k.ps 0) 47 45)).sends.length < 16) :
    opLendiSend.eval k s = sendAccepted k := by
  have hnone : ¬ (bit (arg k.ps 0) 44 = true ∧ (s.lnk (fld (arg k.ps 0) 47 45)).pair.isNone = true) := by
    rcases hpair with h | h
    · simp [h]
    · simp [Option.isNone_eq_false_iff.mpr h]
  unfold opLendiSend
  dsimp only
  rw [if_neg (by omega), if_neg (by simp only [hen]; simpa using hnone), if_neg (by simp [hfailed]), if_neg (by omega)]
  rfl
theorem opLendiSend_disabled {k : Pkt} {s : State} (hlen : k.ps.length = 1 + fld (arg k.ps 0) 31 26) (h1 : 1 ≤ fld (arg k.ps 0) 31 26)
    (h32 : fld (arg k.ps 0) 31 26 ≤ 32) (hen : (s.lnk (fld (arg k.ps 0) 47 45)).en = false) :
    opLendiSend.eval k s = refuse .notPermitted [2] := by
  unfold opLendiSend
  dsimp only
  rw [if_neg (by omega), if_pos (by simp [hen])]
  rfl

/-! ## Resending and the two times (R382) -/

theorem sentClk_of_any {x : Option Nat} {d n : Nat} (h : x.any (fun c => decide (c + d ≤ n)) = true) :
    ∃ c, x = some c ∧ c + d ≤ n := by
  cases x with
  | none => cases h
  | some c => exact ⟨c, rfl, of_decide_eq_true h⟩

/-- The item of a JSN is marked for one more copy. -/
def Link.sendsAgain (jsn : Nat) (k : Link) : Link :=
  { k with sends := k.sends.map fun x => if x.jsn = jsn then { x with again := true } else x }
section
variable {t : Lapse} {jsn : Word} {s : State} {o : Nat} {i : SendItem} (hsend : (s.elapse t).sendOf jsn.toNat = some (o, i))
include hsend

theorem execSendResent_due (hsent : i.sentClk.any (fun c => decide (c + 3273600 ≤ (s.elapse t).tb.clk)) = true)
    (hres : i.resent = false) (hagain : i.again = false) :
    execSendResent t jsn s = .next ((s.elapse t).setLnk o (((s.elapse t).lnk o).sendsAgain i.jsn)) := by
  obtain ⟨c, hc, hdue⟩ := sentClk_of_any hsent
  unfold execSendResent
  dsimp only
  rw [hsend]
  dsimp only
  rw [hc]
  dsimp only
  rw [if_pos ⟨by simp [hres], by simp [hagain], hdue⟩]
  rfl
theorem execNoResponse_due (hsent : i.sentClk.any (fun c => decide (c + 6547200 ≤ (s.elapse t).tb.clk)) = true)
    (hready : (s.elapse t).pwr.ready = true) : execNoResponse t jsn s = .next ((s.elapse t).endSend o i 1 o []) := by
  obtain ⟨c, hc, hdue⟩ := sentClk_of_any hsent
  unfold execNoResponse
  dsimp only
  rw [hsend]
  dsimp only
  rw [hc]
  exact if_pos ⟨hdue, hready⟩
theorem execSendUndelivered_due (hsent : i.sentClk = none) (hdue : i.accClk + 65472000 ≤ (s.elapse t).tb.clk)
    (hready : (s.elapse t).pwr.ready = true) : execSendUndelivered t jsn s = .next ((s.elapse t).endSend o i 2 o []) := by
  unfold execSendUndelivered
  dsimp only
  rw [hsend]
  exact if_pos ⟨by simp [hsent], hdue, hready⟩
end
theorem execResp_sent {t : Lapse} {l : Nat} {ws : List Word} {s : State} {o : Nat} {i : SendItem} (hl : l < 8)
    (hstate : ((s.elapse t).lnk l).state ≠ 0) (hgood : frameGood ws = true) (htype : frameType ws = 14)
    (hsend : (s.elapse t).sendOf (arg ws 1).toNat = some (o, i)) (hsent : i.sentClk.isSome = true) (hready : (s.elapse t).pwr.ready = true) :
    execResp t l ws s = .next ((s.elapse t).endSend o i 0 l ((ws.drop 2).take (fld (arg ws 0) 43 38 - 3))) := by
  unfold execResp
  rw [onFrame_good hl hstate hgood htype, hsend]
  dsimp only
  rw [if_pos ⟨hsent, hready⟩]

theorem lnk_of_rest {a b : State} (h : a.rest = b.rest) (l : Nat) : a.lnk l = b.lnk l := by
  unfold State.lnk; rw [of_rest_links h]

/-- Settles O23: the command's verdicts, and the end of its frame at each of its times. -/
theorem unscheduledFrames : Obligations.UnscheduledFrames := by
  refine ⟨fun t env ps s => ⟨?_, ?_⟩, fun t s jsn o i => ⟨?_, ?_, ?_⟩, ?_, ?_⟩
  · intro hadm hlen h1 h32 hen hpair hfailed hroom
    refine runOp_completes_jsn opLendiSend t env ps 2 s _ _ _ hadm (by decide) (by decide)
      (opLendiSend_ok hlen h1 h32 hen hpair hfailed hroom) rfl rfl ?_ (fun _ _ => ⟨rfl, rfl⟩) ?_
    · show entriesFor (ps.length + 0) + 2 ≤ 1000
      unfold entriesFor; omega
    · intro b u hb hu
      have hlinks := of_rest_links hu
      refine ⟨?_, ?_⟩
      · refine (congrArg Link.sends (lnk_of_rest hu _)).trans ((queueSend_sends ..).trans ?_)
        rw [lnk_of_rest hb, of_rest_tb hb]; rfl
      · rw [hu, hlinks]
        show (b.rest.putLinks _) = ((s.elapse t).rest.putLinks _)
        rw [hb]; rfl
  · intro hadm hlen h1 h32 hen
    exact runOp_refuses opLendiSend t env ps 2 s .notPermitted [2] hadm (by decide) (by decide) (by simp)
      (opLendiSend_disabled hlen h1 h32 hen) (by simp)
  · intro hsend hsent hres hagain
    refine ⟨_, execSendResent_due hsend hsent hres hagain, ?_, rfl⟩
    rw [lnk_setLnk]; rfl
  · intro hsend hsent hready _
    exact ⟨_, execNoResponse_due hsend hsent hready, endSend_ends⟩
  · intro hsend hsent hdue hready _
    exact ⟨_, execSendUndelivered_due hsend hsent hdue hready, endSend_ends⟩
  · intro t s l ws o i a hl hstate hgood htype hsend hsent hready _
    exact ⟨_, execResp_sent hl hstate hgood htype hsend hsent hready, endSend_ends⟩
  · intro t s l n ws a q v r hl hup hon hgood htype h8 h16 hkind hnum hlink hahead
    have hmem : n ∈ [8, 9, 10, 11, 12, 13, 14, 15] := by simp only [List.mem_cons, List.not_mem_nil, or_false]; omega
    obtain ⟨b, hb, hqty⟩ := reports_qty l ws n _ (by decide) hmem a hkind hnum hlink hahead
    obtain ⟨q', e, p, f, hu⟩ := exists_reports_eq l ws [8, 9, 10, 11, 12, 13, 14, 15] a
    refine ⟨_, execQrep_up hl hup hon hgood htype, ?_, ?_, ?_, ?_, ?_⟩
    · rw [hqty]; unfold State.reportedAs; rw [hb]; rfl
    · rw [hqty]; rfl
    · rw [hqty]; unfold State.reportedAs; rw [hb]; rfl
    · rw [hqty]; rfl
    · rw [hu]; rfl

end Sys2Proof.Machine
end

section
/-! Staged commits (R468, R512): the words that no partner may write (O31). -/
namespace Sys2Proof.Machine
open Sys2Proof

/-- A packet completes with one status. -/
theorem completes_status {code st st' : Nat} {ws ws' : List Word} {env : Env} {a : State} {o : Host.Outcome State Fault Refusal}
    {P Q : State → Prop} (h : Completes code st ws env a o P) (h' : Completes code st' ws' env a o Q) : st = st' := by
  obtain ⟨u, ho, ⟨-, hrep⟩, -⟩ := h
  obtain ⟨u', ho', ⟨-, hrep'⟩, -⟩ := h'
  have hu : u = u' := by rw [ho] at ho'; injection ho'
  subst hu
  rw [hrep] at hrep'
  simp only [Option.some.injEq, Prod.mk.injEq] at hrep'
  exact hrep'.2.2.2.1

/-- The backup domain's fault flag waits to be cleared. -/
def State.bkClears (s : State) : State := s.onRtc fun x => { x with clrNext := true }
theorem regApply_bkClear (path j : Nat) (b : State) : b.regApply path j (.rtc 0x27) 1 = b.bkClears := by
  show b.onRtc (fun x => { x with clrNext := x.clrNext || (1 : Word) == 1 }) = b.bkClears
  simp [State.bkClears]

/-- BK_CLEAR asks for rights of 4 or more, which the model's state can hold. -/
theorem wordRefusal_bkClear {path rights : Nat} (h : 4 ≤ rights) (fin s : State) :
    State.wordRefusal ⟨path, rights⟩ fin s (.rtc 0x27) 1 = none := by
  have hmay : s.mayWrite ⟨path, rights⟩ (.rtc 0x27) = true := by simp [State.mayWrite, leastRights, h]
  show (if s.mayWrite ⟨path, rights⟩ (.rtc 0x27) then State.regRefusal path fin s (.rtc 0x27) 1 else some (.notPermitted, 0)) = none
  rw [if_pos hmay]; rfl

/-- So a packet of a partner with such rights writes it, and is answered DONE. -/
theorem bkClear_packet_done {t : Lapse} {env : Env} {s : State} (h : (s.elapse t).admits 0x011 2 0xFFE env [0x005027001000#48, 1] = true)
    (hrights : 4 ≤ ((s.elapse t).part env.partner).rights) :
    Completes 0x011 1 [] env (s.elapse t) (execBkClear t (.packet env) 1 s) fun _ => True :=
  regWrite_completes 2 (by decide) 0x5027 (.rtc 0x27) 0x005027001000#48 1 h (by decide) (by decide) (by decide) rfl rfl
    (fun fin => wordRefusal_bkClear hrights fin _) (regApply_bkClear env.partner) (fun _ => rfl) (fun _ _ _ _ => trivial)

/-- Refutes O31: "BK_CLEAR is written through S0 alone" fails for a partner whose RIGHTS read 4. The model bars partners by
`leastRights` 4, RIGHTS is an unbounded number in its state, and no hypothesis keeps it to the two bits of its register. -/
theorem not_stagedCommits : ¬ Obligations.StagedCommits := by
  intro h
  have hrefused := ((h.2.2.2 L0 E1 (W.setPart 0 { rights := 4, bind := some ⟨2, .spi, 0⟩ }) []).2.2.2.2 (by decide +kernel))
  have hdone := bkClear_packet_done (t := L0) (env := E1) (s := W.setPart 0 { rights := 4, bind := some ⟨2, .spi, 0⟩ })
    (by decide +kernel) (by decide +kernel)
  exact absurd (completes_status hdone hrefused) (by decide)

end Sys2Proof.Machine
end

section
/-! What Ndovos's own jobs, channels and trains leave alone (R160, R166). -/
namespace Sys2Proof.Machine
open Sys2Proof

/-- The state without the command unit's fields, the front end's channels and jobs, and the count of free values. -/
def State.calm (s : State) : State := { s.rest with kite := {}, gale := {}, fresh := 0 }
theorem calm_of_rest {a b : State} (h : a.rest = b.rest) : a.calm = b.calm :=
  congrArg (fun s : State => { s with kite := {}, gale := {}, fresh := 0 }) h
theorem of_calm_tb {a b : State} (h : a.calm = b.calm) : a.tb = b.tb := show a.calm.tb = b.calm.tb from congrArg State.tb h
theorem of_calm_qs {a b : State} (h : a.calm = b.calm) : a.qs = b.qs := show a.calm.qs = b.calm.qs from congrArg State.qs h
theorem of_calm_outs {a b : State} (h : a.calm = b.calm) : a.outs = b.outs := show a.calm.outs = b.calm.outs from congrArg State.outs h
theorem of_calm_rtc {a b : State} (h : a.calm = b.calm) : a.rtc = b.rtc := show a.calm.rtc = b.calm.rtc from congrArg State.rtc h
theorem of_calm_modes {a b : State} (h : a.calm = b.calm) : a.modes = b.modes := show a.calm.modes = b.calm.modes from congrArg State.modes h
theorem of_calm_mem {a b : State} (h : a.calm = b.calm) : a.mem = b.mem := show a.calm.mem = b.calm.mem from congrArg State.mem h

/-- A fold whose steps leave the rest calm does. -/
theorem foldl_calm {β : Type} (f : State → β → State) (h : ∀ s x, (f s x).calm = s.calm) (l : List β) (s : State) :
    (l.foldl f s).calm = s.calm := foldl_keeps State.calm f h l s

@[simp] theorem record_calm (p : Nat) (vol : Bool) (ws : List Word) (s : State) : (s.record p vol ws).calm = s.calm :=
  calm_of_rest (record_rest p vol ws s)
@[simp] theorem raise_calm (p : Nat) (fault : Bool) (cause : Nat) (args : List Word) (s : State) :
    (s.raise p fault cause args).calm = s.calm := calm_of_rest (raise_rest ..)

theorem ite_calm {P : Prop} [Decidable P] {a b s : State} (ha : a.calm = s.calm) (hb : b.calm = s.calm) :
    (if P then a else b).calm = s.calm := by split <;> assumption

/-! ## Channels and trains -/

@[simp] theorem setChan_calm (s : State) (n : Nat) (v : Chan) : (s.setChan n v).calm = s.calm := rfl
@[simp] theorem setTrain_calm (s : State) (t : Nat) (v : Train) : (s.setTrain t v).calm = s.calm := rfl
@[simp] theorem kiteAlarm_calm (owner cause : Nat) (args : List Word) (s : State) : (s.kiteAlarm owner cause args).calm = s.calm := by
  unfold State.kiteAlarm; split
  · exact raise_calm ..
  · rfl
@[simp] theorem setRoles_calm (t : Nat) (s : State) : (s.setRoles t).calm = s.calm := by
  unfold State.setRoles
  exact foldl_calm _ (fun _ _ => setChan_calm _ _ _) _ s
@[simp] theorem makeMaster_calm (t n : Nat) (s : State) : (s.makeMaster t n).calm = s.calm := by
  unfold State.makeMaster
  dsimp only
  rw [setRoles_calm, setChan_calm]
  refine (foldl_calm _ (fun b x => ite_calm rfl (setChan_calm ..)) _ _).trans ?_
  rw [setTrain_calm, setChan_calm]
@[simp] theorem enterCoast_calm (t : Nat) (s : State) : (s.enterCoast t).calm = s.calm := by
  unfold State.enterCoast
  dsimp only
  rw [kiteAlarm_calm]
  exact (foldl_calm _ (fun _ _ => setChan_calm _ _ _) _ _).trans rfl
@[simp] theorem elect_calm (t old : Nat) (s : State) : (s.elect t old).calm = s.calm := by
  unfold State.elect
  dsimp only
  split
  · rfl
  · split
    · rw [kiteAlarm_calm, setTrain_calm, makeMaster_calm]
    · split
      · rfl
      · exact enterCoast_calm ..
@[simp] theorem leaveAll_calm (ns : List Nat) (s : State) : (s.leaveAll ns).calm = s.calm := by
  unfold State.leaveAll
  refine foldl_calm _ (fun b t => ?_) _ s
  dsimp only
  refine ite_calm rfl (ite_calm (setTrain_calm ..) (ite_calm ?_ (setTrain_calm ..)))
  rw [elect_calm, setTrain_calm]
@[simp] theorem leaveTrain_calm (n : Nat) (s : State) : (s.leaveTrain n).calm = s.calm := by
  unfold State.leaveTrain
  dsimp only
  refine ite_calm rfl (ite_calm ?_ (ite_calm ?_ ?_))
  · rw [setTrain_calm, setChan_calm, setTrain_calm]
  · rw [elect_calm, setChan_calm, setTrain_calm]
  · rw [setChan_calm, setTrain_calm]
@[simp] theorem loseChan_calm (n cause : Nat) (s : State) : (s.loseChan n cause).calm = s.calm := by
  unfold State.loseChan
  exact (leaveTrain_calm ..).trans ((kiteAlarm_calm ..).trans (setChan_calm ..))
@[simp] theorem breakTrain_calm (t : Nat) (s : State) : (s.breakTrain t).calm = s.calm := by
  unfold State.breakTrain
  refine (foldl_calm _ (fun b n => ?_) _ _).trans (setTrain_calm ..)
  refine ite_calm ((setChan_calm ..).trans (setChan_calm ..)) ((loseChan_calm ..).trans (setChan_calm ..))
@[simp] theorem freeChans_calm (ns : List Nat) (s : State) : (s.freeChans ns).calm = s.calm := by
  unfold State.freeChans
  rw [leaveAll_calm]
  exact foldl_calm _ (fun _ _ => setChan_calm _ _ _) _ s
@[simp] theorem freeChan_calm (n : Nat) (s : State) : (s.freeChan n).calm = s.calm := freeChans_calm [n] s
@[simp] theorem placeChan_calm (who n : Nat) (ps : List Word) (s : State) : (s.placeChan who n ps).calm = s.calm := by
  unfold State.placeChan
  exact ite_calm ((setRoles_calm ..).trans ((setTrain_calm ..).trans (setChan_calm ..))) (setChan_calm ..)
@[simp] theorem placeTrain_calm (who t : Nat) (comb : Bool) (sl : List Nat) (s : State) : (s.placeTrain who t comb sl).calm = s.calm := by
  unfold State.placeTrain
  dsimp only
  rw [setRoles_calm]
  exact (foldl_calm _ (fun _ _ => setChan_calm _ _ _) _ _).trans rfl

/-! ## Ndovos's searches -/

@[simp] theorem submit_calm (j : Job) (s : State) : (s.submit j).calm = s.calm := by
  unfold State.submit
  dsimp only
  split <;> rfl
@[simp] theorem coldPlan_calm (mask : Nat) (s : State) : (s.coldPlan mask).calm = s.calm := by
  unfold State.coldPlan
  refine foldl_calm _ (fun b r => ?_) _ s
  split
  · exact foldl_calm _ (fun c prn => submit_calm _ c) _ b
  · rfl
@[simp] theorem seekAll_calm (hot : Bool) (s : State) : (s.seekAll hot).calm = s.calm := by
  unfold State.seekAll
  refine foldl_calm _ (fun b a => foldl_calm _ (fun c band => foldl_calm _ (fun d sys => ?_) _ c) _ b) _ s
  split
  · split
    · split
      · rfl
      · refine foldl_calm _ (fun e prn => ?_) _ d
        split
        · exact submit_calm ..
        · rfl
    · rfl
  · rfl
@[simp] theorem search_calm (s : State) : s.search.calm = s.calm := by
  unfold State.search
  split
  · rfl
  · split
    · split
      · rfl
      · exact coldPlan_calm ..
    · exact seekAll_calm ..

/-! ## What Ndovos asks for -/

@[simp] theorem doOwn_calm (o : Own) (s : State) : (s.doOwn o).calm = s.calm := by
  unfold State.doOwn
  split
  · rfl
  · cases o with
    | chan ws =>
      dsimp only
      split
      · rfl
      · exact placeChan_calm ..
    | free n =>
      dsimp only
      split
      · exact freeChan_calm ..
      · rfl
    | train t comb sl =>
      dsimp only
      split
      · rfl
      · exact placeTrain_calm ..
    | brk t =>
      dsimp only
      split
      · exact breakTrain_calm ..
      · rfl
/-- It touches the channels, trains and jobs alone, and tells partners. -/
@[simp] theorem doOwns_calm (os : List Own) (s : State) : (s.doOwns os).calm = s.calm := by
  unfold State.doOwns
  rw [search_calm]
  exact foldl_calm _ (fun b o => doOwn_calm o b) os s
@[simp] theorem dropOwnChans_calm (s : State) : s.dropOwnChans.calm = s.calm := by
  unfold State.dropOwnChans
  dsimp only
  rw [freeChans_calm]
  exact foldl_calm _ (fun b t => breakTrain_calm t b) _ s

/-! ## Jobs that end, with a report to shared memory (R166) -/

/-- Nothing but time, the modes and what is kept of them matters where Ndovos's jobs end. -/
def State.deep (s : State) : State := { s.calm with mem := {} }
theorem deep_of_calm {a b : State} (h : a.calm = b.calm) : a.deep = b.deep :=
  congrArg (fun s : State => { s with mem := {} }) h
theorem of_deep_tb {a b : State} (h : a.deep = b.deep) : a.tb = b.tb := show a.deep.tb = b.deep.tb from congrArg State.tb h
theorem of_deep_rtc {a b : State} (h : a.deep = b.deep) : a.rtc = b.rtc := show a.deep.rtc = b.deep.rtc from congrArg State.rtc h
theorem of_deep_modes {a b : State} (h : a.deep = b.deep) : a.modes = b.modes := show a.deep.modes = b.deep.modes from congrArg State.modes h
theorem endJob_deep (status : Nat) (j : Job) (s : State) : (s.endJob status j).deep = s.deep := by
  unfold State.endJob
  extract_lets _ b c
  have hb : b.deep = s.deep := by
    simp only [b]
    split <;> rfl
  have hc : c.deep = s.deep := hb
  split
  · exact (deep_of_calm (record_calm ..)).trans hc
  · exact hc
theorem dropOwnJobs_deep (s : State) : s.dropOwnJobs.deep = s.deep :=
  foldl_keeps State.deep _ (fun b j => endJob_deep 1 j b) _ s

end Sys2Proof.Machine
end

section
/-! The mode machine: an idle tick, the end of steering, a mode entered (R161, R164-R166, R184). -/
namespace Sys2Proof.Machine
open Sys2Proof

/-- A tick at which no MODE_SET is due only passes. -/
theorem modeTick_idle {m : Nat} {s : State} (h : ∀ w, w ∈ s.modes.waits → m < w.tick) :
    ∃ x, s.modeTick m = s.putModes { s.modes with lastMs := x } := by
  have hdue : (s.modes.waits.filter fun w => decide (w.tick ≤ m)) = [] :=
    List.filter_eq_nil_iff.mpr fun w hw => by have := h w hw; simp only [decide_eq_true_eq]; omega
  unfold State.modeTick
  split
  · dsimp only
    rw [hdue, List.mergeSort_nil]
    exact ⟨m, rfl⟩
  · exact ⟨s.modes.lastMs, by cases s; rfl⟩

/-! ## The end of steering -/

/-- It changes TSRC and what hangs on it, and in the RTC block no kept section. -/
theorem exists_endSteering_rest (s : State) :
    ∃ x, s.endSteering.rest = ((s.putTb s.endSteering.tb).putRtc x).rest ∧ x.keep = s.rtc.keep := by
  unfold State.endSteering
  split
  · obtain ⟨x, h, hx⟩ := exists_setTsrc_rest 2 (s.putTb { s.tb with plan := none })
    refine ⟨x, ?_, hx⟩
    rw [h, setTsrc_tb]; rfl
  · exact ⟨s.rtc, by cases s; rfl, rfl⟩
@[simp] theorem endSteering_modes (s : State) : s.endSteering.modes = s.modes := by
  obtain ⟨x, h, -⟩ := exists_endSteering_rest s; exact (of_rest_modes h).trans rfl
theorem endSteering_qs (s : State) : s.endSteering.qs = s.qs := by
  obtain ⟨x, h, -⟩ := exists_endSteering_rest s; exact (of_rest_qs h).trans rfl
theorem endSteering_mem (s : State) : s.endSteering.mem = s.mem := by
  obtain ⟨x, h, -⟩ := exists_endSteering_rest s; exact (of_rest_mem h).trans rfl
theorem endSteering_keep (s : State) : s.endSteering.rtc.keep = s.rtc.keep := by
  obtain ⟨x, h, hx⟩ := exists_endSteering_rest s; rw [of_rest_rtc h]; exact hx
/-- The time base where steering ends. -/
def TimeBase.unsteered (tb : TimeBase) : TimeBase :=
  if tb.tsrc = 1 ∨ tb.tsrc = 3 ∨ tb.tsrc = 4 then { tb with plan := none }.taking 2 else tb
theorem endSteering_unsteered (s : State) : s.endSteering.tb = s.tb.unsteered := endSteering_tb s
@[simp] theorem unsteered_q0 (tb : TimeBase) : tb.unsteered.q0 = tb.q0 := by
  unfold TimeBase.unsteered; split
  · rw [taking_q0]
  · rfl
theorem unsteered_tsrc {tb : TimeBase} (h : tb.tsrc = 1 ∨ tb.tsrc = 3 ∨ tb.tsrc = 4) : tb.unsteered.tsrc = 2 := by
  unfold TimeBase.unsteered; rw [if_pos h, taking_tsrc]
theorem taking_loopAdj (v : Nat) (tb : TimeBase) : (tb.taking v).loopAdj = tb.loopAdj :=
  taking_view v tb (·.loopAdj) (fun _ _ _ _ _ _ _ _ => rfl)
theorem unsteered_loopAdj (tb : TimeBase) : tb.unsteered.loopAdj = tb.loopAdj := by
  unfold TimeBase.unsteered; split
  · rw [taking_loopAdj]
  · rfl
/-- A holdover begins at the present instant (R180). -/
theorem unsteered_hoStart {tb : TimeBase} (h : tb.tsrc = 1 ∨ tb.tsrc = 3 ∨ tb.tsrc = 4) : tb.unsteered.hoStart = some tb.q0 := by
  have h2 : tb.tsrc ≠ 2 := by omega
  unfold TimeBase.unsteered TimeBase.taking TimeBase.sourced
  rw [if_pos h]
  simp only [Ne.symm h2, if_false, ne_eq, h2, not_false_eq_true, and_true, if_true]

/-! ## Records of a change -/

/-- A MODE_CHANGE record goes out, or waits in the mode block. -/
theorem exists_modeRecord_rest (at_ : Qval) (old cause jsn : Nat) (s : State) :
    ∃ rs, (s.modeRecord at_ old cause jsn).rest = (s.putModes { s.modes with records := rs }).rest := by
  unfold State.modeRecord
  dsimp only
  split
  · refine ⟨s.modes.records, (foldl_keeps State.rest _ (fun b p => record_rest ..) _ s).trans ?_⟩
    cases s; rfl
  · exact ⟨_, rfl⟩

/-! ## A mode entered -/

/-- The mode block as a mode is entered (R166): what the last one found is gone. -/
def ModeBlk.entering (at_ : Qval) (new origin : Nat) (ws : List Word) (cause jsn who clk : Nat) (held : Tab (List Word)) (b : ModeBlk) : ModeBlk :=
  { b with
    mode := new, origin := origin, cur := ws, phase := if new = 10 then 1 else 0, enter := at_, enterClk := clk, held := held
    steered := false, done := false, lack := none, present := none, secOk := true, surveyS := 0, sums := [], sigMean := 0
    bases := [], misses := 0, wakeAt := at_, misfit := [], excluded := if 3 ≤ cause ∧ cause ≤ 6 then b.excluded else 0
    jsn := if 3 ≤ cause ∧ cause ≤ 6 then b.jsn else jsn, who := who }
/-- Out of a mode other than SNAPSHOT: the mode block is entered anew, and where the new mode does not steer Tether time steering ends. -/
theorem enterMode_spec (at_ : Qval) (new origin : Nat) (ws : List Word) (cause jsn who : Nat) (s : State) (hold : s.modes.mode ≠ 10) :
    (∃ clk held rs, (s.enterMode at_ new origin ws cause jsn who).modes =
      { s.modes.entering at_ new origin ws cause jsn who clk held with records := rs }) ∧
    (s.enterMode at_ new origin ws cause jsn who).tb = if steersTime new then s.tb else s.tb.unsteered := by
  unfold State.enterMode
  extract_lets +onlyGivenNames old s1 s2 s3 s4 s5 s6
  have h1 : s1 = s := if_neg hold
  have h2 : s2.deep = s.deep := by rw [← h1]; exact dropOwnJobs_deep s1
  have h3 : s3.deep = s.deep := by
    rw [← h2]
    simp only [s3]
    split
    · exact deep_of_calm (dropOwnChans_calm s2)
    · rfl
  have hmodes4 : s4.modes = s.modes := by
    rw [← of_deep_modes h3]
    simp only [s4]
    split
    · rfl
    · exact endSteering_modes s3
  have htb4 : s4.tb = if steersTime new then s.tb else s.tb.unsteered := by
    rw [← of_deep_tb h3]
    simp only [s4]
    split
    · rfl
    · exact endSteering_unsteered s3
  have hmodes5 : s5.modes = s.modes.entering at_ new origin ws cause jsn who s4.tb.clk (s4.heldOf ws) := by
    rw [← hmodes4]; rfl
  have h6 : s6.modes = s5.modes ∧ s6.tb = s5.tb := by
    simp only [s6]
    split <;> exact ⟨rfl, rfl⟩
  obtain ⟨rs, hrec⟩ := exists_modeRecord_rest at_ old cause (if cause = 0 then jsn else 0) s6
  refine ⟨⟨s4.tb.clk, s4.heldOf ws, rs, ?_⟩, ?_⟩
  · rw [of_rest_modes hrec, ← hmodes5, ← h6.1]; rfl
  · rw [of_rest_tb hrec, ← htb4]; exact h6.2

end Sys2Proof.Machine
end

section
/-! Solutions, steering and holdover (R170, R173, R174, R180, R182, R183). -/
namespace Sys2Proof.Machine
open Sys2Proof

/-! ## What the records of an epoch and the kept data leave alone -/

theorem putMeas_rest (s : State) (v : Meas) : (s.putMeas v).rest = s.rest.putMeas v := rfl
theorem exists_solAt_eq (p m : Nat) (s : State) : ∃ v, s.solAt p m = s.putMeas v := by
  unfold State.solAt State.setMcfg
  exact ⟨_, rfl⟩
/-- Records of solutions leave all but the measurement block. -/
theorem exists_solRecords_rest (m : Nat) (x : Solved) (changed : Bool) (s : State) :
    ∃ v, (s.solRecords m x changed).rest = (s.putMeas v).rest := by
  unfold State.solRecords
  refine foldl_inv (fun u : State => ∃ v, u.rest = (s.putMeas v).rest) _ (fun u p hu => ?_) _ s ⟨s.meas, by cases s; rfl⟩
  obtain ⟨v, hv⟩ := hu
  obtain ⟨w, hw⟩ := exists_solAt_eq p m u
  refine ⟨w, ?_⟩
  have hput : (u.putMeas w).rest = (s.putMeas w).rest := by rw [putMeas_rest, hv]; rfl
  rw [← hput, ← hw]
  dsimp only
  split
  · exact recordCounted_rest ..
  · rfl
/-- So does the taking of positions, but for where the antennas are. -/
theorem exists_takeFixes_eq (m : Nat) (s : State) :
    ∃ f p, s.takeFixes m = s.putModes { s.modes with fixes := f, aidPos := p } := by
  unfold State.takeFixes
  split
  · exact ⟨s.modes.fixes, s.modes.aidPos, by cases s; rfl⟩
  · refine foldl_inv (fun u : State => ∃ f p, u = s.putModes { s.modes with fixes := f, aidPos := p }) _ (fun u a hu => ?_) _ s
      ⟨s.modes.fixes, s.modes.aidPos, by cases s; rfl⟩
    obtain ⟨f, p, rfl⟩ := hu
    dsimp only
    split
    · exact ⟨_, _, rfl⟩
    · exact ⟨f, p, rfl⟩

/-- The holdover model changes terms of the time base alone (R182). -/
theorem exists_holdModel_calm (s : State) :
    ∃ h f d, s.holdModel.calm = (s.putTb { s.tb with holdAdj := h, tqeFloor := f, drift := d }).calm ∧
      (s.tb.tsrc ≠ 2 → { s.tb with holdAdj := h, tqeFloor := f, drift := d } = s.tb) := by
  unfold State.holdModel
  split
  · exact ⟨s.tb.holdAdj, s.tb.tqeFloor, s.tb.drift, by cases s; rfl, fun _ => rfl⟩
  · next h => exact ⟨_, _, _, rfl, fun h' => absurd h' h⟩
/-- Writing kept data changes the RTC block and the instant of the writing. -/
theorem exists_keepData_eq (s : State) : ∃ r k, s.keepData = (s.putRtc r).putModes { s.modes with keptMs := k } := ⟨_, _, rfl⟩
theorem exists_keepClock_eq (m : Nat) (s : State) : ∃ r k, s.keepClock m = (s.putRtc r).putModes { s.modes with clockMs := k } := ⟨_, _, rfl⟩

/-! ## One epoch of steering under GNSS in NAVIGATE (R174) -/

/-- The time base after an epoch of the loop. -/
def TimeBase.steeredTo (x : Solved) (warmed : Bool) (tb : TimeBase) : TimeBase :=
  let lim : Int := 2 ^ 60 / 10 ^ 11
  { tb with
    loopAdj := tb.loopAdj + max (-lim) (min lim (Config.loopAdj 100 tb.loopAdj x.f.offset x.f.fofs - tb.loopAdj))
    tqe := satN 32 x.f.sigT, tqf := satN 32 (if warmed then x.f.sigF else max 2000000000 x.f.sigF) }

section
variable {x : Solved} {r : SolveIn} {s : State} (hmode : s.modes.mode = 4)
include hmode

theorem solving_navigate : s.solving = 4 := by
  unfold State.solving; rw [hmode]; rfl
theorem steerable_navigate : s.steerable x = x.sufficient := by
  unfold State.steerable; rw [solving_navigate hmode, if_neg (by decide)]

/-- With a sufficient set the loop takes a step, and the lack ends. -/
theorem steerEpoch_locked (hsuff : x.sufficient = true) (hcable : s.modes.cable = false) (hsrc : s.tb.tsrc = 1) :
    ∃ f h b d, s.steerEpoch x r = ((s.putFresh f).putTb { s.tb.steeredTo x s.clk.warmed with discH := h, driftBase := b, drift := d }).putModes
      { s.modes with lack := none, cable := false, steered := true } := by
  have hsteer : s.steer x.truth x.truth 1 1 = State.learn (s.putTb (s.tb.steeredTo x s.clk.warmed)) := by
    have hloop : s.loopSeconds = 100 := by unfold State.loopSeconds; rw [hmode]; rfl
    unfold State.steer
    rw [if_neg (by omega), if_pos ⟨hsrc, by simp [hcable]⟩, hloop]
    rfl
  have htsrc : (State.learn (s.putTb (s.tb.steeredTo x s.clk.warmed))).tb.tsrc = 1 := hsrc
  unfold State.steerEpoch
  dsimp only
  rw [steerable_navigate hmode, if_pos hsuff, if_neg (by omega), if_neg (by omega), if_neg (by omega), if_neg (by omega), hsteer]
  unfold State.onModes
  have hone (b : Bool) : (b || (1 : Nat) == 1 || (1 : Nat) == 3 || (1 : Nat) == 4) = true := by simp
  simp only [htsrc, hone]
  exact ⟨_, _, _, _, rfl⟩
/-- Without one a holdover begins, and the lack of a set (R180). -/
theorem steerEpoch_lacking (hsuff : x.sufficient = false) :
    s.steerEpoch x r = s.endSteering.putModes { s.modes with lack := some (s.modes.lack.getD s.tb.q0) } := by
  unfold State.steerEpoch
  dsimp only
  rw [steerable_navigate hmode, hsuff, if_neg (by decide)]
  unfold State.onModes
  rw [endSteering_modes, endSteering_unsteered, unsteered_q0]
end

/-! ## One epoch of a mode that forms solutions, in NAVIGATE -/

/-- Records and kept data leave time, quantities, outputs and memory alone, and in the mode block note the instant of a writing. -/
theorem exists_recordsKept_rest (m : Nat) (x : Solved) (changed : Bool) (c : Prop) [Decidable c] (s : State) :
    ∃ v r k, (if c then (s.solRecords m x changed).keepData else s.solRecords m x changed).rest =
      (((s.putMeas v).putRtc r).putModes { s.modes with keptMs := k }).rest := by
  obtain ⟨v, hv⟩ := exists_solRecords_rest m x changed s
  have hmodes : (s.solRecords m x changed).modes = s.modes := (of_rest_modes hv :)
  split
  · obtain ⟨r, k, hk⟩ := exists_keepData_eq (s.solRecords m x changed)
    refine ⟨v, r, k, ?_⟩
    rw [hk, hmodes]
    exact congrArg (fun u : State => (u.putRtc r).putModes { s.modes with keptMs := k }) hv
  · exact ⟨v, s.rtc, s.modes.keptMs, hv⟩
theorem onModes_putModes (g : ModeBlk → ModeBlk) (b : ModeBlk) (s : State) : (s.putModes b).onModes g = s.putModes (g b) := rfl
/-- An epoch in NAVIGATE steers from a mode block with the satellites counted and the offset noted; what follows leaves time, quantities, outputs and memory alone. -/
theorem exists_solveEpoch_rest (m : Nat) (r : SolveIn) {s : State} (hmode : s.modes.mode = 4) :
    ∃ b : ModeBlk, b.mode = 4 ∧ b.lastSol = s.modes.lastSol ∧ b.nsv = (s.solveAll m).nsv ∧ b.lack = s.modes.lack ∧ b.cable = s.modes.cable ∧
      ∃ v q k, (s.solveEpoch m r).rest = (((((s.putModes b).steerEpoch (s.solveAll m) r).putMeas v).putRtc q).putModes
        { ((s.putModes b).steerEpoch (s.solveAll m) r).modes with keptMs := k }).rest := by
  unfold State.solveEpoch
  extract_lets +onlyGivenNames x ra changed mode s1 t s2 s3 s4 s5
  obtain ⟨f, p, hfix⟩ := exists_takeFixes_eq m (s.onModes fun b => { b with refAnt := ra, nsv := x.nsv, fofs := x.f.fofs })
  have h1 : s1 = s.putModes { s.modes with refAnt := ra, nsv := x.nsv, fofs := x.f.fofs, fixes := f, aidPos := p } := hfix
  have h2 : ∃ b : ModeBlk, s2 = s.putModes b ∧ b.mode = 4 ∧ b.lastSol = s.modes.lastSol ∧ b.nsv = x.nsv ∧ b.lack = s.modes.lack ∧
      b.cable = s.modes.cable := by
    simp only [s2]
    split
    · rw [h1, onModes_putModes]; exact ⟨_, rfl, hmode, rfl, rfl, rfl, rfl⟩
    · exact ⟨_, h1, hmode, rfl, rfl, rfl, rfl⟩
  obtain ⟨b, hb, hbm, hbl, hbn, hbk, hbc⟩ := h2
  refine ⟨b, hbm, hbl, hbn, hbk, hbc, ?_⟩
  have h3 : s3 = (s.putModes b).steerEpoch x r := by
    rw [← hb]; exact if_neg (by simp only [mode, hmode]; decide)
  rw [if_neg (by simp only [mode, hmode]; decide), if_neg (by simp only [mode, hmode]; decide), ← h3]
  exact exists_recordsKept_rest m x changed (x.sufficient = true ∧ s4.modes.keptMs + 600000 ≤ m) s3

end Sys2Proof.Machine
end

section
/-! SOLUTION_EPOCH: in NAVIGATE under GNSS, and in a search (R170, R173, R174, R180). -/
namespace Sys2Proof.Machine
open Sys2Proof

/-! ## The epoch in NAVIGATE -/

/-- What every epoch in NAVIGATE leaves: the mode, its epoch, the satellites counted, and Q0, the quantities, outputs and memory of `s`. -/
structure Navigated (sol nsv : Nat) (s e : State) : Prop where
  mode : e.modes.mode = 4
  sol  : e.modes.lastSol = sol
  nsv  : e.modes.nsv = nsv
  q0   : e.tb.q0 = s.tb.q0
  qs   : e.qs = s.qs
  outs : e.outs = s.outs
  mem  : e.mem = s.mem

section
variable {m : Nat} {r : SolveIn} {s : State} (hmode : s.modes.mode = 4)
include hmode

theorem solveEpoch_locked (hsuff : (s.solveAll m).sufficient = true) (hcable : s.modes.cable = false) (hsrc : s.tb.tsrc = 1) :
    Navigated s.modes.lastSol (s.solveAll m).nsv s (s.solveEpoch m r) ∧
    (s.solveEpoch m r).modes.lack = none ∧ (s.solveEpoch m r).modes.steered = true ∧
    ∃ h b d, (s.solveEpoch m r).tb = { s.tb.steeredTo (s.solveAll m) s.clk.warmed with discH := h, driftBase := b, drift := d } := by
  obtain ⟨b, hb4, hbl, hbn, -, hbc, v, q, k, h⟩ := exists_solveEpoch_rest m r hmode
  obtain ⟨f, g, c, d, he⟩ := steerEpoch_locked (s := s.putModes b) (r := r) hb4 hsuff (hbc.trans hcable) hsrc
  rw [he] at h
  have hm := of_rest_modes h
  have ht := of_rest_tb h
  have hqs : (s.solveEpoch m r).qs = s.qs := (of_rest_qs h :)
  have houts : (s.solveEpoch m r).outs = s.outs := (of_rest_outs h :)
  have hmem : (s.solveEpoch m r).mem = s.mem := (of_rest_mem h :)
  refine ⟨⟨?_, ?_, ?_, ?_, hqs, houts, hmem⟩, ?_, ?_, g, c, d, ht⟩
  · rw [hm]; exact hb4
  · rw [hm]; exact hbl
  · rw [hm]; exact hbn
  · rw [ht]; rfl
  · rw [hm]; rfl
  · rw [hm]; rfl
theorem solveEpoch_lacking (hsuff : (s.solveAll m).sufficient = false) :
    Navigated s.modes.lastSol (s.solveAll m).nsv s (s.solveEpoch m r) ∧
    (s.solveEpoch m r).modes.lack = some (s.modes.lack.getD s.tb.q0) ∧ (s.solveEpoch m r).tb = s.tb.unsteered := by
  obtain ⟨b, hb4, hbl, hbn, hbk, -, v, q, k, h⟩ := exists_solveEpoch_rest m r hmode
  rw [steerEpoch_lacking (s := s.putModes b) (r := r) hb4 hsuff] at h
  have hztb : (s.putModes b).endSteering.tb = s.tb.unsteered := endSteering_unsteered (s.putModes b)
  have hzqs : (s.putModes b).endSteering.qs = s.qs := endSteering_qs (s.putModes b)
  have hzouts : (s.putModes b).endSteering.outs = s.outs := endSteering_outs (s.putModes b)
  have hzmem : (s.putModes b).endSteering.mem = s.mem := endSteering_mem (s.putModes b)
  generalize (s.putModes b).endSteering = z at h hztb hzqs hzouts hzmem
  have hm := of_rest_modes h
  have ht : (s.solveEpoch m r).tb = s.tb.unsteered := (of_rest_tb h :).trans hztb
  refine ⟨⟨?_, ?_, ?_, ?_, (of_rest_qs h :).trans hzqs, (of_rest_outs h :).trans hzouts, (of_rest_mem h :).trans hzmem⟩, ?_, ht⟩
  · rw [hm]; exact hb4
  · rw [hm]; exact hbl
  · rw [hm]; exact hbn
  · rw [ht, unsteered_q0]
  · rw [hm, ← hbk]; rfl
end

/-! ## The end of an epoch -/

/-- After what the mode does: the hourly CLOCK section, the holdover model, and Ndovos's own channels and jobs. -/
def State.epochEnd (m : Nat) (own : List Own) (s : State) : State :=
  (if s.modes.clockMs + 3600000 ≤ m then s.keepClock m else s).holdModel.doOwns own
theorem exists_epochEnd_calm (m : Nat) (own : List Own) (s : State) :
    ∃ q k h f d, (s.epochEnd m own).calm =
        (((s.putRtc q).putModes { s.modes with clockMs := k }).putTb { s.tb with holdAdj := h, tqeFloor := f, drift := d }).calm ∧
      (s.tb.tsrc ≠ 2 → { s.tb with holdAdj := h, tqeFloor := f, drift := d } = s.tb) := by
  have hclock : ∃ q k, (if s.modes.clockMs + 3600000 ≤ m then s.keepClock m else s) = (s.putRtc q).putModes { s.modes with clockMs := k } := by
    split
    · exact exists_keepClock_eq m s
    · exact ⟨s.rtc, s.modes.clockMs, by cases s; rfl⟩
  obtain ⟨q, k, hk⟩ := hclock
  obtain ⟨h, f, d, hcalm, hsame⟩ := exists_holdModel_calm ((s.putRtc q).putModes { s.modes with clockMs := k })
  refine ⟨q, k, h, f, d, ?_, hsame⟩
  unfold State.epochEnd
  rw [doOwns_calm, hk, hcalm]
  rfl

section
variable {m : Nat} {own : List Own} {s a : State}

theorem Navigated.epochEnd {sol nsv : Nat} (h : Navigated sol nsv a s) : Navigated sol nsv a (s.epochEnd m own) := by
  obtain ⟨q, k, x, f, d, hc, -⟩ := exists_epochEnd_calm m own s
  have hm := of_calm_modes hc
  refine ⟨?_, ?_, ?_, ?_, (of_calm_qs hc :).trans h.qs, (of_calm_outs hc :).trans h.outs, (of_calm_mem hc :).trans h.mem⟩
  · rw [hm]; exact h.mode
  · rw [hm]; exact h.sol
  · rw [hm]; exact h.nsv
  · rw [of_calm_tb hc]; exact h.q0
theorem epochEnd_modes : ∃ k, (s.epochEnd m own).modes = { s.modes with clockMs := k } := by
  obtain ⟨q, k, x, f, d, hc, -⟩ := exists_epochEnd_calm m own s
  exact ⟨k, of_calm_modes hc⟩
theorem epochEnd_tb : ∃ h f d, (s.epochEnd m own).tb = { s.tb with holdAdj := h, tqeFloor := f, drift := d } := by
  obtain ⟨q, k, x, f, d, hc, -⟩ := exists_epochEnd_calm m own s
  exact ⟨x, f, d, of_calm_tb hc⟩
theorem epochEnd_tb_live (h : s.tb.tsrc ≠ 2) : (s.epochEnd m own).tb = s.tb := by
  obtain ⟨q, k, x, f, d, hc, hs⟩ := exists_epochEnd_calm m own s
  exact (of_calm_tb hc).trans (hs h)
end

/-! ## The command -/

/-- The state in which an epoch's mode acts: the tick has passed, the epoch is noted. -/
def State.atEpoch (m x : Nat) (ref : Bool) (s : State) : State := s.putModes { s.modes with lastMs := x, lastSol := m, ref10 := ref }
theorem atEpoch_solveAll (m x : Nat) (ref : Bool) (s : State) : (s.atEpoch m x ref).solveAll m = s.solveAll m := rfl

section
variable {t : Lapse} {x : SolveIn} {own : List Own} {s a : State} (ha : s.elapse t = a) {m : Nat} (hm : msOf a.tb.q0 = m)
  (hepoch : m % a.solMs = 0) (hnew : a.modes.lastSol ≠ m) (hndovos : a.ndovos = true) (hon : a.isOn 11 = true)
  (hidle : ∀ w, w ∈ a.modes.waits → m < w.tick)
include ha hm hepoch hnew hndovos hon hidle

theorem execSolutionEpoch_navigate (hmode : a.modes.mode = 4) :
    ∃ k, execSolutionEpoch t x own s = .next (((a.atEpoch m k x.ref10).solveEpoch m x).epochEnd m own) := by
  obtain ⟨k, hk⟩ := modeTick_idle hidle
  refine ⟨k, ?_⟩
  subst ha hm
  unfold execSolutionEpoch
  extract_lets +onlyGivenNames s0 m s1 mode s2 s3
  have h1 : s1 = s0.atEpoch m k x.ref10 := by simp only [s1]; rw [hk]; rfl
  have h2 : s2 = (s0.atEpoch m k x.ref10).solveEpoch m x := by
    have hmode1 : mode = 4 := by simp only [mode, h1]; exact hmode
    simp only [s2, hmode1]
    rw [h1]; rfl
  rw [if_pos ⟨hepoch, hnew, hndovos, hon⟩, ← h2]
  rfl
theorem execSolutionEpoch_search (hmode : a.modes.mode = 2 ∨ a.modes.mode = 3) :
    ∃ k, execSolutionEpoch t x own s = .next ((if (a.solveAll m).sufficient then (a.atEpoch m k x.ref10).searchDone m
      else a.atEpoch m k x.ref10).epochEnd m own) := by
  obtain ⟨k, hk⟩ := modeTick_idle hidle
  refine ⟨k, ?_⟩
  subst ha hm
  unfold execSolutionEpoch
  extract_lets +onlyGivenNames s0 m s1 mode s2 s3
  have h1 : s1 = s0.atEpoch m k x.ref10 := by simp only [s1]; rw [hk]; rfl
  have h2 : s2 = if (s0.solveAll m).sufficient then (s0.atEpoch m k x.ref10).searchDone m else s0.atEpoch m k x.ref10 := by
    have hmode1 : mode = 2 ∨ mode = 3 := by simp only [mode, h1]; exact hmode
    simp only [s2]
    rw [if_pos hmode1, h1, atEpoch_solveAll]
  rw [if_pos ⟨hepoch, hnew, hndovos, hon⟩, ← h2]
  rfl
end

/-- A search that has found a sufficient set goes to NAVIGATE where NEXT says so (R173). -/
theorem searchDone_navigate {m : Nat} {s : State} (hnext : msNext s.modes.cur = 4) (hdone : s.modes.done = false) :
    s.searchDone m = (s.putModes { s.modes with done := true }).enterMode (qOfMs m) 4 0 (nextWords s.modes.cur 4) 1 0 s.modes.who := by
  unfold State.searchDone
  dsimp only
  rw [hnext, hdone, if_neg (by decide), if_neg (fun h => absurd h.1 (by decide))]
  rfl

end Sys2Proof.Machine
end

section
/-! Loss and return of the signal, and the snapshot cycle (R180, R183-R186). -/
namespace Sys2Proof.Machine
open Sys2Proof

/-! ## SIGNAL_LOSS (R180) -/

theorem execSignalLoss_lost {t : Lapse} {s a : State} (ha : s.elapse t = a) {m : Nat} (hm : msOf a.tb.q0 = m) {q : Qval}
    (hlack : a.modes.lack = some q) (htick : m % 10 = 0) (hidle : ∀ w, w ∈ a.modes.waits → m < w.tick)
    (hmode : a.modes.mode = 4 ∨ a.modes.mode = 6 ∨ a.modes.mode = 7 ∨ a.modes.mode = 9) (hsteered : a.modes.steered = true)
    (hdelay : msHoDelay a.modes.cur ≤ qdist a.tb.q0 q) :
    ∃ k, execSignalLoss t s = .next ((a.putModes { a.modes with lastMs := k }).enterMode (qOfMs m) 8 a.modes.mode a.modes.cur
      (if a.modes.mode = 9 then 5 else 3) 0 a.modes.who) := by
  obtain ⟨k, hk⟩ := modeTick_idle hidle
  refine ⟨k, ?_⟩
  subst ha hm
  unfold execSignalLoss
  dsimp only
  rw [if_neg (by omega), hk, putModes_modes, putModes_tb]
  dsimp only
  rw [hlack]
  exact if_pos ⟨hmode, hsteered, hdelay⟩

/-! ## SIGNAL_RETURN (R183) -/

/-- The time base where an offset below 1 ns leaves RECOVERY at once. -/
def TimeBase.recovered (e : Int) (after sigma : Nat) (tb : TimeBase) : TimeBase :=
  TimeBase.taking after { tb.taking 4 with plan := none, slew := none, resid := e, after := after, tqe := sigma }
theorem recover_small {e : Int} {cause after sigma : Nat} {s : State} (hstep : s.tb.step = none) (hpermit : s.tb.permit = 0)
    (hnext : s.tb.permitNext = none) (he : e.natAbs < 1000) :
    (s.recover e cause after sigma).tb = s.tb.recovered e after sigma ∧ (s.recover e cause after sigma).modes = s.modes := by
  have htb : (s.setTsrc 4).tb = s.tb.taking 4 := setTsrc_tb 4 s
  have hmodes : (s.setTsrc 4).modes = s.modes := setTsrc_modes 4 s
  have hstep4 : (s.tb.taking 4).step = none := (taking_step 4 s.tb).trans hstep
  have hpermit4 : (s.tb.taking 4).permit = 0 := (taking_view 4 s.tb (·.permit) (fun _ _ _ _ _ _ _ _ => rfl)).trans hpermit
  have hnext4 : (s.tb.taking 4).permitNext = none := (taking_view 4 s.tb (·.permitNext) (fun _ _ _ _ _ _ _ _ => rfl)).trans hnext
  generalize hz : s.setTsrc 4 = z at htb hmodes
  have hremove : (z.putTb { z.tb with tqe := sigma }).removeOffset e cause after (some sigma) =
      z.putTb { s.tb.taking 4 with plan := none, slew := none, resid := e, after := after, tqe := sigma } := by
    have hkeep : ({ z.tb with tqe := sigma } : TimeBase).takePermit = { z.tb with tqe := sigma } := by
      unfold TimeBase.takePermit
      dsimp only
      rw [htb, hnext4]
    unfold State.removeOffset
    dsimp only [putTb_tb]
    rw [hkeep]
    dsimp only
    rw [htb, hstep4, hpermit4, if_neg (by decide), if_neg (by simp), if_pos he]
    rfl
  unfold State.recover
  dsimp only
  rw [hz, hremove, if_pos ⟨rfl, rfl, congrArg Option.isNone hstep4⟩]
  exact ⟨setTsrc_tb after _, (setTsrc_modes after _).trans hmodes⟩

theorem taking_hoStart {v : Nat} (hv : v ≠ 2) {tb : TimeBase} (h : tb.tsrc = 2 ∨ tb.hoStart = none) : (tb.taking v).hoStart = none := by
  unfold TimeBase.taking
  have hx : (if v = tb.tsrc then tb else { tb with tsrcAt := some tb.q0 }).tsrc = tb.tsrc ∧
      (if v = tb.tsrc then tb else { tb with tsrcAt := some tb.q0 }).hoStart = tb.hoStart := by
    split <;> exact ⟨rfl, rfl⟩
  generalize (if v = tb.tsrc then tb else { tb with tsrcAt := some tb.q0 }) = x at hx ⊢
  obtain ⟨hxt, hxh⟩ := hx
  unfold TimeBase.sourced
  rw [if_neg (fun h => hv h.1)]
  by_cases h2 : x.tsrc = 2
  · rw [if_pos ⟨hv, h2⟩]
  · rw [if_neg (fun h => h2 h.2)]
    exact hxh.trans (h.resolve_left (fun h => h2 (hxt.trans h)))
/-- What is left of the offset: none, and no holdover. -/
theorem recovered_spec {e : Int} {after sigma : Nat} (hafter : after ≠ 2) {tb : TimeBase} (hsrc : tb.tsrc = 2) :
    (tb.recovered e after sigma).tsrc = after ∧ (tb.recovered e after sigma).hoStart = none ∧
    (tb.recovered e after sigma).slew = none ∧ (tb.recovered e after sigma).q0 = tb.q0 := by
  refine ⟨taking_tsrc .., taking_hoStart hafter (Or.inr (taking_hoStart (by decide) (Or.inl hsrc))), ?_, ?_⟩
  · exact taking_view after _ (·.slew) (fun _ _ _ _ _ _ _ _ => rfl)
  · exact (taking_q0 after _).trans (taking_q0 4 tb)

/-- The way back from a holdover at a tick. -/
def State.returns (m : Nat) (s : State) : State :=
  (((s.recover s.modes.offset 1 (if s.modes.origin = 9 then 3 else 1) s.modes.sigma).enterMode (qOfMs m) s.modes.origin 0 s.modes.cur
    (if s.modes.origin = 9 then 6 else 4) 0 s.modes.who).onModes fun b => { b with steered := true })
theorem execSignalReturn_eq {t : Lapse} {s a u : State} (ha : s.elapse t = a) {m : Nat} (hm : msOf a.tb.q0 = m) (hu : a.modeTick m = u) {q : Qval}
    (hpresent : u.modes.present = some q) (htick : m % 10 = 0)
    (hmode : u.modes.mode = 8) (horigin : u.modes.origin ≠ 0) (hdelay : msRetDelay u.modes.cur ≤ qdist u.tb.q0 q) (hsrc : u.tb.tsrc = 2) :
    execSignalReturn t s = .next (u.returns m) := by
  unfold execSignalReturn
  extract_lets +onlyGivenNames s0 m' s1 b
  have hs1 : s1 = u := by rw [← hu, ← hm, ← ha]
  have hm' : m' = m := by rw [← hm, ← ha]
  clear_value s1 m'
  subst hs1 hm'
  refine (if_neg (not_not.mpr htick)).trans ?_
  rw [show b.present = some q from hpresent]
  refine (if_pos ⟨hmode, horigin, hdelay⟩).trans ?_
  dsimp only
  rw [if_pos hsrc]
  rfl
theorem returns_spec {m : Nat} {s : State} (hmode : s.modes.mode = 8)
    (horigin : s.modes.origin = 4 ∨ s.modes.origin = 6 ∨ s.modes.origin = 7 ∨ s.modes.origin = 9)
    (hstep : s.tb.step = none) (hpermit : s.tb.permit = 0) (hnext : s.tb.permitNext = none) (he : s.modes.offset.natAbs < 1000) :
    (∃ clk held rs, (s.returns m).modes = { s.modes.entering (qOfMs m) s.modes.origin 0 s.modes.cur (if s.modes.origin = 9 then 6 else 4) 0
      s.modes.who clk held with records := rs, steered := true }) ∧
    (s.returns m).tb = s.tb.recovered s.modes.offset (if s.modes.origin = 9 then 3 else 1) s.modes.sigma := by
  obtain ⟨htb, hmodes⟩ := recover_small (cause := 1) (after := if s.modes.origin = 9 then 3 else 1) (sigma := s.modes.sigma) hstep hpermit hnext he
  unfold State.returns
  generalize s.recover s.modes.offset 1 (if s.modes.origin = 9 then 3 else 1) s.modes.sigma = z at htb hmodes ⊢
  obtain ⟨⟨clk, held, rs, hm⟩, ht⟩ := enterMode_spec (qOfMs m) s.modes.origin 0 s.modes.cur (if s.modes.origin = 9 then 6 else 4) 0 s.modes.who z
    (by rw [hmodes, hmode]; decide)
  have hsteers : steersTime s.modes.origin = true := by rcases horigin with h | h | h | h <;> rw [h] <;> rfl
  rw [hsteers, if_pos rfl, htb] at ht
  rw [hmodes] at hm
  refine ⟨⟨clk, held, rs, ?_⟩, ht⟩
  unfold State.onModes
  rw [putModes_modes, hm]

/-! ## The snapshot cycle (R184-R186) -/

theorem execSnapshotWake_due {t : Lapse} {own : List Own} {s a : State} (ha : s.elapse t = a) (hmode : a.modes.mode = 10)
    (hphase : a.modes.phase = 0) (hsec : atSecond a.tb = true) (hper : (cyc a.tb.q0).toNat % max 1 (fld (arg a.modes.cur 1) 47 30) = 0) :
    execSnapshotWake t own s = .next ((a.putModes { a.modes with phase := 1, wakeAt := a.tb.q0 }).doOwns own) := by
  subst ha
  unfold execSnapshotWake
  dsimp only
  rw [if_pos ⟨hmode, hphase, hsec, hper⟩]
  rfl

/-- A holdover begins where Tether time was steered, with what offset remains. -/
def State.sleepSteering (e : Nat) (s : State) : State :=
  if s.tb.tsrc = 1 ∨ s.tb.tsrc = 3 ∨ s.tb.tsrc = 4 then s.endSteering.putTb { s.endSteering.tb with e0 := e } else s
theorem sleepSteering_spec (e : Nat) (s : State) :
    (s.sleepSteering e).modes = s.modes ∧ (s.sleepSteering e).tb.q0 = s.tb.q0 ∧ (s.sleepSteering e).rtc.keep = s.rtc.keep ∧
    (s.tb.tsrc = 1 ∨ s.tb.tsrc = 3 ∨ s.tb.tsrc = 4 → (s.sleepSteering e).tb.tsrc = 2) := by
  have hmodes := endSteering_modes s
  have htb := endSteering_unsteered s
  have hkeep := endSteering_keep s
  unfold State.sleepSteering
  generalize s.endSteering = z at hmodes htb hkeep ⊢
  split
  · next h =>
    refine ⟨hmodes, ?_, hkeep, fun _ => ?_⟩
    · rw [putTb_tb]; exact (congrArg TimeBase.q0 htb).trans (unsteered_q0 _)
    · rw [putTb_tb]; exact (congrArg TimeBase.tsrc htb).trans (unsteered_tsrc h)
  · next h => exact ⟨rfl, rfl, rfl, fun h' => absurd h' h⟩
/-- SLEEP: the kept data are written, Ndovos's channels and jobs go, and a holdover begins. -/
theorem exists_sleep_eq (s : State) :
    ∃ e, s.sleep = ((s.keepData.dropOwnJobs.dropOwnChans).sleepSteering e).onModes fun b => { b with phase := 0 } := by
  unfold State.sleep State.sleepSteering
  dsimp only
  exact ⟨_, rfl⟩
theorem keepData_modes (s : State) : s.keepData.modes = { s.modes with keptMs := msOf s.tb.q0 } := rfl
theorem keepData_tb (s : State) : s.keepData.tb = s.tb := rfl
theorem keepData_nav (s : State) : s.keepData.rtc.keep.nav = some s.meas.kept := rfl
theorem keepData_posvel (s : State) : s.keepData.rtc.keep.posvel = some s.modes.fixes := rfl
/-- Ndovos's channels and jobs let go, the mode block, time and what is kept stay. -/
theorem ownsDropped_spec (s : State) :
    s.dropOwnJobs.dropOwnChans.modes = s.modes ∧ s.dropOwnJobs.dropOwnChans.tb = s.tb ∧ s.dropOwnJobs.dropOwnChans.rtc = s.rtc := by
  have hdeep : s.dropOwnJobs.dropOwnChans.deep = s.deep := (deep_of_calm (dropOwnChans_calm _)).trans (dropOwnJobs_deep s)
  exact ⟨of_deep_modes hdeep, of_deep_tb hdeep, of_deep_rtc hdeep⟩
theorem sleep_spec (s : State) :
    s.sleep.modes = { s.modes with keptMs := msOf s.tb.q0, phase := 0 } ∧ s.sleep.tb.q0 = s.tb.q0 ∧
    (s.tb.tsrc = 1 ∨ s.tb.tsrc = 3 ∨ s.tb.tsrc = 4 → s.sleep.tb.tsrc = 2) ∧
    s.sleep.rtc.keep.nav = some s.meas.kept ∧ s.sleep.rtc.keep.posvel = some s.modes.fixes := by
  obtain ⟨hmodes, htb, hrtc⟩ := ownsDropped_spec s.keepData
  obtain ⟨e, he⟩ := exists_sleep_eq s
  rw [keepData_tb] at htb
  have hnav := (congrArg (fun r : Rtc => r.keep.nav) hrtc).trans (keepData_nav s)
  have hposvel := (congrArg (fun r : Rtc => r.keep.posvel) hrtc).trans (keepData_posvel s)
  rw [keepData_modes] at hmodes
  clear hrtc
  generalize s.keepData.dropOwnJobs.dropOwnChans = z at he hmodes htb hnav hposvel
  obtain ⟨hm, hq, hk, ht⟩ := sleepSteering_spec e z
  generalize z.sleepSteering e = y at he hm hq hk ht
  rw [he]
  refine ⟨?_, hq.trans (congrArg TimeBase.q0 htb), ?_, (congrArg Backup.nav hk).trans hnav, (congrArg Backup.posvel hk).trans hposvel⟩
  · show { y.modes with phase := 0 } = _
    rw [hm, hmodes]
  · rw [← htb]; exact ht

/-! ## Their commands -/

theorem execFixEnd_over {t : Lapse} {s a : State} (ha : s.elapse t = a) (hmode : a.modes.mode = 10) (hphase : a.modes.phase = 2)
    (hup : usUnits (1000 * fld (arg a.modes.cur 1) 29 16) ≤ qdist a.tb.q0 a.modes.fixAt)
    (hend : a.fewEphemerides = false ∨ (fld (arg a.modes.cur 1) 15 8 : Int) * 2 ^ 48 ≤ qdist a.tb.q0 a.modes.wakeAt) :
    execFixEnd t s = .next (a.sleep.onModes fun b => { b with misses := 0 }) := by
  subst ha
  unfold execFixEnd
  extract_lets +onlyGivenNames s0 w up long
  refine if_pos ⟨hmode, hphase, decide_eq_true hup, ?_⟩
  rcases hend with h | h
  · exact Or.inl (by rw [h]; rfl)
  · exact Or.inr (decide_eq_true h)
theorem execSnapshotMiss_over {t : Lapse} {s a : State} (ha : s.elapse t = a) (hmode : a.modes.mode = 10) (hphase : a.modes.phase = 1)
    (hlong : (fld (arg a.modes.cur 1) 15 8 : Int) * 2 ^ 48 ≤ qdist a.tb.q0 a.modes.wakeAt) :
    ∃ ws, execSnapshotMiss t s = .next ((a.sleep.onModes fun b => { b with misses := b.misses + 1 }).raiseAll false 0x503 ws) := by
  subst ha
  unfold execSnapshotMiss
  extract_lets +onlyGivenNames s0 w s1
  exact ⟨_, if_pos ⟨hmode, hphase, hlong⟩⟩

end Sys2Proof.Machine
end

section
/-! HEADING_EPOCH (R46, R177), and what the mode's events leave (O35). -/
namespace Sys2Proof.Machine
open Sys2Proof

/-! ## The baseline's solving -/

/-- What the solving of a baseline reads. -/
def State.baseView (s : State) (old : Baseline) (b : Nat) : State :=
  { rf := s.rf, kite := s.kite, fc := s.fc, meas := { kept := s.meas.kept }, modes := { cur := s.modes.cur, bases := tput {} b old [] } }
theorem baseSolve_view (s : State) (m b : Nat) : s.baseSolve m b = (s.baseView (tget {} b s.modes.bases) b).baseSolve m b := by
  have hold : tget {} b (s.baseView (tget {} b s.modes.bases) b).modes.bases = tget {} b s.modes.bases := tget_tput_same _ _ _ _
  unfold State.baseSolve
  rw [hold]
  rfl

/-! ## One baseline at an epoch -/

/-- Records of an epoch change of the measurement block the configurations alone. -/
theorem exists_epochRecords_rest (m : Nat) (c : Nat → State → Prop) [∀ p s, Decidable (c p s)] (ws : Nat → State → List Word) (s : State) :
    ∃ v : Meas, v.kept = s.meas.kept ∧ ([0, 1, 2, 3, 4].foldl (fun (s : State) p =>
      if c p (s.solAt p m) then (s.solAt p m).recordCounted p true (ws p (s.solAt p m)) else s.solAt p m) s).rest = (s.putMeas v).rest := by
  refine foldl_inv (fun u : State => ∃ v : Meas, v.kept = s.meas.kept ∧ u.rest = (s.putMeas v).rest) _ (fun u p hu => ?_) _ s
    ⟨s.meas, rfl, by cases s; rfl⟩
  obtain ⟨v, hkept, hv⟩ := hu
  have hmeas : u.meas = v := of_rest_meas hv
  have hsol : ∃ w : Meas, u.solAt p m = u.putMeas w ∧ w.kept = u.meas.kept := by
    unfold State.solAt State.setMcfg
    dsimp only
    exact ⟨_, rfl, rfl⟩
  obtain ⟨w, hsw, hw⟩ := hsol
  refine ⟨w, by rw [hw, hmeas, hkept], ?_⟩
  have hput : (u.putMeas w).rest = (s.putMeas w).rest := by rw [putMeas_rest, hv]; rfl
  rw [← hput, ← hsw]
  split
  · exact recordCounted_rest ..
  · rfl

/-- The state of a baseline is noted, and a FIXED one with a fine angle updates its quantity. -/
def State.baseTaken (m b : Nat) (s : State) : State :=
  let x := s.baseSolve m b
  let u := s.putModes { s.modes with bases := tput {} b x.1 s.modes.bases }
  if x.1.state = 2 ∧ x.2.2.2.sigHdg ≤ 2 ^ 14 then u.headingUpdate b x.2.2.2.heading else u
/-- Beyond that an epoch of a baseline changes the measurement configurations alone. -/
theorem exists_baseEpoch_rest {m b : Nat} {s : State} (hin : baseIn (msMask s.modes.cur) b = true) :
    ∃ v : Meas, v.kept = (s.baseTaken m b).meas.kept ∧ (s.baseEpoch m b).rest = ((s.baseTaken m b).putMeas v).rest := by
  unfold State.baseEpoch
  extract_lets +onlyGivenNames ws x st s1 s2
  rw [if_neg (by rw [hin]; decide)]
  exact exists_epochRecords_rest m
    (fun p u => bit (arg (u.mcfg p).sol 0) 46 = true ∧ m / u.hdgMs % max 1 (fld (arg (u.mcfg p).sol 0) 29 22) = 0 ∧ u.pwr.ready = true ∧
      u.mayForm p true (hdgWords (qOfMs m) b st x.2.1 x.2.2.1 (baseLen ws b != 0) x.2.2.2).length = true)
    (fun _ _ => hdgWords (qOfMs m) b st x.2.1 x.2.2.1 (baseLen ws b != 0) x.2.2.2) s2
theorem baseEpoch_out {m b : Nat} {s : State} (hout : baseIn (msMask s.modes.cur) b = false) : s.baseEpoch m b = s := by
  unfold State.baseEpoch
  extract_lets +onlyGivenNames ws x st s1 s2
  exact if_pos (by rw [hout]; rfl)

/-! ## A heading reaches its quantity (R46) -/

theorem headingUpdate_eq (b : Nat) (h : Word) (s : State) :
    (∃ v, s.headingUpdate b h = s.measured (6 + b) v fun q => q) ∨ s.headingUpdate b h = s := by
  unfold State.headingUpdate
  dsimp only
  split
  · exact Or.inl ⟨_, rfl⟩
  · exact Or.inr rfl
/-- The first heading of a quantity is its angle from north with HDG_OFS, in turn 0. -/
theorem headingUpdate_first {b : Nat} (h : Word) {s : State} (hcount : s.counting (6 + b) 5 = true) (hfed : (s.qty (6 + b)).fed = false)
    (hdir : bit (s.qty (6 + b)).cfg0 42 = false) :
    s.headingUpdate b h = s.measured (6 + b) (mkQ 0 (h + (s.qty (6 + b)).cfg1)) fun q => q := by
  unfold State.headingUpdate
  dsimp only
  rw [if_pos hcount, hfed, hdir]
  rfl
theorem exists_headingUpdate_eq (b : Nat) (h : Word) (s : State) :
    ∃ q e p f, s.headingUpdate b h = (((s.putQs q).putSch e).putPorts p).putFresh f := by
  rcases headingUpdate_eq b h s with ⟨v, hv⟩ | hv
  · obtain ⟨q, e, p, hm⟩ := exists_measured_eq (6 + b) v (fun q => q) s
    exact ⟨q, e, p, s.fresh + 1, hv.trans hm⟩
  · exact ⟨s.qs, s.sch, s.ports, s.fresh, hv.trans (by cases s; rfl)⟩
theorem headingUpdate_qty_ne {b k : Nat} (h : Word) (s : State) (hk : k < 8) (hne : k ≠ 6 + b) :
    (s.headingUpdate b h).qty k = s.qty k := by
  rcases headingUpdate_eq b h s with ⟨v, hv⟩ | hv
  · rw [hv]; exact measured_qty_ne hk hne v _ s
  · rw [hv]

/-! ## What an epoch of one baseline keeps -/

/-- Another baseline's epoch keeps what a baseline's solving reads, and the quantities but its own. -/
structure BaseKept (b : Nat) (s u : State) : Prop where
  tb    : u.tb = s.tb
  rf    : u.rf = s.rf
  kite  : u.kite = s.kite
  fc    : u.fc = s.fc
  pwr   : u.pwr = s.pwr
  kept  : u.meas.kept = s.meas.kept
  cur   : u.modes.cur = s.modes.cur
  hdg   : u.modes.lastHdg = s.modes.lastHdg
  bases : ∀ c, c ≠ b → tget {} c u.modes.bases = tget {} c s.modes.bases
  qty   : ∀ k, k < 8 → k ≠ 6 + b → u.qty k = s.qty k

/-- The baselines with the state that an epoch found of one. -/
def State.baseNoted (m b : Nat) (s : State) : State :=
  s.putModes { s.modes with bases := tput {} b (s.baseSolve m b).1 s.modes.bases }
theorem baseTaken_eq (m b : Nat) (s : State) :
    s.baseTaken m b = (s.baseNoted m b).headingUpdate b (s.baseSolve m b).2.2.2.heading ∨ s.baseTaken m b = s.baseNoted m b := by
  unfold State.baseTaken
  dsimp only
  split
  · exact Or.inl rfl
  · exact Or.inr rfl
theorem exists_baseTaken_eq (m b : Nat) (s : State) :
    ∃ q e p f, s.baseTaken m b = ((((s.baseNoted m b).putQs q).putSch e).putPorts p).putFresh f := by
  rcases baseTaken_eq m b s with h | h
  · rw [h]; exact exists_headingUpdate_eq ..
  · exact ⟨s.qs, s.sch, s.ports, s.fresh, h.trans (by cases s; rfl)⟩
theorem baseTaken_qty_ne {m b k : Nat} (s : State) (hk : k < 8) (hne : k ≠ 6 + b) : (s.baseTaken m b).qty k = s.qty k := by
  rcases baseTaken_eq m b s with h | h <;> rw [h]
  · exact headingUpdate_qty_ne _ _ hk hne
  · rfl
theorem baseTaken_kept (m b : Nat) (s : State) : BaseKept b s (s.baseTaken m b) := by
  obtain ⟨q, e, p, f, h⟩ := exists_baseTaken_eq m b s
  refine ⟨?_, ?_, ?_, ?_, ?_, ?_, ?_, ?_, fun c hc => ?_, fun k hk hne => baseTaken_qty_ne s hk hne⟩
  · rw [h]; rfl
  · rw [h]; rfl
  · rw [h]; rfl
  · rw [h]; rfl
  · rw [h]; rfl
  · rw [h]; rfl
  · rw [h]; rfl
  · rw [h]; rfl
  · rw [h]; exact tget_tput_ne _ _ _ _ _ _ hc
theorem baseEpoch_kept (m b : Nat) (s : State) : BaseKept b s (s.baseEpoch m b) := by
  cases hin : baseIn (msMask s.modes.cur) b with
  | false =>
    rw [baseEpoch_out hin]
    exact ⟨rfl, rfl, rfl, rfl, rfl, rfl, rfl, rfl, fun _ _ => rfl, fun _ _ _ => rfl⟩
  | true =>
    obtain ⟨v, hv, h⟩ := exists_baseEpoch_rest hin
    have hk := baseTaken_kept m b s
    generalize s.baseTaken m b = z at hv h hk
    have hm : (s.baseEpoch m b).modes = z.modes := (of_rest_modes h :)
    refine ⟨(of_rest_tb h :).trans hk.tb, (of_rest_rf h :).trans hk.rf, (of_rest_kite h :).trans hk.kite, (of_rest_fc h :).trans hk.fc,
      (of_rest_pwr h :).trans hk.pwr, ?_, by rw [hm]; exact hk.cur, by rw [hm]; exact hk.hdg, fun c hc => by rw [hm]; exact hk.bases c hc,
      fun k h8 hne => (qty_congr (of_rest_qs h :) k).trans (hk.qty k h8 hne)⟩
    rw [of_rest_meas h]; exact hv.trans hk.kept
/-- So another baseline is solved as before. -/
theorem baseSolve_kept {m b c : Nat} {s u : State} (h : BaseKept b s u) (hne : c ≠ b) : u.baseSolve m c = s.baseSolve m c := by
  have hview : u.baseView (tget {} c u.modes.bases) c = s.baseView (tget {} c s.modes.bases) c := by
    unfold State.baseView; rw [h.rf, h.kite, h.fc, h.kept, h.cur, h.bases c hne]
  rw [baseSolve_view, hview, ← baseSolve_view]
theorem counting_kept {b n k : Nat} {s u : State} (h : BaseKept b s u) (h8 : n < 8) (hne : n ≠ 6 + b) : u.counting n k = s.counting n k := by
  unfold State.counting State.isOn State.dom State.kind State.pinsLatched
  rw [h.pwr, h.qty n h8 hne]

/-- An epoch of a baseline of ANT_MASK: its state, and its quantity. -/
theorem baseEpoch_spec {m b : Nat} {s : State} (hb : b < 2) (hin : baseIn (msMask s.modes.cur) b = true) :
    tget {} b (s.baseEpoch m b).modes.bases = (s.baseSolve m b).1 ∧
    ((s.baseSolve m b).1.state = 2 → (s.baseSolve m b).2.2.2.sigHdg ≤ 2 ^ 14 → s.counting (6 + b) 5 = true → (s.qty (6 + b)).fed = false →
      bit (s.qty (6 + b)).cfg0 42 = false →
      ((s.baseEpoch m b).qty (6 + b)).vu = mkQ 0 ((s.baseSolve m b).2.2.2.heading + (s.qty (6 + b)).cfg1) ∧
      ((s.baseEpoch m b).qty (6 + b)).valid = true ∧ ((s.baseEpoch m b).qty (6 + b)).tu = s.tb.q0) ∧
    ((s.baseSolve m b).1.state ≠ 2 → (s.baseEpoch m b).qty (6 + b) = s.qty (6 + b)) := by
  obtain ⟨v, -, h⟩ := exists_baseEpoch_rest (m := m) hin
  have hqty : (s.baseEpoch m b).qty (6 + b) = (s.baseTaken m b).qty (6 + b) := qty_congr (of_rest_qs h :) _
  have hmodes : (s.baseEpoch m b).modes = (s.baseTaken m b).modes := (of_rest_modes h :)
  refine ⟨?_, fun hst hsig hcount hfed hdir => ?_, fun hst => ?_⟩
  · obtain ⟨q, e, p, f, ht⟩ := exists_baseTaken_eq m b s
    rw [hmodes, ht]
    exact tget_tput_same _ _ _ _
  · have ht : s.baseTaken m b = (s.baseNoted m b).headingUpdate b (s.baseSolve m b).2.2.2.heading := by
      unfold State.baseTaken
      exact if_pos ⟨hst, hsig⟩
    rw [hqty, ht, headingUpdate_first (s := s.baseNoted m b) _ hcount hfed hdir, measured_qty (by omega)]
    exact ⟨rfl, rfl, rfl⟩
  · have ht : s.baseTaken m b = s.baseNoted m b := by
      unfold State.baseTaken
      exact if_neg fun h => hst h.1
    rw [hqty, ht]; rfl

theorem execHeadingEpoch_due {t : Lapse} {s a : State} (ha : s.elapse t = a) (hmode : a.solving = 7) (hndovos : a.ndovos = true)
    (hon : a.isOn 11 = true) (hper : msOf a.tb.q0 % a.hdgMs = 0) (hnew : a.modes.lastHdg ≠ msOf a.tb.q0) :
    execHeadingEpoch t s = .next (((a.putModes { a.modes with lastHdg := msOf a.tb.q0 }).baseEpoch (msOf a.tb.q0) 0).baseEpoch (msOf a.tb.q0) 1) := by
  subst ha
  unfold execHeadingEpoch
  exact if_pos ⟨hmode, hndovos, hon, hper, hnew⟩

end Sys2Proof.Machine
end

section
/-! What the mode's events leave (O35). -/
namespace Sys2Proof.Machine
open Sys2Proof

/-- Both baselines at a heading epoch. -/
theorem headingEpoch_spec {b : Nat} {a : State} (m : Nat) (hb : b < 2) (hin : baseIn (msMask a.modes.cur) b = true) :
    let u := ((a.putModes { a.modes with lastHdg := m }).baseEpoch m 0).baseEpoch m 1
    let x := a.baseSolve m b
    tget {} b u.modes.bases = x.1 ∧ u.modes.lastHdg = m ∧ u.tb = a.tb ∧ (∀ k, k < 6 → u.qty k = a.qty k) ∧
    (x.1.state = 2 → x.2.2.2.sigHdg ≤ 2 ^ 14 → a.counting (6 + b) 5 = true → (a.qty (6 + b)).fed = false → bit (a.qty (6 + b)).cfg0 42 = false →
      (u.qty (6 + b)).vu = mkQ 0 (x.2.2.2.heading + (a.qty (6 + b)).cfg1) ∧ (u.qty (6 + b)).valid = true ∧ (u.qty (6 + b)).tu = a.tb.q0) ∧
    (x.1.state ≠ 2 → u.qty (6 + b) = a.qty (6 + b)) := by
  intro u x
  have hsolve : (a.putModes { a.modes with lastHdg := m }).baseSolve m b = x := rfl
  have hk0 := baseEpoch_kept m 0 (a.putModes { a.modes with lastHdg := m })
  have hk1 := baseEpoch_kept m 1 ((a.putModes { a.modes with lastHdg := m }).baseEpoch m 0)
  have hq : ∀ k, k < 6 → u.qty k = a.qty k := fun k hk =>
    (hk1.qty k (by omega) (by omega)).trans (hk0.qty k (by omega) (by omega))
  have hcases : b = 0 ∨ b = 1 := by omega
  rcases hcases with rfl | rfl
  · obtain ⟨hbase, hfixed, hother⟩ := baseEpoch_spec (m := m) (s := a.putModes { a.modes with lastHdg := m }) hb hin
    rw [hsolve] at hbase hfixed hother
    have hq6 := hk1.qty 6 (by omega) (by omega)
    refine ⟨(hk1.bases 0 (by omega)).trans hbase, hk1.hdg.trans hk0.hdg, hk1.tb.trans hk0.tb, hq, fun h1 h2 h3 h4 h5 => ?_, fun h1 => ?_⟩
    · have h := hfixed h1 h2 h3 h4 h5
      rw [← hq6] at h
      exact h
    · exact hq6.trans (hother h1)
  · have hsolve1 := (baseSolve_kept (m := m) (c := 1) hk0 (by decide)).trans hsolve
    have hq7 : ((a.putModes { a.modes with lastHdg := m }).baseEpoch m 0).qty 7 = a.qty 7 := hk0.qty 7 (by omega) (by omega)
    have hcount : ((a.putModes { a.modes with lastHdg := m }).baseEpoch m 0).counting 7 5 = a.counting 7 5 :=
      (counting_kept (n := 7) (k := 5) hk0 (by decide) (by decide) :)
    have hin1 : baseIn (msMask ((a.putModes { a.modes with lastHdg := m }).baseEpoch m 0).modes.cur) 1 = true := by rw [hk0.cur]; exact hin
    obtain ⟨hbase, hfixed, hother⟩ := baseEpoch_spec (m := m) hb hin1
    simp only [hsolve1, hq7, hcount, hk0.tb] at hbase hfixed hother
    exact ⟨hbase, hk1.hdg.trans hk0.hdg, hk1.tb.trans hk0.tb, hq, hfixed, hother⟩

/-- An epoch in NAVIGATE under GNSS: the loop takes a step, or a holdover and the lack of a set begin. -/
theorem navigateEpoch_spec {m k : Nat} {x : SolveIn} {own : List Own} {a : State} (hmode : a.modes.mode = 4) (hcable : a.modes.cable = false)
    (hsrc : a.tb.tsrc = 1) :
    let u := ((a.atEpoch m k x.ref10).solveEpoch m x).epochEnd m own
    let r := a.solveAll m
    Navigated m r.nsv a u ∧
    (r.sufficient = true → u.tb.loopAdj = (a.tb.steeredTo r a.clk.warmed).loopAdj ∧ u.tb.tqe = (a.tb.steeredTo r a.clk.warmed).tqe ∧
      u.tb.tqf = (a.tb.steeredTo r a.clk.warmed).tqf ∧ u.tb.tsrc = 1 ∧ u.modes.lack = none ∧ u.modes.steered = true) ∧
    (r.sufficient = false → u.tb.tsrc = 2 ∧ u.tb.hoStart = some a.tb.q0 ∧ u.tb.loopAdj = a.tb.loopAdj ∧
      u.modes.lack = some (a.modes.lack.getD a.tb.q0)) := by
  intro u r
  obtain ⟨c, hm⟩ := epochEnd_modes (m := m) (own := own) (s := (a.atEpoch m k x.ref10).solveEpoch m x)
  cases hsuff : r.sufficient with
  | true =>
    obtain ⟨hnav, hlack, hsteered, h, b, d, htb⟩ := solveEpoch_locked (m := m) (r := x) (s := a.atEpoch m k x.ref10) hmode hsuff hcable hsrc
    have hu : u.tb = { a.tb.steeredTo r a.clk.warmed with discH := h, driftBase := b, drift := d } := by
      refine (epochEnd_tb_live ?_).trans htb
      rw [htb]
      show a.tb.tsrc ≠ 2
      omega
    have hn : Navigated m r.nsv a u := ⟨hnav.epochEnd.mode, hnav.epochEnd.sol, hnav.epochEnd.nsv, hnav.epochEnd.q0, hnav.epochEnd.qs,
      hnav.epochEnd.outs, hnav.epochEnd.mem⟩
    refine ⟨hn, fun _ => ⟨by rw [hu], by rw [hu], by rw [hu], by rw [hu]; exact hsrc, ?_, ?_⟩, fun h => by cases h⟩
    · rw [hm]; exact hlack
    · rw [hm]; exact hsteered
  | false =>
    obtain ⟨hnav, hlack, htb⟩ := solveEpoch_lacking (m := m) (r := x) (s := a.atEpoch m k x.ref10) hmode hsuff
    obtain ⟨h, f, d, ht⟩ := epochEnd_tb (m := m) (own := own) (s := (a.atEpoch m k x.ref10).solveEpoch m x)
    have hu : u.tb = { a.tb.unsteered with holdAdj := h, tqeFloor := f, drift := d } := by rw [← show _ = a.tb.unsteered from htb]; exact ht
    have hn : Navigated m r.nsv a u := ⟨hnav.epochEnd.mode, hnav.epochEnd.sol, hnav.epochEnd.nsv, hnav.epochEnd.q0, hnav.epochEnd.qs,
      hnav.epochEnd.outs, hnav.epochEnd.mem⟩
    refine ⟨hn, (fun h => by cases h), fun _ => ⟨?_, ?_, ?_, ?_⟩⟩
    · rw [hu]; exact unsteered_tsrc (Or.inl hsrc)
    · rw [hu]; exact unsteered_hoStart (Or.inl hsrc)
    · rw [hu]; exact unsteered_loopAdj a.tb
    · rw [hm]; exact hlack

/-- An epoch of a search with NEXT 4: NAVIGATE with a sufficient set, else the search goes on. -/
theorem searchEpoch_spec {m k : Nat} {ref : Bool} {own : List Own} {a : State} (hmode : a.modes.mode = 2 ∨ a.modes.mode = 3)
    (hdone : a.modes.done = false) (hnext : msNext a.modes.cur = 4) :
    let u := (if (a.solveAll m).sufficient then (a.atEpoch m k ref).searchDone m else a.atEpoch m k ref).epochEnd m own
    u.modes.lastSol = m ∧ u.tb.q0 = a.tb.q0 ∧
    ((a.solveAll m).sufficient = true → u.modes.mode = 4 ∧ u.modes.origin = 0 ∧ u.modes.jsn = 0 ∧ u.modes.enter = qOfMs m) ∧
    ((a.solveAll m).sufficient = false → u.modes.mode = a.modes.mode ∧ u.modes.done = false ∧ u.modes.enter = a.modes.enter) := by
  intro u
  cases hsuff : (a.solveAll m).sufficient with
  | true =>
    have hu : u = (((a.atEpoch m k ref).putModes { (a.atEpoch m k ref).modes with done := true }).enterMode (qOfMs m) 4 0
        (nextWords a.modes.cur 4) 1 0 a.modes.who).epochEnd m own := by
      show State.epochEnd m own (if (a.solveAll m).sufficient then _ else _) = _
      rw [if_pos hsuff, searchDone_navigate (s := a.atEpoch m k ref) hnext hdone]
      rfl
    obtain ⟨⟨clk, held, rs, hem⟩, het⟩ := enterMode_spec (qOfMs m) 4 0 (nextWords a.modes.cur 4) 1 0 a.modes.who
      ((a.atEpoch m k ref).putModes { (a.atEpoch m k ref).modes with done := true })
      (by show a.modes.mode ≠ 10; omega)
    generalize ((a.atEpoch m k ref).putModes { (a.atEpoch m k ref).modes with done := true }).enterMode (qOfMs m) 4 0
      (nextWords a.modes.cur 4) 1 0 a.modes.who = z at hu hem het
    obtain ⟨c, hm⟩ := epochEnd_modes (m := m) (own := own) (s := z)
    obtain ⟨h, f, d, ht⟩ := epochEnd_tb (m := m) (own := own) (s := z)
    rw [← hu, hem] at hm
    rw [← hu, het] at ht
    refine ⟨by rw [hm]; rfl, by rw [ht]; rfl, fun _ => ⟨by rw [hm]; rfl, by rw [hm]; rfl, by rw [hm]; rfl, by rw [hm]; rfl⟩, fun h => by cases h⟩
  | false =>
    have hu : u = (a.atEpoch m k ref).epochEnd m own := by
      show State.epochEnd m own (if (a.solveAll m).sufficient then _ else _) = _
      rw [if_neg (by rw [hsuff]; decide)]
    obtain ⟨c, hm⟩ := epochEnd_modes (m := m) (own := own) (s := a.atEpoch m k ref)
    obtain ⟨h, f, d, ht⟩ := epochEnd_tb (m := m) (own := own) (s := a.atEpoch m k ref)
    rw [← hu] at hm ht
    refine ⟨by rw [hm]; rfl, by rw [ht]; rfl, (fun h => by cases h), fun _ => ⟨by rw [hm]; rfl, by rw [hm]; exact hdone, by rw [hm]; rfl⟩⟩

/-- A holdover entered from a mode that steers. -/
theorem holdoverEntered_spec {m k : Nat} {a : State} (hmode : a.modes.mode = 4 ∨ a.modes.mode = 6 ∨ a.modes.mode = 7 ∨ a.modes.mode = 9) :
    let u := (a.putModes { a.modes with lastMs := k }).enterMode (qOfMs m) 8 a.modes.mode a.modes.cur (if a.modes.mode = 9 then 5 else 3) 0 a.modes.who
    u.modes.mode = 8 ∧ u.modes.origin = a.modes.mode ∧ u.modes.cur = a.modes.cur ∧ u.modes.enter = qOfMs m ∧ u.modes.lack = none ∧
    u.modes.jsn = a.modes.jsn ∧ (a.tb.tsrc = 1 ∨ a.tb.tsrc = 3 ∨ a.tb.tsrc = 4 → u.tb.tsrc = 2) ∧ u.tb.q0 = a.tb.q0 := by
  intro u
  obtain ⟨⟨clk, held, rs, hm⟩, ht⟩ := enterMode_spec (qOfMs m) 8 a.modes.mode a.modes.cur (if a.modes.mode = 9 then 5 else 3) 0 a.modes.who
    (a.putModes { a.modes with lastMs := k }) (by show a.modes.mode ≠ 10; omega)
  have htb : u.tb = a.tb.unsteered := ht
  have hcause : 3 ≤ (if a.modes.mode = 9 then 5 else 3) ∧ (if a.modes.mode = 9 then 5 else 3) ≤ 6 := by split <;> omega
  have hjsn : u.modes.jsn = a.modes.jsn := (congrArg ModeBlk.jsn hm).trans (if_pos hcause)
  refine ⟨(congrArg ModeBlk.mode hm :), (congrArg ModeBlk.origin hm :), (congrArg ModeBlk.cur hm :), (congrArg ModeBlk.enter hm :),
    (congrArg ModeBlk.lack hm :), hjsn, fun h => ?_, ?_⟩
  · rw [htb]; exact unsteered_tsrc h
  · rw [htb]; exact unsteered_q0 a.tb

/-- The mode that a holdover returns to, and Tether time under its truth. -/
theorem returned_spec {m k : Nat} {a : State} (hmode : a.modes.mode = 8)
    (horigin : a.modes.origin = 4 ∨ a.modes.origin = 6 ∨ a.modes.origin = 7 ∨ a.modes.origin = 9) (hsrc : a.tb.tsrc = 2)
    (hstep : a.tb.step = none) (hpermit : a.tb.permit = 0) (hnext : a.tb.permitNext = none) (he : a.modes.offset.natAbs < 1000) :
    let u := (a.putModes { a.modes with lastMs := k }).returns m
    u.modes.mode = a.modes.origin ∧ u.modes.origin = 0 ∧ u.modes.cur = a.modes.cur ∧ u.modes.steered = true ∧ u.modes.enter = qOfMs m ∧
    u.tb.tsrc = (if a.modes.origin = 9 then 3 else 1) ∧ u.tb.hoStart = none ∧ u.tb.slew = none ∧ u.tb.q0 = a.tb.q0 := by
  intro u
  obtain ⟨⟨clk, held, rs, hm⟩, ht⟩ := returns_spec (m := m) (s := a.putModes { a.modes with lastMs := k }) hmode horigin hstep hpermit hnext he
  have htb : u.tb = a.tb.recovered a.modes.offset (if a.modes.origin = 9 then 3 else 1) a.modes.sigma := ht
  have hafter : (if a.modes.origin = 9 then 3 else 1) ≠ 2 := by split <;> omega
  rw [htb]
  exact ⟨(congrArg ModeBlk.mode hm :), (congrArg ModeBlk.origin hm :), (congrArg ModeBlk.cur hm :), (congrArg ModeBlk.steered hm :),
    (congrArg ModeBlk.enter hm :), recovered_spec hafter hsrc⟩

/-- What Ndovos asks for at a wake changes no more than its channels and jobs. -/
theorem woken_spec (own : List Own) (a : State) :
    let b := { a.modes with phase := 1, wakeAt := a.tb.q0 }
    let u := (a.putModes b).doOwns own
    u.modes = b ∧ u.tb = a.tb ∧ u.qs = a.qs ∧ u.outs = a.outs ∧ u.rtc = a.rtc ∧ u.mem = a.mem := by
  intro b u
  have h := doOwns_calm own (a.putModes b)
  exact ⟨(of_calm_modes h :), (of_calm_tb h :), (of_calm_qs h :), (of_calm_outs h :), (of_calm_rtc h :), (of_calm_mem h :)⟩

/-- A fix that ends. -/
theorem fixEnded_spec {a : State} (hmode : a.modes.mode = 10) :
    let u := a.sleep.onModes fun b => { b with misses := 0 }
    u.modes.phase = 0 ∧ u.modes.misses = 0 ∧ u.modes.mode = 10 ∧ (a.tb.tsrc = 1 ∨ a.tb.tsrc = 3 ∨ a.tb.tsrc = 4 → u.tb.tsrc = 2) ∧
    u.rtc.keep.nav = some a.meas.kept ∧ u.rtc.keep.posvel = some a.modes.fixes ∧ u.tb.q0 = a.tb.q0 := by
  obtain ⟨hm, hq, ht, hnav, hpos⟩ := sleep_spec a
  generalize a.sleep = z at hm hq ht hnav hpos ⊢
  intro u
  have hum : u.modes = { z.modes with misses := 0 } := rfl
  rw [hum, hm]
  exact ⟨rfl, rfl, hmode, ht, hnav, hpos, hq⟩

/-- A cycle without a fix. -/
theorem missed_spec {a : State} (ws : List Word) (hmode : a.modes.mode = 10) :
    let u := (a.sleep.onModes fun b => { b with misses := b.misses + 1 }).raiseAll false 0x503 ws
    u.modes.phase = 0 ∧ u.modes.misses = a.modes.misses + 1 ∧ u.modes.mode = 10 ∧ u.tb.q0 = a.tb.q0 := by
  obtain ⟨hm, hq, -⟩ := sleep_spec a
  generalize a.sleep = z at hm hq ⊢
  intro u
  have hum : u.modes = { z.modes with misses := z.modes.misses + 1 } :=
    (raiseAll_modes false 0x503 ws (z.onModes fun b => { b with misses := b.misses + 1 }) :)
  have hut : u.tb = z.tb := (raiseAll_tb false 0x503 ws (z.onModes fun b => { b with misses := b.misses + 1 }) :)
  rw [hum, hut, hm]
  exact ⟨rfl, rfl, hmode, hq⟩

/-- Settles O35: each event by what its command does where its conditions hold. -/
theorem modeEvents : Obligations.ModeEvents := by
  refine ⟨fun t x own s => ⟨?_, ?_⟩, ?_, ?_, ?_, fun t own s => ⟨?_, ?_, ?_⟩⟩
  · intro hepoch hnew hndovos hon hidle hmode hcable hsrc
    obtain ⟨k, h⟩ := execSolutionEpoch_navigate (x := x) (own := own) rfl rfl hepoch hnew hndovos hon hidle hmode
    obtain ⟨hn, hlocked, hlacking⟩ := navigateEpoch_spec (m := msOf (s.elapse t).tb.q0) (k := k) (x := x) (own := own) hmode hcable hsrc
    exact ⟨_, h, hn.mode, hn.sol, hn.nsv, hn.q0, hn.qs, hn.outs, hn.mem, hlocked, hlacking⟩
  · intro hepoch hnew hndovos hon hidle hmode hdone hnext
    obtain ⟨k, h⟩ := execSolutionEpoch_search (x := x) (own := own) rfl rfl hepoch hnew hndovos hon hidle hmode
    exact ⟨_, h, searchEpoch_spec hmode hdone hnext⟩
  · intro t s q a m hlack htick hidle hmode hsteered hdelay
    obtain ⟨k, h⟩ := execSignalLoss_lost (s := s) rfl rfl hlack htick hidle hmode hsteered hdelay
    exact ⟨_, h, holdoverEntered_spec hmode⟩
  · intro t s q a m hpresent htick hidle hmode horigin hdelay hsrc hstep hpermit hnext he
    obtain ⟨k, hk⟩ := modeTick_idle hidle
    have h := execSignalReturn_eq (s := s) (t := t) rfl rfl hk hpresent htick hmode (show a.modes.origin ≠ 0 by omega) hdelay hsrc
    exact ⟨_, h, returned_spec hmode horigin hsrc hstep hpermit hnext he⟩
  · intro t b s a m n x hmode hndovos hon hper hnew hb hin
    exact ⟨_, execHeadingEpoch_due rfl hmode hndovos hon hper hnew, headingEpoch_spec m hb hin⟩
  · intro hmode hphase hsec hper
    exact ⟨_, execSnapshotWake_due rfl hmode hphase hsec hper, woken_spec own _⟩
  · intro hmode hphase hup hend
    exact ⟨_, execFixEnd_over rfl hmode hphase hup hend, fixEnded_spec hmode⟩
  · intro hmode hphase hlong
    obtain ⟨ws, h⟩ := execSnapshotMiss_over (s := s) rfl hmode hphase hlong
    exact ⟨_, h, missed_spec ws hmode⟩

end Sys2Proof.Machine
end

section
/-! Antennas, oscillators and blanking (R65-R68, R74, R80): bias trips and retries, opens, unlocks, failed front-ends and heavy blanking (O37). -/
namespace Sys2Proof.Machine
open Sys2Proof

/-! ## Antennas and streams -/

theorem ant_congr {a b : State} (h : a.rf = b.rf) (x : Nat) : a.ant x = b.ant x := by unfold State.ant; rw [h]
theorem strm_congr {a b : State} (h : a.rf = b.rf) (st : Nat) : a.strm st = b.strm st := by unfold State.strm; rw [h]
@[simp] theorem ant_setAnt (s : State) (x : Nat) (v : Ant) : (s.setAnt x v).ant x = v := by
  simp [State.ant, State.setAnt]
@[simp] theorem strm_setStrm (s : State) (st : Nat) (v : Strm) : (s.setStrm st v).strm st = v := by
  simp [State.strm, State.setStrm]
theorem strm_setStrm_ne {m st : Nat} (s : State) (v : Strm) (h : m ≠ st) : (s.setStrm st v).strm m = s.strm m := by
  simp [State.strm, State.setStrm, h]
@[simp] theorem ant_rfLatch (i : Nat) (s : State) (x : Nat) : (s.rfLatch i).ant x = s.ant x := rfl
@[simp] theorem strm_rfLatch (i : Nat) (s : State) (st : Nat) : (s.rfLatch i).strm st = s.strm st := rfl
theorem exists_breakInput_eq (y : Nat) (s : State) : ∃ l, s.breakInput y = s.putRf { s.rf with strs := l } := by
  refine foldl_inv (fun u => ∃ l, u = s.putRf { s.rf with strs := l }) _ (fun u b hu => ?_) _ s ⟨s.rf.strs, rfl⟩
  obtain ⟨l, rfl⟩ := hu
  exact ⟨_, rfl⟩
@[simp] theorem strm_restartBaseline (x : Nat) (s : State) (st : Nat) : (s.restartBaseline x).strm st = s.strm st := rfl
theorem breakInput_fault (y : Nat) (s : State) : (s.breakInput y).rf.fault = s.rf.fault := by
  obtain ⟨l, h⟩ := exists_breakInput_eq y s
  rw [h]; rfl
theorem putRf_putRf (s : State) (r q : Rf) : (s.putRf r).putRf q = s.putRf q := rfl
theorem setAnt_putRf (s : State) (x : Nat) (v : Ant) (r : Rf) : (s.setAnt x v).putRf r = s.putRf r := rfl
/-- A tripped antenna leaves every field but the RF block. -/
theorem exists_trip_eq (a : State) (x : Nat) (v : Ant) (y i : Nat) : ∃ r, ((a.setAnt x v).breakInput y).rfLatch i = a.putRf r := by
  obtain ⟨l, h⟩ := exists_breakInput_eq y (a.setAnt x v)
  rw [h, setAnt_putRf]
  exact ⟨_, putRf_putRf ..⟩
@[simp] theorem ant_breakInput (y : Nat) (s : State) (x : Nat) : (s.breakInput y).ant x = s.ant x := by
  obtain ⟨l, h⟩ := exists_breakInput_eq y s
  rw [h]; rfl

theorem biasOn_of_antState {s : State} {x n : Nat} (h : s.antState x = n) (hn : n ≠ 0) : s.biasOn x = true := by
  by_contra hoff
  exact hn (h.symm.trans (if_neg hoff))
/-- A state that reads other than OFF and OK is the stored one. -/
theorem state_of_antState {s : State} {x n : Nat} (h : s.antState x = n) (hn : 1 < n) : (s.ant x).state = n := by
  unfold State.antState at h
  rw [if_pos (biasOn_of_antState h (by omega))] at h
  split at h <;> omega

/-- A stream whose oscillator is unlocked shows NO_INPUT (R65, R75). -/
theorem noInput_of_unlocked {s : State} {st : Nat} (h : (s.strm st).locked = false) : s.noInput st = true := by
  unfold State.noInput; simp [h]

/-! ## A change of the front-ends that is reported -/

/-- A first report of a cause reaches every partner, and leaves the RF block as it found it. -/
theorem raiseLimited_reports {a b : State} (hb : ∃ r, b = a.putRf r) (fault : Bool) (cause inst : Nat) (args : List Word)
    (hfirst : tget none (cause * 65536 + inst) a.raised = none) :
    Told a (b.raiseLimited fault cause inst args) ∧
      (b.raiseLimited fault cause inst args).rest = (a.putRf (b.raiseLimited fault cause inst args).rf).rest := by
  obtain ⟨r, rfl⟩ := hb
  exact ⟨raiseLimited_told (by rfl) (by rfl) fault cause inst args hfirst, by rw [raiseLimited_rest, raiseLimited_rf]; rfl⟩

/-! ## Bias trips, opens and retries (R66-R68) -/

section
variable {t : Lapse} {s a : State} {x ma : Nat} (ha : s.elapse t = a) (hx : x < 4)
include ha hx

theorem execAntShort_trips (hon : a.biasOn x = true) (hst : a.antState x = 1 ∨ a.antState x = 2) :
    execAntShort t x s = .next ((((a.setAnt x { a.ant x with
      retries := min 15 ((a.ant x).retries + 1)
      state := if fld (a.ant x).cfg 40 37 ≠ 0 ∧ fld (a.ant x).cfg 40 37 ≤ min 15 ((a.ant x).retries + 1) then 4 else 3
      tripClk := a.tb.clk, ma := 0 }).breakInput x).rfLatch (4 * x)).raiseLimited true 0x201 x [word x, word (min 15 ((a.ant x).retries + 1))]) := by
  unfold execAntShort
  rw [ha]; dsimp only
  exact if_pos ⟨hx, hon, hst⟩
theorem execBiasRetry_due (hst : a.antState x = 3) (hretry : bit (a.ant x).cfg 41 = true) (hclk : (a.ant x).tripClk + 654720000 ≤ a.tb.clk) :
    execBiasRetry t x s = .next ((a.setAnt x { a.ant x with state := 1, biasClk := a.tb.clk, aboveClk := none, belowClk := none }).raiseLimited true 0x203 x [word x]) := by
  have hrebias : a.rebias x = (a.setAnt x { a.ant x with state := 1, biasClk := a.tb.clk, aboveClk := none, belowClk := none }).raiseLimited true 0x203 x [word x] :=
    if_pos (.inl (state_of_antState hst (by omega)))
  unfold execBiasRetry
  rw [ha, ← hrebias]; dsimp only
  exact if_pos ⟨hx, hst, hretry, hclk⟩
theorem execRetriesClear_due (hon : a.biasOn x = true) (hst : a.antState x = 1 ∨ a.antState x = 2) (hclk : (a.ant x).biasClk + 6547200000 ≤ a.tb.clk) :
    execRetriesClear t x s = .next (a.setAnt x { a.ant x with retries := 0 }) := by
  unfold execRetriesClear
  rw [ha]; dsimp only
  exact if_pos ⟨hx, hon, hst, hclk⟩
theorem execAntOpen_due (hst : a.antState x = 1) (hma : ma < (a.ant x).openMa) (hclk : (a.ant x).biasClk + 654720000 ≤ a.tb.clk)
    (hago : longAgo (a.ant x).aboveClk 654720000 a.tb.clk = true) :
    execAntOpen t x ma s = .next (((a.setAnt x { a.ant x with state := 2, ma := satN 8 ma, belowClk := some a.tb.clk }).rfLatch (4 * x + 1)).raiseLimited true 0x202 x [word x]) := by
  have hbelow : (a.ant x).measure ma a.tb.clk = { a.ant x with ma := satN 8 ma, belowClk := some a.tb.clk } := if_pos hma
  unfold execAntOpen
  rw [ha]; dsimp only
  rw [if_pos ⟨hx, hst, hma, hclk, hago⟩, hbelow]
theorem execAntOk_due (hst : a.antState x = 2) (hma : (a.ant x).openMa ≤ ma) (hago : longAgo (a.ant x).belowClk 65472000 a.tb.clk = true) :
    execAntOk t x ma s = .next ((a.setAnt x { a.ant x with state := 1, ma := satN 8 ma, aboveClk := some a.tb.clk }).raiseLimited true 0x203 x [word x]) := by
  have habove : (a.ant x).measure ma a.tb.clk = { a.ant x with ma := satN 8 ma, aboveClk := some a.tb.clk } := if_neg (by omega)
  unfold execAntOk
  rw [ha]; dsimp only
  rw [if_pos ⟨hx, hst, hma, hago⟩, habove]

/-! ## Failed front-ends (R80) -/

theorem execFrontEndFailed_due (hnew : a.fc.front.testBit x = false) (hwhy : a.antState x = 4 ∨ a.loLost x = true) :
    execFrontEndFailed t x s = .next (((a.putFc { a.fc with front := setBit a.fc.front x }).partFailed 0x015 x).stopHeading x) := by
  unfold execFrontEndFailed
  rw [ha]; dsimp only
  exact if_pos ⟨hx, by rw [hnew]; rfl, hwhy⟩
end

/-- A baseline's quantity with VALID is held without it; no other field changes. -/
theorem stopHeading_frame (x : Nat) (s : State) : s.stopHeading x = s.putQs (s.stopHeading x).qs := by
  unfold State.stopHeading; dsimp only; split
  · exact follow_frame ..
  · rfl
theorem stopHeading_invalid {x : Nat} {s : State} (h : (s.qty (6 + x / 2)).valid = false) : s.stopHeading x = s :=
  if_neg fun hc => by rw [h] at hc; exact absurd hc.2 (by decide)
/-- It has lost VALID, whether or not it had it. -/
theorem stopHeading_valid {x : Nat} {s : State} (hx : x < 4) (hkind : kindOf (s.qty (6 + x / 2)).cfg0 = 5) :
    ((s.stopHeading x).qty (6 + x / 2)).valid = false := by
  cases hv : (s.qty (6 + x / 2)).valid with
  | false => rw [stopHeading_invalid hv, hv]
  | true =>
    have hheld : s.stopHeading x = s.holdInvalid (6 + x / 2) := if_pos ⟨hkind, hv⟩
    rw [hheld]
    unfold State.holdInvalid
    rw [follow_qty_low _ _ _ (by omega), qty_setQty]
    unfold Qty.invalid; split
    · rfl
    · next h => exact Bool.eq_false_iff.mpr h

/-! ## Oscillators and heavy blanking (R65, R74) -/

section
variable {t : Lapse} {s a : State} {st frac : Nat} (ha : s.elapse t = a) (hst : st < 12) (hon : a.isOn 8 = true)
include ha hst hon

theorem execLoUnlock_due (hlocked : (a.strm st).locked = true) :
    execLoUnlock t st s = .next (((a.setStrm st { a.strm st with locked := false, lostClk := some a.tb.clk, gap := true }).rfLatch (4 * (st / 3) + 2)).raiseLimited true 0x204 st [word st]) := by
  unfold execLoUnlock
  rw [ha]; dsimp only
  exact if_pos ⟨hst, hon, hlocked⟩
/-- A relock leaves a front-end that has not failed as it is. -/
theorem execLoRelocked_due (hlost : (a.strm st).locked = false) (hfront : a.fc.front.testBit (st / 3) = false) :
    execLoRelocked t st s = .next ((((a.setStrm st { a.strm st with locked := true, lostClk := none }).rfLatch (4 * (st / 3) + 3)).restartBaseline (st / 3)).raiseLimited true 0x205 st [word st]) := by
  have hcheck : ∀ u : State, u.fc = a.fc → u.frontCheck (st / 3) = u := fun u hu =>
    if_neg (by rw [hu, hfront]; simp)
  unfold execLoRelocked
  rw [ha]; dsimp only
  rw [if_pos ⟨hst, hon, by rw [hlost]; rfl⟩]
  exact congrArg Host.Outcome.next (hcheck _ (by simp [State.restartBaseline, State.rfLatch, State.setStrm]))
theorem execBlankHeavy_due (hfrac : fld (a.strm st).blank 26 18 < satN 9 frac) (hnew : (a.strm st).heavy = false) :
    execBlankHeavy t st frac s = .next ((a.setStrm st { a.strm st with frac := satN 9 frac, heavy := true, lowClk := none }).raiseLimited true 0x206 st [word st, word (satN 9 frac)]) := by
  have hfound : a.fracFound st frac = (a.setStrm st { a.strm st with frac := satN 9 frac, heavy := true, lowClk := none }).raiseLimited true 0x206 st [word st, word (satN 9 frac)] :=
    (if_pos hfrac).trans (if_neg (by simp [hnew]))
  unfold execBlankHeavy
  rw [ha, ← hfound]; dsimp only
  exact if_pos ⟨hst, hon, hfrac, by rw [hnew]; rfl⟩
theorem execBlankHeavyClear_due (hfrac : satN 9 frac ≤ fld (a.strm st).blank 26 18) (hheavy : (a.strm st).heavy = true)
    (hlow : (a.strm st).lowClk.any (fun c => decide (c + 65472000 ≤ a.tb.clk)) = true) :
    execBlankHeavyClear t st frac s = .next (a.setStrm st { a.strm st with frac := satN 9 frac, heavy := false }) := by
  unfold execBlankHeavyClear
  rw [ha]; dsimp only
  exact if_pos ⟨hst, hon, hfrac, hheavy, hlow⟩
end

/-- Settles O37: each event by what its command does where its conditions hold. -/
theorem antennaFaults : Obligations.AntennaFaults := by
  refine ⟨fun t x s => ?_, fun t x ma s => ?_, fun t st s => ?_, fun t x s => ?_, fun t st frac s => ?_⟩ <;> generalize ha : s.elapse t = a
  · refine ⟨?_, ?_, ?_⟩
    · intro hx hon hst hfirst
      refine ⟨_, execAntShort_trips ha hx hon hst,
        (ant_congr (raiseLimited_rf ..) x).trans ((ant_rfLatch ..).trans ((ant_breakInput ..).trans (ant_setAnt ..))),
        (congrArg Rf.fault (raiseLimited_rf ..)).trans ?_, raiseLimited_reports ?_ _ _ _ _ hfirst⟩
      · exact congrArg (setBit · (4 * x)) (breakInput_fault ..)
      · exact exists_trip_eq ..
    · intro hx hst hretry hclk hfirst
      exact ⟨_, execBiasRetry_due ha hx hst hretry hclk, (ant_congr (raiseLimited_rf ..) x).trans (ant_setAnt ..), raiseLimited_reports ⟨_, rfl⟩ _ _ _ _ hfirst⟩
    · intro hx hon hst hclk
      exact ⟨_, execRetriesClear_due ha hx hon hst hclk, ant_setAnt .., rfl⟩
  · refine ⟨?_, ?_⟩
    · intro hx hst hma hclk hago hfirst
      exact ⟨_, execAntOpen_due ha hx hst hma hclk hago, (ant_congr (raiseLimited_rf ..) x).trans ((ant_rfLatch ..).trans (ant_setAnt ..)),
        congrArg Rf.fault (raiseLimited_rf ..), raiseLimited_reports ⟨_, rfl⟩ _ _ _ _ hfirst⟩
    · intro hx hst hma hago hfirst
      exact ⟨_, execAntOk_due ha hx hst hma hago, (ant_congr (raiseLimited_rf ..) x).trans (ant_setAnt ..), raiseLimited_reports ⟨_, rfl⟩ _ _ _ _ hfirst⟩
  · refine ⟨?_, ?_⟩
    · intro hst hon hlocked hfirst
      refine ⟨_, execLoUnlock_due ha hst hon hlocked, (strm_congr (raiseLimited_rf ..) st).trans ((strm_rfLatch ..).trans (strm_setStrm ..)),
        noInput_of_unlocked ?_, congrArg Rf.fault (raiseLimited_rf ..), raiseLimited_reports ⟨_, rfl⟩ _ _ _ _ hfirst⟩
      rw [strm_congr (raiseLimited_rf ..), strm_rfLatch, strm_setStrm]
    · intro hst hon hlost hfront hfirst
      obtain ⟨htold, hrest⟩ := raiseLimited_reports (a := a.restartBaseline (st / 3))
        (b := ((a.setStrm st { a.strm st with locked := true, lostClk := none }).rfLatch (4 * (st / 3) + 3)).restartBaseline (st / 3))
        ⟨_, rfl⟩ true 0x205 st [word st] hfirst
      refine ⟨_, execLoRelocked_due ha hst hon hlost hfront, ?_, congrArg Rf.fault (raiseLimited_rf ..), ?_, htold, ?_⟩
      · rw [strm_congr (raiseLimited_rf ..), strm_restartBaseline, strm_rfLatch, strm_setStrm]
      · rw [raiseLimited_modes, show st / 6 = st / 3 / 2 by omega]
        exact tget_tput_same {} (st / 3 / 2) {} a.modes.bases
      · rw [hrest, raiseLimited_modes]; rfl
  · intro a' hx hnew hwhy
    refine ⟨_, execFrontEndFailed_due ha hx hnew hwhy, ?_⟩
    have hfailed : ((a.putFc { a.fc with front := setBit a.fc.front x }).partFailed 0x015 x).rest
        = (a.putFc { a.fc with front := setBit a.fc.front x }).rest := partFailed_rest ..
    have htold : Told a ((a.putFc { a.fc with front := setBit a.fc.front x }).partFailed 0x015 x) := partFailed_told (by rfl) (by rfl) _ _
    generalize (a.putFc { a.fc with front := setBit a.fc.front x }).partFailed 0x015 x = b at hfailed htold ⊢
    have hq : ∀ n, b.qty n = a.qty n := fun n => qty_congr (of_rest_qs hfailed) n
    rw [← hq]
    refine ⟨?_, ?_, fun hv => ?_, fun hk => stopHeading_valid hx hk, ?_, ?_, ?_⟩
    · rw [stopHeading_frame]; exact of_rest_fc hfailed
    · rw [stopHeading_frame]; exact (of_rest_rf hfailed :)
    · rw [stopHeading_invalid hv]; exact (of_rest_qs hfailed :)
    · rw [stopHeading_frame]; exact htold
    · rw [stopHeading_frame]; exact (of_rest_tb hfailed :)
    · rw [stopHeading_frame]; exact (of_rest_outs hfailed :)
  · refine ⟨?_, ?_⟩
    · intro hst hon hfrac hnew hfirst
      exact ⟨_, execBlankHeavy_due ha hst hon hfrac hnew, (strm_congr (raiseLimited_rf ..) st).trans (strm_setStrm ..), raiseLimited_reports ⟨_, rfl⟩ _ _ _ _ hfirst⟩
    · intro hst hon hfrac hheavy hlow
      exact ⟨_, execBlankHeavyClear_due ha hst hon hfrac hheavy hlow, strm_setStrm .., rfl⟩

end Sys2Proof.Machine
end

section
/-! A block boundary (R63, R72, R75, R78): the block that ends, the writes that take effect, and Gale's captures (O38). -/
namespace Sys2Proof.Machine
open Sys2Proof

/-! ## What the steps of a boundary leave alone -/

/-- A fold one of whose steps establishes a property that every step keeps. -/
theorem foldl_reaches {α β : Type} (P : α → Prop) (f : α → β → α) {b : β} (hb : ∀ a, P (f a b)) (hkeep : ∀ a c, P a → P (f a c))
    {l : List β} (hmem : b ∈ l) (a : α) : P (l.foldl f a) := by
  induction l generalizing a with
  | nil => cases hmem
  | cons c l ih =>
    rw [List.foldl_cons]
    rcases List.mem_cons.mp hmem with rfl | h
    · exact foldl_inv P f hkeep l _ (hb a)
    · exact ih h _

/-- The state without the command unit's fields, Gale, memory and the count of free values. -/
def State.offGale (s : State) : State := { s.rest with gale := {}, mem := {}, fresh := 0 }
/-- That without the RF block and the failed parts as well. -/
def State.offRf (s : State) : State := { s.offGale with rf := {}, fc := {} }
/-- What is left of the state while streams change: all but their own data, of which `w` shows what is left of stream `m`'s. -/
def State.through {γ : Type} (w : Strm → γ) (m : Nat) (s : State) : State × Rf × γ :=
  (s.offRf, { s.rf with strs := [] }, w (s.strm m))
/-- What is left while waiting writes take effect: the queue of writes and stream `m`'s latest block. -/
def State.past (m : Nat) (s : State) : State × List (Nat × Word) × List (BitVec 8) := (s.offRf, s.rf.waits, (s.strm m).blk)

theorem offGale_of_rest {a b : State} (h : a.rest = b.rest) : a.offGale = b.offGale :=
  congrArg (fun s : State => { s with gale := {}, mem := {}, fresh := 0 }) h
theorem rf_of_offGale {a b : State} (h : a.offGale = b.offGale) : a.rf = b.rf :=
  show a.offGale.rf = b.offGale.rf from congrArg State.rf h
theorem offRf_of_offGale {a b : State} (h : a.offGale = b.offGale) : a.offRf = b.offRf :=
  congrArg (fun s : State => { s with rf := {}, fc := {} }) h
theorem of_offRf_tb {a b : State} (h : a.offRf = b.offRf) : a.tb = b.tb := show a.offRf.tb = b.offRf.tb from congrArg State.tb h
theorem of_offRf_qs {a b : State} (h : a.offRf = b.offRf) : a.qs = b.qs := show a.offRf.qs = b.offRf.qs from congrArg State.qs h
theorem of_offRf_outs {a b : State} (h : a.offRf = b.offRf) : a.outs = b.outs := show a.offRf.outs = b.offRf.outs from congrArg State.outs h
theorem of_offRf_clk {a b : State} (h : a.offRf = b.offRf) : a.clk = b.clk := show a.offRf.clk = b.offRf.clk from congrArg State.clk h
theorem of_offRf_kite {a b : State} (h : a.offRf = b.offRf) : a.kite = b.kite := show a.offRf.kite = b.offRf.kite from congrArg State.kite h
theorem of_offRf_pwr {a b : State} (h : a.offRf = b.offRf) : a.pwr = b.pwr := show a.offRf.pwr = b.offRf.pwr from congrArg State.pwr h

section
variable {γ : Type} {w : Strm → γ} {m : Nat}

theorem through_of_offGale {a b : State} (h : a.offGale = b.offGale) : a.through w m = b.through w m := by
  unfold State.through
  rw [offRf_of_offGale h, rf_of_offGale h, strm_congr (rf_of_offGale h)]
theorem through_of_rest {a b : State} (h : a.rest = b.rest) : a.through w m = b.through w m :=
  through_of_offGale (offGale_of_rest h)
theorem offRf_of_through {a b : State} (h : a.through w m = b.through w m) : a.offRf = b.offRf := congrArg Prod.fst h
theorem rf_of_through {a b : State} (h : a.through w m = b.through w m) : { a.rf with strs := [] } = { b.rf with strs := [] } :=
  congrArg (fun x : State × Rf × γ => x.2.1) h
theorem strm_of_through {a b : State} (h : a.through w m = b.through w m) : w (a.strm m) = w (b.strm m) :=
  congrArg (fun x : State × Rf × γ => x.2.2) h
theorem past_of_rest {a b : State} (h : a.rest = b.rest) : a.past m = b.past m := by
  unfold State.past
  rw [offRf_of_offGale (offGale_of_rest h), of_rest_rf h, strm_congr (of_rest_rf h)]
theorem past_of_through {a b : State} (h : a.through Strm.blk m = b.through Strm.blk m) : a.past m = b.past m :=
  congrArg (fun x : State × Rf × List (BitVec 8) => (x.1, x.2.1.waits, x.2.2)) h

/-- A stream replaced shows the same where it is another one, or where `w` sees no change. -/
theorem setStrm_through (s : State) (st : Nat) (v : Strm) (h : st = m → w v = w (s.strm st)) :
    (s.setStrm st v).through w m = s.through w m := by
  refine congrArg (fun x => (s.offRf, { s.rf with strs := [] }, x)) ?_
  by_cases hm : m = st
  · rw [hm, strm_setStrm, h hm.symm]
  · rw [strm_setStrm_ne _ _ hm]
end

/-! ## The block that ends (R61-R75) -/

/-- `w` shows nothing of a stream but its lock and its gain setting. -/
def SeesSettings {γ : Type} (w : Strm → γ) : Prop := ∀ x y : Strm, x.locked = y.locked → x.agc = y.agc → w x = w y
/-- The lock and the gain setting of a stream. -/
def Strm.settings (x : Strm) : Bool × Word := (x.locked, x.agc)
theorem seesSettings_settings : SeesSettings Strm.settings := fun _ _ hl ha => Prod.ext hl ha

theorem noInput_of_settings {a b : State} {m : Nat} (h : a.through Strm.settings m = b.through Strm.settings m) :
    a.noInput m = b.noInput m := by
  have hants : a.rf.ants = b.rf.ants := (congrArg Rf.ants (rf_of_through h) :)
  have hlocked : (a.strm m).locked = (b.strm m).locked := congrArg Prod.fst (strm_of_through h)
  unfold State.noInput State.antState State.biasOn State.isOn State.dom State.ant
  rw [hants, of_offRf_pwr (offRf_of_through h), hlocked]

section
variable {γ : Type} {w : Strm → γ} {m : Nat}

/-- A blanked fraction found leaves the settings, and the other streams. -/
theorem fracFound_through {st : Nat} (frac : Nat) (s : State) (hw : st = m → SeesSettings w) :
    (s.fracFound st frac).through w m = s.through w m := by
  unfold State.fracFound; dsimp only; split
  · have hset := setStrm_through (m := m) (w := w) s st { s.strm st with frac := satN 9 frac, heavy := true, lowClk := none }
      fun h => hw h _ _ rfl rfl
    split
    · exact hset
    · exact (through_of_rest (raiseLimited_rest ..)).trans hset
  · exact setStrm_through _ _ _ fun h => hw h _ _ rfl rfl
/-- So does a block. -/
theorem blockOf_through {i : StreamIn} (all : List StreamIn) (s : State) (hw : i.stream = m → SeesSettings w) :
    (s.blockOf i all).through w m = s.through w m := by
  unfold State.blockOf; dsimp only
  split
  · rfl
  · split
    · exact setStrm_through _ _ _ fun h => hw h _ _ rfl rfl
    · have hraise : ∀ (c : Nat) (ws : List Word) (u : State), (u.raiseLimited true c i.stream ws).through w m = u.through w m :=
        fun c ws u => through_of_rest (raiseLimited_rest ..)
      have hfrac : ∀ (f : Nat) (u : State), (u.fracFound i.stream f).through w m = u.through w m := fun f u => fracFound_through f u hw
      repeat' split
      all_goals simp only [hraise, hfrac]; exact setStrm_through _ _ _ fun h => hw h _ _ rfl rfl
end

/-- A block without input is absent. -/
theorem blockOf_noInput {i : StreamIn} {all : List StreamIn} {s : State} (h12 : i.stream < 12) (h : s.noInput i.stream = true) :
    ((s.blockOf i all).strm i.stream).blk = [] := by
  unfold State.blockOf; dsimp only
  rw [if_neg (by omega), if_pos h, strm_setStrm]

/-- The streams that send nothing show an absent block. -/
def State.absent (streams : List StreamIn) (s : State) : State :=
  (List.range 12).foldl (fun (s : State) st => if (streams.any fun i => i.stream == st) then s else s.setStrm st { s.strm st with blk := [], gap := (s.strm st).gap || s.noInput st }) s
/-- The block of every stream has passed its path. -/
def State.blocksEnded (streams : List StreamIn) (s : State) : State :=
  streams.foldl (fun (s : State) i => s.blockOf i streams) (s.absent streams)
theorem absent_through (streams : List StreamIn) (s : State) (m : Nat) :
    (s.absent streams).through Strm.settings m = s.through Strm.settings m := by
  refine foldl_keeps (State.through Strm.settings m) _ (fun u st => ?_) _ s
  split
  · rfl
  · exact setStrm_through _ _ _ fun _ => rfl
theorem blocksEnded_through (streams : List StreamIn) (s : State) (m : Nat) :
    (s.blocksEnded streams).through Strm.settings m = s.through Strm.settings m :=
  (foldl_keeps (State.through Strm.settings m) _ (fun u _ => blockOf_through streams u fun _ => seesSettings_settings) _ _).trans (absent_through ..)

/-- Stream `m`, where it has no input, shows an absent block (R75). -/
def State.absentAt (m : Nat) (s : State) : Prop := s.noInput m = true → (s.strm m).blk = []
theorem blockOf_absentAt {i : StreamIn} (all : List StreamIn) {s : State} (h12 : i.stream < 12) : (s.blockOf i all).absentAt i.stream := by
  intro h
  rw [noInput_of_settings (blockOf_through all s fun _ => seesSettings_settings)] at h
  exact blockOf_noInput h12 h
theorem blockOf_keeps_absentAt {m : Nat} (hm : m < 12) (i : StreamIn) (all : List StreamIn) {s : State} (h : s.absentAt m) :
    (s.blockOf i all).absentAt m := by
  by_cases hi : i.stream = m
  · subst hi; exact blockOf_absentAt all hm
  · intro hno
    rw [noInput_of_settings (blockOf_through all s fun _ => seesSettings_settings)] at hno
    exact (strm_of_through (blockOf_through (w := Strm.blk) all s fun h => absurd h hi)).trans (h hno)
/-- Without a block of its own that comes in, a stream's block is absent. -/
theorem absent_blk {streams : List StreamIn} {m : Nat} (hm : m < 12) (hno : streams.any (fun i => i.stream == m) = false) (s : State) :
    ((s.absent streams).strm m).blk = [] := by
  refine foldl_reaches (fun u : State => (u.strm m).blk = []) _ (b := m) (fun u => ?_) (fun u st hu => ?_) (List.mem_range.mpr hm) s
  · rw [hno, if_neg Bool.false_ne_true, strm_setStrm]
  · split
    · exact hu
    · by_cases h : m = st
      · rw [h, strm_setStrm]
      · rw [strm_setStrm_ne _ _ h]; exact hu
theorem blocksEnded_absentAt {m : Nat} (hm : m < 12) (streams : List StreamIn) (s : State) : (s.blocksEnded streams).absentAt m := by
  cases hin : streams.any (fun i => i.stream == m) with
  | false =>
    exact foldl_inv (State.absentAt m) (fun u i => u.blockOf i streams) (fun u i hu => blockOf_keeps_absentAt hm i streams hu) _ _ fun _ => absent_blk hm hin s
  | true =>
    obtain ⟨i, hmem, hi⟩ := List.any_eq_true.mp hin
    have him : i.stream = m := beq_iff_eq.mp hi
    subst him
    exact foldl_reaches (State.absentAt i.stream) (fun u j => u.blockOf j streams) (fun _ => blockOf_absentAt streams hm)
      (fun _ j hu => blockOf_keeps_absentAt hm j streams hu) hmem _

/-! ## Waiting writes (R69, R72, R78) -/

section
variable {m : Nat}

theorem setAnt_past (s : State) (x : Nat) (v : Ant) : (s.setAnt x v).past m = s.past m := rfl
theorem setStrm_past (s : State) (st : Nat) (v : Strm) (h : v.blk = (s.strm st).blk) : (s.setStrm st v).past m = s.past m :=
  past_of_through (setStrm_through _ _ _ fun _ => h)
theorem frontCheck_past (x : Nat) (s : State) : (s.frontCheck x).past m = s.past m := by
  unfold State.frontCheck; split
  · exact (past_of_rest (partRestored_rest ..)).trans rfl
  · rfl
theorem rebias_past (x : Nat) (s : State) : (s.rebias x).past m = s.past m := by
  unfold State.rebias; dsimp only; split
  · exact (past_of_rest (raiseLimited_rest ..)).trans (setAnt_past ..)
  · split <;> exact setAnt_past ..
/-- A write changes no block. -/
theorem rfApply_past (addr : Nat) (v : Word) (s : State) : (s.rfApply addr v).past m = s.past m := by
  unfold State.rfApply; dsimp only
  split
  · split
    · exact (frontCheck_past ..).trans ((setAnt_past ..).trans (setAnt_past ..))
    · split
      · exact (rebias_past ..).trans (setAnt_past ..)
      · exact setAnt_past ..
  · split
    · exact setAnt_past ..
    · split
      · rfl
      · split
        · exact setStrm_past _ _ _ rfl
        · exact setStrm_past _ _ _ rfl
        · exact setStrm_past _ _ _ rfl
        · split
          · exact setStrm_past _ _ _ rfl
          · rfl
end

/-- The gain setting of stream 0, as a write leaves it. -/
theorem rfApply_agc0 (v : Word) (s : State) :
    s.rfApply 0x40 v = s.setStrm 0 { s.strm 0 with
      agc := maskW (2 ^ 48 - 2 ^ 43 + (2 ^ 39 - 2 ^ 17)) v
      agcFast := (s.strm 0).agcFast || (fld (maskW (2 ^ 48 - 2 ^ 43 + (2 ^ 39 - 2 ^ 17)) v) 47 46 == 0 && fld (s.strm 0).agc 47 46 != 0) } := rfl

/-- The writes that waited have taken effect. -/
def State.writesTaken (ws : List (Nat × Word)) (s : State) : State :=
  ws.foldl (fun (s : State) w => s.rfApply w.1 w.2) (s.putRf { s.rf with waits := [] })
theorem writesTaken_past (ws : List (Nat × Word)) (s : State) (m : Nat) :
    (s.writesTaken ws).past m = (s.offRf, [], (s.strm m).blk) :=
  (foldl_keeps (State.past m) (fun (u : State) (w : Nat × Word) => u.rfApply w.1 w.2) (fun u w => rfApply_past w.1 w.2 u) ws _).trans rfl

/-- Filters changed and currents read anew. -/
def State.retuned (bias : List (Nat × Nat)) (s : State) : State :=
  bias.foldl (fun (s : State) e => if e.1 < 4 ∧ s.biasOn e.1 then s.setAnt e.1 ((s.ant e.1).measure e.2 s.tb.clk) else s)
    ((List.range 12).foldl (fun (s : State) st => s.renotch st) s)
theorem renotch_through {γ : Type} {w : Strm → γ} {m : Nat} (st : Nat) (s : State)
    (hw : ∀ (x : Strm) l a o, w { x with lines := l, adapts := a, linesOver := o } = w x) : (s.renotch st).through w m = s.through w m := by
  unfold State.renotch; dsimp only; split
  · rfl
  · exact setStrm_through _ _ _ fun _ => hw ..
theorem retuned_past (bias : List (Nat × Nat)) (s : State) (m : Nat) : (s.retuned bias).past m = s.past m := by
  refine (foldl_keeps (State.past m) _ (fun u e => ?_) bias _).trans
    (foldl_keeps (State.past m) _ (fun u st => past_of_through (renotch_through st u fun _ _ _ _ => rfl)) _ s)
  split
  · exact setAnt_past ..
  · rfl
theorem retuned_agc (bias : List (Nat × Nat)) (s : State) (m : Nat) : ((s.retuned bias).strm m).agc = (s.strm m).agc := by
  refine (foldl_keeps (fun u : State => (u.strm m).agc) _ (fun u e => ?_) bias _).trans
    (foldl_keeps (fun u : State => (u.strm m).agc) _ (fun u st => ?_) _ s)
  · split <;> rfl
  · exact strm_of_through (renotch_through (w := Strm.agc) (m := m) st u fun _ _ _ _ => rfl)

theorem rfBlock_eq (streams : List StreamIn) (bias : List (Nat × Nat)) (s : State) :
    s.rfBlock streams bias =
      let u := ((s.blocksEnded streams).writesTaken s.rf.waits).retuned bias
      u.putRf { u.rf with stamp := u.tb.q0, blkClk := some u.tb.clk, clkq := u.clk.pllF.state == 3 } := rfl

end Sys2Proof.Machine
end

section
/-! Gale at a block boundary, and the end of a job (R63, R93, R95-R97). -/
namespace Sys2Proof.Machine
open Sys2Proof

/-! ## The end of a job (R95) -/

/-- Gale as the end of a job leaves it, with the words of its report. -/
def Gale.ended (j : Job) (ws : List Word) (g : Gale) : Gale :=
  let jobs := g.jobs.filter fun x => x.seq ≠ j.seq
  { g with
    jobs := jobs, caps := g.caps.filter fun c => jobs.any fun x => x.caps.contains c.id
    reps := tput none j.slot (some ⟨j.who, j.tag, ws⟩) g.reps, cntJob := satN 48 (g.cntJob + 1) }
/-- The end of a job, before its report leaves; two free values are taken for what a report of another status than DONE shows. -/
def State.jobEnded (status : Nat) (j : Job) (s : State) : State :=
  (if status = 0 then s else s.putFresh (s.fresh + 2)).putGale (s.gale.ended j (j.report (s.gale.capsOf j) s.fresh status))
theorem endJob_partner {j : Job} (hj : j.who < 5) (status : Nat) (s : State) :
    s.endJob status j = ((s.jobEnded status j).putJrn (s.jrn.unpin .work j.jsn)).record j.who false
      ([pack [put 47 40 0x01], pack [put 47 40 0x40]] ++ j.report (s.gale.capsOf j) s.fresh status) := by
  unfold State.endJob State.jobEnded
  dsimp only
  rw [if_pos hj]
  split <;> rfl
theorem endJob_own {j : Job} (hj : ¬ j.who < 5) (status : Nat) (s : State) :
    s.endJob status j = (s.jobEnded status j).memWrites (Config.galeReport 0 j.slot).toNat (j.report (s.gale.capsOf j) s.fresh status) := by
  unfold State.endJob State.jobEnded
  dsimp only
  rw [if_neg hj]
  split <;> rfl
theorem endJob_gale (status : Nat) (j : Job) (s : State) :
    (s.endJob status j).gale = s.gale.ended j (j.report (s.gale.capsOf j) s.fresh status) := by
  by_cases hj : j.who < 5
  · rw [endJob_partner hj, record_gale]; rfl
  · rw [endJob_own hj]; rfl
theorem endJob_offGale (status : Nat) (j : Job) (s : State) : (s.endJob status j).offGale = s.offGale := by
  have hended : (s.jobEnded status j).offGale = s.offGale := by unfold State.jobEnded; split <;> rfl
  by_cases hj : j.who < 5
  · rw [endJob_partner hj]
    exact (offGale_of_rest (record_rest ..)).trans hended
  · rw [endJob_own hj]; exact hended

/-- With a JSN to spare, a record is the next of its partner's stream, and takes one JSN at most. -/
theorem record_esn {s : State} (h : s.jsnRoom 1) (p : Nat) (vol : Bool) (ws : List Word) :
    (s.record p vol ws).esn p = s.esn p + s.oneMore p := by
  unfold State.record
  rw [jsnCheck_far (form_room _ _ _ _ h), form_esn, if_pos rfl]
theorem record_room {n : Nat} {s : State} (h : s.jsnRoom (n + 1)) (p : Nat) (vol : Bool) (ws : List Word) :
    (s.record p vol ws).jsnRoom n := by
  have hform := form_room p vol ws s h
  unfold State.record
  rw [jsnCheck_far (jsnRoom_mono (by omega) rfl hform)]
  exact hform

theorem jobEnded_parts (status : Nat) (j : Job) (s : State) : (s.jobEnded status j).parts = s.parts := by
  unfold State.jobEnded; split <;> rfl
/-- A partner's report is one record more (R95). -/
theorem endJob_esn {s : State} {j : Job} (h : s.jsnRoom 1) (hj : j.who < 5) (status : Nat) :
    (s.endJob status j).esn j.who = s.esn j.who + s.oneMore j.who := by
  have hparts : ((s.jobEnded status j).putJrn (s.jrn.unpin .work j.jsn)).parts = s.parts := jobEnded_parts status j s
  rw [endJob_partner hj, record_esn (by exact h), esn_congr hparts, oneMore_congr (congrArg Partner.rights (part_congr hparts j.who))]
theorem endJob_room {n : Nat} {s : State} {j : Job} (h : s.jsnRoom (n + 1)) (hj : j.who < 5) (status : Nat) :
    (s.endJob status j).jsnRoom n := by
  rw [endJob_partner hj]
  exact record_room (by exact h) ..
theorem endJob_toldOne {a b : State} {j : Job} (hp : b.parts = a.parts) (hjrn : b.jrn = a.jrn) (hj : j.who < 5) (status : Nat) :
    ToldOne j.who a (b.endJob status j) := by
  intro hfar
  have hroom : b.jsnRoom 16 := by unfold State.jsnRoom; rw [hjrn]; exact hfar
  have hesn := endJob_esn (jsnRoom_mono (by omega) rfl hroom) hj status
  rwa [esn_congr hp, oneMore_congr (congrArg Partner.rights (part_congr hp j.who))] at hesn

/-- A partner's report leaves, beyond the command unit's fields, Gale and the count of free values alone. -/
theorem endJob_rest {j : Job} (hj : j.who < 5) (status : Nat) (s : State) :
    (s.endJob status j).rest = ((s.putGale (s.endJob status j).gale).putFresh (s.endJob status j).fresh).rest := by
  have hrest : (s.endJob status j).rest = (s.jobEnded status j).rest := by
    rw [endJob_partner hj, record_rest]; rfl
  rw [of_rest_gale hrest, of_rest_fresh hrest, hrest]
  unfold State.jobEnded; split <;> rfl
theorem endJob_done_rest {j : Job} (hj : j.who < 5) (s : State) : (s.endJob 0 j).rest = (s.putGale (s.endJob 0 j).gale).rest := by
  rw [endJob_gale, endJob_partner hj, record_rest]; rfl

/-! ## Gale at a block boundary (R87, R93) -/

theorem setJob_offGale (j : Job) (s : State) : (s.setJob j).offGale = s.offGale := rfl
theorem openJob_offGale (q : Nat) (s : State) : (s.openJob q).offGale = s.offGale := by
  unfold State.openJob; split
  · rfl
  · dsimp only
    repeat' split
    all_goals rfl
theorem watchJob_offGale (open_ : List Nat) (q : Nat) (s : State) : (s.watchJob open_ q).offGale = s.offGale := by
  unfold State.watchJob; split
  · rfl
  · split
    · split
      · exact endJob_offGale ..
      · exact setJob_offGale ..
    · rfl

/-- No stream has a gap any longer: a block begins. -/
def State.gapsEnded (s : State) : State :=
  (List.range 12).foldl (fun (s : State) st => s.setStrm st { s.strm st with gap := false }) s
theorem gapsEnded_through {γ : Type} {w : Strm → γ} {m : Nat} (s : State) (hw : ∀ x : Strm, w { x with gap := false } = w x) :
    s.gapsEnded.through w m = s.through w m :=
  foldl_keeps (State.through w m) _ (fun _ _ => setStrm_through _ _ _ fun _ => hw _) _ s
theorem gapsEnded_gap {m : Nat} (hm : m < 12) (s : State) : (s.gapsEnded.strm m).gap = false := by
  refine foldl_reaches (fun u : State => (u.strm m).gap = false) (fun u st => u.setStrm st { u.strm st with gap := false })
    (b := m) (fun u => ?_) (fun u st hu => ?_) (List.mem_range.mpr hm) s
  · exact congrArg Strm.gap (strm_setStrm u m { u.strm m with gap := false })
  · by_cases h : m = st
    · rw [h, strm_setStrm]
    · rw [strm_setStrm_ne _ _ h]; exact hu

/-- The block that ended stands in the captures that were filling (R87, R95). -/
def State.captured (n : Nat) (s : State) : State :=
  (s.gale.inOrder.map fun j => j.seq).foldl (fun (u : State) q => u.watchJob ((s.gale.caps.filter Capture.filling).map fun c => c.id) q)
    (s.onGale fun g => { g with caps := g.caps.map fun c => if c.filling then c.take (s.strm (3 * c.ant + c.band)).blk n else c })
theorem watchJobs_offGale (f : State → List Nat) (qs : List Nat) (s : State) :
    (qs.foldl (fun (u : State) q => u.watchJob (f u) q) s).offGale = s.offGale :=
  foldl_keeps State.offGale (fun (u : State) q => u.watchJob (f u) q) (fun u q => watchJob_offGale (f u) q u) qs s
theorem captured_offGale (n : Nat) (s : State) : (s.captured n).offGale = s.offGale :=
  watchJobs_offGale (fun _ => (s.gale.caps.filter Capture.filling).map Capture.id) _ (s.onGale _)
/-- Beyond its own block Gale ends the gaps, and nothing else. -/
theorem galeBlock_offGale (n : Nat) (s : State) : (s.galeBlock n).offGale = (s.captured n).gapsEnded.offGale := by
  refine (watchJobs_offGale (fun u => (u.gale.caps.filter fun c => c.clk == u.tb.clk).map fun c => c.id) _ _).trans ?_
  change (if (s.captured n).gapsEnded.dom 3 ≠ 0 ∨ (s.captured n).gapsEnded.dom 4 ≠ 0 then
    (s.gale.inOrder.map fun j => j.seq).foldl (fun (u : State) q => u.openJob q) (s.captured n).gapsEnded
    else (s.captured n).gapsEnded).offGale = _
  split
  · exact foldl_keeps State.offGale (fun (u : State) q => u.openJob q) (fun u q => openJob_offGale q u) _ _
  · rfl

/-! ## RF_BLOCK_BOUNDARY (R63) -/

theorem galeBlock_through {γ : Type} {w : Strm → γ} {m : Nat} (n : Nat) (s : State) (hw : ∀ x : Strm, w { x with gap := false } = w x) :
    (s.galeBlock n).through w m = s.through w m :=
  (through_of_offGale (galeBlock_offGale n s)).trans ((gapsEnded_through _ hw).trans (through_of_offGale (captured_offGale n s)))
theorem galeBlock_gap {m : Nat} (hm : m < 12) (n : Nat) (s : State) : ((s.galeBlock n).strm m).gap = false := by
  rw [strm_congr (rf_of_offGale (galeBlock_offGale n s))]
  exact gapsEnded_gap hm _

/-- The blocks that a boundary counts since the one before. -/
def State.blocksSince (s : State) : Nat := match s.rf.blkClk with | some c => (s.tb.clk - c) / 654720 | none => 1
theorem execRfBlockBoundary_at {t : Lapse} {s a : State} (ha : s.elapse t = a) (streams : List StreamIn) (bias : List (Nat × Nat))
    (hon : a.isOn 11 = true) (hat : a.atBlock = true) :
    execRfBlockBoundary t streams bias s = .next ((a.rfBlock streams bias).galeBlock a.blocksSince) := by
  unfold execRfBlockBoundary
  rw [ha]; dsimp only
  rw [if_pos ⟨hon, hat⟩]
  rfl

section
variable (streams : List StreamIn) (bias : List (Nat × Nat)) (a : State)

/-- Beyond the RF block, Gale and the failed parts, the blocks that end change nothing. -/
theorem blocksEnded_offRf : (a.blocksEnded streams).offRf = a.offRf :=
  offRf_of_through (blocksEnded_through streams a 0)
theorem blocksEnded_agc (m : Nat) : ((a.blocksEnded streams).strm m).agc = (a.strm m).agc :=
  congrArg Prod.snd (strm_of_through (blocksEnded_through streams a m))
theorem blocksEnded_blk {m : Nat} (hm : m < 12) (hno : a.noInput m = true) : ((a.blocksEnded streams).strm m).blk = [] :=
  blocksEnded_absentAt hm streams a ((noInput_of_settings (blocksEnded_through streams a m)).trans hno)
/-- Nor do the writes and changes that follow them. -/
theorem rfBlock_past (m : Nat) : (a.rfBlock streams bias).past m = (a.offRf, [], ((a.blocksEnded streams).strm m).blk) := by
  rw [rfBlock_eq]
  refine ((retuned_past bias _ m).trans (writesTaken_past ..)).trans ?_
  rw [blocksEnded_offRf]
theorem rfBlock_offRf : (a.rfBlock streams bias).offRf = a.offRf :=
  congrArg Prod.fst (rfBlock_past streams bias a 0)
/-- The block that begins is stamped. -/
theorem rfBlock_stamp :
    (a.rfBlock streams bias).rf.stamp = a.tb.q0 ∧ (a.rfBlock streams bias).rf.blkClk = some a.tb.clk ∧
      (a.rfBlock streams bias).rf.clkq = decide (a.clk.pllF.state = 3) := by
  have hoff : (a.rfBlock streams bias).offRf = a.offRf := rfBlock_offRf streams bias a
  rw [← of_offRf_tb hoff, ← of_offRf_clk hoff, rfBlock_eq]
  exact ⟨rfl, rfl, rfl⟩
/-- A lone write of AGC0 that waited is in force (R78). -/
theorem rfBlock_agc {v : Word} (hw : a.rf.waits = [(0x40, v)]) :
    ((a.rfBlock streams bias).strm 0).agc = maskW (2 ^ 48 - 2 ^ 43 + (2 ^ 39 - 2 ^ 17)) v ∧
      ∀ m, m ≠ 0 → ((a.rfBlock streams bias).strm m).agc = (a.strm m).agc := by
  have hagc : ∀ m, ((a.rfBlock streams bias).strm m).agc = ((((a.blocksEnded streams).putRf { (a.blocksEnded streams).rf with waits := [] }).rfApply 0x40 v).strm m).agc := by
    intro m
    rw [rfBlock_eq, hw]
    exact retuned_agc bias _ m
  refine ⟨?_, fun m hm => ?_⟩
  · rw [hagc, rfApply_agc0, strm_setStrm]
  · rw [hagc, rfApply_agc0, strm_setStrm_ne _ _ hm]
    exact blocksEnded_agc streams a m
end

/-- A boundary: waiting writes in force, the block stamped, absent blocks where a stream has no input; no gap. -/
theorem boundary_spec (streams : List StreamIn) (bias : List (Nat × Nat)) (n : Nat) (a : State) :
    let u := (a.rfBlock streams bias).galeBlock n
    u.rf.waits = [] ∧ u.rf.stamp = a.tb.q0 ∧ u.rf.blkClk = some a.tb.clk ∧ u.rf.clkq = decide (a.clk.pllF.state = 3) ∧
    (∀ w, a.rf.waits = [(0x40, w)] → (u.strm 0).agc = maskW (2 ^ 48 - 2 ^ 43 + (2 ^ 39 - 2 ^ 17)) w ∧ ∀ st, st < 12 → st ≠ 0 → (u.strm st).agc = (a.strm st).agc) ∧
    (∀ st, st < 12 → (u.strm st).gap = false ∧ (a.noInput st = true → (u.strm st).blk = [])) ∧
    u.tb = a.tb ∧ u.qs = a.qs ∧ u.outs = a.outs ∧ u.kite = a.kite := by
  have hpast := rfBlock_past streams bias a
  have hoff := rfBlock_offRf streams bias a
  have hstamp := rfBlock_stamp streams bias a
  have hset := fun v hw => rfBlock_agc streams bias a (v := v) hw
  generalize a.rfBlock streams bias = b at hpast hoff hstamp hset ⊢
  intro u
  have hthrough := galeBlock_through (w := Strm.agc) (m := 0) n b fun _ => rfl
  have hrf : { u.rf with strs := [] } = { b.rf with strs := [] } := rf_of_through hthrough
  have huoff : u.offRf = a.offRf := (offRf_of_through hthrough).trans hoff
  have hagc : ∀ m, (u.strm m).agc = (b.strm m).agc := fun m => strm_of_through (w := Strm.agc) (galeBlock_through n b fun _ => rfl)
  have hblk : ∀ m, (u.strm m).blk = (b.strm m).blk := fun m => strm_of_through (w := Strm.blk) (galeBlock_through n b fun _ => rfl)
  have hbwaits : b.rf.waits = [] := (congrArg (fun x : State × List (Nat × Word) × List (BitVec 8) => x.2.1) (hpast 0) :)
  have hbblk : ∀ m, (b.strm m).blk = ((a.blocksEnded streams).strm m).blk := fun m =>
    (congrArg (fun x : State × List (Nat × Word) × List (BitVec 8) => x.2.2) (hpast m) :)
  obtain ⟨hq0, hclk, hclkq⟩ := hstamp
  refine ⟨(congrArg Rf.waits hrf).trans hbwaits,
    (congrArg Rf.stamp hrf).trans hq0, (congrArg Rf.blkClk hrf).trans hclk, (congrArg Rf.clkq hrf).trans hclkq, fun v hw => ?_, fun m hm => ?_,
    of_offRf_tb huoff, of_offRf_qs huoff, of_offRf_outs huoff, of_offRf_kite huoff⟩
  · obtain ⟨h0, hne⟩ := hset v hw
    exact ⟨(hagc 0).trans h0, fun m _ hm => (hagc m).trans (hne m hm)⟩
  · refine ⟨galeBlock_gap hm n b, fun hno => ?_⟩
    rw [hblk, hbblk]
    exact blocksEnded_blk streams a hm hno

end Sys2Proof.Machine
end

section
/-! Search jobs (R90-R93, R96): accepted, refused, cancelled and timed out. -/
namespace Sys2Proof.Machine
open Sys2Proof

/-! ## GALE_JOB (R90-R92) -/

theorem maskAnts_ne_nil {m : Nat} (h0 : m ≠ 0) (h16 : m < 16) : maskAnts m ≠ [] := by
  have hall : ∀ n, n < 16 → n ≠ 0 → maskAnts n ≠ [] := by decide
  exact hall m h16 h0
theorem mask_ne_zero {j : Job} (h : jobBad j = false) : j.mask ≠ 0 := by
  intro h0
  unfold jobBad at h
  split at h
  · exact absurd h (by decide)
  · simp [h0] at h
theorem jobOf_mask_lt (k : Pkt) : (jobOf k).mask < 16 := Nat.mod_lt _ (by decide)

/-- A job whose form and priority are right, that waits for no START, finds its front-ends in service, a free slot, and an engine domain not forced off. -/
theorem opGaleJob_ok {k : Pkt} {s : State} (hlen : k.ps.length = 8) (hbad : jobBad (jobOf k) = false) (hstart : (jobOf k).start = none)
    (hprio : (jobOf k).prio ≠ 3) (hfront : s.fc.front = 0) (hfree : s.freeSlots ≠ [])
    (hmax : (s.gale.jobs.filter fun x => x.who == k.partner).length < s.gale.pslotMax) (hforce : tget 0 3 s.pwr.force ≠ 3) :
    opGaleJob.eval k s =
      { status := .accepted
        words := [pack [put 47 36 (s.freeSlots.getD (Config.freeNat s.fresh % s.freeSlots.length) 0), put 35 12 (jobOf k).gran]]
        pins := [.work], promise := 2
        act := fun jsn b => (b.putFresh (b.fresh + 1)).onGale fun g =>
          { g with
            jobs := g.jobs ++ [{ jobOf k with slot := s.freeSlots.getD (Config.freeNat s.fresh % s.freeSlots.length) 0, jsn := jsn, seq := g.seq }]
            seq := g.seq + 1 } } := by
  have hants : (maskAnts (jobOf k).mask).all (fun a => s.fc.front.testBit a) = false := by
    obtain ⟨x, hx⟩ := List.exists_mem_of_ne_nil _ (maskAnts_ne_nil (mask_ne_zero hbad) (jobOf_mask_lt k))
    exact List.all_eq_false.mpr ⟨x, hx, by simp [hfront]⟩
  unfold opGaleJob; dsimp only
  rw [if_neg (by simp [hlen, hbad]), if_neg hprio, if_neg (by simp [hstart]), if_neg (by simp [hants]), if_neg]
  rintro (h | h | h)
  · exact hfree h
  · omega
  · exact hforce h.1
theorem opGaleJob_bad {k : Pkt} {s : State} (h : k.ps.length ≠ 8 ∨ jobBad (jobOf k) = true) : opGaleJob.eval k s = refuse .badParam [0] :=
  if_pos h

theorem putGale_putFresh_rest {a b : State} (h : b.rest = a.rest) (g : Gale) (n : Nat) :
    ((b.putGale g).putFresh n).rest = ((a.putGale g).putFresh n).rest :=
  congrArg (fun s : State => (s.putGale g).putFresh n) h

/-! ## What a completed command's effect tells its partner -/

/-- A command that is not ACCEPTED ahead of its effect answers after it (R26). -/
theorem runOp_done (op : OpSpec) (t : Lapse) (env : Env) (ps : List Word) (rights : Nat) (s : State) (v : Verdict)
    (h : (s.elapse t).admits op.code rights op.modes env ps = true) (hcode : 3 < op.code) (hr : op.rights ≤ rights)
    (hv : op.eval (pktOf op.code env ps (s.elapse t)) ((s.elapse t).bound env) = v) (hok : v.status.ok = true) (hlate : v.status ≠ .accepted)
    (hroom : entriesFor ((v.stored.getD ps).length + v.words.length) + v.promise ≤ 1000) :
    runOp op t env ps s = .next ((v.act (s.elapse t).jrn.next (((s.elapse t).bound env).consume (some op) (pktOf op.code env ps (s.elapse t)) v)).replyNew
      (pktOf op.code env ps (s.elapse t)) ((pktOf op.code env ps (s.elapse t)).held false) v (s.elapse t).jrn.next) := by
  have hwords : v.reply = v.words := by unfold Verdict.reply; simp [hok]
  have hjudge := judge_eval op env ps rights op.modes _ v h hr rfl hv hroom
  have hnew := runPacket_new op env ps rights op.modes _ h (by omega) (by omega) (by omega)
    (by rw [hjudge]; exact newGroup_entries _ _ _ (by rw [hwords]; exact le_trans (Nat.le_add_right ..) hroom))
  refine congrArg Host.Outcome.next (hnew.trans ?_)
  unfold runNew
  rw [hjudge]; dsimp only
  rw [if_neg hlate]
  rfl

/-- Consuming a command leaves what neither its SEQ nor its replay records show. -/
theorem consume_view {γ : Type} (f : Partner → γ) (hf : ∀ (x : Partner) l r, f { x with lseq := l, replays := r } = f x)
    (op : Option OpSpec) (k : Pkt) (v : Verdict) (s : State) (q : Nat) : f ((s.consume op k v).part q) = f (s.part q) := by
  have hseal : ∀ q, f (((s.setPart k.partner { s.part k.partner with lseq := k.seq }).seal (newGroup op k v)).part q) = f (s.part q) := fun q => by
    rw [seal_part]; exact setPart_view f _ _ _ (hf _ _ _) q
  unfold State.consume; dsimp only
  refine (setPart_view f _ k.partner _ (hf _ _ _) q).trans ?_
  split
  · rw [part_putJrn]; exact hseal q
  · exact hseal q
/-- It takes one JSN at most. -/
theorem consume_room {n : Nat} (op : Option OpSpec) (k : Pkt) (v : Verdict) {s : State} (h : s.jsnRoom (n + 1)) : (s.consume op k v).jsnRoom n := by
  have hseal : ((s.setPart k.partner { s.part k.partner with lseq := k.seq }).seal (newGroup op k v)).jsnRoom n := by
    have hle : ((s.setPart k.partner { s.part k.partner with lseq := k.seq }).seal (newGroup op k v)).jrn.next ≤ s.jrn.next + 1 := seal_next_le ..
    exact jsnRoom_mono (a := s) (by omega) (seal_jsnLow ..) h
  unfold State.consume; dsimp only; split <;> exact hseal
/-- A reply forms no record while a JSN is left. -/
theorem replyNew_esn {s : State} (h : s.jsnRoom 0) (k : Pkt) (held : Option (Bool × Nat)) (v : Verdict) (jsn q : Nat) :
    (s.replyNew k held v jsn).esn q = s.esn q := by
  unfold State.replyNew; dsimp only
  rw [jsnCheck_far]
  · refine (answer_view (fun x : Partner => x.ev.nextEsn) (fun _ _ => rfl) ..).trans ?_
    exact setPart_view (fun x : Partner => x.ev.nextEsn) s k.partner { s.part k.partner with permit := some ((s.part k.partner).lseq + (s.part k.partner).credMax) } rfl q
  · unfold State.jsnRoom
    rw [answer_jrn]; exact h

/-- Where the effect forms one record for partner `p`, the command tells it once. -/
theorem toldOne_of_done {a : State} {v : Verdict} {p : Nat} (op : Option OpSpec) (env : Env) (k : Pkt) (held : Option (Bool × Nat)) (jsn : Nat)
    (hact : ∀ b : State, b.jsnRoom 15 → (v.act jsn b).esn p = b.esn p + b.oneMore p ∧ (v.act jsn b).jsnRoom 0) :
    ToldOne p a ((v.act jsn ((a.bound env).consume op k v)).replyNew k held v jsn) := by
  intro hfar
  obtain ⟨hesn, hroom⟩ := hact _ (consume_room (n := 15) op k v (s := a.bound env) hfar)
  have hnext := consume_view (fun x : Partner => x.ev.nextEsn) (fun _ _ _ => rfl) op k v (a.bound env) p
  have hrights := consume_view (fun x : Partner => x.rights) (fun _ _ _ => rfl) op k v (a.bound env) p
  refine (replyNew_esn hroom ..).trans (hesn.trans (congrArg₂ (· + ·) ?_ ?_))
  · exact hnext.trans (bound_part_view (fun x : Partner => x.ev.nextEsn) (fun _ _ => rfl) env a p)
  · exact oneMore_congr (hrights.trans (bound_part_view (fun x : Partner => x.rights) (fun _ _ => rfl) env a p))

/-! ## GALE_CANCEL and GALE_INPUT_TIMEOUT (R93, R96) -/

/-- Of a partner's only job, SEL 2 cancels one. -/
theorem opGaleCancel_all {k : Pkt} {s : State} {j : Job} (hlen : k.ps.length = 1) (hsel : fld (arg k.ps 0) 47 46 = 2) (hjobs : s.gale.jobs = [j])
    (hwho : j.who = k.partner) (h5 : j.who < 5) (hreps : s.gale.reps = []) :
    opGaleCancel.eval k s = doneWith [pack [put 47 35 1]] fun _ b => b.endJob 1 j := by
  have hword : pack [put 47 35 1, put 34 22 0] = pack [put 47 35 1] := by decide
  have h15 : j.who ≠ 15 := by omega
  unfold opGaleCancel; dsimp only
  rw [if_neg (by simp [hlen, hsel]), if_neg (by simp [hsel])]
  simp [hjobs, hreps, hsel, hwho ▸ h15, hwho, hword]

theorem execGaleInputTimeout_due {t : Lapse} {s a : State} (ha : s.elapse t = a) {j : Job} {c : Nat} (hjobs : a.gale.jobs = [j]) (hsince : j.since = some c)
    (hcaps : j.caps = []) (hdue : c + 654720000 ≤ a.tb.clk) : execGaleInputTimeout t j.slot s = .next (a.endJob 2 j) := by
  have hfind : (a.gale.jobs.find? fun x => x.slot == j.slot) = some j := by simp [hjobs]
  unfold execGaleInputTimeout
  rw [ha]; dsimp only
  rw [hfind]; dsimp only
  rw [hsince]
  exact if_pos ⟨hcaps, hdue⟩

theorem ended_lone {g : Gale} {j i : Job} (hjobs : g.jobs = [i]) (hseq : i.seq = j.seq) (ws : List Word) :
    (g.ended j ws).jobs = [] ∧ (g.ended j ws).caps = [] := by
  have hnone : (g.jobs.filter fun x => decide (x.seq ≠ j.seq)) = [] := by simp [hjobs, hseq]
  refine ⟨hnone, ?_⟩
  unfold Gale.ended
  rw [hnone]
  exact List.filter_eq_nil_iff.mpr fun c _ => by simp
theorem ended_reps (g : Gale) (j : Job) (ws : List Word) : tget none j.slot (g.ended j ws).reps = some ⟨j.who, j.tag, ws⟩ := by
  unfold Gale.ended
  exact tget_tput_same none j.slot (some (⟨j.who, j.tag, ws⟩ : GaleRep)) g.reps
theorem capsOf_none {g : Gale} {j : Job} (h : j.caps = []) : g.capsOf j = [] := by
  unfold Gale.capsOf; simp [h]

section
variable {t : Lapse} {env : Env} {ps : List Word} {s : State}

theorem galeJob_accepted (h : (s.elapse t).admits 0x040 2 0x7FE env ps = true) (hlen : ps.length = 8)
    (hbad : jobBad (jobOf (pktOf 0x040 env ps (s.elapse t))) = false) (hstart : (jobOf (pktOf 0x040 env ps (s.elapse t))).start = none)
    (hprio : (jobOf (pktOf 0x040 env ps (s.elapse t))).prio ≠ 3) (hfront : (s.elapse t).fc.front = 0) (hfree : (s.elapse t).freeSlots ≠ [])
    (hmax : ((s.elapse t).gale.jobs.filter fun x => x.who == env.partner).length < (s.elapse t).gale.pslotMax) (hforce : tget 0 3 (s.elapse t).pwr.force ≠ 3) :
    let a := s.elapse t
    let slot := a.freeSlots.getD (Config.freeNat a.fresh % a.freeSlots.length) 0
    Completes 0x040 0 [pack [put 47 36 slot, put 35 12 (jobOf (pktOf 0x040 env ps a)).gran]] env a (exec (.galeJob t env ps) s) fun u =>
      u.gale.jobs = a.gale.jobs ++ [{ jobOf (pktOf 0x040 env ps a) with slot := slot, jsn := a.jrn.next, seq := a.gale.seq }] ∧
      u.rest = ((a.putGale u.gale).putFresh (a.fresh + 1)).rest := by
  refine runOp_completes_jsn opGaleJob t env ps 2 s _ _ _ h (by decide) (by decide)
    (opGaleJob_ok (k := pktOf 0x040 env ps (s.elapse t)) (s := (s.elapse t).bound env) hlen hbad hstart hprio hfront hfree hmax hforce)
    rfl rfl ?_ (fun _ _ => ⟨rfl, rfl⟩) fun b u hb hu => ?_
  · simp [entriesFor, hlen]
  · have hgale := of_rest_gale hu
    refine ⟨?_, ?_⟩
    · rw [hgale, ← of_rest_gale hb]; rfl
    · rw [hu, hgale, ← of_rest_fresh hb]
      exact putGale_putFresh_rest hb _ (b.fresh + 1)
theorem galeJob_refused (h : (s.elapse t).admits 0x040 2 0x7FE env ps = true)
    (hbad : ps.length ≠ 8 ∨ jobBad (jobOf (pktOf 0x040 env ps (s.elapse t))) = true) :
    Completes 0x040 0x23 [0] env (s.elapse t) (exec (.galeJob t env ps) s) fun u => u.rest = (s.elapse t).rest :=
  runOp_refuses opGaleJob t env ps 2 s .badParam [0] h (by decide) (by decide) (by simp) (opGaleJob_bad hbad) (by simp)

theorem partner_le_of_admits {code rights modes : Nat} {a : State} (h : a.admits code rights modes env ps = true) : env.partner ≤ 4 := by
  simp only [State.admits, Bool.and_eq_true, decide_eq_true_eq] at h
  tauto
theorem galeCancel_all {j : Job} (h : (s.elapse t).admits 0x041 2 0xFFE env ps = true) (hlen : ps.length = 1) (hsel : fld (arg ps 0) 47 46 = 2)
    (hjobs : (s.elapse t).gale.jobs = [j]) (hwho : j.who = env.partner) (hreps : (s.elapse t).gale.reps = []) :
    let a := s.elapse t
    Completes 0x041 1 [pack [put 47 35 1]] env a (exec (.galeCancel t env ps) s) fun u =>
      u.gale.jobs = [] ∧ tget none j.slot u.gale.reps = some ⟨j.who, j.tag, j.report (a.gale.capsOf j) a.fresh 1⟩ ∧ u.gale.cntJob = satN 48 (a.gale.cntJob + 1) ∧
      ToldOne env.partner a u ∧ u.rest = ((a.putGale u.gale).putFresh u.fresh).rest := by
  intro a
  have h5 : j.who < 5 := by have := partner_le_of_admits h; omega
  have hv : opGaleCancel.eval (pktOf 0x041 env ps a) (a.bound env) = doneWith [pack [put 47 35 1]] fun _ b => b.endJob 1 j :=
    opGaleCancel_all hlen hsel hjobs hwho h5 hreps
  have hsize : entriesFor (ps.length + [pack [put 47 35 1]].length) + 0 ≤ 1000 := by simp [entriesFor, hlen]
  have hshown : ∀ b : State, ((b.endJob 1 j).part env.partner).lseq = (b.part env.partner).lseq ∧ ((b.endJob 1 j).part env.partner).replays = (b.part env.partner).replays := by
    intro b
    rw [endJob_partner h5, record_part_lseq, record_part_replays, part_putJrn, part_congr (jobEnded_parts 1 j b)]
    exact ⟨rfl, rfl⟩
  have hrest : ∀ b u : State, b.rest = a.rest → u.rest = (b.endJob 1 j).rest →
      u.gale = a.gale.ended j (j.report (a.gale.capsOf j) a.fresh 1) ∧ u.rest = ((a.putGale u.gale).putFresh u.fresh).rest := by
    intro b u hb hu
    refine ⟨?_, ?_⟩
    · rw [of_rest_gale hu, endJob_gale, of_rest_gale hb, of_rest_fresh hb]
    · rw [of_rest_gale hu, of_rest_fresh hu, hu, endJob_rest h5]
      exact putGale_putFresh_rest hb _ _
  obtain ⟨u, hu, hshows, hgale, hframe⟩ := runOp_completes_jsn opGaleCancel t env ps 2 s _ _ _ h (by decide) (by decide) hv rfl rfl hsize
    (fun _ b => hshown b) fun b u hb hu => hrest b u hb hu
  have htold : ToldOne env.partner a u := by
    have hdone := (runOp_done opGaleCancel t env ps 2 s _ h (by decide) (by decide) hv rfl Status.noConfusion hsize).symm.trans hu
    obtain rfl := Host.Outcome.next.inj hdone
    rw [← hwho]
    exact toldOne_of_done _ env _ _ _ fun b hb => ⟨endJob_esn (jsnRoom_mono (by omega) rfl hb) h5 1, endJob_room (jsnRoom_mono (by omega) rfl hb) h5 1⟩
  obtain ⟨hgone, -⟩ := ended_lone (g := a.gale) (j := j) hjobs rfl (j.report (a.gale.capsOf j) a.fresh 1)
  refine ⟨u, hu, hshows, hgale ▸ hgone, ?_, by rw [hgale]; rfl, htold, hframe⟩
  rw [hgale]; exact ended_reps ..

theorem galeInputTimeout_due {j : Job} {c : Nat} (hjobs : (s.elapse t).gale.jobs = [j]) (hsince : j.since = some c) (hcaps : j.caps = [])
    (hdue : c + 654720000 ≤ (s.elapse t).tb.clk) (h5 : j.who < 5) :
    let a := s.elapse t
    Answers (exec (.galeInputTimeout t j.slot) s) fun u =>
      u.gale.jobs = [] ∧ tget none j.slot u.gale.reps = some ⟨j.who, j.tag, j.report [] a.fresh 2⟩ ∧
      ToldOne j.who a u ∧ u.rest = ((a.putGale u.gale).putFresh u.fresh).rest := by
  intro a
  have hgale : (a.endJob 2 j).gale = a.gale.ended j (j.report [] a.fresh 2) := by rw [endJob_gale, capsOf_none hcaps]
  obtain ⟨hgone, -⟩ := ended_lone (g := a.gale) (j := j) hjobs rfl (j.report [] a.fresh 2)
  refine ⟨_, execGaleInputTimeout_due rfl hjobs hsince hcaps hdue, hgale ▸ hgone, ?_, endJob_toldOne rfl rfl h5 2, endJob_rest h5 2 a⟩
  rw [hgale]; exact ended_reps ..
end

end Sys2Proof.Machine
end

section
/-! Engine slots (R83, R84, R94, R105): what ends and what begins. -/
namespace Sys2Proof.Machine
open Sys2Proof

/-- `b` differs from `a` in Gale alone. -/
def GaleOnly (a b : State) : Prop := b = a.putGale b.gale
theorem GaleOnly.putGale {a b : State} (h : GaleOnly a b) (g : Gale) : b.putGale g = a.putGale g := by
  unfold GaleOnly at h
  rw [h]; rfl
theorem GaleOnly.trans {a b c : State} (h : GaleOnly a b) (h' : GaleOnly b c) : GaleOnly a c := Eq.trans h' (h.putGale _)
theorem galeOnly_putGale (a : State) (g : Gale) : GaleOnly a (a.putGale g) := rfl
theorem galeOnly_onGale (a : State) (f : Gale → Gale) : GaleOnly a (a.onGale f) := rfl
theorem galeOnly_setEng (a : State) (e : Nat) (x : Eng) : GaleOnly a (a.setEng e x) := rfl

/-! ## A slot begins (R83, R94) -/

theorem eng_setEng (s : State) (e : Nat) (v : Eng) : (s.setEng e v).eng e = v := by
  simp [State.eng, State.setEng]

/-- What a slot that begins on engine `e` leaves of Gale. -/
structure SlotBegun (e : Nat) (g h : Gale) : Prop where
  jobs : (h.jobs.map fun y => (y.seq, y.todo)) = g.jobs.map fun y => (y.seq, y.todo)
  caps : (h.caps.map fun y => y.fwdTodo) = g.caps.map fun y => y.fwdTodo
  mis : (tget {} e h.engs).mis = (tget {} e g.engs).mis
  times : (tget {} e h.engs).times = (tget {} e g.engs).times
  failed : (tget {} e h.engs).failed = (tget {} e g.engs).failed
  reps : h.reps = g.reps
  cntJob : h.cntJob = g.cntJob
  cntGran : h.cntGran = g.cntGran
  fault : h.fault = g.fault
theorem SlotBegun.refl (e : Nat) (g : Gale) : SlotBegun e g g := ⟨rfl, rfl, rfl, rfl, rfl, rfl, rfl, rfl, rfl⟩

/-- Gale once engine `e` has begun a slot: the engine as `x` says, and its work taken off. -/
def Gale.begun (e : Nat) (x : Eng) (g : Gale) : Gale :=
  let g := { g with engs := tput {} e x g.engs }
  match x.work with
  | some (.tile share) => { g with jobs := g.jobs.map fun j => match share.find? fun y => y.1 == j.seq with | some y => { j with left := j.left - y.2 } | none => j }
  | some (.fwd c) => { g with caps := g.caps.map fun y => if y.id = c then { y with fwd := y.fwd - 1 } else y }
  | none => g
theorem begun_slotBegun {e : Nat} {x : Eng} {g : Gale} (hm : x.mis = (tget {} e g.engs).mis) (ht : x.times = (tget {} e g.engs).times)
    (hf : x.failed = (tget {} e g.engs).failed) : SlotBegun e g (g.begun e x) := by
  have heng : tget {} e (tput {} e x g.engs) = x := tget_tput_same ..
  have hjobs : ∀ share : List (Nat × Nat), ((g.jobs.map fun j => match share.find? fun y => y.1 == j.seq with
      | some y => { j with left := j.left - y.2 } | none => j).map fun y => (y.seq, y.todo)) = g.jobs.map fun y => (y.seq, y.todo) := by
    intro share
    rw [List.map_map]
    refine List.map_congr_left fun j _ => ?_
    dsimp only [Function.comp]
    split <;> rfl
  have hcaps : ∀ c : Nat, ((g.caps.map fun y => if y.id = c then { y with fwd := y.fwd - 1 } else y).map fun y => y.fwdTodo) = g.caps.map fun y => y.fwdTodo := by
    intro c
    rw [List.map_map]
    refine List.map_congr_left fun y _ => ?_
    dsimp only [Function.comp]
    split <;> rfl
  unfold Gale.begun
  dsimp only
  split
  · exact ⟨hjobs _, rfl, by rw [heng, hm], by rw [heng, ht], by rw [heng, hf], rfl, rfl, rfl, rfl⟩
  · exact ⟨rfl, hcaps _, by rw [heng, hm], by rw [heng, ht], by rw [heng, hf], rfl, rfl, rfl, rfl⟩
  · exact ⟨rfl, rfl, by rw [heng, hm], by rw [heng, ht], by rw [heng, hf], rfl, rfl, rfl, rfl⟩

/-- The engine's counts of slots in the present millisecond, from 0 in a new one. -/
def State.slotCounts (e : Nat) (s : State) : Eng :=
  if (s.eng e).ms = s.tb.clk / 654720 then s.eng e else { s.eng e with ms := s.tb.clk / 654720, search := 0, fwds := 0 }
/-- The engine as it begins a slot with work `w`. -/
def State.engBegins (e : Nat) (forward : Bool) (w : Option EngWork) (s : State) : Eng :=
  let x := s.slotCounts e
  { x with work := w, began := s.tb.clk, busy := s.tb.clk + 130944, fwds := if forward then 1 else x.fwds, search := if forward then x.search else x.search + 1 }
theorem startSlot_eq (e : Nat) (forward : Bool) (s : State) :
    s.startSlot e forward = if (forward ∧ (s.slotCounts e).fwds ≠ 0) ∨ (!forward ∧ 4 ≤ (s.slotCounts e).search) then s
      else s.putGale (s.gale.begun e (s.engBegins e forward (s.nextWork e forward (s.tb.clk / 654720)))) := by
  unfold State.startSlot
  dsimp only
  refine if_congr Iff.rfl rfl ?_
  generalize s.nextWork e forward (s.tb.clk / 654720) = w
  match w with
  | none => rfl
  | some (.tile share) => rfl
  | some (.fwd c) => rfl
theorem startSlot_begun (e : Nat) (forward : Bool) (s : State) : ∃ g, s.startSlot e forward = s.putGale g ∧ SlotBegun e s.gale g := by
  rw [startSlot_eq]
  split
  · exact ⟨s.gale, rfl, SlotBegun.refl ..⟩
  · have hcounts : (s.slotCounts e).mis = (s.eng e).mis ∧ (s.slotCounts e).times = (s.eng e).times ∧ (s.slotCounts e).failed = (s.eng e).failed := by
      unfold State.slotCounts; split <;> exact ⟨rfl, rfl, rfl⟩
    obtain ⟨hm, ht, hf⟩ := hcounts
    exact ⟨_, rfl, begun_slotBegun hm ht hf⟩

/-! ## A slot ends (R83, R84, R95, R105) -/

/-- The slot on engine `e` with work `w` is over, and counts toward the utilisation. -/
def State.slotOver (e : Nat) (w : EngWork) (s : State) : State :=
  (s.setEng e { s.eng e with work := none }).onGale fun g => match w with
    | .tile _ => { g with tiles := s.tb.clk :: g.tiles.filter fun c => decide (s.tb.clk < c + 65472000) }
    | .fwd _ => { g with fwds := s.tb.clk :: g.fwds.filter fun c => decide (s.tb.clk < c + 65472000) }
theorem galeOnly_slotOver (e : Nat) (w : EngWork) (s : State) : GaleOnly s (s.slotOver e w) := rfl
theorem slotOver_eng (e : Nat) (w : EngWork) (s : State) : (s.slotOver e w).eng e = { s.eng e with work := none } := by
  cases w <;> exact eng_setEng ..
theorem slotOver_jobs (e : Nat) (w : EngWork) (s : State) : (s.slotOver e w).gale.jobs = s.gale.jobs := by cases w <;> rfl
theorem slotOver_fault (e : Nat) (w : EngWork) (s : State) : (s.slotOver e w).gale.fault = s.gale.fault := by cases w <;> rfl
theorem slotOver_ctrl (e : Nat) (w : EngWork) (s : State) : (s.slotOver e w).gale.ctrl = s.gale.ctrl := by cases w <;> rfl

section
variable {s : State} {e inE outE : Nat}

theorem endSlot_idle (hwork : (s.eng e).work = none) : s.endSlot e inE outE = s.setEng e { s.eng e with work := none } := by
  unfold State.endSlot
  dsimp only
  rw [hwork]
theorem endSlot_bad {w : EngWork} (hwork : (s.eng e).work = some w) (hbad : energyBad inE outE = true) :
    s.endSlot e inE outE = (s.slotOver e w).mismatch e w := by
  unfold State.endSlot
  dsimp only
  rw [hwork]
  exact if_pos hbad
theorem endSlot_tile {q n : Nat} (hwork : (s.eng e).work = some (.tile [(q, n)])) (hgood : energyBad inE outE = false) :
    s.endSlot e inE outE = (s.slotOver e (.tile [(q, n)])).tileDone (s.eng e).began (q, n) := by
  unfold State.endSlot
  dsimp only
  rw [hwork]
  exact if_neg (by rw [hgood]; exact Bool.false_ne_true)
theorem endSlot_fwd {c : Nat} (hwork : (s.eng e).work = some (.fwd c)) (hgood : energyBad inE outE = false) :
    s.endSlot e inE outE = (s.slotOver e (.fwd c)).onGale fun g =>
      { g with caps := g.caps.map fun y => if y.id = c then { y with fwdTodo := y.fwdTodo - 1, not_ := none } else y } := by
  unfold State.endSlot
  dsimp only
  rw [hwork]
  exact if_neg (by rw [hgood]; exact Bool.false_ne_true)
end

/-- The job whose tile of `n` granules has run. -/
def State.jobRan (began n : Nat) (j : Job) (s : State) : Job :=
  { j with todo := j.todo - n, not_ := none, clkq := j.clkq || s.clk.pllG.coastedSince began }
/-- The last tile of the only job ends it (R95). -/
theorem tileDone_last {s : State} {j : Job} {n : Nat} (began : Nat) (hjobs : s.gale.jobs = [j]) (hlast : j.todo = n) :
    s.tileDone began (j.seq, n) =
      (s.putGale { s.gale with cntGran := satN 48 (s.gale.cntGran + n), jobs := [s.jobRan began n j] }).endJob 0 (s.jobRan began n j) := by
  have hfind : (s.gale.jobs.find? fun x => x.seq == j.seq) = some j := by simp [hjobs]
  have hset : (s.onGale fun g => { g with cntGran := satN 48 (g.cntGran + n) }).setJob (s.jobRan began n j)
      = s.putGale { s.gale with cntGran := satN 48 (s.gale.cntGran + n), jobs := [s.jobRan began n j] } := by
    have hmap : (s.gale.jobs.map fun x => if x.seq = (s.jobRan began n j).seq then s.jobRan began n j else x) = [s.jobRan began n j] := by
      rw [hjobs]
      exact congrArg (· :: []) (if_pos rfl)
    rw [← hmap]; rfl
  have htodo : j.todo - n = 0 := by omega
  unfold State.tileDone
  rw [hfind]
  exact (if_pos htodo).trans (congrArg (fun u : State => u.endJob 0 (s.jobRan began n j)) hset)

/-- The first mismatch of an engine counts, and fails nothing (R105). -/
theorem mismatch_first {s : State} {e : Nat} (w : EngWork) (htimes : (s.eng e).times = []) : ∃ o,
    s.mismatch e w = (s.setEng e { s.eng e with mis := satN 8 ((s.eng e).mis + 1), times := [s.tb.clk], failed := false }).onGale fun g =>
      { g.giveBack w o with fault := setBit g.fault 0 } := by
  have hts : ((s.tb.clk :: (s.eng e).times).filter fun c => decide (s.tb.clk < c + 654720000)) = [s.tb.clk] := by simp [htimes]
  refine ⟨if (List.range 64).any (fun f => f != e && s.engOn f && !(s.eng f).failed) then some e else none, ?_⟩
  unfold State.mismatch
  dsimp only
  rw [hts]
  exact if_neg (by simp)
/-- A tile that is given back returns its granules to its job. -/
theorem giveBack_tile {g : Gale} {j : Job} (hjobs : g.jobs = [j]) (n : Nat) (o : Option Nat) :
    (g.giveBack (.tile [(j.seq, n)]) o).jobs = [{ j with left := j.left + n, not_ := o }] := by
  unfold Gale.giveBack
  simp [hjobs]

/-! ## GALE_SLOT -/

section
variable {t : Lapse} {s a : State} {e inE outE : Nat} {fw : Bool} (ha : s.elapse t = a) (he : e < 64) (hon : a.engOn e = true)
  (hbusy : (a.eng e).busy ≤ a.tb.clk) (hgives : a.clk.pllG.gives = true)
include ha he hon hbusy hgives

theorem execGaleSlot_eq : execGaleSlot t ⟨e, fw, inE, outE⟩ s = .next
    (if ((a.endSlot e inE outE).eng e).failed ∨ bit (a.endSlot e inE outE).gale.ctrl 47 ∨ ((a.endSlot e inE outE).clk.pllG.state = 3 ∧ !(a.endSlot e inE outE).clk.pllG.refLost)
      then a.endSlot e inE outE else (a.endSlot e inE outE).startSlot e fw) := by
  unfold execGaleSlot
  rw [ha]
  exact if_pos ⟨he, hon, hbusy, hgives⟩
/-- The slot ends; what may begin then changes Gale alone, and with HOLD nothing begins. -/
theorem execGaleSlot_ends {b : State} (hend : a.endSlot e inE outE = b) :
    ∃ g, execGaleSlot t ⟨e, fw, inE, outE⟩ s = .next (b.putGale g) ∧ SlotBegun e b.gale g ∧ (bit b.gale.ctrl 47 = true → g = b.gale) := by
  rw [execGaleSlot_eq ha he hon hbusy hgives, hend]
  split
  · exact ⟨b.gale, rfl, SlotBegun.refl .., fun _ => rfl⟩
  · next hfree =>
    obtain ⟨g, hg, hbegun⟩ := startSlot_begun e fw b
    exact ⟨g, by rw [hg], hbegun, fun hhold => absurd (.inr (.inl hhold)) hfree⟩
end

section
variable {t : Lapse} {s a : State} {e inE outE : Nat} {j : Job} (ha : s.elapse t = a) (he : e < 64) (hon : a.engOn e = true)
  (hbusy : (a.eng e).busy ≤ a.tb.clk) (hgives : a.clk.pllG.gives = true)
include ha he hon hbusy hgives

/-- The last tile of the only job has run: the job is DONE and its report out. -/
theorem galeSlot_lastTile {n : Nat} {fw : Bool} (hwork : (a.eng e).work = some (.tile [(j.seq, n)])) (hjobs : a.gale.jobs = [j]) (hlast : j.todo = n)
    (hgood : energyBad inE outE = false) :
    Answers (exec (.galeSlot t ⟨e, fw, inE, outE⟩) s) fun u =>
      u.gale.jobs = [] ∧ u.gale.caps = [] ∧ u.gale.cntGran = satN 48 (a.gale.cntGran + n) ∧ u.gale.cntJob = satN 48 (a.gale.cntJob + 1) ∧
      (∃ r, tget none j.slot u.gale.reps = some r ∧ r.who = j.who ∧ r.tag = j.tag ∧
        (j.who < 5 → ToldOne j.who a u ∧ u.rest = (a.putGale u.gale).rest) ∧
        (j.who = 15 → u = (a.memWrites (Config.galeReport 0 j.slot).toNat r.ws).putGale u.gale)) := by
  obtain ⟨b, hb, hgran, hjob, hbjobs⟩ : ∃ b : State, GaleOnly a b ∧ b.gale.cntGran = satN 48 (a.gale.cntGran + n) ∧ b.gale.cntJob = a.gale.cntJob ∧
      ∃ i : Job, i.who = j.who ∧ i.slot = j.slot ∧ i.tag = j.tag ∧ b.gale.jobs = [i] ∧ a.endSlot e inE outE = b.endJob 0 i := by
    refine ⟨_, ?_, ?_, ?_, _, ?_, ?_, ?_, ?_, (endSlot_tile hwork hgood).trans (tileDone_last (a.eng e).began hjobs hlast)⟩
    · exact (galeOnly_slotOver ..).trans (galeOnly_putGale ..)
    all_goals rfl
  obtain ⟨i, hwho, hslot, htag, hbi, hend⟩ := hbjobs
  rw [← hwho, ← hslot, ← htag]
  obtain ⟨g, hg, hbegun, -⟩ := execGaleSlot_ends (fw := fw) ha he hon hbusy hgives hend
  have hgale := endJob_gale 0 i b
  obtain ⟨hnojob, hnocap⟩ := ended_lone (g := b.gale) (j := i) hbi rfl (i.report (b.gale.capsOf i) b.fresh 0)
  refine ⟨_, hg, ?_, ?_, ?_, ?_, ⟨i.who, i.tag, i.report (b.gale.capsOf i) b.fresh 0⟩, ?_, rfl, rfl, fun h5 => ⟨?_, ?_⟩, fun h15 => ?_⟩
  · have hmap := hbegun.jobs
    rw [hgale, hnojob] at hmap
    exact List.map_eq_nil_iff.mp hmap
  · have hmap := hbegun.caps
    rw [hgale, hnocap] at hmap
    exact List.map_eq_nil_iff.mp hmap
  · exact hbegun.cntGran.trans ((congrArg Gale.cntGran hgale).trans hgran)
  · exact hbegun.cntJob.trans ((congrArg Gale.cntJob hgale).trans (congrArg (fun c => satN 48 (c + 1)) hjob))
  · exact (congrArg (tget none i.slot) (hbegun.reps.trans (congrArg Gale.reps hgale))).trans (ended_reps ..)
  · exact endJob_toldOne (a := a) (b := b) (by rw [hb]; rfl) (by rw [hb]; rfl) h5 0
  · refine (congrArg (fun u : State => u.putGale g) (endJob_done_rest h5 b)).trans ?_
    rw [hb]; rfl
  · rw [endJob_own (by omega)]
    generalize i.report (b.gale.capsOf i) b.fresh 0 = ws
    rw [hb]; rfl

/-- The first mismatch of an engine: its tile is to be run again. -/
theorem galeSlot_mismatch {n : Nat} {fw : Bool} (htimes : (a.eng e).times = []) (hwork : (a.eng e).work = some (.tile [(j.seq, n)]))
    (hjobs : a.gale.jobs = [j]) (hbad : energyBad inE outE = true) :
    Answers (exec (.galeSlot t ⟨e, fw, inE, outE⟩) s) fun u =>
      (u.eng e).mis = satN 8 ((a.eng e).mis + 1) ∧ (u.eng e).times = [a.tb.clk] ∧ (u.eng e).failed = false ∧ u.gale.fault = setBit a.gale.fault 0 ∧
      (u.gale.jobs.map fun y => (y.seq, y.todo)) = [(j.seq, j.todo)] ∧ (bit a.gale.ctrl 47 = true → (u.gale.jobs.map fun y => y.left) = [j.left + n]) ∧ u = a.putGale u.gale := by
  obtain ⟨b, hb, hend, hbeng, hbjobs, hbfault, hbctrl⟩ : ∃ b, GaleOnly a b ∧ a.endSlot e inE outE = b ∧
      b.eng e = { a.eng e with work := none, mis := satN 8 ((a.eng e).mis + 1), times := [a.tb.clk], failed := false } ∧
      (∃ o, b.gale.jobs = [{ j with left := j.left + n, not_ := o }]) ∧ b.gale.fault = setBit a.gale.fault 0 ∧ b.gale.ctrl = a.gale.ctrl := by
    have hover := endSlot_bad hwork hbad
    have honly := galeOnly_slotOver e (.tile [(j.seq, n)]) a
    have heng := slotOver_eng e (.tile [(j.seq, n)]) a
    have hjobs₀ := (slotOver_jobs e (.tile [(j.seq, n)]) a).trans hjobs
    have hfault := slotOver_fault e (.tile [(j.seq, n)]) a
    have hctrl := slotOver_ctrl e (.tile [(j.seq, n)]) a
    generalize a.slotOver e (.tile [(j.seq, n)]) = b₀ at hover honly heng hjobs₀ hfault hctrl
    have htb : b₀.tb = a.tb := by rw [honly]; rfl
    obtain ⟨o, ho⟩ := mismatch_first (.tile [(j.seq, n)]) ((congrArg Eng.times heng).trans htimes)
    refine ⟨_, honly.trans ((galeOnly_setEng ..).trans (galeOnly_onGale ..)), hover.trans ho, ?_, ⟨o, giveBack_tile hjobs₀ n o⟩,
      congrArg (setBit · 0) hfault, hctrl⟩
    rw [heng, htb]
    exact eng_setEng ..
  obtain ⟨o, ho⟩ := hbjobs
  obtain ⟨g, hg, hbegun, hhold⟩ := execGaleSlot_ends (fw := fw) ha he hon hbusy hgives hend
  refine ⟨_, hg, ?_, ?_, ?_, hbegun.fault.trans hbfault, ?_, fun hctrl => ?_, hb.putGale g⟩
  · exact hbegun.mis.trans (congrArg Eng.mis hbeng)
  · exact hbegun.times.trans (congrArg Eng.times hbeng)
  · exact hbegun.failed.trans (congrArg Eng.failed hbeng)
  · exact hbegun.jobs.trans (congrArg (List.map fun y : Job => (y.seq, y.todo)) ho)
  · rw [hhold (by rw [hbctrl]; exact hctrl)]
    exact congrArg (List.map fun y : Job => y.left) ho

/-- The forward transform that is next begins as the engine's forward slot. -/
theorem galeSlot_forward {k : Nat} {c : Capture} (hsound : (a.eng e).failed = false) (hidle : (a.eng e).work = none)
    (hfree : (a.eng e).ms ≠ a.tb.clk / 654720 ∨ (a.eng e).fwds = 0) (hlocked : a.clk.pllG.state ≠ 3) (hrun : bit a.gale.ctrl 47 = false)
    (hnext : a.gale.nextFwd e = some (k, c)) (hcaps : a.gale.caps = [c]) :
    Answers (exec (.galeSlot t ⟨e, true, inE, outE⟩) s) fun u =>
      u.gale.caps = [{ c with fwd := c.fwd - 1 }] ∧ u.gale.jobs = a.gale.jobs ∧ (u.eng e).work = some (.fwd c.id) ∧ (u.eng e).busy = a.tb.clk + 130944 ∧ u = a.putGale u.gale := by
  obtain ⟨b, hb, hend, hbeng, hbgale⟩ : ∃ b, GaleOnly a b ∧ a.endSlot e inE outE = b ∧ b.eng e = { a.eng e with work := none } ∧
      b.gale = { a.gale with engs := b.gale.engs } := ⟨_, galeOnly_setEng .., endSlot_idle hidle, eng_setEng .., rfl⟩
  have hbtb : b.tb = a.tb := by rw [hb]; rfl
  have hbclk : b.clk = a.clk := by rw [hb]; rfl
  have hbctrl : b.gale.ctrl = a.gale.ctrl := by rw [hbgale]
  have hcounts : (b.slotCounts e).fwds = 0 := by
    unfold State.slotCounts
    rw [hbeng, hbtb]
    split
    · next hms => exact hfree.resolve_left fun hne => hne hms
    · rfl
  have hwork : b.nextWork e true (b.tb.clk / 654720) = some (.fwd c.id) := by
    have hnext' : b.gale.nextFwd e = some (k, c) := by rw [hbgale]; exact hnext
    unfold State.nextWork
    dsimp only
    rw [hnext']
    exact if_pos (.inl rfl)
  have hbegin : b.startSlot e true = b.putGale (b.gale.begun e (b.engBegins e true (some (.fwd c.id)))) := by
    rw [startSlot_eq, hwork]
    exact if_neg (by simp [hcounts])
  have hexec := execGaleSlot_eq (fw := true) (inE := inE) (outE := outE) ha he hon hbusy hgives
  rw [hend, if_neg (by simp [hbeng, hsound, hbctrl, hrun, hbclk, hlocked]), hbegin] at hexec
  refine ⟨_, hexec, ?_, ?_, ?_, ?_, hb.putGale _⟩
  · rw [hbgale]
    show (a.gale.caps.map fun y => if y.id = c.id then { y with fwd := y.fwd - 1 } else y) = _
    rw [hcaps]
    exact congrArg (· :: []) (if_pos rfl)
  · rw [hbgale]; rfl
  · exact congrArg Eng.work (tget_tput_same {} e (b.engBegins e true (some (.fwd c.id))) b.gale.engs)
  · refine (congrArg Eng.busy (tget_tput_same {} e (b.engBegins e true (some (.fwd c.id))) b.gale.engs)).trans ?_
    exact congrArg (fun x : TimeBase => x.clk + 130944) hbtb

/-- A forward transform that has run is counted off. -/
theorem galeSlot_forwardOver {c : Capture} {fw : Bool} (hwork : (a.eng e).work = some (.fwd c.id)) (hcaps : a.gale.caps = [c]) (hgood : energyBad inE outE = false) :
    Answers (exec (.galeSlot t ⟨e, fw, inE, outE⟩) s) fun u =>
      (u.gale.caps.map fun y => y.fwdTodo) = [c.fwdTodo - 1] ∧ u.gale.jobs.map (fun y => y.seq) = a.gale.jobs.map (fun y => y.seq) ∧ u = a.putGale u.gale := by
  obtain ⟨b, hb, hend, hbcaps, hbjobs⟩ : ∃ b, GaleOnly a b ∧ a.endSlot e inE outE = b ∧
      b.gale.caps = [{ c with fwdTodo := c.fwdTodo - 1, not_ := none }] ∧ b.gale.jobs = a.gale.jobs := by
    refine ⟨_, (galeOnly_slotOver ..).trans (galeOnly_onGale ..), endSlot_fwd hwork hgood, ?_, rfl⟩
    show (a.gale.caps.map fun y => if y.id = c.id then { y with fwdTodo := y.fwdTodo - 1, not_ := none } else y) = _
    rw [hcaps]
    exact congrArg (· :: []) (if_pos rfl)
  obtain ⟨g, hg, hbegun, -⟩ := execGaleSlot_ends (fw := fw) ha he hon hbusy hgives hend
  refine ⟨_, hg, hbegun.caps.trans (congrArg (List.map fun y : Capture => y.fwdTodo) hbcaps), ?_, hb.putGale g⟩
  have hmap := congrArg (List.map Prod.fst) hbegun.jobs
  rw [List.map_map, List.map_map, hbjobs] at hmap
  exact hmap
end

/-- Settles O38: the boundary, the commands on jobs and the engine's slots, each by its own lemma. -/
theorem searchJobs : Obligations.SearchJobs := by
  refine ⟨fun t streams bias s => ?_, fun t env ps s => ⟨?_, ?_⟩, ?_, ?_, ?_, ?_⟩
  · intro a hon hat
    exact ⟨_, execRfBlockBoundary_at rfl streams bias hon hat, boundary_spec streams bias a.blocksSince a⟩
  · intro h hlen hbad hstart hprio hfront hfree hmax hforce
    exact galeJob_accepted h hlen hbad hstart hprio hfront hfree hmax hforce
  · intro h hbad
    exact galeJob_refused h hbad
  · intro t env ps s j a h hlen hsel hjobs hwho hreps
    exact galeCancel_all h hlen hsel hjobs hwho hreps
  · intro t s j c a hjobs hsince hcaps hdue h5
    exact galeInputTimeout_due hjobs hsince hcaps hdue h5
  · intro t s j e n inE outE fw
    refine ⟨fun he hon hbusy hgives hwork hjobs hlast hgood => ?_, fun he hon hbusy htimes hgives hwork hjobs hbad => ?_⟩
    · exact galeSlot_lastTile rfl he hon hbusy hgives hwork hjobs hlast hgood
    · exact galeSlot_mismatch rfl he hon hbusy hgives htimes hwork hjobs hbad
  · intro t s e k inE outE c
    refine ⟨fun he hon hsound hidle hbusy hfree hgives hlocked hrun hnext hcaps => ?_, fun he hon hwork hbusy hgives hcaps hgood => ?_⟩
    · exact galeSlot_forward rfl he hon hbusy hgives hsound hidle hfree hlocked hrun hnext hcaps
    · exact galeSlot_forwardOver rfl he hon hbusy hgives hwork hcaps hgood

end Sys2Proof.Machine
end

section
/-! Ethernet pages (R364, R512): what a commit does with the reserved bits of a staged word (O32). -/
namespace Sys2Proof.Machine
open Sys2Proof

/-- Partner 0 has staged SCFG of port 0 as it is in force, with reserved bit 0 set (Table 8). -/
def strayStaged : State := W.putStage [⟨0, .eth 0, .staged [(0, some 0xB8000C530001#48)]⟩]

/-- ETH_COMMIT takes the path's words as they stand in its copy (`State.commitEth`): reserved bits are dropped where a word
is staged (`State.stageWord`), not where it is committed. -/
theorem ethCommit_strayStaged : Answers (exec (.ethCommit L0 (.packet E1) 0 1) strayStaged) fun u =>
    (u.eth 0).page.cfg = 0xB8000C530001#48 := ⟨_, rfl, by decide +kernel⟩

/-- Refutes O32: its first clause puts the staged words in force with their reserved bits 0. A copy that holds such a bit is
a state of the model, though no staged write leaves one, and its commit keeps the bit; no hypothesis rules that copy out. -/
theorem not_pagesAndKeys : ¬ Obligations.PagesAndKeys := by
  intro h
  obtain ⟨hpages, -, -⟩ := h
  obtain ⟨u, hu, -, hpage, -⟩ := hpages L0 E1 0 strayStaged [(0, some 0xB8000C530001#48)] (by decide) (by decide +kernel) (by decide +kernel)
  obtain ⟨v, hv, hcfg⟩ := ethCommit_strayStaged
  obtain rfl : u = v := Host.Outcome.next.inj (hu.symm.trans hv)
  rw [hpage] at hcfg
  exact absurd hcfg (by decide +kernel)

end Sys2Proof.Machine
end

section
/-! Kite's channels and trains (R109, R126): read after one is replaced, what a change of Kite leaves alone, and a channel that enters LOST. -/
namespace Sys2Proof.Machine
open Sys2Proof

/-! ## Reading an instance after replacing one -/

@[simp] theorem chan_setChan (s : State) (n : Nat) (v : Chan) : (s.setChan n v).chan n = v := tget_tput_same ..
theorem chan_setChan_ne {m n : Nat} (s : State) (v : Chan) (h : m ≠ n) : (s.setChan n v).chan m = s.chan m :=
  tget_tput_ne ({} : Chan) {} m n v s.kite.chans h
@[simp] theorem chan_setTrain (s : State) (t n : Nat) (v : Train) : (s.setTrain t v).chan n = s.chan n := rfl
@[simp] theorem train_setTrain (s : State) (t : Nat) (v : Train) : (s.setTrain t v).train t = v := tget_tput_same ..
@[simp] theorem train_setChan (s : State) (n t : Nat) (v : Chan) : (s.setChan n v).train t = s.train t := rfl
theorem chan_congr {a b : State} (h : a.kite = b.kite) (n : Nat) : a.chan n = b.chan n := congrArg (fun k : Kite => tget ({} : Chan) n k.chans) h
theorem train_congr {a b : State} (h : a.kite = b.kite) (t : Nat) : a.train t = b.train t := congrArg (fun k : Kite => tget ({} : Train) t k.trains) h
theorem train_of_empty {s : State} (h : s.kite.trains = []) (t : Nat) : s.train t = {} := by unfold State.train; rw [h]; rfl
theorem chan_of_empty {s : State} (h : s.kite.chans = []) (n : Nat) : s.chan n = {} := by unfold State.chan; rw [h]; rfl
/-- A channel that is not as it is at reset is listed. -/
theorem mem_keys_of_tget {α : Type} {d : α} {k : Nat} {t : Tab α} (h : tget d k t ≠ d) : k ∈ t.map Prod.fst := by
  induction t with
  | nil => exact absurd rfl h
  | cons e t ih =>
    obtain ⟨j, x⟩ := e
    by_cases hk : k = j
    · simp [hk]
    · exact List.mem_cons_of_mem _ (ih (by simpa [tget, hk] using h))
/-- The keys of a table in its canonical form rise. -/
theorem keys_isChain_of_tcanon {α : Type} [DecidableEq α] {d : α} {t : Tab α} (h : tcanon d t = true) : (t.map Prod.fst).IsChain (· < ·) := by
  induction t with
  | nil => exact .nil
  | cons e t ih =>
    obtain ⟨j, x⟩ := e
    cases t with
    | nil => exact .singleton j
    | cons f t =>
      simp only [tcanon, Bool.and_eq_true, decide_eq_true_eq] at h
      obtain ⟨⟨-, hlt⟩, hrest⟩ := h
      exact .cons_cons hlt (ih hrest)
theorem keys_nodup_of_tcanon {α : Type} [DecidableEq α] {d : α} {t : Tab α} (h : tcanon d t = true) : (t.map Prod.fst).Nodup :=
  (keys_isChain_of_tcanon h).pairwise.imp Nat.ne_of_lt

/-! ## What a change of Kite leaves alone -/

/-- `b` differs from `a` in Kite alone. -/
def KiteOnly (a b : State) : Prop := b = a.putKite b.kite
/-- `b` differs from `a` in Kite and in what the command unit writes for its records. -/
def KiteAndRecords (a b : State) : Prop := b.rest = (a.putKite b.kite).rest
theorem KiteOnly.trans {a b c : State} (h : KiteOnly a b) (h' : KiteOnly b c) : KiteOnly a c := by
  unfold KiteOnly at *
  rw [h', h]; rfl
theorem kiteOnly_refl (a : State) : KiteOnly a a := rfl
theorem kiteOnly_putKite (a : State) (k : Kite) : KiteOnly a (a.putKite k) := rfl
theorem kiteOnly_setChan (a : State) (n : Nat) (v : Chan) : KiteOnly a (a.setChan n v) := rfl
theorem kiteOnly_setTrain (a : State) (t : Nat) (v : Train) : KiteOnly a (a.setTrain t v) := rfl
theorem KiteOnly.records {a b : State} (h : KiteOnly a b) : KiteAndRecords a b := congrArg State.rest h
theorem KiteAndRecords.trans {a b c : State} (h : KiteAndRecords a b) (h' : KiteAndRecords b c) : KiteAndRecords a c :=
  Eq.trans h' (congrArg (fun s : State => s.putKite c.kite) h)
theorem KiteOnly.tb {a b : State} (h : KiteOnly a b) : b.tb = a.tb := by rw [h]; rfl
theorem KiteOnly.parts {a b : State} (h : KiteOnly a b) : b.parts = a.parts := by rw [h]; rfl
theorem KiteOnly.jrn {a b : State} (h : KiteOnly a b) : b.jrn = a.jrn := by rw [h]; rfl

/-! ## An ALARM to the owner of a channel or train (R109, R130) -/

@[simp] theorem kiteAlarm_rest (owner cause : Nat) (args : List Word) (s : State) : (s.kiteAlarm owner cause args).rest = s.rest := by
  unfold State.kiteAlarm; split
  · exact raise_rest ..
  · rfl
@[simp] theorem kiteAlarm_kite (owner cause : Nat) (args : List Word) (s : State) : (s.kiteAlarm owner cause args).kite = s.kite :=
  of_rest_kite (kiteAlarm_rest ..)
theorem kiteAndRecords_kiteAlarm (owner cause : Nat) (args : List Word) (s : State) : KiteAndRecords s (s.kiteAlarm owner cause args) := by
  unfold KiteAndRecords
  rw [kiteAlarm_rest, kiteAlarm_kite]; rfl
theorem kiteAndRecords_raise (p : Nat) (fault : Bool) (cause : Nat) (args : List Word) (s : State) : KiteAndRecords s (s.raise p fault cause args) := by
  unfold KiteAndRecords
  rw [raise_rest, raise_kite]; rfl
/-- An ALARM to a partner, and after it nothing for a partner, tells that partner once. -/
theorem toldOne_kiteAlarm {a b u : State} (hb : KiteOnly a b) {owner : Nat} (h5 : owner < 5) (cause : Nat) (args : List Word)
    (hu : u.parts = (b.kiteAlarm owner cause args).parts) : ToldOne owner a u :=
  toldOne_record hb.parts hb.jrn owner false (causeWords false cause b.tb.q0 args) (hu.trans (by unfold State.kiteAlarm; rw [if_pos h5]; rfl))

/-! ## A channel's NCOs moved on leave what else it holds -/

theorem now_owner (c : Chan) (clk : Nat) : (c.now clk).owner = c.owner := by unfold Chan.now; split <;> rfl
theorem now_role (c : Chan) (clk : Nat) : (c.now clk).role = c.role := by unfold Chan.now; split <;> rfl
theorem now_train (c : Chan) (clk : Nat) : (c.now clk).train = c.train := by unfold Chan.now; split <;> rfl

/-! ## A channel enters LOST (R109) -/

/-- A channel as it enters LOST at a counter clock. -/
def Chan.lost (cause clk : Nat) (c : Chan) : Chan :=
  { c.now clk with state := 3, cause := cause, since := clk, plock := false, clock := false, mlock := false, fllOn := false, low := none, drop := none }
/-- What `loseChan` does before the channel leaves its train. -/
def State.lostTold (n cause : Nat) (s : State) : State :=
  (s.setChan n ((s.chan n).lost cause s.tb.clk)).kiteAlarm (s.chan n).owner 0x401 [word n, word cause]
theorem loseChan_eq (n cause : Nat) (s : State) : s.loseChan n cause = (s.lostTold n cause).leaveTrain n := by
  unfold State.lostTold
  rw [← now_owner (s.chan n) s.tb.clk]
  rfl
theorem lostTold_kite (n cause : Nat) (s : State) : (s.lostTold n cause).kite = (s.setChan n ((s.chan n).lost cause s.tb.clk)).kite := kiteAlarm_kite ..
theorem lostTold_chan (n cause : Nat) (s : State) : (s.lostTold n cause).chan n = (s.chan n).lost cause s.tb.clk :=
  (chan_congr (lostTold_kite n cause s) n).trans (chan_setChan ..)
theorem lostTold_chan_ne {m n : Nat} (h : m ≠ n) (cause : Nat) (s : State) : (s.lostTold n cause).chan m = s.chan m :=
  (chan_congr (lostTold_kite n cause s) m).trans (chan_setChan_ne s _ h)
theorem lostTold_train (n cause : Nat) (s : State) (t : Nat) : (s.lostTold n cause).train t = s.train t := train_congr (lostTold_kite n cause s) t
theorem lostTold_frame (n cause : Nat) (s : State) : KiteAndRecords s (s.lostTold n cause) :=
  (kiteOnly_setChan s n _).records.trans (kiteAndRecords_kiteAlarm ..)
theorem lostTold_toldOne (n cause : Nat) (a u : State) (h5 : (a.chan n).owner < 5) (hu : u.parts = (a.lostTold n cause).parts) :
    ToldOne (a.chan n).owner a u := toldOne_kiteAlarm (kiteOnly_setChan ..) h5 _ _ hu

/-- A channel alone has no train to leave. -/
theorem loseChan_alone {n : Nat} (cause : Nat) {s : State} (h : (s.chan n).role = 0) : s.loseChan n cause = s.lostTold n cause := by
  rw [loseChan_eq]
  refine if_pos ?_
  rw [lostTold_chan]
  exact (now_role ..).trans h

/-- What a channel alone that enters LOST leaves behind. -/
theorem loseChan_alone_spec {n : Nat} (cause : Nat) {a : State} (h : (a.chan n).role = 0) :
    (a.loseChan n cause).chan n = (a.chan n).lost cause a.tb.clk ∧ (∀ m, m ≠ n → (a.loseChan n cause).chan m = a.chan m) ∧
    ((a.chan n).owner < 5 → ToldOne (a.chan n).owner a (a.loseChan n cause)) ∧ KiteAndRecords a (a.loseChan n cause) := by
  rw [loseChan_alone cause h]
  exact ⟨lostTold_chan .., fun m hm => lostTold_chan_ne hm .., fun h5 => lostTold_toldOne n cause a _ h5 rfl, lostTold_frame ..⟩

/-- A member that is not its train's only or first channel leaves it with the train running on (R129, R131). -/
theorem leaveTrain_member {n m : Nat} {s : State} (hrole : (s.chan n).role = 2) (hhead : (s.train (s.chan n).train).slots.head? = some m) (hne : m ≠ n) :
    s.leaveTrain n = (s.setTrain (s.chan n).train { s.train (s.chan n).train with slots := (s.train (s.chan n).train).slots.filter (· ≠ n) }).setChan n
      { s.chan n with role := 0, train := 0, coast := false } := by
  have hstays : m ∈ (s.train (s.chan n).train).slots.filter (· ≠ n) :=
    List.mem_filter.mpr ⟨List.mem_of_mem_head? hhead, by simpa using hne⟩
  unfold State.leaveTrain; dsimp only
  rw [if_neg (by omega), train_setChan, train_setTrain, if_neg (List.ne_nil_of_mem hstays), if_neg]
  rintro ⟨hwas, -⟩
  exact hne (Option.some.inj (hhead.symm.trans hwas))

end Sys2Proof.Machine
end

section
/-! What Kite plans (R112) rests on no field of the command unit's own but the partners' rights. -/
namespace Sys2Proof.Machine
open Sys2Proof

/-- Two states of one `rest` whose partners have the same rights. -/
structure Alike (a b : State) : Prop where
  rest : a.rest = b.rest
  rights : ∀ q, (a.part q).rights = (b.part q).rights

/-- `s` with the fields that the command unit writes as `x` has them. -/
def State.withSide (s x : State) : State := { s with parts := x.parts, jrn := x.jrn, host := x.host, wire := x.wire, raised := x.raised }
theorem exists_withSide {a b : State} (h : a.rest = b.rest) : ∃ x, b = a.withSide x :=
  ⟨b, show b.rest.withSide b = a.rest.withSide b from congrArg (fun s : State => s.withSide b) h.symm⟩

namespace Alike

theorem refl (a : State) : Alike a a := ⟨rfl, fun _ => rfl⟩
theorem bound (env : Env) (a : State) : Alike a (a.bound env) :=
  ⟨(bound_rest env a).symm, fun q => (bound_part_view (fun x : Partner => x.rights) (fun _ _ => rfl) env a q).symm⟩

variable {a b : State}

theorem putKite (h : Alike a b) (k : Kite) : Alike (a.putKite k) (b.putKite k) := ⟨congrArg (fun s : State => s.putKite k) h.rest, h.rights⟩
theorem putJrn (h : Alike a b) (i j : Journal) : Alike (a.putJrn i) (b.putJrn j) := ⟨h.rest, h.rights⟩
theorem setChan (h : Alike a b) (n : Nat) (v : Chan) : Alike (a.setChan n v) (b.setChan n v) :=
  ⟨congrArg (fun s : State => s.setChan n v) h.rest, h.rights⟩
theorem setTrain (h : Alike a b) (t : Nat) (v : Train) : Alike (a.setTrain t v) (b.setTrain t v) :=
  ⟨congrArg (fun s : State => s.setTrain t v) h.rest, h.rights⟩
theorem raise (h : Alike a b) (p : Nat) (fault : Bool) (cause : Nat) (args : List Word) : Alike (a.raise p fault cause args) (b.raise p fault cause args) :=
  ⟨by rw [raise_rest, raise_rest, h.rest], fun q => by rw [raise_part_rights, raise_part_rights, h.rights]⟩
theorem ite {P : Prop} [Decidable P] {c d : State} (h : Alike a b) (h' : Alike c d) : Alike (if P then a else c) (if P then b else d) := by
  split <;> assumption
theorem kiteAlarm (h : Alike a b) (owner cause : Nat) (args : List Word) : Alike (a.kiteAlarm owner cause args) (b.kiteAlarm owner cause args) :=
  (h.raise ..).ite h
theorem foldl {β : Type} {f g : State → β → State} (hfg : ∀ c d x, Alike c d → Alike (f c x) (g d x)) (l : List β) (h : Alike a b) :
    Alike (l.foldl f a) (l.foldl g b) := by
  induction l generalizing a b with
  | nil => exact h
  | cons x l ih => exact ih (hfg a b x h)

/-! ## Trains -/

theorem setRoles (h : Alike a b) (t : Nat) : Alike (a.setRoles t) (b.setRoles t) := by
  obtain ⟨x, rfl⟩ := exists_withSide h.rest
  refine foldl (fun c d n hcd => ?_) _ h
  obtain ⟨y, rfl⟩ := exists_withSide hcd.rest
  exact hcd.setChan n _
/-- A channel that runs on without gain, as a new master does. -/
theorem coastOff (h : Alike a b) (n : Nat) :
    Alike (a.setChan n ({ a.chan n with coast := false }.steer a.tb.clk fun x => { x with gain := 0 }))
      (b.setChan n ({ b.chan n with coast := false }.steer b.tb.clk fun x => { x with gain := 0 })) := by
  obtain ⟨x, rfl⟩ := exists_withSide h.rest
  exact h.setChan n _
theorem promoted (h : Alike a b) (t p : Nat) :
    Alike (a.setTrain t { a.train t with promos := p }) (b.setTrain t { b.train t with promos := p }) := by
  obtain ⟨x, rfl⟩ := exists_withSide h.rest
  exact h.setTrain t _
theorem makeMaster (h : Alike a b) (t n : Nat) : Alike (a.makeMaster t n) (b.makeMaster t n) := by
  obtain ⟨x, rfl⟩ := exists_withSide h.rest
  refine setRoles (coastOff (foldl (fun c d m hcd => ?_) _ ((h.setChan n _).setTrain t _)) n) t
  obtain ⟨y, rfl⟩ := exists_withSide hcd.rest
  exact hcd.ite (hcd.setChan m _)
theorem enterCoast (h : Alike a b) (t : Nat) : Alike (a.enterCoast t) (b.enterCoast t) := by
  obtain ⟨x, rfl⟩ := exists_withSide h.rest
  refine kiteAlarm (foldl (fun c d n hcd => ?_) _ (h.setTrain t _)) _ _ _
  obtain ⟨y, rfl⟩ := exists_withSide hcd.rest
  exact hcd.setChan n _
theorem elect (h : Alike a b) (t old : Nat) : Alike (a.elect t old) (b.elect t old) := by
  obtain ⟨x, rfl⟩ := exists_withSide h.rest
  have hbest : (a.withSide x).strongestOf ((a.withSide x).train t).slots = a.strongestOf (a.train t).slots := rfl
  refine ite (h.setTrain t _) ?_
  rw [hbest]
  cases a.strongestOf (a.train t).slots with
  | some n => exact ((h.makeMaster t n).promoted t _).kiteAlarm ..
  | none => exact h.ite (h.enterCoast t)
theorem leaveAll (h : Alike a b) (ns : List Nat) : Alike (a.leaveAll ns) (b.leaveAll ns) := by
  refine foldl (fun c d t hcd => ?_) _ h
  obtain ⟨x, rfl⟩ := exists_withSide hcd.rest
  exact hcd.ite ((hcd.setTrain t _).ite (((hcd.setTrain t _).elect t _).ite (hcd.setTrain t _)))
theorem leaveTrain (h : Alike a b) (n : Nat) : Alike (a.leaveTrain n) (b.leaveTrain n) := by
  obtain ⟨x, rfl⟩ := exists_withSide h.rest
  have hgone := (h.setTrain (a.chan n).train { a.train (a.chan n).train with slots := (a.train (a.chan n).train).slots.filter (· ≠ n) }).setChan n
    { a.chan n with role := 0, train := 0, coast := false }
  exact h.ite ((hgone.setTrain _ _).ite ((hgone.elect _ _).ite hgone))

/-! ## Channels -/

theorem loseChan (h : Alike a b) (n cause : Nat) : Alike (a.loseChan n cause) (b.loseChan n cause) := by
  obtain ⟨x, rfl⟩ := exists_withSide h.rest
  exact ((h.setChan n _).kiteAlarm _ _ _).leaveTrain n
theorem breakTrain (h : Alike a b) (t : Nat) : Alike (a.breakTrain t) (b.breakTrain t) := by
  obtain ⟨x, rfl⟩ := exists_withSide h.rest
  refine foldl (fun c d n hcd => ?_) _ (h.setTrain t _)
  obtain ⟨y, rfl⟩ := exists_withSide hcd.rest
  exact ((hcd.setChan n _).setChan n _).ite ((hcd.setChan n _).loseChan n 5)
theorem freeChans (h : Alike a b) (ns : List Nat) : Alike (a.freeChans ns) (b.freeChans ns) :=
  leaveAll (foldl (fun _ _ n hcd => hcd.setChan n _) ns h) ns
theorem placeChan (h : Alike a b) (who n : Nat) (ps : List Word) : Alike (a.placeChan who n ps) (b.placeChan who n ps) := by
  obtain ⟨x, rfl⟩ := exists_withSide h.rest
  exact (((h.setChan n _).setTrain _ _).setRoles _).ite (h.setChan n _)
theorem placeTrain (h : Alike a b) (who t : Nat) (comb : Bool) (sl : List Nat) : Alike (a.placeTrain who t comb sl) (b.placeTrain who t comb sl) := by
  obtain ⟨x, rfl⟩ := exists_withSide h.rest
  refine setRoles (foldl (fun c d n hcd => ?_) _ (h.setTrain t _)) t
  obtain ⟨y, rfl⟩ := exists_withSide hcd.rest
  exact hcd.setChan n _

/-! ## Refusals, and the planned state -/

theorem chan (h : Alike a b) (n : Nat) : a.chan n = b.chan n := chan_congr (of_rest_kite h.rest) n
theorem train (h : Alike a b) (t : Nat) : a.train t = b.train t := train_congr (of_rest_kite h.rest) t
theorem assignRefusal (h : Alike a b) (who : Nat) (n : Option Nat) (ps : List Word) (cmds : List KiteCmd) (accepting : Bool) :
    a.assignRefusal who n ps cmds accepting = b.assignRefusal who n ps cmds accepting := by
  obtain ⟨x, rfl⟩ := exists_withSide h.rest
  rfl
theorem twins (h : Alike a b) (sl : List Nat) : a.twins sl = b.twins sl := by
  obtain ⟨x, rfl⟩ := exists_withSide h.rest
  induction sl with
  | nil => rfl
  | cons n ns ih => exact congrArg (_ || ·) ih
theorem formRefusal (h : Alike a b) (who : Nat) (t : Option Nat) (sl : List Nat) (cmds : List KiteCmd) :
    a.formRefusal who t sl cmds = b.formRefusal who t sl cmds := by
  unfold State.formRefusal
  rw [h.twins]
  obtain ⟨x, rfl⟩ := exists_withSide h.rest
  rfl
theorem releaseRefusal (h : Alike a b) (who n : Nat) : a.releaseRefusal who n = b.releaseRefusal who n := by
  unfold State.releaseRefusal
  rw [h.chan, h.rights]
theorem breakRefusal (h : Alike a b) (who t : Nat) : a.breakRefusal who t = b.breakRefusal who t := by
  unfold State.breakRefusal
  rw [h.train, h.rights]
/-- A refused command tells its partner, any other acts. -/
theorem refusedOr (h : Alike a b) (r : Option (Status × Nat)) (who jsn : Nat) {c d : State} (hact : Alike c d) :
    Alike (match r with | some r => a.raise who false 0x402 [word jsn, word r.2] | none => c)
      (match r with | some r => b.raise who false 0x402 [word jsn, word r.2] | none => d) := by
  cases r with
  | some r => exact h.raise ..
  | none => exact hact
theorem applyKite (h : Alike a b) (k : KiteCmd) : Alike (a.applyKite k) (b.applyKite k) := by
  obtain ⟨jsn, who, tick, op⟩ := k
  have htaken : Alike ((a.putKite { a.kite with cmds := a.kite.cmds.filter fun c => c.jsn ≠ jsn }).putJrn (a.jrn.unpin .work jsn))
      ((b.putKite { b.kite with cmds := b.kite.cmds.filter fun c => c.jsn ≠ jsn }).putJrn (b.jrn.unpin .work jsn)) := by
    rw [of_rest_kite h.rest]
    exact (h.putKite _).putJrn _ _
  unfold State.applyKite; dsimp only
  revert htaken
  generalize (a.putKite { a.kite with cmds := a.kite.cmds.filter fun c => c.jsn ≠ jsn }).putJrn _ = c
  generalize (b.putKite { b.kite with cmds := b.kite.cmds.filter fun c => c.jsn ≠ jsn }).putJrn _ = d
  intro hcd
  cases op with
  | assign n ps =>
    dsimp only
    rw [hcd.assignRefusal]
    exact hcd.refusedOr _ who jsn (hcd.placeChan who n ps)
  | release ns all =>
    cases all with
    | true =>
      have hmine : (ns.filter fun n => (c.chan n).owner == who) = ns.filter fun n => (d.chan n).owner == who := by simp only [hcd.chan]
      dsimp only
      rw [hmine]
      exact hcd.freeChans _
    | false =>
      dsimp only
      rw [hcd.releaseRefusal]
      exact hcd.refusedOr _ who jsn (hcd.freeChans _)
  | form t comb sl =>
    dsimp only
    rw [hcd.formRefusal]
    exact hcd.refusedOr _ who jsn (hcd.placeTrain who t comb sl)
  | brk ts all =>
    cases all with
    | true =>
      have hmine : (ts.filter fun t => (c.train t).state != 0 && (c.train t).owner == who) =
          ts.filter fun t => (d.train t).state != 0 && (d.train t).owner == who := by simp only [hcd.train]
      dsimp only
      rw [hmine]
      exact foldl (fun _ _ t h => h.breakTrain t) _ hcd
    | false =>
      dsimp only
      rw [hcd.breakRefusal]
      exact hcd.refusedOr _ who jsn (hcd.breakTrain _)
theorem planned (h : Alike a b) : Alike a.planned b.planned := by
  unfold State.planned
  rw [of_rest_kite h.rest]
  exact foldl (fun _ _ k h => h.applyKite k) _ h
theorem acceptAssign (h : Alike a b) (who : Nat) (n : Option Nat) (ps : List Word) : a.acceptAssign who n ps = b.acceptAssign who n ps := by
  unfold State.acceptAssign
  rw [h.planned.assignRefusal, h.train, of_rest_kite h.rest]

end Alike
end Sys2Proof.Machine
end

section
/-! Kite's commands (R110, R111, R126, R132, R133): accepted with the channel or train they name, or refused. -/
namespace Sys2Proof.Machine
open Sys2Proof

/-! ## Verdicts -/

section
variable {a b : State} (h : Alike a b) {k : Pkt}
include h

theorem opKiteAssign_named (hlen : k.ps.length = 7) (hch : fld (arg k.ps 0) 47 38 ≠ 0x3FF)
    (hok : a.acceptAssign k.partner (some (fld (arg k.ps 0) 47 38)) k.ps = none) :
    opKiteAssign.eval k b = kiteVerdict (fld (arg k.ps 0) 47 38) none k.partner (.assign (fld (arg k.ps 0) 47 38) k.ps) := by
  unfold opKiteAssign; dsimp only
  rw [if_neg (not_not_intro hlen), if_neg hch, ← h.acceptAssign, hok]
theorem opKiteRelease_one (hlen : k.ps.length = 1) (hsel : fld (arg k.ps 0) 47 46 = 0)
    (hok : a.planned.releaseRefusal k.partner (fld (arg k.ps 0) 41 32) = none) :
    opKiteRelease.eval k b = kiteVerdict (fld (arg k.ps 0) 41 32) none k.partner (.release [fld (arg k.ps 0) 41 32] false) := by
  unfold opKiteRelease; dsimp only
  rw [if_neg (by omega), if_neg (by omega), ← h.planned.releaseRefusal, hok]
theorem opKiteRelease_all (hlen : k.ps.length = 1) (hsel : fld (arg k.ps 0) 47 46 = 1) :
    opKiteRelease.eval k b = kiteVerdict ((List.range 512).filter fun n => (a.planned.chan n).owner == k.partner).length none k.partner
      (.release ((List.range 512).filter fun n => (a.planned.chan n).owner == k.partner) true) := by
  unfold opKiteRelease; dsimp only
  rw [if_neg (by omega), if_pos hsel]
  simp only [h.planned.chan]
theorem opTrainForm_named (hlen : k.ps.length = 5) (h2 : 2 ≤ fld (arg k.ps 0) 39 35) (h16 : fld (arg k.ps 0) 39 35 ≤ 16)
    (hrest : ((formSlots k.ps 20).drop (fld (arg k.ps 0) 39 35)).all (fun y => y == 0x1FF) = true) (ht : fld (arg k.ps 0) 47 41 ≠ 0x7F)
    (hok : a.planned.formRefusal k.partner (some (fld (arg k.ps 0) 47 41)) (formSlots k.ps (fld (arg k.ps 0) 39 35)) a.kite.cmds = none) :
    opTrainForm.eval k b = kiteVerdict (fld (arg k.ps 0) 47 41) none k.partner
      (.form (fld (arg k.ps 0) 47 41) (bit (arg k.ps 0) 40) (formSlots k.ps (fld (arg k.ps 0) 39 35))) := by
  have hrest' : ¬ ((formSlots k.ps 20).drop (fld (arg k.ps 0) 39 35)).any (fun x => x != 0x1FF) = true := by
    simpa [List.any_eq_true, List.all_eq_true] using hrest
  unfold opTrainForm; dsimp only
  rw [if_neg (by omega), if_neg (by omega), if_neg hrest', if_neg ht, ← h.planned.formRefusal, ← of_rest_kite h.rest, hok]
theorem opTrainBreak_one (hlen : k.ps.length = 1) (hsel : fld (arg k.ps 0) 47 46 = 0) :
    opTrainBreak.eval k b = kiteVerdict (fld (arg k.ps 0) 45 40) (a.planned.breakRefusal k.partner (fld (arg k.ps 0) 45 40)) k.partner
      (.brk [fld (arg k.ps 0) 45 40] false) := by
  unfold opTrainBreak; dsimp only
  rw [if_neg (by omega), if_neg (by omega), ← h.planned.breakRefusal]
theorem opTrainBreak_all (hlen : k.ps.length = 1) (hsel : fld (arg k.ps 0) 47 46 = 1) :
    opTrainBreak.eval k b = kiteVerdict (fld (arg k.ps 0) 45 40) none k.partner
      (.brk ((List.range 64).filter fun x => (a.planned.train x).state != 0 && (a.planned.train x).owner == k.partner) true) := by
  unfold opTrainBreak; dsimp only
  rw [if_neg (by omega), if_pos hsel]
  simp only [h.planned.train]
end

theorem breakRefusal_free {s : State} {t : Nat} (who : Nat) (h : (s.train t).state = 0) : s.breakRefusal who t = some (.notPermitted, 6) :=
  if_neg fun hrun => hrun.1 h

/-! ## Completion -/

/-- Kite with one more command accepted, for the tick of R112. -/
def State.accepting (a : State) (who : Nat) (op : KiteOp) : State :=
  a.putKite { a.kite with cmds := a.kite.cmds ++ [⟨a.jrn.next, who, kiteTick a.tb.q0, op⟩] }

/-- A command of Kite's that no row of Table 3 refuses is ACCEPTED, and waits for its tick (R111, R112). -/
theorem kiteCommand_accepted (op : OpSpec) (t : Lapse) (env : Env) (ps : List Word) (s : State) (id : Nat) (kop : KiteOp)
    (h : (s.elapse t).admits op.code 2 op.modes env ps = true) (hcode : 3 < op.code) (hr : op.rights ≤ 2) (hlen : ps.length ≤ 7)
    (hv : op.eval (pktOf op.code env ps (s.elapse t)) ((s.elapse t).bound env) = kiteVerdict id none env.partner kop) :
    Completes op.code 0 [kiteWord id 0] env (s.elapse t) (runOp op t env ps s) fun u => u.rest = ((s.elapse t).accepting env.partner kop).rest := by
  refine runOp_completes_jsn op t env ps 2 s _ _ _ h hcode hr hv rfl rfl ?_ (fun _ _ => ⟨rfl, rfl⟩) fun b u hb hu => ?_
  · have hsize : entriesFor (ps.length + 1) + 1 ≤ 1000 := by unfold entriesFor; omega
    exact hsize
  · obtain ⟨x, rfl⟩ := exists_withSide hb.symm
    exact hu

end Sys2Proof.Machine
end

section
/-! KITE_APPLICATION_TICK (R112, R113, R133): one command applied or abandoned, and the claim on Kite's commands (O39). -/
namespace Sys2Proof.Machine
open Sys2Proof

/-! ## The tick, for a single command -/

/-- A tick of D5 has begun. -/
def State.ticked (a : State) : State := a.putKite { a.kite with lastMs := msOf a.tb.q0, blk := a.kite.blk + 1 }
/-- A command leaves the queue. -/
def State.taken (k : KiteCmd) (s : State) : State :=
  (s.putKite { s.kite with cmds := s.kite.cmds.filter fun c => c.jsn ≠ k.jsn }).putJrn (s.jrn.unpin .work k.jsn)
theorem taken_frame (a : State) (k : KiteCmd) : KiteAndRecords a (a.ticked.taken k) := rfl
/-- A row of Table 3 sees nothing of the tick. -/
theorem assignRefusal_taken (a : State) (k : KiteCmd) (who : Nat) (n : Option Nat) (ps : List Word) (cmds : List KiteCmd) (accepting : Bool) :
    (a.ticked.taken k).assignRefusal who n ps cmds accepting = a.assignRefusal who n ps cmds accepting := by
  unfold State.assignRefusal
  rfl
/-- Its ALARM is the only record: that it leaves the queue takes no JSN. -/
theorem toldOne_raise_taken (a : State) (k : KiteCmd) (cause : Nat) (args : List Word) :
    ToldOne k.who a ((a.ticked.taken k).raise k.who false cause args) := by
  intro hfar
  have hroom : (a.ticked.taken k).jsnRoom 1 := jsnRoom_mono (a := a) (m := 16) (Nat.add_le_add_left (by decide) a.jrn.next) rfl hfar
  have hesn := form_esn k.who false (causeWords false cause (a.ticked.taken k).tb.q0 args) (a.ticked.taken k) k.who
  rw [← raise_eq_form hroom, if_pos rfl] at hesn
  exact hesn
/-- Channels whose stream has no input enter LOST (R109). -/
def State.loseAbsent (s : State) : State :=
  ((s.kite.chans.filter fun e => e.2.active && s.noInput e.2.stream).map fun e => e.1).foldl
    (fun (s : State) n => if (s.chan n).active then s.loseChan n 3 else s) s

theorem foldl_fixed {α β : Type} {f : α → β → α} {l : List β} {a : α} (h : ∀ b ∈ l, f a b = a) : l.foldl f a = a := by
  induction l with
  | nil => rfl
  | cons b l ih =>
    rw [List.foldl_cons, h b List.mem_cons_self]
    exact ih fun c hc => h c (List.mem_cons_of_mem _ hc)
/-- No channel that works lacks its stream's input. -/
theorem loseAbsent_none {s : State} (h : ∀ e ∈ s.kite.chans, e.2.active = true → s.noInput e.2.stream = true → (s.chan e.1).active = false) :
    s.loseAbsent = s := by
  refine foldl_fixed fun n hn => if_neg ?_
  obtain ⟨e, he, rfl⟩ := List.mem_map.mp hn
  obtain ⟨hmem, hdead⟩ := List.mem_filter.mp he
  obtain ⟨hact, hin⟩ := Bool.and_eq_true_iff.mp hdead
  rw [h e hmem hact hin]
  exact Bool.noConfusion

/-! ## One command applied (R112) -/

section
variable {s : State} {k : KiteCmd}

theorem applyKite_assign {n : Nat} {ps : List Word} (hop : k.op = .assign n ps)
    (hok : (s.taken k).assignRefusal k.who (some n) ps [] false = none) : s.applyKite k = (s.taken k).placeChan k.who n ps := by
  unfold State.taken at hok
  unfold State.applyKite; dsimp only
  rw [hop]; dsimp only
  rw [hok]
  rfl
theorem applyKite_abandon {n : Nat} {ps : List Word} {r : Status × Nat} (hop : k.op = .assign n ps)
    (hbad : (s.taken k).assignRefusal k.who (some n) ps [] false = some r) :
    s.applyKite k = (s.taken k).raise k.who false 0x402 [word k.jsn, word r.2] := by
  unfold State.taken at hbad
  unfold State.applyKite; dsimp only
  rw [hop]; dsimp only
  rw [hbad]
  rfl
theorem applyKite_release {n : Nat} (hop : k.op = .release [n] false) (hok : (s.taken k).releaseRefusal k.who n = none) :
    s.applyKite k = (s.taken k).freeChan n := by
  unfold State.taken at hok
  unfold State.applyKite; dsimp only
  rw [hop]; dsimp only [List.headD]
  rw [hok]
  rfl
end

/-- Where no train runs, channels that become IDLE leave none (R133). -/
theorem freeChan_trainless {n : Nat} {s : State} (h : s.kite.trains = []) : s.freeChan n = s.setChan n {} := by
  refine foldl_fixed fun t _ => if_pos ?_
  have htrain : (s.setChan n {}).train t = {} := train_of_empty h t
  show ((s.setChan n {}).train t).slots.filter _ = ((s.setChan n {}).train t).slots
  rw [htrain]
  rfl

section
variable {t : Lapse} {s a : State} {k : KiteCmd} (ha : s.elapse t = a) (hon : a.isOn 5 = true) (hms : a.kite.lastMs ≠ msOf a.tb.q0)
  (hcmds : a.kite.cmds = [k]) (hdue : k.tick ≤ msOf a.tb.q0)
include ha hon hms hcmds hdue

/-- The only command acts at its tick; then channels without input are lost. -/
theorem kiteTick_one {u : State} (hact : a.ticked.applyKite k = u)
    (hlive : ∀ e ∈ u.kite.chans, e.2.active = true → u.noInput e.2.stream = true → (u.chan e.1).active = false) :
    exec (.kiteApplicationTick t) s = .next u := by
  have hall : (a.kite.cmds.filter fun k => decide (k.tick ≤ msOf a.tb.q0)) = [k] := by simp [hcmds, hdue]
  show execKiteApplicationTick t s = .next u
  unfold execKiteApplicationTick
  rw [ha]; dsimp only
  rw [if_pos ⟨hon, hms⟩, hall, ← loseAbsent_none hlive, ← hact]
  rfl
omit ha hon hms hdue in
theorem taken_kite : (a.ticked.taken k).kite = { a.kite with cmds := [], lastMs := msOf a.tb.q0, blk := a.kite.blk + 1 } := by
  unfold State.taken State.ticked
  simp [hcmds]

section
variable {n : Nat} {ps : List Word} (hop : k.op = .assign n ps) (hchans : a.kite.chans = [])
include hop hchans

/-- An assigned channel alone starts (R113). -/
theorem kiteTick_assigned (hok : a.assignRefusal k.who (some n) ps [] false = none) (halone : bit (arg ps 0) 7 = false)
    (hin : a.noInput (startChan k.who (a.prof (fld (arg ps 0) 21 17)) ps a.tb.q0 a.tb.clk).stream = false) :
    Answers (exec (.kiteApplicationTick t) s) fun u =>
      u.chan n = startChan k.who (a.prof (fld (arg ps 0) 21 17)) ps a.tb.q0 a.tb.clk ∧ (∀ m, m ≠ n → u.chan m = a.chan m) ∧
      u.kite.cmds = [] ∧ u.kite.lastMs = msOf a.tb.q0 ∧ u.kite.blk = a.kite.blk + 1 ∧ KiteAndRecords a u := by
  generalize hc : startChan k.who (a.prof (fld (arg ps 0) 21 17)) ps a.tb.q0 a.tb.clk = c at hin ⊢
  have hkite := taken_kite hcmds
  have hact : a.ticked.applyKite k = (a.ticked.taken k).setChan n c := by
    rw [applyKite_assign (s := a.ticked) hop ((assignRefusal_taken ..).trans hok), ← hc]
    unfold State.placeChan; dsimp only
    rw [halone]
    rfl
  have hlone : ((a.ticked.taken k).setChan n c).kite.chans = tput {} n c [] := by
    show tput {} n c (a.ticked.taken k).kite.chans = _
    rw [hkite, ← hchans]
  refine ⟨_, kiteTick_one ha hon hms hcmds hdue hact fun e he _ hdead => ?_, chan_setChan .., fun m hm => ?_, ?_, ?_, ?_,
    (taken_frame a k).trans (kiteOnly_setChan ..).records⟩
  · rw [hlone] at he
    obtain rfl : e = (n, c) := by
      unfold tput at he
      split at he
      · exact absurd he (List.not_mem_nil)
      · exact List.mem_singleton.mp he
    exact absurd (hin.symm.trans hdead) Bool.false_ne_true
  · exact chan_setChan_ne (a.ticked.taken k) c hm
  · exact congrArg Kite.cmds hkite
  · exact congrArg Kite.lastMs hkite
  · exact congrArg Kite.blk hkite

/-- A command that a row of Table 3 refuses by then is abandoned, and its partner told (R112). -/
theorem kiteTick_abandoned (hbad : (a.assignRefusal k.who (some n) ps [] false).isSome = true) :
    Answers (exec (.kiteApplicationTick t) s) fun u =>
      u.kite = { a.kite with cmds := [], lastMs := msOf a.tb.q0, blk := a.kite.blk + 1 } ∧ ToldOne k.who a u ∧ KiteAndRecords a u := by
  obtain ⟨r, hr⟩ := Option.isSome_iff_exists.mp hbad
  have hact := applyKite_abandon (s := a.ticked) hop ((assignRefusal_taken ..).trans hr)
  have hkite := (raise_kite k.who false 0x402 [word k.jsn, word r.2] (a.ticked.taken k)).trans (taken_kite hcmds)
  refine ⟨_, kiteTick_one ha hon hms hcmds hdue hact fun e he => ?_, hkite, ?_, ?_⟩
  · rw [hkite] at he
    exact absurd (hchans ▸ he) List.not_mem_nil
  · exact toldOne_raise_taken a k 0x402 _
  · exact (taken_frame a k).trans (kiteAndRecords_raise ..)
end

/-- A released channel becomes IDLE (R133). -/
theorem kiteTick_released {n : Nat} (hop : k.op = .release [n] false) (hn : n < 512) (howner : (a.chan n).owner = k.who) (htrains : a.kite.trains = [])
    (hothers : ∀ m, m < 512 → m ≠ n → (a.chan m).active = false) (hkeys : (a.kite.chans.all fun e => decide (e.1 < 512)) = true) :
    Answers (exec (.kiteApplicationTick t) s) fun u =>
      u.chan n = {} ∧ (∀ m, m ≠ n → u.chan m = a.chan m) ∧ u.kite.cmds = [] ∧ u.kite.trains = a.kite.trains ∧ KiteAndRecords a u := by
  have hok : (a.ticked.taken k).releaseRefusal k.who n = none := by
    unfold State.releaseRefusal; dsimp only
    rw [if_neg (by omega), if_pos (.inl howner)]
  have hact := (applyKite_release hop hok).trans (freeChan_trainless htrains)
  refine ⟨_, kiteTick_one ha hon hms hcmds hdue hact fun e he _ _ => ?_, chan_setChan .., fun m hm => ?_, ?_, rfl,
    (taken_frame a k).trans (kiteOnly_setChan ..).records⟩
  · by_cases hm : e.1 = n
    · rw [hm, chan_setChan]; rfl
    · rw [chan_setChan_ne _ _ hm]
      have hmem : e ∈ a.kite.chans := (List.mem_filter.mp he).1
      exact hothers e.1 (of_decide_eq_true (List.all_eq_true.mp hkeys e hmem)) hm
  · exact chan_setChan_ne (a.ticked.taken k) {} hm
  · exact congrArg Kite.cmds (taken_kite hcmds)
end

/-! ## The claim -/

/-- Settles O39: each command's verdict against the planned state, and its tick by what `applyKite` does with it. -/
theorem channelCommands : Obligations.ChannelCommands := by
  refine ⟨fun t env ps s => ?_, fun t env ps s => ?_, fun t s k n ps => ?_⟩
  · have hal := Alike.bound env (s.elapse t)
    refine ⟨fun h hlen hch hok => ?_, fun h hlen => ?_, fun h hlen hsel hok => ?_, fun h hlen hsel => ?_, fun h hlen hsel hok => ?_,
      fun h hlen hsel => ?_, fun h hlen hsel hfree => ?_⟩
    · exact kiteCommand_accepted opKiteAssign t env ps s _ _ h (by decide) (by decide) hlen.le
        (opKiteAssign_named (k := pktOf 0x050 env ps (s.elapse t)) hal hlen hch hok)
    · exact runOp_refuses opKiteAssign t env ps 2 s .badParam _ h (by decide) (by decide) (List.cons_ne_nil _ _) (if_pos hlen) (by simp)
    · exact kiteCommand_accepted opKiteRelease t env ps s _ _ h (by decide) (by decide) (by omega)
        (opKiteRelease_one (k := pktOf 0x051 env ps (s.elapse t)) hal hlen hsel hok)
    · exact kiteCommand_accepted opKiteRelease t env ps s _ _ h (by decide) (by decide) (by omega)
        (opKiteRelease_all (k := pktOf 0x051 env ps (s.elapse t)) hal hlen hsel)
    · have hv := opTrainBreak_one (k := pktOf 0x053 env ps (s.elapse t)) hal hlen hsel
      exact kiteCommand_accepted opTrainBreak t env ps s _ _ h (by decide) (by decide) (by omega)
        (hv.trans (congrArg (fun r => kiteVerdict _ r env.partner _) hok))
    · exact kiteCommand_accepted opTrainBreak t env ps s _ _ h (by decide) (by decide) (by omega)
        (opTrainBreak_all (k := pktOf 0x053 env ps (s.elapse t)) hal hlen hsel)
    · have hv := opTrainBreak_one (k := pktOf 0x053 env ps (s.elapse t)) hal hlen hsel
      exact runOp_refuses opTrainBreak t env ps 2 s .notPermitted _ h (by decide) (by decide) (List.cons_ne_nil _ _)
        (hv.trans (congrArg (fun r => kiteVerdict _ r env.partner _) (breakRefusal_free env.partner hfree))) (by simp)
  · intro a x n h hlen h2 h16 hrest hx hok
    exact kiteCommand_accepted opTrainForm t env ps s _ _ h (by decide) (by decide) (by omega)
      (opTrainForm_named (k := pktOf 0x052 env ps a) (Alike.bound env a) hlen h2 h16 hrest hx hok)
  · refine ⟨fun hon hms hcmds hdue hop hchans hok halone hin => ?_, fun hon hms hcmds hdue hop _ hchans hbad => ?_,
      fun hon hms hcmds hdue hop hn howner htrains hothers hkeys => ?_⟩
    · obtain ⟨u, hu, hchan, hne, hgone, hlast, hblk, hframe⟩ := kiteTick_assigned rfl hon hms hcmds hdue hop hchans hok halone hin
      exact ⟨u, hu, hchan, rfl, fun m _ hm => hne m hm, hgone, hlast, hblk, hframe⟩
    · exact kiteTick_abandoned rfl hon hms hcmds hdue hop hchans hbad
    · obtain ⟨u, hu, hchan, hne, hrest⟩ := kiteTick_released rfl hon hms hcmds hdue hop hn howner htrains hothers hkeys
      exact ⟨u, hu, hchan, fun m _ hm => hne m hm, hrest⟩

end Sys2Proof.Machine
end

section
/-! Losses and train timeouts (R109, R122, R123, R130-R132, R134): a channel enters LOST or leaves it, a coasting train breaks. -/
namespace Sys2Proof.Machine
open Sys2Proof

section
variable {t : Lapse} {s a : State} {n : Nat} (ha : s.elapse t = a)
include ha

/-- What a channel alone leaves behind as it enters LOST: its NCOs as they stand, its owner told. -/
def LostAlone (n cause : Nat) (a u : State) : Prop :=
  u.chan n = (a.chan n).lost cause a.tb.clk ∧ (∀ m, m ≠ n → u.chan m = a.chan m) ∧
  ((a.chan n).owner < 5 → ToldOne (a.chan n).owner a u) ∧ KiteAndRecords a u

theorem noPullIn_lost (hstate : (a.chan n).state = 1) (hrole : (a.chan n).role = 0) (hon : a.isOn 5 = true)
    (hlate : (a.chan n).since + fld (a.profOf n).w1 33 22 * 654720 ≤ a.tb.clk) : Answers (exec (.noPullIn t n) s) (LostAlone n 1 a) := by
  refine ⟨_, ?_, loseChan_alone_spec 1 hrole⟩
  show execNoPullIn t n s = _
  unfold execNoPullIn
  rw [ha]
  exact if_pos ⟨hstate, hon, hlate⟩

theorem cn0Loss_lost (hstate : (a.chan n).state = 2) (hrole : (a.chan n).role = 0) (hon : a.isOn 5 = true)
    (hlow : (a.chan n).low.any (fun k => decide (k + (fld (a.profOf n).w1 21 10 + 99) / 100 * 65472000 ≤ a.tb.clk)) = true) :
    Answers (exec (.cn0Loss t n) s) (LostAlone n 2 a) := by
  obtain ⟨k, hk, hlate⟩ := (Option.any_eq_true _ _).mp hlow
  refine ⟨_, ?_, loseChan_alone_spec 2 hrole⟩
  show execCn0Loss t n s = _
  unfold execCn0Loss
  rw [ha]; dsimp only
  rw [hk]
  exact if_pos ⟨hstate, hrole, hon, of_decide_eq_true hlate⟩

theorem memberDrop_lost {m : Nat} (hstate : (a.chan n).state = 2) (hrole : (a.chan n).role = 2) (hhead : (a.train (a.chan n).train).slots.head? = some m)
    (hne : m ≠ n) (hon : a.isOn 5 = true) (hdrop : (a.chan n).drop.any (fun k => decide (k + 1309440000 ≤ a.tb.clk)) = true) :
    Answers (exec (.memberDrop t n) s) fun u =>
      u.chan n = { (a.chan n).lost 4 a.tb.clk with role := 0, train := 0, coast := false } ∧
      (u.train (a.chan n).train).slots = (a.train (a.chan n).train).slots.filter (· ≠ n) ∧
      (∀ m, m ≠ n → u.chan m = a.chan m) ∧ ((a.chan n).owner < 5 → ToldOne (a.chan n).owner a u) ∧ KiteAndRecords a u := by
  obtain ⟨k, hk, hlate⟩ := (Option.any_eq_true _ _).mp hdrop
  have hexec : execMemberDrop t n s = .next (a.loseChan n 4) := by
    unfold execMemberDrop
    rw [ha]; dsimp only
    rw [hk]
    exact if_pos ⟨hstate, hrole, hon, of_decide_eq_true hlate⟩
  have hlost := lostTold_chan n 4 a
  have htrain : ((a.lostTold n 4).chan n).train = (a.chan n).train := by rw [hlost]; exact now_train ..
  have hslots : (a.lostTold n 4).train (a.chan n).train = a.train (a.chan n).train := lostTold_train ..
  have hleft := leaveTrain_member (s := a.lostTold n 4) (n := n) (m := m) (by rw [hlost]; exact (now_role ..).trans hrole)
    (by rw [htrain, hslots]; exact hhead) hne
  rw [htrain, hslots, hlost] at hleft
  refine ⟨_, hexec.trans (congrArg _ ((loseChan_eq ..).trans hleft)), chan_setChan .., ?_, fun m hm => ?_, fun h5 => ?_, ?_⟩
  · rw [train_setChan, train_setTrain]
  · rw [chan_setChan_ne _ _ hm, chan_setTrain, lostTold_chan_ne hm]
  · exact lostTold_toldOne n 4 a _ h5 rfl
  · exact (lostTold_frame n 4 a).trans ((kiteOnly_setTrain ..).trans (kiteOnly_setChan ..)).records

theorem lostToIdle_freed (hstate : (a.chan n).state = 3) (hlate : (a.chan n).since + 654720000 ≤ a.tb.clk) :
    exec (.lostToIdle t n) s = .next (a.setChan n {}) := by
  show execLostToIdle t n s = _
  unfold execLostToIdle
  rw [ha]
  exact if_pos ⟨hstate, hlate⟩

theorem d5RetentionTimeout_lost {c : Chan} (hchans : a.kite.chans = [(n, c)]) (hact : c.active = true) (hrole : c.role = 0) (hret : a.dom 5 = 1)
    (hlate : a.kite.retClk.any (fun k => decide (k + 6547200000 < a.tb.clk)) = true) : Answers (exec (.d5RetentionTimeout t) s) (LostAlone n 6 a) := by
  obtain ⟨k, hk, hk'⟩ := (Option.any_eq_true _ _).mp hlate
  have hc : a.chan n = c := by unfold State.chan; rw [hchans]; exact if_pos rfl
  have hns : (a.kite.chans.filter fun e => e.2.active) = [(n, c)] := by simp [hchans, hact]
  refine ⟨_, ?_, loseChan_alone_spec 6 (hc ▸ hrole)⟩
  show execD5RetentionTimeout t s = _
  unfold execD5RetentionTimeout
  rw [ha]; dsimp only
  rw [hk]; dsimp only
  rw [if_pos ⟨hret, of_decide_eq_true hk'⟩, hns]
  exact congrArg _ (if_pos (hc ▸ hact))
end

/-! ## A coasting train breaks (R130, R132) -/

/-- A channel whose train breaks runs on alone, without gain. -/
def Chan.untrained (clk : Nat) (c : Chan) : Chan := { c.steer clk fun x => { x with gain := 0 } with role := 0, train := 0, coast := false }
/-- Above its threshold it pulls in again where the train coasted. -/
def Chan.pullsIn (clk : Nat) (c : Chan) : Chan :=
  { c with state := 1, since := clk, mlock := false, lp := { c.lp with vel := c.doppler, dop := c.doppler, acc := 0, ci := 0, ofsVel := 0, ofsRate := 0 } }
theorem untrained_prof (c : Chan) (clk : Nat) : (c.untrained clk).prof = c.prof := by
  unfold Chan.untrained Chan.steer Chan.now; dsimp only; split <;> rfl
theorem untrained_cn0 (c : Chan) (clk : Nat) : (c.untrained clk).cn0 = c.cn0 := by
  unfold Chan.untrained Chan.steer Chan.now; dsimp only; split <;> rfl

theorem breakTrain_coasting {a : State} {x m : Nat} (hstate : (a.train x).state = 2) (hslots : (a.train x).slots = [m])
    (hcn0 : (a.profOf m).cn0Loss ≤ (a.chan m).cn0) :
    (a.breakTrain x).chan m = ((a.chan m).untrained a.tb.clk).pullsIn a.tb.clk ∧ (∀ k, k ≠ m → (a.breakTrain x).chan k = a.chan k) ∧
    (a.breakTrain x).train x = {} ∧ KiteOnly a (a.breakTrain x) := by
  have habove : ((a.chan m).untrained a.tb.clk).prof.cn0Loss ≤ ((a.chan m).untrained a.tb.clk).cn0 := by
    rw [untrained_prof, untrained_cn0]
    exact hcn0
  have hbroken : a.breakTrain x =
      ((a.setTrain x {}).setChan m ((a.chan m).untrained a.tb.clk)).setChan m (((a.chan m).untrained a.tb.clk).pullsIn a.tb.clk) := by
    unfold State.breakTrain; dsimp only
    rw [hslots, hstate, List.foldl_cons, List.foldl_nil, chan_setTrain, if_pos]
    · rfl
    · exact habove
  rw [hbroken]
  refine ⟨chan_setChan .., fun k hk => ?_, ?_, ((kiteOnly_setTrain ..).trans (kiteOnly_setChan ..)).trans (kiteOnly_setChan ..)⟩
  · rw [chan_setChan_ne _ _ hk, chan_setChan_ne _ _ hk, chan_setTrain]
  · rw [train_setChan, train_setChan, train_setTrain]

theorem trainCoastTimeout_breaks {t : Lapse} {s a : State} {x m : Nat} (ha : s.elapse t = a) (hstate : (a.train x).state = 2)
    (hslots : (a.train x).slots = [m]) (hlate : (a.train x).coastClk + a.kite.coastMs * 654720 ≤ a.tb.clk)
    (hcn0 : (a.profOf m).cn0Loss ≤ (a.chan m).cn0) (h5 : (a.train x).owner < 5) :
    Answers (exec (.trainCoastTimeout t x) s) fun u =>
      u.train x = {} ∧ u.chan m = ((a.chan m).untrained a.tb.clk).pullsIn a.tb.clk ∧ (∀ k, k ≠ m → u.chan k = a.chan k) ∧ ToldOne (a.train x).owner a u ∧ KiteAndRecords a u := by
  obtain ⟨hchan, hne, hfree, honly⟩ := breakTrain_coasting hstate hslots hcn0
  have hexec : execTrainCoastTimeout t x s = .next ((a.breakTrain x).kiteAlarm (a.train x).owner 0x405 []) := by
    unfold execTrainCoastTimeout
    rw [ha]
    exact if_pos ⟨hstate, hlate⟩
  have hkite := kiteAlarm_kite (a.train x).owner 0x405 [] (a.breakTrain x)
  exact ⟨_, hexec, (train_congr hkite x).trans hfree, (chan_congr hkite m).trans hchan, fun k hk => (chan_congr hkite k).trans (hne k hk),
    toldOne_kiteAlarm honly h5 _ _ rfl, honly.records.trans (kiteAndRecords_kiteAlarm ..)⟩

end Sys2Proof.Machine
end

section
/-! KITE_LOOP_UPDATE (R118-R121, R124) and KITE_EVALUATION (R122, R123) of a channel alone. -/
namespace Sys2Proof.Machine
open Sys2Proof

/-! ## Integrations leave a channel's state (R109, R120) -/

theorem symbol_state (k : Integ) (c : Chan) : (c.symbol k).state = c.state := by
  unfold Chan.symbol; dsimp only
  split
  · rfl
  · simp only [apply_ite Chan.state, ite_self]
theorem take1_state (c : Chan) (bytes : List (BitVec 8)) : (c.take1 bytes).state = c.state := by
  unfold Chan.take1
  split
  · rfl
  · dsimp only
    split
    · exact symbol_state ..
    · split <;> split <;> rfl
theorem takeInts_state (absent : Bool) (clk : Nat) (ints : List (List (BitVec 8))) (c : Chan) : (c.takeInts absent clk ints).state = c.state := by
  refine foldl_keeps Chan.state _ (fun c b => ?_) ints c
  split
  · exact take1_state ..
  · rfl

/-! ## The loops of a channel alone (R121) -/

/-- The fields of a channel that its own loops leave alone. -/
def Chan.offLoops (c : Chan) : Chan := { c with lp := {}, nco := {}, rateClk := 0, hist := [] }
theorem rates_offLoops (clk : Nat) (dop chips : Rat) (c : Chan) : (c.rates clk dop chips).offLoops = c.offLoops := by
  unfold Chan.rates Chan.steer Chan.now; dsimp only
  split <;> rfl
theorem rates_lp (clk : Nat) (dop chips : Rat) (c : Chan) : (c.rates clk dop chips).lp = c.lp := by
  unfold Chan.rates Chan.steer Chan.now; dsimp only
  split <;> rfl
theorem rates_carate (clk : Nat) (dop chips : Rat) (c : Chan) : (c.rates clk dop chips).nco.carate = carrUnits dop := rfl
theorem rates_clk {c : Chan} (h : c.state ≠ 3) (clk : Nat) (dop chips : Rat) : (c.rates clk dop chips).nco.clk = clk := by
  unfold Chan.rates Chan.steer Chan.now
  rw [if_neg h]
  rfl
theorem ownLoops_offLoops (p : Profile) (ms clk : Nat) (d : Disc) (c : Chan) : (c.ownLoops p ms clk d).offLoops = c.offLoops :=
  rates_offLoops ..
theorem ownLoops_view {γ : Type} (f : Chan → γ) (hf : ∀ x : Chan, f x.offLoops = f x) (p : Profile) (ms clk : Nat) (d : Disc) (c : Chan) :
    f (c.ownLoops p ms clk d) = f c := (hf _).symm.trans ((congrArg f (ownLoops_offLoops p ms clk d c)).trans (hf c))
theorem ownLoops_carate (p : Profile) (ms clk : Nat) (d : Disc) (c : Chan) :
    (c.ownLoops p ms clk d).nco.carate = carrUnits (c.ownLoops p ms clk d).lp.dop := by
  unfold Chan.ownLoops
  rw [rates_lp]
  rfl
theorem ownLoops_clk {c : Chan} (h : c.state ≠ 3) (p : Profile) (ms clk : Nat) (d : Disc) : (c.ownLoops p ms clk d).nco.clk = clk := by
  unfold Chan.ownLoops
  exact rates_clk (by exact h) ..

/-- A channel as its own update of the loops leaves it: by then a waiting CH_CTRL is in force, with its profile (R118, R119). -/
def Chan.updated (prof : Nat → Profile) (ks : List Integ) (c : Chan) : Chan :=
  let ctrl := c.ctrlNext.getD c.ctrl
  { c with ctrl := ctrl, ctrlNext := none, prof := prof (fld ctrl 47 43), loopCnt := c.cnt, pl := (c.pl.1 + lockTerm ks, c.pl.2 + 1) }
/-- The carrier discriminator shows a slip of the channel's locked PLL (R124). -/
def Chan.slipSeen (e : Rat) (c : Chan) : Bool :=
  let lim : Rat := if c.info.pilot then 1 / 4 else 1 / 8
  c.plock && (decide (lim < e) || decide (e < -lim))
theorem updateLoops_alone {n : Nat} {s : State} {c : Chan} (ks : List Integ) (hc : s.chan n = c) (h : c.role = 0) :
    let w := c.ownLoops c.prof ks.length s.tb.clk (c.disc ks)
    s.updateLoops n ks = s.setChan n ((if c.slipSeen (c.disc ks).e then w.slipped s.tb.q0 else w).updated s.prof ks) := by
  intro w
  unfold State.updateLoops
  rw [hc]
  extract_lets c0 ms d lim bad tr m coasting c1 lp c2 c3 ctrl c4 s1
  have hcoast : coasting = false := by
    show (c.role != 0 && _) = false
    rw [h]; rfl
  have h1 : c1 = w := by
    show (if coasting then c else if c.role = 2 then _ else c.ownLoops c.prof ms s.tb.clk (if c.role = 1 ∧ tr.combine then s.combined tr c d else d)) = w
    rw [hcoast, if_neg Bool.false_ne_true, if_neg (by omega), if_neg (by omega)]
  have hrole : w.role = 0 := (ownLoops_view Chan.role (fun _ => rfl) ..).trans h
  have h2 : c2 = w := (if_pos (h1 ▸ hrole)).trans h1
  have h3 : c3 = if c.slipSeen (c.disc ks).e then w.slipped s.tb.q0 else w := by
    show (if bad then c2.slipped s.tb.q0 else c2) = _
    rw [h2]; rfl
  have h4 : c4 = c3.updated s.prof ks := rfl
  have hrole4 : c4.role = 0 := by
    rw [h4, h3]
    split
    · exact hrole
    · exact hrole
  rw [if_neg (by omega), ← h3, ← h4]

section
variable {t : Lapse} {s a : State} {n : Nat} {ints : List (List (BitVec 8))} {c : Chan} (ha : s.elapse t = a) (hn : n < 512)
  (hact : (a.chan n).active = true) (hon : a.isOn 5 = true) (hgives : a.clk.pllF.gives = true)
  (hc : (a.chan n).takeInts (a.noInput (a.chan n).stream) a.tb.clk ints = c)
include ha hn hact hon hgives hc

theorem kiteLoopUpdate_waiting (hwait : c.interval = none) : exec (.kiteLoopUpdate t n ints) s = .next (a.setChan n c) := by
  show execKiteLoopUpdate t n ints s = _
  unfold execKiteLoopUpdate
  rw [ha]; dsimp only
  rw [if_pos ⟨hn, hact, hon, hgives⟩, hc, hwait]
theorem kiteLoopUpdate_due {ks : List Integ} (hdue : c.interval = some ks) (hrole : c.role = 0) :
    let w := c.ownLoops c.prof ks.length a.tb.clk (c.disc ks)
    exec (.kiteLoopUpdate t n ints) s =
      .next ((a.setChan n c).setChan n ((if c.slipSeen (c.disc ks).e then w.slipped a.tb.q0 else w).updated a.prof ks)) := by
  intro w
  show execKiteLoopUpdate t n ints s = _
  unfold execKiteLoopUpdate
  rw [ha]; dsimp only
  rw [if_pos ⟨hn, hact, hon, hgives⟩, hc, hdue]
  exact congrArg _ (updateLoops_alone (s := a.setChan n c) ks (chan_setChan ..) hrole)
omit ha hn hon hgives in
theorem takeInts_not_lost : c.state ≠ 3 := by
  rw [← hc, takeInts_state]
  intro h3
  unfold Chan.active at hact
  rw [h3] at hact
  exact absurd hact (by decide)
end

/-- `e` is `c` after an update of its own loops on the interval `ks`: its NCOs from its Doppler, a waiting CH_CTRL in force, at most a slip more. -/
def Chan.LoopsRan (prof : Nat → Profile) (ks : List Integ) (clk : Nat) (c e : Chan) : Prop :=
  let w := c.ownLoops c.prof ks.length clk (c.disc ks)
  e.lp = w.lp ∧ e.nco = w.nco ∧ e.nco.carate = carrUnits e.lp.dop ∧ e.nco.clk = clk ∧ e.ctrl = c.ctrlNext.getD c.ctrl ∧ e.ctrlNext = none ∧
  e.prof = prof (fld e.ctrl 47 43) ∧ e.loopCnt = c.cnt ∧ e.state = c.state ∧ e.sync = c.sync ∧ e.cn0 = c.cn0 ∧ (e.slips = c.slips ∨ e.slips = (c.slips + 1) % 256)
theorem updated_loopsRan {c w : Chan} {ks : List Integ} {clk : Nat} (hw : c.ownLoops c.prof ks.length clk (c.disc ks) = w) (h : c.state ≠ 3)
    (prof : Nat → Profile) (slip : Bool) (q : Qval) : c.LoopsRan prof ks clk ((if slip then w.slipped q else w).updated prof ks) := by
  have view {γ : Type} (f : Chan → γ) (hf : ∀ x : Chan, f x.offLoops = f x) : f w = f c := hw ▸ ownLoops_view f hf ..
  have hnext : w.ctrlNext = c.ctrlNext := view Chan.ctrlNext fun _ => rfl
  have hctrl : w.ctrl = c.ctrl := view Chan.ctrl fun _ => rfl
  have hslips : w.slips = c.slips := view Chan.slips fun _ => rfl
  have hcarate : w.nco.carate = carrUnits w.lp.dop := hw ▸ ownLoops_carate ..
  have hclk : w.nco.clk = clk := hw ▸ ownLoops_clk h ..
  have hword : w.ctrlNext.getD w.ctrl = c.ctrlNext.getD c.ctrl := by rw [hnext, hctrl]
  have hcnt : w.cnt = c.cnt := view Chan.cnt fun _ => rfl
  have hstate : w.state = c.state := view Chan.state fun _ => rfl
  have hsync : w.sync = c.sync := view Chan.sync fun _ => rfl
  have hcn0 : w.cn0 = c.cn0 := view Chan.cn0 fun _ => rfl
  unfold Chan.LoopsRan; dsimp only
  rw [hw]
  cases slip with
  | false => exact ⟨rfl, rfl, hcarate, hclk, hword, rfl, rfl, hcnt, hstate, hsync, hcn0, .inl hslips⟩
  | true => exact ⟨rfl, rfl, hcarate, hclk, hword, rfl, rfl, hcnt, hstate, hsync, hcn0, .inr (congrArg (fun k => (k + 1) % 256) hslips)⟩

/-- An update of the loops of a channel alone changes that channel and no other. -/
theorem kiteLoopUpdate_ran {t : Lapse} {s a : State} {n : Nat} {ints : List (List (BitVec 8))} {c : Chan} {ks : List Integ} (ha : s.elapse t = a)
    (hn : n < 512) (hact : (a.chan n).active = true) (hon : a.isOn 5 = true) (hgives : a.clk.pllF.gives = true)
    (hc : (a.chan n).takeInts (a.noInput (a.chan n).stream) a.tb.clk ints = c) (hdue : c.interval = some ks) (hrole : c.role = 0) :
    Answers (exec (.kiteLoopUpdate t n ints) s) fun u =>
      c.LoopsRan a.prof ks a.tb.clk (u.chan n) ∧ (∀ m, m ≠ n → u.chan m = a.chan m) ∧ KiteOnly a u := by
  refine ⟨_, kiteLoopUpdate_due ha hn hact hon hgives hc hdue hrole, ?_, fun m hm => (chan_setChan_ne _ _ hm).trans (chan_setChan_ne _ _ hm), rfl⟩
  rw [chan_setChan]
  exact updated_loopsRan rfl (takeInts_not_lost hact hc) ..

/-! ## Evaluation (R122, R123) -/

/-- What an evaluation shows of a channel. -/
def Chan.shown (c : Chan) : Nat × Int × Bool × Bool × Nat := (c.cn0, c.pli, c.plock, c.clock, c.state)
/-- C/N0, PLL indicator, the locks and the state that an evaluation finds for a channel alone. -/
def State.found (s : State) (c : Chan) : Nat × Int × Bool × Bool × Nat :=
  let lock := decide ((fld c.prof.w2 35 24 : Int) ≤ c.pliOf)
  (s.cn0Of c, c.pliOf, lock, decide (c.prof.cn0Loss ≤ s.cn0Of c),
    if c.state = 1 ∧ c.prof.cn0Loss ≤ s.cn0Of c ∧ (c.prof.kind = 2 ∨ lock = true) then 2 else c.state)
theorem ite_slipped_shown (P : Prop) [Decidable P] (q : Qval) (c : Chan) : (if P then c.slipped q else c).shown = c.shown := by split <;> rfl

theorem evalChan_idle {n : Nat} {s : State} (h : (s.chan n).active = false) : s.evalChan n = s := by
  unfold State.evalChan
  exact if_pos (by rw [h]; rfl)
theorem evalChan_set (n : Nat) (s : State) : ∃ d, s.evalChan n = s.setChan n d ∨ s.evalChan n = s := by
  cases h : (s.chan n).active with
  | false => exact ⟨{}, .inr (evalChan_idle h)⟩
  | true =>
    unfold State.evalChan
    exact ⟨_, .inl (if_neg (by rw [h]; exact Bool.false_ne_true))⟩
theorem evalChan_alone {n : Nat} {s : State} {c : Chan} (hc : s.chan n = c) (hact : c.active = true) (hrole : c.role = 0) :
    ((s.evalChan n).chan n).shown = s.found c := by
  unfold State.evalChan
  rw [hc]
  extract_lets c0 p cn0 pli lock fell fll member toTrack below lp c1 c2 c3
  rw [if_neg (by rw [show c0.active = true from hact]; exact Bool.false_ne_true), chan_setChan]
  have hshown : c3.shown = c1.shown := (ite_slipped_shown ..).trans (ite_slipped_shown ..)
  have hmember : member = false := by
    show (c.role == 2) = false
    rw [hrole]; rfl
  have hclock : c1.clock = decide (p.cn0Loss ≤ cn0) := by
    show decide ((if member then fld p.w2 23 12 else p.cn0Loss) ≤ cn0) = _
    rw [hmember]; rfl
  have hstate : c1.state = if c.state = 1 ∧ p.cn0Loss ≤ cn0 ∧ (p.kind = 2 ∨ lock = true) then 2 else c.state :=
    if_congr (by simp [toTrack, c0, and_assoc]) rfl rfl
  rw [hshown]
  exact Prod.ext rfl (Prod.ext rfl (Prod.ext rfl (Prod.ext hclock hstate)))

end Sys2Proof.Machine
end

section
/-! KITE_EVALUATION (R123), channel by channel. -/
namespace Sys2Proof.Machine
open Sys2Proof

/-- The state without Kite's channels. -/
def State.offChans (s : State) : State := s.putKite { s.kite with chans := [] }
theorem kiteOnly_of_offChans {a b : State} (h : b.offChans = a.offChans) : KiteOnly a b :=
  show b.offChans.putKite b.kite = a.offChans.putKite b.kite from congrArg (fun s : State => s.putKite b.kite) h
theorem evalChan_offChans (n : Nat) (s : State) : (s.evalChan n).offChans = s.offChans := by
  obtain ⟨d, h | h⟩ := evalChan_set n s
  · rw [h]; rfl
  · rw [h]
theorem evalChan_chan_ne {m n : Nat} (h : m ≠ n) (s : State) : (s.evalChan n).chan m = s.chan m := by
  obtain ⟨d, hd | hd⟩ := evalChan_set n s
  · rw [hd, chan_setChan_ne s d h]
  · rw [hd]

/-- An evaluation of the channels of a list. -/
def State.evalChans (l : List Nat) (s : State) : State := l.foldl (fun (s : State) n => s.evalChan n) s
theorem evalChans_offChans (l : List Nat) (s : State) : (s.evalChans l).offChans = s.offChans :=
  foldl_keeps State.offChans _ (fun s n => evalChan_offChans n s) l s
theorem evalChans_chan_of_notMem {n : Nat} {l : List Nat} (h : n ∉ l) (s : State) : (s.evalChans l).chan n = s.chan n := by
  induction l generalizing s with
  | nil => rfl
  | cons m l ih =>
    rw [List.mem_cons, not_or] at h
    obtain ⟨hne, hl⟩ := h
    exact (ih hl (s.evalChan m)).trans (evalChan_chan_ne hne s)
theorem evalChans_idle {m : Nat} {s : State} (h : (s.chan m).active = false) (l : List Nat) : (s.evalChans l).chan m = s.chan m := by
  refine foldl_inv (fun b : State => b.chan m = s.chan m) _ (fun b n hb => ?_) l s rfl
  by_cases hm : m = n
  · subst hm
    rw [evalChan_idle (by rw [hb]; exact h)]
    exact hb
  · exact (evalChan_chan_ne hm b).trans hb
/-- A channel alone that stands in the list once is evaluated once. -/
theorem evalChans_alone {n : Nat} {s : State} {l : List Nat} (hnd : l.Nodup) (hmem : n ∈ l) (hact : (s.chan n).active = true) (hrole : (s.chan n).role = 0) :
    (((s.evalChans l).chan n).shown) = s.found (s.chan n) := by
  obtain ⟨before, after, rfl⟩ := List.append_of_mem hmem
  have hsplit : n ∉ before ∧ n ∉ after := by
    rw [List.nodup_append, List.nodup_cons] at hnd
    obtain ⟨-, ⟨hafter, -⟩, hdisj⟩ := hnd
    exact ⟨fun h => hdisj n h n List.mem_cons_self rfl, hafter⟩
  have hsame : (s.evalChans before).chan n = s.chan n := evalChans_chan_of_notMem hsplit.1 s
  have hfound : (s.evalChans before).found (s.chan n) = s.found (s.chan n) :=
    show (s.evalChans before).offChans.found (s.chan n) = s.offChans.found (s.chan n) from
      congrArg (fun b : State => b.found (s.chan n)) (evalChans_offChans before s)
  have hsteps : s.evalChans (before ++ n :: after) = ((s.evalChans before).evalChan n).evalChans after := List.foldl_append ..
  rw [hsteps, evalChans_chan_of_notMem hsplit.2, evalChan_alone hsame hact hrole, hfound]

theorem checkTrain_free {t : Nat} {s : State} (h : s.kite.trains = []) : s.checkTrain t = s := by
  unfold State.checkTrain
  rw [train_of_empty h]
  rfl

theorem kiteEvaluation_due {t : Lapse} {s a : State} (ha : s.elapse t = a) (htrains : a.kite.trains = []) (hon : a.isOn 5 = true)
    (hgives : a.clk.pllF.gives = true) (hdue : a.kite.evalClk = 0 ∨ a.kite.evalClk + 65472000 ≤ a.tb.clk) :
    exec (.kiteEvaluation t) s = .next ((a.putKite { a.kite with evalClk := a.tb.clk }).evalChans (a.kite.chans.map Prod.fst)) := by
  have hoff := evalChans_offChans (a.kite.chans.map Prod.fst) (a.putKite { a.kite with evalClk := a.tb.clk })
  have hfree : ((a.putKite { a.kite with evalClk := a.tb.clk }).evalChans (a.kite.chans.map Prod.fst)).kite.trains = [] :=
    (congrArg (fun b : State => b.kite.trains) hoff).trans htrains
  show execKiteEvaluation t s = _
  unfold execKiteEvaluation
  rw [ha]; dsimp only
  rw [if_pos ⟨hon, hgives, hdue⟩]
  exact congrArg _ (foldl_fixed fun x _ => checkTrain_free hfree)

theorem kiteEvaluation_alone {t : Lapse} {s a : State} {n : Nat} (ha : s.elapse t = a) (hact : (a.chan n).active = true) (hrole : (a.chan n).role = 0)
    (htrains : a.kite.trains = []) (hcanon : tcanon {} a.kite.chans = true) (hon : a.isOn 5 = true)
    (hgives : a.clk.pllF.gives = true) (hdue : a.kite.evalClk = 0 ∨ a.kite.evalClk + 65472000 ≤ a.tb.clk) :
    Answers (exec (.kiteEvaluation t) s) fun u =>
      (u.chan n).shown = a.found (a.chan n) ∧ (∀ m, (a.chan m).active = false → u.chan m = a.chan m) ∧ u.kite.evalClk = a.tb.clk ∧ KiteOnly a u := by
  have hlisted : n ∈ a.kite.chans.map Prod.fst := by
    refine mem_keys_of_tget (d := ({} : Chan)) fun hidle => ?_
    have hreset : a.chan n = {} := hidle
    rw [hreset] at hact
    exact absurd hact (by decide)
  have hoff := evalChans_offChans (a.kite.chans.map Prod.fst) (a.putKite { a.kite with evalClk := a.tb.clk })
  refine ⟨_, kiteEvaluation_due ha htrains hon hgives hdue, ?_, fun m hm => ?_, ?_, ?_⟩
  · exact evalChans_alone (s := a.putKite { a.kite with evalClk := a.tb.clk }) (keys_nodup_of_tcanon hcanon) hlisted hact hrole
  · exact evalChans_idle (s := a.putKite { a.kite with evalClk := a.tb.clk }) hm _
  · exact congrArg (fun b : State => b.kite.evalClk) hoff
  · exact (kiteOnly_putKite a _).trans (kiteOnly_of_offChans hoff)

end Sys2Proof.Machine
end

section
/-! KITE_SNAPSHOT (R136, R137): the dump block of a tick. -/
namespace Sys2Proof.Machine
open Sys2Proof

theorem padTo_length (n : Nat) (ws : List Word) : (padTo n ws).length = n := by
  unfold padTo
  rw [List.length_append, List.length_take, List.length_replicate]
  omega
theorem dumpRecord_length (s : State) (n : Nat) (c : Chan) (new : Bool) : (s.dumpRecord n c new).length = 16 := by
  unfold State.dumpRecord
  rw [List.length_append, List.length_append, List.length_append, padTo_length]
  rfl

/-- `b` is `a` with its channels' dumps taken: Kite and the measurements alone differ, and the tick is the same. -/
def Snapped (a b : State) : Prop := b = (a.putKite b.kite).putMeas b.meas ∧ b.kite.blk = a.kite.blk
theorem Snapped.trans {a b c : State} (h : Snapped a b) (h' : Snapped b c) : Snapped a c := by
  obtain ⟨hb, hblk⟩ := h
  obtain ⟨hc, hblk'⟩ := h'
  refine ⟨?_, hblk'.trans hblk⟩
  rw [hc, hb]; rfl
/-- The block of the tick is written, and the snapshot edge kept. -/
def State.blockWritten (base : Nat) (ws : List Word) (b : State) : State :=
  let c := b.memWrites base ws
  c.putKite { c.kite with dseq := c.kite.blk, snapClk := c.tb.clk, snapQ := c.tb.q0 }
theorem Snapped.blockWritten {a b : State} (h : Snapped a b) (base : Nat) (ws : List Word) :
    let u := b.blockWritten base ws
    u.kite.dseq = a.kite.blk ∧ u.mem = a.mem.writes base ws ∧ u = ((a.putKite u.kite).putMeas u.meas).putMem u.mem := by
  obtain ⟨hb, hblk⟩ := h
  refine ⟨hblk, ?_, ?_⟩
  · rw [hb]; rfl
  · rw [hb]; rfl
/-- A channel's dump is its record of 16 words (Table 8), all 0 for one that is IDLE. -/
theorem snapChan_spec (n : Nat) (d : Option KDump) (s : State) : Snapped s (s.snapChan n d).1 ∧ (s.snapChan n d).2.length = 16 := by
  unfold State.snapChan
  dsimp only
  split
  · exact ⟨⟨rfl, rfl⟩, List.length_replicate⟩
  · exact ⟨⟨rfl, rfl⟩, dumpRecord_length ..⟩

/-- One more channel's dump is taken: its record stands before those taken so far. -/
def dumpNext (dumps : List KDump) (acc : State × List (List Word)) (n : Nat) : State × List (List Word) :=
  let x := acc.1.snapChan n (dumps.find? fun d => d.chan == n)
  (x.1, x.2 :: acc.2)
theorem dumps_spec (dumps : List KDump) (l : List Nat) (acc : State × List (List Word)) :
    Snapped acc.1 (l.foldl (dumpNext dumps) acc).1 ∧ (l.foldl (dumpNext dumps) acc).2.flatten.length = acc.2.flatten.length + 16 * l.length := by
  induction l generalizing acc with
  | nil => exact ⟨⟨rfl, rfl⟩, rfl⟩
  | cons n l ih =>
    obtain ⟨hsnap, hlen⟩ := snapChan_spec n (dumps.find? fun d => d.chan == n) acc.1
    obtain ⟨hrest, hrecords⟩ := ih (dumpNext dumps acc n)
    refine ⟨hsnap.trans hrest, hrecords.trans ?_⟩
    have hnext : (dumpNext dumps acc n).2.flatten.length = 16 + acc.2.flatten.length := by
      unfold dumpNext
      rw [List.flatten_cons, List.length_append, hlen]
    rw [hnext, List.length_cons]
    omega

/-- The words of the block's head (Table 7). -/
def State.dumpHead (ofs : Nat) (a : State) : List Word :=
  let tk := qOfMs a.kite.lastMs
  [word a.kite.blk, cyc tk, frc tk, pack [put 47 34 (min 12218 ofs), putB 33 a.chanClkq]] ++ List.replicate 12 0
theorem dumpHead_length (ofs : Nat) (a : State) : (a.dumpHead ofs).length = 16 := rfl
/-- The state once the dumps of all 512 channels are taken, and their records. -/
def State.dumped (dumps : List KDump) (a : State) : State × List (List Word) := (List.range 512).foldl (dumpNext dumps) (a, [])
theorem dumped_spec (dumps : List KDump) (a : State) : Snapped a (a.dumped dumps).1 ∧ (a.dumped dumps).2.reverse.flatten.length = 8192 := by
  obtain ⟨hframe, hlen⟩ := dumps_spec dumps (List.range 512) (a, [])
  rw [List.length_range] at hlen
  unfold State.dumped
  rw [List.length_flatten, List.map_reverse, List.sum_reverse, ← List.length_flatten]
  exact ⟨hframe, hlen.trans (show 0 + 16 * 512 = 8192 by decide)⟩

theorem Memory.reads_writes_append (m : Memory) (a : Nat) (ws vs : List Word) (h : (ws ++ vs).length ≤ 2 ^ 24) :
    (m.writes a (ws ++ vs)).reads a ws.length = ws := by
  refine List.ext_getElem (by simp [Memory.reads]) fun i hi hi' => ?_
  have hlt : i < (ws ++ vs).length := by rw [List.length_append]; omega
  have hread := Memory.read_writes m a i (ws ++ vs) hlt h
  rw [List.getElem_append_left hi'] at hread
  simpa [Memory.reads] using hread

section
variable {t : Lapse} {s a : State} {ofs : Nat} {dumps : List KDump}

theorem kiteSnapshot_due (ha : s.elapse t = a) (hon : a.isOn 5 = true) (hnew : a.kite.dseq ≠ a.kite.blk) (hgives : a.clk.pllF.gives = true) :
    exec (.kiteSnapshot t ofs dumps) s = .next ((a.dumped dumps).1.blockWritten
      ((Config.kiteBase 0).toNat + a.kite.blk % 16 * 8208) (a.dumpHead ofs ++ (a.dumped dumps).2.reverse.flatten)) := by
  show execKiteSnapshot t ofs dumps s = _
  unfold execKiteSnapshot
  rw [ha]; dsimp only
  rw [if_pos ⟨hon, hnew, hgives⟩]
  unfold State.dumped
  generalize List.range 512 = l
  rfl

/-- The dump block: 16 words of head, then 16 for each channel, and no other byte. -/
theorem kiteSnapshot_dumps (ha : s.elapse t = a) (hon : a.isOn 5 = true) (hnew : a.kite.dseq ≠ a.kite.blk) (hgives : a.clk.pllF.gives = true) (adr : Nat) :
    let base := (Config.kiteBase 0).toNat + a.kite.blk % 16 * 8208
    Answers (exec (.kiteSnapshot t ofs dumps) s) fun u =>
      u.kite.dseq = a.kite.blk ∧ u.mem.reads base 16 = a.dumpHead ofs ∧
      ((∀ k, k < 8208 → adr / 6 ≠ (base + k) % 2 ^ 24) → cellRead adr u.mem.cells = cellRead adr a.mem.cells) ∧ u = ((a.putKite u.kite).putMeas u.meas).putMem u.mem := by
  intro base
  obtain ⟨hsnapped, hrecords⟩ := dumped_spec dumps a
  have hsize : (a.dumpHead ofs ++ (a.dumped dumps).2.reverse.flatten).length = 8208 := by
    simp only [List.length_append, hrecords, dumpHead_length, Nat.reduceAdd]
  obtain ⟨hseq, hmem, hframe⟩ := hsnapped.blockWritten base (a.dumpHead ofs ++ (a.dumped dumps).2.reverse.flatten)
  refine ⟨_, kiteSnapshot_due ha hon hnew hgives, hseq, ?_, fun hout => ?_, hframe⟩
  · rw [hmem]
    exact Memory.reads_writes_append a.mem base (a.dumpHead ofs) _ (hsize.trans_le (by norm_num))
  · rw [hmem]
    exact Memory.cellRead_writes_out a.mem base adr _ fun i hi => hout i (by rwa [hsize] at hi)
end

end Sys2Proof.Machine
end

section
/-! What happens to Kite's channels between commands (O40). -/
namespace Sys2Proof.Machine
open Sys2Proof

/-- Settles O40: loop updates, evaluations, losses and snapshots, each by what its command does where its conditions hold. -/
theorem channelEvents : Obligations.ChannelEvents := by
  refine ⟨fun t s n ints => ⟨?_, ?_⟩, ?_, fun t s n => ⟨?_, ?_, ?_, ?_, ?_⟩, ?_, ?_⟩
  · intro hn hact hon hgives hwait
    exact ⟨_, kiteLoopUpdate_waiting rfl hn hact hon hgives rfl hwait, chan_setChan .., fun m _ hm => chan_setChan_ne _ _ hm, rfl⟩
  · intro ks hn hact hrole hon hgives hdue
    obtain ⟨u, hu, hran, hne, honly⟩ := kiteLoopUpdate_ran rfl hn hact hon hgives rfl hdue hrole
    obtain ⟨hlp, hnco, hcarate, hclk, hctrl, hnext, hprof, hcnt, hstate, hsync, hcn0, hslips⟩ := hran
    exact ⟨u, hu, hlp, hnco, hcarate, hclk, hctrl, hnext, hprof, hcnt, hstate, hsync, hcn0, hslips, fun m _ hm => hne m hm, honly⟩
  · intro t s n a c lock _ hact hrole htrains hcanon hon hgives hdue
    obtain ⟨u, hu, hshown, hidle, hclk, honly⟩ := kiteEvaluation_alone rfl hact hrole htrains hcanon hon hgives hdue
    simp only [Chan.shown, State.found, Prod.mk.injEq] at hshown
    obtain ⟨hcn0, hpli, hplock, hclock, hstate⟩ := hshown
    exact ⟨u, hu, hcn0, hpli, hplock, hclock, hstate, fun m _ hm => hidle m hm, hclk, honly⟩
  · intro _ hstate hrole h5 hon hlate
    obtain ⟨u, hu, hlost, hne, htold, hframe⟩ := noPullIn_lost rfl hstate hrole hon hlate
    exact ⟨u, hu, by rw [hlost]; rfl, by rw [hlost]; rfl, by rw [hlost]; rfl, by rw [hlost]; rfl, fun m _ hm => hne m hm, htold h5, hframe⟩
  · intro _ hstate hrole hon hlow
    obtain ⟨u, hu, hlost, hne, htold, hframe⟩ := cn0Loss_lost rfl hstate hrole hon hlow
    exact ⟨u, hu, by rw [hlost]; rfl, by rw [hlost]; rfl, by rw [hlost]; rfl, by rw [hlost]; rfl, fun m _ hm => hne m hm, htold, hframe⟩
  · intro _ hstate hrole hhead hon hdrop
    obtain ⟨m, hm, hne'⟩ := (Option.any_eq_true _ _).mp hhead
    obtain ⟨u, hu, hlost, hslots, hne, htold, hframe⟩ := memberDrop_lost rfl hstate hrole hm (by simpa using hne') hon hdrop
    exact ⟨u, hu, by rw [hlost]; rfl, by rw [hlost]; rfl, by rw [hlost], hslots, fun m _ hm => hne m hm, htold, hframe⟩
  · intro _ hstate hlate
    exact ⟨_, lostToIdle_freed rfl hstate hlate, chan_setChan .., fun m _ hm => chan_setChan_ne _ _ hm, rfl⟩
  · intro _ hchans hact hrole hret hlate
    obtain ⟨u, hu, hlost, -, htold, hframe⟩ := d5RetentionTimeout_lost rfl hchans hact hrole hret hlate
    exact ⟨u, hu, by rw [hlost]; rfl, by rw [hlost]; rfl, htold, hframe⟩
  · intro t s x m a tr _ _ hstate hslots hlate hcn0 h5
    obtain ⟨u, hu, hfree, hchan, hne, htold, hframe⟩ := trainCoastTimeout_breaks rfl hstate hslots hlate hcn0 h5
    exact ⟨u, hu, hfree, by rw [hchan]; rfl, by rw [hchan]; rfl, by rw [hchan]; rfl, fun k _ hk => hne k hk, htold, hframe⟩
  · intro t s ofs adr ds a tk base hon hnew hgives
    exact kiteSnapshot_dumps rfl hon hnew hgives adr

end Sys2Proof.Machine
end

section
/-! A measurement epoch (R140, R142, R150, R151): the partners whose OBS record is not formed, and a table of channels out of order (O36). -/
namespace Sys2Proof.Machine
open Sys2Proof

/-! ## A partner whose OBS record is not formed (R151) -/

/-- The MEAS_CONFIG words that govern a partner at a millisecond (R142). -/
def State.obsDue (m p : Nat) (s : State) : List Word := (dueCfg (fun m0 => decide (m0 ≤ m)) (s.mcfg p).obs (s.mcfg p).obsNext).1
/-- The channels that its OBS record holds, in the order of the table. -/
def State.passing (m p : Nat) (s : State) : List Nat := (s.kite.chans.map fun e => e.1).filter fun n => s.obsPasses p (s.obsDue m p) n
/-- The partner has no epochs, or no record as long as its channels ask for may be formed. -/
def State.noRecord (m p : Nat) (s : State) : Prop :=
  obsPer (s.obsDue m p) = 0 ∨ s.mayForm p true (6 + 6 * (s.passing m p).length) = false

/-- An OBS record has six words, and six for each channel (Tables 3 and 4). -/
theorem obsRecord_length (s : State) (te : Qval) (per : Nat) (gap : Option Nat) (is : List Nat) (one : Nat → List Word) (h1 : ∀ n, (one n).length = 6) :
    ([pack [put 47 40 0x01], pack [put 47 40 0x01]] ++ s.obsHead te per is.length gap ++ is.flatMap one).length = 6 + 6 * is.length := by
  have hall : (is.flatMap one).length = is.length * 6 := List.length_flatMap.trans (by simp [h1])
  rw [List.length_append, hall]
  show 6 + is.length * 6 = _
  omega

/-- `b` differs from `a` in the measurement block alone. -/
def MeasOnly (a b : State) : Prop := b = a.putMeas b.meas
theorem measOnly_refl (a : State) : MeasOnly a a := rfl
theorem measOnly_setMcfg (a : State) (p : Nat) (c : MeasCfg) : MeasOnly a (a.setMcfg p c) := rfl
theorem MeasOnly.trans {a b c : State} (h : MeasOnly a b) (h' : MeasOnly b c) : MeasOnly a c := by
  unfold MeasOnly at *
  rw [h', h]; rfl
theorem MeasOnly.parts {a b : State} (h : MeasOnly a b) : b.parts = a.parts := by rw [h]; rfl

@[simp] theorem mcfg_setMcfg_ne {p q : Nat} (s : State) (c : MeasCfg) (h : q ≠ p) : (s.setMcfg p c).mcfg q = s.mcfg q :=
  tget_tput_ne ({} : MeasCfg) {} q p c s.meas.cfgs h

/-- Without a record, a partner's epoch writes its own measurement configuration alone. -/
theorem partnerEpoch_noRecord {m p : Nat} {s : State} (whole : Bool) (h : s.noRecord m p) :
    MeasOnly s (s.partnerEpoch m whole p) ∧ ∀ q, q ≠ p → (s.partnerEpoch m whole p).mcfg q = s.mcfg q := by
  unfold State.partnerEpoch
  extract_lets +onlyGivenNames c due c1 s1 per te on skip is one ws seen s2
  have hs1 : MeasOnly s s1 ∧ ∀ q, q ≠ p → s1.mcfg q = s.mcfg q := ⟨measOnly_setMcfg .., fun q hq => mcfg_setMcfg_ne s _ hq⟩
  split
  · exact hs1
  · next hper =>
    have hs2 : MeasOnly s s2 ∧ ∀ q, q ≠ p → s2.mcfg q = s.mcfg q :=
      ⟨hs1.1.trans (measOnly_setMcfg ..), fun q hq => (mcfg_setMcfg_ne s1 _ hq).trans (hs1.2 q hq)⟩
    have hfull : s2.mayForm p true ws.length = false := by
      rw [obsRecord_length s1 te per c1.obsGap is one fun _ => rfl]
      refine h.resolve_left fun hoff => hper (Or.inl ?_)
      have hoff' : obsPer c1.obs = 0 := hoff
      simp [per, hoff']
    rw [if_pos (by simp [hfull])]
    simp only [skip]
    split
    · exact ⟨hs2.1.trans (measOnly_setMcfg ..), fun q hq => (mcfg_setMcfg_ne s2 _ hq).trans (hs2.2 q hq)⟩
    · exact hs2

theorem MeasOnly.noRecord {m q : Nat} {a b : State} (h : MeasOnly a b) (hq : b.mcfg q = a.mcfg q) (ha : a.noRecord m q) : b.noRecord m q := by
  have hdue : b.obsDue m q = a.obsDue m q := by unfold State.obsDue; rw [hq]
  have hpass : b.passing m q = a.passing m q := by unfold State.passing; rw [hdue, h]; rfl
  unfold State.noRecord
  rw [hdue, hpass, h]
  exact ha

/-- Where no partner's record is formed, the epochs of all of them write the measurement block alone. -/
theorem measOnly_foldl_partnerEpoch {m : Nat} (whole : Bool) (ps : List Nat) (hps : ps.Nodup) (s : State) (h : ∀ p, p ∈ ps → s.noRecord m p) :
    MeasOnly s (ps.foldl (fun (s : State) p => s.partnerEpoch m whole p) s) := by
  induction ps generalizing s with
  | nil => exact measOnly_refl s
  | cons p ps ih =>
    obtain ⟨hp, hnd⟩ := List.nodup_cons.mp hps
    obtain ⟨honly, hne⟩ := partnerEpoch_noRecord whole (h p List.mem_cons_self)
    refine honly.trans (ih hnd _ fun q hq => honly.noRecord (hne q ?_) (h q (List.mem_cons_of_mem p hq)))
    rintro rfl
    exact hp hq

/-! ## MEAS_EPOCH (R140) -/

/-- C0 forms its observables: the dump block of the millisecond exists. -/
def State.dumpedAt (m : Nat) (s : State) : Bool := s.ndovos && s.isOn 5 && s.clk.pllF.gives && s.kite.lastMs == m && s.kite.dseq == s.kite.blk
/-- The cable delays of the antennas are taken over. -/
def State.delaysTaken (s : State) : State := [0, 1, 2, 3].foldl (fun (s : State) x => s.setAnt x { s.ant x with dlyNow := (s.ant x).dly }) s
/-- So C0 does at an epoch, and notes a change. -/
def State.cablesTaken (s : State) : State :=
  let u := if s.ndovos then s.delaysTaken else s
  if s.ndovos && [0, 1, 2, 3].any fun x => (s.ant x).dly != (s.ant x).dlyNow then u.putModes { u.modes with cable := true } else u
/-- The state in which the partners' epochs of a millisecond begin: the observables of every channel are formed. -/
def State.observed (m : Nat) (preds : List ObsIn) (s : State) : State :=
  if s.dumpedAt m then (s.cablesTaken.kite.chans.map fun e => e.1).foldl (fun (s : State) n => s.observe m (preds.find? fun p => p.chan == n) n) s.cablesTaken
  else s.cablesTaken
/-- An epoch of a millisecond begins. -/
def State.marked (m : Nat) (s : State) : State := s.putMeas { s.meas with lastMs := m }

theorem execMeasEpoch_due {t : Lapse} {s a : State} (ha : s.elapse t = a) (preds : List ObsIn) (h10 : msOf a.tb.q0 % 10 = 0)
    (hnew : a.meas.lastMs ≠ msOf a.tb.q0) :
    execMeasEpoch t preds s = .next ([0, 1, 2, 3, 4].foldl
      (fun (s : State) p => s.partnerEpoch (msOf a.tb.q0) ((a.marked (msOf a.tb.q0)).dumpedAt (msOf a.tb.q0)) p)
      ((a.marked (msOf a.tb.q0)).observed (msOf a.tb.q0) preds)) := by
  subst ha
  exact if_pos ⟨h10, hnew⟩

theorem delaysTaken_parts (s : State) : s.delaysTaken.parts = s.parts := by
  unfold State.delaysTaken
  refine foldl_keeps State.parts _ (fun _ _ => ?_) _ s
  rfl
theorem cablesTaken_parts (s : State) : s.cablesTaken.parts = s.parts := by
  have hants : (if s.ndovos then s.delaysTaken else s).parts = s.parts := by
    split
    · exact delaysTaken_parts s
    · rfl
  unfold State.cablesTaken; dsimp only
  split <;> exact hants
theorem observe_parts (m : Nat) (pred : Option ObsIn) (n : Nat) (s : State) : (s.observe m pred n).parts = s.parts := by
  unfold State.observe; dsimp only
  split <;> rfl
theorem observed_parts (m : Nat) (preds : List ObsIn) (s : State) : (s.observed m preds).parts = s.parts := by
  unfold State.observed
  split
  · exact (foldl_keeps State.parts _ (fun s n => observe_parts ..) _ _).trans (cablesTaken_parts s)
  · exact cablesTaken_parts s

end Sys2Proof.Machine
end

section
/-! MEAS_EPOCH on a table of channels whose numbers do not rise (O36). -/
namespace Sys2Proof.Machine
open Sys2Proof

/-! ## A nearly full event buffer (R330) -/

theorem bufferUsed_congr {a b : State} (h : b.parts = a.parts) : b.bufferUsed = a.bufferUsed := by
  unfold State.bufferUsed
  simp only [part_congr h]
theorem mayForm_full {s : State} {n : Nat} (h : 2097152 < s.bufferUsed + n) (p : Nat) : s.mayForm p true n = false := by
  simp [State.mayForm, h]

theorem bufferUsed_one {s : State} {r : Rec} (h0 : (s.part 0).ev.recs = [r]) (hvol : r.vol = true) (hne : ∀ p, p ∈ [1, 2, 3, 4] → (s.part p).ev.recs = []) :
    s.bufferUsed = r.body.length := by
  simp [State.bufferUsed, h0, hvol, hne]

/-- A record of 2,097,134 words, for which the event buffer has 18 more. -/
def longRecord : Rec := { esn := 1, jsn := 1, urgent := false, vol := true, body := List.replicate 2097134 0 }
/-- A channel of partner 0 that tracks a GPS satellite, as its latest dump shows. -/
def tracking (prn : Nat) : Chan := { state := 2, sig := 1, prn := prn, owner := 0, clock := true, shot := { state := 2, clock := true } }
/-- Channel 5 stands before channel 4; partner 0 asks for OBS records of both every 10 ms. -/
def crossed : State :=
  (((W.putTb { W.tb with q0 := mkQ 1 0 }).putKite { W.kite with lastMs := 1000, chans := [(5, tracking 7), (4, tracking 5)] }).setMcfg 0
    { obs := [0xC0002001FFFF#48, 2, 0xF00000000000#48] }).setPart 0 { W.part 0 with ev := { nextEsn := 2, recs := [longRecord] } }
/-- The same at the epoch, no time later. -/
def crossedNow : State := crossed.elapse L0

theorem crossedNow_bufferUsed : crossedNow.bufferUsed = 2097134 :=
  (bufferUsed_one rfl rfl (by decide +kernel)).trans List.length_replicate

/-- The observables of channel 4 are put before channel 5, and its old entry stays: three entries are there to be recorded. -/
theorem crossed_passing : (((crossedNow.marked 1000).observed 1000 []).passing 1000 0).length = 3 := by decide +kernel

theorem crossed_noRecord : ∀ p, p ∈ [0, 1, 2, 3, 4] → ((crossedNow.marked 1000).observed 1000 []).noRecord 1000 p := by
  have hused : ((crossedNow.marked 1000).observed 1000 []).bufferUsed = 2097134 :=
    (bufferUsed_congr (observed_parts 1000 [] (crossedNow.marked 1000))).trans crossedNow_bufferUsed
  have hfull : ((crossedNow.marked 1000).observed 1000 []).noRecord 1000 0 :=
    .inr (mayForm_full (by rw [hused, crossed_passing]; decide) 0)
  have hoff : ∀ p, p ∈ [1, 2, 3, 4] → obsPer (((crossedNow.marked 1000).observed 1000 []).obsDue 1000 p) = 0 := by decide +kernel
  exact List.forall_mem_cons.mpr ⟨hfull, fun p hp => .inl (hoff p hp)⟩

/-- No partner's stream moves. -/
theorem crossed_measEpoch : Answers (exec (.measEpoch L0 []) crossed) fun u => u.parts = crossedNow.parts := by
  refine ⟨_, execMeasEpoch_due (a := crossedNow) rfl [] (by decide +kernel) (by decide +kernel), ?_⟩
  have hm : msOf crossedNow.tb.q0 = 1000 := by decide +kernel
  rw [hm]
  exact (measOnly_foldl_partnerEpoch _ _ (by decide) _ crossed_noRecord).parts.trans (observed_parts 1000 [] (crossedNow.marked 1000))

/-- As the epoch arrives, two channels pass, and a record of both would just fit. -/
theorem crossedNow_mayForm : crossedNow.mayForm 0 true 18 = true := by
  have hfew : (crossedNow.part 0).ev.recs.length < 49152 := by decide +kernel
  have hnew : crossedNow.jrn.msMark ≠ msOf crossedNow.tb.q0 := by decide +kernel
  simp [State.mayForm, hfew, hnew, crossedNow_bufferUsed]

/-- Refutes O36: its second clause counts the channels that pass as the epoch arrives, the model those in the table once their observables are formed.
The two agree where the table's numbers rise (`tcanon`), which O40 asks for and no hypothesis here does: `tins` gives channel 4, listed after
channel 5, a second entry, and the record of three entries no longer fits the event buffer that had room for two. -/
theorem not_measurementRecords : ¬ Obligations.MeasurementRecords := by
  intro h
  obtain ⟨-, hepoch, -, -⟩ := h
  obtain ⟨u, hu, htold, -⟩ := hepoch L0 [] 0 crossed (by decide +kernel) (by decide +kernel) (by decide +kernel) (by decide +kernel) (by decide +kernel)
    (by decide +kernel) (by decide +kernel) (by decide +kernel) (by decide) (by decide +kernel) (by decide +kernel) (by decide +kernel) (by decide +kernel)
    (by decide +kernel) (by decide +kernel) crossedNow_mayForm (by decide +kernel)
  obtain ⟨v, hv, hparts⟩ := crossed_measEpoch
  obtain rfl : u = v := Host.Outcome.next.inj (hu.symm.trans hv)
  have hmore := htold (.inl (by decide +kernel))
  rw [part_congr hparts] at hmore
  exact absurd hmore (by decide +kernel)

end Sys2Proof.Machine
end

section
/-! An offset left in RECOVERY (R183, R200, R201): slewed within STEP_THR, stepped beyond it under a permit (O3). -/
namespace Sys2Proof.Machine
open Sys2Proof

/-! ## The permit in force -/

/-- A permit that comes into force changes what it says alone. -/
theorem takePermit_view {γ : Type} (f : TimeBase → γ)
    (h : ∀ (x : TimeBase) p thr ppb j n, f { x with permit := p, stepThr := thr, slewPpb := ppb, permitJsn := j, permitNext := n } = f x)
    (tb : TimeBase) : f tb.takePermit = f tb := by
  unfold TimeBase.takePermit
  split
  · split
    · exact h tb ..
    · rfl
  · rfl
@[simp] theorem takePermit_step (tb : TimeBase) : tb.takePermit.step = tb.step := takePermit_view (·.step) (fun _ _ _ _ _ _ => rfl) tb
@[simp] theorem takePermit_clk (tb : TimeBase) : tb.takePermit.clk = tb.clk := takePermit_view (·.clk) (fun _ _ _ _ _ _ => rfl) tb
@[simp] theorem takePermit_q0 (tb : TimeBase) : tb.takePermit.q0 = tb.q0 := takePermit_view (·.q0) (fun _ _ _ _ _ _ => rfl) tb

/-! ## The removal of an offset (R200) -/

section
variable {e : Int} {s : State} (hstep : s.tb.step = none)
include hstep

/-- Within STEP_THR or without a permit the offset is slewed, below 1 ns not at all. -/
theorem removeOffset_slews (cause after : Nat) (tqe : Option Nat)
    (h : s.tb.takePermit.permit = 0 ∨ e.natAbs ≤ s.tb.takePermit.stepThr * 1000) :
    s.removeOffset e cause after tqe = s.putTb { s.tb.takePermit with
      plan := none, slew := if e.natAbs < 1000 then none else some (e, s.tb.clk, s.tb.takePermit.slewPpb), resid := e, after := after
      tqe := tqe.getD s.tb.takePermit.tqe } := by
  unfold State.removeOffset
  dsimp only
  rw [takePermit_step, takePermit_clk, hstep, if_neg (by simp), if_neg (by omega)]
/-- Beyond it, under a permit, it is planned as a step, and no slew runs. -/
theorem removeOffset_steps (cause after : Nat) (tqe : Option Nat) (hpermit : s.tb.takePermit.permit ≠ 0)
    (h : s.tb.takePermit.stepThr * 1000 < e.natAbs) :
    s.removeOffset e cause after tqe = s.putTb { s.tb.takePermit with plan := some ⟨cause, e, after, tqe⟩, slew := none, resid := e } := by
  unfold State.removeOffset
  dsimp only
  rw [takePermit_step, hstep, if_neg (by simp), if_pos ⟨by omega, hpermit⟩]
end

/-! ## SLEW_DECISION and SLEW_END -/

section
variable {t : Lapse} {s a : State} (ha : s.elapse t = a)
include ha

theorem execSlewDecision_due (hsrc : a.tb.tsrc = 4) (hsec : atSecond a.tb = true) (hstep : a.tb.step = none) :
    execSlewDecision t s = .next (a.removeOffset a.tb.residNow a.tb.planCause a.tb.after none) := by
  unfold execSlewDecision
  rw [ha]; dsimp only
  exact if_pos ⟨hsrc, hsec, by rw [hstep]; rfl⟩
theorem execSlewEnd_over (hslew : a.tb.slew.isSome = true) (hsmall : a.tb.residNow.natAbs < 1000) :
    execSlewEnd t s = .next (a.slewDone a.tb.residNow) := by
  unfold execSlewEnd
  rw [ha]; dsimp only
  exact if_pos ⟨hslew, hsmall⟩
theorem execSlewEnd_running (h : a.tb.slew = none ∨ 1000 ≤ a.tb.residNow.natAbs) : execSlewEnd t s = .next a := by
  unfold execSlewEnd
  rw [ha]; dsimp only
  refine if_neg fun ⟨hslew, hsmall⟩ => ?_
  rcases h with h | h
  · rw [h] at hslew; cases hslew
  · omega
end

/-- The end of a slew in RECOVERY brings the source that waits behind it (R183). -/
theorem slewDone_recovery {e : Int} {s : State} (hsrc : s.tb.tsrc = 4) :
    (s.slewDone e).tb = { s.tb with slew := none, resid := e }.taking s.tb.after := by
  unfold State.slewDone
  dsimp only
  rw [if_pos (by exact hsrc), setTsrc_tb]; rfl
/-- Elsewhere the source stays. -/
theorem slewDone_elsewhere {e : Int} {s : State} (hsrc : s.tb.tsrc ≠ 4) :
    s.slewDone e = s.putTb { s.tb with slew := none, resid := e } := by
  unfold State.slewDone
  exact if_neg hsrc
theorem taking_slew (v : Nat) (tb : TimeBase) : (tb.taking v).slew = tb.slew := taking_view v tb (·.slew) (fun _ _ _ _ _ _ _ _ => rfl)

/-- Settles O3: SLEW_DECISION by the size of what remains and the permit, SLEW_END by whether 1 ns is left. -/
theorem slewOrStep : Obligations.SlewOrStep := by
  intro t s
  generalize ha : s.elapse t = a
  intro a' e p
  refine ⟨fun hsrc hsec hstep hsmall => ?_, fun hsrc hsec hstep hpermit hlarge => ?_, fun hslew hsmall => ?_, fun h => execSlewEnd_running ha h⟩
  · refine ⟨_, execSlewDecision_due ha hsrc hsec hstep, ?_⟩
    rw [removeOffset_slews hstep _ _ _ hsmall]
    exact ⟨rfl, rfl, rfl, takePermit_q0 a.tb, rfl⟩
  · refine ⟨_, execSlewDecision_due ha hsrc hsec hstep, ?_⟩
    rw [removeOffset_steps hstep _ _ _ hpermit hlarge]
    exact ⟨rfl, rfl, takePermit_q0 a.tb, rfl⟩
  · refine ⟨_, execSlewEnd_over ha hslew hsmall, ?_⟩
    by_cases hsrc : a.tb.tsrc = 4
    · dsimp only
      rw [slewDone_recovery hsrc]
      exact ⟨taking_slew .., taking_resid .., taking_q0 .., fun _ => taking_tsrc .., fun h => absurd hsrc h⟩
    · rw [slewDone_elsewhere hsrc]
      exact ⟨rfl, rfl, rfl, fun h => absurd h hsrc, fun _ => ⟨rfl, rfl⟩⟩

end Sys2Proof.Machine
end

section
/-! Loss and return of the 10 MHz reference (R180, R210, R220, R226): every PLL coasts or relocks, holdover begins (O14). -/
namespace Sys2Proof.Machine
open Sys2Proof

/-! ## What the PLLs' consumers take up changes the outputs alone -/

theorem putOuts_self (s : State) : s.putOuts s.outs = s := rfl
/-- A fold whose steps change the outputs changes the outputs. -/
theorem exists_foldl_putOuts_eq {β : Type} (f : State → β → State) (hf : ∀ u b, ∃ o, f u b = u.putOuts o) (l : List β) (s : State) :
    ∃ o, l.foldl f s = s.putOuts o := by
  refine foldl_inv (fun u => ∃ o, u = s.putOuts o) f (fun u b hu => ?_) l s ⟨s.outs, rfl⟩
  obtain ⟨o, rfl⟩ := hu
  obtain ⟨o', h⟩ := hf (s.putOuts o) b
  exact ⟨o', h⟩
theorem exists_ite_setOut_eq (c : Prop) [Decidable c] (n : Nat) (v : Output) (s : State) :
    ∃ o, (if c then s.setOut n v else s) = s.putOuts o := by
  split
  · exact ⟨_, rfl⟩
  · exact ⟨s.outs, rfl⟩
theorem exists_mapFed_eq (p : Nat) (f : Nat → Output → Output) (s : State) : ∃ o, s.mapFed p f = s.putOuts o :=
  exists_foldl_putOuts_eq _ (fun _ _ => exists_ite_setOut_eq ..) _ s
theorem exists_haltOcxo_eq (s : State) : ∃ o, s.haltOcxo = s.putOuts o :=
  exists_foldl_putOuts_eq _ (fun _ _ => exists_ite_setOut_eq ..) _ s
theorem exists_startOcxo_eq (s : State) : ∃ o, s.startOcxo = s.putOuts o :=
  exists_foldl_putOuts_eq _ (fun _ _ => exists_ite_setOut_eq ..) _ s

/-! ## Every PLL at once -/

/-- A change of every PLL. -/
def Clock.mapPlls (f : Pll → Pll) (c : Clock) : Clock :=
  { c with pllF := f c.pllF, pllG := f c.pllG, pllS := f c.pllS, pllT := f c.pllT, pllW := f c.pllW }

/-- A PLL that does not lock: PLL-S ends the patrol's leases (R449). -/
theorem setPll_unlocked {v : Pll} (h : v.state ≠ 2) (p : Nat) (s : State) :
    s.setPll p v = (s.putClk (s.clk.setPll p v)).putMem (if p = 2 then s.mem.endLeases else s.mem) := by
  unfold State.setPll
  dsimp only
  by_cases hp : p = 2
  · rw [if_pos ⟨hp, h⟩, if_pos hp]; rfl
  · rw [if_neg (fun hc => hp hc.1), if_neg hp]; rfl

/-- One PLL after another takes `f`, which locks none; of the rest only outputs and leases change. -/
theorem exists_foldl_setPll_eq {f : Pll → Pll} (hf : ∀ l, (f l).state ≠ 2) {tb : TimeBase} {g : State → Nat → State}
    (hg : ∀ u p, u.tb = tb → ∃ o, g u p = (u.setPll p (f (u.clk.pll p))).putOuts o) (ps : List Nat) (s : State) (hs : s.tb = tb) :
    ∃ o, ps.foldl g s = ((s.putClk (ps.foldl (fun c p => c.setPll p (f (c.pll p))) s.clk)).putMem
      (ps.foldl (fun m p => if p = 2 then m.endLeases else m) s.mem)).putOuts o := by
  induction ps generalizing s with
  | nil => exact ⟨s.outs, rfl⟩
  | cons p ps ih =>
    obtain ⟨o, ho⟩ := hg s p hs
    rw [setPll_unlocked (hf _)] at ho
    obtain ⟨o', h⟩ := ih (g s p) (by rw [ho]; exact hs)
    refine ⟨o', ?_⟩
    rw [List.foldl_cons, h, ho]; rfl
theorem foldl_setPll_clk (f : Pll → Pll) (c : Clock) : [0, 1, 2, 3, 4].foldl (fun c p => c.setPll p (f (c.pll p))) c = c.mapPlls f := rfl
theorem foldl_endLeases (m : Memory) : [0, 1, 2, 3, 4].foldl (fun m p => if p = 2 then m.endLeases else m) m = m.endLeases := rfl
theorem exists_foldl_plls_eq {f : Pll → Pll} (hf : ∀ l, (f l).state ≠ 2) {g : State → Nat → State} (s : State)
    (hg : ∀ u p, u.tb = s.tb → ∃ o, g u p = (u.setPll p (f (u.clk.pll p))).putOuts o) :
    ∃ o, [0, 1, 2, 3, 4].foldl g s = ((s.putClk (s.clk.mapPlls f)).putMem s.mem.endLeases).putOuts o := by
  obtain ⟨o, h⟩ := exists_foldl_setPll_eq hf hg [0, 1, 2, 3, 4] s rfl
  rw [foldl_setPll_clk, foldl_endLeases] at h
  exact ⟨o, h⟩

/-! ## The reference is lost (R220) -/

/-- A PLL without the reference: one that runs coasts. -/
def Pll.coasting (clk : Nat) (l : Pll) : Pll :=
  if l.state = 0 then { l with refLost := true } else { l with state := 3, refLost := true, since := some (l.since.getD clk) }
theorem coasting_spec (clk : Nat) (l : Pll) :
    (l.coasting clk).refLost = true ∧ (l.state ≠ 0 → (l.coasting clk).state = 3) ∧ (l.coasting clk).state ≠ 2 := by
  unfold Pll.coasting
  split
  · next h => exact ⟨rfl, fun hn => absurd h hn, by rw [h]; decide⟩
  · exact ⟨rfl, fun _ => rfl, by simp⟩
/-- The clock block as the reference goes. -/
def Clock.refGone (clk : Nat) (c : Clock) : Clock :=
  { c.mapPlls (Pll.coasting clk) with refOk := false, lostClk := some clk, fault := setBit c.fault 5, direct := false }
theorem pll_refGone (clk : Nat) (c : Clock) (p : Nat) : (c.refGone clk).pll p = (c.pll p).coasting clk := by
  unfold Clock.pll; split <;> rfl
/-- Tether time in holdover, of which nothing is known any more. -/
def State.unknownTime (s : State) : State :=
  (s.setTsrc 2).putTb { (s.setTsrc 2).tb with tqe := 0xFFFFFFFF, tqf := 0xFFFFFFFF }

theorem execOcxoLost_present {t : Lapse} {s a : State} (ha : s.elapse t = a) (href : a.clk.refOk = true) :
    ∃ o, execOcxoLost t s = .next ((((a.putClk (a.clk.refGone a.tb.clk)).putMem a.mem.endLeases).putOuts o).unknownTime.raiseLimited true 0x703 0 []) := by
  subst ha
  unfold execOcxoLost
  extract_lets +onlyGivenNames a
  rw [if_pos (by exact href)]
  extract_lets +onlyGivenNames src b c src' d e
  obtain ⟨o, hc⟩ : ∃ o, c = ((b.putClk (b.clk.mapPlls (Pll.coasting b.tb.clk))).putMem b.mem.endLeases).putOuts o := by
    refine exists_foldl_plls_eq (fun l => (coasting_spec b.tb.clk l).2.2) b fun u p hu => ?_
    dsimp only
    rw [hu, Pll.coasting]
    split <;> exact ⟨_, (putOuts_self _).symm⟩
  have hd : d = ((a.putClk (a.clk.refGone a.tb.clk)).putMem a.mem.endLeases).putOuts o := by
    simp only [d, src']; rw [hc]; rfl
  clear_value d
  obtain ⟨o', he⟩ : ∃ o', e = d.putOuts o' := by
    obtain ⟨x, hx⟩ := exists_mapFed_eq 0 d.releasedOut d
    obtain ⟨y, hy⟩ := exists_mapFed_eq 3 d.releasedOut (d.putOuts x)
    obtain ⟨z, hz⟩ := exists_haltOcxo_eq ((d.putOuts x).putOuts y)
    exact ⟨z, by simp only [e]; rw [hx, hy, hz]; rfl⟩
  refine ⟨o', ?_⟩
  rw [he, hd]; rfl

/-! ## It fails, and returns -/

theorem execOcxoFailed_due {t : Lapse} {s a : State} (ha : s.elapse t = a) (href : a.clk.refOk = false)
    (hlong : a.clk.lostClk.any (fun c => decide (c + 6547200 ≤ a.tb.clk)) = true) :
    execOcxoFailed t s = .next (a.putClk { a.clk with ocxo := 2 }) := by
  obtain ⟨c, hc, hclk⟩ := (Option.any_eq_true _ _).mp hlong
  unfold execOcxoFailed
  rw [ha]; dsimp only
  rw [hc]
  exact if_pos ⟨by rw [href]; rfl, of_decide_eq_true hclk⟩

/-- A PLL as the reference returns: one that runs goes through hold. -/
def Pll.relocking (clk : Nat) (l : Pll) : Pll :=
  if l.state = 0 then { l with refLost := false }
  else { l with
    state := 4, refLost := false, coastEnd := if l.state = 3 then some clk else l.coastEnd, forced := false, holds := satN 16 (l.holds + 1)
    coastUs := satN 16 ((clk - l.since.getD clk) * 1000000 / 654720000) }
theorem relocking_spec (clk : Nat) (l : Pll) :
    (l.relocking clk).refLost = false ∧ (l.state ≠ 0 → (l.relocking clk).state = 4) ∧ (l.relocking clk).state ≠ 2 := by
  unfold Pll.relocking
  split
  · next h => exact ⟨rfl, fun hn => absurd h hn, by rw [h]; decide⟩
  · exact ⟨rfl, fun _ => rfl, by simp⟩
/-- The clock block as the reference returns. -/
def Clock.refBack (clk : Nat) (warm : Bool) (c : Clock) : Clock :=
  { c.mapPlls (Pll.relocking clk) with refOk := true, lostClk := none, ocxo := if warm && c.warmed then 1 else 0, direct := decide (c.pllF.state ≠ 0) }
theorem pll_refBack (clk : Nat) (warm : Bool) (c : Clock) (p : Nat) : (c.refBack clk warm).pll p = (c.pll p).relocking clk := by
  unfold Clock.pll; split <;> rfl

theorem execOcxoBack_gone {t : Lapse} {warm : Bool} {s a : State} (ha : s.elapse t = a) (href : a.clk.refOk = false) :
    ∃ o ws, execOcxoBack t warm s = .next ((((a.putClk (a.clk.refBack a.tb.clk warm)).putMem a.mem.endLeases).putOuts o).raiseLimited true 0x704 0 ws) := by
  subst ha
  unfold execOcxoBack
  extract_lets +onlyGivenNames a
  rw [if_pos (by rw [show a.clk.refOk = false from href]; rfl)]
  extract_lets +onlyGivenNames ms src b c d
  obtain ⟨o, hc⟩ : ∃ o, c = b.putOuts o := exists_startOcxo_eq b
  obtain ⟨o', hd⟩ : ∃ o', d = ((c.putClk (c.clk.mapPlls (Pll.relocking c.tb.clk))).putMem c.mem.endLeases).putOuts o' := by
    refine exists_foldl_plls_eq (fun l => (relocking_spec c.tb.clk l).2.2) c fun u p hu => ?_
    dsimp only
    rw [hu, Pll.relocking]
    split
    · exact ⟨_, (putOuts_self _).symm⟩
    · exact exists_mapFed_eq ..
  refine ⟨o', [word ms], ?_⟩
  rw [hd, hc]; rfl

/-! ## It is warm (R210) -/

theorem execOcxoWarm_due {t : Lapse} {temp : Int} {s a : State} (ha : s.elapse t = a) (href : a.clk.refOk = true) (hocxo : a.clk.ocxo = 0)
    (hsupply : a.clk.stopped = false) {b : State}
    (hb : (a.putClk { a.clk with ocxo := 1, temp := temp, warmed := true }).putTb { a.tb with discH := 0, drift := 2000, driftBase := 2000 } = b) :
    execOcxoWarm t temp s = .next (if a.clk.warmed then b else b.raiseLimited true 0x705 0 [word b.warmS]) := by
  subst hb
  unfold execOcxoWarm
  rw [ha]; dsimp only
  rw [if_pos ⟨hocxo, href, by rw [hsupply]; rfl⟩]
  cases a.clk.warmed <;> rfl

theorem setTsrc_clk (v : Nat) (s : State) : (s.setTsrc v).clk = s.clk := by
  obtain ⟨x, h, -⟩ := exists_setTsrc_rest v s; exact (of_rest_clk h).trans rfl
theorem setTsrc_pwr (v : Nat) (s : State) : (s.setTsrc v).pwr = s.pwr := by
  obtain ⟨x, h, -⟩ := exists_setTsrc_rest v s; exact (of_rest_pwr h).trans rfl
theorem setTsrc_mem (v : Nat) (s : State) : (s.setTsrc v).mem = s.mem := by
  obtain ⟨x, h, -⟩ := exists_setTsrc_rest v s; exact (of_rest_mem h).trans rfl

/-- Settles O14: each event by the state that its command leaves. -/
theorem referenceLoss : Obligations.ReferenceLoss := by
  refine ⟨fun t s => ?_, fun t s warm => ?_, fun t s temp => ?_⟩ <;> generalize ha : s.elapse t = a
  · refine ⟨fun href => ?_, fun href hlong => ⟨_, execOcxoFailed_due ha href hlong, rfl⟩⟩
    obtain ⟨o, h⟩ := execOcxoLost_present ha href
    refine ⟨_, h, ?_⟩
    dsimp only
    rw [raiseLimited_clk, raiseLimited_tb, raiseLimited_pwr, raiseLimited_mem]
    unfold State.unknownTime
    rw [putTb_clk, setTsrc_clk, putTb_tb, setTsrc_tb, putTb_pwr, setTsrc_pwr, putTb_mem, setTsrc_mem]
    refine ⟨rfl, rfl, rfl, fun p _ => ?_, taking_tsrc .., rfl, rfl, taking_q0 .., rfl, rfl⟩
    obtain ⟨hlost, hcoast, -⟩ := coasting_spec a.tb.clk (a.clk.pll p)
    rw [putOuts_clk, putMem_clk, putClk_clk, pll_refGone]
    exact ⟨hlost, hcoast⟩
  · intro a' href
    obtain ⟨o, ws, h⟩ := execOcxoBack_gone (warm := warm) ha href
    refine ⟨_, h, ?_⟩
    dsimp only
    rw [raiseLimited_clk, raiseLimited_tb, raiseLimited_rest, raiseLimited_outs]
    refine ⟨rfl, rfl, rfl, fun p _ => ?_, rfl, rfl⟩
    obtain ⟨hback, hhold, -⟩ := relocking_spec a.tb.clk (a.clk.pll p)
    rw [putOuts_clk, putMem_clk, putClk_clk, pll_refBack]
    exact ⟨hback, hhold⟩
  · intro a' href hocxo hsupply
    refine ⟨_, execOcxoWarm_due ha href hocxo hsupply rfl, ?_⟩
    split
    · exact ⟨rfl, rfl⟩
    · rw [raiseLimited_clk, raiseLimited_rest]; exact ⟨rfl, rfl⟩

end Sys2Proof.Machine
end

section
/-! MODE_SET, MODE_GET and aiding with positions and orbits, as commands (R162-R164, R167, R182, R307, R308). -/
namespace Sys2Proof.Machine
open Sys2Proof

/-! ## Packets that are admitted -/

theorem params_le_of_admits {code rights modes : Nat} {env : Env} {ps : List Word} {a : State} (h : a.admits code rights modes env ps = true) :
    ps.length ≤ 2048 := by
  simp only [State.admits, Bool.and_eq_true, decide_eq_true_eq] at h
  omega
/-- Where a packet came from is no term of Table 4. -/
theorem modeRefusal_bound (env : Env) (a : State) (who : Nat) (ws : List Word) : (a.bound env).modeRefusal who ws = a.modeRefusal who ws := by
  unfold State.modeRefusal
  rw [show ((a.bound env).part who).rights = (a.part who).rights from bound_part_view (·.rights) (fun _ _ => rfl) env a who]
  rfl

/-! ## MODE_SET -/

/-- A word whose MODE is 0 or above 11, or none at all, fails the first row of Table 4. -/
theorem modeRefusal_mode {ws : List Word} (h : ws.length = 0 ∨ msMode ws = 0 ∨ 11 < msMode ws) (s : State) (who : Nat) :
    s.modeRefusal who ws = some (.badParam, 1) := by
  refine if_pos ?_
  rcases h with h | h | h
  · exact .inl (by rw [List.eq_nil_of_length_eq_zero h]; rfl)
  · exact .inl h
  · exact .inr (.inl h)

/-- The verdict on a MODE_SET that no row refuses: it waits for its tick (R163, R164). -/
def modeWaits (k : Pkt) (m : Nat) : Verdict where
  status := .accepted
  words := [cyc (qOfMs m), frc (qOfMs m)]
  pins := [.work]
  promise := 1
  act := fun jsn s => s.onModes fun b => { b with waits := b.waits ++ [⟨jsn, k.partner, m, k.ps⟩] }
theorem opModeSet_waits {k : Pkt} {s : State} (h : s.modeRefusal k.partner k.ps = none) :
    opModeSet.eval k s = modeWaits k (epochAfter s.tb.q0 10000 10) := by
  unfold opModeSet modeWaits
  dsimp only
  rw [h]
theorem opModeSet_refused {k : Pkt} {s : State} {r : Status × Nat} (h : s.modeRefusal k.partner k.ps = some r) :
    opModeSet.eval k s = reason r.1 r.2 := by
  unfold opModeSet
  dsimp only
  rw [h]

section
variable {t : Lapse} {env : Env} {ps : List Word} {s a : State} (ha : s.elapse t = a)
include ha

theorem modeSet_accepted (h : a.admits 0x020 2 0xFFE env ps = true) (hok : a.modeRefusal env.partner ps = none) :
    let m := epochAfter a.tb.q0 10000 10
    Completes 0x020 0 [cyc (qOfMs m), frc (qOfMs m)] env a (exec (.modeSet t env ps) s) fun u =>
      u.modes = { a.modes with waits := a.modes.waits ++ [⟨a.jrn.next, env.partner, m, ps⟩] } ∧ u.rest = (a.putModes u.modes).rest := by
  subst ha
  have hlen := params_le_of_admits h
  refine runOp_completes_jsn opModeSet t env ps 2 s _ _ _ h (by decide) (by decide)
    (opModeSet_waits (k := pktOf 0x020 env ps (s.elapse t)) ((modeRefusal_bound ..).trans hok)) rfl rfl ?_ (fun _ _ => ⟨rfl, rfl⟩) fun b u hb hu => ?_
  · show entriesFor (ps.length + 2) + 1 ≤ 1000
    unfold entriesFor; omega
  · have hm := of_rest_modes hu
    refine ⟨?_, ?_⟩
    · rw [hm, ← of_rest_modes hb]; rfl
    · rw [hm, hu]
      exact congrArg (fun x : State => x.putModes _) hb
theorem modeSet_refused (h : a.admits 0x020 2 0xFFE env ps = true) (hbad : ps.length = 0 ∨ msMode ps = 0 ∨ 11 < msMode ps) :
    Completes 0x020 0x23 [1] env a (exec (.modeSet t env ps) s) fun u => u.rest = a.rest := by
  subst ha
  exact runOp_refuses opModeSet t env ps 2 s .badParam [1] h (by decide) (by decide) (by simp)
    (opModeSet_refused (k := pktOf 0x020 env ps (s.elapse t)) (modeRefusal_mode hbad _ _)) (by simp)

end

/-! ## MODE_GET -/

/-- What MODE_GET answers to SEL (Tables 5 to 7). -/
def State.modeAnswer (sel : Nat) (s : State) : List Word :=
  match sel with
  | 0 => s.modeWords
  | 1 => [0, 1, 2, 3].flatMap fun x => padTo 4 (tget [] x (if s.modes.mode = 6 then s.modes.held else s.rtc.keep.survey))
  | _ => [pack [put 47 32 (satN 16 (s.tb.discH / 36000)), put 31 0 s.tb.drift], pack [put 47 16 (satN 32 s.tb.e0)], pack [put 47 16 (satN 32 s.tb.f0)]]
theorem modeAnswer_length (sel : Nat) (s : State) : (s.modeAnswer sel).length ≤ 16 := by
  unfold State.modeAnswer
  split
  · simp [State.modeWords]
  · simp [padTo_length]
  · simp
theorem modeAnswer_bound (env : Env) (sel : Nat) (a : State) : (a.bound env).modeAnswer sel = a.modeAnswer sel := rfl
theorem opModeGet_answers {k : Pkt} {s : State} {sel : Nat} (hlen : k.ps.length = 1) (hsel : fld (arg k.ps 0) 47 46 = sel) (h3 : sel ≠ 3) :
    opModeGet.eval k s = { status := .done, words := s.modeAnswer sel } := by
  subst hsel
  exact if_neg (by omega)
theorem modeGet_answers {t : Lapse} {env : Env} {ps : List Word} {s a : State} (ha : s.elapse t = a) {sel : Nat}
    (h : a.admits 0x021 1 0xFFE env ps = true) (hlen : ps.length = 1) (hsel : fld (arg ps 0) 47 46 = sel) (h3 : sel ≠ 3) :
    Completes 0x021 1 (a.modeAnswer sel) env a (exec (.modeGet t env ps) s) fun u => u.rest = a.rest := by
  subst ha
  refine runOp_completes_jsn opModeGet t env ps 1 s _ _ _ h (by decide) (by decide)
    (opModeGet_answers (k := pktOf 0x021 env ps (s.elapse t)) hlen hsel h3) rfl (modeAnswer_bound ..) ?_ (fun _ _ => ⟨rfl, rfl⟩) fun b u hb hu => hu.trans hb
  have hwords := modeAnswer_length sel (s.elapse t)
  show entriesFor (ps.length + _) + 0 ≤ 1000
  unfold entriesFor; omega

/-! ## AID_POSITION -/

/-- One value written at several places. -/
theorem tget_foldl_tput {α : Type} [DecidableEq α] (d v : α) (i : Nat) (ks : List Nat) (t : Tab α) :
    tget d i (ks.foldl (fun t k => tput d k v t) t) = if i ∈ ks then v else tget d i t := by
  induction ks generalizing t with
  | nil => rfl
  | cons k ks ih =>
    rw [List.foldl_cons, ih]
    by_cases hk : i = k
    · subst hk; simp
    · simp [hk]
/-- The antennas of a mask. -/
theorem mem_maskAnts {i m : Nat} : i ∈ maskAnts m ↔ i < 4 ∧ m.testBit (3 - i) = true := by
  unfold maskAnts
  rw [List.mem_filter, ← List.mem_range (n := 4)]; rfl

/-- A position given for the antennas of a mask. -/
def ModeBlk.placed (mask : Nat) (p : Int × Int × Int × Nat) (b : ModeBlk) : ModeBlk :=
  { b with aidPos := (maskAnts mask).foldl (fun t a => tput none a (some p) t) b.aidPos }
theorem placed_aidPos (mask : Nat) (p : Int × Int × Int × Nat) (b : ModeBlk) {i : Nat} (hi : i < 4) :
    tget none i (b.placed mask p).aidPos = if mask.testBit (3 - i) then some p else tget none i b.aidPos := by
  refine (tget_foldl_tput none (some p) i (maskAnts mask) b.aidPos).trans (if_congr ?_ rfl rfl)
  rw [mem_maskAnts]; exact and_iff_right hi
theorem opAidPosition_takes {k : Pkt} {s : State} {x y z : Int} (hlen : k.ps.length = 5) (hmask : fld (arg k.ps 0) 47 44 ≠ 0)
    (hsigma : fld (arg k.ps 4) 47 24 ≠ 0) (hx : (arg k.ps 1).toInt = x) (hy : (arg k.ps 2).toInt = y) (hz : (arg k.ps 3).toInt = z)
    (hlow : 36000000000000000000 ≤ x * x + y * y + z * z) (hhigh : x * x + y * y + z * z ≤ 49000000000000000000) :
    opAidPosition.eval k s = doneWith [] fun _ s => s.onModes (ModeBlk.placed (fld (arg k.ps 0) 47 44) (x, y, z, fld (arg k.ps 4) 47 24)) := by
  subst hx hy hz
  refine if_neg ?_
  rintro (h | h | h | h | h)
  · exact h hlen
  · exact hmask h
  · exact hsigma h
  · omega
  · omega
theorem opAidPosition_refused {k : Pkt} {s : State} (h : k.ps.length ≠ 5 ∨ fld (arg k.ps 0) 47 44 = 0) : opAidPosition.eval k s = badParam 0 :=
  if_pos (h.imp id .inl)

/-! ## AID_ORBIT -/

/-- A message of its type, satellite and length is kept where its check passes, and refused where it fails. -/
theorem opAidOrbit_checks {k : Pkt} {s : State} {mt prn nb : Nat} (hmt : fld (arg k.ps 0) 47 42 = mt) (hprn : fld (arg k.ps 0) 41 34 = prn)
    (hnb : fld (arg k.ps 0) 33 24 = nb) (hsame : (msgType mt).any (fun r => r.2.1 == nb) = true) (hok : msgPrnOk mt prn = true)
    (hlen : k.ps.length = 1 + (nb + 47) / 48) :
    opAidOrbit.eval k s = if 2 ≤ Config.orbitCheck k.ps then badParam 2
      else doneWith [pack [put 47 46 (Config.orbitCheck k.ps)]] fun _ s => s.keepMessage mt (msgSat mt prn) (bitWords nb (k.ps.drop 1)) := by
  subst hmt hprn hnb
  refine if_neg ?_
  rintro (h | h | h)
  · cases hm : msgType (fld (arg k.ps 0) 47 42) with
    | none => rw [hm] at hsame; exact absurd hsame (by simp)
    | some r => rw [hm] at hsame h; exact absurd hsame (by simpa using h)
  · exact absurd hok (by simpa using h)
  · exact h hlen
theorem opAidOrbit_type {k : Pkt} {s : State} (hsame : (msgType (fld (arg k.ps 0) 47 42)).any (fun r => r.2.1 == fld (arg k.ps 0) 33 24) = false) :
    opAidOrbit.eval k s = badParam 1 := by
  refine if_pos (.inl ?_)
  cases hm : msgType (fld (arg k.ps 0) 47 42) with
  | none => rfl
  | some r => rw [hm] at hsame; simpa using hsame

/-- A message kept stands in place of the one before it of its type, satellite and page. -/
theorem keepMessage_kept (mt sat : Nat) (ws : List Word) (s : State) :
    (mt, sat, Config.pageOf mt ws, ws) ∈ (s.keepMessage mt sat ws).meas.kept ∧
    ∀ x, x ∈ (s.keepMessage mt sat ws).meas.kept → x ≠ (mt, sat, Config.pageOf mt ws, ws) → x ∈ s.meas.kept := by
  have hkept : (s.keepMessage mt sat ws).meas.kept =
      (s.meas.kept.filter fun x => !(x.1 == mt && x.2.1 == sat && x.2.2.1 == Config.pageOf mt ws)) ++ [(mt, sat, Config.pageOf mt ws, ws)] := rfl
  rw [hkept]
  refine ⟨List.mem_append_right _ (List.mem_singleton_self _), fun x hx hne => ?_⟩
  rcases List.mem_append.mp hx with hx | hx
  · exact List.mem_of_mem_filter hx
  · exact absurd (List.mem_singleton.mp hx) hne

section
variable {t : Lapse} {env : Env} {ps : List Word} {s a : State} (ha : s.elapse t = a)
include ha

theorem aidPosition_done {x y z : Int} (h : a.admits 0x031 2 0x7FE env ps = true) (hlen : ps.length = 5) (hmask : fld (arg ps 0) 47 44 ≠ 0)
    (hsigma : fld (arg ps 4) 47 24 ≠ 0) (hx : (arg ps 1).toInt = x) (hy : (arg ps 2).toInt = y) (hz : (arg ps 3).toInt = z)
    (hlow : 36000000000000000000 ≤ x * x + y * y + z * z) (hhigh : x * x + y * y + z * z ≤ 49000000000000000000) :
    Completes 0x031 1 [] env a (exec (.aidPosition t env ps) s) fun u =>
      u.modes = a.modes.placed (fld (arg ps 0) 47 44) (x, y, z, fld (arg ps 4) 47 24) ∧ u.rest = (a.putModes u.modes).rest := by
  subst ha
  refine runOp_completes_jsn opAidPosition t env ps 2 s _ _ _ h (by decide) (by decide)
    (opAidPosition_takes (k := pktOf 0x031 env ps (s.elapse t)) hlen hmask hsigma hx hy hz hlow hhigh) rfl rfl ?_ (fun _ _ => ⟨rfl, rfl⟩) fun b u hb hu => ?_
  · simp [entriesFor, doneWith, hlen]
  · have hm := of_rest_modes hu
    refine ⟨?_, ?_⟩
    · rw [hm, ← of_rest_modes hb]; rfl
    · rw [hm, hu]
      exact congrArg (fun x : State => x.putModes _) hb
theorem aidPosition_refused (h : a.admits 0x031 2 0x7FE env ps = true) (hbad : ps.length ≠ 5 ∨ fld (arg ps 0) 47 44 = 0) :
    Completes 0x031 0x23 [0] env a (exec (.aidPosition t env ps) s) fun u => u.rest = a.rest := by
  subst ha
  exact runOp_refuses opAidPosition t env ps 2 s .badParam [0] h (by decide) (by decide) (by simp)
    (opAidPosition_refused (k := pktOf 0x031 env ps (s.elapse t)) hbad) (by simp)

theorem aidOrbit_done {mt prn nb : Nat} (h : a.admits 0x032 2 0x7FE env ps = true) (hmt : fld (arg ps 0) 47 42 = mt) (hprn : fld (arg ps 0) 41 34 = prn)
    (hnb : fld (arg ps 0) 33 24 = nb) (hsame : (msgType mt).any (fun r => r.2.1 == nb) = true) (hok : msgPrnOk mt prn = true)
    (hlen : ps.length = 1 + (nb + 47) / 48) (hcheck : Config.orbitCheck ps < 2) :
    Completes 0x032 1 [pack [put 47 46 (Config.orbitCheck ps)]] env a (exec (.aidOrbit t env ps) s) fun u =>
      u.rest = (a.keepMessage mt (msgSat mt prn) (bitWords nb (ps.drop 1))).rest := by
  subst ha
  have hsize := params_le_of_admits h
  refine runOp_completes_jsn opAidOrbit t env ps 2 s _ _ _ h (by decide) (by decide)
    ((opAidOrbit_checks (k := pktOf 0x032 env ps (s.elapse t)) hmt hprn hnb hsame hok hlen).trans (if_neg (Nat.not_le.mpr hcheck)))
    rfl rfl ?_ (fun _ _ => ⟨rfl, rfl⟩) fun b u hb hu => ?_
  · show entriesFor (ps.length + 1) + 0 ≤ 1000
    unfold entriesFor; omega
  · obtain ⟨x, rfl⟩ := exists_withSide hb.symm
    exact hu
theorem aidOrbit_failed {mt prn nb : Nat} (h : a.admits 0x032 2 0x7FE env ps = true) (hmt : fld (arg ps 0) 47 42 = mt) (hprn : fld (arg ps 0) 41 34 = prn)
    (hnb : fld (arg ps 0) 33 24 = nb) (hsame : (msgType mt).any (fun r => r.2.1 == nb) = true) (hok : msgPrnOk mt prn = true)
    (hlen : ps.length = 1 + (nb + 47) / 48) (hcheck : 2 ≤ Config.orbitCheck ps) :
    Completes 0x032 0x23 [2] env a (exec (.aidOrbit t env ps) s) fun u => u.rest = a.rest := by
  subst ha
  exact runOp_refuses opAidOrbit t env ps 2 s .badParam [2] h (by decide) (by decide) (by simp)
    ((opAidOrbit_checks (k := pktOf 0x032 env ps (s.elapse t)) hmt hprn hnb hsame hok hlen).trans (if_pos hcheck)) (by simp)
theorem aidOrbit_refused (h : a.admits 0x032 2 0x7FE env ps = true)
    (hsame : (msgType (fld (arg ps 0) 47 42)).any (fun r => r.2.1 == fld (arg ps 0) 33 24) = false) :
    Completes 0x032 0x23 [1] env a (exec (.aidOrbit t env ps) s) fun u => u.rest = a.rest := by
  subst ha
  exact runOp_refuses opAidOrbit t env ps 2 s .badParam [1] h (by decide) (by decide) (by simp)
    (opAidOrbit_type (k := pktOf 0x032 env ps (s.elapse t)) hsame) (by simp)
end

/-! ## HOLD_MISMATCH (R176) -/

theorem execHoldMismatch_due {t : Lapse} {s a : State} (ha : s.elapse t = a) {x : Nat} {q : Qval} (hmode : a.modes.mode = 6)
    (hin : (maskAnts (msMask a.modes.cur)).contains x = true) (hnew : a.modes.excluded.testBit x = false) (hsince : tget none x a.modes.misfit = some q)
    (hlong : 60 * 2 ^ 48 ≤ qdist a.tb.q0 q) :
    execHoldMismatch t x s = .next ((a.putModes { a.modes with excluded := setBit a.modes.excluded x }).raiseAll false 0x502 [word x]) := by
  unfold execHoldMismatch
  rw [ha]; dsimp only
  rw [hsince]
  exact if_pos ⟨hmode, hin, decide_eq_true hlong, by rw [hnew]; rfl⟩

end Sys2Proof.Machine
end

section
/-! A tick of the mode machine at which one MODE_SET falls due (R163-R166), and MODE_SET, MODE_GET and aiding together (O34). -/
namespace Sys2Proof.Machine
open Sys2Proof

/-! ## Ndovos's searches change Gale's jobs alone -/

/-- Gale and the count of free values may differ. -/
def SearchOnly (a b : State) : Prop := b = (a.putGale b.gale).putFresh b.fresh
theorem searchOnly_refl (a : State) : SearchOnly a a := rfl
theorem SearchOnly.trans {a b c : State} (h : SearchOnly a b) (h' : SearchOnly b c) : SearchOnly a c := by
  unfold SearchOnly at *
  rw [h'.trans (congrArg (fun s : State => (s.putGale c.gale).putFresh c.fresh) h)]; rfl
theorem searchOnly_foldl {β : Type} {f : State → β → State} (h : ∀ s x, SearchOnly s (f s x)) (l : List β) (s : State) :
    SearchOnly s (l.foldl f s) :=
  foldl_inv (fun u => SearchOnly s u) f (fun u x hu => hu.trans (h u x)) l s (searchOnly_refl s)
theorem submit_searchOnly (j : Job) (s : State) : SearchOnly s (s.submit j) := by
  unfold State.submit
  dsimp only
  split <;> rfl
theorem coldPlan_searchOnly (mask : Nat) (s : State) : SearchOnly s (s.coldPlan mask) := by
  unfold State.coldPlan
  refine searchOnly_foldl (fun b r => ?_) _ s
  split
  · exact searchOnly_foldl (fun c prn => submit_searchOnly _ c) _ b
  · exact searchOnly_refl b
theorem seekAll_searchOnly (hot : Bool) (s : State) : SearchOnly s (s.seekAll hot) := by
  unfold State.seekAll
  refine searchOnly_foldl (fun b a => searchOnly_foldl (fun c band => searchOnly_foldl (fun d sys => ?_) _ c) _ b) _ s
  split
  · split
    · split
      · exact searchOnly_refl d
      · refine searchOnly_foldl (fun e prn => ?_) _ d
        split
        · exact submit_searchOnly _ e
        · exact searchOnly_refl e
    · exact searchOnly_refl d
  · exact searchOnly_refl d
theorem search_searchOnly (s : State) : SearchOnly s s.search := by
  unfold State.search
  split
  · exact searchOnly_refl s
  · split
    · split
      · exact searchOnly_refl s
      · exact coldPlan_searchOnly ..
    · exact seekAll_searchOnly ..
theorem SearchOnly.rest_eq {a b c : State} (h : SearchOnly b c) (hab : b.rest = a.rest) : c.rest = ((a.putGale c.gale).putFresh c.fresh).rest := by
  rw [h]; exact putGale_putFresh_rest hab _ _
theorem SearchOnly.parts {a b : State} (h : SearchOnly a b) : b.parts = a.parts := by rw [h]; rfl
theorem SearchOnly.modes {a b : State} (h : SearchOnly a b) : b.modes = a.modes := by rw [h]; rfl

/-! ## A record leaves the other partners alone -/

theorem sendRecs_part_ne {p q : Nat} (h : q ≠ p) (s : State) : (s.sendRecs p).part q = s.part q := by
  unfold State.sendRecs
  split
  · rfl
  · split
    · refine (foldl_keeps (fun t : State => t.part q) _ (fun t r => part_congr (sendPacket_parts ..) q) _ _).trans ?_
      exact part_setPart_ne _ _ _ _ h
    · rfl
theorem form_part_ne {p q : Nat} (h : q ≠ p) (vol : Bool) (ws : List Word) (s : State) : (s.form p vol ws).part q = s.part q := by
  unfold State.form
  dsimp only
  split
  · rfl
  · rw [sendRecs_part_ne h, part_setPart_ne _ _ _ _ h, part_putJrn, seal_part]

/-! ## The tick -/

/-- A MODE_SET leaves the queue at its tick, and its group is unpinned. -/
def State.unqueued (w : ModeWait) (s : State) : State :=
  (s.putJrn (s.jrn.unpin .work w.jsn)).onModes fun b => { b with waits := b.waits.filter fun x => x.jsn ≠ w.jsn }
section
variable (at_ : Qval) {w : ModeWait} {s : State}
theorem applyMode_abandons {r : Status × Nat} (hbad : (s.unqueued w).modeRefusal w.who w.ws = some r) :
    s.applyMode at_ w = (s.unqueued w).raise w.who false 0x501 [word w.jsn, word r.2] := by
  unfold State.applyMode
  unfold State.unqueued at hbad ⊢
  dsimp only
  rw [hbad]
theorem applyMode_enters (hok : (s.unqueued w).modeRefusal w.who w.ws = none) (horigin : s.modes.origin = 0) :
    s.applyMode at_ w = (s.unqueued w).enterMode at_ (msMode w.ws) 0 w.ws 0 w.jsn w.who := by
  unfold State.applyMode
  unfold State.unqueued at hok ⊢
  dsimp only
  rw [hok]
  exact if_neg fun h => h.2.1 horigin
end
/-- The MODE_SET that waits alone has left the queue at the tick. -/
def State.modeTaken (m : Nat) (w : ModeWait) (a : State) : State :=
  (a.putJrn (a.jrn.unpin .work w.jsn)).putModes { a.modes with lastMs := m, waits := [] }
theorem unqueued_alone (m : Nat) {w : ModeWait} {a : State} (hwaits : a.modes.waits = [w]) :
    (a.putModes { a.modes with lastMs := m }).unqueued w = a.modeTaken m w := by
  have hgone : a.modes.waits.filter (fun x => x.jsn ≠ w.jsn) = [] := by rw [hwaits]; simp
  unfold State.unqueued State.modeTaken State.onModes
  rw [← hgone]; rfl
/-- The rows of Table 4 see nothing of the tick. -/
theorem modeRefusal_taken (m : Nat) (w : ModeWait) (a : State) (who : Nat) (ws : List Word) :
    (a.modeTaken m w).modeRefusal who ws = a.modeRefusal who ws := by
  unfold State.modeRefusal
  rfl
theorem execModeTick_tick {t : Lapse} {own : List Own} {s a : State} (ha : s.elapse t = a) {m : Nat} (hm : msOf a.tb.q0 = m)
    (htick : m % 10 = 0) (hon : a.isOn 11 = true) (hmode : a.modes.mode ≠ 0) :
    execModeTick t own s = .next ((a.modeTick m).doOwns own) := by
  subst hm
  unfold execModeTick
  rw [ha]; dsimp only
  exact if_pos ⟨htick, hon, hmode⟩

section
variable {m : Nat} {w : ModeWait} {a : State} (htick : m % 10 = 0) (hnew : a.modes.lastMs ≠ m) (hon : a.isOn 11 = true)
  (hready : a.pwr.ready = true) (hmode : a.modes.mode ≠ 0) (hwaits : a.modes.waits = [w]) (hdue : w.tick ≤ m)
include htick hnew hon hready hmode hwaits hdue

theorem modeTick_one : a.modeTick m = (a.putModes { a.modes with lastMs := m }).applyMode (qOfMs m) w := by
  have hone : (a.modes.waits.filter fun w => decide (w.tick ≤ m)) = [w] := by rw [hwaits]; simp [hdue]
  unfold State.modeTick
  rw [if_pos ⟨htick, hnew, hon, hmode, hready⟩]
  dsimp only
  rw [hone, List.mergeSort_singleton]
  rfl
/-- A MODE_SET that a row refuses now is abandoned (R165). -/
theorem modeTick_abandons {r : Status × Nat} (hbad : a.modeRefusal w.who w.ws = some r) :
    a.modeTick m = (a.modeTaken m w).raise w.who false 0x501 [word w.jsn, word r.2] := by
  rw [modeTick_one htick hnew hon hready hmode hwaits hdue, ← unqueued_alone m hwaits]
  exact applyMode_abandons _ (by rw [unqueued_alone m hwaits, modeRefusal_taken, hbad])
/-- One that no row refuses is entered, unless it finds an automatic HOLDOVER. -/
theorem modeTick_enters (hok : a.modeRefusal w.who w.ws = none) (horigin : a.modes.origin = 0) :
    a.modeTick m = (a.modeTaken m w).enterMode (qOfMs m) (msMode w.ws) 0 w.ws 0 w.jsn w.who := by
  rw [modeTick_one htick hnew hon hready hmode hwaits hdue, ← unqueued_alone m hwaits]
  exact applyMode_enters _ (by rw [unqueued_alone m hwaits, modeRefusal_taken, hok]) horigin
end

/-- The ALARM of an abandoned MODE_SET is one record to its partner, and none to another. -/
theorem abandoned_toldOne (m : Nat) (w : ModeWait) (a : State) (cause : Nat) (args : List Word) :
    ToldOne w.who a ((a.modeTaken m w).raise w.who false cause args) ∧
    (a.jsnFar → ∀ i, i ≠ w.who → ((a.modeTaken m w).raise w.who false cause args).part i = a.part i) := by
  have hroom : a.jsnFar → (a.modeTaken m w).jsnRoom 1 := fun hfar =>
    jsnRoom_mono (a := a) (m := 16) (Nat.add_le_add_left (by decide) a.jrn.next) rfl hfar
  refine ⟨fun hfar => ?_, fun hfar i hi => ?_⟩
  · have hesn := form_esn w.who false (causeWords false cause (a.modeTaken m w).tb.q0 args) (a.modeTaken m w) w.who
    rw [← raise_eq_form (hroom hfar), if_pos rfl] at hesn
    exact hesn
  · rw [raise_eq_form (hroom hfar)]
    exact form_part_ne hi ..

/-! ## A mode entered, whatever the last one was -/

section
variable (at_ : Qval) (new origin : Nat) (ws : List Word) (cause jsn who : Nat) {s : State}

/-- What neither the mode block nor the RTC block holds, and what the end of steering and of Ndovos's own jobs and channels leaves. -/
theorem enterMode_view {γ : Type} (v : State → γ) (hcalm : ∀ a b : State, a.calm = b.calm → v a = v b) (hmodes : ∀ (s : State) b, v (s.putModes b) = v s)
    (hrtc : ∀ (s : State) r, v (s.putRtc r) = v s) (hend : ∀ s : State, v s.endSteering = v s)
    (hjobs : ∀ b : State, b.gale = s.gale → v b.dropOwnJobs = v b) :
    v (s.enterMode at_ new origin ws cause jsn who) = v s := by
  unfold State.enterMode
  extract_lets +onlyGivenNames old s1 s2 s3 s4 s5 s6
  have h1 : v s1 = v s ∧ s1.gale = s.gale := by
    simp only [s1]
    split
    · exact ⟨(hmodes ..).trans (hrtc ..), rfl⟩
    · exact ⟨rfl, rfl⟩
  have h2 : v s2 = v s1 := hjobs s1 h1.2
  have h3 : v s3 = v s2 := by
    simp only [s3]
    split
    · exact hcalm _ _ (dropOwnChans_calm s2)
    · rfl
  have h4 : v s4 = v s3 := by
    simp only [s4]
    split
    · rfl
    · exact hend s3
  have h5 : v s5 = v s4 := hmodes ..
  have h6 : v s6 = v s5 := by
    simp only [s6]
    split
    · exact hrtc ..
    · rfl
  obtain ⟨rs, hrec⟩ := exists_modeRecord_rest at_ old cause (if cause = 0 then jsn else 0) s6
  rw [hcalm _ _ (calm_of_rest hrec), hmodes, h6, h5, h4, h3, h2, h1.1]

/-- The mode block is entered anew; out of SNAPSHOT the instant of the writing of kept data is noted in it too. -/
theorem exists_enterMode_modes : ∃ clk held rs k, (s.enterMode at_ new origin ws cause jsn who).modes =
    { s.modes.entering at_ new origin ws cause jsn who clk held with records := rs, keptMs := k } := by
  unfold State.enterMode
  extract_lets +onlyGivenNames old s1 s2 s3 s4 s5 s6
  obtain ⟨k, h1⟩ : ∃ k, s1.modes = { s.modes with keptMs := k } := by
    simp only [s1]
    split
    · exact ⟨_, rfl⟩
    · exact ⟨s.modes.keptMs, rfl⟩
  have h2 : s2.modes = s1.modes := of_deep_modes (dropOwnJobs_deep s1)
  have h3 : s3.modes = s2.modes := by
    simp only [s3]
    split
    · exact of_calm_modes (dropOwnChans_calm s2)
    · rfl
  have h4 : s4.modes = s3.modes := by
    simp only [s4]
    split
    · rfl
    · exact endSteering_modes s3
  have hs4 : s4.modes = { s.modes with keptMs := k } := by rw [h4, h3, h2, h1]
  have h5 : s5.modes = s4.modes.entering at_ new origin ws cause jsn who s4.tb.clk (s4.heldOf ws) := rfl
  have h6 : s6.modes = s5.modes := by
    simp only [s6]
    split <;> rfl
  obtain ⟨rs, hrec⟩ := exists_modeRecord_rest at_ old cause (if cause = 0 then jsn else 0) s6
  refine ⟨s4.tb.clk, s4.heldOf ws, rs, k, ?_⟩
  have hr : (s6.modeRecord at_ old cause (if cause = 0 then jsn else 0)).modes = { s6.modes with records := rs } := of_rest_modes hrec
  rw [hr, h6, h5, hs4]; rfl
/-- By MODE_SET it becomes the selected mode (R168). -/
theorem enterMode_keeps_mode : (s.enterMode at_ new origin ws 0 jsn who).rtc.keep.mode = some ⟨ws, who, jsn⟩ := by
  unfold State.enterMode
  extract_lets +onlyGivenNames old s1 s2 s3 s4 s5 s6
  obtain ⟨rs, hrec⟩ := exists_modeRecord_rest at_ old 0 (if 0 = 0 then jsn else 0) s6
  rw [of_rest_rtc hrec]; rfl
end

theorem of_deep_qs {a b : State} (h : a.deep = b.deep) : a.qs = b.qs := show a.deep.qs = b.deep.qs from congrArg State.qs h
theorem of_deep_outs {a b : State} (h : a.deep = b.deep) : a.outs = b.outs := show a.deep.outs = b.deep.outs from congrArg State.outs h
/-- Without jobs of its own Ndovos has none to drop. -/
theorem dropOwnJobs_none {s : State} (h : ∀ j, j ∈ s.gale.jobs → j.who ≠ 15) : s.dropOwnJobs = s := by
  have hnone : (s.gale.jobs.filter fun j => j.who == 15) = [] :=
    List.filter_eq_nil_iff.mpr fun j hj => by simpa using h j hj
  unfold State.dropOwnJobs
  rw [hnone]; rfl

/-- A MODE_SET in force at its tick: the mode with its words, JSN and partner; Q0, quantities and outputs stay, and shared memory where no job of Ndovos's own ends. -/
theorem modeEntered_spec {m : Nat} {w : ModeWait} {a : State} (own : List Own) :
    let u := ((a.modeTaken m w).enterMode (qOfMs m) (msMode w.ws) 0 w.ws 0 w.jsn w.who).doOwns own
    u.modes.mode = msMode w.ws ∧ u.modes.origin = 0 ∧ u.modes.cur = w.ws ∧ u.modes.jsn = w.jsn ∧ u.modes.who = w.who ∧ u.modes.waits = [] ∧
    u.modes.enter = qOfMs m ∧ u.modes.phase = (if msMode w.ws = 10 then 1 else 0) ∧ u.rtc.keep.mode = some ⟨w.ws, w.who, w.jsn⟩ ∧
    u.tb.q0 = a.tb.q0 ∧ u.qs = a.qs ∧ u.outs = a.outs ∧ ((∀ j, j ∈ a.gale.jobs → j.who ≠ 15) → u.mem = a.mem) := by
  intro u
  have hown := doOwns_calm own ((a.modeTaken m w).enterMode (qOfMs m) (msMode w.ws) 0 w.ws 0 w.jsn w.who)
  obtain ⟨clk, held, rs, k, hm⟩ := exists_enterMode_modes (qOfMs m) (msMode w.ws) 0 w.ws 0 w.jsn w.who (s := a.modeTaken m w)
  have hmodes : u.modes = _ := (of_calm_modes hown).trans hm
  rw [hmodes]
  refine ⟨rfl, rfl, rfl, rfl, rfl, rfl, rfl, rfl, ?_, ?_, ?_, ?_, fun hjobs => ?_⟩
  · rw [of_calm_rtc hown]; exact enterMode_keeps_mode ..
  · rw [of_calm_tb hown]
    exact enterMode_view _ _ _ _ _ _ _ (·.tb.q0) (fun _ _ h => congrArg TimeBase.q0 (of_calm_tb h)) (fun _ _ => rfl) (fun _ _ => rfl)
      (fun s => by rw [endSteering_unsteered, unsteered_q0]) (fun b _ => congrArg TimeBase.q0 (of_deep_tb (dropOwnJobs_deep b)))
  · rw [of_calm_qs hown]
    exact enterMode_view _ _ _ _ _ _ _ (·.qs) (fun _ _ => of_calm_qs) (fun _ _ => rfl) (fun _ _ => rfl) endSteering_qs
      (fun b _ => of_deep_qs (dropOwnJobs_deep b))
  · rw [of_calm_outs hown]
    exact enterMode_view _ _ _ _ _ _ _ (·.outs) (fun _ _ => of_calm_outs) (fun _ _ => rfl) (fun _ _ => rfl) endSteering_outs
      (fun b _ => of_deep_outs (dropOwnJobs_deep b))
  · rw [of_calm_mem hown]
    exact enterMode_view _ _ _ _ _ _ _ (·.mem) (fun _ _ => of_calm_mem) (fun _ _ => rfl) (fun _ _ => rfl) endSteering_mem
      (fun b hb => by rw [dropOwnJobs_none (by rw [hb]; exact hjobs)])

/-- A MODE_SET abandoned at its tick: it has left the queue, its partner alone is told, and Ndovos goes on with its searches. -/
theorem modeAbandoned_spec (m : Nat) (w : ModeWait) (a : State) (cause : Nat) (args : List Word) :
    let u := ((a.modeTaken m w).raise w.who false cause args).doOwns []
    u.modes = { a.modes with lastMs := m, waits := [] } ∧ ToldOne w.who a u ∧
    (a.jsnFar → ∀ i, i < 5 → i ≠ w.who → u.part i = a.part i) ∧ u.rest = (((a.putModes u.modes).putGale u.gale).putFresh u.fresh).rest := by
  intro u
  obtain ⟨htold, hothers⟩ := abandoned_toldOne m w a cause args
  have hsearch : SearchOnly ((a.modeTaken m w).raise w.who false cause args) u := search_searchOnly _
  have hpart := part_congr hsearch.parts
  have hmodes : u.modes = { a.modes with lastMs := m, waits := [] } := hsearch.modes.trans (raise_modes ..)
  refine ⟨hmodes, ?_, fun hfar i _ hi => (hpart i).trans (hothers hfar i hi), ?_⟩
  · unfold ToldOne at htold ⊢
    rw [hpart]; exact htold
  · rw [hmodes]
    exact hsearch.rest_eq (raise_rest ..)

/-- Settles O34: each command and event by what it leaves where its conditions hold. -/
theorem modeCommands : Obligations.ModeCommands := by
  refine ⟨fun t env ps s => ?_, fun t own s w => ?_, fun t env ps s => ?_, fun t env ps s => ?_, fun t x q s => ?_⟩ <;>
    generalize ha : s.elapse t = a
  · exact ⟨modeSet_accepted ha, modeSet_refused ha, fun h hlen hsel => modeGet_answers ha h hlen hsel (by decide),
      fun h hlen hsel => modeGet_answers ha h hlen hsel (by decide), fun h hlen hsel => modeGet_answers ha h hlen hsel (by decide)⟩
  · intro a' m
    refine ⟨fun htick hnew hon hready hmode horigin hwaits hdue hok => ?_, fun htick hnew hon hready hmode hwaits hdue hbad hwho => ?_⟩
    · refine ⟨_, execModeTick_tick ha rfl htick hon hmode, ?_⟩
      rw [modeTick_enters htick hnew hon hready hmode hwaits hdue hok horigin]
      exact modeEntered_spec own
    · obtain ⟨r, hr⟩ := Option.isSome_iff_exists.mp hbad
      refine ⟨_, execModeTick_tick ha rfl htick hon hmode, ?_⟩
      rw [modeTick_abandons htick hnew hon hready hmode hwaits hdue hr]
      exact modeAbandoned_spec ..
  · intro xyz r2
    refine ⟨fun h hlen hmask hsigma hlow hhigh => ?_, aidPosition_refused ha⟩
    obtain ⟨u, hu, hshows, hmodes, hrest⟩ := aidPosition_done ha h hlen hmask hsigma rfl rfl rfl hlow hhigh
    exact ⟨u, hu, hshows, fun i hi => by rw [hmodes]; exact placed_aidPos _ _ _ hi, by rw [hmodes]; rfl, hrest⟩
  · intro a' mt prn nb ws page
    refine ⟨fun h hsame hok hlen => ?_, aidOrbit_refused ha⟩
    by_cases hcheck : Config.orbitCheck ps < 2
    · obtain ⟨u, hu, hshows, hrest⟩ := aidOrbit_done ha h rfl rfl rfl hsame hok hlen hcheck
      obtain ⟨hnew, hold⟩ := keepMessage_kept mt (msgSat mt prn) ws a
      rw [← of_rest_meas hrest] at hnew hold
      refine ⟨u, hu, fun _ => ⟨hshows, hnew, hold, ?_, ?_⟩, fun h2 => absurd hcheck (Nat.not_lt.mpr h2)⟩
      · rw [of_rest_meas hrest]; rfl
      · rw [hrest, of_rest_meas hrest]; rfl
    · obtain ⟨u, hu, hshows, hrest⟩ := aidOrbit_failed ha h rfl rfl rfl hsame hok hlen (Nat.not_lt.mp hcheck)
      exact ⟨u, hu, fun hpass => absurd hpass hcheck, fun _ => ⟨hshows, hrest⟩⟩
  · intro a' hmode hin hnew hsince hlong
    refine ⟨_, execHoldMismatch_due ha hmode hin hnew hsince hlong, ?_, ?_, ?_⟩
    · rw [raiseAll_modes]; rfl
    · exact raiseAll_told (putModes_parts a _) (putModes_jrn a _) false 0x502 [word x]
    · rw [raiseAll_rest, raiseAll_modes]; rfl

end Sys2Proof.Machine
end

section
/-! A step announced (R201, R202, R375): the plan, the links and every partner's stream (O4). -/
namespace Sys2Proof.Machine
open Sys2Proof

/-! ## One record on every partner's stream -/

/-- The same record to every partner. -/
def State.recordAll (vol : Bool) (ws : List Word) (s : State) : State :=
  [0, 1, 2, 3, 4].foldl (fun (s : State) p => s.record p vol ws) s
theorem recordAll_rest (vol : Bool) (ws : List Word) (s : State) : (s.recordAll vol ws).rest = s.rest :=
  foldl_keeps State.rest _ (fun b p => record_rest p vol ws b) _ s
/-- `ps` partners, each given one record: the streams of the others stay. -/
theorem foldl_record_esn (vol : Bool) (ws : List Word) (ps : List Nat) (hps : ps.Nodup) (n : Nat) (s : State)
    (h : s.jsnRoom (n + ps.length)) (q : Nat) :
    (ps.foldl (fun (s : State) p => s.record p vol ws) s).esn q = s.esn q + if q ∈ ps then s.oneMore q else 0 := by
  induction ps generalizing s with
  | nil => simp
  | cons p ps ih =>
    obtain ⟨hp, hnd⟩ := List.nodup_cons.mp hps
    have hroom : (s.record p vol ws).jsnRoom (n + ps.length) := record_room h p vol ws
    have hesn : (s.record p vol ws).esn q = s.esn q + if q = p then s.oneMore p else 0 := by
      unfold State.record
      rw [jsnCheck_far (form_room _ _ _ _ (jsnRoom_mono (by simp; omega) rfl h)), form_esn]
    rw [List.foldl_cons, ih hnd _ hroom, hesn, oneMore_congr (record_part_rights ..)]
    by_cases hq : q = p
    · subst hq; simp [hp]
    · simp [hq]
theorem recordAll_told {a b : State} (hp : b.parts = a.parts) (hj : b.jrn = a.jrn) (vol : Bool) (ws : List Word) :
    Told a (b.recordAll vol ws) := by
  refine told_of_esn hp hj fun hroom q hq => ?_
  have hmem : q ∈ [0, 1, 2, 3, 4] := by simp only [List.mem_cons]; omega
  exact (foldl_record_esn vol ws [0, 1, 2, 3, 4] (by decide) 11 b hroom q).trans (by rw [if_pos hmem])

/-! ## Every UP link is told (R375) -/

/-- A control frame towards the gateway of every link in UP. -/
def State.tellLinks (ws : List Word) (s : State) : State :=
  [0, 1, 2, 3, 4, 5, 6, 7].foldl (fun (s : State) l => if (s.lnk l).state = 3 then s.setLnk l ((s.lnk l).ctl ws) else s) s
theorem exists_tellLinks_eq (ws : List Word) (s : State) : ∃ x, s.tellLinks ws = s.putLinks x := by
  refine foldl_inv (fun u => ∃ x, u = s.putLinks x) _ (fun u l hu => ?_) _ s ⟨s.links, rfl⟩
  obtain ⟨x, rfl⟩ := hu
  split
  · exact ⟨_, rfl⟩
  · exact ⟨x, rfl⟩
theorem tellLinks_lnk (ws : List Word) (s : State) {l : Nat} (hl : l < 8) (hup : (s.lnk l).state = 3) :
    (s.tellLinks ws).lnk l = (s.lnk l).ctl ws := by
  refine (foldl_once (fun u : State => u.lnk l) (fun (s : State) l => if (s.lnk l).state = 3 then s.setLnk l ((s.lnk l).ctl ws) else s) l
    (fun k => if k.state = 3 then k.ctl ws else k) (fun _ => True) (fun _ _ h => h) (fun u m hm => ?_) (fun u _ => ?_) _ (by decide)
    (by simp only [List.mem_cons]; omega) s trivial).trans (if_pos hup)
  · split
    · exact lnk_setLnk_ne _ _ _ _ hm.symm
    · rfl
  · split
    · exact lnk_setLnk ..
    · rfl

/-! ## STEP_ANNOUNCE -/

/-- The time base with a planned step announced for the next second: a permit ONCE is used up by any step but the first (R201, R202). -/
def TimeBase.announcing (p : StepPlan) (tb : TimeBase) : TimeBase :=
  { tb.takePermit with
    plan := none, step := some ⟨(cyc tb.q0).toNat + 1, unitsOfPs (-p.e), p⟩
    permit := if p.cause ≠ 0 ∧ tb.takePermit.permit = 1 then 0 else tb.takePermit.permit }
/-- The frame that tells a gateway of the step (R375). -/
def stepFrame (p : StepPlan) (tb : TimeBase) : List Word :=
  lendiFrame 5 false 0 [word ((cyc tb.q0).toNat + 1), cyc (BitVec.ofInt 96 (unitsOfPs (-p.e))), frc (BitVec.ofInt 96 (unitsOfPs (-p.e)))]
theorem execStepAnnounce_due {t : Lapse} {s a : State} {p : StepPlan} (ha : s.elapse t = a) (hplan : a.tb.plan = some p)
    (hsec : atSecond a.tb = true) (hstep : a.tb.step = none) :
    ∃ ws, execStepAnnounce t s = .next (((a.putTb (a.tb.announcing p)).tellLinks (stepFrame p a.tb)).recordAll false ws) := by
  unfold execStepAnnounce
  rw [ha]; dsimp only
  rw [hplan]; dsimp only
  rw [if_pos ⟨hsec, by rw [hstep]; rfl⟩]
  have hsecond : (cyc a.tb.takePermit.q0).toNat = (cyc a.tb.q0).toNat := by rw [takePermit_q0]
  rw [hsecond]
  exact ⟨timeStepWords p.cause (if p.cause = 0 then 3 else a.tb.takePermit.permit) ((cyc a.tb.q0).toNat + 1) (unitsOfPs (-p.e)) a.tb.takePermit.permitJsn, rfl⟩

/-- Settles O4: the announcement, the frame to every UP link and the record on every stream. -/
theorem stepAnnounced : Obligations.StepAnnounced := by
  intro t s p
  generalize ha : s.elapse t = a
  intro a' n d hplan hsec hstep
  obtain ⟨ws, hexec⟩ := execStepAnnounce_due ha hplan hsec hstep
  obtain ⟨x, hx⟩ := exists_tellLinks_eq (stepFrame p a.tb) (a.putTb (a.tb.announcing p))
  have hlinks : ∀ l, l < 8 → (a.lnk l).state = 3 → ((a.putTb (a.tb.announcing p)).tellLinks (stepFrame p a.tb)).lnk l = (a.lnk l).ctl (stepFrame p a.tb) :=
    fun l hl hup => tellLinks_lnk _ (a.putTb (a.tb.announcing p)) hl hup
  generalize (a.putTb (a.tb.announcing p)).tellLinks (stepFrame p a.tb) = b at hexec hx hlinks
  have htb : (b.recordAll false ws).tb = a.tb.announcing p := (of_rest_tb (recordAll_rest false ws b)).trans (by rw [hx]; rfl)
  refine ⟨_, hexec, by rw [htb]; rfl, by rw [htb]; rfl, by rw [htb]; exact takePermit_q0 a.tb, by rw [htb]; rfl, fun l hl hup => ?_, ?_⟩
  · exact (lnk_of_rest (recordAll_rest false ws b) l).trans (hlinks l hl hup)
  · exact recordAll_told (by rw [hx]; rfl) (by rw [hx]; rfl) false ws

end Sys2Proof.Machine
end

section
/-! PULSE_CONFIG and its effect instant (R191, R195, R199): what waits, what is refused, what is in force from E on (O11). -/
namespace Sys2Proof.Machine
open Sys2Proof

/-! ## The effect instant sees nothing of the command unit's own fields -/

/-- The search for a clear edge looks at time, outputs and clocks alone. -/
theorem effectSearch_rest (fuel : Nat) (o : Output) (gap : Rat) (num lead : Int → Int) (new : Rat) (s : State) (k : Int) :
    s.rest.effectSearch fuel o gap num lead new k = s.effectSearch fuel o gap num lead new k := by
  induction fuel generalizing k with
  | zero => rfl
  | succ fuel ih => exact if_congr Iff.rfl rfl (ih _)
theorem effectAt_rest (n : Nat) (c : OutCfg) (s : State) : s.rest.effectAt n c = s.effectAt n c := by
  unfold State.effectAt
  dsimp only
  rw [effectSearch_rest, effectSearch_rest]
  rfl
theorem effectAt_of_rest {a b : State} (h : a.rest = b.rest) (n : Nat) (c : OutCfg) : a.effectAt n c = b.effectAt n c := by
  rw [← effectAt_rest n c a, h, effectAt_rest]

/-! ## PULSE_CONFIG -/

/-- The output configuration that a PULSE_CONFIG gives (R191). -/
def pulseCfg (ps : List Word) : OutCfg := OutCfg.masked ⟨arg ps 1, arg ps 2, arg ps 3, arg ps 4⟩
/-- What an accepted PULSE_CONFIG answers and does. -/
def pulseAccepted (n : Nat) (c : OutCfg) (e : Qval) : Verdict :=
  { status := .accepted, words := [cyc e, frc e], pins := [.config 0x070 n]
    act := fun jsn s => (s.commitOut n c jsn).loseStages (.out n) }
section
variable {k : Pkt} {b : State} {n : Nat} {c : OutCfg} (hn : fld (arg k.ps 0) 47 45 = n) (hc : pulseCfg k.ps = c) (hlen : k.ps.length = 5)
include hn hc

theorem opPulseConfig_bad (hbad : b.outBad n c = true) : opPulseConfig.eval k b = badParam 0 := by
  subst hn hc
  exact if_pos (Or.inr hbad)
include hlen
theorem opPulseConfig_held (hok : b.outBad n c = false) (hheld : b.outHeld n c = true) : opPulseConfig.eval k b = notPermitted 0 := by
  subst hn hc
  exact (if_neg (by rintro (h | h); exacts [h hlen, Bool.false_ne_true (hok.symm.trans h)])).trans (if_pos hheld)
theorem opPulseConfig_ok (hok : b.outBad n c = false) (hfree : b.outHeld n c = false) :
    opPulseConfig.eval k b = pulseAccepted n c (b.effectAt n c) := by
  subst hn hc
  exact (if_neg (by rintro (h | h); exacts [h hlen, Bool.false_ne_true (hok.symm.trans h)])).trans
    (if_neg fun h => Bool.false_ne_true (hfree.symm.trans h))
end

theorem commitOut_parts (n : Nat) (c : OutCfg) (jsn : Nat) (s : State) : (s.commitOut n c jsn).parts = s.parts := by
  unfold State.commitOut
  dsimp only
  split <;> rfl
/-- While D11 is on, a committed configuration waits for its effect instant. -/
theorem commitOut_on {n : Nat} {s : State} (hon : s.isOn 11 = true) (c : OutCfg) (jsn : Nat) :
    s.commitOut n c jsn = (s.setOut n { s.out n with wait := some ⟨c, s.effectAt n c, jsn⟩ }).putFresh (s.fresh + 1) := by
  unfold State.commitOut
  exact if_pos hon

/-- So it does where the command unit commits it, seen from the state at the command's arrival. -/
theorem commitOut_waits {n : Nat} {c : OutCfg} {jsn : Nat} {a b u : State} (hb : b.rest = a.rest) (hon : a.isOn 11 = true)
    (hu : u.rest = ((b.commitOut n c jsn).loseStages (.out n)).rest) :
    u.out n = { a.out n with wait := some ⟨c, a.effectAt n c, jsn⟩ } ∧ (∀ m, m < 8 → m ≠ n → u.out m = a.out m) ∧ u.tb = a.tb ∧ u.clk = a.clk := by
  rw [commitOut_on ((isOn_of_rest hb 11).trans hon), effectAt_of_rest hb] at hu
  have hout : ∀ m, u.out m = (b.setOut n { b.out n with wait := some ⟨c, a.effectAt n c, jsn⟩ }).out m := out_congr ((of_rest_outs hu).trans rfl)
  have hsame : ∀ m, b.out m = a.out m := out_congr (of_rest_outs hb)
  have htb : u.tb = b.tb := (of_rest_tb hu).trans rfl
  have hclk : u.clk = b.clk := (of_rest_clk hu).trans rfl
  refine ⟨?_, fun m _ hm => ?_, htb.trans (of_rest_tb hb), hclk.trans (of_rest_clk hb)⟩
  · rw [hout, out_setOut, hsame]
  · rw [hout, out_setOut_ne _ _ _ _ hm, hsame]

/-! ## Clock outputs that run on keep their configuration -/

/-- An output that runs on changes its generator and its status group alone. -/
theorem run_view {γ : Type} (f : Output → γ)
    (h : ∀ (o : Output) l e fr k ho ts x fl, f { o with lead := l, last := e, from_ := fr, cnt := k, ho := ho, tsrc := ts, until_ := x, flags := fl } = f o)
    (adj : Int) (tb : TimeBase) (freqT : Nat) (coasts shut : Bool) (o : Output) : f (o.run adj tb freqT coasts shut) = f o := by
  unfold Output.run
  split
  · rfl
  · dsimp only
    cases o.ends tb
    all_goals
      dsimp only
      split
      · rfl
      · split
        · exact h o _ o.last o.from_ o.cnt o.ho o.tsrc o.until_ o.flags
        · exact h o ..
@[simp] theorem run_conf (adj : Int) (tb : TimeBase) (freqT : Nat) (coasts shut : Bool) (o : Output) : (o.run adj tb freqT coasts shut).conf = o.conf :=
  run_view (·.conf) (fun _ _ _ _ _ _ _ _ _ => rfl) ..
@[simp] theorem run_wait (adj : Int) (tb : TimeBase) (freqT : Nat) (coasts shut : Bool) (o : Output) : (o.run adj tb freqT coasts shut).wait = o.wait :=
  run_view (·.wait) (fun _ _ _ _ _ _ _ _ _ => rfl) ..
@[simp] theorem run_state (adj : Int) (tb : TimeBase) (freqT : Nat) (coasts shut : Bool) (o : Output) : (o.run adj tb freqT coasts shut).state = o.state :=
  run_view (·.state) (fun _ _ _ _ _ _ _ _ _ => rfl) ..
theorem runOuts_out (s : State) (n : Nat) :
    s.runOuts.out n = (s.out n).run s.tb.fadj s.tb (s.clk.pllT.freq.toNat % 2 ^ 46) (s.clk.coasts (s.out n).conf) (s.dom 11 != 2 || s.pwr.timeDown || s.pinsLatched 11) :=
  tget_map ({} : Output) (fun o : Output => o.run s.tb.fadj s.tb (s.clk.pllT.freq.toNat % 2 ^ 46) (s.clk.coasts o.conf) (s.dom 11 != 2 || s.pwr.timeDown || s.pinsLatched 11))
    rfl n s.outs
/-! ## OUT_CONFIG_EFFECT -/

theorem execOutConfigEffect_due {t : Lapse} {s a : State} {n : Nat} {w : OutWait} (ha : s.elapse t = a) (hw : (a.out n).wait = some w)
    (hon : a.isOn 11 = true) (hdue : behind a.tb.q0 w.at_ = false) :
    execOutConfigEffect t n s = .next (State.runOuts (a.setOut n (a.outStart n w.conf w.at_ (a.out n)))) := by
  unfold execOutConfigEffect
  rw [ha]; dsimp only
  rw [hw]
  exact if_pos ⟨hon, by rw [hdue]; rfl⟩
/-- Whatever state the output takes, the configuration is in force and none waits. -/
theorem outStart_view {γ : Type} (f : Output → γ) (h : ∀ (o : Output) st nx ld, f { o with state := st, next := nx, lead := ld } = f o)
    (n : Nat) (c : OutCfg) (e : Qval) (s : State) (o : Output) :
    f (s.outStart n c e o) = f { o with conf := c, wait := none, from_ := none, next := none, lead := none } := by
  unfold State.outStart
  dsimp only
  repeat' split
  all_goals exact h { o with conf := c, wait := none, from_ := none, next := none, lead := none } _ _ _
@[simp] theorem outStart_conf (n : Nat) (c : OutCfg) (e : Qval) (s : State) (o : Output) : (s.outStart n c e o).conf = c :=
  outStart_view (·.conf) (fun _ _ _ _ => rfl) ..
@[simp] theorem outStart_wait (n : Nat) (c : OutCfg) (e : Qval) (s : State) (o : Output) : (s.outStart n c e o).wait = none :=
  outStart_view (·.wait) (fun _ _ _ _ => rfl) ..
theorem outStart_disabled {c : OutCfg} (hen : c.en = false) (n : Nat) (e : Qval) (s : State) (o : Output) : (s.outStart n c e o).state = 0 := by
  unfold State.outStart
  dsimp only
  rw [hen]; rfl
/-- A periodic output that waits for time, without a source (R199). -/
theorem outStart_waits {c : OutCfg} {s : State} (hper : c.periodic = true) (hwait : bit c.cfg 42 = true) (hsrc : s.tb.tsrc = 0)
    (n : Nat) (e : Qval) (o : Output) : (s.outStart n c e o).state = 1 := by
  have hen : c.en = true := by
    unfold OutCfg.periodic at hper
    simp only [Bool.and_eq_true] at hper
    exact hper.1.2
  unfold State.outStart
  dsimp only
  rw [if_neg (by rw [hen]; simp), if_neg fun h => h.2.2 hsrc, if_pos ⟨hper, hwait, hsrc⟩]

/-- Settles O11: the command's three verdicts, and the configuration at its effect instant. -/
theorem outputConfiguration : Obligations.OutputConfiguration := by
  refine ⟨fun t env ps s => ?_, fun t s n w => ?_⟩
  · intro a n c
    have hb : (a.bound env).rest = a.rest := bound_rest env a
    refine ⟨fun h hlen hok hfree hon => ?_, fun h hlen hbad => ?_, fun h hlen hok hheld => ?_⟩
    · refine runOp_completes_jsn opPulseConfig t env ps 2 s (pulseAccepted n c (a.effectAt n c)) _ _ h (by decide) (by decide) ?_ rfl rfl ?_ (fun _ b => ?_) ?_
      · rw [← effectAt_of_rest hb]
        exact opPulseConfig_ok rfl rfl hlen hok hfree
      · simp [entriesFor, pulseAccepted, hlen]
      · exact keeps_shown (commitOut_parts ..) _
      · exact fun b u hbrest hu => commitOut_waits hbrest hon hu
    · exact runOp_refuses opPulseConfig t env ps 2 s .badParam [0] h (by decide) (by decide) (by simp) (opPulseConfig_bad rfl rfl hbad) (by simp)
    · exact runOp_refuses opPulseConfig t env ps 2 s .notPermitted [0] h (by decide) (by decide) (by simp) (opPulseConfig_held rfl rfl hlen hok hheld) (by simp)
  · generalize ha : s.elapse t = a
    intro a' hw hon hdue
    refine ⟨_, execOutConfigEffect_due ha hw hon hdue, ?_⟩
    refine ⟨?_, ?_, fun hen => ?_, fun hper hbit hsrc => ?_, fun m _ hm => ?_, rfl⟩
    · rw [runOuts_out, out_setOut, run_conf, outStart_conf]
    · rw [runOuts_out, out_setOut, run_wait, outStart_wait]
    · rw [runOuts_out, out_setOut, run_state]; exact outStart_disabled hen ..
    · rw [runOuts_out, out_setOut, run_state]; exact outStart_waits hper hbit hsrc ..
    · rw [runOuts_out, runOuts_out, out_setOut_ne _ _ _ _ hm]; rfl

end Sys2Proof.Machine
end

section
/-! An edge that falls due at a limit of its output's holdover (R198): none leaves the pin (O12). -/
namespace Sys2Proof.Machine
open Sys2Proof

/-- By the instant of the edge a limit of R198 has squelched the output: the edge is not produced. -/
theorem execTpgEdge_squelched {t : Lapse} {s a : State} {n : Nat} {e : Qval} (ha : s.elapse t = a) (hnext : (a.out n).next = some e)
    (hlimit : (a.out n).conf.squelches { a.tb with q0 := e } = true) : execTpgEdge t n s = .next a := by
  unfold execTpgEdge
  rw [ha]; dsimp only
  rw [hnext]; dsimp only
  refine if_neg fun ⟨_, _, _, _, _, _, _, _, hloud⟩ => ?_
  rw [hlimit] at hloud
  exact Bool.false_ne_true hloud

/-- Output 1 in its fifth second of holdover: a pulse each 100 ms, at most 1 s in holdover, an edge due at this instant. -/
def lateEdge : State :=
  (W.putTb { W.tb with tsrc := 2, hoStart := some 0, q0 := mkQ 5 0 }).setOut 1
    { conf := { cfg := 0x200005F5E100#48, hold := 0x000001000000#48 }, state := 2, next := some (mkQ 5 0) }

/-- Refutes O12: its first clause lets every due edge leave. In `lateEdge` the output's limit of 1 s of holdover has passed before
the edge, so that the edge is not produced (R198), and no hypothesis of the clause shuts that out. -/
theorem not_outputEdges : ¬ Obligations.OutputEdges := by
  intro h
  have hsilent : exec (.tpgEdge L0 1) lateEdge = .next (lateEdge.elapse L0) :=
    execTpgEdge_squelched (t := L0) (s := lateEdge) (n := 1) (e := mkQ 5 0) rfl (by decide +kernel) (by decide +kernel)
  obtain ⟨u, hu, -, hcount, -⟩ := h.1 L0 lateEdge 1 (mkQ 5 0) (by decide +kernel) (by decide) (by decide +kernel) (by decide +kernel)
    (by decide +kernel) (by decide +kernel) (by decide +kernel) (by decide +kernel) (by decide +kernel)
  obtain rfl : lateEdge.elapse L0 = u := Host.Outcome.next.inj (hsilent.symm.trans hu)
  exact absurd hcount (by decide +kernel)

end Sys2Proof.Machine
end

section
/-! The governor over forced domains (R478, R484), and the cut of an output at D11's power-down (R495) (O47). -/
namespace Sys2Proof.Machine
open Sys2Proof

/-! ## Writing tables of domains -/

/-- A value of its own written at each of several places. -/
theorem tget_foldl_tput_by {α : Type} [DecidableEq α] (d : α) (w : Nat → α) (i : Nat) (ks : List Nat) (t : Tab α) :
    tget d i (ks.foldl (fun t k => tput d k (w k) t) t) = if i ∈ ks then w i else tget d i t := by
  induction ks generalizing t with
  | nil => rfl
  | cons k ks ih =>
    rw [List.foldl_cons, ih]
    by_cases hk : i = k
    · subst hk; simp
    · simp [hk]
/-- A value written where it stands already. -/
theorem tget_tput_standing {α : Type} [DecidableEq α] {d v : α} {k : Nat} {t : Tab α} (h : tget d k t = v) (i : Nat) :
    tget d i (tput d k v t) = tget d i t := by
  by_cases hi : i = k
  · subst hi; rw [tget_tput_same, h]
  · exact tget_tput_ne _ _ _ _ _ _ hi

/-! ## The choice of the governor (R484, Table 2) -/

/-- Rules 2 to 4 of R484 for each domain. -/
def State.wishes (s : State) (idle : List (Nat × Nat)) : Tab Nat :=
  [3, 4, 5, 6, 7, 8, 9, 10, 11].foldl (fun (t : Tab Nat) d => tput 0 d (s.wish d (tget 0 d idle)) t)
    ([0, 1, 2].foldl (fun (t : Tab Nat) d => tput 0 d 2 t) [])
/-- Domains asked to be on stay in retention. -/
def lowered (ds : List Nat) (t : Tab Nat) : Tab Nat := ds.foldl (fun (t : Tab Nat) d => if tget 0 d t = 2 then tput 0 d 1 t else t) t
/-- What needs D7 brings it up, or is held back with it. -/
def State.memRule (s : State) (t : Tab Nat) : Tab Nat :=
  if decide (2 ≤ s.forced 7) && decide (tget 0 7 t ≠ 2) then lowered needsMem t
  else if needsMem.any (fun d => tget 0 d t == 2) then tput 0 7 2 t
  else if tget 0 9 t = 2 ∧ tget 0 7 t = 0 then tput 0 7 1 t else t
/-- What needs D11 brings it up, or is held back with it. -/
def State.timeRule (s : State) (t : Tab Nat) : Tab Nat :=
  if decide (2 ≤ s.forced 11) && decide (tget 0 11 t ≠ 2) then lowered needsTime t
  else if needsTime.any (fun d => tget 0 d t == 2) then tput 0 11 2 t else t
theorem choose_eq (s : State) (idle : List (Nat × Nat)) :
    s.choose idle = s.timeRule (s.memRule (if tget 0 11 (s.wishes idle) = 1 ∧ !s.timeIdle then tput 0 11 2 (s.wishes idle) else s.wishes idle)) := rfl

theorem memRule_on {s : State} {t : Tab Nat} (h : tget 0 7 t = 2) (i : Nat) : tget 0 i (s.memRule t) = tget 0 i t := by
  unfold State.memRule
  rw [if_neg (by simp [h])]
  split
  · exact tget_tput_standing h i
  · rw [if_neg (by omega)]
theorem timeRule_on {s : State} {t : Tab Nat} (h : tget 0 11 t = 2) (i : Nat) : tget 0 i (s.timeRule t) = tget 0 i t := by
  unfold State.timeRule
  rw [if_neg (by simp [h])]
  split
  · exact tget_tput_standing h i
  · rfl
theorem wish_forced {s : State} {d : Nat} (h : s.forced d ≠ 0) (idle : Nat) : s.wish d idle = forcedState (s.forced d) := if_pos h
theorem wishes_get {s : State} {d : Nat} (hd : d < 12) (idle : List (Nat × Nat)) :
    tget 0 d (s.wishes idle) = if d < 3 then 2 else s.wish d (tget 0 d idle) := by
  unfold State.wishes
  rw [tget_foldl_tput_by, tget_foldl_tput]
  by_cases h3 : d < 3
  · rw [if_pos h3, if_neg (by simp only [List.mem_cons, List.not_mem_nil, or_false]; omega), if_pos (by simp only [List.mem_cons]; omega)]
  · rw [if_neg h3, if_pos (by simp only [List.mem_cons]; omega)]
/-- With D7 and D11 forced on, Table 2 changes no other domain's wish. -/
theorem choose_get {s : State} (h7 : s.forced 7 = 1) (h11 : s.forced 11 = 1) (idle : List (Nat × Nat)) {d : Nat} (hd : d < 12) :
    tget 0 d (s.choose idle) = if d < 3 then 2 else s.wish d (tget 0 d idle) := by
  have hmem : tget 0 7 (s.wishes idle) = 2 := (wishes_get (by omega) idle).trans (by rw [wish_forced (by omega), h7]; rfl)
  have htime : tget 0 11 (s.wishes idle) = 2 := (wishes_get (by omega) idle).trans (by rw [wish_forced (by omega), h11]; rfl)
  rw [choose_eq, if_neg (by omega), timeRule_on ((memRule_on hmem 11).trans htime), memRule_on hmem, wishes_get hd]

/-! ## The choice carried out (R479) -/

theorem domTo_same {s : State} {d v : Nat} (h : s.dom d = v) : s.domTo d v = s := if_pos h
/-- Where every domain is on and D10 alone is asked for another state, D10 alone moves. -/
theorem carryOut_samples {t : Tab Nat} {s : State} (hon : ∀ d, d < 12 → s.dom d = 2) (ht : ∀ d, d < 12 → d ≠ 10 → tget 0 d t = 2) :
    s.carryOut t = s.domTo 10 (tget 0 10 t) := by
  have hup : ∀ d ∈ [11, 7, 9, 8, 6, 5, 3, 4, 10], (if tget 0 d t = 2 then s.domTo d 2 else s) = s := by
    intro d hd
    have hlt : d < 12 := by simp only [List.mem_cons, List.not_mem_nil, or_false] at hd; omega
    split
    · exact domTo_same (hon d hlt)
    · rfl
  have hdown : ∀ (v : State), ∀ d ∈ [3, 4, 5, 6, 8, 9, 7, 11], (if tget 0 d t ≠ 2 then v.domTo d (tget 0 d t) else v) = v := by
    intro v d hd
    simp only [List.mem_cons, List.not_mem_nil, or_false] at hd
    exact if_neg (not_not.mpr (ht d (by omega) (by omega)))
  unfold State.carryOut
  dsimp only
  rw [foldl_fixed (a := s) hup, List.foldl_cons, foldl_fixed (hdown _)]
  split
  · rfl
  next h => rw [not_not.mp h, domTo_same (hon 10 (by decide))]

/-! ## D10 goes off (R406, R491) -/

theorem exists_stopPort_rest (n why : Nat) (s : State) : ∃ p m, (s.stopPort n why).rest = ((s.putPorts p).putMem m).rest := by
  unfold State.stopPort
  dsimp only
  split
  · obtain ⟨p, m, h⟩ := exists_writeHeader_eq n (s.setSmp n { s.smp n with state := 1, stopAt := none })
    refine ⟨p, m, ?_⟩
    split
    · rw [h]; rfl
    · rw [raiseLimited_rest, h]; rfl
  · exact ⟨s.ports, s.mem, rfl⟩
theorem exists_stopPorts_rest (why : Nat) (s : State) : ∃ p m, (s.stopPorts why).rest = ((s.putPorts p).putMem m).rest := by
  refine foldl_inv (fun u => ∃ p m, u.rest = ((s.putPorts p).putMem m).rest) _ (fun u n hu => ?_) _ s ⟨s.ports, s.mem, rfl⟩
  obtain ⟨p, m, hu⟩ := hu
  obtain ⟨p', m', h⟩ := exists_stopPort_rest n why u
  exact ⟨p', m', h.trans (congrArg (fun v : State => (v.putPorts p').putMem m') hu)⟩
/-- Ports that do not run have nothing to stop. -/
theorem stopPorts_idle {s : State} (h : ∀ p, p < 8 → (s.smp p).state ≠ 2) (why : Nat) : s.stopPorts why = s := by
  refine foldl_fixed fun p hp => if_neg (h p ?_)
  simp only [List.mem_cons, List.not_mem_nil, or_false] at hp
  omega
theorem exists_smpOff_eq (s : State) : ∃ p, s.smpOff = s.putPorts p := by
  refine foldl_inv (fun u => ∃ p, u = s.putPorts p) _ (fun u n hu => ?_) _ s ⟨s.ports, rfl⟩
  obtain ⟨p, rfl⟩ := hu
  exact ⟨_, rfl⟩
/-- Latching pads changes the latches and what left, nothing else. -/
theorem latchPads_view {γ : Type} (f : State → γ) (h : ∀ (s : State) l k w, f ((s.putPwr { s.pwr with latched := l, latches := k }).putWire w) = f s)
    (d : Nat) (s : State) : f (s.latchPads d) = f s := by
  unfold State.latchPads
  split
  · split
    · rfl
    · exact h ..
  · rfl
theorem latchPads_latched {d b : Nat} (hb : padBit d = some b) (s : State) : (s.latchPads d).pwr.latched.testBit b = true := by
  unfold State.latchPads
  rw [hb]; dsimp only
  split
  next h => exact h
  · show (s.pwr.latched ||| 2 ^ b).testBit b = true
    simp
theorem domTo_samples_off {s : State} (h : s.dom 10 = 2) : s.domTo 10 0 = (((s.setDom 10 0).stopPorts 3).smpOff).latchPads 10 := by
  have hoff : s.domOff 10 = (((s.setDom 10 0).stopPorts 3).smpOff).latchPads 10 := if_neg (by omega)
  rw [← hoff]
  unfold State.domTo
  rw [if_neg (by omega), if_neg (by decide)]
  exact (if_neg (by simp)).trans ((if_neg (by decide)).trans (if_neg (by decide)))
/-- With D10 off its pads are latched; outputs stay, and memory with them unless a port ran. -/
theorem domTo_samples_off_spec {s v : State} (h : s.dom 10 = 2) (hv : s.domTo 10 0 = v) :
    v.pwr.dom = tput 0 10 0 s.pwr.dom ∧ v.pwr.req = s.pwr.req ∧ v.pwr.latched.testBit 1 = true ∧ v.outs = s.outs ∧
    ((∀ p, p < 8 → (s.smp p).state ≠ 2) → v.mem = s.mem) := by
  subst hv
  rw [domTo_samples_off h]
  obtain ⟨p, m, hstop⟩ := exists_stopPorts_rest 3 (s.setDom 10 0)
  obtain ⟨q, hoff⟩ := exists_smpOff_eq ((s.setDom 10 0).stopPorts 3)
  refine ⟨?_, ?_, latchPads_latched rfl _, ?_, fun hidle => ?_⟩
  · rw [latchPads_view (·.pwr.dom) (fun _ _ _ _ => rfl), hoff, putPorts_pwr, of_rest_pwr hstop]; rfl
  · rw [latchPads_view (·.pwr.req) (fun _ _ _ _ => rfl), hoff, putPorts_pwr, of_rest_pwr hstop]; rfl
  · rw [latchPads_view (·.outs) (fun _ _ _ _ => rfl), hoff, putPorts_outs, of_rest_outs hstop]; rfl
  · rw [latchPads_view (·.mem) (fun _ _ _ _ => rfl), hoff, putPorts_mem, stopPorts_idle (by exact hidle)]; rfl

/-! ## Points and budgets: what they leave (R485, R486) -/

/-- The state without the command unit's fields, the clock block and the judgement of budgets. -/
def State.unjudged (s : State) : State :=
  { s.rest with clk := {}, pwr := { s.pwr with unmet := [], effLat := [], effFull := [], met := [] } }
theorem unjudged_of_rest {a b : State} (h : a.rest = b.rest) : a.unjudged = b.unjudged :=
  congrArg (fun s : State => { s with clk := {}, pwr := { s.pwr with unmet := [], effLat := [], effFull := [], met := [] } }) h
theorem freqRequest_unjudged (i pt : Nat) (s : State) : (s.freqRequest i pt).unjudged = s.unjudged := by
  unfold State.freqRequest
  dsimp only
  split
  · rfl
  · split
    · split <;> rfl
    · rfl
theorem movePoint_unjudged (d demand : Nat) (s : State) : (s.movePoint d demand).unjudged = s.unjudged := by
  unfold State.movePoint
  split
  · rfl
  · dsimp only
    split
    · rfl
    · split
      · split <;> rfl
      · split
        · exact freqRequest_unjudged ..
        · split
          · rfl
          · exact freqRequest_unjudged ..
theorem judgeBudgets_unjudged (s : State) : s.judgeBudgets.unjudged = s.unjudged := by
  unfold State.judgeBudgets
  dsimp only
  refine Eq.trans (foldl_keeps State.unjudged _ ?_ _ _) (foldl_keeps State.unjudged _ (fun b p => foldl_keeps State.unjudged _ (fun b c => ?_) _ b) _ s)
  · intro b c
    rfl
  · split
    · exact (unjudged_of_rest (raise_rest ..)).trans rfl
    · rfl

/-! ## GOVERNOR_EVALUATION -/

/-- The governor asks for a choice of states. -/
def State.asks (t : Tab Nat) (s : State) : State := s.onPwr fun p => { p with req := t }

section
variable {t : Lapse} {s a : State} (ha : s.elapse t = a) (demand idle : List (Nat × Nat))
  (hready : a.pwr.ready = true) (hdown : a.pwr.timeDown = false)
include ha hready hdown

theorem execGovernorEvaluation_ready (hon : a.isOn 1 = true) :
    ∃ u, execGovernorEvaluation t demand idle s = .next u ∧ u.unjudged = ((a.asks (a.choose idle)).carryOut (a.choose idle)).unjudged := by
  have hsettled : a.settleTime = a := if_neg (by rw [hdown]; simp)
  unfold execGovernorEvaluation
  rw [ha, hsettled]; dsimp only
  rw [if_pos ⟨hready, hon⟩]
  exact ⟨_, rfl, (judgeBudgets_unjudged _).trans (foldl_keeps State.unjudged _ (fun b d => movePoint_unjudged d _ b) _ _)⟩
/-- With every domain on, D10 forced in some way and the others forced on, the forces are what is asked for, and D10 alone may move. -/
theorem execGovernorEvaluation_forced {f : Nat} (hf : f ≠ 0) (hon : ∀ d, d < 12 → a.dom d = 2)
    (hforced : ∀ d, d < 9 → a.forced (d + 3) = if d = 7 then f else 1) :
    (∀ d, d < 12 → tget 0 d (a.choose idle) = if d = 10 then forcedState f else 2) ∧
    ∃ u, execGovernorEvaluation t demand idle s = .next u ∧ u.unjudged = ((a.asks (a.choose idle)).domTo 10 (forcedState f)).unjudged := by
  have hforce : ∀ d, 3 ≤ d → d < 12 → a.forced d = if d = 10 then f else 1 := fun d h3 h12 => by
    have h := hforced (d - 3) (by omega)
    rwa [Nat.sub_add_cancel h3, if_congr (show d - 3 = 7 ↔ d = 10 by omega) rfl rfl] at h
  have hchoice : ∀ d, d < 12 → tget 0 d (a.choose idle) = if d = 10 then forcedState f else 2 := by
    intro d hd
    rw [choose_get (hforce 7 (by decide) (by decide)) (hforce 11 (by decide) (by decide)) idle hd]
    by_cases h3 : d < 3
    · rw [if_pos h3, if_neg (by omega)]
    · have hd' := hforce d (by omega) hd
      rw [if_neg h3]
      by_cases h10 : d = 10
      · rw [if_pos h10] at hd' ⊢
        rw [wish_forced (by omega), hd']
      · rw [if_neg h10] at hd' ⊢
        rw [wish_forced (by omega), hd']; rfl
  obtain ⟨u, hu, hsame⟩ := execGovernorEvaluation_ready ha demand idle hready hdown (beq_iff_eq.mpr (hon 1 (by decide)))
  refine ⟨hchoice, u, hu, hsame.trans ?_⟩
  rw [carryOut_samples (by exact hon) (fun d hd hne => (hchoice d hd).trans (if_neg hne)), hchoice 10 (by decide), if_pos rfl]
end

/-! ## OUTPUT_CUT (R495) -/

/-- While another output is active, the cut of one leaves D11's power-down running. -/
theorem execOutputCut_other {t : Lapse} {s a : State} {n m : Nat} (ha : s.elapse t = a) (hn : n < 8) (hm : m < 8) (hne : m ≠ n)
    (hdown : a.pwr.timeDown = true) (hlate : a.pwr.downClk + 65472000 ≤ a.tb.clk) (hact : a.outActive n = true) (hother : a.outActive m = true) :
    execOutputCut t n s = .next (a.cutOut n) := by
  have hout : (a.cutOut n).out m = a.out m := out_setOut_ne a m n _ hne
  have hstill : (a.cutOut n).outActive m = true := by
    unfold State.outActive at hother ⊢
    rw [hout]; exact hother
  have hany : [0, 1, 2, 3, 4, 5, 6, 7].any (a.cutOut n).outActive = true :=
    List.any_eq_true.mpr ⟨m, by simp only [List.mem_cons]; omega, hstill⟩
  unfold execOutputCut
  rw [ha]; dsimp only
  rw [if_pos ⟨hn, hdown, hlate, hact⟩, if_pos hany]

/-- Settles O47: the governor's choice under each pattern of forces and what carrying it out leaves, and the cut of one output. -/
theorem governorAndPads : Obligations.GovernorAndPads := by
  refine ⟨fun t demand idle s => ?_, fun t n m s => ?_⟩ <;> generalize ha : s.elapse t = a
  · refine ⟨fun hready hdown hon hforced => ?_, fun hready hdown hon hforced => ?_⟩
    · obtain ⟨hchoice, u, hu, hsame⟩ := execGovernorEvaluation_forced (f := 1) ha demand idle hready hdown (by decide) hon
        (fun d hd => (hforced d hd).trans (ite_self 1).symm)
      rw [domTo_same (by exact hon 10 (by decide))] at hsame
      have hview : ∀ {γ : Type} (f : State → γ), f u.unjudged = f (a.asks (a.choose idle)).unjudged := fun f => congrArg f hsame
      refine ⟨u, hu, hview (·.pwr.dom), fun d hd => ?_, hview (·.qs), hview (·.outs), hview (·.mem), hview (·.tb), hview (·.sch), hview (·.links)⟩
      exact (congrArg (tget 0 d) (hview (·.pwr.req))).trans ((hchoice d hd).trans (ite_self 2))
    · obtain ⟨hchoice, u, hu, hsame⟩ := execGovernorEvaluation_forced (f := 3) ha demand idle hready hdown (by decide) hon hforced
      have hview : ∀ {γ : Type} (f : State → γ), f u.unjudged = f ((a.asks (a.choose idle)).domTo 10 0).unjudged := fun f => congrArg f hsame
      obtain ⟨hdom, hreq, hlatched, houts, hmem⟩ := domTo_samples_off_spec (s := a.asks (a.choose idle)) (hon 10 (by decide)) rfl
      have hstate : u.pwr.dom = tput 0 10 0 a.pwr.dom := (hview (·.pwr.dom)).trans hdom
      have hask : u.pwr.req = a.choose idle := (hview (·.pwr.req)).trans hreq
      have hpads : u.pwr.latched.testBit 1 = true := (congrArg (Nat.testBit · 1) (hview (·.pwr.latched))).trans hlatched
      refine ⟨u, hu, fun d hd => ?_, fun d hd => by rw [hask]; exact hchoice d hd, hpads, (hview (·.outs)).trans houts,
        fun hidle => (hview (·.mem)).trans (hmem hidle)⟩
      unfold State.dom
      rw [hstate]
      by_cases h10 : d = 10
      · rw [if_pos h10, h10, tget_tput_same]
      · rw [if_neg h10, tget_tput_ne _ _ _ _ _ _ h10]
        exact hon d hd
  · intro a' hn hm hne hdown hlate hact hother
    have hwire : a.wire = [] := by rw [← ha]; exact elapse_wire t s
    refine ⟨_, execOutputCut_other ha hn hm hne hdown hlate hact hother, out_setOut .., fun k _ hk => out_setOut_ne a k n _ hk, rfl, rfl, ?_, hdown, rfl⟩
    show a.wire ++ [_] = [_]
    rw [hwire]; rfl

end Sys2Proof.Machine
end

section
/-! A search of PLL-S that fails while a patrol engine's lease stands (R219, R450) (O13). -/
namespace Sys2Proof.Machine
open Sys2Proof

/-- A failed search writes its PLL, and every write of a PLL-S that is not locked ends the leases. -/
theorem execPllNoLock_mem {t : Lapse} {s a : State} {p : Nat} (ha : s.elapse t = a) (hp : p < 5)
    (hsearch : (a.clk.pll p).state = 1 ∨ (a.clk.pll p).state = 4) :
    Answers (execPllNoLock t p s) fun u => u.mem = if p = 2 then a.mem.endLeases else a.mem := by
  have hunlocked : (a.clk.pll p).state ≠ 2 := by omega
  unfold execPllNoLock
  rw [ha]; dsimp only
  rw [if_pos ⟨hp, hsearch⟩]
  refine ⟨_, rfl, (raiseLimited_mem ..).trans ?_⟩
  exact congrArg State.mem (setPll_unlocked (v := { a.clk.pll p with fails := 10 }) hunlocked p a)

/-- PLL-S searches without its reference, and a lease of engine 0 stands. OCXO_LOST, a PATROL_LEASE on the coasting PLL-S, and D11 off and
on again leave such a state. -/
def leasedSearch : State :=
  (W.putClk { W.clk with refOk := false, pllS := { W.clk.pllS with state := 1 } }).putMem { W.mem with patrols := [(0, { lease := some (0, 0, 0) })] }

/-- Refutes O13: its clause of PLL_NO_LOCK lets nothing change but the clock block and the records. In `leasedSearch` the model also ends the
lease, as it does at every write of a PLL-S that is not locked, and no hypothesis of the clause shuts a lease out. -/
theorem not_lossOfLock : ¬ Obligations.LossOfLock := by
  intro h
  obtain ⟨hclauses, -⟩ := h
  obtain ⟨-, -, -, hnoLock⟩ := hclauses L0 leasedSearch 2
  have hsearch : ((leasedSearch.elapse L0).clk.pll 2).state = 1 := by decide +kernel
  obtain ⟨u, hu, -, -, hrest⟩ := hnoLock (by decide) (.inl hsearch)
  obtain ⟨v, hv, hended⟩ := execPllNoLock_mem rfl (by decide) (.inl hsearch)
  obtain rfl : u = v := Host.Outcome.next.inj (hu.symm.trans hv)
  have hkept : u.mem = (leasedSearch.elapse L0).mem := (of_rest_mem hrest).trans rfl
  exact absurd (congrArg Memory.patrols (hkept.symm.trans hended)) (by decide +kernel)

end Sys2Proof.Machine
end

section
/-! Frequency and voltage points: a change that the other point forbids is refused, a permitted one is taken (R222-R224, R488) (O15). -/
namespace Sys2Proof.Machine
open Sys2Proof

/-! ## What a write of an operating point leaves -/

@[simp] theorem opp_setOpp (c : Clock) (i : Nat) (v : Opp) : (c.setOpp i v).opp i = v :=
  match i with
  | 0 | 1 | 2 | _ + 3 => rfl
@[simp] theorem setOpp_pll (c : Clock) (i : Nat) (v : Opp) (p : Nat) : (c.setOpp i v).pll p = c.pll p := by
  unfold Clock.setOpp; split <;> rfl
@[simp] theorem setOpp_fault (c : Clock) (i : Nat) (v : Opp) : (c.setOpp i v).fault = c.fault := by
  unfold Clock.setOpp; split <;> rfl
theorem setOpp_clk (s : State) (i : Nat) (v : Opp) : (s.setOpp i v).clk = s.clk.setOpp i v := rfl
/-- The operating points stand apart from CLK_FAULT. -/
theorem opp_withFault (c : Clock) (f i : Nat) : ({ c with fault := f } : Clock).opp i = c.opp i := rfl

/-- The state after an operating point has been written. -/
theorem setOpp_spec (s : State) (i : Nat) (v : Opp) : (s.setOpp i v).clk.opp i = v ∧ s.setOpp i v = s.putClk (s.setOpp i v).clk :=
  ⟨opp_setOpp .., rfl⟩

/-- The state after a refusal: it is counted and latched (R223). -/
theorem refuseOpp_spec (s : State) (i : Nat) :
    (s.refuseOpp i).clk.opp i = { s.clk.opp i with refusals := satN 16 ((s.clk.opp i).refusals + 1) } ∧
    (s.refuseOpp i).clk.fault = setBit s.clk.fault 7 ∧ s.refuseOpp i = s.putClk (s.refuseOpp i).clk :=
  ⟨(opp_withFault ..).trans (opp_setOpp ..), rfl, rfl⟩

/-! ## The frequency point (R221-R223) -/

theorem freqRequest_refused {s : State} {i pt : Nat} (h : (s.clk.opp i).volt < pt) :
    s.freqRequest i pt = (s.setOpp i { s.clk.opp i with req := pt }).refuseOpp i := by
  unfold State.freqRequest
  dsimp only
  rw [setOpp_clk, opp_setOpp]
  exact if_pos h

/-- At or below the voltage point, with the domain's PLL locked or none needed. -/
theorem freqRequest_taken {s : State} {i pt : Nat} (h : pt ≤ (s.clk.opp i).volt)
    (hlocked : ((oppPll i pt).map fun p => (s.clk.pll p).state).getD 2 = 2) :
    s.freqRequest i pt = (s.setOpp i { s.clk.opp i with req := pt }).setOpp i { s.clk.opp i with req := pt, freq := pt, wish := none } := by
  unfold State.freqRequest
  dsimp only
  rw [setOpp_clk, opp_setOpp, if_neg (Nat.not_lt.mpr h)]
  cases hpll : oppPll i pt with
  | none => rfl
  | some p =>
    rw [hpll] at hlocked
    dsimp only
    rw [setOpp_pll]
    exact if_pos hlocked

section
variable {t : Lapse} {s a : State} {i pt : Nat} (ha : s.elapse t = a) (hi : i < 4)
include ha hi

theorem execFreqPointChange_known (hpt : pt < 3) : execFreqPointChange t i pt s = .next (a.freqRequest i pt) := by
  unfold execFreqPointChange
  rw [ha]
  exact if_pos ⟨hi, hpt⟩

/-! ## The voltage point (R223, R488) -/

/-- A decrease acts at once, or is refused below the frequency point. -/
theorem execVoltPointChange_decrease (hdown : pt < (a.clk.opp i).volt) (hvolt : (a.clk.opp i).volt < 3) :
    execVoltPointChange t i pt s = .next
      (if pt < (a.clk.opp i).freq then a.refuseOpp i else a.setOpp i { a.clk.opp i with volt := pt, settling := none }) := by
  unfold execVoltPointChange
  rw [ha]; dsimp only
  rw [if_neg (by omega), if_pos hdown]
  exact (apply_ite Host.Outcome.next ..).symm

/-- An increase waits for the supply. -/
theorem execVoltPointChange_increase (hpt : pt < 3) (hup : (a.clk.opp i).volt < pt) :
    execVoltPointChange t i pt s = .next (a.setOpp i { a.clk.opp i with settling := some pt }) := by
  unfold execVoltPointChange
  rw [ha]; dsimp only
  rw [if_neg (by omega), if_neg (by omega), if_neg (by omega)]

theorem execVoltageSettled_due (hdue : (a.clk.opp i).settling = some pt) :
    execVoltageSettled t i s = .next (a.setOpp i { a.clk.opp i with volt := pt, settling := none }) := by
  unfold execVoltageSettled
  rw [ha]; dsimp only
  rw [hdue]
  exact if_pos hi

end

/-- Settles O15: each change by the point it asks for against the other point in force. -/
theorem operatingPoints : Obligations.OperatingPoints := by
  intro t s i pt
  generalize ha : s.elapse t = a
  intro a' o
  refine ⟨fun hi hpt habove => ?_, fun hi hpt hbelow hlocked => ?_, fun hi hdown hvolt hbelow => ?_, fun hi hdown hvolt hpermitted => ?_,
    fun hi hpt hup => ⟨_, execVoltPointChange_increase ha hi hpt hup, setOpp_spec ..⟩,
    fun hi hdue => ⟨_, execVoltageSettled_due ha hi hdue, setOpp_spec ..⟩⟩
  · refine ⟨_, execFreqPointChange_known ha hi hpt, ?_⟩
    rw [freqRequest_refused habove]
    obtain ⟨hopp, hfault, -⟩ := refuseOpp_spec (a.setOpp i { o with req := pt }) i
    rw [setOpp_clk, opp_setOpp] at hopp
    rw [setOpp_clk, setOpp_fault] at hfault
    exact ⟨hopp, hfault, rfl⟩
  · refine ⟨_, execFreqPointChange_known ha hi hpt, ?_⟩
    rw [freqRequest_taken hbelow hlocked]
    exact ⟨opp_setOpp .., rfl⟩
  · refine ⟨_, execVoltPointChange_decrease ha hi hdown hvolt, ?_⟩
    rw [if_pos (by exact hbelow)]
    exact refuseOpp_spec a i
  · refine ⟨_, execVoltPointChange_decrease ha hi hdown hvolt, ?_⟩
    rw [if_neg (Nat.not_lt.mpr hpermitted)]
    exact setOpp_spec ..

end Sys2Proof.Machine
end

section
/-! What records, and the sinks of a release, leave alone (R250, R285): the dispatch marks, a partner's SEQ and its replay records. -/
namespace Sys2Proof.Machine
open Sys2Proof

/-! ## Records leave the dispatch marks as they are -/

@[simp] theorem trimPins_markRing (n p : Nat) (j : Journal) : (j.trimPins n p).markRing = j.markRing := by
  induction n generalizing j with
  | zero => rfl
  | succ n ih =>
    unfold Journal.trimPins
    split
    · rfl
    · split
      · exact ih _
      · rfl
@[simp] theorem seal_markRing (g : Group) (s : State) : (s.seal g).jrn.markRing = s.jrn.markRing := by
  unfold State.seal
  split
  · rfl
  · refine foldl_keeps Journal.markRing _ (fun j pin => ?_) g.pins s.jrn
    cases pin <;> rfl
@[simp] theorem form_markRing (p : Nat) (vol : Bool) (ws : List Word) (s : State) : (s.form p vol ws).jrn.markRing = s.jrn.markRing := by
  unfold State.form
  dsimp only
  split
  · rfl
  · rw [sendRecs_jrn, setPart_jrn, putJrn_jrn, trimPins_markRing, seal_markRing]
@[simp] theorem jsnCheck_markRing (s : State) : s.jsnCheck.jrn.markRing = s.jrn.markRing := by
  unfold State.jsnCheck
  split
  · rw [foldl_keeps (fun t : State => t.jrn.markRing) _ (fun t p => form_markRing ..), putJrn_jrn]
  · rfl
@[simp] theorem record_markRing (p : Nat) (vol : Bool) (ws : List Word) (s : State) : (s.record p vol ws).jrn.markRing = s.jrn.markRing :=
  (jsnCheck_markRing _).trans (form_markRing ..)
@[simp] theorem recordCounted_markRing (p : Nat) (vol : Bool) (ws : List Word) (s : State) :
    (s.recordCounted p vol ws).jrn.markRing = s.jrn.markRing := by
  unfold State.recordCounted
  dsimp only
  rw [record_markRing, putJrn_jrn]
@[simp] theorem raiseOwner_markRing (p c i : Nat) (ws : List Word) (s : State) : (s.raiseOwner p c i ws).jrn.markRing = s.jrn.markRing := by
  unfold State.raiseOwner
  dsimp only
  split
  · split
    · rfl
    · exact record_markRing ..
  · exact record_markRing ..

/-! ## What reaches a sink -/

/-- A view of the state in which the work of an occurrence at its sink does not show: outputs, user cores, sample ports, shared memory,
what left the module, and an ALARM to a task's owner. -/
structure Apart {γ : Type} (f : State → γ) : Prop where
  putOuts : ∀ s v, f (s.putOuts v) = f s
  putDsp : ∀ s v, f (s.putDsp v) = f s
  putPorts : ∀ s v, f (s.putPorts v) = f s
  putMem : ∀ s v, f (s.putMem v) = f s
  putWire : ∀ s v, f (s.putWire v) = f s
  raiseOwner : ∀ p c i ws s, f (State.raiseOwner p c i ws s) = f s

namespace Apart
variable {γ : Type} {f : State → γ} (h : Apart f)
include h

theorem leadEdge (n : Nat) (e : Qval) (s : State) : f (s.leadEdge n e) = f s := by
  unfold State.leadEdge
  split
  · rfl
  · exact (h.putWire ..).trans (h.putOuts ..)
theorem setCore (s : State) (k : Nat) (c : UCore) : f (s.setCore k c) = f s := by
  unfold State.setCore
  split <;> exact h.putDsp ..
/-- The owner of a dropped start record is told, where the task has one. -/
theorem tellOwner {P : Prop} [Decidable P] (p c i : Nat) (ws : List Word) {s u : State} (hu : f u = f s) :
    f (if P then u.raiseOwner p c i ws else u) = f s := by
  split
  · exact (h.raiseOwner ..).trans hu
  · exact hu
theorem pushStart (k : Nat) (r : Start) (s : State) : f (s.pushStart k r) = f s := by
  unfold State.pushStart
  dsimp only
  split
  · exact h.tellOwner _ _ _ _ (h.setCore ..)
  · split
    · exact h.setCore ..
    · split
      · exact h.tellOwner _ _ _ _ (h.setCore ..)
      · exact h.setCore ..
theorem startPort (n : Nat) (ts : Qval) (s : State) : f (s.startPort n ts) = f s := by
  unfold State.startPort
  dsimp only
  split
  · refine ((h.putMem ..).trans (h.putPorts ..)).trans ?_
    exact (h.putWire ..).trans (h.putPorts ..)
  · rfl
theorem deliver (e : Event) (rel tx : Qval) (late clkq : Bool) (s : State) : f (s.deliver e rel tx late clkq) = f s := by
  unfold State.deliver
  split
  · exact h.leadEdge ..
  · exact h.pushStart ..
  · exact foldl_keeps f _ (fun u p => h.startPort ..) _ _
  · rfl
end Apart

/-- What a release rests on and no sink touches: time, power, the scheduler, and the ring of dispatch marks. -/
def State.dispatch (s : State) : TimeBase × Power × Sched × List (Nat × Nat) := (s.tb, s.pwr, s.sch, s.jrn.markRing)
theorem apart_dispatch : Apart State.dispatch where
  putOuts _ _ := rfl
  putDsp _ _ := rfl
  putPorts _ _ := rfl
  putMem _ _ := rfl
  putWire _ _ := rfl
  raiseOwner p c i ws s := by
    unfold State.dispatch
    rw [raiseOwner_tb, raiseOwner_pwr, raiseOwner_sch, raiseOwner_markRing]

/-- What a completed command shows of partner `p`: its SEQ and its replay records. -/
def State.shown (p : Nat) (s : State) : Nat × Tab (Option Replay) := ((s.part p).lseq, (s.part p).replays)
theorem shown_eq_iff {p : Nat} {a b : State} :
    a.shown p = b.shown p ↔ (a.part p).lseq = (b.part p).lseq ∧ (a.part p).replays = (b.part p).replays := Prod.mk_inj
theorem shown_congr {a b : State} (h : a.parts = b.parts) (p : Nat) : a.shown p = b.shown p := shown_eq_iff.mpr (keeps_shown h p)
theorem apart_shown (p : Nat) : Apart (State.shown p) where
  putOuts _ _ := rfl
  putDsp _ _ := rfl
  putPorts _ _ := rfl
  putMem _ _ := rfl
  putWire _ _ := rfl
  raiseOwner _ _ _ _ _ := shown_eq_iff.mpr ⟨raiseOwner_part_lseq .., raiseOwner_part_replays ..⟩
theorem record_shown (p q : Nat) (vol : Bool) (ws : List Word) (s : State) : (s.record q vol ws).shown p = s.shown p :=
  shown_eq_iff.mpr ⟨record_part_lseq .., record_part_replays ..⟩
theorem recordCounted_shown (p q : Nat) (vol : Bool) (ws : List Word) (s : State) : (s.recordCounted q vol ws).shown p = s.shown p :=
  shown_eq_iff.mpr ⟨recordCounted_part_lseq .., recordCounted_part_replays ..⟩

end Sys2Proof.Machine
end

section
/-! Pending events: found, replaced, counted, reported and ended (R240, R241), and the release of a due occurrence (R233, R250). -/
namespace Sys2Proof.Machine
open Sys2Proof

/-! ## Events by JSN -/

theorem event_congr {a b : State} (h : a.sch = b.sch) (j : Nat) : a.event j = b.event j := by
  unfold State.event; rw [h]
theorem jsn_of_event {s : State} {j : Nat} {e : Event} (h : s.event j = some e) : e.jsn = j := by
  simpa using List.find?_some h
theorem event_lone {s : State} {e : Event} (h : s.sch.events = [e]) : s.event e.jsn = some e := by
  unfold State.event; rw [h]; simp
/-- An event that replaces a pending one is found in its place. -/
theorem event_setEvent {s : State} {e x : Event} (h : s.event e.jsn = some x) : (s.setEvent e).event e.jsn = some e := by
  have hpred : (fun y : Event => y.jsn == e.jsn) ∘ (fun y => if y.jsn = e.jsn then e else y) = fun y => y.jsn == e.jsn := by
    funext y
    by_cases hy : y.jsn = e.jsn <;> simp [hy]
  have hfind : (s.setEvent e).event e.jsn = (s.event e.jsn).map fun y => if y.jsn = e.jsn then e else y := by
    refine (List.find?_map ..).trans ?_
    rw [hpred]; rfl
  rw [hfind, h, Option.map_some, if_pos (jsn_of_event h)]
theorem setEvent_rest (e : Event) (s : State) : (s.setEvent e).rest = s.rest.setEvent e := rfl
theorem setEvent_lone {s : State} {e x : Event} (h : s.sch.events = [x]) (hj : x.jsn = e.jsn) : (s.setEvent e).sch.events = [e] := by
  show (s.sch.events.map fun y => if y.jsn = e.jsn then e else y) = [e]
  simp [h, hj]

/-! ## Outcomes counted -/

/-- An outcome counted changes the event's counters alone. -/
theorem exists_tally_eq (e : Event) (r : Result) : ∃ d l y o, e.tally r = { e with nDel := d, nLate := l, nEarly := y, nOther := o } := by
  unfold Event.tally
  split <;> exact ⟨_, _, _, _, rfl⟩
@[simp] theorem sched_tally_events (c : Sched) (r : Result) : (c.tally r).events = c.events := by
  unfold Sched.tally
  split <;> rfl
@[simp] theorem sched_tally_cntRel (c : Sched) (r : Result) : (c.tally r).cntRel = c.cntRel := by
  unfold Sched.tally
  split <;> rfl

/-! ## The end of an event -/

/-- The scheduler without an event that has ended with a result. -/
def Sched.ends (e : Event) (r : Result) (c : Sched) : Sched :=
  { c with
    events := c.events.filter fun x => x.jsn ≠ e.jsn
    ended := ⟨e.jsn, e.partner, r.outcome, e.action, e.qty, e.last, e.nDel, e.nLate, e.nEarly, e.nOther⟩ :: c.ended.filter fun x => x.jsn ≠ e.jsn }
theorem endEvent_rest (e : Event) (r : Result) (s : State) : (s.endEvent e r).rest = (s.putSch (s.sch.ends e r)).rest := by
  unfold State.endEvent Sched.ends
  rw [putSch_rest, putSch_rest, putJrn_rest, record_rest, record_sch]
theorem endEvent_sch (e : Event) (r : Result) (s : State) : (s.endEvent e r).sch = s.sch.ends e r := of_rest_sch (endEvent_rest e r s)
theorem endEvent_shown (p : Nat) (e : Event) (r : Result) (s : State) : (s.endEvent e r).shown p = s.shown p := by
  unfold State.endEvent
  refine (shown_congr ?_ p).trans (record_shown p e.partner false (resultWords e r true) s)
  rw [putSch_parts, putJrn_parts]
theorem ends_event {s : State} {e : Event} {r : Result} {c : Sched} (h : s.sch = c.ends e r) : s.event e.jsn = none := by
  unfold State.event
  rw [h]
  refine List.find?_eq_none.mpr fun x hx => ?_
  simpa using (List.mem_filter.mp hx).2
theorem ends_lone {c : Sched} {e x : Event} (h : c.events = [x]) (hj : x.jsn = e.jsn) (r : Result) : (c.ends e r).events = [] := by
  show (c.events.filter fun y => y.jsn ≠ e.jsn) = []
  simp [h, hj]

/-! ## The report of a result (R240, R241) -/

/-- A result told as REPORT selects, the event kept as it now stands. -/
def State.reported (e : Event) (r : Result) (s : State) : State :=
  if e.report = 0 ∨ (e.report = 1 ∧ r.outcome ≠ 0) then
    if s.mayForm e.partner false 11 then (s.recordCounted e.partner false (resultWords e r false)).setEvent { e with skipped := 0 }
    else s.setEvent { e with skipped := satN 24 (e.skipped + 1) }
  else s.setEvent e
/-- An event of which nothing is to come any more ends as a cancelled one does. -/
def State.settle (jsn : Nat) (s : State) : State :=
  match s.event jsn with
  | some e => if e.over then s.endEvent e (e.cancelResult s.tb.q0) else s
  | none => s
theorem report_eq (e : Event) (r : Result) (s : State) :
    s.report e r = if (e.tally r).over ∧ !(e.tally r).cancelled then (s.putSch (s.sch.tally r)).endEvent (e.tally r) r
      else ((s.putSch (s.sch.tally r)).reported (e.tally r) r).settle (e.tally r).jsn := rfl

/-- Telling writes the event's count of records left out, besides the command unit's fields. -/
theorem exists_reported_eq (e : Event) (r : Result) (s : State) : ∃ (k : Nat) (c : State),
    s.reported e r = c.setEvent { e with skipped := k } ∧ c.rest = s.rest ∧ c.jrn.markRing = s.jrn.markRing ∧ ∀ p, c.shown p = s.shown p := by
  unfold State.reported
  split
  · split
    · exact ⟨_, _, rfl, recordCounted_rest .., recordCounted_markRing .., fun p => recordCounted_shown ..⟩
    · exact ⟨_, s, rfl, rfl, rfl, fun _ => rfl⟩
  · exact ⟨e.skipped, s, rfl, rfl, rfl, fun _ => rfl⟩
theorem settle_shown (p jsn : Nat) (s : State) : (s.settle jsn).shown p = s.shown p := by
  unfold State.settle
  split
  · split
    · exact endEvent_shown ..
    · rfl
  · rfl
theorem report_shown (p : Nat) (e : Event) (r : Result) (s : State) : (s.report e r).shown p = s.shown p := by
  rw [report_eq]
  split
  · exact endEvent_shown ..
  · obtain ⟨k, c, hc, -, -, hshown⟩ := exists_reported_eq (e.tally r) r (s.putSch (s.sch.tally r))
    rw [settle_shown, hc]
    exact hshown p

/-- The last result of an event that was not cancelled is its final one. -/
theorem report_last {e : Event} (hsought : e.sought = false) (hsent : e.sent = []) (hkept : e.cancelled = false) (r : Result) (s : State) :
    s.report e r = (s.putSch (s.sch.tally r)).endEvent (e.tally r) r := by
  rw [report_eq]
  obtain ⟨d, l, y, o, htally⟩ := exists_tally_eq e r
  rw [htally]
  exact if_pos ⟨by simp [Event.over, hsought, hsent], by simp [hkept]⟩
/-- A result of an event that is sought further leaves it pending. -/
theorem report_more {e x : Event} {s : State} (hsought : e.sought = true) (hin : s.event e.jsn = some x) (r : Result) : ∃ k,
    (s.report e r).event e.jsn = some { e.tally r with skipped := k } ∧
    (s.report e r).rest = ((s.putSch (s.sch.tally r)).setEvent { e.tally r with skipped := k }).rest ∧
    (s.report e r).jrn.markRing = s.jrn.markRing := by
  obtain ⟨d, l, y, o, htally⟩ := exists_tally_eq e r
  obtain ⟨k, c, hc, hrest, hmarks, -⟩ := exists_reported_eq (e.tally r) r (s.putSch (s.sch.tally r))
  have hjsn : (e.tally r).jsn = e.jsn := by rw [htally]
  have hopen : ({ e.tally r with skipped := k } : Event).over = false := by simp [Event.over, htally, hsought]
  have hfound : (c.setEvent { e.tally r with skipped := k }).event (e.tally r).jsn = some { e.tally r with skipped := k } := by
    have hc' : c.event (e.tally r).jsn = some x := by
      rw [hjsn, ← hin]
      unfold State.event
      rw [of_rest_sch hrest, putSch_sch, sched_tally_events]
    exact event_setEvent (e := { e.tally r with skipped := k }) hc'
  have heq : s.report e r = c.setEvent { e.tally r with skipped := k } := by
    rw [report_eq, if_neg (by simp [Event.over, htally, hsought]), hc]
    unfold State.settle
    rw [hfound]
    exact if_neg (by simp [hopen])
  rw [heq]
  exact ⟨k, hjsn ▸ hfound, by rw [setEvent_rest, setEvent_rest, hrest], hmarks⟩

/-! ## The release of a due occurrence (R233, R250) -/

/-- A release: the mark, the work at the sink, and the result of the event as it stands from then on. -/
theorem exists_releaseDue_eq (e : Event) (s : State) : ∃ (d : State) (rel : Qval) (r : Result),
    s.releaseDue e = (d.setEvent (e.advance rel)).report (e.advance rel) r ∧ d.dispatch = (s.mark e).dispatch ∧ ∀ p, d.shown p = s.shown p :=
  ⟨_, _, _, rfl, apart_dispatch.deliver .., fun p => (apart_shown p).deliver ..⟩
theorem releaseDue_shown (p : Nat) (e : Event) (s : State) : (s.releaseDue e).shown p = s.shown p := by
  obtain ⟨d, rel, r, h, -, hshown⟩ := exists_releaseDue_eq e s
  rw [h, report_shown]
  exact hshown p

/-! ## What the scheduler judges rests on no field of the command unit's own -/

theorem sameValues_of_rest {a b : State} (h : a.rest = b.rest) : a.sameValues b :=
  ⟨of_rest_tb h, fun m => ⟨(b.qty m).direct, by rw [qty_congr (of_rest_qs h)]⟩⟩
theorem value_of_rest {a b : State} (h : a.rest = b.rest) (n : Nat) : a.value n = b.value n :=
  value_of_sameValues (sameValues_of_rest h) n
theorem rateNow_of_rest {a b : State} (h : a.rest = b.rest) (n : Nat) : a.rateNow n = b.rateNow n :=
  rateIn_of_sameValues (sameValues_of_rest h) 16 n
theorem due_of_rest {a b : State} (h : a.rest = b.rest) (e : Event) : a.due e = b.due e := by
  unfold State.due State.reaches State.isValid
  rw [value_of_rest h, qty_congr (of_rest_qs h), of_rest_tb h]

end Sys2Proof.Machine
end

section
/-! Occurrences armed and released (R230, R233, R250, R262) (O17). -/
namespace Sys2Proof.Machine
open Sys2Proof

/-! ## OCCURRENCE_ARM (R262) -/

theorem execOccurrenceArm_near {t : Lapse} {s a : State} {jsn : Word} {e : Event} (ha : s.elapse t = a) (hin : a.event jsn.toNat = some e)
    (hclass : e.action = 0 ∨ e.action = 2 ∨ e.action = 3) (hsought : e.sought = true) (hst : e.st = .pending) (hfree : e.armed = false)
    (hnear : (a.predict e e.goal).any (fun p => decide (qdist p a.tb.q0 ≤ usUnits 10)) = true)
    (hroom : (a.sch.events.filter fun x => x.armed && e.sameQueue x).length < 320) (hon : a.isOn 11 = true) :
    execOccurrenceArm t jsn s = .next (a.setEvent { e with armed := true }) := by
  unfold execOccurrenceArm
  rw [ha]; dsimp only
  rw [hin]; dsimp only
  cases hp : a.predict e e.goal with
  | none => rw [hp] at hnear; exact absurd hnear Bool.false_ne_true
  | some p =>
    rw [hp] at hnear
    exact if_pos ⟨hclass, hsought, hst, by simp [hfree], hnear, hroom, hon⟩

/-! ## The event after a release (R230) -/

/-- Where more occurrences are to come, the next one is sought. -/
theorem advance_more {e : Event} (hsought : e.sought = true) (hjump : e.jump = none) (hmore : e.count = 0 ∨ e.occ + 1 ≤ e.count) (rel : Qval) :
    (e.advance rel).sought = true ∧ (e.advance rel).occ = e.occ + 1 := by
  unfold Event.advance
  simpa [hsought, hjump] using hmore
/-- After the last occurrence none is. -/
theorem advance_last {e : Event} (hjump : e.jump = none) (hcount : e.count ≠ 0) (hlast : e.count ≤ e.occ) (rel : Qval) :
    (e.advance rel).sought = false := by
  have hover : ¬ e.occ + 1 ≤ e.count := by omega
  unfold Event.advance
  simp [hjump, hcount, hover]

/-- A due occurrence is one that is sought. -/
theorem sought_of_due {s : State} {e : Event} (h : s.due e = true) : e.sought = true := by
  simp only [State.due, State.reaches, Bool.and_eq_true] at h
  tauto
theorem execOccurrenceRelease_due {t : Lapse} {s a : State} {jsn : Word} {e : Event} (ha : s.elapse t = a) (hin : a.event jsn.toNat = some e)
    (hclass : e.action ≠ 1) (hmay : a.mayRelease = true) (hdue : a.due e = true) (hfirst : a.isFirst e = true) :
    execOccurrenceRelease t jsn s = .next (a.releaseDue e) := by
  unfold execOccurrenceRelease
  rw [ha]; dsimp only
  rw [hin]
  exact if_pos ⟨hclass, hmay, hdue, hfirst⟩

/-! ## OCCURRENCE_RELEASE (R233, R241, R250) -/

/-- What stands where a release has reached its sink: the mark is written and the release counted, time and power are as before. -/
theorem of_dispatch_mark {d s : State} {e : Event} (h : d.dispatch = (s.mark e).dispatch) :
    d.tb = s.tb ∧ d.pwr = s.pwr ∧ d.sch = (s.mark e).sch ∧ d.jrn.markRing = s.jrn.markRing ++ [(e.slot, e.occ)] := by
  simpa [State.dispatch, State.mark] using h

section
variable {s : State} {e : Event} (hjump : e.jump = none)
include hjump

theorem releaseDue_more (hin : s.event e.jsn = some e) (hsought : e.sought = true) (hmore : e.count = 0 ∨ e.occ + 1 ≤ e.count) :
    let u := s.releaseDue e
    (u.event e.jsn).map (fun x => (x.occ, x.last, x.armed)) = some (e.occ + 1, e.occ, false) ∧
    u.sch.cntRel = satN 48 (s.sch.cntRel + 1) ∧ u.jrn.markRing.contains (e.slot, e.occ) = true ∧ u.tb = s.tb ∧ u.pwr = s.pwr := by
  obtain ⟨d, rel, r, hu, hd, -⟩ := exists_releaseDue_eq e s
  obtain ⟨htb, hpwr, hsch, hmarks⟩ := of_dispatch_mark hd
  obtain ⟨hnext, hocc⟩ := advance_more hsought hjump hmore rel
  obtain ⟨i, l, y, o, htally⟩ := exists_tally_eq (e.advance rel) r
  have hfound : (d.setEvent (e.advance rel)).event (e.advance rel).jsn = some (e.advance rel) :=
    event_setEvent (e := e.advance rel) ((event_congr hsch _).trans hin)
  obtain ⟨k, hevent, hrest, hring⟩ := report_more hnext hfound r
  rw [hu]
  refine ⟨?_, ?_, ?_, (of_rest_tb hrest).trans htb, (of_rest_pwr hrest).trans hpwr⟩
  · refine (congrArg _ (show _ = _ from hevent)).trans ?_
    rw [htally, ← hocc]; rfl
  · refine (congrArg Sched.cntRel (of_rest_sch hrest)).trans ((sched_tally_cntRel ..).trans ?_)
    exact congrArg Sched.cntRel hsch
  · rw [hring]
    refine (congrArg (List.contains · (e.slot, e.occ)) hmarks).trans ?_
    simp
theorem releaseDue_last (hcount : e.count ≠ 0) (hlast : e.count ≤ e.occ) (hsent : e.sent = []) (hkept : e.cancelled = false) :
    let u := s.releaseDue e
    u.event e.jsn = none ∧ u.sch.cntRel = satN 48 (s.sch.cntRel + 1) ∧
    u.sch.ended.any (fun x => x.jsn == e.jsn && x.last == e.occ) = true ∧ u.tb = s.tb ∧ u.pwr = s.pwr := by
  obtain ⟨d, rel, r, hu, hd, -⟩ := exists_releaseDue_eq e s
  obtain ⟨htb, hpwr, hsch, -⟩ := of_dispatch_mark hd
  obtain ⟨i, l, y, o, htally⟩ := exists_tally_eq (e.advance rel) r
  have hover := advance_last hjump hcount hlast rel
  have hjsn : ((e.advance rel).tally r).jsn = e.jsn := by rw [htally]; rfl
  have hocc : ((e.advance rel).tally r).last = e.occ := by rw [htally]; rfl
  have hrest := endEvent_rest ((e.advance rel).tally r) r
    ((d.setEvent (e.advance rel)).putSch ((d.setEvent (e.advance rel)).sch.tally r))
  rw [hu, report_last hover hsent hkept]
  refine ⟨hjsn ▸ ends_event (of_rest_sch hrest), ?_, ?_, (of_rest_tb hrest).trans htb, (of_rest_pwr hrest).trans hpwr⟩
  · refine (congrArg Sched.cntRel (of_rest_sch hrest)).trans ((sched_tally_cntRel ..).trans ?_)
    exact congrArg Sched.cntRel hsch
  · rw [of_rest_sch hrest]
    simp [Sched.ends, hjsn, hocc]

end

/-- Settles O17: arming, the release that more follow, and the last one. -/
theorem occurrenceReleased : Obligations.OccurrenceReleased := by
  refine ⟨fun t s jsn e => ?_, fun t s jsn e => ?_⟩
  · intro a hin hclass hsought hst hfree hnear hroom hon
    have hjsn := jsn_of_event hin
    refine ⟨_, execOccurrenceArm_near rfl hin hclass hsought hst hfree hnear hroom hon, ?_, rfl⟩
    rw [← hjsn] at hin ⊢
    exact event_setEvent (e := { e with armed := true }) hin
  · intro a
    refine ⟨fun hin hclass hq0 hmay hdue hfirst hjump hmore => ?_, fun hin hclass hq0 hmay hdue hfirst hjump hcount hlast hsent hkept => ?_⟩
    · have hjsn := jsn_of_event hin
      refine ⟨_, execOccurrenceRelease_due rfl hin hclass hmay hdue hfirst, ?_⟩
      rw [← hjsn] at hin ⊢
      exact releaseDue_more hjump hin (sought_of_due hdue) hmore
    · have hjsn := jsn_of_event hin
      refine ⟨_, execOccurrenceRelease_due rfl hin hclass hmay hdue hfirst, ?_⟩
      rw [← hjsn] at hin ⊢
      exact releaseDue_last hjump hcount hlast hsent hkept

end Sys2Proof.Machine
end

section
/-! SCHED_CANCEL, SCHED_QUERY and EVENT_REEVALUATION (R246-R249, R253, R254) (O18). -/
namespace Sys2Proof.Machine
open Sys2Proof

/-! ## SCHED_CANCEL (R246, R247) -/

/-- An occurrence that is due in the counter clock of a cancellation is released first. -/
def State.releaseFirst (jsn : Nat) (s : State) : State :=
  match s.event jsn with
  | some e => if e.action ≠ 1 ∧ s.mayRelease ∧ s.due e then s.releaseDue e else s
  | none => s
/-- An event as a cancellation leaves it: its occurrence being sought is removed and counted. -/
def Event.withdrawn (e : Event) : Event := { e with sought := false, cancelled := true, armed := false, nOther := e.nOther + 1 }
/-- The cancellation proper; the event ends with it where nothing of it is in flight. -/
def State.withdraw (jsn : Nat) (s : State) : State :=
  match s.event jsn with
  | some e =>
    if e.sought then
      if e.withdrawn.over then (s.setEvent e.withdrawn).endEvent e.withdrawn (e.withdrawn.cancelResult s.tb.q0) else s.setEvent e.withdrawn
    else s
  | none => s
theorem cancelEvent_eq (jsn : Nat) (s : State) : s.cancelEvent jsn = (s.releaseFirst jsn).withdraw jsn := rfl

/-- An event with nothing in flight and no occurrence due ends at once. -/
theorem cancelEvent_idle {s : State} {e : Event} (hin : s.event e.jsn = some e) (hdue : s.due e = false) (hsought : e.sought = true)
    (hsent : e.sent = []) : s.cancelEvent e.jsn = (s.setEvent e.withdrawn).endEvent e.withdrawn (e.withdrawn.cancelResult s.tb.q0) := by
  have hnone : s.releaseFirst e.jsn = s := by
    unfold State.releaseFirst
    rw [hin]
    exact if_neg (by simp [hdue])
  have hover : e.withdrawn.over = true := by simp [Event.over, Event.withdrawn, hsent]
  rw [cancelEvent_eq, hnone]
  unfold State.withdraw
  rw [hin]
  exact (if_pos hsought).trans (if_pos hover)
theorem releaseFirst_shown (p jsn : Nat) (s : State) : (s.releaseFirst jsn).shown p = s.shown p := by
  unfold State.releaseFirst
  split
  · split
    · exact releaseDue_shown ..
    · rfl
  · rfl
theorem withdraw_shown (p jsn : Nat) (s : State) : (s.withdraw jsn).shown p = s.shown p := by
  unfold State.withdraw
  split
  · split
    · split
      · exact endEvent_shown ..
      · rfl
    · rfl
  · rfl
/-- A cancellation leaves what a completed command shows of a partner. -/
theorem cancelEvent_shown (p jsn : Nat) (s : State) : (s.cancelEvent jsn).shown p = s.shown p := by
  rw [cancelEvent_eq, withdraw_shown, releaseFirst_shown]

/-- SCHED_CANCEL by JSN of the only event, the partner's own, cancels it. -/
theorem exists_opSchedCancel_own {k : Pkt} {s : State} {e : Event} (hlen : k.ps.length = 2) (hsel : fld (arg k.ps 0) 47 46 = 0)
    (hevents : s.sch.events = [e]) (hjsn : e.jsn = (arg k.ps 1).toNat) (hown : e.partner = k.partner) (hended : s.sch.ended = [])
    (hsought : e.sought = true) : ∃ ws, ws.length = 4 ∧ opSchedCancel.eval k s = doneWith ws fun _ b => b.cancelEvent e.jsn := by
  have hselected : s.selected k.partner (arg k.ps 0) (arg k.ps 1).toNat = [e] := by
    unfold State.selected
    rw [hevents, hsel]
    simp [hjsn]
  have hlive : [e].filter Event.live = [e] := by simp [Event.live, hsought]
  unfold opSchedCancel
  dsimp only
  rw [hselected, if_neg (by omega), if_neg (by simp [hown, hended]), hlive, if_pos hsel]
  refine ⟨_, ?_, rfl⟩
  dsimp only [List.head?_cons]
  rw [List.length_cons, apply_ite List.length]
  exact congrArg (· + 1) (ite_self 3)

/-- A command that completes ends, whatever its reply words. -/
theorem ends_of_completes {code status : Nat} {ws : List Word} {env : Env} {a : State} {o : Host.Outcome State Fault Refusal} {P : State → Prop}
    (h : Completes code status ws env a o P) : Ends code status env a o P := by
  obtain ⟨u, hu, ⟨hseq, hreplay⟩, hP⟩ := h
  refine ⟨u, hu, ⟨hseq, ?_⟩, hP⟩
  have hfour := congrArg (Option.map fun x : Nat × Nat × Nat × Nat × List Word => (x.1, x.2.1, x.2.2.1, x.2.2.2.1)) hreplay
  rw [Option.map_map] at hfour
  exact hfour

theorem schedCancel_own {t : Lapse} {env : Env} {ps : List Word} {s a : State} {e : Event} (ha : s.elapse t = a)
    (h : a.admits 0x091 2 0xFFE env ps = true) (hlen : ps.length = 2) (hsel : fld (arg ps 0) 47 46 = 0) (hevents : a.sch.events = [e])
    (hjsn : e.jsn = (arg ps 1).toNat) (hown : e.partner = env.partner) (hended : a.sch.ended = []) (hdue : a.due e = false)
    (hsought : e.sought = true) (hsent : e.sent = []) :
    Ends 0x091 1 env a (exec (.schedCancel t env ps) s) fun u =>
      u.sch.events = [] ∧ u.sch.ended.map (fun x => (x.jsn, x.outcome)) = [(e.jsn, 4)] ∧ u.tb = a.tb ∧ u.outs = a.outs := by
  subst ha
  obtain ⟨ws, hws, hv⟩ := exists_opSchedCancel_own (k := pktOf 0x091 env ps (s.elapse t)) (s := (s.elapse t).bound env)
    hlen hsel hevents hjsn hown hended hsought
  refine ends_of_completes (runOp_completes_jsn opSchedCancel t env ps 2 s _ ws _ h (by decide) (by decide) hv rfl rfl ?_
    (fun _ b => shown_eq_iff.mp (cancelEvent_shown ..)) fun b u hb hu => ?_)
  · show entriesFor (ps.length + ws.length) + 0 ≤ 1000
    rw [hlen, hws]; decide
  · have hb' : b.sch = (s.elapse t).sch := of_rest_sch hb
    have hin : b.event e.jsn = some e := event_lone (by rw [hb', hevents])
    have hact : u.rest = (b.cancelEvent e.jsn).rest := hu
    rw [cancelEvent_idle hin ((due_of_rest hb e).trans hdue) hsought hsent, endEvent_rest] at hact
    have hleft : (b.setEvent e.withdrawn).sch.events = [e.withdrawn] :=
      setEvent_lone (x := e) ((congrArg Sched.events hb').trans hevents) rfl
    have htb : u.tb = b.tb := (of_rest_tb hact).trans rfl
    have houts : u.outs = b.outs := (of_rest_outs hact).trans rfl
    refine ⟨?_, ?_, htb.trans (of_rest_tb hb), houts.trans (of_rest_outs hb)⟩
    · rw [of_rest_sch hact]
      exact ends_lone hleft rfl _
    · have hnone : (b.setEvent e.withdrawn).sch.ended = [] := (congrArg Sched.ended hb').trans hended
      rw [of_rest_sch hact]
      show List.map _ (_ :: List.filter _ (b.setEvent e.withdrawn).sch.ended) = _
      rw [hnone]; rfl

/-! ## SCHED_QUERY (R249) -/

theorem opSchedQuery_unknown {k : Pkt} {s : State} (hlen : k.ps.length = 1) (hevent : s.event (arg k.ps 0).toNat = none)
    (hended : s.sch.ended.find? (fun x => x.jsn == (arg k.ps 0).toNat) = none) :
    opSchedQuery.eval k s = doneWith [0, 0, 0, 0, 0, 0] fun _ b => b := by
  unfold opSchedQuery
  dsimp only
  rw [if_neg (not_not_intro hlen), hevent, hended]
theorem schedQuery_unknown {t : Lapse} {env : Env} {ps : List Word} {s a : State} (ha : s.elapse t = a)
    (h : a.admits 0x092 1 0xFFE env ps = true) (hlen : ps.length = 1) (hevent : a.event (arg ps 0).toNat = none)
    (hended : a.sch.ended.find? (fun x => x.jsn == (arg ps 0).toNat) = none) :
    Completes 0x092 1 [0, 0, 0, 0, 0, 0] env a (exec (.schedQuery t env ps) s) fun u => u.rest = a.rest := by
  subst ha
  refine runOp_completes_jsn opSchedQuery t env ps 1 s _ _ _ h (by decide) (by decide)
    (opSchedQuery_unknown (k := pktOf 0x092 env ps (s.elapse t)) hlen hevent hended) rfl rfl ?_ (fun _ _ => ⟨rfl, rfl⟩) fun b u hb hu => hu.trans hb
  show entriesFor (ps.length + 6) + 0 ≤ 1000
  rw [hlen]; decide

/-! ## EVENT_REEVALUATION (R254) -/

/-- An event whose quantity restarted, no longer sought. -/
def Event.lapsed (e : Event) : Event := { e with sought := false, st := .pending }
/-- The result of an event whose quantity restarted. -/
def Event.restartResult (e : Event) (now : Qval) : Result :=
  { outcome := 3, occ := e.occ, rel := now, nMissed := 1, outage := true, restart := true }
/-- An event whose quantity restarted, with nothing in flight, is missed. -/
theorem reevaluate_restarted {s : State} {e : Event} (hin : s.event e.jsn = some e) (hst : e.st = .restarted) (hsought : e.sought = true)
    (hsent : e.sent = []) : s.reevaluate e.jsn =
      (s.setEvent e.lapsed).report e.lapsed (e.restartResult s.tb.q0) := by
  have hset : (s.setEvent e.lapsed).event e.jsn = some e.lapsed := event_setEvent (e := e.lapsed) hin
  unfold State.reevaluate
  rw [hin]; dsimp only
  rw [if_pos hst, if_neg (by simp [hsent]), if_pos hsought]
  show (s.setEvent e.lapsed).missed e.jsn e.occ 1 true = _
  unfold State.missed
  rw [hset]
  exact if_neg Nat.one_ne_zero
theorem execEventReevaluation_lone {t : Lapse} {s a : State} {e : Event} (ha : s.elapse t = a) (hready : a.pwr.ready = true)
    (hon : a.isOn 11 = true) (hevents : a.sch.events = [e]) : execEventReevaluation t s = .next (a.reevaluate e.jsn) := by
  unfold execEventReevaluation
  rw [ha]; dsimp only
  rw [if_pos ⟨hready, hon⟩, hevents]
  rfl
theorem reevaluate_lone {a : State} {e : Event} (hevents : a.sch.events = [e]) (hst : e.st = .restarted) (hsought : e.sought = true)
    (hsent : e.sent = []) (hkept : e.cancelled = false) :
    let u := a.reevaluate e.jsn
    u.sch.events = [] ∧ u.sch.cntMiss = satN 48 (a.sch.cntMiss + 1) ∧ u.sch.ended.any (fun x => x.jsn == e.jsn && x.outcome == 3) = true ∧
    u.rest = (a.putSch u.sch).rest := by
  intro u
  have hleft : (a.setEvent e.lapsed).sch.events = [e.lapsed] := setEvent_lone (x := e) hevents rfl
  have hu : u = ((a.setEvent e.lapsed).putSch ((a.setEvent e.lapsed).sch.tally (e.restartResult a.tb.q0))).endEvent
      (e.lapsed.tally (e.restartResult a.tb.q0)) (e.restartResult a.tb.q0) :=
    (reevaluate_restarted (event_lone hevents) hst hsought hsent).trans (report_last (e := e.lapsed) rfl hsent hkept _ _)
  have hrest := endEvent_rest (e.lapsed.tally (e.restartResult a.tb.q0)) (e.restartResult a.tb.q0)
    ((a.setEvent e.lapsed).putSch ((a.setEvent e.lapsed).sch.tally (e.restartResult a.tb.q0)))
  rw [← hu] at hrest
  have hsch := of_rest_sch hrest
  refine ⟨?_, ?_, ?_, ?_⟩
  · rw [hsch]
    exact ends_lone hleft rfl (e.restartResult a.tb.q0)
  · rw [hsch]; rfl
  · rw [hsch]
    refine List.any_eq_true.mpr ⟨_, List.mem_cons_self, ?_⟩
    simp [Event.tally, Event.restartResult, Event.lapsed]
  · rw [hrest, hsch]; rfl

/-- Settles O18: the cancellation, the query and the reevaluation. -/
theorem cancelQueryReevaluate : Obligations.CancelQueryReevaluate := by
  refine ⟨fun t env ps s e => ?_, fun t env ps s => ?_, fun t s e => ?_⟩
  · intro a jsn h hlen hsel hevents hjsn hown hended hdue hsought hsent
    rw [← hjsn]
    exact schedCancel_own rfl h hlen hsel hevents hjsn hown hended hdue hsought hsent
  · intro a jsn h hlen hevent hended
    exact schedQuery_unknown rfl h hlen hevent hended
  · intro a hready hon hevents hst hsought hsent hkept
    exact ⟨_, execEventReevaluation_lone rfl hready hon hevents, reevaluate_lone hevents hst hsought hsent hkept⟩

end Sys2Proof.Machine
end

section
/-! SCHED_ADD (R229-R232, R243, R244): an event joins the pending ones, or a row of Table 4 refuses it (O16). -/
namespace Sys2Proof.Machine
open Sys2Proof

/-! ## The rows of Table 4 rest on no field of the command unit's own -/

theorem leadShort_of_rest {a b : State} (h : a.rest = b.rest) (e : Event) : a.leadShort e = b.leadShort e := by
  unfold State.leadShort State.approaches State.predict
  rw [value_of_rest h, rateNow_of_rest h, qty_congr (of_rest_qs h), of_rest_tb h]
theorem passed_of_rest {a b : State} (h : a.rest = b.rest) (e : Event) : a.passed e = b.passed e := by
  unfold State.passed
  rw [value_of_rest h]
theorem fullLinks_of_rest {a b : State} (h : a.rest = b.rest) (e : Event) : a.fullLinks e = b.fullLinks e :=
  show a.rest.fullLinks e = b.rest.fullLinks e by rw [h]

/-! ## The verdict on a SCHED_ADD -/

/-- The event that a SCHED_ADD describes, on its arrival in a state. -/
def State.described (k : Pkt) (s : State) : Event :=
  schedEvent k.partner 0 (freeSlot s.sch.events 0 s.sch.events.length) k.ps (s.value (fld (arg k.ps 0) 27 24))
/-- Where a packet came from is no part of it. -/
theorem described_bound {env : Env} {k : Pkt} {a : State} : (a.bound env).described k = a.described k := by
  unfold State.described
  rw [value_of_rest (bound_rest env a)]
  rfl
/-- The verdict on a SCHED_ADD that no row refuses: the event joins the pending ones under the command's JSN (R229, R243). -/
def schedTaken (who : Nat) (e : Event) (s : State) : Verdict where
  status := .accepted
  words := [pack [put 47 27 (s.pendingOf who + 1), putB 26 e.side]]
  slot := some e.slot
  pins := [.event]
  promise := 1
  act := fun jsn b => b.putSch { b.sch with events := b.sch.events ++ [{ e with jsn := jsn }] }

section
variable {k : Pkt} {s : State} {e : Event} (he : s.described k = e)

theorem opSchedAdd_field (hfield : schedField k.ps = true) : opSchedAdd.eval k s = badParam 1 := if_pos hfield
include he
theorem opSchedAdd_off (hfield : schedField k.ps = false) (hoff : s.kind e.qty = 15) : opSchedAdd.eval k s = notPermitted 2 := by
  subst he
  exact (if_neg (Bool.eq_false_iff.mp hfield)).trans (if_pos hoff)
theorem opSchedAdd_held (hfield : schedField k.ps = false) (hkind : s.kind e.qty ≠ 15) (hheld : s.sinkHeld e = true) :
    opSchedAdd.eval k s = notPermitted 3 := by
  subst he
  exact (if_neg (Bool.eq_false_iff.mp hfield)).trans ((if_neg hkind).trans (if_pos hheld))
theorem opSchedAdd_taken (hfield : schedField k.ps = false) (hkind : s.kind e.qty ≠ 15) (hfree : s.sinkHeld e = false)
    (hworks : s.sinkFailed e = none) (hlead : s.leadShort e = false) (hahead : s.passed e = false) (hroom : s.schedFull e = false)
    (hdensity : densityOk s.sch.events e = true) (hlinks : s.fullLinks e = []) : opSchedAdd.eval k s = schedTaken k.partner e s := by
  subst he
  refine (if_neg (Bool.eq_false_iff.mp hfield)).trans ((if_neg hkind).trans ((if_neg (Bool.eq_false_iff.mp hfree)).trans ?_))
  unfold State.described at *
  rw [hworks]; dsimp only
  rw [if_neg (by simp [hlead]), if_neg (by simp [hahead]), if_neg (by simp [hroom]), if_neg (by simp [hdensity]), hlinks]
  rfl
end

theorem plenMax_le (action : Nat) : plenMax action ≤ 16 := by
  unfold plenMax
  split <;> omega
/-- A SCHED_ADD whose fields are in range has at most 24 parameters. -/
theorem params_of_schedField {ps : List Word} (h : schedField ps = false) : ps.length ≤ 24 := by
  simp only [schedField, Bool.or_eq_false_iff, decide_eq_false_iff_not, not_not] at h
  obtain ⟨⟨⟨⟨⟨⟨⟨-, hplen⟩, hlen⟩, -⟩, -⟩, -⟩, -⟩, -⟩ := h
  have hmax := plenMax_le (fld (arg ps 0) 31 28)
  omega

section
variable {t : Lapse} {env : Env} {ps : List Word} {s a : State} {e : Event} (ha : s.elapse t = a) (he : a.described (pktOf 0x090 env ps a) = e)
  (h : a.admits 0x090 2 0xFFE env ps = true)
include ha h

theorem schedAdd_field (hfield : schedField ps = true) :
    Completes 0x090 0x23 [1] env a (exec (.schedAdd t env ps) s) fun u => u.rest = a.rest := by
  subst ha
  exact runOp_refuses opSchedAdd t env ps 2 s .badParam [1] h (by decide) (by decide) (by simp)
    (opSchedAdd_field (k := pktOf 0x090 env ps (s.elapse t)) hfield) (by simp)
include he
theorem schedAdd_off (hfield : schedField ps = false) (hoff : a.kind e.qty = 15) :
    Completes 0x090 0x33 [2] env a (exec (.schedAdd t env ps) s) fun u => u.rest = a.rest := by
  subst ha
  exact runOp_refuses opSchedAdd t env ps 2 s .notPermitted [2] h (by decide) (by decide) (by simp)
    (opSchedAdd_off (k := pktOf 0x090 env ps (s.elapse t)) (described_bound.trans he) hfield hoff) (by simp)
theorem schedAdd_held (hfield : schedField ps = false) (hkind : a.kind e.qty ≠ 15) (hheld : a.sinkHeld e = true) :
    Completes 0x090 0x33 [3] env a (exec (.schedAdd t env ps) s) fun u => u.rest = a.rest := by
  subst ha
  exact runOp_refuses opSchedAdd t env ps 2 s .notPermitted [3] h (by decide) (by decide) (by simp)
    (opSchedAdd_held (k := pktOf 0x090 env ps (s.elapse t)) (described_bound.trans he) hfield hkind hheld) (by simp)
theorem schedAdd_taken (hfield : schedField ps = false) (hkind : a.kind e.qty ≠ 15) (hfree : a.sinkHeld e = false)
    (hworks : a.sinkFailed e = none) (hlead : a.leadShort e = false) (hahead : a.passed e = false) (hroom : a.schedFull e = false)
    (hdensity : densityOk a.sch.events e = true) (hlinks : a.fullLinks e = []) :
    Completes 0x090 0 [pack [put 47 27 (a.pendingOf env.partner + 1), putB 26 e.side]] env a (exec (.schedAdd t env ps) s) fun u =>
      u.sch = { a.sch with events := a.sch.events ++ [{ e with jsn := a.jrn.next }] } ∧ u.rest = (a.putSch u.sch).rest := by
  subst ha
  have hlen := params_of_schedField hfield
  have hb := bound_rest env (s.elapse t)
  refine runOp_completes_jsn opSchedAdd t env ps 2 s _ _ _ h (by decide) (by decide)
    (opSchedAdd_taken (k := pktOf 0x090 env ps (s.elapse t)) (described_bound.trans he) hfield hkind hfree hworks
      ((leadShort_of_rest hb e).trans hlead) ((passed_of_rest hb e).trans hahead) hroom hdensity ((fullLinks_of_rest hb e).trans hlinks))
    rfl rfl ?_ (fun _ _ => ⟨rfl, rfl⟩) fun b u hb hu => ?_
  · show entriesFor (ps.length + 1) + 1 ≤ 1000
    unfold entriesFor; omega
  · have hsch := sch_of_rest_putSch hb hu
    rw [of_rest_sch hb] at hsch
    exact hsch
end

/-- Settles O16: the verdict that accepts, and the refusals of field, quantity and sink. -/
theorem scheduleAccepted : Obligations.ScheduleAccepted := by
  intro t env ps s a e
  refine ⟨fun h hfield hkind hfree hworks hlead hahead hroom hdensity hlinks => ?_, fun h hfield => ?_, fun h hfield hoff => ?_,
    fun h hfield hkind hheld => ?_⟩
  · exact schedAdd_taken rfl rfl h hfield hkind hfree hworks hlead hahead hroom hdensity hlinks
  · exact schedAdd_field rfl h hfield
  · exact schedAdd_off rfl rfl h hfield hoff
  · exact schedAdd_held rfl rfl h hfield hkind hheld

end Sys2Proof.Machine
end

section
/-! The queue of waiting commands behind a command (O60), and memory right after reset (O59). -/
namespace Sys2Proof.Machine
open Sys2Proof

/-- Settles O60: what every command keeps, its memory apart, is the queue. -/
theorem execKeepsTheQueue : Obligations.ExecKeepsTheQueue := by
  intro c s u h
  have hkept := exec_kept c s (Kept.refl s.held)
  rw [h] at hkept
  obtain ⟨hqueue, -⟩ := hkept
  exact hqueue

/-- Settles O59: no byte of memory is listed at reset, so its list is in order. -/
theorem resetHoldsInvariant : Obligations.ResetHoldsInvariant := by
  have hcells : State.reset.mem.cells = [] := rfl
  have hinv : State.reset.Inv := by
    unfold State.Inv Memory.wf
    rw [hcells]; rfl
  exact ⟨hinv, hcells, rfl⟩

end Sys2Proof.Machine
end

section
/-! Lendi links: frames from the gateway, and what takes a link down or brings it back (R368-R377, R383) (O20, O21). -/
namespace Sys2Proof.Machine
open Sys2Proof

/-! ## A record to every partner, and a SYSTEM group behind it (R338) -/

theorem raiseAll_sealSystem_told {a b : State} (hp : b.parts = a.parts) (hj : b.jrn = a.jrn) (fault : Bool) (cause : Nat) (args : List Word)
    (scode : Nat) (data : List Word) : Told a ((b.raiseAll fault cause args).sealSystem scode data) := by
  refine told_of_esn hp hj fun hroom q hq => ?_
  obtain ⟨hr, he⟩ := raiseAll_esn fault cause args 11 b hroom
  have hs : ∀ g : Group, ((b.raiseAll fault cause args).seal g).jsnRoom 0 := fun g =>
    jsnRoom_mono (by have := seal_next_le g (b.raiseAll fault cause args); omega) (seal_jsnLow ..) hr
  unfold State.sealSystem
  rw [jsnCheck_far (hs _), esn_congr (seal_parts ..)]
  exact he q hq
/-- A part's return tells every partner. -/
theorem partRestored_told {a b : State} (hp : b.parts = a.parts) (hj : b.jrn = a.jrn) (cls inst : Nat) : Told a (b.partRestored cls inst) :=
  raiseAll_sealSystem_told hp hj _ _ _ _ _

/-! ## A link drops (R377) -/

@[simp] theorem failOver_links (l : Nat) (s : State) : (s.failOver l).links = s.links := rfl
@[simp] theorem failOver_parts (l : Nat) (s : State) : (s.failOver l).parts = s.parts := rfl

/-- A link out of TIMING or UP by a cause. -/
def Link.fallen (cause clk : Nat) (k : Link) : Link :=
  { k.retrained (cause == 6 || cause == 7) clk with lastDown := cause, downs := satN 16 (k.downs + 1) }
theorem linkDrop_links_of_timing {l cause : Nat} {s : State} (ht : (s.lnk l).timing = true) :
    (s.linkDrop l cause).links = (s.setLnk l ((s.lnk l).fallen cause s.tb.clk)).links := by
  unfold State.linkDrop
  dsimp only
  rw [if_pos ht, failOver_links, raiseLimited_links]; rfl
theorem linkDrop_lnk_of_timing {l cause : Nat} {s : State} (ht : (s.lnk l).timing = true) :
    (s.linkDrop l cause).lnk l = (s.lnk l).fallen cause s.tb.clk :=
  (congrArg (tget _ l) (linkDrop_links_of_timing ht)).trans (lnk_setLnk ..)
/-- Where the link is in neither, OFF is what a cause can lead it to. -/
theorem linkDrop_of_not_timing {l cause : Nat} {s : State} (ht : (s.lnk l).timing = false) :
    s.linkDrop l cause = s ∨
      (s.lnk l).state = 1 ∧ s.linkDrop l cause = s.setLnk l { s.lnk l with state := 0, outClk := none } := by
  unfold State.linkDrop
  dsimp only
  rw [if_neg (by rw [ht]; simp)]
  split
  · next h => exact .inr ⟨h.2, rfl⟩
  · exact .inl rfl
theorem linkDrop_lnk_ne {l m cause : Nat} {s : State} (hm : m ≠ l) : (s.linkDrop l cause).lnk m = s.lnk m := by
  cases ht : (s.lnk l).timing with
  | true => exact (congrArg (tget _ m) (linkDrop_links_of_timing ht)).trans (lnk_setLnk_ne _ _ _ _ hm)
  | false =>
    rcases linkDrop_of_not_timing (cause := cause) ht with h | ⟨-, h⟩
    · rw [h]
    · rw [h, lnk_setLnk_ne _ _ _ _ hm]
/-- A disabled link is OFF. -/
theorem linkDrop_disabled_state {l : Nat} {s : State} (hs : (s.lnk l).state < 4) : ((s.linkDrop l 7).lnk l).state = 0 := by
  cases ht : (s.lnk l).timing with
  | true => rw [linkDrop_lnk_of_timing ht]; rfl
  | false =>
    have hne : (s.lnk l).state ≠ 2 ∧ (s.lnk l).state ≠ 3 := by simpa [Link.timing] using ht
    rcases linkDrop_of_not_timing (cause := 7) ht with h | ⟨-, h⟩
    · rw [h]
      by_contra h0
      have h1 : (s.lnk l).state = 1 := by omega
      have hoff := congrArg (fun u : State => (u.lnk l).state) h
      unfold State.linkDrop at hoff
      simp [ht, h1] at hoff
    · rw [h, lnk_setLnk]
/-- Down by a cause that leaves it enabled and powered: in TRAINING, without time lock and credits. -/
theorem linkDrop_down {l cause : Nat} {a : State} (hs : (a.lnk l).state = 2 ∨ (a.lnk l).state = 3) (h6 : cause ≠ 6) (h7 : cause ≠ 7) :
    ((a.linkDrop l cause).lnk l).state = 1 ∧ ((a.linkDrop l cause).lnk l).tlock = false ∧ ((a.linkDrop l cause).lnk l).credits = 0 ∧
    ((a.linkDrop l cause).lnk l).lastDown = cause ∧ ((a.linkDrop l cause).lnk l).downs = satN 16 ((a.lnk l).downs + 1) ∧
    ∀ m, m < 8 → m ≠ l → (a.linkDrop l cause).lnk m = a.lnk m := by
  have ht : (a.lnk l).timing = true := by simpa [Link.timing] using hs
  rw [linkDrop_lnk_of_timing ht]
  refine ⟨?_, rfl, rfl, rfl, rfl, fun m _ hm => linkDrop_lnk_ne hm⟩
  simp [Link.fallen, Link.retrained, h6, h7]
/-- A link's fall leaves a partner's fields other than its stream. -/
theorem linkDrop_view {γ : Type} (v : Partner → γ) (h : ∀ (x : Partner) (e : Stream), v { x with ev := e } = v x) (l cause : Nat) (s : State) (q : Nat) :
    v ((s.linkDrop l cause).part q) = v (s.part q) := by
  cases ht : (s.lnk l).timing with
  | true =>
    unfold State.linkDrop
    dsimp only
    rw [if_pos ht, part_congr (failOver_parts ..)]
    exact raiseLimited_view v h ..
  | false =>
    rcases linkDrop_of_not_timing (cause := cause) ht with h | ⟨-, h⟩ <;> rw [h]
    rfl

/-! ## What takes a link down -/

theorem execAckTimeout_late {t : Lapse} {l : Nat} {s : State} (hl : l < 8) (hup : ((s.elapse t).lnk l).state = 3)
    (hlate : (s.elapse t).sch.events.any (fun e => e.sent.any fun x => x.link == l && x.clkSent.isSome && !x.acked && ahead x.tr (s.elapse t).tb.q0 &&
      decide (winStart x.win + usUnits 60 ≤ uOf (s.elapse t).tb.q0)) = true) :
    execAckTimeout t l s = .next ((s.elapse t).linkDrop l 3) := if_pos ⟨hl, hup, hlate⟩
theorem execTlockLost_late {t : Lapse} {l : Nat} {s : State} (hl : l < 8) (hup : ((s.elapse t).lnk l).state = 3)
    (hlost : 50000 < ((s.elapse t).lnk l).theta.natAbs ∨ ((s.elapse t).lnk l).lastTs + 6547200 ≤ (s.elapse t).tb.clk) :
    execTlockLost t l s = .next ((s.elapse t).linkDrop l 4) := if_pos ⟨hl, hup, hlost⟩
theorem execLinkDown_cause {t : Lapse} {l cause : Nat} {s : State} (hl : l < 8) (hc : cause = 1 ∨ cause = 2) :
    execLinkDown t l cause s = .next ((s.elapse t).linkDrop l cause) := if_pos ⟨hl, hc.imp_right .inl⟩

/-! ## A link's part fails and returns -/

/-- The part of link l counts as failed, or no longer. -/
def State.markLink (l : Nat) (failed : Bool) (s : State) : State :=
  let b := s.setLnk l { s.lnk l with failed := failed }
  b.putFc { b.fc with link := if failed then setBit b.fc.link l else clearBits b.fc.link (2 ^ l) }
@[simp] theorem markLink_parts (l : Nat) (failed : Bool) (s : State) : (s.markLink l failed).parts = s.parts := rfl
@[simp] theorem markLink_jrn (l : Nat) (failed : Bool) (s : State) : (s.markLink l failed).jrn = s.jrn := rfl
theorem markLink_of_rest {l : Nat} {failed : Bool} {a u : State} (h : u.rest = (a.markLink l failed).rest) :
    u.lnk l = { a.lnk l with failed := failed } ∧ u.fc.link = (if failed then setBit a.fc.link l else clearBits a.fc.link (2 ^ l)) ∧
    u.rest = ((a.putLinks u.links).putFc u.fc).rest := by
  refine ⟨(lnk_of_rest h l).trans (lnk_setLnk ..), congrArg Parts.link (of_rest_fc h), ?_⟩
  rw [h, of_rest_links h, of_rest_fc h]; rfl
theorem execLinkFailed_due {t : Lapse} {l : Nat} {s : State} (hl : l < 8) (hen : ((s.elapse t).lnk l).en = true) (hon : (s.elapse t).isOn 9 = true)
    (hwas : ((s.elapse t).lnk l).wasUp = true) (hstate : ((s.elapse t).lnk l).state ≠ 3) (hfail : ((s.elapse t).lnk l).failed = false)
    (hout : ((s.elapse t).lnk l).outClk.any (fun c => decide (c + 65472000 ≤ (s.elapse t).tb.clk)) = true) :
    execLinkFailed t l s = .next (((s.elapse t).markLink l true).partFailed 0x014 l) := by
  obtain ⟨c, hc, hdue⟩ := sentClk_of_any hout
  unfold execLinkFailed
  dsimp only
  split
  · next d hd =>
    obtain rfl := Option.some.inj (hc.symm.trans hd)
    exact if_pos ⟨hl, hen, hon, hwas, hstate, by simp [hfail], hdue⟩
  · next hd => simp [hc] at hd
theorem execLinkRestored_due {t : Lapse} {l : Nat} {s : State} (hl : l < 8) (hfail : ((s.elapse t).lnk l).failed = true)
    (hstate : ((s.elapse t).lnk l).state = 3) (hup : ((s.elapse t).lnk l).upClk.any (fun c => decide (c + 654720000 ≤ (s.elapse t).tb.clk)) = true) :
    execLinkRestored t l s = .next (((s.elapse t).markLink l false).partRestored 0x014 l) := by
  obtain ⟨c, hc, hdue⟩ := sentClk_of_any hup
  unfold execLinkRestored
  dsimp only
  split
  · next d hd =>
    obtain rfl := Option.some.inj (hc.symm.trans hd)
    exact if_pos ⟨hl, hfail, hstate, hdue⟩
  · next hd => simp [hc] at hd

/-- Settles O21: each cause through the same fall, failure and return through the part's mark. -/
theorem linkStates : Obligations.LinkStates := by
  refine ⟨fun t s l => ⟨fun hl hup hlate => ?_, fun hl hup hlost => ?_, fun hl hen hon hwas hstate hfail hout => ?_, fun hl hfail hstate hup => ?_⟩,
    ?_⟩
  · exact ⟨_, execAckTimeout_late hl hup hlate, linkDrop_down (.inr hup) (by decide) (by decide)⟩
  · exact ⟨_, execTlockLost_late hl hup hlost, linkDrop_down (.inr hup) (by decide) (by decide)⟩
  · obtain ⟨hlnk, hfc, hrest⟩ := markLink_of_rest (partFailed_rest 0x014 l ((s.elapse t).markLink l true))
    have htold : Told (s.elapse t) (((s.elapse t).markLink l true).partFailed 0x014 l) := partFailed_told (markLink_parts ..) (markLink_jrn ..) _ _
    exact ⟨_, execLinkFailed_due hl hen hon hwas hstate hfail hout, hlnk, hfc, htold, hrest⟩
  · obtain ⟨hlnk, hfc, hrest⟩ := markLink_of_rest (partRestored_rest 0x014 l ((s.elapse t).markLink l false))
    have htold : Told (s.elapse t) (((s.elapse t).markLink l false).partRestored 0x014 l) := partRestored_told (markLink_parts ..) (markLink_jrn ..) _ _
    exact ⟨_, execLinkRestored_due hl hfail hstate hup, hlnk, hfc, htold, hrest⟩
  · intro t s l cause a k hl hstate hc
    exact ⟨_, execLinkDown_cause hl hc, linkDrop_down hstate (by omega) (by omega)⟩

/-! ## Training and time transfer (R368-R376) -/

/-- What a LINK frame shows of the gateway. -/
def Link.heard (ws : List Word) (k : Link) : Link :=
  { k with rxb := fld (arg ws 0) 23 12, gw := arg ws 1, txd := fld (arg ws 2) 47 24, rxd := fld (arg ws 2) 23 0 }
section
variable {t : Lapse} {l : Nat} {ws : List Word} {s : State} (hl : l < 8) (hgood : frameGood ws = true)
include hl hgood

theorem execLink_timing (hstate : ((s.elapse t).lnk l).state = 1) (htype : frameType ws = 8) (hb : 64 ≤ fld (arg ws 0) 23 12)
    (hpair : ((s.elapse t).lnk l).pair = none ∨ arg ws 1 = ((s.elapse t).lnk l).pairGw) :
    execLink t l ws s = .next (((s.elapse t).setLnk l (((s.elapse t).lnk l).heard ws)).setLnk l
      { ((s.elapse t).lnk l).heard ws with state := 2, credits := fld (arg ws 0) 23 12, good := 0, lastTs := (s.elapse t).tb.clk }) := by
  have hmate : ¬ (((s.elapse t).lnk l).pair.isSome = true ∧ arg ws 1 ≠ ((s.elapse t).lnk l).pairGw) := by
    rcases hpair with h | h
    · simp [h]
    · exact fun hc => hc.2 h
  unfold execLink
  rw [onFrame_good hl (by omega) hgood htype]
  dsimp only
  rw [if_neg hmate, if_neg (not_not_intro hstate), if_neg (by omega)]; rfl
/-- With less ballast it hears the frame and stays, whatever gateway its pair expects. -/
theorem execLink_short (hstate : ((s.elapse t).lnk l).state = 1) (htype : frameType ws = 8) (hb : fld (arg ws 0) 23 12 < 64) :
    ∃ cause args, execLink t l ws s = .next (((s.elapse t).setLnk l (((s.elapse t).lnk l).heard ws)).raiseLimited true cause l args) := by
  unfold execLink
  rw [onFrame_good hl (by omega) hgood htype]
  dsimp only
  split
  · rw [if_neg (by simp [Link.timing, hstate])]
    exact ⟨_, _, rfl⟩
  · rw [if_neg (not_not_intro hstate)]
    exact ⟨_, _, rfl⟩
theorem execCredit_timing (hstate : ((s.elapse t).lnk l).state = 2 ∨ ((s.elapse t).lnk l).state = 3) (htype : frameType ws = 10) :
    execCredit t l ws s = .next ((s.elapse t).setLnk l { (s.elapse t).lnk l with
      credits := satN 12 (((s.elapse t).lnk l).credits + fld (arg ws 0) 11 0) }) := by
  unfold execCredit
  rw [onFrame_good hl (by omega) hgood htype]
  exact congrArg _ (if_pos (by simpa [Link.timing] using hstate))
end

/-- A measurement within 1 µs: θ, the delay and its instant, whether it counts towards UP, and the correction that goes out. -/
def Link.measured (theta delay : Int) (clk : Nat) (fadj : Int) (k : Link) : Link :=
  { k with lastTs := clk, theta := theta, delay := delay, good := if theta.natAbs ≤ 20000 then min 16 (k.good + 1) else 0 }.ctl
    (lendiFrame 3 false 0 [sword theta, sword fadj])
/-- The sixteenth in a row takes TIMING to UP. -/
def Link.timed (clk : Nat) (k : Link) : Link :=
  if k.state = 2 ∧ 16 ≤ k.good then { k with state := 3, tlock := true, upClk := some clk, wasUp := true, outClk := none } else k
theorem measured_timed_state (theta delay : Int) (clk : Nat) (fadj : Int) (k : Link) :
    ((k.measured theta delay clk fadj).timed clk).state = if k.state = 2 ∧ theta.natAbs ≤ 20000 ∧ 15 ≤ k.good then 3 else k.state := by
  have hgood : 16 ≤ (k.measured theta delay clk fadj).good ↔ theta.natAbs ≤ 20000 ∧ 15 ≤ k.good := by
    show 16 ≤ (if theta.natAbs ≤ 20000 then min 16 (k.good + 1) else 0) ↔ _
    split <;> omega
  unfold Link.timed
  rw [apply_ite Link.state]
  exact if_congr (and_congr Iff.rfl hgood) rfl rfl
theorem execTstamp_near {t : Lapse} {l : Nat} {ws : List Word} {s : State} {dep4 arr4 : Int} {k : Link} (hk : (s.elapse t).lnk l = k) (hl : l < 8)
    (hstate : k.state = 2 ∨ k.state = 3) (hgood : frameGood ws = true) (htype : frameType ws = 11)
    (hdep : k.dep4 = some (fld (arg ws 1) 47 32, dep4)) (harr : k.arr4 = some (fld (arg ws 1) 47 32, arr4)) {theta delay : Int}
    (htheta : halfOpen (sfld (arg ws 1) 31 0 - dep4 - (arr4 - sfld (arg ws 2) 47 24) + k.asym) = theta)
    (hdelay : halfOpen (sfld (arg ws 1) 31 0 - dep4 + (arr4 - sfld (arg ws 2) 47 24)) = delay) (hnear : theta.natAbs ≤ 1000000) :
    ∃ u, execTstamp t l ws s = .next u ∧
      u.rest = ((s.elapse t).setLnk l ((k.measured theta delay (s.elapse t).tb.clk (s.elapse t).tb.fadj).timed (s.elapse t).tb.clk)).rest := by
  unfold execTstamp
  rw [onFrame_good hl (by rw [hk]; omega) hgood htype]
  dsimp only
  rw [hk]
  split
  · next w₁ d₁ w₂ a₂ hd ha =>
    obtain ⟨rfl, rfl⟩ := Prod.mk.inj (Option.some.inj (hdep.symm.trans hd))
    obtain ⟨rfl, rfl⟩ := Prod.mk.inj (Option.some.inj (harr.symm.trans ha))
    rw [if_pos ⟨by simpa [Link.timing] using hstate, rfl, rfl⟩, htheta, hdelay, if_neg (by omega)]
    change ∃ u, Host.Outcome.next (if (k.measured theta delay (s.elapse t).tb.clk (s.elapse t).tb.fadj).state = 2 ∧ 16 ≤ (k.measured theta delay (s.elapse t).tb.clk (s.elapse t).tb.fadj).good then _ else _) = _ ∧ _
    unfold Link.timed
    split
    · exact ⟨_, rfl, raiseLimited_rest ..⟩
    · exact ⟨_, rfl, rfl⟩
  · next h => exact (h _ _ _ _ hdep harr).elim
theorem execGatewayWindowMarker_hundredth {t : Lapse} {l wseq : Nat} {arr4 : Int} {s : State} (hl : l < 8) (hstate : ((s.elapse t).lnk l).state ≠ 0)
    (hw : wseq % 100 = 0) :
    execGatewayWindowMarker t l wseq arr4 s = .next ((s.elapse t).setLnk l { (s.elapse t).lnk l with arr4 := some (wseq % 2 ^ 16, arr4) }) :=
  if_pos ⟨hl, hstate, hw⟩
theorem execLendiFrameDropped_bad {t : Lapse} {l : Nat} {ws : List Word} {s : State} (hl : l < 8) (hstate : ((s.elapse t).lnk l).state ≠ 0)
    (hbad : frameGood ws = false) : execLendiFrameDropped t l ws s = .next ((s.elapse t).dropFrame l) :=
  if_pos ⟨hl, hstate, by simp [hbad]⟩

/-- Settles O20: each frame's effect is one update of its link. -/
theorem linkTraining : Obligations.LinkTraining := by
  refine ⟨fun t s l ws => ⟨fun hl hstate hgood htype hb hpair => ?_, fun hl hstate hgood htype hb => ?_, fun hl hstate hgood htype => ?_,
    fun hl hstate hbad => ?_⟩, ?_, ?_⟩
  · refine ⟨_, execLink_timing hl hgood hstate htype hb hpair, ?_, ?_, ?_, fun m _ hm => ?_, rfl⟩
    · rw [lnk_setLnk]
    · rw [lnk_setLnk]
    · rw [lnk_setLnk]; rfl
    · rw [lnk_setLnk_ne _ _ _ _ hm, lnk_setLnk_ne _ _ _ _ hm]
  · obtain ⟨cause, args, h⟩ := execLink_short hl hgood hstate htype hb
    have hrest := raiseLimited_rest true cause l args ((s.elapse t).setLnk l (((s.elapse t).lnk l).heard ws))
    refine ⟨_, h, ?_, ?_, ?_⟩
    · rw [lnk_of_rest hrest, lnk_setLnk]; exact hstate
    · rw [lnk_of_rest hrest, lnk_setLnk]; rfl
    · rw [hrest, of_rest_links hrest]; rfl
  · exact ⟨_, execCredit_timing hl hgood hstate htype, rfl⟩
  · refine ⟨_, execLendiFrameDropped_bad hl hstate hbad, ?_, ?_, rfl⟩
    · unfold State.dropFrame; rw [lnk_setLnk]
    · unfold State.dropFrame; rw [lnk_setLnk]
  · intro t s l ws dep4 arr4 a k w dn up theta hl hstate hgood htype hdep harr hnear
    obtain ⟨u, hu, hrest⟩ := execTstamp_near (k := k) rfl hl hstate hgood htype hdep harr rfl rfl hnear
    have hlnk := (lnk_of_rest hrest l).trans (lnk_setLnk ..)
    refine ⟨u, hu, ?_, ?_, ?_, ?_, ?_⟩
    · rw [hlnk]; unfold Link.timed; split <;> rfl
    · rw [hlnk]; unfold Link.timed; split <;> rfl
    · rw [hlnk]; unfold Link.timed; split <;> rfl
    · rw [hlnk]; exact measured_timed_state ..
    · rw [hrest, of_rest_links hrest]; rfl
  · intro t s l wseq arr4 a hl hstate hw
    exact ⟨_, execGatewayWindowMarker_hundredth hl hstate hw, rfl⟩

end Sys2Proof.Machine
end

section
/-! LENDI_CONFIG and LENDI_PAIR (R376, R378, R383) (O24). -/
namespace Sys2Proof.Machine
open Sys2Proof

/-! ## LENDI_CONFIG (R383) -/

/-- The verdict on a LENDI_CONFIG that nothing refuses. -/
def configDone (k : Pkt) : Verdict where
  status := .done
  pins := [.config 0x0B0 (fld (arg k.ps 0) 47 45)]
  act _ b := b.applyLendi (fld (arg k.ps 0) 47 45) (bit (arg k.ps 0) 44) (sfld (arg k.ps 1) 47 16)
theorem opLendiConfig_enable {k : Pkt} {s : State} (hlen : k.ps.length = 2) (hen : bit (arg k.ps 0) 44 = true) :
    opLendiConfig.eval k s = configDone k := by
  unfold opLendiConfig
  dsimp only
  rw [if_neg (not_not_intro hlen), if_neg (by simp [hen])]; rfl
/-- Without a pair, an event or a GATEWAY quantity a link is unused. -/
theorem opLendiConfig_unused {k : Pkt} {s : State} (hlen : k.ps.length = 2) (hpair : (s.lnk (fld (arg k.ps 0) 47 45)).pair = none)
    (hev : s.sch.events = []) (hq : ∀ n, n < 16 → kindOf (s.qty n).cfg0 ≠ 7) : opLendiConfig.eval k s = configDone k := by
  have hfree : ([8, 9, 10, 11, 12, 13, 14, 15].any fun n => kindOf (s.qty n).cfg0 == 7 && fld (s.qty n).cfg1 10 8 == fld (arg k.ps 0) 47 45) = false := by
    rw [List.any_eq_false]
    intro n hn
    have h16 : n < 16 := by simp only [List.mem_cons, List.not_mem_nil, or_false] at hn; omega
    simp [hq n h16]
  unfold opLendiConfig
  dsimp only
  rw [if_neg (not_not_intro hlen), if_neg (by rw [hfree]; simp [hpair, State.eventsOn, hev])]; rfl

theorem applyLendi_view {γ : Type} (v : Partner → γ) (h : ∀ (x : Partner) (e : Stream), v { x with ev := e } = v x) (l : Nat) (en : Bool) (asym : Int)
    (s : State) (q : Nat) : v ((s.applyLendi l en asym).part q) = v (s.part q) := by
  cases en with
  | true => rfl
  | false => exact linkDrop_view v h l 7 s q
theorem applyLendi_lnk_ne {l m : Nat} (hm : m ≠ l) (en : Bool) (asym : Int) (s : State) : (s.applyLendi l en asym).lnk m = s.lnk m := by
  cases en with
  | true => exact lnk_setLnk_ne _ _ _ _ hm
  | false => exact (lnk_setLnk_ne _ _ _ _ hm).trans (linkDrop_lnk_ne hm)
/-- An enabled link leaves OFF where D9 drives its pins. -/
def Link.enabled (asym : Int) (pins : Bool) (k : Link) : Link :=
  { k with en := true, asym := asym, wasUp := k.wasUp && k.en, state := if k.state = 0 ∧ pins then 1 else k.state }
theorem applyLendi_enable (l : Nat) (asym : Int) (s : State) :
    s.applyLendi l true asym = s.setLnk l ((s.lnk l).enabled asym (s.isOn 9 && !s.pinsLatched 9)) := by
  simp [State.applyLendi, Link.enabled]
theorem pinsLatched_of_rest {a b : State} (h : a.rest = b.rest) (d : Nat) : a.pinsLatched d = b.pinsLatched d := by
  unfold State.pinsLatched; rw [of_rest_pwr h]
theorem applyLendi_disable (l : Nat) (asym : Int) (s : State) :
    (s.applyLendi l false asym).lnk l = { (s.linkDrop l 7).lnk l with en := false, asym := asym, wasUp := false, outClk := none } :=
  lnk_setLnk ..
/-- A LENDI_CONFIG that nothing refuses is DONE, and its link is configured in a state that agrees with the one at arrival. -/
theorem lendiConfig_completes {t : Lapse} {env : Env} {ps : List Word} {s : State} (P : State → Prop)
    (h : (s.elapse t).admits 0x0B0 3 0xFFE env ps = true)
    (hv : opLendiConfig.eval (pktOf 0x0B0 env ps (s.elapse t)) ((s.elapse t).bound env) = configDone (pktOf 0x0B0 env ps (s.elapse t)))
    (hlen : ps.length = 2)
    (hP : ∀ b u : State, b.rest = (s.elapse t).rest →
      u.rest = (b.applyLendi (fld (arg ps 0) 47 45) (bit (arg ps 0) 44) (sfld (arg ps 1) 47 16)).rest → P u) :
    Completes 0x0B0 1 [] env (s.elapse t) (exec (.lendiConfig t env ps) s) P := by
  refine runOp_completes opLendiConfig t env ps 3 s _ [] P h (by decide) (by decide) hv rfl ?_ (fun _ b => ⟨?_, ?_⟩)
    (fun _ b u hb hu => hP b u hb hu)
  · show entriesFor (ps.length + 0) + 0 ≤ 1000
    rw [hlen]; decide
  · exact applyLendi_view (·.lseq) (fun _ _ => rfl) ..
  · exact applyLendi_view (·.replays) (fun _ _ => rfl) ..

/-! ## LENDI_PAIR (R378) -/

/-- Two links get the same gateway, each the other as its pair. -/
def State.pairLinks (i j : Nat) (on : Bool) (gw : Word) (s : State) : State :=
  (s.setLnk i { s.lnk i with pair := if on then some j else none, pairGw := gw }).setLnk j
    { s.lnk j with pair := if on then some i else none, pairGw := gw }
theorem pairLinks_lnk {i j : Nat} (hij : i ≠ j) (on : Bool) (gw : Word) (s : State) :
    (s.pairLinks i j on gw).lnk i = { s.lnk i with pair := if on then some j else none, pairGw := gw } ∧
    (s.pairLinks i j on gw).lnk j = { s.lnk j with pair := if on then some i else none, pairGw := gw } := by
  unfold State.pairLinks
  exact ⟨(lnk_setLnk_ne _ _ _ _ hij).trans (lnk_setLnk ..), lnk_setLnk ..⟩
/-- The verdict that pairs or unpairs. -/
def pairDone (i j : Nat) (on : Bool) (gw : Word) : Verdict where
  status := .done
  pins := [.config 0x0B2 (min i j)]
  act _ b := b.pairLinks i j on gw
/-- The two links that a LENDI_PAIR names. -/
def pairOne (k : Pkt) : Nat := fld (arg k.ps 0) 46 44
def pairTwo (k : Pkt) : Nat := fld (arg k.ps 0) 43 41
section
variable {k : Pkt} {s : State} (hlen : k.ps.length = 1) (hij : pairOne k ≠ pairTwo k)
include hlen hij

theorem opLendiPair_pair (hop : bit (arg k.ps 0) 47 = true) (hi : (s.lnk (pairOne k)).state = 3) (hj : (s.lnk (pairTwo k)).state = 3)
    (hgw : (s.lnk (pairOne k)).gw = (s.lnk (pairTwo k)).gw) (hpi : (s.lnk (pairOne k)).pair = none) (hpj : (s.lnk (pairTwo k)).pair = none) :
    opLendiPair.eval k s = pairDone (pairOne k) (pairTwo k) true (s.lnk (pairOne k)).gw := by
  unfold pairOne pairTwo at *
  unfold opLendiPair
  dsimp only
  rw [if_neg (by simp [hlen, hij]), if_pos hop, if_neg (by simp [hi, hj, hgw, hpi, hpj])]; rfl
theorem opLendiPair_apart (hop : bit (arg k.ps 0) 47 = true) (hgw : (s.lnk (pairOne k)).gw ≠ (s.lnk (pairTwo k)).gw) :
    opLendiPair.eval k s = refuse .notPermitted [2] := by
  unfold pairOne pairTwo at *
  unfold opLendiPair
  dsimp only
  rw [if_neg (by simp [hlen, hij]), if_pos hop, if_pos (.inr (.inr (.inl hgw)))]; rfl
theorem opLendiPair_unpair (hop : bit (arg k.ps 0) 47 = false) (hpi : (s.lnk (pairOne k)).pair = some (pairTwo k)) (hev : s.sch.events = []) :
    opLendiPair.eval k s = pairDone (pairOne k) (pairTwo k) false 0 := by
  unfold pairOne pairTwo at *
  unfold opLendiPair
  dsimp only
  rw [if_neg (by simp [hlen, hij]), if_neg (by simp [hop]), if_neg (by simp [hpi, State.eventsOn, hev])]; rfl
end
/-- A LENDI_PAIR that nothing refuses is DONE and changes its two links alone. -/
theorem opLendiPair_completes {t : Lapse} {env : Env} {ps : List Word} {s : State} (hlen : ps.length = 1)
    (h : (s.elapse t).admits 0x0B2 3 0xFFE env ps = true) {i j : Nat} (hij : i ≠ j) {on : Bool} {gw : Word}
    (hv : opLendiPair.eval (pktOf 0x0B2 env ps (s.elapse t)) ((s.elapse t).bound env) = pairDone i j on gw) :
    Completes 0x0B2 1 [] env (s.elapse t) (runOp opLendiPair t env ps s) fun u =>
      u.lnk i = { (s.elapse t).lnk i with pair := if on then some j else none, pairGw := gw } ∧
      u.lnk j = { (s.elapse t).lnk j with pair := if on then some i else none, pairGw := gw } ∧
      u.rest = ((s.elapse t).putLinks u.links).rest := by
  refine runOp_completes opLendiPair t env ps 3 s _ [] _ h (by decide) (by decide) hv rfl ?_ (fun _ b => ⟨rfl, rfl⟩) (fun _ b u hb hu => ?_)
  · show entriesFor (ps.length + 0) + 0 ≤ 1000
    rw [hlen]; decide
  · have hu' : u.rest = (b.pairLinks i j on gw).rest := hu
    obtain ⟨hi, hj⟩ := pairLinks_lnk hij on gw b
    refine ⟨?_, ?_, ?_⟩
    · rw [lnk_of_rest hu', hi, lnk_of_rest hb]
    · rw [lnk_of_rest hu', hj, lnk_of_rest hb]
    · rw [hu', of_rest_links hu']
      exact congrArg (State.putLinks · _) hb

/-- Settles O24: the link configured, and the two links paired, unpaired or left alone. -/
theorem lendiConfiguration : Obligations.LendiConfiguration := by
  refine ⟨fun t env ps s => ⟨fun h hlen hen => ?_, fun h hlen hen hpair hev hq => ?_⟩, fun t env ps0 s => ⟨?_, ?_⟩, fun t env ps0 s => ?_⟩
  · refine lendiConfig_completes _ h (opLendiConfig_enable hlen hen) hlen fun b u hb hu => ?_
    rw [hen, applyLendi_enable] at hu
    have hlnk := (lnk_of_rest hu (fld (arg ps 0) 47 45)).trans (lnk_setLnk ..)
    refine ⟨?_, ?_, ?_, fun m _ hm => ?_, ?_⟩
    · rw [hlnk]; rfl
    · rw [hlnk]; rfl
    · rw [hlnk, lnk_of_rest hb, isOn_of_rest hb, pinsLatched_of_rest hb]
      unfold Link.enabled
      exact if_congr (by simp) rfl rfl
    · rw [lnk_of_rest hu, lnk_setLnk_ne _ _ _ _ hm, lnk_of_rest hb]
    · rw [hu, of_rest_links hu]
      exact congrArg (State.putLinks · _) hb
  · refine lendiConfig_completes _ h (opLendiConfig_unused hlen hpair hev hq) hlen fun b u hb hu => ?_
    rw [hen] at hu
    have hlnk := (lnk_of_rest hu (fld (arg ps 0) 47 45)).trans (applyLendi_disable ..)
    refine ⟨?_, fun hs => ?_, fun m _ hm => ?_⟩
    · rw [hlnk]
    · rw [hlnk]
      exact linkDrop_disabled_state (by rw [lnk_of_rest hb]; exact hs)
    · rw [lnk_of_rest hu, applyLendi_lnk_ne hm, lnk_of_rest hb]
  · intro h hlen hij hop hi hj hgw hpi hpj
    exact opLendiPair_completes hlen h hij (opLendiPair_pair hlen hij hop hi hj hgw hpi hpj)
  · intro h hlen hij hop hgw
    exact runOp_refuses opLendiPair t env _ 3 s .notPermitted [2] h (by decide) (by decide) (by simp)
      (opLendiPair_apart hlen hij hop hgw) (by simp)
  · intro a ps i j h hlen hij hop hpi hev
    exact opLendiPair_completes hlen h hij (opLendiPair_unpair hlen hij hop hpi hev)

end Sys2Proof.Machine
end

section
/-! Fields of a packed word: what a field or a flag reads as after `pack` has placed it. -/
namespace Sys2Proof.Machine
open Sys2Proof

theorem put_lt {hi lo n : Nat} (v : Nat) (h : hi < n) (hlo : lo ≤ hi) : put hi lo v + 2 ^ lo ≤ 2 ^ n := by
  have hv : v % 2 ^ (hi + 1 - lo) + 1 ≤ 2 ^ (hi + 1 - lo) := Nat.mod_lt _ (Nat.two_pow_pos _)
  calc put hi lo v + 2 ^ lo = (v % 2 ^ (hi + 1 - lo) + 1) * 2 ^ lo := by unfold put; ring
    _ ≤ 2 ^ (hi + 1 - lo) * 2 ^ lo := Nat.mul_le_mul_right _ hv
    _ = 2 ^ (hi + 1) := by rw [← Nat.pow_add]; congr 1; omega
    _ ≤ 2 ^ n := Nat.pow_le_pow_right (by decide) h
/-- Fields placed below bit n, the highest first. -/
theorem sum_put_lt {hi lo n : Nat} {v : Nat} {xs : List Nat} (hx : xs.sum < 2 ^ lo) (h : hi < n) (hlo : lo ≤ hi) :
    (put hi lo v :: xs).sum < 2 ^ n := by
  have := put_lt v h hlo
  rw [List.sum_cons]; omega
theorem putB_eq_put (i : Nat) (b : Bool) : putB i b = put i i b.toNat := by
  unfold putB put
  rw [Nat.add_sub_cancel_left]
  cases b <;> simp
theorem fld_pack (xs : List Nat) (hi lo : Nat) (h : hi < 48) : fld (pack xs) hi lo = xs.sum / 2 ^ lo % 2 ^ (hi + 1 - lo) := by
  unfold fld pack
  rw [BitVec.toNat_ofNat]
  by_cases hlo : lo ≤ hi + 1
  · have hdvd : 2 ^ (hi + 1) ∣ 2 ^ 48 := Nat.pow_dvd_pow 2 h
    have key : ∀ n : Nat, n / 2 ^ lo % 2 ^ (hi + 1 - lo) = n % 2 ^ (hi + 1) / 2 ^ lo := by
      intro n
      have hsplit : 2 ^ (hi + 1) = 2 ^ lo * 2 ^ (hi + 1 - lo) := by rw [← Nat.pow_add]; congr 1; omega
      rw [hsplit, Nat.mod_mul_right_div_self]
    rw [key, key, Nat.mod_mod_of_dvd _ hdvd]
  · rw [show hi + 1 - lo = 0 by omega]; simp [Nat.mod_one]
/-- The highest field reads as what was placed. -/
theorem fld_pack_head {hi lo v : Nat} {xs : List Nat} (h : hi < 48) (hx : xs.sum < 2 ^ lo) :
    fld (pack (put hi lo v :: xs)) hi lo = v % 2 ^ (hi + 1 - lo) := by
  rw [fld_pack _ _ _ h, List.sum_cons]
  unfold put
  rw [Nat.add_comm, Nat.add_mul_div_right _ _ (Nat.two_pow_pos lo), Nat.div_eq_of_lt hx, Nat.zero_add, Nat.mod_mod]
/-- A field below another reads as if that one were not there. -/
theorem fld_pack_tail {hi lo v a b : Nat} {xs : List Nat} (h : a < lo) (hlo : lo < 48) :
    fld (pack (put hi lo v :: xs)) a b = fld (pack xs) a b := by
  rw [fld_pack _ _ _ (by omega), fld_pack _ _ _ (by omega), List.sum_cons]
  by_cases hb : b ≤ a
  · unfold put
    have hdvd : 2 ^ lo = 2 ^ b * (2 ^ (a + 1 - b) * 2 ^ (lo - (a + 1))) := by
      rw [← Nat.pow_add, ← Nat.pow_add]; congr 1; omega
    rw [hdvd, show ∀ w s : Nat, w * (2 ^ b * (2 ^ (a + 1 - b) * 2 ^ (lo - (a + 1)))) + s
      = s + 2 ^ b * (2 ^ (a + 1 - b) * (w * 2 ^ (lo - (a + 1)))) from fun w s => by ring,
      Nat.add_mul_div_left _ _ (Nat.two_pow_pos b), Nat.add_mul_mod_self_left]
  · rw [show a + 1 - b = 0 by omega]; simp [Nat.mod_one]
theorem bit_eq_fld (w : Word) (i : Nat) : bit w i = decide (fld w i i = 1) := by
  unfold bit fld
  rw [Nat.testBit_eq_decide_div_mod_eq, Nat.add_sub_cancel_left, Nat.pow_one]
theorem bit_pack_head {i : Nat} {b : Bool} {xs : List Nat} (h : i < 48) (hx : xs.sum < 2 ^ i) :
    bit (pack (putB i b :: xs)) i = b := by
  rw [bit_eq_fld, putB_eq_put, fld_pack_head h hx, Nat.add_sub_cancel_left]
  cases b <;> rfl
theorem bit_pack_tail {hi lo v i : Nat} {xs : List Nat} (h : i < lo) (hlo : lo < 48) :
    bit (pack (put hi lo v :: xs)) i = bit (pack xs) i := by
  rw [bit_eq_fld, bit_eq_fld, fld_pack_tail h hlo]
theorem fld_lt (w : Word) (hi lo : Nat) : fld w hi lo < 2 ^ (hi + 1 - lo) := Nat.mod_lt _ (Nat.two_pow_pos _)
theorem fld_mod (w : Word) (hi lo : Nat) : fld w hi lo % 2 ^ (hi + 1 - lo) = fld w hi lo := Nat.mod_eq_of_lt (fld_lt ..)

end Sys2Proof.Machine
end

section
/-! An instruction of a user core: fetched and executed, or its task aborted (R411, R416, R428, R445). -/
namespace Sys2Proof.Machine
open Sys2Proof

/-! ## User cores -/

theorem setCore_setCore (s : State) (k : Nat) (v w : UCore) : (s.setCore k v).setCore k w = s.setCore k w := by
  unfold State.setCore; split <;> rfl
theorem setCore_core (s : State) (k : Nat) : s.setCore k (s.core k) = s := by
  unfold State.setCore State.core; split <;> rfl
@[simp] theorem core_putFresh (s : State) (k n : Nat) : (s.putFresh n).core k = s.core k := rfl
theorem core_of_rest {a b : State} (h : a.rest = b.rest) (k : Nat) : a.core k = b.core k := by
  unfold State.core; rw [of_rest_dsp h]
theorem core_setCore_other (s : State) {k j : Nat} (hk : k < 2) (hj : j < 2) (h : j ≠ k) (v : UCore) : (s.setCore k v).core j = s.core j := by
  unfold State.setCore State.core
  by_cases hk0 : k = 0
  · rw [if_pos hk0, if_neg (by omega), if_neg (by omega)]; rfl
  · rw [if_neg hk0, if_pos (by omega), if_pos (by omega)]; rfl
@[simp] theorem dr_setD (c : UCore) (n : Nat) (v : Word) : (c.setD n v).dr n = v := tget_tput_same ..
theorem dr_setD_ne (c : UCore) {m n : Nat} (h : m ≠ n) (v : Word) : (c.setD n v).dr m = c.dr m := tget_tput_ne _ _ _ _ _ _ h
theorem dr_mode (c : UCore) (m : Word) (n : Nat) : ({ c with mode := m } : UCore).dr n = c.dr n := rfl
@[simp] theorem retire_dr (c : UCore) (cycles n : Nat) : (c.retire cycles).dr n = c.dr n := rfl
@[simp] theorem retire_ar (c : UCore) (cycles n : Nat) : (c.retire cycles).ar n = c.ar n := rfl

/-! ## Abort (R428) -/

/-- A core whose running task is aborted with a code. -/
def UCore.aborted (code clk : Nat) (r : Start) (c : UCore) : UCore :=
  { c.stop clk with
    last := pack [put 47 44 code, put 43 38 r.task, put 37 14 c.pc]
    aborts := if code = 5 then satN 16 (c.aborts + 1) else c.aborts
    faults := if code = 5 then c.faults else satN 16 (c.faults + 1) }
theorem stop_running {c : UCore} {r : Start} (h : c.run = some r) (clk : Nat) :
    c.stop clk = { c with slots := tput {} r.task { c.slot r.task with lastCyc := satN 24 (c.cycnt / 1024) } c.slots, run := none
                          spans := (c.runClk, clk) :: c.spans.filter fun x => clk < x.2 + 65472000 } := by
  unfold UCore.stop
  rw [h]; rfl
theorem aborted_stopped {c : UCore} {r : Start} (h : c.run = some r) (code clk : Nat) :
    (c.aborted code clk r).run = none ∧ (c.aborted code clk r).lmem = c.lmem ∧ (c.aborted code clk r).ring = c.ring ∧
    (c.aborted code clk r).d = c.d ∧ (c.aborted code clk r).a = c.a := by
  unfold UCore.aborted
  rw [stop_running h]
  exact ⟨rfl, rfl, rfl, rfl, rfl⟩
theorem aborted_code {code : Nat} (h : code < 16) (clk : Nat) (r : Start) (c : UCore) : fld (c.aborted code clk r).last 47 44 = code := by
  have h1 : [put 37 14 c.pc].sum < 2 ^ 38 := sum_put_lt (by decide) (by decide) (by decide)
  have h2 : [put 43 38 r.task, put 37 14 c.pc].sum < 2 ^ 44 := sum_put_lt h1 (by decide) (by decide)
  exact (fld_pack_head (by decide) h2).trans (Nat.mod_eq_of_lt h)
section
variable {s : State} {k code : Nat} {r : Start} (hrun : (s.core k).run = some r)
include hrun

/-- The core stops; the task's owner, where it has one, gets an ALARM. -/
theorem abortTask_eq : s.abortTask k code =
    if ((s.core k).slot r.task).owner < 5 then
      (s.setCore k ((s.core k).aborted code s.tb.clk r)).raise ((s.core k).slot r.task).owner false 0xC01 [word k, word r.task, word code, word (s.core k).pc]
    else s.setCore k ((s.core k).aborted code s.tb.clk r) := by
  unfold State.abortTask
  dsimp only
  rw [hrun]; rfl
theorem abortTask_rest : (s.abortTask k code).rest = (s.setCore k ((s.core k).aborted code s.tb.clk r)).rest := by
  rw [abortTask_eq hrun]
  split
  · exact raise_rest ..
  · rfl
theorem abortTask_core : (s.abortTask k code).core k = (s.core k).aborted code s.tb.clk r :=
  (core_of_rest (abortTask_rest hrun) k).trans (core_setCore ..)
theorem abortTask_toldOne (h5 : ((s.core k).slot r.task).owner < 5) : ToldOne ((s.core k).slot r.task).owner s (s.abortTask k code) := by
  rw [abortTask_eq hrun, if_pos h5]
  exact toldOne_record (setCore_parts ..) (setCore_jrn ..) _ _ _ rfl
end

/-! ## Fetch (R410, R416, R445) -/

theorem run_of_inImage {a : State} {k : Nat} (h : a.inImage k = true) :
    ∃ r, (a.core k).run = some r ∧ ¬ ((a.core k).pc < ((a.core k).slot r.task).base ∨
      ((a.core k).slot r.task).base + ((a.core k).slot r.task).size ≤ (a.core k).pc) := by
  unfold State.inImage at h
  cases hr : (a.core k).run with
  | none => simp [hr] at h
  | some r =>
    simp only [hr, Bool.and_eq_true, decide_eq_true_eq] at h
    exact ⟨r, rfl, by omega⟩
theorem run_of_coreRuns {a : State} {k : Nat} (h : a.coreRuns k = true) : ∃ r, (a.core k).run = some r := by
  simp only [State.coreRuns, Bool.and_eq_true] at h
  exact Option.isSome_iff_exists.mp h.1.2
theorem lt_two_of_coreRuns {a : State} {k : Nat} (h : a.coreRuns k = true) : k < 2 := by
  simp only [State.coreRuns, Bool.and_eq_true, decide_eq_true_eq] at h
  exact h.1.1.1.1
section
variable {t : Lapse} {k : Nat} {s : State} {f : UCore → State → State}

theorem onCore_fetched (hruns : (s.elapse t).coreRuns k = true) (hin : (s.elapse t).inImage k = true) :
    onCore t k f s = .next (if ((s.elapse t).fetched k).coreRuns k then f (((s.elapse t).fetched k).core k) ((s.elapse t).fetched k) else (s.elapse t).fetched k) := by
  obtain ⟨r, hr, hpc⟩ := run_of_inImage hin
  unfold onCore
  dsimp only
  rw [hr]
  dsimp only
  rw [if_pos hruns, if_neg hpc]
  split <;> rfl
/-- An instruction that its core executes acts on what the fetch has left. -/
theorem onCore_executes (h : (s.elapse t).executes k = true) :
    onCore t k f s = .next (f (((s.elapse t).fetched k).core k) ((s.elapse t).fetched k)) := by
  simp only [State.executes, Bool.and_eq_true] at h
  obtain ⟨⟨hruns, hin⟩, hgood⟩ := h
  rw [onCore_fetched hruns hin, if_pos hgood]
theorem onCore_unfetched (hruns : (s.elapse t).coreRuns k = true) (hin : (s.elapse t).inImage k = true)
    (hbad : ((s.elapse t).fetched k).coreRuns k = false) : onCore t k f s = .next ((s.elapse t).fetched k) := by
  rw [onCore_fetched hruns hin, if_neg (by simp [hbad])]
theorem onCore_outside (hruns : (s.elapse t).coreRuns k = true) (hin : (s.elapse t).inImage k = false) :
    onCore t k f s = .next ((s.elapse t).abortTask k 2) := by
  obtain ⟨r, hr⟩ := run_of_coreRuns hruns
  have hpc : ((s.elapse t).core k).pc < (((s.elapse t).core k).slot r.task).base ∨
      (((s.elapse t).core k).slot r.task).base + (((s.elapse t).core k).slot r.task).size ≤ ((s.elapse t).core k).pc := by
    unfold State.inImage at hin
    simp only [hr, Bool.and_eq_false_iff, decide_eq_false_iff_not] at hin
    omega
  unfold onCore
  dsimp only
  rw [hr]
  dsimp only
  rw [if_pos hruns, if_pos hpc]
/-- Its core still runs a task. -/
theorem run_of_executes (h : (s.elapse t).executes k = true) : ∃ r, (((s.elapse t).fetched k).core k).run = some r := by
  simp only [State.executes, Bool.and_eq_true] at h
  exact run_of_coreRuns h.2
theorem lt_two_of_executes (h : (s.elapse t).executes k = true) : k < 2 := by
  simp only [State.executes, Bool.and_eq_true] at h
  exact lt_two_of_coreRuns h.2
theorem onRegs_executes {cycles : Nat} {g : UCore → UCore} (h : (s.elapse t).executes k = true) :
    onRegs t k cycles g s = .next (((s.elapse t).fetched k).setCore k ((g (((s.elapse t).fetched k).core k)).retire cycles)) :=
  onCore_executes h
/-- An instruction outside the image ends its task with code 2. -/
theorem onCore_outside_aborts (hruns : (s.elapse t).coreRuns k = true) (hin : (s.elapse t).inImage k = false) :
    Answers (onCore t k f s) fun u =>
      (u.core k).run = none ∧ fld (u.core k).last 47 44 = 2 ∧ (u.core k).faults = satN 16 (((s.elapse t).core k).faults + 1) := by
  obtain ⟨r, hr⟩ := run_of_coreRuns hruns
  refine ⟨_, onCore_outside hruns hin, ?_⟩
  dsimp only
  rw [abortTask_core hr]
  exact ⟨(aborted_stopped hr 2 _).1, aborted_code (by decide) .., rfl⟩
end

end Sys2Proof.Machine
end

section
/-! The ALU instructions of the user cores (R411, R412, R416, R422) (O49). -/
namespace Sys2Proof.Machine
open Sys2Proof

/-! ## Flags (R411) -/

/-- Z and N of the result, C and V as the operation gives them, the rest of MODE as it was. -/
theorem withFlags_flags (mode : Word) (r : AluOut) (fresh : Nat) :
    FlagsOf r.value mode (withFlags mode r fresh) ∧ bit (withFlags mode r fresh) 43 = r.carry.getD (Config.freeBit fresh) ∧
    bit (withFlags mode r fresh) 42 = r.over_.getD (Config.freeBit (fresh + 1)) := by
  have h42 : [put 41 0 (fld mode 41 0)].sum < 2 ^ 42 := sum_put_lt (by decide) (by decide) (by decide)
  have step : ∀ (i : Nat) (b : Bool) (xs : List Nat), xs.sum < 2 ^ i → (putB i b :: xs).sum < 2 ^ (i + 1) := fun i b xs h => by
    rw [putB_eq_put]; exact sum_put_lt h (Nat.lt_succ_self i) le_rfl
  have h43 := step 42 (r.over_.getD (Config.freeBit (fresh + 1))) _ h42
  have h44 := step 43 (r.carry.getD (Config.freeBit fresh)) _ h43
  have h45 := step 44 (bit r.value 47) _ h44
  have h46 := step 45 (r.value == 0) _ h45
  have below : ∀ (i j : Nat) (b : Bool) (xs : List Nat), j < i → i < 48 → bit (pack (putB i b :: xs)) j = bit (pack xs) j := fun i j b xs h hi => by
    rw [putB_eq_put]; exact bit_pack_tail h hi
  have under : ∀ (i : Nat) (b : Bool) (xs : List Nat), 41 < i → i < 48 → fld (pack (putB i b :: xs)) 41 0 = fld (pack xs) 41 0 := fun i b xs h hi => by
    rw [putB_eq_put]; exact fld_pack_tail h hi
  unfold withFlags
  refine ⟨⟨?_, ?_, ?_, ?_⟩, ?_, ?_⟩
  · rw [bit_pack_tail (by decide) (by decide), bit_pack_head (by decide) h45]
  · rw [bit_pack_tail (by decide) (by decide), below _ _ _ _ (by decide) (by decide), bit_pack_head (by decide) h44]
  · rw [fld_pack_head (by decide) h46, fld_mod]
  · rw [fld_pack_tail (by decide) (by decide), under _ _ _ (by decide) (by decide), under _ _ _ (by decide) (by decide),
      under _ _ _ (by decide) (by decide), under _ _ _ (by decide) (by decide), fld_pack_head (by decide) (by decide), fld_mod]
  · rw [bit_pack_tail (by decide) (by decide), below _ _ _ _ (by decide) (by decide), below _ _ _ _ (by decide) (by decide),
      bit_pack_head (by decide) h43]
  · rw [bit_pack_tail (by decide) (by decide), below _ _ _ _ (by decide) (by decide), below _ _ _ _ (by decide) (by decide),
      below _ _ _ _ (by decide) (by decide), bit_pack_head (by decide) h42]

/-! ## Results -/

theorem min_value (free x y : Word) : (aluOp .min free x y).value = if x.slt y then x else y := by
  show (if x.toInt ≤ y.toInt then x else y) = _
  rw [BitVec.slt_eq_decide]
  by_cases h : x.toInt < y.toInt
  · rw [if_pos h.le, if_pos (by simpa using h)]
  · rw [if_neg (c := (decide (x.toInt < y.toInt)) = true) (by simpa using h)]
    split
    · exact BitVec.eq_of_toInt_eq (by omega)
    · rfl
theorem max_value (free x y : Word) : (aluOp .max free x y).value = if x.slt y then y else x := by
  show (if x.toInt ≤ y.toInt then y else x) = _
  rw [BitVec.slt_eq_decide]
  by_cases h : x.toInt < y.toInt
  · rw [if_pos h.le, if_pos (by simpa using h)]
  · rw [if_neg (c := (decide (x.toInt < y.toInt)) = true) (by simpa using h)]
    split
    · exact BitVec.eq_of_toInt_eq (by omega)
    · rfl
theorem shl_value {y : Word} (h : y.toNat < 48) (free x : Word) : (aluOp .shl free x y).value = word (x.toNat * 2 ^ y.toNat) := by
  refine (if_pos h).trans (BitVec.eq_of_toNat_eq ?_)
  simp [word, Nat.shiftLeft_eq]
theorem shr_value {y : Word} (h : y.toNat < 48) (free x : Word) : (aluOp .shr free x y).value = word (x.toNat / 2 ^ y.toNat) := by
  refine (if_pos h).trans (BitVec.eq_of_toNat_eq ?_)
  have hx : x.toNat / 2 ^ y.toNat < 2 ^ 48 := (Nat.div_le_self ..).trans_lt x.isLt
  rw [BitVec.toNat_ushiftRight, Nat.shiftRight_eq_div_pow, word, BitVec.toNat_ofNat, Nat.mod_eq_of_lt hx]
theorem sar_value {y : Word} (h : y.toNat < 48) (free x : Word) : (aluOp .sar free x y).value = BitVec.ofInt 48 (x.toInt / 2 ^ y.toNat) := by
  refine (if_pos h).trans ?_
  rw [BitVec.sshiftRight, Int.shiftRight_eq_div_pow]
  push_cast
  rfl
theorem neg_value {x : Word} (h : x ≠ 0x800000000000#48) (free y : Word) : (aluOp .neg free x y).value = BitVec.ofInt 48 (-x.toInt) := by
  refine (if_neg h).trans ?_
  rw [BitVec.ofInt_neg, BitVec.ofInt_toInt]
theorem abs_value {x : Word} (h : x ≠ 0x800000000000#48) (free y : Word) : (aluOp .abs free x y).value = BitVec.ofInt 48 x.toInt.natAbs := by
  refine (if_neg h).trans ?_
  by_cases hneg : x.toInt < 0
  · rw [if_pos hneg, Int.ofNat_natAbs_of_nonpos hneg.le, BitVec.ofInt_neg, BitVec.ofInt_toInt]
  · rw [if_neg hneg, Int.natAbs_of_nonneg (by omega), BitVec.ofInt_toInt]

/-! ## The instructions -/

/-- What an ALU operation on two operands leaves of the state it executes in. -/
def State.aluDone (k : Nat) (op : AluOp) (dd : Nat) (x y : Word) (a : State) : State :=
  let r := aluOp op (Config.freeWord a.fresh) x y
  let c := { a.core k with mode := withFlags (a.core k).mode r (a.fresh + 1) }
  State.used 3 (a.setCore k ((if op = .cmp then c else c.setD dd r.value).retire 1))
theorem aluDone_aluDone {op : AluOp} (hop : op ≠ .cmp) (k dd : Nat) (x y : Word) (a : State) {r : AluOut}
    (hr : aluOp op (Config.freeWord a.fresh) x y = r) :
    AluDone k dd r.value a (a.aluDone k op dd x y) ∧
    bit ((a.aluDone k op dd x y).core k).mode 43 = r.carry.getD (Config.freeBit (a.fresh + 1)) ∧
    bit ((a.aluDone k op dd x y).core k).mode 42 = r.over_.getD (Config.freeBit (a.fresh + 1 + 1)) := by
  obtain ⟨hflags, hc, hv⟩ := withFlags_flags (a.core k).mode r (a.fresh + 1)
  unfold State.aluDone State.used AluDone
  dsimp only
  rw [hr, if_neg hop, core_putFresh, core_setCore, setCore_fresh]
  exact ⟨⟨(retire_dr ..).trans (dr_setD ..), fun n _ hn => (retire_dr ..).trans ((dr_setD_ne _ hn _).trans (dr_mode ..)), hflags, rfl, rfl⟩, hc, hv⟩
theorem aluDone_cmp (k dd : Nat) (x y : Word) (a : State) :
    FlagsOf (x - y) (a.core k).mode ((a.aluDone k .cmp dd x y).core k).mode ∧
    bit ((a.aluDone k .cmp dd x y).core k).mode 42 = decide (x.toInt - y.toInt ≠ (x - y).toInt) ∧
    (a.aluDone k .cmp dd x y).core k = { (a.core k).retire 1 with mode := ((a.aluDone k .cmp dd x y).core k).mode } ∧
    a.aluDone k .cmp dd x y = (a.setCore k ((a.aluDone k .cmp dd x y).core k)).putFresh (a.fresh + 3) := by
  obtain ⟨hflags, -, hv⟩ := withFlags_flags (a.core k).mode (aluSub x y) (a.fresh + 1)
  unfold State.aluDone State.used
  dsimp only
  rw [if_pos rfl, core_putFresh, core_setCore, setCore_fresh]
  exact ⟨hflags, hv, rfl, rfl⟩
section
variable {t : Lapse} {k : Nat} {s : State} (h : (s.elapse t).executes k = true)
include h

theorem aluInstr_executes (op : AluOp) (dd : Nat) (f : UCore → Word × Word) {x y : Word} (hf : f (((s.elapse t).fetched k).core k) = (x, y)) :
    aluInstr t k op dd f s = .next (((s.elapse t).fetched k).aluDone k op dd x y) := by
  refine (onCore_executes h).trans ?_
  dsimp only
  rw [hf]; rfl
theorem aluInstr_value {op : AluOp} (hop : op ≠ .cmp) (dd : Nat) (f : UCore → Word × Word) {a : State} (ha : (s.elapse t).fetched k = a)
    {x y v : Word} (hf : f (a.core k) = (x, y)) (hv : (aluOp op (Config.freeWord a.fresh) x y).value = v) :
    Answers (aluInstr t k op dd f s) (AluDone k dd v a) := by
  subst ha hv
  exact ⟨_, aluInstr_executes h op dd f hf, (aluDone_aluDone hop k dd x y _ rfl).1⟩
/-- Whatever the result is, it is what Dd holds. -/
theorem aluInstr_some_value {op : AluOp} (hop : op ≠ .cmp) (dd : Nat) (f : UCore → Word × Word) {a : State} (ha : (s.elapse t).fetched k = a) :
    Answers (aluInstr t k op dd f s) fun u => AluDone k dd ((u.core k).dr dd) a u := by
  obtain ⟨u, hu, hdone⟩ := aluInstr_value h hop dd f ha rfl rfl
  refine ⟨u, hu, ?_⟩
  dsimp only
  rw [hdone.1]
  exact hdone
end

/-- Settles O49: each instruction's result through the one lemma about its kind, and the three ways in which none executes. -/
theorem coreArithmetic : Obligations.CoreArithmetic := by
  refine ⟨fun t k dd da db s => ?_, fun t k dd da op imm s => ?_⟩
  · intro e a c x y
    refine ⟨fun h _ => ?_, fun h _ => ?_, fun h _ => ⟨?_, ?_, ?_⟩, fun h _ => ⟨?_, ?_⟩, fun h _ hy => ⟨?_, ?_, ?_⟩, fun h _ _ => ⟨?_, ?_, ?_⟩,
      fun h _ hx => ⟨?_, ?_⟩, fun h => ?_, fun h => ?_, fun hruns hin => ⟨?_, ?_⟩, fun hruns hin hbad => ⟨?_, ?_⟩⟩
    · exact ⟨_, aluInstr_executes h .add dd (regsOf da db) rfl, aluDone_aluDone (by decide) k dd x y a rfl⟩
    · obtain ⟨hdone, -, hv⟩ := aluDone_aluDone (op := .sub) (by decide) k dd x y a rfl
      exact ⟨_, aluInstr_executes h .sub dd (regsOf da db) rfl, hdone, hv⟩
    · exact aluInstr_value (op := .and) h (by decide) dd (regsOf da db) rfl rfl rfl
    · exact aluInstr_value (op := .or) h (by decide) dd (regsOf da db) rfl rfl rfl
    · exact aluInstr_value (op := .xor) h (by decide) dd (regsOf da db) rfl rfl rfl
    · exact aluInstr_value (op := .min) h (by decide) dd (regsOf da db) rfl rfl (min_value ..)
    · exact aluInstr_value (op := .max) h (by decide) dd (regsOf da db) rfl rfl (max_value ..)
    · exact aluInstr_value (op := .shl) h (by decide) dd (regsOf da db) rfl rfl (shl_value hy ..)
    · exact aluInstr_value (op := .shr) h (by decide) dd (regsOf da db) rfl rfl (shr_value hy ..)
    · exact aluInstr_value (op := .sar) h (by decide) dd (regsOf da db) rfl rfl (sar_value hy ..)
    · exact aluInstr_some_value (op := .shl) h (by decide) dd (regsOf da db) rfl
    · exact aluInstr_some_value (op := .shr) h (by decide) dd (regsOf da db) rfl
    · exact aluInstr_some_value (op := .sar) h (by decide) dd (regsOf da db) rfl
    · exact aluInstr_value (op := .abs) h (by decide) dd (regsOf da db) rfl rfl (abs_value hx ..)
    · exact aluInstr_value (op := .neg) h (by decide) dd (regsOf da db) rfl rfl (neg_value hx ..)
    · exact ⟨_, aluInstr_executes h .cmp dd (regsOf da db) rfl, aluDone_cmp k dd x y a⟩
    · exact onRegs_executes (cycles := 1) (g := fun c => c) h
    · show Answers (onRegs t k 1 (fun c => c) s) _
      unfold onRegs
      exact onCore_outside_aborts hruns hin
    · show Answers (aluInstr t k .add dd (regsOf da db) s) _
      unfold aluInstr
      exact onCore_outside_aborts hruns hin
    · show onRegs t k 1 (fun c => c) s = _
      unfold onRegs
      exact onCore_unfetched hruns hin hbad
    · show aluInstr t k .add dd (regsOf da db) s = _
      unfold aluInstr
      exact onCore_unfetched hruns hin hbad
  · intro e a x
    refine ⟨fun h _ hop => ?_, fun h _ => ⟨?_, ?_, ?_, ?_⟩⟩
    · exact aluInstr_value h hop dd (fun c => (c.dr da, imm.signExtend 48)) rfl rfl rfl
    · exact aluInstr_value (op := .add) h (by decide) dd (fun c => (c.dr da, imm.signExtend 48)) rfl rfl rfl
    · exact aluInstr_value (op := .and) h (by decide) dd (fun c => (c.dr da, imm.signExtend 48)) rfl rfl rfl
    · exact aluInstr_value (op := .sub) h (by decide) dd (fun c => (c.dr da, imm.signExtend 48)) rfl rfl rfl
    · exact aluInstr_value (op := .or) h (by decide) dd (fun c => (c.dr da, imm.signExtend 48)) rfl rfl rfl

end Sys2Proof.Machine
end

section
/-! Multiply-accumulate, extraction, normalisation and the byte instructions of the user cores (R413-R415, R418, R420) (O50). -/
namespace Sys2Proof.Machine
open Sys2Proof

/-! ## Accumulators (R413, R414) -/

section
variable {v : Int} (c : UCore) (n : Nat)

/-- A value in range is what the accumulator becomes, whatever SATA says. -/
theorem setA_fits (hlo : -2 ^ 119 ≤ v) (hhi : v < 2 ^ 119) : c.setA n v = { c with a := tput 0 n (BitVec.ofInt 120 v) c.a } := by
  have hfit : accFit (bit c.mode 47) v = (BitVec.ofInt 120 v, false) := by
    have hclamp : (if bit c.mode 47 then max (-2 ^ 119) (min (2 ^ 119 - 1) v) else v) = v := by split <;> omega
    unfold accFit
    rw [hclamp, decide_eq_false (by omega)]
  unfold UCore.setA
  rw [hfit]; rfl
theorem toInt_ofInt_acc (hlo : -2 ^ 119 ≤ v) (hhi : v < 2 ^ 119) : (BitVec.ofInt 120 v).toInt = v :=
  BitVec.toInt_ofInt_eq_self (by decide) hlo hhi
/-- A value out of range wraps or saturates, and sets OVF. -/
theorem setA_out (hout : v < -2 ^ 119 ∨ 2 ^ 119 ≤ v) :
    ((c.setA n v).ar n).toInt = (if bit c.mode 47 then max (-2 ^ 119) (min (2 ^ 119 - 1) v) else (BitVec.ofInt 120 v).toInt) ∧
    bit (c.setA n v).mode 46 = true := by
  constructor
  · show (tget 0 n (tput 0 n (accFit (bit c.mode 47) v).1 c.a)).toInt = _
    rw [tget_tput_same]
    unfold accFit
    split
    · exact toInt_ofInt_acc (by omega) (by omega)
    · rfl
  · have hovf : (accFit (bit c.mode 47) v).2 = true := decide_eq_true hout
    have hbit : bit (c.mode ||| 0x400000000000#48) 46 = true := by
      unfold bit
      rw [BitVec.toNat_or, Nat.testBit_or, show (0x400000000000#48).toNat.testBit 46 = true from by decide, Bool.or_true]
    unfold UCore.setA
    dsimp only
    rw [hovf]
    exact hbit
end
theorem setA_ar_same (c : UCore) (n : Nat) (v : Int) : (c.setA n v).ar n = (accFit (bit c.mode 47) v).1 := tget_tput_same ..
theorem setA_ar_ne (c : UCore) {m n : Nat} (h : m ≠ n) (v : Int) : (c.setA n v).ar m = c.ar m := tget_tput_ne _ _ _ _ _ _ h

/-- The sums of a DMAC: both products into one accumulator, or each into its own. -/
def UCore.macSum (m0 m1 : MacHalf) (c : UCore) : UCore :=
  if m0.acc = m1.acc then c.setA m0.acc ((c.ar m0.acc).toInt + c.macTerm m0 + c.macTerm m1)
  else (c.setA m0.acc ((c.ar m0.acc).toInt + c.macTerm m0)).setA m1.acc ((c.ar m1.acc).toInt + c.macTerm m1)
@[simp] theorem macLoad_none (c : UCore) : c.macLoad none = c := rfl
@[simp] theorem retire_mode (c : UCore) (cycles : Nat) : (c.retire cycles).mode = c.mode := rfl
@[simp] theorem retire_d (c : UCore) (cycles : Nat) : (c.retire cycles).d = c.d := rfl
/-- A local load reads nothing of the accumulators. -/
theorem macLoad_dr (c : UCore) (x : Tab Acc) (l : MacLoad) : (({ c with a := x } : UCore).macLoad (some l)).dr l.dd = c.local_ (c.address l.ap) :=
  dr_setD ..
theorem macSum_same {m0 m1 : MacHalf} (h : m0.acc = m1.acc) (c : UCore) :
    c.macSum m0 m1 = c.setA m0.acc ((c.ar m0.acc).toInt + c.macTerm m0 + (if m0.acc = m1.acc then c.macTerm m1 else 0)) := by
  unfold UCore.macSum
  rw [if_pos h, if_pos h]
theorem execDmac_executes {t : Lapse} {k : Nat} {s : State} (h : (s.elapse t).executes k = true) (m0 m1 : MacHalf) (la lb : Option MacLoad) :
    execDmac t k m0 m1 la lb s = .next (((s.elapse t).fetched k).setCore k
      ((((((s.elapse t).fetched k).core k).macSum m0 m1).macLoad la).macLoad lb |>.retire 1)) :=
  onRegs_executes (cycles := 1) (g := fun c => ((c.macSum m0 m1).macLoad la).macLoad lb) h

/-! ## Extraction (R415) -/

theorem extValue_floor (x : Acc) (sh : Nat) : extValue x sh 0 false = BitVec.ofInt 48 (x.toInt / 2 ^ sh) := by
  unfold extValue
  dsimp only
  rw [if_neg Bool.false_ne_true, if_pos (.inr rfl)]
theorem extValue_half_up {sh : Nat} (h : 1 ≤ sh) (x : Acc) :
    extValue x sh 1 true = BitVec.ofInt 48 (max (-2 ^ 47) (min (2 ^ 47 - 1) ((x.toInt + 2 ^ (sh - 1)) / 2 ^ sh))) := by
  unfold extValue
  dsimp only
  rw [if_neg (c := sh = 0 ∨ 1 = 0) (by omega), if_pos (c := 1 = 1) rfl, if_pos (c := true = true) rfl]
section
variable {t : Lapse} {k : Nat} {s : State} (h : (s.elapse t).executes k = true)
include h

theorem execExt_legal {sh rnd : Nat} (hsh : sh ≤ 72) (hrnd : rnd ≤ 2) (dd n : Nat) (sat : Bool) :
    execExt t k dd n sh rnd sat s = .next (((s.elapse t).fetched k).setCore k
      (((((s.elapse t).fetched k).core k).setD dd (extValue ((((s.elapse t).fetched k).core k).ar n) sh rnd sat)).retire 1)) := by
  refine (onCore_executes h).trans ?_
  rw [if_neg (by omega)]
variable {a : State} (ha : (s.elapse t).fetched k = a)
include ha

theorem onRegs_at (cycles : Nat) (g : UCore → UCore) : onRegs t k cycles g s = .next (a.setCore k ((g (a.core k)).retire cycles)) :=
  ha ▸ onRegs_executes h
theorem execClr_executes {c : UCore} (hc : a.core k = c) (n : Nat) :
    execClr t k n s = .next (a.setCore k (({ c with a := tput 0 n 0 c.a } : UCore).retire 1)) := by
  subst hc
  unfold execClr
  exact onRegs_at h ha ..
theorem execMova_executes {c : UCore} (hc : a.core k = c) (n da : Nat) :
    execMova t k n da s = .next (a.setCore k (({ c with a := tput 0 n ((c.dr da).signExtend 120) c.a } : UCore).retire 1)) := by
  subst hc
  unfold execMova
  exact onRegs_at h ha ..
/-- An illegal instruction ends its task with code 1 and writes no register. -/
theorem illegal_aborted : ((a.abortTask k 1).core k).run = none ∧ fld ((a.abortTask k 1).core k).last 47 44 = 1 ∧
    ((a.abortTask k 1).core k).a = (a.core k).a ∧ ((a.abortTask k 1).core k).d = (a.core k).d := by
  obtain ⟨r, hr⟩ := run_of_executes h
  rw [ha] at hr
  rw [abortTask_core hr]
  obtain ⟨hrun, -, -, hd, hac⟩ := aborted_stopped hr 1 a.tb.clk
  exact ⟨hrun, aborted_code (by decide) .., hac, hd⟩
theorem execExt_illegal {c : UCore} (hc : a.core k = c) {sh rnd : Nat} (hill : 72 < sh ∨ 2 < rnd) (dd n : Nat) (sat : Bool) :
    Answers (execExt t k dd n sh rnd sat s) fun u => (u.core k).run = none ∧ fld (u.core k).last 47 44 = 1 ∧
      (u.core k).a = c.a ∧ (u.core k).d = c.d := by
  subst hc
  refine ⟨a.abortTask k 1, ?_, illegal_aborted h ha⟩
  subst ha
  refine (onCore_executes h).trans ?_
  rw [if_pos hill]
end

/-! ## Bytes (R418) -/

theorem rotLanes_eq {n : Nat} (h : n ≤ 5) (x : Word) : rotLanes x n = word (x.toNat * 2 ^ (8 * n) + x.toNat / 2 ^ (48 - 8 * n)) := by
  refine BitVec.eq_of_toNat_eq ?_
  have hr : 8 * n < 48 := by omega
  have hsplit : (2 : Nat) ^ 48 = 2 ^ (48 - 8 * n) * 2 ^ (8 * n) := by rw [← Nat.pow_add]; congr 1; omega
  have hlow : x.toNat / 2 ^ (48 - 8 * n) < 2 ^ (8 * n) := Nat.div_lt_of_lt_mul (hsplit ▸ x.isLt)
  have hmod : x.toNat <<< (8 * n) % 2 ^ 48 = (x.toNat % 2 ^ (48 - 8 * n)) <<< (8 * n) := by
    rw [Nat.shiftLeft_eq, Nat.shiftLeft_eq, hsplit, Nat.mul_mod_mul_right]
  have hsum : (x.toNat % 2 ^ (48 - 8 * n)) <<< (8 * n) + x.toNat / 2 ^ (48 - 8 * n) < 2 ^ 48 := by
    have htop : x.toNat % 2 ^ (48 - 8 * n) + 1 ≤ 2 ^ (48 - 8 * n) := Nat.mod_lt _ (Nat.two_pow_pos _)
    have := Nat.mul_le_mul_right (2 ^ (8 * n)) htop
    rw [Nat.shiftLeft_eq, hsplit]
    rw [Nat.add_mul, Nat.one_mul] at this
    omega
  unfold rotLanes word
  rw [BitVec.toNat_rotateLeft, Nat.mod_eq_of_lt hr, Nat.shiftRight_eq_div_pow, hmod, ← Nat.shiftLeft_add_eq_or_of_lt hlow, BitVec.toNat_ofNat,
    ← Nat.shiftLeft_eq, Nat.add_mod, hmod, Nat.mod_eq_of_lt (a := x.toNat / _) (hlow.trans_le (Nat.pow_le_pow_right (by decide) hr.le)),
    Nat.mod_eq_of_lt hsum]
section
variable {t : Lapse} {k n : Nat} {s : State} (h : (s.elapse t).executes k = true)
include h

theorem execRot_legal (hn : n ≤ 5) (dd da : Nat) :
    execRot t k n dd da s = .next (((s.elapse t).fetched k).setCore k
      (((((s.elapse t).fetched k).core k).setD dd (rotLanes ((((s.elapse t).fetched k).core k).dr da) n)).retire 1)) := by
  refine (onCore_executes h).trans ?_
  rw [if_neg (by omega)]
theorem execFun2_legal (hn : n ≤ 5) (dd da db : Nat) :
    execFun2 t k n dd da db s = .next (((s.elapse t).fetched k).setCore k
      (((((s.elapse t).fetched k).core k).setD dd (funnel ((((s.elapse t).fetched k).core k).dr da) ((((s.elapse t).fetched k).core k).dr db) n)).retire 1)) := by
  refine (onCore_executes h).trans ?_
  rw [if_neg (by omega)]
theorem execRot_illegal (hn : 6 ≤ n) (dd da : Nat) :
    Answers (execRot t k n dd da s) fun u => (u.core k).run = none ∧ fld (u.core k).last 47 44 = 1 := by
  obtain ⟨hrun, hcode, -⟩ := illegal_aborted h rfl
  refine ⟨_, (onCore_executes h).trans ?_, hrun, hcode⟩
  rw [if_pos (by omega)]
theorem execFun2_illegal (hn : 6 ≤ n) (dd da db : Nat) :
    Answers (execFun2 t k n dd da db s) fun u => (u.core k).run = none ∧ fld (u.core k).last 47 44 = 1 := by
  obtain ⟨hrun, hcode, -⟩ := illegal_aborted h rfl
  refine ⟨_, (onCore_executes h).trans ?_, hrun, hcode⟩
  rw [if_pos (by omega)]
end

/-- Settles O50: sums in range and out of it, the other accumulator instructions, and the byte instructions with their illegal lanes. -/
theorem coreAccumulators : Obligations.CoreAccumulators := by
  refine ⟨fun t k m0 m1 la lb s => ?_, fun t k dd n sh rnd sat s => ?_, fun t k dd da db n s => ?_⟩
  · intro e a c v
    refine ⟨fun h hacc hlo hhi => ?_, fun h hacc hout => ?_, fun h hacc hlo hhi hlo1 hhi1 => ?_⟩
    · refine (execDmac_executes h m0 m1 la lb).trans ?_
      rw [macSum_same hacc, setA_fits _ _ hlo hhi]
    · refine ⟨_, execDmac_executes h m0 m1 none none, ?_⟩
      obtain ⟨hval, hovf⟩ := setA_out c m0.acc hout
      simp only [core_setCore, macLoad_none, macSum_same hacc, retire_ar, retire_mode, retire_d]
      exact ⟨hval, hovf, fun i _ hi => setA_ar_ne c hi v, rfl⟩
    · refine ⟨_, execDmac_executes h m0 m1 (some ⟨0, m0.x⟩) none, ?_⟩
      have hv : v = (c.ar m0.acc).toInt + c.macTerm m0 := by
        show _ + _ + (if m0.acc = m1.acc then _ else _) = _
        rw [if_neg hacc, Int.add_zero]
      have hsum : c.macSum m0 m1 = { c with
          a := tput 0 m1.acc (BitVec.ofInt 120 ((c.ar m1.acc).toInt + c.macTerm m1)) (tput 0 m0.acc (BitVec.ofInt 120 v) c.a) } := by
        unfold UCore.macSum
        rw [if_neg hacc, ← hv, setA_fits c _ hlo hhi, setA_fits _ _ hlo1 hhi1]
      simp only [core_setCore, macLoad_none, show (((s.elapse t).fetched k).core k).macSum m0 m1 = _ from hsum, retire_ar, retire_mode, retire_dr]
      refine ⟨?_, ?_, macLoad_dr c _ ⟨0, m0.x⟩, rfl, rfl⟩
      · refine (congrArg BitVec.toInt ((tget_tput_ne _ _ _ _ _ _ hacc).trans (tget_tput_same ..))).trans (toInt_ofInt_acc hlo hhi)
      · exact (congrArg BitVec.toInt (tget_tput_same ..)).trans (toInt_ofInt_acc hlo1 hhi1)
  · intro e a c x
    have ha : e.fetched k = a := rfl
    have hc : a.core k = c := rfl
    clear_value c a
    refine ⟨fun h => ⟨?_, ?_, ?_⟩, fun h hlo hhi => ?_, fun h hsh hrnd hsat => ?_, fun h hsh1 hsh hrnd hsat => ?_, fun h hill => ?_⟩
    · exact execClr_executes h ha hc n
    · exact execMova_executes h ha hc n dd
    · exact hc ▸ onRegs_at h ha 1 fun c => c.setD dd (word (signBits 120 (c.ar n).toNat))
    · refine (onRegs_at h ha 1 fun c => c.setA n ((c.ar n).toInt * 2 ^ sh)).trans ?_
      rw [hc, setA_fits _ _ hlo hhi]
    · subst hrnd hsat
      exact (execExt_legal h hsh (by decide) dd n false).trans (by rw [ha, hc, extValue_floor])
    · subst hrnd hsat
      exact (execExt_legal h hsh (by decide) dd n true).trans (by rw [ha, hc, extValue_half_up hsh1])
    · exact execExt_illegal h ha hc hill dd n sat
  · intro e a c
    refine ⟨fun h hn => ⟨?_, ?_⟩, fun h hn => ⟨?_, ?_⟩⟩
    · exact (execRot_legal h hn dd da).trans (by rw [rotLanes_eq hn])
    · exact execFun2_legal h hn dd da db
    · exact execRot_illegal h hn dd da
    · exact execFun2_illegal h hn dd da db

end Sys2Proof.Machine
end

section
/-! What a packet leaves on its port, and packets that are answered without a SEQ: PING and the refusals of R284 (O25, O29). -/
namespace Sys2Proof.Machine
open Sys2Proof

/-! ## Ports -/

/-- Whether a port serves traffic depends on its own enable and link, and on fields outside the command side. -/
theorem portUp_congr {a b : State} (h : a.rest = b.rest) (q : Nat) (hcfg : (a.eth q).page = (b.eth q).page) (hlink : (a.eth q).link = (b.eth q).link)
    (hen : (a.spi q).en = (b.spi q).en) : a.portUp q = b.portUp q := by
  unfold State.portUp State.pinsLatched
  rw [isOn_of_rest h, of_rest_pwr h, of_rest_tb h, hcfg, hlink, hen]
theorem portUp_of_host {a b : State} (h : a.rest = b.rest) (hh : a.host = b.host) (q : Nat) : a.portUp q = b.portUp q := by
  refine portUp_congr h q ?_ ?_ ?_ <;> simp only [State.eth, State.spi, hh]
theorem lt_four_of_portUp {a : State} {h : Nat} (hup : a.portUp h = true) : h < 4 := by
  by_contra hge
  unfold State.portUp at hup
  rw [if_neg (c := h < 2) (by omega), if_neg (c := h < 4) (by omega)] at hup
  split at hup <;> simp_all
theorem eth_setEth_view {γ : Type} (f : EthPort → γ) (s : State) (p : Nat) (v : EthPort) (h : f v = f (s.eth p)) (q : Nat) :
    f ((s.setEth p v).eth q) = f (s.eth q) := by
  unfold State.setEth State.eth at *
  split <;> split <;> simp_all
theorem spi_setSpi_view {γ : Type} (f : SpiPort → γ) (s : State) (p : Nat) (v : SpiPort) (h : f v = f (s.spi p)) (q : Nat) :
    f ((s.setSpi p v).spi q) = f (s.spi q) := by
  unfold State.setSpi State.spi at *
  split <;> split <;> simp_all
@[simp] theorem spi_setEth (s : State) (p : Nat) (v : EthPort) (q : Nat) : (s.setEth p v).spi q = s.spi q := by unfold State.setEth; split <;> rfl
@[simp] theorem eth_setSpi (s : State) (p : Nat) (v : SpiPort) (q : Nat) : (s.setSpi p v).eth q = s.eth q := by unfold State.setSpi; split <;> rfl
theorem spi_setSpi_ne {p q : Nat} (s : State) (v : SpiPort) (hp : p = 2 ∨ p = 3) (hq : q = 2 ∨ q = 3) (h : q ≠ p) : (s.setSpi p v).spi q = s.spi q := by
  unfold State.setSpi State.spi
  split <;> split <;> first | rfl | omega
theorem eth_setEth_ne {p q : Nat} (s : State) (v : EthPort) (hp : p < 2) (hq : q < 2) (h : q ≠ p) : (s.setEth p v).eth q = s.eth q := by
  unfold State.setEth State.eth
  split <;> split <;> first | rfl | omega
section
variable {port : Nat} (ep : Endpoint) (mac : Word) (p : Nat) (r : Bool) (held : Option (Bool × Nat)) (ws : List Word) {s : State}

section
variable (hup : s.portUp port = true)
include hup
/-- A packet is queued on an SPI port. -/
theorem sendPacket_spi (h2 : 2 ≤ port) : s.sendPacket port ep mac p r held ws =
    s.setSpi port { s.spi port with tx := (s.spi port).tx ++ [{ words := ws, partner := p, isReply := r, held := held }] } := by
  unfold State.sendPacket
  rw [if_pos hup, if_neg (by omega)]
theorem sendPacket_eth (h2 : port < 2) : s.sendPacket port ep mac p r held ws =
    (s.setEth port { s.eth port with xid := ((s.eth port).xid + 1) % 2 ^ 16 }).putWire
      (s.wire ++ (segments 255 0 ((ws.length + segWords (bit (s.eth port).page.cfg 46) ep - 1) / segWords (bit (s.eth port).page.cfg 46) ep)
        (s.eth port).xid (segWords (bit (s.eth port).page.cfg 46) ep) ws).map (Emit.frame port (s.eth port).page.tag ep mac)) := by
  unfold State.sendPacket
  rw [if_pos hup, if_pos h2]
  dsimp only
  rw [setEth_wire]
end
@[simp] theorem sendPacket_portUp (port : Nat) (s : State) (q : Nat) : (s.sendPacket port ep mac p r held ws).portUp q = s.portUp q := by
  by_cases hup : s.portUp port = true
  · by_cases h2 : port < 2
    · have h := sendPacket_eth ep mac p r held ws hup h2
      refine portUp_congr (sendPacket_rest ..) q ?_ ?_ ?_ <;> rw [h]
      · refine eth_setEth_view (fun e : EthPort => e.page) s port _ ?_ q
        rfl
      · refine eth_setEth_view (fun e : EthPort => e.link) s port _ ?_ q
        rfl
      · exact congrArg SpiPort.en (spi_setEth ..)
    · have h := sendPacket_spi ep mac p r held ws hup (by omega)
      refine portUp_congr (sendPacket_rest ..) q ?_ ?_ ?_ <;> rw [h]
      · rw [eth_setSpi]
      · rw [eth_setSpi]
      · refine spi_setSpi_view (fun e : SpiPort => e.en) s port _ ?_ q
        rfl
  · unfold State.sendPacket
    rw [if_neg hup]
end
/-- A packet to a command's source, with no room held in ingress, is its reply. -/
theorem sendPacket_replied (env : Env) (ws : List Word) {a b : State} (hup : b.portUp env.port = true) (hhost : b.host = a.host) (hwire : b.wire = a.wire) :
    Replied env ws a (b.sendPacket env.port (if env.port < 2 then env.ep else .spi) env.mac env.partner true none ws) := by
  have h4 := lt_four_of_portUp hup
  have hspi : ∀ q, b.spi q = a.spi q := fun q => by unfold State.spi; rw [hhost]
  have heth : ∀ q, b.eth q = a.eth q := fun q => by unfold State.eth; rw [hhost]
  by_cases h2 : env.port < 2
  · rw [if_pos h2, sendPacket_eth _ _ _ _ _ _ hup h2]
    refine ⟨fun h => absurd h2 (by omega), fun _ => ?_, fun p _ _ _ => ?_, fun p hp hne => ?_⟩
    · rw [heth, hwire]; rfl
    · exact (spi_setEth ..).trans (hspi p)
    · exact (eth_setEth_ne _ _ h2 hp hne).trans (heth p)
  · rw [if_neg h2, sendPacket_spi _ _ _ _ _ _ hup (by omega)]
    refine ⟨fun _ => ⟨?_, ?_⟩, fun h => absurd h h2, fun p h2p h4p hne => ?_, fun p _ _ => ?_⟩
    · rw [spi_setSpi, hspi]
    · rw [setSpi_wire, hwire]
    · exact (spi_setSpi_ne _ _ (by omega) (by omega) hne).trans (hspi p)
    · exact (eth_setSpi ..).trans (heth p)

/-- Where the journal and the record limits are as they were, the partners, the ports and the wire are what may differ. -/
theorem eq_of_rest {a u : State} (h : u.rest = a.rest) (hj : u.jrn = a.jrn) (hr : u.raised = a.raised) :
    u = ((a.putParts u.parts).putHost u.host).putWire u.wire := by
  calc u = { u.rest with parts := u.parts, jrn := u.jrn, host := u.host, wire := u.wire, raised := u.raised } := rfl
    _ = { a.rest with parts := u.parts, jrn := a.jrn, host := u.host, wire := u.wire, raised := a.raised } := by rw [h, hj, hr]
    _ = _ := rfl

/-! ## Replies without a group (R265, R283) -/

section
variable {k : Pkt} (hp : k.partner ≤ 4) {st : Status} (hst : st ≠ .busyCredit)
include hp hst

theorem early_eq {ws : List Word} (hws : st.ok = true ∨ ws ≠ []) (s : State) : s.early k st ws =
    (s.setPart k.partner { s.part k.partner with lastReply := some (k.seq, (s.part k.partner).credMax) }).sendPacket k.port k.ep k.mac k.partner true none
      (packet true false false k.code k.partner (word k.seq) (s.part k.partner).outKey (replyWord st (s.part k.partner).credMax 0 :: 0 :: ws)) := by
  have hor : st.ok = true ∨ st = .dup ∨ ws ≠ [] := hws.imp_right .inr
  have hnone : ¬ (st = .busyCredit ∨ 4 < k.partner) := fun h => h.elim hst (by omega)
  unfold State.early State.answer
  dsimp only
  have hsome : ¬ (4 < k.partner ∨ st = .busyCredit) := fun h => hnone h.symm
  simp only [if_neg hnone, if_neg hsome, if_pos hor, if_neg (show ¬ 4 < k.partner by omega)]
  rfl
end

/-- An untagged packet passes where its partner needs no tag. -/
theorem authFails_untagged {code : Nat} {env : Env} {ps : List Word} {a : State} {x : Partner} (hreq : x.authReq = false) (htag : env.tag = none) :
    authFails x (pktOf code env ps a) = none := by
  unfold authFails
  simp [pktOf, htag, hreq]
theorem authFails_keyless {code : Nat} {env : Env} {ps : List Word} {a : State} {x : Partner} (hkey : x.key = none) (htag : env.tag.isSome = true) :
    authFails x (pktOf code env ps a) = some 0xF12 := by
  obtain ⟨tag, htag⟩ := Option.isSome_iff_exists.mp htag
  unfold authFails
  simp [pktOf, htag, hkey]
theorem answers_runOp {op : OpSpec} {t : Lapse} {env : Env} {ps : List Word} {s : State} {P : State → Prop}
    (h : P (runPacket (some op) (pktOf op.code env ps (s.elapse t)) (s.elapse t))) : Answers (runOp op t env ps s) P := ⟨_, rfl, h⟩
section
variable {code : Nat} {env : Env} {ps : List Word} {a : State} (hpart : env.partner ≤ 4) {st : Status} (hst : st ≠ .busyCredit) {ws : List Word}
  (hws : st.ok = true ∨ ws ≠ [])
include hpart hst hws

theorem early_replied {b : State} (hup : a.portUp env.port = true) (hhost : b.host = a.host) (hwire : b.wire = a.wire) (hrest : b.rest = a.rest) :
    Replied env (packet true false false code env.partner env.seq (b.part env.partner).outKey (replyWord st (b.part env.partner).credMax 0 :: 0 :: ws)) a
      (b.early (pktOf code env ps a) st ws) := by
  rw [early_eq (k := pktOf code env ps a) hpart hst hws, show word (pktOf code env ps a).seq = env.seq from BitVec.ofNat_toNat ..]
  exact sendPacket_replied env _ ((portUp_of_host hrest hhost _).trans hup) hhost hwire
/-- Its partner's last reply and the port are all that a reply writes. -/
theorem early_writes :
    (let u := a.early (pktOf code env ps a) st ws
    u.part env.partner = { a.part env.partner with lastReply := some (env.seq.toNat, (a.part env.partner).credMax) } ∧
    (∀ i, i < 5 → i ≠ env.partner → u.part i = a.part i) ∧ u = ((a.putParts u.parts).putHost u.host).putWire u.wire) := by
  intro u
  have hu : u = _ := early_eq (k := pktOf code env ps a) hpart hst hws a
  have hparts : u.parts = (a.setPart env.partner { a.part env.partner with lastReply := some (env.seq.toNat, (a.part env.partner).credMax) }).parts := by
    rw [hu, sendPacket_parts]; rfl
  refine ⟨(part_congr hparts _).trans (part_setPart ..), fun i _ hi => (part_congr hparts _).trans (part_setPart_ne _ _ _ _ hi), ?_⟩
  exact eq_of_rest (early_rest ..) (early_jrn ..) (by rw [hu, sendPacket_raised]; rfl)
end

/-! ## PING (R296) -/

section
variable {code : Nat} {env : Env} {ps : List Word} {a : State} (hup : a.portUp env.port = true) (hready : a.pwr.ready = true) (hpart : env.partner ≤ 4)
  (hlen : ps.length ≤ 2048)
include hup hready hpart hlen

/-- Steps 2 to 6 of R284. -/
theorem runPacket_authentic (op : Option OpSpec) (hseq : env.seq ≠ 0 ∨ code = 1 ∨ code = 2) (hrights : 0 < (a.part env.partner).rights)
    (hauth : authFails (a.part env.partner) (pktOf code env ps a) = none) :
    runPacket op (pktOf code env ps a) a =
      if code = 1 then runPing (pktOf code env ps a) a
      else if code = 2 then runHello (pktOf code env ps a) a
      else if !boundHere (a.part env.partner).bind (pktOf code env ps a) then a.unbound (pktOf code env ps a)
      else
        let s := a.bound env
        let k := pktOf code env ps a
        let used := s.ingress env.partner
        let room := decide (used.2.2 + k.words ≤ 131072)
        let isOld := decide (k.seq ≤ (a.part env.partner).lseq)
        let fits := room && (if isOld then decide (used.2.1 < 16) else decide (k.seq ≤ (a.part env.partner).permitted))
        if !fits then
          let s := s.setPart env.partner { s.part env.partner with busy := satN 48 ((a.part env.partner).busy + 1) }
          let last := (a.part env.partner).lastReply.getD (0, 0)
          s.early k .busyCredit [word last.1, word last.2]
        else if (s.host.parse.any fun w => w.k.partner == env.partner) || !s.hasSlots op k s.host.parse.length then
          s.putHost { s.host with parse := s.host.parse ++ [⟨k, isOld⟩] }
        else runParse op k isOld s := by
  have e1 : (pktOf code env ps a).port = env.port := rfl
  have e2 : (pktOf code env ps a).partner = env.partner := rfl
  have e3 : (pktOf code env ps a).seq = env.seq.toNat := rfl
  have e4 : (pktOf code env ps a).code = code := rfl
  have e5 : (pktOf code env ps a).ps = ps := rfl
  have hs : ¬ (env.seq.toNat = 0 ∧ code ≠ 1 ∧ code ≠ 2) := fun ⟨h0, h1, h2⟩ =>
    hseq.elim (fun h => h (BitVec.eq_of_toNat_eq h0)) (fun h => h.elim h1 h2)
  unfold runPacket
  simp only [e1, e2, e3, e4, e5, hup, hready, hauth]
  rw [if_neg (by simp), if_neg (by omega), if_neg (by omega), if_neg hs, if_neg (by simp), if_neg (by omega)]
  rfl

end

/-- Settles O25: from step 6 on a PING is answered at once, whatever its binding and SEQ. -/
theorem pingAnswered : Obligations.PingAnswered := by
  intro t env ps s a prt now reply
  refine ⟨fun hup hready hpart hr hauth hlen => ?_, fun hup hready hpart hr hauth hlen hmax => ?_⟩
  · refine answers_runOp (op := opPing) ?_
    rw [show opPing.code = 1 from rfl, runPacket_authentic hup hready hpart (by omega) _ (.inr (.inl rfl)) hr hauth, if_pos rfl]
    unfold runPing
    rw [if_neg (by exact Nat.not_lt.mpr hlen)]
    exact ⟨early_replied hpart (by decide) (.inl rfl) hup rfl rfl rfl, early_writes hpart (by decide) (.inl rfl)⟩
  · refine answers_runOp (op := opPing) ?_
    rw [show opPing.code = 1 from rfl, runPacket_authentic hup hready hpart hmax _ (.inr (.inl rfl)) hr hauth, if_pos rfl]
    unfold runPing
    rw [if_pos (by exact hlen)]
    exact ⟨early_replied hpart (by decide) (.inr (by simp)) hup rfl rfl rfl, early_writes hpart (by decide) (.inr (by simp))⟩

/-! ## Packets refused before their SEQ is consumed (R284, R286, R290) -/

/-- What a refusal may count, and what it leaves, of a partner. -/
def Partner.account (x : Partner) : Nat × Tab (Option Replay) × Nat × Nat := (x.lseq, x.replays, x.cntGap, x.cntAuth)
theorem turned_of {env : Env} {p : Partner} {a u : State} (h : (u.part env.partner).account = p.account) (hj : u.jrn = a.jrn) (hr : u.rest = a.rest) :
    Turned env p a u := by
  simp only [Partner.account, Prod.mk.injEq] at h
  obtain ⟨hl, hrep, hg, ha⟩ := h
  exact ⟨hl, hrep, hg, ha, hj, hr⟩
theorem early_turned {env : Env} {p : Partner} {a b : State} (h : (b.part env.partner).account = p.account) (hj : b.jrn = a.jrn) (hr : b.rest = a.rest)
    (k : Pkt) (st : Status) (ws : List Word) : Turned env p a (b.early k st ws) := by
  refine turned_of (Eq.trans ?_ h) ((early_jrn ..).trans hj) ((early_rest ..).trans hr)
  unfold State.early
  exact answer_view Partner.account (fun _ _ => rfl) ..
theorem countGap_turned {env : Env} {p : Partner} {a b : State} (h : (b.part env.partner).account = p.account) (hj : b.jrn = a.jrn) (hr : b.rest = a.rest)
    (k : Pkt) (st : Status) (ws : List Word) :
    Turned env { p with cntGap := satN 16 (p.cntGap + 1) } a ((b.countGap env.partner).early k st ws) := by
  refine early_turned (b := b.countGap env.partner) ?_ hj hr ..
  unfold State.countGap
  rw [part_setPart]
  simp only [Partner.account, Prod.mk.injEq] at h ⊢
  obtain ⟨hl, hrep, hg, ha⟩ := h
  exact ⟨hl, hrep, by rw [hg], ha⟩
/-- The original reply again, behind what waits on an SPI port. -/
theorem answer_dup {code : Nat} {env : Env} {ps : List Word} {a b : State} {p : Partner} (hup : a.portUp env.port = true) (hpart : env.partner ≤ 4)
    (hhost : b.host = a.host) (hj : b.jrn = a.jrn) (hr : b.rest = a.rest) (h : (b.part env.partner).account = p.account)
    (held : Option (Bool × Nat)) (hkey : (b.part env.partner).outKey = none) {credit credit' : Nat} (hcredit : credit = credit') (orig jsn : Nat) (ws : List Word) :
    Turned env p a (b.answer (pktOf code env ps a) held .dup orig credit jsn ws) ∧
    (2 ≤ env.port → ((b.answer (pktOf code env ps a) held .dup orig credit jsn ws).spi env.port).tx.map (fun p => p.words) =
      (a.spi env.port).tx.map (fun p => p.words) ++ [packet true false false code env.partner env.seq none (replyWord .dup credit' orig :: word jsn :: ws)]) := by
  subst hcredit
  refine ⟨turned_of ((answer_view Partner.account (fun _ _ => rfl) ..).trans h) ((answer_jrn ..).trans hj) ((answer_rest ..).trans hr), fun h2 => ?_⟩
  have hupb : b.portUp env.port = true := (portUp_of_host hr hhost _).trans hup
  have h4 : ¬ 4 < env.partner := by omega
  have hcount : ¬ (4 < env.partner ∨ Status.dup = .busyCredit) := by simp [h4]
  unfold State.answer
  dsimp only
  rw [show (pktOf code env ps a).partner = env.partner from rfl, show (pktOf code env ps a).port = env.port from rfl,
    show word (pktOf code env ps a).seq = env.seq from BitVec.ofNat_toNat .., if_neg hcount, if_neg h4, hkey, if_pos (.inr (.inl rfl)),
    sendPacket_spi _ _ _ _ _ _ ?hup h2, spi_setSpi, List.map_append]
  · exact congrArg (· ++ _) (congrArg _ (congrArg SpiPort.tx (by unfold State.spi; rw [← hhost]; rfl)))
  · exact hupb
section
variable {code : Nat} {env : Env} {ps : List Word} {a : State} (hup : a.portUp env.port = true) (hready : a.pwr.ready = true) (hpart : env.partner ≤ 4)
  (hlen : ps.length ≤ 2048)

/-- Nothing happens on a port that is down. -/
theorem runPacket_down (op : Option OpSpec) (h : a.portUp env.port = false) : runPacket op (pktOf code env ps a) a = a := by
  unfold runPacket
  rw [show (pktOf code env ps a).port = env.port from rfl, h]
  rfl
include hup hready hpart hlen
theorem runPacket_rightless (op : Option OpSpec) (hseq : env.seq ≠ 0) (h : (a.part env.partner).rights = 0) :
    runPacket op (pktOf code env ps a) a = a.early (pktOf code env ps a) .notPermitted [word 0xF01] := by
  have e1 : (pktOf code env ps a).port = env.port := rfl
  have e2 : (pktOf code env ps a).partner = env.partner := rfl
  have e5 : (pktOf code env ps a).ps = ps := rfl
  have hs : (pktOf code env ps a).seq ≠ 0 := fun h0 => hseq (BitVec.eq_of_toNat_eq h0)
  unfold runPacket
  simp only [e1, e2, e5, hup, hready]
  rw [if_neg (by simp), if_neg (by omega), if_neg (by omega), if_neg fun hc => hs hc.1, if_neg (by simp), if_pos h]
theorem runPacket_unauthentic (op : Option OpSpec) (hseq : env.seq ≠ 0) (hr : 0 < (a.part env.partner).rights) {r : Nat}
    (hauth : authFails (a.part env.partner) (pktOf code env ps a) = some r) :
    runPacket op (pktOf code env ps a) a = (a.countAuth env.partner).early (pktOf code env ps a) .badAuth [word r] := by
  have e1 : (pktOf code env ps a).port = env.port := rfl
  have e2 : (pktOf code env ps a).partner = env.partner := rfl
  have e5 : (pktOf code env ps a).ps = ps := rfl
  have hs : (pktOf code env ps a).seq ≠ 0 := fun h0 => hseq (BitVec.eq_of_toNat_eq h0)
  unfold runPacket
  simp only [e1, e2, e5, hup, hready, hauth]
  rw [if_neg (by simp), if_neg (by omega), if_neg (by omega), if_neg fun hc => hs hc.1, if_neg (by simp), if_neg (by omega)]
/-- A tag without a key (step 6). -/
theorem runPacket_keyless (op : Option OpSpec) (hseq : env.seq ≠ 0) (hr : 0 < (a.part env.partner).rights) (hkey : (a.part env.partner).key = none)
    (htag : env.tag.isSome = true) :
    Turned env { a.part env.partner with cntAuth := satN 16 ((a.part env.partner).cntAuth + 1) } a (runPacket op (pktOf code env ps a) a) := by
  rw [runPacket_unauthentic hup hready hpart hlen op hseq hr (authFails_keyless hkey htag)]
  exact early_turned (congrArg Partner.account (part_setPart ..)) rfl rfl ..
variable (h1 : code ≠ 1) (h2 : code ≠ 2)
include h1 h2
/-- A partner without rights or without a binding (steps 5 and 7). -/
theorem runPacket_unadmitted (op : Option OpSpec) (hseq : env.seq ≠ 0)
    (h : (a.part env.partner).rights = 0 ∨ ((a.part env.partner).authReq = false ∧ env.tag = none ∧ boundHere (a.part env.partner).bind (pktOf code env ps a) = false)) :
    Turned env (a.part env.partner) a (runPacket op (pktOf code env ps a) a) := by
  by_cases hr : (a.part env.partner).rights = 0
  · rw [runPacket_rightless hup hready hpart hlen op hseq hr]
    exact early_turned rfl rfl rfl ..
  · obtain ⟨hreq, htag, hbound⟩ := h.resolve_left hr
    rw [runPacket_authentic hup hready hpart hlen op (.inl hseq) (by omega) (authFails_untagged hreq htag), if_neg h1, if_neg h2, if_pos (by simp [hbound])]
    unfold State.unbound
    dsimp only
    split
    · exact early_turned (congrArg Partner.account (part_congr (setEth_parts ..) _)) (setEth_jrn ..) (setEth_rest ..) ..
    · exact early_turned rfl rfl rfl ..
variable (hseq : env.seq ≠ 0) (hr : 0 < (a.part env.partner).rights) (hreq : (a.part env.partner).authReq = false) (htag : env.tag = none)
  (hbound : boundHere (a.part env.partner).bind (pktOf code env ps a) = true) (hqueue : ∀ w, w ∈ a.host.parse → w.k.partner ≠ env.partner)
  (hroom : (a.ingress env.partner).2.2 + (pktOf code env ps a).words ≤ 131072)
include hseq hr hreq htag hbound hqueue hroom
/-- A bound partner's untagged packet that is not its next command goes on to step 9 where ingress has its room. -/
theorem runPacket_parsed (op : Option OpSpec) (hnew : (a.part env.partner).lseq + 1 ≠ env.seq.toNat)
    (hfit : if env.seq.toNat ≤ (a.part env.partner).lseq then (a.ingress env.partner).2.1 < 16 else env.seq.toNat ≤ (a.part env.partner).permitted) :
    runPacket op (pktOf code env ps a) a =
      runParse op (pktOf code env ps a) (decide (env.seq.toNat ≤ (a.part env.partner).lseq)) (a.bound env) := by
  have hi : (a.bound env).ingress env.partner = a.ingress env.partner := rfl
  have hl : ((a.bound env).part env.partner).lseq = (a.part env.partner).lseq := bound_part_view (fun x : Partner => x.lseq) (fun _ _ => rfl) ..
  have hbehind : ((a.bound env).host.parse.any fun w => w.k.partner == env.partner) = false :=
    List.any_eq_false.mpr fun w hw => by simpa using hqueue w hw
  have hslots : (a.bound env).hasSlots op (pktOf code env ps a) (a.bound env).host.parse.length = true := by
    unfold State.hasSlots State.entriesOf
    rw [show (pktOf code env ps a).partner = env.partner from rfl, show (pktOf code env ps a).seq = env.seq.toNat from rfl, hl,
      if_neg fun h => hnew h.1]
    rfl
  rw [runPacket_authentic hup hready hpart hlen op (.inl hseq) hr (authFails_untagged hreq htag), if_neg h1, if_neg h2, if_neg (by simp [hbound])]
  simp only [hi, hbehind, hslots, show (pktOf code env ps a).seq = env.seq.toNat from rfl]
  rw [if_neg, if_neg (by simp)]
  simp only [hroom, decide_true, Bool.true_and, decide_eq_true_eq, Bool.not_eq_true']
  split at hfit <;> simp_all
/-- A SEQ past the next one (R285). -/
theorem runPacket_gap (op : Option OpSpec) (hgap : (a.part env.partner).lseq + 1 < env.seq.toNat) (hperm : env.seq.toNat ≤ (a.part env.partner).permitted) :
    Turned env { a.part env.partner with cntGap := satN 16 ((a.part env.partner).cntGap + 1) } a (runPacket op (pktOf code env ps a) a) := by
  rw [runPacket_parsed hup hready hpart hlen h1 h2 hseq hr hreq htag hbound hqueue hroom op (by omega) (by rw [if_neg (by omega)]; exact hperm)]
  have hl : ((a.bound env).part env.partner).lseq = (a.part env.partner).lseq := bound_part_view (fun x : Partner => x.lseq) (fun _ _ => rfl) ..
  have hpkt : (pktOf code env ps a).partner = env.partner ∧ (pktOf code env ps a).seq = env.seq.toNat := ⟨rfl, rfl⟩
  unfold runParse
  dsimp only
  rw [hpkt.1, hpkt.2, hl, if_pos hgap]
  exact countGap_turned (bound_part_view Partner.account (fun _ _ => rfl) ..) rfl rfl ..
/-- A SEQ whose reply is kept, of a command that is not read-only (R286). -/
theorem runPacket_dup {op : OpSpec} (hreads : op.reads = false) {r : Replay} (hold : env.seq.toNat ≤ (a.part env.partner).lseq)
    (hextra : (a.ingress env.partner).2.1 < 16) (hkept : (a.part env.partner).lseq ≤ env.seq.toNat + 16383)
    (hrep : tget none (env.seq.toNat % 16384) (a.part env.partner).replays = some r) (hrs : r.seq = env.seq.toNat) :
    Turned env (a.part env.partner) a (runPacket (some op) (pktOf code env ps a) a) ∧
    (2 ≤ env.port → ((runPacket (some op) (pktOf code env ps a) a).spi env.port).tx.map (fun p => p.words) = (a.spi env.port).tx.map (fun p => p.words) ++
      [packet true false false code env.partner env.seq none (replyWord .dup (a.part env.partner).credMax r.status :: word r.jsn :: r.words)]) := by
  have hb : ∀ {γ : Type} (f : Partner → γ), (∀ (x : Partner) (b : Option Binding), f { x with bind := b } = f x) →
      f ((a.bound env).part env.partner) = f (a.part env.partner) := fun f hf => bound_part_view f hf env a env.partner
  have hl := hb (fun x => x.lseq) fun _ _ => rfl
  have hpkt : (pktOf code env ps a).partner = env.partner ∧ (pktOf code env ps a).seq = env.seq.toNat := ⟨rfl, rfl⟩
  rw [runPacket_parsed hup hready hpart hlen h1 h2 hseq hr hreq htag hbound hqueue hroom _ (by omega) (by rw [if_pos hold]; exact hextra)]
  unfold runParse
  dsimp only
  rw [hpkt.1, hpkt.2, hl, if_neg (by omega), if_pos hold, if_neg (by omega), Option.getD_some]
  unfold runDup
  dsimp only
  rw [hpkt.1, hpkt.2, hb (fun x => x.replays) (fun _ _ => rfl), hrep]
  dsimp only
  rw [if_neg (by simp [hrs]), hreads]
  simp only [Bool.and_false, Bool.false_and, Bool.false_eq_true, if_false, false_and]
  refine answer_dup (b := (a.bound env).setPart env.partner _) hup hpart rfl rfl (setPart_rest ..) ?_ _ ?_ (hb (fun x => x.credMax) fun _ _ => rfl) ..
  · rw [part_setPart]
    exact hb Partner.account fun _ _ => rfl
  · rw [part_setPart]
    exact (hb Partner.outKey fun _ _ => rfl).trans (by unfold Partner.outKey; rw [hreq]; rfl)
end

/-- What every opcode but PING and HELLO answers alike, SCHED_ADD, MODE_SET and QTY_CONFIG answer. -/
theorem answers_three {t : Lapse} {env : Env} {ps : List Word} {s : State} {P : State → Prop}
    (h : ∀ op : OpSpec, op.code ≠ 1 → op.code ≠ 2 → P (runPacket (some op) (pktOf op.code env ps (s.elapse t)) (s.elapse t))) :
    Answers (exec (.schedAdd t env ps) s) P ∧ Answers (exec (.modeSet t env ps) s) P ∧ Answers (exec (.qtyConfig t env ps) s) P :=
  ⟨answers_runOp (h opSchedAdd (by decide) (by decide)), answers_runOp (h opModeSet (by decide) (by decide)),
    answers_runOp (h opQtyConfig (by decide) (by decide))⟩

/-- Settles O29: each of the three commands is one packet whose own checks are never reached. -/
theorem refusedPackets : Obligations.RefusedPackets := by
  refine ⟨fun t env ps s => ?_, fun t env ps s r => ?_⟩
  · intro a prt k
    refine ⟨fun h => ⟨?_, ?_, ?_⟩, fun hup hready hpart hseq hlen h => answers_three fun op h1 h2 => ?_,
      fun hup hready hpart hseq hlen hr hkey htag => answers_three fun op h1 h2 => ?_,
      fun hup hready hpart hlen hr hreq htag hbound hqueue hroom hgap hperm => answers_three fun op h1 h2 => ?_⟩
    · exact congrArg Host.Outcome.next (runPacket_down (some opSchedAdd) h)
    · exact congrArg Host.Outcome.next (runPacket_down (some opModeSet) h)
    · exact congrArg Host.Outcome.next (runPacket_down (some opQtyConfig) h)
    · exact runPacket_unadmitted hup hready hpart hlen h1 h2 _ hseq h
    · exact runPacket_keyless hup hready hpart hlen _ hseq hr hkey htag
    · have hseq : env.seq ≠ 0 := fun h => by simp [h] at hgap
      exact runPacket_gap hup hready hpart hlen h1 h2 hseq hr hreq htag hbound hqueue hroom _ hgap hperm
  · intro a prt k old dup hup hready hpart hseq hlen hr hreq htag hbound hqueue hextra hroom hold hkept hrep hrs
    have each := fun {op : OpSpec} (hreads : op.reads = false) (h1 : op.code ≠ 1) (h2 : op.code ≠ 2) =>
      runPacket_dup (op := op) hup hready hpart hlen h1 h2 hseq hr hreq htag hbound hqueue hroom hreads hold hextra hkept hrep hrs
    exact ⟨⟨_, rfl, each (op := opSchedAdd) rfl (by decide) (by decide)⟩, ⟨_, rfl, each (op := opModeSet) rfl (by decide) (by decide)⟩,
      ⟨_, rfl, each (op := opQtyConfig) rfl (by decide) (by decide)⟩⟩

end Sys2Proof.Machine
end

section
/-! EVENT_ACK and EVENT_RESYNC (R316, R317) (O27, O28). -/
namespace Sys2Proof.Machine
open Sys2Proof

/-! ## A command that is answered after its effect (R26) -/

theorem consumed_view {γ : Type} (f : Partner → γ) (hf : ∀ (x : Partner) l r b, f { x with lseq := l, replays := r, bind := b } = f x)
    (op : Option OpSpec) (k : Pkt) (v : Verdict) (env : Env) (a : State) (q : Nat) : f (((a.bound env).consume op k v).part q) = f (a.part q) :=
  (consume_view f (fun x l r => hf x l r x.bind) ..).trans (bound_part_view f (fun x b => hf x x.lseq x.replays b) ..)

/-- What an arrived packet's effect finds: the packet is consumed, and its partner bound where it came from. -/
structure Taken (env : Env) (a c : State) : Prop where
  rest : c.rest = a.rest
  host : c.host = a.host
  view : ∀ {γ : Type} (f : Partner → γ), (∀ (x : Partner) l r b, f { x with lseq := l, replays := r, bind := b } = f x) → ∀ q, f (c.part q) = f (a.part q)
  bind : (c.part env.partner).bind = some ⟨env.port, if env.port < 2 then env.ep else .spi, env.mac⟩
  room : a.jsnFar → c.jsnRoom 15
theorem consume_taken (op : Option OpSpec) (k : Pkt) (v : Verdict) (env : Env) (a : State) : Taken env a ((a.bound env).consume op k v) where
  rest := (consume_rest ..).trans (bound_rest ..)
  host := consume_host ..
  view f hf _ := consumed_view f hf ..
  bind := (consume_view (fun x : Partner => x.bind) (fun _ _ _ => rfl) ..).trans (congrArg Partner.bind (part_setPart ..))
  room h := consume_room (n := 15) op k v (s := a.bound env) h
/-- What completes such a command, whether its own checks pass it or not. -/
theorem runOp_late (op : OpSpec) (t : Lapse) (env : Env) (ps : List Word) (rights : Nat) (s : State) (v : Verdict)
    (h : (s.elapse t).admits op.code rights op.modes env ps = true) (hcode : 3 < op.code) (hr : op.rights ≤ rights)
    (hv : op.eval (pktOf op.code env ps (s.elapse t)) ((s.elapse t).bound env) = v) (hlate : v.status ≠ .accepted)
    (hroom : entriesFor ((v.stored.getD ps).length + v.reply.length) + v.promise ≤ 1000)
    (hact : ∀ j b, ((v.act j b).part env.partner).lseq = (b.part env.partner).lseq ∧ ((v.act j b).part env.partner).replays = (b.part env.partner).replays) :
    ∃ c, Taken env (s.elapse t) c ∧ Completes op.code v.status.code v.reply env (s.elapse t) (runOp op t env ps s) fun u =>
      u = (v.act (s.elapse t).jrn.next c).replyNew (pktOf op.code env ps (s.elapse t)) ((pktOf op.code env ps (s.elapse t)).held false) v (s.elapse t).jrn.next := by
  have hle : v.words.length ≤ v.reply.length := by unfold Verdict.reply; split <;> simp_all
  have hmono : entriesFor ((v.stored.getD ps).length + v.words.length) ≤ entriesFor ((v.stored.getD ps).length + v.reply.length) := by
    unfold entriesFor; omega
  have hj := judge_eval op env ps rights op.modes _ v h hr rfl hv (by omega)
  obtain ⟨u, hu, hshow, -⟩ := runOp_judged op t env ps rights op.modes s v h (by omega) (by omega) (by omega) hj (by omega) hact
  have hnew := runPacket_new op env ps rights op.modes _ h (by omega) (by omega) (by omega) (by rw [hj]; exact newGroup_entries _ _ _ (le_trans (Nat.le_add_right _ v.promise) hroom))
  have hrun : runNew (some op) (pktOf op.code env ps (s.elapse t)) ((pktOf op.code env ps (s.elapse t)).held false) ((s.elapse t).bound env) =
      (v.act (s.elapse t).jrn.next (((s.elapse t).bound env).consume (some op) (pktOf op.code env ps (s.elapse t)) v)).replyNew
        (pktOf op.code env ps (s.elapse t)) ((pktOf op.code env ps (s.elapse t)).held false) v (s.elapse t).jrn.next := by
    unfold runNew
    rw [hj]; dsimp only
    rw [if_neg hlate]
    rfl
  exact ⟨_, consume_taken .., u, hu, hshow, (Host.Outcome.next.inj (hu.symm.trans (congrArg Host.Outcome.next hnew))).trans hrun⟩
theorem shown_of_shows {code status : Nat} {words : List Word} {env : Env} {a u : State} (h : Shows code status words env a u) : Shown code status env a u := by
  obtain ⟨hl, hr⟩ := h
  refine ⟨hl, ?_⟩
  have := congrArg (Option.map fun x : Nat × Nat × Nat × Nat × List Word => (x.1, x.2.1, x.2.2.1, x.2.2.2.1)) hr
  simpa [Option.map_map, Function.comp_def] using this
theorem jsnRoom_zero {n : Nat} {s : State} (h : s.jsnRoom n) : s.jsnRoom 0 := jsnRoom_mono (Nat.le_add_right _ n) rfl h
/-- While JSNs are left, a reply leaves of a partner what neither its credit nor its last reply shows. -/
theorem replyNew_view {γ : Type} (f : Partner → γ) (hf : ∀ (x : Partner) pm lr, f { x with permit := pm, lastReply := lr } = f x) {s : State}
    (h : s.jsnRoom 0) (k : Pkt) (held : Option (Bool × Nat)) (v : Verdict) (jsn q : Nat) : f ((s.replyNew k held v jsn).part q) = f (s.part q) := by
  unfold State.replyNew
  dsimp only
  rw [jsnCheck_far]
  · refine (answer_view f (fun x r => hf x x.permit r) ..).trans ?_
    exact setPart_view f s k.partner _ (hf _ _ (s.part k.partner).lastReply) q
  · unfold State.jsnRoom
    rw [answer_jrn]; exact h
/-- A command that its own checks refuse leaves its partner's stream alone. -/
theorem refused_keepsStream {op : OpSpec} {t : Lapse} {env : Env} {ps : List Word} {rights : Nat} {s : State} {st : Status} {w : Word}
    (h : (s.elapse t).admits op.code rights op.modes env ps = true) (hcode : 3 < op.code) (hr : op.rights ≤ rights)
    (hv : op.eval (pktOf op.code env ps (s.elapse t)) ((s.elapse t).bound env) = refuse st [w]) (hlate : st ≠ .accepted)
    (hroom : entriesFor (ps.length + [w].length) + 0 ≤ 1000) :
    Completes op.code st.code [w] env (s.elapse t) (runOp op t env ps s) fun u =>
      ((s.elapse t).jsnFar → (u.part env.partner).ev = ((s.elapse t).part env.partner).ev) ∧ u.rest = (s.elapse t).rest := by
  obtain ⟨c, hc, u, hu, hshow, heq⟩ := runOp_late op t env ps rights s _ h hcode hr hv hlate hroom (fun _ _ => ⟨rfl, rfl⟩)
  dsimp only [refuse] at heq
  refine ⟨u, hu, hshow, fun hfar => ?_, ?_⟩
  · rw [heq, replyNew_view (fun y => y.ev) (fun _ _ _ => rfl) (jsnRoom_zero (hc.room hfar))]
    exact hc.view (fun y => y.ev) (fun _ _ _ _ => rfl) _
  · rw [heq, replyNew_rest]
    exact hc.rest
theorem portUp_of_admits {code rights modes : Nat} {env : Env} {ps : List Word} {a : State} (h : a.admits code rights modes env ps = true) :
    a.portUp env.port = true := by
  simp only [State.admits, Bool.and_eq_true, decide_eq_true_eq] at h
  exact h.1.1.1.1.1.1.1.1.1.1.1.1.1.1.1.1
theorem ready_of_admits {code rights modes : Nat} {env : Env} {ps : List Word} {a : State} (h : a.admits code rights modes env ps = true) :
    a.pwr.ready = true := by
  simp only [State.admits, Bool.and_eq_true, decide_eq_true_eq] at h
  exact h.1.1.1.1.1.1.1.1.1.1.1.1.1.2

/-! ## The oldest unacknowledged record -/

theorem sendRecs_ackFirst (p : Nat) (s : State) (q : Nat) : ((s.sendRecs p).part q).ev.ackFirst = (s.part q).ev.ackFirst := by
  unfold State.sendRecs
  split
  · rfl
  · split
    · refine (foldl_keeps (fun t : State => (t.part q).ev.ackFirst) _ (fun t r => congrArg (fun x : Partner => x.ev.ackFirst) (sendPacket_part ..)) _ _).trans ?_
      refine setPart_view (fun x : Partner => x.ev.ackFirst) s p _ ?_ q
      rfl
    · rfl
theorem form_ackFirst (p : Nat) (vol : Bool) (ws : List Word) (s : State) (q : Nat) : ((s.form p vol ws).part q).ev.ackFirst = (s.part q).ev.ackFirst := by
  unfold State.form
  dsimp only
  split
  · rfl
  · rw [sendRecs_ackFirst]
    by_cases hq : q = p
    · subst hq
      rw [part_setPart]
      split
      · rfl
      · split <;> rfl
    · rw [part_setPart_ne _ _ _ _ hq, part_putJrn, seal_part]
theorem jsnCheck_ackFirst (s : State) (q : Nat) : (s.jsnCheck.part q).ev.ackFirst = (s.part q).ev.ackFirst := by
  unfold State.jsnCheck
  split
  · exact foldl_keeps (fun t : State => (t.part q).ev.ackFirst) _ (fun t p => form_ackFirst ..) _ _
  · rfl
theorem replyNew_ackFirst (k : Pkt) (held : Option (Bool × Nat)) (v : Verdict) (jsn : Nat) (s : State) (q : Nat) :
    ((s.replyNew k held v jsn).part q).ev.ackFirst = (s.part q).ev.ackFirst := by
  unfold State.replyNew
  dsimp only
  rw [jsnCheck_ackFirst]
  refine (answer_view (fun x : Partner => x.ev.ackFirst) (fun _ _ => rfl) ..).trans ?_
  refine setPart_view (fun x : Partner => x.ev.ackFirst) s k.partner _ ?_ q
  rfl

/-! ## Acknowledgement (R316) -/

section
variable {p x : Nat} {b : State}

theorem ackEsn_stale (h : x < (b.part p).ev.ackFirst) : b.ackEsn p x = b := by
  unfold State.ackEsn
  exact if_pos h
variable (h : (b.part p).ev.ackFirst ≤ x)
include h
theorem ackEsn_ackFirst : ((b.ackEsn p x).part p).ev.ackFirst = x + 1 := by
  unfold State.ackEsn
  dsimp only
  rw [if_neg (by omega)]
  split
  · split
    · unfold State.record
      rw [jsnCheck_ackFirst, form_ackFirst, part_setPart]
    · rw [part_setPart]
  · rw [part_setPart]
/-- With no OVERFLOW range to close, the stream is cut and nothing else of the partner changes. -/
theorem ackEsn_open (hkept : (b.part p).ev.kept = none ∨ 49152 < ((b.part p).ev.recs.filter fun r => decide (x < r.esn)).length) :
    ((b.ackEsn p x).part p).ev.recs = ((b.part p).ev.recs.filter fun r => decide (x < r.esn)) ∧ (b.ackEsn p x).esn p = b.esn p ∧
    (b.ackEsn p x).jrn.next = b.jrn.next ∧ (b.ackEsn p x).jrn.jsnLow = b.jrn.jsnLow ∧ (b.ackEsn p x).host = b.host := by
  unfold State.ackEsn
  dsimp only
  rw [if_neg (by omega)]
  split
  · next f l hk =>
    have hmany := hkept.resolve_left (by rw [hk]; exact Option.some_ne_none _)
    rw [if_neg (by omega)]
    refine ⟨by rw [part_setPart], ?_, rfl, rfl, rfl⟩
    unfold State.esn
    rw [part_setPart]
  · refine ⟨by rw [part_setPart], ?_, rfl, rfl, rfl⟩
    unfold State.esn
    rw [part_setPart]
/-- A range that closes ends with its record. -/
theorem ackEsn_closes {r : Nat × Nat} (hk : (b.part p).ev.kept = some r)
    (hfew : ((b.part p).ev.recs.filter fun r => decide (x < r.esn)).length ≤ 49152) :
    ∃ (c : State) (ws : List Word), b.ackEsn p x = c.record p false ws ∧ c.esn p = b.esn p ∧ (c.part p).rights = (b.part p).rights ∧
      c.jrn.next = b.jrn.next ∧ c.jrn.jsnLow = b.jrn.jsnLow := by
  unfold State.ackEsn
  dsimp only
  rw [if_neg (by omega), hk]
  dsimp only
  rw [if_pos hfew]
  refine ⟨_, _, rfl, ?_, ?_, rfl, rfl⟩
  · unfold State.esn
    rw [part_setPart]
  · rw [part_setPart]
/-- A range that closes forms one record more, and takes one JSN at most. -/
theorem ackEsn_room {n : Nat} (hr : 0 < (b.part p).rights) (hroom : b.jsnRoom (n + 1)) :
    (b.ackEsn p x).esn p = b.esn p +
      (if (b.part p).ev.kept.isSome = true ∧ ((b.part p).ev.recs.filter fun r => decide (x < r.esn)).length ≤ 49152 then 1 else 0) ∧
    (b.ackEsn p x).jsnRoom n := by
  by_cases hopen : (b.part p).ev.kept = none ∨ 49152 < ((b.part p).ev.recs.filter fun r => decide (x < r.esn)).length
  · obtain ⟨-, hesn, hnext, hlow, -⟩ := ackEsn_open h hopen
    rw [if_neg (fun hc => hopen.elim (fun hk => by simp [hk] at hc) (fun hk => by omega))]
    exact ⟨hesn, jsnRoom_mono (by omega) hlow hroom⟩
  · obtain ⟨hk, hfew⟩ := not_or.mp hopen
    obtain ⟨r, hk⟩ := Option.ne_none_iff_exists'.mp hk
    obtain ⟨c, ws, heq, hesn, hrights, hnext, hlow⟩ := ackEsn_closes h hk (by omega)
    have hc : c.jsnRoom (n + 1) := jsnRoom_mono (by omega) hlow hroom
    rw [if_pos ⟨by rw [hk]; rfl, by omega⟩, heq, record_esn (jsnRoom_mono (by omega) rfl hc), hesn]
    refine ⟨congrArg _ ?_, record_room hc ..⟩
    unfold State.oneMore
    rw [hrights, if_neg (by omega)]
end

theorem bound_ev (env : Env) (a : State) (q : Nat) : ((a.bound env).part q).ev = (a.part q).ev :=
  bound_part_view (fun x : Partner => x.ev) (fun _ _ => rfl) ..
section
variable {k : Pkt} {s : State} (hlen : k.ps.length = 1)
include hlen

theorem opEventAck_new (h : (arg k.ps 0).toNat < (s.part k.partner).ev.nextEsn) :
    opEventAck.eval k s = doneWith [word ((s.ackEsn k.partner (arg k.ps 0).toNat).part k.partner).ev.ackFirst,
      word ((s.ackEsn k.partner (arg k.ps 0).toNat).part k.partner).ev.nextEsn] fun _ s => s.ackEsn k.partner (arg k.ps 0).toNat := by
  unfold opEventAck
  dsimp only
  rw [if_neg (by omega), if_neg (by omega)]
theorem opEventAck_ahead (h : (s.part k.partner).ev.nextEsn ≤ (arg k.ps 0).toNat) : opEventAck.eval k s = refuse .badParam [0] := by
  unfold opEventAck
  dsimp only
  rw [if_neg (by omega), if_pos h]
  rfl
end

/-- Settles O27: above the present acknowledgement the stream is cut, with one OVERFLOW record where a range closes by it; otherwise nothing is cut. -/
theorem eventAckRule : Obligations.EventAckRule := by
  intro t env ps s a ev x left more
  have hsize : ∀ (ws : List Word), ws.length ≤ 2 → a.admits 0x0E2 1 0xFFE env ps = true → entriesFor (ps.length + ws.length) + 0 ≤ 1000 := fun ws hw h => by
    have := params_le_of_admits h; unfold entriesFor; omega
  have hact : ∀ b : State, ((b.ackEsn env.partner x).part env.partner).lseq = (b.part env.partner).lseq ∧
      ((b.ackEsn env.partner x).part env.partner).replays = (b.part env.partner).replays := fun b => ⟨ackEsn_part_lseq .., ackEsn_part_replays ..⟩
  have hb := bound_ev env a env.partner
  refine ⟨fun h hlen hlo hhi => ?_, fun h hlen hlo hhi => ?_, fun h hlen hhi => ?_⟩
  · have hr : 0 < (a.part env.partner).rights := rights_of_admits h
    have hv : opEventAck.eval (pktOf 0x0E2 env ps a) (a.bound env) = doneWith [word (((a.bound env).ackEsn env.partner x).part env.partner).ev.ackFirst,
        word (((a.bound env).ackEsn env.partner x).part env.partner).ev.nextEsn] fun _ s => s.ackEsn env.partner x :=
      opEventAck_new (k := pktOf 0x0E2 env ps a) hlen (lt_of_lt_of_eq hhi (congrArg Stream.nextEsn hb).symm)
    obtain ⟨c, hc, u, hu, hshow, heq⟩ := runOp_late opEventAck t env ps 1 s _ h (by decide) le_rfl hv (by exact Status.noConfusion) (hsize [_, _] le_rfl h) (fun _ => hact)
    have hev : (c.part env.partner).ev = ev := hc.view (fun y => y.ev) (fun _ _ _ _ => rfl) _
    have hcr : (c.part env.partner).rights = (a.part env.partner).rights := hc.view (fun y => y.rights) (fun _ _ _ _ => rfl) _
    refine ⟨u, hu, shown_of_shows hshow, ?_, ?_, fun hfar => ?_⟩
    · rw [heq, replyNew_ackFirst]
      exact ackEsn_ackFirst (by rw [hev]; exact hlo)
    · rw [heq, replyNew_rest]
      exact (ackEsn_rest ..).trans hc.rest
    · obtain ⟨hesn, hroom⟩ := ackEsn_room (n := 14) (p := env.partner) (x := x) (by rw [hev]; exact hlo) (by rw [hcr]; exact hr) (hc.room hfar)
      have hfirst : (((a.bound env).ackEsn env.partner x).part env.partner).ev.ackFirst = x + 1 := ackEsn_ackFirst (by rw [hb]; exact hlo)
      have hnext := (ackEsn_room (n := 15) (p := env.partner) (x := x) (b := a.bound env) (by rw [hb]; exact hlo)
        (by rw [bound_part_view (fun y : Partner => y.rights) (fun _ _ => rfl)]; exact hr) hfar).1
      unfold State.esn at hesn hnext
      rw [hev] at hesn
      rw [hb] at hnext
      rw [hfirst, hnext] at hshow
      dsimp only [doneWith] at heq
      refine ⟨hshow, ?_, fun hmore => ?_⟩
      · rw [heq, replyNew_view (fun y => y.ev.nextEsn) (fun _ _ _ => rfl) (jsnRoom_zero hroom)]
        exact hesn
      · have hopen : ev.kept = none ∨ 49152 < left.length := by
          by_contra hc
          obtain ⟨hk, hfew⟩ := not_or.mp hc
          exact absurd hmore (by rw [show more = 1 from if_pos ⟨Option.isSome_iff_ne_none.mpr hk, by omega⟩]; decide)
        rw [heq, replyNew_view (fun y => y.ev.recs) (fun _ _ _ => rfl) (jsnRoom_zero hroom)]
        exact (ackEsn_open (p := env.partner) (b := c) (by rw [hev]; exact hlo) (by rw [hev]; exact hopen)).1.trans (by rw [hev])
  · have hv : opEventAck.eval (pktOf 0x0E2 env ps a) (a.bound env) = doneWith [word ev.ackFirst, word ev.nextEsn] fun _ s => s.ackEsn env.partner x := by
      have hstale : (a.bound env).ackEsn env.partner x = a.bound env := ackEsn_stale (by rw [hb]; exact hlo)
      refine (opEventAck_new (k := pktOf 0x0E2 env ps a) hlen (lt_of_lt_of_eq hhi (congrArg Stream.nextEsn hb).symm)).trans ?_
      rw [show (a.bound env).ackEsn (pktOf 0x0E2 env ps a).partner (arg (pktOf 0x0E2 env ps a).ps 0).toNat = a.bound env from hstale,
        show ((a.bound env).part (pktOf 0x0E2 env ps a).partner).ev = ev from hb]
      rfl
    obtain ⟨c, hc, u, hu, hshow, heq⟩ := runOp_late opEventAck t env ps 1 s _ h (by decide) le_rfl hv (by exact Status.noConfusion) (hsize [_, _] le_rfl h) (fun _ => hact)
    have hev : (c.part env.partner).ev = ev := hc.view (fun y => y.ev) (fun _ _ _ _ => rfl) _
    rw [show (doneWith _ fun _ s => s.ackEsn env.partner x).act _ c = c from ackEsn_stale (by rw [hev]; exact hlo)] at heq
    refine ⟨u, hu, hshow, fun hfar => ?_, ?_⟩
    · rw [heq, replyNew_view (fun y => y.ev) (fun _ _ _ => rfl) (jsnRoom_zero (hc.room hfar)), hev]
    · rw [heq, replyNew_rest, hc.rest]
  · have hv : opEventAck.eval (pktOf 0x0E2 env ps a) (a.bound env) = refuse .badParam [0] :=
      opEventAck_ahead (k := pktOf 0x0E2 env ps a) hlen (by rw [show (pktOf 0x0E2 env ps a).partner = env.partner from rfl, hb]; exact hhi)
    exact refused_keepsStream (op := opEventAck) h (by decide) le_rfl hv (by exact Status.noConfusion) (hsize [_] (by decide) h)

/-! ## Records sent again (R315, R317) -/

theorem sendPacket_tx {port : Nat} {s : State} (h2 : 2 ≤ port) (ep : Endpoint) (mac : Word) (p : Nat) (r : Bool) (held : Option (Bool × Nat)) (ws : List Word)
    (hup : s.portUp port = true) : ((s.sendPacket port ep mac p r held ws).spi port).tx.length = (s.spi port).tx.length + 1 := by
  rw [sendPacket_spi _ _ _ _ _ _ hup h2, spi_setSpi, List.length_append]
  rfl
theorem sendPackets_tx {α : Type} {port : Nat} (h2 : 2 ≤ port) (ep : Endpoint) (mac : Word) (p : Nat) (r : Bool) (held : Option (Bool × Nat)) (f : α → List Word)
    (l : List α) (s : State) (hup : s.portUp port = true) :
    ((l.foldl (fun s x => s.sendPacket port ep mac p r held (f x)) s).spi port).tx.length = (s.spi port).tx.length + l.length := by
  induction l generalizing s with
  | nil => rfl
  | cons x l ih =>
    rw [List.foldl_cons, ih _ (by rw [sendPacket_portUp]; exact hup), sendPacket_tx h2 _ _ _ _ _ _ hup, List.length_cons]
    omega
section
variable {p : Nat} {s : State} {b : Binding} (hbind : (s.part p).bind = some b) (hup : s.portUp b.port = true) (hready : s.pwr.ready = true)
include hbind hup hready

/-- On a bound port that is up, everything from the cursor on leaves. -/
theorem sendRecs_up : ((s.sendRecs p).part p).ev = { (s.part p).ev with cursor := (s.part p).ev.nextEsn } ∧
    (2 ≤ b.port → ((s.sendRecs p).spi b.port).tx.length =
      (s.spi b.port).tx.length + ((s.part p).ev.recs.filter fun r => decide ((s.part p).ev.cursor ≤ r.esn)).length) := by
  unfold State.sendRecs
  rw [hbind]
  dsimp only
  rw [if_pos ⟨hup, hready⟩]
  refine ⟨?_, fun h2 => ?_⟩
  · refine (foldl_keeps (fun t : State => (t.part p).ev) _ (fun t r => congrArg Partner.ev (sendPacket_part ..)) _ _).trans ?_
    rw [part_setPart]
  · refine (sendPackets_tx (s := s.setPart p _) h2 _ _ _ _ _ _ _ hup).trans ?_
    rfl
theorem resendFrom_up (esn : Nat) : ((s.resendFrom p esn).part p).ev = { (s.part p).ev with cursor := (s.part p).ev.nextEsn } ∧
    (2 ≤ b.port → ((s.resendFrom p esn).spi b.port).tx.length =
      (s.spi b.port).tx.length + ((s.part p).ev.recs.filter fun r => decide (esn ≤ r.esn)).length) := by
  obtain ⟨hev, htx⟩ := sendRecs_up (p := p) (s := s.setPart p { s.part p with ev := { (s.part p).ev with cursor := esn } }) (b := b)
    (by rw [part_setPart]; exact hbind) hup hready
  rw [part_setPart] at hev htx
  exact ⟨hev, htx⟩
end
theorem resendFrom_ackFirst (p esn : Nat) (s : State) : ((s.resendFrom p esn).part p).ev.ackFirst = (s.part p).ev.ackFirst := by
  unfold State.resendFrom
  rw [sendRecs_ackFirst, part_setPart]
theorem resendFrom_jrn (p esn : Nat) (s : State) : (s.resendFrom p esn).jrn = s.jrn := sendRecs_jrn ..
theorem sendRecs_portUp (p : Nat) (s : State) (q : Nat) : (s.sendRecs p).portUp q = s.portUp q := by
  unfold State.sendRecs
  split
  · rfl
  · split
    · exact foldl_keeps (fun t : State => t.portUp q) _ (fun t r => sendPacket_portUp ..) _ _
    · rfl
theorem answer_tx {k : Pkt} {s : State} (hup : s.portUp k.port = true) (h2 : 2 ≤ k.port) (held : Option (Bool × Nat)) (st : Status) (orig credit jsn : Nat)
    (ws : List Word) : ((s.answer k held st orig credit jsn ws).spi k.port).tx.length = (s.spi k.port).tx.length + 1 := by
  unfold State.answer
  dsimp only
  refine (sendPacket_tx h2 _ _ _ _ _ _ ?_).trans ?_
  · split
    · exact hup
    · exact hup
  · split <;> rfl
/-- A reply is queued where its partner is bound. -/
theorem replyNew_tx {k : Pkt} {s : State} {b : Binding} (hfar : s.jsnRoom 0) (hbind : (s.part k.partner).bind = some b) (hup : s.portUp b.port = true)
    (h2 : 2 ≤ b.port) (held : Option (Bool × Nat)) (v : Verdict) (jsn : Nat) :
    ((s.replyNew k held v jsn).spi b.port).tx.length = (s.spi b.port).tx.length + 1 := by
  unfold State.replyNew
  dsimp only
  rw [jsnCheck_far, hbind]
  · exact answer_tx (k := k.toBound (some b)) (s := s.setPart k.partner _) hup h2 ..
  · unfold State.jsnRoom
    rw [answer_jrn]; exact hfar

/-! ## EVENT_RESYNC (R317) -/

section
variable {k : Pkt} {s : State} (hlen : k.ps.length = 1)
include hlen

theorem opEventResync_new (h : (arg k.ps 0).toNat ≤ (s.part k.partner).ev.nextEsn) (hlo : (s.part k.partner).ev.ackFirst ≤ (arg k.ps 0).toNat) :
    opEventResync.eval k s = doneWith [word ((s.ackEsn k.partner ((arg k.ps 0).toNat - 1)).part k.partner).ev.ackFirst,
      word ((s.ackEsn k.partner ((arg k.ps 0).toNat - 1)).part k.partner).ev.nextEsn]
      fun _ s => (s.ackEsn k.partner ((arg k.ps 0).toNat - 1)).resendFrom k.partner (arg k.ps 0).toNat := by
  unfold opEventResync
  dsimp only
  rw [if_neg (by omega), if_neg (by omega), if_neg (by omega)]
theorem opEventResync_ahead (h : (s.part k.partner).ev.nextEsn < (arg k.ps 0).toNat) : opEventResync.eval k s = refuse .badParam [0] := by
  unfold opEventResync
  dsimp only
  rw [if_neg (by omega), if_pos h]
  rfl
theorem opEventResync_below (h : (arg k.ps 0).toNat ≤ (s.part k.partner).ev.nextEsn) (hlo : (arg k.ps 0).toNat < (s.part k.partner).ev.ackFirst) :
    opEventResync.eval k s = refuse .notPermitted [1] := by
  unfold opEventResync
  dsimp only
  rw [if_neg (by omega), if_neg (by omega), if_pos hlo]
  rfl
end
/-- With no OVERFLOW range open, everything below an ESN is acknowledged and the rest stays. -/
theorem ackEsn_below {p x : Nat} {b : State} (h0 : 0 < x) (h : (b.part p).ev.ackFirst ≤ x) (hkept : (b.part p).ev.kept = none)
    (hrecs : ∀ r, r ∈ (b.part p).ev.recs → (b.part p).ev.ackFirst ≤ r.esn) :
    ((b.ackEsn p (x - 1)).part p).ev.ackFirst = x ∧ ((b.ackEsn p (x - 1)).part p).ev.nextEsn = (b.part p).ev.nextEsn ∧
    ((b.ackEsn p (x - 1)).part p).ev.recs = ((b.part p).ev.recs.filter fun r => decide (x ≤ r.esn)) ∧
    (b.ackEsn p (x - 1)).jrn.next = b.jrn.next ∧ (b.ackEsn p (x - 1)).jrn.jsnLow = b.jrn.jsnLow ∧ (b.ackEsn p (x - 1)).host = b.host := by
  by_cases hx : x - 1 < (b.part p).ev.ackFirst
  · rw [ackEsn_stale hx]
    refine ⟨by omega, rfl, (List.filter_eq_self.mpr fun r hr => ?_).symm, rfl, rfl, rfl⟩
    have := hrecs r hr
    exact decide_eq_true (by omega)
  · obtain ⟨hr, he, hn, hl, hh⟩ := ackEsn_open (p := p) (b := b) (x := x - 1) (by omega) (.inl hkept)
    refine ⟨(ackEsn_ackFirst (by omega)).trans (by omega), he, hr.trans ?_, hn, hl, hh⟩
    exact List.filter_congr fun r _ => decide_eq_decide.mpr (by omega)

/-- Settles O28: from the oldest unacknowledged record on the stream is cut and sent again; otherwise nothing changes. -/
theorem eventResyncRule : Obligations.EventResyncRule := by
  intro t env ps s a ev x left
  have hsize : ∀ (ws : List Word), ws.length ≤ 2 → a.admits 0x0E3 1 0xFFE env ps = true → entriesFor (ps.length + ws.length) + 0 ≤ 1000 := fun ws hw h => by
    have := params_le_of_admits h; unfold entriesFor; omega
  have hb := bound_ev env a env.partner
  refine ⟨fun h hlen h0 hlo hhi hkept hport hrecs => ?_, fun h hlen hlo hhi => ?_, fun h hlen hhi => ?_⟩
  · have hv : opEventResync.eval (pktOf 0x0E3 env ps a) (a.bound env) = doneWith [word x, word ev.nextEsn]
        fun _ s => (s.ackEsn env.partner (x - 1)).resendFrom env.partner x := by
      obtain ⟨hf, hn, -⟩ := ackEsn_below (p := env.partner) (b := a.bound env) h0 (by rw [hb]; exact hlo) (by rw [hb]; exact hkept) (by rw [hb]; exact hrecs)
      refine (opEventResync_new (k := pktOf 0x0E3 env ps a) hlen (le_of_le_of_eq hhi (congrArg Stream.nextEsn hb).symm)
        (le_of_eq_of_le (congrArg Stream.ackFirst hb) hlo)).trans ?_
      refine congrArg₂ (fun y z => doneWith [word y, word z] _) hf (hn.trans (congrArg Stream.nextEsn hb))
    obtain ⟨c, hc, u, hu, hshow, heq⟩ := runOp_late opEventResync t env ps 1 s _ h (by decide) le_rfl hv (by exact Status.noConfusion) (hsize [_, _] le_rfl h)
      (fun _ b => ⟨(resendFrom_part_lseq ..).trans (ackEsn_part_lseq ..), (resendFrom_part_replays ..).trans (ackEsn_part_replays ..)⟩)
    dsimp only [doneWith] at heq
    have hev : (c.part env.partner).ev = ev := hc.view (fun y => y.ev) (fun _ _ _ _ => rfl) _
    obtain ⟨hfirst, hnext, hcut, hjn, hjl, hhost⟩ := ackEsn_below (p := env.partner) (b := c) h0 (by rw [hev]; exact hlo) (by rw [hev]; exact hkept) (by rw [hev]; exact hrecs)
    have hrest : (c.ackEsn env.partner (x - 1)).rest = a.rest := (ackEsn_rest ..).trans hc.rest
    have hup : (c.ackEsn env.partner (x - 1)).portUp env.port = true :=
      (portUp_of_host hrest (hhost.trans hc.host) _).trans (portUp_of_admits h)
    have hbind : ((c.ackEsn env.partner (x - 1)).part env.partner).bind = _ := (ackEsn_part_bind ..).trans hc.bind
    obtain ⟨hsent, htx⟩ := resendFrom_up hbind hup ((congrArg Power.ready (of_rest_pwr hrest)).trans (ready_of_admits h)) x
    refine ⟨u, hu, hshow, ?_, ?_, fun hfar => ?_⟩
    · rw [heq, replyNew_ackFirst, resendFrom_ackFirst, hfirst]
    · rw [heq, replyNew_rest, resendFrom_rest, hrest]
    · have hroom : ((c.ackEsn env.partner (x - 1)).resendFrom env.partner x).jsnRoom 0 := by
        refine jsnRoom_zero (n := 15) (jsnRoom_mono (a := c) ?_ ?_ (hc.room hfar))
        · rw [resendFrom_jrn, hjn]
        · rw [resendFrom_jrn, hjl]
      have hview : (u.part env.partner).ev = _ := (congrArg (fun u : State => (u.part env.partner).ev) heq).trans
        ((replyNew_view (fun y => y.ev) (fun _ _ _ => rfl) hroom ..).trans hsent)
      refine ⟨?_, ?_, ?_, fun h2 => ?_⟩
      · rw [hview, hcut, hev]
      · rw [hview, hnext, hev]
      · rw [hview, hnext, hev]
      · have hpost : ((c.ackEsn env.partner (x - 1)).resendFrom env.partner x).portUp env.port = true := (sendRecs_portUp ..).trans hup
        have hstill : (((c.ackEsn env.partner (x - 1)).resendFrom env.partner x).part env.partner).bind = _ := (resendFrom_part_bind ..).trans hbind
        have hspi : (c.ackEsn env.partner (x - 1)).spi env.port = a.spi env.port := by unfold State.spi; rw [hhost, hc.host]
        rw [heq, replyNew_tx (b := ⟨env.port, _, _⟩) hroom hstill hpost h2, htx h2, hspi, hcut, hev]
        refine congrArg (fun n => (a.spi env.port).tx.length + n + 1) (congrArg List.length (List.filter_eq_self.mpr fun r hr => ?_))
        simpa using (List.mem_filter.mp hr).2
  · have hv : opEventResync.eval (pktOf 0x0E3 env ps a) (a.bound env) = refuse .notPermitted [1] :=
      opEventResync_below (k := pktOf 0x0E3 env ps a) hlen (le_of_le_of_eq hhi (congrArg Stream.nextEsn hb).symm)
        (lt_of_lt_of_eq hlo (congrArg Stream.ackFirst hb).symm)
    exact refused_keepsStream (op := opEventResync) h (by decide) le_rfl hv (by exact Status.noConfusion) (hsize [_] (by decide) h)
  · have hv : opEventResync.eval (pktOf 0x0E3 env ps a) (a.bound env) = refuse .badParam [0] :=
      opEventResync_ahead (k := pktOf 0x0E3 env ps a) hlen (lt_of_eq_of_lt (congrArg Stream.nextEsn hb) hhi)
    exact refused_keepsStream (op := opEventResync) h (by decide) le_rfl hv (by exact Status.noConfusion) (hsize [_] (by decide) h)

end Sys2Proof.Machine
end

section
/-! HELLO and GOODBYE (R295, R297) (O26). -/
namespace Sys2Proof.Machine
open Sys2Proof

/-! ## HELLO -/

theorem answer_portUp (k : Pkt) (held : Option (Bool × Nat)) (st : Status) (orig credit jsn : Nat) (ws : List Word) (s : State) (q : Nat) :
    (s.answer k held st orig credit jsn ws).portUp q = s.portUp q := by
  unfold State.answer
  dsimp only
  rw [sendPacket_portUp]
  split <;> rfl
/-- Unsent replies that leave a port. -/
def SpiPort.without (p : Nat) (q : SpiPort) : SpiPort := { q with tx := q.tx.filter fun o => !(o.partner == p && o.isReply && o.read == 0) }
/-- Those of a partner that moves away from the SPI ports (R295). -/
def State.withoutReplies (p port : Nat) (prev : Nat) (s : State) : State :=
  let s := if prev = 2 ∧ port ≠ 2 then s.setSpi 2 (s.host.spi2.without p) else s
  if prev = 3 ∧ port ≠ 3 then s.setSpi 3 (s.host.spi3.without p) else s
theorem withoutReplies_keeps (p port prev : Nat) (s : State) :
    (s.withoutReplies p port prev).rest = s.rest ∧ (s.withoutReplies p port prev).jrn = s.jrn ∧ (s.withoutReplies p port prev).parts = s.parts ∧
    (s.withoutReplies p port prev).portUp port = s.portUp port ∧ (port = 2 ∨ port = 3 → (s.withoutReplies p port prev).spi port = s.spi port) := by
  have hport : ∀ (t : State) (q : Nat) (v : SpiPort), v.en = (t.spi q).en → (t.setSpi q v).portUp port = t.portUp port := fun t q v hv =>
    portUp_congr (setSpi_rest ..) port (by rw [eth_setSpi]) (by rw [eth_setSpi]) (spi_setSpi_view (fun x : SpiPort => x.en) t q v hv port)
  unfold State.withoutReplies
  dsimp only
  by_cases h2 : prev = 2 ∧ port ≠ 2
  · rw [if_pos h2, if_neg (by omega)]
    exact ⟨setSpi_rest .., setSpi_jrn .., setSpi_parts .., hport _ _ _ rfl, fun h => spi_setSpi_ne _ _ (.inl rfl) h h2.2⟩
  · rw [if_neg h2]
    by_cases h3 : prev = 3 ∧ port ≠ 3
    · rw [if_pos h3]
      exact ⟨setSpi_rest .., setSpi_jrn .., setSpi_parts .., hport _ _ _ rfl, fun h => spi_setSpi_ne _ _ (.inr rfl) h h3.2⟩
    · rw [if_neg h3]
      exact ⟨rfl, rfl, rfl, rfl, fun _ => rfl⟩
/-- From the binding on: a group sealed, the reply, and the records from the oldest unacknowledged one on. -/
def State.helloDone (k : Pkt) (x : Partner) (g : Group) (credit jsn : Nat) (ws : List Word) (last : Nat × Nat) (s : State) : State :=
  let s := State.jsnCheck ((s.setPart k.partner x).seal g)
  let s := s.answer k none .done 0 credit jsn ws
  (s.setPart k.partner { s.part k.partner with lastReply := some last }).resendFrom k.partner (s.part k.partner).ev.ackFirst
theorem runHello_new {k : Pkt} {s : State} (hps : k.ps = [])
    (hfree : k.port < 2 ∨ ∀ q, q < 5 → q ≠ k.partner → prevPort (s.part q) ≠ k.port) (hn : (s.part k.partner).hnonce < k.seq) :
    ∃ g credit jsn ws last pm, runHello k s = (s.withoutReplies k.partner k.port (prevPort (s.part k.partner))).helloDone k
      { s.part k.partner with hnonce := k.seq, bind := some ⟨k.port, k.ep, k.mac⟩, permit := pm } g credit jsn ws last := by
  have hbusy : ¬ (2 ≤ k.port ∧ [0, 1, 2, 3, 4].any (fun q => q != k.partner && prevPort (s.part q) == k.port) = true) := by
    rintro ⟨h2, hany⟩
    obtain ⟨q, hq, hc⟩ := List.any_eq_true.mp hany
    simp only [Bool.and_eq_true, bne_iff_ne, beq_iff_eq] at hc
    exact hfree.elim (by omega) fun h => h q (by simp at hq; omega) hc.1 hc.2
  unfold runHello
  dsimp only
  rw [if_neg (fun h => h hps), if_neg hbusy, if_neg (by omega)]
  exact ⟨_, _, _, _, _, _, rfl⟩
theorem runHello_old {k : Pkt} {s : State} (hps : k.ps = []) (hn : k.seq ≤ (s.part k.partner).hnonce) : ∃ st ws, runHello k s = s.early k st ws := by
  unfold runHello
  dsimp only
  rw [if_neg (fun h => h hps)]
  split
  · exact ⟨_, _, rfl⟩
  · exact ⟨_, _, rfl⟩
theorem helloDone_view {γ : Type} (f : Partner → γ) (hf : ∀ (x : Partner) e r, f { x with ev := e, lastReply := r } = f x)
    (k : Pkt) (x : Partner) (g : Group) (credit jsn : Nat) (ws : List Word) (last : Nat × Nat) (s : State) :
    f ((s.helloDone k x g credit jsn ws last).part k.partner) = f x := by
  unfold State.helloDone
  dsimp only
  refine (resendFrom_view f (fun x e => hf x e x.lastReply) ..).trans ?_
  rw [part_setPart]
  refine (hf ..).trans ((answer_view f (fun x r => hf x x.ev r) ..).trans ((jsnCheck_view f (fun x e => hf x e x.lastReply) ..).trans ?_))
  rw [seal_part, part_setPart]
section
variable (k : Pkt) (x : Partner) (g : Group) (credit jsn : Nat) (ws : List Word) (last : Nat × Nat) (s : State)

theorem helloDone_rest : (s.helloDone k x g credit jsn ws last).rest = s.rest := by
  unfold State.helloDone
  dsimp only
  rw [resendFrom_rest, setPart_rest, answer_rest, jsnCheck_rest, seal_rest, setPart_rest]
/-- While JSNs are left, the stream restarts behind the reply. -/
theorem helloDone_far {b : Binding} (hroom : s.jsnRoom 1) (hx : x.bind = some b) (hb : b.port = k.port) (hup : s.portUp k.port = true)
    (hready : s.pwr.ready = true) :
    ((s.helloDone k x g credit jsn ws last).part k.partner).ev = { x.ev with cursor := x.ev.nextEsn } ∧
    (2 ≤ k.port → ((s.helloDone k x g credit jsn ws last).spi k.port).tx.length =
      (s.spi k.port).tx.length + 1 + (x.ev.recs.filter fun r => decide (x.ev.ackFirst ≤ r.esn)).length) := by
  have hseal : ((s.setPart k.partner x).seal g).jsnRoom 0 := jsnRoom_mono (a := s) (seal_next_le ..) (seal_jsnLow ..) hroom
  unfold State.helloDone
  rw [jsnCheck_far hseal]
  dsimp only
  generalize hc : ((s.setPart k.partner x).seal g).answer k none .done 0 credit jsn ws = c
  have hev : (c.part k.partner).ev = x.ev := by
    rw [← hc, answer_view (fun y : Partner => y.ev) (fun _ _ => rfl), seal_part, part_setPart]
  have hbind : (c.part k.partner).bind = x.bind := by
    rw [← hc, answer_view (fun y : Partner => y.bind) (fun _ _ => rfl), seal_part, part_setPart]
  have hupc : c.portUp k.port = true := by
    rw [← hc, answer_portUp, ← hup]
    exact portUp_of_host (seal_rest ..) (seal_host ..) _
  have htx : 2 ≤ k.port → (c.spi k.port).tx.length = (s.spi k.port).tx.length + 1 := fun h2 => by
    rw [← hc, answer_tx (s := (s.setPart k.partner x).seal g) ((portUp_of_host (seal_rest ..) (seal_host ..) _).trans hup) h2]
    unfold State.spi
    rw [seal_host]; rfl
  obtain ⟨hsent, hmore⟩ := resendFrom_up (s := c.setPart k.partner { c.part k.partner with lastReply := some last }) (b := b)
    (by rw [part_setPart]; exact hbind.trans hx) (by rw [hb]; exact hupc)
    ((congrArg Power.ready (by rw [setPart_pwr, ← hc, answer_pwr, seal_pwr, setPart_pwr])).trans hready) (c.part k.partner).ev.ackFirst
  rw [part_setPart] at hsent hmore
  refine ⟨hsent.trans (by rw [hev]), fun h2 => ?_⟩
  rw [hb] at hmore
  rw [hmore h2, hev]
  exact congrArg (· + _) (htx h2)
end

/-! ## GOODBYE -/

theorem unbind_rest (p port : Nat) (s : State) : (s.unbind p port).rest = s.rest := by
  unfold State.unbind
  split <;> rfl
theorem unbind_view {γ : Type} (f : Partner → γ) (hf : ∀ (x : Partner) b, f { x with bind := b } = f x) (p port : Nat) (s : State) (q : Nat) :
    f ((s.unbind p port).part q) = f (s.part q) := by
  unfold State.unbind
  split
  · exact setPart_view f _ _ _ (hf ..) q
  · rfl
theorem unbind_spi (p port : Nat) (s : State) (h : Nat) : (s.unbind p port).spi h = s.spi h := by
  unfold State.unbind
  split <;> rfl
theorem unbind_bind {p port : Nat} {s : State} (h : (s.part p).bind.any (fun b => b.port == port) = true) : ((s.unbind p port).part p).bind = none := by
  unfold State.unbind
  rw [if_pos h, part_setPart]
theorem opGoodbye_bare {k : Pkt} {s : State} (h : k.ps = []) : opGoodbye.eval k s = { status := .done } := if_neg (fun hc => hc h)
/-- A GOODBYE taken as a new command: its reply, and on an Ethernet port the end of the binding with it. -/
theorem runPacket_goodbye {env : Env} {a b : State} (h : a.admits 0x003 1 0xFFE env [] = true) {k : Pkt} (hk : pktOf 0x003 env [] a = k)
    (hb : ((a.bound env).consume (some opGoodbye) k { status := .done }).replyNew k (k.held false) { status := .done } a.jrn.next = b) :
    runPacket (some opGoodbye) k a = if env.port < 2 ∧ (tget none (env.seq.toNat % 16384) (b.part env.partner).replays).any (fun r => r.status == 1) = true
      then b.unbind env.partner env.port else b := by
  subst hk
  have hj : judge (some opGoodbye) (pktOf 3 env [] a) (a.bound env) = { status := .done } :=
    judge_eval opGoodbye env [] 1 0xFFE a { status := .done } h le_rfl rfl (opGoodbye_bare rfl) (by decide)
  have hrun : runNew (some opGoodbye) (pktOf 3 env [] a) ((pktOf 3 env [] a).held false) (a.bound env) = b := by
    unfold runNew
    rw [hj]
    exact hb
  have hg : (newGroup (some opGoodbye) (pktOf 3 env [] a) (judge (some opGoodbye) (pktOf 3 env [] a) (a.bound env))).entries ≤ 1000 := by
    rw [hj]
    exact newGroup_entries _ _ _ (show entriesFor (0 + 0) ≤ 1000 by decide)
  simp only [State.admits, Bool.and_eq_true, decide_eq_true_eq, Option.isNone_iff_eq_none, List.isEmpty_iff] at h
  obtain ⟨⟨⟨⟨⟨⟨⟨⟨⟨⟨⟨⟨⟨⟨⟨⟨hport, hpart⟩, hlen⟩, hready⟩, hr0⟩, hr⟩, hauth⟩, hbound⟩, hroom⟩, hperm⟩, hseq⟩, hwork⟩, hnext⟩, hmode⟩, hlive⟩, hparse⟩, hslots⟩ := h
  have hl : ((a.bound env).part env.partner).lseq = (a.part env.partner).lseq := bound_part_view (fun x : Partner => x.lseq) (fun _ _ => rfl) ..
  have hsl : (a.bound env).hasSlots (some opGoodbye) (pktOf 3 env [] a) 0 = true := by
    unfold State.hasSlots State.entriesOf
    have : (a.bound env).jrn.slots = a.jrn.slots := rfl
    simp only [this, Bool.or_eq_true, beq_iff_eq, decide_eq_true_eq]
    right
    split <;> omega
  have hold : decide ((pktOf 3 env [] a).seq ≤ (a.part env.partner).lseq) = false := decide_eq_false (by show ¬ env.seq.toNat ≤ _; omega)
  have hq : (a.bound env).host.parse = [] := hparse
  have hi : (a.bound env).ingress env.partner = a.ingress env.partner := rfl
  have hpkt : (pktOf 3 env [] a).seq = env.seq.toNat ∧ (pktOf 3 env [] a).partner = env.partner ∧ (pktOf 3 env [] a).port = env.port ∧ (pktOf 3 env [] a).code = 3 := ⟨rfl, rfl, rfl, rfl⟩
  rw [runPacket_authentic hport hready hpart hlen _ (.inl fun h0 => by simp [h0] at hseq) hr0 hauth, if_neg (by decide), if_neg (by decide), if_neg (by simp [hbound])]
  dsimp only
  rw [hold, hq, hi, if_neg (by simp [hroom, hpkt.1, hperm]), if_neg (by simp [hsl])]
  unfold runParse
  dsimp only
  rw [hrun, hpkt.1, hpkt.2.1, hpkt.2.2.1, hpkt.2.2.2, hl, if_neg (by omega), if_neg (by omega), if_neg (by simp [show (a.bound env).jrn = a.jrn from rfl, hwork]),
    if_neg (by rw [show (a.bound env).jrn = a.jrn from rfl]; omega)]
  simp only [true_and]

theorem replyNew_bind (k : Pkt) (held : Option (Bool × Nat)) (v : Verdict) (jsn : Nat) (s : State) (q : Nat) :
    ((s.replyNew k held v jsn).part q).bind = (s.part q).bind := by
  unfold State.replyNew
  dsimp only
  rw [jsnCheck_part_bind, answer_view (fun x => x.bind) (fun _ _ => rfl)]
  refine setPart_view (fun x : Partner => x.bind) s k.partner _ ?_ q
  rfl
theorem replyNew_rights (k : Pkt) (held : Option (Bool × Nat)) (v : Verdict) (jsn : Nat) (s : State) (q : Nat) :
    ((s.replyNew k held v jsn).part q).rights = (s.part q).rights := by
  unfold State.replyNew
  dsimp only
  rw [jsnCheck_part_rights, answer_view (fun x => x.rights) (fun _ _ => rfl)]
  refine setPart_view (fun x : Partner => x.rights) s k.partner _ ?_ q
  rfl

/-! ## Reading on an SPI port (R351, R353, R354) -/

/-- What a transfer does to its port before its operation. -/
def SpiPort.begun (idleHigh : Bool) (cw : Word) (cut : Bool) (p : SpiPort) : SpiPort :=
  { p with mode := idleHigh, cwErr := cwBad cw, cntPart := if cut then satN 16 (p.cntPart + 1) else p.cntPart, cntCw := if cwBad cw then satN 16 (p.cntCw + 1) else p.cntCw }
section
variable {h : Nat} {s : State} (hh : h = 2 ∨ h = 3) (hup : s.portUp h = true)
include hh hup

theorem spiTransfer_ignored {cw : Word} (hcw : cwBad cw = true) (idleHigh : Bool) (ws : List Word) (cut : Bool) :
    s.spiTransfer h idleHigh cw ws cut = (s.setSpi h ((s.spi h).begun idleHigh cw cut)).emit (.spi h (s.spiStatus h) []) := by
  have h2 : (h == 2 || h == 3) = true := by simpa using hh
  unfold State.spiTransfer
  rw [h2, hup, if_neg (by simp)]
  dsimp only
  rw [if_pos hcw]
  rfl
variable {cw : Word} (hcw : cwBad cw = false)
include hcw
theorem spiTransfer_read (hop : fld cw 47 46 = 2) (idleHigh : Bool) (ws : List Word) (cut : Bool) :
    s.spiTransfer h idleHigh cw ws cut =
      (let x := (s.setSpi h ((s.spi h).begun idleHigh cw cut)).spiGet h (fld cw 43 32); x.2.emit (.spi h (s.spiStatus h) x.1)) := by
  have h2 : (h == 2 || h == 3) = true := by simpa using hh
  unfold State.spiTransfer
  rw [h2, hup, if_neg (by simp)]
  dsimp only
  rw [if_neg (by simp [hcw]), hop]
  rfl
end
/-- A READ of all that is left of the packet at the front. -/
theorem spiGet_last {h n : Nat} {s : State} {o : OutPkt} {rest : List OutPkt} (htx : (s.spi h).tx = o :: rest) (hall : o.words.length ≤ o.read + n) :
    (s.spiGet h n).2 = (if (o.isReply && fld (arg o.words 0) 31 20 == 3 && fld (arg o.words 2) 47 36 == 1) = true
      then (s.setSpi h { s.spi h with tx := rest }).unbind o.partner h else s.setSpi h { s.spi h with tx := rest }) := by
  have hlast : o.words.length ≤ o.read + ((o.words.drop o.read).take n).length := by
    rw [List.length_take, List.length_drop]; omega
  unfold State.spiGet
  dsimp only
  rw [htx]
  dsimp only
  rw [decide_eq_true hlast, if_pos rfl]
  simp only [Bool.true_and]

/-- Settles O26: the binding, the nonce and the stream that a HELLO leaves, and the two moments at which a GOODBYE ends a binding. -/
theorem helloGoodbye : Obligations.HelloGoodbye := by
  refine ⟨fun t env s => ?_, fun t env ps s => ?_, fun t s h idleHigh cw o rest => ?_⟩
  · intro a prt
    refine ⟨fun hup hready hpart hr hauth hfree hn => ?_, fun hup hready hpart hr hauth hn => ?_⟩
    · refine answers_runOp (op := opHello) ?_
      rw [show opHello.code = 2 from rfl, runPacket_authentic hup hready hpart (by simp) _ (.inr (.inr rfl)) hr hauth, if_neg (by decide), if_pos rfl]
      obtain ⟨g, credit, jsn, ws, last, pm, heq⟩ := runHello_new (k := pktOf 2 env [] a) (s := a) rfl hfree hn
      obtain ⟨hrest, hj, hparts, hport, hspi⟩ := withoutReplies_keeps env.partner env.port (prevPort prt) a
      rw [heq]
      refine ⟨?_, ?_, ?_, (helloDone_rest ..).trans hrest, fun hfar => ?_⟩
      · exact helloDone_view (fun x => x.bind) (fun _ _ _ => rfl) (pktOf 2 env [] a) ..
      · exact helloDone_view (fun x => x.hnonce) (fun _ _ _ => rfl) (pktOf 2 env [] a) ..
      · exact helloDone_view (fun x => x.lseq) (fun _ _ _ => rfl) (pktOf 2 env [] a) ..
      obtain ⟨hev, htx⟩ := helloDone_far (k := pktOf 2 env [] a) (b := ⟨env.port, (pktOf 2 env [] a).ep, env.mac⟩)
        (x := { prt with hnonce := env.seq.toNat, bind := some ⟨env.port, (pktOf 2 env [] a).ep, env.mac⟩, permit := pm }) g credit jsn ws last
        (a.withoutReplies env.partner env.port (prevPort prt)) (jsnRoom_mono (a := a) (m := 16) (by rw [hj]; omega) (by rw [hj]) hfar) rfl rfl (hport.trans hup)
        ((congrArg Power.ready (of_rest_pwr hrest)).trans hready)
      refine ⟨hev, fun h2 => (htx h2).trans ?_⟩
      have := lt_four_of_portUp hup
      rw [show (pktOf 2 env [] a).port = env.port from rfl, hspi (by omega)]
    · refine answers_runOp (op := opHello) ?_
      rw [show opHello.code = 2 from rfl, runPacket_authentic hup hready hpart (by simp) _ (.inr (.inr rfl)) hr hauth, if_neg (by decide), if_pos rfl]
      obtain ⟨st, ws, heq⟩ := runHello_old (k := pktOf 2 env [] a) (s := a) rfl hn
      rw [heq]
      exact ⟨answer_view (fun x => x.bind) (fun _ _ => rfl) .., answer_view (fun x => x.hnonce) (fun _ _ => rfl) .., early_jrn .., early_rest ..⟩
  · intro a h hps
    subst hps
    obtain ⟨k, hk⟩ : ∃ k, pktOf 0x003 env [] a = k := ⟨_, rfl⟩
    obtain ⟨b, hb⟩ : ∃ b, ((a.bound env).consume (some opGoodbye) k { status := .done }).replyNew k (k.held false) { status := .done } a.jrn.next = b := ⟨_, rfl⟩
    have heq := runPacket_goodbye h hk hb
    have hpart : k.partner = env.partner ∧ k.seq = env.seq.toNat := by rw [← hk]; exact ⟨rfl, rfl⟩
    have hl : (b.part env.partner).lseq = env.seq.toNat := by rw [← hb, replyNew_lseq, ← hpart.1, consume_lseq, hpart.2]
    have hr : tget none (env.seq.toNat % 16384) (b.part env.partner).replays = some (newReplay (some opGoodbye) k { status := .done } a.jrn.next) := by
      rw [← hb, replyNew_replays, ← hpart.1, ← hpart.2, consume_replay]; rfl
    have hbind : (b.part env.partner).bind = some ⟨env.port, if env.port < 2 then env.ep else .spi, env.mac⟩ := by
      rw [← hb, replyNew_bind]
      exact (consume_taken ..).bind
    have hrights : (b.part env.partner).rights = (a.part env.partner).rights := by
      rw [← hb, replyNew_rights]
      exact (consume_taken (some opGoodbye) k { status := .done } env a).view (fun x => x.rights) (fun _ _ _ _ => rfl) _
    have hrest : b.rest = a.rest := by rw [← hb, replyNew_rest, consume_rest, bound_rest]
    have hshow : Shows 0x003 1 [] env a b := by
      refine ⟨hl, ?_⟩
      rw [hr, ← hk]; rfl
    refine ⟨_, congrArg Host.Outcome.next ((congrArg (fun k => runPacket (some opGoodbye) k a) hk).trans heq), ?_⟩
    rw [hr]
    by_cases h2 : env.port < 2
    · rw [if_pos ⟨h2, rfl⟩]
      refine ⟨⟨(unbind_view (fun x => x.lseq) (fun _ _ => rfl) ..).trans hshow.1, ?_⟩, fun _ => unbind_bind (by rw [hbind]; simp), fun h => by omega,
        (unbind_view (fun x => x.rights) (fun _ _ => rfl) ..).trans hrights, (unbind_rest ..).trans hrest⟩
      rw [unbind_view (fun x => x.replays) (fun _ _ => rfl)]
      exact hshow.2
    · rw [if_neg (fun hc => h2 hc.1)]
      exact ⟨hshow, fun h => absurd h h2, fun _ => by rw [hbind, if_neg h2], hrights, hrest⟩
  · intro a hh hup hcw hop htx hreply hcode hstatus hall hbind
    refine ⟨_, congrArg Host.Outcome.next (spiTransfer_read hh hup hcw hop idleHigh [] false), ?_⟩
    have hfront : ((a.setSpi h ((a.spi h).begun idleHigh cw false)).spi h).tx = o :: rest := by rw [spi_setSpi]; exact htx
    dsimp only
    rw [spiGet_last hfront hall, if_pos (by simp [hreply, hcode, hstatus])]
    refine ⟨?_, ?_, ?_⟩
    · refine unbind_bind (Eq.trans ?_ hbind)
      rw [part_congr (setSpi_parts ..), part_congr (setSpi_parts ..)]
    · exact congrArg SpiPort.tx ((unbind_spi ..).trans (spi_setSpi ..))
    · rw [emit_rest, unbind_rest, setSpi_rest, setSpi_rest]

end Sys2Proof.Machine
end

section
/-! The rows that name one operation of an opcode (`fixField`): what the fixed field and the others read. -/
namespace Sys2Proof.Machine
open Sys2Proof

/-- A number with bits [hi:lo] replaced, as its low part, the field and its high part. -/
theorem replace_parts {n lo hi p : Nat} (hlo : lo ≤ hi) (hhi : hi < 48) (hn : n < 2 ^ 48) (hp : p < 2 ^ (hi + 1 - lo)) :
    n - n / 2 ^ lo % 2 ^ (hi + 1 - lo) * 2 ^ lo + p * 2 ^ lo = 2 ^ lo * (2 ^ (hi + 1 - lo) * (n / 2 ^ (hi + 1)) + p) + n % 2 ^ lo ∧
    2 ^ lo * (2 ^ (hi + 1 - lo) * (n / 2 ^ (hi + 1)) + p) + n % 2 ^ lo < 2 ^ 48 := by
  have hsplit : (2 : Nat) ^ (hi + 1) = 2 ^ lo * 2 ^ (hi + 1 - lo) := by rw [← Nat.pow_add]; congr 1; omega
  have hdd : n / 2 ^ (hi + 1) = n / 2 ^ lo / 2 ^ (hi + 1 - lo) := by rw [hsplit, Nat.div_div_eq_div_mul]
  have h48 : (2 : Nat) ^ 48 = 2 ^ lo * (2 ^ (hi + 1 - lo) * 2 ^ (47 - hi)) := by rw [← Nat.pow_add, ← Nat.pow_add]; congr 1; omega
  have hq : n / 2 ^ (hi + 1) < 2 ^ (47 - hi) := by
    rw [hdd]
    refine Nat.div_lt_of_lt_mul (Nat.div_lt_of_lt_mul ?_)
    rw [← h48]; exact hn
  have hr : n % 2 ^ lo < 2 ^ lo := Nat.mod_lt _ (Nat.two_pow_pos _)
  have hL := Nat.div_add_mod n (2 ^ lo)
  have hW := Nat.div_add_mod (n / 2 ^ lo) (2 ^ (hi + 1 - lo))
  rw [← hdd] at hW
  generalize n / 2 ^ (hi + 1) = q at *
  generalize n / 2 ^ lo % 2 ^ (hi + 1 - lo) = f at *
  generalize n % 2 ^ lo = r at *
  generalize hLd : 2 ^ lo = L at *
  generalize 2 ^ (hi + 1 - lo) = W at *
  generalize 2 ^ (47 - hi) = Q at *
  rw [← hW] at hL
  constructor
  · rw [← hL, Nat.mul_add, Nat.mul_add, Nat.mul_comm f L, Nat.mul_comm p L]; omega
  · have h1 : W * q + p + 1 ≤ W * Q := by
      have : W * (q + 1) ≤ W * Q := Nat.mul_le_mul_left W hq
      rw [Nat.mul_add] at this; omega
    have h2 := Nat.mul_le_mul_left L h1
    rw [Nat.mul_add] at h2
    omega
section
variable {hi lo v : Nat} (hlo : lo ≤ hi) (hhi : hi < 48) {ps : List Word}

@[simp] theorem fixField_length (hi lo v : Nat) (ps : List Word) : (fixField hi lo v ps).length = ps.length := by cases ps <;> rfl
theorem arg_fixField_succ (hi lo v : Nat) (ps : List Word) (i : Nat) : arg (fixField hi lo v ps) (i + 1) = arg ps (i + 1) := by cases ps <;> rfl
include hlo hhi
theorem arg_fixField (hps : ps ≠ []) : (arg (fixField hi lo v ps) 0).toNat =
    2 ^ lo * (2 ^ (hi + 1 - lo) * ((arg ps 0).toNat / 2 ^ (hi + 1)) + v % 2 ^ (hi + 1 - lo)) + (arg ps 0).toNat % 2 ^ lo := by
  cases ps with
  | nil => exact absurd rfl hps
  | cons w ws =>
    obtain ⟨heq, hlt⟩ := replace_parts (n := w.toNat) hlo hhi w.isLt (Nat.mod_lt v (Nat.two_pow_pos (hi + 1 - lo)))
    show (word (w.toNat - fld w hi lo * 2 ^ lo + put hi lo v)).toNat = _
    rw [show w.toNat - fld w hi lo * 2 ^ lo + put hi lo v = _ from heq]
    exact Nat.mod_eq_of_lt hlt
/-- The fixed field reads as fixed. -/
theorem fld_fixField (hps : ps ≠ []) (hv : v < 2 ^ (hi + 1 - lo)) : fld (arg (fixField hi lo v ps) 0) hi lo = v := by
  unfold fld
  rw [arg_fixField hlo hhi hps, Nat.mul_add_div (Nat.two_pow_pos lo), Nat.div_eq_of_lt (Nat.mod_lt _ (Nat.two_pow_pos lo)), Nat.add_zero, Nat.mul_add_mod,
    Nat.mod_mod, Nat.mod_eq_of_lt hv]
/-- Every other bit reads as before. -/
theorem bit_fixField {i : Nat} (h : i < lo ∨ hi < i) : bit (arg (fixField hi lo v ps) 0) i = bit (arg ps 0) i := by
  by_cases hps : ps = []
  · subst hps; rfl
  · unfold bit
    rw [arg_fixField hlo hhi hps]
    rcases h with h | h
    · have hlow : (arg ps 0).toNat % 2 ^ lo < 2 ^ lo := Nat.mod_lt _ (Nat.two_pow_pos lo)
      rw [Nat.testBit_two_pow_mul_add _ hlow, if_pos h, Nat.testBit_mod_two_pow, decide_eq_true h, Bool.true_and]
    · have hlow : (arg ps 0).toNat % 2 ^ lo < 2 ^ lo := Nat.mod_lt _ (Nat.two_pow_pos lo)
      have hfld : v % 2 ^ (hi + 1 - lo) < 2 ^ (hi + 1 - lo) := Nat.mod_lt _ (Nat.two_pow_pos _)
      rw [Nat.testBit_two_pow_mul_add _ hlow, if_neg (by omega), Nat.testBit_two_pow_mul_add _ hfld, if_neg (by omega), Nat.testBit_div_two_pow]
      congr 1; omega
/-- And so does every other field. -/
theorem fld_fixField_out {i j : Nat} (h : i < lo ∨ hi < j) : fld (arg (fixField hi lo v ps) 0) i j = fld (arg ps 0) i j := by
  refine Nat.eq_of_testBit_eq fun n => ?_
  unfold fld
  rw [Nat.testBit_mod_two_pow, Nat.testBit_mod_two_pow, Nat.testBit_div_two_pow, Nat.testBit_div_two_pow]
  by_cases hn : n < i + 1 - j
  · exact congrArg (decide (n < i + 1 - j) && ·) (bit_fixField hlo hhi (i := n + j) (by omega))
  · rw [decide_eq_false hn, Bool.false_and, Bool.false_and]
end

end Sys2Proof.Machine
end

section
/-! Sample ports: configuration, start, stop and masks (R389, R390, R398-R403) (O41). -/
namespace Sys2Proof.Machine
open Sys2Proof

/-! ## A command that is answered before its effect (R26) -/

/-- What an ACCEPTED command's effect finds: the packet consumed, and its reply gone. -/
structure Handed (env : Env) (a c : State) : Prop where
  rest : c.rest = a.rest
  view : a.jsnFar → ∀ {γ : Type} (f : Partner → γ), (∀ (x : Partner) l r b pm lr, f { x with lseq := l, replays := r, bind := b, permit := pm, lastReply := lr } = f x) →
    ∀ q, f (c.part q) = f (a.part q)
  room : a.jsnFar → c.jsnRoom 15
theorem replyNew_jrn {s : State} (h : s.jsnRoom 0) (k : Pkt) (held : Option (Bool × Nat)) (v : Verdict) (jsn : Nat) : (s.replyNew k held v jsn).jrn = s.jrn := by
  unfold State.replyNew
  dsimp only
  rw [jsnCheck_far, answer_jrn]
  · rfl
  · unfold State.jsnRoom
    rw [answer_jrn]; exact h
theorem runOp_handed (op : OpSpec) (t : Lapse) (env : Env) (ps : List Word) (rights : Nat) (s : State) (v : Verdict)
    (h : (s.elapse t).admits op.code rights op.modes env ps = true) (hcode : 3 < op.code) (hr : op.rights ≤ rights)
    (hv : op.eval (pktOf op.code env ps (s.elapse t)) ((s.elapse t).bound env) = v) (hnow : v.status = .accepted)
    (hroom : entriesFor ((v.stored.getD ps).length + v.words.length) + v.promise ≤ 1000) :
    ∃ c, Handed env (s.elapse t) c ∧ Shows op.code 0 v.words env (s.elapse t) c ∧ runOp op t env ps s = .next (v.act (s.elapse t).jrn.next c) := by
  have hok : v.status.ok = true := by rw [hnow]; rfl
  have hreply : v.reply = v.words := by unfold Verdict.reply; simp [hok]
  have hj := judge_eval op env ps rights op.modes _ v h hr rfl hv hroom
  have hnew := runPacket_new op env ps rights op.modes _ h (by omega) (by omega) (by omega)
    (by rw [hj]; refine newGroup_entries _ _ _ ?_; rw [hreply]; exact le_trans (Nat.le_add_right _ v.promise) hroom)
  have hrun : runNew (some op) (pktOf op.code env ps (s.elapse t)) ((pktOf op.code env ps (s.elapse t)).held false) ((s.elapse t).bound env) =
      v.act (s.elapse t).jrn.next ((((s.elapse t).bound env).consume (some op) (pktOf op.code env ps (s.elapse t)) v).replyNew
        (pktOf op.code env ps (s.elapse t)) ((pktOf op.code env ps (s.elapse t)).held false) v (s.elapse t).jrn.next) := by
    unfold runNew
    rw [hj]; dsimp only
    rw [if_pos hnow]
    rfl
  have htaken := consume_taken (some op) (pktOf op.code env ps (s.elapse t)) v env (s.elapse t)
  refine ⟨_, ⟨(replyNew_rest ..).trans htaken.rest, fun hfar γ f hf q => ?_, fun hfar => ?_⟩, ⟨?_, ?_⟩, congrArg Host.Outcome.next (hnew.trans hrun)⟩
  · exact (replyNew_view f (fun x pm lr => hf x x.lseq x.replays x.bind pm lr) (jsnRoom_zero (htaken.room hfar)) ..).trans
      (htaken.view f (fun x l r b => hf x l r b x.permit x.lastReply) q)
  · have hc := htaken.room hfar
    unfold State.jsnRoom at hc ⊢
    rw [replyNew_jrn (jsnRoom_zero (htaken.room hfar))]
    exact hc
  · exact (replyNew_lseq ..).trans (consume_lseq (some op) (pktOf op.code env ps (s.elapse t)) v ((s.elapse t).bound env))
  · rw [replyNew_replays]
    refine (congrArg (Option.map _) (consume_replay (some op) (pktOf op.code env ps (s.elapse t)) v ((s.elapse t).bound env))).trans ?_
    simp only [newReplay, Option.map_some, hnow, hreply]
    rfl
theorem runOp_accepted (op : OpSpec) (t : Lapse) (env : Env) (ps : List Word) (rights : Nat) (s : State) (v : Verdict)
    (h : (s.elapse t).admits op.code rights op.modes env ps = true) (hcode : 3 < op.code) (hr : op.rights ≤ rights)
    (hv : op.eval (pktOf op.code env ps (s.elapse t)) ((s.elapse t).bound env) = v) (hnow : v.status = .accepted)
    (hroom : entriesFor ((v.stored.getD ps).length + v.words.length) + v.promise ≤ 1000)
    (hact : ∀ j b, ((v.act j b).part env.partner).lseq = (b.part env.partner).lseq ∧ ((v.act j b).part env.partner).replays = (b.part env.partner).replays) :
    ∃ c, Handed env (s.elapse t) c ∧ Completes op.code 0 v.words env (s.elapse t) (runOp op t env ps s) fun u => u = v.act (s.elapse t).jrn.next c := by
  obtain ⟨c, hc, ⟨hseq, hrep⟩, hu⟩ := runOp_handed op t env ps rights s v h hcode hr hv hnow hroom
  obtain ⟨hl, hrs⟩ := hact (s.elapse t).jrn.next c
  exact ⟨c, hc, _, hu, ⟨hl.trans hseq, by rw [hrs]; exact hrep⟩, rfl⟩
/-- Where the effect writes `p`'s stream as one record does, the command tells it once. -/
theorem Handed.toldOne {env : Env} {a b c u : State} (hc : Handed env a c) (hp : b.parts = c.parts) (hj : b.jrn = c.jrn) (p : Nat) (vol : Bool) (ws : List Word)
    (hu : u.parts = (b.record p vol ws).parts) : ToldOne p a u := by
  intro hfar
  have hroom : b.jsnRoom 1 := jsnRoom_mono (a := c) (m := 15) (by rw [hj]; omega) (by rw [hj]) (hc.room hfar)
  have hesn : u.esn p = b.esn p + b.oneMore p := (esn_congr hu p).trans (record_esn hroom ..)
  refine hesn.trans (congrArg₂ (· + ·) ?_ ?_)
  · exact (esn_congr hp p).trans (hc.view hfar (fun x => x.ev.nextEsn) (fun _ _ _ _ _ _ => rfl) p)
  · exact oneMore_congr ((congrArg Partner.rights (part_congr hp p)).trans (hc.view hfar (fun x => x.rights) (fun _ _ _ _ _ _ => rfl) p))

/-! ## SMP_CONFIG (R389, R390) -/

theorem smp_of_rest {a b : State} (h : a.rest = b.rest) (n : Nat) : a.smp n = b.smp n := by
  unfold State.smp; rw [of_rest_ports h]
theorem bit_maskW {m i : Nat} (w : Word) : bit (maskW m w) i = (bit w i && m.testBit i) := by
  have hlt : w.toNat &&& m < 2 ^ 48 := lt_of_le_of_lt Nat.and_le_left w.isLt
  unfold bit maskW word
  rw [BitVec.toNat_ofNat, Nat.mod_eq_of_lt hlt, Nat.testBit_and]
/-- PLL-W follows the ports, and nothing else changes. -/
theorem settlePllW_eq (s : State) : ∃ c, s.settlePllW = s.putClk c := by
  unfold State.settlePllW
  dsimp only
  split
  · split
    · exact ⟨_, rfl⟩
    · exact ⟨s.clk, rfl⟩
  · exact ⟨_, rfl⟩
/-- A port at the start of its configuration. -/
def SmpPort.configured (p : SmpPort) : SmpPort :=
  { p with state := if p.en then 1 else 0, lock := false, hadLock := false, under := false, fmtErr := false, good := 0
           frame := 0, clocks := 0, resids := [], inputs := [], ups := [], startSeq := 0, startAt := none, stopAt := none, pairs := [], rate := 0 }
theorem applySmp_eq (n : Nat) (ps : List Word) (s : State) : ∃ c, s.applySmp n ps = (s.setSmp n (smpOf (s.smp n) ps).configured).putClk c := settlePllW_eq _
theorem opSmpConfig_ok {k : Pkt} {s : State} (hf : smpFieldBad k.ps = false)
    (hplace : (smpOf (s.smp (fld (arg k.ps 0) 47 45)) k.ps).en = false ∨ (0xC00000 ≤ (smpOf (s.smp (fld (arg k.ps 0) 47 45)) k.ps).base ∧
      (smpOf (s.smp (fld (arg k.ps 0) 47 45)) k.ps).base + (smpOf (s.smp (fld (arg k.ps 0) 47 45)) k.ps).extent ≤ 0x1000000 ∧
      s.ringsHit (fld (arg k.ps 0) 47 45) (smpOf (s.smp (fld (arg k.ps 0) 47 45)) k.ps).base (smpOf (s.smp (fld (arg k.ps 0) 47 45)) k.ps).extent = false))
    (hstate : (s.smp (fld (arg k.ps 0) 47 45)).state ≠ 2) (hpend : s.startPending (fld (arg k.ps 0) 47 45) = false)
    (hqty : (smpOf (s.smp (fld (arg k.ps 0) 47 45)) k.ps).angle = false ∨ ((smpOf (s.smp (fld (arg k.ps 0) 47 45)) k.ps).qty ≠ 0 ∧
      s.kind (smpOf (s.smp (fld (arg k.ps 0) 47 45)) k.ps).qty ≠ 15)) :
    opSmpConfig.eval k s = { status := .done, pins := [.config 0x0A0 (fld (arg k.ps 0) 47 45)], act := fun _ s => s.applySmp (fld (arg k.ps 0) 47 45) k.ps } := by
  unfold opSmpConfig
  dsimp only
  rw [if_neg (by simp [hf]), if_neg, if_neg (by simp [hstate, hpend]), if_neg]
  · rintro ⟨hang, hq⟩
    rcases hqty with h | ⟨h0, h15⟩
    · simp [h] at hang
    · exact hq.elim h0 h15
  · rintro ⟨hen, hbad⟩
    rcases hplace with h | ⟨hlo, hhi, hhit⟩
    · simp [h] at hen
    · rcases hbad with h | h | h
      · omega
      · omega
      · simp [hhit] at h
theorem opSmpConfig_field {k : Pkt} {s : State} (hf : smpFieldBad k.ps = true) : opSmpConfig.eval k s = refuse .badParam [1] := if_pos hf
theorem applySmp_parts (n : Nat) (ps : List Word) (s : State) : (s.applySmp n ps).parts = s.parts := by
  obtain ⟨c, hc⟩ := applySmp_eq n ps s
  rw [hc]; rfl

/-! ## SMP_START (R400) -/

theorem mem_namedPorts {w : Word} {n : Nat} : n ∈ namedPorts w ↔ n < 8 ∧ bit w (45 - n) = true := by
  unfold namedPorts
  rw [List.mem_filter]
  refine and_congr_left fun _ => ?_
  simp only [List.mem_cons, List.not_mem_nil, or_false]
  omega
theorem namedPorts_nodup (w : Word) : (namedPorts w).Nodup := List.Nodup.filter _ (by decide)
theorem namedPorts_fixField {v : Nat} (ps : List Word) : namedPorts (arg (fixField 47 46 v ps) 0) = namedPorts (arg ps 0) :=
  List.filter_congr fun n _ => bit_fixField (by decide) (by decide) (.inl (by omega))
/-- A change of one sample port after the other. -/
theorem foldl_ports {g : State → Nat → State} {f : SmpPort → SmpPort} (hsmp : ∀ s m n, (g s m).smp n = if n = m then f (s.smp m) else s.smp n)
    (hports : ∀ s m, ∃ x, g s m = s.putPorts x) {l : List Nat} (hl : l.Nodup) (s : State) :
    (∀ n, (l.foldl g s).smp n = if n ∈ l then f (s.smp n) else s.smp n) ∧ ∃ x, l.foldl g s = s.putPorts x := by
  induction l generalizing s with
  | nil => exact ⟨fun n => by simp, s.ports, rfl⟩
  | cons m l ih =>
    obtain ⟨hm, hl⟩ := List.nodup_cons.mp hl
    obtain ⟨hn, x, hx⟩ := ih hl (g s m)
    obtain ⟨y, hy⟩ := hports s m
    refine ⟨fun n => ?_, x, ?_⟩
    · rw [List.foldl_cons, hn, hsmp]
      by_cases hnm : n = m
      · subst hnm
        rw [if_pos rfl, if_neg hm, if_pos List.mem_cons_self]
      · rw [if_neg hnm]
        exact if_congr (by simp [hnm]) rfl rfl
    · rw [List.foldl_cons, hx, hy]; rfl
/-- What SMP_START changes of each named port. -/
def SmpPort.ordered (op : Nat) (tick : Qval) (p : SmpPort) : SmpPort :=
  if op = 0 then { p with startAt := some tick } else if p.state = 2 then { p with stopAt := some tick } else p
/-- The effect of SMP_START on the named ports. -/
def State.orderPorts (op : Nat) (tick : Qval) (ns : List Nat) (s : State) : State :=
  ns.foldl (fun (s : State) n =>
    let p := s.smp n
    if op = 0 then s.setSmp n { p with startAt := some tick }
    else if p.state = 2 then s.setSmp n { p with stopAt := some tick } else s) s
theorem orderPorts_smp (op : Nat) (tick : Qval) {ns : List Nat} (hns : ns.Nodup) (s : State) :
    (∀ n, (s.orderPorts op tick ns).smp n = if n ∈ ns then (s.smp n).ordered op tick else s.smp n) ∧ ∃ x, s.orderPorts op tick ns = s.putPorts x := by
  have hset : ∀ (s : State) (m n : Nat) (v : SmpPort), (s.setSmp m v).smp n = if n = m then v else s.smp n := fun s m n v => by
    by_cases h : n = m
    · subst h; rw [smp_setSmp, if_pos rfl]
    · rw [smp_setSmp_ne _ _ _ _ h, if_neg h]
  refine foldl_ports (f := SmpPort.ordered op tick) (fun s m n => ?_) (fun s m => ?_) hns s
  · dsimp only
    unfold SmpPort.ordered
    by_cases hop : op = 0
    · rw [if_pos hop, if_pos hop, hset]
    · rw [if_neg hop, if_neg hop]
      by_cases hst : (s.smp m).state = 2
      · rw [if_pos hst, if_pos hst, hset]
      · rw [if_neg hst, if_neg hst]
        by_cases h : n = m
        · subst h; rw [if_pos rfl]
        · rw [if_neg h]
  · dsimp only
    split
    · exact ⟨_, rfl⟩
    · split
      · exact ⟨_, rfl⟩
      · exact ⟨s.ports, rfl⟩
theorem opSmpStart_ok {k : Pkt} {s : State} {op : Nat} (hlen : k.ps.length = 1) (hop : fld (arg k.ps 0) 47 46 = op) (h2 : op < 2) {ns : List Nat}
    (hns : namedPorts (arg k.ps 0) = ns) (hne : ns ≠ []) (hen : ns.all (fun n => (s.smp n).en) = true) :
    opSmpStart.eval k s = acceptWith [cyc (tickAfter s.tb.q0), frc (tickAfter s.tb.q0)] fun _ b => b.orderPorts op (tickAfter s.tb.q0) ns := by
  subst hop hns
  have hall : ¬ ((namedPorts (arg k.ps 0)).any fun n => !(s.smp n).en) = true := by
    rw [List.any_eq_true]
    rintro ⟨n, hn, hc⟩
    simp [List.all_eq_true.mp hen n hn] at hc
  unfold opSmpStart
  dsimp only
  rw [if_neg (by simp [hlen, hne]; omega), if_neg hall]
  rfl
/-- SMP_START with OP 0 or 1 is ACCEPTED with its tick, and each port named waits for it. -/
theorem smpStart_completes {t : Lapse} {env : Env} {ps0 : List Word} {s : State} {op : Nat} (h2 : op < 2)
    (h : (s.elapse t).admits 0x0A1 2 0xFFE env (fixField 47 46 op ps0) = true) (hlen : ps0.length = 1) (hne : namedPorts (arg ps0 0) ≠ [])
    (hen : (namedPorts (arg ps0 0)).all (fun n => ((s.elapse t).smp n).en) = true) :
    Completes 0x0A1 0 [cyc (tickAfter (s.elapse t).tb.q0), frc (tickAfter (s.elapse t).tb.q0)] env (s.elapse t)
      (runOp opSmpStart t env (fixField 47 46 op ps0) s) fun u =>
        (∀ n, n < 8 → u.smp n = if bit (arg ps0 0) (45 - n) = true then ((s.elapse t).smp n).ordered op (tickAfter (s.elapse t).tb.q0) else (s.elapse t).smp n) ∧
        u.rest = ((s.elapse t).putPorts u.ports).rest := by
  have hps : ps0 ≠ [] := fun hc => by simp [hc] at hlen
  have hv : opSmpStart.eval (pktOf 0x0A1 env (fixField 47 46 op ps0) (s.elapse t)) ((s.elapse t).bound env) = _ :=
    opSmpStart_ok ((fixField_length ..).trans hlen) (fld_fixField (by decide) (by decide) hps (by omega)) h2 (namedPorts_fixField ps0) hne hen
  refine runOp_completes opSmpStart t env _ 2 s _ _ _ h (by decide) (by decide) hv rfl ?_ (fun _ b => ?_) (fun _ b u hb hu => ?_)
  · show entriesFor ((fixField 47 46 op ps0).length + 2) + 0 ≤ 1000
    rw [fixField_length, hlen]; decide
  · obtain ⟨-, x, hx⟩ := orderPorts_smp op (tickAfter ((s.elapse t).bound env).tb.q0) (namedPorts_nodup (arg ps0 0)) b
    have hparts : (b.orderPorts op (tickAfter ((s.elapse t).bound env).tb.q0) (namedPorts (arg ps0 0))).parts = b.parts := by
      rw [hx]; rfl
    exact ⟨congrArg Partner.lseq (part_congr hparts _), congrArg Partner.replays (part_congr hparts _)⟩
  · obtain ⟨hsmp, x, hx⟩ := orderPorts_smp op (tickAfter (s.elapse t).tb.q0) (namedPorts_nodup (arg ps0 0)) b
    have hu' : u.rest = (b.orderPorts op (tickAfter (s.elapse t).tb.q0) (namedPorts (arg ps0 0))).rest := hu
    refine ⟨fun n hn => ?_, ?_⟩
    · rw [smp_of_rest hu', hsmp, smp_of_rest hb]
      exact if_congr (mem_namedPorts.trans (and_iff_right hn)) rfl rfl
    · rw [hu', of_rest_ports hu', hx]
      exact congrArg (State.putPorts · x) hb

/-! ## Headers (R398) -/

/-- A port with its next header sequence number. -/
def SmpPort.numbered (p : SmpPort) : SmpPort := { p with hseq := (p.hseq + 1) % 2 ^ 16 }
theorem writeHeader_eq (n : Nat) (s : State) : s.writeHeader n = (s.setSmp n (s.smp n).numbered).memWrites (s.smp n).numbered.hdr (s.smp n).numbered.header := by
  unfold State.writeHeader SmpPort.numbered
  rfl
@[simp] theorem smp_memWrites (s : State) (a : Nat) (ws : List Word) (n : Nat) : (s.memWrites a ws).smp n = s.smp n := rfl
theorem writeHeader_smp (n : Nat) (s : State) : (s.writeHeader n).smp n = (s.smp n).numbered := by
  rw [writeHeader_eq, smp_memWrites, smp_setSmp]
theorem writeHeader_smp_ne {m n : Nat} (h : m ≠ n) (s : State) : (s.writeHeader n).smp m = s.smp m := by
  rw [writeHeader_eq, smp_memWrites, smp_setSmp_ne _ _ _ _ h]
theorem header_length (p : SmpPort) : p.header.length = 16 := rfl
theorem numbered_hdr (p : SmpPort) : p.numbered.hdr = p.hdr := rfl
/-- The header stands behind the rings, and no byte outside it changes. -/
theorem writeHeader_mem (n : Nat) (s : State) : (s.writeHeader n).mem.reads (s.smp n).hdr 16 = ((s.writeHeader n).smp n).header ∧
    ∀ adr, (∀ k, k < 16 → adr / 6 ≠ ((s.smp n).hdr + k) % 2 ^ 24) → cellRead adr (s.writeHeader n).mem.cells = cellRead adr s.mem.cells := by
  have hmem : (s.writeHeader n).mem = s.mem.writes (s.smp n).hdr (s.smp n).numbered.header := by
    rw [writeHeader_eq, numbered_hdr]; rfl
  rw [writeHeader_smp, hmem]
  refine ⟨?_, fun adr h => Memory.cellRead_writes_out s.mem _ adr _ (by rw [header_length]; exact h)⟩
  have hread := Memory.reads_writes s.mem (s.smp n).hdr (s.smp n).numbered.header (by rw [header_length]; decide)
  rwa [header_length] at hread

theorem writeHeader_parts (n : Nat) (s : State) : (s.writeHeader n).parts = s.parts := by
  rw [writeHeader_eq, memWrites_parts, setSmp_parts]

/-! ## SMP_SLOTMASK (R403) -/

theorem opSmpSlotmask_ok {k : Pkt} {s : State} (hlen : k.ps.length = 1) (hen : (s.smp (fld (arg k.ps 0) 47 45)).en = true)
    (hbad : maskBad (maskOf (arg k.ps 0)) (s.smp (fld (arg k.ps 0) 47 45)).nslots = false) :
    opSmpSlotmask.eval k s = { status := .accepted, pins := [.config 0x0A2 (fld (arg k.ps 0) 47 45)], promise := 2
                               act := (opSmpSlotmask.eval k s).act } := by
  unfold opSmpSlotmask
  dsimp only
  rw [if_neg (by simp [hlen, hbad]), if_neg (by simp [hen])]
theorem opSmpSlotmask_act {k : Pkt} {s : State} (hlen : k.ps.length = 1) (hen : (s.smp (fld (arg k.ps 0) 47 45)).en = true)
    (hbad : maskBad (maskOf (arg k.ps 0)) (s.smp (fld (arg k.ps 0) 47 45)).nslots = false) (jsn : Nat) {b : State}
    (hnext : (b.smp (fld (arg k.ps 0) 47 45)).next = none) : (opSmpSlotmask.eval k s).act jsn b =
      if (b.smp (fld (arg k.ps 0) 47 45)).state = 2 then
        b.setSmp (fld (arg k.ps 0) 47 45) { b.smp (fld (arg k.ps 0) 47 45) with next := some ⟨maskOf (arg k.ps 0), jsn, k.partner⟩ }
      else b.applyMask (fld (arg k.ps 0) 47 45) ⟨maskOf (arg k.ps 0), jsn, k.partner⟩ 0 := by
  unfold opSmpSlotmask
  dsimp only
  rw [if_neg (by simp [hlen, hbad]), if_neg (by simp [hen])]
  dsimp only
  rw [hnext]
theorem maskRecord_shown (n : Nat) (m : MaskWait) (old f j : Nat) (sup : Bool) (s : State) (q : Nat) :
    ((s.maskRecord n m old f j sup).part q).lseq = (s.part q).lseq ∧ ((s.maskRecord n m old f j sup).part q).replays = (s.part q).replays :=
  ⟨raise_part_lseq .., raise_part_replays ..⟩
theorem applyMask_records (n : Nat) (m : MaskWait) (j : Nat) (s : State) :
    ∃ (b : State) (old f : Nat), b.parts = s.parts ∧ s.applyMask n m j = b.maskRecord n m old f j false := by
  unfold State.applyMask
  dsimp only
  refine ⟨_, _, _, ?_, rfl⟩
  split
  · rw [writeHeader_parts, setSmp_parts]
  · rw [setSmp_parts]
theorem applyMask_shown (n : Nat) (m : MaskWait) (j : Nat) (s : State) (q : Nat) :
    ((s.applyMask n m j).part q).lseq = (s.part q).lseq ∧ ((s.applyMask n m j).part q).replays = (s.part q).replays := by
  obtain ⟨b, old, f, hb, heq⟩ := applyMask_records n m j s
  rw [heq, ← part_congr hb]
  exact maskRecord_shown ..
theorem opSmpSlotmask_shown {k : Pkt} {s : State} (hlen : k.ps.length = 1) (hen : (s.smp (fld (arg k.ps 0) 47 45)).en = true)
    (hbad : maskBad (maskOf (arg k.ps 0)) (s.smp (fld (arg k.ps 0) 47 45)).nslots = false) (j : Nat) (b : State) :
    (((opSmpSlotmask.eval k s).act j b).part k.partner).lseq = (b.part k.partner).lseq ∧
    (((opSmpSlotmask.eval k s).act j b).part k.partner).replays = (b.part k.partner).replays := by
  unfold opSmpSlotmask
  dsimp only
  rw [if_neg (by simp [hlen, hbad]), if_neg (by simp [hen])]
  dsimp only
  cases (b.smp (fld (arg k.ps 0) 47 45)).next with
  | none =>
    dsimp only
    split
    · exact ⟨rfl, rfl⟩
    · exact applyMask_shown ..
  | some o =>
    dsimp only
    obtain ⟨hl, hr⟩ := maskRecord_shown (fld (arg k.ps 0) 47 45) o (b.smp (fld (arg k.ps 0) 47 45)).mask 0 0 true b k.partner
    split
    · exact ⟨hl, hr⟩
    · obtain ⟨hla, hra⟩ := applyMask_shown (fld (arg k.ps 0) 47 45) ⟨maskOf (arg k.ps 0), j, k.partner⟩ 0
        (b.maskRecord (fld (arg k.ps 0) 47 45) o (b.smp (fld (arg k.ps 0) 47 45)).mask 0 0 true) k.partner
      exact ⟨hla.trans hl, hra.trans hr⟩
/-- A mask in force at once, of a port that does not run: one record, to the partner that gave it. -/
theorem applyMask_idle {n j : Nat} {m : MaskWait} {b : State} (h : (b.smp n).state ≠ 2) : b.applyMask n m j =
    (b.setSmp n { b.smp n with mask := m.mask, maskOld := (b.smp n).mask, maskFrame := word (b.smp n).frame, maskJ := word j, next := none }).maskRecord n m
      (b.smp n).mask (b.smp n).frame j false := by
  unfold State.applyMask
  dsimp only
  rw [if_neg h]
theorem maskRecord_rest (n : Nat) (m : MaskWait) (old f j : Nat) (sup : Bool) (s : State) : (s.maskRecord n m old f j sup).rest = s.rest := raise_rest ..

/-! ## Start and stop (R399, R400) -/

theorem startPort_eq {n : Nat} {s : State} (hen : (s.smp n).en = true) (q : Qval) :
    ∃ x : SmpPort, s.startPort n q = ((s.setSmp n x).emit (.startLine n q)).writeHeader n ∧ x.state = 2 ∧ x.ts = q ∧ x.wr = 0xFFFFFFFFFFFF#48 ∧
      x.startSeq = ((s.smp n).startSeq + 1) % 2 ^ 16 ∧ x.startAt = none ∧ x.moved = 0 ∧ x.hdr = (s.smp n).hdr := by
  unfold State.startPort
  dsimp only
  rw [if_pos hen]
  exact ⟨_, rfl, rfl, rfl, rfl, rfl, rfl, rfl, rfl⟩
theorem stopPort_eq {n : Nat} {s : State} (hst : (s.smp n).state = 2) :
    s.stopPort n 0 = (s.setSmp n { s.smp n with state := 1, stopAt := none }).writeHeader n := by
  unfold State.stopPort
  dsimp only
  rw [if_pos hst, if_pos rfl]
@[simp] theorem smp_emit (s : State) (e : Emit) (n : Nat) : (s.emit e).smp n = s.smp n := rfl

/-- Settles O41: each command's ports, and a started or stopped port's header. -/
theorem samplePortCommands : Obligations.SamplePortCommands := by
  refine ⟨fun t env ps s => ?_, fun t env ps0 s => ?_, fun t env ps s => ?_, fun t n adr q s => ?_⟩
  · intro a n p
    refine ⟨fun h hf hplace hstate hpend hqty => ?_, fun h hf => ?_⟩
    · have hv : opSmpConfig.eval (pktOf 0x0A0 env ps a) (a.bound env) = _ := opSmpConfig_ok (k := pktOf 0x0A0 env ps a) hf hplace hstate hpend hqty
      refine runOp_completes opSmpConfig t env ps 2 s _ [] _ h (by decide) (by decide) hv rfl ?_ (fun _ b => ?_) (fun _ b u hb hu => ?_)
      · show entriesFor (ps.length + 0) + 0 ≤ 1000
        have := params_le_of_admits h
        unfold entriesFor; omega
      · exact ⟨congrArg Partner.lseq (part_congr (applySmp_parts ..) _), congrArg Partner.replays (part_congr (applySmp_parts ..) _)⟩
      · obtain ⟨c, hc⟩ := applySmp_eq n ps b
        have hu' : u.rest = ((b.setSmp n (smpOf (b.smp n) ps).configured).putClk c).rest := hu.trans (congrArg State.rest hc)
        have hn : u.smp n = p.configured := by
          rw [smp_of_rest hu']
          exact (smp_setSmp b n _).trans (congrArg (fun x => (smpOf x ps).configured) (smp_of_rest hb n))
        refine ⟨?_, ?_, ?_, ?_, ?_, ?_, ?_, ?_, fun m _ hm => ?_, ?_⟩
        · rw [hn]; rfl
        · rw [hn]
          show (if bit (arg ps 0) 27 then _ else _) = if bit (maskW (2 ^ 48 - 2 ^ 23) (arg ps 0)) 27 then _ else _
          rw [bit_maskW, show (2 ^ 48 - 2 ^ 23 : Nat).testBit 27 = true by decide, Bool.and_true]
        · rw [hn]; rfl
        · rw [hn]; rfl
        · rw [hn]; rfl
        · rw [hn]
          show (if bit (maskW (2 ^ 48 - 2 ^ 23) (arg ps 0)) 44 then _ else _) = _
          rw [bit_maskW, show (2 ^ 48 - 2 ^ 23 : Nat).testBit 44 = true by decide, Bool.and_true]
        · rw [hn]; rfl
        · rw [hn]; rfl
        · rw [smp_of_rest hu']
          exact (smp_setSmp_ne b m n _ hm).trans (smp_of_rest hb m)
        · rw [hu', of_rest_ports hu', of_rest_clk hu']
          exact congrArg (fun x : State => (x.putPorts _).putClk c) hb
    · have hv : opSmpConfig.eval (pktOf 0x0A0 env ps a) (a.bound env) = _ := opSmpConfig_field (k := pktOf 0x0A0 env ps a) hf
      exact runOp_refuses opSmpConfig t env ps 2 s .badParam [1] h (by decide) (by decide) (by simp) hv (by decide)
  · intro a tick
    refine ⟨fun h hlen hne hen => ?_, fun h hlen hne hen => ?_⟩
    · exact smpStart_completes (by decide) h hlen hne hen
    · obtain ⟨u, hu, hshow, hsmp, hrest⟩ := smpStart_completes (op := 1) (by decide) h hlen hne hen
      refine ⟨u, hu, hshow, fun n hn => (hsmp n hn).trans ?_, hrest⟩
      unfold SmpPort.ordered
      by_cases hb : bit (arg ps0 0) (45 - n) = true
      · by_cases hst : (a.smp n).state = 2
        · rw [if_pos hb, if_neg (by decide), if_pos hst, if_pos ⟨hb, hst⟩]
        · rw [if_pos hb, if_neg (by decide), if_neg hst, if_neg fun hc => hst hc.2]
      · rw [if_neg hb, if_neg fun hc => hb hc.1]
  · intro a n
    have hsize : a.admits 0x0A2 2 0xFFE env ps = true → entriesFor (ps.length + 0) + 2 ≤ 1000 := fun h => by
      have := params_le_of_admits h; unfold entriesFor; omega
    have hkeep : ∀ (hlen : ps.length = 1) (hen : (a.smp n).en = true) (hbad : maskBad (maskOf (arg ps 0)) (a.smp n).nslots = false) (j : Nat) (b : State),
        (((opSmpSlotmask.eval (pktOf 0x0A2 env ps a) (a.bound env)).act j b).part env.partner).lseq = (b.part env.partner).lseq ∧
        (((opSmpSlotmask.eval (pktOf 0x0A2 env ps a) (a.bound env)).act j b).part env.partner).replays = (b.part env.partner).replays := fun hlen hen hbad j b =>
      opSmpSlotmask_shown (k := pktOf 0x0A2 env ps a) (s := a.bound env) hlen hen hbad j b
    refine ⟨fun h hlen hen hbad hnext hst => ?_, fun h hlen hen hbad hnext hst => ?_⟩
    · have hv := opSmpSlotmask_ok (k := pktOf 0x0A2 env ps a) (s := a.bound env) hlen hen hbad
      refine runOp_completes_jsn opSmpSlotmask t env ps 2 s _ [] _ h (by decide) (by decide) hv rfl rfl (hsize h) (hkeep hlen hen hbad) (fun b u hb hu => ?_)
      have hact := opSmpSlotmask_act (k := pktOf 0x0A2 env ps a) (s := a.bound env) hlen hen hbad a.jrn.next (b := b) (by rw [smp_of_rest hb]; exact hnext)
      rw [if_pos (by rw [smp_of_rest hb]; exact hst)] at hact
      have hu' : u.rest = (b.setSmp n { b.smp n with next := some ⟨maskOf (arg ps 0), a.jrn.next, env.partner⟩ }).rest := hu.trans (congrArg State.rest hact)
      refine ⟨?_, ?_⟩
      · rw [smp_of_rest hu', smp_setSmp, smp_of_rest hb]
      · rw [hu', of_rest_ports hu']
        exact congrArg (State.putPorts · _) hb
    · have hv := opSmpSlotmask_ok (k := pktOf 0x0A2 env ps a) (s := a.bound env) hlen hen hbad
      obtain ⟨c, hc, u, hu, hshow, heq⟩ := runOp_accepted opSmpSlotmask t env ps 2 s _ h (by decide) (by decide) hv rfl (hsize h) (hkeep hlen hen hbad)
      have hact := opSmpSlotmask_act (k := pktOf 0x0A2 env ps a) (s := a.bound env) hlen hen hbad a.jrn.next (b := c) (by rw [smp_of_rest hc.rest]; exact hnext)
      rw [if_neg (by rw [smp_of_rest hc.rest]; exact hst)] at hact
      have hidle := applyMask_idle (n := n) (j := 0) (m := ⟨maskOf (arg ps 0), a.jrn.next, env.partner⟩) (b := c) (by rw [smp_of_rest hc.rest]; exact hst)
      have hu' : u = _ := heq.trans (hact.trans hidle)
      have hrest : u.rest = (c.setSmp n _).rest := (congrArg State.rest hu').trans (maskRecord_rest ..)
      have hn : u.smp n = _ := (smp_of_rest hrest n).trans (smp_setSmp ..)
      refine ⟨u, hu, hshow, ?_, ?_, ?_, ?_, ?_⟩
      · rw [hn]
      · rw [hn]
        exact congrArg SmpPort.mask (smp_of_rest hc.rest n)
      · rw [hn]; rfl
      · rw [hu']
        exact hc.toldOne (b := c.setSmp n _) rfl rfl env.partner false _ rfl
      · rw [hrest, of_rest_ports hrest]
        exact congrArg (State.putPorts · _) hc.rest
  · intro a p
    refine ⟨fun hn hstart hdue hen => ?_, fun hn hstop hdue hst hidx => ?_⟩
    · refine ⟨a.startPort n q, ?_, ?_⟩
      · show execSmpPortStart t n s = _
        unfold execSmpPortStart
        dsimp only
        rw [show ((s.elapse t).smp n).startAt = some q from hstart]
        dsimp only
        rw [if_pos ⟨hn, by rw [show behind (s.elapse t).tb.q0 q = false from hdue]; rfl⟩]
      · obtain ⟨x, hx, hstate, hts, hwr, hseq, hat, hmoved, hhdr⟩ := startPort_eq hen q
        have hsmp : ((a.setSmp n x).emit (.startLine n q)).smp n = x := by rw [smp_emit, smp_setSmp]
        obtain ⟨hread, hout⟩ := writeHeader_mem n ((a.setSmp n x).emit (.startLine n q))
        have hp := writeHeader_smp n ((a.setSmp n x).emit (.startLine n q))
        rw [hsmp, hhdr] at hread hout
        rw [hsmp] at hp
        rw [hx]
        refine ⟨by rw [hp]; exact hstate, by rw [hp]; exact hts, by rw [hp]; exact hwr, by rw [hp]; exact hseq, by rw [hp]; exact hat, by rw [hp]; exact hmoved,
          hread, hout adr, rfl, fun m _ hm => ?_, rfl⟩
        rw [writeHeader_smp_ne hm, smp_emit, smp_setSmp_ne _ _ _ _ hm]
    · refine ⟨a.stopPort n 0, ?_, ?_⟩
      · show execSmpPortStop t n s = _
        unfold execSmpPortStop
        dsimp only
        rw [show ((s.elapse t).smp n).stopAt = some q from hstop]
        dsimp only
        rw [if_pos ⟨hn, hst, by rw [show behind (s.elapse t).tb.q0 q = false from hdue]; rfl, hidx⟩]
      · have hsmp : (a.setSmp n { p with state := 1, stopAt := none }).smp n = { p with state := 1, stopAt := none } := smp_setSmp ..
        obtain ⟨hread, hout⟩ := writeHeader_mem n (a.setSmp n { p with state := 1, stopAt := none })
        have hp := writeHeader_smp n (a.setSmp n { p with state := 1, stopAt := none })
        rw [hsmp] at hread hout hp
        rw [stopPort_eq hst]
        refine ⟨by rw [hp]; rfl, by rw [hp]; rfl, by rw [hp]; rfl, hread, hout adr, fun m _ hm => ?_, rfl⟩
        rw [writeHeader_smp_ne hm, smp_setSmp_ne _ _ _ _ hm]

end Sys2Proof.Machine
end

section
/-! Input frames, missing frames and the mute of sample ports (R387, R388, R391, R402-R404) (O42). -/
namespace Sys2Proof.Machine
open Sys2Proof

/-! ## Input frames (R387, R388, R391) -/

/-- The direct path takes one free value for its stamp (R405). -/
def State.stamped (s : State) : State := if s.clk.direct then s.putFresh (s.fresh + 1) else s
/-- The stamp of an edge. -/
def State.stamp (s : State) : Qval := if s.clk.direct then qadd s.tb.q0 (-((Config.freeNat s.fresh % 28147498 : Nat) : Int)) else s.tb.q0
section
variable {t : Lapse} {n bclk clocks : Nat} {rising : Bool} {line : List (Bool × Bool)} {s : State} {a : State} (ha : s.elapse t = a) (hn : n < 8)
  (hen : (a.smp n).en = true) (hon : a.isOn 10 = true) (hpins : a.pinsLatched 10 = false) (hstart : (a.smp n).starts rising = true)
include ha hn hen hon hpins hstart

theorem execSmpFrameStart_bad (h : (a.smp n).countBad clocks = true ∨ ((a.smp n).tracked a.stamp).rateBad bclk = true) :
    execSmpFrameStart t n rising bclk clocks line s =
      .next ((a.stamped.setSmp n { (a.smp n).tracked a.stamp with clocks := clocks }).frameMissing n true) := by
  subst ha
  unfold execSmpFrameStart
  dsimp only
  rw [if_pos ⟨hn, hen, hon, by rw [hpins]; rfl, hstart⟩]
  exact if_pos h
/-- The port after a good frame. -/
def SmpPort.good_ (p : SmpPort) (st : Qval) (clocks : Nat) : SmpPort :=
  SmpPort.locks { p.tracked st with clocks := clocks } (psOfUnits (qdist st (p.tracked st).edge)).natAbs
/-- What a good frame leaves before a staged mask takes effect. -/
def State.framed (n clocks : Nat) (line : List (Bool × Bool)) (s : State) : State :=
  (State.scanPairs n ((List.range (s.smp n).nslots).map ((s.smp n).word_ line)) (s.stamped.setSmp n ((s.smp n).good_ s.stamp clocks))).takeFrame n
    ((List.range (s.smp n).nslots).map ((s.smp n).word_ line)) s.clk.direct
section
variable (hc : (a.smp n).countBad clocks = false) (hr : ((a.smp n).tracked a.stamp).rateBad bclk = false)
include hc hr
theorem execSmpFrameStart_good (hnext : (a.smp n).next = none) : execSmpFrameStart t n rising bclk clocks line s = .next (a.framed n clocks line) := by
  subst ha
  unfold State.stamp at hr
  unfold execSmpFrameStart
  dsimp only
  rw [if_pos ⟨hn, hen, hon, by rw [hpins]; rfl, hstart⟩, if_neg (not_or.mpr ⟨by simp [hc], fun h => Bool.false_ne_true (hr.symm.trans h)⟩), hnext]
  rfl
theorem execSmpFrameStart_mask {m : MaskWait} (hnext : (a.smp n).next = some m) :
    ∃ j, execSmpFrameStart t n rising bclk clocks line s = .next ((a.framed n clocks line).applyMask n m j) := by
  subst ha
  unfold State.stamp at hr
  unfold execSmpFrameStart
  dsimp only
  rw [if_pos ⟨hn, hen, hon, by rw [hpins]; rfl, hstart⟩, if_neg (not_or.mpr ⟨by simp [hc], fun h => Bool.false_ne_true (hr.symm.trans h)⟩), hnext]
  exact ⟨_, rfl⟩
end
end

/-! ## What the steps of a frame leave -/

theorem scanPairs_off {n : Nat} {s : State} (h : bit (s.smp n).cfg0 28 = false) (vs : List Int) : s.scanPairs n vs = s := by
  unfold State.scanPairs
  rw [if_pos (by rw [h]; rfl)]
/-- A port that does not run takes a frame in where it is in lock. -/
def SmpPort.takes_ (p : SmpPort) (keep : Qval) (vs : List Int) (direct : Bool) : SmpPort :=
  if p.lock then { p with inputs := (p.inputs.filter fun f => !behind f.at_ keep) ++
      [⟨p.frame, qadd p.edge (-p.inDly), vs, (List.range 8).filter (fun i => (p.pair i).muted), direct⟩] } else p
theorem takeFrame_idle {n : Nat} {s : State} (h : (s.smp n).state ≠ 2) (vs : List Int) (direct : Bool) :
    ∃ keep, (s.takeFrame n vs direct).smp n = (s.smp n).takes_ keep vs direct ∧ (∀ m, m ≠ n → (s.takeFrame n vs direct).smp m = s.smp m) ∧
      ∃ x, s.takeFrame n vs direct = s.putPorts x := by
  refine ⟨s.keepFrom (s.smp n), ?_⟩
  unfold State.takeFrame SmpPort.takes_
  dsimp only
  rw [if_neg h]
  dsimp only
  rw [if_neg Bool.false_ne_true]
  by_cases hl : (s.smp n).lock = true
  · rw [if_neg (by simp [hl]), if_pos hl]
    exact ⟨smp_setSmp .., fun m hm => smp_setSmp_ne _ _ _ _ hm, _, rfl⟩
  · rw [if_pos (by simpa using hl), if_neg hl]
    exact ⟨rfl, fun _ _ => rfl, s.ports, rfl⟩
theorem smp_stamped (s : State) (n : Nat) : s.stamped.smp n = s.smp n := by
  unfold State.stamped; split <;> rfl
theorem stamped_eq (s : State) : ∃ f, s.stamped = s.putFresh f := by
  unfold State.stamped
  split
  · exact ⟨_, rfl⟩
  · exact ⟨s.fresh, rfl⟩
/-- A good frame of a port that does not run and reads no pairs. -/
theorem framed_idle {n clocks : Nat} {line : List (Bool × Bool)} {s : State} (hst : (s.smp n).state ≠ 2) (h28 : bit (s.smp n).cfg0 28 = false) :
    ∃ keep, (s.framed n clocks line).smp n = ((s.smp n).good_ s.stamp clocks).takes_ keep ((List.range (s.smp n).nslots).map ((s.smp n).word_ line)) s.clk.direct ∧
      (∀ m, m ≠ n → (s.framed n clocks line).smp m = s.smp m) ∧ ∃ x f, s.framed n clocks line = (s.putFresh f).putPorts x := by
  have hsmp : (s.stamped.setSmp n ((s.smp n).good_ s.stamp clocks)).smp n = (s.smp n).good_ s.stamp clocks := smp_setSmp ..
  obtain ⟨f, hf⟩ := stamped_eq s
  have hbit : bit ((s.stamped.setSmp n ((s.smp n).good_ s.stamp clocks)).smp n).cfg0 28 = false := by rw [hsmp]; exact h28
  obtain ⟨keep, hk, hother, x, hx⟩ := takeFrame_idle (n := n) (s := s.stamped.setSmp n ((s.smp n).good_ s.stamp clocks)) (by rw [hsmp]; exact hst)
    ((List.range (s.smp n).nslots).map ((s.smp n).word_ line)) s.clk.direct
  refine ⟨keep, ?_⟩
  unfold State.framed
  rw [scanPairs_off hbit]
  refine ⟨by rw [hk, hsmp], fun m hm => ?_, x, f, ?_⟩
  · rw [hother m hm, smp_setSmp_ne _ _ _ _ hm, smp_stamped]
  · rw [hx, hf]; rfl
/-- What a missing frame writes of its port (R388, R402). -/
def SmpPort.missed (fmtErr : Bool) (x : SmpPort) : SmpPort :=
  { x with
    lock := false, good := 0, resids := [], under := true, fmtErr := fmtErr
    underruns := if x.under then x.underruns else satN 16 (x.underruns + 1)
    fmtErrs := if fmtErr && !x.fmtErr then satN 16 (x.fmtErrs + 1) else x.fmtErrs
    inFill := x.inFill || decide (x.state = 2), filledRun := if x.inFill then x.filledRun else 0 }
theorem frameMissing_eq (n : Nat) (fmtErr : Bool) (s : State) : s.frameMissing n fmtErr =
    if (s.smp n).under then s.setSmp n ((s.smp n).missed fmtErr)
    else (s.setSmp n ((s.smp n).missed fmtErr)).raiseLimited false 0xB01 n [word n, word fmtErr.toNat] := by
  unfold State.frameMissing SmpPort.missed
  rfl
theorem frameMissing_rest (n : Nat) (fmtErr : Bool) (s : State) : (s.frameMissing n fmtErr).rest = (s.setSmp n ((s.smp n).missed fmtErr)).rest := by
  rw [frameMissing_eq]
  split
  · rfl
  · exact raiseLimited_rest ..
/-- The first one of a run raises its record. -/
theorem frameMissing_told {n : Nat} {fmtErr : Bool} {a s : State} (hp : s.parts = a.parts) (hj : s.jrn = a.jrn) (hr : s.raised = a.raised)
    (hunder : (s.smp n).under = false) (hfirst : tget none (0xB01 * 65536 + n) a.raised = none) : Told a (s.frameMissing n fmtErr) := by
  rw [frameMissing_eq, if_neg (by simp [hunder])]
  exact raiseLimited_told ((setSmp_parts ..).trans hp) ((setSmp_jrn ..).trans hj) _ _ _ _ (by rw [setSmp_raised, hr]; exact hfirst)
theorem takes_keeps {γ : Type} (f : SmpPort → γ) (hf : ∀ x l, f { x with inputs := l } = f x) (p : SmpPort) (keep : Qval) (vs : List Int) (direct : Bool) :
    f (p.takes_ keep vs direct) = f p := by
  unfold SmpPort.takes_
  split
  · exact hf ..
  · rfl
/-- What the statement says of a good frame's port before a mask, and after one. -/
theorem framed_tracks {p : SmpPort} {st : Qval} {clocks : Nat} {keep : Qval} {line : List (Bool × Bool)} {direct : Bool} {x : SmpPort}
    (hx : x = (p.good_ st clocks).takes_ keep ((List.range p.nslots).map (p.word_ line)) direct) :
    x.frame = (p.tracked st).frame ∧ x.edge = (p.tracked st).edge ∧ x.rate = (p.tracked st).rate ∧ x.wr = p.wr ∧ x.under = false ∧ x.fmtErr = false ∧
    x.good = (p.good_ st clocks).good ∧ x.lock = (p.good_ st clocks).lock ∧ x.mask = p.mask ∧ x.state = p.state ∧
    (x.lock = true → x.inputs.getLast?.map (fun f => (f.idx, f.at_, f.vals, f.direct)) =
      some ((p.tracked st).frame, qadd (p.tracked st).edge (-p.inDly), (List.range p.nslots).map (p.word_ line), direct)) := by
  subst hx
  refine ⟨takes_keeps (fun x => x.frame) (fun _ _ => rfl) .., takes_keeps (fun x => x.edge) (fun _ _ => rfl) .., takes_keeps (fun x => x.rate) (fun _ _ => rfl) ..,
    takes_keeps (fun x => x.wr) (fun _ _ => rfl) .., takes_keeps (fun x => x.under) (fun _ _ => rfl) .., takes_keeps (fun x => x.fmtErr) (fun _ _ => rfl) ..,
    takes_keeps (fun x => x.good) (fun _ _ => rfl) .., takes_keeps (fun x => x.lock) (fun _ _ => rfl) .., takes_keeps (fun x => x.mask) (fun _ _ => rfl) ..,
    takes_keeps (fun x => x.state) (fun _ _ => rfl) .., fun hl => ?_⟩
  rw [takes_keeps (fun x => x.lock) (fun _ _ => rfl)] at hl
  unfold SmpPort.takes_
  rw [if_pos hl]
  dsimp only
  rw [List.getLast?_append_cons]
  rfl
theorem good_good (p : SmpPort) (st : Qval) (clocks : Nat) : (p.good_ st clocks).good =
    if p.hadLock = false ∨ (psOfUnits (qdist st (p.tracked st).edge)).natAbs < 100000 then min 64 (p.good + 1) else 0 := by
  unfold SmpPort.good_ SmpPort.locks
  dsimp only
  exact if_congr (or_congr (by rw [Bool.not_eq_true']; exact Iff.rfl) Iff.rfl) rfl rfl
theorem good_lock (p : SmpPort) (st : Qval) (clocks : Nat) : (p.good_ st clocks).lock =
    (p.lock || (if p.hadLock then decide (16 ≤ (p.good_ st clocks).good)
      else decide ((((psOfUnits (qdist st (p.tracked st).edge)).natAbs :: p.resids).take 64).length = 64) &&
        decide ((((psOfUnits (qdist st (p.tracked st).edge)).natAbs :: p.resids).take 64).foldl (fun x e => x + e * e) 0 < 64 * 20000 ^ 2))) := rfl
section
variable {t : Lapse} {n bclk clocks : Nat} {rising : Bool} {line : List (Bool × Bool)} {s : State}

/-- A frame that the port takes (R387, R391, R403). -/
theorem frameStart_taken {a : State} (ha : s.elapse t = a) (hn : n < 8) (hen : (a.smp n).en = true) (hon : a.isOn 10 = true) (hpins : a.pinsLatched 10 = false)
    (hstart : (a.smp n).starts rising = true) (h28 : bit (a.smp n).cfg0 28 = false) (hst : (a.smp n).state ≠ 2)
    (hc : (a.smp n).countBad clocks = false) (hr : ((a.smp n).tracked a.stamp).rateBad bclk = false) :
    ∃ keep u, execSmpFrameStart t n rising bclk clocks line s = .next u ∧ (∀ m, m ≠ n → u.smp m = a.smp m) ∧
      u.rest = ((a.putPorts u.ports).putFresh u.fresh).rest ∧
      let x := ((a.smp n).good_ a.stamp clocks).takes_ keep ((List.range (a.smp n).nslots).map ((a.smp n).word_ line)) a.clk.direct
      ((a.smp n).next = none ∧ u.smp n = x ∧ u.parts = a.parts) ∨
      ∃ (w : MaskWait) (j : Nat), (a.smp n).next = some w ∧
        u.smp n = { x with mask := w.mask, maskOld := x.mask, maskFrame := word x.frame, maskJ := word j, next := none } ∧ ToldOne w.partner a u := by
  obtain ⟨keep, hk, hother, x, f, hx⟩ := framed_idle (clocks := clocks) (line := line) hst h28
  refine ⟨keep, ?_⟩
  cases hnext : (a.smp n).next with
  | none =>
    refine ⟨_, execSmpFrameStart_good ha hn hen hon hpins hstart hc hr hnext, hother, ?_, .inl ⟨rfl, hk, ?_⟩⟩
    · rw [hx]; rfl
    · rw [hx]; rfl
  | some w =>
    obtain ⟨j, hj⟩ := execSmpFrameStart_mask (line := line) ha hn hen hon hpins hstart hc hr hnext
    have hidle : ((a.framed n clocks line).smp n).state ≠ 2 := by
      rw [hk, takes_keeps (fun x => x.state) (fun _ _ => rfl)]
      exact hst
    refine ⟨_, hj, fun m hm => ?_, ?_, .inr ⟨w, j, rfl, ?_, ?_⟩⟩
    · rw [applyMask_idle hidle, smp_of_rest (maskRecord_rest ..), smp_setSmp_ne _ _ _ _ hm, hother m hm]
    · have hrest : ((a.framed n clocks line).applyMask n w j).rest = _ := (congrArg State.rest (applyMask_idle (m := w) (j := j) hidle)).trans (maskRecord_rest ..)
      rw [hrest, of_rest_ports hrest, of_rest_fresh hrest, hx]
      rfl
    · rw [applyMask_idle hidle, smp_of_rest (maskRecord_rest ..), smp_setSmp, hk]
    · rw [applyMask_idle hidle]
      refine toldOne_record (b := (a.framed n clocks line).setSmp n _) ?_ ?_ w.partner false _ rfl
      · rw [setSmp_parts, hx]; rfl
      · rw [setSmp_jrn, hx]; rfl
end

/-! ## Missing frames and the mute (R388, R404) -/

section
variable {t : Lapse} {n : Nat} {s : State}

theorem execSmpMissingFrame_missing {bclk : Nat} {a : State} (ha : s.elapse t = a) (hn : n < 8) (hen : (a.smp n).en = true) (hon : a.isOn 10 = true)
    (hpins : a.pinsLatched 10 = false)
    (h : ((a.smp n).rate ≠ 0 ∧ behind a.tb.q0 ((a.smp n).predicted 3) = false) ∨ (a.smp n).rateBad bclk = true) :
    execSmpMissingFrame t n bclk s = .next (a.frameMissing n ((a.smp n).rateBad bclk)) := by
  subst ha
  unfold execSmpMissingFrame
  dsimp only
  refine if_pos ⟨hn, hen, hon, by rw [hpins]; rfl, h.imp_left fun ⟨h0, hb⟩ => ?_⟩
  rw [hb, bne_iff_ne.mpr h0]; rfl
theorem execSmpAudio_unmutes {pair : Nat} {a : State} (ha : s.elapse t = a) (hn : n < 8) (hp : pair < 8) (hm : ((a.smp n).pair pair).muted = true)
    (hlong : ((a.smp n).pair pair).since + 8192 ≤ (a.smp n).frame) :
    execSmpAudio t n pair s = .next ((a.setSmp n { a.smp n with pairs := tput {} pair { (a.smp n).pair pair with muted := false } (a.smp n).pairs }).raiseLimited
      false 0xB04 n [word n, word pair, word ((a.smp n).pair pair).count]) := by
  subst ha
  unfold execSmpAudio
  dsimp only
  rw [if_pos ⟨hn, hp, hm, hlong⟩]
end

/-! ## Samples and rings (R392-R398, R402) -/

/-- A port without what writing a slot may change. -/
def SmpPort.bare (p : SmpPort) : SmpPort := { p with lastVal := [], pairs := [] }
/-- The ring word of slot k at index j. -/
def SmpPort.place_ (p : SmpPort) (k j : Nat) : Nat := p.base + k * p.len + j % p.len
/-- The word that Windvane writes to slot k (Table 4). -/
def State.slotWord_ (n j : Nat) (c : Place) (all : Bool) (fs : List InFrame) (k : Nat) (s : State) : Word :=
  slotWord (if bit (s.smp n).cfg0 29 then tget 0 k (s.smp n).lastVal else 0) all (fs.any fun f => f.muted.contains (k / 2))
    (s.clk.pllW.state == 3 || fs.any fun f => f.direct) c.est (decide (256 * s.outRate (s.smp n) c.at_ < (s.smp n).rate.toNat))
    (Config.resample (fs.map fun f => (qdist f.at_ c.at_, f.vals.getD k 0)) (s.smp n).rate.toNat (s.outRate (s.smp n) c.at_)) j
/-- A port after one of its slots is written. -/
def SmpPort.slotDone (all muted : Bool) (k : Nat) (w : Word) (p : SmpPort) : SmpPort :=
  let p := if all then p else { p with lastVal := tput 0 k (sfld w 47 16) p.lastVal }
  if muted && !all && k % 2 == 0 then { p with pairs := tput {} (k / 2) { p.pair (k / 2) with count := (p.pair (k / 2)).count + 1 } p.pairs } else p
theorem slotDone_bare (all muted : Bool) (k : Nat) (w : Word) (p : SmpPort) : (p.slotDone all muted k w).bare = p.bare := by
  unfold SmpPort.slotDone
  dsimp only
  split <;> split <;> rfl
theorem slotDone_last {k i : Nat} (h : i ≠ k) (all muted : Bool) (w : Word) (p : SmpPort) :
    tget 0 i (p.slotDone all muted k w).lastVal = tget 0 i p.lastVal := by
  have hput : tget 0 i (if all then p else { p with lastVal := tput 0 k (sfld w 47 16) p.lastVal }).lastVal = tget 0 i p.lastVal := by
    split
    · rfl
    · exact tget_tput_ne _ _ _ _ _ _ h
  unfold SmpPort.slotDone
  dsimp only
  split
  · exact hput
  · exact hput
theorem place_congr {p q : SmpPort} (h : p.bare = q.bare) (k j : Nat) : p.place_ k j = q.place_ k j :=
  by
  show p.bare.place_ k j = q.bare.place_ k j
  rw [h]
section
variable (n j : Nat) (c : Place) (all : Bool) (fs : List InFrame)

/-- An enabled slot writes its word, and of its port no more than its own last value and its mute counts. -/
theorem writeSlot_writes {k : Nat} {s : State} (h : (s.smp n).writes k j = true) : ∃ x : SmpPort, x.bare = (s.smp n).bare ∧
    (∀ i, i ≠ k → tget 0 i x.lastVal = tget 0 i (s.smp n).lastVal) ∧
    s.writeSlot n j c all fs k = (s.setSmp n x).memWrites ((s.smp n).place_ k j) [s.slotWord_ n j c all fs k] := by
  have heq : s.writeSlot n j c all fs k = (s.setSmp n ((s.smp n).slotDone all (fs.any fun f => f.muted.contains (k / 2)) k (s.slotWord_ n j c all fs k))).memWrites
      (((s.smp n).slotDone all (fs.any fun f => f.muted.contains (k / 2)) k (s.slotWord_ n j c all fs k)).place_ k j) [s.slotWord_ n j c all fs k] := by
    unfold State.writeSlot
    dsimp only
    rw [if_pos h]
    rfl
  refine ⟨(s.smp n).slotDone all (fs.any fun f => f.muted.contains (k / 2)) k (s.slotWord_ n j c all fs k), slotDone_bare .., fun i hi => slotDone_last hi .., heq.trans ?_⟩
  rw [place_congr (slotDone_bare ..)]
theorem writeSlot_masked {k : Nat} {s : State} (h : (s.smp n).writes k j = false) : s.writeSlot n j c all fs k = s := by
  unfold State.writeSlot
  dsimp only
  rw [if_neg (by simp [h])]
end
/-- What writing the slots of a list leaves. -/
structure Written (a : State) (n j : Nat) (l : List Nat) (b : State) : Prop where
  smp : (b.smp n).bare = (a.smp n).bare
  last : ∀ i, i ∉ l → tget 0 i (b.smp n).lastVal = tget 0 i (a.smp n).lastVal
  others : ∀ m, m ≠ n → b.smp m = a.smp m
  eq : ∃ ports mem, b = (a.putPorts ports).putMem mem
  cells : ∀ adr, (∀ k, k ∈ l → adr / 6 ≠ (a.smp n).place_ k j % 2 ^ 24) → cellRead adr b.mem.cells = cellRead adr a.mem.cells
theorem written_nil (a : State) (n j : Nat) : Written a n j [] a where
  smp := rfl
  last _ _ := rfl
  others _ _ := rfl
  eq := ⟨a.ports, a.mem, rfl⟩
  cells _ _ := rfl
section
variable {a b : State} {n j : Nat} {l : List Nat} (c : Place) (all : Bool) (fs : List InFrame)

theorem Written.slot (h : Written a n j l b) (k : Nat) : Written a n j (l ++ [k]) (b.writeSlot n j c all fs k) := by
  cases hw : (b.smp n).writes k j with
  | false =>
    rw [writeSlot_masked n j c all fs hw]
    exact ⟨h.smp, fun i hi => h.last i (fun hc => hi (List.mem_append_left _ hc)), h.others, h.eq, fun adr hadr => h.cells adr fun k hk => hadr k (List.mem_append_left _ hk)⟩
  | true =>
    obtain ⟨x, hbare, hlast, heq⟩ := writeSlot_writes n j c all fs hw
    obtain ⟨ports, mem, hb⟩ := h.eq
    rw [heq]
    refine ⟨?_, fun i hi => ?_, fun m hm => ?_, ?_, fun adr hadr => ?_⟩
    · rw [smp_memWrites, smp_setSmp, hbare, h.smp]
    · rw [smp_memWrites, smp_setSmp, hlast i (fun hc => hi (by simp [hc])), h.last i (fun hc => hi (List.mem_append_left _ hc))]
    · rw [smp_memWrites, smp_setSmp_ne _ _ _ _ hm, h.others m hm]
    · refine ⟨tput {} n x ports, mem.writes ((b.smp n).place_ k j) [b.slotWord_ n j c all fs k], ?_⟩
      generalize b.slotWord_ n j c all fs k = w
      generalize (b.smp n).place_ k j = e
      rw [hb]; rfl
    · refine Eq.trans (Memory.cellRead_writes_out b.mem _ adr [_] fun i hi => ?_) (h.cells adr fun k hk => hadr k (List.mem_append_left _ hk))
      have hi0 : i = 0 := by simpa using hi
      rw [hi0, Nat.add_zero, place_congr h.smp]
      exact hadr k (by simp)
theorem Written.slots (h : Written a n j l b) (m : List Nat) : Written a n j (l ++ m) (m.foldl (fun s k => s.writeSlot n j c all fs k) b) := by
  induction m generalizing l b with
  | nil => rw [List.append_nil]; exact h
  | cons k m ih =>
    have hk := ih (h.slot c all fs k)
    rwa [List.append_assoc] at hk
end
theorem len_pos (p : SmpPort) : 0 < p.len := Nat.two_pow_pos _
/-- A slot's word lies in its own ring. -/
theorem place_bounds (p : SmpPort) (k j : Nat) : p.base + k * p.len ≤ p.place_ k j ∧ p.place_ k j < p.base + (k + 1) * p.len := by
  have := Nat.mod_lt j (len_pos p)
  unfold SmpPort.place_
  rw [Nat.succ_mul]
  omega
theorem place_lt_hdr {p : SmpPort} {k : Nat} (h : k < p.nslots) (j : Nat) : p.place_ k j < p.hdr :=
  (place_bounds p k j).2.trans_le (Nat.add_le_add_left (Nat.mul_le_mul_right _ h) _)
theorem place_lt_place {p : SmpPort} {i k : Nat} (h : i < k) (j : Nat) : p.place_ i j < p.place_ k j :=
  ((place_bounds p i j).2.trans_le (Nat.add_le_add_left (Nat.mul_le_mul_right _ h) _)).trans_le (place_bounds p k j).1
theorem place_ne {p : SmpPort} {i k : Nat} (h : i ≠ k) (j : Nat) : p.place_ i j ≠ p.place_ k j :=
  (Nat.lt_or_gt_of_ne h).elim (fun h => (place_lt_place h j).ne) (fun h => (place_lt_place h j).ne')
theorem outRate_congr {a b : State} {p q : SmpPort} (hrest : a.rateNow = b.rateNow) (h : p.bare = q.bare) (tj : Qval) : a.outRate p tj = b.outRate q tj := by
  show a.outRate p.bare tj = b.outRate q.bare tj
  rw [h]
  unfold State.outRate
  rw [hrest]
/-- Windvane's word for a slot is that of the state before the slots of the index: the others do not enter it. -/
theorem Written.slotWord_ {a b : State} {n j : Nat} {l : List Nat} (h : Written a n j l b) (c : Place) (all : Bool) (fs : List InFrame) {k : Nat} (hk : k ∉ l) :
    b.slotWord_ n j c all fs k = a.slotWord_ n j c all fs k := by
  obtain ⟨ports, mem, hb⟩ := h.eq
  have hrate : b.rateNow = a.rateNow := by
    subst hb
    exact funext fun n => rateIn_of_sameValues (a := (a.putPorts ports).putMem mem) (b := a) ⟨rfl, fun m => ⟨(a.qty m).direct, rfl⟩⟩ 16 n
  have hclk : b.clk = a.clk := by rw [hb]; rfl
  have hcfg : (b.smp n).bare.cfg0 = (a.smp n).bare.cfg0 := by rw [h.smp]
  have hfin : (b.smp n).bare.rate = (a.smp n).bare.rate := by rw [h.smp]
  change (b.smp n).cfg0 = (a.smp n).cfg0 at hcfg
  change (b.smp n).rate = (a.smp n).rate at hfin
  unfold State.slotWord_
  rw [outRate_congr hrate h.smp, hclk, hcfg, hfin, h.last k hk]
/-- The slots of an index, one behind the other. -/
def State.writeSlots (n j : Nat) (c : Place) (all : Bool) (fs : List InFrame) (s : State) : State :=
  (List.range (s.smp n).nslots).foldl (fun s k => s.writeSlot n j c all fs k) s
theorem written_slots (a : State) (n j : Nat) (c : Place) (all : Bool) (fs : List InFrame) :
    Written a n j (List.range (a.smp n).nslots) (a.writeSlots n j c all fs) := by
  have h := (written_nil a n j).slots c all fs (List.range (a.smp n).nslots)
  rwa [List.nil_append] at h
theorem read_congr_cells {m m' : Memory} {e : Nat} (h : ∀ adr, adr / 6 = e → cellRead adr m.cells = cellRead adr m'.cells) : m.read e = m'.read e := by
  have hk : ∀ k, k < 6 → cellRead (6 * e + k) m.cells = cellRead (6 * e + k) m'.cells := fun k hk => h _ (by omega)
  unfold Memory.read
  dsimp only
  rw [hk 0 (by decide), hk 1 (by decide), hk 2 (by decide), hk 3 (by decide), hk 4 (by decide), hk 5 (by decide)]
/-- Each enabled slot's ring takes its word. -/
theorem writeSlots_read {a : State} {n k j : Nat} (c : Place) (all : Bool) (fs : List InFrame) (hbase : (a.smp n).hdr ≤ 2 ^ 24) (hk : k < (a.smp n).nslots)
    (hw : (a.smp n).writes k j = true) : (a.writeSlots n j c all fs).mem.read ((a.smp n).place_ k j) = a.slotWord_ n j c all fs k := by
  have hlt : ∀ i, i < (a.smp n).nslots → (a.smp n).place_ i j % 2 ^ 24 = (a.smp n).place_ i j :=
    fun i hi => Nat.mod_eq_of_lt ((place_lt_hdr hi j).trans_le hbase)
  obtain ⟨m, hm⟩ : ∃ m, List.range (a.smp n).nslots = List.range k ++ k :: m := by
    obtain ⟨d, hd⟩ := Nat.exists_eq_add_of_lt hk
    refine ⟨(List.range d).map (k + 1 + ·), ?_⟩
    rw [hd, Nat.add_assoc, List.range_add, List.range_succ_eq_map, List.map_cons, List.map_map, Nat.add_zero]
    refine congrArg (fun x => List.range k ++ k :: x) (List.map_congr_left fun i _ => ?_)
    show k + (i + 1) = k + 1 + i
    omega
  have hnot : ∀ i, i ∈ m → i ≠ k ∧ i < (a.smp n).nslots := fun i hi =>
    ⟨fun h => (List.nodup_cons.mp (List.nodup_append.mp (hm ▸ List.nodup_range)).2.1).1 (h ▸ hi), List.mem_range.mp (hm ▸ by simp [hi])⟩
  have hpre := (written_nil a n j).slots c all fs (List.range k)
  rw [List.nil_append] at hpre
  unfold State.writeSlots
  rw [hm, List.foldl_append, List.foldl_cons]
  generalize (List.range k).foldl (fun s k => s.writeSlot n j c all fs k) a = b at hpre
  have hbw : (b.smp n).writes k j = true := by
    show (b.smp n).bare.writes k j = true
    rw [hpre.smp]; exact hw
  obtain ⟨x, -, -, heq⟩ := writeSlot_writes n j c all fs hbw
  have hpost := (written_nil (b.writeSlot n j c all fs k) n j).slots c all fs m
  have hsmp : ((b.writeSlot n j c all fs k).smp n).bare = (a.smp n).bare := (hpre.slot c all fs k).smp
  calc _ = (b.writeSlot n j c all fs k).mem.read ((a.smp n).place_ k j) := read_congr_cells fun adr hadr =>
          hpost.cells adr fun i hi => by
            rw [place_congr hsmp, hadr, hlt i (hnot i hi).2]
            exact place_ne (hnot i hi).1.symm j
    _ = b.slotWord_ n j c all fs k := by
          rw [heq, place_congr hpre.smp]
          have hread := Memory.read_writes b.mem ((a.smp n).place_ k j) 0 [b.slotWord_ n j c all fs k] Nat.one_pos (show 1 ≤ 2 ^ 24 by decide)
          rwa [Nat.add_zero, hlt k hk] at hread
    _ = _ := hpre.slotWord_ c all fs (by simp)
/-- A port after an index is written (R394, R402). -/
def SmpPort.indexed (p : SmpPort) (j frame : Nat) (all fast : Bool) : SmpPort :=
  let done := p.inFill && !all
  { p with
    wr := word j, wrFrame := frame
    filled := if all then satN 24 (p.filled + 1) else p.filled
    overrate := if fast then satN 16 (p.overrate + 1) else p.overrate
    inFill := p.inFill && !done, filledRun := if done then 0 else if all && p.inFill then p.filledRun + 1 else p.filledRun }
/-- The state after an index is written, its header included. -/
def State.indexed (n j frame : Nat) (all fast : Bool) (s : State) : State := (s.setSmp n ((s.smp n).indexed j frame all fast)).writeHeader n
section
variable {t : Lapse} {n : Nat} {c : Place} {s a : State} (ha : s.elapse t = a) (hn : n < 8) (hst : (a.smp n).state = 2) (hon : a.isOn 10 = true)
  (hclk : a.clk.pllW.gives = true) (hplace : a.place (a.smp n) (a.smp n).nextIdx = some c)
  (htime : a.span (a.smp n) c.at_ + max (a.smp n).inDly 0 ≤ qdist a.tb.q0 c.at_) (hopen : (a.smp n).stopAt.all (fun q => behind c.at_ q) = true)
include ha hn hst hon hclk hplace htime hopen

theorem execSmpSampleWrite_writes {w : Int} {fs : List InFrame} {all : Bool} {b : State}
    (hw : a.span (a.smp n) c.at_ = w) (hfs : (a.smp n).within c.at_ w = fs) (hall : (c.lost || a.tooFast (a.smp n) c.at_ || (a.smp n).lacks c.at_ w fs) = all)
    (hb : a.writeSlots n (a.smp n).nextIdx c all fs = b) :
    execSmpSampleWrite t n s = .next (if ((b.smp n).inFill && !all) = true then
        (b.indexed n (a.smp n).nextIdx ((b.smp n).frameAt c.at_) all (a.tooFast (a.smp n) c.at_)).raiseLimited false 0xB02 n [word n, word (b.smp n).filledRun]
      else b.indexed n (a.smp n).nextIdx ((b.smp n).frameAt c.at_) all (a.tooFast (a.smp n) c.at_)) := by
  subst ha hw hfs hall hb
  have hop : (match ((s.elapse t).smp n).stopAt with | some q => behind c.at_ q | none => true) = true := by
    cases h : ((s.elapse t).smp n).stopAt with
    | none => rfl
    | some q => rw [h] at hopen; exact hopen
  unfold execSmpSampleWrite
  dsimp only
  rw [hplace]
  dsimp only
  exact if_pos ⟨hn, hst, hon, hclk, htime, hop⟩
end
section
variable {a b : State} {n j : Nat} {l : List Nat} (h : Written a n j l b) (frame : Nat) (all fast : Bool)

theorem indexed_smp : (b.indexed n j frame all fast).smp n = ((b.smp n).indexed j frame all fast).numbered := by
  unfold State.indexed
  rw [writeHeader_smp, smp_setSmp]
include h
theorem indexed_smp_ne {m : Nat} (hm : m ≠ n) : (b.indexed n j frame all fast).smp m = a.smp m := by
  unfold State.indexed
  rw [writeHeader_smp_ne hm, smp_setSmp_ne _ _ _ _ hm, h.others m hm]
theorem indexed_eq : b.indexed n j frame all fast = (a.putPorts (b.indexed n j frame all fast).ports).putMem (b.indexed n j frame all fast).mem := by
  obtain ⟨ports, mem, hb⟩ := h.eq
  unfold State.indexed
  generalize (b.smp n).indexed j frame all fast = x
  rw [writeHeader_eq, smp_setSmp]
  generalize x.numbered = y
  rw [hb]
  rfl
/-- An index leaves the header behind the rings, and no byte outside the header and the slots' words changes. -/
theorem indexed_mem : (b.indexed n j frame all fast).mem.reads (a.smp n).hdr 16 = ((b.indexed n j frame all fast).smp n).header ∧
    ∀ adr, (∀ i, i < 16 → adr / 6 ≠ ((a.smp n).hdr + i) % 2 ^ 24) → cellRead adr (b.indexed n j frame all fast).mem.cells = cellRead adr b.mem.cells := by
  have hhdr : ((b.smp n).indexed j frame all fast).hdr = (a.smp n).hdr := by
    show (b.smp n).bare.hdr = (a.smp n).bare.hdr
    rw [h.smp]
  have hm := writeHeader_mem n (b.setSmp n ((b.smp n).indexed j frame all fast))
  rw [smp_setSmp, hhdr] at hm
  exact hm
end
theorem read_indexed {a b : State} {n j e : Nat} {l : List Nat} (h : Written a n j l b) (frame : Nat) (all fast : Bool) (he : e < (a.smp n).hdr)
    (hhdr : (a.smp n).hdr + 16 ≤ 2 ^ 24) : (b.indexed n j frame all fast).mem.read e = b.mem.read e :=
  read_congr_cells fun adr hadr => (indexed_mem h frame all fast).2 adr fun i hi => by
    rw [Nat.mod_eq_of_lt (by omega)]
    omega

/-- Settles O42: the port that a frame leaves, and the two kinds of words that a sample writes. -/
theorem sampleFramesAndRings : Obligations.SampleFramesAndRings := by
  refine ⟨fun t n rising bclk clocks line s => ?_, fun t n pair bclk s => ?_, fun t n adr k c s => ?_⟩
  · intro a p st y r rs good hn hen hon hpins hstart h28 hst
    have hst' : st = a.stamp := rfl
    by_cases hbad : p.countBad clocks = true ∨ y.rateBad bclk = true
    · have hrest := frameMissing_rest n true (a.stamped.setSmp n { p.tracked a.stamp with clocks := clocks })
      have hsmp : (a.stamped.setSmp n { p.tracked a.stamp with clocks := clocks }).smp n = { p.tracked a.stamp with clocks := clocks } := smp_setSmp ..
      rw [hsmp] at hrest
      obtain ⟨f, hf⟩ := stamped_eq a
      refine ⟨_, execSmpFrameStart_bad rfl hn hen hon hpins hstart hbad, ?_⟩
      have hx := (smp_of_rest hrest n).trans (smp_setSmp ..)
      refine ⟨by rw [hx]; rfl, by rw [hx]; rfl, by rw [hx]; rfl, by rw [hx]; rfl, fun m _ hm => ?_, ?_, fun _ => ?_, fun hc hr => ?_⟩
      · rw [smp_of_rest hrest, smp_setSmp_ne _ _ _ _ hm, smp_setSmp_ne _ _ _ _ hm, smp_stamped]
      · rw [hrest, of_rest_ports hrest, of_rest_fresh hrest, hf]; rfl
      · refine ⟨by rw [hx]; rfl, by rw [hx]; rfl, by rw [hx]; rfl, by rw [hx]; rfl, by rw [hx]; rfl, fun hu => ⟨?_, fun hfirst => ?_⟩⟩
        · rw [hx]
          exact if_neg (by show ¬ p.under = true; simp [hu])
        · refine frameMissing_told (a := a) ?_ ?_ ?_ ?_ hfirst
          · rw [setSmp_parts, hf]; rfl
          · rw [setSmp_jrn, hf]; rfl
          · rw [setSmp_raised, hf]; rfl
          · rw [hsmp]; exact hu
      · exact absurd hbad (by simp [hc, hr])
    · obtain ⟨hc, hr⟩ := not_or.mp hbad
      obtain ⟨keep, u, hu, hother, hrest, hcase⟩ := frameStart_taken (line := line) (rising := rising) (s := s) (t := t) rfl hn hen hon hpins hstart h28 hst
        (Bool.eq_false_iff.mpr hc) (Bool.eq_false_iff.mpr hr)
      generalize hx : ((a.smp n).good_ a.stamp clocks).takes_ keep ((List.range (a.smp n).nslots).map ((a.smp n).word_ line)) a.clk.direct = x at hcase
      obtain ⟨hframe, hedge, hrate, hwr, hunder, hfmt, hgood, hlock, hmask, -, hlast⟩ := framed_tracks hx.symm
      have hux : ∃ mk mo mf mj nx, u.smp n = { x with mask := mk, maskOld := mo, maskFrame := mf, maskJ := mj, next := nx } :=
        hcase.elim (fun ⟨_, h, _⟩ => ⟨x.mask, x.maskOld, x.maskFrame, x.maskJ, x.next, h⟩) (fun ⟨_, _, _, h, _⟩ => ⟨_, _, _, _, _, h⟩)
      obtain ⟨mk, mo, mf, mj, nx, hux⟩ := hux
      refine ⟨u, hu, by rw [hux]; exact hframe, by rw [hux]; exact hedge, by rw [hux]; exact hrate, by rw [hux]; exact hwr, fun m _ hm => hother m hm, hrest,
        fun h => absurd h hbad, fun _ _ => ⟨by rw [hux]; exact hunder, by rw [hux]; exact hfmt, ?_, ?_, fun hl => ?_, fun hnext => ?_, fun w hnext _ => ?_⟩⟩
      · rw [hux]
        exact hgood.trans (good_good ..)
      · rw [hux]
        refine (hlock.trans (good_lock ..)).trans ?_
        rw [good_good]
        rfl
      · rw [hux] at hl ⊢
        exact hlast hl
      · obtain ⟨-, h, hparts⟩ := hcase.resolve_right (fun ⟨w, _, hw, _⟩ => by rw [show (a.smp n).next = none from hnext] at hw; cases hw)
        exact ⟨by rw [h]; exact hmask, hparts⟩
      · obtain ⟨w', j, hw, h, htold⟩ := hcase.resolve_left (fun ⟨hw, _⟩ => by rw [show (a.smp n).next = some w from hnext] at hw; cases hw)
        obtain rfl : w = w' := Option.some.inj (hnext.symm.trans hw)
        exact ⟨by rw [h], by rw [h]; exact hmask, by rw [h]; exact congrArg word hframe, by rw [h], htold⟩
  · intro a p
    refine ⟨fun hn hen hon hpins h hunder hfirst => ?_, fun hn hp hm hlong hfirst => ?_⟩
    · have hrest := frameMissing_rest n (p.rateBad bclk) a
      have hx := (smp_of_rest hrest n).trans (smp_setSmp ..)
      refine ⟨_, execSmpMissingFrame_missing rfl hn hen hon hpins h, by rw [hx]; rfl, by rw [hx]; rfl, ?_, by rw [hx]; rfl, by rw [hx]; rfl,
        frameMissing_told rfl rfl rfl hunder hfirst, fun m _ hne => ?_, ?_⟩
      · rw [hx]
        exact if_neg (by show ¬ p.under = true; simp [hunder])
      · rw [smp_of_rest hrest, smp_setSmp_ne _ _ _ _ hne]
      · rw [hrest, of_rest_ports hrest]; rfl
    · refine ⟨_, execSmpAudio_unmutes rfl hn hp hm hlong, ?_⟩
      have hrest := raiseLimited_rest false 0xB04 n [word n, word pair, word (p.pair pair).count]
        (a.setSmp n { p with pairs := tput {} pair { p.pair pair with muted := false } p.pairs })
      have hx := (smp_of_rest hrest n).trans (smp_setSmp ..)
      refine ⟨?_, by rw [hx], ?_, fun m _ hne => ?_, ?_⟩
      · rw [hx]
        exact tget_tput_same ..
      · exact raiseLimited_told (setSmp_parts ..) (setSmp_jrn ..) _ _ _ _ hfirst
      · rw [smp_of_rest hrest, smp_setSmp_ne _ _ _ _ hne]
      · rw [hrest, of_rest_ports hrest]; rfl
  · intro a p j w fs all muted v
    have hwr := written_slots a n j c all fs
    obtain ⟨b, hb⟩ : ∃ b, a.writeSlots n j c all fs = b := ⟨_, rfl⟩
    rw [hb] at hwr
    have hframe : (b.smp n).bare.frameAt c.at_ = p.bare.frameAt c.at_ := by rw [hwr.smp]
    refine ⟨fun hn hst hon hclk hplace htime hopen hfill => ?_, fun hn hst hon hclk hplace htime hopen hbase hk hkw => ?_⟩
    · have hin : (b.smp n).bare.inFill = p.bare.inFill := by rw [hwr.smp]
      have hcount : (b.smp n).bare.filled = p.bare.filled := by rw [hwr.smp]
      have hfr : (b.smp n).bare.frame = p.bare.frame := by rw [hwr.smp]
      have hex := execSmpSampleWrite_writes rfl hn hst hon hclk hplace htime hopen rfl rfl rfl hb
      have hdone : ¬ ((b.smp n).inFill && !all) = true := by
        rw [show (b.smp n).inFill = p.inFill from hin]
        rcases hfill with h | h <;> simp [h]
      rw [if_neg hdone, show (b.smp n).frameAt c.at_ = p.frameAt c.at_ from hframe] at hex
      obtain ⟨hread, hout⟩ := indexed_mem (j := j) hwr (p.frameAt c.at_) all (a.tooFast p c.at_)
      have hx := indexed_smp (b := b) (n := n) (j := j) (p.frameAt c.at_) all (a.tooFast p c.at_)
      refine ⟨_, hex, by rw [hx]; rfl, by rw [hx]; rfl, by rw [hx]; exact hfr, ?_, hread, fun hhdr hslots => ?_, fun m _ hm => indexed_smp_ne hwr _ _ _ hm, indexed_eq hwr _ _ _⟩
      · rw [hx, ← show (b.smp n).filled = p.filled from hcount]; rfl
      · exact (hout adr hhdr).trans (hwr.cells adr fun i hi => hslots i (List.mem_range.mp hi))
    · have hroom : p.hdr + 16 ≤ 2 ^ 24 := by
        rw [show p.hdr + 16 = p.base + p.extent from Nat.add_assoc ..]
        exact hbase
      have hval := (read_indexed (j := j) hwr ((b.smp n).frameAt c.at_) all (a.tooFast p c.at_) (place_lt_hdr hk j) hroom).trans
        (hb ▸ writeSlots_read c all fs ((Nat.le_add_right _ 16).trans hroom) hk hkw)
      refine ⟨_, execSmpSampleWrite_writes rfl hn hst hon hclk hplace htime hopen rfl rfl rfl hb, ?_⟩
      refine Eq.trans ?_ hval
      split
      · exact congrArg (Memory.read · _) (of_rest_mem (raiseLimited_rest ..))
      · rfl

end Sys2Proof.Machine
end

section
/-! The real-time clock (R456) (O43). -/
namespace Sys2Proof.Machine
open Sys2Proof

/-- A state whose set of the real-time clock waits with a second beyond the 48 bits of RTC_SEC. -/
def secondBeyond : State := ({} : State).putRtc { setNext := some (.value (some (2 ^ 48)) (some 0)) }

/-- Refutes O43: a waiting second of 2^48, which no command can write but a state can hold, becomes 0 at the tick, for the count is kept modulo 2^48. -/
theorem not_rtcCommands : ¬ Obligations.RtcCommands := by
  intro h
  obtain ⟨-, hticks, -⟩ := h
  obtain ⟨-, -, hvalue⟩ := hticks 0 secondBeyond
  obtain ⟨u, hu, hsec, -⟩ := hvalue (2 ^ 48) 0 rfl
  have hnext : exec (.rtcCommitTick ⟨0, 1⟩) secondBeyond = .next (secondBeyond.elapse ⟨0, 1⟩) := rfl
  obtain rfl : secondBeyond.elapse ⟨0, 1⟩ = u := Host.Outcome.next.inj (hnext.symm.trans hu)
  exact absurd hsec (by decide)

end Sys2Proof.Machine
end

section
/-! The cell, the switch-over and the cold reset of the backup domain (R467-R473) (O45). -/
namespace Sys2Proof.Machine
open Sys2Proof

/-! ## Commands that change the RTC block alone -/

theorem onRtc_of_rest {a b u : State} {f : Rtc → Rtc} (hb : b.rest = a.rest) (hu : u.rest = (b.onRtc f).rest) :
    u.rtc = f a.rtc ∧ u.rest = (a.putRtc u.rtc).rest := by
  have hrtc : u.rtc = f a.rtc := (of_rest_rtc hu).trans (congrArg f (of_rest_rtc hb))
  refine ⟨hrtc, ?_⟩
  rw [hu, hrtc, ← of_rest_rtc hb]
  exact congrArg (State.putRtc · (f b.rtc)) hb

/-- A command that is DONE and changes the RTC block alone. -/
theorem runOp_rtc {op : OpSpec} {t : Lapse} {env : Env} {ps : List Word} {rights : Nat} {s : State} {f : Rtc → Rtc}
    (h : (s.elapse t).admits op.code rights op.modes env ps = true) (hcode : 3 < op.code) (hr : op.rights ≤ rights) (hlen : ps.length ≤ 4)
    (hv : op.eval (pktOf op.code env ps (s.elapse t)) ((s.elapse t).bound env) = doneWith [] fun _ s => s.onRtc f) :
    Completes op.code 1 [] env (s.elapse t) (runOp op t env ps s) fun u => u.rtc = f (s.elapse t).rtc ∧ u.rest = ((s.elapse t).putRtc u.rtc).rest := by
  refine runOp_completes op t env ps rights s _ [] _ h hcode hr hv rfl ?_ (fun _ b => ⟨rfl, rfl⟩) (fun _ b u hb hu => onRtc_of_rest hb hu)
  show entriesFor (ps.length + 0) + 0 ≤ 1000
  unfold entriesFor
  omega

/-! ## BACKUP_CONFIG (R472) -/

theorem opBackupConfig_ok {k : Pkt} {s : State} (hlen : k.ps.length = 1) (hbad : bkBad (arg k.ps 0) = false) :
    opBackupConfig.eval k s = doneWith [] fun _ s => s.onRtc fun r =>
      { r with bkNext := some (maskW (2 ^ 48 - 2 ^ 24) (arg k.ps 0)), clrNext := r.clrNext || bit (arg k.ps 0) 23 } := by
  unfold opBackupConfig
  dsimp only
  rw [if_neg (by simp [hlen, hbad])]
theorem opBackupConfig_bad {k : Pkt} {s : State} (h : k.ps.length ≠ 1 ∨ bkBad (arg k.ps 0) = true) : opBackupConfig.eval k s = refuse .badParam [1] := by
  unfold opBackupConfig
  dsimp only
  rw [if_pos h]; rfl

/-! ## CELL_MEASUREMENT (R470) -/

/-- The RTC block with a measured voltage. -/
def Rtc.measured (r : Rtc) (mv : Nat) (absent low : Bool) : Rtc :=
  { r with cellMv := mv, absent := absent, low_ := low, chgFull := decide (10 * fld r.bk 41 33 ≤ mv) || (r.chgFull && decide (10 * fld r.bk 41 33 < mv + 100)) }
section
variable {t : Lapse} {s a : State} (ha : s.elapse t = a) {mv : Nat}
include ha

theorem execCellMeasurement_fine (h12 : mv < 4096) (hlow : 10 * fld a.rtc.bk 32 24 ≤ mv) (habs : 1000 ≤ mv) :
    execCellMeasurement t mv s = .next (a.onRtc fun r => r.measured mv false false) := by
  subst ha
  have hsat : satN 12 mv = mv := Nat.min_eq_left (by omega)
  have hl : decide (1000 ≤ mv ∧ mv < 10 * fld (s.elapse t).rtc.bk 32 24) = false := decide_eq_false (by omega)
  have hn : decide (mv < 1000) = false := decide_eq_false (by omega)
  unfold execCellMeasurement
  dsimp only
  rw [hsat, hl, hn]; rfl
theorem execCellMeasurement_low (habs : 1000 ≤ mv) (hlow : mv < 10 * fld a.rtc.bk 32 24) (hwas : a.rtc.low_ = false) :
    execCellMeasurement t mv s = .next ((a.onRtc fun r => r.measured (satN 12 mv) false true).cellRecord 0xE04 (satN 12 mv)) := by
  subst ha
  have hle : satN 12 mv ≤ mv := Nat.min_le_left ..
  have hge : 1000 ≤ satN 12 mv := Nat.le_min.mpr ⟨habs, by decide⟩
  have hl : decide (1000 ≤ satN 12 mv ∧ satN 12 mv < 10 * fld (s.elapse t).rtc.bk 32 24) = true := decide_eq_true (by omega)
  have hn : decide (satN 12 mv < 1000) = false := decide_eq_false (by omega)
  unfold execCellMeasurement
  dsimp only
  rw [hl, hn, hwas]; rfl
theorem execCellMeasurement_absent (habs : mv < 1000) (hwas : a.rtc.absent = false) :
    execCellMeasurement t mv s = .next ((a.onRtc fun r => r.measured mv true false).cellRecord 0xE05 mv) := by
  subst ha
  have hsat : satN 12 mv = mv := Nat.min_eq_left (by omega)
  have hl : decide (1000 ≤ mv ∧ mv < 10 * fld (s.elapse t).rtc.bk 32 24) = false := decide_eq_false (by omega)
  have hn : decide (mv < 1000) = true := decide_eq_true habs
  unfold execCellMeasurement
  dsimp only
  rw [hsat, hl, hn, hwas]; rfl
end
/-- The RTC block that has recorded a condition of the cell. -/
def Rtc.recorded (low : Bool) (r : Rtc) : Rtc := if low then { r with lastLow := some r.ticks } else { r with lastAbsent := some r.ticks }
/-- The first record of a condition goes out at once in operation. -/
theorem cellRecord_first {s : State} {low : Bool} {mv : Nat} (hready : s.pwr.ready = true) (hlast : (if low then s.rtc.lastLow else s.rtc.lastAbsent) = none) :
    s.cellRecord (if low then 0xE04 else 0xE05) mv =
      (s.onRtc (Rtc.recorded low)).raiseAll true (if low then 0xE04 else 0xE05) [word mv] := by
  cases low with
  | true =>
    have h : s.rtc.lastLow = none := hlast
    unfold State.cellRecord
    dsimp only
    rw [h]
    exact if_pos hready
  | false =>
    have h : s.rtc.lastAbsent = none := hlast
    unfold State.cellRecord
    dsimp only
    rw [h]
    exact if_pos hready

/-- The record goes to every partner, and of the rest of the state the RTC block alone differs. -/
theorem raiseAll_onRtc (a : State) (f g : Rtc → Rtc) (cause : Nat) (ws : List Word) : ∀ u, ((a.onRtc f).onRtc g).raiseAll true cause ws = u →
    u.rtc = g (f a.rtc) ∧ Told a u ∧ u.rest = (a.putRtc u.rtc).rest := by
  rintro u rfl
  have hrest : (((a.onRtc f).onRtc g).raiseAll true cause ws).rest = (a.putRtc (g (f a.rtc))).rest := raiseAll_rest ..
  have hrtc := of_rest_rtc hrest
  exact ⟨hrtc, raiseAll_told (a := a) (b := (a.onRtc f).onRtc g) rfl rfl _ _ _, by rw [hrtc]; exact hrest⟩

/-! ## The switch-over and the cold reset (R467, R468, R471) -/

theorem settleTime_settled {s : State} (h : s.pwr.timeDown = false) : s.settleTime = s := by
  unfold State.settleTime
  exact if_neg fun hc => absurd (h.symm.trans hc.1) (by decide)
theorem shedIfDue_shed {s : State} (h : s.pwr.phase = .shed) : s.shedIfDue = s := by
  unfold State.shedIfDue
  rw [h]; rfl
/-- The RTC block on the cell. -/
def Rtc.onCell (r : Rtc) : Rtc := { r with source := 1, swCount := satN 48 (r.swCount + 1), swFirst := some (r.swFirst.getD (r.sec, r.frac)) }
/-- The RTC block back on mains. -/
def Rtc.offCell (r : Rtc) (mv : Nat) : Rtc := { r with source := 0, swRet := some (r.sec, r.frac), swPend := some (satN 12 mv) }
section
variable {t : Lapse} {s a : State} (ha : s.elapse t = a)
include ha

theorem execSwitchover_shed (hgood : a.pwr.good = false) (hsrc : a.rtc.source = 0) (hdown : a.pwr.timeDown = false) (hph : a.pwr.phase = .shed) :
    execSwitchover t s = .next ((a.putRtc a.rtc.onCell).putClk { a.clk with stopped := true }) := by
  subst ha
  unfold execSwitchover
  dsimp only
  rw [settleTime_settled hdown, shedIfDue_shed hph, if_pos ⟨by rw [hgood]; rfl, hsrc⟩]; rfl
theorem execSwitchReturn_returns {mv : Nat} (hsrc : a.rtc.source = 1) :
    execSwitchReturn t mv s = .next (a.ocxoStarts.onRtc fun r => r.offCell mv) := by
  subst ha
  unfold execSwitchReturn
  dsimp only
  rw [if_pos hsrc]; rfl
/-- The power block after a cold reset. -/
def Power.cold (p : Power) : Power :=
  { p with dom := tput 0 2 0 p.dom, padCfg := 6, latched := 0, relPend := 0, cut := 0, latches := 0, cuts := 0, dormLoss := false, wakeReq := none, phase := .shed }
/-- The module after a cold reset of D0, before its pins show it. -/
def State.coldState (a : State) : State :=
  (((a.putRtc { keep := a.rtc.keep, keepOld := a.rtc.keepOld, gens := a.rtc.gens }).putHost { a.host with s0 := {} }).putClk { a.clk with stopped := true }).putPwr a.pwr.cold
/-- The levels that the pins show. -/
def State.idleLevels (s : State) : List (PadPin × PinLevel) := [9, 10, 11].flatMap fun d => (pinsOf d).map fun p => (p, s.idleLevel d p)
theorem execAonCold_shed (hgood : a.pwr.good = false) (hdown : a.pwr.timeDown = false) (hph : a.pwr.phase = .shed) :
    execAonCold t s = .next (a.coldState.emit (.pins a.coldState.idleLevels)) := by
  subst ha
  unfold execAonCold
  dsimp only
  rw [settleTime_settled hdown, shedIfDue_shed hph, if_neg (fun h => absurd (hgood.symm.trans h) (by decide)), if_neg (fun h => absurd (hdown.symm.trans h) (by decide))]; rfl
end

/-- Settles O45: what each instruction does to the RTC block. -/
theorem cellAndBackup : Obligations.CellAndBackup := by
  refine ⟨fun t env ps s => ⟨fun h hlen hbad => ?_, fun h hbad => ?_⟩, fun t mv s => ⟨fun h12 hlow habs => ?_, fun habs hlow hwas hlast hready => ?_, fun habs hwas hlast hready => ?_⟩,
    fun t s => execSwitchover_shed rfl, fun t mv s => ?_, fun t s => ?_⟩
  · exact runOp_rtc (op := opBackupConfig) (rights := 3) h (by decide) (by decide) (by omega) (opBackupConfig_ok hlen hbad)
  · exact runOp_refuses opBackupConfig t env ps 3 s .badParam [1] h (by decide) (by decide) (by simp) (opBackupConfig_bad hbad) (by simp)
  · exact ⟨_, execCellMeasurement_fine rfl h12 hlow habs, rfl, rfl, rfl, rfl⟩
  · have hrec := cellRecord_first (s := (s.elapse t).onRtc fun r => r.measured (satN 12 mv) false true) (low := true) (mv := satN 12 mv) hready hlast
    have hx := (execCellMeasurement_low rfl habs hlow hwas).trans (congrArg _ hrec)
    obtain ⟨hrtc, htold, hrest⟩ := raiseAll_onRtc (s.elapse t) _ _ _ _ _ rfl
    exact ⟨_, hx, by rw [hrtc]; rfl, by rw [hrtc]; rfl, by rw [hrtc]; rfl, by rw [hrtc]; rfl, by rw [hrtc]; rfl, by rw [hrtc]; rfl, by rw [hrtc]; rfl, htold, hrest⟩
  · have hrec := cellRecord_first (s := (s.elapse t).onRtc fun r => r.measured mv true false) (low := false) (mv := mv) hready hlast
    have hx := (execCellMeasurement_absent rfl habs hwas).trans (congrArg _ hrec)
    obtain ⟨hrtc, htold, hrest⟩ := raiseAll_onRtc (s.elapse t) _ _ _ _ _ rfl
    exact ⟨_, hx, by rw [hrtc]; rfl, by rw [hrtc]; rfl, by rw [hrtc]; rfl, by rw [hrtc]; rfl, by rw [hrtc]; rfl, by rw [hrtc]; rfl, by rw [hrtc]; rfl, htold, hrest⟩
  · intro a hsrc
    refine ⟨_, execSwitchReturn_returns rfl hsrc, ?_⟩
    unfold State.ocxoStarts
    split <;> exact ⟨rfl, rfl, rfl⟩
  · intro a hgood hdown hph
    have hx := execAonCold_shed (a := a) rfl hgood hdown hph
    clear_value a
    exact ⟨_, hx, rfl, rfl, rfl, rfl, rfl, rfl, rfl, rfl, rfl, rfl, rfl⟩

end Sys2Proof.Machine
end

section
/-! Trimming the rate of the real-time clock (R464-R466) (O44). -/
namespace Sys2Proof.Machine
open Sys2Proof

/-! ## Changes of the RTC block, with a record of their own -/

/-- The RTC block of `b` becomes `x`, and the stream of `who` has one more record. -/
structure Trims (who : Option Nat) (x : Rtc) (b u : State) : Prop where
  rest : u.rest = (b.putRtc x).rest
  told : ∀ p, who = some p → b.jsnRoom 1 → u.esn p = b.esn p + b.oneMore p
  room : ∀ n, b.jsnRoom (n + 1) → u.jsnRoom n
theorem Trims.rtc {who : Option Nat} {x : Rtc} {b u : State} (h : Trims who x b u) : u.rtc = x := of_rest_rtc h.rest
theorem trims_putRtc (x : Rtc) (b : State) : Trims none x b (b.putRtc x) where
  rest := rfl
  told _ h := by cases h
  room n h := jsnRoom_mono (a := b) (m := n + 1) (by show b.jrn.next + n ≤ b.jrn.next + (n + 1); omega) rfl h
theorem trims_trimDone (r : TrimRun) (x : Rtc) (b : State) : Trims r.owner x b ((b.putRtc x).trimDone r) := by
  unfold State.trimDone
  cases r.owner with
  | none => exact trims_putRtc x b
  | some p => exact ⟨raise_rest .., fun q hq h => Option.some.inj hq ▸ record_esn (s := b.putRtc x) h .., fun n h => record_room (s := b.putRtc x) h ..⟩
/-- The block may change once more behind the record. -/
theorem Trims.putRtc {who : Option Nat} {x : Rtc} {b u : State} (h : Trims who x b u) (y : Rtc) : Trims who y b (u.putRtc y) where
  rest := congrArg (State.putRtc · y) h.rest
  told := h.told
  room := h.room
theorem Trims.toldOne {who : Option Nat} {x : Rtc} {a u : State} (h : Trims who x a u) {p : Nat} (hp : who = some p) : ToldOne p a u :=
  fun hfar => h.told p hp (jsnRoom_mono (a := a) (m := 16) (Nat.add_le_add_left (by decide) a.jrn.next) rfl hfar)
/-- A command that is DONE with such a change. -/
theorem runOp_trims {op : OpSpec} {t : Lapse} {env : Env} {ps : List Word} {rights : Nat} {s : State} {act : State → State} (who : Option Nat) (x : Rtc)
    (h : (s.elapse t).admits op.code rights op.modes env ps = true) (hcode : 3 < op.code) (hr : op.rights ≤ rights) (hlen : ps.length ≤ 4)
    (hv : op.eval (pktOf op.code env ps (s.elapse t)) ((s.elapse t).bound env) = doneWith [] fun _ s => act s)
    (hkeep : ∀ b q, ((act b).part q).lseq = (b.part q).lseq ∧ ((act b).part q).replays = (b.part q).replays)
    (hact : ∀ b, b.rest = (s.elapse t).rest → Trims who x b (act b)) :
    Completes op.code 1 [] env (s.elapse t) (runOp op t env ps s) fun u =>
      u.rtc = x ∧ (∀ p, who = some p → ToldOne p (s.elapse t) u) ∧ u.rest = ((s.elapse t).putRtc u.rtc).rest := by
  obtain ⟨c, hc, u, hu, hshow, heq⟩ := runOp_late op t env ps rights s _ h hcode hr hv (by exact Status.noConfusion)
    (by show entriesFor (ps.length + 0) + 0 ≤ 1000; unfold entriesFor; omega) (fun _ b => hkeep b env.partner)
  change u = (act c).replyNew _ _ _ _ at heq
  have hx := hact c hc.rest
  have hrest : u.rest = ((s.elapse t).putRtc x).rest := (heq ▸ replyNew_rest ..).trans (hx.rest.trans (congrArg (State.putRtc · x) hc.rest))
  have hrtc : u.rtc = x := of_rest_rtc hrest
  refine ⟨u, hu, hshow, hrtc, fun p hp hfar => ?_, by rw [hrtc]; exact hrest⟩
  have hroom := hc.room hfar
  have hesn := hx.told p hp (jsnRoom_mono (a := c) (m := 15) (Nat.add_le_add_left (by decide) c.jrn.next) rfl hroom)
  have hview := hc.view (fun x : Partner => (x.ev.nextEsn, x.rights)) (fun _ _ _ _ => rfl) p
  have hreply := replyNew_esn (hx.room 0 (jsnRoom_mono (a := c) (m := 15) (Nat.add_le_add_left (by decide) c.jrn.next) rfl hroom))
    (pktOf op.code env ps (s.elapse t)) ((pktOf op.code env ps (s.elapse t)).held false) (doneWith [] fun _ s => act s) (s.elapse t).jrn.next p
  rw [← heq] at hreply
  refine hreply.trans (hesn.trans ?_)
  unfold State.esn State.oneMore
  rw [(Prod.mk.inj hview).1, (Prod.mk.inj hview).2]

/-! ## The ends and the start of a window (R465) -/

theorem trimDone_view {γ : Type} (f : Partner → γ) (hf : ∀ (x : Partner) (e : Stream), f { x with ev := e } = f x) (r : TrimRun) (s : State) (q : Nat) :
    f ((s.trimDone r).part q) = f (s.part q) := by
  unfold State.trimDone
  split
  · exact record_view f hf ..
  · rfl
/-- The error that a window has measured, 2^-26. -/
def State.trimEps (r : TrimRun) (num den : Int) (s : State) : Int :=
  roundOpen ((((s.rtc.counted : Int) - r.rtc0) * den - num * 2 ^ 42) * 2 ^ 26) (num * 2 ^ 42)
/-- The TRIM that follows from it, where it is applied. -/
def State.trimmed (r : TrimRun) (num den : Int) (apply : Bool) (s : State) : Int :=
  if apply then trimClamp (s.rtc.trimNext.getD s.rtc.trim - s.trimEps r num den) else s.rtc.trimNext.getD s.rtc.trim
/-- The RTC block at the end of a window as DONE. -/
def State.endedRtc (r : TrimRun) (num den : Int) (apply : Bool) (s : State) : Rtc :=
  let old := s.rtc.trimNext.getD s.rtc.trim
  let new := s.trimmed r num den apply
  let x := { s.rtc with
    run := none, trimState := 2, eps := sat 17 (s.trimEps r num den), applied := decide (new ≠ old)
    trimSat := if apply then decide (new ≠ old - s.trimEps r num den) else s.rtc.trimSat, trimNext := if apply then some new else s.rtc.trimNext }
  if new = old then x
  else Rtc.write [4] (fun k => { k with clock := some { trim := new, offset := s.tb.loopAdj, drift := s.tb.drift } }) { x with trimNext := some new }
theorem trimEnd_eq {num : Int} (hnum : num ≠ 0) (r : TrimRun) (den : Int) (apply : Bool) (s : State) :
    s.trimEnd r num den apply = (s.putRtc (s.endedRtc r num den apply)).trimDone r := by
  unfold State.trimEnd State.endedRtc
  dsimp only
  rw [if_neg hnum, if_neg hnum]
  refine congrArg (State.trimDone r) ?_
  exact (apply_ite (State.putRtc s) _ _ _).symm
theorem trimEnd_view {γ : Type} (f : Partner → γ) (hf : ∀ (x : Partner) (e : Stream), f { x with ev := e } = f x) (r : TrimRun) (num den : Int) (apply : Bool) (s : State) (q : Nat) :
    f ((s.trimEnd r num den apply).part q) = f (s.part q) := by
  unfold State.trimEnd
  dsimp only
  refine (trimDone_view f hf ..).trans (congrArg f (part_congr ?_ q))
  refine (apply_ite State.parts _ _ _).trans ((ite_self _).trans ?_)
  exact (apply_ite State.parts _ _ _).trans (ite_self _)
theorem endedRtc_fields (r : TrimRun) (num den : Int) (apply : Bool) (s : State) : ∀ x, s.endedRtc r num den apply = x →
    x.run = none ∧ x.trimState = 2 ∧ x.trim = s.rtc.trim ∧ x.sec = s.rtc.sec ∧ x.low = s.rtc.low ∧ x.counted = s.rtc.counted ∧
    x.trimNext = if apply then some (trimClamp (s.rtc.trimNext.getD s.rtc.trim - s.trimEps r num den)) else s.rtc.trimNext := by
  rintro x rfl
  have hnew : (if apply then some (s.trimmed r num den apply) else s.rtc.trimNext) =
      if apply then some (trimClamp (s.rtc.trimNext.getD s.rtc.trim - s.trimEps r num den)) else s.rtc.trimNext := by
    cases apply <;> rfl
  have hold : apply = false → s.trimmed r num den apply = s.rtc.trimNext.getD s.rtc.trim := by
    rintro rfl; rfl
  unfold State.endedRtc
  dsimp only
  generalize s.trimmed r num den apply = new at hnew hold
  by_cases h : new = s.rtc.trimNext.getD s.rtc.trim
  · rw [if_pos h]
    exact ⟨rfl, rfl, rfl, rfl, rfl, rfl, hnew⟩
  · rw [if_neg h]
    refine ⟨rfl, rfl, rfl, rfl, rfl, rfl, Eq.trans ?_ hnew⟩
    exact (if_pos (Bool.of_not_eq_false fun hf => h (hold hf))).symm
/-- The RTC block as a window opens. -/
def Rtc.opened (r : TrimRun) (start : Nat) (x : Rtc) : Rtc :=
  { x with run := some { r with waiting := false, rtc0 := x.counted, true0 := start }, trimSrc := r.kind, trimState := 1, applied := false }
theorem trimStart_eq (r : TrimRun) (start : Nat) (s : State) : s.trimStart r start = s.putRtc (s.rtc.opened r start) := rfl
/-- The RTC block behind the end of a window, another one open with AUTO. -/
def Rtc.again (r : TrimRun) (start : Nat) (x : Rtc) : Rtc := if r.auto then x.opened r start else x
theorem trimAgain_eq (r : TrimRun) (start : Nat) (s : State) : s.trimAgain r start = s.putRtc (s.rtc.again r start) := by
  unfold State.trimAgain Rtc.again
  split <;> rfl
/-- A window that ends DONE, and opens again with AUTO. -/
theorem trims_done {num : Int} (hnum : num ≠ 0) (r r' : TrimRun) (den : Int) (apply : Bool) (start : Nat) (s : State) :
    Trims r.owner ((s.endedRtc r num den apply).again r' start) s ((s.trimEnd r num den apply).trimAgain r' start) := by
  have h := trims_trimDone r (s.endedRtc r num den apply) s
  rw [← trimEnd_eq hnum] at h
  rw [trimAgain_eq, h.rtc]
  exact h.putRtc _
theorem again_fields {r : TrimRun} {start : Nat} {x : Rtc} (hrun : x.run = none) (hst : x.trimState = 2) : ∀ y, x.again r start = y →
    y.run = (if r.auto then some { r with waiting := false, rtc0 := x.counted, true0 := start } else none) ∧ y.trimState = (if r.auto then 1 else 2) ∧
    y.trimNext = x.trimNext ∧ y.trim = x.trim ∧ y.sec = x.sec ∧ y.low = x.low := by
  rintro y rfl
  unfold Rtc.again
  split
  · exact ⟨rfl, rfl, rfl, rfl, rfl, rfl⟩
  · exact ⟨hrun, hst, rfl, rfl, rfl, rfl⟩
theorem trimAbort_idle {s : State} (h : s.rtc.run.all (fun r => r.waiting) = true) : s.trimAbort = s := by
  unfold State.trimAbort
  cases hr : s.rtc.run with
  | none => rfl
  | some r =>
    rw [hr] at h
    exact if_pos h
/-- The RTC block as a window is given up. -/
def Rtc.aborted (r : TrimRun) (x : Rtc) : Rtc := { x with run := if r.owner.isNone then some ownTrim else none, trimState := 3, applied := false }
/-- The RTC block without a window. -/
def Rtc.noRun (x : Rtc) : Rtc := { x with run := none }
theorem trimAbort_running {s : State} {r : TrimRun} (hr : s.rtc.run = some r) (hw : r.waiting = false) :
    s.trimAbort = (s.putRtc (s.rtc.aborted r)).trimDone r := by
  unfold State.trimAbort
  rw [hr]
  exact if_neg (by simp [hw])
theorem trimAbort_view {γ : Type} (f : Partner → γ) (hf : ∀ (x : Partner) (e : Stream), f { x with ev := e } = f x) (s : State) (q : Nat) :
    f (s.trimAbort.part q) = f (s.part q) := by
  unfold State.trimAbort
  split
  · rfl
  · split
    · rfl
    · exact trimDone_view f hf ..

/-! ## What RTC_TRIM judges (R464) -/

/-- The RTC block with TRIM set by hand. -/
def State.manualRtc (trim : Int) (s : State) : Rtc :=
  let x : Rtc := match s.rtc.run with
    | some r => if r.owner.isNone then { s.rtc with run := none, trimSrc := 0, trimState := 0 } else s.rtc
    | none => { s.rtc with trimSrc := 0, trimState := 0 }
  Rtc.write [4] (fun k => { k with clock := some { trim := trim, offset := s.tb.loopAdj, drift := s.tb.drift } }) { x with trimSat := false, trimNext := some trim }
/-- A window as a command asks for it. -/
def TrimRun.asked (kind who hours : Nat) (auto : Bool) (sigma : Nat) : TrimRun :=
  { kind := kind, owner := some who, hours := hours, auto := auto, waiting := false, rtc0 := 0, true0 := 0, sigma := sigma }
/-- How a given time that closes a window is judged. -/
def closeVerdict (who given sigma : Nat) (s : State) : Verdict :=
  match (match s.rtc.run with | some r => if r.kind = 3 ∧ r.owner = some who then some r else none | none => none : Option TrimRun) with
  | none => notPermitted 3
  | some r =>
    if s.rtc.counted < r.rtc0 + 3600 * 2 ^ 42 then badParam 4
    else doneWith [] fun _ s => (s.trimEnd r ((given : Int) - r.true0) (2 ^ 48) (decide (20 * (max r.sigma sigma : Int) * 2 ^ 48 ≤ (given : Int) - r.true0))).trimAgain
      { r with sigma := sigma } given
/-- What the sources of RTC_TRIM do, their checks passed. -/
def trimVerdict (src : Nat) (k : Pkt) (s : State) : Verdict :=
  let w := arg k.ps 0
  let hours := fld w 27 20
  let auto := bit w 19
  let sigma := fld (arg k.ps 3) 47 24
  let given := (mkQ (arg k.ps 1) (arg k.ps 2)).toNat
  match src with
  | 0 => doneWith [] fun _ s =>
    let s := match s.rtc.run with
      | some r => if r.owner.isNone then s.onRtc fun x => { x with run := none, trimSrc := 0, trimState := 0 } else s
      | none => s.onRtc fun x => { x with trimSrc := 0, trimState := 0 }
    State.setTrim (sfld w 44 28) (s.onRtc fun x => { x with trimSat := false })
  | 1 => doneWith [] fun _ s => s.trimAbort.trimStart (TrimRun.asked 1 k.partner (trimHours 1 hours) auto 0) 0
  | 2 => doneWith [] fun _ s => s.trimAbort.trimStart (TrimRun.asked 2 k.partner (trimHours 2 hours) auto 0) s.tb.q0.toNat
  | 3 => doneWith [] fun _ s => s.trimAbort.trimStart (TrimRun.asked 3 k.partner hours auto sigma) given
  | 4 => closeVerdict k.partner given sigma s
  | _ => doneWith [] fun _ s => s.trimAbort.onRtc fun x => { x with run := none }
theorem opRtcTrim_eq (k : Pkt) (s : State) (src : Nat) (hsrc : fld (arg k.ps 0) 47 45 = src) : opRtcTrim.eval k s =
    if 6 ≤ src ∨ (src = 0 ∧ (sfld (arg k.ps 0) 44 28 < -34359 ∨ 34359 < sfld (arg k.ps 0) 44 28)) ∨ 168 < fld (arg k.ps 0) 27 20 ∨
      ((src == 3 || src == 4) = true ∧ fld (arg k.ps 3) 47 24 = 0) ∨ k.ps.length ≠ (if (src == 3 || src == 4) = true then 4 else 1) then badParam 1
    else if (src = 1 ∧ (!Config.inputAc ∨ !s.pwr.good)) ∨ (src = 2 ∧ s.tb.tsrc ≠ 1 ∧ s.tb.tsrc ≠ 3) then notPermitted 2
    else trimVerdict src k s := by
  subst hsrc
  rfl
section
variable {k : Pkt} {s : State}

theorem opRtcTrim_bad (hsrc : fld (arg k.ps 0) 47 45 = 0) (hbad : k.ps.length ≠ 1 ∨ sfld (arg k.ps 0) 44 28 < -34359 ∨ 34359 < sfld (arg k.ps 0) 44 28 ∨ 168 < fld (arg k.ps 0) 27 20) :
    opRtcTrim.eval k s = refuse .badParam [1] := by
  rw [opRtcTrim_eq k s _ hsrc]
  refine if_pos ?_
  rcases hbad with h | h | h | h
  · exact .inr (.inr (.inr (.inr h)))
  · exact .inr (.inl ⟨rfl, .inl h⟩)
  · exact .inr (.inl ⟨rfl, .inr h⟩)
  · exact .inr (.inr (.inl h))
variable (h168 : fld (arg k.ps 0) 27 20 ≤ 168)
include h168

theorem opRtcTrim_manual (hsrc : fld (arg k.ps 0) 47 45 = 0) (hlen : k.ps.length = 1) (hlow : -34359 ≤ sfld (arg k.ps 0) 44 28) (hhigh : sfld (arg k.ps 0) 44 28 ≤ 34359) :
    opRtcTrim.eval k s = doneWith [] fun _ s => s.putRtc (s.manualRtc (sfld (arg k.ps 0) 44 28)) := by
  rw [opRtcTrim_eq k s _ hsrc, if_neg (by simp [hlen]; omega), if_neg (by simp)]
  refine congrArg (doneWith []) (funext fun _ => funext fun s => ?_)
  unfold State.manualRtc
  cases hr : s.rtc.run with
  | none => rfl
  | some r =>
    cases ho : r.owner.isNone with
    | true => simp only [ho]; rfl
    | false => simp only [ho]; rfl
/-- A source without a given time: the checks of length and range pass. -/
theorem opRtcTrim_plain {src : Nat} (hsrc : fld (arg k.ps 0) 47 45 = src) (hlen : k.ps.length = 1) (h : src = 1 ∨ src = 2 ∨ src = 5) : opRtcTrim.eval k s =
    if (src = 1 ∧ (!Config.inputAc ∨ !s.pwr.good)) ∨ (src = 2 ∧ s.tb.tsrc ≠ 1 ∧ s.tb.tsrc ≠ 3) then notPermitted 2 else trimVerdict src k s := by
  rw [opRtcTrim_eq k s _ hsrc]
  refine if_neg ?_
  rcases h with rfl | rfl | rfl <;> simp [hlen] <;> omega
theorem opRtcTrim_mains (hsrc : fld (arg k.ps 0) 47 45 = 1) (hlen : k.ps.length = 1) (hac : Config.inputAc = true) (hgood : s.pwr.good = true) :
    opRtcTrim.eval k s = doneWith [] fun _ s => s.trimAbort.trimStart (TrimRun.asked 1 k.partner (trimHours 1 (fld (arg k.ps 0) 27 20)) (bit (arg k.ps 0) 19) 0) 0 := by
  rw [opRtcTrim_plain h168 hsrc hlen (.inl rfl), if_neg (by simp [hac, hgood])]; rfl
theorem opRtcTrim_mainsAbsent (hsrc : fld (arg k.ps 0) 47 45 = 1) (hlen : k.ps.length = 1) (hac : Config.inputAc = false) : opRtcTrim.eval k s = refuse .notPermitted [2] := by
  rw [opRtcTrim_plain h168 hsrc hlen (.inl rfl), if_pos (.inl ⟨rfl, .inl (by simp [hac])⟩)]; rfl
theorem opRtcTrim_tether (hsrc : fld (arg k.ps 0) 47 45 = 2) (hlen : k.ps.length = 1) (htsrc : s.tb.tsrc = 1 ∨ s.tb.tsrc = 3) :
    opRtcTrim.eval k s = doneWith [] fun _ s =>
      s.trimAbort.trimStart (TrimRun.asked 2 k.partner (trimHours 2 (fld (arg k.ps 0) 27 20)) (bit (arg k.ps 0) 19) 0) s.tb.q0.toNat := by
  rw [opRtcTrim_plain h168 hsrc hlen (.inr (.inl rfl)), if_neg (by rcases htsrc with h | h <;> simp [h])]; rfl
theorem opRtcTrim_tetherAbsent (hsrc : fld (arg k.ps 0) 47 45 = 2) (hlen : k.ps.length = 1) (hn1 : s.tb.tsrc ≠ 1) (hn3 : s.tb.tsrc ≠ 3) :
    opRtcTrim.eval k s = refuse .notPermitted [2] := by
  rw [opRtcTrim_plain h168 hsrc hlen (.inr (.inl rfl)), if_pos (.inr ⟨rfl, hn1, hn3⟩)]; rfl
theorem opRtcTrim_stop (hsrc : fld (arg k.ps 0) 47 45 = 5) (hlen : k.ps.length = 1) :
    opRtcTrim.eval k s = doneWith [] fun _ s => s.trimAbort.onRtc fun x => { x with run := none } := by
  rw [opRtcTrim_plain h168 hsrc hlen (.inr (.inr rfl)), if_neg (by simp)]; rfl
section
variable (hlen : k.ps.length = 4) (hsigma : fld (arg k.ps 3) 47 24 ≠ 0)
include hlen hsigma

/-- A source with a given time: every check but its own passes. -/
theorem opRtcTrim_partner {src : Nat} (hsrc : fld (arg k.ps 0) 47 45 = src) (h : src = 3 ∨ src = 4) : opRtcTrim.eval k s = trimVerdict src k s := by
  rw [opRtcTrim_eq k s _ hsrc]
  refine (if_neg ?_).trans (if_neg ?_)
  · rcases h with rfl | rfl <;> simp [hlen, hsigma] <;> omega
  · rcases h with rfl | rfl <;> simp
theorem opRtcTrim_open (hsrc : fld (arg k.ps 0) 47 45 = 3) : opRtcTrim.eval k s = doneWith [] fun _ s =>
    s.trimAbort.trimStart (TrimRun.asked 3 k.partner (fld (arg k.ps 0) 27 20) (bit (arg k.ps 0) 19) (fld (arg k.ps 3) 47 24)) (mkQ (arg k.ps 1) (arg k.ps 2)).toNat := by
  rw [opRtcTrim_partner h168 hlen hsigma hsrc (.inl rfl)]; rfl
theorem opRtcTrim_four (hsrc : fld (arg k.ps 0) 47 45 = 4) :
    opRtcTrim.eval k s = closeVerdict k.partner (mkQ (arg k.ps 1) (arg k.ps 2)).toNat (fld (arg k.ps 3) 47 24) s := by
  rw [opRtcTrim_partner h168 hlen hsigma hsrc (.inr rfl)]; rfl
end
end
section
variable {who given sigma : Nat} {s : State}

theorem closeVerdict_none (hno : s.rtc.run.all (fun r => r.kind != 3 || r.owner != some who) = true) : closeVerdict who given sigma s = refuse .notPermitted [3] := by
  unfold closeVerdict
  cases hr : s.rtc.run with
  | none => rfl
  | some r =>
    rw [hr] at hno
    have hnot : ¬ (r.kind = 3 ∧ r.owner = some who) := fun ⟨hk, ho⟩ => by simp [hk, ho] at hno
    simp only [if_neg hnot]; rfl
variable {r : TrimRun} (hrun : s.rtc.run = some r) (hkind : r.kind = 3) (hwho : r.owner = some who)
include hrun hkind hwho

theorem closeVerdict_some : closeVerdict who given sigma s = if s.rtc.counted < r.rtc0 + 3600 * 2 ^ 42 then badParam 4
    else doneWith [] fun _ s => (s.trimEnd r ((given : Int) - r.true0) (2 ^ 48) (decide (20 * (max r.sigma sigma : Int) * 2 ^ 48 ≤ (given : Int) - r.true0))).trimAgain
      { r with sigma := sigma } given := by
  have key : (if r.kind = 3 ∧ r.owner = some who then some r else none) = some r := if_pos ⟨hkind, hwho⟩
  unfold closeVerdict
  rw [hrun]
  exact congrArg (fun o : Option TrimRun => match o with
    | none => notPermitted 3
    | some r =>
      if s.rtc.counted < r.rtc0 + 3600 * 2 ^ 42 then badParam 4
      else doneWith [] fun _ s => (s.trimEnd r ((given : Int) - r.true0) (2 ^ 48) (decide (20 * (max r.sigma sigma : Int) * 2 ^ 48 ≤ (given : Int) - r.true0))).trimAgain
        { r with sigma := sigma } given) key
end

/-! ## What each of them leaves -/

theorem trimHours_mains (h : Nat) : trimHours 1 h = if h = 0 then 24 else h := ite_not ..
theorem trimHours_tether (h : Nat) : trimHours 2 h = if h = 0 then 1 else h := ite_not ..

theorem manualRtc_of_rest {a b : State} (h : b.rest = a.rest) (trim : Int) : b.manualRtc trim = a.manualRtc trim := by
  unfold State.manualRtc
  rw [of_rest_rtc h, of_rest_tb h]
theorem manualRtc_fields (a : State) (trim : Int) : ∀ x, a.manualRtc trim = x →
    x.trimNext = some trim ∧ x.trim = a.rtc.trim ∧ x.keep.clock = some { a.clockKeep with trim := trim } ∧ x.trimSat = false ∧
    (a.rtc.run = none → x.trimSrc = 0 ∧ x.trimState = 0) ∧ x.sec = a.rtc.sec ∧ x.low = a.rtc.low := by
  rintro x rfl
  unfold State.manualRtc
  cases hr : a.rtc.run with
  | none => exact ⟨rfl, rfl, rfl, rfl, fun _ => ⟨rfl, rfl⟩, rfl, rfl⟩
  | some r =>
    cases ho : r.owner.isNone with
    | true => simp only [ho]; exact ⟨rfl, rfl, rfl, rfl, fun h => (by cases h), rfl, rfl⟩
    | false => simp only [ho]; exact ⟨rfl, rfl, rfl, rfl, fun h => (by cases h), rfl, rfl⟩
theorem endedRtc_of_rest {a b : State} (h : b.rest = a.rest) (r : TrimRun) (num den : Int) (apply : Bool) : b.endedRtc r num den apply = a.endedRtc r num den apply := by
  unfold State.endedRtc State.trimmed State.trimEps
  rw [of_rest_rtc h, of_rest_tb h]
theorem all_waiting {o : Option TrimRun} (h : o.any (fun r => r.waiting) = true) : o.all (fun r => r.waiting) = true := by
  cases o with
  | none => rfl
  | some r => exact h
/-- A window opens where none runs. -/
theorem trims_open {a b : State} (hb : b.rest = a.rest) (hidle : a.rtc.run.all (fun r => r.waiting) = true) (r : TrimRun) (start : Nat) :
    Trims none (a.rtc.opened r start) b (b.trimAbort.trimStart r start) := by
  rw [trimAbort_idle (by rw [of_rest_rtc hb]; exact hidle), trimStart_eq, of_rest_rtc hb]
  exact trims_putRtc ..
/-- A window that runs is given up. -/
theorem trims_stop {a b : State} (hb : b.rest = a.rest) {r : TrimRun} (hr : a.rtc.run = some r) (hw : r.waiting = false) :
    Trims r.owner { a.rtc with run := none, trimState := 3, applied := false } b (b.trimAbort.onRtc fun x => { x with run := none }) := by
  have hrtc := of_rest_rtc hb
  have h := trims_trimDone r (b.rtc.aborted r) b
  rw [← trimAbort_running (hrtc ▸ hr) hw] at h
  show Trims r.owner (a.rtc.aborted r).noRun b (b.trimAbort.putRtc b.trimAbort.rtc.noRun)
  rw [h.rtc, hrtc]
  exact h.putRtc _
section
variable {t : Lapse} {s a : State} (ha : s.elapse t = a) {r : TrimRun} (hr : a.rtc.run = some r) (hw : r.waiting = false)
include ha hr hw

theorem execTrimWindowEnd_mains (hk : r.kind = 1) (h : r.hours * 3600 * 2 ^ 42 ≤ a.rtc.counted - r.rtc0) :
    execTrimWindowEnd t s = .next ((a.trimEnd r r.true0 a.nominalHz true).trimAgain r 0) := by
  subst ha
  unfold execTrimWindowEnd
  dsimp only [-Nat.reduceMul, -Nat.reducePow, -Int.reducePow]
  rw [hr]
  exact (if_neg (by rw [hw]; exact Bool.false_ne_true)).trans (if_pos ⟨hk, h⟩)
theorem execTrimWindowEnd_tether (hk : r.kind = 2) (hsec : atSecond a.tb = true) (h : (r.hours * 3600 * 2 ^ 48 : Int) ≤ qdist a.tb.q0 (BitVec.ofNat 96 r.true0)) :
    execTrimWindowEnd t s = .next ((a.trimEnd r (qdist a.tb.q0 (BitVec.ofNat 96 r.true0)) (2 ^ 48) true).trimAgain r a.tb.q0.toNat) := by
  subst ha
  unfold execTrimWindowEnd
  dsimp only [-Nat.reduceMul, -Nat.reducePow, -Int.reducePow]
  rw [hr]
  exact (if_neg (by rw [hw]; exact Bool.false_ne_true)).trans ((if_neg fun hc => by rw [hk] at hc; exact absurd hc.1 (by decide)).trans (if_pos ⟨hk, hsec, h⟩))
omit hw
theorem execTrimWindowTimeout_late (hk : r.kind = 3) (h : r.rtc0 + 168 * 3600 * 2 ^ 42 ≤ a.rtc.counted) : execTrimWindowTimeout t s = .next a.trimAbort := by
  subst ha
  unfold execTrimWindowTimeout
  dsimp only [-Nat.reduceMul, -Nat.reducePow, -Int.reducePow]
  rw [hr]
  exact if_pos ⟨hk, h⟩
end

/-- A trim command leaves what the command unit keeps of its partner to the command unit. -/
theorem trimStart_keeps (r : State → TrimRun) (start : State → Nat) (b : State) (q : Nat) : ((b.trimAbort.trimStart (r b) (start b)).part q).lseq = (b.part q).lseq ∧
    ((b.trimAbort.trimStart (r b) (start b)).part q).replays = (b.part q).replays :=
  ⟨trimAbort_view (·.lseq) (fun _ _ => rfl) b q, trimAbort_view (·.replays) (fun _ _ => rfl) b q⟩
theorem trimStop_keeps (b : State) (q : Nat) : ((b.trimAbort.onRtc fun x => { x with run := none }).part q).lseq = (b.part q).lseq ∧
    ((b.trimAbort.onRtc fun x => { x with run := none }).part q).replays = (b.part q).replays :=
  ⟨trimAbort_view (·.lseq) (fun _ _ => rfl) b q, trimAbort_view (·.replays) (fun _ _ => rfl) b q⟩
theorem trimDone_keeps (r r' : TrimRun) (num den : Int) (apply : Bool) (start : Nat) (b : State) (q : Nat) :
    (((b.trimEnd r num den apply).trimAgain r' start).part q).lseq = (b.part q).lseq ∧ (((b.trimEnd r num den apply).trimAgain r' start).part q).replays = (b.part q).replays := by
  rw [trimAgain_eq]
  exact ⟨trimEnd_view (·.lseq) (fun _ _ => rfl) .., trimEnd_view (·.replays) (fun _ _ => rfl) ..⟩

/-! ## The packets of RTC_TRIM -/

/-- RTC_TRIM with its source. -/
def trimPkt (n : Nat) (env : Env) (ps : List Word) (a : State) : Pkt := pktOf 0x0D2 env (fixField 47 45 n ps) a
section
variable (n : Nat) (env : Env) (ps : List Word) (a : State)
theorem trimPkt_src {n : Nat} (hn : n < 6) (hps : ps.length ≠ 0) : fld (arg (trimPkt n env ps a).ps 0) 47 45 = n :=
  fld_fixField (by decide) (by decide) (fun h => hps (by rw [h]; rfl)) (by omega)
theorem trimPkt_hours : fld (arg (trimPkt n env ps a).ps 0) 27 20 = fld (arg ps 0) 27 20 := fld_fixField_out (by decide) (by decide) (by decide)
theorem trimPkt_trim : sfld (arg (trimPkt n env ps a).ps 0) 44 28 = sfld (arg ps 0) 44 28 := by
  unfold sfld
  rw [show fld (arg (trimPkt n env ps a).ps 0) 44 28 = fld (arg ps 0) 44 28 from fld_fixField_out (by decide) (by decide) (by decide)]
theorem trimPkt_auto : bit (arg (trimPkt n env ps a).ps 0) 19 = bit (arg ps 0) 19 := bit_fixField (by decide) (by decide) (by decide)
theorem trimPkt_arg (i : Nat) : arg (trimPkt n env ps a).ps (i + 1) = arg ps (i + 1) := arg_fixField_succ ..
theorem trimPkt_length : (trimPkt n env ps a).ps.length = ps.length := fixField_length ..
end
/-- RTC_TRIM that is DONE. -/
theorem rtcTrim_completes {n : Nat} {t : Lapse} {env : Env} {ps : List Word} {s : State} {act : State → State} (who : Option Nat) (x : Rtc)
    (h : (s.elapse t).admits 0x0D2 3 0xFFE env (fixField 47 45 n ps) = true) (hlen : ps.length ≤ 4)
    (hv : opRtcTrim.eval (trimPkt n env ps (s.elapse t)) ((s.elapse t).bound env) = doneWith [] fun _ s => act s)
    (hkeep : ∀ b q, ((act b).part q).lseq = (b.part q).lseq ∧ ((act b).part q).replays = (b.part q).replays)
    (hact : ∀ b, b.rest = (s.elapse t).rest → Trims who x b (act b)) :
    Completes 0x0D2 1 [] env (s.elapse t) (runOp opRtcTrim t env (fixField 47 45 n ps) s) fun u =>
      u.rtc = x ∧ (∀ p, who = some p → ToldOne p (s.elapse t) u) ∧ u.rest = ((s.elapse t).putRtc u.rtc).rest :=
  runOp_trims (op := opRtcTrim) (rights := 3) who x h (by decide) (by decide) (by rw [fixField_length]; exact hlen) hv hkeep hact
theorem rtcTrim_refuses {n : Nat} {t : Lapse} {env : Env} {ps : List Word} {s : State} {st : Status} {w : Word}
    (h : (s.elapse t).admits 0x0D2 3 0xFFE env (fixField 47 45 n ps) = true)
    (hv : opRtcTrim.eval (trimPkt n env ps (s.elapse t)) ((s.elapse t).bound env) = refuse st [w]) :
    Completes 0x0D2 st.code [w] env (s.elapse t) (runOp opRtcTrim t env (fixField 47 45 n ps) s) fun u => u.rest = (s.elapse t).rest :=
  runOp_refuses opRtcTrim t env _ 3 s st [w] h (by decide) (by decide) (by simp) hv (by simp)
theorem Completes.imp {code st : Nat} {ws : List Word} {env : Env} {a : State} {o : Host.Outcome State Fault Refusal} {P Q : State → Prop}
    (h : Completes code st ws env a o P) (himp : ∀ u, P u → Q u) : Completes code st ws env a o Q :=
  let ⟨u, hu, hs, hp⟩ := h
  ⟨u, hu, hs, himp u hp⟩

/-- Settles O44: what each command and each end of a window makes of the RTC block. -/
theorem rtcTrim : Obligations.RtcTrim := by
  refine ⟨fun t env ps s => ?_, fun t env ps s r => ?_, fun t s r => ?_⟩
  · intro a w0 trim given
    refine ⟨fun h hlen hlow hhigh h168 => ?_, fun h hbad => ?_, fun h hlen h168 hgood hrun => ?_, fun h hlen h168 htsrc hidle => ?_, fun h hlen h168 h1 h3 => ?_,
      fun h hlen h168 hsig hrun => ?_, fun h hlen h168 hsig hno => ?_⟩
    · have hv := opRtcTrim_manual (k := trimPkt 0 env ps a) (s := a.bound env) (by rw [trimPkt_hours]; exact h168) (trimPkt_src _ _ _ (by decide) (by omega))
        (by rw [trimPkt_length]; exact hlen) (by rw [trimPkt_trim]; exact hlow) (by rw [trimPkt_trim]; exact hhigh)
      rw [trimPkt_trim] at hv
      refine (rtcTrim_completes none (a.manualRtc trim) h (by omega) hv (fun _ _ => ⟨rfl, rfl⟩) (fun b hb => by rw [manualRtc_of_rest hb]; exact trims_putRtc ..)).imp fun u ⟨hrtc, _, hrest⟩ => ?_
      obtain ⟨h1, h2, h3, h4, h5, h6, h7⟩ := manualRtc_fields a trim u.rtc hrtc.symm
      exact ⟨h1, h2, h3, h4, h5, h6, h7, hrest⟩
    · have hsrc : fld (arg (trimPkt 0 env ps a).ps 0) 47 45 = 0 := by
        cases ps with
        | nil => exact (by decide : fld (arg [] 0) 47 45 = 0)
        | cons w ws => exact trimPkt_src _ _ _ (by decide) (by simp)
      refine rtcTrim_refuses h (opRtcTrim_bad hsrc ?_)
      rw [trimPkt_length, trimPkt_trim, trimPkt_hours]
      exact hbad
    · have hh : fld (arg (trimPkt 1 env ps a).ps 0) 27 20 ≤ 168 := by rw [trimPkt_hours]; exact h168
      have hsrc : fld (arg (trimPkt 1 env ps a).ps 0) 47 45 = 1 := trimPkt_src _ _ _ (by decide) (by omega)
      have hl : (trimPkt 1 env ps a).ps.length = 1 := by rw [trimPkt_length]; exact hlen
      cases hac : Config.inputAc with
      | false =>
        obtain ⟨u, hu, hshow, hrest⟩ := rtcTrim_refuses h (opRtcTrim_mainsAbsent hh hsrc hl hac)
        exact ⟨u, hu, fun _ => ⟨hshow, hrest⟩, fun hx => by cases hx⟩
      | true =>
        have hv := opRtcTrim_mains (s := a.bound env) hh hsrc hl hac hgood
        rw [trimPkt_hours, trimPkt_auto, trimHours_mains] at hv
        obtain ⟨u, hu, hshow, hrtc, -, hrest⟩ := rtcTrim_completes none _ h (by omega) hv (trimStart_keeps (fun _ => _) (fun _ => 0)) (fun b hb => trims_open hb (by rw [hrun]; rfl) ..)
        exact ⟨u, hu, (fun hx => by cases hx), fun _ => ⟨hshow, by rw [hrtc]; rfl, by rw [hrtc]; rfl, by rw [hrtc]; rfl, hrest⟩⟩
    · have hv := opRtcTrim_tether (k := trimPkt 2 env ps a) (s := a.bound env) (by rw [trimPkt_hours]; exact h168) (trimPkt_src _ _ _ (by decide) (by omega)) (by rw [trimPkt_length]; exact hlen) htsrc
      rw [trimPkt_hours, trimPkt_auto, trimHours_tether] at hv
      refine (rtcTrim_completes none (a.rtc.opened (TrimRun.asked 2 env.partner (if fld w0 27 20 = 0 then 1 else fld w0 27 20) (bit w0 19) 0) a.tb.q0.toNat)
        h (by omega) hv (trimStart_keeps (fun _ => _) (fun b => b.tb.q0.toNat)) (fun b hb => ?_)).imp fun u ⟨hrtc, _, hrest⟩ => ?_
      · rw [show b.tb = a.tb from of_rest_tb hb]
        exact trims_open hb (hidle.elim (fun h => by rw [h]; rfl) all_waiting) _ _
      · exact ⟨by rw [hrtc]; rfl, by rw [hrtc]; rfl, by rw [hrtc]; rfl, by rw [hrtc]; rfl, hrest⟩
    · exact rtcTrim_refuses h (opRtcTrim_tetherAbsent (k := trimPkt 2 env ps a) (s := a.bound env) (by rw [trimPkt_hours]; exact h168) (trimPkt_src _ _ _ (by decide) (by omega))
        (by rw [trimPkt_length]; exact hlen) h1 h3)
    · have hv := opRtcTrim_open (k := trimPkt 3 env ps a) (s := a.bound env) (by rw [trimPkt_hours]; exact h168) (by rw [trimPkt_length]; exact hlen) (by rw [trimPkt_arg]; exact hsig)
        (trimPkt_src _ _ _ (by decide) (by omega))
      rw [trimPkt_hours, trimPkt_auto, trimPkt_arg, trimPkt_arg, trimPkt_arg] at hv
      refine (rtcTrim_completes none (a.rtc.opened (TrimRun.asked 3 env.partner (fld w0 27 20) (bit w0 19) (fld (arg ps 3) 47 24)) given)
        h (by omega) hv (trimStart_keeps (fun _ => _) (fun _ => _)) (fun b hb => trims_open hb (by rw [hrun]; rfl) ..)).imp fun u ⟨hrtc, _, hrest⟩ => ?_
      exact ⟨by rw [hrtc]; rfl, by rw [hrtc]; rfl, by rw [hrtc]; rfl, by rw [hrtc]; rfl, hrest⟩
    · refine rtcTrim_refuses h ((opRtcTrim_four (k := trimPkt 4 env ps a) (s := a.bound env) (by rw [trimPkt_hours]; exact h168) (by rw [trimPkt_length]; exact hlen)
        (by rw [trimPkt_arg]; exact hsig) (trimPkt_src _ _ _ (by decide) (by omega))).trans (closeVerdict_none hno))
  · intro a given old
    refine ⟨fun h hlen h168 hsig hr hk hwho h1h => ?_, fun h hlen h168 hsig hr hk hwho h1h hlt => ?_, fun h hlen h168 hr hw => ?_, fun h hlen h168 hidle => ?_⟩
    · refine rtcTrim_refuses h ((opRtcTrim_four (k := trimPkt 4 env ps a) (s := a.bound env) (by rw [trimPkt_hours]; exact h168) (by rw [trimPkt_length]; exact hlen)
        (by rw [trimPkt_arg]; exact hsig) (trimPkt_src _ _ _ (by decide) (by omega))).trans ((closeVerdict_some hr hk hwho).trans (if_pos h1h)))
    · have hv := (opRtcTrim_four (k := trimPkt 4 env ps a) (s := a.bound env) (by rw [trimPkt_hours]; exact h168) (by rw [trimPkt_length]; exact hlen)
        (by rw [trimPkt_arg]; exact hsig) (trimPkt_src _ _ _ (by decide) (by omega))).trans ((closeVerdict_some hr hk hwho).trans (if_neg (Nat.not_lt.mpr h1h)))
      rw [trimPkt_arg, trimPkt_arg, trimPkt_arg] at hv
      have hnum : ((given : Int) - r.true0) ≠ 0 := by omega
      refine (rtcTrim_completes r.owner ((a.endedRtc r ((given : Int) - r.true0) (2 ^ 48)
        (decide (20 * (max r.sigma (fld (arg ps 3) 47 24) : Int) * 2 ^ 48 ≤ (given : Int) - r.true0))).again { r with sigma := fld (arg ps 3) 47 24 } given)
        h (by omega) hv (fun b q => trimDone_keeps ..) (fun b hb => ?_)).imp fun u ⟨hrtc, htold, hrest⟩ => ?_
      · rw [← endedRtc_of_rest hb]
        exact trims_done hnum ..
      · obtain ⟨hrun, hst, htrim, hsec, -, hcount, hnext⟩ := endedRtc_fields r ((given : Int) - r.true0) (2 ^ 48)
          (decide (20 * (max r.sigma (fld (arg ps 3) 47 24) : Int) * 2 ^ 48 ≤ (given : Int) - r.true0)) a _ rfl
        obtain ⟨h1, h2, h3, h4, h5, -⟩ := again_fields hrun hst u.rtc hrtc.symm
        refine ⟨h1.trans (by rw [hcount]), h2, h3.trans (hnext.trans ?_), htold _ hwho, h4.trans htrim, h5.trans hsec, hrest⟩
        refine if_congr (decide_eq_true_iff.trans ?_) rfl rfl
        change r.true0 < given at hlt
        show 20 * max (r.sigma : Int) (fld (arg ps 3) 47 24 : Int) * 2 ^ 48 ≤ (given : Int) - r.true0 ↔ 20 * max r.sigma (fld (arg ps 3) 47 24) * 2 ^ 48 ≤ given - r.true0
        omega
    · have hv := opRtcTrim_stop (k := trimPkt 5 env ps a) (s := a.bound env) (by rw [trimPkt_hours]; exact h168) (trimPkt_src _ _ _ (by decide) (by omega)) (by rw [trimPkt_length]; exact hlen)
      exact (rtcTrim_completes r.owner { a.rtc with run := none, trimState := 3, applied := false } h (by omega) hv trimStop_keeps (fun b hb => trims_stop hb hr hw)).imp fun u ⟨hrtc, htold, hrest⟩ => ⟨hrtc, htold _, hrest⟩
    · have hv := opRtcTrim_stop (k := trimPkt 5 env ps a) (s := a.bound env) (by rw [trimPkt_hours]; exact h168) (trimPkt_src _ _ _ (by decide) (by omega)) (by rw [trimPkt_length]; exact hlen)
      refine (rtcTrim_completes none a.rtc.noRun h (by omega) hv trimStop_keeps (fun b hb => ?_)).imp fun u ⟨hrtc, _, hrest⟩ => ⟨hrtc, hrest⟩
      rw [trimAbort_idle (by rw [of_rest_rtc hb]; exact hidle), ← show b.rtc = a.rtc from of_rest_rtc hb]
      exact trims_putRtc ..
  · intro a d old
    refine ⟨fun hr hw hk hlong hpos => ?_, fun hr hw hk hsec hlong hpos => ?_, fun hr hw hk hlong => ?_⟩
    · have hnum : ((r.true0 : Int)) ≠ 0 := by omega
      have h := trims_done hnum r r a.nominalHz true 0 a
      refine ⟨_, execTrimWindowEnd_mains rfl hr hw hk hlong, ?_⟩
      generalize (a.trimEnd r r.true0 a.nominalHz true).trimAgain r 0 = u at h
      obtain ⟨hrun, hst, htrim, hsec, hlow, hcount, hnext⟩ := endedRtc_fields r r.true0 a.nominalHz true a _ rfl
      obtain ⟨h1, h2, h3, h4, h5, h6⟩ := again_fields hrun hst u.rtc h.rtc.symm
      exact ⟨h3.trans hnext, h1.trans (by rw [hcount]), h2, h4.trans htrim, h5.trans hsec, h6.trans hlow, fun p hp _ => h.toldOne hp, by rw [h.rtc]; exact h.rest⟩
    · have hnum : d ≠ 0 := by omega
      have h := trims_done hnum r r (2 ^ 48) true a.tb.q0.toNat a
      refine ⟨_, execTrimWindowEnd_tether rfl hr hw hk hsec hlong, ?_⟩
      change Trims _ _ a ((a.trimEnd r (qdist a.tb.q0 (BitVec.ofNat 96 r.true0)) (2 ^ 48) true).trimAgain r a.tb.q0.toNat) at h
      generalize (a.trimEnd r (qdist a.tb.q0 (BitVec.ofNat 96 r.true0)) (2 ^ 48) true).trimAgain r a.tb.q0.toNat = u at h
      obtain ⟨hrun, hst, htrim, hsec, hlow, hcount, hnext⟩ := endedRtc_fields r d (2 ^ 48) true a _ rfl
      obtain ⟨h1, h2, h3, h4, h5, h6⟩ := again_fields hrun hst u.rtc h.rtc.symm
      exact ⟨h3.trans hnext, h1.trans (by rw [hcount]), h2, h4.trans htrim, h5.trans hsec, h6.trans hlow, fun p hp _ => h.toldOne hp, by rw [h.rtc]; exact h.rest⟩
    · have h := trims_trimDone r (a.rtc.aborted r) a
      rw [← trimAbort_running hr hw] at h
      refine ⟨_, execTrimWindowTimeout_late rfl hr hk hlong, h.rtc.trans ?_, fun p hp _ => h.toldOne hp, by rw [h.rtc]; exact h.rest⟩
      unfold Rtc.aborted
      cases ho : r.owner <;> rfl

end Sys2Proof.Machine
end

section
/-! Budgets, forced domains, the dormant request and the release of pads (R482, R487, R489, R492) (O46). -/
namespace Sys2Proof.Machine
open Sys2Proof

/-! ## Commands that change the power block alone -/

theorem onPwr_of_rest {a b u : State} {f : Power → Power} (hb : b.rest = a.rest) (hu : u.rest = (b.onPwr f).rest) :
    u.pwr = f a.pwr ∧ u.rest = (a.putPwr u.pwr).rest := by
  have hpwr : u.pwr = f a.pwr := (of_rest_pwr hu).trans (congrArg f (of_rest_pwr hb))
  refine ⟨hpwr, ?_⟩
  rw [hu, hpwr, ← of_rest_pwr hb]
  exact congrArg (State.putPwr · (f b.pwr)) hb
/-- A command of one word that changes the power block alone. -/
theorem runOp_pwr {op : OpSpec} {t : Lapse} {env : Env} {ps : List Word} {rights : Nat} {s : State} {v : Verdict} (f : Power → Power)
    (h : (s.elapse t).admits op.code rights op.modes env ps = true) (hcode : 3 < op.code) (hr : op.rights ≤ rights) (hlen : ps.length = 1)
    (hv : op.eval (pktOf op.code env ps (s.elapse t)) ((s.elapse t).bound env) = v) (hw : v.reply = []) (hst : v.stored = none) (hpr : v.promise = 0)
    (hact : v.act = fun _ s => s.onPwr f) :
    Completes op.code v.status.code [] env (s.elapse t) (runOp op t env ps s) fun u => u.pwr = f (s.elapse t).pwr ∧ u.rest = ((s.elapse t).putPwr u.pwr).rest := by
  refine runOp_completes op t env ps rights s v [] _ h hcode hr hv hw ?_ (fun _ b => by rw [hact]; exact ⟨rfl, rfl⟩) (fun _ b u hb hu => ?_)
  · rw [hst, hpr]
    show entriesFor (ps.length + 0) + 0 ≤ 1000
    rw [hlen]; decide
  · rw [hact] at hu
    exact onPwr_of_rest hb hu

/-! ## PWR_BUDGET (R482) -/

/-- The power block with a partner's budget for a class. -/
def Power.budgeted (who c : Nat) (w : Word) (p : Power) : Power := { p with buds := tput {} (8 * who + c) ⟨fld w 44 21, bit w 20⟩ p.buds }
theorem opPwrBudget_one {k : Pkt} {s : State} (hlen : k.ps.length = 1) (hc : fld (arg k.ps 0) 47 45 < 7) :
    opPwrBudget.eval k s = { status := .done, pins := [.config 0x0C0 (8 * k.partner + fld (arg k.ps 0) 47 45)]
                             act := fun _ s => s.onPwr (Power.budgeted k.partner (fld (arg k.ps 0) 47 45) (arg k.ps 0)) } := by
  obtain ⟨w, hw⟩ := List.length_eq_one_iff.mp hlen
  rw [hw] at hc ⊢
  have h7 : ¬ ([fld w 47 45].contains 7 = true) := by
    have : fld w 47 45 ≠ 7 := Nat.ne_of_lt hc
    simp [this.symm]
  unfold opPwrBudget
  dsimp only
  rw [hw, if_neg (by simpa using h7)]
  rfl
theorem opPwrBudget_bad {k : Pkt} {s : State} (h : k.ps = [] ∨ 7 < k.ps.length ∨ (k.ps.map fun w => fld w 47 45).contains 7 = true) :
    opPwrBudget.eval k s = refuse .badParam [1] := by
  unfold opPwrBudget
  dsimp only
  rw [if_pos (h.imp_right fun h => h.imp_right .inl)]; rfl

/-! ## PWR_DOMAIN (R487) -/

/-- The power block with a domain's force and point. -/
def Power.forcing (d force point : Nat) (p : Power) : Power := { p with force := tput 0 d force p.force, fpt := tput 0 d point p.fpt }
theorem forcing_same (d f q : Nat) (p : Power) : tget 0 d (p.forcing d f q).force = f ∧ tget 0 d (p.forcing d f q).fpt = q := ⟨tget_tput_same .., tget_tput_same ..⟩
theorem forcing_ne {d x : Nat} (h : x ≠ d) (f q : Nat) (p : Power) : tget 0 x (p.forcing d f q).force = tget 0 x p.force := tget_tput_ne _ _ _ _ _ _ h
/-- The power block with a request for the dormant state. -/
def Power.asking (p : Power) : Power := { p with dormantReq := true }
section
variable {k : Pkt} {s : State} (hlen : k.ps.length = 1)
include hlen

section
variable {d st : Nat} (hop : fld (arg k.ps 0) 47 46 = 0) (hd : fld (arg k.ps 0) 45 42 = d) (hdom : d = 1 ∨ (3 ≤ d ∧ d ≤ 11)) (hst : fld (arg k.ps 0) 41 40 = st)
  (hpt : fld (arg k.ps 0) 39 38 = 0) (h3 : st < 3) (h1 : d ≠ 1 ∨ st = 0)
include hop hd hdom hst hpt h3 h1

theorem opPwrDomain_force (htab : s.breaksTable d (2 - st) = false) (hneed : st = 0 ∨ s.pendingNeeds d = false) :
    opPwrDomain.eval k s = { status := .accepted, pins := [.config 0x0C1 d], act := fun _ s => (s.onPwr (Power.forcing d (forceCode st) 0)).domTo d (2 - st) } := by
  subst hd hst
  unfold opPwrDomain
  dsimp only
  rw [if_neg (by simp [hlen, hop]), if_pos hop, if_neg (by simp [hpt]; omega), if_neg (by simp [htab]),
    if_neg (by rcases hneed with h | h <;> simp [h])]
  rw [hpt]; rfl
theorem opPwrDomain_tabled (htab : s.breaksTable d (2 - st) = true) : opPwrDomain.eval k s = refuse .notPermitted [2] := by
  subst hd hst
  unfold opPwrDomain
  dsimp only
  rw [if_neg (by simp [hlen, hop]), if_pos hop, if_neg (by simp [hpt]; omega), if_pos htab]
  rfl
end
theorem opPwrDomain_release {d : Nat} (hop : fld (arg k.ps 0) 47 46 = 1) (hd : fld (arg k.ps 0) 45 42 = d) (hdom : d = 1 ∨ (3 ≤ d ∧ d ≤ 11)) :
    opPwrDomain.eval k s = { status := .accepted, pins := [.config 0x0C1 d], act := fun _ s => s.onPwr (Power.forcing d 0 0) } := by
  subst hd
  unfold opPwrDomain
  dsimp only
  rw [if_neg (by simp [hlen, hop]), if_neg (by omega), if_pos hop, if_neg (by simp; omega)]
  rfl
theorem opPwrDomain_dormant (hop : fld (arg k.ps 0) 47 46 = 2) (hwake : s.host.s0.wakeEn = true) (hbusy : s.dormantBusy = false) :
    opPwrDomain.eval k s = acceptWith [] fun _ s => s.onPwr Power.asking := by
  unfold opPwrDomain
  dsimp only
  rw [if_neg (by simp [hlen, hop]), if_neg (by omega), if_neg (by omega), if_neg (by simp [hwake]), if_neg (by simp [hbusy])]
  rfl
theorem opPwrDomain_asleep (hop : fld (arg k.ps 0) 47 46 = 2) (hwake : s.host.s0.wakeEn = false) (hA : bit s.rtc.ctlA 47 = false ∨ bit s.rtc.ctlA 39 = false)
    (hB : bit s.rtc.ctlB 47 = false ∨ bit s.rtc.ctlB 39 = false) : opPwrDomain.eval k s = refuse .notPermitted [4] := by
  unfold opPwrDomain
  dsimp only
  rw [if_neg (by simp [hlen, hop]), if_neg (by omega), if_neg (by omega), if_pos ⟨by simp [hwake], by rcases hA with h | h <;> simp [h], by rcases hB with h | h <;> simp [h]⟩]
  rfl
end

/-! ## PAD_RELEASE (R492) -/

/-- Clearing a bit leaves every other one. -/
theorem testBit_clearBits (x b i : Nat) : (clearBits x (2 ^ b)).testBit i = (x.testBit i && decide (i ≠ b)) := by
  have hand : x &&& 2 ^ b = if x.testBit b then 2 ^ b else 0 := by
    rw [Nat.and_two_pow]; cases x.testBit b <;> simp
  unfold clearBits
  rw [hand]
  cases hb : x.testBit b with
  | false =>
    rw [if_neg Bool.false_ne_true, Nat.sub_zero]
    by_cases hi : i = b
    · rw [hi, hb]; rfl
    · rw [decide_eq_true hi, Bool.and_true]
  | true =>
    rw [if_pos rfl]
    have hr : x % 2 ^ b < 2 ^ b := Nat.mod_lt _ (Nat.two_pow_pos b)
    have hodd : x / 2 ^ b % 2 = 1 := by rw [Nat.testBit, Nat.shiftRight_eq_div_pow] at hb; simpa using hb
    have hx : x = 2 ^ b * (2 * (x / 2 ^ b / 2) + 1) + x % 2 ^ b := by
      rw [show 2 * (x / 2 ^ b / 2) + 1 = x / 2 ^ b by omega]
      exact (Nat.div_add_mod _ _).symm
    generalize x / 2 ^ b / 2 = h at hx
    generalize x % 2 ^ b = r at hx hr
    have hsub : x - 2 ^ b = 2 ^ b * (2 * h) + r := by rw [hx, Nat.mul_add]; omega
    rw [hsub, hx, Nat.testBit_two_pow_mul_add _ hr, Nat.testBit_two_pow_mul_add _ hr]
    by_cases hlt : i < b
    · rw [if_pos hlt, if_pos hlt, decide_eq_true (by omega), Bool.and_true]
    · rw [if_neg hlt, if_neg hlt]
      by_cases hi : i = b
      · subst hi; simp
      · obtain ⟨n, hn⟩ : ∃ n, i - b = n + 1 := ⟨i - b - 1, by omega⟩
        rw [hn, decide_eq_true hi, Bool.and_true, Nat.testBit_succ, Nat.testBit_succ]
        congr 1; omega
/-- The power block with a latch open. -/
def Power.unlatch (b : Nat) (p : Power) : Power := { p with latched := clearBits p.latched (2 ^ b), relPend := clearBits p.relPend (2 ^ b) }
theorem unlatchPads_samples (s : State) : s.unlatchPads 10 = s.onPwr (Power.unlatch 1) := by
  unfold State.unlatchPads
  by_cases h : (!s.pwr.latched.testBit 1) = true
  · exact if_pos h
  · exact if_neg h
theorem unlatchPads_open {s : State} (h : s.pwr.latched.testBit 2 = false) : s.unlatchPads 9 = s.onPwr (Power.unlatch 2) := by
  unfold State.unlatchPads
  exact if_pos (by rw [h]; rfl)
theorem ethUp_parts (h : Nat) (s : State) : (s.ethUp h).parts = s.parts := by
  unfold State.ethUp
  dsimp only
  split
  · unfold State.setEth; split <;> rfl
  · rfl
theorem linksOn_parts (s : State) : s.linksOn.parts = s.parts := by
  unfold State.linksOn
  split
  · rfl
  · refine (foldl_keeps State.parts _ (fun b l => ?_) _ _).trans ((ethUp_parts ..).trans (ethUp_parts ..))
    split <;> rfl
theorem joinOutputs_parts (s : State) : s.joinOutputs.parts = s.parts := by
  unfold State.joinOutputs
  refine foldl_keeps State.parts _ (fun b l => ?_) _ _
  dsimp only
  split <;> rfl
theorem unlatchPads_parts (d : Nat) (s : State) : (s.unlatchPads d).parts = s.parts := by
  unfold State.unlatchPads
  split
  · dsimp only
    split
    · rfl
    · split
      · exact joinOutputs_parts _
      · split
        · exact linksOn_parts _
        · rfl
  · rfl
theorem latched_of_portUp {s : State} {h : Nat} (hup : s.portUp h = true) : s.pwr.latched.testBit 2 = false := by
  refine Bool.eq_false_iff.mpr fun hlat => ?_
  unfold State.portUp at hup
  rw [if_pos (show s.pinsLatched 9 = true from hlat)] at hup
  cases hup
/-- The lowest bit of the mask that names latches. -/
theorem padMask_low (w : Word) : (fld w 47 45).testBit 0 = decide (fld w 45 45 = 1) := by
  unfold fld
  rw [Nat.testBit_zero]
  refine decide_eq_decide.mpr ?_
  omega
/-- The domains whose latches a mask names. -/
def padDoms (m : Nat) : List Nat := [9, 10, 11].filter fun d => match padBit d with | some b => m.testBit b | none => false
theorem padDoms_eq (m : Nat) : padDoms m = (if m.testBit 2 then [9] else []) ++ (if m.testBit 1 then [10] else []) ++ (if m.testBit 0 then [11] else []) := by
  unfold padDoms
  cases h2 : m.testBit 2 <;> cases h1 : m.testBit 1 <;> cases h0 : m.testBit 0 <;> simp [padBit, h2, h1, h0]
/-- What PAD_RELEASE does. -/
def State.releasePads (m : Nat) (s : State) : State :=
  (padDoms m).foldl (fun s d => s.unlatchPads d) (if (padDoms m).contains 11 then s.onPwr fun p => { p with cut := 0 } else s)
section
variable {k : Pkt} {s : State} {m : Nat} (hlen : k.ps.length = 1) (hm : fld (arg k.ps 0) 47 45 = m) (h0 : m ≠ 0)
include hlen hm h0

theorem opPadRelease_eq : opPadRelease.eval k s =
    if (padDoms m).any (fun d => (match padBit d with | some b => s.pwr.latched.testBit b | none => false) && !s.isOn d) then notPermitted 2
    else doneWith [] fun _ s => s.releasePads m := by
  subst hm
  unfold opPadRelease State.releasePads padDoms
  refine (if_neg ?_).trans ?_
  · simp [hlen, h0]
  · rfl
theorem opPadRelease_ok (h11 : m.testBit 0 = false) (h9 : s.isOn 9 = true) (h10 : s.isOn 10 = true) : opPadRelease.eval k s = doneWith [] fun _ s => s.releasePads m := by
  rw [opPadRelease_eq hlen hm h0, padDoms_eq, h11]
  refine if_neg ?_
  cases m.testBit 2 <;> cases m.testBit 1 <;> simp [h9, h10]
theorem opPadRelease_off (h11 : m.testBit 0 = true) (hlat : s.pwr.latched.testBit 0 = true) (hoff : s.isOn 11 = false) : opPadRelease.eval k s = refuse .notPermitted [2] := by
  rw [opPadRelease_eq hlen hm h0, padDoms_eq, h11]
  exact if_pos (by simp [padBit, hlat, hoff])
end
theorem releasePads_parts (m : Nat) (s : State) : (s.releasePads m).parts = s.parts := by
  unfold State.releasePads
  refine (foldl_keeps State.parts _ (fun b d => unlatchPads_parts d b) _ _).trans ?_
  split <;> rfl
/-- Where the latch of D9 is open, a release leaves latches alone that it does not name, and everything but the latches. -/
theorem releasePads_latched {m : Nat} {s : State} (h11 : m.testBit 0 = false) (hopen : s.pwr.latched.testBit 2 = false) : ∃ f : Power → Power, s.releasePads m = s.onPwr f ∧
    f s.pwr = { s.pwr with latched := (f s.pwr).latched, relPend := (f s.pwr).relPend } ∧
    ∀ b, b < 3 → (f s.pwr).latched.testBit b = (s.pwr.latched.testBit b && !m.testBit b) := by
  unfold State.releasePads
  rw [padDoms_eq, h11]
  have hb : ∀ b, b < 3 → b = 0 ∨ b = 1 ∨ b = 2 := fun b hb => by omega
  cases h2 : m.testBit 2 <;> cases h1 : m.testBit 1
  · refine ⟨id, rfl, rfl, fun b h => ?_⟩
    rcases hb b h with rfl | rfl | rfl <;> simp [h11, h1, h2]
  · refine ⟨Power.unlatch 1, unlatchPads_samples s, rfl, fun b h => ?_⟩
    refine (testBit_clearBits ..).trans ?_
    rcases hb b h with rfl | rfl | rfl <;> simp [h11, h1, h2]
  · refine ⟨Power.unlatch 2, unlatchPads_open hopen, rfl, fun b h => ?_⟩
    refine (testBit_clearBits ..).trans ?_
    rcases hb b h with rfl | rfl | rfl <;> simp [h11, h1, h2]
  · refine ⟨fun p => (p.unlatch 2).unlatch 1, ?_, rfl, fun b h => ?_⟩
    · show (s.unlatchPads 9).unlatchPads 10 = _
      rw [unlatchPads_open hopen, unlatchPads_samples]; rfl
    · refine (testBit_clearBits ..).trans ((congrArg (· && _) (testBit_clearBits ..)).trans ?_)
      rcases hb b h with rfl | rfl | rfl <;> simp [h11, h1, h2]

/-! ## D5 goes off (R134) -/

theorem kiteReady_kite (s : State) : s.kiteReady.kite = { s.kite with reset := [] } := by
  unfold State.kiteReady
  exact foldl_keeps State.kite _ (fun b e => raise_kite ..) _ _
theorem kiteReady_pwr (s : State) : s.kiteReady.pwr = s.pwr := by
  unfold State.kiteReady
  exact foldl_keeps State.pwr _ (fun b e => raise_pwr ..) _ _
theorem kiteReady_view {γ : Type} (f : Partner → γ) (hf : ∀ (x : Partner) (e : Stream), f { x with ev := e } = f x) (s : State) (q : Nat) : f (s.kiteReady.part q) = f (s.part q) := by
  unfold State.kiteReady
  exact foldl_keeps (fun b : State => f (b.part q)) _ (fun b e => record_view f hf ..) _ _
/-- With D5 off no channel is left; the power block stands, and of the partners their streams alone may move. -/
theorem kiteDown_leaves (s : State) : s.kiteDown.kite.chans = [] ∧ s.kiteDown.pwr = s.pwr ∧
    ∀ {γ : Type} (f : Partner → γ), (∀ (x : Partner) (e : Stream), f { x with ev := e } = f x) → ∀ q, f (s.kiteDown.part q) = f (s.part q) := by
  unfold State.kiteDown
  dsimp only
  have hkeep := fun {γ : Type} (g : State → γ) (hg : ∀ (b : State) j, g (b.putJrn j) = g b) => foldl_keeps g (fun (s : State) c => s.putJrn (s.jrn.unpin .work c.jsn)) (fun b c => hg b _) s.kite.cmds s
  split
  · refine ⟨?_, ?_, fun f hf q => ?_⟩
    · rw [kiteReady_kite]; rfl
    · rw [kiteReady_pwr]; exact hkeep State.pwr (fun _ _ => rfl)
    · rw [kiteReady_view f hf]; exact hkeep (fun b : State => f (b.part q)) (fun _ _ => rfl)
  · exact ⟨rfl, hkeep State.pwr (fun _ _ => rfl), fun f _ q => hkeep (fun b : State => f (b.part q)) (fun _ _ => rfl)⟩
theorem domTo_kite_off {s : State} (h : s.dom 5 = 2) : s.domTo 5 0 = (s.setDom 5 0).kiteDown := by
  have hoff : s.domOff 5 = (s.setDom 5 0).kiteDown := if_neg (by omega)
  rw [← hoff]
  unfold State.domTo
  rw [if_neg (by omega), if_neg (by decide)]
  exact (if_neg (by simp)).trans ((if_neg (by decide)).trans (if_neg (by decide)))

/-! ## The packets of PWR_DOMAIN -/

/-- PWR_DOMAIN with its OP. -/
def domPkt (n : Nat) (env : Env) (ps : List Word) (a : State) : Pkt := pktOf 0x0C1 env (fixField 47 46 n ps) a
section
variable (n : Nat) (env : Env) (ps : List Word) (a : State)
theorem domPkt_op {n : Nat} (hn : n < 3) (hps : ps.length = 1) : fld (arg (domPkt n env ps a).ps 0) 47 46 = n :=
  fld_fixField (by decide) (by decide) (fun h => by rw [h] at hps; cases hps) (by omega)
theorem domPkt_fld {i j : Nat} (h : i < 46 := by decide) : fld (arg (domPkt n env ps a).ps 0) i j = fld (arg ps 0) i j := fld_fixField_out (by decide) (by decide) (.inl h)
theorem domPkt_length : (domPkt n env ps a).ps.length = ps.length := fixField_length ..
end
/-- A force that is ACCEPTED. -/
theorem pwrDomain_forced {t : Lapse} {env : Env} {ps : List Word} {s : State} (h : (s.elapse t).admits 0x0C1 3 0xFFE env (fixField 47 46 0 ps) = true) (hlen : ps.length = 1) {d st : Nat}
    (hd : fld (arg ps 0) 45 42 = d) (hdom : d = 1 ∨ (3 ≤ d ∧ d ≤ 11)) (hst : fld (arg ps 0) 41 40 = st) (hpt : fld (arg ps 0) 39 38 = 0) (h3 : st < 3) (h1 : d ≠ 1 ∨ st = 0)
    (htab : (s.elapse t).breaksTable d (2 - st) = false) (hneed : st = 0 ∨ (s.elapse t).pendingNeeds d = false) :
    ∃ c, Handed env (s.elapse t) c ∧ Shows 0x0C1 0 [] env (s.elapse t) c ∧
      runOp opPwrDomain t env (fixField 47 46 0 ps) s = .next ((c.onPwr (Power.forcing d (forceCode st) 0)).domTo d (2 - st)) := by
  have hv := opPwrDomain_force (k := domPkt 0 env ps (s.elapse t)) (s := (s.elapse t).bound env) (by rw [domPkt_length]; exact hlen) (domPkt_op _ _ _ (by decide) hlen)
    (by rw [domPkt_fld]; exact hd) hdom (by rw [domPkt_fld]; exact hst) (by rw [domPkt_fld]; exact hpt) h3 h1 htab hneed
  exact runOp_handed opPwrDomain t env _ 3 s _ h (by decide) (by decide) hv rfl (by show entriesFor ((fixField 47 46 0 ps).length + 0) + 0 ≤ 1000; rw [fixField_length, hlen]; decide)

/-- Settles O46: what each command makes of the power block. -/
theorem powerCommands : Obligations.PowerCommands := by
  intro t env ps s a d
  refine ⟨fun h hlen hc => ?_, fun h hbad => ?_, fun h hlen hst hpt hd hon htab => ?_, fun h hlen hst hpt hd hon htab => ?_, fun h hlen hst hpt hd => ?_, fun h hlen hd => ?_,
    fun h hlen hwake hbusy => ?_, fun h hlen hwake hA hB => ?_, fun h hlen hm h11 h9 h10 => ?_, fun h hlen h11 hlat hoff => ?_⟩
  · have hv := opPwrBudget_one (k := pktOf 0x0C0 env ps a) (s := a.bound env) hlen hc
    refine (runOp_pwr (op := opPwrBudget) (rights := 2) (Power.budgeted env.partner (fld (arg ps 0) 47 45) (arg ps 0)) h (by decide) (by decide) hlen hv rfl rfl rfl rfl).imp fun u ⟨hpwr, hrest⟩ => ?_
    refine ⟨?_, fun p hp c hc' hne => ?_, by rw [hpwr]; rfl, hrest⟩
    · unfold State.budget
      rw [hpwr]
      exact tget_tput_same ..
    · unfold State.budget
      rw [hpwr]
      exact tget_tput_ne _ _ _ _ _ _ (fun heq => by
        have heq : 8 * p + c = 8 * env.partner + fld (arg ps 0) 47 45 := heq
        omega)
  · exact runOp_refuses opPwrBudget t env ps 2 s .badParam [1] h (by decide) (by decide) (by simp) (opPwrBudget_bad hbad) (by simp)
  · obtain ⟨c, hc, hshow, hu⟩ := pwrDomain_forced h hlen rfl hd hst hpt (by decide) (.inr rfl) htab (.inl rfl)
    have hdom : (c.onPwr (Power.forcing d (forceCode 0) 0)).dom d = 2 := by
      show c.dom d = 2
      rw [show c.dom d = a.dom d from congrArg (fun p : Power => tget 0 d p.dom) (of_rest_pwr hc.rest)]
      exact of_decide_eq_true hon
    rw [domTo_same hdom] at hu
    obtain ⟨hpwr, hrest⟩ := onPwr_of_rest hc.rest (f := Power.forcing d (forceCode 0) 0) rfl
    refine ⟨_, hu, hshow, ?_, ?_, ?_, hrest⟩
    · exact (congrArg (fun p : Power => tget 0 d p.force) hpwr).trans (forcing_same ..).1
    · exact (congrArg (fun p : Power => tget 0 d p.fpt) hpwr).trans (forcing_same ..).2
    · rw [hpwr]; rfl
  · obtain ⟨c, hc, ⟨hseq, hrep⟩, hu⟩ := pwrDomain_forced h hlen hd (.inr (by decide)) hst hpt (by decide) (.inl (by decide)) htab (.inr rfl)
    have hpwr := of_rest_pwr hc.rest
    have hdom : (c.onPwr (Power.forcing 5 (forceCode 2) 0)).dom 5 = 2 := by
      show c.dom 5 = 2
      rw [show c.dom 5 = a.dom 5 from congrArg (fun p : Power => tget 0 5 p.dom) hpwr]
      exact of_decide_eq_true hon
    rw [show (2 - 2 : Nat) = 0 from rfl, domTo_kite_off hdom] at hu
    obtain ⟨hchans, hp, hview⟩ := kiteDown_leaves ((c.onPwr (Power.forcing 5 (forceCode 2) 0)).setDom 5 0)
    refine ⟨_, hu, ⟨(hview (·.lseq) (fun _ _ => rfl) _).trans hseq, ?_⟩, ?_, ?_, fun x _ hx => ?_, by rw [hchans]; rfl⟩
    · rw [show _ = _ from hview (·.replays) (fun _ _ => rfl) env.partner]
      exact hrep
    · exact (congrArg (fun p : Power => tget 0 5 p.force) hp).trans (forcing_same 5 3 0 c.pwr).1
    · exact (congrArg (fun p : Power => tget 0 5 p.dom) hp).trans (show tget 0 5 (tput 0 5 0 c.pwr.dom) = 0 from tget_tput_same ..)
    · exact (congrArg (fun p : Power => tget 0 x p.dom) hp).trans ((show tget 0 x (tput 0 5 0 c.pwr.dom) = tget 0 x c.pwr.dom from tget_tput_ne _ _ _ _ _ _ hx).trans
        (congrArg (fun p : Power => tget 0 x p.dom) hpwr))
  · have htab : (a.bound env).breaksTable d (2 - 2) = true := by
      unfold State.breaksTable
      rcases hd with hd | hd <;> rw [hd] <;> rfl
    have hv := opPwrDomain_tabled (k := domPkt 0 env ps a) (s := a.bound env) (by rw [domPkt_length]; exact hlen) (domPkt_op _ _ _ (by decide) hlen) (by rw [domPkt_fld])
      (.inr (by omega)) (by rw [domPkt_fld]; exact hst) (by rw [domPkt_fld]; exact hpt) (by decide) (.inl (by omega)) htab
    exact runOp_refuses opPwrDomain t env _ 3 s .notPermitted [2] h (by decide) (by decide) (by simp) hv (by simp)
  · have hv := opPwrDomain_release (k := domPkt 1 env ps a) (s := a.bound env) (by rw [domPkt_length]; exact hlen) (domPkt_op _ _ _ (by decide) hlen) (by rw [domPkt_fld]) hd
    refine (runOp_pwr (op := opPwrDomain) (rights := 3) (Power.forcing d 0 0) h (by decide) (by decide) (by rw [fixField_length]; exact hlen) hv rfl rfl rfl rfl).imp fun u ⟨hpwr, hrest⟩ => ?_
    refine ⟨?_, ?_, fun x _ hx => ?_, by rw [hpwr]; rfl, hrest⟩
    · exact (congrArg (fun p : Power => tget 0 d p.force) hpwr).trans (forcing_same ..).1
    · exact (congrArg (fun p : Power => tget 0 d p.fpt) hpwr).trans (forcing_same ..).2
    · exact (congrArg (fun p : Power => tget 0 x p.force) hpwr).trans (forcing_ne hx ..)
  · have hv := opPwrDomain_dormant (k := domPkt 2 env ps a) (s := a.bound env) (by rw [domPkt_length]; exact hlen) (domPkt_op _ _ _ (by decide) hlen) hwake hbusy
    exact runOp_pwr (op := opPwrDomain) (rights := 3) Power.asking h (by decide) (by decide) (by rw [fixField_length]; exact hlen) hv rfl rfl rfl rfl
  · have hv := opPwrDomain_asleep (k := domPkt 2 env ps a) (s := a.bound env) (by rw [domPkt_length]; exact hlen) (domPkt_op _ _ _ (by decide) hlen) hwake hA hB
    exact runOp_refuses opPwrDomain t env _ 3 s .notPermitted [4] h (by decide) (by decide) (by simp) hv (by simp)
  · have hm0 : (fld (arg ps 0) 47 45).testBit 0 = false := (padMask_low _).trans (decide_eq_false (by omega))
    have hv := opPadRelease_ok (k := pktOf 0x0C2 env ps a) (s := a.bound env) hlen rfl hm hm0 h9 h10
    have hopen : a.pwr.latched.testBit 2 = false := latched_of_portUp (portUp_of_admits h)
    refine runOp_completes opPadRelease t env ps 2 s _ [] _ h (by decide) (by decide) hv rfl (by show entriesFor (ps.length + 0) + 0 ≤ 1000; rw [hlen]; decide)
      (fun _ b => ?_) (fun _ b u hb hu => ?_)
    · have hparts := part_congr (releasePads_parts (fld (arg ps 0) 47 45) b) env.partner
      exact ⟨congrArg Partner.lseq hparts, congrArg Partner.replays hparts⟩
    · have hpwr := of_rest_pwr hb
      obtain ⟨f, hf, hkeep, hbits⟩ := releasePads_latched (s := b) hm0 (by rw [hpwr]; exact hopen)
      obtain ⟨hup, hrest⟩ := onPwr_of_rest (f := f) hb (hu.trans (congrArg State.rest hf))
      rw [hpwr] at hkeep hbits
      rw [hup]
      exact ⟨hbits, hkeep, by rw [← hup]; exact hrest⟩
  · have hm0 : (fld (arg ps 0) 47 45).testBit 0 = true := (padMask_low _).trans (decide_eq_true h11)
    have hv := opPadRelease_off (k := pktOf 0x0C2 env ps a) (s := a.bound env) (m := fld (arg ps 0) 47 45) hlen rfl (fun hz => by rw [hz] at hm0; cases hm0) hm0 hlat hoff
    exact runOp_refuses opPadRelease t env ps 2 s .notPermitted [2] h (by decide) (by decide) (by simp) hv (by simp)

end Sys2Proof.Machine
end

section
/-! Loading, starting, running, ending and aborting a task of a user core, and a failed core (R423-R432) (O48). -/
namespace Sys2Proof.Machine
open Sys2Proof

/-! ## DSP_LOAD (R423, R424) -/

theorem fixField_drop (hi lo v : Nat) (ps : List Word) : (fixField hi lo v ps).drop 1 = ps.drop 1 := by cases ps <;> rfl
theorem fixField_ne_nil {ps : List Word} (h : ps ≠ []) (hi lo v : Nat) : fixField hi lo v ps ≠ [] := fun hn =>
  h (List.length_eq_zero_iff.mp ((fixField_length hi lo v ps).symm.trans (congrArg List.length hn)))
/-- The slot that a COMMIT fills. -/
def Pkt.image (k : Pkt) : TaskSlot :=
  { loaded := true, owner := k.partner, entry := fld (arg k.ps 2) 47 24, base := fld (arg k.ps 1) 47 24, size := fld (arg k.ps 1) 23 0, crc := fld (arg k.ps 3) 31 0, maxcyc := fld (arg k.ps 2) 23 0 }
/-- What a COMMIT does: the slot is loaded where the image has its CRC. -/
def State.loadImage (k : Pkt) (jsn : Nat) (s : State) : State :=
  if s.imageCrc k.image.base k.image.size = k.image.crc then s.onUC (fld (arg k.ps 0) 47 47) fun x => x.setSlot (fld (arg k.ps 0) 44 39) k.image
  else s.raise k.partner false 0xC02 [word jsn, 0x003]
section
variable {k : Pkt} {s : State}

theorem opDspLoad_data (hop : fld (arg k.ps 0) 46 45 = 0) (hps : k.ps ≠ []) (hregion : s.userRegion (fld (arg k.ps 0) 23 0) (k.ps.length - 1) = true)
    (hover : s.overImage (fld (arg k.ps 0) 23 0) (k.ps.length - 1) = false) (hok : (s.core (fld (arg k.ps 0) 47 47)).failed = false) :
    opDspLoad.eval k s = acceptWith [] fun _ s => s.memWrites (fld (arg k.ps 0) 23 0) (k.ps.drop 1) := by
  unfold opDspLoad
  dsimp only
  rw [hop]
  change @ite _ _ _ _ _ = _
  rw [if_neg hps, if_neg (by simp [hregion]), if_neg (by simp [hover]), if_neg (by simp [hok])]
theorem opDspLoad_outside (hop : fld (arg k.ps 0) 46 45 = 0) (hps : k.ps ≠ []) (hregion : s.userRegion (fld (arg k.ps 0) 23 0) (k.ps.length - 1) = false) :
    opDspLoad.eval k s = refuse .badParam [2] := by
  unfold opDspLoad
  dsimp only
  rw [hop]
  change @ite _ _ _ _ _ = _
  rw [if_neg hps, if_pos (by simp [hregion])]; rfl
theorem opDspLoad_commit (hop : fld (arg k.ps 0) 46 45 = 1) (hlen : k.ps.length = 4) (h1 : 1 ≤ k.image.size) (hmax : k.image.size ≤ 65536)
    (hlow : k.image.base ≤ k.image.entry) (hhigh : k.image.entry < k.image.base + k.image.size) (hcyc : 1 ≤ k.image.maxcyc) (hregion : s.userRegion k.image.base k.image.size = true)
    (hfree : ((s.core (fld (arg k.ps 0) 47 47)).slot (fld (arg k.ps 0) 44 39)).loaded = false) (hbusy : s.slotBusy (fld (arg k.ps 0) 47 47) (fld (arg k.ps 0) 44 39) = false)
    (hok : (s.core (fld (arg k.ps 0) 47 47)).failed = false) :
    opDspLoad.eval k s = { status := .accepted, promise := 1, act := fun jsn s => s.loadImage k jsn } := by
  unfold Pkt.image at h1 hmax hlow hhigh hcyc hregion
  dsimp only at h1 hmax hlow hhigh hcyc hregion
  unfold opDspLoad
  dsimp only
  rw [hop]
  change @ite _ _ _ _ _ = _
  rw [if_neg (by omega), if_neg (by simp [hregion]), if_neg (by simp [hfree, hbusy]), if_neg (by simp [hok])]
  rfl
theorem opDspLoad_unload (hop : fld (arg k.ps 0) 46 45 = 2) (hlen : k.ps.length = 1)
    (hown : ((s.core (fld (arg k.ps 0) 47 47)).slot (fld (arg k.ps 0) 44 39)).owner = k.partner) (hbusy : s.slotBusy (fld (arg k.ps 0) 47 47) (fld (arg k.ps 0) 44 39) = false)
    (hok : (s.core (fld (arg k.ps 0) 47 47)).failed = false) :
    opDspLoad.eval k s = acceptWith [] fun _ s => s.onUC (fld (arg k.ps 0) 47 47) fun x => x.setSlot (fld (arg k.ps 0) 44 39) {} := by
  unfold opDspLoad
  dsimp only
  rw [hop]
  change @ite _ _ _ _ _ = _
  rw [if_neg (by omega), if_neg (by simp [hown, hbusy]), if_neg (by simp [hok])]

/-! ## DSP_TASK (R424, R425) -/

theorem opDspTask_start (hop : bit (arg k.ps 0) 46 = false) (hlen : k.ps.length = 1 + fld (arg k.ps 0) 39 37) (h4 : fld (arg k.ps 0) 39 37 ≤ 4)
    (hl : ((s.core (fld (arg k.ps 0) 47 47)).slot (fld (arg k.ps 0) 45 40)).loaded = true) (hown : ((s.core (fld (arg k.ps 0) 47 47)).slot (fld (arg k.ps 0) 45 40)).owner = k.partner)
    (hok : (s.core (fld (arg k.ps 0) 47 47)).failed = false) :
    opDspTask.eval k s = acceptWith [] fun jsn s => s.pushStart (fld (arg k.ps 0) 47 47) ⟨fld (arg k.ps 0) 45 40, jsn, 0, s.tb.q0, k.ps.drop 1, false, s.clk.direct⟩ := by
  unfold opDspTask
  dsimp only
  rw [if_neg (by omega), if_neg (by simp [hop]), if_neg (by simp [hl]), if_neg (by simp [hown]), if_neg (by simp [hok])]
theorem opDspTask_empty (hop : bit (arg k.ps 0) 46 = false) (hlen : k.ps.length = 1 + fld (arg k.ps 0) 39 37) (h4 : fld (arg k.ps 0) 39 37 ≤ 4)
    (hl : ((s.core (fld (arg k.ps 0) 47 47)).slot (fld (arg k.ps 0) 45 40)).loaded = false) : opDspTask.eval k s = refuse .notPermitted [5] := by
  unfold opDspTask
  dsimp only
  rw [if_neg (by omega), if_neg (by simp [hop]), if_pos (by simp [hl])]; rfl
/-- The core without the starts of a task that wait. -/
def UCore.unqueued (task : Nat) (x : UCore) : UCore :=
  { x with ring := x.ring.filter fun r => r.task ≠ task, aborts := satN 16 (x.aborts + (x.ring.filter fun r => r.task == task).length) }
/-- What an ABORT does. -/
def State.abortStarts (c task : Nat) (s : State) : State :=
  match ((s.onUC c (UCore.unqueued task)).core c).run with
  | some r => if r.task = task then (s.onUC c (UCore.unqueued task)).abortTask c 5 else s.onUC c (UCore.unqueued task)
  | none => s.onUC c (UCore.unqueued task)
theorem opDspTask_abort (hop : bit (arg k.ps 0) 46 = true) (hlen : k.ps.length = 1 + fld (arg k.ps 0) 39 37) (h4 : fld (arg k.ps 0) 39 37 ≤ 4)
    (hown : ((s.core (fld (arg k.ps 0) 47 47)).slot (fld (arg k.ps 0) 45 40)).owner = k.partner) (hok : (s.core (fld (arg k.ps 0) 47 47)).failed = false) :
    opDspTask.eval k s = acceptWith [] fun _ s => s.abortStarts (fld (arg k.ps 0) 47 47) (fld (arg k.ps 0) 45 40) := by
  unfold opDspTask
  dsimp only
  rw [if_neg (by omega), if_pos hop, if_neg (by simp [hown]), if_neg (by simp [hok])]
  rfl
end
theorem pushStart_queued {c : Nat} {r : Start} {s : State} (hok : (s.core c).failed = false) (hroom : (s.core c).ring.length < 4) :
    s.pushStart c r = s.setCore c { s.core c with ring := (s.core c).ring ++ [r] } := by
  unfold State.pushStart
  dsimp only
  rw [if_neg (by simp [hok])]
  cases hring : (s.core c).ring with
  | nil => rfl
  | cons x rest =>
    rw [hring] at hroom
    exact if_neg (by rw [List.length_cons] at hroom ⊢; omega)

/-! ## Cores and the rest of the state -/

theorem setCore_rest_congr {a b : State} (h : b.rest = a.rest) (k : Nat) (v : UCore) : (b.setCore k v).rest = (a.setCore k v).rest := by
  have hdsp := of_rest_dsp h
  unfold State.setCore
  split
  · exact hdsp ▸ congrArg (State.putDsp · { b.dsp with c2 := v }) h
  · exact hdsp ▸ congrArg (State.putDsp · { b.dsp with c3 := v }) h
/-- A command that changes one core alone. -/
theorem setCore_of_rest {a b u : State} {k : Nat} {v : UCore} (hb : b.rest = a.rest) (hu : u.rest = (b.setCore k v).rest) :
    u.core k = v ∧ u.rest = (a.setCore k (u.core k)).rest := by
  have hcore : u.core k = v := (core_of_rest hu k).trans (core_setCore ..)
  exact ⟨hcore, by rw [hcore]; exact hu.trans (setCore_rest_congr hb k v)⟩
theorem setCore_part (s : State) (k : Nat) (v : UCore) (q : Nat) : (s.setCore k v).part q = s.part q := part_congr (setCore_parts s k v) q
theorem abortTask_view {γ : Type} (f : Partner → γ) (hf : ∀ (x : Partner) (e : Stream), f { x with ev := e } = f x) (k code : Nat) (s : State) (q : Nat) :
    f ((s.abortTask k code).part q) = f (s.part q) := by
  cases hrun : (s.core k).run with
  | none => exact congrArg f (by unfold State.abortTask; dsimp only; rw [hrun])
  | some r =>
    rw [abortTask_eq hrun]
    split
    · exact (record_view f hf ..).trans (congrArg f (setCore_part ..))
    · exact congrArg f (setCore_part ..)
theorem loadImage_view {γ : Type} (f : Partner → γ) (hf : ∀ (x : Partner) (e : Stream), f { x with ev := e } = f x) (k : Pkt) (jsn : Nat) (s : State) (q : Nat) :
    f ((s.loadImage k jsn).part q) = f (s.part q) := by
  unfold State.loadImage
  split
  · exact congrArg f (setCore_part ..)
  · exact record_view f hf ..
theorem pushStart_view {γ : Type} (f : Partner → γ) (hf : ∀ (x : Partner) (e : Stream), f { x with ev := e } = f x) (c : Nat) (r : Start) (s : State) (q : Nat) :
    f ((s.pushStart c r).part q) = f (s.part q) := by
  have htell : ∀ (x : Start) (b : State), f (State.part (if ((b.core c).slot x.task).owner < 5 then
      b.raiseOwner ((b.core c).slot x.task).owner 0xC03 (c * 64 + x.task) [word c, word x.task, word ((b.core c).slot x.task).drops] else b) q) = f (b.part q) := fun x b => by
    split
    · exact raiseOwner_view f hf ..
    · rfl
  unfold State.pushStart
  dsimp only
  split
  · exact (htell ..).trans (congrArg f (setCore_part ..))
  · split
    · exact congrArg f (setCore_part ..)
    · split
      · exact (htell ..).trans (congrArg f (setCore_part ..))
      · exact congrArg f (setCore_part ..)
theorem abortStarts_view {γ : Type} (f : Partner → γ) (hf : ∀ (x : Partner) (e : Stream), f { x with ev := e } = f x) (c task : Nat) (s : State) (q : Nat) :
    f ((s.abortStarts c task).part q) = f (s.part q) := by
  have hset : f ((s.onUC c (UCore.unqueued task)).part q) = f (s.part q) := congrArg f (setCore_part ..)
  unfold State.abortStarts
  split
  · split
    · exact (abortTask_view f hf ..).trans hset
    · exact hset
  · exact hset

/-! ## A core that fails (R431, R432) -/

section
variable {t : Lapse} {s a : State} (ha : s.elapse t = a)
include ha

theorem execCoreHeartbeatLoss_due {c : Nat} (hc : c < 2) (hon : a.isOn 6 = true) (hok : a.dsp.failed.testBit c = false) (hother : a.dsp.failed.testBit (1 - c) = false) :
    execCoreHeartbeatLoss t c s = .next (State.partFailed 0x012 c ((a.putDsp { a.dsp with failed := setBit a.dsp.failed c, navMeas := 1 - c, navSol := 1 - c }).putFc
      { a.fc with core := setBit a.fc.core c })) := by
  subst ha
  unfold execCoreHeartbeatLoss
  dsimp only
  rw [if_pos ⟨hc, hon, by rw [hok]; rfl⟩, hother]
  rfl
theorem execTaskStart_idle {k : Nat} {r : Start} {rest : List Start} (hk : k < 2) (hon : a.isOn 6 = true) (hgives : a.clk.pllS.gives = true) (hok : (a.core k).failed = false)
    (htest : a.pwr.selftest.testBit 2 = false) (hrun : (a.core k).run = none) (hring : (a.core k).ring = r :: rest) :
    execTaskStart t k s = .next ((a.setCore k ((a.core k).enter a.tb.clk r rest)).emit (.coreStart k r.task)) := by
  subst ha
  unfold execTaskStart
  dsimp only
  rw [hring, hrun]
  exact if_pos ⟨hk, hon, hgives, by rw [hok]; rfl, by rw [htest]; rfl⟩
theorem execBudget_due {k : Nat} {r : Start} (hruns : a.coreRuns k = true) (hrun : (a.core k).run = some r) (hcyc : ((a.core k).slot r.task).maxcyc * 1024 ≤ (a.core k).cycnt) :
    execBudget t k s = .next (a.abortTask k 4) := by
  subst ha
  unfold execBudget
  dsimp only
  rw [hrun]
  exact if_pos ⟨hruns, hcyc⟩
theorem execIllegal_runs {k : Nat} (hruns : a.coreRuns k = true) : execIllegal t k s = .next (a.abortTask k 1) := by
  subst ha
  unfold execIllegal
  exact if_pos hruns
end
/-- An abort with a code other than 5: the core stops, its registers say why, and its owner is told. -/
theorem abortTask_spec {a : State} {k code : Nat} {r : Start} (hrun : (a.core k).run = some r) (h5 : ((a.core k).slot r.task).owner < 5) (hcode : code ≠ 5) :
    ((a.abortTask k code).core k).run = none ∧ ((a.abortTask k code).core k).last = pack [put 47 44 code, put 43 38 r.task, put 37 14 (a.core k).pc] ∧
    ((a.abortTask k code).core k).faults = satN 16 ((a.core k).faults + 1) ∧ ((a.abortTask k code).core k).aborts = (a.core k).aborts ∧
    ((a.abortTask k code).core k).lmem = (a.core k).lmem ∧ ToldOne ((a.core k).slot r.task).owner a (a.abortTask k code) ∧
    (a.abortTask k code).rest = (a.setCore k ((a.abortTask k code).core k)).rest := by
  obtain ⟨hstop, hlmem, -⟩ := aborted_stopped hrun code a.tb.clk
  have hcore : (a.abortTask k code).core k = _ := abortTask_core hrun
  have hrest := abortTask_rest (code := code) hrun
  rw [hcore]
  exact ⟨hstop, rfl, if_neg hcode, if_neg hcode, hlmem, abortTask_toldOne hrun h5, hrest⟩
theorem tget_absent {t : Tab Word} {i : Nat} (h : i ∉ t.map (fun e => e.1)) : tget 0 i t = 0 := by
  induction t with
  | nil => rfl
  | cons e t ih =>
    obtain ⟨hne, ht⟩ := not_or.mp (mt List.mem_cons.mpr h)
    exact (if_neg hne).trans (ih ht)
/-- A table whose zeros are left out reads as before. -/
theorem tget_nonzero {t : Tab Word} (h : (t.map (fun e => e.1)).Nodup) (i : Nat) : tget 0 i (t.filter fun e => e.2 ≠ 0) = tget 0 i t := by
  induction t with
  | nil => rfl
  | cons e t ih =>
    obtain ⟨hnot, ht⟩ := List.nodup_cons.mp h
    by_cases hz : e.2 = 0
    · rw [List.filter_cons_of_neg (by simp [hz]), ih ht]
      by_cases hi : i = e.1
      · rw [hi, tget_absent hnot]
        exact ((if_pos rfl).trans hz).symm
      · exact (if_neg hi).symm
    · rw [List.filter_cons_of_pos (by simpa using hz)]
      by_cases hi : i = e.1
      · exact (if_pos hi).trans (if_pos hi).symm
      · exact (if_neg hi).trans ((ih ht).trans (if_neg hi).symm)
/-- The registers that a task finds at its entry (R427). -/
def entryRegs (r : Start) (drops : Nat) : Tab Word := [(0, arg r.argw 0), (1, arg r.argw 1), (2, arg r.argw 2), (3, arg r.argw 3), (4, word r.jsn), (5, word r.occ), (6, cyc r.at_),
  (7, frc r.at_), (8, pack [putB 47 r.late, putB 46 r.clkq, put 45 24 drops])]
theorem entryRegs_nodup (r : Start) (drops : Nat) : ((entryRegs r drops).map (fun e => e.1)).Nodup := show [0, 1, 2, 3, 4, 5, 6, 7, 8].Nodup by decide
theorem enter_regs (clk : Nat) (r : Start) (rest : List Start) (c : UCore) (i : Nat) : (c.enter clk r rest).dr i = tget 0 i (entryRegs r (c.slot r.task).drops) :=
  tget_nonzero (entryRegs_nodup ..) i
/-- The state with its signal-processing cluster and its failed parts replaced, a failed core told. -/
theorem failedRole_spec (a : State) (d : Dsp) (f : Parts) (i : Nat) : ∀ u, State.partFailed 0x012 i ((a.putDsp d).putFc f) = u →
    u.dsp = d ∧ u.fc = f ∧ Told a u ∧ u.rest = ((a.putFc u.fc).putDsp u.dsp).rest := by
  rintro u rfl
  have hrest := partFailed_rest 0x012 i ((a.putDsp d).putFc f)
  have hdsp := of_rest_dsp hrest
  have hfc := of_rest_fc hrest
  refine ⟨hdsp, hfc, partFailed_told (a := a) (b := (a.putDsp d).putFc f) rfl rfl _ _, ?_⟩
  rw [hdsp, hfc]; exact hrest
/-- The core that END leaves. -/
def UCore.ended (clk : Nat) (c : UCore) : UCore := { c with cycnt := (c.cycnt + 1) % 2 ^ 48 }.stop clk
theorem ended_stopped {c : UCore} {r : Start} (h : c.run = some r) (clk : Nat) : ∀ n, (c.cycnt + 1) % 2 ^ 48 = n →
    (c.ended clk).run = none ∧ (c.ended clk).lmem = c.lmem ∧ (c.ended clk).ring = c.ring ∧ ((c.ended clk).slot r.task).lastCyc = satN 24 (n / 1024) ∧
    (c.ended clk).aborts = c.aborts ∧ (c.ended clk).faults = c.faults := by
  intro n hn
  unfold UCore.ended
  rw [hn, stop_running (c := { c with cycnt := n }) h]
  exact ⟨rfl, rfl, rfl, congrArg TaskSlot.lastCyc (tget_tput_same ..), rfl, rfl⟩
theorem execEndTask_runs {t : Lapse} {k : Nat} {s a : State} (ha : (s.elapse t).fetched k = a) (hx : (s.elapse t).executes k = true) :
    execEndTask t k s = .next (a.setCore k ((a.core k).ended a.tb.clk)) := by
  subst ha
  exact onCore_executes (f := fun c s => s.setCore k (c.ended s.tb.clk)) hx
/-- The core that a failure leaves. -/
def UCore.failedAt (clk : Nat) (c : UCore) : UCore := { c.stop clk with failed := true, ring := [] }
theorem failedAt_running {c : UCore} {r : Start} (h : c.run = some r) (clk : Nat) :
    (c.failedAt clk).failed = true ∧ (c.failedAt clk).run = none ∧ (c.failedAt clk).ring = [] ∧ (c.failedAt clk).lmem = c.lmem := by
  unfold UCore.failedAt
  rw [stop_running h]
  exact ⟨rfl, rfl, rfl, rfl⟩
/-- The signal-processing cluster with a core failed. -/
def State.failedDsp (k : Nat) (a : State) : Dsp := { (a.setCore k ((a.core k).failedAt a.tb.clk)).dsp with failed := setBit a.dsp.failed (2 + k) }
theorem execUserCoreFailed_idle {t : Lapse} {s a : State} (ha : s.elapse t = a) {k : Nat} (hk : k < 2) (hon : a.isOn 6 = true) (hok : (a.core k).failed = false) (hring : (a.core k).ring = []) :
    execUserCoreFailed t k s = .next (State.partFailed 0x012 (2 + k) ((a.putDsp (a.failedDsp k)).putFc { a.fc with core := setBit a.fc.core (2 + k) })) := by
  subst ha
  unfold execUserCoreFailed
  dsimp only
  rw [if_pos ⟨hk, hon, by rw [hok]; rfl⟩]
  unfold State.coreFails
  dsimp only
  rw [hring]
  refine congrArg (fun x => Host.Outcome.next (State.partFailed 0x012 (2 + k) x)) ?_
  unfold State.failedDsp State.setCore
  split <;> rfl
theorem failedDsp_core (k : Nat) (a : State) (s : State) : (s.putDsp (a.failedDsp k)).core k = (a.core k).failedAt a.tb.clk := by
  unfold State.failedDsp State.setCore State.core
  split <;> rfl
theorem failedDsp_other {k : Nat} (hk : k < 2) (a : State) (s : State) : (s.putDsp (a.failedDsp k)).core (1 - k) = a.core (1 - k) := by
  interval_cases k <;> rfl
theorem failedCore_spec {a : State} {k : Nat} {r : Start} (hk : k < 2) (hrun : (a.core k).run = some r) :
    ∀ u, State.partFailed 0x012 (2 + k) ((a.putDsp (a.failedDsp k)).putFc { a.fc with core := setBit a.fc.core (2 + k) }) = u →
    (u.core k).failed = true ∧ (u.core k).run = none ∧ (u.core k).ring = [] ∧ (u.core k).lmem = (a.core k).lmem ∧ u.core (1 - k) = a.core (1 - k) ∧
    u.fc.core = setBit a.fc.core (2 + k) ∧ u.dsp.failed = setBit a.dsp.failed (2 + k) ∧ Told a u ∧ u.rest = ((a.putFc u.fc).putDsp u.dsp).rest := by
  intro u hu
  obtain ⟨hdsp, hfc, htold, hrest⟩ := failedRole_spec a _ _ _ u hu
  have hrest' : u.rest = ((a.putDsp (a.failedDsp k)).putFc { a.fc with core := setBit a.fc.core (2 + k) }).rest := hu ▸ partFailed_rest ..
  have hcore : u.core k = (a.core k).failedAt a.tb.clk := (core_of_rest hrest' k).trans (failedDsp_core k a a)
  have hother : u.core (1 - k) = a.core (1 - k) := (core_of_rest hrest' (1 - k)).trans (failedDsp_other hk a a)
  obtain ⟨h1, h2, h3, h4⟩ := failedAt_running hrun a.tb.clk
  rw [hcore, hfc, hdsp]
  exact ⟨h1, h2, h3, h4, hother, rfl, rfl, htold, by rw [hdsp, hfc] at hrest; exact hrest⟩
/-- What a task finds at its entry. -/
theorem enter_dr (clk : Nat) (r : Start) (rest : List Start) (c : UCore) : ∀ x, c.enter clk r rest = x →
    (∀ i, i < 4 → x.dr i = arg r.argw i) ∧ x.dr 4 = word r.jsn ∧ x.dr 5 = word r.occ ∧ x.dr 6 = cyc r.at_ ∧ x.dr 7 = frc r.at_ ∧
    x.dr 8 = pack [putB 47 r.late, putB 46 r.clkq, put 45 24 (c.slot r.task).drops] ∧ ∀ i, i < 7 → x.dr (9 + i) = 0 := by
  rintro x rfl
  simp only [enter_regs]
  refine ⟨fun i hi => ?_, rfl, rfl, rfl, rfl, rfl, fun i hi => ?_⟩
  · interval_cases i <;> rfl
  · interval_cases i <;> rfl

/-! ## The packets -/

/-- DSP_LOAD with its OP. -/
def loadPkt (n : Nat) (env : Env) (ps : List Word) (a : State) : Pkt := pktOf 0x0F0 env (fixField 46 45 n ps) a
/-- DSP_TASK with its OP. -/
def taskPkt (n : Nat) (env : Env) (ps : List Word) (a : State) : Pkt := pktOf 0x0F1 env (fixField 46 46 n ps) a
section
variable (n : Nat) (env : Env) (ps : List Word) (a : State)
theorem loadPkt_op {n : Nat} (hn : n < 3) (hps : ps ≠ []) : fld (arg (loadPkt n env ps a).ps 0) 46 45 = n := fld_fixField (by decide) (by decide) hps (by omega)
theorem loadPkt_fld {i j : Nat} (h : i < 45 ∨ 46 < j) : fld (arg (loadPkt n env ps a).ps 0) i j = fld (arg ps 0) i j := fld_fixField_out (by decide) (by decide) h
theorem loadPkt_arg (i : Nat) : arg (loadPkt n env ps a).ps (i + 1) = arg ps (i + 1) := arg_fixField_succ ..
theorem loadPkt_length : (loadPkt n env ps a).ps.length = ps.length := fixField_length ..
theorem taskPkt_op {n : Nat} (hn : n < 2) (hps : ps ≠ []) : bit (arg (taskPkt n env ps a).ps 0) 46 = decide (n = 1) := by
  have hop : fld (arg (taskPkt n env ps a).ps 0) 46 46 = n := fld_fixField (by decide) (by decide) hps (by omega)
  rw [bit_eq_fld, hop]
theorem taskPkt_fld {i j : Nat} (h : i < 46 ∨ 46 < j) : fld (arg (taskPkt n env ps a).ps 0) i j = fld (arg ps 0) i j := fld_fixField_out (by decide) (by decide) h
theorem taskPkt_length : (taskPkt n env ps a).ps.length = ps.length := fixField_length ..
end
theorem entriesFor_small {n : Nat} (h : n ≤ 2048) : entriesFor (n + 0) + 1 ≤ 1000 := by
  unfold entriesFor
  omega
/-- A command that changes one core alone. -/
theorem runOp_core {op : OpSpec} {t : Lapse} {env : Env} {ps : List Word} {rights : Nat} {s : State} {v : Verdict} (k : Nat) (x : UCore)
    (h : (s.elapse t).admits op.code rights op.modes env ps = true) (hcode : 3 < op.code) (hr : op.rights ≤ rights)
    (hv : op.eval (pktOf op.code env ps (s.elapse t)) ((s.elapse t).bound env) = v) (hnow : v.status = .accepted) (hw : v.words = []) (hst : v.stored = none) (hpr : v.promise ≤ 1)
    (hkeep : ∀ j b q, ((v.act j b).part q).lseq = (b.part q).lseq ∧ ((v.act j b).part q).replays = (b.part q).replays)
    (hact : ∀ b, b.rest = (s.elapse t).rest → v.act (s.elapse t).jrn.next b = b.setCore k x) :
    Completes op.code 0 [] env (s.elapse t) (runOp op t env ps s) fun u => u.core k = x ∧ u.rest = ((s.elapse t).setCore k (u.core k)).rest := by
  have hlen := params_le_of_admits h
  obtain ⟨c, hc, u, hu, hshow, heq⟩ := runOp_accepted op t env ps rights s v h hcode hr hv hnow (by
    rw [hst, hw]
    show entriesFor (ps.length + 0) + v.promise ≤ 1000
    have := entriesFor_small hlen
    omega) (fun j b => hkeep j b env.partner)
  rw [hw] at hshow
  exact ⟨u, hu, hshow, setCore_of_rest hc.rest (by rw [heq, hact c hc.rest])⟩

/-- Settles O48: the commands that load and start tasks, and what a core does with them. -/
theorem dspCommands : Obligations.DspCommands := by
  refine ⟨fun t env ps s => ?_, fun t env ps s => ?_, fun t k s r rest => ?_, fun t k s r => ?_, fun t k s r => ?_, fun t c s => ?_⟩
  · intro a c task addr
    refine ⟨fun h hps hok hregion hover => ?_, fun h hps hok hregion => ?_, fun h _ hlen hok h1 hmax hlow hhigh hcyc hregion hfree hbusy hcrc => ?_, fun h hlen hok hown hbusy => ?_⟩
    · have hc : fld (arg (loadPkt 0 env ps a).ps 0) 47 47 = c := loadPkt_fld _ _ _ _ (by decide)
      have haddr : fld (arg (loadPkt 0 env ps a).ps 0) 23 0 = addr := loadPkt_fld _ _ _ _ (by decide)
      have hv := opDspLoad_data (k := loadPkt 0 env ps a) (s := a.bound env) (loadPkt_op _ _ _ (by decide) hps) (fixField_ne_nil hps _ _ _) (by rw [haddr, loadPkt_length]; exact hregion)
        (by rw [haddr, loadPkt_length]; exact hover) (by rw [hc]; exact hok)
      rw [haddr, show (loadPkt 0 env ps a).ps.drop 1 = ps.drop 1 from fixField_drop ..] at hv
      refine runOp_completes opDspLoad t env _ 2 s _ [] _ h (by decide) (by decide) hv rfl ?_ (fun _ _ => ⟨rfl, rfl⟩) (fun _ b u hb hu => ?_)
      · exact (Nat.le_succ _).trans (entriesFor_small (params_le_of_admits h))
      · have hmem : u.mem = a.mem.writes addr (ps.drop 1) := (of_rest_mem hu).trans (congrArg (fun m : Memory => m.writes addr (ps.drop 1)) (of_rest_mem hb))
        refine ⟨hmem, ?_⟩
        rw [hu, hmem, ← of_rest_mem hb]
        exact congrArg (State.putMem · (b.mem.writes addr (ps.drop 1))) hb
    · have haddr : fld (arg (loadPkt 0 env ps a).ps 0) 23 0 = addr := loadPkt_fld _ _ _ _ (by decide)
      exact runOp_refuses opDspLoad t env _ 2 s .badParam [2] h (by decide) (by decide) (by simp)
        (opDspLoad_outside (k := loadPkt 0 env ps a) (loadPkt_op _ _ _ (by decide) hps) (fixField_ne_nil hps _ _ _) (by rw [haddr, loadPkt_length]; exact hregion)) (by simp)
    · have hps : ps ≠ [] := fun hn => by rw [hn] at hlen; cases hlen
      have hc : fld (arg (loadPkt 1 env ps a).ps 0) 47 47 = c := loadPkt_fld _ _ _ _ (by decide)
      have htask : fld (arg (loadPkt 1 env ps a).ps 0) 44 39 = task := loadPkt_fld _ _ _ _ (by decide)
      have himage : (loadPkt 1 env ps a).image = { loaded := true, owner := env.partner, entry := fld (arg ps 2) 47 24, base := fld (arg ps 1) 47 24, size := fld (arg ps 1) 23 0, crc := fld (arg ps 3) 31 0, maxcyc := fld (arg ps 2) 23 0 } := by
        unfold Pkt.image
        rw [loadPkt_arg, loadPkt_arg, loadPkt_arg]; rfl
      have hv := opDspLoad_commit (k := loadPkt 1 env ps a) (s := a.bound env) (loadPkt_op _ _ _ (by decide) hps) (by rw [loadPkt_length]; exact hlen) (by rw [himage]; exact h1) (by rw [himage]; exact hmax)
        (by rw [himage]; exact hlow) (by rw [himage]; exact hhigh) (by rw [himage]; exact hcyc) (by rw [himage]; exact hregion) (by rw [hc, htask]; exact hfree) (by rw [hc, htask]; exact hbusy) (by rw [hc]; exact hok)
      refine runOp_core (op := opDspLoad) (rights := 2) c _ h (by decide) (by decide) hv rfl rfl rfl (Nat.le_refl 1)
        (fun j b q => ⟨loadImage_view (·.lseq) (fun _ _ => rfl) .., loadImage_view (·.replays) (fun _ _ => rfl) ..⟩) (fun b hb => ?_)
      show b.loadImage (loadPkt 1 env ps a) a.jrn.next = b.setCore c ((a.core c).setSlot task _)
      unfold State.loadImage State.onUC
      rw [himage, hc, htask, if_pos (by unfold State.imageCrc; rw [of_rest_mem hb]; exact hcrc), core_of_rest hb]
    · have hps : ps ≠ [] := fun hn => by rw [hn] at hlen; cases hlen
      have hc : fld (arg (loadPkt 2 env ps a).ps 0) 47 47 = c := loadPkt_fld _ _ _ _ (by decide)
      have htask : fld (arg (loadPkt 2 env ps a).ps 0) 44 39 = task := loadPkt_fld _ _ _ _ (by decide)
      have hv := opDspLoad_unload (k := loadPkt 2 env ps a) (s := a.bound env) (loadPkt_op _ _ _ (by decide) hps) (by rw [loadPkt_length]; exact hlen) (by rw [hc, htask]; exact hown)
        (by rw [hc, htask]; exact hbusy) (by rw [hc]; exact hok)
      rw [hc, htask] at hv
      refine runOp_core (op := opDspLoad) (rights := 2) c _ h (by decide) (by decide) hv rfl rfl rfl (Nat.zero_le 1)
        (fun j b q => ⟨congrArg Partner.lseq (setCore_part ..), congrArg Partner.replays (setCore_part ..)⟩) (fun b hb => ?_)
      show b.setCore c ((b.core c).setSlot task {}) = _
      rw [core_of_rest hb]
  · intro a c task
    have hc : ∀ n, fld (arg (taskPkt n env ps a).ps 0) 47 47 = c := fun n => taskPkt_fld _ _ _ _ (by decide)
    have htask : ∀ n, fld (arg (taskPkt n env ps a).ps 0) 45 40 = task := fun n => taskPkt_fld _ _ _ _ (by decide)
    have hn : ∀ n, fld (arg (taskPkt n env ps a).ps 0) 39 37 = fld (arg ps 0) 39 37 := fun n => taskPkt_fld _ _ _ _ (by decide)
    have hne : ∀ {n : Nat}, ps.length = 1 + n → ps ≠ [] := fun h hnil => by rw [hnil] at h; simp at h; omega
    refine ⟨fun h h4 hlen hok hl hown hroom => ?_, fun h h4 hlen hok hl => ?_, fun h h0 hlen hok hown hrun => ?_⟩
    · have hv := opDspTask_start (k := taskPkt 0 env ps a) (s := a.bound env) (taskPkt_op _ _ _ (by decide) (hne hlen)) (by rw [hn, taskPkt_length]; exact hlen) (by rw [hn]; exact h4)
        (by rw [hc, htask]; exact hl) (by rw [hc, htask]; exact hown) (by rw [hc]; exact hok)
      rw [hc, htask, show (taskPkt 0 env ps a).ps.drop 1 = ps.drop 1 from fixField_drop ..] at hv
      obtain ⟨u, hu, hshow, hcore, hrest⟩ := runOp_core (op := opDspTask) (rights := 2) c { a.core c with ring := (a.core c).ring ++ [⟨task, a.jrn.next, 0, a.tb.q0, ps.drop 1, false, a.clk.direct⟩] }
        h (by decide) (by decide) hv rfl rfl rfl (Nat.zero_le 1) (fun j b q => ⟨pushStart_view (·.lseq) (fun _ _ => rfl) .., pushStart_view (·.replays) (fun _ _ => rfl) ..⟩) (fun b hb => by
          have hcb := core_of_rest hb c
          refine (pushStart_queued (by rw [hcb]; exact hok) (by rw [hcb]; exact hroom)).trans ?_
          rw [hcb, of_rest_tb hb, of_rest_clk hb])
      exact ⟨u, hu, hshow, by rw [hcore], by rw [hcore], hrest⟩
    · have hv := opDspTask_empty (k := taskPkt 0 env ps a) (s := a.bound env) (taskPkt_op _ _ _ (by decide) (hne hlen)) (by rw [hn, taskPkt_length]; exact hlen) (by rw [hn]; exact h4)
        (by rw [hc, htask]; exact hl)
      exact runOp_refuses opDspTask t env _ 2 s .notPermitted [5] h (by decide) (by decide) (by simp) hv (by simp)
    · have hv := opDspTask_abort (k := taskPkt 1 env ps a) (s := a.bound env) (taskPkt_op _ _ _ (by decide) (hne (n := 0) hlen)) (by rw [hn, taskPkt_length, h0]; exact hlen) (by rw [hn, h0]; decide)
        (by rw [hc, htask]; exact hown) (by rw [hc]; exact hok)
      rw [hc, htask] at hv
      refine runOp_core (op := opDspTask) (rights := 2) c _ h (by decide) (by decide) hv rfl rfl rfl (Nat.zero_le 1)
        (fun j b q => ⟨abortStarts_view (·.lseq) (fun _ _ => rfl) .., abortStarts_view (·.replays) (fun _ _ => rfl) ..⟩) (fun b hb => ?_)
      show b.abortStarts c task = b.setCore c ((a.core c).unqueued task)
      have hcb := core_of_rest hb c
      have hidle : ((b.onUC c (UCore.unqueued task)).core c).run = none := by
        unfold State.onUC
        rw [core_setCore, hcb]; exact hrun
      unfold State.abortStarts
      rw [hidle, ← hcb]; rfl
  · intro a c hk hon hgives hok htest hrun hring
    obtain ⟨hd, h4, h5, h6, h7, h8, h9⟩ := enter_dr a.tb.clk r rest c _ rfl
    have hx := execTaskStart_idle (a := a) rfl hk hon hgives hok htest hrun hring
    have hcore : ((a.setCore k (c.enter a.tb.clk r rest)).emit (.coreStart k r.task)).core k = c.enter a.tb.clk r rest := core_setCore ..
    have hemit : (a.setCore k (c.enter a.tb.clk r rest)).emit (.coreStart k r.task) = (a.setCore k (c.enter a.tb.clk r rest)).putWire [.coreStart k r.task] :=
      congrArg (State.putWire (a.setCore k (c.enter a.tb.clk r rest))) (by rw [setCore_wire, elapse_wire]; rfl)
    change exec (.taskStart t k) s = .next ((a.setCore k (c.enter a.tb.clk r rest)).emit (.coreStart k r.task)) at hx
    generalize (a.setCore k (c.enter a.tb.clk r rest)).emit (.coreStart k r.task) = u at hx hcore hemit
    refine ⟨u, hx, ?_⟩
    beta_reduce
    rw [hcore]
    exact ⟨rfl, rfl, rfl, rfl, rfl, rfl, rfl, rfl, rfl, rfl, rfl, rfl, hd, h4, h5, h6, h7, h8, h9, rfl, hemit⟩
  · intro e a c hx hrun
    have hend := execEndTask_runs (s := s) rfl hx
    obtain ⟨h1, h2, h3, h4, h5, h6⟩ := ended_stopped (c := c) hrun a.tb.clk _ rfl
    generalize c.ended a.tb.clk = x at hend h1 h2 h3 h4 h5 h6
    refine ⟨_, hend, ?_⟩
    beta_reduce
    rw [core_setCore]
    exact ⟨h1, h2, h3, h4, h5, h6, rfl⟩
  · intro a c
    refine ⟨fun hruns hrun h5 hcyc => ?_, fun hruns hrun h5 => ?_, fun hk hon hok hrun hring => ?_⟩
    · exact ⟨_, execBudget_due rfl hruns hrun hcyc, abortTask_spec hrun h5 (by decide)⟩
    · exact ⟨_, execIllegal_runs rfl hruns, abortTask_spec hrun h5 (by decide)⟩
    · have hx : exec (.userCoreFailed t k) s = .next _ := execUserCoreFailed_idle (a := a) rfl hk hon hok hring
      have hspec := failedCore_spec (a := a) hk hrun _ rfl
      generalize State.partFailed 0x012 (2 + k) ((a.putDsp (a.failedDsp k)).putFc { a.fc with core := setBit a.fc.core (2 + k) }) = u at hx hspec
      exact ⟨u, hx, hspec⟩
  · intro a hc hon hok hother
    exact ⟨_, execCoreHeartbeatLoss_due rfl hc hon hok hother, failedRole_spec a _ _ c _ rfl⟩

end Sys2Proof.Machine
end

section
/-! Loads, stores, vectors, branches, loops, MOV and POST of the user cores (R416, R417, R419-R422, R429, R439) (O51). -/
namespace Sys2Proof.Machine
open Sys2Proof

/-! ## A user core alone at shared memory (R439, R444) -/

/-- A user core's read, or its write. -/
def coreReq (master a : Nat) (w : Option Word) : MemReq := ⟨master, a, w, false, 0⟩
/-- The memory after the cycle that has served a lone request. -/
def State.cycled (mc : Nat) (v : State) : State := v.setMem { v.mem with queue := [], cycle := mc + 1, lastClk := v.tb.clk }
theorem coreReq_uncapped {master : Nat} (h : 8 ≤ master) (a : Nat) (w : Option Word) (m : Memory) (mc : Nat) : m.capped (coreReq master a w) mc = false := by
  unfold Memory.capped coreReq
  rw [decide_eq_false (by dsimp only; omega)]; rfl
/-- A read that is granted in the cycle in which it stands at its bank. -/
theorem awaitRead_first {x : BankReq} {s : State} {n mc : Nat} (hn : 0 < n) (hc : s.mem.cycle = mc) (hg : s.mem.grantsAt (bankOf x.req.addr) mc = [x]) :
    State.awaitRead x n s = (s.bankCycle mc, s.readBack [x] x.req) := by
  obtain ⟨n, rfl⟩ := Nat.exists_eq_succ_of_ne_zero hn.ne'
  unfold State.awaitRead
  dsimp only
  rw [hc, hg, if_pos (by simp)]
theorem readBack_coreReq (s : State) (mc master w : Nat) :
    s.readBack [⟨coreReq master w none, mc, false⟩] (coreReq master w none) = if s.mem.bad.contains w then none else some (s.mem.read w) := by
  have hfwd : s.forwarded [⟨coreReq master w none, mc, false⟩] (coreReq master w none) = none := by
    unfold State.forwarded coreReq
    simp
  unfold State.readBack
  rw [hfwd]
  simp [coreReq]
/-- The state in which a core's read stands at its bank. -/
def State.asking (mc master w : Nat) (s : State) : State := (s.setMem { s.mem with cycle := mc }).issue mc [coreReq master w none]
theorem asking_granted (mc master w : Nat) (s : State) : ∃ g, (s.asking mc master w).granted mc (coreReq master w none) = s.putMem g ∧
    g.cells = s.mem.cells ∧ g.bad = s.mem.bad ∧ g.ue = s.mem.ue := by
  obtain ⟨g, hg, hcells, hbad, -, hue, -⟩ := issue_granted (s.setMem { s.mem with cycle := mc }) mc (coreReq master w none)
  exact ⟨g, hg, hcells, hbad, hue⟩
/-- A read with nothing waiting and no lease on its word is granted in the first cycle. -/
theorem awaitRead_lone {s v : State} {mc n master w : Nat} (hm : 8 ≤ master ∧ master < 16) (hq : s.mem.queue = []) (hl : s.mem.leaseOn w mc = none) (hn : 0 < n)
    (hv : (s.asking mc master w).serveLone mc (coreReq master w none) = v) :
    State.awaitRead ⟨coreReq master w none, mc, false⟩ n (s.asking mc master w) = (v.cycled mc, if s.mem.bad.contains w then none else some (s.mem.read w)) := by
  have hmem : (s.asking mc master w).mem.queue = s.mem.queue ++ [⟨coreReq master w none, mc, false⟩] ∧ (s.asking mc master w).mem.cycle = mc ∧
      (s.asking mc master w).mem.bad = s.mem.bad ∧ (s.asking mc master w).mem.read w = s.mem.read w ∧ (s.asking mc master w).mem.leaseOn w mc = none :=
    ⟨rfl, rfl, rfl, rfl, hl⟩
  generalize s.asking mc master w = b at hv hmem
  obtain ⟨hqueue, hcycle, hbad, hread, hlease⟩ := hmem
  rw [hq, List.nil_append] at hqueue
  have hcap := coreReq_uncapped hm.1 w none b.mem mc
  have hg : b.mem.grantsAt (bankOf w) mc = [⟨coreReq master w none, mc, false⟩] :=
    (grantsAt_lone hqueue hm.2 hcap (.inr hlease) (bankOf w)).trans (if_pos rfl)
  rw [awaitRead_first hn hcycle hg, bankCycle_lone hqueue hm.2 hcap (.inr hlease), readBack_coreReq b mc master w, hbad, hread, ← hv]
  rfl
theorem asking_good {s : State} {w : Nat} (mc master : Nat) (hgood : s.mem.bad.contains w = false) :
    ∃ g l, ((s.asking mc master w).serveLone mc (coreReq master w none)).cycled mc = (s.putMem g).putWire l ∧ g.cells = s.mem.cells ∧ g.bad = s.mem.bad := by
  obtain ⟨g, hg, hcells, hbad, -⟩ := asking_granted mc master w s
  have hserve : (s.asking mc master w).serveLone mc (coreReq master w none) = (s.putMem g).emit (.mem master w 0 (g.read w)) := by
    unfold State.serveLone
    rw [hg]
    unfold coreReq
    dsimp only
    unfold State.memRead
    simp only [putMem_mem, hbad, hgood]
    simp
  exact ⟨{ g with queue := [], cycle := mc + 1, lastClk := s.tb.clk }, s.wire ++ [.mem master w 0 (g.read w)], by rw [hserve]; rfl, hcells, hbad⟩
/-- An uncorrectable word changes memory's registers, not its words. -/
theorem uncorrected_mem (a b master : Nat) (s : State) : ∃ m : Memory, (s.uncorrected a b master).rest = (s.putMem m).rest ∧
    m.ue = satN 24 (s.mem.ue + 1) ∧ m.ueAddr = pack [put 47 24 a, put 23 20 master] ∧ m.cells = s.mem.cells :=
  ⟨_, raiseLimited_rest .., rfl, rfl, rfl⟩
theorem asking_bad {s : State} {w master k : Nat} (mc : Nat) (hk : coreOf master = some k) (hbad : s.mem.bad.contains w = true) :
    ∃ (v : State) (m : Memory), (s.asking mc master w).serveLone mc (coreReq master w none) = v.abortTask k 7 ∧ v.rest = (s.putMem m).rest ∧
      m.ue = satN 24 (s.mem.ue + 1) ∧ m.ueAddr = pack [put 47 24 w, put 23 20 master] ∧ m.cells = s.mem.cells := by
  obtain ⟨g, hg, hcells, hgbad, hue⟩ := asking_granted mc master w s
  have hserve : (s.asking mc master w).serveLone mc (coreReq master w none) =
      (((s.putMem g).uncorrected w (bankOf w) master).emit (.mem master w 1 0)).abortTask k 7 := by
    unfold State.serveLone
    rw [hg]
    unfold coreReq
    dsimp only
    unfold State.memRead
    simp only [putMem_mem, hgbad, hbad, hk]
    simp
  obtain ⟨m, hm, hmue, hmaddr, hmcells⟩ := uncorrected_mem w (bankOf w) master (s.putMem g)
  exact ⟨_, m, hserve, (emit_rest ..).trans hm, hmue.trans (congrArg (fun n => satN 24 (n + 1)) hue), hmaddr, hmcells.trans hcells⟩
theorem busRead_idle {s : State} (hq : s.mem.queue = []) {mc : Nat} (hmc : s.cycleNow = mc) (master w : Nat) :
    s.busRead master w = State.awaitRead ⟨coreReq master w none, mc, false⟩ (1024 * (s.mem.queue.length + 1)) (s.asking mc master w) := by
  have h := toNow_idle hq
  unfold State.busRead
  rw [h]
  dsimp only
  rw [hmc]; rfl
section
variable {s : State} {master w : Nat} (hm : 8 ≤ master ∧ master < 16) (hq : s.mem.queue = []) (hl : s.mem.leaseOn w s.cycleNow = none)
include hm hq hl

theorem busRead_lone {v : State} (hv : (s.asking s.cycleNow master w).serveLone s.cycleNow (coreReq master w none) = v) :
    s.busRead master w = (v.cycled s.cycleNow, if s.mem.bad.contains w then none else some (s.mem.read w)) := by
  rw [busRead_idle hq rfl]
  exact awaitRead_lone hm hq hl (by omega) hv
/-- A good word is read, and nothing else than the memory's own fields and the wire changes. -/
theorem busRead_good (hgood : s.mem.bad.contains w = false) :
    ∃ g l, s.busRead master w = ((s.putMem g).putWire l, some (s.mem.read w)) ∧ g.cells = s.mem.cells ∧ g.bad = s.mem.bad := by
  obtain ⟨g, l, hg, hcells, hbad⟩ := asking_good s.cycleNow master hgood
  refine ⟨g, l, ?_, hcells, hbad⟩
  rw [busRead_lone hm hq hl rfl, hg, hgood]; rfl
/-- A word with bad check bits is counted and noted, and the core's task is aborted. -/
theorem busRead_bad {k : Nat} {r : Start} (hk : coreOf master = some k) (hrun : (s.core k).run = some r) (hbad : s.mem.bad.contains w = true) :
    ∃ u, s.busRead master w = (u, none) ∧ u.core k = (s.core k).aborted 7 s.tb.clk r ∧ u.mem.ue = satN 24 (s.mem.ue + 1) ∧
      u.mem.ueAddr = pack [put 47 24 w, put 23 20 master] ∧ u.mem.cells = s.mem.cells := by
  obtain ⟨v, m, hv, hrest, hue, haddr, hcells⟩ := asking_bad s.cycleNow hk hbad
  have hcore : v.core k = s.core k := core_of_rest hrest k
  have hvrun : (v.core k).run = some r := by rw [hcore]; exact hrun
  have hmem : (v.abortTask k 7).mem = m := (of_rest_mem (abortTask_rest hvrun)).trans ((setCore_mem ..).trans (of_rest_mem hrest))
  have hread := busRead_lone hm hq hl hv
  rw [hbad] at hread
  generalize s.cycleNow = mc at hread
  refine ⟨(v.abortTask k 7).cycled mc, hread, ?_, (congrArg Memory.ue hmem).trans hue, (congrArg Memory.ueAddr hmem).trans haddr, (congrArg Memory.cells hmem).trans hcells⟩
  refine (abortTask_core (code := 7) hvrun).trans ?_
  rw [hcore, of_rest_tb hrest]; rfl
/-- A permitted write stores its word, and nothing else than memory changes. -/
theorem busWrite_lone (x : Word) (hok : s.memAllowed (coreReq master w (some x)) = true) (hw : w < 2 ^ 24) :
    ∃ g, s.busWrite master w x = s.putMem g ∧ g.cells = (s.mem.write w x).cells ∧ g.read w = x ∧ g.fault = s.mem.fault := by
  have hbus : s.busWrite master w x = (s.issue s.cycleNow [coreReq master w (some x)]).bankCycle s.cycleNow := by
    have h := toNow_idle hq
    unfold State.busWrite
    rw [h]; rfl
  rw [hbus]
  generalize s.cycleNow = mc at hl
  obtain ⟨g, hg, hcells, -, -, -, hfault⟩ := issue_granted s mc (coreReq master w (some x))
  have hserve : (s.issue mc [coreReq master w (some x)]).serveLone mc (coreReq master w (some x)) = s.putMem (g.write w x) := by
    have hok' : (s.putMem g).memAllowed (coreReq master w (some x)) = true := hok
    unfold State.serveLone
    rw [hg]
    show (s.putMem g).memWrite _ x = _
    unfold State.memWrite
    rw [if_pos hok']
    show s.putMem (g.write (w % 2 ^ 24) x) = _
    rw [Nat.mod_eq_of_lt hw]
  have hqueue : (s.issue mc [coreReq master w (some x)]).mem.queue = [⟨coreReq master w (some x), mc, false⟩] := by
    show s.mem.queue ++ _ = _
    rw [hq]; rfl
  refine ⟨{ g.write w x with queue := [], cycle := mc + 1, lastClk := s.tb.clk }, ?_, write_cells_congr hcells w x, Memory.read_write g w x, hfault⟩
  rw [bankCycle_lone hqueue hm.2 (coreReq_uncapped hm.1 ..) (.inr hl)]
  dsimp only
  rw [hserve]; rfl
end

/-! ## The instructions -/

theorem lt_pow_of_address (c : UCore) (n : Nat) : c.address n < 2 ^ 24 := Nat.mod_lt _ (by decide)
/-- The port through which a core's instructions reach memory (R410). -/
theorem dataPort {k : Nat} (hk : k < 2) : (8 ≤ 12 + 2 * k ∧ 12 + 2 * k < 16) ∧ coreOf (12 + 2 * k) = some k ∧ mayWrite (12 + 2 * k) 3 = true := by
  interval_cases k <;> decide
theorem signBits_le (x : Nat) : signBits 48 x ≤ 47 := by
  unfold signBits
  exact (List.takeWhile_prefix _).length_le.trans (by rw [List.length_range])
theorem fetchWord_shared {s : State} {c : UCore} {k ap w : Nat} (hw : c.address ap = w) {x : State × Option Word} (h : s.busRead (12 + 2 * k) w = x) :
    s.fetchWord k false ap c = x := by
  unfold State.fetchWord
  rw [if_neg Bool.false_ne_true, hw, h]
theorem retire_cycnt (m n : Nat) (c : UCore) : c.retire n = { c.retire m with cycnt := (c.retire n).cycnt } := rfl
theorem used_setCore (a : State) (g : Memory) (l : List Emit) (k : Nat) (x : UCore) : ∀ u, State.used 1 (((a.putMem g).putWire l).setCore k x) = u →
    u.mem = g ∧ u = (((a.setCore k x).putMem g).putWire u.wire).putFresh (a.fresh + 1) := by
  rintro u rfl
  unfold State.used State.setCore
  split <;> exact ⟨rfl, rfl⟩
theorem stall_local (s : State) : s.stall true = 0 := rfl
section
variable {t : Lapse} {k : Nat} {s a : State} (h : (s.elapse t).executes k = true) (ha : (s.elapse t).fetched k = a)
include h ha

theorem onCore_at (f : UCore → State → State) : onCore t k f s = .next (f (a.core k) a) := ha ▸ onCore_executes h
theorem run_at : ∃ r, (a.core k).run = some r := ha ▸ run_of_executes h
/-- An abort of the instruction's task, with any code. -/
theorem abort_at {code : Nat} (hcode : code < 16) :
    ((a.abortTask k code).core k).run = none ∧ fld ((a.abortTask k code).core k).last 47 44 = code ∧ ((a.abortTask k code).core k).d = (a.core k).d := by
  obtain ⟨r, hr⟩ := run_at h ha
  obtain ⟨hrun, -, -, hd, -⟩ := aborted_stopped hr code a.tb.clk
  rw [abortTask_core hr]
  exact ⟨hrun, aborted_code hcode .., hd⟩

/-! ### LOAD and STORE -/

theorem execLoad_fetched {c : UCore} (hc : a.core k = c) {isLocal : Bool} {ap : Nat} {b : State} {w : Word} (hf : a.fetchWord k isLocal ap c = (b, some w)) (dd : Nat) (modf : Bool) :
    execLoad t k isLocal ap dd modf s = .next (State.used 1 (b.setCore k (((if modf then c.bump ap else c).setD dd w).retire (1 + b.stall isLocal)))) := by
  subst hc
  unfold execLoad
  refine (onCore_at h ha _).trans ?_
  dsimp only
  rw [hf]
theorem execLoad_unfetched {c : UCore} (hc : a.core k = c) {isLocal : Bool} {ap : Nat} {b : State} (hf : a.fetchWord k isLocal ap c = (b, none)) (dd : Nat) (modf : Bool) :
    execLoad t k isLocal ap dd modf s = .next b := by
  subst hc
  unfold execLoad
  refine (onCore_at h ha _).trans ?_
  dsimp only
  rw [hf]
theorem execLoad_local {c x : UCore} (hc : a.core k = c) (ap dd : Nat) {modf : Bool} (hx : (if modf then c.bump ap else c) = x) :
    execLoad t k true ap dd modf s = .next ((a.setCore k ((x.setD dd (c.local_ (c.address ap))).retire 1)).putFresh (a.fresh + 1)) := by
  subst hx
  refine (execLoad_fetched h ha hc (isLocal := true) rfl dd modf).trans ?_
  rw [stall_local]
  exact congrArg (fun n => Host.Outcome.next (State.putFresh _ (n + 1))) (setCore_fresh ..)
theorem execLoad_shared {c : UCore} (hc : a.core k = c) (ap dd : Nat) {w : Nat} (hw : c.address ap = w) (hq : a.mem.queue = [])
    (hl : a.mem.leaseOn w a.cycleNow = none) (hgood : a.mem.bad.contains w = false) :
    Answers (execLoad t k false ap dd false s) fun u =>
      u.core k = { (c.setD dd (a.mem.read w)).retire 1 with cycnt := (u.core k).cycnt } ∧ u.mem.cells = a.mem.cells ∧ u.mem.bad = a.mem.bad ∧
      u = (((a.setCore k (u.core k)).putMem u.mem).putWire u.wire).putFresh (a.fresh + 1) := by
  subst hc
  obtain ⟨hport, -, -⟩ := dataPort (lt_two_of_executes h)
  obtain ⟨g, l, hread, hcells, hbad⟩ := busRead_good hport hq hl hgood
  have hrun := execLoad_fetched h ha rfl (isLocal := false) (fetchWord_shared hw hread) dd false
  change _ = Host.Outcome.next (State.used 1 (((a.putMem g).putWire l).setCore k (((a.core k).setD dd (a.mem.read w)).retire (1 + ((a.putMem g).putWire l).stall false)))) at hrun
  generalize ((a.putMem g).putWire l).stall false = n at hrun
  have hcore : (State.used 1 (((a.putMem g).putWire l).setCore k (((a.core k).setD dd (a.mem.read w)).retire (1 + n)))).core k =
      ((a.core k).setD dd (a.mem.read w)).retire (1 + n) := core_setCore ..
  obtain ⟨hmem, hframe⟩ := used_setCore a g l k (((a.core k).setD dd (a.mem.read w)).retire (1 + n)) _ rfl
  refine ⟨_, hrun, ?_⟩
  beta_reduce
  rw [hcore, hmem]
  exact ⟨retire_cycnt 1 .., hcells, hbad, hframe⟩
theorem execLoad_bad {c : UCore} (hc : a.core k = c) (ap dd : Nat) {w : Nat} (hw : c.address ap = w) (hq : a.mem.queue = [])
    (hl : a.mem.leaseOn w a.cycleNow = none) (hbad : a.mem.bad.contains w = true) :
    Answers (execLoad t k false ap dd false s) fun u => (u.core k).run = none ∧ fld (u.core k).last 47 44 = 7 ∧ (u.core k).d = c.d ∧
      u.mem.ue = satN 24 (a.mem.ue + 1) ∧ fld u.mem.ueAddr 47 24 = w ∧ fld u.mem.ueAddr 23 20 = 12 + 2 * k ∧ u.mem.cells = a.mem.cells := by
  subst hc
  obtain ⟨r, hr⟩ := run_at h ha
  have hk := lt_two_of_executes h
  obtain ⟨hport, hcoreOf, -⟩ := dataPort hk
  obtain ⟨u, hread, hcore, hue, haddr, hcells⟩ := busRead_bad hport hq hl hcoreOf hr hbad
  obtain ⟨hrun, -, -, hd, -⟩ := aborted_stopped hr 7 a.tb.clk
  have hlow : [put 23 20 (12 + 2 * k)].sum < 2 ^ 24 := sum_put_lt (by decide) (by decide) (by decide)
  refine ⟨u, execLoad_unfetched h ha rfl (fetchWord_shared hw hread) dd false, ?_⟩
  · beta_reduce
    rw [hcore, haddr, fld_pack_head (by decide) hlow, fld_pack_tail (by decide) (by decide), fld_pack_head (by decide) (by decide)]
    refine ⟨hrun, aborted_code (by decide) .., hd, hue, Nat.mod_eq_of_lt ?_, Nat.mod_eq_of_lt (by omega), hcells⟩
    rw [← hw]; exact lt_pow_of_address ..
theorem execStore_local {c : UCore} (hc : a.core k = c) (ap dd : Nat) :
    execStore t k true ap dd false s = .next (a.setCore k (({ c with lmem := tput 0 (c.address ap % 16384) (c.dr dd) c.lmem } : UCore).retire 1)) := by
  subst hc
  unfold execStore
  exact onCore_at h ha _
theorem execStore_user {c : UCore} (hc : a.core k = c) (ap dd : Nat) {w : Nat} (hw : c.address ap = w) (hq : a.mem.queue = [])
    (hl : a.mem.leaseOn w a.cycleNow = none) (hregion : a.userRegion w 1 = true) :
    Answers (execStore t k false ap dd false s) fun u => u.mem.cells = (a.mem.write w (c.dr dd)).cells ∧ u.mem.read w = c.dr dd ∧ u.mem.fault = a.mem.fault ∧
      u = (a.setCore k (c.retire 1)).putMem u.mem := by
  subst hc
  obtain ⟨hport, hcoreOf, hmay⟩ := dataPort (lt_two_of_executes h)
  have hge : 0xC00000 ≤ w := by
    unfold State.userRegion at hregion
    simp only [Bool.and_eq_true, decide_eq_true_eq] at hregion
    exact hregion.1.1
  have hreg3 : regionOf w = 3 := by
    unfold regionOf
    rw [if_neg (by omega), if_neg (by omega), if_neg (by omega)]
  have hkeep : ∀ (x : UCore), (a.setCore k x).userRegion w 1 = a.userRegion w 1 ∧ (a.setCore k x).mem = a.mem ∧ (a.setCore k x).cycleNow = a.cycleNow := fun x => by
    unfold State.setCore
    split <;> exact ⟨rfl, rfl, rfl⟩
  obtain ⟨hr1, hm1, hc1⟩ := hkeep ((a.core k).retire 1)
  have hok : (a.setCore k ((a.core k).retire 1)).memAllowed (coreReq (12 + 2 * k) w (some ((a.core k).dr dd))) = true := by
    unfold State.memAllowed coreReq
    simp only [hreg3, hmay, hr1, hregion]
    simp
  obtain ⟨g, hwrite, hcells, hread, hfault⟩ := busWrite_lone hport (by rw [hm1]; exact hq) (by rw [hm1, hc1]; exact hl) _ hok (hw ▸ lt_pow_of_address ..)
  rw [hm1] at hcells hfault
  refine ⟨(a.setCore k ((a.core k).retire 1)).putMem g, ?_, hcells, hread, hfault, rfl⟩
  unfold execStore
  refine (onCore_at h ha _).trans ?_
  dsimp only
  rw [if_neg (by decide), hw, if_pos hregion, ← hwrite]; rfl
theorem execStore_refused {c : UCore} (hc : a.core k = c) (ap dd : Nat) {w : Nat} (hw : c.address ap = w) (hregion : a.userRegion w 1 = false) :
    Answers (execStore t k false ap dd false s) fun u => (u.core k).run = none ∧ fld (u.core k).last 47 44 = 3 ∧ u.mem.cells = a.mem.cells ∧
      u.mem.fault = (if w < 0xC00000 then setBit a.mem.fault 3 else a.mem.fault) := by
  subst hc
  obtain ⟨r, hr⟩ := run_at h ha
  have hrun : execStore t k false ap dd false s = .next (if w < 0xC00000 then (a.guarded (12 + 2 * k) w).abortTask k 3 else a.abortTask k 3) := by
    unfold execStore
    refine (onCore_at h ha _).trans ?_
    dsimp only
    rw [if_neg (by decide), hw, if_neg (by rw [hregion]; decide)]
  have hguard : ∃ m : Memory, (a.guarded (12 + 2 * k) w).rest = (a.putMem m).rest ∧ m.cells = a.mem.cells ∧ m.fault = setBit a.mem.fault 3 :=
    ⟨_, raiseLimited_rest .., rfl, rfl⟩
  generalize a.guarded (12 + 2 * k) w = b at hrun hguard
  obtain ⟨m, hrest, hcells, hfault⟩ := hguard
  have habort : ∀ (v : State) (n : Memory), v.rest = (a.putMem n).rest → ((v.abortTask k 3).core k).run = none ∧ fld ((v.abortTask k 3).core k).last 47 44 = 3 ∧
      (v.abortTask k 3).mem = n := fun v n hv => by
    have hvr : (v.core k).run = some r := by rw [core_of_rest hv]; exact hr
    rw [abortTask_core hvr]
    exact ⟨(aborted_stopped hvr 3 _).1, aborted_code (by decide) .., (of_rest_mem (abortTask_rest hvr)).trans ((setCore_mem ..).trans (of_rest_mem hv))⟩
  refine ⟨_, hrun, ?_⟩
  by_cases hlow : w < 0xC00000
  · obtain ⟨h1, h2, h3⟩ := habort b m hrest
    rw [if_pos hlow, if_pos hlow, h3]
    exact ⟨h1, h2, hcells, hfault⟩
  · obtain ⟨h1, h2, h3⟩ := habort a a.mem rfl
    rw [if_neg hlow, if_neg hlow, h3]
    exact ⟨h1, h2, rfl, rfl⟩
end

/-! ### Vectors, branches, loops and MOV -/

theorem used_core {b : State} {k : Nat} (n : Nat) (x : UCore) : (State.used n (b.setCore k x)).core k = x := core_setCore ..
theorem used_frame (a : State) (k n : Nat) (x : UCore) : State.used n (a.setCore k x) = (a.setCore k x).putFresh (a.fresh + n) :=
  congrArg (fun m => (a.setCore k x).putFresh (m + n)) (setCore_fresh ..)
theorem recordCounted_toldOne {a u : State} (p : Nat) (vol : Bool) (ws : List Word) (hu : u.parts = (a.recordCounted p vol ws).parts) : ToldOne p a u := by
  have key : ∀ m n, u.parts = ((a.putJrn { a.jrn with msMark := m, msCount := n }).record p vol ws).parts → ToldOne p a u := fun m n hu =>
    toldOne_record (a := a.putJrn { a.jrn with msMark := m, msCount := n }) (b := a.putJrn { a.jrn with msMark := m, msCount := n }) rfl rfl p vol ws hu
  exact key _ _ hu

/-- What a vector instruction writes: the extreme value and its index, or the values for no element. -/
def vecResult (better : Word → Word → Bool) (none_ : Word) : List Word → Word × Word
  | [] => (none_, 0xFFFFFFFFFFFF#48)
  | w :: ws => let b := extreme better 1 (w, 0) ws; (b.1, word b.2)
theorem stream_none {k n : Nat} (hn : n = 0) (isLocal : Bool) (ap : Nat) (c : UCore) (a : State) : State.stream k isLocal ap n c a = (a, some ([], c)) := by
  subst hn; rfl
theorem stream_one {k n : Nat} (hn : n = 1) (ap : Nat) (c : UCore) (a : State) :
    State.stream k true ap n c a = (a, some ([c.local_ (c.address ap)], c.bump ap)) := by
  subst hn; rfl
section
variable {t : Lapse} {k : Nat} {s a : State} (h : (s.elapse t).executes k = true) (ha : (s.elapse t).fetched k = a)
include h ha

theorem vecInstr_streamed {c c' : UCore} (hc : a.core k = c) {dd dn ap : Nat} (hdd : dd ≤ 14) {isLocal : Bool} {ws : List Word}
    (hf : State.stream k isLocal ap (c.dr dn).toNat c a = (a, some (ws, c'))) (better : Word → Word → Bool) (none_ : Word) :
    Answers (vecInstr t k better none_ ap isLocal dn dd s) fun u => (u.core k).dr dd = (vecResult better none_ ws).1 ∧
      (u.core k).dr (dd + 1) = (vecResult better none_ ws).2 ∧ (u.core k).ix = c'.ix ∧ (u.core k).mode = c'.mode := by
  subst hc
  have hrun : vecInstr t k better none_ ap isLocal dn dd s = .next (State.used 1 (a.setCore k
      (((c'.setD dd (vecResult better none_ ws).1).setD (dd + 1) (vecResult better none_ ws).2).retire (((a.core k).dr dn).toNat + 4 + a.stall isLocal)))) := by
    unfold vecInstr
    refine (onCore_at h ha _).trans ?_
    dsimp only
    rw [if_neg (by omega), hf]
    cases ws <;> rfl
  refine ⟨_, hrun, ?_⟩
  beta_reduce
  rw [used_core]
  exact ⟨(retire_dr ..).trans ((dr_setD_ne _ (by omega) _).trans (dr_setD ..)), (retire_dr ..).trans (dr_setD ..), rfl, rfl⟩
theorem execVbexp_streamed {c c' : UCore} (hc : a.core k = c) {dn ap : Nat} {isLocal : Bool} {ws : List Word}
    (hf : State.stream k isLocal ap (c.dr dn).toNat c a = (a, some (ws, c'))) (dd : Nat) :
    Answers (execVbexp t k ap isLocal dn dd s) fun u => (u.core k).dr dd = word (ws.foldl (fun m w => min m (signBits 48 w.toNat)) 47) := by
  subst hc
  have hrun : execVbexp t k ap isLocal dn dd s = .next (State.used 1 (a.setCore k
      ((c'.setD dd (word (ws.foldl (fun m w => min m (signBits 48 w.toNat)) 47))).retire (((a.core k).dr dn).toNat + 4 + a.stall isLocal)))) := by
    unfold execVbexp
    refine (onCore_at h ha _).trans ?_
    dsimp only
    rw [hf]
  refine ⟨_, hrun, ?_⟩
  beta_reduce
  rw [used_core]
  exact (retire_dr ..).trans (dr_setD ..)
theorem execMov_executes {c : UCore} (hc : a.core k = c) (dst : MovDst) (src : MovSrc) {n : Nat} (hn : (if slowSrc src then Config.freeNat a.fresh else 0) = n) :
    execMov t k dst src s = .next ((a.setCore k ((c.movDst (a.movSrc c src) dst).retire (1 + n))).putFresh (a.fresh + 1)) := by
  subst hc hn
  unfold execMov
  refine (onCore_at h ha _).trans ?_
  rw [used_frame]
theorem execMov_any {c : UCore} (hc : a.core k = c) (dst : MovDst) (src : MovSrc) :
    Answers (execMov t k dst src s) fun u => u.core k = { (c.movDst (a.movSrc c src) dst).retire 1 with cycnt := (u.core k).cycnt } ∧
      u = (a.setCore k (u.core k)).putFresh (a.fresh + 1) := by
  refine ⟨_, execMov_executes h ha hc dst src rfl, ?_⟩
  beta_reduce
  rw [core_putFresh, core_setCore]
  exact ⟨retire_cycnt 1 .., rfl⟩
theorem execMov_reg {c : UCore} (hc : a.core k = c) (dd : Nat) (src : MovSrc) :
    Answers (execMov t k (.d dd) src s) fun u => (u.core k).dr dd = a.movSrc c src ∧ u = (a.setCore k (u.core k)).putFresh (a.fresh + 1) := by
  obtain ⟨u, hu, hcore, hframe⟩ := execMov_any h ha hc (.d dd) src
  exact ⟨u, hu, (congrArg (fun x : UCore => x.dr dd) hcore).trans (dr_setD ..), hframe⟩
theorem execBr_legal {c : UCore} (hc : a.core k = c) {i : Nat} (hi : i ≠ 14) (target : Addr) :
    execBr t k i target s = .next (a.setCore k { c with cycnt := (c.cycnt + 1) % 2 ^ 48, pc := target.toNat }) ∨
      execBr t k i target s = .next (a.setCore k (c.retire 1)) := by
  subst hc
  unfold execBr
  rw [onCore_at h ha _, if_neg hi]
  split
  · exact .inl rfl
  · exact .inr rfl
theorem execBr_illegal (target : Addr) : Answers (execBr t k 14 target s) fun u => (u.core k).run = none ∧ fld (u.core k).last 47 44 = 1 := by
  obtain ⟨hrun, hlast, -⟩ := abort_at h ha (code := 1) (by decide)
  exact ⟨_, onCore_at h ha _, hrun, hlast⟩
theorem execLoop_deep (hdeep : 4 ≤ (a.core k).loops.length) (target : Addr) (i : Nat) :
    Answers (execLoop t k target i s) fun u => (u.core k).run = none ∧ fld (u.core k).last 47 44 = 1 := by
  obtain ⟨hrun, hlast, -⟩ := abort_at h ha (code := 1) (by decide)
  refine ⟨a.abortTask k 1, ?_, hrun, hlast⟩
  unfold execLoop
  rw [onCore_at h ha _, if_pos hdeep]
theorem execLoop_enters {c : UCore} (hc : a.core k = c) (hroom : c.loops.length < 4) {i : Nat} (hi : (c.dr i).toNat ≠ 0) (target : Addr) :
    Answers (execLoop t k target i s) fun u => (u.core k).loops.length = c.loops.length + 1 ∧
      (u.core k).loops.map (fun l => (l.first, l.left)) = (c.pc + 1, (c.dr i).toNat - 1) :: c.loops.map (fun l => (l.first, l.left)) ∧
      (u.core k).pc = (c.pc + 1) % 2 ^ 24 ∧ (u.core k).d = c.d ∧ u = (a.setCore k (u.core k)).putFresh (a.fresh + 1) := by
  subst hc
  have hrun : ∃ last, execLoop t k target i s =
      .next ((a.setCore k { a.core k with pc := ((a.core k).pc + 1) % 2 ^ 24, loops := ⟨(a.core k).pc + 1, last, ((a.core k).dr i).toNat - 1⟩ :: (a.core k).loops }).putFresh (a.fresh + 1)) := by
    unfold execLoop
    rw [onCore_at h ha _, if_neg (by omega)]
    dsimp only
    rw [if_neg hi, used_frame]
    exact ⟨_, rfl⟩
  obtain ⟨last, hrun⟩ := hrun
  refine ⟨_, hrun, ?_⟩
  beta_reduce
  rw [core_putFresh, core_setCore]
  exact ⟨rfl, rfl, rfl, rfl, rfl⟩

/-! ### POST -/

theorem execPost_ignored {c : UCore} (hc : a.core k = c) {r : Start} (hr : c.run = some r) (hfull : 16 ≤ c.npost) (ap dn : Nat) (isShared : Bool) :
    execPost t k ap isShared dn s = .next (a.setCore k (({ c with postsIgn := satN 16 (c.postsIgn + 1) } : UCore).retire 1)) := by
  subst hc
  unfold execPost
  rw [onCore_at h ha _]
  dsimp only
  rw [hr]
  dsimp only
  rw [if_pos hfull]
theorem execPost_one {c : UCore} (hc : a.core k = c) {r : Start} (hr : c.run = some r) {dn : Nat} (hn : (c.dr dn).toNat = 1) (hroom : c.npost < 16)
    (hmay : a.mayForm (c.slot r.task).owner true 8 = true) (ap : Nat) :
    Answers (execPost t k ap false dn s) fun u => ToldOne (c.slot r.task).owner a u ∧ (u.core k).npost = c.npost + 1 ∧ (u.core k).run = some r ∧ (u.core k).d = c.d ∧
      u.qs = a.qs ∧ u.mem = a.mem := by
  subst hc
  have hrun : ∃ ws x, execPost t k ap false dn s = .next (State.used 1 ((a.recordCounted ((a.core k).slot r.task).owner true ws).setCore k x)) ∧
      x.npost = (a.core k).npost + 1 ∧ x.run = (a.core k).run ∧ x.d = (a.core k).d := by
    unfold execPost
    rw [onCore_at h ha _]
    dsimp only
    rw [hr]
    dsimp only
    rw [hn, if_pos (c := 1 ≤ 1 ∧ 1 ≤ 256) (by decide), if_neg (by omega), show (!false) = true from rfl, stream_one rfl]
    dsimp only
    rw [hmay, if_pos rfl]
    exact ⟨_, _, rfl, rfl, hr, rfl⟩
  obtain ⟨ws, x, hrun, hpost, hxrun, hd⟩ := hrun
  refine ⟨_, hrun, ?_⟩
  beta_reduce
  rw [used_core, hpost, hxrun, hd]
  exact ⟨recordCounted_toldOne _ true ws (setCore_parts ..), rfl, hr, rfl, (setCore_qs ..).trans (recordCounted_qs ..), (setCore_mem ..).trans (recordCounted_mem ..)⟩
end

/-- Settles O51: each instruction's equation on the state that the fetch has left, with shared memory's part through the lone request. -/
theorem coreMemoryAndFlow : Obligations.CoreMemoryAndFlow := by
  refine ⟨fun t k ap dd dn s => ?_, fun t k i j target s => ?_, fun t k ap dn s r => ?_⟩
  · intro e a c w
    refine ⟨fun h => ⟨?_, ?_, ?_⟩, fun h hq hl hgood => ?_, fun h hq hl hbad => ?_, fun h hq hl hregion => ?_, fun h hregion => ?_,
      fun h hdd hn => ⟨?_, ?_, ?_⟩, fun h hdd hn => ⟨?_, ?_, ?_⟩, fun h => ?_, fun dst src h => ?_⟩
    · exact execLoad_local h (a := a) rfl rfl ap dd (if_neg Bool.false_ne_true)
    · exact execLoad_local h (a := a) rfl rfl ap dd (if_pos rfl)
    · exact execStore_local h (a := a) rfl rfl ap dd
    · exact execLoad_shared h (a := a) rfl rfl ap dd rfl hq hl hgood
    · exact execLoad_bad h (a := a) rfl rfl ap dd rfl hq hl hbad
    · exact execStore_user h (a := a) rfl rfl ap dd rfl hq hl hregion
    · exact execStore_refused h (a := a) rfl rfl ap dd rfl hregion
    · exact vecInstr_streamed h (a := a) rfl rfl hdd (stream_none hn ..) _ _
    · obtain ⟨u, hu, hdr, hidx, -⟩ := vecInstr_streamed h (a := a) rfl rfl hdd (stream_none hn true ap c a) (lessW false) (highest false)
      exact ⟨u, hu, hdr, hidx⟩
    · exact execVbexp_streamed h (a := a) rfl rfl (stream_none hn true ap c a) dd
    · obtain ⟨u, hu, hdr, hidx, hix, -⟩ := vecInstr_streamed h (a := a) rfl rfl hdd (stream_one hn ap c a) (fun a b => lessW true b a) (lowest true)
      exact ⟨u, hu, hdr, hidx, hix⟩
    · obtain ⟨u, hu, hdr, hidx, -⟩ := vecInstr_streamed h (a := a) rfl rfl hdd (stream_one hn ap c a) (lessW true) (highest true)
      exact ⟨u, hu, hdr, hidx⟩
    · obtain ⟨u, hu, hdr⟩ := execVbexp_streamed h (a := a) rfl rfl (stream_one hn ap c a) dd
      exact ⟨u, hu, hdr.trans (congrArg word (Nat.min_eq_right (signBits_le _)))⟩
    · exact execMov_reg h (a := a) rfl rfl dd (.qcyc 3)
    · exact execMov_any h (a := a) rfl rfl dst src
  · intro e a c
    refine ⟨fun h => ⟨?_, ?_, ?_⟩, fun h hi => ?_, fun h => ?_, fun h hroom hi => ?_, fun h hdeep => ?_⟩
    · exact execMov_executes h (a := a) rfl rfl (.d i) (.d j) (n := 0) rfl
    · exact execMov_executes h (a := a) rfl rfl .mode (.d j) (n := 0) rfl
    · exact execMov_executes h (a := a) rfl rfl (.ln i) (.d j) (n := 0) rfl
    · exact execBr_legal h (a := a) rfl rfl hi target
    · exact execBr_illegal h (a := a) rfl target
    · exact execLoop_enters h (a := a) rfl rfl hroom hi target
    · exact execLoop_deep h (a := a) rfl hdeep target i
  · intro e a c o
    refine ⟨fun h hr _ _ hn hroom hmay => ?_, fun h hr hfull => ?_⟩
    · exact execPost_one h (a := a) rfl rfl hr hn hroom hmay ap
    · exact execPost_ignored h (a := a) rfl rfl hr hfull ap dn false

end Sys2Proof.Machine
end

section
/-! Ethernet frames, and the failure and return of host ports (R337, R345, R347, R348, R362) (O52). -/
namespace Sys2Proof.Machine
open Sys2Proof

/-! ## What records leave of a port -/

/-- A view of the state that packets, partners and the journal do not touch. -/
structure Unsent {γ : Type} (v : State → γ) : Prop where
  packet : ∀ (port : Nat) (ep : Endpoint) (mac : Word) (p : Nat) (r : Bool) (held : Option (Bool × Nat)) (ws : List Word) (s : State), v (s.sendPacket port ep mac p r held ws) = v s
  part : ∀ (s : State) (n : Nat) (x : Partner), v (s.setPart n x) = v s
  jrn : ∀ (s : State) (j : Journal), v (s.putJrn j) = v s
section
variable {γ : Type} {v : State → γ} (hv : Unsent v)
include hv

theorem Unsent.seal (g : Group) (s : State) : v (s.seal g) = v s := by
  unfold State.seal
  split
  · rfl
  · exact hv.jrn ..
theorem Unsent.sendRecs (p : Nat) (s : State) : v (s.sendRecs p) = v s := by
  unfold State.sendRecs
  split
  · rfl
  · split
    · exact (foldl_keeps v _ (fun _ _ => hv.packet ..) _ _).trans (hv.part ..)
    · rfl
theorem Unsent.form (p : Nat) (vol : Bool) (ws : List Word) (s : State) : v (s.form p vol ws) = v s := by
  unfold State.form
  dsimp only
  split
  · rfl
  · rw [hv.sendRecs, hv.part, hv.jrn, hv.seal]
theorem Unsent.jsnCheck (s : State) : v s.jsnCheck = v s := by
  unfold State.jsnCheck
  split
  · exact (foldl_keeps v _ (fun _ _ => hv.form ..) _ _).trans (hv.jrn ..)
  · rfl
theorem Unsent.raiseAll (fault : Bool) (cause : Nat) (args : List Word) (s : State) : v (s.raiseAll fault cause args) = v s := by
  unfold State.raiseAll State.raise State.record
  exact foldl_keeps v _ (fun _ _ => (hv.jsnCheck _).trans (hv.form ..)) _ _
theorem Unsent.partFailed (cls i : Nat) (s : State) : v (s.partFailed cls i) = v s := by
  unfold State.partFailed State.sealSystem
  rw [hv.jsnCheck, hv.seal, hv.raiseAll]
theorem Unsent.partRestored (cls i : Nat) (s : State) : v (s.partRestored cls i) = v s := by
  unfold State.partRestored State.sealSystem
  rw [hv.jsnCheck, hv.seal, hv.raiseAll]
end
/-- A packet moves an Ethernet port's XID and no other field of it. -/
theorem unsent_eth {γ : Type} (f : EthPort → γ) (hf : ∀ (e : EthPort) (n : Nat), f { e with xid := n } = f e) (q : Nat) : Unsent fun s => f (s.eth q) where
  packet port ep mac p r held ws s := by
    by_cases hup : s.portUp port = true
    · by_cases h2 : port < 2
      · rw [sendPacket_eth ep mac p r held ws hup h2]
        exact eth_setEth_view f s port _ (hf ..) q
      · rw [sendPacket_spi ep mac p r held ws hup (by omega), eth_setSpi]
    · unfold State.sendPacket
      rw [if_neg hup]
  part _ _ _ := rfl
  jrn _ _ := rfl
/-- A packet is queued on an SPI port, and no other field of it moves. -/
theorem unsent_spi {γ : Type} (f : SpiPort → γ) (hf : ∀ (p : SpiPort) (l : List OutPkt), f { p with tx := l } = f p) (q : Nat) : Unsent fun s => f (s.spi q) where
  packet port ep mac p r held ws s := by
    by_cases hup : s.portUp port = true
    · by_cases h2 : port < 2
      · rw [sendPacket_eth ep mac p r held ws hup h2]
        exact congrArg f (spi_setEth ..)
      · rw [sendPacket_spi ep mac p r held ws hup (by omega)]
        exact spi_setSpi_view f s port _ (hf ..) q
    · unfold State.sendPacket
      rw [if_neg hup]
  part _ _ _ := rfl
  jrn _ _ := rfl

/-! ## Segments (R347, R348) -/

theorem setEth_setEth (s : State) (p : Nat) (v w : EthPort) : (s.setEth p v).setEth p w = s.setEth p w := by
  unfold State.setEth; split <;> rfl
theorem setEth_reasm (s : State) (p : Nat) (v : EthPort) : (s.setEth p v).host.reasm = s.host.reasm := by
  unfold State.setEth; split <;> rfl
section
variable {b : State} {f : Frame} {port : Nat} {ep : Endpoint} {n : Nat}

theorem reasmOf_none (h : b.host.reasm = []) : b.reasmOf port ep = none := by
  unfold State.reasmOf; rw [h]; rfl
theorem dropReasm_none (h : b.host.reasm = []) : b.dropReasm port ep = b := by
  unfold State.dropReasm
  rw [h, List.filter_nil, ← h]; rfl
theorem reasmOf_one {r : Reasm} (h : b.host.reasm = [r]) (hp : r.port = port) (he : r.ep = ep) : b.reasmOf port ep = some r := by
  unfold State.reasmOf
  rw [h, List.find?_cons]
  simp [hp, he]
theorem dropReasm_one {r : Reasm} (h : b.host.reasm = [r]) (hp : r.port = port) (he : r.ep = ep) : b.dropReasm port ep = b.putHost { b.host with reasm := [] } := by
  unfold State.dropReasm
  rw [h, List.filter_cons]
  simp [hp, he]
theorem expireReasm_none (h : b.host.reasm = []) : b.expireReasm port ep = b := by
  unfold State.expireReasm
  rw [reasmOf_none h]
theorem expireReasm_early {r : Reasm} (h : b.host.reasm = [r]) (hp : r.port = port) (he : r.ep = ep) (hclk : b.tb.clk < r.first + 6547200) : b.expireReasm port ep = b := by
  unfold State.expireReasm
  rw [reasmOf_one h hp he]
  exact if_neg (by omega)
theorem expireReasm_late {r : Reasm} (h : b.host.reasm = [r]) (hclk : r.first + 6547200 ≤ b.tb.clk) :
    b.expireReasm r.port r.ep = (b.putHost { b.host with reasm := [] }).countSeg r.port := by
  unfold State.expireReasm
  rw [reasmOf_one h rfl rfl, dropReasm_one h rfl rfl]
  exact if_pos hclk
/-- A segment neither too long nor past the packet's end. -/
theorem segment_fits {nseg seg : Nat} (hseg : seg < nseg) (hw : n ≤ segWords (bit (b.eth f.port).page.cfg 46) f.ep) (hb : n ≤ f.bytes / 6) (hl : n ≤ f.words.length) :
    (decide (nseg ≤ seg) || decide (segWords (bit (b.eth f.port).page.cfg 46) f.ep < n ∨ min (f.bytes / 6) f.words.length < n)) = false := by
  rw [Bool.or_eq_false_iff, decide_eq_false_iff_not, decide_eq_false_iff_not]
  omega
section
variable (hn : fld f.xport 15 4 = n) (hw : n ≤ segWords (bit (b.eth f.port).page.cfg 46) f.ep) (hb : n ≤ f.bytes / 6) (hl : n ≤ f.words.length)
include hn hw hb hl

theorem segment_single (h : b.host.reasm = []) (h0 : fld f.xport 47 40 = 0) (h1 : fld f.xport 39 32 = 1) :
    b.segment f = State.receive f.port f.ep f.mac (f.words.take n) b := by
  unfold State.segment
  dsimp only
  rw [hn, h0, h1, segment_fits (by decide) hw hb hl, dropReasm_none h]
  rfl
theorem segment_first (h : b.host.reasm = []) (h0 : fld f.xport 47 40 = 0) (h2 : 2 ≤ fld f.xport 39 32) :
    b.segment f = b.putHost { b.host with reasm := [{ port := f.port, ep := f.ep, xid := fld f.xport 31 16, nseg := fld f.xport 39 32, got := 1, first := b.tb.clk, words := f.words.take n }] } := by
  unfold State.segment
  dsimp only
  rw [hn, h0, segment_fits (by omega) hw hb hl, dropReasm_none h, if_neg Bool.false_ne_true, if_pos rfl, if_neg (by omega), h]
  rfl
theorem segment_last {r : Reasm} (h : b.host.reasm = [r]) (hp : r.port = f.port) (he : r.ep = f.ep) (hx : r.xid = fld f.xport 31 16) (hs : r.nseg = fld f.xport 39 32)
    (hg : r.got = fld f.xport 47 40) (h0 : r.got ≠ 0) (hlast : r.got + 1 = r.nseg) :
    b.segment f = State.receive f.port f.ep f.mac (r.words ++ f.words.take n) (b.putHost { b.host with reasm := [] }) := by
  unfold State.segment
  dsimp only
  rw [hn, ← hg, ← hs, segment_fits (by omega) hw hb hl, dropReasm_one h hp he, reasmOf_one h hp he, if_neg Bool.false_ne_true, if_neg h0]
  dsimp only
  rw [if_pos ⟨hx, rfl, rfl⟩, if_pos hlast]
end
/-- A segment out of order discards what its packet had, and is counted. -/
theorem segment_disorder {r : Reasm} (h : b.host.reasm = [r]) (hp : r.port = f.port) (he : r.ep = f.ep) (h0 : fld f.xport 47 40 ≠ 0) (hne : r.got ≠ fld f.xport 47 40) :
    b.segment f = (b.putHost { b.host with reasm := [] }).countSeg f.port := by
  unfold State.segment
  dsimp only
  have hother : ¬ (r.xid = fld f.xport 31 16 ∧ r.nseg = fld f.xport 39 32 ∧ r.got = fld f.xport 47 40) := fun ⟨_, _, hg⟩ => hne hg
  rw [dropReasm_one h hp he, reasmOf_one h hp he, if_neg h0]
  dsimp only
  rw [if_neg hother, ite_self]
theorem countSeg_leaves {r : Nat} {a : State} (hrest : b.rest = a.rest) (hparts : b.parts = a.parts) (hjrn : b.jrn = a.jrn) :
    (State.countSeg r (b.putHost { b.host with reasm := [] })).host.reasm = [] ∧
    ((State.countSeg r (b.putHost { b.host with reasm := [] })).eth r).cntSegErr = satN 24 ((b.eth r).cntSegErr + 1) ∧
    (State.countSeg r (b.putHost { b.host with reasm := [] })).parts = a.parts ∧ (State.countSeg r (b.putHost { b.host with reasm := [] })).jrn = a.jrn ∧
    (State.countSeg r (b.putHost { b.host with reasm := [] })).rest = a.rest := by
  unfold State.countSeg
  refine ⟨setEth_reasm .., ?_, (setEth_parts ..).trans hparts, (setEth_jrn ..).trans hjrn, (setEth_rest ..).trans hrest⟩
  rw [eth_setEth]; rfl
end

/-! ## Frames on an Ethernet port (R345) -/

section
variable {t : Lapse} {s a b : State} {port : Nat} {e : EthPort} (ha : s.elapse t = a) (he : a.eth port = e) (hport : port < 2) (hup : a.portUp port = true)
  (hb : a.setEth port { e with cntRx := satN 24 (e.cntRx + 1) } = b)
include he hb

theorem countFrame_eq : a.countFrame port = b := by
  unfold State.countFrame
  rw [he, hb]
omit he in
theorem countDrop_eq (hport : port < 2) : b.countDrop port = a.setEth port { e with cntRx := satN 24 (e.cntRx + 1), cntDrop := satN 24 (e.cntDrop + 1) } := by
  unfold State.countDrop
  rw [if_pos hport, ← hb, eth_setEth, setEth_setEth]
omit he in
theorem counted_page : (b.eth port).page = e.page := by rw [← hb, eth_setEth]
include ha hup

theorem execEthSegment_up {f : Frame} (hf : f.port = port) (hport : port < 2) (hep : f.ep ≠ .spi) :
    execEthSegment t f s = .next (if e.page.drops f then b.countDrop port else (b.expireReasm port f.ep).segment f) := by
  subst ha hf
  unfold execEthSegment
  dsimp only
  rw [if_pos ⟨hport, hep, hup⟩, countFrame_eq he hb, counted_page hb]
  exact (apply_ite Host.Outcome.next ..).symm
include hport

theorem execArpRequest_up (vlan : Nat) (target : BitVec 32) (mac : Word) : execArpRequest t port vlan target mac s =
    .next (if e.page.otherVlan vlan then b.countDrop port else if target.toNat = fld e.page.ip4 31 0 then b.emit (.arp port e.page.tag mac) else b) := by
  subst ha
  unfold execArpRequest
  dsimp only
  rw [if_pos ⟨hport, hup⟩, countFrame_eq he hb, counted_page hb]
  rw [apply_ite Host.Outcome.next, apply_ite Host.Outcome.next]
theorem execNeighbourSolicitation_up (vlan : Nat) (target : BitVec 128) (mac : Word) : execNeighbourSolicitation t port vlan target mac s =
    .next (if e.page.otherVlan vlan then b.countDrop port
      else if target = linkLocal (Config.ethMac port) ∨ (e.page.ip6 ≠ 0 ∧ target = e.page.ip6) then b.emit (.neighbour port e.page.tag mac) else b) := by
  subst ha
  unfold execNeighbourSolicitation
  dsimp only
  rw [if_pos ⟨hport, hup⟩, countFrame_eq he hb, counted_page hb]
  rw [apply_ite Host.Outcome.next, apply_ite Host.Outcome.next]
/-- The echo requests of a kind that a port keeps. -/
def EthPort.keepEchoes (v6 : Bool) (xs : List Nat) (e : EthPort) : EthPort := if v6 then { e with echoes6 := xs } else { e with echoes4 := xs }
theorem execIcmpEcho_up (vlan : Nat) (v6 : Bool) (mac : Word) (payload : List (BitVec 8)) {recent : List Nat}
    (hr : ((if v6 then e.echoes6 else e.echoes4).filter fun c => decide (a.tb.clk < c + 654720000)) = recent) :
    ∃ xs, execIcmpEcho t port vlan v6 mac payload s = .next (if e.page.otherVlan vlan then b.countDrop port
      else if recent.length < 10 then (b.setEth port (({ e with cntRx := satN 24 (e.cntRx + 1) } : EthPort).keepEchoes v6 xs)).emit (.echo port e.page.tag mac payload)
      else b.setEth port (({ e with cntRx := satN 24 (e.cntRx + 1) } : EthPort).keepEchoes v6 recent)) := by
  have hclk : b.tb.clk = a.tb.clk := by rw [← hb, setEth_tb]
  have hport' : b.eth port = { e with cntRx := satN 24 (e.cntRx + 1) } := by rw [← hb, eth_setEth]
  subst ha
  refine ⟨recent ++ [b.tb.clk], ?_⟩
  unfold execIcmpEcho
  dsimp only
  rw [if_pos ⟨hport, hup⟩, countFrame_eq he hb, hport', hclk]
  dsimp only
  rw [hr, apply_ite Host.Outcome.next, apply_ite Host.Outcome.next]
  rfl
end
theorem keepEchoes_counts (v6 : Bool) (xs : List Nat) (e : EthPort) : (e.keepEchoes v6 xs).cntRx = e.cntRx ∧ (e.keepEchoes v6 xs).page = e.page := by
  unfold EthPort.keepEchoes
  split <;> exact ⟨rfl, rfl⟩

section
variable (a : State) (port : Nat) (e : EthPort) (v6 : Bool) (xs : List Nat)
theorem unechoed_leaves {b : State} (hb : (a.setEth port { e with cntRx := satN 24 (e.cntRx + 1) }).setEth port (({ e with cntRx := satN 24 (e.cntRx + 1) } : EthPort).keepEchoes v6 xs) = b) :
    b.wire = a.wire ∧ (b.eth port).cntRx = satN 24 (e.cntRx + 1) ∧ (b.eth port).page = e.page ∧ b.parts = a.parts ∧ b.jrn = a.jrn ∧ b.rest = a.rest := by
  obtain ⟨hrx, hpage⟩ := keepEchoes_counts v6 xs { e with cntRx := satN 24 (e.cntRx + 1) }
  rw [setEth_setEth] at hb
  subst hb
  rw [eth_setEth]
  exact ⟨setEth_wire .., hrx, hpage, setEth_parts .., setEth_jrn .., setEth_rest ..⟩
end

/-! ## A host port fails and returns (R362) -/

section
variable {t : Lapse} {s a : State} {port : Nat} (ha : s.elapse t = a) (h9 : a.isOn 9 = true)
include ha h9

theorem execHostPortFailed_due {e : EthPort} (he : a.eth port = e) (hport : port < 2) (hen : bit e.page.cfg 47 = true) (hwas : e.wasUp = true) (hok : e.failed = false) :
    execHostPortFailed t port s = .next ((a.setEth port { e with link := false, failed := true }).hostFails port) := by
  subst ha he
  unfold execHostPortFailed
  dsimp only
  rw [if_pos ⟨hport, h9, hen, hwas⟩, hok, if_neg Bool.false_ne_true]
theorem execEthLinkStayedUp_due {e : EthPort} (he : a.eth port = e) (hport : port < 2) (hen : bit e.page.cfg 47 = true) (hself : e.selfOk = true) (hbad : e.failed = true) :
    execEthLinkStayedUp t port s = .next ((a.setEth port { e with link := true, wasUp := true, failed := false }).hostReturns port) := by
  subst ha he
  unfold execEthLinkStayedUp
  dsimp only
  rw [if_pos ⟨hport, h9, hen, hbad, hself⟩]
theorem execHostSelfCheck_spi {p : SpiPort} (hp : a.spi port = p) (hport : port = 2 ∨ port = 3) (hok : p.failed = false) :
    execHostSelfCheck t port false s = .next ((a.setSpi port { p with failed := true }).hostFails port) ∧
    execHostSelfCheck t port true s = .next (a.setSpi port { p with failed := false }) := by
  subst ha hp
  have hin : ¬ ((!(s.elapse t).isOn 9) = true ∨ 4 ≤ port) := by
    rw [h9, Bool.not_true]
    rintro (h | h)
    · exact absurd h (by decide)
    · omega
  constructor
  · unfold execHostSelfCheck
    dsimp only
    rw [if_neg hin, if_neg (by omega), hok, if_neg (by decide), if_neg Bool.false_ne_true, Bool.not_false]
  · unfold execHostSelfCheck
    dsimp only
    rw [if_neg hin, if_neg (by omega), hok, if_pos (by decide), Bool.not_true]
end
section
variable {a b : State} {port : Nat} (hrest : b.rest = a.rest)
include hrest

theorem hostFails_fc : (b.hostFails port).fc = { a.fc with host := setBit a.fc.host port } ∧ (b.hostFails port).rest = (a.putFc (b.hostFails port).fc).rest := by
  have hfc : (b.hostFails port).fc = { a.fc with host := setBit a.fc.host port } := (partFailed_fc ..).trans (by rw [← of_rest_fc hrest]; rfl)
  refine ⟨hfc, ?_⟩
  rw [hfc, ← of_rest_fc hrest]
  exact (partFailed_rest ..).trans (congrArg (fun x : State => x.putFc { b.fc with host := setBit b.fc.host port }) hrest)
theorem hostReturns_fc : (b.hostReturns port).fc = { a.fc with host := clearBits a.fc.host (2 ^ port) } ∧ (b.hostReturns port).rest = (a.putFc (b.hostReturns port).fc).rest := by
  have hfc : (b.hostReturns port).fc = { a.fc with host := clearBits a.fc.host (2 ^ port) } := (partRestored_fc ..).trans (by rw [← of_rest_fc hrest]; rfl)
  refine ⟨hfc, ?_⟩
  rw [hfc, ← of_rest_fc hrest]
  exact (partRestored_rest ..).trans (congrArg (fun x : State => x.putFc { b.fc with host := clearBits b.fc.host (2 ^ port) }) hrest)
end
theorem hostFails_told {a b : State} (hp : b.parts = a.parts) (hj : b.jrn = a.jrn) (port : Nat) : Told a (b.hostFails port) := partFailed_told (a := a) (b := b.putFc { b.fc with host := setBit b.fc.host port }) hp hj 0x013 port
theorem hostReturns_told {a b : State} (hp : b.parts = a.parts) (hj : b.jrn = a.jrn) (port : Nat) : Told a (b.hostReturns port) := partRestored_told (a := a) (b := b.putFc { b.fc with host := clearBits b.fc.host (2 ^ port) }) hp hj 0x013 port

section
variable (a : State) (port : Nat)
theorem hostFails_eth (e : EthPort) : ∀ u, (a.setEth port e).hostFails port = u →
    u.fc = { a.fc with host := setBit a.fc.host port } ∧ (u.eth port).failed = e.failed ∧ (u.eth port).link = e.link ∧ Told a u ∧
      (∀ i, i < 5 → (u.part i).bind = (a.part i).bind) ∧ u.rest = (a.putFc u.fc).rest := by
  rintro u rfl
  obtain ⟨hfc, hrest⟩ := hostFails_fc (port := port) (setEth_rest a port e)
  have hkeep : ∀ {γ : Type} (f : EthPort → γ) (_ : ∀ (e : EthPort) (n : Nat), f { e with xid := n } = f e), f (((a.setEth port e).hostFails port).eth port) = f e := fun f hf =>
    ((unsent_eth f hf port).partFailed 0x013 port _).trans (congrArg f (eth_setEth a port e))
  refine ⟨hfc, hkeep (·.failed) fun _ _ => rfl, hkeep (·.link) fun _ _ => rfl, hostFails_told (setEth_parts ..) (setEth_jrn ..) port, fun i _ => ?_, hrest⟩
  exact (partFailed_part_bind ..).trans (congrArg Partner.bind (part_congr (setEth_parts ..) i))
theorem hostReturns_eth (e : EthPort) : ∀ u, (a.setEth port e).hostReturns port = u →
    u.fc = { a.fc with host := clearBits a.fc.host (2 ^ port) } ∧ (u.eth port).failed = e.failed ∧ (u.eth port).link = e.link ∧ Told a u ∧ u.rest = (a.putFc u.fc).rest := by
  rintro u rfl
  obtain ⟨hfc, hrest⟩ := hostReturns_fc (port := port) (setEth_rest a port e)
  have hkeep : ∀ {γ : Type} (f : EthPort → γ) (_ : ∀ (e : EthPort) (n : Nat), f { e with xid := n } = f e), f (((a.setEth port e).hostReturns port).eth port) = f e := fun f hf =>
    ((unsent_eth f hf port).partRestored 0x013 port _).trans (congrArg f (eth_setEth a port e))
  exact ⟨hfc, hkeep (·.failed) fun _ _ => rfl, hkeep (·.link) fun _ _ => rfl, hostReturns_told (setEth_parts ..) (setEth_jrn ..) port, hrest⟩
theorem hostFails_spi (p : SpiPort) : ∀ u, (a.setSpi port p).hostFails port = u →
    u.fc = { a.fc with host := setBit a.fc.host port } ∧ (u.spi port).failed = p.failed ∧ u.rest = (a.putFc u.fc).rest := by
  rintro u rfl
  obtain ⟨hfc, hrest⟩ := hostFails_fc (port := port) (setSpi_rest a port p)
  exact ⟨hfc, ((unsent_spi (·.failed) (fun _ _ => rfl) port).partFailed 0x013 port _).trans (congrArg SpiPort.failed (spi_setSpi a port p)), hrest⟩
end

/-- Settles O52: what a port counts, then the frame's own lemma; a port's failure by its part's record. -/
theorem ethernetPorts : Obligations.EthernetPorts := by
  refine ⟨fun t f s => ?_, fun t f r s => ?_, fun t port vlan mac target six v6 payload s => ?_⟩
  · intro a e n
    have hup := fun (hport : f.port < 2) (hep : f.ep ≠ .spi) (hup : a.portUp f.port = true) => execEthSegment_up (b := _) (a := a) (s := s) rfl rfl hup rfl rfl hport hep
    have hpage := counted_page (a := a) (port := f.port) (e := e) rfl
    have hclk := congrArg TimeBase.clk <| setEth_tb a f.port { e with cntRx := satN 24 (e.cntRx + 1) }
    have hreasm := setEth_reasm a f.port { e with cntRx := satN 24 (e.cntRx + 1) }
    refine ⟨fun hport hep hu hdrop => ?_, fun hport hep hu hdrop hidle h0 h1 hw hb hl => ?_, fun hport hep hu hdrop hidle h0 h2 hw hb hl => ?_⟩
    · refine (hup hport hep hu).trans ?_
      rw [if_pos hdrop]
      exact congrArg Host.Outcome.next (countDrop_eq rfl hport)
    · refine (hup hport hep hu).trans ?_
      rw [if_neg (Bool.eq_false_iff.mp hdrop), expireReasm_none (hreasm.trans hidle)]
      exact congrArg Host.Outcome.next (segment_single rfl (by rw [hpage]; exact hw) hb hl (hreasm.trans hidle) h0 h1)
    · have hx := hup hport hep hu
      rw [if_neg (Bool.eq_false_iff.mp hdrop), expireReasm_none (hreasm.trans hidle), segment_first rfl (by rw [hpage]; exact hw) hb hl (hreasm.trans hidle) h0 h2, hclk] at hx
      exact ⟨_, hx, rfl, rfl⟩
  · intro a e n b
    have hx := fun (hport : f.port < 2) (hep : f.ep ≠ .spi) (hup : a.portUp f.port = true) => execEthSegment_up (b := b) (a := a) (s := s) rfl rfl hup rfl rfl hport hep
    have hpage : (b.eth f.port).page = e.page := counted_page (a := a) (port := f.port) (e := e) rfl
    have hseg : (b.eth f.port).cntSegErr = e.cntSegErr :=
      eth_setEth_view EthPort.cntSegErr a f.port { e with cntRx := satN 24 (e.cntRx + 1) } rfl f.port
    have hclk : b.tb.clk = a.tb.clk := congrArg TimeBase.clk (setEth_tb ..)
    have hreasm : b.host.reasm = a.host.reasm := setEth_reasm ..
    have hrest : b.rest = a.rest := setEth_rest ..
    have hparts : b.parts = a.parts := setEth_parts ..
    have hjrn : b.jrn = a.jrn := setEth_jrn ..
    clear_value b
    refine ⟨fun hport hep hu hdrop hone hp he hearly hxid hn hg h0 hlast hw hb hl => ?_, fun hport hep hu hdrop hone hp he hearly h0 hne => ?_, fun hone hlate => ?_⟩
    · refine (hx hport hep hu).trans ?_
      rw [if_neg (Bool.eq_false_iff.mp hdrop), expireReasm_early (hreasm.trans hone) hp he (by rw [hclk]; exact hearly)]
      exact congrArg Host.Outcome.next (segment_last rfl (by rw [hpage]; exact hw) hb hl (hreasm.trans hone) hp he hxid hn hg h0 hlast)
    · have hrun := hx hport hep hu
      rw [if_neg (Bool.eq_false_iff.mp hdrop), expireReasm_early (hreasm.trans hone) hp he (by rw [hclk]; exact hearly), segment_disorder (hreasm.trans hone) hp he h0 hne] at hrun
      refine ⟨_, hrun, ?_⟩
      beta_reduce
      rw [← hseg]
      exact countSeg_leaves hrest hparts hjrn
    · have hrun : execReassemblyTimeout t r.port r.ep s = .next (a.expireReasm r.port r.ep) := rfl
      rw [expireReasm_late hone hlate] at hrun
      exact ⟨_, hrun, countSeg_leaves rfl rfl rfl⟩
  · intro a e b d
    have hpage : (b.eth port).page = e.page := counted_page (a := a) (port := port) (e := e) rfl
    have hdrop : port < 2 → b.countDrop port = d := countDrop_eq rfl
    refine ⟨fun hport hup hvlan htarget => ?_, fun hport hup hvlan hsome hsix => ?_, fun hport hup hvlan => ?_, fun hport hup hvlan => ⟨?_, ?_, ?_⟩,
      fun hport hup hvlan hfew => ?_, fun hport hup hvlan hmany => ?_, fun hport h9 hen hwas hok => ?_, fun hport h9 hen hself hbad => ?_, fun hport h9 hok => ⟨?_, ?_⟩⟩
    · refine (execArpRequest_up (b := b) (a := a) rfl rfl hport hup rfl vlan target mac).trans ?_
      rw [if_neg (Bool.eq_false_iff.mp hvlan), if_pos htarget]
    · refine (execNeighbourSolicitation_up (b := b) (a := a) rfl rfl hport hup rfl vlan six mac).trans ?_
      rw [if_neg (Bool.eq_false_iff.mp hvlan), if_pos (.inr ⟨hsome, hsix⟩)]
    · refine (execNeighbourSolicitation_up (b := b) (a := a) rfl rfl hport hup rfl vlan _ mac).trans ?_
      rw [if_neg (Bool.eq_false_iff.mp hvlan), if_pos (.inl rfl)]
    · refine (execArpRequest_up (b := b) (a := a) rfl rfl hport hup rfl vlan target mac).trans ?_
      rw [if_pos hvlan, hdrop hport]
    · refine (execNeighbourSolicitation_up (b := b) (a := a) rfl rfl hport hup rfl vlan six mac).trans ?_
      rw [if_pos hvlan, hdrop hport]
    · obtain ⟨xs, hx⟩ := execIcmpEcho_up (b := b) (a := a) rfl rfl hport hup rfl vlan v6 mac payload rfl
      refine hx.trans ?_
      rw [if_pos hvlan, hdrop hport]
    · obtain ⟨xs, hx⟩ := execIcmpEcho_up (b := b) (a := a) rfl rfl hport hup rfl vlan v6 mac payload rfl
      rw [if_neg (Bool.eq_false_iff.mp hvlan), if_pos hfew] at hx
      obtain ⟨hwire, hleaves⟩ := unechoed_leaves a port e v6 xs rfl
      exact ⟨_, hx, congrArg (fun l => l ++ [Emit.echo port e.page.tag mac payload]) hwire, hleaves⟩
    · obtain ⟨xs, hx⟩ := execIcmpEcho_up (b := b) (a := a) rfl rfl hport hup rfl vlan v6 mac payload rfl
      rw [if_neg (Bool.eq_false_iff.mp hvlan), if_neg (Nat.not_lt.mpr hmany)] at hx
      obtain ⟨hwire, hrx, -, hleaves⟩ := unechoed_leaves a port e v6 _ rfl
      exact ⟨_, hx, hwire, hrx, hleaves⟩
    · have hx : execHostPortFailed t port s = .next _ := execHostPortFailed_due (a := a) rfl h9 rfl hport hen hwas hok
      have hspec := hostFails_eth a port { e with link := false, failed := true } _ rfl
      generalize (a.setEth port { e with link := false, failed := true }).hostFails port = u at hx hspec
      exact ⟨u, hx, hspec⟩
    · have hx : execEthLinkStayedUp t port s = .next _ := execEthLinkStayedUp_due (a := a) rfl h9 rfl hport hen hself hbad
      have hspec := hostReturns_eth a port { e with link := true, wasUp := true, failed := false } _ rfl
      generalize (a.setEth port { e with link := true, wasUp := true, failed := false }).hostReturns port = u at hx hspec
      exact ⟨u, hx, hspec⟩
    · have hx := (execHostSelfCheck_spi (a := a) (t := t) (s := s) rfl h9 rfl hport hok).1
      have hspec := hostFails_spi a port { a.spi port with failed := true } _ rfl
      generalize (a.setSpi port { a.spi port with failed := true }).hostFails port = u at hx hspec
      exact ⟨u, hx, hspec⟩
    · refine ⟨_, (execHostSelfCheck_spi (a := a) rfl h9 rfl hport hok).2, setSpi_fc .., congrArg SpiPort.failed (spi_setSpi ..), setSpi_parts .., setSpi_jrn .., setSpi_rest ..⟩

end Sys2Proof.Machine
end

section
/-! The reply to a GOODBYE, read to its end, unbinds its partner (R297, R354) (O53). -/
namespace Sys2Proof.Machine
open Sys2Proof

/-- The reply to a GOODBYE of partner 0: opcode 3, its SEQ, DONE. -/
def goodbyeReply : OutPkt := { words := [word (put 31 20 3), 1, word (put 47 36 1), 0], partner := 0, isReply := true }
/-- A running module with partner 0 bound to H2, where that reply is the one packet to be read. -/
def leavingState : State := W.setSpi 2 { tx := [goodbyeReply] }
/-- A READ of five words. -/
def readFive : Word := word (put 47 32 0x8005 + put 31 16 (0xFFFF - 0x8005))
theorem leavingState_up : (leavingState.elapse L0).portUp 2 = true := by decide +kernel
theorem leavingState_bound : ((leavingState.elapse L0).part 0).bind = some ⟨2, .spi, 0⟩ := by decide +kernel
/-- The READ takes the reply's last word, and with it the binding. -/
theorem leavingState_unbound : (((leavingState.elapse L0).spiTransfer 2 false readFive [] false).part 0).bind = none := by decide +kernel

/-- Refutes O53: its clause on a READ to the packet's end claims that the port and the wire are all that changes, but where the packet is the reply to a GOODBYE the partner is unbound (R297). -/
theorem not_spiAndServicePorts : ¬ Obligations.SpiAndServicePorts := by
  intro h
  obtain ⟨-, -, hread, -⟩ := h
  obtain ⟨-, hlast⟩ := hread L0 2 false readFive goodbyeReply [] leavingState
  have hnext := hlast (.inl rfl) leavingState_up (by decide) (by decide) rfl (by decide) (by decide)
  have hrun : exec (.spiRead L0 2 false readFive) leavingState = .next ((leavingState.elapse L0).spiTransfer 2 false readFive [] false) := rfl
  have hsame := Host.Outcome.next.inj (hrun.symm.trans hnext)
  have hbind := congrArg (fun u : State => (u.part 0).bind) hsame
  exact absurd (leavingState_unbound.symm.trans (hbind.trans leavingState_bound)) (by decide)

end Sys2Proof.Machine
end

section
/-! The journal's queries and its stores (R319, R324, R325, R327, R337, R338, R340, R341) (O54). -/
namespace Sys2Proof.Machine
open Sys2Proof

/-! ## What records leave of the stores -/

/-- A view of the journal that sealing, pins and JSN_LOW do not touch. -/
structure Unsealed {γ : Type} (v : Journal → γ) : Prop where
  groups : ∀ (j : Journal) (l r : List Group), v { j with landing := l, ring := r } = v j
  count : ∀ (j : Journal) (l : List Group) (n c : Nat), v { j with next := n, landing := l, cntGroups := c } = v j
  low : ∀ (j : Journal) (b : Bool), v { j with jsnLow := b } = v j
section
variable {γ : Type} {v : Journal → γ} (hv : Unsealed v)
include hv

theorem Unsealed.mapGroups (f : Group → Group) (j : Journal) : v (j.mapGroups f) = v j := hv.groups ..
theorem Unsealed.trimPins (fuel p : Nat) (j : Journal) : v (j.trimPins fuel p) = v j := by
  induction fuel generalizing j with
  | zero => rfl
  | succ n ih =>
    unfold Journal.trimPins
    split
    · rfl
    · split
      · exact (ih _).trans (hv.mapGroups ..)
      · rfl
theorem Unsealed.seal (g : Group) (s : State) : v (s.seal g).jrn = v s.jrn := by
  unfold State.seal
  split
  · rfl
  · refine (hv.count ..).trans (foldl_keeps v _ (fun j pin => ?_) _ _)
    cases pin
    case config => exact hv.mapGroups ..
    all_goals rfl
theorem Unsealed.form (p : Nat) (vol : Bool) (ws : List Word) (s : State) : v (s.form p vol ws).jrn = v s.jrn := by
  unfold State.form
  dsimp only
  split
  · rfl
  · rw [sendRecs_jrn]
    exact (hv.trimPins ..).trans (hv.seal ..)
theorem Unsealed.jsnCheck (s : State) : v s.jsnCheck.jrn = v s.jrn := by
  unfold State.jsnCheck
  split
  · exact (foldl_keeps (fun t : State => v t.jrn) _ (fun _ _ => hv.form ..) _ _).trans (hv.low ..)
  · rfl
theorem Unsealed.raiseAll (fault : Bool) (cause : Nat) (args : List Word) (s : State) : v (s.raiseAll fault cause args).jrn = v s.jrn := by
  unfold State.raiseAll State.raise State.record
  exact foldl_keeps (fun t : State => v t.jrn) _ (fun _ _ => (hv.jsnCheck _).trans (hv.form ..)) _ _
theorem Unsealed.partFailed (cls i : Nat) (s : State) : v (s.partFailed cls i).jrn = v s.jrn := by
  unfold State.partFailed State.sealSystem
  rw [hv.jsnCheck, hv.seal, hv.raiseAll]
theorem Unsealed.partRestored (cls i : Nat) (s : State) : v (s.partRestored cls i).jrn = v s.jrn := by
  unfold State.partRestored State.sealSystem
  rw [hv.jsnCheck, hv.seal, hv.raiseAll]
end
theorem unsealed_store (i : Nat) : Unsealed fun j => (j.store i, j.fault) where
  groups _ _ _ := by unfold Journal.store; split <;> rfl
  count _ _ _ _ := by unfold Journal.store; split <;> rfl
  low _ _ := by unfold Journal.store; split <;> rfl

/-! ## A store fails and returns (R337, R338) -/

theorem store_setStore (j : Journal) (i : Nat) (x : Store) : (j.setStore i x).store i = x := by
  unfold Journal.setStore Journal.store; split <;> rfl
theorem store_setStore_other (j : Journal) {i : Nat} (hi : i < 2) (x : Store) : (j.setStore i x).store (1 - i) = j.store (1 - i) := by
  unfold Journal.setStore Journal.store
  interval_cases i <;> rfl
theorem store_fault (j : Journal) (f i : Nat) : ({ j with fault := f } : Journal).store i = j.store i := by
  unfold Journal.store; split <;> rfl
theorem setStore_far {a b : State} {i f : Nat} {x : Store} (hb : b = a.putJrn { a.jrn.setStore i x with fault := f } ∨ b = a.putJrn (a.jrn.setStore i x)) :
    ∀ u, Told b u → Told a u := by
  intro u h q hq hfar
  have hnext : b.jrn.next = a.jrn.next ∧ b.jrn.jsnLow = a.jrn.jsnLow ∧ b.parts = a.parts := by
    rcases hb with rfl | rfl <;> (unfold Journal.setStore; split <;> exact ⟨rfl, rfl, rfl⟩)
  obtain ⟨hn, hl, hp⟩ := hnext
  have hbfar : b.jsnFar := by unfold State.jsnFar; rw [hn, hl]; exact hfar
  have := h q hq hbfar
  rwa [part_congr hp] at this
theorem testBit_setBit (n i : Nat) : (setBit n i).testBit i = true := by
  unfold setBit
  rw [Nat.testBit_or, Nat.testBit_two_pow_self, Bool.or_true]
section
variable {t : Lapse} {s a : State} (ha : s.elapse t = a) {i : Nat} (hi : i < 2)
include ha hi

theorem execStoreFailed_ok (hok : (a.jrn.store i).stat = 0) :
    Answers (execStoreFailed t i s) fun u => u.jrn.store i = { a.jrn.store i with stat := 2 } ∧ u.jrn.store (1 - i) = a.jrn.store (1 - i) ∧
      u.jrn.fault.testBit (2 + i) = true ∧ Told a u ∧ u.rest = a.rest := by
  have hrun : ∃ b : State, b = a.putJrn { a.jrn.setStore i { a.jrn.store i with stat := 2 } with fault := setBit a.jrn.fault (2 + i) } ∧
      execStoreFailed t i s = .next (b.partFailed 0x010 i) := by
    refine ⟨_, rfl, ?_⟩
    subst ha
    unfold execStoreFailed State.storeFails
    dsimp only
    rw [if_pos hi, if_neg (by omega), if_neg (by omega)]
  obtain ⟨b, hb, hrun⟩ := hrun
  obtain ⟨hown, hfault⟩ := Prod.mk.inj ((unsealed_store i).partFailed 0x010 i b)
  have hother := (Prod.mk.inj ((unsealed_store (1 - i)).partFailed 0x010 i b)).1
  refine ⟨_, hrun, ?_, hother.trans ?_, ?_, setStore_far (.inl hb) _ (partFailed_told (a := b) (b := b) rfl rfl 0x010 i), (partFailed_rest ..).trans ?_⟩
  · exact hown.trans (by rw [hb]; exact (store_fault ..).trans (store_setStore ..))
  · rw [hb]; exact (store_fault ..).trans (store_setStore_other _ hi _)
  · rw [hfault, hb]
    exact testBit_setBit ..
  · rw [hb, putJrn_rest]
theorem execRemirrorEnd_ok (hmirror : (a.jrn.store i).stat = 1) (hready : a.pwr.ready = true) :
    Answers (execRemirrorEnd t i s) fun u => u.jrn.store i = { stat := 0, sealed := (a.jrn.store (1 - i)).sealed } ∧ u.jrn.store (1 - i) = a.jrn.store (1 - i) ∧
      Told a u ∧ u.rest = a.rest := by
  have hrun : ∃ b : State, b = a.putJrn (a.jrn.setStore i { stat := 0, sealed := (a.jrn.store (1 - i)).sealed }) ∧ execRemirrorEnd t i s = .next (b.partRestored 0x010 i) := by
    refine ⟨_, rfl, ?_⟩
    subst ha
    unfold execRemirrorEnd
    dsimp only
    rw [if_pos ⟨hi, hmirror, hready⟩]
  obtain ⟨b, hb, hrun⟩ := hrun
  have hown := (Prod.mk.inj ((unsealed_store i).partRestored 0x010 i b)).1
  have hother := (Prod.mk.inj ((unsealed_store (1 - i)).partRestored 0x010 i b)).1
  refine ⟨_, hrun, hown.trans ?_, hother.trans ?_, setStore_far (f := 0) (.inr hb) _ (partRestored_told (a := b) (b := b) rfl rfl 0x010 i), (partRestored_rest ..).trans ?_⟩
  · rw [hb]; exact store_setStore ..
  · rw [hb]; exact store_setStore_other _ hi _
  · rw [hb, putJrn_rest]

end

/-! ## Groups and marks reach the stores (R324, R325, R327) -/

theorem ringRoom_fits {fuel n : Nat} {s : State} (h : s.jrn.used + n ≤ ringSize) : State.ringRoom fuel n s = s := by
  cases fuel with
  | zero => rfl
  | succ m => exact if_pos h
theorem serveRounds_idle {s : State} (h : s.host.parse = []) (fuel : Nat) : s.serveRounds fuel = s := by
  cases fuel with
  | zero => rfl
  | succ m =>
    have hnone : s.nextTurn = none := by
      unfold State.nextTurn State.headOf
      rw [h]; rfl
    unfold State.serveRounds
    rw [hnone]
section
variable {t : Lapse} {s a : State} (ha : s.elapse t = a) (hw : a.jrn.working = true)
include ha hw

theorem execGroupComplete_fits {g : Group} {rest : List Group} (hl : a.jrn.landing = g :: rest) (hroom : a.jrn.used + g.entries ≤ 262144) (hidle : a.host.parse = []) :
    execGroupComplete t s = .next (a.putJrn { a.jrn with
      landing := rest, ring := a.jrn.ring ++ [g], storeA := a.jrn.storeA.took g.jsn, storeB := a.jrn.storeB.took g.jsn }) := by
  subst ha
  have hdone : (s.elapse t).groupDone = (s.elapse t).putJrn { (s.elapse t).jrn with
      landing := rest, ring := (s.elapse t).jrn.ring ++ [g], storeA := (s.elapse t).jrn.storeA.took g.jsn, storeB := (s.elapse t).jrn.storeB.took g.jsn } := by
    unfold State.groupDone
    rw [hl]
    dsimp only
    rw [ringRoom_fits (s := (s.elapse t).putJrn { (s.elapse t).jrn with landing := rest }) hroom]
    rfl
  unfold execGroupComplete
  dsimp only
  rw [if_pos hw, hdone, serveRounds_idle (by exact hidle)]
theorem execRingCarry_pinned {g : Group} {rest : List Group} (hr : a.jrn.ring = g :: rest) (hpin : g.pins ≠ []) :
    execRingCarry t g.jsn s = .next (a.putJrn { a.jrn with ring := rest ++ [{ g with carried := true }], cntCarried := satN 24 (a.jrn.cntCarried + g.entries) }) := by
  subst ha
  unfold execRingCarry State.turnRing
  dsimp only
  rw [hr]
  dsimp only
  rw [if_pos ⟨rfl, hpin, hw⟩, if_pos hpin]
theorem execMarkFold_one {i n : Nat} {rest : List (Nat × Nat)} (hm : a.jrn.markRing = (i, n) :: rest) :
    execMarkFold t 1 s = .next (a.putJrn { a.jrn with marks := tput 0 i (max (tget 0 i a.jrn.marks) n) a.jrn.marks, markRing := rest }) := by
  subst ha
  unfold execMarkFold
  dsimp only
  rw [if_pos hw, hm]
  rfl
end

/-! ## The queries (R340, R341) -/

theorem flatten_conts_length (n jsn idx : Nat) (ws : List Word) : (conts n jsn idx ws).flatten.length ≤ 16 * ((ws.length + 12) / 13) := by
  induction n generalizing idx ws with
  | zero => exact Nat.zero_le _
  | succ n ih =>
    unfold conts
    split
    · exact Nat.zero_le _
    · next hne =>
      have hpos := List.length_pos_of_ne_nil hne
      have hpad : (padTo 13 ws).length = 13 := by
        unfold padTo
        rw [List.length_append, List.length_take, List.length_replicate]; omega
      have := ih (idx + 1) (ws.drop 13)
      rw [List.length_drop] at this
      unfold closeEntry
      rw [List.flatten_cons, List.length_append, List.length_append, List.length_cons, List.length_cons, List.length_singleton, hpad]
      omega
theorem verbatim_length (g : Group) : g.verbatim.flatten.length ≤ 16 + 16 * ((g.data.length + 3) / 13) := by
  have hpad : (padTo 9 g.data).length = 9 := by
    unfold padTo
    rw [List.length_append, List.length_take, List.length_replicate]; omega
  have hconts := flatten_conts_length 400 g.jsn 1 (g.data.drop 9)
  rw [List.length_drop] at hconts
  unfold Group.verbatim
  dsimp only
  unfold closeEntry
  rw [List.flatten_cons, List.length_append, List.length_append, List.length_append, List.length_singleton, hpad]
  simp only [List.length_cons, List.length_nil]
  omega

/-- The one descriptor of a query for a single key that fits. -/
theorem queryWords_one {f : Nat → List Word} {room key : Nat} {ws : List Word} (hf : f key = ws) (hfit : ws.length ≤ room) : queryWords f room 1 key = (1, ws) := by
  unfold queryWords
  dsimp only
  rw [hf, if_neg (by omega)]
  exact congrArg (Prod.mk 1) (List.append_nil ws)
section
variable {k : Pkt} {s : State}

theorem opJournalState_eval (hps : k.ps = []) {p : Partner} (hl : (s.part k.partner).lseq = p.lseq) (he : (s.part k.partner).ev = p.ev) :
    opJournalState.eval k s = { status := .done, words := [word s.jrn.next, word s.jrn.oldest,
      pack [put 47 46 s.jrn.storeA.stat, put 45 44 s.jrn.storeB.stat, put 43 24 s.jrn.live, put 23 20 (fld s.jrn.rstCause 47 44)],
      word p.lseq, word p.ev.ackFirst, word p.ev.nextEsn, s.fcStat] } := by
  unfold opJournalState
  dsimp only
  rw [if_neg (not_not_intro hps), hl, he]
theorem opJournalQuery_malformed (h : k.ps.length ≠ 2 ∨ fld (arg k.ps 0) 47 46 = 3 ∨ fld (arg k.ps 0) 42 37 = 0 ∨ 32 < fld (arg k.ps 0) 42 37) :
    opJournalQuery.eval k s = refuse .badParam [0] := by
  unfold opJournalQuery
  dsimp only
  rw [if_pos (by omega)]
  rfl
theorem opJournalQuery_jsn (hlen : k.ps.length = 2) (hsel : fld (arg k.ps 0) 47 46 = 0) (hn : fld (arg k.ps 0) 42 37 = 1) {ws : List Word}
    (hq : s.queryKey k.partner 0 (fld (arg k.ps 0) 45 43) (arg k.ps 1).toNat = ws) (hfit : ws.length ≤ 4092) :
    opJournalQuery.eval k s = { status := .done, words := pack [put 47 42 1] :: ws } := by
  unfold opJournalQuery
  dsimp only
  rw [if_neg (by omega), if_neg (by omega), hsel, hn, queryWords_one hq hfit]
theorem pack_one (n : Nat) : pack [n] = word n := by
  unfold pack
  rw [List.sum_singleton]
  rfl
theorem pack_zero_one (hi lo n : Nat) : pack [put hi lo 0, n] = word n := by
  have h0 : put hi lo 0 = 0 := by simp [put]
  unfold pack
  rw [h0, List.sum_cons, List.sum_singleton, Nat.zero_add]
  rfl
theorem queryKey_ahead {who p key : Nat} (h : s.jrn.next ≤ key) : s.queryKey who 0 p key = [word (put 47 45 2)] := by
  unfold State.queryKey
  dsimp only
  rw [decide_eq_true h]
  rfl
theorem queryKey_unnamed {who p key : Nat} (h : key < s.jrn.next) (hn : s.jrn.named 0 p key = none) : s.queryKey who 0 p key = [pack [put 47 45 1]] := by
  unfold State.queryKey
  dsimp only
  rw [decide_eq_false (by omega)]
  change (if false = true then _ else _) = _
  rw [if_neg Bool.false_ne_true, hn]
theorem queryKey_absent {who p key : Nat} (h : key < s.jrn.next) (hn : s.jrn.named 0 p key = none) : s.queryKey who 0 p key = [word (put 47 45 1)] := by
  rw [queryKey_unnamed h hn, pack_one]
theorem queryKey_own {who p key : Nat} {g : Group} (h : key < s.jrn.next) (hn : s.jrn.named 0 p key = some g) (hown : g.partner = who) :
    s.queryKey who 0 p key = word (put 44 35 g.verbatim.length) :: g.verbatim.flatten := by
  unfold State.queryKey
  dsimp only
  rw [decide_eq_false (by omega)]
  change (if false = true then _ else _) = _
  rw [if_neg Bool.false_ne_true, hn]
  dsimp only
  rw [if_neg fun hh => hh.2.2.1 hown]
  rw [pack_zero_one]
end
theorem named_none {j : Journal} {p key : Nat} (h : (j.ring ++ j.landing).all (fun g => g.jsn != key) = true) : j.named 0 p key = none := by
  unfold Journal.named
  generalize j.ring ++ j.landing = l at h
  induction l with
  | nil => rfl
  | cons g l ih =>
    rw [List.all_cons, Bool.and_eq_true, bne_iff_ne] at h
    rw [List.foldl_cons]
    simpa [h.1] using ih h.2
theorem named_one {j : Journal} {g : Group} {p key : Nat} (hr : j.ring = []) (hl : j.landing = [g]) (hk : g.jsn = key) : j.named 0 p key = some g := by
  unfold Journal.named
  rw [hr, hl]
  simp [hk]
/-- The entries of a group of a packet fit in a reply. -/
theorem verbatim_fits {g : Group} (hp : g.params.length ≤ 2048) (hr : g.reply.length ≤ 100) : g.verbatim.flatten.length + 1 ≤ 3000 := by
  have := verbatim_length g
  have hdata : g.data.length = g.params.length + g.reply.length := List.length_append
  omega
section
variable {t : Lapse} {env : Env} {ps : List Word} {s : State}

/-- A query whose key is named by its JSN is answered in one descriptor. -/
theorem journalQuery_jsn (h : (s.elapse t).admits 0x0E1 1 0xFFE env ps = true) (hlen : ps.length = 2) (hsel : fld (arg ps 0) 47 46 = 0) (hn : fld (arg ps 0) 42 37 = 1) {ws : List Word}
    (hq : ((s.elapse t).bound env).queryKey env.partner 0 (fld (arg ps 0) 45 43) (arg ps 1).toNat = ws) (hfit : ws.length ≤ 3000) :
    Completes 0x0E1 1 (word (put 47 42 1) :: ws) env (s.elapse t) (execJournalQuery t env ps s) fun u => u.rest = (s.elapse t).rest := by
  refine runOp_completes opJournalQuery t env ps 1 s _ (word (put 47 42 1) :: ws) _ h (by decide) (by decide)
    (opJournalQuery_jsn (k := pktOf opJournalQuery.code env ps (s.elapse t)) hlen hsel hn hq (by omega)) rfl ?_ (fun _ _ => ⟨rfl, rfl⟩) (fun _ _ _ hb hu => hu.trans hb)
  show entriesFor (ps.length + (ws.length + 1)) + 0 ≤ 1000
  unfold entriesFor
  omega
end

/-- Settles O54: the queries' own verdicts, and the stores through what each of these commands makes of the journal. -/
theorem journalStores : Obligations.JournalStores := by
  refine ⟨fun t env ps s => ?_, fun t g rest s => ⟨fun hl hw hroom hidle => ?_, fun hr hw hpin => ?_⟩, fun t i n rest s => ?_, fun t i s => ⟨fun hi hok => ?_, fun hi hm hready => ?_⟩⟩
  · intro a p key
    refine ⟨fun h hps => ?_, fun h hlen hsel hn hahead => ?_, fun h hlen hsel hn hheld hall => ?_, fun h hlen hsel hn hring hland hheld hsmall => ?_, fun h hbad => ?_⟩
    · have hv := opJournalState_eval (k := pktOf opJournalState.code env ps a) (s := a.bound env) hps (p := p) (bound_part_view (fun x : Partner => x.lseq) (fun _ _ => rfl) ..) (bound_ev ..)
      refine runOp_completes opJournalState t env ps 1 s _ _ _ h (by decide) (by decide) hv rfl ?_ (fun _ _ => ⟨rfl, rfl⟩) (fun _ _ _ hb hu => hu.trans hb)
      rw [hps]
      show entriesFor (0 + 7) + 0 ≤ 1000
      decide
    · exact journalQuery_jsn h hlen hsel hn (queryKey_ahead hahead) (by decide)
    · exact journalQuery_jsn h hlen hsel hn (queryKey_absent (s := a.bound env) hheld (named_none hall)) (by decide)
    · obtain ⟨g, hg⟩ := List.length_eq_one_iff.mp (by simpa using congrArg List.length hland : a.jrn.landing.length = 1)
      rw [hg] at hland hsmall ⊢
      obtain ⟨hk, hp⟩ := Prod.mk.inj (List.cons.inj hland).1
      obtain ⟨hparams, hreply⟩ : g.params.length ≤ 2048 ∧ g.reply.length ≤ 100 := by simpa using hsmall
      rw [List.flatMap_singleton]
      exact journalQuery_jsn h hlen hsel hn (queryKey_own (s := a.bound env) hheld (named_one hring hg hk) hp) (verbatim_fits hparams hreply)
    · exact runOp_refuses opJournalQuery t env ps 1 s .badParam [0] h (by decide) (by decide) (by simp)
        (opJournalQuery_malformed (k := pktOf opJournalQuery.code env ps a) hbad) (by simp)
  · exact execGroupComplete_fits rfl hw hl hroom hidle
  · exact execRingCarry_pinned rfl hw hr hpin
  · intro a hm hw
    refine ⟨_, execMarkFold_one rfl hw hm, tget_tput_same .., fun j _ hj => tget_tput_ne _ _ _ _ _ _ hj, rfl, rfl⟩
  · exact execStoreFailed_ok rfl hi hok
  · exact execRemirrorEnd_ok rfl hi hm hready

end Sys2Proof.Machine
end

section
/-! A reset of D1 that ends a firmware update restarts the mode machine, and with it D11's time source (R187, R311) (O55). -/
namespace Sys2Proof.Machine
open Sys2Proof

/-- A running module with Tether time from GNSS while a firmware update is in progress. -/
def updatingState : State := (W.putPwr { W.pwr with fw := { W.pwr.fw with session := 1 } }).putTb { W.tb with tsrc := 1 }
theorem updatingState_up : (updatingState.elapse L0).isOn 1 = true ∧ (updatingState.elapse L0).pwr.phase = .running := by decide +kernel
theorem updatingState_gnss : (updatingState.elapse L0).tb.tsrc = 1 := by decide +kernel
/-- The reset ends the steering of the mode that it restarts. -/
theorem updatingState_reset : ((updatingState.elapse L0).cmdReset 2 1).tb.tsrc = 2 := by decide +kernel
theorem execWatchdog_cmd {t : Lapse} {s : State} (hon : (s.elapse t).isOn 1 = true) (hphase : (s.elapse t).pwr.phase = .running) :
    execWatchdog t 1 s = .next ((s.elapse t).cmdReset 2 1) := by
  unfold execWatchdog
  dsimp only
  rw [hon, hphase]
  exact if_pos ⟨rfl, rfl⟩

/-- Refutes O55: its clause on the command unit's watchdog claims that D11 keeps its whole time base, but where the reset ends a firmware update while Tether time comes from GNSS the mode machine restarts and TSRC becomes HOLDOVER (R187). -/
theorem not_resetsAndFirmware : ¬ Obligations.ResetsAndFirmware := by
  intro h
  obtain ⟨-, -, -, -, hfaults⟩ := h
  obtain ⟨hon, hphase⟩ := updatingState_up
  obtain ⟨⟨u, hu, -, -, -, -, -, -, -, -, -, htb, -⟩, -⟩ := hfaults L0 updatingState hon hphase
  obtain rfl := Host.Outcome.next.inj ((execWatchdog_cmd hon hphase).symm.trans hu)
  have hsrc := congrArg TimeBase.tsrc htb
  rw [updatingState_reset, updatingState_gnss] at hsrc
  exact absurd hsrc (by decide)

end Sys2Proof.Machine
end

section
/-! A job of Ndovos that an outage ended has its report written to shared memory once the module is ready (R97, R99) (O56). -/
namespace Sys2Proof.Machine
open Sys2Proof

/-! ## The reports that wait for ready -/

/-- The one report that waits, of a job of Ndovos's own, goes to shared memory. -/
theorem galeReady_own {s : State} {j : Job} (hj : ¬ j.who < 5) (h : s.gale.aborted = [j]) :
    ∃ fr cs, s.galeReady.mem = s.mem.writes (Config.galeReport 0 j.slot).toNat (j.report cs fr 3) := by
  unfold State.galeReady
  rw [h]
  exact ⟨_, _, congrArg State.mem (endJob_own hj 3 _)⟩

theorem foldl_gale {β : Type} (f : State → β → State) (h : ∀ a b, (f a b).gale = a.gale) (l : List β) (s : State) :
    (l.foldl f s).gale = s.gale := foldl_keeps State.gale f h l s
theorem onPwr_gale (f : Power → Power) (s : State) : (s.onPwr f).gale = s.gale := rfl
theorem onRtc_gale (f : Rtc → Rtc) (s : State) : (s.onRtc f).gale = s.gale := rfl
theorem alarmRecord_gale (a : Nat × Nat × Nat × Qval) (s : State) : (s.alarmRecord a).gale = s.gale :=
  foldl_gale _ (fun _ _ => record_gale ..) _ s
theorem modeReady_gale (s : State) : s.modeReady.gale = s.gale :=
  foldl_gale _ (fun a _ => foldl_gale _ (fun _ _ => record_gale ..) _ a) _ _
theorem ite_gale (c : Prop) [Decidable c] (a b : State) : (if c then a else b).gale = if c then a.gale else b.gale := apply_ite ..
/-- The records that wait for ready leave before the reports of Gale's jobs, and Gale does not see them. -/
theorem readyRecords_galeReady (cold : Bool) (s : State) :
    ∃ b : State, (s.readyRecords cold).held = b.galeReady.held ∧ b.gale = s.gale := by
  simp only [State.readyRecords]
  refine ⟨_, kiteReady_held _, ?_⟩
  split <;> simp [foldl_gale, onPwr_gale, onRtc_gale, alarmRecord_gale, modeReady_gale, ite_gale]

/-- A module becoming ready, as it is before the waiting records leave (R33, R332). -/
def State.readyBegins (d1 : Bool) (s : State) : State :=
  let s := if s.pwr.sc11 then s.loadTime else s
  let cold := s.rtc.coldPend
  let p := s.pwr
  let cause := if cold then 1 else p.cause
  let n := if cold then 0 else satN 32 (s.jrn.rstCount + 1)
  let w := pack [put 47 44 cause, putB 43 d1, putB 42 p.sc6, putB 41 p.sc7, putB 40 p.sc11, put 39 38 p.wd, put 31 0 n]
  let s := s.putJrn { s.jrn with rstCause := w, rstRdy := s.tb.q0, rstCount := n }
  let s := if d1 then s.sealSystem 1 [w, cyc s.jrn.rstOut, frc s.jrn.rstOut] else s
  let s := s.onPwr fun p => { p with ready := true, readyClk := s.tb.clk, phase := .running, cause := 0, wd := 0, fw := { p.fw with tries := 0 } }
  if p.sc6 ∨ p.sc11 ∨ s.modes.mode = 0 then s.modeRestart else s.newTicks
theorem becomeReady_held (d1 : Bool) (s : State) :
    ∃ cold, (s.becomeReady d1).held = ((s.readyBegins d1).readyRecords cold).held := by
  unfold State.becomeReady
  extract_lets +onlyGivenNames a cold p cause n w a1 b c d e f
  refine ⟨cold, ?_⟩
  have hf : f.held = ((s.readyBegins d1).readyRecords cold).held := rfl
  rw [ite_held, foldl_held _ (fun _ _ => resendFrom_held ..), sendsReady_held, ite_self, onPwr_held, onRtc_held]
  exact hf

/-! ## A search of Ndovos that an outage ended -/

/-- A search of Ndovos with TAG 1 and no capture. -/
def ownJob : Job := { slot := 0, jsn := 0, seq := 1, who := 15, tag := 1, prio := 0, npeak := 1, mask := 1, sig := 0, prn := 1, cps := 1, sec := false, coh := 1, noncoh := 1, bins := 1, dopCentre := 0, dopStep := 0, dopRate := 0, cpStart := 0, cpWidth := 1, thresh := 0, secPhase := 0, start := none, gran := 1, left := 0, todo := 0 }
/-- A module in bring-up, with that search aborted and not yet reported. -/
def outageState : State := ((W.putPwr { W.pwr with ready := false, phase := .bringup, sc11 := true, cause := 5 }).putRtc { W.rtc with sec := 9, coldPend := false }).putGale { W.gale with aborted := [ownJob] }
/-- The same after the replay, about to become ready. -/
def replayedState : State :=
  ((((outageState.elapse L0).storeTest 0 true).storeTest 1 true).reconcile []).linksOn.trimAbort.onRtc (fun r => { r with run := some ownTrim }) |>.trimWatch

theorem outageState_hyps : (outageState.elapse L0).pwr.phase = .bringup ∧ (outageState.elapse L0).isOn 1 = true ∧ (outageState.elapse L0).pwr.ready = false ∧
    (outageState.elapse L0).pwr.sc11 = true ∧ (outageState.elapse L0).rtc.coldPend = false := by decide +kernel
theorem outageState_cells : (outageState.elapse L0).mem.cells = [] := by decide +kernel
theorem outageState_sc6 : ((((outageState.elapse L0).storeTest 0 true).storeTest 1 true).reconcile []).pwr.sc6 = false := by decide +kernel
theorem replayedState_aborted : (replayedState.readyBegins true).gale.aborted = [ownJob] := by decide +kernel
theorem execReplay_outage : execReplay L0 true true [] outageState = .next (replayedState.becomeReady true) := by
  obtain ⟨hphase, hon, hready, -⟩ := outageState_hyps
  unfold execReplay
  dsimp only
  rw [if_pos ⟨hphase, hon, by rw [hready]; rfl⟩, outageState_sc6, if_neg Bool.false_ne_true]
  rfl

/-- The first word of that search's report: TAG 1, ABORTED. -/
def ownReportHead : Word := pack [put 47 32 1, put 31 20 0, put 19 16 3, put 15 12 0, putB 11 false, putB 10 false, putB 9 false, putB 8 false]
theorem ownReportHead_ne_zero : ownReportHead ≠ 0 := by decide
theorem ownJob_report (cs : List Capture) (fr : Nat) : ∃ ws, ownJob.report cs fr 3 = ownReportHead :: ws ∧ ws.length = 3 := ⟨_, rfl, rfl⟩
/-- The report's first word stands in shared memory once it is written. -/
theorem galeReady_stores {s : State} (h : s.gale.aborted = [ownJob]) :
    s.galeReady.mem.read ((Config.galeReport 0 0).toNat % 2 ^ 24) = ownReportHead := by
  obtain ⟨fr, cs, hmem⟩ := galeReady_own (by decide) h
  obtain ⟨ws, hws, hlen⟩ := ownJob_report cs fr
  have hread := Memory.read_writes s.mem (Config.galeReport 0 0).toNat 0 (ownReportHead :: ws) (by simp) (by simp [hlen])
  rw [hmem, hws]
  exact hread
theorem Memory.read_none {m : Memory} (h : m.cells = []) (a : Nat) : m.read a = 0 := by
  simp [Memory.read, h, cellRead, word]

/-- Refutes O56: its clause on REPLAY claims that shared memory stays, but where an outage has ended a search of Ndovos the report that waited for ready is written to its place there (R97, R99). -/
theorem not_powerLifecycle : ¬ Obligations.PowerLifecycle := by
  intro h
  obtain ⟨-, -, hreplay, -⟩ := h
  obtain ⟨hphase, hon, hready, hsc11, hcold⟩ := outageState_hyps
  obtain ⟨u, hu, -, -, -, -, -, -, -, -, -, -, hmem⟩ := (hreplay L0 true true [] outageState).1 hphase hon hready hsc11 hcold
  have hnext : u = replayedState.becomeReady true := Host.Outcome.next.inj (hu.symm.trans execReplay_outage)
  obtain ⟨cold, hbecome⟩ := becomeReady_held true replayedState
  obtain ⟨b, hrecords, hgale⟩ := readyRecords_galeReady cold (replayedState.readyBegins true)
  rw [← hnext, hrecords] at hbecome
  have hcells : u.mem.cells = b.galeReady.mem.cells := congrArg Prod.fst hbecome
  rw [hmem, outageState_cells] at hcells
  have hword := galeReady_stores ((congrArg Gale.aborted hgale).trans replayedState_aborted)
  rw [Memory.read_none hcells.symm] at hword
  exact ownReportHead_ne_zero hword.symm

end Sys2Proof.Machine
end
